-- ==== Sys2Proof/Word.lean ====
section
/-! DEFINITION. The byte, and the plain words the manual numbers bit by bit (00_scope.md, R12, R13). -/

namespace Sys2Proof

/-- One byte of a message, a buffer or a record. -/
abbrev Byte := BitVec 8

/-- A 64-byte line: a sprue message (R87) or a tap record (R102). Byte 0 is the least significant byte (R12). -/
abbrev Line := BitVec 512

/-- The largest 64-bit value: an unlimited budget (R336), the ceiling of the saturating counters (R351). -/
def max64 : Nat := 0xFFFFFFFFFFFFFFFF

/-- The identifier of a position filled from an audio frame (R75, R197). -/
def frameToken : Nat := 0xFFFFFFFF

/-- The position limit of a session (R55). -/
def maxPositions : Nat := 1048576

end Sys2Proof
end

