-- ==== Sys2Proof/Content.lean ====
section
/-! DEFINITION. What a session holds that can travel whole: outcome codes, states, duplicate windows, queued input, pages, recurrent state and
the request (chapters 2, 3, 15); SWITCH_OVER carries them between packages (Table 14-5, step 4). -/

namespace Sys2Proof.Machine

/-- Outcome codes (Table 21-9). -/
inductive OCode where
  | done | partialRes | stopped | length | toolCall | cancelled | barged | nothingToCancel | deadline | late
  | grammarDeadend | invalidText | tierFault | tierLate | storeFull | storeWorn | staleEpoch | duplicate
  | tenantRetiring | jobTornDown | lost | truncated | commitConflict | checkFailed | notSupported | malformed
  deriving DecidableEq, Repr

/-- Session states (Table 2-2). -/
inductive SState where
  | free | opened | active | waitingTool | warm | parked | moving | closed | lost
  deriving DecidableEq, Repr

/-- Conditions of a page (Table 2-8). -/
inductive Cond where
  | molten | casting | cast | frozen
  deriving DecidableEq, Repr

/-- An entry of a duplicate window (Table 3-9); `outcome` is absent while pending. -/
structure WinEntry where
  seq      : Nat
  outcome  : Option OCode := none
  opcode   : Nat := 0
  position : Nat := 0
  deriving DecidableEq, Repr

/-- A duplicate window (R98, Table 3-9): its highest number, absent while it holds no entry, its entries 0 to 63, and the index of the oldest,
which the next entry replaces once all are in use. -/
structure Window where
  highest : Option Nat := none
  entries : List WinEntry := []
  next    : Nat := 0
  deriving DecidableEq, Repr

/-- Which window a message entered (R94): its session's or its function's. -/
inductive WinRef where
  | session (handle : Nat)
  | function (fn : Nat)
  deriving DecidableEq, Repr

/-- One element of a session's queued input (R132): a run of token identifiers, or a frame with its number, the message's
sequence, its remaining allowance and whether its lateness was answered. `inReq` marks input queued inside the request (R300). -/
inductive QItem where
  | text (toks : List Nat) (inReq : Bool)
  | frame (number seq positions : Nat) (allowance : Option Nat) (answered : Bool) (order : Nat) (inReq : Bool)
  deriving DecidableEq, Repr

/-- The frame of a T1 copy, and the address of a lower copy, that no space has been given yet. -/
def noFrame : Nat := 0xFFFFFFFF
def noAddress : Nat := 0xFFFFFFFFFFFFFFFF

/-- A KV page of one row and attention layer (R66 to R71), with its page-table entry (Table 2-8): its page handle, 0 until one is issued,
condition, fill, copies (bits 5 to 0), addresses, the pools of its T2 copies in order, the link of its H copy; the KV heads it holds where a
shard holds fewer than the model's (R172), patterns, the FP32 key sums kept beside a molten page (R78), the stored elements per position and
head, its cache entry's count (R160) and the number of the last selection that took it (R229). -/
structure Page where
  handle   : Nat := 0
  row      : Nat
  layer    : Nat
  cond     : Cond := .molten
  fill     : Nat := 0
  mx4      : Bool := false
  inH      : Bool := false
  inStore  : Bool := false
  second   : Bool := false
  first    : Bool := false
  inT1     : Bool := true
  frame    : Nat := noFrame
  lower0   : Nat := noAddress
  lower1   : Nat := noAddress
  pools    : List Nat := []
  hLink    : Nat := 0
  patterns : List (BitVec 128) := []
  sums     : List (List Nat) := []
  keys     : List (List (List Nat)) := []
  values   : List (List (List Nat)) := []
  unselected : Nat := 0
  selected : Bool := false
  lastSel  : Nat := 0
  heads    : Option Nat := none
  deriving DecidableEq, Repr

/-- A block of a session other than a KV page, with its page-table entry (Table 2-8, R70, R74, R75, R222): kind 2 a recurrent block, 3 a
snapshot's, 4 a page-map block, 5 a pattern block, 6 the window block; `layer` is 0xFFFF where it is tied to none; `index` is the snapshot's
position, the map block's number from 1 with 0 for the header, or the pattern block's number; `frame2` is the frame of the second T1 copy that
a duplicated table has. -/
structure Blk where
  handle : Nat := 0
  kind   : Nat
  layer  : Nat := 0xFFFF
  index  : Nat := 0
  size   : Nat := 0
  cond   : Cond := .molten
  inT1   : Bool := true
  frame  : Nat := noFrame
  frame2 : Nat := noFrame
  first  : Bool := false
  second : Bool := false
  inH    : Bool := false
  lower0 : Nat := noAddress
  lower1 : Nat := noAddress
  pools  : List Nat := []
  hLink  : Nat := 0
  deriving DecidableEq, Repr

/-- A leaf of the page table (R221): its range of 2,048 handles, the frames of its two leaf blocks, and its frozen copies in T2. -/
structure Leaf where
  range  : Nat
  frozen : Bool := false
  frame  : Nat := noFrame
  frame2 : Nat := noFrame
  second : Bool := false
  lower0 : Nat := noAddress
  lower1 : Nat := noAddress
  pools  : List Nat := []
  deriving DecidableEq, Repr

/-- A recurrent or carry block (R72, R197): per head the FP32 state in bits. -/
structure RecBlock where
  layer : Nat
  heads : List (List Nat)
  deriving DecidableEq, Repr

/-- A recurrent snapshot set (R73). -/
structure Snapshot where
  pos    : Nat
  blocks : List RecBlock
  deriving DecidableEq, Repr

/-- The input text state (R277 to R282). `atStart` where the next text starts one (R284): after a closing, and after OPEN too (log entry 205). -/
structure TextState where
  offset  : Nat := 0
  pend    : List Byte := []
  tail    : List Nat := []
  piece   : List Nat := []
  atStart : Bool := true
  deriving DecidableEq, Repr

/-- A mould context (R299): state and stack, top first; `advance` is the token due at the next mask, `failed` the state
before an advance that failed (R302). -/
structure MouldCtx where
  state   : Nat
  stack   : List Nat := []
  advance : Option Nat := none
  failed  : Option Nat := none
  deriving DecidableEq, Repr

/-- A request (Table 3-6, Table 15-5). `out` holds the released tokens of the request with their positions and output
bytes, `delivered` how many of them the host has received, `callFrom` the index in it of the first token after an open tool call. -/
structure Request where
  seq       : Nat
  win       : WinRef
  maxTokens : Nat
  mould     : Nat := 0
  dclass    : Nat := 0
  greedy    : Bool := false
  allowance : Nat := 0
  paused    : Bool := false
  temperature : Nat := 0
  topP      : Nat := 0
  topK      : Nat := 0
  stops     : List (List Byte) := []
  clientTag : Nat := 0
  count     : Nat := 0
  ctx       : Option MouldCtx := none
  out       : List (Nat × List Byte) := []
  delivered : Nat := 0
  callFrom  : Option Nat := none
  deriving DecidableEq, Repr

/-- An outstanding call (R145 to R147). A result queued and not yet committed (Table 4-6) keeps its call: the queued positions ahead of it, its
own positions still queued, and whether a position of it is released. -/
inductive Call where
  | host (number : Nat)
  | onDevice (number query : Nat)
  | result (number ahead left : Nat) (begun : Bool)
  deriving DecidableEq, Repr

/-- What a switch-over brings into the destination's window, with the pages copied before it (Table 14-5, steps 3 and 4). -/
structure Moved where
  tenant     : Nat
  model      : Nat
  durability : Nat := 0
  oneShot    : Bool := false
  strict     : Bool := false
  normForm   : Nat := 3
  clientTag  : Nat := 0
  before     : SState := .opened
  p          : Nat := 0
  w          : Nat := 0
  pendingTok : Option Nat := none
  tokens     : List Nat := []
  pages      : List Page := []
  blocks     : List RecBlock := []
  snapshots  : List Snapshot := []
  window     : Window := {}
  text       : TextState := {}
  queue      : List QItem := []
  request    : Option Request := none
  calls      : Nat := 0
  call       : Option Call := none
  frameData  : List (Nat × List Byte) := []
  deriving DecidableEq, Repr

end Sys2Proof.Machine
end

