-- ==== Sys2Proof/Syntax.lean ====
section
/-! DEFINITION. The commands of the block: one constructor of `Instr` per row of the table of operations and events,
and the operand types they carry (95_what_each_step_holds.md; the chapter of each row). -/

namespace Sys2Proof

/-- What the device reads from a host-memory buffer that a message names; `none` when the read fails (Table 3-2, check 7). -/
abbrev HostBuf := Option (List Byte)

/-- A sprue message as it arrives: the function whose window received it, the slot, and the 64 bytes of Table 3-1. -/
structure Sprue where
  fn   : Nat
  slot : Nat
  w    : Line
  deriving DecidableEq, Repr

/-- Why the device discards a sprue write (R91). -/
inductive DiscardCause where
  | short | misaligned | spansTwo | slotHeld
  deriving DecidableEq, Repr

/-- The header of a mailbox request (Table 3-15) and the function that wrote GO. -/
structure MbReq where
  fn        : Nat
  minor     : Nat
  tag       : Nat
  length    : Nat
  partition : Nat
  deriving DecidableEq, Repr

/-! ### Model programs (chapter 6) -/

/-- Block descriptor (Table 6-6). -/
structure BlockDesc where
  mixer        : Nat
  ffn          : Nat
  pageFormat   : Nat
  weightFormat : Nat
  activation   : Nat
  positional   : Nat
  skipFloor    : Nat
  rotaryBase   : Nat
  ffnWidth     : Nat
  stateBytes   : Nat
  stateHeads   : Nat
  stateDim     : Nat
  firstTensor  : Nat
  tensorCount  : Nat
  deriving DecidableEq, Repr

/-- Tensor directory entry (Table 6-7). -/
structure TensorEntry where
  offset  : Nat
  length  : Nat
  format  : Nat
  role    : Nat
  expert  : Nat
  rows    : Nat
  columns : Nat
  block   : Nat
  deriving DecidableEq, Repr

/-- Model program: the header of Table 6-5 with its block table and tensor directory. -/
structure ModelProgram where
  magicOk         : Bool
  version         : Nat
  hidden          : Nat
  queryHeads      : Nat
  kvHeads         : Nat
  headDimCode     : Nat
  parameters      : Nat
  vocabulary      : Nat
  experts         : Nat
  routed          : Nat
  shared          : Nat
  gateMode        : Nat
  norm            : Nat
  snapshotSpacing : Nat
  snapshotDepth   : Nat
  epsilon         : Nat
  scoreScale      : Nat
  endToken0       : Nat
  endToken1       : Nat
  toolOpen        : Nat
  toolClose       : Nat
  projectionSeed  : Nat
  frameBytes      : Nat
  framePositions  : Nat
  sampleFormat    : Nat
  normalisation   : Nat
  recallWidths    : Nat
  tokeniser       : Nat
  encoders        : List BlockDesc
  decoders        : List BlockDesc
  blockTable      : Nat := 0
  directory       : Nat := 0
  tensors         : List TensorEntry
  programLength   : Nat
  digest          : List Byte
  deriving DecidableEq, Repr

/-! ### Contents of an Alsol image (chapters 9, 10, 17) -/

/-- A pre-split automaton over code-point classes (R282): class ranges, the class of every other code point, the start
state, the accepting states and the next state of each (state, class), absent where the run fails. -/
structure PreSplit where
  classes    : List (Nat × Nat × Nat)
  otherClass : Nat
  start      : Nat
  accept     : List Nat
  next       : List (List (Option Nat))
  deriving DecidableEq, Repr

/-- A tokeniser table (Table 9-2). `merges` are (left, right, result) in ascending rank; `scores` are FP32 bits. -/
structure Tokeniser where
  number    : Nat
  kind      : Nat
  byteFallback : Bool
  addSpace  : Bool
  longest   : Nat
  unknown   : Nat
  space     : Nat
  tokens    : List (List Byte)
  special   : List Bool
  byteTokens : List Nat
  merges    : List (Nat × Nat × Nat)
  scores    : List Nat
  presplit  : PreSplit
  version   : Nat
  deriving DecidableEq, Repr

/-- Operation of a transition entry (Table 9-4). -/
inductive MouldOp where
  | none | push | pop | reject
  deriving DecidableEq, Repr

/-- A transition entry (Table 9-4). -/
structure MouldTrans where
  next   : Nat
  op     : MouldOp
  symbol : Nat
  deriving DecidableEq, Repr

/-- A mould state entry (Table 9-5) with its base mask and its dependent tokens. -/
structure MouldState where
  base       : List Nat
  dependents : List Nat
  bytes      : Nat
  deriving DecidableEq, Repr

/-- A mould program (Table 9-3). `trans` is state-major, one list of classes per state. -/
structure Mould where
  number    : Nat
  tokeniser : Nat
  classes   : Nat
  depth     : Nat
  start     : Nat
  resume    : Nat
  classMap  : List Nat
  trans     : List (List MouldTrans)
  states    : List MouldState
  length    : Nat
  deriving DecidableEq, Repr

/-- A result template (Table 10-5). -/
structure Template where
  number    : Nat
  pfx       : List Byte
  item      : List Byte
  separator : List Byte
  suffix    : List Byte
  none      : List Byte
  deriving DecidableEq, Repr

/-- Normalisation data (R485). -/
structure NormData where
  version      : Nat × Nat × Nat
  combining    : List (Nat × Nat × Nat)
  quickCheck   : List (Nat × Nat × Nat)
  canonical    : List (Nat × List Nat)
  compat       : List (Nat × List Nat)
  composites   : List (Nat × Nat × Nat)
  deriving DecidableEq, Repr

/-- One port of the board description (Table 17-5), or a port-role item's peer entry (Table 17-10). -/
structure PortDesc where
  role     : Nat
  peerKind : Nat
  peerPort : Nat
  peerUnit : Nat
  deriving DecidableEq, Repr

/-- Board description (Table 17-5). -/
structure BoardDesc where
  envelope       : Nat := 2000
  targetMv       : Nat := 750
  windowUs       : Nat := 1000000
  holdUpJ        : Nat := 300
  pSaveW         : Nat := 350
  chillRate      : Nat := 700
  slew           : Nat := 10
  chillModules   : Nat := 3
  mouldBudget    : Nat := 4000
  readTimeout    : Nat := 1000
  orphanUs       : Nat := 60000000
  channels       : Nat := 0
  targets        : Nat := 1
  luns           : Nat := 1
  planes         : Nat := 4
  bitsPerCell    : Nat := 3
  blockPages     : Nat := 384
  retryLevels    : Nat := 1
  eraseLimit     : Nat := 3000
  readLimit      : Nat := 1000000
  shares         : List Nat := [100, 0, 0, 0]
  exportFirst    : Nat := 0
  exportSlots    : Nat := 0
  laserModules   : List Nat := [0, 0, 0, 0]
  supplyMonitor  : Bool := false
  ports          : List PortDesc := []
  deriving DecidableEq, Repr

/-- Role section (Table 17-6). -/
structure RoleDesc where
  role    : Nat := 0
  domain  : Nat := 0xFFFF
  package : Nat := 0
  above   : Nat := 0
  deriving DecidableEq, Repr

/-! ### Staged items (Table 17-9) -/

/-- Flask item (Table 4-1). -/
structure FlaskItem where
  flask      : Nat
  priority   : Nat
  model      : Nat
  firstSlot  : Nat
  slotCount  : Nat
  pourBudget : Nat
  partition  : Nat
  deriving DecidableEq, Repr

/-- Roster item (Table 4-2). -/
structure RosterItem where
  flask      : Nat
  firstIndex : Nat
  handles    : List Nat
  deriving DecidableEq, Repr

/-- Bind item (Table 6-8): the host address and length of the model image, and the image read there, `none` when it cannot be read (R204). -/
structure BindItem where
  model     : Nat
  partition : Nat
  window    : Nat
  copies    : Nat
  address   : Nat
  length    : Nat
  image     : Option (List Byte)
  deriving DecidableEq, Repr

/-- Placement item (Table 7-6). -/
structure PlacementItem where
  kind       : Nat
  partition  : Nat
  owner      : Nat
  index      : Nat
  pools      : Nat
  residentT1 : Bool
  spillH     : Bool
  lateFirst  : Nat
  lateSecond : Nat
  deriving DecidableEq, Repr

/-- Spill item (Table 7-8). -/
structure SpillItem where
  partition : Nat
  link      : Nat
  address   : Nat
  length    : Nat
  deriving DecidableEq, Repr

/-- Index item (Table 10-1). -/
structure IndexItem where
  index        : Nat
  tenant       : Nat
  partition    : Nat
  width        : Nat
  capacity     : Nat
  degree       : Nat
  hub          : Nat
  breadth      : Nat
  buildBreadth : Nat
  shardCount   : Nat
  shardNumber  : Nat
  repairPct    : Nat
  copies       : Nat
  visitLimit   : Nat
  deriving DecidableEq, Repr

/-- Tenant item (Table 16-4). A capsule is given by whether it opens under the key-import key (R460) and by the
512-bit key it holds (R465). -/
structure TenantItem where
  tenant    : Nat
  action    : Nat
  partition : Nat
  capsule   : Option (Bool × Nat)
  link0     : Nat
  link1     : Nat
  label     : Nat
  deriving DecidableEq, Repr

/-- Partition item (Table 16-3). -/
structure PartitionItem where
  partition : Nat
  action    : Nat
  clusterMask : Nat
  stackMask : Nat
  link0     : Nat
  link1     : Nat
  deriving DecidableEq, Repr

/-- Shaper item (Table 11-10): share and limit of each class. -/
structure ShaperItem where
  port    : Nat
  classes : List (Nat × Nat)
  deriving DecidableEq, Repr

/-- Gate-list item (Table 11-10): entries of (open classes, length). -/
structure GateListItem where
  port     : Nat
  entries  : List (Nat × Nat)
  takeOver : Nat
  deriving DecidableEq, Repr

/-- One participant of a model group (Table 14-3). -/
structure Participant where
  package   : Nat
  die       : Nat
  firstHead : Nat
  heads     : Nat
  deriving DecidableEq, Repr

/-- A composition map record (Table 14-3). -/
inductive MapRecord where
  | package (number serial role above : Nat) (failed : Bool)
  | group (number model : Nat) (participants : List Participant)
  | pool (package pool bridge : Nat) (ports : List Nat) (extents : Nat) (partition : Nat)
  | shard (index shard package hub : Nat)
  | move (handle origin destination home alternate vector partition : Nat)
  deriving DecidableEq, Repr

/-- Restore item (Table 15-7). -/
structure RestoreItem where
  source        : Nat
  sourcePackage : Nat
  checkpoint    : Nat
  exportAddr    : Nat
  model         : Nat
  firstHead     : Nat
  heads         : Nat
  share         : Nat
  shares        : Nat
  deriving DecidableEq, Repr

/-- Recall-tool setting (Table 4-7). -/
structure RecallTool where
  enabled  : Bool
  width    : Nat
  index    : Nat
  k        : Nat
  template : Nat
  require  : Nat
  exclude  : Nat
  name     : List Byte
  deriving DecidableEq, Repr

/-- The body of a staged item, by kind (Table 17-9). `inconsistent` is an item whose header or length does not agree (R496). -/
inductive ItemBody where
  | flask (b : FlaskItem)
  | roster (b : RosterItem)
  | bind (b : BindItem)
  | unbind (model : Nat)
  | placement (b : PlacementItem)
  | spill (b : SpillItem)
  | index (b : IndexItem)
  | tenant (b : TenantItem)
  | partition (b : PartitionItem)
  | portRole (port : Nat) (d : PortDesc)
  | shaper (b : ShaperItem)
  | gateList (b : GateListItem)
  | composition (add remove : List MapRecord)
  | restore (b : RestoreItem)
  | selection (budget linger : Nat)
  | recallTool (b : RecallTool)
  | scheduling (tenant weight initial lowMark : Nat)
  | residency (idle wait warm park : Nat)
  | policing (rate depth : Nat)
  | quantisation (mode : Nat)
  | inconsistent
  deriving DecidableEq, Repr

/-- A staged item: its header (Table 17-8) and body. `bytes` is the size it takes in the set (R496). -/
structure Item where
  tenant  : Nat
  hostTag : Nat
  bytes   : Nat
  body    : ItemBody
  deriving DecidableEq, Repr

/-- The staged-state section (R488); `cmacOk` says whether its CMAC verifies. -/
structure StagedSection where
  cmacOk : Bool
  commit : Nat
  items  : List Item
  deriving DecidableEq, Repr

/-- An Alsol image (R482 to R490). The cryptographic verdicts of R484 stand as they come out for this package. -/
structure Image where
  part            : Nat
  stepping        : Nat
  imageVersion    : Nat
  securityVersion : Nat
  lengthFits      : Bool
  digestsOk       : Bool
  manifestOk      : Bool
  ownerKey        : Nat
  ownerSigOk      : Bool
  endorsedBy      : Option Nat
  digest          : Nat
  norm            : Option NormData
  tokenisers      : List Tokeniser
  moulds          : List Mould
  templates       : List Template
  board           : BoardDesc
  role            : RoleDesc
  partitions      : List PartitionItem
  staged          : Option StagedSection
  deriving DecidableEq, Repr

/-! ### Operands of the device's own events -/

/-- What a start finds on the board and in the package: which NOR reads answer, what trained at step 7, and what of the
durable stores reads back (Table 19-3, steps 2, 7, 8 and 9). Masks have bit n set for a unit that passes. -/
structure StartObs where
  norReadable   : Bool
  stacksOk      : Nat
  channelsOk    : Nat
  chillPresent  : Nat
  digestOk      : List Bool
  poolsPresent  : Nat
  anchorOk      : Bool
  recallOk      : Bool
  deriving DecidableEq, Repr

/-- A self-test finding (Table 19-5). -/
inductive Finding where
  | cluster (die position : Nat)
  | runnerGroup (runner bundle : Nat) (dir : Bool) (group : Nat)
  | runnerBundle (runner bundle : Nat)
  | port (port wavelength : Nat)
  | dieCommon (die : Nat)
  | hub (hub : Nat)
  deriving DecidableEq, Repr

/-- The package's supply rails (Table 20-2). -/
inductive Rail where
  | vcoreSc (die : Nat) | vcorePx (die : Nat) | vcoreHub (hub : Nat)
  | vsram | vhbmDd | vhbmDq | vhbmPp | vpho | vio | vioNf | vaux
  deriving DecidableEq, Repr

/-- What the power core reads at step 2 of a pour (R367, R369, R375): junction temperatures of dies 0 to 7 in whole degrees, absent
for an open or shorted diode; the millijoules its meter measured in the last span of each length it was read for, in microseconds;
the power of the rails the ledger does not set; the bytes that R210 adds to the weights, fetched from T2 and read and written in T1; and the time since time
was last counted. -/
structure PlanObs where
  temps       : List (Option Nat)
  window      : List (Nat × Nat)
  fixedMw     : Nat
  fetchBytes  : Nat
  t1Bytes     : Nat
  elapsedUs   : Nat
  deriving DecidableEq, Repr

/-- What a recurrent mixer takes from its input for one head of one position, in FP32 bits (R196): decay, key, value, query. -/
structure RecIn where
  decay : Nat
  key   : List Nat
  value : List Nat
  query : List Nat
  deriving DecidableEq, Repr

/-- What the tensors alone give one session's work of a pour in one layer (Table 4-3, step 4): for a recurrent layer per position and head what the
mixer takes from its input (R196), and for a shard entry at the first layer the BF16 vectors of the positions that participant 0's input gives it
(R420). -/
structure LayerWork where
  handle    : Nat
  recurrent : List (List RecIn) := []
  input     : List (List Nat) := []
  deriving DecidableEq, Repr

/-- What the clusters bring out of one layer of a pour. -/
structure LayerObs where
  works    : List LayerWork
  elapsedUs : Nat
  deriving DecidableEq, Repr

/-- What step 6 takes from outside for one sampling slot: the 32-bit draw of the entropy source (R293). -/
structure SampleObs where
  handle : Nat
  draw   : Nat
  deriving DecidableEq, Repr

/-- Engine time in nanoseconds and bytes moved on one die (Table 11-6), in the table's order from tensor time to host link. -/
structure Use where
  tensorNs   : Nat := 0
  attnNs     : Nat := 0
  patternNs  : Nat := 0
  textNs     : Nat := 0
  mouldNs    : Nat := 0
  recallNs   : Nat := 0
  storeNs    : Nat := 0
  t1Read     : Nat := 0
  t1Written  : Nat := 0
  t2Read     : Nat := 0
  t2Written  : Nat := 0
  t3Read     : Nat := 0
  t3Written  : Nat := 0
  hRead      : Nat := 0
  hWritten   : Nat := 0
  runner     : Nat := 0
  fabricSent : Nat := 0
  fabricRecv : Nat := 0
  hostLink   : Nat := 0
  deriving DecidableEq, Repr

/-- What a pour boundary's measurement brings (R48, R351, R352, R368, R379): time since time was last counted; per SC die the measured
rate factor in parts per million, dynamic energy and leakage; what each sensor integrated since the last boundary, as die, rail and microjoules, the
rails of a die being 0 core, 1 SRAM, 2 HBM, 3 photonic, 4 I/O, 5 auxiliary (Table 12-1); the work measured per die that the pour's slots share; and that
of each tenant alone. -/
structure BoundaryObs where
  elapsedUs : Nat
  rates     : List (Nat × Nat × Nat) := []
  sensed    : List (Nat × Nat × Nat) := []
  shared    : List (Nat × Use) := []
  own       : List (Nat × Nat × Use) := []
  deriving DecidableEq, Repr

/-- What an uncorrectable T1 line held (Table 7-11). -/
inductive LineHeld where
  | cacheEntry (handle row layer : Nat)
  | weights (model block : Nat)
  | moltenPage (handle layer : Nat)
  | recurrent (handle : Nat) (newestIntact : Option Nat)
  | pattern (handle layer : Nat)
  | oneCopy
  | sessionTable (handle : Nat)
  | directory (handles : List Nat)
  | backlog (fn : Nat)
  | landing (group : Nat)
  | t0 (die cluster : Nat)
  deriving DecidableEq, Repr

/-- What a NAND page read found (R259): decoded, decoded only after a retry or above 75 % of the correction limit,
rebuilt from parity or from the second copy, or lost. -/
inductive NandRead where
  | decoded | weak | rebuilt | lost
  deriving DecidableEq, Repr

/-- What a NAND page belongs to: the part of an ingot, a trickle run, a head, a list or a journal page (Table 8-7). -/
inductive NandPage where
  | row (row : Nat) | map | patterns | recurrent | head | list | parity | trickle (row : Nat) | journal
  deriving DecidableEq, Repr

/-- An identity block (Table 13-2). -/
structure Identity where
  kind   : Nat
  port   : Nat
  unit   : Nat
  domain : Nat
  role   : Nat
  serial : Nat
  deriving DecidableEq, Repr

/-- A fabric header slot (Table 13-7). -/
structure FabricHdr where
  kind   : Nat
  cls    : Nat
  count  : Nat
  dest   : Nat
  source : Nat
  window : Nat
  offset : Nat
  tag    : Nat
  epoch  : Nat
  reason : Nat
  deriving DecidableEq, Repr

/-- A runner line as the receiver sees it (Table 1-5a): CRC, whether every group carried a legal code, the sequence number, the line kind
and the line. `dir` is its direction, from the runner's second die to its first where set; `src` and `dst` are the engines it joins (R35);
`badGroup` is the group a failure is attributed to; `was` is the number, kind and line that the sender put on the bundle, where what arrived
differs; `waiting` says whether the other direction has a data line waiting (R36). -/
structure RunnerLine where
  runner   : Nat
  bundle   : Nat
  dir      : Bool := false
  src      : Nat := 0
  dst      : Nat := 0
  was      : Option (Nat × Nat × Line) := none
  waiting  : Bool := false
  crc      : Nat
  legal    : Bool
  seq      : Nat
  kind     : Nat
  data     : Line
  badGroup : Option Nat
  deriving DecidableEq, Repr

/-- One direction of a bundle of a runner (Table 1-5a), from the runner's second die to its first where `dir` is set. -/
structure BundleSide where
  bundle : Nat
  dir    : Bool
  deriving DecidableEq, Repr

/-- The bits that a write of SRC_CFG brings beside the priority (Table 18-9): enable, set, and a 1 that clears pending. -/
structure SrcBits where
  enable : Bool
  set    : Bool
  clear  : Bool
  deriving DecidableEq, Repr

/-- A firmware core (Table 18-1): class 0 scheduler, 1 security, 2 power, of hub `unit`; class 3 the cluster control core
of physical position `pos` of SC die `unit`. -/
structure CoreId where
  cls  : Nat
  unit : Nat
  pos  : Nat
  deriving DecidableEq, Repr

/-- Why a core faults (R507). -/
inductive CoreFaultCause where
  | watchdog | illegal | shadowOverflow
  deriving DecidableEq, Repr

/-- A manager message entry (Table 14-2): its header fields as received; the body is the row's own operand. -/
structure MgrHdr where
  source  : Nat
  epoch   : Nat
  seq     : Nat
  handle  : Nat
  crcOk   : Bool
  deriving DecidableEq, Repr

/-- A configuration request's register (R532, R462, R576). -/
inductive CfgReg where
  | numVFs | bar (n : Nat) | msixEnable | other
  deriving DecidableEq, Repr

/-- The commands the block takes, one constructor per row of the table of operations and events. -/
inductive Instr where
  -- sprue messages (Table 3-3)
  | openSession (m : Sprue)
  | appendText (m : Sprue) (buf : HostBuf)
  | appendFrame (m : Sprue) (buf : HostBuf)
  | generate (m : Sprue) (stops : HostBuf)
  | toolResult (m : Sprue) (buf : HostBuf)
  | cancel (m : Sprue)
  | barge (m : Sprue)
  | park (m : Sprue)
  | close (m : Sprue)
  | recallQuery (m : Sprue) (query : HostBuf)
  | memorize (m : Sprue) (code : HostBuf)
  | forget (m : Sprue)
  | tapRelease (m : Sprue)
  | budget (m : Sprue)
  | clockForward (m : Sprue)
  | unknownOpcode (m : Sprue)
  | sprueWriteDiscarded (fn : Nat) (cause : DiscardCause)
  -- mailbox operations (Table 3-16)
  | identify (r : MbReq)
  | stage (r : MbReq) (items : List Item)
  | check (r : MbReq) (cursor : Nat)
  | commit (r : MbReq) (token pour : Nat)
  | discardSet (r : MbReq)
  | discardCommit (r : MbReq)
  | persistState (r : MbReq)
  | persistImage (r : MbReq) (img : Option Image)
  | attestChain (r : MbReq) (cursor : Nat)
  | attestNative (r : MbReq) (cursor nonce : Nat)
  | attestSnirdaob (r : MbReq) (cursor nonce : Nat)
  | accountRead (r : MbReq) (tenant : Nat) (peek : Bool) (cursor : Nat)
  | healthRead (r : MbReq) (sect cursor : Nat)
  | logRead (r : MbReq) (start : Nat)
  | shutdownSelfTest (r : MbReq)
  | shutdownOrderly (r : MbReq)
  | hubRoll (r : MbReq)
  | shutdownServingReset (r : MbReq)
  | shutdownPackageReset (r : MbReq)
  | preemptStop (r : MbReq)
  | preemptLive (r : MbReq)
  | tapSetup (r : MbReq) (base logSize : Nat)
  | vectorSet (r : MbReq) (vector count interval : Nat)
  | recoverImage (r : MbReq) (img : Option Image)
  | recoverFormat (r : MbReq) (ns : Nat)
  | recoverHealthRecord (r : MbReq)
  | unknownOperation (r : MbReq) (op sub : Nat)
  -- registers, resets, links and board signals
  | mbCtrlClear (fn : Nat) (done rejected : Bool)
  | registerWrite (fn bar offset value : Nat)
  | functionLevelReset (fn : Nat)
  | hostLinkDown (link : Nat) (perst : Bool)
  | hostLinkUp (link : Nat) (perst : Bool)
  | preemptNAssert (lowNs : Nat)
  | preemptNArmed
  | servingReset (lowNs : Nat)
  | packageReset (lowNs : Nat)
  | powerGood (obs : StartObs)
  | norTakeoverHubB (obs : StartObs)
  | selfTestEnd (findings : List Finding) (obs : StartObs)
  | railOutOfRange (rail : Rail) (mv : Int)
  | vauxWarning (mv lowNs : Nat)
  | thermtrip (die : Nat)
  | pllLossOfLock (die : Nat)
  | pllLockRegained (die : Nat)
  -- pours
  | pourPlan (obs : PlanObs)
  | layerComplete (obs : LayerObs)
  | weightBlockArrived (model block : Nat)
  | weightReadFailed (model block : Nat)
  | masksReady
  | samplingDone (obs : List SampleObs)
  | releaseMirrorAck (obs : BoundaryObs)
  | pourBarrier (elapsedUs : Nat)
  | commitBarrierIdle
  | gateListTakeover (port : Nat)
  | clusterFault (die cluster : Nat)
  | rotationStart (die : Nat)
  | rotationTestEnd (die : Nat) (passed : Bool)
  -- allowances and the tap
  | residencyAllowanceExpiry (handle : Nat)
  | directorySweep (elapsedUs : Nat)
  | hardDeadlineExpiry (handle : Nat)
  | softDeadlineExpiry (handle : Nat)
  | frameAllowanceExpiry (handle frame : Nat)
  | answerBlockTimeout (fn : Nat)
  | backlogDrain (fn : Nat)
  | vectorIntervalExpiry (fn vector : Nat)
  -- residency and memory tiers
  | demotionCommit (handle : Nat)
  | revivalPhase1End (handle : Nat)
  | remeltPhase2End (handle : Nat)
  | ingotCommit (handle : Nat)
  | pageCast (handle row layer : Nat)
  | writeDownFailed (handle row layer : Nat)
  | stalledWriteResume (partition : Nat)
  | storeCopyCommit (handle row : Nat)
  | demandFetchComplete (handle row layer : Nat)
  | demandFetchLate (handle row layer : Nat)
  | demandFetchFailed (handle row layer : Nat)
  | frozenReadLate (handle : Nat)
  | bridgeFatalError (pool : Nat)
  | hbmUncorrectable (stack region : Nat) (held : LineHeld)
  | hbmCorrected (stack region meterS : Nat)
  | patrolScrub (die : Nat)
  -- the parking store
  | nandReadComplete (hub group object : Nat) (page : NandPage) (found : NandRead)
  | nandProgramComplete (hub group object pages : Nat) (page : NandPage) (ok : Bool)
  | nandEraseComplete (hub group : Nat) (ok : Bool)
  | journalFlushTimer (hub : Nat)
  | channelRetrainTimer (channel : Nat) (passed : Bool)
  -- the recall engine
  | recallQueryComplete (query : Nat)
  | recallReadLate (query : Nat)
  | recallReadFailed (query : Nat)
  | memorizeLive (index key : Nat)
  | repairPassEnd (index shard : Nat)
  | indexDeleteEffect (index shard : Nat)
  -- the energy ledger
  | envelopeOverrun
  | avsbusWriteUnacked (rail requestedMv : Nat)
  | thermalRead (temps : List (Option Nat))
  | chillModuleLost (hub : Nat)
  -- Kofatus links and the fabric
  | portTrained (port : Nat) (width : Nat) (swap : Bool) (peer : Identity) (linkUp : Bool)
  | portTrainingTimeout (port step : Nat)
  | wavelengthSpare (port : Nat) (out : Bool) (wavelength unacked : Nat)
  | portLightLost (port : Nat) (noLight : Bool) (unacked : Nat)
  | laserFeedLow (port : Nat) (lost : List Nat) (unacked : Nat)
  | laserFeedRestored (port : Nat)
  | linkLayerFatal (port unacked : Nat)
  | portRetryInterval (port lines : Nat)
  | portRoleDrained (port lines : Nat)
  | fabricWriteReceived (port : Nat) (h : FabricHdr) (lines : List Line)
  | fabricReadRequest (port : Nat) (h : FabricHdr)
  | fabricReadResponse (port : Nat) (h : FabricHdr)
  | fabricReadTimeout (tag : Nat)
  | fabricNotice (h : FabricHdr)
  | runnerLineReceived (l : RunnerLine)
  | runnerResendRequest (runner : Nat) (side : BundleSide) (seq : Nat)
  | runnerStuckWire (runner : Nat) (side : BundleSide) (group : Nat)
  | runnerSparingNotice (runner : Nat) (side : BundleSide) (group : Nat)
  -- firmware cores and event controllers
  | coreFault (core : CoreId) (cause : CoreFaultCause)
  | watchdogWrite (core : CoreId)
  | watchdogHalfPeriod (core : CoreId)
  | watchdogExpiry (core : CoreId)
  | heartbeat
  | heartbeatMissed
  | hubCoresRejoin (hub : Nat)
  | configurationMirrorAck
  | hubRollHubReady (ok : Bool)
  | eventSourceFire (core : CoreId) (source : Nat)
  | evcEosWrite (core : CoreId) (source : Nat) (ie : Bool)
  | srcCfgSet (core : CoreId) (source priority : Nat) (bits : SrcBits) (ie : Bool)
  | srcCfgPendingClear (core : CoreId) (source priority : Nat) (enable ie : Bool)
  | evcDeliverWrite (core : CoreId) (value : Bool) (base : Nat) (ie : Bool)
  | coreWait (core : CoreId) (ie : Bool)
  | meterAlarm (core : CoreId)
  | semaphoreAcquire (die sem ctx : Nat)
  | semaphoreRelease (die sem ctx : Nat)
  | semaphoreRevokedClear (die sem : Nat)
  -- manager messages
  | join (h : MgrHdr) (serial serialEnd : Nat)
  | joinAnswer (h : MgrHdr) (number : Nat) (serialEnd : Nat)
  | mapPublish (h : MgrHdr) (epoch : Nat) (records : List MapRecord)
  | mapApplied (h : MgrHdr) (epoch : Nat)
  | epochRetired (h : MgrHdr) (epoch : Nat)
  | lookup (h : MgrHdr)
  | lookupAnswer (h : MgrHdr) (holder : Option Nat)
  | moveBegin (h : MgrHdr) (origin destination home alternate vector : Nat)
  | moveReady (h : MgrHdr) (window : Nat)
  | migrationCopyDone (handle : Nat)
  | switchOver (h : MgrHdr) (m : Machine.Moved)
  | prepared (h : MgrHdr)
  | committed (h : MgrHdr)
  | aborted (h : MgrHdr) (reason : Nat)
  | teardown (h : MgrHdr) (group : Nat)
  | teardownDone (h : MgrHdr) (group : Nat)
  | poisonedReadReport (h : MgrHdr) (source destination window reason : Nat)
  | directoryUpdate (h : MgrHdr) (holder state : Nat)
  | recallFanOut (h : MgrHdr) (op index shard k require exclude key tags : Nat) (code : List Byte) (query : Nat)
  | recallAnswer (h : MgrHdr) (query shard : Nat) (outcome : Nat) (results : List (Nat × Nat × Nat))
  | registryUpdate (h : MgrHdr) (tenant partition : Nat) (present : Bool)
  | acknowledge (h : MgrHdr) (seq : Nat)
  | managerResendTimeout (peer seq : Nat)
  | checkpointNotice (h : MgrHdr) (kind : Nat)
  | checkpointAnswer (h : MgrHdr) (number slot length outcome : Nat)
  -- checkpoints, shutdown, tenants, binding
  | checkpointCut
  | checkpointCommit
  | checkpointFailed (modulesLeft : Nat)
  | orphanAllowanceExpiry
  | linkOrphanExpiry (link : Nat)
  | tenantKeyDestroyed (tenant : Nat)
  | tenantDrainComplete (tenant : Nat)
  | tenantRemovalComplete (tenant : Nat)
  | bindStreamComplete (model bytes : Nat) (readOk writeOk : Bool) (hash : List Byte)
  | noiseSourceFailure (hub : Nat)
  -- test access, debug, management
  | bypass
  | samplePreload
  | extest
  | idcode
  | debugChallenge
  | debugUnlock (sigOk : Bool)
  | mctpMessage (hub msgType length : Nat)
  | pldmBaseCommand (hub command : Nat)
  | pldmPlatformCommand (hub command sensor : Nat)
  | pldmRequestUpdate (hub : Nat)
  | pldmFirmwareUpdate (hub : Nat) (img : Option Image) (activate : Bool)
  | mgmtBusStuck (hub : Nat) (mga : Bool) (stillHeld : Bool)
  | backgroundCopyComplete (handle row layer : Nat)
  | clusterIdlePowerOff
  | handshakeRateMeasurement (rates : List Nat)
  | configurationRequest (link fn : Nat) (write : Bool) (reg : CfgReg) (value : Nat)
  deriving DecidableEq, Repr

end Sys2Proof
end

