-- ==== Sys2Proof/Decode.lean ====
section
/-! DEFINITION. The word a table row spells: no row of the table gives its command any bits, so no word spells a command. -/

namespace Sys2Proof

/-- The command that a word spells by the table's bits: no row gives bits, so none (log entry 2). -/
def decodeTableWord (_nbits _w : Nat) : Option Instr := none

end Sys2Proof
end

