-- ==== Sys2Proof/Config.lean ====
section
/-! DEFINITION. What one part fixes (Table 0-1, Table 1-6) and the free values: opaque constants for what the manual
leaves open, with no body, so that nothing can be proved of their values (R7, R18). -/

namespace Sys2Proof

/-- The parts of stepping B0 (R1, R3). -/
inductive Part where
  | tsn8840 | tsn4420
  deriving DecidableEq, Repr

namespace Config

/-- The part modelled by a run: the flagship; every rule takes the part from the state, so both are covered (log entry 5). -/
def resetPart : Part := .tsn8840

/-- The factory serial (R580): the manual gives no value. -/
opaque factorySerial : Nat
/-- The factory calibration of the ledger, read from fuses (R368): per SC die and step, rate factor in parts per million,
dynamic energy in microjoules per OP-N microsecond, leakage in milliwatts. -/
opaque fuseCalibration : Nat → Nat → Nat × Nat × Nat
/-- The least energy the package takes from the rails between two marks; used where the meter has no reading (R367). -/
opaque idleEnergy : Nat → Nat
/-- A tenant key drawn from the DRBG of R295, of 512 bits (Table 16-6). -/
opaque drbgKey : Nat → Nat
/-- 32 bytes drawn from the DRBG for a debug challenge (R479). -/
opaque drbgChallenge : Nat → Nat
/-- The token of a code point that begins no token, in a table with neither byte fallback nor an unknown token (R284). -/
opaque unknownToken : Nat
/-- A value of a recurrent or carry block that the model's tensors alone give: a replay, or a frame encoder's state (R82, R197). -/
opaque recurrentValue : Nat → Nat → Nat
/-- The device secret in the fuses: 256 bits from a factory noise source (Table 16-6). -/
opaque deviceSecret : List Byte
/-- The bytes of a certificate chain, from the seeds of the alias, identity and key-import keys and the serial (R473). -/
opaque certificates : List Byte → List Byte → List Byte → Nat → List Byte
/-- An ML-DSA-87 signature by the key that a seed generates over a signed part (R475): 4,627 bytes of open content. -/
opaque signature : List Byte → Nat → List Byte → Nat → Byte
/-- The firmware digest of a core class in an image (Table 16-10). -/
opaque firmwareDigest : Nat → Nat → Nat
/-- The event code of a log entry (Table 19-13, 'Event code'): no table of codes is given. -/
opaque eventCode : Nat → Nat
/-- The severity of a log entry (Table 19-13): given per event nowhere but for errors named so. -/
opaque eventSeverity : Nat → Nat
/-- The bytes of a health section whose layout the manual does not give (R550, sections 3 to 10). -/
opaque healthBytes : Nat → List Nat → List Byte
/-- The port a flow is assigned to among the UP ports that reach its destination: a hash the manual does not give (R400). -/
opaque flowHash : Nat → Nat → Nat → Nat → Nat
/-- The pool taken among those permitted that have room for a lower copy (R225). -/
opaque freeLower : Nat → Nat
/-- The device physical address of a pool's extent, in extents: its bridge grants it (R217). -/
opaque extentAddress : Nat → Nat → Nat
/-- Bytes of the package section of a checkpoint, from the counts of tenants, flasks, models and pools (R371, R435): it grows with
its contents by no stated layout. -/
opaque packageSection : Nat → Nat → Nat → Nat → Nat
/-- Bytes of the recall section of a checkpoint, from its shards: no layout is stated for the addresses it holds (Table 15-2). -/
opaque recallSection : Nat → Nat
/-- AES-256-XTS of one data unit under a key and a tweak, as IEEE 1619 defines it (R260). -/
opaque xts : Nat → Nat → List Byte → List Byte
/-- 1 GiB extents that a standalone package's bridge offers (R217, R426): what stands behind a bridge is the board's. -/
opaque bridgeExtents : Nat → Nat
/-- The bits near zero of a pattern that is formed again from lower copies (R180, R243). -/
opaque recomputedPattern : Nat → Nat
/-- A mould mask where the split breaks R298: undefined under R18. -/
opaque undefinedMask : Nat → List Nat
/-- The bytes of a PLDM response whose body the DMTF standards give (R556). -/
opaque pldmBody : Nat → Nat → List Nat → List Byte
/-- The response body of an MCTP control message (R555). -/
opaque mctpBody : Nat → Nat → List Byte

/-- The 36-byte body of a manager message entry of a kind other than 22 and 23 (Table 14-2): its fields are named, their places are not. -/
opaque mgrBody : Nat → List Nat → List Byte
/-- The SHA3-512 of a module's checkpoint body as written (Table 15-6), from the checkpoint's number and the module's: the manual gives the contents of
its sections, not their bytes. -/
opaque bodyDigest : Nat → Nat → Nat → Byte
/-- A tenant key wrapped under the device key by AES key wrap (R464, R466): a standard that the manual names. -/
opaque wrappedKey : Nat → Nat → Byte
/-- Which of the unused package numbers a manager gives a new worker (R409): the manual does not say. -/
opaque joinChoice : Nat → Nat → Nat
/-- Blocks of the NAND a channel carries, per plane group (R244): the fitted devices' own. -/
opaque nandBlocks : Nat
/-- What a port's link layer has counted flit by flit (0 replays, 1 FEC symbol corrections, 2 CRC failures) and 3 its lowest laser line
power (Table 13-5): no row of the table is one of those events. -/
opaque linkLayer : Nat → Nat → Nat → Nat
/-- A line of a window's memory that no write of the fabric has set (R399): what firmware keeps there has no stated layout. -/
opaque windowLine : Nat → Nat → Nat → Line
/-- The T1 frame of a window's first line (Table 13-8) where the manual gives it no place: every window but a landing window. -/
opaque windowBase : Nat → Nat

/-- Which operand of a sum in arrival order comes next (Table 6-3): the rest of the key names the sum. -/
opaque arrival : List Nat → Nat
/-- Over how many clusters a product's reduction dimension is split (Table 6-3). -/
opaque reductionSplit : List Nat → Nat
/-- An exponential of attention, in FP32 bits, whose relative error is at most 2^-21 (Table 5-3): the manual fixes the bound alone. -/
opaque expChoice : List Nat → Nat
/-- The exponential of the gate softmaxes, FP32 bits to FP32 bits (R194): the manual gives it no accuracy. -/
opaque gateExp : Nat → Nat
/-- SiLU (0) and GELU in tanh form (1), FP32 bits to FP32 bits (R193): the manual gives them no accuracy. -/
opaque activation : Nat → Nat → Nat
/-- Whether rotary encoding pairs an element with the one half the head dimension on, or with its neighbour (R192). -/
opaque rotaryHalves : Bool
/-- The cosine (0) and sine (1) of rotary encoding, in FP32 bits, from the base, the position, the pair's number and the head dimension (R192). -/
opaque rotary : Nat → Nat → Nat → Nat → Nat → Nat
/-- An element, in FP32 bits, of what a recurrent mixer gives its residual sum from the heads' outputs: its tensors' use is not given (R196). -/
opaque recurrentMix : List Nat → List Nat → Nat → Nat
/-- An element, in BF16 bits, of a vector that the last encoder block emits for a frame, from its samples and the carry values before it, the
vector's number and the element's (R197). -/
opaque encodedVector : List Nat → List Nat → Nat → Nat → Nat
/-- A value of a carry block after a frame, from its samples and the carry values before it, the layer and the value's number (R197). -/
opaque encodedCarry : List Nat → List Nat → Nat → Nat → Nat

end Config
end Sys2Proof
end

