-- ==== Sys2Proof/Machine/State.lean ====
section
/-! DEFINITION. The state of the block as plain data, with every field at its reset value, and the ways a step can stop.
A field's default is its value in `State.reset`; INVENTORY.md names the rule and the log entry of each. -/

namespace Sys2Proof.Machine

/-- Ways a command stops the machine. -/
inductive Fault where
  /-- Raised by RAIL_OUT_OF_RANGE when a rail passes the absolute maximum of Table 20-8: the part can be damaged and no
  behaviour is given (R574). Safe: the model stops where the hardware goes on in an unknown way. -/
  | ratingExceeded
  deriving DecidableEq, Repr

/-- Ways a command is refused by the model. -/
inductive Refusal where
  /-- Raised by an arm of the dispatcher whose command has no meaning yet. Safe: the model stops. -/
  | notModelled (mnemonic : String)
  deriving DecidableEq, Repr

/-! ### Codes -/

/-- Device states (Table 19-1). -/
inductive DState where
  | starting | selfTest | ready | orphan | stopping | stopped | safeTalk
  deriving DecidableEq, Repr

/-- Slot classes (Table 4-4). -/
inductive SlotClass where
  | empty | idle | idleStall | idlePrefill | prefill | recallIdle | idleBudget | generating | waitingInput
  deriving DecidableEq, Repr

/-- Port states (Table 13-3). -/
inductive PortState where
  | off | dark | training | up | miswired | down
  deriving DecidableEq, Repr

/-! ### Records, blocks and functions (chapter 3) -/

/-- An outcome record (Table 3-13) before it is placed; `win` is the window entry of its sequence number whose position it fills,
`also` the entry of the GENERATE it ends when it answers another message (R592); `reports` marks the record that reports a close
or a loss (R65). -/
structure OutRec where
  tenant    : Nat := 0
  seq       : Nat := 0
  handle    : Nat := 0
  outcome   : OCode
  opcode    : Nat := 0
  length    : Nat := 0
  d0        : Nat := 0
  d1        : Nat := 0
  clientTag : Nat := 0
  position  : Nat := 0
  pour      : Nat := 0
  final     : Bool := false
  answers   : Bool := false
  dup       : Bool := false
  win       : Option WinRef := none
  also      : Option (WinRef × Nat) := none
  reports   : Bool := false
  deriving DecidableEq, Repr

/-- A session record before it is placed (Table 3-11); its text beyond 32 bytes goes to continuation records. -/
structure SesRec where
  tenant   : Nat
  seq      : Nat
  handle   : Nat
  released : Nat
  token    : Option Nat
  text     : List Byte
  late     : Bool
  noToken  : Bool
  heldBack : Bool
  deriving DecidableEq, Repr

/-- A record that waits for its block, with the vector it is counted on (R113). -/
inductive Rec where
  | ses (r : SesRec) (vector : Nat)
  | out (r : OutRec) (vector : Nat)
  deriving DecidableEq, Repr

/-- The forms of a tap record (Table 3-10). -/
inductive TapBody where
  | header (stall more : Bool) (records flask pour consumed policed discarded backlog : Nat)
  | session (r : SesRec) (bytes conts : Nat)
  | continuation (handle index : Nat) (text : List Byte)
  | outcome (r : OutRec)
  deriving DecidableEq, Repr

/-- A record written to the ring (R103): its tap position, its lap bit and its form. -/
structure TapRec where
  pos  : Nat
  lap  : Bool
  body : TapBody
  deriving DecidableEq, Repr

/-- A block, or what is left of one, that waits in the backlog (R106): each body record with the vector it counts on. -/
structure Block where
  flask : Nat
  pour  : Nat
  recs  : List (TapBody × Nat)
  deriving DecidableEq, Repr

/-- A record that waits for a block of its function, in the order its cause arose (R104, R105): one of the pour in flight's release
points and boundary actions has `inPour` set and the slot of its session, if it has one. -/
structure WaitRec where
  slot   : Option Nat := none
  inPour : Bool := false
  body   : Rec
  deriving DecidableEq, Repr

/-- A mailbox response (Table 3-15). -/
structure MbResp where
  outcome : OCode
  op      : Nat
  tag     : Nat
  payload : List Byte
  deriving DecidableEq, Repr

/-- MB_CTRL and the response area of a function (R115, R582). `gen` numbers the request being carried out, so that a
request dropped by a reset is not answered (R585). -/
structure Mailbox where
  gen      : Nat := 0
  busy     : Bool := false
  done     : Bool := false
  rejected : Bool := false
  response : Option MbResp := none
  deriving DecidableEq, Repr

/-- The settings of a tap vector (R114). -/
structure VecCfg where
  vector   : Nat
  count    : Nat := 1
  interval : Nat := 0
  deriving DecidableEq, Repr

/-- An ATTEST result held for a function (R474). -/
structure AttestResult where
  mode  : Nat
  bytes : List Byte
  deriving DecidableEq, Repr

/-- One host function (chapter 3, R582). `slots` lists the sprue slots that hold an unconsumed message, in arrival order; `inRing` the
records written and not yet released; `waiting` the records that wait for a block. -/
structure Fn where
  id        : Nat
  slots     : List (Nat × Instr) := []
  consumed  : Nat := 0
  window    : Window := {}
  ring      : Option (Nat × Nat) := none
  next      : Nat := 0
  released  : Nat := 0
  inRing    : List TapRec := []
  backlog   : List Block := []
  waiting   : List WaitRec := []
  policed   : Nat := 0
  discarded : Nat := 0
  vectors   : List VecCfg := []
  counts    : List (Nat × Nat) := []
  masked    : List Nat := []
  pba       : List Nat := []
  msixTable : List (Nat × Nat) := []
  mb        : Mailbox := {}
  attest    : Option AttestResult := none
  bars      : List (Nat × Nat) := []
  deriving DecidableEq, Repr

/-! ### Sessions (chapter 2) -/

/-- A message that waits for its boundary or for an answer: its window, sequence, opcode and sender. -/
structure Ask where
  win    : WinRef
  seq    : Nat
  opcode : Nat
  fn     : Nat
  quantise : Nat := 0
  order  : Nat := 0
  deriving DecidableEq, Repr

/-- An operation under way for a session (R59, Table 4-6). -/
inductive SessOp where
  /-- Demotion to WARM; `pressure` when T1 pressure or the hold-up bound started it. -/
  | demotion (pressure : Bool)
  /-- A park: whether pages are quantised, the object written, and the PARK to answer, absent for an expiry. -/
  | park (quantise : Bool) (object : Nat) (ask : Option Ask)
  /-- A revival, from T2 or from the ingot. -/
  | revival (remelt : Bool)
  deriving DecidableEq, Repr

/-- A session: its directory entry (Table 2-7), options (R52), content and operations. `blks` and `leaves` are its part of the page table
beside its pages (R70, R221); `header` the released and written lengths and the pending token that its page-map header took when it left T1
(R74); `heads` the KV heads of a shard (R172); `genHeld` the microseconds since a GENERATE still held was taken (R139); `frameData` the bytes of each queued
frame, by its order (R197). -/
structure Session where
  handle     : Nat
  tenant     : Nat
  model      : Nat
  durability : Nat := 0
  oneShot    : Bool := false
  strict     : Bool := false
  normForm   : Nat := 3
  home       : Nat := 0
  alternate  : Nat := 0xFFFF
  vector     : Nat := 0
  clientTag  : Nat := 0
  state      : SState := .opened
  slot       : Option Nat := none
  p          : Nat := 0
  w          : Nat := 0
  pendingTok : Option Nat := none
  queue      : List QItem := []
  queuedAt   : Nat := 0
  tokens     : List Nat := []
  pages      : List Page := []
  blocks     : List RecBlock := []
  snapshots  : List Snapshot := []
  window     : Window := {}
  request    : Option Request := none
  calls      : Nat := 0
  call       : Option Call := none
  allowKind  : Nat := 0
  allowance  : Nat := 0
  ingot      : Nat := 0
  text       : TextState := {}
  op         : Option SessOp := none
  heldMsgs   : List Instr := []
  asks       : List Ask := []
  homeDie    : Nat := 0
  restored   : Bool := false
  lastWorked : Nat := 0
  lastIdle   : Bool := false
  warmAt     : Nat := 0
  before     : Option SState := none
  copying    : Bool := false
  revivalLate : Bool := false
  recastPending : Bool := false
  trimmed    : Option Nat := none
  shardOf    : Option Nat := none
  spent      : Bool := false
  toWait     : Bool := false
  barged     : Bool := false
  blks       : List Blk := []
  leaves     : List Leaf := []
  header     : Option (Nat × Nat × Option Nat) := none
  heads      : Option Nat := none
  genHeld    : Option Nat := none
  frameData  : List (Nat × List Byte) := []
  deriving DecidableEq, Repr

/-- A message counted in a tenant's policing bucket, and the tenant's account counters (Table 11-6). -/
structure Counters where
  interval     : Nat := 0
  tensorTime   : Nat := 0
  attnTime     : Nat := 0
  patternTime  : Nat := 0
  textTime     : Nat := 0
  mouldTime    : Nat := 0
  recallTime   : Nat := 0
  storeTime    : Nat := 0
  t1Read       : Nat := 0
  t1Written    : Nat := 0
  t2Read       : Nat := 0
  t2Written    : Nat := 0
  t3Read       : Nat := 0
  t3Written    : Nat := 0
  hRead        : Nat := 0
  hWritten     : Nat := 0
  runner       : Nat := 0
  fabricSent   : Nat := 0
  fabricRecv   : Nat := 0
  hostLink     : Nat := 0
  energy       : Nat := 0
  tokens       : Nat := 0
  prefill      : Nat := 0
  budgetIdle   : Nat := 0
  policed      : Nat := 0
  replacements : Nat := 0
  numeric      : Nat := 0
  deriving DecidableEq, Repr

/-- A tenant (R459): bindings, key, settings (R494), budget (R335), policing bucket in millionths of a token (R101),
deficit (R333) and removal (R467). -/
structure Tenant where
  id         : Nat
  partition  : Nat := 0
  retiring   : Bool := false
  link0      : Nat := 0
  link1      : Nat := 0
  label      : Nat := 0
  key        : Option Nat := none
  removal    : Nat := 0
  madeClosed : Nat := 0
  commitPour : Nat := 0
  rate       : Nat := 200000
  depth      : Nat := 16384
  bucket     : Nat := 16384000000
  weight     : Nat := 100
  lowMark    : Nat := 0
  budget     : Nat := 0xFFFFFFFFFFFFFFFF
  deficit    : Int := 0
  selBudget  : Nat := 2048
  linger     : Nat := 16
  recallTool : Option RecallTool := none
  idleUs     : Nat := 10000000
  waitUs     : Nat := 2000000
  warmUs     : Nat := 300000000
  parkUs     : Nat := 0
  quantise   : Bool := false
  counters   : Counters := {}
  deriving DecidableEq, Repr

/-! ### Pours and flasks (chapters 4 and 11) -/

/-- A flask (Table 4-1) with its roster and scheduling state (R125). -/
structure Flask where
  num        : Nat
  priority   : Nat := 0
  model      : Nat := 0
  first      : Nat := 0
  count      : Nat := 0
  budgetUs   : Nat := 1000
  partition  : Nat := 0
  roster     : List Nat := []
  lastPour   : Nat := 0
  deriving DecidableEq, Repr

/-- A prefill chunk (R133): its length in positions and, for frames, how many frames. -/
structure Chunk where
  len    : Nat
  frames : Nat := 0
  deriving DecidableEq, Repr

/-- One slot's or session's work in a pour (Table 4-4, R138): class, chunk, whether it samples, a token of its tenant's budget reserved
and consumed (R131), fault, barge, the P, W and pending values and recurrent blocks it had at step 1, its mask, dead-end state and mould
context, its candidate token and recall code, and the session before its release point (R513). `acts` are the BF16 vectors of the positions it
writes as they enter its next layer, `sets` the rows that each KV head selects in that layer, `hot` those of them in T1 when it starts and `came`
those fetched since, in the order they came (R152, R165), `key` the number its free sums go by, `parts` the FP32 partials of each participant of this
package by position, and `added` the positions whose full sum a collective has brought (R172, R173). -/
structure Work where
  slot     : Option Nat
  handle   : Nat
  tenant   : Nat := 0
  cls      : SlotClass := .idle
  chunk    : Option Chunk := none
  samples  : Bool := false
  reserved : Bool := false
  fault    : Option OCode := none
  barged   : Bool := false
  p0       : Nat := 0
  w0       : Nat := 0
  pend0    : Option Nat := none
  mask     : Option (List Nat) := none
  deadend  : Option Nat := none
  cand     : Option Nat := none
  code     : List Byte := []
  ctx      : Option MouldCtx := none
  consumed : Bool := false
  sess0    : Option Session := none
  blocks0  : List RecBlock := []
  snaps0   : List Snapshot := []
  acts     : List (List Nat) := []
  sets     : List (List Nat) := []
  hot      : List Nat := []
  came     : List Nat := []
  key      : Nat := 0
  parts    : List (List (List Nat)) := []
  added    : List (List Nat) := []
  deriving DecidableEq, Repr

/-- A pour (Table 4-3): `step` is the step in progress, `layer` the count of layers finished, `voltage` in millivolts and `allotment` in
OP-N nanoseconds what step 2 planned, `preempt` a pre-emption request (R341), `waiting` a layer whose collective is not yet in (R173),
`rerun` a pour to be planned again with its number (R27), `settings` each tenant's selection budget and linger as planned with (R157), `turn` the
position whose partials the collective now adds (R173), `streamed` the experts that each finished layer read (R208). -/
structure Pour where
  number    : Nat
  flask     : Nat
  model     : Nat := 0
  step      : Nat := 4
  layer     : Nat := 0
  works     : List Work := []
  masksDone : Bool := false
  voltage   : Nat := 750
  allotment : Nat := 0
  preempt   : Option Nat := none
  group     : Option Nat := none
  rerun     : Bool := false
  waiting   : Bool := false
  settings  : List (Nat × Nat × Nat) := []
  turn      : Nat := 0
  streamed  : List (Nat × List Nat) := []
  deriving DecidableEq, Repr

/-- The text-queue round of a partition (R333). -/
structure Round where
  partition : Nat
  last      : Option Nat := none
  cut       : Option Nat := none
  deriving DecidableEq, Repr

/-- What the scheduler core holds (chapters 4 and 11). `next` is the next pour number (R11); `dropped` the flasks whose planned pour was
dropped, with what stood then (R125); `loaded` the model whose per-model state the clusters hold (R339); `selections` numbers page selections, for the order of R229. -/
structure Sched where
  next      : Nat := 1
  flasks    : List Flask := []
  pour      : Option Pour := none
  suspended : List Pour := []
  rounds    : List Round := []
  orders    : Nat := 0
  clustersOn : Bool := true
  dropped   : List (Nat × List Nat) := []
  selections : Nat := 0
  loaded    : Option Nat := none
  deriving DecidableEq, Repr

/-- A bound model (Table 6-9). `program` is its program and `image` the bytes of its image, `arrived` the blocks in its window (R207),
`again` those to be read again before use after an error in their lines (R243),
`retried` those whose first failed read was retried (R209), `pools` the pools that hold each T2 copy of its weights with the bytes of it there in
directory order, pool 0xFFFF for bytes that no pool holds any more; `copyLost` and `allLost` what R240 counts. -/
structure Model where
  num       : Nat
  partition : Nat := 0
  state     : Nat := 1
  window    : Nat := 0
  copies    : Nat := 1
  program   : Option ModelProgram := none
  bytes     : Nat := 0
  digest    : List Byte := []
  programDigest : List Byte := []
  arrived   : List Nat := []
  retried   : List Nat := []
  again     : List Nat := []
  copyLost  : Bool := false
  allLost   : Bool := false
  pools     : List (List (Nat × Nat)) := []
  image     : List Byte := []
  deriving DecidableEq, Repr

/-! ### The device (chapters 1, 16 to 21) -/

/-- A monolith hub. `faults` are the meter readings, in nanoseconds, of its core faults (R514); `seed` generates its alias key (R472), `image` is the NOR slot its
cores run (R518); `restarting` until it rejoins as follower (R514). -/
structure Hub where
  fitted     : Bool := true
  fenced     : Bool := false
  dieFailed  : Bool := false
  restarting : Bool := false
  faults     : List Nat := []
  image      : Nat := 0
  drbgOk     : Bool := true
  mgaFenced  : Bool := false
  mgbFenced  : Bool := false
  updating   : Bool := false
  seed       : List Byte := []
  deriving DecidableEq, Repr

/-- A log entry (Table 19-13). `severity` is 2 or 3 where a rule says error or fatal, and a free value otherwise. -/
structure LogEntry where
  sequence : Nat
  meter    : Nat
  die      : Nat
  core     : Nat
  severity : Nat
  code     : Nat
  data     : Nat
  deriving DecidableEq, Repr

/-- A mailbox request that the device has taken and not yet answered (R582, R541). -/
structure Open where
  fn   : Nat
  gen  : Nat
  tag  : Nat
  op   : Nat
  sub  : Nat
  partition : Nat := 0
  deriving DecidableEq, Repr

/-- Who a checkpoint answers at its commit (Table 15-1, R453). -/
inductive Asker where
  | mailbox (q : Open)
  | manager (peer : Nat)
  | device
  deriving DecidableEq, Repr

/-- A stop in progress (Table 19-8): the SHUTDOWN requests it answers, whether the self-test runs (action 0), whether a
package reset follows (action 4, R529), whether it runs the steps of Table 19-8 and waits for parks (R546), and what its checkpoint came to. -/
structure Stop where
  answers   : List Open := []
  selfTest  : Bool := false
  thenReset : Bool := false
  orderly   : Bool := false
  parks     : Bool := false
  ckptDone  : Bool := false
  ckptOk    : Bool := false
  number    : Nat := 0
  deriving DecidableEq, Repr

/-- A tenant-key entry of the health record (Table 17-7). -/
structure KeyEntry where
  tenant  : Nat
  retired : Bool := false
  check   : Nat := 0
  label   : Nat := 0
  key     : Option Nat := none
  deriving DecidableEq, Repr

/-- One sample of the ageing history (R553): powered seconds and the value of an indicator of a die, in parts per million. -/
structure AgeSample where
  powered : Nat
  die     : Nat
  kind    : Nat
  value   : Nat
  deriving DecidableEq, Repr

/-- A valid health record (Table 17-7) with what follows it: error entries (R552) and the ageing history (R553). `tried` is set while a trial
is pending and a start from its slot has begun (R492); `lostStacks` are the stacks that failed whole, every region of each being retired (R242). -/
structure HealthRec where
  nextSlot   : Nat := 0
  trial      : Bool := false
  selfPassed : Bool := false
  clean      : Bool := false
  sequence   : Nat := 0
  serialEnd  : Nat := 0
  goodSlot   : Nat := 0
  confirmed  : Nat := 0
  owner      : Option Nat := none
  keys       : List KeyEntry := []
  regions    : List (Nat × Nat) := []
  lostStacks : List Nat := []
  findings   : List Finding := []
  errors     : List LogEntry := []
  ageing     : List AgeSample := []
  powered    : Nat := 0
  tried      : Bool := false
  deriving DecidableEq, Repr

/-- A copy of the health record in the NOR (R491). -/
inductive HrCopy where
  | erased
  | corrupt
  | valid (r : HealthRec)
  deriving DecidableEq, Repr

/-- The configuration NOR (Table 17-1), the anti-rollback fuses (R486), and per SC die the position that failed factory test (R26). -/
structure Nor where
  slotA  : Option Image := none
  slotB  : Option Image := none
  copy0  : HrCopy := .erased
  copy1  : HrCopy := .erased
  fuses  : Nat := 0
  shipped : List (Option Nat) := [none, none, none, none]
  deriving DecidableEq, Repr

/-- A partition (Table 16-2). -/
structure Partition where
  num      : Nat
  active   : Bool := false
  clusters : Nat := 0
  stackSet : Nat := 0
  link0    : Nat := 0
  link1    : Nat := 0
  deriving DecidableEq, Repr

/-- The clusters of an SC die: the physical position behind each logical cluster, absent where fenced (R28); the spare;
the positions in the order they were last tested, oldest first (R538); the position under test. -/
structure ScDie where
  num      : Nat
  fitted   : Bool := true
  failed   : Bool := false
  logical  : List (Option Nat) := [some 0, some 1, some 2, some 3, some 4, some 5, some 6, some 7]
  spare    : Option Nat := some 8
  order    : List Nat := [0, 1, 2, 3, 4, 5, 6, 7, 8]
  testing  : Option Nat := none
  stopped  : Bool := false
  stacksIn : List Bool := [true, true, true, true, true, true]
  deriving DecidableEq, Repr

/-- The clusters of an SC die as it was shipped: a position that failed factory test is replaced by the spare, or was the spare (R26). -/
def shippedDie (num : Nat) (bad : Option Nat) : ScDie :=
  match bad with
  | none => { num := num }
  | some p =>
    { num := num, logical := (List.range 8).map (fun n => some (if n = p then 8 else n)), spare := none
      order := (List.range 9).filter (· != p) }

/-- The clocking of a die (R44, R45): nanoseconds of its local interval meter and whether its PLL is locked. -/
structure Meter where
  ns     : Nat := 0
  locked : Bool := true
  deriving DecidableEq, Repr

/-- One direction of a runner bundle as its receiver and sender hold it (R33 to R38): the next sequence expected, lines received, the last 64
lines sent with their kinds, the failed checks of each group with the line count at each, spared groups, fencing, the sequence numbers that
resend requests named and whether each went on an empty line, the groups that sparing notices named, the lines to send again, and those
delivered, in order, with their engines. -/
structure Bundle where
  runner  : Nat
  bundle  : Nat
  dir     : Bool := false
  expect  : Nat := 0
  lines   : Nat := 0
  sent    : List (Nat × Nat × Line) := []
  checks  : List (Nat × Nat) := []
  spared  : List Nat := []
  fenced  : Bool := false
  resends : List (Nat × Bool) := []
  notices : List Nat := []
  replay  : List Nat := []
  delivered : List (Nat × Nat × Line) := []
  deriving DecidableEq, Repr

/-- One source of an event controller whose configuration is not at reset (Table 18-9). -/
structure EvSrc where
  num      : Nat
  priority : Nat := 15
  enable   : Bool := false
  active   : Bool := false
  pending  : Bool := false
  deriving DecidableEq, Repr

/-- A firmware core with its event controller (R507 to R510, R521 to R527). `vector` is the address last delivered. -/
structure Core where
  id       : CoreId
  faulted  : Bool := false
  fenced   : Bool := false
  ie       : Bool := false
  asleep   : Bool := false
  halfSeen : Bool := false
  deliver  : Bool := false
  base     : Nat := 0
  running  : Nat := 16
  depth    : Nat := 0
  vector   : Option Nat := none
  saved    : Bool := false
  srcs     : List EvSrc := []
  deriving DecidableEq, Repr

/-- A semaphore not free (Table 11-4). -/
structure Sem where
  die     : Nat
  num     : Nat
  owner   : Option Nat := none
  waiters : List Nat := []
  revoked : Bool := false
  deriving DecidableEq, Repr

/-- A cluster context of an SC die (R342, R348, R349): the pour it was saved with, its shadow lines, the semaphore of the
restart record it must resume from, and the semaphores it holds in the order of their grants. -/
structure Ctx where
  die     : Nat
  num     : Nat
  saved   : Option Nat := none
  shadow  : Nat := 0
  restart : Option Nat := none
  asleep  : Bool := false
  grants  : List Nat := []
  deriving DecidableEq, Repr

/-- The allowances of a session that a mirror carried (R48): its residency allowance with its kind, its request's deadline allowance with the
request's sequence, and those of its frames by their order. -/
structure Allowed where
  handle : Nat
  kind   : Nat
  value  : Nat
  req    : Option (Nat × Nat) := none
  frames : List (Nat × Option Nat) := []
  deriving DecidableEq, Repr

/-- The firmware side of the device: cores, semaphores and contexts; the sessions as they were before the first message taken since the
last mirror, which a takeover loses, marked where the release points of the pour in flight had run (R516); and the allowances that the last
acknowledged mirror carried (R48). -/
structure Cores where
  cores  : List Core := []
  sems   : List Sem := []
  ctxs   : List Ctx := []
  unmirrored : List (Bool × Session) := []
  allowed : List Allowed := []
  deriving DecidableEq, Repr

/-- The board signals the package drives and senses (Tables 20-2, 20-5), and the test access port (R478). -/
structure Pins where
  powerGood  : Bool := false
  safeLow    : Bool := false
  tripLow    : Bool := false
  aliveLow   : List Bool := [false, false]
  armed      : Bool := false
  perst      : List Bool := [true, true]
  tapInstr   : Nat := 0
  tapOut     : Option Nat := none
  deriving DecidableEq, Repr

/-- Security state (chapter 16): lifecycle, fuse lock, unlocks, what an unlock did, the challenge presented. -/
structure Sec where
  unlocks    : Nat := 0
  open_      : Bool := false
  destroyed  : Bool := false
  serveNot   : Bool := false
  challenge  : Option Nat := none
  deriving DecidableEq, Repr

/-- A hub roll (Table 18-3): its step and the request it answers. -/
structure Roll where
  step : Nat
  req  : Open
  hub  : Nat
  deriving DecidableEq, Repr

/-- The device core: state code, start, links, hubs, log and health. -/
structure Dev where
  code      : DState := .starting
  step      : Nat := 1
  quick     : Bool := false
  leading   : Nat := 0
  hubs      : List Hub := [{}, {}]
  linkUp    : List Bool := [false, false]
  numVFs    : List Nat := [0, 0]
  image     : Option Image := none
  slot      : Nat := 0
  moulds    : List Mould := []
  tokenisers : List Tokeniser := []
  templates : List Template := []
  failed    : List Nat := []
  meters    : List Meter := [{}, {}, {}, {}, {}, {}, {}, {}]
  log       : List LogEntry := []
  logNext   : Nat := 1
  logOldest : Nat := 1
  events    : Nat := 0
  powered   : Nat := 0
  stop      : Option Stop := none
  heldShut  : List Open := []
  heldStop  : List Asker := []
  roll      : Option Roll := none
  lowLife   : Bool := false
  lastStop  : Option (Nat × Nat × Nat) := none
  serialEnd : Nat := 0
  nextSerial : Nat := 1
  clocked   : Bool := false
  chill     : List Bool := [false, false]
  deriving DecidableEq, Repr

/-! ### Configuration commits (chapter 17) -/

/-- A violation entry (Table 17-11). -/
structure Violation where
  item    : Nat
  hostTag : Nat
  code    : Nat
  field   : Nat
  value   : Nat
  deriving DecidableEq, Repr

/-- The open set of a partition (R496, R497). -/
structure OpenSet where
  partition  : Nat
  number     : Nat
  items      : List Item := []
  violations : List Violation := []
  deriving DecidableEq, Repr

/-- An accepted commit (R498, R500). `waiting` while its composition waits for an epoch to retire (R416). -/
structure Commit where
  number    : Nat
  partition : Nat
  fn        : Nat
  pour      : Nat
  items     : List Item
  req       : Option Open := none
  deriving DecidableEq, Repr

/-- A mailbox answer that waits for the configuration mirror, with the sets and commits before it, which a takeover before the acknowledgement
returns to (Table 18-2, R506). -/
structure MirrorWait where
  q       : Open
  outcome : OCode
  payload : List Byte
  sets0   : List OpenSet := []
  commits0 : List Commit := []
  next0   : Nat × Nat := (1, 1)
  deriving DecidableEq, Repr

/-- What staging and committing hold. -/
structure Staging where
  nextSet   : Nat := 1
  sets      : List OpenSet := []
  nextCommit : Nat := 1
  commits   : List Commit := []
  mirrors   : List MirrorWait := []
  persists  : List Open := []
  lastDone  : Nat := 0
  committed : List Item := []
  deriving DecidableEq, Repr

/-! ### Memory tiers (chapter 7) -/

/-- A pool (R217, R238): the bridge behind it, its Kofatus paths, extents granted per partition, failure; `leaving` once its grant is removed
and objects in it are still referenced (R220, R426). -/
structure Pool where
  num       : Nat
  bridge    : Nat := 0
  paths     : List Nat := []
  partition : Nat := 0
  extents   : Nat := 0
  failed    : Bool := false
  missed    : Nat := 0
  leaving   : Bool := false
  deriving DecidableEq, Repr

/-- An H region (Table 7-8). `removing` holds the length it shrinks to while a commit completes (R233). -/
structure HRegion where
  partition : Nat
  link      : Nat
  address   : Nat := 0
  length    : Nat := 0
  removing  : Option Nat := none
  failed    : Bool := false
  deriving DecidableEq, Repr

/-- A committed placement (Table 7-6). -/
structure Placement where
  kind       : Nat
  partition  : Nat
  owner      : Nat
  index      : Nat := 0
  pools      : Nat := 0xFFFFFFFFFFFFFFFF
  residentT1 : Bool := false
  spillH     : Bool := false
  lateFirst  : Nat := 200
  lateSecond : Nat := 200
  deriving DecidableEq, Repr

/-- A demand fetch in flight (R163 to R165, R236, R237): the copies not yet tried, the mark of a late read, the page's handle, the new T1 frame it
reads into with its size, the cluster whose mover carries it, its lines and those of them outstanding (R212); `held` once its requests were abandoned by a
context save (R346). -/
structure Fetch where
  handle  : Nat
  row     : Nat
  layer   : Nat
  tier    : Nat
  left    : List Nat
  late    : Bool := false
  page    : Nat := 0
  frame   : Nat := noFrame
  kib     : Nat := 0
  die     : Nat := 0
  cluster : Nat := 0
  lines   : Nat := 0
  out     : Nat := 0
  held    : Bool := false
  deriving DecidableEq, Repr

/-- What a stream queue carries (R212): the block of a model's weights, the write-down of a casting page, the frozen copies of a demotion, the
copies that a revival reads. -/
inductive Carried where
  | weights (model block : Nat)
  | writeDown (handle row layer : Nat)
  | frozen (handle : Nat)
  | revived (handle : Nat)
  deriving DecidableEq, Repr

/-- A bulk transfer in the stream queue of a pool port, or of host link n as queue 64 + n: what it carries, its lines, and those of them
outstanding (R212). -/
structure Stream where
  queue   : Nat
  carries : Carried
  lines   : Nat
  out     : Nat := 0
  deriving DecidableEq, Repr

/-- A task in a cluster's T0 (R171, R213, R215): the session and layer it works, the pages it takes, and those read straight into T0 with no frame
(R231). -/
structure Task where
  die     : Nat
  cluster : Nat
  handle  : Nat
  layer   : Nat
  rows    : List Nat
  loaded  : List Nat := []
  deriving DecidableEq, Repr

/-- A write that waits for space (R235), oldest first: a write-down of a page, a demotion or a second copy. -/
structure Stall where
  partition : Nat
  handle    : Nat
  kind      : Nat
  row       : Nat
  layer     : Nat
  deriving DecidableEq, Repr

/-- An owner region whose tag is listed (R219, R220): tier 1 T1, 2 T2, 3 H; `unit` its die, its extent slot, or its partition and link;
`fills` how often the device has zero-filled it. -/
structure Owner where
  tier   : Nat
  unit   : Nat
  region : Nat
  owner  : Nat
  fills  : Nat := 0
  deriving DecidableEq, Repr

/-- An entry of the extent table (R217): a slot of the T2 address space, the pool behind it, and its device physical address there in extents. -/
structure Extent where
  slot    : Nat
  pool    : Nat
  address : Nat
  deriving DecidableEq, Repr

/-- What the tiers hold beside the pages. `low` are the dies whose pressure demotions go on up to the low mark (R230), `spilling` the partitions that
spill until their free T2 is back at 4 % (R234), `streams` the stream queues
(R212) and `t0` the tasks in the clusters' T0 (R213). -/
structure Tiers where
  pools      : List Pool := []
  hRegions   : List HRegion := []
  placements : List Placement := []
  fetches    : List Fetch := []
  stalls     : List Stall := []
  owners     : List Owner := []
  retired    : List (Nat × Nat) := []
  corrected  : List (Nat × Nat) := []
  recent     : List (Nat × Nat × Nat) := []
  patrol     : List Nat := [0, 0, 0, 0]
  degraded   : List Nat := []
  pressed    : List Nat := []
  waiting    : List Nat := []
  demotions  : List (Nat × Nat) := []
  revivals   : List (Nat × Nat) := []
  freed      : List (Nat × Nat × Nat) := []
  extents    : List Extent := []
  streams    : List Stream := []
  t0         : List Task := []
  low        : List Nat := []
  spilling   : List Nat := []
  deriving DecidableEq, Repr

/-! ### The store (chapter 8) -/

/-- States of a block group (R261). -/
inductive GState where
  | free | opened | closed | retired
  deriving DecidableEq, Repr

/-- The tag of a programmed NAND page (Table 8-7). -/
structure Tag where
  object   : Nat
  offset   : Nat
  sequence : Nat
  tenant   : Nat
  kind     : Nat
  flags    : Nat
  deriving DecidableEq, Repr

/-- A block group (R247, R261): `num` is its block's address, bits 55 to 24 of Table 8-4. `bad` once it is to be retired when its valid pages have
been copied elsewhere (R266); `tags` of its programmed pages, in order. -/
structure Group where
  hub      : Nat
  num      : Nat
  ns       : Nat
  state    : GState := .free
  slc      : Bool := false
  erases   : Nat := 0
  valid    : Nat := 0
  written  : Nat := 0
  pages    : Nat := 0
  reads    : Nat := 0
  closeSeq : Nat := 0
  refresh  : Bool := false
  copying  : Bool := false
  bad      : Bool := false
  tags     : List Tag := []
  deriving DecidableEq, Repr

/-- A programmed extent of an object (R249, R250): its index, the kind of its pages (Table 8-7), the row a trickle extent holds, its hub and group, the
page it starts at within the block, and its pages. -/
structure Ext where
  index : Nat
  kind  : Nat
  row   : Nat := 0
  hub   : Nat
  group : Nat
  page  : Nat
  pages : Nat
  deriving DecidableEq, Repr

/-- A store object (R248, R251, R255): an ingot with its session's image and its head as encrypted (R252, R260), or a trickle run with its committed rows
and those queued. `trimSafe` is the trim that a flushed record holds (R84). -/
structure Obj where
  num       : Nat
  ns        : Nat
  handle    : Nat
  tenant    : Nat
  ingot     : Bool
  pages     : Nat := 0
  reserved  : Nat := 0
  headOk    : Nat := 0
  committed : Bool := false
  quantised : Bool := false
  rows      : Nat := 0
  trimmed   : Option Nat := none
  deleted   : Bool := false
  image     : Option Session := none
  exts      : List Ext := []
  head      : List Byte := []
  queued    : Nat := 0
  trimSafe  : Option Nat := none
  deriving DecidableEq, Repr

/-- A journal record (Table 8-8); its CRC is computed when it is laid out. -/
structure JRec where
  kind    : Nat
  tenant  : Nat := 0
  index   : Nat := 0
  subject : Nat := 0
  value   : Nat := 0
  seq     : Nat := 0
  deriving DecidableEq, Repr

/-- The journal and write sequence of one hub (R252, R262); `page` is the journal page last flushed. -/
structure HubStore where
  unflushed : List JRec := []
  flushed   : List JRec := []
  flushedPages : Nat := 0
  seq       : Nat := 0
  base      : Nat := 0
  page      : List Byte := []
  deriving DecidableEq, Repr

/-- A namespace (R247, Table 8-10): its capacity in logical pages, the groups of its usable share, the groups open to writing, and the spare
pool; `reclaiming` from 3 % of free groups up to 5 % (R265). Groups with no entry in the store's list are free. -/
structure Ns where
  num      : Nat
  capacity : Nat := 0
  groups   : Nat := 0
  total    : Nat := 0
  spares   : Nat := 0
  readOnly : Bool := false
  refused  : Nat := 0
  reclaiming : Bool := false
  deriving DecidableEq, Repr

/-- The parking store. -/
structure Store where
  channels : Nat := 0
  nextObj  : Nat := 1
  objEnd   : Nat := 1
  nss      : List Ns := []
  groups   : List Group := []
  objs     : List Obj := []
  hubs     : List HubStore := [{}, {}]
  clean    : Bool := true
  deriving DecidableEq, Repr

/-! ### The recall engine (chapter 10) -/

/-- Node states (Table 10-2). -/
inductive NState where
  | free | linking | live | tombstone | retired
  deriving DecidableEq, Repr

/-- A node of a shard: its table entry (Table 10-2) and current block (Table 10-3), which lies in slab `slab` as its block `block`. -/
structure Node where
  num    : Nat
  state  : NState := .free
  gen    : Nat := 0
  key    : Nat := 0
  tags   : Nat := 0
  code   : List Byte := []
  edges  : List (Nat × Nat) := []
  slab   : Nat := 0
  block  : Nat := 0
  deriving DecidableEq, Repr

/-- A slab (R314): its blocks written, the current ones among them, the number of the last query started before its last block was replaced, and,
where the index lies in T2, the pools and addresses of its copies (R225, R313). -/
structure Slab where
  num     : Nat
  written : Nat := 0
  current : Nat := 0
  lastQ   : Nat := 0
  pools   : List Nat := []
  lowers  : List Nat := []
  deriving DecidableEq, Repr

/-- A shard (Table 10-1, R309 to R327). `repair` lists the tombstones a running pass began with. -/
structure Shard where
  item     : IndexItem
  nodes    : List Node := []
  entries  : List Nat := []
  slabs    : List Slab := []
  nextSlab : Nat := 0
  repair   : Option (List Nat) := none
  damaged  : Bool := false
  deleting : Bool := false
  frozen   : Bool := false
  inserting : Option Nat := none
  deriving DecidableEq, Repr

/-- Whom a recall operation answers. -/
inductive RAsker where
  | message (a : Ask) (tenant clientTag results : Nat)
  | onDevice (handle call : Nat)
  | peer (package query : Nat)
  deriving DecidableEq, Repr

/-- A recall operation taken and not answered: a search, an insertion, or a fan-out of the manager (R328). -/
structure Query where
  num     : Nat
  asker   : RAsker
  op      : Nat
  index   : Nat
  hub     : Nat := 0
  queued  : Bool := false
  k       : Nat := 0
  require : Nat := 0
  exclude : Nat := 0
  key     : Nat := 0
  tags    : Nat := 0
  code    : List Byte := []
  found   : List (Nat × Nat × Nat × Nat) := []
  left    : List Nat := []
  shard   : Nat := 0
  late    : Bool := false
  failed  : Bool := false
  deriving DecidableEq, Repr

/-- Results written to host memory by a query (R318, Table 10-4): query, address, key, tags, distance and shard. -/
structure ResultLine where
  query    : Nat
  address  : Nat
  key      : Nat
  tags     : Nat
  distance : Nat
  shard    : Nat
  deriving DecidableEq, Repr

/-- The recall engines. -/
structure Recall where
  shards  : List Shard := []
  queries : List Query := []
  nextQ   : Nat := 1
  results : List ResultLine := []
  deriving DecidableEq, Repr

/-! ### The ledger (chapter 12) -/

/-- A rail of the ledger (R364, R365): the voltage written, the voltage asked for when a write was not acknowledged. -/
structure RailV where
  mv     : Nat := 750
  asked  : Option Nat := none
  deriving DecidableEq, Repr

/-- A sensor's 64-bit count of microjoules on one rail of one die, with the die's meter value in nanoseconds at which it was last read (R362). -/
structure EnergyCount where
  die  : Nat
  rail : Nat
  uj   : Nat := 0
  ns   : Nat := 0
  deriving DecidableEq, Repr

/-- The energy ledger. Rails: SC0 to SC3, PX0, PX1, hub A, hub B. `counts` are the sensors that have counted anything (R362). -/
structure Ledger where
  rails    : List RailV := [{}, {}, {}, {}, {}, {}, {}, {}]
  temps    : List Nat := [0, 0, 0, 0, 0, 0, 0, 0]
  calib    : List (Nat × Nat × Nat × Nat × Nat) := []
  halted   : Bool := false
  overruns : Nat := 0
  unattributed : Nat := 0
  counts   : List EnergyCount := []
  waiting  : List Instr := []
  deriving DecidableEq, Repr

/-! ### Kofatus links and the fabric (chapter 13) -/

/-- A fabric header the package sends (Table 13-7), in order, with its port and the lines of a write or of a response. -/
structure FOut where
  port  : Nat
  hdr   : FabricHdr
  lines : List Line := []
  deriving DecidableEq, Repr

/-- A Kofatus port (Table 13-5). `queue` are the units that wait to be sent, `credits` the credit of each shaped class in parts of 65,536 of a byte, where
it is not 0, `entry` the gate entry in progress and `used` the port bytes sent in it (R357 to R359). -/
structure Port where
  num       : Nat
  state     : PortState := .off
  role      : Nat := 0
  want      : PortDesc := { role := 0, peerKind := 0xFF, peerPort := 0xFF, peerUnit := 0xFFFF }
  leaving   : Option PortDesc := none
  width     : Nat := 0
  swap      : Bool := false
  spareOut  : Option Nat := none
  spareIn   : Option Nat := none
  lostOut   : List Nat := []
  lostIn    : List Nat := []
  reason    : Nat := 0
  bytes     : Nat := 0
  takeover  : Nat := 0
  peer      : Option Identity := none
  poisoned  : Nat := 0
  discarded : Nat := 0
  trainings : Nat := 0
  shares    : List (Nat × Nat) := []
  gates     : List (Nat × Nat) := []
  gateDue   : Option (Nat × List (Nat × Nat)) := none
  queue     : List FOut := []
  credits   : List (Nat × Int) := []
  entry     : Nat := 0
  used      : Nat := 0
  deriving DecidableEq, Repr

/-- A window export entry (Table 13-8). `base` is the frame of its first line; a landing window's lies in its Landing. -/
structure Win where
  num     : Nat
  kind    : Nat
  reads   : Bool := false
  writes  : Bool := false
  group   : Nat := 0xFFFF
  base    : Nat := noFrame
  length  : Nat := 0
  refused : Nat := 0
  peer    : Option Nat := none
  data    : List (Nat × Line) := []
  deriving DecidableEq, Repr

/-- What issued a fabric read (R406). -/
inductive Issuer where
  | group (num : Nat)
  | migration (handle : Nat)
  | manager
  | fanOut (query : Nat)
  deriving DecidableEq, Repr

/-- A fabric read outstanding, with its traffic class (R401, R405). -/
structure FRead where
  tag    : Nat
  cls    : Nat
  dest   : Nat
  window : Nat
  offset : Nat
  count  : Nat
  port   : Nat
  issuer : Issuer
  epoch  : Nat := 0
  deriving DecidableEq, Repr

/-- The bundle that carries the lines of a pair of engines over one direction of a runner (R35). -/
structure Pair where
  runner : Nat
  dir    : Bool
  src    : Nat
  dst    : Nat
  bundle : Nat
  deriving DecidableEq, Repr

/-- The links. -/
structure Links where
  ports   : List Port := []
  windows : List Win := []
  flows   : List (Nat × Nat × Nat × Nat) := []
  reads   : List FRead := []
  nextTag : Nat := 0
  unreachable : List Nat := []
  out     : List FOut := []
  held    : List Instr := []
  bundles : List Bundle := []
  pairs   : List Pair := []
  lostRunners : List Nat := []
  lasers  : List Bool := [false, false, false, false]
  deriving DecidableEq, Repr

/-! ### The rack (chapter 14) -/

/-- A member of a manager's domain (R409). -/
structure Member where
  serial    : Nat
  num       : Nat
  serialEnd : Nat := 0
  applied   : Nat := 0
  retired   : Nat := 0
  failed    : Bool := false
  deriving DecidableEq, Repr

/-- A rack directory entry (R418). -/
structure DirEntry where
  handle : Nat
  holder : Nat
  state  : Nat
  epoch  : Nat
  deriving DecidableEq, Repr

/-- A manager message to a peer (Table 14-2): `body` are the fields of its kind. Kept until acknowledged (R412). -/
structure MgrMsg where
  peer   : Nat
  seq    : Nat
  kind   : Nat
  epoch  : Nat
  handle : Nat := 0
  body   : List Nat := []
  records : List MapRecord := []
  bytes  : List Byte := []
  sends  : Nat := 1
  deriving DecidableEq, Repr

/-- A live epoch (R413 to R416). -/
structure Epoch where
  num     : Nat
  records : List MapRecord := []
  deriving DecidableEq, Repr

/-- A migration (Table 14-5) at this package: role, step reached, window, state before the switch-over, whether the copy list has emptied and what was copied. -/
structure Migration where
  handle      : Nat
  origin      : Nat
  destination : Nat
  home        : Nat := 0
  alternate   : Nat := 0
  vector      : Nat := 0
  partition   : Nat := 0
  atOrigin    : Bool
  step        : Nat := 1
  before      : SState := .opened
  window      : Nat := 0
  copied      : Bool := false
  copies      : List (Nat × Nat) := []
  incoming    : Option Session := none
  ackedPrep   : Bool := false
  deriving DecidableEq, Repr

/-- A landing window of a participant of this package (Table 5-5): whether it is the one of odd rounds, the round it is armed for, the lines accepted
for that round, those discarded since it was set up, the T1 frame of its first line and its size, and the lines themselves by their place. -/
structure Landing where
  part    : Nat
  odd     : Bool
  round   : Nat
  arrived : Nat := 0
  stale   : Nat := 0
  frame   : Nat := noFrame
  kib     : Nat := 0
  lines   : List (Nat × Line) := []
  deriving DecidableEq, Repr

/-- A model group as this package takes part in it (R172 to R178, R420, R425). `lands` are the landing windows of its own participants;
`release` holds the release lines that arrived, by slot (R420). -/
structure MGroup where
  num      : Nat
  model    : Nat
  parts    : List Participant := []
  round    : Nat := 1
  torn     : Bool := false
  lands    : List Landing := []
  release  : List (Nat × Line) := []
  tearing  : List Nat := []
  deriving DecidableEq, Repr

/-- The rack side. `retired` is the newest epoch this package has reported retired (R416); `asking` the COMMITs of published compositions that
wait for their moves: request, commit, pour, handles (R423); `unacked` and `seen` are R412's, `consumed` the entries taken (R411). -/
structure Rack where
  role      : Nat := 0
  domain    : Nat := 0xFFFF
  num       : Nat := 0
  numValid  : Bool := false
  above     : Nat := 0
  members   : List Member := []
  directory : List DirEntry := []
  epochs    : List Epoch := []
  published : Option Epoch := none
  nextEpoch : Nat := 1
  retired   : Nat := 0
  asking    : List (Open × Nat × Nat × List Nat) := []
  nextSeq   : List (Nat × Nat) := []
  unacked   : List MgrMsg := []
  seen      : List (Nat × Nat) := []
  consumed  : Nat := 0
  outbox    : List MgrMsg := []
  heldMgr   : List Instr := []
  lookups   : List (Nat × Instr) := []
  forwards  : List (Nat × Nat × Nat) := []
  migrations : List Migration := []
  aborted   : List (Nat × Nat) := []
  groups    : List MGroup := []
  registry  : List (Nat × Nat) := []
  waiting   : List Commit := []
  lostPeers : List Nat := []
  joinRefused : Bool := false
  ckptAnswers : List (Nat × Nat × Nat × Nat × Nat) := []
  managerLost : Bool := false
  deriving DecidableEq, Repr

/-! ### Checkpoints (chapter 15) -/

/-- An anchor-log entry (R433): a row cast with its pages, or a change of the directory entry with its image. -/
structure Anchor where
  kind   : Nat
  handle : Nat
  row    : Nat := 0
  image  : Option Session := none
  pages  : List Page := []
  tokens : List Nat := []
  deriving DecidableEq, Repr

/-- The header of a checkpoint section: its logical coordinates (Table 15-4). -/
structure SecHdr where
  kind       : Nat
  encrypted  : Bool := false
  tenant     : Nat := 0
  model      : Nat := 0
  firstLayer : Nat := 0
  layers     : Nat := 0
  firstHead  : Nat := 0
  heads      : Nat := 0
  group      : Nat := 0xFFFF
  participant : Nat := 0xFF
  handle     : Nat := 0
  firstRow   : Nat := 0
  rows       : Nat := 0
  length     : Nat := 0
  deriving DecidableEq, Repr

/-- What a checkpoint's sections hold (Table 15-2). -/
structure Saved where
  sess      : List Session := []
  tens      : List Tenant := []
  flasks    : List Flask := []
  models    : List Model := []
  placements : List Placement := []
  hRegions  : List HRegion := []
  pools     : List Pool := []
  parts     : List Partition := []
  committed : List Item := []
  rounds    : List (Nat × Nat) := []
  pours     : List Pour := []
  shards    : List Shard := []
  ctxs      : List Ctx := []
  hdrs      : List SecHdr := []
  extents   : List Extent := []
  deriving DecidableEq, Repr

/-- A checkpoint slot with a commit record (Table 15-6): valid as R445 decides. `bodies` are the section headers and body LBAs of each module. -/
structure CkSlot where
  number   : Nat
  kind     : Nat
  length   : Nat
  modules  : Nat
  valid    : Bool
  cut      : Nat
  part     : Part
  scDies   : Nat
  clusters : Nat
  package  : Nat
  serial   : Nat
  saved    : Saved
  bodies   : List (Nat × Nat) := []
  deriving DecidableEq, Repr

/-- A checkpoint in progress (Table 15-5a): `cut` once it has been taken, `saved` what it writes. -/
structure Ckpt where
  number  : Nat
  slot    : Nat
  stop    : Bool
  askers  : List Asker
  cut     : Bool := false
  cutPour : Nat := 0
  modules : Nat := 0
  saved   : Saved := {}
  staged  : List Nat := []
  deriving DecidableEq, Repr

/-- Checkpoint and restore. `exports` are the checkpoints that stand in export extents of T2, by byte address,
the newest first (R450); `rounds` are the round counters a restore brought back, for groups not yet composed again (Table 15-2). -/
structure Chk where
  nextNumber : Nat := 1
  slot0    : Option CkSlot := none
  slot1    : Option CkSlot := none
  now      : Option Ckpt := none
  anchors  : List Anchor := []
  restore  : List RestoreItem := []
  mismatch : Bool := false
  exports  : List (Nat × CkSlot) := []
  unrestored : List Nat := []
  rounds   : List (Nat × Nat) := []
  deriving DecidableEq, Repr

/-- What leaves the package beside the tap: MSI-X messages (function, vector), management-bus answers (hub, bytes), mailbox
and AVSBus writes (rail, mV). -/
structure Outs where
  signals : List (Nat × Nat) := []
  mgmt    : List (Nat × List Byte) := []
  volts   : List (Nat × Nat) := []
  deriving DecidableEq, Repr

/-- The state of the block. `free` numbers the free values a step draws (Config); `pending` are the commands waiting, first
in, first out. -/
structure State where
  part    : Part := Config.resetPart
  dev     : Dev := {}
  nor     : Nor := {}
  pins    : Pins := {}
  sec     : Sec := {}
  outs    : Outs := {}
  parts   : List Partition := [{ num := 0, active := true }, { num := 1 }, { num := 2 }, { num := 3 }]
  dies    : List ScDie := [{ num := 0 }, { num := 1 }, { num := 2 }, { num := 3 }]
  cores   : Cores := {}
  stg     : Staging := {}
  fns     : List Fn := []
  tens    : List Tenant := []
  sess    : List Session := []
  sched   : Sched := {}
  models  : List Model := []
  tiers   : Tiers := {}
  store   : Store := {}
  rcl     : Recall := {}
  ledger  : Ledger := {}
  links   : Links := {}
  rack    : Rack := {}
  chk     : Chk := {}
  free    : Nat := 0
  pending : List Instr := []
  deriving DecidableEq, Repr

/-- The machine right after reset: every field at its default (INVENTORY.md gives the rule of each). -/
def State.reset : State := {}

end Sys2Proof.Machine
end

