-- ==== Sys2Proof/Machine/Ops.lean ====
section
/-! DEFINITION. The shared operations over the state: lists by key, what each part fits, sessions, functions and tenants,
meters, the log, the health record, duplicate windows, and the emission of records and signals. -/

namespace Sys2Proof.Machine

/-! ### Lists by key -/

/-- The members of `l` with key `k` replaced by `f` of them. -/
def updKey {α : Type} (key : α → Nat) (k : Nat) (f : α → α) (l : List α) : List α :=
  l.map fun x => if key x = k then f x else x

/-- `x` in the place of the member with its key, or at the end when there is none. -/
def upsert {α : Type} (key : α → Nat) (x : α) (l : List α) : List α :=
  if l.any (fun y => key y == key x) then updKey key (key x) (fun _ => x) l else l ++ [x]

/-- The first member with key `k`. -/
def findKey {α : Type} (key : α → Nat) (k : Nat) (l : List α) : Option α :=
  l.find? fun x => key x == k

/-- `l` without the members of key `k`. -/
def eraseKey {α : Type} (key : α → Nat) (k : Nat) (l : List α) : List α :=
  l.filter fun x => key x != k

/-- The value that a list of pairs gives for a key, or 0. -/
def countOf (l : List (Nat × Nat)) (k : Nat) : Nat :=
  match l.find? (fun p => p.1 == k) with
  | some p => p.2
  | none => 0

/-- The list of pairs with the value of `k` set to `v`. -/
def setCount (l : List (Nat × Nat)) (k v : Nat) : List (Nat × Nat) :=
  (l.filter fun p => p.1 != k) ++ [(k, v)]

/-- Element `i` of a list of flags, false beyond its end. -/
def flagAt (l : List Bool) (i : Nat) : Bool := l.getD i false

/-- Bit `i` of a mask. -/
def bitAt (m i : Nat) : Bool := m.testBit i

/-- Insertion into a list kept in ascending order of a measure, after the members of equal measure. -/
def insertBy {α : Type} (m : α → Nat) (x : α) : List α → List α
  | [] => [x]
  | y :: ys => if m x < m y then x :: y :: ys else y :: insertBy m x ys

/-- A list in ascending order of a measure, members of equal measure in the order they stood. -/
def sortBy {α : Type} (m : α → Nat) (l : List α) : List α :=
  l.foldl (fun acc x => insertBy m x acc) []

/-- `f` applied to `s` with each member of `l` in turn. -/
def forEach {α : Type} (l : List α) (f : α → State → State) (s : State) : State :=
  l.foldl (fun acc x => f x acc) s

/-! ### Bytes -/

/-- `n` little-endian bytes of `v` (R12). -/
def leBytes (n v : Nat) : List Byte :=
  (List.range n).map fun i => BitVec.ofNat 8 (v >>> (8 * i))

/-- The number that little-endian bytes spell (R12). -/
def leNat : List Byte → Nat
  | [] => 0
  | b :: bs => b.toNat + 256 * leNat bs

/-- `n` zero bytes. -/
def zeros (n : Nat) : List Byte := List.replicate n 0

/-- Bytes padded with zeros to `n`. -/
def padTo (n : Nat) (bs : List Byte) : List Byte := bs ++ zeros (n - bs.length)

/-! ### What each part fits (Table 1-1, Table 1-6) -/

/-- Host links. -/
def linkCount (p : Part) : Nat := match p with | .tsn8840 => 2 | .tsn4420 => 1
/-- SC dies fitted, dies 0 to 3 in number (Table 1-1). -/
def scCount (p : Part) : Nat := match p with | .tsn8840 => 4 | .tsn4420 => 2
/-- Hubs fitted. -/
def hubCount (p : Part) : Nat := match p with | .tsn8840 => 2 | .tsn4420 => 1
/-- Kofatus ports fitted (R381). -/
def portCount (p : Part) : Nat := match p with | .tsn8840 => 32 | .tsn4420 => 16
/-- Die numbers fitted (Table 1-1). -/
def diesFitted (p : Part) : List Nat :=
  match p with | .tsn8840 => [0, 1, 2, 3, 4, 5, 6, 7] | .tsn4420 => [0, 1, 4, 6]
/-- Decode slots across all flasks. -/
def slotLimit (p : Part) : Nat := match p with | .tsn8840 => 4096 | .tsn4420 => 2048
/-- Session-directory entries. -/
def directoryLimit (p : Part) : Nat := match p with | .tsn8840 => 16777216 | .tsn4420 => 8388608
/-- T2 extent slots (R217). -/
def extentLimit (p : Part) : Nat := match p with | .tsn8840 => 32768 | .tsn4420 => 16384
/-- The part number in binary (R580). -/
def partNumber (p : Part) : Nat := match p with | .tsn8840 => 8840 | .tsn4420 => 4420
/-- NAND channels (Table 1-6). -/
def channelCount (p : Part) : Nat := match p with | .tsn8840 => 64 | .tsn4420 => 32

/-- The physical functions of the fitted links (R86). -/
def physFns (p : Part) : List Nat := (List.range (linkCount p)).map (· * 256)
/-- The host link of a function identifier (R86). -/
def linkOf (fn : Nat) : Nat := fn / 256
/-- Whether a function identifier names a physical function (R86). -/
def isPhys (fn : Nat) : Bool := fn % 256 == 0
/-- Whether a function identifier names a function of a fitted link that the host has enabled (R86, R462). -/
def fnPresent (s : State) (fn : Nat) : Bool :=
  decide (linkOf fn < linkCount s.part) && decide (fn % 256 < 64) &&
    (isPhys fn || decide (fn % 256 ≤ s.dev.numVFs.getD (linkOf fn) 0))
/-- Whether the function identifier can exist on this part, enabled or not. -/
def fnNamed (p : Part) (fn : Nat) : Bool := decide (linkOf fn < linkCount p) && decide (fn % 256 < 64)
/-- Whether the link of a function is up (R544). -/
def fnUp (s : State) (fn : Nat) : Bool := flagAt s.dev.linkUp (linkOf fn)

/-! ### Sessions, tenants, functions, models, flasks by number -/

def findSess (s : State) (h : Nat) : Option Session := findKey Session.handle h s.sess
def setSess (x : Session) (s : State) : State := { s with sess := updKey Session.handle x.handle (fun _ => x) s.sess }
def onSess (h : Nat) (f : Session → Session) (s : State) : State := { s with sess := updKey Session.handle h f s.sess }
def dropSess (h : Nat) (s : State) : State := { s with sess := eraseKey Session.handle h s.sess }
def addSess (x : Session) (s : State) : State := { s with sess := s.sess ++ [x] }

def findTen (s : State) (t : Nat) : Option Tenant := findKey Tenant.id t s.tens
def onTen (t : Nat) (f : Tenant → Tenant) (s : State) : State := { s with tens := updKey Tenant.id t f s.tens }

/-- A function's state, at its reset values when nothing has touched it. -/
def fnOf (s : State) (fn : Nat) : Fn := (findKey Fn.id fn s.fns).getD { id := fn }
def setFn (f : Fn) (s : State) : State := { s with fns := upsert Fn.id f s.fns }
def onFn (fn : Nat) (g : Fn → Fn) (s : State) : State := setFn { g (fnOf s fn) with id := fn } s

def findModel (s : State) (m : Nat) : Option Model := findKey Model.num m s.models
def onModel (m : Nat) (f : Model → Model) (s : State) : State := { s with models := updKey Model.num m f s.models }

def findFlask (s : State) (k : Nat) : Option Flask := findKey Flask.num k s.sched.flasks
def onFlask (k : Nat) (f : Flask → Flask) (s : State) : State :=
  { s with sched := { s.sched with flasks := updKey Flask.num k f s.sched.flasks } }

def findPort (s : State) (p : Nat) : Option Port := findKey Port.num p s.links.ports
def onPort (p : Nat) (f : Port → Port) (s : State) : State :=
  { s with links := { s.links with ports := updKey Port.num p f s.links.ports } }

def findPart (s : State) (p : Nat) : Option Partition := findKey Partition.num p s.parts
def onDie (d : Nat) (f : ScDie → ScDie) (s : State) : State := { s with dies := updKey ScDie.num d f s.dies }
def findDie (s : State) (d : Nat) : Option ScDie := findKey ScDie.num d s.dies
def onHub (h : Nat) (f : Hub → Hub) (s : State) : State :=
  { s with dev := { s.dev with hubs := s.dev.hubs.modify h f } }
def hubOf (s : State) (h : Nat) : Hub := s.dev.hubs.getD h { fitted := false }

/-- A hub that takes part: fitted, its die whole, its cores neither fenced nor restarting. -/
def hubServes (s : State) (h : Nat) : Bool :=
  decide (h < hubCount s.part) &&
    (let x := hubOf s h; x.fitted && !x.fenced && !x.dieFailed && !x.restarting)
/-- The other hub. -/
def otherHub (h : Nat) : Nat := if h = 0 then 1 else 0
/-- Whether a following hub is present to acknowledge mirrors (R508, R511). -/
def hasFollower (s : State) : Bool := hubServes s (otherHub s.dev.leading)

/-! ### Device state predicates -/

/-- The device state code of Table 19-1. -/
def dstateCode (d : DState) : Nat :=
  match d with
  | .starting => 1 | .selfTest => 2 | .ready => 3 | .orphan => 4 | .stopping => 5 | .stopped => 6 | .safeTalk => 7

/-- READY or ORPHAN: the package serves messages (R528). -/
def serving (s : State) : Bool := s.dev.code == .ready || s.dev.code == .orphan

/-! ### Meters (R44 to R48) -/

/-- Every fitted die's meter moved on by `us` microseconds: no two meters bear a fixed relation, and the model moves them alike
(R46; log entry 11). -/
def tickMeters (us : Nat) (s : State) : State :=
  { s with dev := { s.dev with meters := s.dev.meters.map fun m => { m with ns := m.ns + us * 1000 } } }

/-- A die's meter, in nanoseconds. -/
def meterNs (s : State) (die : Nat) : Nat := (s.dev.meters.getD die {}).ns

/-- The meter of the leading hub (dies 6 and 7). -/
def leadNs (s : State) : Nat := meterNs s (6 + s.dev.leading)

/-! ### Signals -/

/-- MSI-X vector `v` of function `fn` fires; a masked vector sets its pending bit (R113, R114). -/
def fire (fn v : Nat) (s : State) : State :=
  if (fnOf s fn).masked.contains v then
    onFn fn (fun f => { f with pba := if f.pba.contains v then f.pba else f.pba ++ [v] }) s
  else { s with outs := { s.outs with signals := s.outs.signals ++ [(fn, v)] } }

/-- Vector 2 fires on every physical function (R528). -/
def fireState (s : State) : State := forEach (physFns s.part) (fun fn t => fire fn 2 t) s

/-! ### The health record (R491) -/

/-- The governing health record: the newer valid copy; a fresh one where both copies are erased. -/
def hrGoverning (n : Nor) : Option HealthRec :=
  match n.copy0, n.copy1 with
  | .valid a, .valid b => if a.sequence < b.sequence then some b else some a
  | .valid a, _ => some a
  | _, .valid b => some b
  | .erased, .erased => some {}
  | _, _ => none

/-- Whether copy 1 holds the newer sequence, so that copy 0 is the one to write. -/
def hrNewerIs1 (n : Nor) : Bool :=
  match n.copy0, n.copy1 with
  | .valid a, .valid b => decide (a.sequence < b.sequence)
  | .valid _, _ => false
  | _, .valid _ => true
  | _, _ => true

/-- Regions of a stack: 48 GiB in 64 KiB. -/
def stackRegions : Nat := 786432

/-- A rewrite of the health record, with the sequence raised by one, into the copy that does not hold the newer sequence. -/
def hrRewrite (f : HealthRec → HealthRec) (s : State) : State :=
  match hrGoverning s.nor with
  | none => s
  | some r =>
    let r' := { f r with sequence := r.sequence + 1, powered := s.dev.powered }
    if hrNewerIs1 s.nor then { s with nor := { s.nor with copy0 := .valid r' } }
    else { s with nor := { s.nor with copy1 := .valid r' } }

/-- An addition to the space after the record in the copy being written (R552, R553): the record itself stays. -/
def hrAppend (f : HealthRec → HealthRec) (s : State) : State :=
  match s.nor.copy0, s.nor.copy1 with
  | .valid a, .valid b =>
    if a.sequence < b.sequence then { s with nor := { s.nor with copy1 := .valid (f b) } }
    else { s with nor := { s.nor with copy0 := .valid (f a) } }
  | .valid a, _ => { s with nor := { s.nor with copy0 := .valid (f a) } }
  | _, .valid b => { s with nor := { s.nor with copy1 := .valid (f b) } }
  | _, _ => s

/-! ### The device log (R552, R588) -/

/-- Entries the log ring holds (R552). -/
def logRing : Nat := 65536

/-- A log entry of a die and core with data `data`; severity `sev`, or a free value where no rule gives one. The oldest entry
leaves a full ring; an error or fatal entry also goes after the health record. -/
def logWith (die core : Nat) (sev : Option Nat) (data : Nat) (s : State) : State :=
  let e : LogEntry := { sequence := s.dev.logNext, meter := meterNs s die, die := die, core := core
                        severity := sev.getD (Config.eventSeverity s.free), code := Config.eventCode s.free, data := data }
  let full := decide (logRing ≤ s.dev.log.length)
  let s1 : State :=
    { s with free := s.free + 1
             dev := { s.dev with log := (if full then s.dev.log.drop 1 else s.dev.log) ++ [e]
                                 logNext := s.dev.logNext + 1
                                 logOldest := if full then s.dev.logOldest + 1 else s.dev.logOldest } }
  match sev with
  | some v => if 2 ≤ v then hrAppend (fun r => { r with errors := r.errors ++ [e] }) s1 else s1
  | none => s1

/-- The die of the leading hub. -/
def leadDie (s : State) : Nat := 6 + s.dev.leading

/-- An entry in the device log. -/
def note (die data : Nat) (s : State) : State := logWith die 0 none data s

/-- An error entry in the device log (firmware errors, core faults). -/
def noteError (die core data : Nat) (s : State) : State := logWith die core (some 2) data s

/-- A health event: a log entry, counted in the health summary (Table 19-12). -/
def healthEvent (die data : Nat) (s : State) : State :=
  let s1 := note die data s
  { s1 with dev := { s1.dev with events := s1.dev.events + 1 } }

/-- A health event with vector 2. -/
def healthSignal (die data : Nat) (s : State) : State := fireState (healthEvent die data s)

/-- The device enters a state: vector 2 fires on every physical function at each change (R528, R581). -/
def enterState (d : DState) (s : State) : State :=
  if s.dev.code = d then s
  else fireState { s with dev := { s.dev with code := d }
                          pins := { s.pins with safeLow := d == .safeTalk } }

/-! ### Duplicate windows (R97 to R100, R592) -/

/-- `a` is newer than `b` in serial arithmetic modulo 2^32 (R97). -/
def newer (a b : Nat) : Bool :=
  let d := (a + 4294967296 - b % 4294967296) % 4294967296
  decide (1 ≤ d) && decide (d ≤ 2147483647)

/-- What the duplicate window says of a number (R98). -/
inductive WinVerdict where
  | fresh
  | duplicate (e : WinEntry)
  | unknown
  deriving DecidableEq, Repr

/-- R98: a number in the window, a number not newer than h − 64, or a number that enters. -/
def windowVerdict (w : Window) (s : Nat) : WinVerdict :=
  match w.highest with
  | none => .fresh
  | some h =>
    match w.entries.find? (fun e => e.seq == s) with
    | some e => .duplicate e
    | none => if newer s ((h + 4294967296 - 64) % 4294967296) then .fresh else .unknown

/-- A number entered as pending (R98): h rises when it is newer, and the window keeps the last 64 entered. -/
def windowEnter (w : Window) (s op : Nat) : Window :=
  let e : WinEntry := { seq := s, opcode := op }
  let top := match w.highest with | none => some s | some h => if newer s h then some s else some h
  if w.entries.length < 64 then { highest := top, entries := w.entries ++ [e], next := 0 }
  else { highest := top, entries := w.entries.set w.next e, next := (w.next + 1) % 64 }

/-- The entry of a number changed. -/
def windowSet (w : Window) (s : Nat) (f : WinEntry → WinEntry) : Window :=
  { w with entries := w.entries.map fun e => if e.seq = s then f e else e }

/-- A change of the window that `r` names. -/
def onWindow (r : WinRef) (f : Window → Window) (s : State) : State :=
  match r with
  | .session h => onSess h (fun x => { x with window := f x.window }) s
  | .function fn => onFn fn (fun x => { x with window := f x.window }) s

/-- The outcome of a message settled in its window entry (R592). -/
def settle (r : WinRef) (seq : Nat) (o : OCode) (s : State) : State :=
  onWindow r (fun w => windowSet w seq fun e => { e with outcome := some o }) s

/-- The window that `r` names. -/
def windowOf (s : State) (r : WinRef) : Window :=
  match r with
  | .session h => match findSess s h with | some x => x.window | none => {}
  | .function fn => (fnOf s fn).window

/-! ### Outcome codes (Table 21-9) -/

def ocode (o : OCode) : Nat :=
  match o with
  | .done => 0x0000 | .partialRes => 0x0001 | .stopped => 0x0002 | .length => 0x0003 | .toolCall => 0x0004
  | .cancelled => 0x0010 | .barged => 0x0011 | .nothingToCancel => 0x0012 | .deadline => 0x0020 | .late => 0x0021
  | .grammarDeadend => 0x0030 | .invalidText => 0x0040 | .tierFault => 0x0050 | .tierLate => 0x0051
  | .storeFull => 0x0060 | .storeWorn => 0x0061 | .staleEpoch => 0x0070 | .duplicate => 0x0080
  | .tenantRetiring => 0x00A0 | .jobTornDown => 0x00B0 | .lost => 0x00C0 | .truncated => 0x00C1
  | .commitConflict => 0x00D0 | .checkFailed => 0x00D1 | .notSupported => 0x00E0 | .malformed => 0x00F0

/-! ### Records (R104, R105, R108) -/

/-- Where a session's records go: its home function, or its alternate while the home's link is down (R108). -/
def receiver (s : State) (home alt : Nat) : Nat :=
  if fnUp s home then home
  else if alt ≠ 0xFFFF ∧ fnUp s alt then alt
  else home

/-- A record put among those that wait for a block of a function (R104). -/
def answerAt (fn : Nat) (r : WaitRec) (s : State) : State := onFn fn (fun f => { f with waiting := f.waiting ++ [r] }) s

/-- An outcome record that a message without a session gets at the function that sent it, on vector 0 (R108, R113). -/
def answerFn (fn : Nat) (o : OutRec) (s : State) : State := answerAt fn { body := .out o 0 } s

/-- The pour number at whose boundary an outcome arises, 0 outside one. -/
def pourNumber (s : State) : Nat := match s.sched.pour with | some p => p.number | none => 0

/-- An outcome record of a session: one that arises at a release point or a boundary (`b`), or one outside them (R104, R105, R108). -/
def emitOut (b : Bool) (x : Session) (o : OutRec) (s : State) : State :=
  let o1 := { o with tenant := x.tenant, handle := x.handle, pour := if b then pourNumber s else 0 }
  answerAt (receiver s x.home x.alternate) { slot := if b then x.slot else none, inPour := b, body := .out o1 x.vector } s

/-- A session record (R110). -/
def emitSes (b : Bool) (x : Session) (r : SesRec) (s : State) : State :=
  answerAt (receiver s x.home x.alternate) { slot := if b then x.slot else none, inPour := b, body := .ses r x.vector } s

/-- The number of the last pour issued (R11). -/
def lastPourNumber (s : State) : Nat := s.sched.next - 1

/-! ### Mailbox answers (R115, R584, R585) -/

/-- The response to a request taken: written, with DONE set, BUSY clear and vector 1, unless a reset dropped the request. -/
def answerMb (q : Open) (o : OCode) (payload : List Byte) (s : State) : State :=
  let f := fnOf s q.fn
  if f.mb.busy ∧ f.mb.gen = q.gen then
    fire q.fn 1 (onFn q.fn (fun f =>
      { f with mb := { f.mb with busy := false, done := true
                                 response := some { outcome := o, op := q.op, tag := q.tag, payload := payload } } }) s)
  else s

/-- One free value's number drawn (Config). -/
def drawFree (s : State) : State := { s with free := s.free + 1 }

end Sys2Proof.Machine
end

