-- ==== Sys2Proof/Machine/Operands.lean ====
section
/-! DEFINITION. The operand forms: CRC-32C and CRC-16, the fields of a sprue message (Tables 3-1, 3-4 to 3-8), the stop
block, token data, and the byte layouts of tap records, window blocks, log entries, violation entries and port reports. -/

namespace Sys2Proof.Machine

/-! ### Cyclic redundancy checks -/

/-- One bit of the reflected CRC-32C (polynomial 0x1EDC_6F41, reflected 0x82F6_3B78; R88). -/
def crcBit (c : Nat) : Nat := if c % 2 = 1 then (c / 2) ^^^ 0x82F63B78 else c / 2

/-- One byte of the CRC-32C. -/
def crcByte (c b : Nat) : Nat := crcBit (crcBit (crcBit (crcBit (crcBit (crcBit (crcBit (crcBit (c ^^^ b))))))))

/-- CRC-32C of bytes from offset 0 upwards: the register starts at 0xFFFF_FFFF and the result is inverted (R88). -/
def crc32c (bs : List Nat) : Nat := (bs.foldl crcByte 0xFFFFFFFF) ^^^ 0xFFFFFFFF

/-- One bit of the CRC-16 of a runner line (polynomial 0x1021, most significant bit first; Table 1-5a). -/
def crc16Bit (c : Nat) : Nat := if c.testBit 15 then ((c * 2) ^^^ 0x1021) % 65536 else c * 2

/-- One byte of the CRC-16. -/
def crc16Byte (c b : Nat) : Nat :=
  crc16Bit (crc16Bit (crc16Bit (crc16Bit (crc16Bit (crc16Bit (crc16Bit (crc16Bit ((c ^^^ (b * 256)) % 65536))))))))

/-- CRC-16 of bytes, initial value 0xFFFF (Table 1-5a). -/
def crc16 (bs : List Nat) : Nat := bs.foldl crc16Byte 0xFFFF

/-! ### Fields of a 64-byte line -/

/-- The little-endian field of `size` bytes at byte `off` of a line (R12). -/
def field (w : Line) (off size : Nat) : Nat := (w.toNat >>> (8 * off)) % 2 ^ (8 * size)

/-- Byte `i` of a line. -/
def byteOf (w : Line) (i : Nat) : Nat := field w i 1

/-- Bytes `off` to `off + n − 1` of a line. -/
def bytesOf (w : Line) (off n : Nat) : List Nat := (List.range n).map fun i => byteOf w (off + i)

/-- The line that little-endian bytes spell, in its first 64 bytes. -/
def lineOf (bs : List Byte) : Line := BitVec.ofNat 512 (leNat bs)

/-- A line with the field of `size` bytes at byte `off` set to `v`, added to a line that holds zero there. -/
def putField (w : Nat) (off size v : Nat) : Nat := w + (v % 2 ^ (8 * size)) * 2 ^ (8 * off)

/-! ### The message header (Table 3-1) -/

def msgMinor (m : Sprue) : Nat := field m.w 0 1
def msgOpcode (m : Sprue) : Nat := field m.w 1 1
def msgTenant (m : Sprue) : Nat := field m.w 2 2
def msgSeq (m : Sprue) : Nat := field m.w 4 4
def msgHandle (m : Sprue) : Nat := field m.w 8 8
def msgCrc (m : Sprue) : Nat := field m.w 60 4
/-- The field of `size` bytes at offset `off` of the message. -/
def msgAt (m : Sprue) (off size : Nat) : Nat := field m.w off size
/-- Whether the crc matches bytes 0 to 59 (R88). -/
def msgCrcOk (m : Sprue) : Bool := crc32c (bytesOf m.w 0 60) == msgCrc m

/-- The line of a message with a good crc, from its header and the fields of its payload (offset, size, value). -/
def sealMessage (minor opcode tenant seq handle : Nat) (payload : List (Nat × Nat × Nat)) : Line :=
  let h := [(0, 1, minor), (1, 1, opcode), (2, 2, tenant), (4, 4, seq), (8, 8, handle)] ++ payload
  let v := h.foldl (fun acc f => putField acc f.1 f.2.1 f.2.2) 0
  let c := crc32c (bytesOf (BitVec.ofNat 512 v) 0 60)
  BitVec.ofNat 512 (putField v 60 4 c)

/-! ### Payload data -/

/-- Four-byte token identifiers; absent when the length is not a multiple of 4 (Table 3-5). -/
def tokensOf : List Byte → Option (List Nat)
  | [] => some []
  | a :: b :: c :: d :: rest => (tokensOf rest).map fun ts => leNat [a, b, c, d] :: ts
  | _ => none

/-- Inline bytes of an APPEND_TEXT (Table 3-5). -/
def inlineBytes (w : Line) (off n : Nat) : List Byte := (bytesOf w off n).map (BitVec.ofNat 8)

/-- The strings of a stop block of `n` entries of 65 bytes: length 1 to 64, then the string (Table 3-6). -/
def stopStrings : Nat → List Byte → Option (List (List Byte))
  | 0, _ => some []
  | n + 1, bs =>
    match bs with
    | [] => none
    | l :: rest =>
      if 1 ≤ l.toNat ∧ l.toNat ≤ 64 ∧ 64 ≤ rest.length then
        (stopStrings n (rest.drop 64)).map fun ss => rest.take l.toNat :: ss
      else none

/-! ### Byte layouts -/

/-- A window block (Table 3-9), 1,088 bytes; an entry's unknown fields are zero. -/
def windowBytes (w : Window) : List Byte :=
  let entry := fun (e : WinEntry) =>
    leBytes 4 e.seq ++ leBytes 2 ((e.outcome.map ocode).getD 0xFFFF) ++ leBytes 1 e.opcode ++ zeros 1 ++ leBytes 8 e.position
  padTo 1088 (leBytes 4 (w.highest.getD 0) ++ leBytes 1 w.entries.length ++ leBytes 1 w.next ++ zeros 58 ++ (w.entries.map entry).flatten)

/-- The 64 bytes of a tap record (Tables 3-10 to 3-13). -/
def tapBytes (r : TapRec) : List Byte :=
  let form := fun (n : Nat) => leBytes 1 (n + if r.lap then 128 else 0)
  match r.body with
  | .header stall more records flask pour consumed policed discarded backlog =>
    padTo 64 (form 0 ++ leBytes 1 ((if stall then 1 else 0) + if more then 2 else 0) ++ leBytes 2 records ++ leBytes 2 flask ++
      zeros 2 ++ leBytes 8 pour ++ leBytes 8 consumed ++ leBytes 4 policed ++ leBytes 4 discarded ++ leBytes 8 r.pos ++
      leBytes 4 backlog)
  | .session x bytes conts =>
    padTo 64 (form 1 ++
      leBytes 1 ((if x.late then 1 else 0) + (if x.noToken then 2 else 0) + if x.heldBack then 4 else 0) ++
      leBytes 2 x.tenant ++ leBytes 4 x.seq ++ leBytes 8 x.handle ++ leBytes 4 x.released ++
      leBytes 4 (x.token.getD 0xFFFFFFFF) ++ leBytes 2 bytes ++ leBytes 2 conts ++ zeros 4 ++ padTo 32 (x.text.take 32))
  | .continuation _ index text =>
    padTo 64 (form 2 ++ leBytes 1 text.length ++ leBytes 2 index ++ zeros 4 ++ text)
  | .outcome o =>
    leBytes 1 (3 + if r.lap then 128 else 0) ++
      leBytes 1 ((if o.final then 1 else 0) + (if o.answers then 2 else 0) + if o.dup then 4 else 0) ++
      leBytes 2 o.tenant ++ leBytes 4 o.seq ++ leBytes 8 o.handle ++ leBytes 2 (ocode o.outcome) ++ leBytes 1 o.opcode ++
      zeros 1 ++ leBytes 4 o.length ++ leBytes 8 o.d0 ++ leBytes 8 o.d1 ++ leBytes 8 o.clientTag ++ leBytes 8 o.position ++
      leBytes 8 o.pour

/-- A log entry (Table 19-13), 32 bytes. -/
def logBytes (e : LogEntry) : List Byte :=
  leBytes 8 e.sequence ++ leBytes 8 e.meter ++ leBytes 1 e.die ++ leBytes 1 e.core ++ leBytes 1 e.severity ++ zeros 1 ++
    leBytes 2 e.code ++ zeros 2 ++ leBytes 8 e.data

/-- A violation entry (Table 17-11), 16 bytes. -/
def violationBytes (v : Violation) : List Byte :=
  leBytes 4 v.item ++ leBytes 4 v.hostTag ++ leBytes 2 v.code ++ leBytes 2 v.field ++ leBytes 4 v.value

/-- An identity block (Table 13-2), 32 bytes. -/
def identityBytes (i : Identity) : List Byte :=
  leBytes 1 i.kind ++ leBytes 1 i.port ++ leBytes 2 i.unit ++ leBytes 2 i.domain ++ leBytes 1 i.role ++ zeros 1 ++
    leBytes 8 i.serial ++ zeros 16

/-- The code of a port state (Table 13-3). -/
def portCode (p : PortState) : Nat :=
  match p with | .off => 0 | .dark => 1 | .training => 2 | .up => 3 | .miswired => 4 | .down => 5

/-! ### The health record (Table 17-7) -/

/-- A tenant-key entry of the health record. -/
def keyEntryBytes (k : KeyEntry) : List Byte :=
  leBytes 2 k.tenant ++ leBytes 1 (if k.retired then 2 else 1) ++ zeros 5 ++ leBytes 8 k.check ++
    (match k.key with | some v => (List.range 72).map (Config.wrappedKey v) | none => zeros 72) ++ leBytes 8 k.label

/-- Every region that a health record tells retired, those of the stacks that failed whole among them (R242). -/
def retiredRegions (r : HealthRec) : List (Nat × Nat) :=
  r.regions ++ r.lostStacks.flatMap fun k => (List.range stackRegions).map fun n => (k, n)

/-- A region's word in the health record: its die above, its index on the die below (Table 17-7). -/
def regionWord (g : Nat × Nat) : Nat := g.1 / 6 * 2 ^ 30 + (g.1 % 6 * stackRegions + g.2)

/-- A copy of the health record as it is programmed, with the extent slots that hold the anchor log; the crc over it with its own field zero. -/
def healthRecordBytes (r : HealthRec) (anchors : List Nat) : List Byte :=
  let tail := (r.keys.map keyEntryBytes).flatten ++ ((retiredRegions r).map fun g => leBytes 4 (regionWord g)).flatten ++ (anchors.map (leBytes 2)).flatten
  let whole := fun (crc : Nat) =>
    [0x48, 0x4C, 0x54, 0x48] ++ leBytes 2 0x0100 ++ leBytes 1 r.nextSlot ++ leBytes 1 (r.trial.toNat * 4 + r.selfPassed.toNat * 2 + r.clean.toNat) ++
      leBytes 8 r.sequence ++ leBytes 8 r.serialEnd ++ leBytes 1 r.goodSlot ++ zeros 3 ++ leBytes 4 r.confirmed ++ leBytes 64 (r.owner.getD 0) ++
      leBytes 4 r.keys.length ++ leBytes 4 (retiredRegions r).length ++ leBytes 4 anchors.length ++ leBytes 4 (128 + tail.length) ++ leBytes 4 crc ++ zeros 12 ++ tail
  whole (crc32c ((whole 0).map BitVec.toNat))

end Sys2Proof.Machine
end

