-- ==== Sys2Proof/Machine/Tap.lean ====
section
/-! DEFINITION. The tap: blocks and their parts, the backlog, releases, vectors, and what a function-level reset clears
(R102 to R114, R118). -/

namespace Sys2Proof.Machine

/-- Pieces of `n` members, with fuel for their number. -/
def piecesOf {α : Type} (n : Nat) : Nat → List α → List (List α)
  | 0, _ => []
  | _ + 1, [] => []
  | k + 1, l => l.take n :: piecesOf n k (l.drop n)

/-- Continuation records, numbered from 1. -/
def continuations (handle : Nat) (ts : List (List Byte)) : List TapBody :=
  ts.mapIdx fun i t => .continuation handle (i + 1) t

/-- The body records of a record, with the vector each counts on: text beyond 32 bytes follows in pieces of up to 56 (R110). -/
def bodiesOf : Rec → List (TapBody × Nat)
  | .ses r v =>
    let more := piecesOf 56 r.text.length (r.text.drop 32)
    (TapBody.session r (min 32 r.text.length) more.length, v) :: (continuations r.handle more).map (·, v)
  | .out o v => [(.outcome o, v)]

/-- The settings of a vector (R114): c = 1 and i = 0 where none are set. -/
def vecCfg (f : Fn) (v : Nat) : VecCfg := (findKey VecCfg.vector v f.vectors).getD { vector := v }

/-- Records of a block counted on a vector: it fires when the count reaches c, and the count restarts (R114). -/
def countVector (fn v k : Nat) (s : State) : State :=
  let f := fnOf s fn
  let c := countOf f.counts v + k
  if (vecCfg f v).count ≤ c then
    fire fn v (onFn fn (fun f => { f with counts := setCount f.counts v 0 }) s)
  else onFn fn (fun f => { f with counts := setCount f.counts v c }) s

/-- Vectors of a part, each once, in the order they first appear. -/
def partVectors (part : List (TapBody × Nat)) : List Nat :=
  part.foldl (fun acc r => if acc.contains r.2 then acc else acc ++ [r.2]) []

/-- The position of an answering record entered in the window of the message it answers (R592). -/
def fillPosition (r : TapRec) (s : State) : State :=
  match r.body with
  | .outcome o =>
    let put := fun (w : WinRef) (q : Nat) => onWindow w (fun win => windowSet win q fun e => { e with position := r.pos })
    let s1 := match o.win with | some w => put w o.seq s | none => s
    match o.also with | some (w, q) => put w q s1 | none => s1
  | _ => s

/-- The lap bit of a position in a ring of 2^n records (R103). -/
def lapBit (n pos : Nat) : Bool := (pos / 2 ^ n) % 2 == 0

/-- Records waiting in a function's backlog: the body records of each waiting block and its header (R106). -/
def backlogCount (f : Fn) : Nat := (f.backlog.map fun b => b.recs.length + 1).sum

/-- The largest backlog (R106). -/
def backlogLimit : Nat := 1048576

/-- Whether a function's backlog is full (R106). -/
def stalled (f : Fn) : Bool := decide (backlogLimit ≤ backlogCount f)

/-- One part of a block written at a function's next position: its header, then its records; the counts since the previous
block restart; positions are entered; vectors count (R103, R104, R107, R114, R592). The header's stall flag tells whether the backlog is full as the
part is written, the part itself no longer in it (R106; log entry 202). -/
def writePart (fn n flask pour : Nat) (more : Bool) (part : List (TapBody × Nat)) (s : State) : State :=
  let f := fnOf s fn
  let q := f.next
  let header : TapRec :=
    { pos := q, lap := lapBit n q
      body := .header (stalled f) more (part.length + 1) flask pour f.consumed f.policed f.discarded (backlogCount f) }
  let recs := part.mapIdx fun i r => ({ pos := q + 1 + i, lap := lapBit n (q + 1 + i), body := r.1 } : TapRec)
  let s1 := onFn fn (fun f =>
    { f with next := q + part.length + 1, inRing := f.inRing ++ header :: recs, policed := 0, discarded := 0 }) s
  let s2 := forEach recs fillPosition s1
  forEach (partVectors part) (fun v t => countVector fn v ((part.filter fun r => r.2 == v).length) t) s2

/-- The front of a function's backlog written while it fits (R106, R107), with fuel for the parts. -/
def drainWith (fn : Nat) : Nat → State → State
  | 0, s => s
  | k + 1, s =>
    let f := fnOf s fn
    match f.ring, f.backlog with
    | some (_, n), b :: bs =>
      if fnUp s fn then
        let part := b.recs.take (min (2 ^ n) 65535 - 1)
        let rest := b.recs.drop (min (2 ^ n) 65535 - 1)
        if f.next + part.length + 1 - f.released ≤ 2 ^ n then
          let left := if rest.isEmpty then bs else { b with recs := rest } :: bs
          drainWith fn k (writePart fn n b.flask b.pour (!rest.isEmpty) part (onFn fn (fun f => { f with backlog := left }) s))
        else s
      else s
    | _, _ => s

/-- The backlog of a function written as far as it fits. -/
def drainBacklog (fn : Nat) (s : State) : State :=
  let f := fnOf s fn
  drainWith fn (backlogCount f) s

/-- A block of a function: placed behind what waits, and written as far as it fits (R106). A block with no record is none. -/
def writeBlock (fn flask pour : Nat) (recs : List Rec) (s : State) : State :=
  if recs.isEmpty then s
  else drainBacklog fn (onFn fn (fun f =>
    { f with backlog := f.backlog ++ [{ flask := flask, pour := pour, recs := (recs.map bodiesOf).flatten }] }) s)

/-- The slot whose records form a group of item 2 of R105: that of a session with a session record of the pour. -/
def slotGroup (rs : List WaitRec) (r : WaitRec) : Option Nat :=
  match r.slot with
  | none => none
  | some k =>
    if r.inPour && rs.any (fun q => q.inPour && q.slot == some k && (match q.body with | .ses _ _ => true | _ => false)) then some k
    else none

/-- Whether a record is a session record. -/
def isSes (r : WaitRec) : Bool := match r.body with | .ses _ _ => true | .out _ _ => false

/-- Records in the order of R105: the groups of item 2 by ascending slot, session records first; then every other, in the order its
cause arose. -/
def blockOrder (rs : List WaitRec) : List Rec :=
  let own := sortBy (fun r => 2 * (slotGroup rs r).getD 0 + (if isSes r then 0 else 1))
    (rs.filter fun r => (slotGroup rs r).isSome)
  (own ++ rs.filter fun r => (slotGroup rs r).isNone).map WaitRec.body

/-- A block of what waits for a function: at step 8 of a pour all of it, otherwise what no pour in flight holds (R104). -/
def waitingBlock (all : Bool) (flask pour fn : Nat) (s : State) : State :=
  let ws := (fnOf s fn).waiting
  let now := ws.filter fun r => all || !r.inPour
  writeBlock fn flask pour (blockOrder now) (onFn fn (fun f => { f with waiting := ws.filter fun r => !all && r.inPour }) s)

/-- The tap blocks of step 8 of a pour: one for every function that has records (R104). -/
def writePourBlocks (flask pour : Nat) (s : State) : State :=
  forEach ((s.fns.filter fun f => !f.waiting.isEmpty).map Fn.id) (waitingBlock true flask pour) s

/-- The block of pour number 0 that holds every answer waiting for a function (R104). -/
def answerBlock (fn : Nat) (s : State) : State := waitingBlock false 0xFFFF 0 fn s

/-- Sessions whose close or loss a released record reported (R65, R109). -/
def reportedBelow (v : Nat) (rs : List TapRec) : List Nat :=
  rs.filterMap fun r =>
    match r.body with
    | .outcome o => if o.reports && decide (r.pos < v) then some o.handle else none
    | _ => none

/-- A closed or lost session becomes FREE (R65). -/
def freeReported (h : Nat) (s : State) : State :=
  match findSess s h with
  | some x => if x.state == .closed || x.state == .lost then dropSess h s else s
  | none => s

/-- Every record of a function below position `v` released (R109, R65), and its backlog written as far as it then fits. -/
def releaseTo (fn v : Nat) (s : State) : State :=
  let hs := reportedBelow v (fnOf s fn).inRing
  let s1 := onFn fn (fun f => { f with released := v, inRing := f.inRing.filter fun r => decide (v ≤ r.pos) }) s
  drainBacklog fn (forEach hs freeReported s1)

/-- A function-level reset (R118, R585): slots, consumed count, ring, window, vector settings, mailbox and held result. -/
def functionReset (fn : Nat) (s : State) : State :=
  onFn fn (fun f => { f with slots := [], consumed := 0, ring := none, window := {}, vectors := [], attest := none
                             mb := { gen := f.mb.gen + 1 } }) s

/-! ### The rows of the tap -/

/-- SPRUE_WRITE_DISCARDED (R91): counted in the block header's discarded field; the slot does not change. -/
def execSprueWriteDiscarded (fn : Nat) (_cause : DiscardCause) (s : State) : Host.Outcome State Fault Refusal :=
  .next (onFn fn (fun f => { f with discarded := f.discarded + 1 }) s)

/-- ANSWER_BLOCK_TIMEOUT (R104): 1,000 µs after the first waiting answer arose with no pour's step 8. -/
def execAnswerBlockTimeout (fn : Nat) (s : State) : Host.Outcome State Fault Refusal :=
  .next (answerBlock fn s)

/-- BACKLOG_DRAIN (R106): what fits of a function's backlog is written. -/
def execBacklogDrain (fn : Nat) (s : State) : Host.Outcome State Fault Refusal :=
  .next (drainBacklog fn s)

/-- VECTOR_INTERVAL_EXPIRY (R114): i µs since the first record counted; an interval of 0 sets no timer. -/
def execVectorIntervalExpiry (fn vector : Nat) (s : State) : Host.Outcome State Fault Refusal :=
  let f := fnOf s fn
  if (vecCfg f vector).interval ≠ 0 ∧ 0 < countOf f.counts vector then
    .next (fire fn vector (onFn fn (fun f => { f with counts := setCount f.counts vector 0 }) s))
  else .next s

/-- FUNCTION_LEVEL_RESET (R118, R585). -/
def execFunctionLevelReset (fn : Nat) (s : State) : Host.Outcome State Fault Refusal :=
  .next (functionReset fn s)

end Sys2Proof.Machine
end

