-- ==== Sys2Proof/Machine/Flags.lean ====
section
/-! DEFINITION. Everything the registers show: the identity and state registers, the function registers, the health summary
with its end-of-life prediction, and the port report (R551, R554, R580, R582, Table 13-5). -/

namespace Sys2Proof.Machine

/-! ### Flags of the health summary (Table 19-12) -/

/-- Checkpointing is disabled: E_hold is 0 or no chill module is present (R374). -/
def unprotected (s : State) : Bool :=
  (match s.dev.image with | some im => im.board.holdUpJ == 0 | none => false) || !(s.dev.chill.any id)

/-- The store is read-only in some namespace (R270). -/
def storeReadOnly (s : State) : Bool := s.store.nss.any Ns.readOnly

/-- A fitted SC die with a logical cluster left empty (R28). -/
def dieDegraded (d : ScDie) : Bool := d.fitted && d.logical.any Option.isNone

/-- The package is reported degraded (R28, R38, R242, R243, R514, R536). -/
def degraded (s : State) : Bool :=
  s.dies.any dieDegraded || !s.dev.failed.isEmpty || s.dev.hubs.any Hub.fenced || !s.links.lostRunners.isEmpty ||
    !s.tiers.degraded.isEmpty

/-- A 0 or 1 for a flag. -/
def bit (b : Bool) : Nat := if b then 1 else 0

/-- The mask with bit n set where flag n holds. -/
def maskOf (l : List Bool) : Nat := (l.mapIdx fun i b => bit b * 2 ^ i).sum

/-! ### Identity and state registers (Table 21-4) -/

/-- ID_PART: part number, stepping B0, message format 3.2. -/
def idPart (s : State) : Nat := partNumber s.part * 2 ^ 32 + 0xB0 * 2 ^ 24 + 3 * 2 ^ 16 + 2 * 2 ^ 8

/-- ID_STATE. -/
def idState (s : State) : Nat :=
  s.rack.domain * 2 ^ 32 + bit s.rack.numValid * 2 ^ 28 + s.rack.num * 2 ^ 16 + s.rack.role * 2 ^ 12 +
    maskOf s.dev.linkUp * 2 ^ 10 + bit (storeReadOnly s) * 2 ^ 9 +
    (if s.dev.image.isSome then bit (unprotected s) else 0) * 2 ^ 8 + bit (degraded s) * 2 ^ 7 +
    s.dev.leading * 2 ^ 4 + dstateCode s.dev.code

/-- Dies failed or fenced (R537). -/
def failedMask (s : State) : Nat :=
  ((diesFitted s.part).map fun n =>
    bit (s.dev.failed.contains n || (decide (6 ≤ n) && ((hubOf s (n - 6)).fenced || (hubOf s (n - 6)).dieFailed))) * 2 ^ n).sum

/-- ID_DIES. The spare bits read 0 until the fuses are read at step 2 of the start (Table 21-4, Table 19-3). -/
def idDies (s : State) : Nat :=
  let scs := s.dies.filter fun d => decide (d.num < scCount s.part)
  (scs.map fun d => bit d.stopped * 2 ^ (28 + d.num)).sum + (if 1 < s.dev.step then (scs.map fun d => bit d.spare.isSome * 2 ^ (24 + d.num)).sum else 0) +
    failedMask s * 2 ^ 16 + (s.parts.map fun p => bit p.active * 2 ^ (8 + p.num)).sum +
    ((diesFitted s.part).map fun n => 2 ^ n).sum

/-- ID_CLUSTERSd: the physical position behind each logical cluster and the spare, 0xF where there is none; every field 0xF on a
die not fitted. -/
def idClusters (s : State) (d : Nat) : Nat :=
  if scCount s.part ≤ d then 0xFFFFFFFFF
  else match findDie s d with
    | none => 0xFFFFFFFFF
    | some x => x.spare.getD 0xF * 2 ^ 32 + ((x.logical.mapIdx fun n p => p.getD 0xF * 2 ^ (4 * n)).sum)

/-- ID_IMAGE. -/
def idImage (s : State) : Nat :=
  match s.dev.image with
  | none => 0
  | some im => s.dev.slot * 2 ^ 40 + im.securityVersion * 2 ^ 32 + im.imageVersion

/-- The partition a virtual function is assigned to (Table 16-3). -/
def vfPartition (s : State) (fn : Nat) : Option Nat :=
  if isPhys fn then none
  else (s.parts.find? fun p => p.active && bitAt (if linkOf fn = 0 then p.link0 else p.link1) (fn % 256)).map Partition.num

/-- ID_FUNCTION. -/
def idFunction (s : State) (fn : Nat) : Nat :=
  match vfPartition s fn with
  | some p => 2 ^ 18 + p * 2 ^ 16 + fn
  | none => fn

/-- The eighty bytes of the identity registers as a function reads them (Table 21-4). -/
def identityRegs (s : State) (fn : Nat) : List Byte :=
  ([idPart s, Config.factorySerial, idState s, idDies s, idClusters s 0, idClusters s 1, idClusters s 2, idClusters s 3,
    idImage s, idFunction s fn].map (leBytes 8)).flatten

/-! ### Function registers (Table 21-5) -/

/-- TAP_STATUS. -/
def tapStatus (f : Fn) : Nat :=
  backlogCount f * 2 ^ 32 + bit (stalled f) * 2 ^ 6 + bit f.ring.isSome * 2 ^ 5 + (f.ring.map Prod.snd).getD 0

/-- MB_CTRL as it reads. -/
def mbCtrl (f : Fn) : Nat := bit f.mb.rejected * 2 ^ 3 + bit f.mb.done * 2 ^ 2 + bit f.mb.busy * 2

/-- A function register by offset (Table 21-5); an offset not listed reads zero (R578). -/
def fnRegister (s : State) (fn off : Nat) : Nat :=
  let f := fnOf s fn
  match off with
  | 0x200 => f.consumed
  | 0x208 => tapStatus f
  | 0x210 => f.next
  | 0x218 => f.released
  | 0x220 => mbCtrl f
  | _ => 0

/-- Eight bytes of a byte string at an offset, as one register value. -/
def wordAt (bs : List Byte) (off : Nat) : Nat := leNat ((bs.drop off).take 8)

/-- The response area (R115, R584): the last response taken, zero without one. -/
def responseBytes (f : Fn) : List Byte :=
  match f.mb.response with
  | none => []
  | some r => leBytes 2 (ocode r.outcome) ++ leBytes 2 r.op ++ leBytes 4 r.tag ++ leBytes 4 r.payload.length ++ zeros 4 ++ r.payload

/-- A 64-bit read of the control window (Table 21-3). -/
def controlRead (s : State) (fn off : Nat) : Nat :=
  if off < 80 then wordAt (identityRegs s fn) off
  else if off < 0x1000 then fnRegister s fn off
  else if 0x2000 ≤ off ∧ off < 0x3000 then wordAt (responseBytes (fnOf s fn)) (off - 0x2000)
  else if 0x4000 ≤ off ∧ off < 0x4100 then
    ((List.range 64).map fun i => if (fnOf s fn).pba.contains (8 * (off - 0x4000) + i) then 2 ^ i else 0).sum
  else if 0x8000 ≤ off ∧ off < 0x10000 then countOf (fnOf s fn).msixTable (off - 0x8000)
  else 0

/-! ### End of life (R553, R554) -/

/-- The limit of an indicator (Table 19-14), in the unit its samples are held in: logic rate in parts per million. -/
def ageLimit (s : State) (kind : Nat) : Nat :=
  match kind with
  | 1 => 80000
  | 2 => 65536
  | 4 => (s.dev.image.map fun im => im.board.eraseLimit).getD 3000
  | _ => 100

/-- Months left for one indicator of one die: 0xFFFF under 100 powered hours of history, 65,534 without a rise (R554). -/
def monthsOf (s : State) (hist : List AgeSample) (die kind : Nat) : Nat :=
  match (hist.filter fun a => a.die == die && a.kind == kind) with
  | [] => 0xFFFF
  | a :: rest =>
    let last := rest.getLastD a
    if last.powered - a.powered < 100 * 3600 then 0xFFFF
    else
      let base := ((a :: rest).find? fun x => decide (last.powered ≤ x.powered + 1000 * 3600)).getD a
      if last.value ≤ base.value then 65534
      else min 65534 ((ageLimit s kind - last.value) * 2000 / ((last.value - base.value) * 1461))

/-- The ageing history in the governing health record. -/
def ageHistory (s : State) : List AgeSample := (hrGoverning s.nor).elim [] HealthRec.ageing

/-- The indicators charged to a die (Table 19-14). -/
def dieKinds (die : Nat) : List Nat :=
  if die < 4 then [1, 2] else if die < 6 then [1, 3] else [1, 4, 5]

/-- A die's prediction with the indicator that limits it, 0 where no history limits it (R554). -/
def dieMonths (s : State) (die : Nat) : Nat × Nat :=
  (dieKinds die).foldl (fun acc k =>
    let m := monthsOf s (ageHistory s) die k
    if m < acc.1 then (m, k) else acc) (0xFFFF, 0)

/-- The unit's prediction: the lowest of its dies (R554). -/
def unitMonths (s : State) : Nat × Nat :=
  (diesFitted s.part).foldl (fun acc d => if (dieMonths s d).1 < acc.1 then dieMonths s d else acc) (0xFFFF, 0)

/-- Whether the governing record has trial pending set (Table 17-7). -/
def trialPending (s : State) : Bool := (hrGoverning s.nor).elim false HealthRec.trial

/-- The health summary, 64 bytes (Table 19-12). -/
def healthSummary (s : State) : List Byte :=
  let u := unitMonths s
  let fitted := fun (d : Nat) => (diesFitted s.part).contains d
  let months := (List.range 8).map fun d => leBytes 2 (if fitted d then (dieMonths s d).1 else 0xFFFF)
  let sources := (List.range 8).map fun d => leBytes 1 (if fitted d then (dieMonths s d).2 else 0)
  padTo 64 (leBytes 1 (dstateCode s.dev.code) ++
    leBytes 1 (bit (degraded s) + bit (unprotected s) * 2 + bit (storeReadOnly s) * 4 + bit s.dev.quick * 8 +
      bit (trialPending s) * 16 + bit (s.dies.any ScDie.stopped) * 32) ++
    leBytes 1 s.dev.leading ++ leBytes 1 (maskOf s.dev.linkUp) ++ leBytes 4 s.dev.events ++ leBytes 8 s.dev.powered ++
    leBytes 2 u.1 ++ leBytes 1 u.2 ++ zeros 1 ++ months.flatten ++ sources.flatten)

/-! ### Reports -/

/-- A port report, 128 bytes (Table 13-5). What the link layer counts flit by flit and the line power are free values (log entry 90). -/
def portReport (free : Nat) (p : Port) : List Byte :=
  let own := fun n => Config.linkLayer p.num n free
  padTo 128 (leBytes 1 p.num ++ leBytes 1 (portCode p.state) ++ leBytes 1 p.role ++ leBytes 1 p.width ++ leBytes 1 (bit p.swap) ++
    leBytes 1 (p.spareOut.getD 0xFF) ++ leBytes 1 (p.spareIn.getD 0xFF) ++ leBytes 1 p.reason ++ leBytes 8 p.bytes ++
    leBytes 8 p.takeover ++ (p.peer.elim (zeros 32) identityBytes) ++ leBytes 8 (own 0) ++ leBytes 8 (own 1) ++
    leBytes 8 (own 2) ++ leBytes 8 p.poisoned ++ leBytes 8 p.discarded ++ leBytes 2 (own 3) ++ zeros 2 ++
    leBytes 4 p.trainings)

/-- Enabled clusters, not fenced (Table 21-7). -/
def enabledClusters (s : State) : Nat :=
  ((s.dies.filter fun d => decide (d.num < scCount s.part) && !d.failed).map fun d => d.logical.countP Option.isSome).sum

/-- HBM stacks in service: bit 6d + k for stack k of SC die d (Table 16-3). -/
def stacksInService (s : State) : Nat :=
  ((s.dies.filter fun d => decide (d.num < scCount s.part) && !d.failed).map fun d =>
    maskOf d.stacksIn * 2 ^ (6 * d.num)).sum

/-- The IDENTIFY response payload, 128 bytes (Table 21-7). -/
def identifyPayload (s : State) (fn : Nat) : List Byte :=
  padTo 128 (identityRegs s fn ++ leBytes 2 (slotLimit s.part) ++ leBytes 2 4096 ++ leBytes 4 (directoryLimit s.part) ++
    leBytes 1 16 ++ leBytes 1 4 ++ leBytes 1 64 ++ leBytes 1 (enabledClusters s) ++ leBytes 4 (stacksInService s) ++
    leBytes 4 (2 ^ portCount s.part - 1) ++ leBytes 8 s.store.channels ++ leBytes 2 (extentLimit s.part) ++
    leBytes 1 (maskOf s.dev.chill) ++ zeros 1 ++ leBytes 2 s.dev.moulds.length ++ leBytes 2 s.dev.tokenisers.length)

/-! ### Reads of a function's windows (R90, R578, R587) -/

/-- A 64-bit read of the log window (Table 21-8). -/
def logRead (s : State) (off : Nat) : Nat :=
  if off = 0 then s.dev.logNext
  else if off = 8 then (s.dev.log.map LogEntry.sequence).headD s.dev.logNext
  else if 0x40 ≤ off ∧ off < 0x80 then wordAt (healthSummary s) (off - 0x40)
  else if 0x1000 ≤ off ∧ off < 0x201000 then
    match s.dev.log.find? fun e => e.sequence % 65536 == (off - 0x1000) / 32 with
    | some e => wordAt (logBytes e) ((off - 0x1000) % 32)
    | none => 0
  else 0

/-- A 64-bit read through a base address register: the control window, the sprue window, which is write-only and reads as zero (R90), and the
log window of a physical function; what is not listed reads as zero (R578). -/
def windowRead (s : State) (fn bar off : Nat) : Nat :=
  match bar with
  | 0 => controlRead s fn off
  | 2 => 0
  | 4 => if isPhys fn then logRead s off else 0
  | _ => 0

end Sys2Proof.Machine
end

