-- ==== Sys2Proof/Machine/Events.lean ====
section
/-! DEFINITION. Event controllers and semaphores (R347 to R349, R521 to R527). -/

namespace Sys2Proof.Machine

/-! ### Event controllers -/

/-- The die of a core (Table 18-1). -/
def coreDie (id : CoreId) : Nat := if id.cls < 3 then 6 + id.unit else id.unit

/-- The code of a core's class in a log entry (Table 19-13). -/
def coreCode (id : CoreId) : Nat := match id.cls with | 0 => 2 | 1 => 1 | 2 => 3 | _ => 4

/-- A core by its identity, at its reset values when nothing has touched it. -/
def coreOf (s : State) (id : CoreId) : Core := (s.cores.cores.find? fun c => c.id == id).getD { id := id }

/-- A core put in place. -/
def setCore (c : Core) (s : State) : State :=
  let cs := s.cores.cores
  let cs' := if cs.any (fun x => x.id == c.id) then cs.map (fun x => if x.id = c.id then c else x) else cs ++ [c]
  { s with cores := { s.cores with cores := cs' } }

/-- A source of a controller, at its reset values when nothing has touched it (Table 18-9). -/
def srcOf (c : Core) (n : Nat) : EvSrc := (findKey EvSrc.num n c.srcs).getD { num := n }

/-- A source put in place. -/
def setSrc (x : EvSrc) (c : Core) : Core := { c with srcs := upsert EvSrc.num x c.srcs }

/-- Whether `a` comes before `b`: the lower priority number, then the lower source number (R522). -/
def srcBefore (a b : EvSrc) : Bool := decide (a.priority < b.priority) || (a.priority == b.priority && decide (a.num < b.num))

/-- A candidate to win: enabled, pending and not active (R522). -/
def srcReady (x : EvSrc) : Bool := x.enable && x.pending && !x.active

/-- The winner of a controller (R522). -/
def winner (c : Core) : Option EvSrc :=
  (c.srcs.filter srcReady).foldl (fun acc x =>
    match acc with
    | none => some x
    | some y => if srcBefore x y then some x else some y) none

/-- The priority of the highest source still active, or 16 (R523). -/
def runningOf (c : Core) : Nat := (c.srcs.filter EvSrc.active).foldl (fun acc x => min acc x.priority) 16

/-- Whether the winner is delivered: deliver is 1, the core's flag is set, and the winner's priority number is below running;
a stopped core takes nothing (R509, R522). -/
def deliverable (c : Core) (x : EvSrc) : Bool := c.deliver && c.ie && decide (x.priority < c.running) && !c.faulted && !c.fenced

/-- The delivery of a winner, in one step (R522). -/
def deliverSrc (x : EvSrc) (c : Core) : Core :=
  let c1 := setSrc { x with pending := false, active := true } c
  { c1 with depth := c.depth + 1, running := x.priority, ie := false, saved := true, vector := some (c.base + 8 * x.num) }

/-- The controller's choice after a change: a sleeping core wakes when a source is enabled, pending and not active, and the
winner is delivered when it can be (R522, R525). -/
def settleCore (c : Core) : Core :=
  match winner c with
  | none => c
  | some x =>
    let c1 := { c with asleep := false }
    if deliverable c1 x then deliverSrc x c1 else c1

/-- A source pending, whether or not it is enabled or active (R522). -/
def pend (n : Nat) (c : Core) : Core := settleCore (setSrc { srcOf c n with pending := true } c)

/-- A source made pending at a core of the device. -/
def fireSrc (id : CoreId) (n : Nat) (s : State) : State := setCore (pend n (coreOf s id)) s

/-- The source numbers of each core class (Table 18-11); source 6 fires by set only, thermal sources only for fitted dies. -/
def sourceListed (p : Part) (id : CoreId) (n : Nat) : Bool :=
  decide (n < 6) ||
    (match id.cls with
     | 0 => (decide (8 ≤ n) && decide (n ≤ 24)) || (decide (32 ≤ n) && decide (n ≤ 63))
     | 1 => decide (8 ≤ n) && decide (n ≤ 15)
     | 2 => (decide (8 ≤ n) && decide (n ≤ 21)) && !(decide (10 ≤ n) && decide (n ≤ 17) && !(diesFitted p).contains (n - 10))
     | _ => decide (8 ≤ n) && decide (n ≤ 19))

/-- EVENT_SOURCE_FIRE (R522): a source not listed for the class never fires (R527). -/
def execEventSourceFire (core : CoreId) (source : Nat) (s : State) : Host.Outcome State Fault Refusal :=
  .next (if sourceListed s.part core source then fireSrc core source s else s)

/-- The core with its own interrupt-enable flag as its firmware has left it: no row of the table writes the flag (log entry 89). -/
def withFlag (s : State) (id : CoreId) (ie : Bool) : Core := { coreOf s id with ie := ie }

/-- The read-write fields of a source as a write of its SRC_CFG leaves them (Table 18-9). -/
def configured (priority : Nat) (enable : Bool) (x : EvSrc) : EvSrc := { x with priority := priority % 16, enable := enable }

/-- EVC_EOS_WRITE (R523): ends the service of an active source; naming a source not active is ignored and logged as a firmware
error. -/
def execEvcEosWrite (core : CoreId) (source : Nat) (ie : Bool) (s : State) : Host.Outcome State Fault Refusal :=
  let c := withFlag s core ie
  let x := srcOf c source
  if x.active then
    let c1 := setSrc { x with active := false } c
    .next (setCore (settleCore { c1 with depth := c.depth - 1, running := runningOf c1 }) s)
  else .next (noteError (coreDie core) (coreCode core) source (setCore (settleCore c) s))

/-- SRC_CFG_SET (Table 18-9): a write whose set bit is 1 makes the source pending, and writes its priority and its enable. -/
def execSrcCfgSet (core : CoreId) (source priority : Nat) (bits : SrcBits) (ie : Bool) (s : State) : Host.Outcome State Fault Refusal :=
  let c := withFlag s core ie
  let x := configured priority bits.enable (srcOf c source)
  .next (setCore (settleCore (setSrc { x with pending := (x.pending && !bits.clear) || bits.set } c)) s)

/-- SRC_CFG_PENDING_CLEAR (R526): a write whose pending bit is 1 clears it, and writes the source's priority and its enable. -/
def execSrcCfgPendingClear (core : CoreId) (source priority : Nat) (enable ie : Bool) (s : State) : Host.Outcome State Fault Refusal :=
  let c := withFlag s core ie
  .next (setCore (settleCore (setSrc { configured priority enable (srcOf c source) with pending := false } c)) s)

/-- EVC_DELIVER_WRITE (Tables 18-5, 18-6): a write of deliver; EVC_BASE as firmware has set it, aligned on 2 KiB (log entry 89). -/
def execEvcDeliverWrite (core : CoreId) (value : Bool) (base : Nat) (ie : Bool) (s : State) : Host.Outcome State Fault Refusal :=
  .next (setCore (settleCore { withFlag s core ie with deliver := value, base := base % 2 ^ 48 / 2048 * 2048 }) s)

/-- CORE_WAIT (R525): the core sleeps, unless a source is already enabled, pending and not active. -/
def execCoreWait (core : CoreId) (ie : Bool) (s : State) : Host.Outcome State Fault Refusal :=
  .next (setCore (settleCore { withFlag s core ie with asleep := true }) s)

/-- METER_ALARM (R527): source 0 fires once; it does not re-arm itself. -/
def execMeterAlarm (core : CoreId) (s : State) : Host.Outcome State Fault Refusal :=
  .next (fireSrc core 0 s)

/-- WATCHDOG_WRITE (R509). -/
def execWatchdogWrite (core : CoreId) (s : State) : Host.Outcome State Fault Refusal :=
  .next (setCore { coreOf s core with halfSeen := false } s)

/-- WATCHDOG_HALF_PERIOD (R509): source 1 fires when half the period has passed without a write. -/
def execWatchdogHalfPeriod (core : CoreId) (s : State) : Host.Outcome State Fault Refusal :=
  .next (setCore (pend 1 { coreOf s core with halfSeen := true }) s)

/-! ### Semaphores -/

/-- A semaphore, free when nothing has touched it (Table 11-4). -/
def semOf (s : State) (die n : Nat) : Sem :=
  (s.cores.sems.find? fun x => x.die == die && x.num == n).getD { die := die, num := n }

/-- A semaphore put in place. -/
def setSem (x : Sem) (s : State) : State :=
  let rest := s.cores.sems.filter fun y => !(y.die == x.die && y.num == x.num)
  { s with cores := { s.cores with sems := rest ++ [x] } }

/-- A context of a die, fresh when nothing has touched it. -/
def ctxOf (s : State) (die n : Nat) : Ctx :=
  (s.cores.ctxs.find? fun x => x.die == die && x.num == n).getD { die := die, num := n }

/-- A context put in place. -/
def setCtx (x : Ctx) (s : State) : State :=
  let rest := s.cores.ctxs.filter fun y => !(y.die == x.die && y.num == x.num)
  { s with cores := { s.cores with ctxs := rest ++ [x] } }

/-- A grant: the semaphore unit takes a restart record and the core wakes (R348). -/
def grantSem (die n ctx : Nat) (s : State) : State :=
  let x := ctxOf s die ctx
  setCtx { x with grants := x.grants ++ [n], asleep := false } (setSem { semOf s die n with owner := some ctx } s)

/-- A semaphore freed; the context that has waited longest is granted it (log entry 24). -/
def freeSem (die n : Nat) (s : State) : State :=
  let x := semOf s die n
  match x.waiters with
  | [] => setSem { x with owner := none } s
  | w :: ws => grantSem die n w (setSem { x with owner := none, waiters := ws } s)

/-- Revocation (R349): every semaphore of the saved context freed with revoked set, its shadow discarded, the context marked for
restart from its earliest held grant. -/
def revokeCtx (die holder : Nat) (s : State) : State :=
  let c := ctxOf s die holder
  let s1 := setCtx { c with shadow := 0, grants := [], restart := match c.restart with | some r => some r | none => c.grants.head? } s
  forEach c.grants (fun n t => freeSem die n (setSem { semOf t die n with revoked := true } t)) s1

/-- SEMAPHORE_ACQUIRE (R347 to R349): a free semaphore is granted; one of a saved context is revoked first; otherwise the context
waits asleep. A context that holds it, or holds four, gets nothing (R347; log entry 24). -/
def execSemaphoreAcquire (die sem ctx : Nat) (s : State) : Host.Outcome State Fault Refusal :=
  let x := semOf s die sem
  let c := ctxOf s die ctx
  match x.owner with
  | none => if 4 ≤ c.grants.length then .next s else .next (grantSem die sem ctx s)
  | some o =>
    if o = ctx ∨ 4 ≤ c.grants.length ∨ ctx ∈ x.waiters then .next s
    else if (ctxOf s die o).saved.isSome then
      let s1 := revokeCtx die o (setSem { x with waiters := ctx :: x.waiters } s)
      .next s1
    else .next (setCtx { c with asleep := true } (setSem { x with waiters := x.waiters ++ [ctx] } s))

/-- SEMAPHORE_RELEASE (R348): the owner commits its shadow in one step and frees the semaphore; from another context the write does
nothing. -/
def execSemaphoreRelease (die sem ctx : Nat) (s : State) : Host.Outcome State Fault Refusal :=
  if (semOf s die sem).owner = some ctx then
    let c := ctxOf s die ctx
    .next (freeSem die sem (setCtx { c with shadow := 0, grants := c.grants.filter (· != sem) } s))
  else .next s

/-- SEMAPHORE_REVOKED_CLEAR (Table 11-4). -/
def execSemaphoreRevokedClear (die sem : Nat) (s : State) : Host.Outcome State Fault Refusal :=
  .next (setSem { semOf s die sem with revoked := false } s)

end Sys2Proof.Machine
end

