-- ==== Sys2Proof/Machine/Programs.lean ====
section
/-! DEFINITION. Model images as bytes: the header, the block table and the tensor directory read at the offsets of Tables 6-5 to 6-7, the length
that a tensor's format gives it, and the shape of a recurrent state (R182, R196, R199 to R201, R203). -/

namespace Sys2Proof.Machine

/-- A little-endian field of `size` bytes at byte `off` (R12). -/
def bytesAt (bs : List Byte) (off size : Nat) : Nat := leNat ((bs.drop off).take size)

/-- A block descriptor read at `off` (Table 6-6). -/
def parseBlock (bs : List Byte) (off : Nat) : BlockDesc :=
  let b := (bs.drop off).take 32
  { mixer := bytesAt b 0 1, ffn := bytesAt b 1 1, pageFormat := bytesAt b 2 1, weightFormat := bytesAt b 3 1, activation := bytesAt b 4 1
    positional := bytesAt b 5 1, skipFloor := bytesAt b 6 1, rotaryBase := bytesAt b 8 4, ffnWidth := bytesAt b 12 4
    stateBytes := bytesAt b 16 4, stateHeads := bytesAt b 20 2, stateDim := bytesAt b 22 2, firstTensor := bytesAt b 24 4
    tensorCount := bytesAt b 28 2 }

/-- A tensor directory entry read at `off` (Table 6-7). -/
def parseTensor (bs : List Byte) (off : Nat) : TensorEntry :=
  let b := (bs.drop off).take 32
  { offset := bytesAt b 0 8, length := bytesAt b 8 8, format := bytesAt b 16 1, role := bytesAt b 17 1, expert := bytesAt b 18 2
    rows := bytesAt b 20 4, columns := bytesAt b 24 4, block := bytesAt b 28 2 }

/-- The four magic bytes of a model program (Table 6-5). -/
def programMagic : List Byte := [0x54, 0x53, 0x4D, 0x50]

/-- A model program read from an image (Tables 6-5 to 6-7); encoder blocks come first in the block table. -/
def parseProgram (bs : List Byte) : ModelProgram :=
  let dec := bytesAt bs 6 2
  let enc := bytesAt bs 8 2
  let table := bytesAt bs 76 4
  let dir := bytesAt bs 80 4
  { magicOk := bs.take 4 == programMagic, version := bytesAt bs 4 2, hidden := bytesAt bs 10 2, queryHeads := bytesAt bs 12 2
    kvHeads := bytesAt bs 14 1, headDimCode := bytesAt bs 15 1, parameters := bytesAt bs 16 8, vocabulary := bytesAt bs 24 4
    experts := bytesAt bs 28 2, routed := bytesAt bs 30 1, shared := bytesAt bs 31 1, gateMode := bytesAt bs 32 1, norm := bytesAt bs 33 1
    snapshotSpacing := bytesAt bs 34 1, snapshotDepth := bytesAt bs 35 1, epsilon := bytesAt bs 36 4, scoreScale := bytesAt bs 40 4
    endToken0 := bytesAt bs 44 4, endToken1 := bytesAt bs 48 4, toolOpen := bytesAt bs 52 4, toolClose := bytesAt bs 56 4
    projectionSeed := bytesAt bs 60 8, frameBytes := bytesAt bs 68 2, framePositions := bytesAt bs 70 1, sampleFormat := bytesAt bs 71 1
    normalisation := bytesAt bs 72 1, recallWidths := bytesAt bs 73 1, tokeniser := bytesAt bs 74 2, blockTable := table, directory := dir
    encoders := (List.range enc).map fun i => parseBlock bs (table + 32 * i)
    decoders := (List.range dec).map fun i => parseBlock bs (table + 32 * (enc + i))
    tensors := (List.range (bytesAt bs 84 4)).map fun i => parseTensor bs (dir + 32 * i)
    programLength := bytesAt bs 88 4, digest := (bs.drop 128).take 64 }

/-- The program of a staged bind item, where its image could be read (R204). -/
def bindProgram (x : BindItem) : Option ModelProgram := x.image.map parseProgram

/-- A size rounded up to whole units. -/
def ceilDiv (a b : Nat) : Nat := (a + b - 1) / b

/-- Bits of an element of a format (Table 6-1). -/
def formatBits (f : Nat) : Nat := match f with | 0 => 4 | 1 => 6 | 2 => 6 | 7 => 16 | _ => 8

/-- Bytes of a tensor: its elements, then its scales: one byte per block of 32 for the MX formats, one FP32 value for FP8, none for BF16
(Table 6-1, R182). -/
def tensorLength (f rows columns : Nat) : Nat :=
  let n := rows * columns
  ceilDiv (n * formatBits f) 8 + if f ≤ 4 then ceilDiv n 32 else if f = 7 then 0 else 4

/-- Bytes of the recurrent block of a recurrent mixer (R196). -/
def recurrentBytes (p : ModelProgram) (d : BlockDesc) : Nat := d.stateHeads * d.stateDim * (64 * 2 ^ p.headDimCode) * 4

/-- The widths of the recall heads that a program carries (Table 6-5, R198). -/
def recallWidthsOf (p : ModelProgram) : List Nat := [256, 512, 1024].mapIdx (fun i w => (i, w)) |>.filter (fun e => p.recallWidths.testBit e.1) |>.map Prod.snd

/-- Work of a tensor for one position: two operations an element, counted in operations of MXFP4 rate, of which FP8, MXFP8 and MXFP6 take two and BF16
eight (Table 1-2, R23). The embedding, the norms and the recall heads are not counted. -/
def tensorWork (t : TensorEntry) : Nat :=
  if t.role = 0 ∨ t.role = 9 ∨ t.role = 11 then 0
  else 2 * t.rows * t.columns * (match t.format with | 0 => 1 | 7 => 8 | _ => 2)

/-- Dense work of one position: every tensor outside the experts, and of each expert its routed share (R210). -/
def denseWork (p : ModelProgram) : Nat :=
  let own := p.tensors.filter fun t => decide (t.expert < 0xFFFE)
  let rest := p.tensors.filter fun t => decide (0xFFFE ≤ t.expert)
  (rest.map tensorWork).sum + (own.map tensorWork).sum * p.routed / max 1 p.experts

/-- Attention operations of one position for each position it attends: query with key and weight with value, over every query head and attention
layer (R41, R210). -/
def attendWork1 (p : ModelProgram) : Nat := 4 * (64 * 2 ^ p.headDimCode) * p.queryHeads * p.decoders.countP fun b => b.mixer == 1

/-- The touched weight bytes of R210 for `n` positions: what lies outside the experts, and the expected part of each block's experts. -/
def touchedBytes (p : ModelProgram) (window n : Nat) : Nat :=
  if window = 0 then 0
  else
    let own := ((p.tensors.filter fun t => decide (t.expert < 0xFFFE)).map TensorEntry.length).sum
    let rest := ((p.tensors.filter fun t => decide (0xFFFE ≤ t.expert)).map TensorEntry.length).sum
    rest + own * (p.experts ^ n - (p.experts - p.routed) ^ n) / max 1 (p.experts ^ n)

/-- T2 bytes of a model's tensors: what one copy of its weights takes (R202). -/
def tensorBytes (p : ModelProgram) : Nat := (p.tensors.map TensorEntry.length).sum

end Sys2Proof.Machine
end

