-- ==== Sys2Proof/Machine/Numerics.lean ====
section
/-! DEFINITION. The number formats and their roundings on bits, FP32 addition, product and quotient, the projection and the
patterns, the stored form of keys and values, and Hamming selection (R76 to R78, R149 to R155, R166, R167, R182 to R185). -/

namespace Sys2Proof.Machine

/-! ### Rounding -/

/-- The greatest k with 2^k at most n ÷ d, for positive n and d. -/
def floorLog2 (n d : Nat) : Int :=
  let k : Int := (Nat.log2 n : Int) - (Nat.log2 d : Int)
  let le := if 0 ≤ k then decide (d * 2 ^ k.toNat ≤ n) else decide (d ≤ n * 2 ^ (-k).toNat)
  if le then k else k - 1

/-- The magnitude n ÷ d in a format of `p` fraction bits and exponent bias `bias`: the code nearest to it, ties to even, without
a bound above (R185). -/
def roundMag (p bias n d : Nat) : Nat :=
  if n = 0 then 0
  else
    let e : Int := max (floorLog2 n d) (1 - (bias : Int))
    let s : Int := e - p
    let a := if 0 ≤ s then n else n * 2 ^ (-s).toNat
    let b := if 0 ≤ s then d * 2 ^ s.toNat else d
    let q := a / b
    let r := a % b
    let q' := if b < 2 * r ∨ (2 * r = b ∧ q % 2 = 1) then q + 1 else q
    (e + bias - 1).toNat * 2 ^ p + q'

/-- A number read from bits: not a number, an infinity, or a signed magnitude num ÷ den. -/
inductive Num where
  | nan
  | inf (neg : Bool)
  | fin (neg : Bool) (num den : Nat)
  deriving DecidableEq, Repr

/-- The magnitude of a code of a format with subnormals. -/
def codeMag (p bias code : Nat) : Nat × Nat :=
  let e := code / 2 ^ p
  let m := code % 2 ^ p
  let sig := if e = 0 then m else m + 2 ^ p
  let ex := if e = 0 then 1 else e
  -- sig × 2^(ex − bias − p)
  if bias + p ≤ ex then (sig * 2 ^ (ex - bias - p), 1) else (sig, 2 ^ (bias + p - ex))

/-- FP32 bits read. -/
def f32Read (b : Nat) : Num :=
  let neg := b.testBit 31
  let c := b % 2 ^ 31
  if 0x7F800000 < c then .nan else if c = 0x7F800000 then .inf neg
  else .fin neg (codeMag 23 127 c).1 (codeMag 23 127 c).2

/-- The FP32 bits of an infinity. -/
def f32Inf (neg : Bool) : Nat := if neg then 0xFF800000 else 0x7F800000
/-- The FP32 bits of a NaN. -/
def f32Nan : Nat := 0x7FC00000

/-- FP32 bits of a number, to nearest, ties to even (IEEE 754). -/
def f32Write (x : Num) : Nat :=
  match x with
  | .nan => f32Nan
  | .inf neg => f32Inf neg
  | .fin neg n d => (if neg then 2 ^ 31 else 0) + min (roundMag 23 127 n d) 0x7F800000

/-- The exact sum of two numbers; an exact zero is positive unless both were negative. -/
def numAdd (x y : Num) : Num :=
  match x, y with
  | .nan, _ => .nan
  | _, .nan => .nan
  | .inf a, .inf b => if a = b then .inf a else .nan
  | .inf a, .fin _ _ _ => .inf a
  | .fin _ _ _, .inf b => .inf b
  | .fin s n d, .fin t m e =>
    let c := if e % d = 0 then e else if d % e = 0 then d else d * e
    let a := n * (c / d)
    let b := m * (c / e)
    if s = t then .fin s (a + b) c
    else if a = b then .fin false 0 1
    else if b < a then .fin s (a - b) c else .fin t (b - a) c

/-- The exact product of two numbers. -/
def numMul (x y : Num) : Num :=
  match x, y with
  | .nan, _ => .nan
  | _, .nan => .nan
  | .inf a, .inf b => .inf (a != b)
  | .inf a, .fin t m _ => if m = 0 then .nan else .inf (a != t)
  | .fin s n _, .inf b => if n = 0 then .nan else .inf (s != b)
  | .fin s n d, .fin t m e => .fin (s != t) (n * m) (d * e)

/-- FP32 sum and product (R192, IEEE 754). -/
def f32Add (a b : Nat) : Nat := f32Write (numAdd (f32Read a) (f32Read b))
def f32Mul (a b : Nat) : Nat := f32Write (numMul (f32Read a) (f32Read b))

/-- A BF16 value as FP32 bits. -/
def bf16To32 (b : Nat) : Nat := b * 65536

/-- BF16 bits of a number: to nearest, ties to even; what is beyond the greatest finite value, and an infinity, saturates; a NaN stays one
(R185). -/
def bf16Write (x : Num) : Nat :=
  match x with
  | .nan => 0x7FC0
  | .inf neg => (if neg then 0x8000 else 0) + 0x7F7F
  | .fin neg n d => (if neg then 0x8000 else 0) + min (roundMag 7 127 n d) 0x7F7F

/-- FP32 bits narrowed to BF16, and a BF16 value as a number. -/
def toBf16 (b : Nat) : Nat := bf16Write (f32Read b)
def bf16Read (b : Nat) : Num := f32Read (bf16To32 b)

/-- The exact quotient of two numbers (IEEE 754). -/
def numDiv (x y : Num) : Num :=
  match x, y with
  | .nan, _ => .nan
  | _, .nan => .nan
  | .inf _, .inf _ => .nan
  | .inf a, .fin t _ _ => .inf (a != t)
  | .fin s _ _, .inf b => .fin (s != b) 0 1
  | .fin s n d, .fin t m e => if m = 0 then (if n = 0 then .nan else .inf (s != t)) else .fin (s != t) (n * e) (d * m)

/-- An FP32 quotient, and an FP32 difference. -/
def f32Quot (a b : Nat) : Nat := f32Write (numDiv (f32Read a) (f32Read b))
def f32Sub (a b : Nat) : Nat := f32Write (numAdd (f32Read a) (numMul (.fin true 1 1) (f32Read b)))

/-- An FP32 square root, to nearest (IEEE 754): the whole root of the value times 2^400 with the bit that tells that more follows. -/
def f32Sqrt (b : Nat) : Nat :=
  match f32Read b with
  | .nan => f32Nan
  | .inf neg => if neg then f32Nan else f32Inf false
  | .fin neg n d =>
    if n = 0 then b else if neg then f32Nan
    else
      let q := n * 2 ^ 400 / d
      let r := Nat.sqrt q
      f32Write (.fin false (if r * r = q ∧ q * d = n * 2 ^ 400 then 2 * r else 2 * r + 1) (2 ^ 201))

/-- The order of FP32 bits as numbers, −0 below +0 put together; NaN is outside it. -/
def f32Key (b : Nat) : Int :=
  let c : Int := (b % 2 ^ 31 : Nat)
  if b.testBit 31 then -c else c

/-! ### Narrow formats (Table 6-1) -/

/-- Element formats of pages and of MX blocks (Table 6-1). -/
inductive Elem where
  | e4m3 | e5m2 | e2m1 | e2m3 | e3m2
  deriving DecidableEq, Repr

/-- Fraction bits, bias, greatest finite code and sign bit of an element format. -/
def elemShape (f : Elem) : Nat × Nat × Nat × Nat :=
  match f with
  | .e4m3 => (3, 7, 0x7E, 128)
  | .e5m2 => (2, 15, 0x7B, 128)
  | .e2m1 => (1, 1, 7, 8)
  | .e2m3 => (3, 1, 31, 32)
  | .e3m2 => (2, 3, 31, 32)

/-- The largest exponent of an element format (R184). -/
def elemTop (f : Elem) : Int := match f with | .e4m3 => 8 | .e5m2 => 15 | .e2m1 => 2 | .e2m3 => 2 | .e3m2 => 4

/-- A number in an element format: finite values beyond the greatest, and infinities, saturate; a NaN takes the format's NaN,
where it has one (R185). -/
def elemWrite (f : Elem) (x : Num) : Nat :=
  let s := elemShape f
  match x with
  | .nan => match f with | .e4m3 => 0x7F | .e5m2 => 0x7F | .e2m1 => 0 | .e2m3 => 0 | .e3m2 => 0
  | .inf neg => (if neg then s.2.2.2 else 0) + s.2.2.1
  | .fin neg n d => (if neg then s.2.2.2 else 0) + min (roundMag s.1 s.2.1 n d) s.2.2.1

/-- An element read (OCP FP8 and MX). -/
def elemRead (f : Elem) (c : Nat) : Num :=
  let s := elemShape f
  let neg := decide (s.2.2.2 ≤ c)
  let m := c % s.2.2.2
  match f with
  | .e4m3 => if m = 0x7F then .nan else .fin neg (codeMag 3 7 m).1 (codeMag 3 7 m).2
  | .e5m2 => if 0x7C < m then .nan else if m = 0x7C then .inf neg else .fin neg (codeMag 2 15 m).1 (codeMag 2 15 m).2
  | .e2m1 => .fin neg (codeMag 1 1 m).1 (codeMag 1 1 m).2
  | .e2m3 => .fin neg (codeMag 3 1 m).1 (codeMag 3 1 m).2
  | .e3m2 => .fin neg (codeMag 2 3 m).1 (codeMag 2 3 m).2

/-- A magnitude above another, for finding the largest of a block; infinities count as the greatest finite FP32 value. -/
def magOf (x : Num) : Nat × Nat :=
  match x with
  | .nan => (0, 1)
  | .inf _ => ((2 ^ 24 - 1) * 2 ^ 104, 1)
  | .fin _ n d => (n, d)

/-- The larger of two magnitudes. -/
def magMax (a b : Nat × Nat) : Nat × Nat := if a.1 * b.2 < b.1 * a.2 then b else a

/-- The scale of a block of an MX format: floor(log2 m) − e + 127, held within 0 to 254; 0 for a block of zeros; 0xFF where an element is
a NaN (R167, R184, R185). -/
def blockScaleOf (f : Elem) (xs : List Num) : Nat :=
  if xs.contains .nan then 0xFF
  else
    let m := xs.foldl (fun acc x => magMax acc (magOf x)) (0, 1)
    if m.1 = 0 then 0 else (min 254 (max 0 (floorLog2 m.1 m.2 - elemTop f + 127))).toNat

/-- The scale of an MXFP4 block (R167). -/
def blockScale (xs : List Num) : Nat := blockScaleOf .e2m1 xs

/-- 2 to the power `scale − 127`. -/
def scalePow (scale : Nat) : Num :=
  if 127 ≤ scale then .fin false (2 ^ (scale - 127)) 1 else .fin false 1 (2 ^ (127 - scale))

/-- A number divided by 2 to the power `scale − 127`. -/
def unscale (scale : Nat) (x : Num) : Num :=
  numMul x (if 127 ≤ scale then .fin false 1 (2 ^ (scale - 127)) else .fin false (2 ^ (127 - scale)) 1)

/-- Blocks of 32, with fuel for the length. -/
def blocksOf32 : Nat → List Num → List (List Num)
  | 0, _ => []
  | _ + 1, [] => []
  | k + 1, l => l.take 32 :: blocksOf32 k (l.drop 32)

/-- One head's elements of one position as a page holds them: element codes, and for MXFP4 the block scales after them (R66, R166). -/
def storeRow (fmt : Nat) (xs : List Num) : List Nat :=
  match fmt with
  | 0 => xs.map (elemWrite .e4m3)
  | 1 => xs.map (elemWrite .e5m2)
  | _ =>
    let bs := blocksOf32 xs.length xs
    (bs.map fun b => let sc := blockScale b; b.map fun x => elemWrite .e2m1 (unscale sc x)).flatten ++ bs.map blockScale

/-- The dequantised elements of a stored row (Table 5-2). -/
def loadRow (fmt : Nat) (cs : List Nat) : List Num :=
  match fmt with
  | 0 => cs.map (elemRead .e4m3)
  | 1 => cs.map (elemRead .e5m2)
  | _ =>
    let d := cs.length * 32 / 33
    (cs.take d).mapIdx fun i c =>
      let sc := cs.getD (d + i / 32) 0
      if sc = 0xFF then .nan else numMul (elemRead .e2m1 c) (scalePow sc)

/-- A stored row in MXFP4 form (R253). -/
def toMx4 (fmt : Nat) (cs : List Nat) : List Nat := if fmt = 2 then cs else storeRow 2 (loadRow fmt cs)

/-! ### Patterns (R76 to R78) -/

/-- The mixing function of the projection, modulo 2^64 (R77). -/
def mix64 (x0 : Nat) : Nat :=
  let m := 2 ^ 64
  let x := (x0 + 0x9E3779B97F4A7C15) % m
  let x := ((x ^^^ (x >>> 30)) * 0xBF58476D1CE4E5B9) % m
  let x := ((x ^^^ (x >>> 27)) * 0x94D049BB133111EB) % m
  x ^^^ (x >>> 31)

/-- A word of the projection: entries 64j to 64j + 63 of row i for layer l and head h (R77). -/
def projWord (seed l h i j : Nat) : Nat :=
  mix64 ((((seed ^^^ (l <<< 48)) ^^^ (h <<< 40)) ^^^ (i <<< 16)) ^^^ j)

/-- The dot product of a row of ±1 with a vector, formed exactly (DEDUCED; log entry 30). -/
def rowDot (seed l h i : Nat) (xs : List Num) : Num :=
  let r := xs.foldl (fun acc x =>
    let k := acc.1
    let word := if k % 64 = 0 then projWord seed l h i (k / 64) else acc.2.1
    let y := if word.testBit (k % 64) then x else numMul (.fin true 1 1) x
    (k + 1, word, numAdd acc.2.2 y)) (0, 0, Num.fin false 0 1)
  r.2.2

/-- Zero or greater; a NaN is not. -/
def numGe0 (x : Num) : Bool :=
  match x with
  | .nan => false
  | .inf neg => !neg
  | .fin neg n _ => !neg || n == 0

/-- The 128-bit sketch of a vector of FP32 bits for a layer and head (R76, R154). -/
def sketch (seed l h : Nat) (sum : List Nat) : BitVec 128 :=
  let xs := sum.map f32Read
  BitVec.ofNat 128 (((List.range 128).map fun i => if numGe0 (rowDot seed l h i xs) then 2 ^ i else 0).sum)

/-- The magnitude of a number. -/
def numAbs (x : Num) : Num := match x with | .fin _ n d => .fin false n d | .inf _ => .inf false | .nan => .nan

/-- Whether a dot product is so near zero that another order of its FP32 sums may change its sign: within 2^-16 of the sum of its terms' magnitudes
(R180; log entry 195). -/
def nearZero (dot all : Num) : Bool :=
  match dot, all with
  | .fin _ n d, .fin _ m e => decide (n * e * 65536 ≤ m * d)
  | _, _ => false

/-- A sketch formed again: a bit near zero is open (R76, R180). -/
def resketch (free seed l h : Nat) (sum : List Nat) : BitVec 128 :=
  let xs := sum.map f32Read
  let all := (xs.map numAbs).foldl numAdd (.fin false 0 1)
  let bit := fun (i : Nat) =>
    let d := rowDot seed l h i xs
    if nearZero d all then (Config.recomputedPattern free).testBit i else numGe0 d
  BitVec.ofNat 128 (((List.range 128).map fun i => if bit i then 2 ^ i else 0).sum)

/-- Vectors of FP32 added element by element. -/
def vecAdd (a b : List Nat) : List Nat := List.zipWith f32Add a b

/-- A key row dequantised, in FP32 bits (R76). -/
def keyRow (fmt : Nat) (cs : List Nat) : List Nat := (loadRow fmt cs).map f32Write

/-- The key sum of one head over stored positions, added in ascending position (DEDUCED; log entry 30). -/
def keySum (fmt : Nat) (rows : List (List Nat)) : List Nat :=
  match rows with
  | [] => []
  | r :: rs => rs.foldl (fun acc x => vecAdd acc (keyRow fmt x)) (keyRow fmt r)

/-- Head `h` of each stored position. -/
def headRows (h : Nat) (ks : List (List (List Nat))) : List (List Nat) := ks.map fun p => p.getD h []

/-! ### Selection (R149 to R155) -/

/-- Hamming distance of two sketches. -/
def hamming (a b : BitVec 128) : Nat := (List.range 128).countP fun i => (a ^^^ b).getLsbD i

/-- The least t at which the counts of distances 0 to t reach b, with fuel for the 129 distances (R155). -/
def threshold (ds : List Nat) (b : Nat) : Nat → Nat → Nat
  | 0, t => t
  | k + 1, t => if b ≤ ds.countP (· ≤ t) then t else threshold ds b k (t + 1)

/-- The candidates chosen by distance: (page, distance) pairs in ascending page number; ties towards the higher page (R155). -/
def chooseNear (cand : List (Nat × Nat)) (b : Nat) : List Nat :=
  if cand.length ≤ b then cand.map Prod.fst
  else
    let t := threshold (cand.map Prod.snd) b 128 0
    let near := (cand.filter fun c => decide (c.2 < t)).map Prod.fst
    let tied := ((cand.filter fun c => c.2 == t).map Prod.fst).reverse
    near ++ tied.take (b - near.length)

end Sys2Proof.Machine
end

