-- ==== Sys2Proof/Machine/Sampling.lean ====
section
/-! DEFINITION. Sampling and moulds: the FP32 steps of R293 with exp rounded to nearest, the mould automaton, its masks and
contexts, and the load bound (R293, R294, R296 to R304). -/

namespace Sys2Proof.Machine

/-! ### exp in FP32 (R293, step 6) -/

/-- Fixed-point bits of the evaluation of exp: far beyond what rounding to FP32 needs, since exp of a rational other than 0 is
irrational and no tie arises (log entry 32). -/
def expBits : Nat := 320

/-- Terms of the series of exp(−y) in fixed point: `term` is y^i ÷ i!, added with alternating signs. -/
def expSeries (y : Nat) : Nat → Nat → Nat → Int → Int
  | 0, _, _, acc => acc
  | k + 1, i, term, acc =>
    let t := term * y / 2 ^ expBits / (i + 1)
    expSeries y k (i + 1) t (if i % 2 = 0 then acc - t else acc + t)

/-- Repeated squaring in fixed point. -/
def squareTimes : Nat → Nat → Nat
  | 0, v => v
  | k + 1, v => squareTimes k (v * v / 2 ^ expBits)

/-- exp(−n ÷ d) in FP32 bits, rounded to nearest: 0 where the result is below half the least FP32 value. -/
def expNeg (n d : Nat) : Nat :=
  if n = 0 then 0x3F800000
  else if 110 * d < n then 0
  else
    let y := n * 2 ^ expBits / (d * 4096)
    let v := (expSeries y 60 0 (2 ^ expBits) (2 ^ expBits : Nat)).toNat
    min (roundMag 23 127 (squareTimes 12 v) (2 ^ expBits)) 0x3F800000

/-! ### Sampling (R293, R294) -/

/-- FP32 −∞ and the greatest finite value. -/
def f32NegInf : Nat := 0xFF800000
def f32Max : Nat := 0x7F7FFFFF

/-- A finite result beyond the greatest finite value taken as that value (R293). -/
def saturate (b : Nat) : Nat := if b = 0x7F800000 then f32Max else if b = 0xFF800000 then 0xFF7FFFFF else b

/-- Step 1: NaN as −∞, +∞ as the greatest finite value. -/
def cleanLogit (b : Nat) : Nat :=
  match f32Read b with
  | .nan => f32NegInf
  | .inf false => f32Max
  | _ => b

/-- The greatest logit among (token, logit) pairs, the lowest identifier among equals. -/
def greatest : List (Nat × Nat) → Option (Nat × Nat)
  | [] => none
  | x :: xs =>
    match greatest xs with
    | none => some x
    | some y => if f32Key x.2 < f32Key y.2 then some y else if f32Key y.2 < f32Key x.2 then some x
                else if y.1 < x.1 then some y else some x

/-- A logit divided by the temperature `t ÷ 256` (step 4). -/
def divTemp (t b : Nat) : Nat :=
  match f32Read b with
  | .fin neg n d => saturate (f32Write (.fin neg (n * 256) (d * t)))
  | _ => b

/-- exp(logit − greatest) (step 6). -/
def expOf (g b : Nat) : Nat :=
  match f32Read b with
  | .fin _ _ _ =>
    match f32Read (saturate (f32Write (numAdd (f32Read b) (numMul (.fin true 1 1) (f32Read g))))) with
    | .fin _ n d => expNeg n d
    | _ => 0
  | _ => 0

/-- Pairs in descending order of their value, lower identifier first among equals. -/
def descending (l : List (Nat × Nat)) : List (Nat × Nat) :=
  l.foldl (fun acc x =>
    (acc.takeWhile fun y => decide (x.2 < y.2) || (x.2 == y.2 && decide (y.1 < x.1))) ++
      x :: (acc.dropWhile fun y => decide (x.2 < y.2) || (x.2 == y.2 && decide (y.1 < x.1)))) []

/-- The sum of non-negative FP32 values in the order they stand, saturating. -/
def f32Sum (l : List Nat) : Nat := l.foldl (fun acc x => saturate (f32Add acc x)) 0

/-- A quotient of non-negative FP32 values. -/
def f32Div (a b : Nat) : Nat :=
  match f32Read a, f32Read b with
  | .fin _ n d, .fin _ m e => if m = 0 then 0 else saturate (f32Write (.fin false (n * e) (d * m)))
  | _, _ => 0

/-- The shortest leading run whose probabilities sum to at least p ÷ 65,536 (step 7). -/
def topRun (p : Nat) : Nat → List (Nat × Nat) → List (Nat × Nat)
  | _, [] => []
  | acc, x :: xs =>
    let s := saturate (f32Add acc x.2)
    if f32Write (.fin false p 65536) ≤ s then [x] else x :: topRun p s xs

/-- The first token at which the running sum passes the bound, or the last (step 8). -/
def drawToken (bound : Nat) : Nat → List (Nat × Nat) → Nat → Nat
  | _, [], last => last
  | acc, x :: xs, _ =>
    let s := saturate (f32Add acc x.2)
    if bound < s then x.1 else drawToken bound s xs x.1

/-- The k tokens of greatest logit, ties kept by lower identifier (step 5). -/
def topK (k : Nat) (l : List (Nat × Nat)) : List (Nat × Nat) :=
  if k = 0 ∨ l.length ≤ k then l
  else
    let order := l.foldl (fun acc x =>
      let before := fun (y : Nat × Nat) => decide (f32Key x.2 < f32Key y.2) || (f32Key x.2 == f32Key y.2 && decide (y.1 < x.1))
      acc.takeWhile before ++ x :: acc.dropWhile before) []
    order.take k

/-- The candidate token from a slot's logits, its mask, its settings and the draw; and whether the choice was a numeric fault
(R293, R294). Absent for an empty mask. -/
def sample (logits : List Nat) (mask : Option (List Nat)) (greedy : Bool) (temperature topP topKv draw : Nat) : Option (Nat × Bool) :=
  let all := logits.mapIdx fun i b => (i, cleanLogit b)
  let allowed := match mask with | none => all | some m => all.filter fun x => m.contains x.1
  match greatest allowed with
  | none => none
  | some g =>
    if g.2 = f32NegInf then some (g.1, true)
    else if greedy ∨ temperature = 0 then some (g.1, false)
    else
      let scaled := allowed.map fun x => (x.1, divTemp temperature x.2)
      let kept := topK topKv scaled
      let top := ((greatest kept).getD g).2
      let exps := descending (kept.map fun x => (x.1, expOf top x.2))
      let total := f32Sum (exps.map Prod.snd)
      let probs := descending (exps.map fun x => (x.1, f32Div x.2 total))
      let run := if topP = 0 then probs else topRun topP 0 probs
      let u := f32Write (.fin false draw (2 ^ 32))
      let bound := f32Mul u (f32Sum (run.map Prod.snd))
      some (drawToken bound 0 run 0, false)

/-! ### Moulds (R296 to R302) -/

/-- The special classes (Table 9-3). -/
def endClass : Nat := 256
def openClass : Nat := 257
def closeClass : Nat := 258
def otherClass : Nat := 259

/-- One move of the automaton by entry `c` of the class map, on a stack with its top first (R297). -/
def mouldMove (m : Mould) (c : Nat) (x : Nat × List Nat) : Option (Nat × List Nat) :=
  match (m.trans.getD x.1 [])[m.classMap.getD c 0]? with
  | none => none
  | some t =>
    match t.op with
    | .none => some (t.next, x.2)
    | .push => if x.2.length < m.depth then some (t.next, t.symbol :: x.2) else none
    | .pop => match x.2 with
      | y :: ys => if y = t.symbol then some (t.next, ys) else none
      | [] => none
    | .reject => none

/-- A walk by several entries. -/
def mouldWalk (m : Mould) : List Nat → Nat × List Nat → Option (Nat × List Nat)
  | [], x => some x
  | c :: cs, x => match mouldMove m c x with | none => none | some y => mouldWalk m cs y

/-- The entries a token moves by: its output bytes, or one special class (R297). -/
def tokenMoves (t : Tokeniser) (p : ModelProgram) (tok : Nat) : List Nat :=
  if tok = p.endToken0 ∨ tok = p.endToken1 then [endClass]
  else if tok = p.toolOpen then [openClass]
  else if tok = p.toolClose then [closeClass]
  else match (if t.special.getD tok false then [] else t.tokens.getD tok []) with
    | [] => [otherClass]
    | bs => bs.map BitVec.toNat

/-- The entries of a token as the split of R298 walks it, before a model is known. -/
def splitMoves (t : Tokeniser) (tok : Nat) : List Nat :=
  match (if t.special.getD tok false then [] else t.tokens.getD tok []) with
  | [] => [otherClass]
  | bs => bs.map BitVec.toNat

/-- The symbols a walk needs below the stack it makes itself, top first, and whether it pushed or popped; `none` where it fails
for every stack but for the depth. -/
def walkNeeds (m : Mould) : List Nat → Nat → List Nat → List Nat → Bool → Option (List Nat × Bool)
  | [], _, _, need, used => some (need, used)
  | c :: cs, st, own, need, used =>
    match (m.trans.getD st [])[m.classMap.getD c 0]? with
    | none => none
    | some t =>
      match t.op with
      | .none => walkNeeds m cs t.next own need used
      | .push => walkNeeds m cs t.next (t.symbol :: own) need true
      | .pop => match own with
        | y :: ys => if y = t.symbol then walkNeeds m cs t.next ys need true else none
        | [] => walkNeeds m cs t.next [] (need ++ [t.symbol]) true
      | .reject => none

/-- Whether the split of state `st` is as R298 requires. -/
def splitOk (m : Mould) (t : Tokeniser) (st : Nat) : Bool :=
  match m.states[st]? with
  | none => false
  | some e => (List.range t.tokens.length).all fun tok =>
    let cs := splitMoves t tok
    match walkNeeds m cs st [] [] false with
    | none => !e.base.contains tok && !e.dependents.contains tok
    | some (need, used) =>
      let ok := decide (need.length ≤ m.depth) && (mouldWalk m cs (st, need)).isSome
      (e.base.contains tok == (ok && !used)) && (e.dependents.contains tok == (ok && used))

/-- The mask of a state on a stack for a model (R299); a free value where the split breaks R298. -/
def mouldMask (m : Mould) (t : Tokeniser) (p : ModelProgram) (free : Nat) (x : Nat × List Nat) : List Nat :=
  if splitOk m t x.1 then
    let e := m.states.getD x.1 { base := [], dependents := [], bytes := 0 }
    let deps := e.dependents.filter fun tok => (mouldWalk m (splitMoves t tok) x).isSome
    let fixed := [p.endToken0, p.endToken1, p.toolOpen, p.toolClose].filter fun tok => decide (tok < t.tokens.length)
    let kept := (e.base ++ deps).filter fun tok => !fixed.contains tok
    kept ++ fixed.filter fun tok => (mouldWalk m (tokenMoves t p tok) x).isSome
  else Config.undefinedMask free

/-- A mould context advanced by the token due, if one is: the new context, or the state before an advance that fails (R299, R302). -/
def advanceCtx (m : Mould) (t : Tokeniser) (p : ModelProgram) (c : MouldCtx) : MouldCtx :=
  match c.advance with
  | none => c
  | some tok =>
    match mouldWalk m (tokenMoves t p tok) (c.state, c.stack) with
    | some (st, stack) => { c with state := st, stack := stack, advance := none }
    | none => { c with advance := none, failed := some c.state }

/-- The worst-case handshakes of one lane for one slot (R304). -/
def mouldBound (m : Mould) (t : Tokeniser) : Nat :=
  let lines := (t.tokens.length + 511) / 512
  2 * t.longest + 4 + (m.states.map fun e => 16 + lines + e.dependents.length + 2 * e.bytes).foldl max 0

/-- T_m in microseconds, rounded up: 64 × bound ÷ 600 per microsecond (R304). -/
def mouldTime (m : Mould) (t : Tokeniser) : Nat := (64 * mouldBound m t + 599) / 600

end Sys2Proof.Machine
end

