-- ==== Sys2Proof/Machine/Arith.lean ====
section
/-! DEFINITION. The arithmetic of the clusters: tensors read in the formats of Table 6-1, products by blocks of 32 and their sums, zero and floored
blocks, norms, residual sums, rotary encoding, dense and expert feed-forward parts, and the heads (R182, R184 to R189, R192 to R195, R198). -/

namespace Sys2Proof.Machine

/-! ### Tensors (R182) -/

/-- The element format of a code of Table 6-1; BF16 has none. -/
def elemOfFormat (f : Nat) : Option Elem :=
  match f with
  | 0 => some .e2m1 | 1 => some .e2m3 | 2 => some .e3m2 | 3 => some .e4m3 | 4 => some .e5m2 | 5 => some .e4m3 | 6 => some .e5m2 | _ => none

/-- The bytes of a tensor in an image. -/
def tensorData (img : List Byte) (t : TensorEntry) : List Byte := (img.drop t.offset).take t.length

/-- `width` bits of packed elements from bit `bit` on, bit 0 of each byte first: a six-bit element may straddle two bytes. -/
def bitsAt (bs : List Byte) (bit width : Nat) : Nat := leNat ((bs.drop (bit / 8)).take 3) / 2 ^ (bit % 8) % 2 ^ width

/-- Element `k` of a tensor's data, without its scale. -/
def tensorElem (f : Nat) (bs : List Byte) (k : Nat) : Num :=
  let c := bitsAt bs (k * formatBits f) (formatBits f)
  match elemOfFormat f with | some e => elemRead e c | none => bf16Read c

/-- The scale that element `k` stands under: one byte per block of 32 behind the elements for the MX formats, the tensor's FP32 scale behind them
for FP8 (log entry 182), 1 for BF16. -/
def tensorScale (f : Nat) (bs : List Byte) (elems k : Nat) : Num :=
  let tail := bs.drop (ceilDiv (elems * formatBits f) 8)
  if f ≤ 4 then (let sc := leNat ((tail.drop (k / 32)).take 1); if sc = 0xFF then .nan else scalePow sc)
  else if f = 7 then .fin false 1 1 else f32Read (leNat (tail.take 4))

/-- A block of operands of one dot product: its scale and up to 32 elements. -/
abbrev Blk32 := Num × List Num

/-- Row `r` of a tensor in blocks along the reduction dimension. -/
def weightRow (bs : List Byte) (t : TensorEntry) (r : Nat) : List Blk32 :=
  (List.range (ceilDiv t.columns 32)).map fun b =>
    let at_ := r * t.columns + 32 * b
    (tensorScale t.format bs (t.rows * t.columns) at_, (List.range (min 32 (t.columns - 32 * b))).map fun i => tensorElem t.format bs (at_ + i))

/-! ### Activations (R184, R189) -/

/-- A block of 32 converted to an MX format: its scale and its element codes (R184, R185). -/
def mxBlock (e : Elem) (xs : List Num) : Nat × List Nat :=
  let sc := blockScaleOf e xs
  (sc, xs.map fun x => elemWrite e (if sc = 0xFF then x else unscale sc x))

/-- A BF16 activation as an operand: as it is beside BF16 weights, else in MXFP8 E4M3 blocks, where a block whose scale is below the skip floor
counts as all zero (R184, R189). -/
def actBlocks (wide : Bool) (floor : Nat) (xs : List Nat) : List Blk32 :=
  (blocksOf32 xs.length (xs.map bf16Read)).map fun b =>
    if wide then (.fin false 1 1, b)
    else
      let k := mxBlock .e4m3 b
      if k.1 < floor then (scalePow 0, b.map fun _ => .fin false 0 1)
      else (if k.1 = 0xFF then .nan else scalePow k.1, k.2.map (elemRead .e4m3))

/-! ### Products (R186 to R188) -/

/-- Whether a block's elements are all zero. -/
def zeroBlock (b : Blk32) : Bool := b.2.all fun x => match x with | .fin _ n _ => n == 0 | _ => false

/-- One block pair: zero where either operand is all zero (R188); else the products exactly, added without rounding, the sum rounded once to FP32
and multiplied by both scales (R186). -/
def blockProduct (w a : Blk32) : Nat :=
  if zeroBlock w || zeroBlock a then 0
  else
    let sum := (List.zipWith numMul w.2 a.2).foldl numAdd (.fin false 0 1)
    f32Write (numMul (f32Read (f32Write sum)) (numMul w.1 a.1))

/-- FP32 values added in the order they stand (R186). -/
def f32Run (l : List Nat) : Nat := match l with | [] => 0 | x :: xs => xs.foldl f32Add x

/-- A list in an order of arrival, which is free (Table 6-3). -/
def arrange {α : Type} (key : List Nat) : Nat → List α → List α
  | 0, _ => []
  | k + 1, l =>
    let i := Config.arrival (k :: key) % max 1 l.length
    match l[i]? with
    | some x => x :: arrange key k (l.eraseIdx i)
    | none => []

/-- FP32 values added in an order of arrival. -/
def f32Arrive (key : List Nat) (l : List Nat) : Nat := f32Run (arrange key l.length l)

/-- A dot product: block sums in ascending order on each cluster, the clusters' partials in their order of arrival (R186, R187). -/
def dotProduct (key : List Nat) (w a : List Blk32) : Nat :=
  let sums := List.zipWith blockProduct w a
  let n := 1 + Config.reductionSplit key % max 1 sums.length
  f32Arrive key ((piecesOf (ceilDiv sums.length n) sums.length sums).map f32Run)

/-- A tensor times a BF16 vector: one FP32 value per row. -/
def product (img : List Byte) (key : List Nat) (floor : Nat) (t : TensorEntry) (xs : List Nat) : List Nat :=
  let data := tensorData img t
  let a := actBlocks (t.format == 7) floor xs
  (List.range t.rows).map fun r => dotProduct (r :: t.offset :: key) (weightRow data t r) a

/-! ### The tensors of a block -/

/-- The tensors of a decoder block (Table 6-6). -/
def blockTensors (p : ModelProgram) (d : BlockDesc) : List TensorEntry := (p.tensors.drop d.firstTensor).take d.tensorCount

/-- The n-th tensor of a role and expert number in a list. -/
def tensorOf (ts : List TensorEntry) (role expert n : Nat) : Option TensorEntry := (ts.filter fun t => t.role == role && t.expert == expert)[n]?

/-- The product with a tensor of a role, empty where there is none. -/
def productOf (img : List Byte) (key : List Nat) (floor : Nat) (t : Option TensorEntry) (xs : List Nat) : List Nat :=
  match t with | some t => product img key floor t xs | none => []

/-! ### Norms, residual sums and rotary encoding (R192) -/

/-- Element `i` of a BF16 tensor as FP32 bits. -/
def bf16Elem (img : List Byte) (t : TensorEntry) (i : Nat) : Nat := bf16To32 (leNat (((tensorData img t).drop (2 * i)).take 2))

/-- FP32 bits of a whole number. -/
def f32OfNat (n : Nat) : Nat := f32Write (.fin false n 1)

/-- RMSNorm or LayerNorm of a BF16 vector with FP32 steps; the sums' order is open. The gain is the norm tensor; LayerNorm adds a bias that stands
behind it, where the tensor has one (log entry 181). -/
def normVec (img : List Byte) (key : List Nat) (kind eps : Nat) (t : Option TensorEntry) (xs : List Nat) : List Nat :=
  let v := xs.map bf16To32
  let n := f32OfNat xs.length
  let mean := if kind = 0 then 0 else f32Quot (f32Arrive (1 :: key) v) n
  let c := if kind = 0 then v else v.map fun x => f32Sub x mean
  let var := f32Quot (f32Arrive (2 :: key) (c.map fun x => f32Mul x x)) n
  let root := f32Sqrt (f32Add var eps)
  c.mapIdx fun i x =>
    let y := f32Quot x root
    match t with
    | none => toBf16 y
    | some t =>
      let g := f32Mul y (bf16Elem img t i)
      toBf16 (if kind = 1 ∧ 2 * xs.length ≤ t.rows * t.columns then f32Add g (bf16Elem img t (xs.length + i)) else g)

/-- A residual sum: formed in FP32, stored in BF16. -/
def residual (xs : List Nat) (add : List Nat) : List Nat := xs.mapIdx fun i x => toBf16 (f32Add (bf16To32 x) (add.getD i 0))

/-- Rotary encoding of one head's FP32 values at a position. -/
def rotate (base pos : Nat) (v : List Nat) : List Nat :=
  let d := v.length
  v.mapIdx fun i x =>
    let first := if Config.rotaryHalves then decide (i < d / 2) else decide (i % 2 = 0)
    let k := if Config.rotaryHalves then i % (d / 2) else i / 2
    let j := if Config.rotaryHalves then (if first then i + d / 2 else i - d / 2) else (if first then i + 1 else i - 1)
    let y := f32Mul (v.getD j 0) (Config.rotary 1 base pos k d)
    let z := f32Mul x (Config.rotary 0 base pos k d)
    if first then f32Sub z y else f32Add z y

/-- The heads of a projection: FP32 values cut into heads, rotated where the block is, and narrowed to BF16. -/
def headsFrom (p : ModelProgram) (d : BlockDesc) (pos : Nat) (v : List Nat) : List (List Nat) :=
  let dim := 64 * 2 ^ p.headDimCode
  (piecesOf dim v.length v).map fun h => (if d.positional = 1 then rotate d.rotaryBase pos h else h).map toBf16

/-- The value heads of a projection: cut and narrowed. -/
def valuesFrom (p : ModelProgram) (v : List Nat) : List (List Nat) := (piecesOf (64 * 2 ^ p.headDimCode) v.length v).map fun h => h.map toBf16

/-! ### Feed-forward parts (R193 to R195) -/

/-- The gate's activation in FP32: SiLU, GELU in tanh form, or the square of a positive value. -/
def activate (kind x : Nat) : Nat :=
  if kind = 2 then (if f32Key x ≤ 0 then 0 else f32Mul x x) else Config.activation kind x

/-- A dense part: down(act(gate x) × up x), or down(relu(up x)²) with no gate tensor; the inner values pass as BF16. -/
def densePart (img : List Byte) (key : List Nat) (d : BlockDesc) (ts : List TensorEntry) (expert n : Nat) (xs : List Nat) : List Nat :=
  let up := productOf img (1 :: key) d.skipFloor (tensorOf ts 6 expert n) xs
  let inner := if d.activation = 2 then up.map (activate 2)
    else List.zipWith (fun g u => f32Mul (activate d.activation g) u) (productOf img (2 :: key) d.skipFloor (tensorOf ts 5 expert n) xs) up
  productOf img (3 :: key) d.skipFloor (tensorOf ts 7 expert n) (inner.map toBf16)

/-- The k experts with the highest scores, ties to the lower number (R194). -/
def chooseExperts (k : Nat) (scores : List Nat) : List Nat :=
  (scores.mapIdx fun i x => (i, x)).foldl (fun acc e =>
    acc.takeWhile (fun y => decide (f32Key e.2 ≤ f32Key y.2)) ++ e :: acc.dropWhile (fun y => decide (f32Key e.2 ≤ f32Key y.2))) [] |>.take k |>.map Prod.fst

/-- The gate weights of the chosen experts: mode 0 a softmax over their scores, mode 1 a softmax over all scores taken at them and divided by
their sum (R194). -/
def gateWeights (mode : Nat) (key : List Nat) (scores chosen : List Nat) : List Nat :=
  let among := if mode = 0 then chosen.map fun i => scores.getD i 0 else scores
  let top := among.foldl (fun m x => if f32Key m < f32Key x then x else m) (among.headD 0)
  let exps := fun (l : List Nat) => l.map fun x => Config.gateExp (f32Sub x top)
  let all := f32Arrive (4 :: key) (exps among)
  let w := (exps (chosen.map fun i => scores.getD i 0)).map fun e => f32Quot e all
  if mode = 0 then w else (let sum := f32Arrive (5 :: key) w; w.map fun x => f32Quot x sum)

/-- The experts that a position chooses in a block, from its router (R194). -/
def routed (img : List Byte) (key : List Nat) (p : ModelProgram) (ts : List TensorEntry) (xs : List Nat) : List Nat × List Nat :=
  let scores := productOf img (6 :: key) 0 (tensorOf ts 8 0xFFFF 0) xs
  let chosen := chooseExperts p.routed scores
  (chosen, gateWeights p.gateMode key scores chosen)

/-- Vectors of FP32 added in their order of arrival, element by element (Table 6-3). -/
def vecArrive (key : List Nat) (n : Nat) (vs : List (List Nat)) : List Nat :=
  (List.range n).map fun i => f32Run ((arrange key vs.length vs).map fun v => v.getD i 0)

/-- A feed-forward part's FP32 output. Every expert a position chose computes it, each output scaled by its gate weight; shared experts have weight
1; they are added in their order of arrival (R187, R193 to R195). -/
def feedForward (img : List Byte) (key : List Nat) (p : ModelProgram) (d : BlockDesc) (xs : List Nat) : List Nat :=
  let ts := blockTensors p d
  match d.ffn with
  | 0 => []
  | 1 => densePart img key d ts 0xFFFF 0 xs
  | _ =>
    let r := routed img key p ts xs
    let own := (r.1.zip r.2).map fun e => (densePart img (e.1 :: key) d ts e.1 0 xs).map (f32Mul e.2)
    let shared := (List.range p.shared).map fun n => densePart img ((65536 + n) :: key) d ts 0xFFFE n xs
    vecArrive (7 :: key) p.hidden (own ++ shared)

/-! ### Embedding and heads (R198) -/

/-- The embedding of a token: its row of the BF16 embedding tensor. -/
def embed (img : List Byte) (p : ModelProgram) (tok : Nat) : List Nat :=
  match p.tensors.find? fun t => t.role == 0 with
  | none => List.replicate p.hidden 0
  | some t => (List.range t.columns).map fun i => leNat (((tensorData img t).drop (2 * (tok * t.columns + i))).take 2)

/-- The FP32 logits over the vocabulary from the last decoder block's output. -/
def logitsOf (img : List Byte) (key : List Nat) (p : ModelProgram) (xs : List Nat) : List Nat :=
  productOf img key 0 (p.tensors.find? fun t => t.role == 10) xs

/-- The code of a recall head of `width` bits: the sign bits of its projection, 1 for zero or greater, bit 0 first in each byte. -/
def recallCode (img : List Byte) (key : List Nat) (p : ModelProgram) (width : Nat) (xs : List Nat) : List Byte :=
  let v := productOf img key 0 (p.tensors.find? fun t => t.role == 11 && t.rows == width) xs
  (piecesOf 8 v.length v).map fun b => BitVec.ofNat 8 ((b.mapIdx fun i x => if numGe0 (f32Read x) then 2 ^ i else 0).sum)

end Sys2Proof.Machine
end

