-- ==== Sys2Proof/Machine/RackBase.lean ====
section
/-! DEFINITION. What other parts of the block need of the rack: the newest epoch, sending a manager message, who manages whom, and the
rack directory's updates (R408 to R419). -/

namespace Sys2Proof.Machine

/-- The newest live epoch, 0 where none is live (R413). -/
def newestEpoch (s : State) : Nat := (s.rack.epochs.map Epoch.num).foldl max 0

/-- The records of the newest live epoch. -/
def mapRecords (s : State) : List MapRecord :=
  ((s.rack.epochs.find? fun (e : Epoch) => e.num == newestEpoch s).map Epoch.records).getD []

/-- Whether the package belongs to a fabric domain (R408). -/
def inDomain (s : State) : Bool := s.rack.role != 0 && s.rack.numValid

/-- Whether the package is a manager (Table 17-6). -/
def isManager (s : State) : Bool := s.rack.role == 2 || s.rack.role == 3

/-- Whether the map marks a package failed (R417). -/
def packageFailed (s : State) (n : Nat) : Bool :=
  (mapRecords s).any fun (r : MapRecord) => match r with | .package k _ _ _ f => k == n && f | _ => false

/-- The manager of a package number: its record's, or this package's own manager where no record names it (Table 14-3). -/
def managerOf (s : State) (n : Nat) : Nat :=
  let found := (mapRecords s).findSome? fun (r : MapRecord) =>
    match r with
    | .package k _ role above _ => if k = n then some (if role = 1 then above else k) else none
    | _ => none
  found.getD (if isManager s then s.rack.num else s.rack.above)

/-- The package that a handle names as its creator (R49). -/
def creatorOf (h : Nat) : Nat := h / 2 ^ 52

/-- Whether a handle was created by this package (R49). -/
def createdHere (s : State) (h : Nat) : Bool := creatorOf h == s.rack.num

/-- The 36 bytes at offset 24 of an entry (Table 14-2): a notice's kind, a checkpoint answer's fields, otherwise as the kind has them. -/
def mgrBody (kind : Nat) (body : List Nat) : List Byte :=
  let raw := match kind, body with
    | 22, [n] => leBytes 1 n
    | 23, [n, slot, length, code] => leBytes 8 n ++ leBytes 1 slot ++ leBytes 8 length ++ leBytes 2 code
    | _, _ => Config.mgrBody kind body
  (raw ++ List.replicate 36 (0 : Byte)).take 36

/-- The 64-byte entry that a message of this package is in its peer's ring (Table 14-2): bit 0 of the flags where more of it follows. -/
def mgrEntry (source : Nat) (m : MgrMsg) : List Byte :=
  let more := if m.records.isEmpty && m.bytes.isEmpty then 0 else 1
  let front := leBytes 1 m.kind ++ leBytes 1 more ++ leBytes 2 source ++ leBytes 4 m.epoch ++ leBytes 8 m.seq ++ leBytes 8 m.handle ++ mgrBody m.kind m.body
  front ++ leBytes 4 (crc32c (front.map BitVec.toNat))

/-- Entries of the session directory in use: the sessions, and those that migrations have reserved here (R64, Table 14-5 step 2). -/
def entriesUsed (s : State) : Nat := s.sess.length + (s.rack.migrations.filter fun (m : Migration) => !m.atOrigin).length

/-- A manager message written into a peer's ring, numbered and kept until it is acknowledged (R411, R412). -/
def sendMgr (peer kind handle : Nat) (body : List Nat) (records : List MapRecord) (bytes : List Byte) (s : State) : State :=
  let q := countOf s.rack.nextSeq peer + 1
  let m : MgrMsg := { peer := peer, seq := q, kind := kind, epoch := newestEpoch s, handle := handle, body := body, records := records, bytes := bytes }
  { s with rack := { s.rack with nextSeq := setCount s.rack.nextSeq peer q, unacked := s.rack.unacked ++ [m], outbox := s.rack.outbox ++ [m] } }

/-- A rack directory entry written at this manager; a state of 7 or 8 removes it, since it is no live session's (R418). -/
def putDirectory (h holder state : Nat) (s : State) : State :=
  let rest := s.rack.directory.filter fun e => e.handle != h
  let e : DirEntry := { handle := h, holder := holder, state := state, epoch := newestEpoch s }
  { s with rack := { s.rack with directory := if 7 ≤ state then rest else rest ++ [e] } }

/-- A directory update: at this package where it is the creator's manager, otherwise sent to that manager (R418). -/
def tellDirectory (h holder state : Nat) (s : State) : State :=
  if inDomain s then
    let m := managerOf s (creatorOf h)
    if m = s.rack.num then putDirectory h holder state s
    else if s.rack.managerLost then s
    else sendMgr m 17 h [holder, state] [] [] s
  else s

/-- The state code of a session (Table 2-2). -/
def stateCode (st : SState) : Nat :=
  match st with
  | .free => 0 | .opened => 1 | .active => 2 | .waitingTool => 3 | .warm => 4 | .parked => 5 | .moving => 6 | .closed => 7 | .lost => 8

/-- A migration of a handle at this package. -/
def findMigration (s : State) (h : Nat) : Option Migration := s.rack.migrations.find? fun (m : Migration) => m.handle == h

/-- Why a migration aborted (R422, R423): the model's codes (log entry 50). -/
inductive MoveEnd where
  | closed | retired | poisoned | destinationLost | originLost | refused
  deriving DecidableEq, Repr

/-- The reason code of an aborted migration. -/
def moveReason (r : MoveEnd) : Nat :=
  match r with | .closed => 1 | .retired => 2 | .poisoned => 3 | .destinationLost => 4 | .originLost => 5 | .refused => 6

/-- A migration aborted here: its record goes, a switched-over session resumes its earlier state, and peer and manager are told
(R422, R423, Table 4-6). -/
def abortMigration (h : Nat) (r : MoveEnd) (s : State) : State :=
  match findMigration s h with
  | none => s
  | some m =>
    let s1 : State := { s with rack := { s.rack with migrations := s.rack.migrations.filter fun (k : Migration) => k.handle != h
                                                     aborted := s.rack.aborted ++ [(h, moveReason r)] } }
    let s2 := onSess h (fun x => if m.atOrigin && x.state == .moving then { x with state := (x.before.getD .opened), before := none } else x) s1
    let peer := if m.atOrigin then m.destination else m.origin
    let s2 : State := if m.atOrigin then s2 else { s2 with links := { s2.links with windows := s2.links.windows.filter fun w => !(w.kind == 2 && w.peer == some m.origin) } }
    let s3 := sendMgr peer 13 h [moveReason r] [] [] s2
    if managerOf s3 s3.rack.num = s3.rack.num then s3 else sendMgr (managerOf s3 s3.rack.num) 13 h [moveReason r] [] [] s3

end Sys2Proof.Machine
end

