-- ==== Sys2Proof/Machine/Text.lean ====
section
/-! DEFINITION. The text engine: UTF-8 and its repair, normalisation, pre-splitting, tokenisation, the input text state, and on
the way out the repaired stream, stop strings and holdback (R277 to R292). -/

namespace Sys2Proof.Machine

/-! ### UTF-8 (R277, R278) -/

/-- The kinds of a run of bytes: a whole character, an ill-formed maximal subpart, or an incomplete character at the end. -/
inductive RunKind where
  | good | bad | part
  deriving DecidableEq, Repr

/-- A run of bytes with its kind. -/
structure Run where
  kind  : RunKind
  bytes : List Byte
  deriving DecidableEq, Repr

/-- How many bytes follow a lead byte, and the range of the first of them (Unicode 15.1, Table 3-7); `none` where no character
begins with the byte. -/
def leadOf (b : Nat) : Option (Nat × Nat × Nat) :=
  if 0xC2 ≤ b ∧ b ≤ 0xDF then some (1, 0x80, 0xBF)
  else if b = 0xE0 then some (2, 0xA0, 0xBF)
  else if b = 0xED then some (2, 0x80, 0x9F)
  else if 0xE1 ≤ b ∧ b ≤ 0xEF then some (2, 0x80, 0xBF)
  else if b = 0xF0 then some (3, 0x90, 0xBF)
  else if 0xF1 ≤ b ∧ b ≤ 0xF3 then some (3, 0x80, 0xBF)
  else if b = 0xF4 then some (3, 0x80, 0x8F)
  else none

/-- The following bytes of a character: up to `n` of them, the first within `lo` to `hi`; how many were taken. -/
def follow : Nat → Nat → Nat → List Byte → Nat
  | 0, _, _, _ => 0
  | _ + 1, _, _, [] => 0
  | n + 1, lo, hi, b :: bs => if lo ≤ b.toNat ∧ b.toNat ≤ hi then 1 + follow n 0x80 0xBF bs else 0

/-- The runs of a byte string, ill-formed sequences by maximal subparts, with fuel for its length. -/
def runsWith : Nat → List Byte → List Run
  | 0, _ => []
  | _ + 1, [] => []
  | k + 1, b :: bs =>
    if b.toNat < 0x80 then { kind := .good, bytes := [b] } :: runsWith k bs
    else match leadOf b.toNat with
      | none => { kind := .bad, bytes := [b] } :: runsWith k bs
      | some (n, lo, hi) =>
        let m := follow n lo hi bs
        if m = n then { kind := .good, bytes := b :: bs.take n } :: runsWith k (bs.drop n)
        else if bs.length = m then [{ kind := .part, bytes := b :: bs }]
        else { kind := .bad, bytes := b :: bs.take m } :: runsWith k (bs.drop m)

/-- The runs of a byte string. -/
def runs (bs : List Byte) : List Run := runsWith bs.length bs

/-- The bytes of U+FFFD. -/
def fffd : List Byte := [0xEF, 0xBF, 0xBD]

/-- The code point of a whole character's bytes. -/
def codePoint (bs : List Byte) : Nat :=
  match bs.map BitVec.toNat with
  | [a] => a
  | [a, b] => (a % 32) * 64 + b % 64
  | [a, b, c] => (a % 16) * 4096 + (b % 64) * 64 + c % 64
  | [a, b, c, d] => (a % 8) * 262144 + (b % 64) * 4096 + (c % 64) * 64 + d % 64
  | _ => 0xFFFD

/-- The UTF-8 bytes of a code point. -/
def utf8 (c : Nat) : List Byte :=
  if c < 0x80 then [BitVec.ofNat 8 c]
  else if c < 0x800 then [BitVec.ofNat 8 (0xC0 + c / 64), BitVec.ofNat 8 (0x80 + c % 64)]
  else if c < 0x10000 then
    [BitVec.ofNat 8 (0xE0 + c / 4096), BitVec.ofNat 8 (0x80 + c / 64 % 64), BitVec.ofNat 8 (0x80 + c % 64)]
  else [BitVec.ofNat 8 (0xF0 + c / 262144), BitVec.ofNat 8 (0x80 + c / 4096 % 64), BitVec.ofNat 8 (0x80 + c / 64 % 64),
    BitVec.ofNat 8 (0x80 + c % 64)]

/-- Bytes of code points. -/
def utf8s (cs : List Nat) : List Byte := (cs.map utf8).flatten

/-- Whether a byte string is well-formed UTF-8 (R291). -/
def wellFormedText (bs : List Byte) : Bool := (runs bs).all fun r => r.kind == .good

/-- The offset of the first ill-formed sequence. -/
def firstBad : List Run → Option Nat
  | [] => none
  | r :: rs => if r.kind = .bad then some 0 else (firstBad rs).map (· + r.bytes.length)

/-! ### Normalisation (R281) -/

/-- The value that a list of ranges gives a code point, 0 outside them. -/
def rangeOf (l : List (Nat × Nat × Nat)) (c : Nat) : Nat :=
  match l.find? (fun r => decide (r.1 ≤ c) && decide (c ≤ r.2.1)) with
  | some r => r.2.2
  | none => 0

/-- The canonical combining class. -/
def ccc (n : NormData) (c : Nat) : Nat := rangeOf n.combining c

/-- Whether a code point's quick check is Yes for the form: NFC 1, NFKC 2 (R485). -/
def qcYes (n : NormData) (form c : Nat) : Bool :=
  let v := rangeOf n.quickCheck c
  if form = 2 then v / 4 % 4 == 0 else v % 4 == 0

/-- U+034F inserted after every 30 consecutive non-starters (Stream-Safe Text Format, R281; log entry 31). -/
def streamSafe (n : NormData) : Nat → List Nat → List Nat
  | _, [] => []
  | k, c :: cs =>
    if ccc n c = 0 then c :: streamSafe n 0 cs
    else if k = 30 then 0x34F :: c :: streamSafe n 1 cs
    else c :: streamSafe n (k + 1) cs

/-- The full decomposition of a code point, with fuel for the depth; Hangul syllables by arithmetic (UAX #15). -/
def decompose (n : NormData) (form : Nat) : Nat → Nat → List Nat
  | 0, c => [c]
  | k + 1, c =>
    if 0xAC00 ≤ c ∧ c ≤ 0xD7A3 then
      let i := c - 0xAC00
      let t := i % 28
      [0x1100 + i / 588, 0x1161 + i % 588 / 28] ++ if t = 0 then [] else [0x11A7 + t]
    else
      let d := match n.canonical.find? (fun (p : Nat × List Nat) => p.1 == c) with
        | some p => some p.2
        | none => if form = 2 then (n.compat.find? (fun (p : Nat × List Nat) => p.1 == c)).map Prod.snd else none
      match d with
      | none => [c]
      | some cs => (cs.map (decompose n form k)).flatten

/-- Canonical ordering: each run of non-starters in ascending class, equal classes in place. -/
def reorder (n : NormData) (cs : List Nat) : List Nat :=
  let r := cs.foldl (fun acc c =>
    if ccc n c = 0 then (acc.1 ++ sortBy (ccc n) acc.2 ++ [c], []) else (acc.1, acc.2 ++ [c])) (([], []) : List Nat × List Nat)
  r.1 ++ sortBy (ccc n) r.2

/-- The primary composite of two code points, Hangul by arithmetic. -/
def composite (n : NormData) (a b : Nat) : Option Nat :=
  if 0x1100 ≤ a ∧ a ≤ 0x1112 ∧ 0x1161 ≤ b ∧ b ≤ 0x1175 then some (0xAC00 + ((a - 0x1100) * 21 + (b - 0x1161)) * 28)
  else if 0xAC00 ≤ a ∧ a ≤ 0xD7A3 ∧ (a - 0xAC00) % 28 = 0 ∧ 0x11A8 ≤ b ∧ b ≤ 0x11C2 then some (a + (b - 0x11A7))
  else (n.composites.find? fun p => p.1 == a && p.2.1 == b).map fun p => p.2.2

/-- What composition holds: what is finished, the last starter, and what follows it uncomposed, with the class of its last. -/
structure Compose where
  done    : List Nat := []
  starter : Option Nat := none
  after   : List Nat := []
  last    : Option Nat := none
  deriving DecidableEq, Repr

/-- One code point taken into a composition (UAX #15). -/
def composeOne (n : NormData) (s : Compose) (c : Nat) : Compose :=
  let k := ccc n c
  match s.starter with
  | none => if k = 0 then { s with starter := some c, after := [], last := none } else { s with done := s.done ++ [c] }
  | some a =>
    let blocked := match s.last with | none => false | some l => l == 0 || decide (k ≤ l)
    match (if blocked then none else composite n a c) with
    | some x => { s with starter := some x }
    | none =>
      if k = 0 then { done := s.done ++ a :: s.after, starter := some c, after := [], last := none }
      else { s with after := s.after ++ [c], last := some k }

/-- Canonical composition. -/
def compose (n : NormData) (cs : List Nat) : List Nat :=
  let s := cs.foldl (composeOne n) {}
  s.done ++ (match s.starter with | none => [] | some a => a :: s.after)

/-- NFC (form 1) or NFKC (form 2) of a text; form 3 leaves it (R281). -/
def normalise (n : NormData) (form : Nat) (cs : List Nat) : List Nat :=
  if form = 3 then cs else compose n (reorder n ((cs.map (decompose n form 32)).flatten))

/-- The text split before its last starter whose quick check is Yes: what is normalised now and the held tail (R281). -/
def splitTail (n : NormData) (form : Nat) (cs : List Nat) : List Nat × List Nat :=
  if form = 3 then (cs, [])
  else
    let back := cs.reverse.findIdx? fun c => ccc n c == 0 && qcYes n form c
    match back with
    | none => ([], cs)
    | some i => (cs.take (cs.length - 1 - i), cs.drop (cs.length - 1 - i))

/-! ### Pre-splitting (R282) -/

/-- The class of a code point. -/
def classOf (p : PreSplit) (c : Nat) : Nat :=
  match p.classes.find? (fun r => decide (r.1 ≤ c) && decide (c ≤ r.2.1)) with
  | some r => r.2.2
  | none => p.otherClass

/-- A run of the automaton: whether it was decided, the code points read, and the longest accepting prefix. -/
def splitRun (p : PreSplit) : Nat → Nat → Nat → Nat → List Nat → Bool × Nat
  | _, _, _, best, [] => (false, best)
  | st, n, bytes, best, c :: cs =>
    if 256 < bytes + (utf8 c).length then (true, best)
    else match (p.next.getD st []).getD (classOf p c) none with
      | none => (true, best)
      | some st' =>
        let best' := if p.accept.contains st' then n + 1 else best
        if bytes + (utf8 c).length = 256 then (true, best')
        else splitRun p st' (n + 1) (bytes + (utf8 c).length) best' cs

/-- The pieces of a text, and what is held; at a closing nothing is held. With fuel for the length. -/
def piecesWith (p : PreSplit) (closing : Bool) : Nat → List Nat → List (List Nat) × List Nat
  | 0, cs => ([], cs)
  | _ + 1, [] => ([], [])
  | k + 1, c :: cs =>
    let r := splitRun p p.start 0 0 0 (c :: cs)
    if r.1 || closing then
      let n := if r.2 = 0 then 1 else r.2
      let more := piecesWith p closing k ((c :: cs).drop n)
      ((c :: cs).take n :: more.1, more.2)
    else ([], c :: cs)

/-! ### Tokenisation (R283 to R285) -/

/-- The rank of a merge with its result. -/
def mergeOf (t : Tokeniser) (a b : Nat) : Option (Nat × Nat) :=
  match t.merges.findIdx? (fun m => m.1 == a && m.2.1 == b) with
  | none => none
  | some i => (t.merges[i]?).map fun m => (i, m.2.2)

/-- The adjacent pair of lowest rank, leftmost among equals: its place, rank and result. -/
def bestPair (t : Tokeniser) : Nat → List Nat → Option (Nat × Nat × Nat)
  | i, a :: b :: rest =>
    let later := bestPair t (i + 1) (b :: rest)
    match mergeOf t a b with
    | none => later
    | some (r, x) =>
      match later with
      | some l => if l.2.1 < r then some l else some (i, r, x)
      | none => some (i, r, x)
  | _, _ => none

/-- Merges applied until no adjacent pair has one, with fuel for the tokens. -/
def bpeWith (t : Tokeniser) : Nat → List Nat → List Nat
  | 0, ts => ts
  | k + 1, ts =>
    match bestPair t 0 ts with
    | none => ts
    | some (i, _, x) => bpeWith t k (ts.take i ++ x :: ts.drop (i + 2))

/-- A piece in byte-level BPE (R283). -/
def bpe (t : Tokeniser) (bs : List Byte) : List Nat :=
  let ts := bs.map fun b => t.byteTokens.getD b.toNat 0
  bpeWith t ts.length ts

/-- A segmentation of a suffix: its score, its tokens. -/
structure Seg where
  score : Num
  toks  : List Nat
  deriving DecidableEq, Repr

/-- Less, of numbers that are no NaN. -/
def numLt (x y : Num) : Bool :=
  match x, y with
  | .fin s n d, .fin t m e =>
    decide ((if s then -((n : Int) * e) else (n : Int) * e) < (if t then -((m : Int) * d) else (m : Int) * d))
  | .inf a, .inf b => a && !b
  | .inf a, .fin _ _ _ => a
  | .fin _ _ _, .inf b => !b
  | _, _ => false

/-- The better of two segmentations of one suffix, `a` with the longer first token (R284). -/
def segBetter (a b : Seg) : Seg :=
  if numLt a.score b.score then b else if numLt b.score a.score then a
  else if b.toks.length < a.toks.length then b else a

/-- The ordinary token whose output is `bs`. -/
def tokenOf (t : Tokeniser) (bs : List Byte) : Option Nat :=
  (List.range t.tokens.length).find? fun i =>
    t.tokens.getD i [] == bs && !(t.special.getD i false) && !(t.byteFallback && t.byteTokens.contains i)

/-- The score of a token. -/
def scoreOf (t : Tokeniser) (i : Nat) : Num := f32Read (t.scores.getD i 0)

/-- The tokens of a code point that begins no token (R284); the unknown token where the table names one, a free value else. -/
def fallback (t : Tokeniser) (c : Nat) : List Nat :=
  if t.byteFallback then (utf8 c).map fun b => t.byteTokens.getD b.toNat 0
  else [if t.unknown = 0xFFFFFFFF then Config.unknownToken else t.unknown]

/-- The best segmentations of the suffixes of a piece, longest suffix first. -/
def segments (t : Tokeniser) (cs : List Nat) : List Seg :=
  match cs with
  | [] => [{ score := .fin false 0 1, toks := [] }]
  | c :: rest =>
    let later := segments t rest
    let cands := (List.range (rest.length + 1)).filterMap fun n =>
      let bs := utf8s ((c :: rest).take (n + 1))
      if t.longest < bs.length then none
      else match tokenOf t bs, later[n]? with
        | some i, some g => some ({ score := numAdd (scoreOf t i) g.score, toks := i :: g.toks } : Seg)
        | _, _ => none
    match cands.reverse with
    | x :: xs => xs.foldl segBetter x :: later
    | [] =>
      let f := fallback t c
      let g := later.headD { score := .fin false 0 1, toks := [] }
      { score := f.foldl (fun acc i => numAdd acc (scoreOf t i)) g.score, toks := f ++ g.toks } :: later

/-- A piece in a unigram table (R284). -/
def unigram (t : Tokeniser) (start : Bool) (cs : List Nat) : List Nat :=
  let cs1 := cs.map fun c => if c = 0x20 then t.space else c
  let cs2 := if start && t.addSpace then t.space :: cs1 else cs1
  ((segments t cs2).headD { score := .fin false 0 1, toks := [] }).toks

/-- A piece tokenised; `start` marks the first piece after a closing. -/
def tokenise (t : Tokeniser) (start : Bool) (cs : List Nat) : List Nat :=
  if t.kind = 0 then bpe t (utf8s cs) else unigram t start cs

/-- Pieces tokenised in turn. -/
def tokensOfPieces (t : Tokeniser) (start : Bool) : List (List Nat) → List Nat
  | [] => []
  | p :: ps => tokenise t start p ++ tokensOfPieces t false ps

/-! ### The input text state (R277 to R286) -/

/-- What taking text, or closing, comes to: the tokens queued, the new state, the replacements counted, and the offset of an
INVALID_TEXT. -/
structure TextOut where
  toks  : List Nat := []
  text  : TextState
  fixes : Nat := 0
  bad   : Option Nat := none
  deriving DecidableEq, Repr

/-- The code points of whole and ill-formed runs. -/
def pointsOf (rs : List Run) : List Nat :=
  rs.filterMap fun r => match r.kind with | .good => some (codePoint r.bytes) | .bad => some 0xFFFD | .part => none

/-- Code points through the normaliser, the pre-split and the tokeniser. -/
def feed (t : Tokeniser) (n : NormData) (form : Nat) (closing : Bool) (cs : List Nat) (x : TextState) : List Nat × TextState :=
  let all := if form = 3 then x.tail ++ cs else streamSafe n 0 (x.tail ++ cs)
  let sp := if closing then (all, []) else splitTail n form all
  let text := x.piece ++ normalise n form sp.1
  let ps := piecesWith t.presplit closing text.length text
  (tokensOfPieces t x.atStart ps.1,
   { x with tail := sp.2, piece := ps.2, atStart := closing || (x.atStart && ps.1.isEmpty) })

/-- Bytes taken into the input text state (R277 to R279): a strict session refuses a message with an ill-formed sequence whole. -/
def takeText (t : Tokeniser) (n : NormData) (form : Nat) (strict : Bool) (bs : List Byte) (x : TextState) : TextOut :=
  let rs := runs (x.pend ++ bs)
  match firstBad rs with
  | some k =>
    if strict then
      { text := { x with offset := x.offset + bs.length, pend := [] }, bad := some (x.offset - x.pend.length + k) }
    else
      let r := feed t n form false (pointsOf rs) x
      { toks := r.1, fixes := rs.countP fun r => r.kind == .bad
        text := { r.2 with offset := x.offset + bs.length
                           pend := ((rs.filter fun r => r.kind == .part).map Run.bytes).flatten } }
  | none =>
    let r := feed t n form false (pointsOf rs) x
    { toks := r.1
      text := { r.2 with offset := x.offset + bs.length
                         pend := ((rs.filter fun r => r.kind == .part).map Run.bytes).flatten } }

/-- The input text state closed (R280). -/
def closeText (t : Tokeniser) (n : NormData) (form : Nat) (strict : Bool) (x : TextState) : TextOut :=
  let lost := !x.pend.isEmpty
  let r := feed t n form true (if lost && !strict then [0xFFFD] else []) x
  { toks := r.1, text := { r.2 with pend := [] }, fixes := if lost && !strict then 1 else 0
    bad := if lost && strict then some (x.offset - x.pend.length) else none }

/-! ### Output (R288 to R292) -/

/-- The output bytes of a token: none for special, end and tool tokens (R288). -/
def outBytes (t : Tokeniser) (p : ModelProgram) (tok : Nat) : List Byte :=
  if t.special.getD tok false || [p.endToken0, p.endToken1, p.toolOpen, p.toolClose].contains tok then []
  else t.tokens.getD tok []

/-- Bytes with the index of the token that holds each. -/
def ownedBytes (out : List (List Byte)) : List (Byte × Nat) :=
  (out.mapIdx fun i bs => bs.map fun b => (b, i)).flatten

/-- Owned bytes cut along runs. -/
def cutRuns : List Run → List (Byte × Nat) → List (RunKind × List (Byte × Nat))
  | [], _ => []
  | r :: rs, l => (r.kind, l.take r.bytes.length) :: cutRuns rs (l.drop r.bytes.length)

/-- The runs of an output stream with their owners. -/
def outRuns (out : List (List Byte)) : List (RunKind × List (Byte × Nat)) :=
  cutRuns (runs out.flatten) (ownedBytes out)

/-- A run repaired: an ill-formed one becomes U+FFFD of the token of its first byte (R288); an incomplete one too when `flush`. -/
def repairRun (flush : Bool) (r : RunKind × List (Byte × Nat)) : List (Byte × Nat) :=
  let fixed := fffd.map fun b => (b, (r.2.map Prod.snd).headD 0)
  match r.1 with
  | .good => r.2
  | .bad => fixed
  | .part => if flush then fixed else []

/-- The repaired stream without an incomplete character at its end, or with it replaced. -/
def repaired (flush : Bool) (out : List (List Byte)) : List (Byte × Nat) :=
  ((outRuns out).map (repairRun flush)).flatten

/-- The bytes of an incomplete character at the end of a stream. -/
def openTail (out : List (List Byte)) : List (Byte × Nat) :=
  (((outRuns out).filter fun r => r.1 == .part).map Prod.snd).flatten

/-- Tokens that begin inside a character. -/
def beginsInside (out : List (List Byte)) (t : Nat) : Bool :=
  (outRuns out).any fun r => r.1 != .bad && (r.2.drop 1).any (fun b => b.2 == t) && !(r.2.take 1).any (fun b => b.2 == t)

/-- The longest stop string's length, or 1 (R289). -/
def longestStop (stops : List (List Byte)) : Nat := (stops.map List.length).foldl max 1

/-- Back from `t` while it begins inside a character (R289). -/
def backOff (out : List (List Byte)) (h : Nat) : Nat → Nat
  | 0 => 0
  | t + 1 => if h < t + 1 ∧ beginsInside out (t + 1) then backOff out h t else t + 1

/-- The first token held back (R289). -/
def heldFrom (stops : List (List Byte)) (h : Nat) (out : List (List Byte)) : Nat :=
  let stream := repaired false out ++ openTail out
  let last := stream.drop (stream.length - (longestStop stops - 1))
  let open_ := openTail out
  let t := ((List.range (out.length - h)).map (· + h)).find? fun t =>
    last.any (fun b => b.2 == t) || open_.any (fun b => b.2 == t)
  backOff out h (t.getD out.length)

/-- The bytes that tokens `h` to `t − 1` deliver. -/
def textBetween (flush : Bool) (h t : Nat) (out : List (List Byte)) : List Byte :=
  ((repaired flush out).filter fun b => decide (h ≤ b.2) && decide (b.2 < t)).map Prod.fst

/-- Whether any byte of token `t` or later stands. -/
def anyHeld (t : Nat) (out : List (List Byte)) : Bool := (out.drop t).any fun bs => !bs.isEmpty

/-- A match among the bytes past `before`: the earliest end, the longest string there; the token of its first byte (R291). -/
def stopAt (stops : List (List Byte)) (before : Nat) (stream : List (Byte × Nat)) : Option Nat :=
  let bytes := stream.map Prod.fst
  ((List.range (stream.length - before)).map (· + before + 1)).findSome? fun e =>
    let hits := stops.filter fun st => decide (st.length ≤ e) && ((bytes.take e).drop (e - st.length) == st)
    match hits with
    | [] => none
    | _ =>
      let n := (hits.map List.length).foldl max 0
      (stream[e - n]?).map Prod.snd

/-- The token a stop string's match begins in, once the last token of `out` is released (R291). -/
def stopMatch (stops : List (List Byte)) (out : List (List Byte)) : Option Nat :=
  stopAt stops (repaired false out.dropLast).length (repaired false out)

/-- The same once the tool-close token's flush has replaced an incomplete character (R145, R291). -/
def stopMatchFlush (stops : List (List Byte)) (out : List (List Byte)) : Option Nat :=
  stopAt stops (repaired false out).length (repaired true out)

end Sys2Proof.Machine
end

