-- ==== Sys2Proof/Machine/Places.lean ====
section
/-! DEFINITION. Where state lies: the shape a model gives a session, page sizes, permitted pools, the space used in T1, T2 and H, the
save size of the hold-up bound, and what releasing copies leaves (R66, R72, R197, R219 to R228, R371, R434, R435). -/

namespace Sys2Proof.Machine

/-! ### The shape of a model -/

/-- The program of a model number, whatever its state. -/
def progOf (s : State) (m : Nat) : Option ModelProgram := (findModel s m).bind Model.program
/-- The program of a session's model. -/
def sessProg (s : State) (x : Session) : Option ModelProgram := progOf s x.model

/-- Decoder blocks of paged attention, by number (Table 6-4). -/
def kvLayers (p : ModelProgram) : List Nat :=
  (List.range p.decoders.length).filter fun i => ((p.decoders[i]?).map BlockDesc.mixer) == some 1

/-- The head dimension (Table 6-5). -/
def headDim (p : ModelProgram) : Nat := 64 * 2 ^ p.headDimCode

/-- The layer number that the model gives a frame-encoder block's carry block: past every decoder block. -/
def carryLayer (i : Nat) : Nat := 0x8000 + i

/-- Recurrent layers: decoder blocks of mixer 2, then frame encoders (R197): layer, heads, values of a head. -/
def recShapes (p : ModelProgram) : List (Nat × Nat × Nat) :=
  let dec := (List.range p.decoders.length).filterMap fun i =>
    match p.decoders[i]? with
    | some b => if b.mixer = 2 then some (i, b.stateHeads, b.stateDim * headDim p) else none
    | none => none
  let enc := (List.range p.encoders.length).filterMap fun i =>
    match p.encoders[i]? with
    | some b => if b.mixer = 3 then some (carryLayer i, 1, b.stateBytes / 4) else none
    | none => none
  dec ++ enc

/-- The initial state of every recurrent and carry block (R196, R197). -/
def initBlocks (p : ModelProgram) : List RecBlock :=
  (recShapes p).map fun r => { layer := r.1, heads := List.replicate r.2.1 (List.replicate r.2.2 0) }

/-- The page format of a layer (Table 6-6). -/
def formatOf (p : ModelProgram) (layer : Nat) : Nat := ((p.decoders[layer]?).map BlockDesc.pageFormat).getD 0

/-- Bytes of the element part and the scale part of a page (R66). -/
def formBytes (p : ModelProgram) (fmt heads : Nat) : Nat :=
  let els := 16 * heads * headDim p * 2
  if fmt = 2 then els / 2 + els / 32 else els

/-- The size of a page of a model in its own form (R66). -/
def pageBytes (p : ModelProgram) (pg : Page) : Nat := formBytes p (if pg.mx4 then 2 else formatOf p pg.layer) (pg.heads.getD p.kvHeads)

/-- Bytes of a session's recurrent blocks, and of its snapshots. -/
def blockBytes (bs : List RecBlock) : Nat := ((bs.map fun b => (b.heads.map List.length).sum).sum) * 4

/-- Rows of a written length (R74). -/
def rowsOf (w : Nat) : Nat := ceilDiv w 16

/-- T1 frames of a page, in KiB (R66). -/
def frameKib (p : ModelProgram) (pg : Page) : Nat := ceilDiv (pageBytes p pg) 1024

/-! ### The page map, its blocks and the page table (R70, R74, R75, R221, R222, R228) -/

/-- Handles in a leaf (R221), bytes of a leaf block, and of a duplicate window (Table 3-9). -/
def leafHandles : Nat := 2048
def leafKib : Nat := 64
def windowSize : Nat := 1088

/-- KV heads of a session's pages: the model's, or a shard's own (R172). -/
def headsOf (p : ModelProgram) (x : Session) : Nat := x.heads.getD p.kvHeads

/-- The first KV head and the KV heads that this package's participants of a model's group hold (R172); they share one entry (log entry 191). -/
def ownHeads (s : State) (model : Nat) : Option (Nat × Nat) :=
  match s.rack.groups.find? fun g => g.model == model && !g.torn with
  | none => none
  | some g =>
    let own := g.parts.filter fun p => p.package == s.rack.num
    own.head?.map fun a => (a.firstHead, (own.map Participant.heads).sum)

/-- M, the map blocks of a session (Table 2-9). -/
def mapBlocks (x : Session) : Nat := ceilDiv (rowsOf x.w) 64

/-- Bytes of a map row (R75), and of the header block with its index (R74). -/
def mapRowSize (p : ModelProgram) : Nat := ceilDiv (64 + 5 * (kvLayers p).length) 64 * 64
def headerSize (p : ModelProgram) (x : Session) : Nat :=
  let m := mapBlocks x
  64 + ceilDiv ((m + (kvLayers p).length * m + (recShapes p).length * (1 + x.snapshots.length)) * 5) 64 * 64

/-- Bytes of one recurrent block. -/
def blockSize (b : RecBlock) : Nat := (b.heads.map List.length).sum * 4

/-- The blocks that a session's content calls for beside its pages (R70, R74, R75): the header and the map blocks, the pattern blocks, the
recurrent blocks, the snapshots' and the window block. -/
def wantedBlks (p : ModelProgram) (x : Session) : List Blk :=
  let m := mapBlocks x
  [{ kind := 4, index := 0, size := headerSize p x }] ++
    (List.range m).map (fun i => { kind := 4, index := i + 1, size := 64 * mapRowSize p }) ++
    ((kvLayers p).map fun l => (List.range m).map fun i => ({ kind := 5, layer := l, index := i, size := 64 * 16 * headsOf p x } : Blk)).flatten ++
    x.blocks.map (fun b => { kind := 2, layer := b.layer, size := blockSize b }) ++
    (x.snapshots.map fun n => n.blocks.map fun b => ({ kind := 3, layer := b.layer, index := n.pos, size := blockSize b } : Blk)).flatten ++
    [{ kind := 6, size := windowSize }]

/-- Whether two blocks are the same block of a session. -/
def sameBlk (a b : Blk) : Bool := a.kind == b.kind && a.layer == b.layer && a.index == b.index

/-- A session's blocks brought to what its content calls for: one that stands keeps its handle and, its size unchanged in whole KiB, its
frames; a new one has none yet. -/
def fitBlks (p : ModelProgram) (x : Session) : Session :=
  let keep := fun (w : Blk) =>
    match x.blks.find? (sameBlk w) with
    | none => w
    | some b => if ceilDiv b.size 1024 = ceilDiv w.size 1024 then { b with size := w.size } else { w with handle := b.handle }
  { x with blks := (wantedBlks p x).map keep }

/-- Whether a block is one of those kept twice in T1 (R222): map blocks, header and window. -/
def twice (b : Blk) : Bool := b.kind == 4 || b.kind == 6

/-- The block of a kind and index that stands for a session in Table 2-7. -/
def blkHandle (kind index : Nat) (x : Session) : Nat := ((x.blks.find? fun b => b.kind == kind && b.index == index).map Blk.handle).getD 0
def mapHandle (x : Session) : Nat := blkHandle 4 0 x
def windowHandle (x : Session) : Nat := blkHandle 6 0 x

/-- A row of the page map (R75): the sixteen token identifiers, 0xFFFF_FFFE where a position is not written, and the page handle of each
attention layer. -/
def mapRow (p : ModelProgram) (x : Session) (r : Nat) : List Nat × List Nat :=
  ((List.range 16).map fun i => if 16 * r + i < x.w then (x.tokens[16 * r + i]?).getD 0xFFFFFFFE else 0xFFFFFFFE,
   (kvLayers p).map fun l => ((x.pages.find? fun g => g.row == r && g.layer == l).map Page.handle).getD 0)

/-- The bytes of a row of the page map: identifiers, handles, padding to a multiple of 64 (R75). -/
def mapRowBytes (p : ModelProgram) (x : Session) (r : Nat) : List Byte :=
  let m := mapRow p x r
  padTo (mapRowSize p) (m.1.flatMap (leBytes 4) ++ m.2.flatMap (leBytes 5))

/-- The page handles of the header's block index, in order: map blocks, each attention layer's pattern blocks, recurrent blocks, and each
snapshot set's, the oldest first (R74). -/
def blockIndex (x : Session) : List Nat :=
  let of := fun (kind : Nat) => (x.blks.filter fun b => b.kind == kind && !(kind == 4 && b.index == 0))
  ((of 4).map Blk.handle) ++ ((of 5).map Blk.handle) ++ ((of 2).map Blk.handle) ++ ((of 3).map Blk.handle)

/-- The bytes of the page-map header block with its index (Table 2-9, R74). -/
def headerBytes (p : ModelProgram) (x : Session) : List Byte :=
  let h := x.header.getD (x.p, x.w, x.pendingTok)
  let oldest := x.snapshots.map Snapshot.pos
  let idx := (blockIndex x).flatMap (leBytes 5)
  leBytes 8 x.handle ++ leBytes 2 x.model ++ leBytes 2 (kvLayers p).length ++ leBytes 2 (recShapes p).length ++ leBytes 1 (headsOf p x) ++
    leBytes 1 (formatOf p ((kvLayers p).headD 0)) ++ leBytes 4 h.1 ++ leBytes 4 h.2.1 ++ leBytes 4 (h.2.2.getD 0xFFFFFFFF) ++ leBytes 4 (rowsOf h.2.1) ++
    leBytes 2 (mapBlocks x) ++ leBytes 2 x.snapshots.length ++ leBytes 4 (oldest.foldl min (oldest.headD 0xFFFFFFFF)) ++ zeros 24 ++
    padTo (ceilDiv idx.length 64 * 64) idx

/-- KiB of a session's tables in T1: patterns, and twice its map blocks, header, window and leaves (R222, R228). -/
def tableKib (p : ModelProgram) (x : Session) : Nat :=
  let rows := rowsOf x.w
  let l := (kvLayers p).length
  let m := mapBlocks x
  let handles := rows * l + l * m + m + 2 + (recShapes p).length * (1 + x.snapshots.length)
  ceilDiv (l * m * 64 * 16 * headsOf p x) 1024 + 2 * (ceilDiv (headerSize p x) 1024 + ceilDiv (m * 64 * mapRowSize p) 1024) + 2 * 2 +
    2 * leafKib * ceilDiv handles leafHandles

/-- Whether a session's content is in T1 (Table 2-5). -/
def resident (x : Session) : Bool := x.state == .opened || x.state == .active || x.state == .waitingTool

/-! ### The copies of a session's objects -/

/-- The copies of one object of a session: its size in KiB, its T1 frames, its T2 addresses with their pools, and its H copy. -/
structure Place where
  kib    : Nat
  inT1   : Bool
  frame  : Nat
  frame2 : Option Nat
  first  : Bool
  second : Bool
  lower0 : Nat
  lower1 : Nat
  pools  : List Nat
  inH    : Bool
  hLink  : Nat
  deriving DecidableEq, Repr

/-- The copies of a page, of another block and of a leaf. -/
def pagePlace (p : ModelProgram) (g : Page) : Place :=
  { kib := frameKib p g, inT1 := g.inT1, frame := g.frame, frame2 := none, first := g.first, second := g.second, lower0 := g.lower0
    lower1 := g.lower1, pools := g.pools, inH := g.inH, hLink := g.hLink }
def blkPlace (b : Blk) : Place :=
  { kib := ceilDiv b.size 1024, inT1 := b.inT1, frame := b.frame, frame2 := if twice b then some b.frame2 else none, first := b.first
    second := b.second, lower0 := b.lower0, lower1 := b.lower1, pools := b.pools, inH := b.inH, hLink := b.hLink }
def leafPlace (l : Leaf) : Place :=
  { kib := leafKib, inT1 := !l.frozen, frame := l.frame, frame2 := some l.frame2, first := l.frozen, second := l.second, lower0 := l.lower0
    lower1 := l.lower1, pools := l.pools, inH := false, hLink := 0 }

/-- The copies of every object of a session. -/
def placesOf (s : State) (x : Session) : List Place :=
  match sessProg s x with
  | none => []
  | some p => x.pages.map (pagePlace p) ++ x.blks.map blkPlace ++ x.leaves.map leafPlace

/-- KiB that an object takes of T1 (R222). -/
def placeKib (c : Place) : Nat := if c.inT1 then c.kib * (if c.frame2.isSome then 2 else 1) else 0

/-- KiB a session takes of T1 now. -/
def sessKib (s : State) (x : Session) : Nat := ((placesOf s x).map placeKib).sum

/-! ### T1 (R223, R228) -/

/-- KiB of T1 in service on a die: 48 GiB per stack less the regions retired (Table 7-1, R242). -/
def t1Kib (s : State) (d : Nat) : Nat :=
  match findDie s d with
  | none => 0
  | some x => x.stacksIn.countP id * 48 * 1048576 - countOf s.tiers.retired d * 64

/-- Regions retired on a die: those of stacks in service, and every region of a stack that failed whole (R242). -/
def regionsRetired (s : State) (d : Nat) : Nat :=
  countOf s.tiers.retired d + match findDie s d with
    | none => 0
    | some x => if x.failed then 0 else stackRegions * x.stacksIn.countP (· == false)

/-- The reserve of Table 7-5 on each die, in KiB. -/
def reserveKib (p : Part) : Nat :=
  match p with | .tsn8840 => 11 * 1048576 / 4 | .tsn4420 => 15 * 1048576 / 4

/-- Bytes of a model's tensors that its window and its non-block tensors hold in T1 (R207). A directory entry's block number counts the
encoder blocks first, then the decoder blocks (log entry 177). -/
def windowBytesOf (m : Model) : Nat :=
  match m.program with
  | none => 0
  | some p =>
    let blockOf := fun (b : Nat) => ((p.tensors.filter fun t => t.block == b).map TensorEntry.length).sum
    let enc := p.encoders.length
    let dec := (List.range p.decoders.length).map fun i => blockOf (enc + i)
    let other := ((p.tensors.filter fun t => t.block == 0xFFFF || decide (t.block < enc)).map TensorEntry.length).sum
    other + if m.window = 0 then dec.sum else m.window * dec.foldl max 0

/-- HBM stack n is fitted and in service (Table 16-3). -/
def stackOn (s : State) (n : Nat) : Bool :=
  decide (n / 6 < scCount s.part) && (findDie s (n / 6)).any fun d => !d.failed && flagAt d.stacksIn (n % 6)

/-- Stacks of a die that a partition has and that are in service (Table 16-2). -/
def partStacks (s : State) (partition d : Nat) : Nat :=
  match findPart s partition with
  | none => 0
  | some p => (List.range 6).countP fun k => bitAt p.stackSet (6 * d + k) && stackOn s (6 * d + k)

/-- KiB of weight windows and non-block tensors on a die: those of each bound or binding model are interleaved over every stack of its
partition (R227). -/
def weightKib (s : State) (d : Nat) : Nat :=
  ((s.models.filter fun m => m.state == 2 || m.state == 1).map fun m =>
    let all := ((List.range (scCount s.part)).map (partStacks s m.partition)).sum
    ceilDiv (windowBytesOf m * partStacks s m.partition d) (1024 * max 1 all)).sum

/-- The committed placement of an object: kind 1 model, 2 sessions of a tenant, 3 recall index (Table 7-6). -/
def placementOf (s : State) (kind partition owner index : Nat) : Placement :=
  (s.tiers.placements.find? fun p => p.kind == kind && p.partition == partition && p.owner == owner && p.index == index).getD
    { kind := kind, partition := partition, owner := owner, index := index }

/-- The SC dies joined to a hub (Table 1-1, R275). -/
def hubDies (p : Part) (hub : Nat) : List Nat :=
  match p with | .tsn8840 => if hub = 0 then [0, 1] else [2, 3] | .tsn4420 => [0, 1]

/-- Bytes of a node block of a width (Table 10-3). -/
def nodeBytes (width : Nat) : Nat := match width with | 0 => 448 | 1 => 512 | _ => 576

/-- KiB of recall tables on a die, with node blocks where the placement keeps them in T1: interleaved over the dies of the shard's hub
(R312). -/
def recallKib (s : State) (d : Nat) : Nat :=
  ((s.rcl.shards.filter fun h => (hubDies s.part h.item.hub).contains d).map fun h =>
    let i := h.item
    let blocks := if (placementOf s 3 i.partition i.tenant i.index).residentT1 then i.capacity * nodeBytes i.width else 0
    ceilDiv (i.capacity * 16 + ceilDiv (i.capacity * 4) 3 * 16 + blocks) (1024 * (hubDies s.part i.hub).length)).sum

/-- KiB of an owner region (R219). -/
def regionKib : Nat := 64

/-- What an object of `kib` takes: whole regions where it is larger than one (R219). -/
def span (kib : Nat) : Nat := if kib ≤ regionKib then kib else ceilDiv kib regionKib * regionKib

/-- The space of a manager's rack directory in T1, which lies on die 0 (R418; log entry 219). -/
def directoryKib (s : State) (d : Nat) : Nat := if d = 0 then ceilDiv (16 * s.rack.directory.length) 1024 else 0

/-- KiB in use on a die. -/
def t1Used (s : State) (d : Nat) : Nat :=
  reserveKib s.part + weightKib s d + recallKib s d + directoryKib s d + ((s.sess.filter fun x => x.homeDie == d).map (sessKib s)).sum +
    ((s.tiers.fetches.filter fun f => f.frame != noFrame && f.frame / 2 ^ 29 == d).map fun f => span f.kib).sum +
    (((s.rack.groups.map MGroup.lands).flatten.filter fun w => w.frame != noFrame && w.frame / 2 ^ 29 == d).map fun w => span w.kib).sum

/-- Free KiB on a die. -/
def t1Free (s : State) (d : Nat) : Nat := t1Kib s d - t1Used s d

/-- SC dies that hold an enabled cluster of a partition (R227). -/
def partDies (s : State) (partition : Nat) : List Nat :=
  (s.dies.filter fun d =>
    decide (d.num < scCount s.part) && !d.failed &&
      (List.range 8).any fun i =>
        (match d.logical[i]? with | some (some _) => true | _ => false) &&
          (match findPart s partition with | some p => bitAt p.clusters (8 * d.num + i) | none => false)).map ScDie.num

/-- The home die for a session of a partition: the one with the most free T1 (R227); of dies with equal free T1 the lowest-numbered (log
entry 178). -/
def chooseDie (s : State) (partition : Nat) : Nat :=
  (partDies s partition).foldl (fun best d => if t1Free s best < t1Free s d then d else best) ((partDies s partition).headD 0)

/-! ### T2 and H -/

/-- Pools an object may use, whole or failed (R224). -/
def allowedPools (s : State) (p : Placement) : List Pool :=
  s.tiers.pools.filter fun q => q.partition == p.partition && decide (0 < q.extents) && bitAt p.pools q.num

/-- Bytes of a model's weights in a pool: a bind takes its space when it commits (R202, R205). -/
def weightsIn (n : Nat) (m : Model) : Nat := ((m.pools.flatten.filter fun h => h.1 == n).map Prod.snd).sum

/-- Bytes of copies in a pool. -/
def poolUsed (s : State) (n : Nat) : Nat :=
  (s.sess.map fun x => ((placesOf s x).map fun c => 1024 * c.kib * c.pools.count n).sum).sum + (s.models.map (weightsIn n)).sum +
  ((s.tiers.freed.filter fun f => f.1 == n).map fun f => f.2.1).sum +
  (s.rcl.shards.map fun h => (h.slabs.map fun b => 65536 * b.pools.count n).sum).sum

/-- Free bytes of a pool. -/
def poolFree (s : State) (q : Pool) : Nat := if q.failed || q.leaving then 0 else q.extents * 2 ^ 30 - poolUsed s q.num

/-- Pools with room for `bytes`, other than those in `not`. -/
def roomyPools (s : State) (p : Placement) (bytes : Nat) (avoid : List Nat) : List Nat :=
  ((allowedPools s p).filter fun q => !q.failed && !q.leaving && decide (bytes ≤ poolFree s q) && !avoid.contains q.num).map Pool.num

/-- One pool taken among those permitted: which is open (R225). -/
def pickPool (s : State) (l : List Nat) : Option Nat :=
  match l with
  | [q] => some q
  | l => l[Config.freeLower s.free % max 1 l.length]?

/-- `n` different pools for copies of `bytes`, or none where there are not enough. -/
def pickPools (p : Placement) (bytes : Nat) : Nat → List Nat → State → Option (List Nat)
  | 0, got, _ => some got
  | n + 1, got, s =>
    match pickPool s (roomyPools s p bytes got) with
    | none => none
    | some q => pickPools p bytes n (got ++ [q]) (drawFree s)

/-! ### Weights in T2 (R202, R225, R240) -/

/-- The number that stands for bytes which no pool holds. -/
def noPool : Nat := 0xFFFF

/-- Bytes laid over pools with room, each pool holding at most one copy's worth, so that no byte's two copies lie in one pool (R225). -/
def layShares (bytes : Nat) : Nat → List (Nat × Nat) → List (Nat × Nat)
  | 0, _ => []
  | _, [] => []
  | need, q :: qs =>
    let n := min need (min q.2 bytes)
    (if n = 0 then [] else [(q.1, n)]) ++ layShares bytes (need - n) qs

/-- The first `n` bytes of a run of shares, and the rest. -/
def cutShares : Nat → List (Nat × Nat) → List (Nat × Nat) × List (Nat × Nat)
  | 0, l => ([], l)
  | _, [] => ([], [])
  | n, h :: hs =>
    if h.2 ≤ n then let r := cutShares (n - h.2) hs; (h :: r.1, r.2)
    else ([(h.1, n)], (h.1, h.2 - n) :: hs)

/-- Shares divided into copies of `bytes`. -/
def splitCopies (bytes : Nat) : Nat → List (Nat × Nat) → List (List (Nat × Nat))
  | 0, _ => []
  | c + 1, l => (cutShares bytes l).1 :: splitCopies bytes c (cutShares bytes l).2

/-- Space for each T2 copy of a model's weights in the permitted pools, from an open one on (R225); none where it does not fit. -/
def spreadCopies (s : State) (p : Placement) (bytes copies : Nat) : Option (List (List (Nat × Nat))) :=
  let room := ((allowedPools s p).map fun q => (q.num, poolFree s q)).rotateLeft (Config.freeLower s.free)
  let shares := layShares bytes (bytes * copies) room
  if (shares.map Prod.snd).sum = bytes * copies then some (splitCopies bytes copies shares) else none

/-- The weight bytes of each tensor: its first and the one past its last, in directory order. -/
def tensorSpans (p : ModelProgram) : List (Nat × Nat) :=
  (p.tensors.foldl (fun (acc : Nat × List (Nat × Nat)) t => (acc.1 + t.length, acc.2 ++ [(acc.1, acc.1 + t.length)])) (0, [])).2

/-- Whether some byte of a span of a copy is held by no pool. -/
def spanLost (copy : List (Nat × Nat)) (span : Nat × Nat) : Bool :=
  (copy.foldl (fun (acc : Nat × Bool) h =>
    (acc.1 + h.2, acc.2 || (h.1 == noPool && decide (acc.1 < span.2) && decide (span.1 < acc.1 + h.2)))) (0, false)).2

/-- Whether every copy of some tensor is lost (R240). -/
def weightsGone (m : Model) : Bool :=
  !m.pools.isEmpty && ((m.program.elim [] tensorSpans).any fun t => decide (t.1 < t.2) && m.pools.all fun c => spanLost c t)

/-- Weights that no pool holds written into permitted pools with room, a part at a time, away from the pools of the other copies (R240); what
finds none waits. A bind that found no space takes it as a whole (R225). -/
def placeWeights (n : Nat) (s : State) : State :=
  match findModel s n with
  | none => s
  | some m =>
    let pl := placementOf s 1 m.partition m.num 0
    if m.state = 1 ∧ m.pools.isEmpty then
      match m.program.bind fun p => spreadCopies s pl (tensorBytes p) m.copies with
      | some ps => onModel n (fun x => { x with pools := ps }) (drawFree s)
      | none => s
    else if (m.state = 1 ∨ m.state = 2) ∧ m.pools.flatten.any (fun h => h.1 == noPool) then
      let part := fun (k : Nat) (acc : List (Nat × Nat) × State) (h : Nat × Nat) =>
        if h.1 ≠ noPool then (acc.1 ++ [h], acc.2)
        else
          let others := ((((findModel acc.2 n).elim [] Model.pools).eraseIdx k).flatten).map Prod.fst
          match pickPool acc.2 (roomyPools acc.2 pl h.2 others) with
          | some q => (acc.1 ++ [(q, h.2)], drawFree acc.2)
          | none => (acc.1 ++ [h], acc.2)
      let whole := forEach (List.range m.pools.length) (fun k t =>
        let r := ((((findModel t n).elim [] Model.pools).getD k []).foldl (part k) ([], t))
        onModel n (fun x => { x with pools := x.pools.set k r.1 }) r.2) s
      onModel n (fun x => { x with copyLost := x.pools.flatten.any fun h => h.1 == noPool }) whole
    else s

/-- Every model's weights that wait for space. -/
def placeAllWeights (s : State) : State := forEach (s.models.map Model.num) placeWeights s

/-- T2 copies that a durability class requires of a cast page (Table 2-1) and of a frozen copy (R226). -/
def castCopies (durability : Nat) : Nat := if durability = 1 then 2 else 1
def frozenCopies (durability : Nat) : Nat := if durability = 0 then 1 else 2

/-- Bytes of copies in an H region. -/
def hUsed (s : State) (partition link : Nat) : Nat :=
  ((s.sess.filter fun x => ((findTen s x.tenant).map Tenant.partition) == some partition).map fun x =>
    (((placesOf s x).filter fun c => c.inH && c.hLink == link).map fun c => 1024 * c.kib).sum).sum

/-- Copies released while a committed checkpoint may refer to them: their space stays in use until newer checkpoints have committed
in both slots (R434). -/
def releasePlaces (cs : List Place) (s : State) : State :=
  if s.chk.slot0.isNone && s.chk.slot1.isNone then s
  else
    let num := (s.chk.slot0.toList ++ s.chk.slot1.toList).foldl (fun a c => max a c.number) 0
    let held := (cs.map fun c => c.pools.map fun n => (n, 1024 * c.kib, num)).flatten
    { s with tiers := { s.tiers with freed := s.tiers.freed ++ held } }
def releasePages (p : Option ModelProgram) (pgs : List Page) (s : State) : State :=
  match p with
  | none => s
  | some q => releasePlaces (pgs.map (pagePlace q)) s

/-! ### Taking space (R214, R216 to R220): the lowest that fits (log entry 179) -/

/-- Whether space from `a` on overlaps something taken. -/
def overlaps (taken : List (Nat × Nat)) (a n : Nat) : Bool := taken.any fun k => decide (a < k.1 + k.2) && decide (k.1 < a + n)

/-- The lowest place of `n` units in `base` to `limit` that overlaps nothing taken. -/
def lowestFree (taken : List (Nat × Nat)) (n base limit : Nat) : Option Nat :=
  (sortBy id (base :: taken.map fun k => k.1 + k.2)).find? fun a =>
    decide (base ≤ a) && decide (a + n ≤ limit) && !overlaps taken a n

/-- The lowest run of whole free regions for `n` KiB in `base` to `limit`. -/
def lowestRun (taken : List (Nat × Nat)) (n base limit : Nat) : Option Nat :=
  let up := fun (a : Nat) => ceilDiv a regionKib * regionKib
  (sortBy id ((base :: taken.map fun k => k.1 + k.2).map up)).find? fun a =>
    decide (base ≤ a) && decide (a + n ≤ limit) && !overlaps taken a (ceilDiv n regionKib * regionKib)

/-- The owner tags of a unit of a tier that name a tenant. -/
def ownRegions (s : State) (tier unit tenant : Nat) : List Nat :=
  sortBy id ((s.tiers.owners.filter fun o => o.tier == tier && o.unit == unit && o.owner == tenant).map Owner.region)

/-- A place of `kib` for a tenant: within a region of its own that has room, otherwise at the start of free regions (R219). -/
def placeFor (s : State) (tier unit tenant : Nat) (taken : List (Nat × Nat)) (kib base limit : Nat) : Option Nat :=
  let own := if kib ≤ regionKib then
      (ownRegions s tier unit tenant).findSome? fun r =>
        if base ≤ r * regionKib then lowestFree taken kib (r * regionKib) (min limit ((r + 1) * regionKib)) else none
    else none
  match own with
  | some a => some a
  | none => lowestRun taken kib base limit

/-- Regions given to a tenant: one that another had, or none, is zero-filled first (R220). -/
def tagRegions (tier unit tenant : Nat) (regions : List Nat) (s : State) : State :=
  let tag := fun (os : List Owner) (r : Nat) =>
    match os.find? fun o => o.tier == tier && o.unit == unit && o.region == r with
    | none => os ++ [{ tier := tier, unit := unit, region := r, owner := tenant, fills := 1 }]
    | some _ => os.map fun o =>
        if o.tier = tier ∧ o.unit = unit ∧ o.region = r ∧ o.owner ≠ tenant then { o with owner := tenant, fills := o.fills + 1 } else o
  { s with tiers := { s.tiers with owners := regions.foldl tag s.tiers.owners } }

/-- The regions that `kib` from `a` on lie in. -/
def regionsOf (a kib : Nat) : List Nat := (List.range (ceilDiv kib regionKib)).map (a / regionKib + ·)

/-- The KiB taken on a die: the T1 copies of every session, the regions retired, those of stack k of a die after those of the stacks
before it, and the stacks out of service (R242; log entry 179). -/
def t1Taken (s : State) (d : Nat) : List (Nat × Nat) :=
  let here : Nat → Nat → List (Nat × Nat) := fun f kib => if f ≠ noFrame ∧ f / 2 ^ 29 = d then [(f % 2 ^ 29, span kib)] else []
  let of := fun (c : Place) => if c.inT1 then here c.frame c.kib ++ (c.frame2.elim [] fun f => here f c.kib) else []
  let gone := (((hrGoverning s.nor).elim [] HealthRec.regions).filter fun r => decide (r.1 / 6 = d)).map fun r =>
    ((r.1 % 6) * 48 * 1048576 + r.2 * regionKib, regionKib)
  let out := ((List.range 6).filter fun k => (findDie s d).any fun x => !flagAt x.stacksIn k).map fun k => (k * 48 * 1048576, 48 * 1048576)
  ((s.sess.map fun x => ((placesOf s x).map of).flatten).flatten) ++ (s.tiers.fetches.map fun f => here f.frame f.kib).flatten ++
    ((s.rack.groups.map MGroup.lands).flatten.map fun w => here w.frame w.kib).flatten ++ gone ++ out

/-- KiB of a stack. -/
def stackKib : Nat := 48 * 1048576

/-- The first KiB of a die's T1 beyond its share of the reserve. -/
def t1Base (s : State) : Nat := ceilDiv (reserveKib s.part) regionKib * regionKib

/-- A T1 frame of `kib` on a die for an owner (R216, R219, R220), at or after `base`. -/
def takeT1 (die owner kib base : Nat) (s : State) : Nat × State :=
  let unit := (placeFor s 1 die owner (t1Taken s die) kib base (2 ^ 29)).getD base
  (die * 2 ^ 29 + unit, tagRegions 1 die owner (regionsOf unit kib) s)

/-- The owner tag of a region that no tenant owns (R463). -/
def noOwner : Nat := 0xFFFF

/-- A T1 frame on a session's home die. -/
def takeFrameAt (x : Session) (kib base : Nat) (s : State) : Nat × State := takeT1 x.homeDie x.tenant kib base s

/-- A frame for the first T1 copy of an object, and one on another stack for its second (R222). -/
def takeFrame (x : Session) (kib : Nat) (s : State) : Nat × State := takeFrameAt x kib (t1Base s) s
def takeFrame2 (x : Session) (frame kib : Nat) (s : State) : Nat × State :=
  let stack := (frame % 2 ^ 29 / stackKib + 1) % 6
  takeFrameAt x kib (max (t1Base s) (stack * stackKib)) s

/-- The KiB taken in an extent slot: the T2 copies that lie in it. -/
def t2Taken (s : State) (slot : Nat) : List (Nat × Nat) :=
  let here : Nat → Nat → List (Nat × Nat) := fun a kib => if a ≠ noAddress ∧ a / 2 ^ 30 = slot then [(a % 2 ^ 30 / 1024, span kib)] else []
  let of : Place → List (Nat × Nat) := fun c => (if c.first then here c.lower0 c.kib else []) ++ (if c.second then here c.lower1 c.kib else [])
  (s.sess.map fun x => ((placesOf s x).map of).flatten).flatten ++
    (s.rcl.shards.map fun h => (h.slabs.map fun b => (b.lowers.map fun a => here a regionKib).flatten).flatten).flatten

/-- A T2 byte address of `kib` in the extents of a pool for a tenant (R217, R219, R220): of the lowest slot that has room. -/
def takeLower (tenant pool kib : Nat) (s : State) : Nat × State :=
  let slots := sortBy id ((s.tiers.extents.filter fun e => e.pool == pool).map Extent.slot)
  let found := slots.findSome? fun k => (placeFor s 2 k tenant (t2Taken s k) kib 0 1048576).map fun a => (k, a)
  match found with
  | some f => (f.1 * 2 ^ 30 + f.2 * 1024, tagRegions 2 f.1 tenant (regionsOf f.2 kib) s)
  | none => (noAddress, s)

/-- The KiB taken in the H region of a partition on a link. -/
def hTaken (s : State) (partition link : Nat) : List (Nat × Nat) :=
  let of : Place → List (Nat × Nat) := fun c => if c.inH ∧ c.hLink = link ∧ c.lower1 ≠ noAddress then [(c.lower1 % 2 ^ 63 / 1024, span c.kib)] else []
  ((s.sess.filter fun x => ((findTen s x.tenant).map Tenant.partition) == some partition).map fun x => ((placesOf s x).map of).flatten).flatten

/-- The address of an H copy (R218): bit 63 the link, and the byte offset in the partition's region on it. -/
def takeH (tenant partition link kib : Nat) (s : State) : Nat × State :=
  let unit := partition * 2 + link
  let a := (placeFor s 3 unit tenant (hTaken s partition link) kib 0 (2 ^ 53)).getD 0
  (link * 2 ^ 63 + a * 1024, tagRegions 3 unit tenant (regionsOf a kib) s)

/-- Space for every copy of an object that has none yet. -/
def seatPlace (x : Session) (partition : Nat) (c : Place) (s : State) : Place × State :=
  let r1 := if c.inT1 && c.frame == noFrame then takeFrame x c.kib s else (c.frame, s)
  let r2 := match c.frame2 with
    | some f => if c.inT1 && f == noFrame then ((takeFrame2 x r1.1 c.kib r1.2).1, (takeFrame2 x r1.1 c.kib r1.2).2) else (f, r1.2)
    | none => (noFrame, r1.2)
  let r3 := if c.first && c.lower0 == noAddress then takeLower x.tenant (c.pools.headD 64) c.kib r2.2 else (c.lower0, r2.2)
  let r4 := if c.second && c.lower1 == noAddress then takeLower x.tenant ((c.pools[1]?).getD 64) c.kib r3.2
    else if c.inH && c.lower1 == noAddress then takeH x.tenant partition c.hLink c.kib r3.2 else (c.lower1, r3.2)
  ({ c with frame := r1.1, frame2 := c.frame2.map fun _ => r2.1, lower0 := r3.1, lower1 := r4.1 }, r4.2)

/-! ### Recall data in T2 (R225, R310, R313, R314) -/

/-- A slab given as many copies in T2 as its index item asks, in permitted pools with room; one that finds none waits. -/
def seatSlab (h : Shard) (b : Slab) (s : State) : Slab × State :=
  if b.pools ≠ [] then (b, s)
  else match pickPools (placementOf s 3 h.item.partition h.item.tenant h.item.index) (1024 * regionKib) (max 1 h.item.copies) [] s with
    | none => (b, s)
    | some ps =>
      let r := ps.foldl (fun (acc : List Nat × State) q =>
        let a := takeLower h.item.tenant q regionKib acc.2
        (acc.1 ++ [a.1], a.2)) (([] : List Nat), drawFree s)
      ({ b with pools := ps, lowers := r.1 }, r.2)

/-- Every slab of the indexes that lie in T2 seated. -/
def seatSlabs (s : State) : State :=
  let one := fun (acc : List Shard × State) (h : Shard) =>
    if (placementOf acc.2 3 h.item.partition h.item.tenant h.item.index).residentT1 then (acc.1 ++ [h], acc.2)
    else
      let r := h.slabs.foldl (fun (a : List Slab × State) b => let k := seatSlab h b a.2; (a.1 ++ [k.1], k.2)) (([] : List Slab), acc.2)
      (acc.1 ++ [{ h with slabs := r.1 }], { r.2 with rcl := { r.2.rcl with shards := acc.1 ++ { h with slabs := r.1 } :: s.rcl.shards.drop (acc.1.length + 1) } })
  (s.rcl.shards.foldl one (([] : List Shard), s)).2

/-! ### Extents (R211, R217, R220) -/

/-- Slots of the T2 address space with no extent, in ascending order, as many as are asked for. -/
def freeSlots (s : State) (n : Nat) : List Nat :=
  ((List.range (min (extentLimit s.part) (s.tiers.extents.length + n))).filter fun k => !(s.tiers.extents.any fun e => e.slot == k)).take n

/-- An extent cleared whole before it goes back to its bridge (R220): each of its tagged regions is zero-filled. -/
def clearExtents (slots : List Nat) (s : State) : State :=
  { s with tiers := { s.tiers with owners := s.tiers.owners.map fun o =>
      if o.tier = 2 ∧ slots.contains o.unit then { o with fills := o.fills + 1 } else o } }

/-- A pool's extents brought to its grant: new ones take the lowest free slots; those beyond the grant in which nothing lies are cleared and
released, and the others stay (R217, R220; log entry 179). A grant past the part's address space brings no more than there are slots (R211). -/
def fitPool (n : Nat) (s : State) : State :=
  match s.tiers.pools.find? fun q => q.num == n with
  | none => s
  | some q =>
    let mine := s.tiers.extents.filter fun e => e.pool == n
    let more := freeSlots s (q.extents - mine.length)
    let fresh := more.mapIdx fun i k => ({ slot := k, pool := n, address := Config.extentAddress n (mine.length + i) } : Extent)
    let spare := (mine.filter fun e => (t2Taken s e.slot).isEmpty).reverse.take (mine.length - q.extents)
    let s1 := clearExtents (spare.map Extent.slot) s
    let es := (s1.tiers.extents.filter fun e => !spare.contains e) ++ fresh
    { s1 with tiers := { s1.tiers with
        extents := es
        pools := s1.tiers.pools.map fun k => if k.num = n then { k with extents := es.countP fun e => e.pool == n } else k } }

/-- Every pool's extents brought to its grant; those of pools that are gone are released. -/
def fitExtents (s : State) : State :=
  let gone := s.tiers.extents.filter fun e => !(s.tiers.pools.any fun q => q.num == e.pool)
  let s1 := clearExtents (gone.map Extent.slot) { s with tiers := { s.tiers with extents := s.tiers.extents.filter fun e => !gone.contains e } }
  seatSlabs (placeAllWeights (forEach (s1.tiers.pools.map Pool.num) fitPool s1))

/-- The destination that marks a report of a pool's released extents: the model's (log entry 84). -/
def releasedPool : Nat := 0xFFFE

/-- A pool's release reported towards the fabric manager (R426). -/
def reportRelease (pool extents : Nat) (s : State) : State :=
  let m := managerOf s s.rack.num
  if inDomain s && m != s.rack.num then sendMgr m 16 0 [s.rack.num, releasedPool, pool, extents] [] [] s else s

/-- Pools that leave and hold nothing any more are gone, and their extents with them (R220, R426). -/
def settleLeaving (s : State) : State :=
  if s.tiers.pools.any fun q => q.leaving && poolUsed s q.num == 0 then
    fitExtents <| forEach (s.tiers.pools.filter fun q => q.leaving && poolUsed s q.num == 0) (fun q => reportRelease q.num q.extents) { s with tiers := { s.tiers with pools := s.tiers.pools.filter fun q => !(q.leaving && poolUsed s q.num == 0) } }
  else s

/-! ### Movers and stream queues (R212) -/

/-- Units granted in order to each queue: no queue has more lines outstanding than its limit. -/
def pumpBy {α : Type} (key : α → Nat) (limit : Nat → Nat) (lines : α → Nat) (put : Nat → α → α) : List α → List (Nat × Nat) → List α
  | [], _ => []
  | a :: rest, used =>
    let q := key a
    let n := min (lines a) (limit q - countOf used q)
    put n a :: pumpBy key limit lines put rest (setCount used q (countOf used q + n))

/-- Lines outstanding at each mover, the oldest fetch first: 512 a mover. -/
def pumpFetches (fs : List Fetch) : List Fetch :=
  pumpBy (fun f => f.die * 8 + f.cluster) (fun _ => 512) (fun f => if f.held then 0 else f.lines) (fun n f => { f with out := n }) fs []

/-- Lines outstanding at each stream queue, the oldest transfer first: 4,096 a pool port, 8,192 a host link. -/
def pumpStreams (l : List Stream) : List Stream :=
  pumpBy Stream.queue (fun q => if q < 64 then 4096 else 8192) Stream.lines (fun n k => { k with out := n }) l []

/-- A bulk transfer put into its queue, unless it stands there. -/
def startStream (k : Stream) (s : State) : State :=
  if s.tiers.streams.any fun e => e.carries == k.carries && e.queue == k.queue then s
  else { s with tiers := { s.tiers with streams := pumpStreams (s.tiers.streams ++ [k]) } }

/-- A bulk transfer that has ended, or is not wanted any more. -/
def endStream (c : Carried) (s : State) : State :=
  { s with tiers := { s.tiers with streams := pumpStreams (s.tiers.streams.filter fun e => e.carries != c) } }

/-- The UP paths to a pool's bridge (R396). -/
def upPaths (s : State) (n : Nat) : List Nat :=
  ((s.tiers.pools.find? fun q => q.num == n).elim [] Pool.paths).filter fun k => (s.links.ports.find? fun p => p.num == k).any fun p => p.state == .up

/-- Of `lines` from T2 address `a` on, those that path `j` of `n` carries, 4 KiB going to each path in turn (R396). -/
def pathLines (a lines n j : Nat) : Nat :=
  let turn := (j + n - a / 4096 % n) % n
  lines / (64 * n) * 64 + min 64 (lines % (64 * n) - 64 * turn)

/-- A bulk transfer to or from a pool put into the stream queues of its UP paths (R212, R396; log entry 229). -/
def startPoolStream (pool a : Nat) (c : Carried) (lines : Nat) (s : State) : State :=
  let ps := upPaths s pool
  forEach (ps.mapIdx fun j q => (q, pathLines a lines ps.length j)) (fun e t =>
    if e.2 = 0 then t else startStream { queue := e.1, carries := c, lines := e.2 } t) s

/-! ### Handles (R70, R221) -/

/-- The handles a session uses: those of its pages and blocks. -/
def handlesOf (x : Session) : List Nat := x.pages.map Page.handle ++ x.blks.map Blk.handle

/-- The lowest leaf range that belongs to no session (R221; log entry 179). -/
def freeRange (s : State) : Nat :=
  let used := (s.sess.map fun x => x.leaves.map Leaf.range).flatten
  ((List.range (used.length + 1)).find? fun n => !used.contains n).getD 0

/-- A handle of a session's leaves that nothing of it refers to, in a new leaf where they are all in use; handle 0 names nothing. -/
def issueHandle (h : Nat) (s : State) : Nat × State :=
  match findSess s h with
  | none => (0, s)
  | some x =>
    let used := handlesOf x
    let inLeaf := fun (l : Leaf) =>
      ((List.range (min leafHandles (used.length + 2))).map (l.range * leafHandles + ·)).find? fun n => n != 0 && !used.contains n
    match x.leaves.findSome? inLeaf with
    | some n => (n, s)
    | none =>
      let r := freeRange s
      (r * leafHandles + (if r = 0 then 1 else 0), onSess h (fun y => { y with leaves := y.leaves ++ [{ range := r }] }) s)

/-- The top table's entry of a leaf range (R221): 0 for a free one, 0xFFFF_FFFF for a frozen one, else the frame of its leaf block. -/
def topEntry (s : State) (range : Nat) : Nat :=
  match (s.sess.map Session.leaves).flatten.find? fun l => l.range == range with
  | none => 0
  | some l => if l.frozen then noFrame else l.frame

/-- A change of one page, of one block, or of one leaf. -/
def onPage (h row layer : Nat) (f : Page → Page) (s : State) : State :=
  onSess h (fun x => { x with pages := x.pages.map fun g => if g.row = row ∧ g.layer = layer then f g else g }) s
def onBlk (h : Nat) (b : Blk) (f : Blk → Blk) (s : State) : State :=
  onSess h (fun x => { x with blks := x.blks.map fun k => if sameBlk k b then f k else k }) s
def onLeaf (h range : Nat) (f : Leaf → Leaf) (s : State) : State :=
  onSess h (fun x => { x with leaves := x.leaves.map fun k => if k.range = range then f k else k }) s

/-- A page with a handle and space for its copies. -/
def seatPage (h partition row layer : Nat) (s : State) : State :=
  match findSess s h with
  | none => s
  | some x =>
    match sessProg s x, x.pages.find? fun g => g.row == row && g.layer == layer with
    | some p, some g =>
      let r := if g.handle = 0 then issueHandle h s else (g.handle, s)
      let c := seatPlace x partition (pagePlace p g) r.2
      onPage h row layer (fun k => { k with handle := r.1, frame := c.1.frame, lower0 := c.1.lower0, lower1 := c.1.lower1 }) c.2
    | _, _ => s

/-- A block with a handle and space for its copies. -/
def seatBlk (h partition : Nat) (b : Blk) (s : State) : State :=
  match findSess s h with
  | none => s
  | some x =>
    let r := if b.handle = 0 then issueHandle h s else (b.handle, s)
    let c := seatPlace x partition (blkPlace b) r.2
    onBlk h b (fun k => { k with handle := r.1, frame := c.1.frame, frame2 := c.1.frame2.getD noFrame, lower0 := c.1.lower0
                                 lower1 := c.1.lower1 }) c.2

/-- A leaf with space for its blocks. -/
def seatLeaf (h partition : Nat) (l : Leaf) (s : State) : State :=
  match findSess s h with
  | none => s
  | some x =>
    let c := seatPlace x partition (leafPlace l) s
    onLeaf h l.range (fun k => { k with frame := c.1.frame, frame2 := c.1.frame2.getD noFrame, lower0 := c.1.lower0, lower1 := c.1.lower1 }) c.2

/-- Whether a page, a block or a leaf still needs a handle or space. -/
def unseated (c : Place) : Bool :=
  (c.inT1 && (c.frame == noFrame || c.frame2 == some noFrame)) || (c.first && c.lower0 == noAddress) ||
    ((c.second || c.inH) && c.lower1 == noAddress)

/-- A session's part of the page table brought up to its content: blocks as it calls for, every object with a handle, and space for each of its
copies (R70, R74, R75, R219, R221). -/
def seat (h : Nat) (s : State) : State :=
  match findSess s h with
  | none => s
  | some x =>
    match sessProg s x with
    | none => s
    | some p =>
      let partition := ((findTen s x.tenant).map Tenant.partition).getD 0
      let y := if x.state == .parked || x.state == .closed || x.state == .lost then { x with blks := [], leaves := [] }
        else if resident x then fitBlks p x else x
      let s1 := setSess y s
      let s2 := forEach (y.pages.filter fun g => g.handle == 0 || unseated (pagePlace p g)) (fun g t => seatPage h partition g.row g.layer t) s1
      let s3 := forEach (y.blks.filter fun b => b.handle == 0 || unseated (blkPlace b)) (seatBlk h partition) s2
      forEach (((findSess s3 h).elim [] Session.leaves).filter fun l => unseated (leafPlace l)) (seatLeaf h partition) s3

/-! ### The hold-up bound (R371 to R374, R435) -/

/-- The held output of a session: its tokens not yet delivered, with their positions and bytes (R289). -/
def heldOut (x : Session) : List (Nat × List Byte) := (x.request.map fun r => r.out.drop r.delivered).getD []

/-- Bytes of a session's request image, a multiple of 64 (Table 15-5). -/
def imageLength (x : Session) : Nat :=
  ceilDiv (144 + 65 * (x.request.map fun r => r.stops.length).getD 0 + ((heldOut x).map fun o => o.2.length).sum + (heldOut x).length +
    (utf8s x.text.tail).length + (utf8s x.text.piece).length) 64 * 64

/-- A session's request image (Table 15-5): zero where no request is in progress. With no token held, the first undelivered position is P
(log entry 199). -/
def requestImage (x : Session) : List Byte :=
  let r := x.request.getD { seq := 0, win := .function 0, maxTokens := 0 }
  let held := heldOut x
  let bytes := (held.map Prod.snd).flatten
  let tail := utf8s x.text.tail
  let piece := utf8s x.text.piece
  let late := r.dclass == 1 && r.allowance == 0
  let host := match x.call with | some (.host n) => some n | _ => none
  let onDevice := match x.call with | some (.onDevice n _) => some n | some (.result n _ _ _) => some n | _ => none
  let ctx := r.ctx.getD { state := 0 }
  padTo (imageLength x) <|
    leBytes 4 (imageLength x) ++ leBytes 4 r.seq ++ leBytes 8 r.clientTag ++ leBytes 4 r.maxTokens ++ leBytes 4 r.count ++ leBytes 2 r.mould ++
    leBytes 1 r.dclass ++ leBytes 1 r.greedy.toNat ++ leBytes 4 r.allowance ++ leBytes 2 r.temperature ++ leBytes 2 r.topP ++ leBytes 2 r.topK ++
    leBytes 1 r.stops.length ++
    leBytes 1 (x.request.isSome.toNat * 16 + late.toNat * 8 + r.paused.toNat * 4 + onDevice.isSome.toNat * 2 + host.isSome.toNat) ++
    leBytes 4 x.calls ++ leBytes 4 ((host.or onDevice).getD 0) ++ leBytes 2 ctx.state ++ leBytes 1 ctx.stack.length ++ zeros 1 ++
    padTo 64 (ctx.stack.reverse.map fun k => BitVec.ofNat 8 k) ++ leBytes 2 bytes.length ++ leBytes 2 held.length ++
    leBytes 4 ((held.head?.map Prod.fst).getD x.p) ++ zeros 4 ++ leBytes 8 x.text.offset ++ leBytes 1 x.text.pend.length ++ padTo 3 x.text.pend ++
    leBytes 2 tail.length ++ leBytes 2 piece.length ++ (r.stops.map fun t => leBytes 1 t.length ++ padTo 64 t).flatten ++ bytes ++
    held.map (fun o => BitVec.ofNat 8 o.2.length) ++ tail ++ piece

/-- Bytes of a session section of a checkpoint with its header (Table 15-2, kind 3). -/
def sectionBytes (s : State) (x : Session) : Nat :=
  match sessProg s x with
  | none => 0
  | some p =>
    if resident x || x.state == .moving then
      let molten := x.pages.filter fun g => g.cond == .molten || g.cond == .casting
      64 + 64 + (if molten.isEmpty then 0 else 64) + (molten.map (pageBytes p)).sum +
        ((x.pages.filter fun g => g.cond == .molten).length * 16 * headsOf p x) + blockBytes x.blocks +
        (x.snapshots.map fun n => blockBytes n.blocks).sum + 1088 + imageLength x +
        (x.queue.map fun q => match q with | .text ts _ => 4 * ts.length | .frame _ _ _ _ _ _ _ => p.frameBytes).sum +
        64 * x.heldMsgs.length
    else 0

/-- The in-flight pour allowance (R437). -/
def pourAllowance (s : State) : Nat :=
  6 * 1048576 * 4 * ((s.dies.filter fun d => decide (d.num < scCount s.part) && !d.failed).map fun d =>
    d.logical.countP Option.isSome).sum

/-- S: the size of the checkpoint the package would write now (R371, R435). The sizes of the package and recall sections are open but for
their contents (log entry 40). -/
def saveSize (s : State) : Nat :=
  Config.packageSection s.tens.length s.sched.flasks.length s.models.length s.tiers.pools.length + 64 * s.sess.length +
    (s.sess.map (sectionBytes s)).sum + pourAllowance s + (if s.rcl.shards.isEmpty then 0 else Config.recallSection s.rcl.shards.length)

/-- Chill modules present. -/
def chillCount (s : State) : Nat := s.dev.chill.countP id

/-- e_save(S) ≤ E_hold, in whole numbers: (E_hold − 10) × w ≥ S × P_save; not applied where checkpointing is disabled (R371, R374). -/
def holdUpFits (s : State) (size : Nat) : Bool :=
  match s.dev.image with
  | none => true
  | some im =>
    if im.board.holdUpJ = 0 ∨ chillCount s = 0 then true
    else decide (10 ≤ im.board.holdUpJ) && decide (size * im.board.pSaveW ≤ (im.board.holdUpJ - 10) * im.board.chillRate * 10000000 * chillCount s)

end Sys2Proof.Machine
end

