-- ==== Sys2Proof/Machine/Attention.lean ====
section
/-! DEFINITION. The attention engine: the arithmetic of Table 5-3 over the pages of the selection sets, each head's own positions alone, the running
softmax, tasks of up to 256 pages and their merge (R151 to R153, R159, R165, R166, R168 to R172). -/

namespace Sys2Proof.Machine

/-! ### Exponentials and the running softmax (R168, R169) -/

/-- exp(−n ÷ d) in the fixed point of `expBits`. -/
def expFixed (n d : Nat) : Nat :=
  let y := n * 2 ^ expBits / (d * 4096)
  squareTimes 12 (expSeries y 60 0 (2 ^ expBits) (2 ^ expBits : Nat)).toNat

/-- exp(−n ÷ d) in FP32 bits with a relative error of at most 2^-21 (Table 5-3): the free choice where it keeps the bound, else the nearest value. -/
def expBounded (key : List Nat) (n d : Nat) : Nat :=
  let c := Config.expChoice key % 2 ^ 31
  match f32Read c with
  | .fin _ a b =>
    let e := expFixed n d
    let x := a * 2 ^ expBits
    let gap := if x < e * b then e * b - x else x - e * b
    if gap * 2 ^ 21 ≤ e * b then c else expNeg n d
  | _ => expNeg n d

/-- exp(a − b) for FP32 values with a at most b; 0 for −∞. -/
def expGap (key : List Nat) (a b : Nat) : Nat :=
  if a = f32NegInf then 0
  else match f32Read (f32Sub a b) with
    | .fin _ n d => expBounded key n d
    | .inf _ => 0
    | .nan => f32Nan

/-- A query head's running maximum, running sum and unnormalised output, in FP32. -/
structure Soft where
  m : Nat := f32NegInf
  s : Nat := 0
  o : List Nat := []
  deriving DecidableEq, Repr

/-- The greater of two FP32 values. -/
def f32Max2 (a b : Nat) : Nat := if f32Key a < f32Key b then b else a

/-- 2^-17, below which a weight becomes zero. -/
def leastWeight : Nat := 0x37000000

/-- A weight × 256 in FP8 E4M3, zero below 2^-17 (Table 5-3). -/
def weight8 (w : Nat) : Num :=
  if f32Key w < f32Key leastWeight then .fin false 0 1 else elemRead .e4m3 (elemWrite .e4m3 (numMul (f32Read w) (.fin false 256 1)))

/-- Two vectors added element by element, an absent element counting as zero. -/
def vecAdd0 (n : Nat) (a b : List Nat) : List Nat := (List.range n).map fun i => f32Add (a.getD i 0) (b.getD i 0)

/-- The terms of one page taken into a running softmax: scores with their dequantised values. A page that raises the maximum rescales the sum and
the output first (R169). -/
def takeScores (key : List Nat) (dim : Nat) (l : List (Nat × List Num)) (r : Soft) : Soft :=
  match l with
  | [] => r
  | _ =>
    let m := l.foldl (fun a e => f32Max2 a e.1) r.m
    let scale := fun (v : Nat) => if f32Key r.m < f32Key m then f32Mul v (expGap (0 :: key) r.m m) else v
    let r1 : Soft := { m := m, s := scale r.s, o := r.o.map scale }
    let one := fun (acc : Soft) (e : Nat × Nat × List Num) =>
      let w := expGap ((e.1 + 1) :: key) e.2.1 m
      { acc with s := f32Add acc.s w, o := vecAdd0 dim acc.o (e.2.2.map fun v => f32Write (numMul (weight8 w) v)) }
    (l.mapIdx fun i e => (i, e)).foldl one r1

/-- The merge of R171 of a part into what the parts before it gave. -/
def mergeSoft (key : List Nat) (dim : Nat) (a b : Soft) : Soft :=
  let n := f32Max2 a.m b.m
  let ea := expGap (1 :: key) a.m n
  let eb := expGap (2 :: key) b.m n
  { m := n, s := f32Add (f32Mul a.s ea) (f32Mul b.s eb), o := vecAdd0 dim (a.o.map fun v => f32Mul v ea) (b.o.map fun v => f32Mul v eb) }

/-- The output: divided by the running sum and by 256, in BF16. -/
def softOut (r : Soft) : List Nat := r.o.map fun v => toBf16 (f32Quot (f32Quot v r.s) (f32OfNat 256))

/-! ### Queries and scores (R168) -/

/-- A query head as FP8 E4M3 with its FP32 scale, the largest magnitude divided by 448; a head of zeros is zero under scale 0. -/
def query8 (q : List Nat) : Nat × List Num :=
  let big := (q.map bf16To32).foldl (fun m x => f32Max2 m (x % 2 ^ 31)) 0
  let sc := f32Quot big (f32OfNat 448)
  (sc, q.map fun x => if big = 0 then .fin false 0 1 else elemRead .e4m3 (elemWrite .e4m3 (f32Read (f32Quot (bf16To32 x) sc))))

/-- A stored row in blocks of 32 with the scales of its own form (R166, Table 5-2). -/
def rowBlocks (fmt : Nat) (cs : List Nat) : List Blk32 :=
  let d := if fmt = 2 then cs.length * 32 / 33 else cs.length
  (piecesOf 32 d (cs.take d)).mapIdx fun i b =>
    match fmt with
    | 0 => (.fin false 1 1, b.map (elemRead .e4m3))
    | 1 => (.fin false 1 1, b.map (elemRead .e5m2))
    | _ => (let sc := cs.getD (d + i) 0; (if sc = 0xFF then .nan else scalePow sc), b.map (elemRead .e2m1))

/-- The score scale of a model program: 1 ÷ √d where the header gives 0 (Table 6-5). -/
def scoreScaleOf (p : ModelProgram) : Nat :=
  if p.scoreScale ≠ 0 then p.scoreScale else f32Quot (f32OfNat 1) (f32Sqrt (f32OfNat (headDim p)))

/-- The score of a query with a stored key: accumulated in FP32 over the head dimension, times the query scale, times the score scale. -/
def keyScore (p : ModelProgram) (q : Nat × List Num) (fmt : Nat) (k : List Nat) : Nat :=
  let qs : List Blk32 := (piecesOf 32 q.2.length q.2).map fun b => (.fin false 1 1, b)
  f32Mul (f32Mul (f32Run (List.zipWith blockProduct (rowBlocks fmt k) qs)) q.1) (scoreScaleOf p)

/-! ### What a head attends (R151 to R153, R159) -/

/-- KV head of a query head: j div g (R151). -/
def kvHeadOf (p : ModelProgram) (j : Nat) : Nat := j / max 1 (p.queryHeads / max 1 p.kvHeads)

/-- One layer's attention of one work: the pages of the session, the selection set of each KV head, the rows in T1 when the engine starts and those
that came after, in order, the written length before the work, and the first KV head that the session's pages hold. -/
structure Attend where
  page  : Nat → Option Page
  sets  : List (List Nat)
  hot   : List Nat
  came  : List Nat
  w0    : Nat
  first : Nat

/-- Whether KV head `h` of a work attends position `16 × row + i` from position `pos`: of its own selection set where it was written before the
work, or an earlier position of the work itself, or its own; never a later one (R152, R153, R159). -/
def attends (a : Attend) (h pos row i : Nat) : Bool :=
  let at_ := 16 * row + i
  decide (at_ ≤ pos) && if at_ < a.w0 then (a.sets.getD h []).contains row else true

/-- The scores and values that one page gives a query head, its positions below the page's fill alone (R153), read by the page's own form (R166). -/
def pageScores (p : ModelProgram) (a : Attend) (layer h pos row : Nat) (q : Nat × List Num) : List (Nat × List Num) :=
  match a.page row with
  | none => []
  | some g =>
    let fmt := if g.mx4 then 2 else formatOf p layer
    ((List.range g.fill).filter (attends a h pos row)).map fun i =>
      (keyScore p q fmt ((g.keys.getD i []).getD (h - a.first) []), loadRow fmt ((g.values.getD i []).getD (h - a.first) []))

/-- Rows of the work's own positions up to `pos`. -/
def ownRows (a : Attend) (pos : Nat) : List Nat := (List.range (pos / 16 + 1)).filter fun r => decide (a.w0 / 16 ≤ r)

/-- Every page that some head reads, in ascending number. -/
def unionRows (a : Attend) (pos : Nat) : List Nat := (sortBy id (a.sets.flatten ++ ownRows a pos)).eraseDups

/-- The tasks of a work in a layer: parts of up to 256 pages in ascending page number (R171). -/
def taskRows (rows : List Nat) : List (List Nat) := if rows.length ≤ 256 then [rows] else piecesOf 256 rows.length rows

/-- The order in which a task takes its pages: those in T1 when it starts, in an open order, then the fetched ones as they came (R165). -/
def takeOrder (key : List Nat) (a : Attend) (rows : List Nat) : List Nat :=
  let late := a.came.filter fun r => rows.contains r && !a.hot.contains r
  let hot := rows.filter fun r => !late.contains r
  arrange key hot.length hot ++ late

/-- One query head's attention from one position (R168 to R171). -/
def attendHead (p : ModelProgram) (key : List Nat) (a : Attend) (layer j pos : Nat) (q : List Nat) : List Nat :=
  let h := kvHeadOf p j
  let q8 := query8 q
  let dim := headDim p
  let part := fun (n : Nat) (rows : List Nat) =>
    (takeOrder (n :: j :: pos :: key) a rows).foldl (fun r row => takeScores (row :: n :: j :: pos :: key) dim (pageScores p a layer h pos row q8) r)
      ({ o := List.replicate dim 0 } : Soft)
  let parts := (taskRows (unionRows a pos)).mapIdx part
  softOut (match parts with
    | [r] => r
    | rs => (rs.mapIdx fun i b => (i, b)).foldl (fun acc e => mergeSoft (e.1 :: j :: pos :: key) dim acc e.2) { o := List.replicate dim 0 })

/-- The attention of one position over the query heads of a run of KV heads; the other heads' part is zero, so that the output projection gives the
part of these heads alone (R172). -/
def attendPos (p : ModelProgram) (key : List Nat) (a : Attend) (layer pos : Nat) (run : Nat × Nat) (qs : List (List Nat)) : List Nat :=
  (qs.mapIdx fun j q =>
    let h := kvHeadOf p j
    if run.1 ≤ h ∧ h < run.1 + run.2 then attendHead p key a layer j pos q else q.map fun _ => 0).flatten

end Sys2Proof.Machine
end

