-- ==== Sys2Proof/Machine/Ingots.lean ====
section
/-! DEFINITION. The store's tables: the journal, namespaces and their states, objects, ingot sizes, reservation, commit and deletion
(R247 to R251, R254, R255, R258, R261, R262, R264, R268, R270). -/

namespace Sys2Proof.Machine

/-! ### The journal (R262) -/

/-- The hub joined to an SC die (R275): hub A for SC0 and SC1, hub B for SC2 and SC3; hub A alone on the TSN-4420. -/
def hubOfDie (p : Part) (d : Nat) : Nat := match p with | .tsn8840 => if d < 2 then 0 else 1 | .tsn4420 => 0

/-- What a hub holds of the store. -/
def hubStore (s : State) (h : Nat) : HubStore := s.store.hubs.getD h {}

/-- A change of a hub's journal. -/
def onHubStore (h : Nat) (f : HubStore → HubStore) (s : State) : State :=
  { s with store := { s.store with hubs := s.store.hubs.modify h f } }

/-- Journal pages between two bases (R262). -/
def basePages : Nat := 65536

/-- A journal record's bytes with `crc` in its crc field, and with the CRC-32C of the bytes before it (Table 8-8). -/
def recordBody (r : JRec) : List Byte :=
  leBytes 1 r.kind ++ zeros 1 ++ leBytes 2 r.tenant ++ leBytes 4 r.index ++ leBytes 8 r.subject ++ leBytes 8 r.value ++ leBytes 4 r.seq
def recordBytes (r : JRec) : List Byte := recordBody r ++ leBytes 4 (crc32c ((recordBody r).map BitVec.toNat))

/-- An object as a flushed record leaves it: a deleted one is gone, unless a committed checkpoint may refer to it (R434), and a trim stands (R84). -/
def settleRecord (keep : Bool) (r : JRec) (objs : List Obj) : List Obj :=
  if r.kind = 3 ∧ keep = false then objs.filter fun o => !(o.num == r.subject && o.deleted)
  else if r.kind = 12 then updKey Obj.num r.subject (fun o => { o with trimSafe := some r.value }) objs
  else objs

/-- The journal page with every record made so far flushed; a base follows every 65,536 pages (R262). -/
def flushJournal (h : Nat) (s : State) : State :=
  let keep := s.chk.slot0.isSome || s.chk.slot1.isSome
  let objs := (hubStore s h).unflushed.foldl (fun os r => settleRecord keep r os) s.store.objs
  onHubStore h (fun x =>
    if x.unflushed.isEmpty then x
    else
      let n := x.flushedPages + 1
      { x with flushed := x.flushed ++ x.unflushed, unflushed := [], flushedPages := n, page := x.unflushed.flatMap recordBytes
               seq := x.seq + 1, base := if n % basePages = 0 then n else x.base }) { s with store := { s.store with objs := objs } }

/-- The records not flushed are lost with T1 (R263): an object they deleted stands again, and a trim they told is undone. -/
def loseUnflushed (s : State) : State :=
  let lost := (s.store.hubs.map HubStore.unflushed).flatten
  let back := fun (o : Obj) =>
    let o1 := if lost.any (fun r => r.kind == 3 && r.subject == o.num) then { o with deleted := false } else o
    { o1 with trimmed := o1.trimSafe }
  { s with store := { s.store with objs := s.store.objs.map back, hubs := s.store.hubs.map fun h => { h with unflushed := [] } } }

/-- A journal record made; a page of 512 records is flushed when it is full (R262). -/
def journal (h : Nat) (r : JRec) (s : State) : State :=
  let s1 := onHubStore h (fun x => { x with unflushed := x.unflushed ++ [{ r with seq := x.seq % 4294967296 }] }) s
  if 512 ≤ (hubStore s1 h).unflushed.length then flushJournal h s1 else s1

/-! ### Namespaces (R247, R264, R265, R268) -/

/-- A namespace by number. -/
def nsOf (s : State) (n : Nat) : Ns := (findKey Ns.num n s.store.nss).getD { num := n }

/-- A change of a namespace. -/
def onNs (n : Nat) (f : Ns → Ns) (s : State) : State :=
  { s with store := { s.store with nss := updKey Ns.num n f s.store.nss } }

/-- Objects of a namespace not deleted. -/
def nsObjs (s : State) (n : Nat) : List Obj := s.store.objs.filter fun o => o.ns == n && !o.deleted

/-- Valid and reserved pages of a namespace. -/
def validPages (s : State) (n : Nat) : Nat := ((nsObjs s n).map Obj.pages).sum
def reservedPages (s : State) (n : Nat) : Nat := ((nsObjs s n).map Obj.reserved).sum

/-- Groups of a namespace. -/
def nsGroups (s : State) (n : Nat) : List Group := s.store.groups.filter fun g => g.ns == n
/-- Free groups of a namespace: a group with no entry is free. -/
def freeGroups (s : State) (n : Nat) : Nat := (nsOf s n).total - (nsGroups s n).countP fun g => g.state != .free

/-- What a namespace makes of a new object of `pages` pages (Table 8-10): read-only is checked before full. -/
def storeVerdict (s : State) (n pages : Nat) : Option OCode :=
  let x := nsOf s n
  if x.readOnly then some .storeWorn
  else if x.capacity < validPages s n + reservedPages s n + pages then some .storeFull
  else none

/-- Whether a namespace is urgent: free groups below 1 % of its usable-share groups (R265). -/
def nsUrgent (s : State) (n : Nat) : Bool := decide (freeGroups s n * 100 < (nsOf s n).groups)

/-! ### Extents (R249, R250) -/

/-- The usable channels, in ascending order. -/
def usableChannels (s : State) : List Nat := (List.range 64).filter (bitAt s.store.channels)

/-- Data extents of a parity group: 15, or one fewer than the usable channels where those are fewer than 16 (R249). -/
def groupData (s : State) : Nat := let c := (usableChannels s).length; if c < 16 then max 1 (c - 1) else 15

/-- Whether extent `k` of an object closes a full parity group, and so holds its parity (R249). -/
def isParity (s : State) (k : Nat) : Bool := k % (groupData s + 1) == groupData s

/-- The channel of extent `k` of an object: the usable ones in turn from the object's own start (R249). -/
def extentChannel (s : State) (obj k : Nat) : Nat :=
  let cs := usableChannels s
  cs.getD ((obj % max 1 cs.length + k) % max 1 cs.length) 0

/-- Data and parity extents of an object of `data` logical pages (R249). -/
def extentCount (s : State) (data : Nat) : Nat :=
  let planes := ((s.dev.image.map fun im => im.board.planes).getD 4)
  let ext := ceilDiv data (max 1 planes)
  ext + ceilDiv ext (groupData s)

/-- A group's address and an extent's, as Table 8-4 lays them out. -/
def groupAddress (num : Nat) : Nat := num * 2 ^ 24
def extAddress (e : Ext) : Nat := groupAddress e.group + e.page % 2 ^ 12 * 2 ^ 12 + (2 ^ e.pages - 1) % 16

/-- A list page: the count of addresses, the next list page, and up to 2,040 addresses (R250). -/
def listPage (next : Nat) (es : List Ext) : List Byte :=
  leBytes 8 (min 2040 es.length) ++ leBytes 8 next ++ (es.take 2040).flatMap fun e => leBytes 8 (extAddress e)

/-- A tag's 32 bytes with their CRC-32C (Table 8-7). -/
def tagBody (t : Tag) : List Byte :=
  leBytes 8 t.object ++ leBytes 4 t.offset ++ leBytes 8 t.sequence ++ leBytes 2 t.tenant ++ leBytes 1 t.kind ++ leBytes 1 t.flags ++ zeros 4
def pageTag (t : Tag) : List Byte := tagBody t ++ leBytes 4 (crc32c ((tagBody t).map BitVec.toNat))

/-! ### Objects (R248 to R255) -/

/-- Logical pages of a byte count. -/
def logicalPages (bytes : Nat) : Nat := ceilDiv bytes 16384

/-- Bytes of a page in the form an ingot holds it in (R66, R253). -/
def ingotForm (p : ModelProgram) (quantise : Bool) (x : Session) (g : Page) : Nat :=
  formBytes p (if g.mx4 || (quantise && g.cond == .cast) then 2 else formatOf p g.layer) (headsOf p x)

/-- Data pages of a session's ingot (R251): map, patterns, recurrent section and rows, each section on whole pages. -/
def ingotPages (p : ModelProgram) (quantise : Bool) (x : Session) : Nat :=
  let rows := rowsOf x.w
  let l := (kvLayers p).length
  let rowBytes := (x.pages.map (ingotForm p quantise x)).sum
  logicalPages (rows * 64 + ceilDiv (rows * l) 8) + logicalPages (l * rows * 16 * headsOf p x) +
    logicalPages (blockBytes x.blocks + (x.snapshots.map fun n => blockBytes n.blocks).sum) + logicalPages rowBytes

/-- Pages an ingot is reserved at: its data pages, its list pages and its head (R250, R254; log entry 41). -/
def objectPages (s : State) (data : Nat) : Nat :=
  let planes := ((s.dev.image.map fun im => im.board.planes).getD 4)
  let ext := ceilDiv data (max 1 planes)
  data + ceilDiv (ext + ceilDiv ext (groupData s)) 2040 + 1

/-- Object numbers in a journalled block (R248; log entry 42). -/
def objectBlock : Nat := 65536

/-- The next object number, a fresh block journalled when the last is used up (R248): the record's subject is the block's first number, its value the
end (log entry 204). -/
def issueObject (hub : Nat) (s : State) : Nat × State :=
  let n := s.store.nextObj
  let s1 :=
    if s.store.objEnd ≤ n then
      journal hub { kind := 10, subject := n, value := n + objectBlock }
        { s with store := { s.store with objEnd := n + objectBlock } }
    else s
  (n, { s1 with store := { s1.store with nextObj := n + 1 } })

/-- The hub that keeps a session's objects: that of its home die. -/
def sessHub (s : State) (x : Session) : Nat := hubOfDie s.part x.homeDie

/-- An object reserved for a session (R254, step 1). -/
def reserveObject (x : Session) (ingot quantised : Bool) (pages : Nat) (s : State) : Nat × State :=
  let hub := sessHub s x
  let ns := ((findTen s x.tenant).map Tenant.partition).getD 0
  let r := issueObject hub s
  let o : Obj := { num := r.1, ns := ns, handle := x.handle, tenant := x.tenant, ingot := ingot, reserved := pages, quantised := quantised }
  (r.1, journal hub { kind := 1, tenant := x.tenant, index := pages, subject := r.1 }
    { r.2 with store := { r.2.store with objs := r.2.store.objs ++ [o] } })

/-- A change of an object. -/
def onObj (n : Nat) (f : Obj → Obj) (s : State) : State := { s with store := { s.store with objs := updKey Obj.num n f s.store.objs } }
/-- An object by number. -/
def findObj (s : State) (n : Nat) : Option Obj := findKey Obj.num n s.store.objs

/-- The valid pages of extents taken from their groups (R264, R265). -/
def invalidate (es : List Ext) (s : State) : State :=
  let less := fun (g : Group) => ((es.filter fun e => e.hub == g.hub && e.group == g.num).map Ext.pages).sum
  { s with store := { s.store with groups := s.store.groups.map fun g => { g with valid := g.valid - less g } } }

/-- Objects deleted whole, with their reservations, and the pages they held no longer valid (R258, R274); one leaves the tables once its record is flushed
and no committed checkpoint refers to it (R263, R434). -/
def deleteObjs (hub : Nat) (which : Obj → Bool) (s : State) : State :=
  let gone := s.store.objs.filter fun o => which o && !o.deleted
  let kept := s.store.objs.map fun o => if which o then { o with deleted := true, reserved := 0 } else o
  let s1 := invalidate (gone.flatMap Obj.exts) { s with store := { s.store with objs := kept } }
  forEach gone (fun o t => journal hub { kind := 3, tenant := o.tenant, subject := o.num } t) s1

/-- Every object of a session deleted (R255, R258). -/
def deleteSessObjs (x : Session) (s : State) : State := deleteObjs (sessHub s x) (fun o => o.handle == x.handle) s

end Sys2Proof.Machine
end

