-- ==== Sys2Proof/Machine/Session.lean ====
section
/-! DEFINITION. What happens to a session whatever caused it: rewinds, allowances, input text, the end of a request, closing and loss,
and the start, commit and abandonment of demotions, parks and revivals (R52 to R65, R69, R81 to R84, R143 to R146, R254 to R258,
R268, R269, R277 to R292). -/

namespace Sys2Proof.Machine

/-! ### Rewinding (R82 to R84) -/

/-- Key sums and patterns of a molten page recomputed from its positions (R78, R83). -/
def resum (p : ModelProgram) (g : Page) : Page :=
  let fmt := if g.mx4 then 2 else formatOf p g.layer
  let heads := (g.keys.headD []).length
  let sums := (List.range heads).map fun h => keySum fmt (headRows h g.keys)
  { g with sums := sums, patterns := sums.mapIdx fun h x => sketch p.projectionSeed g.layer h x }

/-- A page cut to length `r`: kept, dropped, cut in place when molten; of a cast row a new molten page takes the first positions, with a handle
and a frame of its own (R68, R83). -/
def cutPage (p : ModelProgram) (r : Nat) (g : Page) : Option Page :=
  if r ≤ g.row * 16 then none
  else
    let k := r - g.row * 16
    if g.fill ≤ k then some g
    else
      let fmt := formatOf p g.layer
      let form := fun (l : List (List (List Nat))) =>
        if g.mx4 && fmt != 2 then l.map fun pos => pos.map fun row => storeRow fmt (loadRow 2 row) else l
      match g.cond with
      | .molten => some (resum p { g with fill := k, keys := g.keys.take k, values := g.values.take k })
      | _ => some (resum p { row := g.row, layer := g.layer, fill := k, heads := g.heads
                             keys := form (g.keys.take k), values := form (g.values.take k) })

/-- Pages and identifiers cut to `r` (R83). -/
def cutPages (p : ModelProgram) (r : Nat) (x : Session) : Session :=
  { x with pages := x.pages.filterMap (cutPage p r), tokens := x.tokens.take r }

/-- The newest snapshot position at or before `q`, or 0 (R82). -/
def snapBase (x : Session) (q : Nat) : Nat :=
  ((x.snapshots.map Snapshot.pos).filter fun n => decide (n ≤ q)).foldl max 0

/-- Whether a frame position lies in `a` to `b − 1` (R75). -/
def framesIn (x : Session) (a b : Nat) : Bool := ((x.tokens.take b).drop a).contains frameToken

/-- Whether a model has recurrent layers, frame encoders counted (R197). -/
def hasRecurrent (p : ModelProgram) : Bool := !(recShapes p).isEmpty

/-- The result length of a rewind below W (R82). -/
def rewindLength (p : ModelProgram) (q : Nat) (x : Session) : Nat :=
  if hasRecurrent p && framesIn x (snapBase x q) q then snapBase x q else q

/-- Recurrent blocks at `r`: those of the newest snapshot, or the initial ones, with positions up to `r` replayed; a replay gives what
the model's tensors give, a free value (R82, R591). -/
def blocksAt (p : ModelProgram) (free r : Nat) (x : Session) : List RecBlock :=
  let b := snapBase x r
  let base := match x.snapshots.find? (fun n => n.pos == b) with | some n => n.blocks | none => initBlocks p
  if r = b then base
  else
    let fill := fun (layer h : Nat) (vs : List Nat) =>
      (List.range vs.length).map fun i => Config.recurrentValue (free + layer) (h * 65536 + i)
    base.map fun k => { k with heads := k.heads.mapIdx (fill k.layer) }

/-- A rewind of a session whose content is at hand, with the result length (R82). -/
def rewindAt (p : ModelProgram) (free q : Nat) (x : Session) : Session × Nat :=
  if x.w ≤ q then ({ x with pendingTok := if q = x.w then none else x.pendingTok, p := q }, q)
  else
    let r := rewindLength p q x
    let y := cutPages p r x
    ({ y with w := r, p := r, pendingTok := none
              blocks := if hasRecurrent p then blocksAt p free r x else x.blocks
              snapshots := x.snapshots.filter fun n => decide (n.pos ≤ snapBase x r) }, r)

/-- A session with the snapshots that its ingot holds where it has left its content there (R73, R84). -/
def asParked (s : State) (x : Session) : Session :=
  match (findObj s x.ingot).bind Obj.image with
  | some im => if x.state = .parked then { x with snapshots := im.snapshots } else x
  | none => x

/-- A rewind of a WARM or PARKED session: its entry at once, its pages at the next revival (R84); `seen` is the session with its snapshots. -/
def rewindEntry (p : ModelProgram) (q : Nat) (seen x : Session) : Session × Nat :=
  if x.w ≤ q then ({ x with pendingTok := if q = x.w then none else x.pendingTok, p := q }, q)
  else
    let r := rewindLength p q seen
    ({ x with w := r, p := r, pendingTok := none, trimmed := some (min r (x.trimmed.getD r)) }, r)

/-- An entry of the anchor log with the entry image (R433): 1 opened, 2 warm, 3 parked, 4 closed, 5 lost. -/
def anchor (kind h : Nat) (s : State) : State :=
  match findSess s h with
  | none => s
  | some x => { s with chk := { s.chk with anchors := s.chk.anchors ++ [{ kind := kind, handle := h, image := some x }] } }

/-- The row-cast entry of the anchor log, made when every page of a row is cast (R433). -/
def anchorRow (h row : Nat) (s : State) : State :=
  match findSess s h with
  | none => s
  | some x =>
    let pgs := x.pages.filter fun g => g.row == row
    if !pgs.isEmpty && pgs.all (fun g => g.cond == .cast && (g.first || g.inH)) then
      { s with chk := { s.chk with anchors := s.chk.anchors ++
          [{ kind := 0, handle := h, row := row, pages := pgs, tokens := (x.tokens.drop (16 * row)).take 16 }] } }
    else s

/-- The row-cast entries of a session past `r` positions, current no more once its rows are cut or released (R433, R446). -/
def dropAnchors (h r : Nat) (s : State) : State :=
  { s with chk := { s.chk with anchors := s.chk.anchors.filter fun a => !(a.kind == 0 && a.handle == h && decide (r < 16 * a.row + 16)) } }

/-- A trickle run's pages at or beyond a result length released (R255). -/
def cutRun (r : Nat) (o : Obj) : Obj :=
  let gone := o.exts.filter fun e => e.kind == 5 && decide (rowsOf r ≤ e.row)
  { o with rows := min o.rows (rowsOf r), queued := min o.queued (rowsOf r), pages := o.pages - (gone.map Ext.pages).sum, exts := o.exts.filter (!gone.contains ·) }

/-- The extents that `cutRun` releases, of every run of a session. -/
def runTail (h r : Nat) (s : State) : List Ext :=
  ((s.store.objs.filter fun o => o.handle == h && !o.ingot && !o.deleted).flatMap Obj.exts).filter fun e => e.kind == 5 && decide (rowsOf r ≤ e.row)

/-- A session rewound to `q` where it is, with the result length: pages released, the trickle run cut, the anchor log and the store's
journal told where R84 asks it (R82 to R84, R255). -/
def rewind (h q : Nat) (s : State) : State × Nat :=
  match findSess s h with
  | none => (s, q)
  | some x =>
    match sessProg s x with
    | none => (onSess h (fun y => { y with p := min q y.p }) s, q)
    | some p =>
      let trim := fun (r : Nat) (u : State) =>
        let t := invalidate (runTail h r u) u
        { t with store := { t.store with objs := t.store.objs.map fun o =>
            if o.handle = h ∧ o.ingot = false then cutRun r o else o } }
      let writing := match x.op with | some (.park _ obj _) => some obj | _ => none
      if x.state == .warm || x.state == .parked || writing.isSome then
        let y := rewindEntry p q (asParked s x) x
        let s1 := trim y.2 (setSess y.1 s)
        let s2 := if resident x then s1 else anchor (if x.state == .warm then 2 else 3) h s1
        let obj := writing.getD x.ingot
        if obj = 0 then (s2, y.2)
        else
          (journal (sessHub s2 x) { kind := 12, tenant := x.tenant, subject := obj, value := y.2 }
            (onObj obj (fun o => { o with trimmed := some (min y.2 (o.trimmed.getD y.2)) }) s2), y.2)
      else
        let y := rewindAt p s.free q x
        (dropAnchors h y.2 (trim y.2 (seat h (releasePages (some p) (x.pages.filter fun g => !y.1.pages.contains g) (setSess y.1 (drawFree s))))), y.2)

/-! ### Slots and pours in flight -/

/-- The flask whose range holds a slot. -/
def flaskOfSlot (s : State) (n : Nat) : Option Flask :=
  s.sched.flasks.find? fun f => decide (f.first ≤ n) && decide (n < f.first + f.count)

/-- The flask of a session's slot. -/
def flaskOf (s : State) (x : Session) : Option Flask := x.slot.bind (flaskOfSlot s)

/-- Pours whose boundary actions 1 to 3 are still to come (R129, R344). -/
def flying (s : State) : List Pour := (s.sched.pour.toList.filter fun p => decide (p.step ≤ 8)) ++ s.sched.suspended

/-- Whether a slot or session works in its pour: it generates or prefills (Table 4-4). -/
def isWorking (w : Work) : Bool := w.cls == .generating || w.chunk.isSome

/-- Whether a pour of the session's own flask is in flight (R143), or one that works the session with no slot (R126). -/
def inFlight (s : State) (x : Session) : Bool :=
  (flying s).any fun p => (flaskOf s x).map Flask.num == some p.flask || p.works.any fun w => w.handle == x.handle && isWorking w && !w.barged

/-- The state a session returns to: ACTIVE if slotted, else OPEN (R57). -/
def awake (x : Session) : SState := if x.slot.isSome then .active else .opened

/-! ### Allowances (R61) -/

/-- The allowance a session's state and content call for, with its tenant's value (Table 2-6). -/
def dueAllowance (s : State) (x : Session) : Nat × Nat :=
  match findTen s x.tenant with
  | none => (0, 0)
  | some t =>
    match x.state with
    | .opened | .active => if x.request.isNone && x.queue.isEmpty then (1, t.idleUs) else (0, 0)
    | .waitingTool => (2, t.waitUs)
    | .warm => (match x.op with | some (.revival _) => (0, 0) | _ => (3, t.warmUs))
    | .parked => (match x.op with | some (.revival _) => (0, 0) | _ => (4, t.parkUs))
    | _ => (0, 0)

/-- The session's allowance kept while its condition holds, started when it becomes true, dropped when it ends; a value of zero never
expires and so runs none (R61). -/
def arm (h : Nat) (s : State) : State :=
  onSess h (fun x =>
    let d := dueAllowance s x
    let k := if d.2 = 0 then 0 else d.1
    if k = x.allowKind then x else { x with allowKind := k, allowance := if k = 0 then 0 else d.2, restored := false }) s

/-! ### Input text (R277 to R286) -/

/-- Normalisation data with no entry. -/
def noNorm : NormData :=
  { version := (15, 1, 0), combining := [], quickCheck := [], canonical := [], compat := [], composites := [] }

/-- The normalisation data of the running image. -/
def normData (s : State) : NormData := ((s.dev.image.bind Image.norm)).getD noNorm

/-- The tokeniser table of a session's model. -/
def sessTok (s : State) (x : Session) : Option Tokeniser :=
  (sessProg s x).bind fun p => findKey Tokeniser.number p.tokeniser s.dev.tokenisers

/-- Positions of a queue. -/
def queuedCount (q : List QItem) : Nat :=
  (q.map fun i => match i with | .text ts _ => ts.length | .frame _ _ n _ _ _ _ => n).sum

/-- Whether input taken now is queued inside the request (R300). -/
def insideRequest (x : Session) : Bool := match x.request with | some r => decide (0 < r.count) | none => false

/-- Tokens put at the end of a session's queue; adjoining runs of one kind are one run (R132). -/
def pushText (toks : List Nat) (x : Session) : Session :=
  if toks.isEmpty then x
  else
    let inside := insideRequest x
    match x.queue.reverse with
    | .text ts i :: rest => if i = inside then { x with queue := rest.reverse ++ [.text (ts ++ toks) i] }
                            else { x with queue := x.queue ++ [.text toks inside] }
    | _ => { x with queue := x.queue ++ [.text toks inside] }

/-- A session's place among those with text queued, oldest first (R333): taken when its queue gains its first input. -/
def stampQueue (h : Nat) (s : State) : State :=
  match findSess s h with
  | none => s
  | some x =>
    if x.queue.isEmpty ∨ x.queuedAt ≠ 0 then s
    else { onSess h (fun y => { y with queuedAt := s.sched.orders + 1 }) s with
      sched := { s.sched with orders := s.sched.orders + 1 } }

/-- U+FFFD inserted in input counted (R278). -/
def countFixes (t n : Nat) (s : State) : State :=
  if n = 0 then s
  else onTen t (fun x => { x with counters := { x.counters with replacements := min max64 (x.counters.replacements + n) } }) s

/-- The input text state closed (R280). -/
def closeInput (h : Nat) (s : State) : State :=
  match findSess s h with
  | none => s
  | some x =>
    match sessTok s x with
    | none => s
    | some t =>
      let r := closeText t (normData s) x.normForm x.strict x.text
      let s1 := stampQueue h (countFixes x.tenant r.fixes (setSess (pushText r.toks { x with text := r.text }) s))
      match r.bad with
      | none => s1
      | some off => emitOut false x { outcome := .invalidText, opcode := 0, length := x.p, d0 := off } s1

/-! ### The end of a request (R111, R290) -/

/-- A queue divided at a count of positions; a frame that the count reaches stays whole. -/
def splitQueue : Nat → List QItem → List QItem × List QItem
  | _, [] => ([], [])
  | 0, q => ([], q)
  | n, .text ts i :: rest =>
    if ts.length ≤ n then
      let r := splitQueue (n - ts.length) rest
      (.text ts i :: r.1, r.2)
    else ([.text (ts.take n) i], .text (ts.drop n) i :: rest)
  | n, .frame a b k c d e i :: rest =>
    let r := splitQueue (n - k) rest
    (.frame a b k c d e i :: r.1, r.2)

/-- A queue without `left` positions that stand behind `ahead` others. -/
def cutQueue (ahead left : Nat) (q : List QItem) : List QItem := (splitQueue ahead q).1 ++ (splitQueue left (splitQueue ahead q).2).2

/-- A recall query of a session abandoned, or its result discarded where it is queued and its call not yet committed (Table 4-6). -/
def dropQueries (h : Nat) (s : State) : State :=
  let mine := fun (q : Query) => match q.asker with | .onDevice k _ => k == h | _ => false
  let stripped := fun (x : Session) =>
    match x.call with
    | some (.onDevice _ _) => { x with call := none }
    | some (.result _ ahead left _) => { x with call := none, queue := cutQueue ahead left x.queue }
    | _ => x
  onSess h stripped { s with rcl := { s.rcl with queries := s.rcl.queries.filter fun q => !mine q } }

/-- The output bytes of a request's tokens. -/
def outOf (r : Request) : List (List Byte) := r.out.map Prod.snd

/-- Held output delivered in an extra session record with no token, just before a final record (R290). -/
def flushHeld (b : Bool) (x : Session) (r : Request) (s : State) : State :=
  let text := textBetween true r.delivered r.out.length (outOf r)
  if text.isEmpty then s
  else emitSes b x { tenant := x.tenant, seq := r.seq, handle := x.handle, released := x.p, token := none, text := text
                     late := false, noToken := true, heldBack := false } s

/-- The sprue message of a session command. -/
def sprueOf (c : Instr) : Option Sprue :=
  match c with
  | .appendText m _ | .appendFrame m _ | .generate m _ | .toolResult m _ | .cancel m | .barge m | .park m | .close m => some m
  | _ => none

/-- A message still held for a session that is freed: a PARK or a CLOSE is answered DONE, the freeing taking its place (R53, R592), and any other
is refused as a message to a FREE entry. -/
def answerGone (x : Session) (c : Instr) (s : State) : State :=
  match sprueOf c with
  | none => s
  | some m =>
    let done := msgOpcode m == 8 || msgOpcode m == 9
    emitOut false x { outcome := if done then .done else .malformed, seq := msgSeq m, opcode := msgOpcode m, length := x.p
                      d0 := if done then 0 else 6, clientTag := if msgOpcode m = 4 then msgAt m 44 8 else 0, answers := true } s

/-- A session freed as a one-shot session is: its pages, its objects and its entry; the anchor log and the rack directory are told as of a close,
and what is still held for it is answered (R53, R592; log entry 77). -/
def freeSession (h : Nat) (s : State) : State :=
  match findSess s h with
  | none => s
  | some x =>
    forEach x.heldMsgs (answerGone x)
      (tellDirectory h s.rack.num 7 (dropSess h (anchor 4 h (deleteSessObjs x (releasePlaces (placesOf s x) s)))))

/-- A request ended with its one final record: `ans` the message it answers, `deliver` whether held output goes out first, `d0`, `d1`
the details (R111, R290, R592). A one-shot session is then spent. -/
def endRequest (b : Bool) (h : Nat) (o : OCode) (ans : Option Ask) (deliver : Bool) (d0 d1 : Nat) (s : State) : State :=
  match findSess s h with
  | none => s
  | some x =>
    match x.request with
    | none => s
    | some r =>
      let s1 := if deliver then flushHeld b x r s else s
      let s2 := settle r.win r.seq o (match ans with | some a => settle a.win a.seq o s1 | none => s1)
      let rec_ : OutRec :=
        { outcome := o, seq := (ans.map Ask.seq).getD r.seq, opcode := (ans.map Ask.opcode).getD 4, length := x.p, d0 := d0, d1 := d1
          clientTag := r.clientTag, final := true, answers := ans.isSome, win := some ((ans.map Ask.win).getD r.win)
          also := ans.map fun _ => (r.win, r.seq) }
      arm h (onSess h (fun y => { y with request := none, call := none, toWait := false, spent := y.oneShot }) (dropQueries h (emitOut b x rec_ s2)))

/-- An answer to a message for a session, settled in its window entry (R592). -/
def answerAsk (b : Bool) (h : Nat) (a : Ask) (o : OCode) (d0 : Nat) (s : State) : State :=
  match findSess s h with
  | none => s
  | some x => emitOut b x { outcome := o, seq := a.seq, opcode := a.opcode, length := x.p, d0 := d0, answers := true
                            win := some a.win } (settle a.win a.seq o s)

/-- A spent one-shot session freed at once, unless a pour of its flask is in flight and frees it at its boundary (R53). -/
def freeSpent (h : Nat) (s : State) : State :=
  match findSess s h with
  | none => s
  | some x => if x.spent && !inFlight s x then freeSession h s else s

/-! ### Closing and loss (R57, R65, R239) -/

/-- A session's content released; its entry, options and window stay. -/
def emptied (st : SState) (x : Session) : Session :=
  { x with state := st, pages := [], blocks := [], snapshots := [], tokens := [], queue := [], queuedAt := 0, frameData := [], text := {}, op := none
           call := none, ingot := 0, allowKind := 0, allowance := 0, trimmed := none, toWait := false, copying := false
           revivalLate := false, recastPending := false, pendingTok := none, blks := [], leaves := [], header := none }

/-- What leaves with a session's content: pages, objects, waiting writes and fetches, and a recall query. -/
def releaseContent (st : SState) (h : Nat) (s : State) : State :=
  match findSess s h with
  | none => s
  | some x =>
    let s1 := dropQueries h (setSess (emptied st x) (deleteSessObjs x (releasePlaces (placesOf s x) s)))
    { s1 with tiers := { s1.tiers with fetches := s1.tiers.fetches.filter fun f => f.handle != h
                                       stalls := s1.tiers.stalls.filter fun f => f.handle != h
                                       revivals := s1.tiers.revivals.filter fun f => f.1 != h } }

/-- A session CLOSED (Table 2-4). -/
def closeSession (h : Nat) (s : State) : State := tellDirectory h s.rack.num 7 (anchor 4 h (releaseContent .closed h s))

/-- A session LOST: a request in progress ends with the LOST record, otherwise a record of opcode 0x00 reports it (Table 2-4, R65,
R239). Held output can no longer be read and is dropped (R290). -/
def loseSession (b : Bool) (h : Nat) (s : State) : State :=
  match findSess s h with
  | none => s
  | some x =>
    if x.state == .closed || x.state == .lost then s
    else
      let s1 := match x.request with
        | some r => emitOut b x { outcome := .lost, seq := r.seq, opcode := 4, length := x.p, clientTag := r.clientTag, final := true
                                  win := some r.win, reports := true } (settle r.win r.seq .lost s)
        | none => emitOut b x { outcome := .lost, length := x.p, reports := true } s
      let s2 := match x.op with
        | some (.park _ _ (some a)) => answerAsk b h a .cancelled 0 s1
        | _ => s1
      tellDirectory h s.rack.num 8 (anchor 5 h (releaseContent .lost h (onSess h (fun y => { y with request := none }) s2)))

/-- A session truncated by a rewind to `q` that no message asked: the TRUNCATED record, final where a request is in progress
(R239, R243, R267, R290: the output held is delivered). -/
def truncateSession (b : Bool) (h q : Nat) (s : State) : State :=
  match findSess s h with
  | none => s
  | some x =>
    let before := x.p
    let s0 := match x.request with | some r => flushHeld b x r s | none => s
    let y := rewind h q s0
    match x.request with
    | some _ => endRequest b h .truncated none false y.2 before y.1
    | none =>
      match findSess y.1 h with
      | none => y.1
      | some x1 => emitOut b x1 { outcome := .truncated, length := x1.p, d0 := y.2, d1 := before } y.1

/-! ### Demotion, park and revival (R59, R60, R144, R254 to R258, R269) -/

/-- A pressure demotion or revival of a partition counted (R232). -/
def countPressure (demotion : Bool) (partition : Nat) (s : State) : State :=
  let t := s.tiers
  if demotion then { s with tiers := { t with demotions := setCount t.demotions partition (countOf t.demotions partition + 1) } }
  else { s with tiers := { t with revivals := setCount t.revivals partition (countOf t.revivals partition + 1) } }

/-- A session's partition: its tenant's. -/
def sessPart (s : State) (x : Session) : Nat := ((findTen s x.tenant).map Tenant.partition).getD 0

/-- The first pool that a tenant's sessions may use. -/
def firstPool (s : State) (x : Session) : Nat := ((allowedPools s (placementOf s 2 (sessPart s x) x.tenant 0)).map Pool.num).headD 0

/-- The frozen copies of a demotion put into their pool's queues (R212). -/
def streamFrozen (h : Nat) (s : State) : State :=
  match findSess s h with
  | none => s
  | some x =>
    let kib := (((placesOf s { x with pages := x.pages.filter fun g => g.cond != .cast }).filter Place.inT1).map Place.kib).sum
    startPoolStream (firstPool s x) 0 (.frozen h) (16 * kib) s

/-- The frozen copies that a revival reads put into their pool's queues, or a host link's where one lies in H (R212). -/
def streamRevived (h : Nat) (s : State) : State :=
  match findSess s h with
  | none => s
  | some x =>
    let cs := placesOf s { x with pages := x.pages.filter fun g => g.cond == .frozen }
    let lines := 16 * (cs.map Place.kib).sum
    match cs.find? fun c => c.inH && c.pools.isEmpty with
    | some c => startStream { queue := 64 + c.hLink, carries := .revived h, lines := lines } s
    | none => startPoolStream (((cs.map Place.pools).flatten).headD 0) ((cs.head?.map Place.lower0).getD 0) (.revived h) lines s

/-- A demotion to WARM begun: the input text state closes (R60, R280). -/
def startDemotion (pressure : Bool) (h : Nat) (s : State) : State :=
  match findSess s h with
  | none => s
  | some x =>
    if resident x && x.op.isNone then
      let s1 := streamFrozen h (onSess h (fun y => { y with op := some (.demotion pressure) }) (closeInput h s))
      if pressure then countPressure true (sessPart s x) s1 else s1
    else s

/-- A pressure demotion of a slotted session with a request in progress joins the queue of R232. -/
def queueRevival (x : Session) (s : State) : State :=
  if x.slot.isSome && x.request.isSome then { s with tiers := { s.tiers with waiting := s.tiers.waiting ++ [x.handle] } } else s

/-- The frozen form of a page, of a block and of a leaf in the pools given: written once to T2, its T1 copy gone (R60, R69, R221). -/
def freezePage (pools : List Nat) (g : Page) : Page :=
  { g with cond := .frozen, inT1 := false, frame := noFrame, first := true, second := decide (2 ≤ pools.length), pools := pools
           lower0 := noAddress, lower1 := noAddress }
def freezeBlk (pools : List Nat) (b : Blk) : Blk :=
  { b with cond := .frozen, inT1 := false, frame := noFrame, frame2 := noFrame, first := true, second := decide (2 ≤ pools.length)
           pools := pools, lower0 := noAddress, lower1 := noAddress }
def freezeLeaf (pools : List Nat) (l : Leaf) : Leaf :=
  { l with frozen := true, frame := noFrame, frame2 := noFrame, second := decide (2 ≤ pools.length), pools := pools
           lower0 := noAddress, lower1 := noAddress }

/-- An object frozen in as many pools as its session's class asks, where permitted pools have room (R225, R226). -/
def freezeIn (x : Session) (kib : Nat) (put : List Nat → State → State) (s : State) : State :=
  match pickPools (placementOf s 2 (((findTen s x.tenant).map Tenant.partition).getD 0) x.tenant 0) (1024 * kib) (frozenCopies x.durability) [] s with
  | some ps => put ps (drawFree s)
  | none => s

/-- Everything of a session that leaves T1 for WARM frozen, each object in space of its own: molten pages, the page map, patterns, recurrent
blocks, snapshots and window, and its leaves (R60, R69, R73, R221); cast pages keep their lower copies alone. -/
def freezeAll (h : Nat) (s : State) : State :=
  match findSess s h with
  | none => s
  | some x =>
    match sessProg s x with
    | none => s
    | some p =>
      let drop := fun (g : Page) => if g.cond = .cast then { g with inT1 := false, frame := noFrame } else g
      let s1 := onSess h (fun y => { y with pages := y.pages.map drop }) s
      let s2 := forEach (x.pages.filter fun g => g.cond == .molten) (fun g t =>
        freezeIn x (frameKib p g) (fun ps => onPage h g.row g.layer (freezePage ps)) t) s1
      let s3 := forEach (x.blks.filter fun b => b.cond != .frozen) (fun b t =>
        freezeIn x (ceilDiv b.size 1024) (fun ps => onBlk h b (freezeBlk ps)) t) s2
      forEach (x.leaves.filter fun l => !l.frozen) (fun l t => freezeIn x leafKib (fun ps => onLeaf h l.range (freezeLeaf ps)) t) s3

/-- Whether everything that had to be frozen is. -/
def allFrozen (h : Nat) (s : State) : Bool :=
  (findSess s h).all fun x => x.pages.all (fun g => g.cond != .molten) && x.blks.all (fun b => b.cond == .frozen) && x.leaves.all Leaf.frozen

/-- A demotion committed: the entry reads WARM, its lengths and pending token copied into the header (R60, R69, R74). Nothing happens while a
page is still casting, or where a copy finds no room (R235). -/
def commitDemotion (h : Nat) (s0 : State) : State :=
  let s := closeInput h s0
  match findSess s h with
  | none => s0
  | some x =>
    match x.op with
    | some (.demotion pressure) =>
      let f := freezeAll h s
      if x.pages.any (fun g => g.cond == .casting) || !allFrozen h f then s0
      else
        let mark := fun (y : Session) => { y with state := .warm, op := none, warmAt := leadNs s / 1000, header := some (y.p, y.w, y.pendingTok) }
        let s1 := anchor 2 h (seat h (onSess h mark f))
        arm h (endStream (.frozen h) (if pressure then queueRevival x s1 else s1))
    | _ => s0

/-- A revival begun from WARM or PARKED: the home die is chosen again (R57, R227). -/
def startRevival (h : Nat) (s : State) : State :=
  match findSess s h with
  | none => s
  | some x =>
    if (x.state == .warm || x.state == .parked) && x.op.isNone then
      let s1 := if x.state == .warm then streamRevived h s else s
      arm h (onSess h (fun y => { y with op := some (.revival (x.state == .parked)), homeDie := chooseDie s (sessPart s x) }) s1)
    else s

/-- A page brought back in a revival's first phase: frozen pages are molten again in T1 and their copies released; from an ingot, pages take
new handles, the always set and the molten row come to T1 and every row has a store copy (R69, R221, R256). -/
def wakePage (remelt : Bool) (lastCast : Nat) (g : Page) : Page :=
  if g.cond = .frozen then { g with cond := .molten, inT1 := true, frame := noFrame, first := false, second := false, inH := false, pools := []
                                    lower0 := noAddress, lower1 := noAddress, handle := if remelt then 0 else g.handle }
  else if remelt then
    let y := { g with handle := 0, frame := noFrame, lower0 := noAddress, lower1 := noAddress }
    if g.cond = .molten then { y with inT1 := true }
    else { y with inT1 := decide (g.row < 2) || decide (lastCast ≤ g.row + 3), inStore := true, first := false, second := false, inH := false
                  pools := [] }
  else g

/-- A block and a leaf read back into T1, their frozen copies released (R69, R221). -/
def wakeBlk (b : Blk) : Blk :=
  { b with cond := .molten, inT1 := true, frame := noFrame, frame2 := noFrame, first := false, second := false, inH := false, pools := []
           lower0 := noAddress, lower1 := noAddress }
def wakeLeaf (l : Leaf) : Leaf := { range := l.range }

/-- The highest cast row of a session's pages. -/
def lastCastRow (pgs : List Page) : Nat := ((pgs.filter fun g => g.cond == .cast).map Page.row).foldl max 0

/-- The content of a PARKED session as its ingot holds it, with the entry's present fields (R252, R256). -/
def fromIngot (s : State) (x : Session) : Session :=
  match (findObj s x.ingot).bind Obj.image with
  | none => x
  | some im => { x with pages := im.pages, blocks := im.blocks, snapshots := im.snapshots, tokens := im.tokens }

/-- A recorded rewind carried out on a session's content (R84). -/
def applyTrim (s : State) (x : Session) : Session :=
  match x.trimmed, sessProg s x with
  | some r, some p =>
    let c := cutPages p r x
    let bs := if hasRecurrent p then blocksAt p s.free r x else x.blocks
    { c with trimmed := none, blocks := bs, snapshots := x.snapshots.filter fun n => decide (n.pos ≤ snapBase x r) }
  | _, _ => { x with trimmed := none }

/-- The first phase of a revival ended: content in T1, the recorded rewind applied, ACTIVE if slotted, else OPEN (R57, R84, R256). -/
def commitRevival (h : Nat) (s : State) : State :=
  match findSess s h with
  | none => s
  | some x =>
    match x.op with
    | some (.revival remelt) =>
      let y0 := if remelt then fromIngot s x else x
      let y1 := { y0 with pages := y0.pages.map (wakePage remelt (lastCastRow y0.pages))
                          blks := if remelt then [] else x.blks.map wakeBlk, leaves := if remelt then [] else x.leaves.map wakeLeaf }
      let y2 := applyTrim s { y1 with trimmed := x.trimmed }
      let y3 := { y2 with state := awake x, op := none, ingot := 0, copying := remelt, revivalLate := x.revivalLate, header := none }
      let gone := ((placesOf s { x with pages := x.pages.filter fun g => g.cond == .frozen }).filter fun c => c.first)
      arm h (anchor 1 h (dropAnchors h y3.w (seat h (setSess y3 (releasePlaces gone (drawFree (endStream (.revived h) s)))))))
    | _ => s

/-- A park's fallback (R269): a resident session is demoted, a WARM one stays; the PARK is answered with the store's code, and a
refused expiry restarts the warm allowance and is counted. -/
def parkFallback (b : Bool) (o : OCode) (ask : Option Ask) (h : Nat) (s : State) : State :=
  match findSess s h with
  | none => s
  | some x =>
    match ask with
    | some a => let s1 := answerAsk b h a o 0 s
                if x.state == .warm then s1 else startDemotion false h (onSess h (applyTrim s) s1)
    | none =>
      let s1 := onNs (sessPart s x) (fun n => { n with refused := n.refused + 1 }) s
      onSess h (fun y => { y with allowance := ((findTen s x.tenant).map Tenant.warmUs).getD 0 }) s1

/-- A park begun: pages reserved in the namespace and the input text state closed; or the fallback (R254, R268, R269, R280). -/
def startPark (b : Bool) (quantise : Bool) (ask : Option Ask) (h : Nat) (s0 : State) : State :=
  let s := closeInput h s0
  match findSess s h with
  | none => s
  | some x =>
    let pages := match sessProg s x with | some p => objectPages s (ingotPages p quantise x) | none => 1
    match storeVerdict s (sessPart s x) pages with
    | some o => parkFallback b o ask h s
    | none =>
      let r := reserveObject x true quantise pages s
      onSess h (fun y => { y with op := some (.park quantise r.1 ask) }) r.2

/-- Whether a park quantises: the message's field, or the tenant's setting (R253). -/
def parkForm (s : State) (x : Session) (field : Nat) : Bool :=
  match field with
  | 0 => ((findTen s x.tenant).map Tenant.quantise).getD false
  | 1 => false
  | _ => true

/-- A page as an ingot holds it (R253). -/
def ingotPage (p : ModelProgram) (quantise : Bool) (g : Page) : Page :=
  let fmt := if g.mx4 then 2 else formatOf p g.layer
  let base := { g with cond := (if g.cond = .frozen then .molten else g.cond), inT1 := false, first := false, second := false, inH := false, pools := [], inStore := true
                       handle := 0, frame := noFrame, lower0 := noAddress, lower1 := noAddress }
  if quantise && g.cond == .cast && fmt != 2 then
    { base with mx4 := true, keys := g.keys.map (fun pos => pos.map (toMx4 fmt)), values := g.values.map (fun pos => pos.map (toMx4 fmt)) }
  else base

/-- A session's directory entry in the layout of Table 2-7, as checkpoint shards and migration carry it (R64). -/
def entryBytes (s : State) (x : Session) : List Byte :=
  let copy := (findMigration s x.handle).any fun m => m.atOrigin && m.step ≤ 3
  let host := match x.call with | some (.host _) => true | _ => false
  leBytes 8 x.handle ++ leBytes 2 x.tenant ++ leBytes 1 (stateCode x.state) ++
    leBytes 1 (x.durability * 64 + copy.toNat * 32 + host.toNat * 16 + x.request.isSome.toNat * 8 + x.slot.isSome.toNat * 4 + x.strict.toNat * 2 +
      x.oneShot.toNat) ++
    leBytes 2 x.model ++ leBytes 2 (x.slot.getD 0xFFFF) ++ leBytes 4 x.p ++ leBytes 4 x.w ++ leBytes 4 (x.pendingTok.getD 0xFFFFFFFF) ++
    leBytes 4 (queuedCount x.queue) ++ leBytes 5 (mapHandle x) ++ leBytes 1 x.allowKind ++ zeros 2 ++ leBytes 8 x.allowance ++
    leBytes 8 (if x.state = .parked then x.ingot else 0) ++ leBytes 5 (windowHandle x) ++ zeros 3

/-- The rows that phase 1 of a remelt reads: rows 0 and 1, the four highest cast rows and the molten row (Table 8-5). -/
def firstRows (x : Session) : List Nat :=
  let cast := ((x.pages.filter fun g => g.cond == .cast || g.cond == .casting).map Page.row).eraseDups
  (List.range (rowsOf x.w)).filter fun r => decide (r < 2) || decide ((cast.filter fun k => decide (r < k)).length < 4)

/-- Where the sections of an ingot start, its data pages and those of phase 1, in logical pages (Tables 8-5, 8-6). -/
def ingotStarts (p : ModelProgram) (quantise : Bool) (x : Session) : List Nat :=
  let l := (kvLayers p).length
  let pats := logicalPages (rowsOf x.w * 64 + ceilDiv (rowsOf x.w * l) 8)
  let rec_ := pats + logicalPages (l * rowsOf x.w * 16 * headsOf p x)
  let rows := rec_ + logicalPages (blockBytes x.blocks + (x.snapshots.map fun n => blockBytes n.blocks).sum)
  let first := ((x.pages.filter fun g => (firstRows x).contains g.row).map (ingotForm p quantise x)).sum
  [pats, rec_, rows, ingotPages p quantise x, rows + logicalPages first]

/-- An ingot's head as laid out (Table 8-6), with `crc` in its crc field. -/
def headWith (s : State) (p : ModelProgram) (quantise : Bool) (obj crc : Nat) (x : Session) : List Byte :=
  let oldest := x.snapshots.map Snapshot.pos
  let image := if x.request.isSome then requestImage x else []
  [0x49, 0x4E, 0x47, 0x54] ++ leBytes 2 0x0100 ++ leBytes 1 (x.durability * 2 + quantise.toNat) ++ leBytes 1 (formatOf p ((kvLayers p).headD 0)) ++
    leBytes 8 obj ++ leBytes 8 x.handle ++ leBytes 2 x.tenant ++ leBytes 2 x.model ++ leBytes 4 x.p ++ leBytes 4 x.w ++ leBytes 4 (rowsOf x.w) ++
    leBytes 2 (kvLayers p).length ++ leBytes 2 (recShapes p).length ++ leBytes 1 (headsOf p x) ++ leBytes 1 x.snapshots.length ++ zeros 2 ++
    leBytes 4 (oldest.foldl min (oldest.headD 0xFFFFFFFF)) ++ (ingotStarts p quantise x).flatMap (leBytes 4) ++ leBytes 4 image.length ++ leBytes 4 crc ++
    entryBytes s x ++ windowBytes x.window ++ image

/-- The tweak of a data unit of an object (R260). -/
def storeTweak (obj unit : Nat) : Nat := obj * 2 ^ 32 + unit

/-- A run of bytes encrypted unit by unit from data unit `unit` of an object on (R260). -/
def sealUnits (key obj unit : Nat) : Nat → List Byte → List Byte
  | 0, _ => []
  | n + 1, bs => Config.xts key (storeTweak obj unit) (padTo 4096 (bs.take 4096)) ++ sealUnits key obj (unit + 1) n (bs.drop 4096)

/-- An ingot's head as it is programmed: its crc over it with the field zero, encrypted as the page behind the object's data pages (R252, R260; log
entry 207). -/
def ingotHead (s : State) (p : ModelProgram) (quantise : Bool) (obj : Nat) (x : Session) : List Byte :=
  let crc := crc32c ((headWith s p quantise obj 0 x).map BitVec.toNat)
  sealUnits (((findTen s x.tenant).bind Tenant.key).getD 0) obj (4 * ingotPages p quantise x) 4 (headWith s p quantise obj crc x)

/-- An ingot committed: PARKED, lower copies and older objects of the session released, the PARK answered DONE (R254, R255, R258). -/
def commitPark (h : Nat) (s : State) : State :=
  match findSess s h with
  | none => s
  | some x =>
    match x.op with
    | some (.park quantise obj ask) =>
      if x.pages.any (fun g => g.cond == .casting) then s
      else
        let hub := sessHub s x
        let p := sessProg s x
        let body := match p with
          | some q => { x with pages := x.pages.map (ingotPage q quantise), op := none, heldMsgs := [], blks := [], leaves := [] }
          | none => { x with op := none, heldMsgs := [] }
        let headBytes := (p.map fun q => ingotHead s q quantise obj x).getD []
        let s1 := onObj obj (fun o => { o with pages := o.pages + o.reserved, reserved := 0, committed := true, headOk := 2, image := some body, head := headBytes }) s
        let s2 := journal hub { kind := 2, tenant := x.tenant, subject := obj } s1
        let s3 := deleteObjs hub (fun o => o.handle == h && o.num != obj) s2
        let s4 := releasePlaces (placesOf s3 x) s3
        let s5 := onSess h (fun y => { y with state := .parked, op := none, ingot := obj, pages := [], blocks := [], snapshots := []
                                              copying := false, blks := [], leaves := []
                                              header := some (y.p, y.w, y.pendingTok) }) s4
        let s6 := arm h (anchor 3 h (dropAnchors h 0 s5))
        match ask with
        | some a => answerAsk false h a .done 0 s6
        | none => s6
    | _ => s

/-- An operation abandoned by a CLOSE before its commit step (Table 4-6): frozen copies, the partial ingot or the revival's T1 copies
released; a PARK under way is answered CANCELLED. -/
def abandonOp (b : Bool) (h : Nat) (s : State) : State :=
  match findSess s h with
  | none => s
  | some x =>
    match x.op with
    | some (.park _ obj ask) =>
      let y := if resident x then applyTrim s x else x
      let s1 := onSess h (fun _ => { y with op := none }) (deleteObjs (sessHub s x) (fun o => o.num == obj) s)
      match ask with
      | some a => answerAsk b h a .cancelled 0 s1
      | none => s1
    | some _ => onSess h (fun y => { y with op := none }) (endStream (.frozen h) (endStream (.revived h) s))
    | none => s

end Sys2Proof.Machine
end

