-- ==== Sys2Proof/Machine/Shaper.lean ====
section
/-! DEFINITION. What a Kofatus port sends next: traffic classes, credits of shaped classes, gate lists and the port byte count (R356 to R359, R383). -/

namespace Sys2Proof.Machine

/-- Bytes of a unit on the fibre: a header slot and four data slots a line, at 256 bytes for 15 slots (R382, R398; log entry 198). -/
def unitBytes (u : FOut) : Nat := ((1 + 4 * u.lines.length) * 256 + 14) / 15

/-- The share and the credit limit of a class, and its credit (R357). -/
def shareOf (p : Port) (c : Nat) : Nat := ((p.shares[c]?).map Prod.fst).getD 0
def limitOf (p : Port) (c : Nat) : Int := ((p.shares[c]?).map Prod.snd).getD 0 * 65536
def creditOf (p : Port) (c : Nat) : Int := ((p.credits.find? fun e => e.1 == c).map Prod.snd).getD 0

/-- A class's credit put in place. -/
def setCredit (c : Nat) (v : Int) (p : Port) : Port :=
  { p with credits := p.credits.filter (fun e => e.1 != c) ++ if v = 0 then [] else [(c, v)] }

/-- Whether a class's gate is open: in the entry in progress, or in a port with no gate list (R358, R359). -/
def gateOpen (p : Port) (c : Nat) : Bool := match p.gates[p.entry]? with | some g => g.1.testBit c | none => true

/-- Port bytes left in the gate entry in progress; none where there is no list. -/
def entryLeft (p : Port) : Option Nat := (p.gates[p.entry]?).map fun g => g.2 - p.used

/-- Whether the first waiting unit of a class ends within the gate entry in progress. -/
def unitFits (p : Port) (u : FOut) : Bool := match entryLeft p with | some n => decide (unitBytes u ≤ n) | none => true

/-- The oldest waiting unit of a class. -/
def firstOf (p : Port) (c : Nat) : Option FOut := p.queue.find? fun u => u.hdr.cls == c

/-- Whether a class may start its oldest unit: its gate open, the unit ending within the entry, and the class unshaped or with credit (R358). -/
def mayStart (p : Port) (c : Nat) : Bool :=
  (firstOf p c).any fun u => gateOpen p c && unitFits p u && (shareOf p c == 0 || decide (0 ≤ creditOf p c))

/-- The lowest class that may start (R358). -/
def nextClass (p : Port) : Option Nat := (List.range 8).find? (mayStart p)

/-- The gate list moved on by port bytes: entry after entry, with fuel; whole cycles are cut off first. -/
def moveGate : Nat → Nat → Port → Port
  | 0, _, p => p
  | k + 1, n, p =>
    match p.gates[p.entry]? with
    | none => p
    | some g =>
      if n < g.2 - p.used then { p with used := p.used + n }
      else moveGate k (n - (g.2 - p.used)) { p with entry := (p.entry + 1) % max 1 p.gates.length, used := 0 }

/-- Port bytes sent: counted, and the gate list moved on (R359, R383). -/
def countBytes (n : Nat) (p : Port) : Port :=
  let cycle := (p.gates.map Prod.snd).sum
  moveGate (p.gates.length + 1) (if cycle = 0 then n else n % cycle) { p with bytes := p.bytes + n }

/-- Credits raised while the port sends `n` bytes of another class or idle: those of the shaped classes whose gate is open and that have a unit
waiting (R357). -/
def raiseCredits (n : Nat) (but : Option Nat) (p : Port) : Port :=
  (List.range 8).foldl (fun q c =>
    if shareOf p c ≠ 0 ∧ gateOpen p c ∧ (firstOf p c).isSome ∧ some c ≠ but then setCredit c (min (limitOf p c) (creditOf p c + shareOf p c * n)) q else q) p

/-- A unit sent: the class's credit falls, and becomes 0 where its queue empties with a positive one (R357). -/
def sendUnit (c : Nat) (u : FOut) (p : Port) : Port :=
  let n := unitBytes u
  let p1 := raiseCredits n (some c) p
  let p2 := { p1 with queue := p1.queue.erase u }
  let left := creditOf p c - (65536 - (shareOf p c : Int)) * n
  let p3 := if shareOf p c = 0 then p2 else setCredit c (if 0 < left ∧ (firstOf p2 c).isNone then 0 else left) p2
  countBytes n p3

/-- Idle sent for `n` port bytes. -/
def sendIdle (n : Nat) (p : Port) : Port := countBytes n (raiseCredits n none p)

/-- Idle bytes after which another class may be able to start: the end of the entry in progress, or a credit that reaches 0. -/
def idleNeed (p : Port) : Option Nat :=
  let waits := (List.range 8).filterMap fun c =>
    match firstOf p c with
    | some u => if gateOpen p c && unitFits p u && shareOf p c != 0 && decide (creditOf p c < 0)
      then some (((-(creditOf p c)).toNat + shareOf p c - 1) / shareOf p c) else none
    | none => none
  ((entryLeft p).toList ++ waits).foldl (fun acc n => match acc with | none => some (max 1 n) | some m => some (min m (max 1 n))) none

/-- What a port sends at once: every unit that may start, lowest class first, with fuel. -/
def pumpPort : Nat → Port → Port × List FOut
  | 0, p => (p, [])
  | k + 1, p =>
    match nextClass p with
    | none => (p, [])
    | some c =>
      match firstOf p c with
      | none => (p, [])
      | some u =>
        let r := pumpPort k (sendUnit c u p)
        (r.1, u :: r.2)

/-- What a port sends while `n` bytes pass on the fibre: units as they may start, and idle, with fuel. -/
def runBytes : Nat → Nat → Port → Port × List FOut
  | 0, n, p => (sendIdle n p, [])
  | k + 1, n, p =>
    match (nextClass p).bind fun c => (firstOf p c).map fun u => (c, u) with
    | some (c, u) =>
      let r := runBytes k (n - unitBytes u) (sendUnit c u p)
      (r.1, u :: r.2)
    | none =>
      if p.queue.isEmpty then (sendIdle n p, [])
      else match idleNeed p with
        | some m => if m < n then runBytes k (n - m) (sendIdle m p) else (sendIdle n p, [])
        | none => (sendIdle n p, [])

/-- An UP port over `us` microseconds, at 8,000 bytes a microsecond for each wavelength it uses (R29, R356, R383; log entry 69). -/
def runPort (us : Nat) (p : Port) : Port × List FOut :=
  if p.state = .up then runBytes ((p.queue.length + 1) * (p.gates.length + 3)) (us * 8000 * p.width) p else (p, [])

/-- A unit given to its port, which sends what may start. -/
def offerUnit (u : FOut) (p : Port) : Port × List FOut := pumpPort (p.queue.length + 1) { p with queue := p.queue ++ [u] }

end Sys2Proof.Machine
end

