-- ==== Sys2Proof/Machine/Intake.lean ====
section
/-! DEFINITION. Taking a message (R86 to R101, R119, R419, R468, R592): the checks of Table 3-2 in order, the answers of Table 3-8a, and what
closing, parking, cancelling and barging do once they act (Tables 2-4, 4-5, 4-6). -/

namespace Sys2Proof.Machine

/-! ### Time (R48, R61, R101, R129) -/

/-- A count run down by `us` microseconds. -/
def runDown (us n : Nat) : Nat := n - us

/-- A queued frame's allowance run down (R135). -/
def runFrame (us : Nat) (q : QItem) : QItem :=
  match q with
  | .frame n sq ps a d o i => .frame n sq ps (a.map (runDown us)) d o i
  | .text ts i => .text ts i

/-- A session's residency, deadline and frame allowances run down; residency and deadline stand still while it is MOVING (R423). -/
def runSession (us : Nat) (x : Session) : Session :=
  let held := x.genHeld.map (· + us)
  if x.state == .moving then { x with genHeld := held }
  else { x with genHeld := held, allowance := runDown us x.allowance, queue := x.queue.map (runFrame us)
                request := x.request.map fun r => if r.paused then r else { r with allowance := runDown us r.allowance } }

/-- `us` microseconds of the leading hub's meter pass: meters, port byte counts, allowances and the tenants' policing buckets, which a rate of r messages
a second refills by r millionths of a message each microsecond (R101). -/
def passTime (us : Nat) (s : State) : State :=
  let s1 := tickMeters us s
  { s1 with sess := s1.sess.map (runSession us)
            links := { s1.links with ports := s1.links.ports.map fun p => (runPort us p).1
                                     out := s1.links.out ++ (s1.links.ports.map fun p => (runPort us p).2).flatten }
            tens := s1.tens.map fun t =>
              { t with bucket := min (t.depth * 1000000) (t.bucket + t.rate * us)
                       counters := { t.counters with interval := min 0xFFFFFFFFFFFFFFFF (t.counters.interval + us * 1000) } } }

/-! ### Answers and refusals -/

/-- The window a message enters (R94). -/
def msgWin (m : Sprue) : WinRef := if msgHandle m = 0 then .function m.fn else .session (msgHandle m)

/-- The client tag that an OPEN or a GENERATE carries (Tables 3-4, 3-6, 3-13). -/
def msgTag (m : Sprue) : Nat :=
  match msgOpcode m with | 1 => msgAt m 28 8 | 4 => msgAt m 44 8 | _ => 0

/-- A message as one that waits or is answered. -/
def msgAsk (m : Sprue) : Ask := { win := msgWin m, seq := msgSeq m, opcode := msgOpcode m, fn := m.fn }

/-- The outcome record of a refusal at checks 1 to 3, to the function that sent the message (R108). -/
def refuseEarly (m : Sprue) (o : OCode) (d0 d1 : Nat) (s : State) : State :=
  answerFn m.fn { tenant := msgTenant m, seq := msgSeq m, handle := if msgOpcode m = 1 then 0 else msgHandle m, outcome := o, opcode := msgOpcode m, d0 := d0, d1 := d1
                  clientTag := msgTag m, answers := true } s

/-- An answer to a message that passed check 5, settled in its window entry: to its session's receiver, or with handle 0 to the function
that sent it (R108, R592). -/
def answerMsg (m : Sprue) (o : OCode) (d0 d1 : Nat) (s : State) : State :=
  let r : OutRec := { outcome := o, seq := msgSeq m, opcode := msgOpcode m, d0 := d0, d1 := d1, clientTag := msgTag m, answers := true
                      win := some (msgWin m) }
  let s1 := settle (msgWin m) (msgSeq m) o s
  match findSess s1 (msgHandle m) with
  | some x => emitOut false x { r with length := x.p } s1
  | none => answerFn m.fn { r with tenant := msgTenant m } s1

/-- A refusal MALFORMED with its reason (Table 3-2a). -/
def refuse (m : Sprue) (reason : Nat) (s : State) : State := answerMsg m .malformed reason 0 s

/-- A message carried out with no record of its own (Table 3-8a). -/
def carried (m : Sprue) (s : State) : State := settle (msgWin m) (msgSeq m) .done s

/-! ### The checks (Table 3-2) -/

/-- Whether an opcode requires a non-zero handle (Table 3-3). -/
def opHandle (op : Nat) : Bool := decide (2 ≤ op) && decide (op ≤ 9)
/-- Whether an opcode is listed (Table 3-3). -/
def opListed (op : Nat) : Bool := (decide (1 ≤ op) && decide (op ≤ 12)) || (decide (16 ≤ op) && decide (op ≤ 18))
/-- Whether only a physical function may send it (Table 3-3). -/
def opPhysical (op : Nat) : Bool := op == 0x11 || op == 0x12
/-- Whether it is policed (Table 3-3). -/
def opPoliced (op : Nat) : Bool := decide (op ≤ 12)

/-- Whether a tenant is bound to a function (R86, R461). -/
def boundTo (t : Tenant) (fn : Nat) : Bool := bitAt (if linkOf fn = 0 then t.link0 else t.link1) (fn % 256)

/-- The session of a handle as a message reaches it: shard entries are not reachable (R420). -/
def reachable (s : State) (h : Nat) : Option Session :=
  match findSess s h with
  | some x => if x.shardOf.isSome || x.state == .free then none else some x
  | none => none

/-- R419: a handle that the package does not hold. -/
def notHeld (c : Instr) (m : Sprue) (s : State) : State :=
  let h := msgHandle m
  let stale := fun (k : Nat) => refuseEarly m .staleEpoch (newestEpoch s) k s
  match s.rack.forwards.find? (fun (f : Nat × Nat × Nat) => f.1 == h) with
  | some f => stale f.2.1
  | none =>
    if createdHere s h || !inDomain s || s.rack.managerLost then refuseEarly m .malformed 6 0 s
    else
      let k := managerOf s (creatorOf h)
      if k = s.rack.num then
        match s.rack.directory.find? (fun (e : DirEntry) => e.handle == h) with
        | some e => if e.holder = s.rack.num then refuseEarly m .malformed 6 0 s else stale e.holder
        | none => refuseEarly m .malformed 6 0 s
      else
        sendMgr k 6 h [] [] [] { s with rack := { s.rack with lookups := s.rack.lookups ++ [(h, c)] } }

/-- Check 5 for a window's verdict: the DUPLICATE record of R99. Detail 1, the original's opcode, is 0 where the original is unknown (log entry
201). -/
def answerDuplicate (m : Sprue) (e : Option WinEntry) (s : State) : State :=
  let d0 := match e with | some x => (x.outcome.map ocode).getD 0xFFFF | none => 0xFFFE
  let r : OutRec := { outcome := .duplicate, seq := msgSeq m, opcode := msgOpcode m, d0 := d0, d1 := (e.map WinEntry.opcode).getD 0
                      clientTag := msgTag m, position := (e.map WinEntry.position).getD 0, answers := true, dup := true }
  match findSess s (msgHandle m) with
  | some x => emitOut false x { r with length := x.p } s
  | none => answerFn m.fn { r with tenant := msgTenant m } s

/-- A session's image kept before the first message it takes since the last mirror, while a hub follows (R511, R516). -/
def keepImage (h : Nat) (s : State) : State :=
  match findSess s h with
  | none => s
  | some x =>
    if hasFollower s && !(s.cores.unmirrored.any fun p => p.2.handle == h) then
      { s with cores := { s.cores with unmirrored := s.cores.unmirrored ++ [(s.sched.pour.any fun p => p.step == 8, x)] } }
    else s

/-- The allowances of a session as a mirror carries them (R48). -/
def allowedOf (x : Session) : Allowed :=
  { handle := x.handle, kind := x.allowKind, value := x.allowance, req := x.request.map fun r => (r.seq, r.allowance)
    frames := x.queue.filterMap fun q => match q with | .frame _ _ _ a _ o _ => some (o, a) | .text _ _ => none }

/-- A mirror acknowledged: what was taken before it is in it (R511). -/
def mirrorTaken (s : State) : State := { s with cores := { s.cores with unmirrored := [], allowed := s.sess.map allowedOf } }

/-- Checks 5 and 6's place for a retiring tenant (R468), then what the opcode does. -/
def checkWindow (m : Sprue) (body : State → State) (s : State) : State :=
  match windowVerdict (windowOf s (msgWin m)) (msgSeq m) with
  | .duplicate e => answerDuplicate m (some e) s
  | .unknown => answerDuplicate m none s
  | .fresh =>
    let s1 := onWindow (msgWin m) (fun w => windowEnter w (msgSeq m) (msgOpcode m)) (keepImage (msgHandle m) s)
    if ((findTen s (msgTenant m)).map Tenant.retiring).getD false && msgOpcode m != 0x10 then answerMsg m .tenantRetiring 0 0 s1
    else body s1

/-- A message in a policed tenant's bucket (R101): one token is a million millionths. -/
def policeToken : Nat := 1000000

/-- Check 4. -/
def checkPolice (m : Sprue) (body : State → State) (s : State) : State :=
  if opPoliced (msgOpcode m) then
    match findTen s (msgTenant m) with
    | none => checkWindow m body s
    | some t =>
      if t.bucket < policeToken then
        onFn m.fn (fun f => { f with policed := f.policed + 1 })
          (onTen t.id (fun x => { x with counters := { x.counters with policed := min max64 (x.counters.policed + 1) } }) s)
      else checkWindow m body (onTen t.id (fun x => { x with bucket := x.bucket - policeToken }) s)
  else checkWindow m body s

/-- Checks 1 to 3. -/
def checkOwner (c : Instr) (m : Sprue) (body : State → State) (s : State) : State :=
  let op := msgOpcode m
  if msgCrcOk m = false then
    answerFn m.fn { tenant := msgTenant m, outcome := .malformed, opcode := op, d0 := 1, d1 := m.slot, answers := true } s
  else if 2 < msgMinor m then refuseEarly m .notSupported 0 0 s
  else if opListed op = false ∨ (opPhysical op = true ∧ isPhys m.fn = false) then refuseEarly m .notSupported 0 0 s
  else if opHandle op = (msgHandle m == 0) then refuseEarly m .malformed 3 0 s
  else if opPhysical op then checkPolice m body s
  else match findTen s (msgTenant m) with
    | none => refuseEarly m .malformed 4 0 s
    | some t =>
      if boundTo t m.fn = false then refuseEarly m .malformed 4 0 s
      else if msgHandle m = 0 then checkPolice m body s
      else match reachable s (msgHandle m) with
        | none => notHeld c m s
        | some x => if x.tenant ≠ t.id then refuseEarly m .malformed 5 0 s else checkPolice m body s

/-- A message written into a slot: discarded and counted where the device does not serve (R119, R528) or the slot still holds one (R91);
left unconsumed from a stop notice on; otherwise consumed and checked (R92, R94). -/
def takeMessage (c : Instr) (m : Sprue) (body : State → State) (s : State) : State :=
  if serving s then checkOwner c m body (onFn m.fn (fun f => { f with consumed := f.consumed + 1 }) s)
  else if (s.dev.code == .stopping || s.dev.code == .stopped) && !((fnOf s m.fn).slots.any fun p => p.1 == m.slot) then
    onFn m.fn (fun f => { f with slots := f.slots ++ [(m.slot, c)] }) s
  else onFn m.fn (fun f => { f with discarded := f.discarded + 1 }) s

/-! ### A session's expired allowance (R58, R62, Table 2-4) -/

/-- An expired allowance acts: WARM, PARKED, or CLOSED with the report of R65. -/
def expire (h : Nat) (s : State) : State :=
  match findSess s h with
  | none => s
  | some x =>
    if x.allowance ≠ 0 || x.op.isSome || x.state == .moving then s
    else match x.allowKind with
      | 1 | 2 => startDemotion false h s
      | 3 => startPark false (parkForm s x 0) none h s
      | 4 =>
        let s1 := closeSession h s
        (match findSess s1 h with
         | some y => emitOut false y { outcome := .done, length := y.p, d0 := 4, reports := true } s1
         | none => s1)
      | _ => s

/-! ### Closing, parking, cancelling, barging (Table 2-4, R53, R143, R144) -/

/-- The order stamp of a message that waits for its boundary (R129). -/
def stampAsk (a : Ask) (h : Nat) (s : State) : State :=
  let n := s.sched.orders + 1
  { onSess h (fun x => { x with asks := x.asks ++ [{ a with order := n }] }) s with sched := { s.sched with orders := n } }

/-- A session that stops waiting for its tool result: ACTIVE if slotted, else OPEN (Table 2-4). -/
def stopWaiting (h : Nat) (s : State) : State :=
  arm h (onSess h (fun x => if x.state == .waitingTool then { x with state := awake x, toWait := false } else x) s)

/-- Pours of which no release point has run: their slots' work may still be thrown away. -/
def unreleased (s : State) : List Pour := (s.sched.pour.toList.filter fun p => decide (p.step ≤ 7)) ++ s.sched.suspended

/-- A slot's work in a pour thrown away: what the pour wrote at W and beyond goes, recurrent state returns to that of step 1 (R138, R143). -/
def discardWork (w : Work) (s : State) : State :=
  seat w.handle (dropAnchors w.handle (((findSess s w.handle).map Session.w).getD 0) (onSess w.handle (fun x =>
    match sessProg s x with
    | none => x
    | some p => { cutPages p x.w x with tokens := x.tokens, blocks := w.blocks0, snapshots := w.snaps0 }) s))

/-- A BARGE taken mid-pour: the slot masked, its work discarded (R143). -/
def maskSlot (h : Nat) (s : State) : State :=
  let ws := ((unreleased s).map fun p => p.works.filter fun w => w.handle == h && isWorking w && !w.barged).flatten
  let mark := fun (p : Pour) => { p with works := p.works.map fun w => if w.handle = h then { w with barged := true } else w }
  let s1 := forEach ws discardWork s
  { s1 with sched := { s1.sched with pour := s1.sched.pour.map fun p => if p.step ≤ 7 then mark p else p, suspended := s1.sched.suspended.map mark } }

/-- A CLOSE acts (Tables 2-4, 4-6, R53). -/
def closeNow (b : Bool) (a : Ask) (h : Nat) (s : State) : State :=
  match findSess s h with
  | none => s
  | some x =>
    if x.state == .closed then answerAsk b h a .done 0 s
    else
      let s1 := abortMigration h .closed (abandonOp b h (maskSlot h s))
      let s2 := endRequest b h .cancelled none true 0 0 s1
      if x.oneShot && x.request.isSome then freeSession h (answerAsk b h a .done 0 s2)
      else
        let s3 := settle a.win a.seq .done (closeSession h s2)
        match findSess s3 h with
        | none => s3
        | some y => emitOut b y { outcome := .done, seq := a.seq, opcode := a.opcode, length := y.p, answers := true, win := some a.win
                                  reports := true } s3

/-- A PARK acts (Table 2-4, R53). -/
def parkNow (b : Bool) (a : Ask) (h : Nat) (s : State) : State :=
  match findSess s h with
  | none => s
  | some x =>
    if x.state == .parked then answerAsk b h a .done 0 s
    else if x.state == .opened || x.state == .active then
      let s1 := endRequest b h .cancelled none true 0 0 (maskSlot h s)
      if x.oneShot && x.request.isSome then freeSession h (answerAsk b h a .done 0 s1)
      else startPark b (parkForm s1 x a.quantise) (some a) h (onSess h (fun y => { y with toWait := false }) s1)
    else startPark b (parkForm s x a.quantise) (some a) h s

/-- A CANCEL acts (Tables 2-4, 4-5). -/
def cancelNow (b : Bool) (a : Ask) (h : Nat) (s : State) : State :=
  match findSess s h with
  | none => s
  | some x =>
    if x.request.isSome then stopWaiting h (endRequest b h .cancelled (some a) true 0 0 s)
    else answerAsk b h a .nothingToCancel 0 s

/-- The records of a pour in flight for a session, dropped before they are written (R143). -/
def dropUnwritten (h : Nat) (s : State) : State :=
  let mine := fun (r : WaitRec) => r.inPour && (match r.body with | .ses q _ => q.handle == h | .out q _ => q.handle == h)
  { s with fns := s.fns.map fun f => { f with waiting := f.waiting.filter fun r => !mine r } }

/-- A BARGE acts when it is taken, at the P that then holds (R144): the slot masked, its records of the pour not yet written dropped while its request goes on, the session rewound (R82, R143). -/
def bargeNow (a : Ask) (heard : Nat) (h : Nat) (s : State) : State :=
  match findSess s h with
  | none => s
  | some x =>
    let s1 := if x.request.isSome then dropUnwritten h (maskSlot h s) else maskSlot h s
    let s2 := (rewind h (min heard x.p) s1).1
    if x.request.isSome then stopWaiting h (endRequest false h .barged (some a) false 0 0 s2)
    else answerAsk false h a .nothingToCancel 0 s2

/-! ### Where a message acts (Table 2-4, R59) -/

/-- A message held for its session, last in arrival order. -/
def hold (c : Instr) (h : Nat) (s : State) : State :=
  onSess h (fun x =>
    { x with heldMsgs := x.heldMsgs ++ [c]
             genHeld := match c with | .generate _ _ => some (x.genHeld.getD 0) | _ => x.genHeld }) s

/-- A session message after checks 6 and 7: the columns MOVING, CLOSED and LOST of Table 2-4, an operation under way (R59), or what the
message does in the other states. `soon` is a message that an operation does not hold; `closed` the CLOSED column. -/
def inState (c : Instr) (m : Sprue) (soon : Bool) (closed body : State → State) (s : State) : State :=
  match findSess s (msgHandle m) with
  | none => s
  | some x =>
    if x.state == .moving then hold c x.handle s
    else if x.state == .lost then answerMsg m .lost 0 0 s
    else if x.state == .closed then closed s
    else if x.op.isSome && !soon then hold c x.handle s
    else body s

/-- Revive (Table 2-3). -/
def revive (c : Instr) (h : Nat) (s : State) : State := startRevival h (hold c h s)

/-! ### Input (Tables 3-5, 3-7, R55, R132, R278 to R286) -/

/-- Whether `n` more positions pass the limit of R55. -/
def overLimit (x : Session) (n : Nat) : Bool := decide (maxPositions < x.p + queuedCount x.queue + n)

/-- Tokens that closing a session's input text state would queue (R280). -/
def closeCost (s : State) (x : Session) : Nat :=
  match sessTok s x with | none => 0 | some t => (closeText t (normData s) x.normForm x.strict x.text).toks.length

/-- A strict session's ill-formed message: INVALID_TEXT ends a request in progress and clears its call (R279). -/
def invalidText (m : Sprue) (off : Nat) (s : State) : State :=
  match findSess s (msgHandle m) with
  | none => s
  | some x =>
    if x.request.isSome then freeSpent x.handle (stopWaiting x.handle (endRequest false x.handle .invalidText (some (msgAsk m)) true off 0 s))
    else answerMsg m .invalidText off 0 s

/-- Data queued: the message is done, and the session's place and allowance follow (R61, R592). -/
def queued (m : Sprue) (s : State) : State := arm (msgHandle m) (stampQueue (msgHandle m) (carried m s))

/-- Text of an APPEND_TEXT queued (R277 to R286). -/
def queueText (m : Sprue) (bytes : List Byte) (s : State) : State :=
  match findSess s (msgHandle m) with
  | none => s
  | some x =>
    match sessTok s x with
    | none => carried m s
    | some t =>
      let r := takeText t (normData s) x.normForm x.strict bytes x.text
      match r.bad with
      | some off => invalidText m off (setSess { x with text := r.text } s)
      | none =>
        if overLimit x r.toks.length then refuse m 7 s
        else queued m (countFixes x.tenant r.fixes (setSess (pushText r.toks { x with text := r.text }) s))

/-- Token identifiers queued, the input text state closed first (R280). -/
def queueTokens (m : Sprue) (toks : List Nat) (s : State) : State :=
  match findSess s (msgHandle m) with
  | none => s
  | some x =>
    if overLimit x (closeCost s x + toks.length) then refuse m 7 s
    else queued m (onSess x.handle (pushText toks) (closeInput x.handle s))

/-- A frame queued with its data, which stay until they are encoded (R132, R135, R197). -/
def queueFrame (m : Sprue) (positions : Nat) (data : List Byte) (s : State) : State :=
  match findSess s (msgHandle m) with
  | none => s
  | some x =>
    if overLimit x (closeCost s x + positions) then refuse m 7 s
    else
      let allow := msgAt m 32 4
      let s1 := closeInput x.handle s
      let n := max s1.sched.orders ((x.frameData.map Prod.fst).foldl max 0) + 1
      let item := fun (y : Session) =>
        QItem.frame (msgAt m 28 4) (msgSeq m) positions (if allow = 0 then none else some allow) false n (insideRequest y)
      let s2 := onSess x.handle (fun y => { y with queue := y.queue ++ [item y], frameData := y.frameData ++ [(n, data)] }) s1
      queued m { s2 with sched := { s2.sched with orders := n } }

/-- Queued positions that a pour in flight takes as a session's chunk. -/
def chunkOf (s : State) (h : Nat) : Nat :=
  ((((unreleased s).map Pour.works).flatten.filter fun w => w.handle == h && !w.barged).map fun w => (w.chunk.map Chunk.len).getD 0).sum

/-- Result tokens queued ahead of any other input, behind the first `n` positions, which a pour in flight takes (R146, R147). -/
def pushBehind (n : Nat) (toks : List Nat) (x : Session) : Session :=
  if toks.isEmpty then x
  else { x with queue := (splitQueue n x.queue).1 ++ .text toks (insideRequest x) :: (splitQueue n x.queue).2 }

/-- Token identifiers put at the head of a session's queue. -/
def pushFront (toks : List Nat) (x : Session) : Session :=
  if toks.isEmpty then x else { x with queue := .text toks (insideRequest x) :: x.queue }

/-- A request's mould context at its resume state with an empty stack (R300). -/
def resumeMould (s : State) (r : Request) : Request :=
  match findKey Mould.number r.mould s.dev.moulds with
  | none => r
  | some md => { r with ctx := some { state := md.resume } }

/-- A tool result carried out: its tokens ahead of other input, the call cleared, the deadline running again (R139, R146, R300). -/
def toolResultNow (m : Sprue) (toks : List Nat) (s : State) : State :=
  let h := msgHandle m
  let s1 := onSess h (fun y =>
    let z := pushFront toks y
    let r := y.request.map fun r => if toks.isEmpty then resumeMould s { r with paused := false } else { r with paused := false }
    { z with call := none, toWait := false, request := r }) s
  stopWaiting h (queued m s1)

/-- The text of a tool result: the input text state closed before it and after it (R280). -/
def toolText (m : Sprue) (bytes : List Byte) (s : State) : State :=
  match findSess s (msgHandle m) with
  | none => s
  | some x =>
    match sessTok s x with
    | none => toolResultNow m [] s
    | some t =>
      let c := closeText t (normData s) x.normForm x.strict x.text
      let r := takeText t (normData s) x.normForm x.strict bytes c.text
      let e := closeText t (normData s) x.normForm x.strict r.text
      match r.bad with
      | some off => invalidText m off (onSess x.handle (fun y => { y with text := r.text }) (closeInput x.handle s))
      | none =>
        if overLimit x (c.toks.length + r.toks.length + e.toks.length) then refuse m 7 s
        else
          let s1 := countFixes x.tenant (r.fixes + e.fixes) (onSess x.handle (fun y => { y with text := e.text }) (closeInput x.handle s))
          let s2 := match e.bad with
            | none => s1
            | some off => emitOut false x { outcome := .invalidText, opcode := 0, length := x.p, d0 := off } s1
          toolResultNow m (r.toks ++ e.toks) s2

/-- Position P − 1 taken out of state, to be written again by the request's first pour (R85). -/
def takeBack (h : Nat) (s : State) : State :=
  match findSess s h with
  | none => s
  | some x =>
    match sessProg s x with
    | none => s
    | some p =>
      let b := snapBase x (x.p - 1)
      let tok := x.tokens.getD (x.p - 1) frameToken
      if x.w ≠ x.p ∨ x.queue.isEmpty = false ∨ x.p = 0 ∨ tok = frameToken ∨ (hasRecurrent p && framesIn x b (x.p - 1)) then s
      else
        let y := cutPages p (x.p - 1) x
        let bs := if hasRecurrent p then blocksAt p s.free (x.p - 1) x else x.blocks
        dropAnchors h (x.p - 1) (releasePages (some p) (x.pages.filter fun g => !y.pages.contains g)
          (setSess { y with w := x.p - 1, pendingTok := some tok, blocks := bs
                            snapshots := x.snapshots.filter fun n => decide (n.pos ≤ x.p - 1) } (drawFree s)))

/-- Whether a message names the outstanding host call, or its session is where the state machine decides (Table 3-2a, reason 3). -/
def callNamed (x : Session) (n : Nat) : Bool :=
  x.state == .moving || x.state == .closed || x.state == .lost || x.call == some (.host n)

end Sys2Proof.Machine
end

