-- ==== Sys2Proof/Machine/Messages.lean ====
section
/-! DEFINITION. What each session message, TAP_RELEASE, BUDGET and CLOCK_FORWARD does (Tables 3-3 to 3-8, 2-4), and the messages that wait
for an operation to end or for the hold-up bound. -/

namespace Sys2Proof.Machine

/-! ### OPEN (Table 3-4, R49 to R55, R64, R227, R372) -/

/-- Serials in a reserved block (R50). -/
def serialBlock : Nat := 16777216

/-- The next serial, a fresh block recorded in the health record when the last is used up (R50). -/
def issueSerial (s : State) : Nat × State :=
  let n := s.dev.nextSerial
  let s1 :=
    if s.dev.serialEnd < n then
      hrRewrite (fun r => { r with serialEnd := n + serialBlock - 1 }) { s with dev := { s.dev with serialEnd := n + serialBlock - 1 } }
    else s
  (n, { s1 with dev := { s1.dev with nextSerial := n + 1 } })

/-- A handle of this package (R49). -/
def handleOf (package serial : Nat) : Nat := package * 2 ^ 52 + serial

/-- The normalisation an OPEN fixes: the model's default for code 0 (Table 3-4, R281). -/
def normOf (p : ModelProgram) (code : Nat) : Nat := if code = 0 then p.normalisation else code

/-- The session an OPEN makes. -/
def newSession (s : State) (m : Sprue) (h : Nat) (t : Tenant) (md : Model) : Session :=
  let flags := msgAt m 19 1
  let p := md.program
  let norm := (p.map fun q => normOf q (msgAt m 20 1)).getD (msgAt m 20 1)
  { handle := h, tenant := t.id, model := md.num, durability := msgAt m 18 1, oneShot := flags.testBit 0, strict := flags.testBit 1
    normForm := norm, home := msgAt m 22 2, alternate := msgAt m 24 2, vector := msgAt m 26 2, clientTag := msgAt m 28 8
    blocks := (p.map initBlocks).getD [], homeDie := chooseDie s t.partition, heads := (ownHeads s md.num).map Prod.snd }

/-- An OPEN carried out: handle and entry issued, DONE to the home function with the handle (Table 3-4), the entry in the anchor log and the
rack directory. -/
def openNow (m : Sprue) (s : State) : State :=
  match findTen s (msgTenant m), findModel s (msgAt m 16 2) with
  | some t, some md =>
    let r := issueSerial s
    let h := handleOf s.rack.num r.1
    let x := newSession r.2 m h t md
    let s1 := settle (msgWin m) (msgSeq m) .done (seat h (addSess x r.2))
    let s2 := emitOut false x { outcome := .done, seq := msgSeq m, opcode := 1, d0 := h, clientTag := msgTag m, answers := true
                                win := some (msgWin m) } s1
    tellDirectory h s.rack.num 1 (arm h (anchor 1 h s2))
  | _, _ => refuse m 3 s

/-- Whether the model of an OPEN is bound in the tenant's partition (R206). -/
def modelOk (s : State) (t m : Nat) : Bool :=
  match findTen s t, findModel s m with
  | some x, some y => y.state == 2 && y.partition == x.partition
  | _, _ => false

/-- Pools that sessions of a tenant may use (R226). -/
def poolsFor (s : State) (t : Nat) : Nat :=
  match findTen s t with | none => 0 | some x => (allowedPools s (placementOf s 2 x.partition t 0)).length

/-- Check 6 of an OPEN (Table 3-4, R52, R206, R226). -/
def openFields (m : Sprue) (s : State) : Bool :=
  let v := msgAt m 26 2
  modelOk s (msgTenant m) (msgAt m 16 2) && decide (msgAt m 18 1 ≤ 2) && decide (msgAt m 20 1 ≤ 3) && fnNamed s.part (msgAt m 22 2) &&
    (msgAt m 24 2 == 0xFFFF || fnNamed s.part (msgAt m 24 2)) && (v == 0 || (decide (3 ≤ v) && decide (v ≤ 2047))) &&
    (msgAt m 18 1 == 0 || decide (2 ≤ poolsFor s (msgTenant m)))

/-- The size an OPEN would add to a checkpoint: its entry and its section with fresh recurrent blocks (R371, R435). -/
def openSize (m : Sprue) (s : State) : Nat :=
  64 + 64 + 64 + 1088 + blockBytes (((progOf s (msgAt m 16 2)).map initBlocks).getD [])

/-- An OPEN after the checks: STORE_FULL with a full directory; waiting in arrival order for the hold-up bound; otherwise carried out
(R64, R372). -/
def doOpen (m : Sprue) (s : State) : State :=
  if openFields m s = false then refuse m 3 s
  else if directoryLimit s.part ≤ entriesUsed s then answerMsg m .storeFull 0 0 s
  else if s.ledger.waiting.isEmpty && holdUpFits s (saveSize s + openSize m s) then openNow m s
  else { s with ledger := { s.ledger with waiting := s.ledger.waiting ++ [.openSession m] } }

/-! ### Session messages -/

/-- The vocabulary of a session's model. -/
def vocabOf (s : State) (x : Session) : Nat := ((sessProg s x).map ModelProgram.vocabulary).getD 0

/-- An APPEND_TEXT after check 5 (Table 3-5). -/
def doAppendText (m : Sprue) (buf : HostBuf) (s : State) : State :=
  match findSess s (msgHandle m) with
  | none => s
  | some x =>
    let inl := msgAt m 16 1
    let flags := msgAt m 17 1
    let byRef := flags.testBit 1
    let toks := flags.testBit 0
    let n := if byRef then msgAt m 28 4 else inl
    if (byRef = true ∧ (inl ≠ 0 ∨ n = 0 ∨ 1048576 < n)) ∨ (byRef = false ∧ 40 < inl) ∨ (toks = true ∧ n % 4 ≠ 0) then refuse m 2 s
    else if toks && overLimit x (closeCost s x + n / 4) then refuse m 7 s
    else match (if byRef then buf.map (List.take n) else some (inlineBytes m.w 20 inl)) with
      | none => refuse m 8 s
      | some bytes =>
        let ids := (tokensOf bytes).getD []
        if toks && ids.any (fun t => decide (vocabOf s x ≤ t)) then refuse m 3 s
        else inState (.appendText m buf) m false (refuse m 6) (fun s1 =>
          if x.state == .waitingTool then refuse m 6 s1
          else if resident x then (if toks then queueTokens m ids s1 else queueText m bytes s1)
          else revive (.appendText m buf) x.handle s1) s

/-- An APPEND_FRAME after check 5 (Table 3-5, R197). -/
def doAppendFrame (m : Sprue) (buf : HostBuf) (s : State) : State :=
  match findSess s (msgHandle m) with
  | none => s
  | some x =>
    match sessProg s x with
    | none => refuse m 3 s
    | some p =>
      if p.encoders.isEmpty then refuse m 3 s
      else if msgAt m 24 4 ≠ p.frameBytes then refuse m 2 s
      else if overLimit x (closeCost s x + p.framePositions) then refuse m 7 s
      else if buf.isNone then refuse m 8 s
      else inState (.appendFrame m buf) m false (refuse m 6) (fun s1 =>
        if x.state == .waitingTool then refuse m 6 s1
        else if resident x then queueFrame m p.framePositions (buf.getD []) s1
        else revive (.appendFrame m buf) x.handle s1) s

/-- The request that a GENERATE starts (Table 3-6, R139, R300). -/
def newRequest (m : Sprue) (stops : List (List Byte)) (start : Option Nat) : Request :=
  let cls := msgAt m 22 1
  { seq := msgSeq m, win := msgWin m, maxTokens := msgAt m 16 4, mould := msgAt m 20 2, dclass := cls
    greedy := (msgAt m 23 1).testBit 0, allowance := if cls = 0 then 0 else msgAt m 24 4, temperature := msgAt m 28 2, topP := msgAt m 30 2
    topK := msgAt m 32 2, stops := stops, clientTag := msgAt m 44 8, ctx := start.map fun n => { state := n } }

/-- A GENERATE that starts a request: the input text state closed, position P − 1 taken back where no logits are at hand (R85, R280, R286). -/
def startRequest (m : Sprue) (stops : List (List Byte)) (start : Option Nat) (s : State) : State :=
  match findSess s (msgHandle m) with
  | none => s
  | some x =>
    if overLimit x (closeCost s x) && decide (0 < closeCost s x) then refuse m 7 s
    else
      let h := x.handle
      let r := newRequest m stops start
      let s1 := onSess h (fun y => { y with request := some { r with allowance := r.allowance - x.genHeld.getD 0 }, genHeld := none }) (closeInput h s)
      arm h (takeBack h s1)

/-- A mould a GENERATE may name: loaded, and of the model's tokeniser (R303). -/
def mouldStart (s : State) (x : Session) (n : Nat) : Option (Option Nat) :=
  if n = 0 then some none
  else match findKey Mould.number n s.dev.moulds, sessProg s x with
    | some md, some p => if md.tokeniser = p.tokeniser then some (some md.start) else none
    | _, _ => none

/-- A GENERATE after check 5 (Table 3-6). -/
def doGenerate (m : Sprue) (buf : HostBuf) (s : State) : State :=
  match findSess s (msgHandle m) with
  | none => s
  | some x =>
    let n := msgAt m 16 4
    let cls := msgAt m 22 1
    let k := msgAt m 34 1
    if n = 0 ∨ 1048576 < n ∨ 2 < cls ∨ (cls ≠ 0 ∧ msgAt m 24 4 = 0) ∨ 16 < k then refuse m 3 s
    else match mouldStart s x (msgAt m 20 2) with
      | none => refuse m 3 s
      | some start =>
        match (if k = 0 then some [] else buf) with
        | none => refuse m 8 s
        | some bytes =>
          match stopStrings k bytes with
          | none => refuse m 2 s
          | some stops =>
            if stops.all wellFormedText = false then refuse m 3 s
            else inState (.generate m buf) m false (refuse m 6) (fun s1 =>
              if x.state == .waitingTool || x.request.isSome then refuse m 6 s1
              else if resident x then startRequest m stops start s1
              else revive (.generate m buf) x.handle s1) s

/-- A TOOL_RESULT after check 5 (Table 3-7, R95). -/
def doToolResult (m : Sprue) (buf : HostBuf) (s : State) : State :=
  match findSess s (msgHandle m) with
  | none => s
  | some x =>
    let n := msgAt m 24 4
    let toks := (msgAt m 32 1).testBit 0
    if 1048576 < n ∨ (toks = true ∧ n % 4 ≠ 0) then refuse m 2 s
    else if callNamed x (msgAt m 28 4) = false then refuse m 3 s
    else if toks && decide (0 < n) && overLimit x (closeCost s x + n / 4) then refuse m 7 s
    else match (if n = 0 then some [] else buf.map (List.take n)) with
      | none => refuse m 8 s
      | some bytes =>
        let ids := (tokensOf bytes).getD []
        if toks && ids.any (fun t => decide (vocabOf s x ≤ t)) then refuse m 3 s
        else inState (.toolResult m buf) m false (refuse m 6) (fun s1 =>
          if resident x = false then revive (.toolResult m buf) x.handle s1
          else if toks || n == 0 then
            let k := closeCost s1 x + ids.length
            if overLimit x k && decide (0 < k) then refuse m 7 s1 else toolResultNow m ids (closeInput x.handle s1)
          else toolText m bytes s1) s

/-- A CANCEL after check 5: at the boundary while a pour of the session's flask is in flight, otherwise at once (R143). -/
def doCancel (m : Sprue) (s : State) : State :=
  match findSess s (msgHandle m) with
  | none => s
  | some x =>
    inState (.cancel m) m true (answerMsg m .nothingToCancel 0 0) (fun s1 =>
      if x.state == .active && inFlight s1 x then stampAsk (msgAsk m) x.handle s1
      else freeSpent x.handle (cancelNow false (msgAsk m) x.handle s1)) s

/-- A BARGE after check 5 (R143). -/
def doBarge (m : Sprue) (s : State) : State :=
  match findSess s (msgHandle m) with
  | none => s
  | some x =>
    inState (.barge m) m true (answerMsg m .nothingToCancel 0 0) (fun s1 =>
      freeSpent x.handle (bargeNow (msgAsk m) (msgAt m 16 4) x.handle s1)) s

/-- A PARK after check 5 (Table 3-7, R143). -/
def doPark (m : Sprue) (s : State) : State :=
  match findSess s (msgHandle m) with
  | none => s
  | some x =>
    if 2 < msgAt m 16 1 then refuse m 3 s
    else
      let a := { msgAsk m with quantise := msgAt m 16 1 }
      inState (.park m) m false (refuse m 6) (fun s1 =>
        if x.state == .active && inFlight s1 x then stampAsk a x.handle s1 else parkNow false a x.handle s1) s

/-- A CLOSE after check 5 (R143, R144). -/
def doClose (m : Sprue) (s : State) : State :=
  match findSess s (msgHandle m) with
  | none => s
  | some x =>
    inState (.close m) m true (answerMsg m .done 0 0) (fun s1 =>
      if x.state == .active && inFlight s1 x then stampAsk (msgAsk m) x.handle s1
      else closeNow false (msgAsk m) x.handle s1) s

/-- A session message carried out: a read of its entry first checks its allowance (R62). -/
def applySession (c : Instr) (s : State) : State :=
  match c with
  | .appendText m b => doAppendText m b (expire (msgHandle m) s)
  | .appendFrame m b => doAppendFrame m b (expire (msgHandle m) s)
  | .generate m b => doGenerate m b (expire (msgHandle m) s)
  | .toolResult m b => doToolResult m b (expire (msgHandle m) s)
  | .cancel m => doCancel m (expire (msgHandle m) s)
  | .barge m => doBarge m (expire (msgHandle m) s)
  | .park m => doPark m (expire (msgHandle m) s)
  | .close m => doClose m (expire (msgHandle m) s)
  | _ => s

/-! ### Messages held (R59, R144) -/

/-- Held messages applied in arrival order while no operation is under way, with fuel for their number; one that must wait again goes back
to the front. -/
def drainWithFuel (h : Nat) : Nat → State → State
  | 0, s => s
  | k + 1, s =>
    match findSess s h with
    | none => s
    | some x =>
      match x.heldMsgs with
      | [] => s
      | c :: rest =>
        if x.op.isSome || x.state == .moving then s
        else
          let s1 := applySession c (onSess h (fun y => { y with heldMsgs := [] }) s)
          if (findSess s1 h).isNone then forEach rest (answerGone x) s1
          else drainWithFuel h k (onSess h (fun y => { y with heldMsgs := y.heldMsgs ++ rest }) s1)

/-- A session's held messages applied as far as they can be. -/
def drainHeld (h : Nat) (s : State) : State :=
  match findSess s h with
  | none => s
  | some x => drainWithFuel h x.heldMsgs.length s

/-- A message for a session: taken, checked and carried out; then what was held behind an operation that it ended. -/
def sessionMessage (c : Instr) (m : Sprue) (s : State) : State := drainHeld (msgHandle m) (takeMessage c m (applySession c) s)

/-- OPEN. -/
def execOpenSession (m : Sprue) (s : State) : Host.Outcome State Fault Refusal := .next (takeMessage (.openSession m) m (doOpen m) s)
/-- APPEND_TEXT. -/
def execAppendText (m : Sprue) (buf : HostBuf) (s : State) : Host.Outcome State Fault Refusal := .next (sessionMessage (.appendText m buf) m s)
/-- APPEND_FRAME. -/
def execAppendFrame (m : Sprue) (buf : HostBuf) (s : State) : Host.Outcome State Fault Refusal := .next (sessionMessage (.appendFrame m buf) m s)
/-- GENERATE. -/
def execGenerate (m : Sprue) (stops : HostBuf) (s : State) : Host.Outcome State Fault Refusal := .next (sessionMessage (.generate m stops) m s)
/-- TOOL_RESULT. -/
def execToolResult (m : Sprue) (buf : HostBuf) (s : State) : Host.Outcome State Fault Refusal := .next (sessionMessage (.toolResult m buf) m s)
/-- CANCEL. -/
def execCancel (m : Sprue) (s : State) : Host.Outcome State Fault Refusal := .next (sessionMessage (.cancel m) m s)
/-- BARGE. -/
def execBarge (m : Sprue) (s : State) : Host.Outcome State Fault Refusal := .next (sessionMessage (.barge m) m s)
/-- PARK. -/
def execPark (m : Sprue) (s : State) : Host.Outcome State Fault Refusal := .next (sessionMessage (.park m) m s)
/-- CLOSE. -/
def execClose (m : Sprue) (s : State) : Host.Outcome State Fault Refusal := .next (sessionMessage (.close m) m s)

/-! ### TAP_RELEASE, BUDGET, CLOCK_FORWARD, unknown opcodes -/

/-- TAP_RELEASE after check 5 (R109). -/
def doTapRelease (m : Sprue) (s : State) : State :=
  let v := msgAt m 16 8
  let f := fnOf s m.fn
  if v < f.released ∨ f.next < v then refuse m 10 s else releaseTo m.fn v (carried m s)

/-- TAP_RELEASE. -/
def execTapRelease (m : Sprue) (s : State) : Host.Outcome State Fault Refusal := .next (takeMessage (.tapRelease m) m (doTapRelease m) s)

/-- The data of a budget event: the tenant and the budget below its low mark (R338). -/
def budgetData (t v : Nat) : Nat := t * 2 ^ 48 + v % 2 ^ 48

/-- A tenant's budget set to `v`: a fall from at least the low mark to below it is a health event with vector 2 (R338). -/
def setBudget (t v : Nat) (s : State) : State :=
  match findTen s t with
  | none => s
  | some x =>
    let s1 := onTen t (fun y => { y with budget := v }) s
    if x.lowMark ≤ x.budget ∧ v < x.lowMark then healthSignal (leadDie s) (budgetData t v) s1 else s1

/-- BUDGET after check 5 (R336, R337). -/
def doBudget (m : Sprue) (s : State) : State :=
  match findTen s (msgTenant m) with
  | none => refuse m 3 s
  | some t =>
    let mode := msgAt m 24 1
    if 1 < mode then refuse m 3 s
    else
      let v := if mode = 0 then min max64 (t.budget + msgAt m 16 8) else msgAt m 16 8
      answerMsg m .done v 0 (setBudget t.id v s)

/-- BUDGET. -/
def execBudget (m : Sprue) (s : State) : Host.Outcome State Fault Refusal := .next (takeMessage (.budget m) m (doBudget m) s)

/-- CLOCK_FORWARD after check 5: once per start, it ages the allowances of entries restored at this start and unchanged since (R63). -/
def doClockForward (m : Sprue) (s : State) : State :=
  if msgTenant m ≠ 0 then refuse m 3 s
  else if s.dev.clocked then refuse m 9 s
  else
    let us := msgAt m 16 8
    let aged := s.sess.map fun x => if x.restored && x.allowKind != 0 then { x with allowance := x.allowance - us } else x
    carried m { s with dev := { s.dev with clocked := true }, sess := aged }

/-- CLOCK_FORWARD. -/
def execClockForward (m : Sprue) (s : State) : Host.Outcome State Fault Refusal := .next (takeMessage (.clockForward m) m (doClockForward m) s)

/-- UNKNOWN_OPCODE (R96): check 3 refuses it. -/
def execUnknownOpcode (m : Sprue) (s : State) : Host.Outcome State Fault Refusal := .next (takeMessage (.unknownOpcode m) m id s)

end Sys2Proof.Machine
end

