-- ==== Sys2Proof/Machine/Residency.lean ====
section
/-! DEFINITION. Boundary actions on sessions (R129, actions 1 to 3), deadlines, T1 pressure and the hold-up bound, and the rows of
allowances, demotions, revivals and parks (chapters 2, 4, 7, 12). -/

namespace Sys2Proof.Machine

/-! ### Messages that waited for a boundary (R129, action 1) -/

/-- A waiting message applied at its boundary (Tables 2-4, 4-5). -/
def applyAsk (b : Bool) (h : Nat) (a : Ask) (s : State) : State :=
  match findSess s h with
  | none => s
  | some x =>
    let s1 := onSess h (fun y => { y with asks := y.asks.filter fun q => q.order != a.order }) s
    if x.state == .lost then answerAsk b h a .lost 0 s1
    else match a.opcode with
      | 6 => cancelNow b a h s1
      | 8 => if x.state == .closed then answerAsk b h a .malformed 6 s1 else parkNow b a h s1
      | _ => closeNow b a h s1

/-- The messages waiting for a boundary of flask `k`, in the order they were taken; with no number, those of no flask in flight. -/
def asksOf (k : Option Nat) (s : State) : List (Nat × Ask) :=
  let mine := s.sess.filter fun x => !x.asks.isEmpty && (match k with
    | some n => (flaskOf s x).map Flask.num == some n || !inFlight s x
    | none => !inFlight s x)
  sortBy (fun (p : Nat × Ask) => p.2.order) ((mine.map fun x => x.asks.map fun a => (x.handle, a)).flatten)

/-- Action 1 of a pour boundary. -/
def applyAsks (b : Bool) (k : Option Nat) (s : State) : State :=
  forEach (asksOf k s) (fun p t => applyAsk b p.1 p.2 t) s

/-- Spent one-shot sessions freed at a boundary (R53), those of suspended pours' flasks apart. -/
def freeAllSpent (s : State) : State :=
  let kept := fun (x : Session) => s.sched.suspended.any fun p => (flaskOf s x).map Flask.num == some p.flask
  forEach ((s.sess.filter fun x => x.spent && !kept x).map Session.handle) freeSession s

/-- Every session's held messages applied as far as they can be. -/
def drainAll (s : State) : State := forEach ((s.sess.filter fun x => !x.heldMsgs.isEmpty).map Session.handle) drainHeld s

/-! ### Deadlines (R135, R139 to R142) -/

/-- A hard deadline found at zero ends its request DEADLINE; the slot of a pour not yet at its release point is decided there (R140, R142). -/
def checkDeadline (b : Bool) (h : Nat) (s : State) : State :=
  match findSess s h with
  | none => s
  | some x =>
    match x.request with
    | none => s
    | some r =>
      let working := (unreleased s).any fun p => p.works.any fun w => w.handle == h && w.samples && !w.barged
      if r.dclass = 2 ∧ r.allowance = 0 ∧ r.paused = false ∧ x.state ≠ .moving ∧ working = false then
        stopWaiting h (endRequest b h .deadline none true 0 0 s)
      else s

/-- Frames of a session found late, answered once each (R135). -/
def checkFrames (b : Bool) (h : Nat) (s : State) : State :=
  match findSess s h with
  | none => s
  | some x =>
    let late := x.queue.filter fun q => match q with | .frame _ _ _ (some 0) false _ _ => true | _ => false
    let mark := fun (q : QItem) => match q with | .frame n sq ps (some 0) false o i => QItem.frame n sq ps (some 0) true o i | _ => q
    let s1 := onSess h (fun y => { y with queue := y.queue.map mark }) s
    forEach late (fun q t => match q with
      | .frame n sq _ _ _ _ _ => emitOut b x { outcome := .deadline, seq := sq, opcode := 3, length := x.p, d1 := n, answers := true } t
      | .text _ _ => t) s1

/-- The deadline check of a pour boundary or of an idle package (R129, action 3; R142), `sampled` being the sessions that sampled in the pour. -/
def checkDeadlines (b : Bool) (sampled : List Nat) (s : State) : State :=
  let hs := s.sess.map Session.handle
  let s1 := forEach hs (checkFrames b) s
  forEach (hs.filter fun h => !sampled.contains h) (fun h t => freeSpent h (checkDeadline b h t)) s1

/-! ### T1 pressure (R229 to R232, Table 7-7) -/

/-- T1 of a session as CHECK counts it (R228), in KiB: seven page frames and the selection budget's per layer, and its tables; for budget "all" the
rows it has, the seven among them (log entry 196). -/
def residentNeed (s : State) (x : Session) : Nat :=
  match sessProg s x with
  | none => 0
  | some p =>
    let budget := ((findTen s x.tenant).map Tenant.selBudget).getD 2048
    let rows := rowsOf x.w
    let per := fun (l : Nat) => ceilDiv (formBytes p (formatOf p l) (headsOf p x)) 1024 * (if budget = 0 then rows else 7 + budget / 16)
    ((kvLayers p).map per).sum + tableKib p x + ceilDiv (blockBytes x.blocks + (x.snapshots.map fun n => blockBytes n.blocks).sum) 1024

/-- Rows of a layer always read: sinks, the recent window and the molten row (R149). -/
def pinned (x : Session) (layer row : Nat) : Bool :=
  let cast := (x.pages.filter fun g => g.layer == layer && g.cond != .molten).map Page.row
  decide (row < 2) || decide ((cast.filter fun r => decide (row < r)).length < 4)

/-- Whether a page is a cache entry that pressure may release: cast, in T1, neither pinned nor selected by the pour in flight (R160, R162). -/
def loose (x : Session) (g : Page) : Bool :=
  g.cond == .cast && g.inT1 && !g.selected && !((x.state == .opened || x.state == .active) && pinned x g.layer g.row)

/-- The loose cache entries of a die, least recently selected first: handle, row, layer. -/
def looseOf (s : State) (d : Nat) : List (Nat × Nat × Nat) :=
  let all := ((s.sess.filter fun x => x.homeDie == d).map fun x =>
    (x.pages.filter (loose x)).map fun g => (x.handle, g.row, g.layer, g.lastSel)).flatten
  (sortBy (fun (p : Nat × Nat × Nat × Nat) => p.2.2.2) all).map fun p => (p.1, p.2.1, p.2.2.1)

/-- Cache entries released until the die's free T1 is back at the low mark (R229). -/
def releaseLoose (d mark : Nat) : List (Nat × Nat × Nat) → State → State
  | [], s => s
  | p :: rest, s =>
    if mark ≤ t1Free s d then s
    else releaseLoose d mark rest (onPage p.1 p.2.1 p.2.2 (fun g => { g with inT1 := false, frame := noFrame, unselected := 0 }) s)

/-- A session's group in Table 7-7, and its order within it: 5 groups, then the least recently worked, or the flask and slot order. -/
def victimKey (s : State) (x : Session) : Nat :=
  let busy := x.request.isSome || !x.queue.isEmpty
  let group := if x.state == .waitingTool then 2 else if !busy then 1 else if x.state == .opened then 3 else if x.lastIdle then 4 else 5
  let inner := if group = 5 then (3 - ((flaskOf s x).map Flask.priority).getD 0) * 4096 + (4095 - x.slot.getD 0) else x.lastWorked
  group * 2 ^ 80 + inner

/-- Sessions a die's pressure may demote, in the order of Table 7-7. -/
def victims (s : State) (on : Session → Bool) : List Session :=
  sortBy (victimKey s) (s.sess.filter fun x => resident x && x.op.isNone && on x)

/-- Whether a session's slot works in a pour in flight. -/
def workingNow (s : State) (h : Nat) : Bool := (flying s).any fun p => p.works.any fun w => w.handle == h && isWorking w

/-- A victim demoted, at once or, while its slot works in the pour in flight, at that pour's boundary (R230). -/
def pressVictim (x : Session) (s : State) : State :=
  if workingNow s x.handle then { s with tiers := { s.tiers with pressed := s.tiers.pressed ++ [x.handle] } }
  else startDemotion true x.handle s

/-- Whether a pressure demotion is under way on a die, so that the next waits: one at a time (R230). -/
def pressing (s : State) (d : Nat) : Bool :=
  s.sess.any fun x => x.homeDie == d && ((match x.op with | some (.demotion true) => true | _ => false) || s.tiers.pressed.contains x.handle)

/-- The next victim of a die demoted, where none is under way (R230). -/
def pressDie (d : Nat) (s : State) : State :=
  if pressing s d then s
  else match victims s (fun x => x.homeDie == d) with
    | x :: _ => pressVictim x s
    | [] => s

/-- Whether a die's demotions are under way: begun below the critical mark, they go on up to the low mark (R230). -/
def setLow (d : Nat) (on : Bool) (s : State) : State :=
  { s with tiers := { s.tiers with low := s.tiers.low.filter (· != d) ++ if on then [d] else [] } }

/-- The marks of a die (R229, R230): below the low mark cache entries go; below the critical mark with none left, victims, one at a time, until the
low mark is reached. -/
def relieveDie (d : Nat) (s : State) : State :=
  let all := t1Kib s d
  if t1Free s d * 100 < all * 4 then
    let s1 := releaseLoose d (ceilDiv (all * 4) 100) (looseOf s d) s
    if looseOf s1 d = [] ∧ t1Free s1 d * 100 < all * 4 ∧ (t1Free s1 d * 100 < all ∨ s.tiers.low.contains d) then pressDie d (setLow d true s1)
    else if t1Free s1 d * 100 < all * 4 then s1 else setLow d false s1
  else if s.tiers.low.contains d then setLow d false s else s

/-- The first of the sessions demoted by pressure with a request in progress, revived once there is room (R232). -/
def reviveWaiting (s : State) : State :=
  match s.tiers.waiting with
  | [] => s
  | h :: rest =>
    match findSess s h with
    | none => { s with tiers := { s.tiers with waiting := rest } }
    | some x =>
      if x.state ≠ .warm ∨ x.op.isSome then { s with tiers := { s.tiers with waiting := rest } }
      else
        let d := chooseDie s (sessPart s x)
        if t1Kib s d * 8 / 100 + residentNeed s x ≤ t1Free s d then
          countPressure false (sessPart s x) (startRevival h { s with tiers := { s.tiers with waiting := rest } })
        else s

/-- What the scheduler core does about T1 on every die, and for those that wait to be revived. -/
def relieve (s : State) : State := reviveWaiting (forEach ((List.range (scCount s.part))) relieveDie s)

/-- What R230 allows for a reservation of `kib` on a die that fails: loose entries released, then the next victim (R231). -/
def reserveDie (d kib : Nat) (s : State) : State :=
  if kib ≤ t1Free s d then s
  else
    let s1 := releaseLoose d kib (looseOf s d) s
    if kib ≤ t1Free s1 d then s1 else pressDie d s1

/-! ### The hold-up bound (R371, R372) -/

/-- Molten state of the sessions being demoted, which a plan for the bound takes as gone. -/
def leaving (s : State) : Nat :=
  ((s.sess.filter fun x => match x.op with | some (.demotion _) => true | _ => s.tiers.pressed.contains x.handle).map (sectionBytes s)).sum

/-- Demotions for the hold-up bound in victim order until S, less what they take, fits with `growth` more (R372, item 1). -/
def boundVictims (growth : Nat) : List Session → State → State
  | [], s => s
  | x :: rest, s => if holdUpFits s (saveSize s + growth - leaving s) then s else boundVictims growth rest (pressVictim x s)

/-- R372, item 1, for an added growth. -/
def holdBound (growth : Nat) (s : State) : State := boundVictims growth (victims s fun _ => true) s

/-- What waits for the bound, in arrival order, carried out while it fits (R372). -/
def admitWaiting : Nat → State → State
  | 0, s => s
  | k + 1, s =>
    match s.ledger.waiting with
    | [] => s
    | c :: rest =>
      let s1 : State := { s with ledger := { s.ledger with waiting := rest } }
      match c with
      | .openSession m =>
        if directoryLimit s.part ≤ entriesUsed s then admitWaiting k (answerMsg m .storeFull 0 0 s1)
        else if holdUpFits s (saveSize s + openSize m s) then admitWaiting k (if openFields m s1 then openNow m s1 else refuse m 3 s1) else s
      | .revivalPhase1End h =>
        let size := match findSess s h with | some x => sectionBytes s { x with state := .opened } | none => 0
        if holdUpFits s (saveSize s + size) then admitWaiting k (drainHeld h (commitRevival h s1)) else s
      | _ => admitWaiting k s1

/-- Waiting allocations tried again. -/
def admitHeld (s : State) : State := admitWaiting s.ledger.waiting.length s

/-! ### The rows of allowances -/

/-- RESIDENCY_ALLOWANCE_EXPIRY (R61, Table 2-4): the allowance that runs reaches zero. -/
def execResidencyAllowanceExpiry (handle : Nat) (s : State) : Host.Outcome State Fault Refusal :=
  .next (expire handle (onSess handle (fun x => { x with allowance := 0 }) s))

/-- Whether a row of a session is cast whole, and not in the store yet. -/
def castRow (x : Session) (row : Nat) : Bool :=
  let pgs := x.pages.filter fun g => g.row == row
  !pgs.isEmpty && pgs.all (fun g => g.cond == .cast) && pgs.any fun g => !g.inStore

/-- The next row of a stored session's trickle run queued, its pages reserved; where the namespace is full or read-only it waits (R255, R268). -/
def trickleRow (h : Nat) (s : State) : State :=
  match findSess s h with
  | none => s
  | some x =>
    match sessProg s x, (List.range (rowsOf x.w)).find? fun r => (x.pages.any fun g => g.row == r && !g.inStore) with
    | some p, some row =>
      let pages := logicalPages ((x.pages.filter fun g => g.row == row).map (pageBytes p)).sum
      let run := s.store.objs.find? fun o => o.handle == h && !o.ingot && !o.deleted
      if x.durability = 2 ∧ castRow x row ∧ (storeVerdict s (sessPart s x) pages).isNone ∧ ((run.map Obj.queued).getD 0) ≤ row then
        match run with
        | some o => onObj o.num (fun y => { y with reserved := y.reserved + pages, queued := row + 1 }) s
        | none => let r := reserveObject x false false pages s
                  onObj r.1 (fun y => { y with queued := row + 1 }) r.2
      else s
    | _, _ => s

/-- DIRECTORY_SWEEP (R62, R142): time passes, every entry's allowance is checked, and with no pour in flight every deadline; stored sessions' rows are
queued for the store in the background (R255). -/
def execDirectorySweep (elapsedUs : Nat) (s : State) : Host.Outcome State Fault Refusal :=
  let s1 := passTime elapsedUs s
  let s2 := forEach (s1.sess.map Session.handle) expire s1
  let s3 := if s2.sched.pour.isNone then checkDeadlines false [] s2 else s2
  .next (forEach (s3.sess.map Session.handle) trickleRow (admitHeld (relieve s3)))

/-- HARD_DEADLINE_EXPIRY (R140, R142). -/
def execHardDeadlineExpiry (handle : Nat) (s : State) : Host.Outcome State Fault Refusal :=
  let zero := fun (x : Session) => { x with request := x.request.map fun r => if r.dclass = 2 then { r with allowance := 0 } else r }
  let s1 := onSess handle zero s
  .next (if s.sched.pour.isSome then s1 else drainHeld handle (freeSpent handle (checkDeadline false handle s1)))

/-- SOFT_DEADLINE_EXPIRY (R141): no record; later tokens carry LATE. -/
def execSoftDeadlineExpiry (handle : Nat) (s : State) : Host.Outcome State Fault Refusal :=
  .next (onSess handle (fun x => { x with request := x.request.map fun r => if r.dclass = 1 then { r with allowance := 0 } else r }) s)

/-- FRAME_ALLOWANCE_EXPIRY (R135): a queued frame's allowance found at zero. -/
def execFrameAllowanceExpiry (handle frame : Nat) (s : State) : Host.Outcome State Fault Refusal :=
  let zero := fun (q : QItem) => match q with
    | .frame n sq ps (some a) d o i => if n = frame then QItem.frame n sq ps (some 0) d o i else .frame n sq ps (some a) d o i
    | _ => q
  let s1 := onSess handle (fun x => { x with queue := x.queue.map zero }) s
  .next (if s.sched.pour.isSome then s1 else checkFrames false handle s1)

/-! ### The rows of demotion, revival and park -/

/-- Whether a demotion of a session, its input text closed, finds space for its frozen copies (R225, R235). -/
def demotionFits (s : State) (x : Session) : Bool := allFrozen x.handle (freezeAll x.handle (closeInput x.handle s))

/-- A write that waits for space, oldest first (R235): 1 a write-down, 2 a demotion, 3 a second copy. -/
def stall (x : Stall) (s : State) : State :=
  if s.tiers.stalls.contains x then s else { s with tiers := { s.tiers with stalls := s.tiers.stalls ++ [x] } }

/-- A demotion's copies acknowledged, or the demotion waiting where no pool has room (R60, R235). -/
def finishDemotion (h : Nat) (s : State) : State :=
  match findSess s h with
  | none => s
  | some x =>
    match x.op with
    | some (.demotion _) =>
      if demotionFits s x then admitHeld (drainHeld h (relieve (commitDemotion h s)))
      else stall { partition := sessPart s x, handle := h, kind := 2, row := 0, layer := 0 } s
    | _ => s

/-- DEMOTION_COMMIT (R60, Table 4-6). -/
def execDemotionCommit (handle : Nat) (s : State) : Host.Outcome State Fault Refusal := .next (finishDemotion handle s)

/-- REVIVAL_PHASE1_END (Table 2-3, R256): one that would pass the hold-up bound waits (R372). The recomputing of patterns, classed as a
revival's first phase, ends with it too (R243; log entry 68). -/
def execRevivalPhase1End (handle : Nat) (s : State) : Host.Outcome State Fault Refusal :=
  match findSess s handle with
  | none => .next s
  | some x =>
    match x.op with
    | some (.revival _) =>
      if s.ledger.waiting.isEmpty && holdUpFits s (saveSize s + sectionBytes s { x with state := .opened }) then
        .next (drainHeld handle (commitRevival handle s))
      else if s.ledger.waiting.contains (.revivalPhase1End handle) then .next s
      else .next { s with ledger := { s.ledger with waiting := s.ledger.waiting ++ [.revivalPhase1End handle] } }
    | _ => .next (onSess handle (fun y => { y with recastPending := false }) s)

/-- INGOT_COMMIT (R254): both copies of the head programmed. -/
def execIngotCommit (handle : Nat) (s : State) : Host.Outcome State Fault Refusal :=
  .next (admitHeld (drainHeld handle (commitPark handle s)))

end Sys2Proof.Machine
end

