-- ==== Sys2Proof/Machine/Groups.lean ====
section
/-! DEFINITION. Model groups: teardown at a participant and at the fabric manager, and the sessions of a package that is lost (R172, R417,
R420, R425). -/

namespace Sys2Proof.Machine

/-- The top manager as this package knows it (Table 14-1). -/
def topManager (s : State) : Nat :=
  if s.rack.role = 3 then s.rack.num
  else
    let m := if s.rack.role = 2 then s.rack.num else s.rack.above
    let found := (mapRecords s).findSome? fun (r : MapRecord) =>
      match r with
      | .package k _ _ above _ => if k = m then some above else none
      | _ => none
    found.getD (if s.rack.role = 2 then s.rack.above else m)

/-- A model group by number. -/
def findGroup (s : State) (g : Nat) : Option MGroup := findKey MGroup.num g s.rack.groups
def onGroup (g : Nat) (f : MGroup → MGroup) (s : State) : State :=
  { s with rack := { s.rack with groups := updKey MGroup.num g f s.rack.groups } }

/-- Whether this package is participant 0 of a group, the host's counterpart of its sessions (R420). -/
def isCounterpart (s : State) (g : MGroup) : Bool := (g.parts.head?.map Participant.package) == some s.rack.num

/-- The first position of a session's molten row: its cast pages stop there (R425, R243). -/
def castEnd (x : Session) : Nat :=
  if x.pages.any (fun g => g.cond == .molten || g.cond == .frozen || g.cond == .casting) then x.w / 16 * 16 else x.w

/-- A session of a torn-down group: rewound to its cast pages, its request ended JOB_TORN_DOWN, or a record that is not final (R425). -/
def tearSession (counterpart : Bool) (h : Nat) (s : State) : State :=
  match findSess s h with
  | none => s
  | some x =>
    if x.state == .closed || x.state == .lost then s
    else
      let s0 := match x.request with | some r => if counterpart then flushHeld false x r s else s | none => s
      let y := rewind h (castEnd x) (maskSlot h s0)
      if x.request.isSome then freeSpent h (stopWaiting h (endRequest false h .jobTornDown none false 0 0 y.1))
      else if counterpart then
        match findSess y.1 h with
        | some z => emitOut false z { outcome := .jobTornDown, length := y.2 } y.1
        | none => y.1
      else y.1

/-- A pour of a model ended at once, its work discarded and its reservations gone with it (R131, R425). -/
def dropPours (model : Nat) (s : State) : State :=
  let hit := fun (p : Pour) => p.model == model
  let ps := (s.sched.pour.toList ++ s.sched.suspended).filter hit
  let s1 := forEach ps (fun p t => forEach (p.works.filter fun w => isWorking w && !w.barged) discardWork t) s
  { s1 with sched := { s1.sched with pour := (match s1.sched.pour with | some p => if hit p then none else some p | none => none)
                                     suspended := s1.sched.suspended.filter fun p => !hit p } }

/-- A teardown taken by a participant (R425): the pour ended, every session of the group rewound, the landing windows disbanded. Messages that
waited for a boundary of the pour act, since none is in flight. -/
def tearGroup (g : Nat) (s : State) : State :=
  match findGroup s g with
  | none => s
  | some x =>
    if x.torn then s
    else
      let s1 := dropPours x.model s
      let hs := (s1.sess.filter fun y => y.model == x.model).map Session.handle
      let s2 := forEach hs (tearSession (isCounterpart s x)) s1
      let s3 := onGroup g (fun y => { y with torn := true, round := 1, lands := [], release := [] }) s2
      let s4 : State := { s3 with links := { s3.links with windows := s3.links.windows.filter fun w => w.group != g || w.kind != 1 } }
      drainAll (applyAsks false none s4)

/-- The fabric manager tears a group down: "teardown" to every other participant, and its own part at once (R425). -/
def fabricTeardown (g : Nat) (s : State) : State :=
  match findGroup s g with
  | none => s
  | some x =>
    let others := ((x.parts.map Participant.package).filter fun n => n != s.rack.num).eraseDups
    let s1 := onGroup g (fun y => { y with tearing := others }) s
    let s2 := forEach others (fun n t => sendMgr n 14 0 [g] [] [] t) s1
    if (x.parts.map Participant.package).contains s.rack.num then tearGroup g s2 else s2

/-- Windows that a group uses at each of its packages: two landing windows for each of its participants there, the even rounds' first, and the
release window, k = 8 (log entry 67). -/
def groupWindow (g k : Nat) : Nat := 16 + (12 * g + k) % 240
def releaseWindow (g : Nat) : Nat := groupWindow g 8

/-- A failure of a group's work reported to the fabric manager, which tears the group down (R405, R425). -/
def reportBroken (g reason : Nat) (s : State) : State :=
  if inDomain s = false then tearGroup g s
  else if topManager s = s.rack.num then fabricTeardown g s
  else sendMgr (topManager s) 16 0 [s.rack.num, s.rack.num, groupWindow g 0, reason] [] [] s

end Sys2Proof.Machine
end

