-- ==== Sys2Proof/Machine/Tiers.lean ====
section
/-! DEFINITION. The memory tiers: casting and its copies, demand fetches, late and failed reads, pool and H loss, HBM errors, patrol and
background copies (R67, R163 to R165, R208 to R209, R224 to R243, R255, R433). -/

namespace Sys2Proof.Machine

/-! ### Casting (R67, R225, R235, R433) -/

/-- A page of a session. -/
def findPage (x : Session) (row layer : Nat) : Option Page := x.pages.find? fun g => g.row == row && g.layer == layer

/-- The placement of a tenant's sessions. -/
def sessPlace (s : State) (x : Session) : Placement := placementOf s 2 (sessPart s x) x.tenant 0

/-- A casting page's write-down acknowledged: cast, with its copies, each in space of its own, and in WAITING_TOOL below T1 only (R60, R214); or
waiting where no permitted pool has room (R67, R235). Where its copies lie is the model's choice: each in a granule of its own, the lowest that is free
(R70; log entries 165, 179). -/
def castPage (h row layer : Nat) (s : State) : State :=
  match findSess s h with
  | none => s
  | some x =>
    match sessProg s x, findPage x row layer with
    | some p, some g =>
      if g.cond = .casting then
        match pickPools (sessPlace s x) (pageBytes p g) (castCopies x.durability) [] s with
        | none => stall { partition := sessPart s x, handle := h, kind := 1, row := row, layer := layer } s
        | some ps =>
          let put := fun (y : Page) => { y with cond := .cast, first := true, second := decide (1 < ps.length), pools := ps, lower0 := noAddress
                                                lower1 := noAddress, sums := [], inT1 := y.inT1 && x.state != .waitingTool }
          anchorRow h row (seat h (onPage h row layer put (drawFree (endStream (.writeDown h row layer) s))))
      else s
    | _, _ => s

/-- PAGE_CAST (R67). -/
def execPageCast (handle row layer : Nat) (s : State) : Host.Outcome State Fault Refusal := .next (castPage handle row layer s)

/-- WRITE_DOWN_FAILED (R67): retried; the page stays casting in T1, and the log tells the failure. -/
def execWriteDownFailed (handle row layer : Nat) (s : State) : Host.Outcome State Fault Refusal :=
  .next (note (leadDie s) (handle * 2 ^ 24 + row * 2 ^ 8 + layer) s)

/-- A copy that a page lacks written in another permitted pool (R235, R239); the last of a row's pages to have one makes the row's anchor record (R433). -/
def secondCopy (h row layer : Nat) (s : State) : State :=
  match findSess s h with
  | none => s
  | some x =>
    match sessProg s x, findPage x row layer with
    | some p, some g =>
      let want := if g.cond = .frozen then frozenCopies x.durability else castCopies x.durability
      if (g.cond = .cast ∨ g.cond = .frozen) ∧ g.pools.length < want then
        match pickPool s (roomyPools s (sessPlace s x) (pageBytes p g) g.pools) with
        | none => stall { partition := sessPart s x, handle := h, kind := 3, row := row, layer := layer } s
        | some q =>
          let put := fun (y : Page) =>
            { y with pools := y.pools ++ [q], first := true, second := decide (1 ≤ y.pools.length)
                     lower0 := if y.pools.isEmpty then noAddress else y.lower0, lower1 := noAddress
                     inStore := y.inStore && (x.durability == 2 || x.copying || !y.pools.isEmpty) }
          let t := seat h (onPage h row layer put (drawFree s))
          if g.first || g.inH then t else anchorRow h row t
      else s
    | _, _ => s

/-- A page's T2 copies written by the second phase of a remelt, as its durability class requires; one that finds no room waits as any second copy does
(R235, R256, R258). -/
def remeltPage (h : Nat) (g : Page) (s : State) : State :=
  if g.cond = .cast ∧ g.first = false ∧ g.inH = false then secondCopy h g.row g.layer (secondCopy h g.row g.layer s) else s

/-- A session's pages in the order in which an ingot holds their rows: those of the always set in ascending row number, every other row in descending,
and layers in order within a row (Table 8-5). -/
def ingotOrder (x : Session) : List Page :=
  let rows := List.range (rowsOf x.w)
  let first := firstRows x
  (first ++ (rows.filter fun r => !first.contains r).reverse).flatMap fun r => sortBy Page.layer (x.pages.filter fun g => g.row == r)

/-- REMELT_PHASE2_END (R256, R258): for a volatile or mirrored session the store copy's bit goes with the first T2 copy. -/
def execRemeltPhase2End (handle : Nat) (s : State) : Host.Outcome State Fault Refusal :=
  match findSess s handle with
  | none => .next s
  | some x =>
    if x.copying && (sessProg s x).isSome then
      .next (forEach (ingotOrder x) (remeltPage handle) (onSess handle (fun y => { y with copying := false }) s))
    else .next s

/-- A waiting write tried again: it goes back among the waiting ones where there is still no room. -/
def resumeWrite (x : Stall) (s : State) : State :=
  match x.kind with
  | 1 => castPage x.handle x.row x.layer s
  | 2 => finishDemotion x.handle s
  | _ => secondCopy x.handle x.row x.layer (secondCopy x.handle x.row x.layer s)

/-- STALLED_WRITE_RESUME (R235): the waiting writes of a partition, oldest first. -/
def execStalledWriteResume (partition : Nat) (s : State) : Host.Outcome State Fault Refusal :=
  let mine := s.tiers.stalls.filter fun x => x.partition == partition
  let s1 : State := { s with tiers := { s.tiers with stalls := s.tiers.stalls.filter fun x => x.partition != partition } }
  .next (forEach mine resumeWrite s1)

/-- STORE_COPY_COMMIT (R255): a row's trickle copy and its parity have programmed, in ascending row order. -/
def execStoreCopyCommit (handle row : Nat) (s : State) : Host.Outcome State Fault Refusal :=
  match findSess s handle with
  | none => .next s
  | some x =>
    let pgs := x.pages.filter fun g => g.row == row
    let s0 := trickleRow handle s
    match s0.store.objs.find? (fun o => o.handle == handle && !o.ingot && !o.deleted) with
    | none => .next s0
    | some o =>
     if x.durability = 2 ∧ pgs ≠ [] ∧ pgs.all (fun g => g.cond == .cast) ∧ row < o.queued ∧ x.pages.all (fun g => g.inStore || decide (row ≤ g.row)) then
      let s1 := onObj o.num (fun y => { y with rows := max y.rows (row + 1), committed := true }) s0
      .next (trickleRow handle <| onSess handle (fun y => { y with pages := y.pages.map fun g => if g.row = row then { g with inStore := true } else g }) s1)
     else .next s0

/-! ### Demand fetches (R163 to R165, R231, R236, R237) -/

/-- A fetch of a page in flight. -/
def findFetch (s : State) (h row layer : Nat) : Option Fetch :=
  s.tiers.fetches.find? fun f => f.handle == h && f.row == row && f.layer == layer
def dropFetch (h row layer : Nat) (s : State) : State :=
  { s with tiers := { s.tiers with fetches := pumpFetches (s.tiers.fetches.filter fun f => !(f.handle == h && f.row == row && f.layer == layer)) } }

/-- A slot's fault in the pours not yet at their release points, the first one found standing (R137, R164). -/
def faultSlot (h : Nat) (o : OCode) (s : State) : State :=
  let mark := fun (p : Pour) => { p with works := p.works.map fun w => if w.handle = h ∧ w.fault = none then { w with fault := some o } else w }
  { s with sched := { s.sched with pour := s.sched.pour.map fun p => if p.step ≤ 7 then mark p else p, suspended := s.sched.suspended.map mark } }

/-- A row that has come for a layer of a session's work, in the order its last line arrived (R165). -/
def noteCame (h row layer : Nat) (s : State) : State :=
  let add := fun (w : Work) => if w.handle = h ∧ w.sets.flatten.contains row ∧ w.came.contains row = false then { w with came := w.came ++ [row] } else w
  let mark := fun (p : Pour) => if p.layer = layer then { p with works := p.works.map add } else p
  { s with sched := { s.sched with pour := s.sched.pour.map mark, suspended := s.sched.suspended.map mark } }

/-- A page read straight into the T0 of the task that takes it (R231). -/
def loadT0 (h row layer : Nat) (s : State) : State :=
  { s with tiers := { s.tiers with t0 := s.tiers.t0.map fun t =>
      if t.handle = h ∧ t.layer = layer ∧ t.rows.contains row then { t with loaded := t.loaded ++ [row] } else t } }

/-- DEMAND_FETCH_COMPLETE (R164; of an abandoned request, the data are discarded, R346): the page becomes a cache entry in the frame it was read into; where a rewind has released it, the frame goes at once
(R165); where no frame was free, it was read straight into T0 (R231). The pool it came from has answered. -/
def execDemandFetchComplete (handle row layer : Nat) (s : State) : Host.Outcome State Fault Refusal :=
  match (findFetch s handle row layer).filter fun f => !f.held with
  | none => .next s
  | some f =>
    let s0 := dropFetch handle row layer s
    let s1 : State := { s0 with tiers := { s0.tiers with pools := s0.tiers.pools.map fun q => if q.num = f.tier then { q with missed := 0 } else q } }
    match (findSess s handle).bind fun x => (findPage x row layer).map fun g => (x, g) with
    | none => .next s1
    | some (x, g) =>
      if g.cond = .cast ∧ g.inT1 = false ∧ resident x ∧ g.handle = f.page then
        .next (noteCame handle row layer (if f.frame = noFrame then loadT0 handle row layer s1
          else onPage handle row layer (fun y => { y with inT1 := true, frame := f.frame, unselected := 0 }) s1))
      else .next s1

/-- DEMAND_FETCH_LATE (R164): the slot's fault; the data are kept when they arrive. A request abandoned by a save has no threshold (R346). -/
def execDemandFetchLate (handle row layer : Nat) (s : State) : Host.Outcome State Fault Refusal :=
  if (findFetch s handle row layer).any Fetch.held then .next s else
  let s1 : State := { s with tiers := { s.tiers with fetches := s.tiers.fetches.map fun f =>
    if f.handle = handle ∧ f.row = row ∧ f.layer = layer then { f with late := true } else f } }
  .next (faultSlot handle .tierLate s1)

/-- The copies a fetch may read, in the order of R163 and R237: T2 copies of whole pools, the H copy, the store copy or ingot. -/
def readable (s : State) (x : Session) (g : Page) : List Nat :=
  let whole := g.pools.filter fun n => !(s.tiers.pools.any fun q => q.num == n && q.failed)
  let h := if g.inH && !(s.tiers.hRegions.any fun r => r.partition == sessPart s x && r.link == g.hLink && r.failed) then [1000] else []
  whole ++ h ++ if g.inStore then [1001] else []

/-- A fetch that failed from its present copy: the next one, or the slot ends TIER_FAULT (R237). -/
def fetchFailed (h row layer : Nat) (s : State) : State :=
  match findFetch s h row layer with
  | none => faultSlot h .tierFault s
  | some f =>
    match f.left with
    | [] => faultSlot h .tierFault (dropFetch h row layer s)
    | t :: rest =>
      { s with tiers := { s.tiers with fetches := s.tiers.fetches.map fun k =>
          if k.handle = h ∧ k.row = row ∧ k.layer = layer then { k with tier := t, left := rest } else k } }

/-! ### Loss of a pool or an H region (R238 to R240, Table 7-10) -/

/-- Whether a page has lost every lower copy: no whole pool, no H copy, and no store copy that its class may fall back on. -/
def copyless (s : State) (x : Session) (g : Page) : Bool :=
  decide (g.row * 16 < x.w) && (g.cond == .cast || g.cond == .frozen) &&
    ((readable s x g).filter fun n => n != 1001 || x.durability == 2 || g.pools.isEmpty && !g.first).isEmpty

/-- Pools that have not failed, among those of an object's T2 copies. -/
def wholePools (s : State) (pools : List Nat) : List Nat := pools.filter fun n => !(s.tiers.pools.any fun q => q.num == n && q.failed)

/-- The addresses of the T2 copies that stand in whole pools. -/
def wholeAddrs (s : State) (pools addrs : List Nat) : List Nat :=
  ((pools.zip addrs).filter fun c => (wholePools s pools).contains c.1).map Prod.snd

/-- Copies in failed pools and regions struck from a session's pages, blocks and leaves. -/
def strike (s : State) (x : Session) : Session :=
  let page := fun (g : Page) =>
    if g.cond = .cast ∨ g.cond = .frozen then
      let whole := (readable s x g).filter fun n => decide (n < 1000)
      let addrs := wholeAddrs s g.pools [g.lower0, g.lower1]
      let h := (readable s x g).contains 1000
      { g with pools := whole, first := decide (0 < whole.length), second := decide (1 < whole.length), inH := h
               lower0 := addrs.headD noAddress, lower1 := if h then g.lower1 else (addrs[1]?).getD noAddress }
    else g
  let blk := fun (b : Blk) =>
    if b.cond = .frozen then
      let whole := wholePools s b.pools
      let addrs := wholeAddrs s b.pools [b.lower0, b.lower1]
      { b with pools := whole, first := decide (0 < whole.length), second := decide (1 < whole.length)
               lower0 := addrs.headD noAddress, lower1 := if b.inH then b.lower1 else (addrs[1]?).getD noAddress }
    else b
  let leaf := fun (l : Leaf) =>
    if l.frozen then
      let whole := wholePools s l.pools
      let addrs := wholeAddrs s l.pools [l.lower0, l.lower1]
      { l with pools := whole, second := decide (1 < whole.length), lower0 := addrs.headD noAddress, lower1 := (addrs[1]?).getD noAddress }
    else l
  { x with pages := x.pages.map page, blks := x.blks.map blk, leaves := x.leaves.map leaf }

/-- Whether a frozen block or leaf of a session has lost every copy (Table 7-10). -/
def blksLost (s : State) (x : Session) : Bool :=
  (x.blks.any fun b => b.cond == .frozen && !b.inH && (wholePools s b.pools).isEmpty) ||
    x.leaves.any fun l => l.frozen && (wholePools s l.pools).isEmpty

/-- A session settled by Table 7-10. -/
def settleLoss (b : Bool) (h : Nat) (s : State) : State :=
  match findSess s h with
  | none => s
  | some x =>
    let dead := x.pages.filter (copyless s x)
    let s1 := setSess (strike s x) s
    if blksLost s x then loseSession b h s1
    else if dead.isEmpty then s1
    else if x.durability = 2 ∧ dead.all (fun g => g.cond == .cast) then
      truncateSession b h (16 * (dead.map Page.row).foldl min (x.w / 16)) s1
    else loseSession b h s1

/-- Whether a page, a block or a leaf has a copy in something failed. -/
def touchesFailed (s : State) (x : Session) : Bool :=
  (x.pages.any fun g => (g.cond == .cast || g.cond == .frozen) &&
    decide (((readable s x g).filter (· != 1001)).length < g.pools.length + (if g.inH then 1 else 0))) ||
  (x.blks.any fun b => decide ((wholePools s b.pools).length < b.pools.length)) ||
  x.leaves.any fun l => decide ((wholePools s l.pools).length < l.pools.length)

/-- The sessions a failure reaches settled: those with no slot at once; slotted ones at their flask's next boundary (R239). -/
def settleUnslotted (s : State) : State :=
  forEach ((s.sess.filter fun x => x.slot.isNone && touchesFailed s x).map Session.handle) (fun h t => freeSpent h (settleLoss false h t)) s

/-- The slotted sessions of a flask settled at its boundary (R129, action 2; R239). -/
def settleSlotted (flask : Nat) (s : State) : State :=
  forEach ((s.sess.filter fun x => (flaskOf s x).map Flask.num == some flask && touchesFailed s x).map Session.handle) (settleLoss true) s

/-- A model that loses weights with a pool: FAILED with its requests ended TIER_FAULT where every copy of a tensor is gone; otherwise the lost
part is written again into another permitted pool (R240). -/
def modelLoss (pool : Nat) (m : Model) (s : State) : State :=
  if m.pools.flatten.any fun h => h.1 == pool then
    let left := m.pools.map fun c => c.map fun h => if h.1 = pool then (noPool, h.2) else h
    let s1 := onModel m.num (fun y => { y with pools := left, copyLost := true }) s
    if m.state = 2 ∧ weightsGone { m with pools := left } then
      let s2 := onModel m.num (fun y => { y with state := 3, allLost := true, pools := [] }) s1
      let hs := (s2.sess.filter fun x => x.model == m.num && x.request.isSome).map Session.handle
      forEach hs (fun h t =>
        if workingNow t h then faultSlot h .tierFault t
        else freeSpent h (stopWaiting h (endRequest false h .tierFault none true 0 0 t))) s2
    else placeWeights m.num s1
  else s

/-- Fetches in flight whose copy lies in the failed pool fail with it (R238). -/
def failFetches (tier : Nat) (s : State) : State :=
  forEach (s.tiers.fetches.filter fun f => f.tier == tier) (fun f t => fetchFailed f.handle f.row f.layer t) s

/-- The copies of slabs in failed pools struck; a shard in which a slab with current blocks has lost every copy is marked damaged (R326). -/
def strikeSlabs (s : State) : State :=
  let slab := fun (b : Slab) => { b with pools := wholePools s b.pools, lowers := wholeAddrs s b.pools b.lowers }
  let gone := fun (b : Slab) => decide (0 < b.current) && !b.pools.isEmpty && (wholePools s b.pools).isEmpty
  { s with rcl := { s.rcl with shards := s.rcl.shards.map fun h => { h with slabs := h.slabs.map slab, damaged := h.damaged || h.slabs.any gone } } }

/-- A pool declared failed (R238 to R240, R326, R427). -/
def poolLost (n : Nat) (s : State) : State :=
  match s.tiers.pools.find? (fun q => q.num == n && !q.failed) with
  | none => s
  | some _ =>
    let s1 : State := { s with tiers := { s.tiers with pools := s.tiers.pools.map fun q => if q.num = n then { q with failed := true } else q } }
    let s2 := failFetches n (healthSignal (leadDie s) n s1)
    let s3 := forEach s2.models (modelLoss n) s2
    let s4 := settleUnslotted (strikeSlabs s3)
    if inDomain s4 && topManager s4 != s4.rack.num then sendMgr (topManager s4) 16 0 [s4.rack.num, 0xFFFF, 2, n] [] [] s4 else s4

/-- The H regions of a link declared failed when the link goes down (R238). -/
def hostRegionsLost (link : Nat) (s : State) : State :=
  if s.tiers.hRegions.any (fun r => r.link == link && !r.failed && decide (0 < r.length)) then
    let s1 : State := { s with tiers := { s.tiers with hRegions := s.tiers.hRegions.map fun r => if r.link = link then { r with failed := true } else r } }
    settleUnslotted (failFetches 1000 s1)
  else s

/-- A failed read counted against its pool: sixteen in a row declare it failed (R238). -/
def missRead (n : Nat) (s : State) : State :=
  let s1 : State := { s with tiers := { s.tiers with pools := s.tiers.pools.map fun q => if q.num = n then { q with missed := q.missed + 1 } else q } }
  if s1.tiers.pools.any (fun q => q.num == n && decide (16 ≤ q.missed)) then poolLost n s1 else s1

/-- DEMAND_FETCH_FAILED (R237, R238). -/
def execDemandFetchFailed (handle row layer : Nat) (s : State) : Host.Outcome State Fault Refusal :=
  let tier := match findFetch s handle row layer with
    | some f => f.tier
    | none => (((findSess s handle).bind fun x => (findPage x row layer).bind fun g => g.pools.head?)).getD 1001
  .next (missRead tier (fetchFailed handle row layer s))

/-- A late frozen-copy read's request ended TIER_LATE (R236). -/
def endLate (b : Bool) (h : Nat) (s : State) : State :=
  match findSess s h with
  | none => s
  | some x => if x.revivalLate then
      freeSpent h (endRequest b h .tierLate none true 0 0 (onSess h (fun y => { y with revivalLate := false }) s))
    else s

/-- FROZEN_READ_LATE (R236): a request in progress ends TIER_LATE at the next boundary, at once with no pour in flight; the revival goes on. -/
def execFrozenReadLate (handle : Nat) (s : State) : Host.Outcome State Fault Refusal :=
  match findSess s handle with
  | none => .next s
  | some x =>
    match x.op with
    | some (.revival _) =>
      let s1 := onSess handle (fun y => { y with revivalLate := true }) s
      .next (if s.sched.pour.isNone then endLate false handle s1 else s1)
    | _ => .next s

/-- BRIDGE_FATAL_ERROR (R238, R395). -/
def execBridgeFatalError (pool : Nat) (s : State) : Host.Outcome State Fault Refusal := .next (drainAll (poolLost pool s))

/-! ### HBM (R241 to R243) -/

/-- Whether `kib` from a frame on touch a region of a stack. -/
def inRegion (stack region frame kib : Nat) : Bool :=
  let lo := (stack % 6) * stackKib + region * regionKib
  frame != noFrame && frame / 2 ^ 29 == stack / 6 && decide (frame % 2 ^ 29 < lo + regionKib) && decide (lo < frame % 2 ^ 29 + span kib)

/-- A session's T1 copies in a region of a stack without their frames. -/
def vacate (stack region : Nat) (p : ModelProgram) (x : Session) : Session :=
  let off := fun (f kib : Nat) => if inRegion stack region f kib then noFrame else f
  { x with pages := x.pages.map fun g => if g.inT1 then { g with frame := off g.frame (frameKib p g) } else g
           blks := x.blks.map fun b =>
             if b.inT1 then { b with frame := off b.frame (ceilDiv b.size 1024), frame2 := off b.frame2 (ceilDiv b.size 1024) } else b
           leaves := x.leaves.map fun l => if l.frozen then l else { l with frame := off l.frame leafKib, frame2 := off l.frame2 leafKib } }

/-- The contents of a region moved to other frames of the die (R242). A duplicated table is read from its other copy (Table 7-11). -/
def moveOut (stack region : Nat) (s : State) : State :=
  let held := fun (x : Session) => (placesOf s x).any fun c =>
    c.inT1 && (inRegion stack region c.frame c.kib || c.frame2.any fun f => inRegion stack region f c.kib)
  let s1 := forEach (s.sess.filter held) (fun x t =>
    match sessProg t x with | some p => seat x.handle (onSess x.handle (vacate stack region p) t) | none => t) s
  let fetched := fun (acc : List Fetch × State) (f : Fetch) =>
    if inRegion stack region f.frame f.kib then
      let r := takeT1 f.die (((findSess acc.2 f.handle).map Session.tenant).getD noOwner) f.kib (t1Base acc.2) acc.2
      (acc.1 ++ [{ f with frame := r.1 }], r.2)
    else (acc.1 ++ [f], acc.2)
  let r := s1.tiers.fetches.foldl fetched ([], s1)
  let landed := fun (acc : List Landing × State) (w : Landing) =>
    if inRegion stack region w.frame w.kib then
      let t := takeT1 (w.frame / 2 ^ 29) noOwner w.kib (t1Base acc.2) acc.2
      (acc.1 ++ [{ w with frame := t.1 }], t.2)
    else (acc.1 ++ [w], acc.2)
  let group := fun (acc : List MGroup × State) (g : MGroup) =>
    let t := g.lands.foldl landed ([], acc.2)
    (acc.1 ++ [{ g with lands := t.1 }], t.2)
  let q := r.2.rack.groups.foldl group ([], r.2)
  { q.2 with tiers := { q.2.tiers with fetches := r.1 }, rack := { q.2.rack with groups := q.1 } }

/-- An owner region retired: its contents moved, it is excluded from allocation at this and every later start; 65,536 of a die report it degraded
(R242). -/
def retireRegion (stack region : Nat) (s : State) : State :=
  let d := stack / 6
  if scCount s.part ≤ d then s else
  let n := countOf s.tiers.retired d + 1
  let s1 : State := { s with tiers := { s.tiers with retired := setCount s.tiers.retired d n } }
  let s2 := hrRewrite (fun r => { r with regions := r.regions ++ [(stack, region)] }) s1
  let s3 := healthEvent d (stack * 2 ^ 32 + region) (moveOut stack region s2)
  if 65536 ≤ n ∧ s3.tiers.degraded.contains d = false then
    fireState { s3 with tiers := { s3.tiers with degraded := s3.tiers.degraded ++ [d] } }
  else s3

/-- Patterns of a layer recomputed from the pages' lower copies; bits near zero may differ (R76, R180, R243). -/
def recastPatterns (h layer : Nat) (s : State) : State :=
  let fresh := fun (p : ModelProgram) (g : Page) =>
    { g with patterns := g.patterns.mapIdx fun k _ =>
        resketch (s.free + 64 * g.row + k) p.projectionSeed layer k (keySum (if g.mx4 then 2 else formatOf p layer) (headRows k g.keys)) }
  let again := fun (x : Session) (g : Page) =>
    match sessProg s x with
    | some p => if g.layer = layer ∧ g.cond ≠ .molten then fresh p g else g
    | none => g
  onSess h (fun x => { x with recastPending := true, pages := x.pages.map (again x) }) (drawFree s)

/-- A session cut back to `q` by lost state, its work in a pour discarded first (R243). -/
def cutLost (h q : Nat) (s : State) : State := freeSpent h (truncateSession false h q (maskSlot h s))

/-- What Table 7-11 does for what the line held; a cluster's T0 is the caller's. Weights are named by their block, 65,535 for the tensors of no block, and are
read again before use. -/
def lineLost (held : LineHeld) (s : State) : State :=
  match held with
  | .cacheEntry h row layer => onPage h row layer (fun g => if g.cond = .cast then { g with inT1 := false, frame := noFrame } else g) s
  | .weights m b => onModel m (fun y => { y with arrived := y.arrived.filter (· != b), again := y.again.filter (· != b) ++ [b] }) s
  | .moltenPage h _ => (match findSess s h with | some x => cutLost h (x.w / 16 * 16) s | none => s)
  | .recurrent h none => loseSession false h (maskSlot h s)
  | .recurrent h (some n) =>
    let put := fun (x : Session) => match x.snapshots.find? (fun k => k.pos == n) with | some k => { x with blocks := k.blocks } | none => x
    cutLost h n (onSess h put (maskSlot h s))
  | .pattern h layer => recastPatterns h layer s
  | .oneCopy => s
  | .sessionTable h => loseSession false h (maskSlot h s)
  | .directory hs => forEach hs (fun h t => loseSession false h (maskSlot h t)) (fireState { s with tiers := { s.tiers with degraded := s.tiers.degraded ++ [100] } })
  | .backlog fn => fireState (onFn fn (fun f => { f with backlog := f.backlog.drop 1 }) { s with tiers := { s.tiers with degraded := s.tiers.degraded ++ [101] } })
  | .landing g => reportBroken g 7 s
  | .t0 _ _ => s

/-- HBM_CORRECTED (R242): counted per stack; the third within 3,600 s of the die's meter retires the region. -/
def execHbmCorrected (stack region meterS : Nat) (s : State) : Host.Outcome State Fault Refusal :=
  if scCount s.part ≤ stack / 6 then .next s else
  let s1 : State := { s with tiers := { s.tiers with corrected := setCount s.tiers.corrected stack (countOf s.tiers.corrected stack + 1) } }
  let near := s1.tiers.recent.filter fun p => p.1 == stack && p.2.1 == region && decide (meterS ≤ p.2.2 + 3600)
  let keep := s1.tiers.recent.filter fun p => !(p.1 == stack && p.2.1 == region)
  if 2 ≤ near.length then .next (retireRegion stack region { s1 with tiers := { s1.tiers with recent := keep } })
  else .next { s1 with tiers := { s1.tiers with recent := keep ++ near ++ [(stack, region, meterS)] } }

/-- PATROL_SCRUB (R241): a pass over a die's T1; errors it finds come as HBM_CORRECTED and HBM_UNCORRECTABLE. -/
def execPatrolScrub (die : Nat) (s : State) : Host.Outcome State Fault Refusal :=
  if die < scCount s.part then .next { s with tiers := { s.tiers with patrol := s.tiers.patrol.modify die (· + 1) } } else .next s

/-! ### Background copies (R71, R233, R234, R239) -/

/-- Free bytes and granted bytes of a partition's T2. -/
def partFree (s : State) (p : Nat) : Nat := ((s.tiers.pools.filter fun q => q.partition == p).map (poolFree s)).sum
def partExtents (s : State) (p : Nat) : Nat := ((s.tiers.pools.filter fun q => q.partition == p && !q.failed).map fun q => q.extents * 2 ^ 30).sum

/-- The H region of a partition with room for `bytes`. -/
def roomyH (s : State) (p bytes : Nat) : Option HRegion :=
  s.tiers.hRegions.find? fun r => r.partition == p && !r.failed && r.removing.isNone && decide (hUsed s p r.link + bytes ≤ r.length)

/-- A removal of an H region completed once nothing lies in it (R233). -/
def settleRemoval (s : State) : State :=
  let done := fun (r : HRegion) =>
    match r.removing with
    | some n => if hUsed s r.partition r.link ≤ n then { r with length := n, removing := none } else r
    | none => r
  { s with tiers := { s.tiers with hRegions := s.tiers.hRegions.map done } }

/-- A copy in H moved back to T2 (R71, R233). -/
def unspill (x : Session) (p : ModelProgram) (g : Page) (s : State) : State :=
  match pickPool s (roomyPools s (sessPlace s x) (pageBytes p g) g.pools) with
  | none => s
  | some q =>
    settleRemoval (seat x.handle (onPage x.handle g.row g.layer (fun y =>
      { y with inH := false, pools := y.pools ++ [q], first := true, second := decide (1 ≤ y.pools.length)
               lower0 := if y.pools.isEmpty then noAddress else y.lower0, lower1 := noAddress }) (drawFree s)))

/-- A T2 copy of a WARM session spilled to H, whose place it then leaves (R71, R234). -/
def spillPage (x : Session) (p : ModelProgram) (g : Page) (s : State) : State :=
  match roomyH s (sessPart s x) (pageBytes p g) with
  | none => s
  | some r =>
    releasePages (some p) [{ g with pools := g.pools.drop (g.pools.length - 1) }]
      (seat x.handle (onPage x.handle g.row g.layer (fun y => { y with inH := true, hLink := r.link, pools := y.pools.dropLast
                                                                       first := decide (1 < y.pools.length), second := false, lower1 := noAddress }) s))

/-- Whether a pool's grant has been removed. -/
def isLeaving (s : State) (n : Nat) : Bool := s.tiers.pools.any fun q => q.num == n && q.leaving

/-- An object's copies moved out of a pool that leaves, into another permitted one (R220, R426). -/
def leavePool (x : Session) (kib : Nat) (pools : List Nat) (put : List Nat → State → State) (s : State) : State :=
  match pools.find? (isLeaving s) with
  | none => s
  | some n =>
    match pickPool s (roomyPools s (sessPlace s x) (1024 * kib) pools) with
    | none => s
    | some q => put (pools.map fun k => if k = n then q else k) (drawFree s)

/-- A session's copies moved out of pools that leave: one page, and its blocks and leaves with it. -/
def leavePools (h row layer : Nat) (s : State) : State :=
  match findSess s h with
  | none => s
  | some x =>
    match sessProg s x, findPage x row layer with
    | some p, some g =>
      let s1 := leavePool x (frameKib p g) g.pools (fun ps => onPage h row layer fun y =>
        { y with pools := ps, lower0 := if y.pools[0]? = ps[0]? then y.lower0 else noAddress, lower1 := if y.inH || y.pools[1]? = ps[1]? then y.lower1 else noAddress }) s
      let s2 := forEach x.blks (fun b t => leavePool x (ceilDiv b.size 1024) b.pools (fun ps => onBlk h b fun y =>
        { y with pools := ps, lower0 := if y.pools[0]? = ps[0]? then y.lower0 else noAddress, lower1 := if y.inH || y.pools[1]? = ps[1]? then y.lower1 else noAddress }) t) s1
      let s3 := forEach x.leaves (fun l t => leavePool x leafKib l.pools (fun ps => onLeaf h l.range fun y =>
        { y with pools := ps, lower0 := if y.pools[0]? = ps[0]? then y.lower0 else noAddress, lower1 := if y.pools[1]? = ps[1]? then y.lower1 else noAddress }) t) s2
      settleLeaving (seat h s3)
    | _, _ => s

/-- Whether a partition spills: from under 2 % of free T2 until it is back at 4 % (R234). -/
def spills (s : State) (part : Nat) : Bool :=
  decide (partFree s part * 100 < partExtents s part * 2) ||
    s.tiers.spilling.contains part && decide (partFree s part * 100 < partExtents s part * 4)
def markSpill (part : Nat) (s : State) : State :=
  { s with tiers := { s.tiers with spilling := s.tiers.spilling.filter (· != part) ++ if spills s part then [part] else [] } }

/-- Whether a page of a session is one that spills next: of the session longest in WARM with copies in T2 that may go to H, cast pages before frozen ones
(R234). -/
def spillsNext (s : State) (x : Session) (g : Page) : Bool :=
  let inT2 := fun (y : Session) => y.pages.filter fun k => !k.inH && !k.pools.isEmpty
  let all := s.sess.filter fun y => y.state == .warm && sessPart s y == sessPart s x && (sessPlace s y).spillH && !(inT2 y).isEmpty
  x.state == .warm && (sessPlace s x).spillH && !g.inH && !g.pools.isEmpty && all.all (fun y => decide (x.warmAt ≤ y.warmAt)) &&
    (g.cond == .cast || (inT2 x).all fun k => k.cond != .cast)

/-- With a session's last page in H, its frozen blocks follow it there (R234). -/
def spillBlks (h : Nat) (s : State) : State :=
  match findSess s h with
  | none => s
  | some x =>
    if x.pages.any (fun g => !g.inH && !g.pools.isEmpty) then s
    else forEach (x.blks.filter fun b => !b.inH && b.cond == .frozen && !b.pools.isEmpty) (fun b t =>
      match roomyH t (sessPart t x) b.size with
      | none => t
      | some r => seat h (onBlk h b (fun y => { y with inH := true, hLink := r.link, pools := y.pools.dropLast, first := decide (1 < y.pools.length)
                                                       second := false, lower1 := noAddress }) t)) s

/-- BACKGROUND_COPY_COMPLETE (R71): a move back to T2 out of an H region being removed; a new copy after a pool loss; or a spill, from
under 2 % of the partition's free T2 up to 4 % (R234). -/
def execBackgroundCopyComplete (handle row layer : Nat) (s : State) : Host.Outcome State Fault Refusal :=
  match findSess s handle with
  | none => .next s
  | some x =>
    match sessProg s x, findPage x row layer with
    | some p, some g =>
      let part := sessPart s x
      if (g.pools ++ (x.blks.map Blk.pools).flatten ++ (x.leaves.map Leaf.pools).flatten).any (isLeaving s) then .next (leavePools handle row layer s)
      else if g.inH ∧ s.tiers.hRegions.any (fun r => r.partition == part && r.link == g.hLink && r.removing.isSome) then .next (unspill x p g s)
      else if g.pools.length < (if g.cond = .frozen then frozenCopies x.durability else castCopies x.durability) ∧ g.inH = false then
        .next (secondCopy handle row layer s)
      else if spillsNext s x g ∧ spills s part then
        .next (markSpill part (spillBlks handle (spillPage x p g (markSpill part s))))
      else .next s
    | _, _ => .next s

end Sys2Proof.Machine
end

