-- ==== Sys2Proof/Machine/Store.lean ====
section
/-! DEFINITION. The parking store's groups and the rows of its NAND events: programmes, erases, reads, retirement, folding and reclaim, the
journal timer and channel training (R244 to R246, R259 to R272). -/

namespace Sys2Proof.Machine

/-! ### Groups (R247, R261) -/

/-- The board description in force. -/
def board (s : State) : BoardDesc := (s.dev.image.map Image.board).getD {}

/-- Pages of a group, in native or SLC mode (Table 8-1). -/
def groupPages (b : BoardDesc) (slc : Bool) : Nat := b.planes * (if slc then b.blockPages / max 1 b.bitsPerCell else b.blockPages)

/-- The entry of a group: free with no history where none is listed. -/
def groupOf (s : State) (hub num ns : Nat) : Group :=
  (s.store.groups.find? fun g => g.hub == hub && g.num == num).getD { hub := hub, num := num, ns := ns }

/-- A group's entry put in place. -/
def setGroup (g : Group) (s : State) : State :=
  { s with store := { s.store with groups := (s.store.groups.filter fun x => !(x.hub == g.hub && x.num == g.num)) ++ [g] } }

/-- A namespace made read-only: journalled, its folds and reclaims stopped, and reported with vector 2 (R268, R270, R271); the subject of journal kind 11 is
the namespace (log entry 204). -/
def enterReadOnly (hub n : Nat) (s : State) : State :=
  if (nsOf s n).readOnly then s
  else
    let stop := fun (g : Group) => if g.ns = n then { g with copying := false } else g
    let s1 := onNs n (fun y => { y with readOnly := true, reclaiming := false }) { s with store := { s.store with groups := s.store.groups.map stop } }
    healthSignal (6 + hub) n (journal hub { kind := 11, subject := n } s1)

/-- A group's retirement journalled, the journal flushed before it; a spare takes its place, and where the pool is empty the namespace becomes
read-only (R262, R266, R270). -/
def retireGroup (g : Group) (s : State) : State :=
  if g.state == .retired then s
  else
    let s1 := setGroup { g with state := .retired, copying := false, bad := false }
      (flushJournal g.hub (journal g.hub { kind := 7, subject := groupAddress g.num } s))
    if 0 < (nsOf s1 g.ns).spares then onNs g.ns (fun y => { y with spares := y.spares - 1, total := y.total + 1 }) s1
    else enterReadOnly g.hub g.ns s1

/-- A group that must be retired: at once where it holds no valid page; otherwise its valid pages are first copied elsewhere (R266). With no spare left the
namespace becomes read-only and the group's pages stay (R270, R271). -/
def condemn (g : Group) (s : State) : State :=
  if g.valid = 0 ∨ g.state = .retired then retireGroup g s
  else if (nsOf s g.ns).spares = 0 ∨ (nsOf s g.ns).readOnly then enterReadOnly g.hub g.ns (setGroup g s)
  else setGroup { g with state := .closed, bad := true, copying := true } s

/-! ### Folding and reclaim (R264, R265) -/

/-- The SLC buffer's limit, in thousandths of a group: min(0.06 n, max(0.005 n, (f − 0.02 n) / 2)) (R264). -/
def slcLimit (n f : Nat) : Nat := min (60 * n) (max (5 * n) ((1000 * f - 20 * n) / 2))

/-- The closed SLC group that closed first (R264). -/
def oldestSlc (s : State) (n : Nat) : Option Group :=
  (sortBy Group.closeSeq ((nsGroups s n).filter fun g => g.state == .closed && g.slc && !g.copying)).head?

/-- The mean erase count of a namespace's groups. -/
def meanErases (s : State) (n : Nat) : Nat := ((nsGroups s n).map Group.erases).sum / max 1 (nsOf s n).total

/-- A group's reclaim score as an exact fraction (R265). -/
def reclaimScore (s : State) (n seq : Nat) (g : Group) : Nat × Nat :=
  if g.state != .closed || g.slc || g.pages ≤ g.valid then (0, 1)
  else
    let span := max 1 (nsOf s n).capacity
    let age := min (seq - g.closeSeq) span
    let lim := max 1 (board s).eraseLimit
    let up := lim + 4 * meanErases s n - 4 * g.erases
    let wear := if 4 * g.erases > 4 * meanErases s n + lim then (1, 2) else if up * 2 < lim then (1, 2) else if 2 * lim < up then (2, 1) else (up, lim)
    ((g.pages - g.valid) * (span + age) * 64 * wear.1, (64 * g.valid + g.pages) * span * wear.2)

/-- Whether score `a` is above score `b`. -/
def scoreGt (a b : Nat × Nat) : Bool := decide (b.1 * a.2 < a.1 * b.2)

/-- The victim of R265: a group flagged for refresh first, else the highest score, the less erased of equals. -/
def chooseVictim (s : State) (n seq : Nat) : Option Group :=
  let gs := (nsGroups s n).filter fun g => g.state == .closed && !g.slc && !g.copying
  match gs.find? Group.refresh with
  | some g => some g
  | none => gs.foldl (fun best g =>
      let x := reclaimScore s n seq g
      if x.1 = 0 then best
      else match best with
        | none => some g
        | some b =>
          let y := reclaimScore s n seq b
          if scoreGt x y || (!scoreGt y x && decide (g.erases < b.erases)) then some g else best) none

/-- A group marked as the source of a copy. -/
def startCopy (g : Group) (s : State) : State := setGroup { g with copying := true } s

/-- Groups of a namespace in SLC mode that hold something (R264). -/
def slcHeld (s : State) (n : Nat) : Nat := (nsGroups s n).countP fun g => g.slc && (g.state == .opened || g.state == .closed)

/-- Whether new writes of a namespace wait: it is urgent, or its SLC buffer is at its limit (R264, R265, Table 8-10). -/
def writesWait (s : State) (n : Nat) : Bool := nsUrgent s n || decide (slcLimit (nsOf s n).groups (freeGroups s n) ≤ 1000 * slcHeld s n)

/-- Folding while the buffer holds more than half its limit, and reclaim from 3 % of free groups up to 5 %, one source of each at a time
(R264, R265); neither runs read-only (Table 8-10). -/
def tend (n : Nat) (s0 : State) : State :=
  let f := freeGroups s0 n
  if (nsOf s0 n).readOnly then s0
  else
    let s := onNs n (fun y => { y with reclaiming := decide (f * 100 < 3 * y.groups) || (y.reclaiming && decide (f * 100 < 5 * y.groups)) }) s0
    let x := nsOf s n
    let gs := nsGroups s n
    let s1 :=
      if slcLimit x.groups f < 2000 * slcHeld s n ∧ gs.any (fun g => g.copying && g.slc) = false then
        match oldestSlc s n with | some g => startCopy g s | none => s
      else s
    let seq := ((s.store.hubs.map HubStore.seq).foldl max 0)
    let busy := (nsGroups s1 n).any fun g => g.copying && !g.slc
    if (x.reclaiming ∨ gs.any Group.refresh) ∧ busy = false then
      match chooseVictim s1 n seq with | some g => startCopy g s1 | none => s1
    else s1

/-! ### Programmes (R254, R261 to R264, R269) -/

/-- A group that takes its first programme is opened: journalled, with the journal flushed before (R262); the record's value is the erase count
(log entry 204). -/
def openGroup (g : Group) (slc : Bool) (s : State) : Group × State :=
  if g.state == .free then
    let h := { g with state := .opened, slc := slc, pages := groupPages (board s) slc, valid := 0, written := 0 }
    (h, flushJournal g.hub (journal g.hub { kind := 4, subject := groupAddress g.num, value := g.erases } s))
  else (g, s)

/-- The kind of a NAND page in its tag (Table 8-7). -/
def pageKind (page : NandPage) : Nat :=
  match page with
  | .row _ | .map | .patterns | .recurrent => 1
  | .head => 2
  | .list => 3
  | .parity => 4
  | .trickle _ => 5
  | .journal => 6

/-- The row that a trickle page holds. -/
def pageRow (page : NandPage) : Nat := match page with | .trickle r => r | _ => 0

/-- An extent moved out of the group being copied: the source loses its pages and the move is journalled; a group to be retired is, once it is empty
(R264, R266, R272). -/
def moveExtent (e : Ext) (obj : Nat) (s : State) : State :=
  let lies := fun (g : Group) (k : Ext) => k.hub == g.hub && k.group == g.num && k.kind == e.kind
  match (findObj s obj).bind fun o => s.store.groups.findSome? fun g => if g.copying && g.ns == o.ns then (o.exts.find? (lies g)).map fun k => (g, k) else none with
  | none => s
  | some (g, k) =>
    let put := fun (y : Ext) => if y = k then { e with index := k.index, row := k.row } else y
    let s1 := journal e.hub { kind := 8, index := k.index, subject := obj, value := extAddress e } (onObj obj (fun o => { o with exts := o.exts.map put }) s)
    let g1 := { g with valid := g.valid - k.pages }
    if g1.bad && g1.valid == 0 then retireGroup g1 s1 else setGroup g1 s1

/-- A programme of an object's extent counted: a new one leaves its reservation, a copied one leaves its source; one of a deleted object, or of a tenant whose
key has been destroyed, is invalid as it lands (R260, R268, R272). -/
def countPages (e : Ext) (obj : Nat) (page : NandPage) (s : State) : Nat × State :=
  match findObj s obj with
  | none => (0, s)
  | some o =>
    if o.deleted ∨ (findTen s o.tenant).any (fun t => t.key.isNone) then (0, s)
    else if page = .head ∨ e.pages ≤ o.reserved then
      let s1 := if page = .list then journal e.hub { kind := 9, subject := obj, value := extAddress e } s else s
      (e.pages, onObj obj (fun x => { x with headOk := x.headOk + (if page = .head then 1 else 0), pages := x.pages + e.pages, reserved := x.reserved - e.pages
                                             exts := x.exts ++ [{ e with index := (x.exts.filter fun k => k.kind != 2 && k.kind != 3).length }] }) s1)
    else (e.pages, moveExtent e obj s)

/-- The logical page that an object's next programme of a kind begins at: past its data pages so far, or, for a parity extent, the first of its group
(R249, Table 8-7). -/
def nextLogical (s : State) (o : Obj) (kind : Nat) : Nat :=
  let data := o.exts.filter fun e => e.kind == 1 || e.kind == 5
  let group := (o.exts.countP fun e => e.kind == 4) * groupData s
  ((if kind = 4 then data.take group else data).map Ext.pages).sum

/-- Whether an object's next head or list page is the second copy of one (R250). -/
def isSecond (o : Obj) (kind : Nat) : Bool :=
  if kind = 2 then o.headOk % 2 == 1 else kind == 3 && (o.exts.countP fun e => e.kind == 3) % 2 == 1

/-- The tags of the pages of one programme (Table 8-7): the object, the logical pages on from `first`, and the hub's write sequence on from `seq`; flag bit 0
in SLC mode, bit 1 in a second copy. -/
def tagsOf (o : Option Obj) (kind first seq pages : Nat) (slc : Bool) : List Tag :=
  (List.range pages).map fun i =>
    { object := (o.map Obj.num).getD 0, offset := if kind = 4 then first else first + i, sequence := seq + i, tenant := (o.map Obj.tenant).getD 0
      kind := kind, flags := slc.toNat + 2 * (o.any fun x => isSecond x kind).toNat }

/-- NAND_PROGRAM_COMPLETE (R259, R264 to R266): counts and tags kept, a full group closed; a failure condemns the group. A new write that has to wait has not
been started, so it does nothing. A journal page counts in the hub's write sequence alone. -/
def execNandProgramComplete (hub group object pages : Nat) (page : NandPage) (ok : Bool) (s : State) : Host.Outcome State Fault Refusal :=
  if page = .journal then .next (onHubStore hub (fun x => { x with seq := x.seq + pages }) s)
  else
    let o := findObj s object
    let ns := (o.map Obj.ns).getD 0
    let copy := match o with | some x => decide (x.reserved < pages) && page != .head | none => false
    let g0 := groupOf s hub group ns
    if ok = false then .next (condemn g0 s)
    else if copy = false ∧ g0.state = .free ∧ writesWait s ns then .next s
    else
      let g1 := openGroup g0 (!copy) s
      let e : Ext := { index := 0, kind := pageKind page, row := pageRow page, hub := hub, group := group, page := g1.1.written / max 1 (board s).planes, pages := pages }
      let c := countPages e object page (setGroup g1.1 g1.2)
      let s1 := onHubStore hub (fun x => { x with seq := x.seq + pages }) c.2
      let seq := (hubStore s1 hub).seq
      let g2 : Group := { g1.1 with valid := g1.1.valid + c.1, written := g1.1.written + pages
                                    tags := g1.1.tags ++ tagsOf o (pageKind page) ((o.map fun x => nextLogical s x (pageKind page)).getD 0) (seq - pages) pages g1.1.slc }
      let s2 :=
        if g2.pages ≤ g2.written then
          journal hub { kind := 5, subject := groupAddress group, value := seq } (setGroup { g2 with state := .closed, closeSeq := seq } s1)
        else setGroup g2 s1
      .next (tend ns s2)

/-- NAND_ERASE_COMPLETE (R263, R266, R268): a group with no valid page becomes free; a failure, or the erase limit, retires it. Read-only, no space is used
again. -/
def execNandEraseComplete (hub group : Nat) (ok : Bool) (s : State) : Host.Outcome State Fault Refusal :=
  match s.store.groups.find? (fun g => g.hub == hub && g.num == group) with
  | none => .next s
  | some g =>
    if g.state ≠ .closed ∨ 0 < g.valid ∨ (nsOf s g.ns).readOnly then .next s
    else if ok = false then .next (retireGroup g s)
    else
      let n := g.erases + 1
      let s1 := journal hub { kind := 6, subject := groupAddress group, value := n } (flushJournal hub s)
      let h : Group := { hub := hub, num := group, ns := g.ns, erases := n }
      if (board s).eraseLimit ≤ n ∨ g.bad then .next (retireGroup h s1) else .next (tend g.ns (setGroup h s1))

/-! ### Reads (R259, R265 to R267) -/

/-- Whether a session depends on an ingot now: parked in it, being revived from it, or still copying out of it (R256, R267). -/
def needsIngot (x : Session) : Bool := x.state == .parked || x.copying || x.op == some (.revival true)

/-- Whether a row of a session has whole T2 copies of every page (R237, R267). -/
def rowInT2 (s : State) (x : Session) (row : Nat) : Bool :=
  let pgs := x.pages.filter fun g => g.row == row
  !pgs.isEmpty && pgs.all fun g => !((readable s x g).filter (· != 1001)).isEmpty || g.cond == .casting || g.cond == .molten

/-- A row lost from an object: its store copy gone, and the session cut to it where nothing else holds it (R267). -/
def rowLost (x : Session) (row : Nat) (s : State) : State :=
  let kept := rowInT2 s x row
  let s1 := onSess x.handle (fun y => { y with pages := y.pages.map fun g => if g.row = row then { g with inStore := false } else g }) s
  if kept || decide (x.w ≤ 16 * row) then s1 else cutLost x.handle (16 * row) s1

/-- A page lost beyond parity and second copy (R267). -/
def pageLost (obj : Nat) (page : NandPage) (s : State) : State :=
  match findObj s obj with
  | none => s
  | some o =>
    match findSess s o.handle with
    | none => s
    | some x =>
      match page with
      | .row r => if o.deleted || (x.state == .parked && x.ingot != obj) then s else rowLost x r s
      | .trickle r => if o.deleted then s else rowLost x r s
      | .parity | .journal => s
      | .map | .patterns | .recurrent | .head | .list =>
        if needsIngot x && !o.deleted then loseSession false x.handle s
        else onSess x.handle (fun y => { y with pages := y.pages.map fun g => { g with inStore := false } }) s

/-- NAND_READ_COMPLETE (R259, R265 to R267): a weak or much-read group is flagged for refresh; one that needed parity or its second copy is
retired; a lost page costs the session what it held. -/
def execNandReadComplete (hub group object : Nat) (page : NandPage) (found : NandRead) (s : State) : Host.Outcome State Fault Refusal :=
  let ns := ((findObj s object).map Obj.ns).getD 0
  let g := groupOf s hub group ns
  let g1 := { g with reads := g.reads + 1, refresh := g.refresh || found == .weak || decide ((board s).readLimit < g.reads + 1) }
  let s1 := setGroup g1 s
  match found with
  | .decoded | .weak => .next (tend ns s1)
  | .rebuilt => .next (condemn g1 s1)
  | .lost => .next (drainAll (pageLost object page (condemn g1 s1)))

/-! ### Timers -/

/-- JOURNAL_FLUSH_TIMER (R262). -/
def execJournalFlushTimer (hub : Nat) (s : State) : Host.Outcome State Fault Refusal := .next (flushJournal hub s)

/-- CHANNEL_RETRAIN_TIMER (R244, R245): a channel trained again stays; one that fails is fenced, with a health event, and capacity is less in proportion. -/
def execChannelRetrainTimer (channel : Nat) (passed : Bool) (s : State) : Host.Outcome State Fault Refusal :=
  if passed || !bitAt s.store.channels channel then .next s
  else
    let c := (usableChannels s).length
    let less := fun (n : Ns) => { n with capacity := n.capacity * (c - 1) / c, groups := n.groups * (c - 1) / c, total := n.total * (c - 1) / c
                                         spares := n.spares * (c - 1) / c }
    .next (healthSignal (6 + channel / 32) channel
      { s with store := { s.store with channels := s.store.channels - 2 ^ channel, nss := s.store.nss.map less } })

end Sys2Proof.Machine
end

