-- ==== Sys2Proof/Machine/Recall.lean ====
section
/-! DEFINITION. The recall engines (R307 to R330): distance, the graph walk, insertion, repair, slabs, queries and their answers, rendering for
a session, and the rows RECALL, MEMORIZE, FORGET and the engine's events. -/

namespace Sys2Proof.Machine

/-! ### Codes and shards -/

/-- Bytes of a code of a width (R307). -/
def codeBytes (width : Nat) : Nat := 32 * 2 ^ width

/-- Set bits of a byte. -/
def popByte (b : Byte) : Nat := (List.range 8).countP fun i => b.getLsbD i

/-- The distance between two codes (R307). -/
def codeDist (a b : List Byte) : Nat := ((List.zipWith (fun x y => popByte (x ^^^ y)) a b).sum)

/-- A node's tags pass a filter (R308). -/
def passes (tags require exclude : Nat) : Bool := (tags &&& require) == require && (tags &&& exclude) == 0

/-- A shard by index and number; one whose deletion is committed is unknown to messages (R311). -/
def findShard (s : State) (index shard : Nat) : Option Shard :=
  s.rcl.shards.find? fun h => h.item.index == index && h.item.shardNumber == shard
def onShard (index shard : Nat) (f : Shard → Shard) (s : State) : State :=
  { s with rcl := { s.rcl with shards := s.rcl.shards.map fun h => if h.item.index = index ∧ h.item.shardNumber = shard then f h else h } }

/-- Shards of an index on this package that messages may name. -/
def localShards (s : State) (index : Nat) : List Shard := s.rcl.shards.filter fun h => h.item.index == index && !h.deleting

/-- A node by number. -/
def nodeOf (sh : Shard) (n : Nat) : Option Node := findKey Node.num n sh.nodes
def putNode (x : Node) (sh : Shard) : Shard := { sh with nodes := upsert Node.num x sh.nodes }

/-- Whether an edge is followed (R315). -/
def follow? (sh : Shard) (e : Nat × Nat) : Option Node :=
  match nodeOf sh e.1 with
  | some n => if (n.state == .linking || n.state == .live || n.state == .tombstone) && n.gen == e.2 then some n else none
  | none => none

/-! ### Searching (R316) -/

/-- A walk: its beam of (distance, node, expanded), the nodes seen, the nodes found. -/
structure Walk where
  beam  : List (Nat × Nat × Bool)
  seen  : List Nat
  found : List (Nat × Node)
  full  : Bool := false
  deriving DecidableEq, Repr

/-- Whether `a` comes before `b`: less distance, then the lower node number. -/
def beamBefore (a b : Nat × Nat × Bool) : Bool := decide (a.1 < b.1) || (a.1 == b.1 && decide (a.2.1 < b.2.1))

/-- The unexpanded node of least distance, lower node number first. -/
def nextNode (beam : List (Nat × Nat × Bool)) : Option (Nat × Nat × Bool) :=
  (beam.filter fun e => !e.2.2).foldl (fun acc e =>
    match acc with
    | none => some e
    | some y => if beamBefore e y then some e else some y) none

/-- The beam's greatest distance. -/
def beamMax (beam : List (Nat × Nat × Bool)) : Nat := (beam.map fun e => e.1).foldl max 0

/-- The beam without its last member in (distance, node) order. -/
def dropFarthest (beam : List (Nat × Nat × Bool)) : List (Nat × Nat × Bool) :=
  match beam.foldl (fun (acc : Option (Nat × Nat × Bool)) e =>
      match acc with
      | none => some e
      | some y => if beamBefore y e then some e else some y) none with
  | none => beam
  | some w => beam.filter fun e => e.2.1 != w.2.1

/-- One target taken into a walk. -/
def visit (q : List Byte) (b require exclude : Nat) (w : Walk) (n : Node) : Walk :=
  if w.full || w.seen.contains n.num then w
  else if 65536 ≤ w.seen.length then { w with full := true }
  else
    let d := codeDist q n.code
    let w1 := { w with seen := n.num :: w.seen }
    let w2 :=
      if w1.beam.length < b ∨ d < beamMax w1.beam then
        let bm := w1.beam ++ [(d, n.num, false)]
        { w1 with beam := if b < bm.length then dropFarthest bm else bm }
      else w1
    if n.state == .live && passes n.tags require exclude then { w2 with found := w2.found ++ [(d, n)] } else w2

/-- The walk, with the visit limit as fuel (R316, R320). -/
def walk (sh : Shard) (q : List Byte) (b require exclude : Nat) : Nat → Walk → Walk
  | 0, w => w
  | k + 1, w =>
    match nextNode w.beam with
    | none => w
    | some e =>
      if w.full ∨ (w.beam.length = b ∧ beamMax w.beam < e.1) then w
      else
        let w1 := { w with beam := w.beam.map fun x => if x.2.1 = e.2.1 then (x.1, x.2.1, true) else x }
        let targets := (((nodeOf sh e.2.1).map Node.edges).getD []).filterMap (follow? sh)
        walk sh q b require exclude k (targets.foldl (visit q b require exclude) w1)

/-- A search of a shard: what its walk found, nearest first, lower key first among equals (R316). -/
def searchShard (sh : Shard) (q : List Byte) (k b require exclude : Nat) : List (Nat × Node) :=
  let start := sh.entries.filterMap (nodeOf sh)
  let w0 : Walk := { beam := start.map fun n => (codeDist q n.code, n.num, false), seen := start.map Node.num, found := [] }
  let w := walk sh q b require exclude sh.item.visitLimit w0
  (sortBy (fun (p : Nat × Node) => p.1 * 2 ^ 64 + p.2.key) w.found).take k

/-! ### Insertion, repair and slabs (R314, R317, R322, R324) -/

/-- Neighbours chosen from candidates in ascending distance: one is kept when no neighbour already kept is nearer to it than the new node is
(R322, step 3). -/
def prune (code : List Byte) (d : Nat) (cands : List Node) : List Node :=
  let ordered := sortBy (fun (n : Node) => codeDist code n.code * 2 ^ 64 + n.num) cands
  (ordered.foldl (fun kept c => if kept.any (fun k => decide (codeDist k.code c.code < codeDist code c.code)) then kept else kept ++ [c]) []).take d

/-- Bytes of a node block: its fields, code and room for 64 edges, in whole lines of 64 (R313). -/
def nodeBlockSize (width : Nat) : Nat := ceilDiv (32 + codeBytes width + 6 * 64) 64 * 64

/-- Blocks of a slab of 64 KiB (R314). -/
def slabBlocks (width : Nat) : Nat := 65536 / nodeBlockSize width

/-- A node block as it is written (Table 10-3). -/
def nodeBlock (item : IndexItem) (x : Node) : List Byte :=
  padTo (nodeBlockSize item.width) <|
    leBytes 8 x.key ++ leBytes 8 x.tags ++ leBytes 4 x.num ++ leBytes 2 x.gen ++ leBytes 1 x.edges.length ++ zeros 9 ++ x.code ++
      x.edges.flatMap fun e => leBytes 4 e.1 ++ leBytes 2 e.2

/-- The code of a node state in Table 10-2. -/
def nodeState (st : NState) : Nat := match st with | .free => 0 | .linking => 1 | .live => 2 | .tombstone => 3 | .retired => 4

/-- A node-table entry (Table 10-2): the addresses of the current block's copies in units of 64 bytes. -/
def nodeEntry (sh : Shard) (x : Node) : List Byte :=
  let lowers := ((findKey Slab.num x.slab sh.slabs).map Slab.lowers).getD []
  let at_ := fun (i : Nat) => match lowers[i]? with | some a => (a + x.block * nodeBlockSize sh.item.width) / 64 | none => 0
  leBytes 5 (at_ 0) ++ leBytes 5 (at_ 1) ++ leBytes 2 x.gen ++ leBytes 1 (nodeState x.state) ++ zeros 3

/-- Slots of the key table, and the entries it holds: a key for each linking or live node (R312, R323). -/
def keySlots (sh : Shard) : Nat := ceilDiv (sh.item.capacity * 4) 3
def keyTable (sh : Shard) : List (Nat × Nat) := (sh.nodes.filter fun n => n.state == .linking || n.state == .live).map fun n => (n.key, n.num)

/-- A node's new block appended to the open slab; the block it replaces is no longer current (R314). -/
def appendBlock (nextQ : Nat) (x : Node) (sh : Shard) : Shard :=
  let old := (nodeOf sh x.num).map Node.slab
  let lowered := sh.slabs.map fun b => if old = some b.num ∧ 0 < b.current then { b with current := b.current - 1, lastQ := nextQ - 1 } else b
  let openSlab := lowered.getLast?
  match openSlab with
  | some b =>
    if b.written < slabBlocks sh.item.width then
      let bs := lowered.map fun y => if y.num = b.num then { y with written := y.written + 1, current := y.current + 1 } else y
      putNode { x with slab := b.num, block := b.written } { sh with slabs := bs }
    else putNode { x with slab := sh.nextSlab, block := 0 } { sh with slabs := lowered ++ [{ num := sh.nextSlab, written := 1, current := 1 }], nextSlab := sh.nextSlab + 1 }
  | none => putNode { x with slab := sh.nextSlab, block := 0 } { sh with slabs := [{ num := sh.nextSlab, written := 1, current := 1 }], nextSlab := sh.nextSlab + 1 }

/-- Slabs released: none of whose blocks is current, once the queries started before its last block was replaced have completed; the open
slab stays (R314). -/
def releaseSlabs (qs : List Query) (sh : Shard) : Shard :=
  let last := (sh.slabs.getLast?).map Slab.num
  { sh with slabs := sh.slabs.filter fun b => !(b.current == 0 && some b.num != last && !(qs.any fun q => decide (q.num ≤ b.lastQ))) }

/-- Edges from a node to its neighbours, in ascending distance (Table 10-3). -/
def edgesTo (ns : List Node) : List (Nat × Nat) := ns.map fun n => (n.num, n.gen)

/-- The followable neighbours of a node. -/
def neighbours (sh : Shard) (x : Node) : List Node := x.edges.filterMap (follow? sh)

/-- A neighbour's new block with an edge to the new node, pruned to D (R322, step 4). -/
def linkBack (nextQ : Nat) (x : Node) (sh : Shard) (n : Node) : Shard :=
  match nodeOf sh n.num with
  | none => sh
  | some y => appendBlock nextQ { y with edges := edgesTo (prune y.code sh.item.degree (neighbours sh y ++ [x])) } sh

/-- An insertion's blocks written and the node live (R322, steps 2 to 5); one of the first sixteen is an entry node (R317). The candidates of step 3 are the
nodes that the search leaves in its beam, the entry nodes among them: the model's choice (log entry 231). -/
def insertNode (nextQ : Nat) (num : Nat) (sh : Shard) : Shard :=
  match nodeOf sh num with
  | none => sh
  | some x =>
    let w0 : Walk := { beam := (sh.entries.filterMap (nodeOf sh)).map fun n => (codeDist x.code n.code, n.num, false)
                       seen := num :: sh.entries, found := [] }
    let w := walk sh x.code sh.item.buildBreadth 0 0 sh.item.visitLimit w0
    let cands := (w.beam.filterMap fun e => nodeOf sh e.2.1).filter fun n => n.num != num
    let keep := prune x.code sh.item.degree cands
    let live := { x with state := .live, edges := edgesTo keep }
    let sh1 := appendBlock nextQ live sh
    let sh2 := keep.foldl (linkBack nextQ live) sh1
    { sh2 with entries := if sh2.entries.length < 16 then sh2.entries ++ [num] else sh2.entries }

/-- Nodes of a state. -/
def countState (st : NState) (sh : Shard) : Nat := sh.nodes.countP fun n => n.state == st

/-- A repair pass begun when tombstones pass the repair fraction (R324). -/
def startRepair (sh : Shard) : Shard :=
  let t := countState .tombstone sh
  if sh.repair.isNone ∧ sh.item.repairPct * (countState .linking sh + countState .live sh + t) < 100 * t then
    { sh with repair := some ((sh.nodes.filter fun n => n.state == .tombstone).map Node.num) }
  else sh

/-- A block with edges to tombstones rewritten without them (R324). -/
def repairBlock (nextQ : Nat) (dead : List Nat) (sh : Shard) (x : Node) : Shard :=
  if x.edges.any (fun e => dead.contains e.1) && !dead.contains x.num then
    let stay := (neighbours sh x).filter fun n => !dead.contains n.num
    let more := ((neighbours sh x).filter fun n => dead.contains n.num).map fun n => (neighbours sh n).filter fun m => !dead.contains m.num && m.num != x.num
    appendBlock nextQ { x with edges := edgesTo (prune x.code sh.item.degree (stay ++ more.flatten).eraseDups) } sh
  else sh

/-- The nearest live neighbour that takes a tombstoned entry node's place (R317). -/
def newEntry (sh : Shard) (dead : List Nat) (e : Nat) : Option Nat :=
  if dead.contains e then
    (nodeOf sh e).bind fun x => ((prune x.code 1 ((neighbours sh x).filter fun n => n.state == .live)).head?).map Node.num
  else some e

/-- A tombstone reclaimed: free with its generation raised, or retired past 0xFFFF (R324). -/
def reclaimNode (dead : List Nat) (x : Node) : Node :=
  if dead.contains x.num then
    if 0xFFFF ≤ x.gen then { x with state := .retired, edges := [] } else { x with state := .free, gen := x.gen + 1, key := 0, tags := 0, code := [], edges := [] }
  else x

/-- Current blocks of slabs under a quarter current rewritten (R314). -/
def compact (nextQ : Nat) (sh : Shard) : Shard :=
  let thin := (sh.slabs.filter fun b => decide (4 * b.current < b.written) && some b.num != (sh.slabs.getLast?).map Slab.num).map Slab.num
  (sh.nodes.filter fun n => thin.contains n.slab && (n.state == .live || n.state == .tombstone)).foldl (fun acc x => appendBlock nextQ x acc) sh

/-- A repair pass ended (R317, R324). -/
def endRepair (nextQ : Nat) (qs : List Query) (sh : Shard) : Shard :=
  match sh.repair with
  | none => sh
  | some dead =>
    let sh1 := sh.nodes.foldl (fun acc x => repairBlock nextQ dead acc x) sh
    let es := (sh1.entries.filterMap (newEntry sh1 dead)).eraseDups
    let sh2 := compact nextQ { sh1 with nodes := sh1.nodes.map (reclaimNode dead), entries := es, repair := none }
    startRepair (releaseSlabs qs sh2)

/-! ### Queries (R318 to R321, R328) -/

/-- Where the shards of an index lie: (shard, package), from the map, or this package's own where it is in no domain. -/
def shardPlaces (s : State) (index : Nat) : List (Nat × Nat) :=
  let recs := (mapRecords s).filterMap fun (r : MapRecord) => match r with | .shard i n p _ => if i = index then some (n, p) else none | _ => none
  if inDomain s && !recs.isEmpty then recs else (localShards s index).map fun h => (h.item.shardNumber, s.rack.num)

/-- The shard count of an index as this package knows it. -/
def shardCount (s : State) (index : Nat) : Nat :=
  match (localShards s index).head? with | some h => h.item.shardCount | none => (shardPlaces s index).length

/-- The hub whose engine serves an index here. -/
def indexHub (s : State) (index : Nat) : Nat := ((localShards s index).head?.map fun h => h.item.hub).getD 0

/-- Contexts in use and searches waiting at a hub (R320, R321). -/
def contextsUsed (s : State) (hub : Nat) : Nat := s.rcl.queries.countP fun q => q.hub == hub && !q.queued
def queueLength (s : State) (hub : Nat) : Nat := s.rcl.queries.countP fun q => q.hub == hub && q.queued

/-- Whether an operation finds no place at a hub (R321). -/
def recallFull (s : State) (hub : Nat) : Bool := decide (4096 ≤ contextsUsed s hub) && decide (262144 ≤ queueLength s hub)

/-- A query put among the engine's: in a context, or waiting, on-device calls ahead of host messages (R321). -/
def addQuery (q : Query) (s : State) : State :=
  let n := s.rcl.nextQ
  let wait := q.op == 0x0A && decide (4096 ≤ contextsUsed s q.hub)
  let q1 := { q with num := n, queued := wait }
  let onDev := fun (x : Query) => match x.asker with | .onDevice _ _ => true | _ => false
  let qs := s.rcl.queries
  let placed :=
    if wait && onDev q then qs.filter (fun x => !x.queued || onDev x) ++ [q1] ++ qs.filter (fun x => x.queued && !onDev x) else qs ++ [q1]
  { s with rcl := { s.rcl with queries := placed, nextQ := n + 1 } }

/-- A context freed: the search that waits longest takes it (R321). -/
def promote (hub : Nat) (s : State) : State :=
  if contextsUsed s hub < 4096 then
    match s.rcl.queries.find? (fun q => q.hub == hub && q.queued) with
    | none => s
    | some q => { s with rcl := { s.rcl with queries := s.rcl.queries.map fun x => if x.num = q.num then { x with queued := false } else x } }
  else s

/-- A query removed with its context; the slabs that waited only for it are released (R314). -/
def dropQuery (q : Query) (s : State) : State :=
  let rest := s.rcl.queries.filter fun x => x.num != q.num
  promote q.hub { s with rcl := { s.rcl with queries := rest, shards := s.rcl.shards.map (releaseSlabs rest) } }

/-- A query by number, and a change of one. -/
def findQuery (s : State) (n : Nat) : Option Query := findKey Query.num n s.rcl.queries
def onQuery (n : Nat) (f : Query → Query) (s : State) : State := { s with rcl := { s.rcl with queries := updKey Query.num n f s.rcl.queries } }

/-! ### Rendering (R329) -/

/-- A number in decimal digits. -/
def decimal (n : Nat) : List Byte := (Nat.toDigits 10 n).map fun c => BitVec.ofNat 8 c.toNat
/-- Sixteen upper-case hexadecimal digits. -/
def hex16 (n : Nat) : List Byte :=
  (List.range 16).map fun i =>
    let d := (n >>> (4 * (15 - i))) % 16
    BitVec.ofNat 8 (if d < 10 then 48 + d else 55 + d)

/-- One result through the item section: bytes 1 to 4 stand for key, distance, rank and tags. -/
def renderItem (item : List Byte) (rank : Nat) (r : Nat × Nat × Nat × Nat) : List Byte :=
  (item.map fun b =>
    match b.toNat with
    | 1 => decimal r.2.1
    | 2 => decimal r.1
    | 3 => decimal rank
    | 4 => hex16 r.2.2.1
    | _ => [b]).flatten

/-- The result text of a template. -/
def render (t : Template) (rs : List (Nat × Nat × Nat × Nat)) : List Byte :=
  let items := rs.mapIdx fun i r => renderItem t.item (i + 1) r
  t.pfx ++ (if rs.isEmpty then t.none else (items.intersperse t.separator).flatten) ++ t.suffix

/-- A recall result queued ahead of a session's other input, tokenised with normalisation 3 (R147, R280, R329). -/
def queueResult (h : Nat) (text : List Byte) (s0 : State) : State :=
  let s := closeInput h s0
  match findSess s h with
  | none => s0
  | some x =>
    match sessTok s x with
    | none => onSess h (fun y => { y with call := none }) s
    | some t =>
      let r := takeText t (normData s) 3 false text x.text
      let e := closeText t (normData s) 3 false r.text
      let toks := r.toks ++ e.toks
      let ahead := chunkOf s h
      let base := { x with text := e.text, call := match x.call with
        | some (.onDevice n _) => if toks.isEmpty then none else some (.result n ahead toks.length false)
        | c => c }
      let req := x.request.map fun q => if toks.isEmpty then resumeMould s q else q
      stampQueue h (arm h (setSess { pushBehind ahead toks base with request := req } s))

/-! ### Answers (R147, R318, R319, R325, R328) -/

/-- Results as they go to the asker: ascending distance, lower key first, at most k (R316, R328). -/
def ranked (q : Query) : List (Nat × Nat × Nat × Nat) :=
  (sortBy (fun (r : Nat × Nat × Nat × Nat) => r.1 * 2 ^ 64 + r.2.1) q.found).take q.k

/-- A query ended: its outcome to whoever asked. `reason` is a refusal's. Results are written first (R318). -/
def finishQuery (q : Query) (o : OCode) (reason : Nat) (s : State) : State :=
  let rs := ranked q
  let ok := o == .done
  let out := if ok && q.op == 0x0A && decide (rs.length < q.k) then OCode.partialRes else o
  let d0 := if out = .partialRes then rs.length else if out = .malformed then reason else 0
  let d1 := if out = .partialRes then q.k else 0
  let s1 := dropQuery q s
  match q.asker with
  | .message a tenant tag address =>
    let lines : List ResultLine := rs.mapIdx fun i r =>
      { query := q.num, address := address + 24 * i, key := r.2.1, tags := r.2.2.1, distance := r.1, shard := r.2.2.2 }
    let s2 : State := if ok && q.op == 0x0A then { s1 with rcl := { s1.rcl with results := s1.rcl.results ++ lines } } else s1
    answerFn a.fn { tenant := tenant, seq := a.seq, outcome := out, opcode := a.opcode, d0 := d0, d1 := d1, clientTag := tag, answers := true
                    win := some a.win } (settle a.win a.seq out s2)
  | .onDevice h _ =>
    match findSess s1 h with
    | none => s1
    | some x =>
      if ok then
        let tool := (findTen s1 x.tenant).bind Tenant.recallTool
        let text := match tool.bind (fun t => findKey Template.number t.template s1.dev.templates) with | some t => render t rs | none => []
        queueResult h text (emitOut false x { outcome := out, seq := (x.request.map Request.seq).getD 0, opcode := 0x0A, length := x.p, d0 := d0, d1 := d1 } s1)
      else { s1 with rcl := { s1.rcl with queries := s1.rcl.queries ++ [{ q with failed := o == .tierFault, late := o == .tierLate }] } }
  | .peer p n => sendMgr p 19 0 ([n, q.shard, ocode out] ++ (rs.map fun r => [r.2.1, r.2.2.1, r.1]).flatten) [] [] s1

/-- A query with no shard left to hear from answered: a failed shard before a late one (R328). -/
def concludeQuery (n : Nat) (s : State) : State :=
  match findQuery s n with
  | none => s
  | some q =>
    if q.left.isEmpty then finishQuery q (if q.failed then .tierFault else if q.late then .tierLate else .done) 0 s else s

/-! ### MEMORIZE and FORGET at a shard, one at a time (R322, R323, R330) -/

/-- The node that holds a key, linking or live. -/
def keyNode (sh : Shard) (key : Nat) : Option Node := sh.nodes.find? fun n => n.key == key && (n.state == .linking || n.state == .live)

/-- The lowest free node number (R322). -/
def freeNode (sh : Shard) : Option Nat :=
  (List.range (min sh.item.capacity (sh.nodes.length + 1))).find? fun n => match nodeOf sh n with | some x => x.state == .free | none => true

/-- The first operation waiting at a shard. -/
def nextOp (s : State) (sh : Shard) : Option Query :=
  s.rcl.queries.find? fun q => q.op != 0x0A && q.index == sh.item.index && !q.queued && q.left == [sh.item.shardNumber] && some q.num != sh.inserting

/-- A FORGET taken by its shard (R323). -/
def takeForget (q : Query) (sh : Shard) (s : State) : State :=
  match keyNode sh q.key with
  | none => finishQuery q .malformed 3 s
  | some x =>
    finishQuery q .done 0 (onShard sh.item.index sh.item.shardNumber (fun y => startRepair (putNode { x with state := .tombstone } y)) s)

/-- A MEMORIZE taken by its shard: its node enters linking (R322, step 1). -/
def takeMemorize (q : Query) (sh : Shard) (s : State) : State :=
  if (keyNode sh q.key).isSome then finishQuery q .malformed 3 s
  else match freeNode sh with
    | none => finishQuery q .storeFull 0 s
    | some n =>
      let gen := ((nodeOf sh n).map Node.gen).getD 0
      onShard sh.item.index sh.item.shardNumber (fun y =>
        { putNode { num := n, state := .linking, gen := gen, key := q.key, tags := q.tags, code := q.code } y with inserting := some q.num }) s

/-- Waiting operations taken in arrival order until an insertion runs, with fuel for their number. -/
def runShard (index shard : Nat) : Nat → State → State
  | 0, s => s
  | k + 1, s =>
    match findShard s index shard with
    | none => s
    | some sh =>
      if sh.inserting.isSome then s
      else match nextOp s sh with
        | none => s
        | some q =>
          if sh.damaged then runShard index shard k (finishQuery q .tierFault 0 s)
          else if q.op = 0x0C then runShard index shard k (takeForget q sh s)
          else runShard index shard k (takeMemorize q sh s)

/-- A shard's operations run on. -/
def stepShard (index shard : Nat) (s : State) : State := runShard index shard (s.rcl.queries.length + 1) s

/-! ### Starting an operation (R316, R321, R322, R323, R326, R328) -/

/-- A sharded operation sent to the shard's package, or taken here (R328). -/
def fanTo (q : Query) (n : Nat) (place : Nat × Nat) (s : State) : State :=
  if place.2 = s.rack.num then s
  else sendMgr place.2 18 0 [q.op, q.index, place.1, q.k, q.require, q.exclude, q.key, q.tags, n] [] q.code s

/-- An operation begun: TIER_FAULT at a damaged index or with no manager; waiting for its shards otherwise. -/
def startQuery (q : Query) (s : State) : State :=
  let places := shardPlaces s q.index
  let n := s.rcl.nextQ
  let mine := if q.op = 0x0A then places else places.filter fun p => p.1 == q.key % max 1 (shardCount s q.index)
  let s1 := addQuery { q with left := mine.map Prod.fst } s
  let broken := (localShards s q.index).any fun h => h.damaged && (mine.map Prod.fst).contains h.item.shardNumber
  let away := mine.any fun p => p.2 != s.rack.num && packageFailed s p.2
  match findQuery s1 n with
  | none => s1
  | some r =>
    if broken || away then finishQuery r .tierFault 0 s1
    else
      let s2 := forEach mine (fanTo r n) s1
      if q.op = 0x0A then s2 else forEach (mine.map Prod.fst) (fun k t => stepShard q.index k t) s2

/-- What check 6 makes of an index named by a tenant (R316, R322, R328): unknown here, sharded and so the manager's alone, or known. -/
def indexOk (s : State) (tenant index width : Nat) : Bool :=
  let here := localShards s index
  let owned := here.all fun h => h.item.tenant == tenant && h.item.width == width
  let known := !here.isEmpty || (isManager s && !(shardPlaces s index).isEmpty)
  known && owned && (decide (shardCount s index ≤ 1) || isManager s || !inDomain s)

/-- RECALL after check 5 (Table 3-8, R316, R321). -/
def doRecall (m : Sprue) (buf : HostBuf) (s : State) : State :=
  let index := msgAt m 16 4
  let k := msgAt m 20 2
  let width := msgAt m 22 1
  if k = 0 ∨ 256 < k ∨ 2 < width ∨ indexOk s (msgTenant m) index width = false then refuse m 3 s
  else match buf with
    | none => refuse m 8 s
    | some bytes =>
      if recallFull s (indexHub s index) then answerMsg m .storeFull 0 0 s
      else startQuery { num := 0, asker := .message (msgAsk m) (msgTenant m) 0 (msgAt m 32 8), op := 0x0A, index := index, hub := indexHub s index
                        k := k, require := msgAt m 40 8, exclude := msgAt m 48 8, code := bytes.take (codeBytes width) } s

/-- RECALL. -/
def execRecall (m : Sprue) (query : HostBuf) (s : State) : Host.Outcome State Fault Refusal :=
  .next (takeMessage (.recallQuery m query) m (doRecall m query) s)

/-- MEMORIZE after check 5. -/
def doMemorize (m : Sprue) (buf : HostBuf) (s : State) : State :=
  let index := msgAt m 16 4
  let width := msgAt m 20 1
  if 2 < width ∨ indexOk s (msgTenant m) index width = false then refuse m 3 s
  else match buf with
    | none => refuse m 8 s
    | some bytes =>
      if recallFull s (indexHub s index) then answerMsg m .storeFull 0 0 s
      else startQuery { num := 0, asker := .message (msgAsk m) (msgTenant m) 0 0, op := 0x0B, index := index, hub := indexHub s index
                        key := msgAt m 32 8, tags := msgAt m 40 8, code := bytes.take (codeBytes width) } s

/-- MEMORIZE. -/
def execMemorize (m : Sprue) (code : HostBuf) (s : State) : Host.Outcome State Fault Refusal :=
  .next (takeMessage (.memorize m code) m (doMemorize m code) s)

/-- FORGET after check 5. -/
def doForget (m : Sprue) (s : State) : State :=
  let index := msgAt m 16 4
  let width := ((localShards s index).head?.map fun h => h.item.width).getD 0
  if indexOk s (msgTenant m) index width = false then refuse m 3 s
  else if recallFull s (indexHub s index) then answerMsg m .storeFull 0 0 s
  else startQuery { num := 0, asker := .message (msgAsk m) (msgTenant m) 0 0, op := 0x0C, index := index, hub := indexHub s index, key := msgAt m 24 8 } s

/-- FORGET. -/
def execForget (m : Sprue) (s : State) : Host.Outcome State Fault Refusal := .next (takeMessage (.forget m) m (doForget m) s)

/-- An on-device recall call begun at a tool-close token: searched here, or sent to the manager where the index is sharded and this package is a
worker (R147, R328). -/
def startOnDevice (h call : Nat) (t : RecallTool) (code : List Byte) (s : State) : State :=
  let q : Query := { num := 0, asker := .onDevice h call, op := 0x0A, index := t.index, hub := indexHub s t.index, k := t.k, require := t.require
                     exclude := t.exclude, code := code.take (codeBytes t.width) }
  if inDomain s && !isManager s && decide (1 < shardCount s t.index) then
    let n := s.rcl.nextQ
    let s1 := addQuery { q with left := [0xFFFF] } s
    if s.rack.managerLost then
      match findQuery s1 n with | some r => finishQuery { r with left := [] } .tierFault 0 s1 | none => s1
    else sendMgr s.rack.above 18 0 [0x0A, t.index, 0xFFFF, t.k, t.require, t.exclude, 0, 0, n] [] q.code s1
  else startQuery q s

/-! ### The engine's events -/

/-- What a query's searches on this package found; a node no longer live at the state read is dropped (R318). -/
def localFound (s : State) (q : Query) : List (Nat × Nat × Nat × Nat) :=
  ((localShardsOf s q).map fun (h : Shard) =>
    (searchShard h q.code q.k (max h.item.breadth q.k) q.require q.exclude).map fun p => (p.1, p.2.key, p.2.tags, h.item.shardNumber)).flatten
where
  /-- The shards of this package that the query waits for, those under deletion included (R311). -/
  localShardsOf (s : State) (q : Query) : List Shard :=
    s.rcl.shards.filter fun h => h.item.index == q.index && q.left.contains h.item.shardNumber

/-- The shards of this package that a query waits for are done. -/
def localDone (s : State) (q : Query) : Query :=
  { q with left := q.left.filter fun n => (findShard s q.index n).isNone }

/-- RECALL_QUERY_COMPLETE (R318, R319, R328). -/
def execRecallQueryComplete (query : Nat) (s : State) : Host.Outcome State Fault Refusal :=
  match findQuery s query with
  | none => .next s
  | some q =>
    if q.op ≠ 0x0A ∨ q.queued ∨ q.failed ∨ q.late then .next s
    else
      let q1 := { localDone s q with found := q.found ++ localFound s q }
      .next (concludeQuery query (onQuery query (fun _ => q1) s))

/-- A query's read late or failed: no results, and TIER_LATE or TIER_FAULT once every shard has answered; an on-device call's request ends at
the next boundary (R147, R325, R328). -/
def readEnded (query : Nat) (late : Bool) (s : State) : State :=
  match findQuery s query with
  | none => s
  | some q =>
    if q.op ≠ 0x0A then s
    else
      let q1 := localDone s q
      concludeQuery query (onQuery query (fun _ => if late then { q1 with late := true } else { q1 with failed := true }) s)

/-- RECALL_READ_LATE. -/
def execRecallReadLate (query : Nat) (s : State) : Host.Outcome State Fault Refusal := .next (readEnded query true s)
/-- RECALL_READ_FAILED. -/
def execRecallReadFailed (query : Nat) (s : State) : Host.Outcome State Fault Refusal := .next (readEnded query false s)

/-- MEMORIZE_LIVE (R322, step 5): the insertion answered DONE, and the shard's next operation taken. -/
def execMemorizeLive (index key : Nat) (s : State) : Host.Outcome State Fault Refusal :=
  match s.rcl.shards.find? (fun h => h.item.index == index && h.inserting.isSome && (keyNode h key).isSome) with
  | none => .next s
  | some sh =>
    match sh.inserting.bind (findQuery s), keyNode sh key with
    | some q, some x =>
      if x.state = .linking ∧ q.key = key then
        let s1 := onShard index sh.item.shardNumber (fun y =>
          { releaseSlabs s.rcl.queries (insertNode s.rcl.nextQ x.num y) with inserting := none }) s
        .next (stepShard index sh.item.shardNumber (finishQuery q .done 0 (seatSlabs s1)))
      else .next s
    | _, _ => .next s

/-- REPAIR_PASS_END (R324). -/
def execRepairPassEnd (index shard : Nat) (s : State) : Host.Outcome State Fault Refusal :=
  .next (seatSlabs (onShard index shard (endRepair s.rcl.nextQ s.rcl.queries) s))

/-- INDEX_DELETE_EFFECT (R311): once no query of the shard is in flight. -/
def execIndexDeleteEffect (index shard : Nat) (s : State) : Host.Outcome State Fault Refusal :=
  match findShard s index shard with
  | none => .next s
  | some sh =>
    if sh.deleting && !(s.rcl.queries.any fun q => q.index == index && q.left.contains shard) then
      .next { s with rcl := { s.rcl with shards := s.rcl.shards.filter fun h => !(h.item.index == index && h.item.shardNumber == shard) } }
    else .next s

/-! ### What the rack asks (R328) -/

/-- RECALL_FAN_OUT's effect: a manager's request of a shard here, or a worker's on-device call for the whole index. -/
def takeFanOut (peer op index shard k require exclude key tags : Nat) (code : List Byte) (query : Nat) (s : State) : State :=
  let q : Query := { num := 0, asker := .peer peer query, op := op, index := index, hub := indexHub s index, k := k, require := require
                     exclude := exclude, key := key, tags := tags, code := code, shard := shard }
  if shard = 0xFFFF then startQuery q s
  else match findShard s index shard with
    | none => sendMgr peer 19 0 [query, shard, ocode .malformed] [] [] s
    | some sh =>
      if sh.damaged then sendMgr peer 19 0 [query, shard, ocode .tierFault] [] [] s
      else
        let s1 := addQuery { q with left := [shard] } s
        if op = 0x0A then s1 else stepShard index shard s1

/-- A recall answer's results merged; the last shard's answer ends the query (R328). -/
def takeRecallAnswer (query shard outcome : Nat) (rs : List (Nat × Nat × Nat)) (s : State) : State :=
  match findQuery s query with
  | none => s
  | some q =>
    if q.left.contains shard = false then s
    else
      let q1 := { q with left := q.left.filter (· != shard), found := q.found ++ rs.map fun r => (r.2.2, r.1, r.2.1, shard) }
      if q.op ≠ 0x0A then
        let o := if outcome = ocode .done then OCode.done else if outcome = ocode .malformed then .malformed else if outcome = ocode .storeFull then .storeFull else .tierFault
        finishQuery q1 o 3 s
      else
        let q2 := if outcome = ocode .done ∨ outcome = ocode .partialRes then q1 else if outcome = ocode .tierLate then { q1 with late := true } else { q1 with failed := true }
        concludeQuery query (onQuery query (fun _ => q2) s)

/-- An on-device call whose read failed or was late ends its request at a boundary (R147). -/
def endFailedCalls (b : Bool) (s : State) : State :=
  let hit := s.rcl.queries.filter fun q => (match q.asker with | .onDevice _ _ => true | _ => false) && q.left.isEmpty && (q.failed || q.late)
  forEach hit (fun q t =>
    match q.asker with
    | .onDevice h _ => endRequest b h (if q.failed then .tierFault else .tierLate) none true 0 0 t
    | _ => t) s

end Sys2Proof.Machine
end

