-- ==== Sys2Proof/Machine/Ledger.lean ====
section
/-! DEFINITION. The energy ledger: rails and thermal caps, the calibration tables, the plan of a pour's voltages and allotment, and what
the power core does outside plans (R361 to R378). -/

namespace Sys2Proof.Machine

/-! ### Rails (R361 to R365, R375) -/

/-- The target voltage in millivolts (Table 12-3). -/
def targetMv (s : State) : Nat := (board s).targetMv

/-- A die's junction temperature in whole degrees, as last read (R375). -/
def tempOf (s : State) (die : Nat) : Nat := s.ledger.temps.getD die 0

/-- A die's thermal cap in millivolts: none below 95 degrees; the target less 20 mV for each whole degree above, not below 550 (R375). -/
def thermalCap (target temp : Nat) : Option Nat := if temp < 95 then none else some (max 550 (target - 20 * (temp - 95)))

/-- A voltage held to a cap. -/
def capped (cap : Option Nat) (mv : Nat) : Nat := match cap with | some c => min c mv | none => mv

/-- A rail of a die: rail n is die n's core rail. -/
def railOf (s : State) (n : Nat) : RailV := s.ledger.rails.getD n {}

/-- A Voltage write to a die's core rail (R363, R364): only rails of fitted dies exist. -/
def writeRail (n mv : Nat) (s : State) : State :=
  if (diesFitted s.part).contains n then
    { s with ledger := { s.ledger with rails := s.ledger.rails.modify n fun _ => { mv := mv } }
             outs := { s.outs with volts := s.outs.volts ++ [(n, mv)] } }
  else s

/-- Every SC die fitted and whole. -/
def liveScs (s : State) : List Nat := (s.dies.filter fun d => decide (d.num < scCount s.part) && !d.failed).map ScDie.num

/-! ### Calibration (R365, R368) -/

/-- The eight steps, in millivolts (R368). -/
def steps : List Nat := [550, 600, 650, 700, 750, 800, 850, 900]

/-- A die's calibration entry at a step: rate factor in parts per million, dynamic energy in microjoules per OP-N microsecond, leakage in
milliwatts: as moved by measurements, otherwise the factory's (R368). -/
def calibOf (s : State) (die step : Nat) : Nat × Nat × Nat :=
  match s.ledger.calib.find? (fun (c : Nat × Nat × Nat × Nat × Nat) => c.1 == die && c.2.1 == step) with
  | some c => c.2.2
  | none => Config.fuseCalibration die step

/-- The step at or below a voltage, and the step at or above it. -/
def stepBelow (mv : Nat) : Nat := (steps.filter fun v => decide (v ≤ mv)).getLastD 550
def stepAbove (mv : Nat) : Nat := (steps.filter fun v => decide (mv ≤ v)).headD 900

/-- A die's entry for planning a step: a rail whose write failed is taken at the lower of its voltages for rate and at the higher for energy
(R365). -/
def planEntry (s : State) (die step : Nat) : Nat × Nat × Nat :=
  match (railOf s die).asked with
  | none => calibOf s die step
  | some a =>
    let lo := stepBelow (min a (railOf s die).mv)
    let hi := stepAbove (max a (railOf s die).mv)
    ((calibOf s die lo).1, (calibOf s die hi).2)

/-- The slowest SC die at a step (R368). -/
def slowestDie (s : State) (step : Nat) : Nat :=
  (liveScs s).foldl (fun best d => if (planEntry s d step).1 < (planEntry s best step).1 then d else best) ((liveScs s).headD 0)

/-- What the plan takes of a step: the slowest die's entry (log entry 60). -/
def stepEntry (s : State) (step : Nat) : Nat × Nat × Nat := planEntry s (slowestDie s step) step

/-- A die's rate factor at a voltage, in a straight line between steps (log entry 61). -/
def rateAt (s : State) (die mv : Nat) : Nat :=
  let a := stepBelow mv
  let b := stepAbove mv
  let fa := (calibOf s die a).1
  let fb := (calibOf s die b).1
  if a = b then fa else if fa ≤ fb then fa + (fb - fa) * (mv - a) / (b - a) else fa - (fa - fb) * (mv - a) / (b - a)

/-- Voltages from 0.55 to 0.90 V in 10 mV units (Table 12-1). -/
def railSteps : List Nat := (List.range 36).map fun i => 550 + 10 * i

/-- The lowest voltage at which a die keeps up with a rate, or the highest (R368). -/
def matchRate (s : State) (die rate : Nat) : Nat := (railSteps.find? fun mv => decide (rate ≤ rateAt s die mv)).getD 900

/-- An entry moved one eighth of the way towards a measured value (R368). -/
def eighth (old new : Nat) : Nat := if old ≤ new then old + (new - old) / 8 else old - (old - new) / 8

/-- The entry of the step that a die used, moved towards what was measured (R368). -/
def calibrate (die : Nat) (m : Nat × Nat × Nat) (s : State) : State :=
  let st := stepBelow (railOf s die).mv
  let e := calibOf s die st
  let c := (die, st, eighth e.1 m.1, eighth e.2.1 m.2.1, eighth e.2.2 m.2.2)
  let rest := s.ledger.calib.filter fun (k : Nat × Nat × Nat × Nat × Nat) => !(k.1 == die && k.2.1 == st)
  { s with ledger := { s.ledger with calib := rest ++ [c] } }

/-! ### The plan (R366, R367, R369) -/

/-- The envelope energy in nanojoules over the averaging window: board power times T_w (Table 12-3). -/
def envelopeNj (s : State) : Nat := (board s).envelope * (board s).windowUs * 1000

/-- Energy in the last `span` microseconds of the meter, in nanojoules: the shortest reading that covers it; a free value where the meter
gives none (R367). -/
def measuredNj (obs : PlanObs) (span : Nat) : Nat :=
  match (sortBy Prod.fst obs.window).find? (fun (w : Nat × Nat) => decide (span ≤ w.1)) with
  | some w => w.2 * 1000000
  | none => Config.idleEnergy span

/-- Energy available to a pour of length d (R367), in nanojoules. -/
def availableNj (s : State) (obs : PlanObs) (d : Nat) : Nat :=
  if (board s).windowUs ≤ d then envelopeNj s * d / (board s).windowUs
  else envelopeNj s - measuredNj obs ((board s).windowUs - d)

/-- A plan: voltage and allotment in OP-N nanoseconds. -/
structure VPlan where
  mv    : Nat
  allot : Nat
  deriving DecidableEq, Repr

/-- Energy of generation `g` OP-N nanoseconds at an entry over `d` microseconds, in nanojoules. -/
def planEnergy (e : Nat × Nat × Nat) (fixedMw g d : Nat) : Nat := g * e.2.1 + (e.2.2 + fixedMw) * d

/-- Whether generation fits a length at an entry: t ≤ d. -/
def planTime (e : Nat × Nat × Nat) (g d : Nat) : Bool := decide (g * 1000000 ≤ d * 1000 * e.1)

/-- The prefill that a step leaves room for (R369). -/
def planRoom (e : Nat × Nat × Nat) (fixedMw g d avail : Nat) : Nat :=
  let byTime := d * e.1 / 1000 - g
  if e.2.1 = 0 then byTime else min byTime ((avail - planEnergy e fixedMw g d) / e.2.1)

/-- The first loop of R369: the steps up to the normal voltage. -/
def planNormal (s : State) (obs : PlanObs) (prefill : Bool) (g d : Nat) : List Nat → Option VPlan → Option VPlan
  | [], best => best
  | v :: vs, best =>
    let e := stepEntry s v
    if planTime e g d && decide (planEnergy e obs.fixedMw g d ≤ availableNj s obs d) then
      if prefill = false then some { mv := v, allot := 0 }
      else
        let a := planRoom e obs.fixedMw g d (availableNj s obs d)
        let better := match best with | none => true | some b => decide (b.allot < a)
        planNormal s obs prefill g d vs (if better then some { mv := v, allot := a } else best)
    else planNormal s obs prefill g d vs best

/-- The length a pour takes at an entry when it runs past d. -/
def longLength (e : Nat × Nat × Nat) (g d : Nat) : Nat := if e.1 = 0 then d else max d (ceilDiv (g * 1000) e.1)

/-- Bytes a nanosecond of T2, the sum of the UP pool ports' 128 GB/s at sixteen wavelengths, and of HBM, 1,024 bits at 9.6 Gb/s a stack in service (R29,
R210, Table 1-6); in tenths. -/
def t2Rate (s : State) : Nat := ((s.links.ports.filter fun p => p.state == .up && p.role == 1).map fun p => 80 * p.width).sum
def hbmRate (s : State) : Nat := 12288 * ((s.dies.filter fun d => decide (d.num < scCount s.part) && !d.failed).map fun d => d.stacksIn.countP id).sum

/-- The largest non-core time of R210 in microseconds, for the positions that the pour works as it is planned (log entry 197). -/
def floorOf (s : State) (obs : PlanObs) (model n : Nat) : Nat :=
  let touched := ((findModel s model).bind fun m => m.program.map fun p => touchedBytes p m.window n).getD 0
  let t2 := if touched + obs.fetchBytes = 0 then 0 else ceilDiv ((touched + obs.fetchBytes) * 10) (1000 * max 1 (t2Rate s))
  max t2 (ceilDiv ((2 * touched + obs.t1Bytes) * 10) (1000 * max 1 (hbmRate s)))

/-- The plan of R369: `prefill` says whether any is queued, `g` is the generation work in OP-N nanoseconds, `budget` the pour budget, `floor` the largest non-core time. -/
def ledgerPlan (s : State) (obs : PlanObs) (prefill : Bool) (g budget floor : Nat) : VPlan :=
  let cap := ((liveScs s).filterMap fun d => thermalCap (targetMv s) (tempOf s d)).foldl min 900
  let normal := min (targetMv s) cap
  let d := max budget floor
  match planNormal s obs prefill g d (steps.filter fun v => decide (v ≤ normal)) none with
  | some p => p
  | none =>
    let fits := fun (v : Nat) =>
      let e := stepEntry s v
      planTime e g d && decide (planEnergy e obs.fixedMw g d ≤ availableNj s obs d)
    match (steps.filter fun v => decide (normal < v) && decide (v ≤ cap)).find? fits with
    | some v => { mv := v, allot := 0 }
    | none =>
      let slow := fun (v : Nat) =>
        let e := stepEntry s v
        let d2 := longLength e g d
        decide (planEnergy e obs.fixedMw g d2 ≤ availableNj s obs d2)
      { mv := ((steps.filter fun v => decide (v ≤ cap)).reverse.find? slow).getD 550, allot := 0 }

/-- The rails set as a plan gives: the slowest SC die at the planned step, the others where they keep up with it, PX and hub dies at the
target, each under its own cap (R364, R368, R375). -/
def setPlanned (mv : Nat) (s : State) : State :=
  let slow := slowestDie s mv
  let rate := (calibOf s slow mv).1
  let cap := fun (d : Nat) => thermalCap (targetMv s) (tempOf s d)
  let volts := (diesFitted s.part).map fun d =>
    (d, capped (cap d) (if d = slow then mv else if d < 4 then matchRate s d rate else targetMv s))
  forEach volts (fun p t => writeRail p.1 p.2 t) s

/-! ### Heat (R375, R376) -/

/-- Temperatures read: an open or shorted diode counts as 105 degrees; caps below a rail's voltage applied at once; at 105 degrees every
core rail goes to 0.55 V and planning halts until every die reads below 100 (R375, R376). -/
def readTemps (temps : List (Option Nat)) (s : State) : State :=
  let ts := (List.range 8).map fun i => (temps.getD i (some 0)).getD 105
  let s1 : State := { s with ledger := { s.ledger with temps := ts } }
  let fitted := diesFitted s.part
  let hot := fitted.any fun d => decide (105 ≤ tempOf s1 d)
  let cool := fitted.all fun d => decide (tempOf s1 d < 100)
  let lower := fun (d : Nat) (t : State) =>
    match thermalCap (targetMv t) (tempOf t d) with
    | some c => if c < (railOf t d).mv then writeRail d c t else t
    | none => t
  let s2 := forEach fitted lower s1
  if hot then
    let s3 := forEach fitted (fun d t => writeRail d 550 t) s2
    if s3.ledger.halted then s3 else healthSignal (leadDie s3) 376 { s3 with ledger := { s3.ledger with halted := true } }
  else if cool then { s2 with ledger := { s2.ledger with halted := false } }
  else s2

/-- THERMAL_READ (R375, R376). -/
def execThermalRead (temps : List (Option Nat)) (s : State) : Host.Outcome State Fault Refusal := .next (readTemps temps s)

/-! ### Outside plans -/

/-- ENVELOPE_OVERRUN (R370): while a pour runs every SC rail steps down by 50 mV, not below 0.55 V, and the correction is counted. -/
def execEnvelopeOverrun (s : State) : Host.Outcome State Fault Refusal :=
  if s.sched.pour.isSome then
    let s1 := forEach (liveScs s) (fun d t => writeRail d (max 550 ((railOf t d).mv - 50)) t) s
    .next { s1 with ledger := { s1.ledger with overruns := s1.ledger.overruns + 1 } }
  else .next s

/-- AVSBUS_WRITE_UNACKED (R365): four attempts failed; the rail is taken between its old and requested voltages, with a health event and
vector 2. -/
def execAvsbusWriteUnacked (rail requestedMv : Nat) (s : State) : Host.Outcome State Fault Refusal :=
  .next (healthSignal (leadDie s) (rail * 65536 + requestedMv)
    { s with ledger := { s.ledger with rails := s.ledger.rails.modify rail fun r => { r with asked := some requestedMv } } })

/-- CHILL_MODULE_LOST (R371, R374): the write rate falls and R372 applies at once against the new bound. -/
def execChillModuleLost (hub : Nat) (s : State) : Host.Outcome State Fault Refusal :=
  .next (holdBound 0 { s with dev := { s.dev with chill := s.dev.chill.modify hub fun _ => false } })

/-- CLUSTER_IDLE_POWER_OFF (R378, Table 12-4): the cluster engines and SRAM switch off; the next planning switches them on. -/
def execClusterIdlePowerOff (s : State) : Host.Outcome State Fault Refusal :=
  if s.sched.pour.isNone then .next { s with sched := { s.sched with clustersOn := false } } else .next s

/-- The power domains that Table 12-4 switches. -/
inductive PowerDomain where
  | clusterEngines (die position : Nat) | clusterControl (die position : Nat) | hbmPhy (die stack : Nat) | runnerPort (runner : Nat) | pxPort (port : Nat)
  | mouldEngine (hub : Nat) | recallEngine (hub : Nat) | storeController (hub : Nat) | chillPort (hub : Nat) | dieCommon (die : Nat)
  deriving DecidableEq, Repr

/-- Whether a cluster position of a die works as a logical cluster or is under rotation (R378). -/
def positionIn (s : State) (die pos : Nat) : Bool :=
  s.dies.any fun d => d.num == die && !d.failed && (d.logical.contains (some pos) || d.testing == some pos)

/-- Whether a power domain is off (R378, Table 12-4). -/
def domainOff (s : State) (d : PowerDomain) : Bool :=
  match d with
  | .clusterEngines die pos => !positionIn s die pos || !s.sched.clustersOn
  | .clusterControl die pos => !positionIn s die pos
  | .hbmPhy die stack => !(s.dies.any fun x => x.num == die && x.stacksIn.getD stack false)
  | .runnerPort r => s.links.lostRunners.contains r
  | .pxPort n => (findPort s n).all fun p => p.role == 0 || p.state == .off || p.state == .dark || (p.state == .down && p.reason == 1)
  | .mouldEngine _ => s.dev.moulds.isEmpty
  | .recallEngine h => !(s.rcl.shards.any fun x => x.item.hub == h)
  | .storeController h => !((List.range 32).any fun c => bitAt s.store.channels (32 * h + c))
  | .chillPort h => !(s.dev.chill.getD h false)
  | .dieCommon die => !(diesFitted s.part).contains die

/-- The AVSBus of a core rail: the hub whose bus carries it, and its rail select value there (Table 12-2). -/
def avsSelect (rail : Nat) : Nat × Nat :=
  if rail < 4 then (rail / 2, rail % 2) else if rail < 6 then (rail - 4, 2) else (rail - 6, 3)

/-- THERMTRIP (R377): THERMTRIP_N asserted until power is removed. -/
def execThermtrip (_die : Nat) (s : State) : Host.Outcome State Fault Refusal :=
  .next { s with pins := { s.pins with tripLow := true } }

/-- PLL_LOSS_OF_LOCK (R45): the meter goes on from the on-die oscillator; the health log records the die. -/
def execPllLossOfLock (die : Nat) (s : State) : Host.Outcome State Fault Refusal :=
  if (diesFitted s.part).contains die then
    .next (healthEvent die die { s with dev := { s.dev with meters := s.dev.meters.modify die fun m => { m with locked := false } } })
  else .next s

end Sys2Proof.Machine
end

