-- ==== Sys2Proof/Machine/Maps.lean ====
section
/-! DEFINITION. Composition epochs at the top manager: merging a composition item into the map, publishing, and retiring the older epoch
(R413, R414, R416, R423). -/

namespace Sys2Proof.Machine

/-- What names a map record (Table 14-3). -/
def recordKey (r : MapRecord) : List Nat :=
  match r with
  | .package n _ _ _ _ => [1, n]
  | .group n _ _ => [2, n]
  | .pool k p _ _ _ _ => [3, k, p]
  | .shard i n _ _ => [4, i, n]
  | .move h _ _ _ _ _ _ => [5, h]

/-- A map with records removed, changed and added (R413). -/
def mergeRecords (old add remove : List MapRecord) : List MapRecord :=
  let gone := (add ++ remove).map recordKey
  (old.filter fun r => !gone.contains (recordKey r)) ++ add

/-- The handle of a move record. -/
def moveHandle (r : MapRecord) : Option Nat := match r with | .move h _ _ _ _ _ _ => some h | _ => none

/-- The records that the composition items of a commit add and remove. -/
def composed (items : List Item) : List MapRecord × List MapRecord :=
  items.foldl (fun acc i => match i.body with | .composition a r => (acc.1 ++ a, acc.2 ++ r) | _ => acc) ([], [])

/-- Whether every package has retired an epoch (R416). -/
def allRetired (s : State) (e : Nat) : Bool :=
  decide (e ≤ s.rack.retired) && s.rack.members.all fun m => m.failed || m.num == s.rack.num || decide (e ≤ m.retired)

/-- Whether the top manager may publish: not while two epochs are live (R416). -/
def mayPublish (s : State) : Bool :=
  match s.rack.published, s.rack.epochs with
  | some _, [] => false
  | some _, _ => false
  | none, [] => true
  | none, [_] => true
  | none, e :: _ => allRetired s e.num

/-- A map sent to each member of this manager's level (R414). -/
def sendMap (e : Epoch) (s : State) : State :=
  forEach (s.rack.members.filter fun m => !m.failed && m.num != s.rack.num) (fun m t => sendMgr m.num 3 0 [e.num] e.records [] t) s

/-- The answer to a COMMIT: commit number and pour number (R498). -/
def commitAnswer (number pour : Nat) : List Byte := leBytes 8 number ++ leBytes 8 pour

/-- A composition published as the next epoch, and its COMMIT answered once it is published and every move it starts has committed or aborted
(R413, R414, R416, R423; log entry 74). -/
def publish (c : Commit) (s : State) : State :=
  let d := composed c.items
  let e : Epoch := { num := s.rack.nextEpoch, records := mergeRecords (mapRecords s) d.1 d.2 }
  let s1 := sendMap e { s with rack := { s.rack with published := some e, nextEpoch := s.rack.nextEpoch + 1 } }
  let moves := d.1.filterMap moveHandle
  match c.req with
  | none => s1
  | some q =>
    if moves.isEmpty then answerMb q .done (commitAnswer c.number c.pour) s1
    else { s1 with rack := { s1.rack with asking := s1.rack.asking ++ [(q, c.number, c.pour, moves)] } }

/-- A committed composition published, or kept while two epochs are live (R416). -/
def publishOrWait (c : Commit) (s : State) : State :=
  if mayPublish s && s.rack.waiting.isEmpty then publish c s else { s with rack := { s.rack with waiting := s.rack.waiting ++ [c] } }

/-- The composition that waits longest published, if it now may be. -/
def publishWaiting (s : State) : State :=
  match s.rack.waiting with
  | [] => s
  | c :: rest => if mayPublish s then publish c { s with rack := { s.rack with waiting := rest } } else s

/-- A move that committed or aborted: a composition whose last one it was is answered (R423). -/
def moveSettled (h : Nat) (s : State) : State :=
  let asking := s.rack.asking.map fun (a : Open × Nat × Nat × List Nat) => (a.1, a.2.1, a.2.2.1, a.2.2.2.filter (· != h))
  let done := asking.filter fun (a : Open × Nat × Nat × List Nat) => a.2.2.2.isEmpty
  forEach done (fun (a : Open × Nat × Nat × List Nat) t => answerMb a.1 .done (commitAnswer a.2.1 a.2.2.1) t)
    { s with rack := { s.rack with asking := asking.filter fun (a : Open × Nat × Nat × List Nat) => !a.2.2.2.isEmpty } }

/-- Requests this package issued under an epoch and not yet complete (R416). -/
def pendingUnder (s : State) (e : Nat) : Bool :=
  (s.rack.unacked.any fun m => decide (m.epoch ≤ e)) || s.links.reads.any fun r => decide (r.epoch ≤ e)

/-- Whom a package reports to: its manager, or a manager's top manager (R414). -/
def superior (s : State) : Nat := if s.rack.role = 1 then managerOf s s.rack.num else s.rack.above

/-- "Epoch retired" once nothing is outstanding under the older epoch: a manager reports when its members have too; the top manager then
publishes what waits (R416). -/
def tryRetire (s : State) : State :=
  match s.rack.epochs with
  | e :: _ :: _ =>
    if e.num ≤ s.rack.retired && (s.rack.role == 1) then s
    else if pendingUnder s e.num then s
    else
      let fresh := decide (s.rack.retired < e.num)
      let s1 : State := { s with rack := { s.rack with retired := max s.rack.retired e.num } }
      if s.rack.role = 3 then publishWaiting s1
      else if s.rack.role = 2 && superior s == s.rack.num then publishWaiting s1
      else if fresh && (s.rack.role == 1 || allRetired s1 e.num) then sendMgr (superior s1) 5 0 [e.num] [] [] s1 else s1
  | _ => s

end Sys2Proof.Machine
end

