-- ==== Sys2Proof/Machine/Fabric.lean ====
section
/-! DEFINITION. Kofatus ports and the fabric's reads (chapter 13): states of a port, training, sparing, path loss, flows, read requests
and responses, and notices (R381 to R407). -/

namespace Sys2Proof.Machine

/-! ### Flows and headers (R398, R400, R401) -/

/-- Fabric ports that are UP. -/
def upFabric (s : State) : List Nat := (s.links.ports.filter fun p => p.state == .up && p.role == 2).map Port.num

/-- The port of a flow, assigned at its first header by a hash over the UP fabric ports, and kept until that port leaves UP (R400). Absent
where none is UP. -/
def flowPort (engine dest cls : Nat) (s : State) : Option Nat × State :=
  let ups := upFabric s
  match s.links.flows.find? (fun (f : Nat × Nat × Nat × Nat) => f.1 == engine && f.2.1 == dest && f.2.2.1 == cls) with
  | some f => (some f.2.2.2, s)
  | none =>
    match ups[Config.flowHash engine dest cls ups.length % max 1 ups.length]? with
    | none => (none, s)
    | some p => (some p, { s with links := { s.links with flows := s.links.flows ++ [(engine, dest, cls, p)] } })

/-- A header given to its flow's port, which sends it as its gates and credits allow (R358). With no port UP nothing can leave (log entry 63). -/
def sendHdr (engine : Nat) (h : FabricHdr) (lines : List Line) (s : State) : State :=
  let r := flowPort engine h.dest h.cls s
  match r.1.bind (findPort r.2) with
  | none => r.2
  | some p =>
    let o := offerUnit { port := p.num, hdr := h, lines := lines } p
    onPort p.num (fun _ => o.1) { r.2 with links := { r.2.links with out := r.2.links.out ++ o.2 } }

/-- A header of this package to a window, under its newest epoch (Table 13-7). -/
def newHdr (s : State) (kind cls count dest window offset tag reason : Nat) : FabricHdr :=
  { kind := kind, cls := cls, count := count, dest := dest, source := s.rack.num, window := window, offset := offset, tag := tag
    epoch := newestEpoch s % 65536, reason := reason }

/-- A write of lines into a peer's window. -/
def fabricWrite (cls dest window offset : Nat) (lines : List Line) (s : State) : State :=
  sendHdr 0 (newHdr s 1 cls lines.length dest window offset 0 0) lines s

/-- A read request under a fresh tag (R401). What moves in the manual's own sequences goes by writes, and no row of the table issues a read (log
entry 227). -/
def fabricRead (issuer : Issuer) (cls dest window offset count : Nat) (s : State) : State :=
  let tag := s.links.nextTag
  let s1 := sendHdr 0 (newHdr s 2 cls count dest window offset tag 0) [] s
  let port := (flowPort 0 dest cls s).1.getD 255
  { s1 with links := { s1.links with nextTag := (tag + 1) % 65536
                                     reads := s1.links.reads ++ [{ tag := tag, cls := cls, dest := dest, window := window, offset := offset, count := count
                                                                   port := port, issuer := issuer, epoch := newestEpoch s }] } }

/-! ### Poisoned reads (R405, R406) -/

/-- A report to the fabric manager: source, destination, window, reason (R403, R405). -/
def reportFabric (dest window reason : Nat) (s : State) : State :=
  if inDomain s && topManager s != s.rack.num then sendMgr (topManager s) 16 0 [s.rack.num, dest, window, reason] [] [] s else s

/-- A read that ends poisoned: its tag retired, counted at its port, reported, and what issued it ended (R328, R405, R406). -/
def poison (r : FRead) (reason : Nat) (s : State) : State :=
  let s1 : State := { s with links := { s.links with reads := s.links.reads.filter fun k => k.tag != r.tag } }
  let s2 := onPort r.port (fun p => { p with poisoned := p.poisoned + 1 }) s1
  match r.issuer with
  | .group g => reportBroken g reason s2
  | .migration h => abortMigration h .poisoned (reportFabric r.dest r.window reason s2)
  | .manager => reportFabric r.dest r.window reason s2
  | .fanOut q => concludeQuery q (onQuery q (fun x => { x with failed := true, left := [] }) (reportFabric r.dest r.window reason s2))

/-- FABRIC_READ_RESPONSE (R400, R405, R407): matched by tag; a retired tag's response is discarded; kind 4 poisons the read. -/
def execFabricReadResponse (_port : Nat) (h : FabricHdr) (s : State) : Host.Outcome State Fault Refusal :=
  match s.links.reads.find? (fun (r : FRead) => r.tag == h.tag) with
  | none => .next s
  | some r =>
    if h.kind = 4 then .next (tryRetire (drainAll (poison r h.reason s)))
    else .next (tryRetire { s with links := { s.links with reads := s.links.reads.filter fun k => k.tag != r.tag } })

/-- The reason the model reports for a read with no response (log entry 50). -/
def timeoutReason : Nat := 6

/-- FABRIC_READ_TIMEOUT (R405). -/
def execFabricReadTimeout (tag : Nat) (s : State) : Host.Outcome State Fault Refusal :=
  match s.links.reads.find? (fun (r : FRead) => r.tag == tag) with
  | none => .next s
  | some r => .next (tryRetire (drainAll (poison r timeoutReason s)))

/-- FABRIC_NOTICE (R404, R405): reason 1 poisons every read to the package named; reason 0 says a path has returned. -/
def execFabricNotice (h : FabricHdr) (s : State) : Host.Outcome State Fault Refusal :=
  let others := s.links.unreachable.filter (· != h.dest)
  if h.reason = 1 then
    let s1 : State := { s with links := { s.links with unreachable := others ++ [h.dest] } }
    .next (drainAll (forEach (s1.links.reads.filter fun r => r.dest == h.dest) (fun r t => poison r 1 t) s1))
  else if h.reason = 0 then .next { s with links := { s.links with unreachable := others } }
  else .next s

/-! ### Windows (R399, R415, R416) -/

/-- A fabric header slot, as Table 13-7 lays it out. -/
def headerSlot (h : FabricHdr) : BitVec 128 :=
  BitVec.ofNat 4 h.kind ++ BitVec.ofNat 3 h.cls ++ BitVec.ofNat 6 (h.count - 1) ++ BitVec.ofNat 12 h.dest ++ BitVec.ofNat 12 h.source ++
    BitVec.ofNat 8 h.window ++ BitVec.ofNat 32 h.offset ++ BitVec.ofNat 16 h.tag ++ BitVec.ofNat 16 h.epoch ++ BitVec.ofNat 3 h.reason ++ (0 : BitVec 16)

/-- A line's four data slots, the lowest bytes first. -/
def dataSlots (l : Line) : List (BitVec 128) := (List.range 4).map fun k => l.extractLsb' (128 * k) 128

/-- The slots of a unit as it stands in its port's flits: a header, then four data slots a line for a write or a good response (R398). -/
def unitSlots (o : FOut) : List (BitVec 128) := headerSlot o.hdr :: if o.hdr.kind = 1 ∨ o.hdr.kind = 3 then o.lines.flatMap dataSlots else []

/-- A window by number. -/
def findWin (s : State) (n : Nat) : Option Win := s.links.windows.find? fun w => w.num == n && w.kind != 0

/-- Whether a package may use a window: a member of its group, or any package of the domain; a window set up for one peer, that peer. -/
def winMember (s : State) (w : Win) (source : Nat) : Bool :=
  match w.peer with
  | some p => p == source
  | none => w.group == 0xFFFF || (match findGroup s w.group with | some g => (g.parts.map Participant.package).contains source | none => false)

/-- The check of R399 on a header. -/
def winAllows (s : State) (h : FabricHdr) (write : Bool) : Option Win :=
  match findWin s h.window with
  | none => none
  | some w =>
    if decide (h.offset + h.count ≤ w.length) && winMember s w h.source && (if write then w.writes else w.reads) then some w else none

/-- The standing of a header's epoch (Table 14-4). -/
inductive EpochSays where
  | live | future | other
  deriving DecidableEq, Repr

/-- Epoch bits of a header against the live and the published epochs; a package in no domain has none. -/
def epochSays (s : State) (e : Nat) : EpochSays :=
  if s.rack.epochs.isEmpty || s.rack.epochs.any (fun x => x.num % 65536 == e) then .live
  else match s.rack.published with
    | some x => if x.num % 65536 = e then .future else .other
    | none => .other

/-- The lines of a window's memory. -/
def winLines (s : State) (w : Win) (offset count : Nat) : List Line :=
  (List.range count).map fun i =>
    match w.data.find? (fun (d : Nat × Line) => d.1 == offset + i) with
    | some d => d.2
    | none => Config.windowLine w.num (offset + i) s.free

/-- A read request answered: data, or poisoned with reason 3 or 5 (R399, Table 14-4). -/
def answerRead (h : FabricHdr) (s : State) : State :=
  let reply := fun (kind reason : Nat) (lines : List Line) (t : State) =>
    sendHdr 0 (newHdr t kind h.cls h.count h.source h.window h.offset h.tag reason) lines t
  match epochSays s h.epoch with
  | .other => reply 4 5 [] s
  | _ =>
    match winAllows s h false with
    | none => reply 4 3 [] s
    | some w => reply 3 0 (winLines s w h.offset h.count) (drawFree s)

/-- FABRIC_READ_REQUEST (R399, R415): one under an epoch published and not yet applied is held. -/
def execFabricReadRequest (port : Nat) (h : FabricHdr) (s : State) : Host.Outcome State Fault Refusal :=
  match epochSays s h.epoch with
  | .future => .next { s with links := { s.links with held := s.links.held ++ [.fabricReadRequest port h] } }
  | _ => .next (answerRead h s)

/-! ### Port states (R391, R392, Table 13-4) -/

/-- States whose entering and leaving fire vector 2 (R392). -/
def troubled (p : PortState) : Bool := p == .down || p == .dark || p == .miswired

/-- A port goes to a state; entering training counts a training; vector 2 fires as R392 gives. -/
def portGo (n : Nat) (st : PortState) (s : State) : State :=
  match findPort s n with
  | none => s
  | some p =>
    if p.state = st then s
    else
      let s1 := onPort n (fun x => { x with state := st, width := if st = .up then x.width else 0
                                            trainings := x.trainings + if st = .training then 1 else 0 }) s
      if troubled p.state || troubled st then fireState s1 else s1

/-- A port goes to a state with a reason (R391). -/
def portFail (n : Nat) (st : PortState) (reason : Nat) (s : State) : State := portGo n st (onPort n (fun p => { p with reason := reason }) s)

/-- Step 1 of training: lines at the laser input, or DARK with reason 4 (R387). -/
def retrain (n lines : Nat) (s : State) : State :=
  if 8 ≤ lines then
    portGo n .training (onPort n (fun p => { p with peer := none, lostIn := [], spareIn := none
                                                    state := if p.state = .training then .off else p.state }) s)
  else portFail n .dark 4 s

/-- Laser lines that are good at a port. -/
def goodLines (p : Port) : Nat := 17 - p.lostOut.length

/-! ### Path loss (R238, R403) -/

/-- The last `n` headers sent on a port. -/
def lastSent (port n : Nat) (s : State) : List FOut :=
  let mine := s.links.out.filter fun o => o.port == port
  mine.drop (mine.length - n)

/-- An unacknowledged write discarded: counted in the port report and reported (R403). -/
def dropWrite (port : Nat) (o : FOut) (s : State) : State :=
  reportFabric o.hdr.dest o.hdr.window 1 (onPort port (fun p => { p with discarded := p.discarded + 1 }) s)

/-- A read request issued again on its flow's new port under the same tag (R403). -/
def reissue (r : FRead) (s : State) : State :=
  let s1 := sendHdr 0 (newHdr s 2 r.cls r.count r.dest r.window r.offset r.tag 0) [] s
  let port := (flowPort 0 r.dest r.cls s).1.getD 255
  { s1 with links := { s1.links with reads := s1.links.reads.map fun k => if k.tag = r.tag then { k with port := port } else k } }

/-- Whether a pool has an UP path. -/
def poolPath (s : State) (q : Pool) : Bool := q.paths.any fun n => (findPort s n).any fun p => p.state == .up && p.role == 1

/-- Pools with no path left declared failed (R238, R403). -/
def losePools (n : Nat) (s : State) : State :=
  forEach ((s.tiers.pools.filter fun q => q.paths.contains n && !q.failed && !poolPath s q).map Pool.num) poolLost s

/-- A port's flits not acknowledged, once it has left UP (R403): `unacked` is how many of its last units were not. -/
def pathLoss (n unacked : Nat) (s : State) : State :=
  let lost := lastSent n unacked s
  let left := ((findPort s n).elim [] Port.queue)
  let s0 : State := onPort n (fun p => { p with queue := [], credits := [] }) { s with links := { s.links with flows := s.links.flows.filter fun f => f.2.2.2 != n } }
  let s1 : State := forEach left (fun u t => sendHdr 0 u.hdr u.lines t) s0
  let s2 := forEach (lost.filter fun o => o.hdr.kind == 1) (dropWrite n) s1
  let s3 := forEach (s2.links.reads.filter fun r => r.port == n) reissue s2
  losePools n s3

/-- An UP port leaves UP. -/
def leaveUp (n unacked : Nat) (go : State → State) (s : State) : State := drainAll (pathLoss n unacked (go s))

/-! ### The rows of the ports -/

/-- Whether a peer's identity is what a port expects (R390): fields of 0xFF or 0xFFFF accept any value. -/
def peerFits (s : State) (p : Port) (i : Identity) : Bool :=
  (p.want.peerKind == 0xFF || p.want.peerKind == i.kind) && (p.want.peerPort == 0xFF || p.want.peerPort == i.port) &&
    (p.want.peerUnit == 0xFFFF || p.want.peerUnit == i.unit) && i.domain == s.rack.domain && (i.role == p.role || i.role == 3)

/-- PORT_TRAINED (R387, R390, R391): step 5's check, then step 6. -/
def execPortTrained (port width : Nat) (swap : Bool) (peer : Identity) (linkUp : Bool) (s : State) : Host.Outcome State Fault Refusal :=
  match findPort s port with
  | none => .next s
  | some p =>
    if p.state ≠ .training then .next s
    else
      let s1 := onPort port (fun x => { x with swap := swap, peer := some peer }) s
      if peer.kind = 0 then .next (portFail port .miswired 6 s1)
      else if peerFits s p peer = false then .next (portFail port .miswired 3 s1)
      else if linkUp = false then .next (portFail port .down 5 s1)
      else
        let s2 := portGo port .up s1
        .next (onPort port (fun x => { x with width := if width = 8 then 8 else 16 }) s2)

/-- The reason of the step that training reached (Table 13-1, R391). -/
def stepReason (step : Nat) : Nat := if step ≤ 3 then 1 else if step = 4 then 2 else if step = 5 then 3 else 5

/-- PORT_TRAINING_TIMEOUT (R387). -/
def execPortTrainingTimeout (port step : Nat) (s : State) : Host.Outcome State Fault Refusal :=
  match findPort s port with
  | none => .next s
  | some p => if p.state = .training then .next (portFail port .down (stepReason step) s) else .next s

/-- Wavelengths of a direction that no longer work. -/
def lostOf (p : Port) (out : Bool) : List Nat :=
  if out then p.lostOut ++ p.spareOut.toList else p.lostIn ++ p.spareIn.toList

/-- A wavelength of a direction lost: onto the spare, or, the spare being used, beyond it. -/
def loseWave (out : Bool) (w : Nat) (p : Port) : Port :=
  if (lostOf p out).contains w then p
  else if out then (if p.spareOut.isNone then { p with spareOut := some w } else { p with lostOut := p.lostOut ++ [w] })
  else if p.spareIn.isNone then { p with spareIn := some w } else { p with lostIn := p.lostIn ++ [w] }

/-- A wavelength that fails (R384, R389, Table 13-4): named in the health log in training; otherwise spared; a second one retrains the port at width 8 while eight work in each direction,
otherwise the port goes DOWN. -/
def spareWave (port : Nat) (out : Bool) (w unacked : Nat) (s : State) : State :=
  match findPort s port with
  | none => s
  | some p =>
    if p.state ≠ .up ∧ p.state ≠ .training then s
    else
      let q := loseWave out w p
      let s1 := onPort port (fun _ => q) s
      if p.state = .training then healthEvent (4 + port / 16) (port * 256 + w) s1
      else if q.lostOut = p.lostOut ∧ q.lostIn = p.lostIn then s1
      else if 9 < (lostOf q true).length ∨ 9 < (lostOf q false).length then leaveUp port unacked (portFail port .down 2) s1
      else leaveUp port unacked (portGo port .training) s1

/-- WAVELENGTH_SPARE (R384). -/
def execWavelengthSpare (port : Nat) (out : Bool) (wavelength unacked : Nat) (s : State) : Host.Outcome State Fault Refusal :=
  .next (spareWave port out wavelength unacked s)

/-- PORT_LIGHT_LOST (R391). -/
def execPortLightLost (port : Nat) (noLight : Bool) (unacked : Nat) (s : State) : Host.Outcome State Fault Refusal :=
  let down := portFail port .down (if noLight then 1 else 2)
  match (findPort s port).map Port.state with
  | some .up => .next (leaveUp port unacked down s)
  | some .training => .next (down s)
  | some .miswired => .next (down s)
  | _ => .next s

/-- LASER_FEED_LOW (R386, R391): fewer than eight good lines make the port DARK; otherwise each line lost is a wavelength OUT to spare. -/
def execLaserFeedLow (port : Nat) (lost : List Nat) (unacked : Nat) (s : State) : Host.Outcome State Fault Refusal :=
  if 17 - lost.length < 8 then
    match (findPort s port).map Port.state with
    | some .up => .next (leaveUp port unacked (portFail port .dark 4) s)
    | some .off => .next s
    | some .dark => .next s
    | some _ => .next (portFail port .dark 4 s)
    | none => .next s
  else .next (forEach lost (fun w t => spareWave port true w unacked t) s)

/-- LASER_FEED_RESTORED (R391): a DARK port retrains. -/
def execLaserFeedRestored (port : Nat) (s : State) : Host.Outcome State Fault Refusal :=
  match (findPort s port).map Port.state with
  | some .dark => .next (portGo port .training s)
  | _ => .next s

/-- LINK_LAYER_FATAL (R391). -/
def execLinkLayerFatal (port unacked : Nat) (s : State) : Host.Outcome State Fault Refusal :=
  match (findPort s port).map Port.state with
  | some .up => .next (leaveUp port unacked (portFail port .down 5) s)
  | some .training => .next (portFail port .down 5 s)
  | _ => .next s

/-- PORT_RETRY_INTERVAL (R391): 1,000,000 µs in DARK, MISWIRED or DOWN; `lines` is what the laser check of step 1 finds. -/
def execPortRetryInterval (port lines : Nat) (s : State) : Host.Outcome State Fault Refusal :=
  match (findPort s port).map Port.state with
  | some .dark => .next (retrain port lines s)
  | some .miswired => .next (retrain port lines s)
  | some .down => .next (retrain port lines s)
  | _ => .next s

/-- A module's lasers on once a port it feeds has a role, and off when none has (R386). -/
def lightModules (s : State) : State :=
  { s with links := { s.links with lasers := (List.range 4).map fun m => s.links.ports.any fun p => p.role != 0 && p.num / 8 == m } }

/-- PORT_ROLE_DRAINED (R386, R394): the last flit acknowledged, the port is OFF and retrains in its new role, if it has one; its module's lasers follow. -/
def execPortRoleDrained (port lines : Nat) (s : State) : Host.Outcome State Fault Refusal :=
  match findPort s port with
  | none => .next s
  | some p =>
    match p.leaving with
    | none => .next s
    | some d =>
      let s1 := lightModules (portFail port .off 7 (onPort port (fun x => { x with leaving := none, want := d, role := d.role }) s))
      if d.role = 0 then .next s1 else .next (retrain port lines s1)

/-- PLL_LOCK_REGAINED (R45, R565): the log records the end of the interval, and the rims that the die's PLL drives retrain: the ports of a
PX die. -/
def execPllLockRegained (die : Nat) (s : State) : Host.Outcome State Fault Refusal :=
  if (diesFitted s.part).contains die = false then .next s else
  let s1 := healthEvent die (256 + die) { s with dev := { s.dev with meters := s.dev.meters.modify die fun m => { m with locked := true } } }
  let mine := s1.links.ports.filter fun p => decide (p.num / 16 + 4 = die) && p.state != .off && p.state != .dark
  .next (forEach (mine.map Port.num) (fun n t =>
    match (findPort t n).map Port.state with
    | some .up => leaveUp n 0 (portGo n .training) t
    | some .training => t
    | _ => portGo n .training t) s1)

end Sys2Proof.Machine
end

