-- ==== Sys2Proof/Machine/Selection.lean ====
section
/-! DEFINITION. What a work of a pour brings into a layer and what the layer reads: its positions' vectors, queries, keys and values, the query
sketch, the selection of each KV head, its tasks, and the demand fetches with their movers (R149 to R163, R171, R197, R212, R215, R231). -/

namespace Sys2Proof.Machine

/-! ### Works -/

/-- Positions a work writes: its pending token, and its chunk (R80, R137). -/
def writes (w : Work) : Nat :=
  match w.chunk with
  | some c => c.len + if w.pend0.isSome then 1 else 0
  | none => if w.cls = .generating then 1 else 0

/-- Whether this package runs a session's arbiter: a shard entry's is at participant 0 (R420). -/
def isShard (x : Session) : Bool := x.shardOf.isSome

/-- Whether a shard entry takes part in a pour: its positions come with the layers (R420). -/
def shardWorks (s : State) (w : Work) : Bool :=
  (w.cls == .generating || w.cls == .prefill) && ((findSess s w.handle).map isShard).getD false

/-- The present work of a handle in the pour changed. -/
def onWork (h : Nat) (f : Work → Work) (s : State) : State :=
  { s with sched := { s.sched with pour := s.sched.pour.map fun p => { p with works := p.works.map fun w => if w.handle = h then f w else w } } }

/-- Token identifiers that a chunk of `n` positions takes from a queue, and what it leaves (R132, R75). -/
def takeQueue : Nat → List QItem → List Nat × List QItem
  | _, [] => ([], [])
  | 0, q => ([], q)
  | n, .text ts i :: rest =>
    if ts.length ≤ n then
      let r := takeQueue (n - ts.length) rest
      (ts ++ r.1, r.2)
    else (ts.take n, .text (ts.drop n) i :: rest)
  | n, .frame _ _ k _ _ _ _ :: rest =>
    let r := takeQueue (n - k) rest
    (List.replicate k frameToken ++ r.1, r.2)

/-- The number that a free sum of a work goes by: what it is of, the layer, the session, and the pour's own number. -/
def sumKey (w : Work) (what l : Nat) : List Nat := [what, l, w.handle, w.key]

/-! ### The frame encoder (R197) -/

/-- The samples of a frame in FP32 bits: signed 16-bit PCM for format 0, FP32 feature values for format 1. -/
def samplesOf (format : Nat) (bs : List Byte) : List Nat :=
  if format = 0 then (piecesOf 2 bs.length bs).map fun b =>
    let n := leNat b
    f32Write (if n < 32768 then .fin false n 1 else .fin true (65536 - n) 1)
  else (piecesOf 4 bs.length bs).map leNat

/-- The carry blocks of a session. -/
def carriesOf (x : Session) : List RecBlock := x.blocks.filter fun b => decide (carryLayer 0 ≤ b.layer)

/-- The values of carry blocks. -/
def carryFlat (cs : List RecBlock) : List Nat := (cs.map fun b => b.heads.flatten).flatten

/-- The vectors that the last encoder block emits for a frame, from its samples and the carry before it. -/
def frameVectors (model : Nat) (p : ModelProgram) (samples : List Nat) (cs : List RecBlock) : List (List Nat) :=
  (List.range p.framePositions).map fun i => (List.range p.hidden).map fun e => Config.encodedVector (model :: samples) (carryFlat cs) i e

/-- The carry after a frame. -/
def frameCarry (model : Nat) (samples : List Nat) (cs : List RecBlock) : List RecBlock :=
  cs.map fun b => { b with heads := b.heads.map fun vs => vs.mapIdx fun i _ => Config.encodedCarry (model :: samples) (carryFlat cs) b.layer i }

/-- Frames encoded in order: the vectors of every position with the carry after its frame. -/
def encodeFrames (model : Nat) (p : ModelProgram) : List (List Nat) → List RecBlock → List (List Nat × List RecBlock)
  | [], _ => []
  | f :: fs, cs =>
    let c := frameCarry model f cs
    (frameVectors model p f cs).map (fun v => (v, c)) ++ encodeFrames model p fs c

/-- The samples of the first `n` frames of a session's queue. -/
def headSamples (p : ModelProgram) (x : Session) (n : Nat) : List (List Nat) :=
  (x.queue.take n).filterMap fun q => match q with
    | .frame _ _ _ _ _ o _ => some (samplesOf p.sampleFormat (((x.frameData.find? fun d => d.1 == o).map Prod.snd).getD []))
    | .text _ _ => none

/-- What a work of the pour writes: for each position its BF16 vector at decoder block 0 and the carry after it (R79, R132, R197). -/
def inputsOf (s : State) (p : ModelProgram) (x : Session) (w : Work) : List (List Nat × List RecBlock) :=
  let img := (findModel s x.model).elim [] Model.image
  let cs := carriesOf x
  let pend := w.pend0.toList.map fun t => (embed img p t, cs)
  match w.chunk with
  | none => if w.cls = .generating then pend else []
  | some c =>
    if c.frames = 0 then pend ++ (takeQueue c.len x.queue).1.map fun t => (embed img p t, cs)
    else pend ++ encodeFrames x.model p (headSamples p x c.frames) cs

/-! ### Queries, keys and values (R168, R192) -/

/-- The first KV head that the pages of a session hold at this package (R172). -/
def firstHead (s : State) (x : Session) : Nat := if x.heads.isSome then ((ownHeads s x.model).map Prod.fst).getD 0 else 0

/-- The norm tensors of a block in their order: before its mixer, and before its feed-forward part (log entry 187). -/
def blockNorm (p : ModelProgram) (d : BlockDesc) (n : Nat) : Option TensorEntry := ((blockTensors p d).filter fun t => t.role == 9)[n]?

/-- The query heads, key heads and value heads of one position, from its vector through the block's norm. -/
def projectPos (img : List Byte) (p : ModelProgram) (d : BlockDesc) (key : List Nat) (pos : Nat) (xs : List Nat) :
    List (List Nat) × List (List Nat) × List (List Nat) :=
  let ts := blockTensors p d
  let n := normVec img (pos :: 0 :: key) p.norm p.epsilon (blockNorm p d 0) xs
  let via := fun (role : Nat) => productOf img (pos :: role :: key) d.skipFloor (tensorOf ts role 0xFFFF 0) n
  (headsFrom p d pos (via 1), headsFrom p d pos (via 2), valuesFrom p (via 3))

/-- What every position of a work brings to a layer's mixer. -/
def projectWork (img : List Byte) (p : ModelProgram) (d : BlockDesc) (l : Nat) (w : Work) :
    List (List (List Nat) × List (List Nat) × List (List Nat)) :=
  w.acts.mapIdx fun i xs => projectPos img p d (sumKey w 0 l) (w.w0 + i) xs

/-- The FP32 sum of the queries of a KV head's group, after positional encoding, over every position of the work (R154, R159). -/
def querySum (p : ModelProgram) (w : Work) (l h : Nat) (qs : List (List (List Nat))) : List Nat :=
  vecArrive (h :: sumKey w 1 l) (headDim p)
    ((qs.map fun q => (q.mapIdx fun j v => (j, v)).filterMap fun e => if kvHeadOf p e.1 = h then some (e.2.map bf16To32) else none).flatten)

/-! ### Selection (R149 to R158, R163) -/

/-- Rows of a layer whose pages are cast or casting. -/
def castRows (x : Session) (l : Nat) : List Nat :=
  sortBy id ((x.pages.filter fun g => g.layer == l && (g.cond == .cast || g.cond == .casting)).map Page.row)

/-- Rows of the always set that a layer has: the sinks, the recent window and the molten row (R149). -/
def alwaysRows (x : Session) (l : Nat) : List Nat :=
  let cast := castRows x l
  let own := (x.pages.filter fun g => g.layer == l).map Page.row
  let molten := (x.pages.filter fun g => g.layer == l && g.cond == .molten).map Page.row
  sortBy id ((own.filter fun r => decide (r < 2)) ++ cast.drop (cast.length - 4) ++ molten).eraseDups

/-- The distance of a row's pattern from a query sketch; `h` counts the KV heads that the pages hold. -/
def rowDistance (x : Session) (l h : Nat) (q : BitVec 128) (row : Nat) : Nat :=
  match findPage x row l with | some g => hamming q (g.patterns.getD h 0) | none => 128

/-- The rows chosen for one head, nearest first (R155); with budget "all", every candidate, with no comparison made (R158). -/
def chosenRows (x : Session) (l h budget : Nat) (q : BitVec 128) : List Nat :=
  let cand := (castRows x l).filter fun r => !(alwaysRows x l).contains r
  if budget = 0 then cand
  else
    let near := cand.map fun r => (r, rowDistance x l h q r)
    sortBy (fun r => rowDistance x l h q r) (chooseNear near (budget / 16))

/-- The sketch of each KV head that the pages hold. -/
def sketchesOf (p : ModelProgram) (l : Nat) (sums : List (List Nat)) : List (BitVec 128) := sums.mapIdx fun h q => sketch p.projectionSeed l h q

/-- The selection set of each KV head that the pages hold: the always set and the chosen rows (R149, R152). -/
def selectionSets (x : Session) (l budget : Nat) (qs : List (BitVec 128)) : List (List Nat) :=
  qs.mapIdx fun h q => alwaysRows x l ++ chosenRows x l h budget q

/-- The rows a layer of a work reads, in the order their fetches are issued: the always set, then head by head by distance (R163); at equal distance,
and among works, in the order they come (log entry 189). -/
def selectedRows (x : Session) (l : Nat) (sets : List (List Nat)) : List Nat := (alwaysRows x l ++ sets.flatten).eraseDups

/-! ### Tasks (R171, R213, R215) -/

/-- Clusters of a die that a partition has enabled, by logical number. -/
def dieClusters (s : State) (partition d : Nat) : List Nat :=
  match findDie s d, findPart s partition with
  | some x, some p => (List.range 8).filter fun i => (match x.logical[i]? with | some (some _) => true | _ => false) && bitAt p.clusters (8 * d + i)
  | _, _ => []

/-- The partition whose clusters a session's work runs on: its tenant's, or its model's for a shard entry (R420). -/
def workPart (s : State) (x : Session) : Nat := if isShard x then ((findModel s x.model).map Model.partition).getD 0 else sessPart s x

/-- The tasks of a work in a layer, given in turn to the enabled clusters of the home die (R171; log entry 190). -/
def tasksOf (s : State) (x : Session) (l : Nat) (rows : List Nat) : List Task :=
  let cs := dieClusters s (workPart s x) x.homeDie
  let n := s.tiers.t0.countP fun t => t.die == x.homeDie
  (taskRows rows).mapIdx fun i part => { die := x.homeDie, cluster := cs.getD ((n + i) % max 1 cs.length) 0, handle := x.handle, layer := l, rows := part }

/-- The tasks of a layer and those before it ended: their clusters' T0 is cleared (R215). -/
def clearTasks (l : Nat) (s : State) : State :=
  { s with tiers := { s.tiers with t0 := s.tiers.t0.filter fun t => decide (l < t.layer) } }

/-- A task given to its cluster. -/
def putTasks (ts : List Task) (s : State) : State := { s with tiers := { s.tiers with t0 := s.tiers.t0 ++ ts } }

/-! ### Demand fetches (R163, R231) -/

/-- A demand fetch issued for a selected cast page that has no T1 copy, once however many select it; none where one is in flight. It takes a new T1
frame where one is free, and reads straight into T0 where none is (R163, R231). -/
def issueFetch (h l row : Nat) (s : State) : State :=
  match (findSess s h).bind fun x => (findPage x row l).bind fun g => (sessProg s x).map fun p => (x, g, p) with
  | none => s
  | some (x, g, p) =>
    if g.cond = .cast ∧ g.inT1 = false ∧ (findFetch s h row l).isNone then
      match readable s x g with
      | [] => faultSlot h .tierFault s
      | t :: rest =>
        let kib := frameKib p g
        let r := if kib ≤ t1Free s x.homeDie then takeFrame x kib s else (noFrame, s)
        let c := ((s.tiers.t0.find? fun k => k.handle == h && k.layer == l && k.rows.contains row).map Task.cluster).getD 0
        let f : Fetch := { handle := h, row := row, layer := l, tier := t, left := rest, page := g.handle, frame := r.1, kib := kib, die := x.homeDie
                           cluster := c, lines := ceilDiv (pageBytes p g) 64 }
        { r.2 with tiers := { r.2.tiers with fetches := pumpFetches (r.2.tiers.fetches ++ [f]) } }
    else s

/-! ### The start of a layer (R152, R156, R159) -/

/-- The selection setting that a pour was planned with for a tenant: budget and linger (R157). -/
def settingOf (s : State) (p : Pour) (t : Nat) : Nat × Nat :=
  match p.settings.find? fun e => e.1 == t with
  | some e => e.2
  | none => ((findTen s t).map fun x => (x.selBudget, x.linger)).getD (2048, 16)

/-- Rows of a layer's pages that stand in T1. -/
def hotRows (x : Session) (l : Nat) : List Nat := (x.pages.filter fun g => g.layer == l && g.inT1).map Page.row

/-- One work's start of a layer: for attention, the selection of every KV head over the whole chunk, the tasks, and the fetches, those of the always
set first; another mixer has one task that reads no page. -/
def startWork (p : ModelProgram) (l h : Nat) (s : State) : State :=
  match s.sched.pour, findSess s h with
  | some q, some x =>
    match q.works.find? fun w => w.handle == h, p.decoders[l]? with
    | some w, some d =>
      if w.acts.isEmpty then s
      else if d.mixer ≠ 1 then putTasks (tasksOf s x l []) (onWork h (fun v => { v with sets := [], hot := [], came := [] }) s)
      else
        let img := (findModel s x.model).elim [] Model.image
        let qs := (projectWork img p d l w).map Prod.fst
        let first := firstHead s x
        let sums := (List.range (headsOf p x)).map fun k => querySum p w l (first + k) qs
        let sets := selectionSets x l (settingOf s q x.tenant).1 (sketchesOf p l sums)
        let rows := selectedRows x l sets
        let n := s.sched.selections + 1
        let mark := fun (g : Page) => if g.layer = l ∧ rows.contains g.row then { g with selected := true, lastSel := n } else g
        let s1 := onSess h (fun y => { y with pages := y.pages.map mark }) s
        let s2 := onWork h (fun v => { v with sets := List.replicate first [] ++ sets, hot := hotRows x l, came := [] })
          { s1 with sched := { s1.sched with selections := n } }
        forEach rows (issueFetch h l) (putTasks (tasksOf s x l (sortBy id rows)) s2)
    | _, _ => s
  | _, _ => s

/-- The vectors that a pour's works take into decoder block 0, and the number their free sums go by. -/
def feedWorks (s : State) (p : ModelProgram) (ws : List Work) : List Work :=
  ws.map fun w =>
    match findSess s w.handle with
    | some x => if isWorking w && !isShard x then { w with acts := (inputsOf s p x w).map Prod.fst, key := s.free } else { w with key := s.free }
    | none => w

/-- The handles of a pour's works that do its layers. -/
def layerHandles (s : State) (p : Pour) : List Nat := (p.works.filter fun w => (isWorking w || shardWorks s w) && !w.barged).map Work.handle

/-- A pour's first layer started for every work (R128). -/
def startPour (s : State) : State :=
  match s.sched.pour with
  | none => s
  | some q =>
    match progOf s q.model with
    | none => s
    | some p =>
      let s1 : State := { drawFree s with sched := { s.sched with pour := some { q with works := feedWorks s p q.works } } }
      forEach (layerHandles s q) (startWork p 0) s1

end Sys2Proof.Machine
end

