-- ==== Sys2Proof/Machine/Planning.lean ====
section
/-! DEFINITION. Planning a pour: slot classes, budget reservation, prefill chunks, the order of flasks, and the row POUR_PLAN (R121 to R135,
R231, R333, R334, R341, R345, R369, R372, R443). -/

namespace Sys2Proof.Machine

/-! ### Chunks (R126, R131 to R133) -/

/-- Positions of the frames at the head of a queue. -/
def headFrames : List QItem → List Nat
  | .frame _ _ n _ _ _ _ :: rest => n :: headFrames rest
  | _ => []

/-- Text positions at the head of a queue, up to the first frame. -/
def headText : List QItem → Nat
  | .text ts _ :: rest => ts.length + headText rest
  | _ => 0

/-- Whether text stands at the head of a queue. -/
def textHead (q : List QItem) : Bool := match q with | .text _ _ :: _ => true | _ => false

/-- The longest chunk (R133). -/
def chunkMax : Nat := 2048

/-- The chunks R133 permits of a queue, shortest first; `canEnd` says whether one may end the input. -/
def chunksOf (q : List QItem) (canEnd : Bool) : List Chunk :=
  let total := queuedCount q
  let fits := fun (c : Chunk) => decide (c.len ≤ chunkMax) && (canEnd || c.len != total)
  match headFrames q with
  | n :: ns =>
    ((List.range (ns.length + 1)).map fun i => ({ len := ((n :: ns).take (i + 1)).sum, frames := i + 1 } : Chunk)).filter fits
  | [] =>
    let run := headText q
    let whole := (List.range (run / 16)).map fun i => ({ len := 16 * (i + 1) } : Chunk)
    let short := if !canEnd && run == total && decide (1 < run) && (run - 1) % 16 != 0 then [({ len := run - 1 } : Chunk)] else []
    let last := if run = 0 ∨ run % 16 = 0 then [] else [({ len := run } : Chunk)]
    (whole ++ short ++ last).filter fits

/-- Positions that a query of a session attends before its own chunk: the always set and the budget's pages, or all (R149, R155, R159). -/
def attended (budget w : Nat) : Nat :=
  let cast := w / 16
  if budget = 0 ∨ cast ≤ 6 + budget / 16 then w else 16 * (6 + budget / 16) + w % 16

/-- The positions a session's queries attend, under its tenant's selection setting. -/
def attendedBy (s : State) (x : Session) : Nat := attended (((findTen s x.tenant).map Tenant.selBudget).getD 2048) x.w

/-- OP-N picoseconds of full-package arithmetic for `n` positions of a model that attend `k` positions in all: dense work at the rates of Table 1-2 and
attention at the FP8 rate, over the enabled clusters (R133, R210; log entry 160). -/
def arithPs (s : State) (model n k : Nat) : Nat :=
  match progOf s model with
  | none => 0
  | some p => n * denseWork p / (20 * max 1 (enabledClusters s)) + k * attendWork1 p / (10 * max 1 (enabledClusters s))

/-- The predicted cost of a chunk in OP-N picoseconds (R133). -/
def chunkCost (s : State) (x : Session) (n : Nat) : Nat := arithPs s x.model n (n * attendedBy s x + n * (n + 1) / 2)

/-- The predicted cost of one generated token in OP-N nanoseconds. -/
def tokenCost (s : State) (x : Session) : Nat := arithPs s x.model 1 (attendedBy s x + 1) / 1000

/-! ### Budget reservations (R131, R336) -/

/-- Unlimited (R336). -/
def unlimited : Nat := 0xFFFFFFFFFFFFFFFF

/-- Tokens of a tenant that works hold reserved and not consumed. -/
def reservedOf (t : Nat) (ws : List Work) : Nat := ws.countP fun w => w.tenant == t && w.reserved && !w.consumed

/-- Whether a tenant's budget has a token left for one more reservation, beside those of the works given and of the suspended pours. -/
def hasRoom (s : State) (ws : List Work) (t : Nat) : Bool :=
  match findTen s t with
  | none => false
  | some x => x.budget == unlimited || decide (reservedOf t (ws ++ (s.sched.suspended.map Pour.works).flatten) < x.budget)

/-- Whether a session's chunk may end its input: no request, or a slot and a token to reserve (R126, R131). -/
def mayEnd (s : State) (ws : List Work) (x : Session) (slotted : Bool) : Bool :=
  x.request.isNone || (slotted && hasRoom s ws x.tenant)

/-! ### Classes (Table 4-4) -/

/-- Whether a session's records have nowhere to go but the backlog: its home's link is down and its alternate absent or down too (R545). -/
def orphaned (s : State) (x : Session) : Bool := !fnUp s (receiver s x.home x.alternate)

/-- Whether a session may work in a pour (Table 4-4, orders 2 and 3; R28, R243, R467). -/
def canWork (s : State) (x : Session) : Bool :=
  (x.state == .opened || x.state == .active) && x.op.isNone && !x.recastPending &&
    (isShard x || !(((findTen s x.tenant).map Tenant.retiring).getD true)) && (partDies s (workPart s x)).contains x.homeDie

/-- The class of a slot's session, budget apart (Table 4-4). -/
def baseClass (s : State) (x : Session) : SlotClass :=
  if canWork s x = false then .idle
  else if isShard x then (if x.pendingTok.isSome then .generating else .prefill)
  else if stalled (fnOf s (receiver s x.home x.alternate)) || orphaned s x then .idleStall
  else if x.request.isNone then (if x.queue.isEmpty then .idle else .idlePrefill)
  else if !x.queue.isEmpty then .prefill
  else match x.call with
    | some (.onDevice _ _) => .recallIdle
    | _ => if x.pendingTok.isSome then .generating else .waitingInput

/-- A slot's or session's work, as it stands at step 1. -/
def newWork (slot : Option Nat) (x : Session) (c : SlotClass) : Work :=
  { slot := slot, handle := x.handle, tenant := x.tenant, cls := c, p0 := x.p, w0 := x.w, pend0 := x.pendingTok, blocks0 := x.blocks
    snaps0 := x.snapshots, ctx := x.request.bind Request.ctx }

/-- The slots of a flask classified in ascending slot number, generating slots reserving as they come (R130, R131). -/
def classify (s : State) : Nat → List Nat → List Work → List Work
  | _, [], ws => ws
  | slot, h :: hs, ws =>
    match findSess s h with
    | none => classify s (slot + 1) hs (ws ++ [{ slot := some slot, handle := 0, cls := .empty }])
    | some x =>
      let c := baseClass s x
      let w := newWork (some slot) x c
      let w1 := if (c ≠ .generating ∧ c ≠ .waitingInput) ∨ isShard x then w
        else if hasRoom s ws x.tenant = false then { w with cls := .idleBudget }
        else if c = .generating then { w with samples := true, reserved := true } else w
      classify s (slot + 1) hs (ws ++ [w1])

/-- The model group of a flask's model, if this package takes part in one (R172). -/
def modelGroup (s : State) (model : Nat) : Option Nat := (s.rack.groups.find? fun g => g.model == model && !g.torn).map MGroup.num

/-- Sessions with no slot that a pour of a flask prefills (R126); in a model group they have no shard entries, and a collective carries roster slots
alone (R173; log entry 192). -/
def unslotted (s : State) (f : Flask) : List Session :=
  s.sess.filter fun x => x.slot.isNone && (modelGroup s f.model).isNone && x.model == f.model && sessPart s x == f.partition && x.state == .opened && canWork s x &&
    !isShard x && !x.queue.isEmpty && !orphaned s x && !inFlight s x

/-- The works of a pour of a flask before prefill: its slots, then the sessions with no slot. -/
def firstWorks (s : State) (f : Flask) : List Work :=
  classify s f.first f.roster [] ++ (unslotted s f).map fun x => newWork none x .prefill

/-- Whether a work may take a chunk. -/
def mayPrefill (w : Work) : Bool := (w.cls == .prefill || w.cls == .idlePrefill) && w.chunk.isNone

/-- The chunks a work may take now. -/
def chunksFor (s : State) (ws : List Work) (w : Work) : List Chunk :=
  match findSess s w.handle with
  | none => []
  | some x => if isShard x then [] else chunksOf x.queue (mayEnd s ws x w.slot.isSome)

/-! ### Filling the pour (R132 to R134, R333, R334) -/

/-- What filling has come to: deficits and rounds in the state, the works, and the OP-N picoseconds left. -/
structure Filling where
  st    : State
  works : List Work
  left  : Nat
  deriving DecidableEq, Repr

/-- What taking a chunk came to. -/
inductive Taken where
  | noChunk | noFit | took (n : Nat)
  deriving DecidableEq, Repr

/-- A chunk given to a work, with the reservation of one that ends a request's input (R131). -/
def giveChunk (w : Work) (c : Chunk) (f : Filling) : Filling :=
  match findSess f.st w.handle with
  | none => f
  | some x =>
    let ends := c.len == queuedCount x.queue && x.request.isSome && w.slot.isSome
    let mark := fun (v : Work) => if v.handle = w.handle then { v with chunk := some c, samples := ends, reserved := ends } else v
    { f with works := f.works.map mark, left := f.left - chunkCost f.st x c.len }

/-- The largest chunk of a work of at most `cap` positions that fits what is left (R133). -/
def takeChunk (w : Work) (cap : Nat) (f : Filling) : Taken × Filling :=
  match findSess f.st w.handle, (chunksFor f.st f.works w).filter (fun c => decide (c.len ≤ cap)) with
  | some x, c :: cs =>
    match (c :: cs).reverse.find? fun k => decide (chunkCost f.st x k.len ≤ f.left) with
    | some k => (.took k.len, giveChunk w k f)
    | none => (.noFit, f)
  | _, _ => (.noChunk, f)

/-- The remaining allowance and the order of a session's head frame (R132). -/
def frameKey (s : State) (w : Work) : Option Nat × Nat :=
  match (findSess s w.handle).bind fun x => x.queue.head? with
  | some (.frame _ _ _ a _ o _) => (a, o)
  | _ => (none, 0)

/-- Works whose head is a frame: those with an allowance by what remains of it, then the others in the order taken (R132). -/
def frameOrder (s : State) (ws : List Work) : List Work :=
  let mine := ws.filter fun w => mayPrefill w && ((findSess s w.handle).map fun x => !(headFrames x.queue).isEmpty).getD false
  let timed := sortBy (fun w => ((frameKey s w).1.getD 0) * 2 ^ 64 + (frameKey s w).2) (mine.filter fun w => (frameKey s w).1.isSome)
  timed ++ sortBy (fun w => (frameKey s w).2) (mine.filter fun w => (frameKey s w).1.isNone)

/-- Works of a tenant whose head is text, oldest queued first (R333). -/
def textOrder (s : State) (ws : List Work) (t : Nat) : List Work :=
  sortBy (fun w => ((findSess s w.handle).map Session.queuedAt).getD 0)
    (ws.filter fun w => mayPrefill w && w.tenant == t && ((findSess s w.handle).map fun x => textHead x.queue).getD false)

/-- Tenants with text queued for the pour, in ascending identifier. -/
def textTenants (s : State) (ws : List Work) : List Nat :=
  sortBy id ((ws.filter fun w => mayPrefill w && ((findSess s w.handle).map fun x => textHead x.queue).getD false).map Work.tenant).eraseDups

/-- The round of a partition. -/
def roundOf (s : State) (p : Nat) : Round := (findKey Round.partition p s.sched.rounds).getD { partition := p }
def setRound (r : Round) (s : State) : State := { s with sched := { s.sched with rounds := upsert Round.partition r s.sched.rounds } }

/-- The tenants in round order: from the one cut short, if it has text, otherwise after the one visited last (R333); and the state with a
cut-short mark cleared where that tenant has none. -/
def roundOrder (p : Nat) (ids : List Nat) (s : State) : List Nat × State :=
  let r := roundOf s p
  match r.cut with
  | some c =>
    if ids.contains c then (ids.filter (fun i => decide (c ≤ i)) ++ ids.filter (fun i => decide (i < c)), s)
    else (ids.filter (fun i => decide (c < i)) ++ ids.filter (fun i => decide (i ≤ c)), setRound { partition := p, last := some c } s)
  | none =>
    match r.last with
    | none => (ids, s)
    | some l => (ids.filter (fun i => decide (l < i)) ++ ids.filter (fun i => decide (i ≤ l)), s)

/-- One tenant's turn over its sessions, oldest first: whether the allotment cut it short. -/
def turn (t : Nat) : List Work → Filling → Bool × Filling
  | [], f => (false, f)
  | w :: ws, f =>
    let d := ((findTen f.st t).map Tenant.deficit).getD 0
    match takeChunk w d.toNat f with
    | (.noChunk, _) => turn t ws f
    | (.noFit, _) => (true, f)
    | (.took n, g) => turn t ws { g with st := onTen t (fun x => { x with deficit := x.deficit - n }) g.st }

/-- Whether a tenant has text queued beyond the chunks chosen. -/
def textLeft (f : Filling) (t : Nat) : Bool :=
  f.st.sess.any fun x => x.tenant == t &&
    (let n := ((f.works.find? fun w => w.handle == x.handle).bind Work.chunk).map Chunk.len
     match n with
     | none => textHead x.queue
     | some k => decide (k < headText x.queue))

/-- fill_text of R333 over the tenants in round order; `cut` is the tenant that resumes without a quantum. -/
def fillText (p : Nat) (cut : Option Nat) : List Nat → Filling → Filling
  | [], f => f
  | t :: ts, f =>
    let weight := ((findTen f.st t).map Tenant.weight).getD 100
    let quantum : Int := 16 * weight
    let s1 := if cut = some t then f.st
      else onTen t (fun x => { x with deficit := min (x.deficit + quantum) (quantum + 2048) }) f.st
    let s2 := setRound { roundOf s1 p with cut := none } s1
    match turn t (textOrder s2 f.works t) { f with st := s2 } with
    | (true, g) => { g with st := setRound { roundOf g.st p with cut := some t } g.st }
    | (false, g) =>
      let s3 := if textLeft g t then g.st else onTen t (fun x => { x with deficit := 0 }) g.st
      fillText p none ts { g with st := setRound { partition := p, last := some t } s3 }

/-- Frames taken in their order, as far as they fit. -/
def fillFrames : List Work → Filling → Filling
  | [], f => f
  | w :: ws, f => fillFrames ws (takeChunk w chunkMax f).2

/-- The minimum chunk of R134: 16 text positions, the first frame, or the whole of a shorter input, from the first in order that can take one;
text is charged to its tenant's deficit (R334). -/
def minimumChunk : List Work → Filling → Filling
  | [], f => f
  | w :: ws, f =>
    match (chunksFor f.st f.works w).filter (fun c => decide (c.frames = 1) || decide (c.frames = 0 ∧ c.len ≤ 16)) with
    | [] => minimumChunk ws f
    | c :: cs =>
      let k := (c :: cs).getLastD c
      let g := giveChunk w k f
      if k.frames = 0 then { g with st := onTen w.tenant (fun x => { x with deficit := x.deficit - k.len }) g.st } else g

/-- Prefill chosen for an allotment in OP-N nanoseconds (R132 to R134). -/
def fillPour (f : Flask) (allot : Nat) (ws : List Work) (s : State) : Filling :=
  let r := roundOrder f.partition (textTenants s ws) s
  if allot = 0 then
    minimumChunk (frameOrder s ws ++ (r.1.map (textOrder s ws)).flatten) { st := r.2, works := ws, left := 0 }
  else
    let g := fillFrames (frameOrder s ws) { st := r.2, works := ws, left := allot * 1000 }
    let ids := (roundOrder f.partition (textTenants g.st g.works) g.st).1
    fillText f.partition (roundOf g.st f.partition).cut ids g

/-! ### Rows a pour opens (R231, R372) -/

/-- Rows a work opens. -/
def opens (s : State) (w : Work) : Nat :=
  match findSess s w.handle with | none => 0 | some x => rowsOf (x.w + writes w) - rowsOf x.w

/-- Bytes of the frames of one row of a session's pages. -/
def rowBytes (s : State) (x : Session) : Nat :=
  match sessProg s x with
  | none => 0
  | some p => ((kvLayers p).map fun l => ceilDiv (formBytes p (formatOf p l) (headsOf p x)) 1024 * 1024).sum

/-- Bytes of the frames of the rows that works open. -/
def growth (s : State) (ws : List Work) : Nat :=
  (ws.map fun w => match findSess s w.handle with | none => 0 | some x => opens s w * rowBytes s x).sum

/-- Bytes of those frames on one die. -/
def growthOn (s : State) (d : Nat) (ws : List Work) : Nat :=
  growth s (ws.filter fun w => ((findSess s w.handle).map fun x => x.homeDie == d).getD false)

/-- Whether the frames of a pour's new rows fit the hold-up bound and every die (R231, R372). -/
def growthFits (s : State) (ws : List Work) : Bool :=
  holdUpFits s (saveSize s + growth s ws) &&
    (List.range (scCount s.part)).all fun d => growthOn s d ws == 0 || decide (growthOn s d ws ≤ t1Free s d * 1024)

/-- A reservation of what works open tried on every die, with the releases and demotions that R230 allows (R231). -/
def reserveDies (ws : List Work) (s : State) : State :=
  forEach (List.range (scCount s.part)) (fun d t => reserveDie d (ceilDiv (growthOn t d ws) 1024) t) s

/-- A work that no longer works in the pour. -/
def idled (w : Work) : Work := { w with cls := if w.cls = .generating then .idle else w.cls, chunk := none, samples := false, reserved := false }

/-- Works trimmed until what they open fits: chunks that open rows, last chosen first, then generating slots, highest slot first; with fuel
(R231, R372). -/
def trimWorks (s : State) (chosen : List Nat) : Nat → List Work → List Work
  | 0, ws => ws
  | k + 1, ws =>
    if growthFits s ws then ws
    else
      let opening := fun (w : Work) => decide (0 < opens s w)
      let chunks := chosen.reverse.filter fun h => ws.any fun w => w.handle == h && w.chunk.isSome && opening w
      match chunks with
      | h :: _ => trimWorks s chosen k (ws.map fun w => if w.handle = h then idled w else w)
      | [] =>
        match (ws.filter fun w => w.cls == .generating && opening w).reverse with
        | v :: _ => trimWorks s chosen k (ws.map fun w => if w.handle = v.handle then idled w else w)
        | [] => ws

/-! ### Flasks that are ready (R125) -/

/-- Whether a pour of a flask is in flight. -/
def pouring (s : State) (f : Flask) : Bool := (s.sched.pour.toList ++ s.sched.suspended).any fun p => p.flask == f.num

/-- Whether a flask has a model bound and an enabled cluster (R28, R120). -/
def flaskServes (s : State) (f : Flask) : Bool :=
  ((findModel s f.model).map fun m => m.state == 2).getD false && !(partDies s f.partition).isEmpty

/-- What a message, a commit, a budget, an allowance or an operation could change of the slot classes and of the queued input: state, operation,
queue, request, call and positions of every session, every budget, and the last commit carried out (R125). -/
def standing (s : State) : List Nat :=
  (s.sess.map fun x => [x.handle, stateCode x.state, x.op.isSome.toNat, queuedCount x.queue, x.request.isSome.toNat, x.call.isSome.toNat,
    x.pendingTok.isSome.toNat, x.p, x.slot.getD 0xFFFF]).flatten ++ s.tens.map Tenant.budget ++ [s.stg.lastDone]

/-- A flask whose planned pour was dropped: not ready while all stands as it did (R125). -/
def markDropped (n : Nat) (s : State) : State :=
  { s with sched := { s.sched with dropped := (s.sched.dropped.filter fun d => d.1 != n) ++ [(n, standing s)] } }

/-- Whether a flask is ready: its pour is past its boundary and it has work, and something changed since its last pour was dropped (R125). -/
def flaskReady (s : State) (f : Flask) : Bool :=
  let ws := firstWorks s f
  !pouring s f && !s.sched.dropped.contains (f.num, standing s) && flaskServes s f &&
    ws.any fun w => w.cls == .generating || (mayPrefill w && (!(chunksFor s ws w).isEmpty || ((findSess s w.handle).map isShard).getD false)) ||
      (w.cls == .waitingInput && ((findSess s w.handle).bind Session.request).any fun r => r.count == 0)

/-- Ready flasks in the order of R125. -/
def readyFlasks (s : State) : List Flask :=
  sortBy (fun f => f.priority * 2 ^ 80 + f.lastPour * 16 + f.num) (s.sched.flasks.filter (flaskReady s))

/-- Whether flask `f` may go before a pour: lower priority number, and another model or a whole-model window (R341). -/
def mayPreempt (s : State) (f : Flask) (p : Pour) : Bool :=
  decide (f.priority < ((findFlask s p.flask).map Flask.priority).getD 0) &&
    (f.model != p.model || ((findModel s f.model).map fun m => m.window == 0).getD false)

/-- Flasks a new pour may be planned for: any ready one, or with a pour suspended only those that may go before it (R345). -/
def candidates (s : State) : List Flask :=
  match s.sched.suspended with
  | [] => readyFlasks s
  | p :: _ => (readyFlasks s).filter fun f => mayPreempt s f p

/-! ### The plan -/

/-- Sessions of a roster whose request has not released and finds no logits at hand: position P − 1 taken back (R85; log entry 65). -/
def takeBacks (f : Flask) (s : State) : State :=
  forEach f.roster (fun h t =>
    match findSess t h with
    | some x => if baseClass t x = .waitingInput ∧ (x.request.map Request.count) = some 0 then takeBack h t else t
    | none => t) s

/-- Sessions homed on a die where their partition has no enabled cluster, to be demoted at the boundary (R28). -/
def stranded (f : Flask) (s : State) : State :=
  let off := fun (h : Nat) => match findSess s h with
    | some x => resident x && x.op.isNone && !(partDies s (sessPart s x)).contains x.homeDie && !s.tiers.pressed.contains h
    | none => false
  { s with tiers := { s.tiers with pressed := s.tiers.pressed ++ f.roster.filter off } }

/-- Generation work of a pour in OP-N nanoseconds. -/
def generation (s : State) (ws : List Work) : Nat :=
  ((ws.filter fun w => w.cls == .generating).map fun w => ((findSess s w.handle).map (tokenCost s)).getD 0).sum

/-- Steps 1 to 3 for a flask: the works, the voltage plan and the state with its queues advanced. -/
def planWorks (obs : PlanObs) (f : Flask) (s : State) : Filling × VPlan :=
  let ws := firstWorks s f
  let prefill := ws.any fun w => mayPrefill w && !(chunksFor s ws w).isEmpty
  let v := ledgerPlan s obs prefill (generation s ws) f.budgetUs (floorOf s obs f.model (ws.countP fun w => w.cls == .generating))
  (fillPour f v.allot ws s, v)

/-- Works in the order their chunks were chosen: frames, then text by the round. -/
def chosenOrder (s : State) (f : Flask) (ws : List Work) : List Nat :=
  let bare := ws.map fun w => { w with chunk := none }
  let r := roundOrder f.partition (textTenants s bare) s
  ((frameOrder s bare ++ (r.1.map (textOrder s bare)).flatten).map Work.handle)

/-- Items that a pour will write copied into staging frames during a live checkpoint (R443). -/
def stageCopies (ws : List Work) (s : State) : State :=
  match s.chk.now with
  | some c =>
    if c.cut && !c.stop then
      let hs := ((ws.filter isWorking).map Work.handle).filter fun h => !c.staged.contains h
      { s with chk := { s.chk with now := some { c with staged := c.staged ++ hs } } }
    else s
  | none => s

/-- Whether the mould engine has a mask to compute. -/
def needsMask (s : State) (w : Work) : Bool :=
  isWorking w && w.samples && ((findSess s w.handle).bind Session.request).any fun r => r.mould != 0

/-- The block streams of a pour's window that may be read: the first w blocks of those still to come, each once block b − w has finished (R207). -/
def streamBlocks (s : State) : State :=
  match s.sched.pour with
  | none => s
  | some p =>
    match findModel s p.model, progOf s p.model with
    | some m, some g =>
      let size := fun (b : Nat) => ((g.tensors.filter fun t => t.block == g.encoders.length + b).map TensorEntry.length).sum
      let due := (List.range g.decoders.length).filter fun b => decide (p.layer ≤ b) && decide (b < p.layer + m.window) && !m.arrived.contains b
      forEach due (fun b t => startPoolStream ((m.pools.flatten.map Prod.fst).headD 0) 0 (.weights m.num b) (ceilDiv (size b) 64) t) s
    | _, _ => s

/-- A pour planned for a flask under a number, or none where it would have no work (R125 to R134, R231, R372). -/
def planPour (obs : PlanObs) (f : Flask) (number : Nat) (s0 : State) : Bool × State :=
  let s := relieve (stranded f (takeBacks f s0))
  let first := planWorks obs f s
  let pressed := if growthFits s first.1.works then s else reserveDies first.1.works (holdBound (growth s first.1.works) s)
  let second := if pressed = s then first else planWorks obs f pressed
  let ws := trimWorks pressed (chosenOrder pressed f second.1.works) (2 * second.1.works.length) second.1.works
  if ws.any (fun w => isWorking w || shardWorks pressed w) then
    let st := second.1.st
    let windowed := ((findModel st f.model).map fun m => m.window != 0).getD false
    let pour : Pour :=
      { number := number, flask := f.num, model := f.model, works := ws.filter fun w => w.slot.isSome || w.chunk.isSome
        masksDone := !(ws.any (needsMask st)), voltage := second.2.mv
        allotment := second.2.allot, group := modelGroup st f.model
        settings := st.tens.map fun t => (t.id, t.selBudget, t.linger) }
    let s1 := stageCopies ws (onModel f.model (fun m => if windowed then { m with arrived := [] } else m)
      (onFlask f.num (fun g => { g with lastPour := number }) st))
    let s2 := setPlanned second.2.mv { s1 with sched := { s1.sched with pour := some pour, next := max s1.sched.next (number + 1), clustersOn := true, loaded := some f.model } }
    (true, streamBlocks (startPour s2))
  else (false, pressed)

/-- The first flask in order whose pour is not dropped (R125). -/
def planFirst (obs : PlanObs) : List Flask → State → Bool × State
  | [], s => (false, s)
  | f :: fs, s =>
    match planPour obs f s.sched.next s with
    | (true, t) => (true, t)
    | (false, t) => planFirst obs fs (markDropped f.num t)

/-! ### Suspended pours (R342 to R345) -/

/-- Whether a stream carries blocks of a model's weights. -/
def streamOf (n : Nat) (k : Stream) : Bool := match k.carries with | .weights m _ => m == n | _ => false

/-- The demand fetches of a pour's sessions abandoned at its save, or issued again at its restore, measured afresh (R346). -/
def holdFetches (on : Bool) (p : Pour) (s : State) : State :=
  let put := fun (f : Fetch) => if p.works.any (fun w => w.handle == f.handle) then { f with held := on, late := f.late && on } else f
  { s with tiers := { s.tiers with fetches := pumpFetches (s.tiers.fetches.map put) } }

/-- The pour in flight suspended: the requests of its clusters' movers abandoned, its window's streams stopped, its cluster contexts saved and T0 cleared
(R215, R340, R342, R343, R346). -/
def suspend (s0 : State) : State :=
  match s0.sched.pour with
  | none => s0
  | some p =>
    let s := holdFetches true p s0
    let save := fun (c : Ctx) => if c.saved.isNone then { c with saved := some p.number } else c
    { s with tiers := { s.tiers with t0 := [], streams := pumpStreams (s.tiers.streams.filter fun k => !streamOf p.model k) }
             sched := { s.sched with pour := none, suspended := { p with preempt := none } :: s.sched.suspended }
             cores := { s.cores with ctxs := s.cores.ctxs.map save } }

/-- The most recently suspended pour resumed: the model state swapped, its contexts restored, its tasks begun again in T0, its window's streams and its
fetches issued again; a context whose semaphores were revoked resumes from its restart record (R339, R340, R345, R346, R349). -/
def resumePour (s : State) : State :=
  match s.sched.pour, s.sched.suspended with
  | none, p :: rest =>
    let load := fun (c : Ctx) => if c.saved = some p.number then { c with saved := none, restart := none } else c
    let tasks := fun (w : Work) (t : State) => match findSess t w.handle with
      | some x => if w.acts.isEmpty then t else putTasks (tasksOf t x p.layer (sortBy id (w.sets.flatten).eraseDups)) t
      | none => t
    streamBlocks (holdFetches false p (forEach (p.works.filter fun w => !w.barged) tasks
      { s with sched := { s.sched with pour := some p, suspended := rest, loaded := some p.model }
               cores := { s.cores with ctxs := s.cores.ctxs.map load } }))
  | _, _ => s

/-- A pre-emption request raised against the pour in flight while it is before or within step 4 (R341). -/
def requestPreempt (s : State) : State :=
  match s.sched.pour with
  | some p =>
    if p.step ≤ 4 ∧ p.preempt.isNone then
      match (readyFlasks s).find? fun f => mayPreempt s f p with
      | some f => { s with sched := { s.sched with pour := some { p with preempt := some f.num } } }
      | none => s
    else s
  | none => s

/-- Whether pours are planned: READY, no stop or halt, no stop checkpoint taken (R376, R430, R528, R545). -/
def mayPlan (s : State) : Bool :=
  s.dev.code == .ready && s.dev.stop.isNone && !s.ledger.halted && !(s.chk.now.any fun c => c.stop)

/-- A pour planned again with its number (R27), or dropped where nothing is left to do. -/
def replan (obs : PlanObs) (p : Pour) (s : State) : State :=
  let s1 : State := { s with sched := { s.sched with pour := none } }
  match findFlask s p.flask with
  | none => s1
  | some f =>
    if flaskServes s f then
      let r := planPour obs f p.number s1
      if r.1 then r.2
      else { r.2 with sched := { r.2.sched with next := if r.2.sched.next = p.number + 1 then p.number else r.2.sched.next } }
    else s1

/-- POUR_PLAN (R125, R128): steps 1 to 3 of the next pour; a rerun keeps its number; with a pour in flight, a pre-emption request where one is
due; with none ready, the suspended pour goes on. -/
def execPourPlan (obs : PlanObs) (s : State) : Host.Outcome State Fault Refusal :=
  let s1 := readTemps obs.temps (passTime obs.elapsedUs s)
  if mayPlan s1 then
    match s1.sched.pour with
    | some p => .next (if p.rerun then replan obs p s1 else requestPreempt s1)
    | none =>
      let r := planFirst obs (candidates s1) s1
      .next (if r.1 then r.2 else resumePour r.2)
  else .next s1

end Sys2Proof.Machine
end

