-- ==== Sys2Proof/Machine/Layers.lean ====
section
/-! DEFINITION. Step 4 of a pour: keys and values written into pages, attention and recurrent mixers, feed-forward parts, recurrent state and
snapshots, weight windows, collectives and landing windows, pre-emption, and the masks of step 5 (R66, R67, R73, R76, R78, R128, R152, R153, R159,
R172 to R178, R195 to R197, R207 to R209, R299 to R302, R340 to R342, R399, R420). -/

namespace Sys2Proof.Machine

/-! ### Writing positions (R66, R67, R73, R76, R78, R196, R197) -/

/-- BF16 elements of one head in the form a page holds. -/
def storeHead (fmt : Nat) (bits : List Nat) : List Nat := storeRow fmt (bits.map fun b => f32Read (bf16To32 b))

/-- A position appended to a molten page: its key sums and patterns follow, and the 16th begins the casting (R67, R78). -/
def growPage (p : ModelProgram) (ks vs : List (List Nat)) (g : Page) : Page :=
  let fmt := formatOf p g.layer
  let key := ks.map (storeHead fmt)
  let add := key.map (keyRow fmt)
  let sums := if g.fill = 0 then add else List.zipWith vecAdd g.sums add
  { g with fill := g.fill + 1, cond := if g.fill + 1 = 16 then .casting else .molten, keys := g.keys ++ [key]
           values := g.values ++ [vs.map (storeHead fmt)], sums := sums, patterns := sums.mapIdx fun h q => sketch p.projectionSeed g.layer h q }

/-- The write-down of a page put into its pool's queues where its 16th position begins the casting (R67, R212). -/
def streamDown (p : ModelProgram) (h row l : Nat) (s : State) : State :=
  match (findSess s h).bind fun x => (findPage x row l).map fun g => (x, g) with
  | some (x, g) =>
    if g.cond = .casting then
      startPoolStream ((roomyPools s (sessPlace s x) (pageBytes p g) []).headD 0) 0 (.writeDown h row l) (ceilDiv (pageBytes p g) 64) s
    else s
  | none => s

/-- Position `pos` of a session's layer written: into its row's molten page, or a new one (R66). -/
def appendPos (p : ModelProgram) (h l pos : Nat) (ks vs : List (List Nat)) (s : State) : State :=
  match findSess s h with
  | none => s
  | some x =>
    match findPage x (pos / 16) l with
    | some g => if g.cond = .molten then streamDown p h (pos / 16) l (onPage h (pos / 16) l (growPage p ks vs) s) else s
    | none =>
      let g : Page := { row := pos / 16, layer := l, heads := x.heads }
      seat h (onSess h (fun y => { y with pages := y.pages ++ [growPage p ks vs g] }) s)

/-- A decay held to the range 0 to 1 (R196). -/
def unitDecay (a : Nat) : Nat := if f32Key a < 0 then 0 else if f32Key 0x3F800000 < f32Key a then 0x3F800000 else a

/-- A head's state after one position: a × state + key ⊗ value, each product and sum rounded (R196; log entry 66). -/
def recurStep (a : Nat) (key value st : List Nat) : List Nat :=
  st.mapIdx fun i v =>
    f32Add (f32Mul a v) (f32Mul (key.getD (i / max 1 value.length) 0) (value.getD (i % max 1 value.length) 0))

/-- A head's output: query × state (R196). -/
def recurOut (query st : List Nat) : List Nat :=
  let d := st.length / max 1 query.length
  (List.range d).map fun j => f32Run (query.mapIdx fun i q => f32Mul q (st.getD (i * d + j) 0))

/-- A snapshot set holding a block: added to its position's set, the newest sets kept (R73). -/
def takeSnapshot (p : ModelProgram) (pos : Nat) (b : RecBlock) (l : List Snapshot) : List Snapshot :=
  if pos % (16 * max 1 p.snapshotSpacing) ≠ 0 then l
  else
    let set := (l.find? fun n => n.pos == pos).getD { pos := pos, blocks := [] }
    let l1 := insertBy Snapshot.pos { set with blocks := upsert RecBlock.layer b set.blocks } (l.filter fun n => n.pos != pos)
    l1.drop (l1.length - p.snapshotDepth)

/-- One position of a recurrent layer written, and what its heads put out (R196). -/
def recurPos (p : ModelProgram) (l pos : Nat) (hs : List RecIn) (x : Session) : Session × List Nat :=
  match x.blocks.find? fun (b : RecBlock) => b.layer == l with
  | none => (x, [])
  | some b =>
    let b1 := { b with heads := b.heads.mapIdx fun i st => match hs[i]? with | some k => recurStep (unitDecay k.decay) k.key k.value st | none => st }
    ({ x with blocks := upsert RecBlock.layer b1 x.blocks, snapshots := takeSnapshot p (pos + 1) b1 x.snapshots },
     (b1.heads.mapIdx fun i st => match hs[i]? with | some k => recurOut k.query st | none => []).flatten)

/-- The positions of a recurrent layer written in order, and the output of each. -/
def recurRun (p : ModelProgram) (l : Nat) : Nat → List (List RecIn) → Session → Session × List (List Nat)
  | _, [], x => (x, [])
  | pos, hs :: rest, x =>
    let r := recurPos p l pos hs x
    let q := recurRun p l (pos + 1) rest r.1
    (q.1, r.2 :: q.2)

/-- The carry blocks after each position of a work, with the snapshots taken there (R73, R197). -/
def carryRun (p : ModelProgram) : Nat → List (List RecBlock) → Session → Session
  | _, [], x => x
  | pos, cs :: rest, x =>
    let blocks := (x.blocks.filter fun (b : RecBlock) => decide (b.layer < carryLayer 0)) ++ cs
    carryRun p (pos + 1) rest { x with blocks := blocks, snapshots := cs.foldl (fun l b => takeSnapshot p (pos + 1) b l) x.snapshots }

/-! ### The layer of a work (R152, R153, R159, R172, R192, R195, R196, R208) -/

/-- A work of the pour in flight, by its session. -/
def workOf (s : State) (h : Nat) : Option Work := s.sched.pour.bind fun p => p.works.find? fun w => w.handle == h

/-- One position from its vector and its mixer's FP32 output to the next layer's vector, and the experts it chose. -/
def finishPos (img : List Byte) (p : ModelProgram) (d : BlockDesc) (key : List Nat) (xs add : List Nat) : List Nat × List Nat :=
  let y := residual xs add
  if d.ffn = 0 then (y, [])
  else
    let n := normVec img (3 :: key) p.norm p.epsilon (blockNorm p d (if d.mixer = 0 then 0 else 1)) y
    (residual y (feedForward img key p d n), if d.ffn = 1 then [] else (routed img key p (blockTensors p d) n).1)

/-- The experts that a layer has read noted: those chosen by some position of the pour (R208). -/
def noteStreamed (l : Nat) (es : List Nat) (p : Pour) : Pour :=
  if es.isEmpty then p
  else
    let old := ((p.streamed.find? fun e => e.1 == l).map Prod.snd).getD []
    { p with streamed := (p.streamed.filter fun e => e.1 != l) ++ [(l, sortBy id (old ++ es).eraseDups)] }

/-- A layer of a work ended with its mixer's output for each position, and its next layer started. -/
def finishWork (p : ModelProgram) (l h : Nat) (adds : List (List Nat)) (s : State) : State :=
  match workOf s h, p.decoders[l]?, findSess s h with
  | some w, some d, some x =>
    let img := (findModel s x.model).elim [] Model.image
    let r := w.acts.mapIdx fun i xs => finishPos img p d (i :: sumKey w 3 l) xs (adds.getD i [])
    let s1 := onWork h (fun v => { v with acts := r.map Prod.fst, parts := [], added := [], sets := [], hot := [], came := [] }) s
    startWork p (l + 1) h { s1 with sched := { s1.sched with pour := s1.sched.pour.map (noteStreamed l (r.map Prod.snd).flatten) } }
  | _, _, _ => s

/-- The runs of KV heads whose parts of a layer's output this package gives: each of its participants', or every head (R172). -/
def headRuns (s : State) (p : ModelProgram) (model : Nat) : List (Nat × Nat) :=
  match s.rack.groups.find? fun g => g.model == model && !g.torn with
  | some g => (g.parts.filter fun k => k.package == s.rack.num).map fun k => (k.firstHead, k.heads)
  | none => [(0, p.kvHeads)]

/-- The attention of every position of a work over one run of heads, through their part of the output projection, in FP32 (R172). -/
def attendWork (img : List Byte) (p : ModelProgram) (d : BlockDesc) (l : Nat) (w : Work) (x : Session) (first : Nat) (run : Nat × Nat) :
    List (List Nat) :=
  let key := sumKey w 2 l
  let a : Attend := { page := fun r => findPage x r l, sets := w.sets, hot := w.hot, came := w.came, w0 := w.w0, first := first }
  (projectWork img p d l w).mapIdx fun i q =>
    productOf img (i :: 4 :: key) d.skipFloor (tensorOf (blockTensors p d) 4 0xFFFF 0) (attendPos p key a l (w.w0 + i) run q.1)

/-- One work's part of layer `l`: its keys and values written, its mixer computed over what its heads selected and over the work's own earlier
positions (R153, R159), and, outside a model group, the layer ended; in one, the partials kept for the collective. -/
def workLayer (p : ModelProgram) (l : Nat) (obs : LayerObs) (w : Work) (s : State) : State :=
  let h := w.handle
  let k := (obs.works.find? fun (k : LayerWork) => k.handle == h).getD { handle := h }
  let s1 := if l = 0 ∧ shardWorks s w then startWork p 0 h (onWork h (fun v => { v with acts := k.input }) s) else s
  let s2 := if l = 0 ∧ !p.encoders.isEmpty then
      onSess h (fun x => carryRun p w.w0 ((inputsOf s1 p x w).map Prod.snd) x) s1
    else s1
  match workOf s2 h, findSess s2 h, p.decoders[l]? with
  | some v, some x, some d =>
    let img := (findModel s2 x.model).elim [] Model.image
    match d.mixer with
    | 1 =>
      let first := firstHead s2 x
      let n := headsOf p x
      let put := fun (e : Nat × List (List Nat) × List (List Nat) × List (List Nat)) (t : State) =>
        appendPos p h l (v.w0 + e.1) ((e.2.2.1.drop first).take n) ((e.2.2.2.drop first).take n) t
      let s3 := forEach ((projectWork img p d l v).mapIdx fun i q => (i, q)) put s2
      match findSess s3 h with
      | none => s3
      | some y =>
        let parts := (headRuns s3 p y.model).map (attendWork img p d l v y first)
        if (s3.sched.pour.bind Pour.group).isSome then onWork h (fun u => { u with parts := parts }) s3
        else finishWork p l h (parts.headD []) s3
    | 2 =>
      let r := recurRun p l v.w0 ((List.range v.acts.length).map fun i => k.recurrent.getD i []) x
      finishWork p l h (r.2.map fun o => (List.range p.hidden).map fun e => Config.recurrentMix [x.model, l] o e) (onSess h (fun _ => r.1) s2)
    | _ => finishWork p l h [] s2
  | _, _, _ => s2

/-! ### Collectives (R172 to R178, R420) -/

/-- Roster slots of the flask that runs a group. -/
def groupSlots (s : State) (g : MGroup) : Nat := ((s.sched.flasks.find? fun f => f.model == g.model).map Flask.count).getD 0

/-- Lines of one partial: 14 values each (R174). -/
def partialCount (s : State) (g : MGroup) : Nat := ((progOf s g.model).map fun p => ceilDiv p.hidden 14).getD 0

/-- Participant numbers of this package. -/
def ownParticipants (s : State) (g : MGroup) : List Nat :=
  (List.range g.parts.length).filter fun i => ((g.parts[i]?).map Participant.package) == some s.rack.num

/-- Packages of a group other than this. -/
def peerPackages (s : State) (g : MGroup) : List Nat := ((g.parts.map Participant.package).filter fun n => n != s.rack.num).eraseDups

/-- Lines that complete a round in a window: (participants − 1) × slots × lines (Table 5-5). -/
def expectedLines (s : State) (g : MGroup) : Nat := (g.parts.length - 1) * groupSlots s g * partialCount s g

/-- The landing window of a participant for a round, at its package: the even rounds' windows come first of the two (R175). -/
def landingWindow (g : MGroup) (q round : Nat) : Nat :=
  let before := (List.range q).countP fun i => ((g.parts[i]?).map Participant.package) == (g.parts[q]?).map Participant.package
  groupWindow g.num (2 * before + round % 2)

/-- One collective line (Table 5-4). -/
def collectiveLine (values : List Nat) (round slot participant : Nat) : Line :=
  lineOf (padTo 56 (values.map (leBytes 4)).flatten ++ leBytes 4 round ++ leBytes 2 slot ++ leBytes 1 participant ++ zeros 1)

/-- The lines of a slot's partial. -/
def partialLines (n : Nat) (vals : List Nat) (round slot participant : Nat) : List Line :=
  (List.range n).map fun i => collectiveLine ((vals.drop (14 * i)).take 14) round slot participant

/-- Lines written to a peer's window in runs of at most 64 (R398). -/
def writeLines (cls dest window offset : Nat) (ls : List Line) (s : State) : State :=
  (piecesOf 64 ls.length ls).foldl (fun (acc : Nat × State) run => (acc.1 + run.length, fabricWrite cls dest window acc.1 run acc.2)) (offset, s) |>.2

/-- Whether a landing window accepts a line: its round is the one armed, and its slot and participant agree with the offset (R176). -/
def landFits (s : State) (g : MGroup) (w : Landing) (offset : Nat) (line : Line) : Bool :=
  let slot := field line 60 2
  let part := field line 62 1
  let lines := partialCount s g
  let base := (part * groupSlots s g + slot) * lines
  field line 56 4 == w.round && decide (slot < groupSlots s g) && decide (part < g.parts.length) && decide (base ≤ offset) && decide (offset < base + lines)

/-- A line offered to a landing window: accepted and counted, or discarded and counted as stale (R176). -/
def landLine (s : State) (g : MGroup) (offset : Nat) (line : Line) (w : Landing) : Landing :=
  if landFits s g w offset line then { w with arrived := w.arrived + 1, lines := (w.lines.filter fun e => e.1 != offset) ++ [(offset, line)] }
  else { w with stale := w.stale + 1 }

/-- The event that a complete landing window raises at the cluster control cores of its participant's die: source 14 for even rounds, 15 for odd ones
(R176, Table 18-11). -/
def fireLanding (g : MGroup) (w : Landing) (s : State) : State :=
  match (g.parts[w.part]?).bind fun p => findDie s p.die with
  | none => s
  | some d => forEach (d.logical.filterMap id) (fun pos t => fireSrc { cls := 3, unit := d.num, pos := pos } (if w.odd then 15 else 14) t) s

/-- Lines landed in a window of a participant of this package. -/
def landIn (n q round offset : Nat) (line : Line) (s : State) : State :=
  match findGroup s n with
  | none => s
  | some g =>
    match g.lands.find? fun w => w.part == q && w.odd == decide (round % 2 = 1) with
    | none => s
    | some w =>
      let v := landLine s g offset line w
      let s1 := onGroup n (fun y => { y with lands := y.lands.map fun k => if k.part = q ∧ k.odd = w.odd then v else k }) s
      if w.arrived < v.arrived ∧ v.arrived = expectedLines s g then fireLanding g v s1 else s1

/-- Whether every landing window of this package holds the present round whole (R176). -/
def roundDone (s : State) (g : MGroup) : Bool :=
  (g.lands.filter fun w => w.odd == decide (g.round % 2 = 1)).all fun w => w.round == g.round && decide (expectedLines s g ≤ w.arrived)

/-- The round counter raised, and the windows of the finished round armed for the one after the next (R175, R177). -/
def nextRound (g : MGroup) : MGroup :=
  { g with round := (g.round + 1) % 2 ^ 32
           lands := g.lands.map fun w => if w.odd = decide (g.round % 2 = 1) then { w with round := (g.round + 2) % 2 ^ 32, arrived := 0, lines := [] } else w }

/-- The partial of a participant of this package, the k-th, for a slot and the position that the collective adds; zeros where the slot writes
none. -/
def slotPartial (p : Pour) (base k slot : Nat) : List Nat :=
  match p.works.find? fun w => w.slot == some (base + slot) with
  | none => []
  | some w => if w.barged then [] else (w.parts.getD k []).getD p.turn []

/-- This package's partials of a position written to every other participant: over the fabric, or, to another of this package, over the runners
(R173). -/
def writeCollective (g : MGroup) (s : State) : State :=
  match s.sched.pour with
  | none => s
  | some p =>
    let slots := groupSlots s g
    let n := partialCount s g
    let base := ((findFlask s p.flask).map Flask.first).getD 0
    let send := fun (k q slot dest : Nat) (t : State) =>
      let ls := partialLines n (slotPartial p base k slot) g.round slot q
      let offset := (q * slots + slot) * n
      let package := ((g.parts[dest]?).map Participant.package).getD 0
      if package = t.rack.num then forEach ((List.range n).zip ls) (fun e u => landIn g.num dest g.round (offset + e.1) e.2 u) t
      else writeLines 0 package (landingWindow g dest g.round) offset ls t
    let own := (ownParticipants s g).mapIdx fun k q => (k, q)
    forEach own (fun e t => forEach ((List.range g.parts.length).filter (· != e.2)) (fun dest t =>
      forEach (List.range slots) (fun slot t => send e.1 e.2 slot dest t) t) t) s

/-- A slot's partial of another participant, read out of a landing window. -/
def landedPartial (n slots q slot : Nat) (w : Landing) : List Nat :=
  ((List.range n).map fun i =>
    match w.lines.find? fun e => e.1 == (q * slots + slot) * n + i with
    | some e => (List.range 14).map fun j => field e.2 (4 * j) 4
    | none => []).flatten

/-- The sum of every participant's partial for a slot, in FP32 and in ascending participant number (R173). -/
def slotSum (s : State) (g : MGroup) (p : Pour) (base slot : Nat) : List Nat :=
  let hidden := ((progOf s g.model).map ModelProgram.hidden).getD 0
  let own := ownParticipants s g
  let w := g.lands.find? fun w => w.odd == decide (g.round % 2 = 1)
  let partOf := fun (q : Nat) =>
    match own.findIdx? (· == q) with
    | some k => slotPartial p base k slot
    | none => (w.map (landedPartial (partialCount s g) (groupSlots s g) q slot)).getD []
  let parts := (List.range g.parts.length).map partOf
  (List.range hidden).map fun i => f32Run (parts.map fun v => v.getD i 0)

/-- The round's sums taken by the works of its slots, and the next round. -/
def addTurn (g : MGroup) (s : State) : State :=
  match s.sched.pour with
  | none => s
  | some p =>
    let base := ((findFlask s p.flask).map Flask.first).getD 0
    let take := fun (w : Work) =>
      match w.slot with
      | some n => if w.parts.isEmpty then w else { w with added := w.added ++ [slotSum s g p base (n - base)] }
      | none => w
    onGroup g.num nextRound { s with sched := { s.sched with pour := some { p with works := p.works.map take, turn := p.turn + 1 } } }

/-- Positions whose partials the collectives of a layer still have to add: one collective for each (log entry 193). -/
def turnsLeft (p : Pour) : Nat := (p.works.map fun w => (w.parts.map List.length).foldl max 0).foldl max 0 - p.turn

/-- The collectives of a layer as far as they go: whether the last is done. -/
def runTurns (n : Nat) : Nat → State → Bool × State
  | 0, s => (true, s)
  | k + 1, s =>
    match findGroup s n with
    | none => (true, s)
    | some g =>
      let s1 := writeCollective g s
      match findGroup s1 n with
      | none => (true, s1)
      | some g1 => if roundDone s1 g1 then runTurns n k (addTurn g1 s1) else (false, s1)

/-! ### The end of a layer (R128, R207, R215, R341, R342) -/

/-- Decoder blocks of a pour's model. -/
def layerTotal (s : State) (p : Pour) : Nat := ((progOf s p.model).map fun m => m.decoders.length).getD 0

/-- Whether this package runs the release points of a pour: participant 0 of its group, or no group (R420). -/
def ownsRelease (s : State) (p : Pour) : Bool :=
  match p.group.bind (findGroup s) with | some g => isCounterpart s g | none => true

/-- The works of a group's pour taken on from the sums of its collectives. -/
def finishGroup (s : State) : State :=
  match s.sched.pour with
  | none => s
  | some p =>
    match progOf s p.model with
    | none => s
    | some m =>
      let done := p.works.filter fun w => !w.barged && !w.added.isEmpty
      let s1 : State := { s with sched := { s.sched with pour := some { p with turn := 0 } } }
      forEach done (fun w => finishWork m p.layer w.handle w.added) s1

/-- A layer finished on every cluster, its collective included: its tasks end, and the next layer, a pre-emption taken, or the steps after the last
follow; a participant other than 0 then waits for its release lines. -/
def endLayer (s0 : State) : State :=
  let s := if (s0.sched.pour.bind Pour.group).isSome then finishGroup s0 else s0
  match s.sched.pour with
  | none => s
  | some p =>
    let s1 := clearTasks p.layer s
    let s2 := onModel p.model (fun m => { m with arrived := m.arrived.filter fun b => decide (p.layer < b)
                                                 retried := m.retried.filter fun b => decide (p.layer < b) }) s1
    let q := { p with layer := p.layer + 1, waiting := false }
    if layerTotal s p ≤ q.layer then
      let step := if ownsRelease s p = false then 7 else if p.masksDone then 6 else 5
      { s2 with sched := { s2.sched with pour := some { q with step := step, preempt := none } } }
    else
      let s3 : State := streamBlocks { s2 with sched := { s2.sched with pour := some q } }
      if p.preempt.isSome then suspend s3 else s3

/-- Whether the block of the present layer is in the weight window; where every working slot is masked or at fault no work waits for it
(R143, R207, R209). -/
def blockIn (s : State) (p : Pour) : Bool :=
  match findModel s p.model with
  | none => false
  | some m => ((m.window == 0 || m.arrived.contains p.layer) && !m.again.contains p.layer && !m.again.contains 65535) || (p.works.filter isWorking).all fun w => w.barged || w.fault.isSome

/-- The collectives of a layer of a group's pour, from the position it has come to: the layer ends once the last is done. -/
def goOnGroup (n : Nat) (s : State) : State :=
  let left := (s.sched.pour.map turnsLeft).getD 0
  let r := runTurns n left s
  if r.1 then endLayer r.2
  else { r.2 with sched := { r.2.sched with pour := r.2.sched.pour.map fun q => { q with waiting := true } } }

/-- LAYER_COMPLETE (R128, R173): every cluster has finished the layer; in a model group the partials of an attention layer go out and the layer ends
once its rounds are in. -/
def execLayerComplete (obs : LayerObs) (s : State) : Host.Outcome State Fault Refusal :=
  match s.sched.pour with
  | none => .next s
  | some p =>
    if p.step ≠ 4 ∨ p.rerun ∨ p.waiting ∨ blockIn s p = false then .next s
    else match progOf s p.model with
      | none => .next s
      | some m =>
        let s1 := passTime obs.elapsedUs s
        let s2 := forEach (p.works.filter fun w => (isWorking w || shardWorks s1 w) && !w.barged) (workLayer m p.layer obs) s1
        match p.group.bind (findGroup s2) with
        | none => .next (endLayer s2)
        | some g => .next (goOnGroup g.num s2)

/-! ### Weight windows (R207, R209, R340) -/

/-- The pool that holds the first byte of a block of a model's weights in one of its copies (R209, R217). -/
def poolOfBlock (m : Model) (copy block : Nat) : Nat :=
  let before := (m.program.elim [] fun p => p.tensors.filter fun t => decide (t.block < block)).map TensorEntry.length |>.sum
  let step := fun (acc : Nat × Option Nat) (h : Nat × Nat) => if acc.2.isSome then acc else if before < acc.1 + h.2 then (acc.1 + h.2, some h.1) else (acc.1 + h.2, none)
  ((((m.pools.getD copy (m.pools.headD [])).foldl step (0, none)).2).getD noPool)

/-- A read answered by its pool: the failed reads in a row begin anew (R238). -/
def answered (n : Nat) (s : State) : State :=
  { s with tiers := { s.tiers with pools := s.tiers.pools.map fun q => if q.num = n then { q with missed := 0 } else q } }

/-- WEIGHT_BLOCK_ARRIVED (R207): block b of the pour in flight, read once block b − w has finished, or one read again after an error in T1 (R243); its
stream has ended. -/
def execWeightBlockArrived (model block : Nat) (s0 : State) : Host.Outcome State Fault Refusal :=
  let s := match findModel s0 model with
    | some m => if m.again.contains block then onModel model (fun k => { k with again := k.again.filter (· != block) }) s0 else s0
    | none => s0
  match s.sched.pour, findModel s model with
  | some p, some m =>
    if p.model = model ∧ m.window ≠ 0 ∧ p.step ≤ 4 ∧ p.layer ≤ block ∧ block < p.layer + m.window ∧ block < layerTotal s p ∧ m.arrived.contains block = false then
      .next (endStream (.weights model block) (onModel model (fun k => { k with arrived := k.arrived ++ [block] }) (answered (poolOfBlock m 0 block) s)))
    else .next s
  | _, _ => .next s

/-- WEIGHT_READ_FAILED (R209): the first failure of a block being read is retried, from the second copy when there are two, else once more; a second
one ends every working slot of the pour TIER_FAULT, and the next pour streams afresh. Each counts against the pool it was read from (R238). -/
def execWeightReadFailed (model block : Nat) (s : State) : Host.Outcome State Fault Refusal :=
  match s.sched.pour, findModel s model with
  | some p, some m =>
    if p.model = model ∧ p.step ≤ 4 ∧
        ((m.window ≠ 0 ∧ p.layer ≤ block ∧ block < p.layer + m.window ∧ m.arrived.contains block = false) ∨ m.again.contains block) then
      if m.retried.contains block then
        let mark := fun (w : Work) => if isWorking w ∧ w.fault = none then { w with fault := some .tierFault } else w
        .next (missRead (poolOfBlock m (m.copies - 1) block)
          (endStream (.weights model block) { s with sched := { s.sched with pour := some { p with works := p.works.map mark } } }))
      else .next (missRead (poolOfBlock m 0 block) (onModel model (fun k => { k with retried := k.retried ++ [block] }) s))
    else .next s
  | _, _ => .next s

/-! ### Masks (R299 to R302) -/

/-- Whether a work's chunk ends input queued inside the request (R300). -/
def endsInside (x : Session) (w : Work) : Bool :=
  w.chunk.isSome && (match x.queue.getLast? with | some (.text _ i) => i | some (.frame _ _ _ _ _ _ i) => i | none => false)

/-- A work's mould context and mask; the state before an advance that fails is kept and logged (R299, R300, R302). -/
def maskWork (w : Work) (acc : List Work × State) : List Work × State :=
  let s := acc.2
  let found : Option (Session × Request × ModelProgram × Tokeniser × Mould × MouldCtx) := do
    let x ← findSess s w.handle
    let r ← x.request
    let p ← sessProg s x
    let t ← sessTok s x
    let m ← findKey Mould.number r.mould s.dev.moulds
    let c ← r.ctx
    some (x, r, p, t, m, c)
  if isWorking w && w.samples then
    match found with
    | none => (acc.1 ++ [w], s)
    | some (x, r, p, t, m, c) =>
      let c1 : MouldCtx := if endsInside x w then { state := m.resume } else advanceCtx m t p c
      match c1.failed with
      | some st => (acc.1 ++ [{ w with ctx := some c1, deadend := some st, mask := some [] }], note (leadDie s) r.mould s)
      | none => (acc.1 ++ [{ w with ctx := some c1, mask := some (mouldMask m t p s.free (c1.state, c1.stack)) }], drawFree s)
  else (acc.1 ++ [w], s)

/-- MASKS_READY (R128, R299): step 5 done. -/
def execMasksReady (s : State) : Host.Outcome State Fault Refusal :=
  match s.sched.pour with
  | none => .next s
  | some p =>
    if p.masksDone ∨ p.rerun ∨ 5 < p.step then .next s
    else
      let r := p.works.foldl (fun acc w => maskWork w acc) (([] : List Work), s)
      .next { r.2 with sched := { r.2.sched with pour := some { p with works := r.1, masksDone := true, step := if p.step = 5 then 6 else p.step } } }

/-! ### Fabric writes (R176, R399, R415, R420) -/

/-- A shard entry brought to what participant 0 released (R420). -/
def applyRelease (h : Nat) (line : Line) (s : State) : State :=
  match findSess s h with
  | none => s
  | some x =>
    let tok := field line 0 4
    let p := field line 4 4
    let w := field line 8 4
    let r := field line 12 4
    let pend := if w + 1 = p then some tok else none
    let ids := x.tokens ++ x.pendingTok.toList
    let y := { x with p := p, w := w, pendingTok := pend, tokens := (ids ++ List.replicate (w - ids.length) frameToken).take w }
    let s1 := setSess y s
    if r = 0xFFFFFFFF then
      match sessProg s x with
      | some m => onSess h (cutPages m w) s1
      | none => s1
    else (rewind h r (onSess h (fun z => { z with w := max w r, p := max p r }) s1)).1

/-- Release lines all in: the pour of a participant other than 0 passes its release points (R420). -/
def settleRelease (n : Nat) (s : State) : State :=
  match findGroup s n, s.sched.pour with
  | some g, some p =>
    if p.group = some n ∧ p.step = 7 ∧ ownsRelease s p = false ∧ groupSlots s g ≤ g.release.length then
      let base := ((findFlask s p.flask).map Flask.first).getD 0
      let put := fun (e : Nat × Line) (t : State) =>
        match p.works.find? fun w => w.slot == some (base + e.1) with
        | some w => applyRelease w.handle e.2 t
        | none => t
      let s1 := forEach g.release put s
      onGroup n (fun y => { y with release := [] }) { s1 with sched := { s1.sched with pour := some { p with step := 8 } } }
    else s
  | _, _ => s

/-- A window's line stored. -/
def storeLine (n offset : Nat) (l : Line) (s : State) : State :=
  { s with links := { s.links with windows := s.links.windows.map fun w =>
      if w.num = n then { w with data := (w.data.filter fun d => d.1 != offset) ++ [(offset, l)] } else w } }

/-- The participant and the parity that a landing window of a group is for. -/
def landingOf (g : MGroup) (n : Nat) : Option Landing := g.lands.find? fun w => landingWindow g w.part (if w.odd then 1 else 0) == n

/-- Accepted lines of a write carried out by the window's kind. -/
def landWrite (w : Win) (offset : Nat) (ls : List Line) (s : State) : State :=
  let put := (List.range ls.length).zip ls
  if w.kind = 1 then
    let land := fun (e : Nat × Line) (t : State) =>
      match (findGroup t w.group).bind fun g => landingOf g w.num with
      | some k => landIn w.group k.part (if k.odd then 1 else 0) (offset + e.1) e.2 t
      | none => t
    let s1 := forEach put land s
    match s1.sched.pour, findGroup s1 w.group with
    | some p, some g =>
      if p.waiting ∧ p.group = some w.group ∧ roundDone s1 g then goOnGroup w.group (addTurn g s1) else s1
    | _, _ => s1
  else
    let s1 := forEach put (fun e t => storeLine w.num (offset + e.1) e.2 t) s
    if w.kind = 4 ∧ w.group ≠ 0xFFFF ∧ w.num = releaseWindow w.group then
      let take := fun (e : Nat × Line) (g : MGroup) =>
        { g with release := (g.release.filter fun r => r.1 != field e.2 60 2) ++ [(field e.2 60 2, e.2)] }
      settleRelease w.group (forEach put (fun e t => onGroup w.group (take e) t) s1)
    else s1

/-- A write discarded by the check of R399, counted at its window. -/
def refuseWrite (n : Nat) (s : State) : State :=
  { s with links := { s.links with windows := s.links.windows.map fun w => if w.num = n then { w with refused := w.refused + 1 } else w } }

/-- FABRIC_WRITE_RECEIVED (R399, R415). -/
def execFabricWriteReceived (port : Nat) (h : FabricHdr) (lines : List Line) (s : State) : Host.Outcome State Fault Refusal :=
  match epochSays s h.epoch with
  | .future => .next { s with links := { s.links with held := s.links.held ++ [.fabricWriteReceived port h lines] } }
  | .other => .next (refuseWrite h.window s)
  | .live =>
    match winAllows s h true with
    | none => .next (refuseWrite h.window s)
    | some w => .next (drainAll (landWrite w h.offset (lines.take h.count) s))

end Sys2Proof.Machine
end

