-- ==== Sys2Proof/Machine/Release.lean ====
section
/-! DEFINITION. Steps 6 to 8 of a pour: sampling, the release points, tool calls and stop strings, release lines, and the first actions of the
boundary with the accounting of the pour (R129, R131, R136 to R148, R160, R161, R288 to R294, R301, R338, R351 to R353, R368, R379, R420,
R511). -/

namespace Sys2Proof.Machine

/-! ### Sampling (R293, R294) -/

/-- What step 6 brought for a work. -/
def obsOf (obs : List SampleObs) (w : Work) : Option SampleObs := obs.find? fun o => o.handle == w.handle

/-- Whether a work's candidate is drawn: it samples, stands, and its mask is not empty. -/
def draws (w : Work) : Bool := isWorking w && w.samples && !w.barged && w.fault.isNone && w.mask != some []

/-- The width of the recall head that a tenant's recall tool calls for: its index's (R145, R198). -/
def recallWidth (s : State) (t : Nat) : Nat :=
  match (findTen s t).bind Tenant.recallTool with
  | some r => if r.enabled then ((s.rcl.shards.find? fun h => h.item.index == r.index && h.item.tenant == t).map fun h => 256 * 2 ^ h.item.width).getD 256 else 256
  | none => 256

/-- A work's candidate token and recall code, and whether the choice was a numeric fault: the output head gives the logits from the last position's
vector, and at a tool-close token the recall head its code (R198, R293; log entry 194). -/
def drawWork (s : State) (obs : List SampleObs) (w : Work) : Work × Bool :=
  match obsOf obs w, findSess s w.handle with
  | some o, some x =>
    match x.request, sessProg s x with
    | some r, some p =>
      if draws w then
        let img := (findModel s x.model).elim [] Model.image
        let last := w.acts.getLastD []
        match sample (logitsOf img (sumKey w 4 0) p last) w.mask r.greedy r.temperature r.topP r.topK o.draw with
        | some c => ({ w with cand := some c.1, code := if c.1 = p.toolClose then recallCode img (sumKey w 5 0) p (recallWidth s x.tenant) last else [] }, c.2)
        | none => (w, false)
      else (w, false)
    | _, _ => (w, false)
  | _, _ => (w, false)

/-- A numeric fault counted (R294, R353). -/
def countNumeric (t : Nat) (s : State) : State :=
  onTen t (fun x => { x with counters := { x.counters with numeric := min max64 (x.counters.numeric + 1) } }) s

/-! ### The release point (R137) -/

/-- What the pour wrote released: the pending token's position, then the chunk's (R79, R80, R137). -/
def releaseWritten (w : Work) (x : Session) : Session :=
  let r := takeQueue ((w.chunk.map Chunk.len).getD 0) x.queue
  let p := x.p + (w.chunk.map Chunk.len).getD 0
  let n := (w.chunk.map Chunk.len).getD 0
  let call := match x.call with
    | some (.result k ahead left begun) => some (.result k (ahead - n) (left - (n - ahead)) (begun || decide (ahead < n)))
    | c => c
  { x with tokens := x.tokens ++ x.pendingTok.toList ++ r.1, queue := r.2, queuedAt := if r.2.isEmpty then 0 else x.queuedAt
           frameData := x.frameData.filter fun d => r.2.any fun q => match q with | .frame _ _ _ _ _ o _ => o == d.1 | .text _ _ => false
           p := p, w := p, pendingTok := none, call := call }

/-- One token of a tenant's budget consumed (R131, R336, R338). -/
def consumeBudget (t : Nat) (s : State) : State :=
  match findTen s t with
  | none => s
  | some x => if x.budget = unlimited then s else setBudget t (x.budget - 1) s

/-- A session record of a released token, with the output tokens up to `upTo` delivered (R110, R137, R289). -/
def releaseRecord (h tok : Nat) (flush : Bool) (upTo : Nat) (late held : Bool) (s : State) : State :=
  match findSess s h with
  | none => s
  | some x =>
    match x.request with
    | none => s
    | some r =>
      let text := textBetween flush r.delivered upTo (outOf r)
      onSess h (fun y => { y with request := y.request.map fun q => { q with delivered := max q.delivered upTo } })
        (emitSes true x { tenant := x.tenant, seq := r.seq, handle := h, released := x.p, token := some tok, text := text, late := late
                          noToken := false, heldBack := held } s)

/-- Whether a byte is an ASCII letter or digit. -/
def alphaNum (b : Byte) : Bool :=
  let n := b.toNat
  (decide (48 ≤ n) && decide (n ≤ 57)) || (decide (65 ≤ n) && decide (n ≤ 90)) || (decide (97 ≤ n) && decide (n ≤ 122))

/-- Whether a call text names a recall tool (R145). -/
def namesTool (t : RecallTool) (text : List Byte) : Bool :=
  t.enabled && (text.take t.name.length == t.name) &&
    (match text[t.name.length]? with | some b => !alphaNum b | none => false)

/-- The call text of a request: the output bytes since its tool-open token (R145, R146). -/
def callText (r : Request) : List Byte :=
  match r.callFrom with
  | some k => textBetween true k r.out.length (outOf r)
  | none => []

/-- A tool call numbered and handled on the device or by the host (R145 to R147). -/
def toolCall (h : Nat) (code : List Byte) (s : State) : State :=
  match findSess s h with
  | none => s
  | some x =>
    match x.request with
    | none => s
    | some r =>
      let n := (x.calls + 1) % 2 ^ 32
      let text := callText r
      let open_ := fun (c : Call) (wait : Bool) (y : Session) =>
        { y with calls := n, call := some c, toWait := wait, request := y.request.map fun q => { q with callFrom := none } }
      match (findTen s x.tenant).bind Tenant.recallTool with
      | some t =>
        if namesTool t text then startOnDevice h n t code (onSess h (open_ (.onDevice n s.rcl.nextQ) false) s)
        else emitOut true x { outcome := .toolCall, seq := r.seq, opcode := 4, length := x.p, d0 := n, d1 := text.length, clientTag := r.clientTag }
          (onSess h (open_ (.host n) true) s)
      | none => emitOut true x { outcome := .toolCall, seq := r.seq, opcode := 4, length := x.p, d0 := n, d1 := text.length, clientTag := r.clientTag }
          (onSess h (open_ (.host n) true) s)

/-- A token released (R137 from "t = candidate token" on). -/
def releaseToken (w : Work) (tok : Nat) (s : State) : State :=
  match findSess s w.handle with
  | none => s
  | some x =>
    match x.request, sessProg s x, sessTok s x with
    | some r, some p, some t =>
      let out := r.out ++ [(x.p, outBytes t p tok)]
      let r1 := { r with count := r.count + 1, out := out
                         ctx := w.ctx.map fun c => { c with advance := some tok, failed := none }
                         callFrom := if tok = p.toolOpen then some out.length else r.callFrom }
      let y := { x with p := x.p + 1, pendingTok := some tok, request := some r1 }
      let s1 := onWork w.handle (fun v => { v with consumed := true }) (consumeBudget x.tenant (setSess y s))
      let bytes := out.map Prod.snd
      let late := r.dclass == 1 && r.allowance == 0
      let close := tok == p.toolClose
      let ended := tok == p.endToken0 || tok == p.endToken1
      let full := r1.count == r.maxTokens || y.p == maxPositions
      let found := match stopMatch r.stops bytes with
        | some j => some j
        | none => if close then stopMatchFlush r.stops bytes else none
      let h := w.handle
      match found with
      | some j =>
        let pos := ((out[j]?).map Prod.fst).getD x.p
        let s2 := releaseRecord h tok true j late false s1
        endRequest true h .stopped none false 0 0 (rewind h pos s2).1
      | none =>
        if ended then endRequest true h .done none false 0 0 (releaseRecord h tok true out.length late false s1)
        else if full then endRequest true h .length none false 0 0 (releaseRecord h tok true out.length late false s1)
        else if close then toolCall h w.code (releaseRecord h tok true out.length late false s1)
        else
          let waiting := x.asks.any fun a => a.opcode == 6 || a.opcode == 8 || a.opcode == 9
          if waiting then releaseRecord h tok true out.length late false s1
          else
            let upTo := heldFrom r.stops r.delivered bytes
            releaseRecord h tok false upTo late (anyHeld upTo bytes) s1
    | _, _, _ => s

/-- The release point of one work (R137, R138, R140). -/
def releasePoint (w : Work) (s : State) : State :=
  if isWorking w = false then s
  else match findSess s w.handle with
    | none => s
    | some x =>
      let s0 := onWork w.handle (fun v => { v with sess0 := some x }) s
      if w.barged then s0
      else match w.fault with
        | some o => endRequest true w.handle o none true 0 0 (discardWork w s0)
        | none =>
          let s1 := arm w.handle (seat w.handle (onSess w.handle (releaseWritten w) s0))
          if w.samples = false then s1
          else match x.request with
            | none => s1
            | some r =>
              let p := x.p + (w.chunk.map Chunk.len).getD 0
              if r.dclass = 2 ∧ r.allowance = 0 ∧ r.paused = false then endRequest true w.handle .deadline none true 0 0 s1
              else if p = maxPositions then endRequest true w.handle .length none true 0 0 s1
              else if w.mask = some [] then
                endRequest true w.handle .grammarDeadend none true (w.deadend.getD ((w.ctx.map MouldCtx.state).getD 0)) r.mould s1
              else match w.cand with
                | none => s1
                | some tok => releaseToken w tok s1

/-- The release line of a roster slot: token, P, W and the rewind result (R420). -/
def releaseLine (s : State) (g : MGroup) (slot : Nat) (w : Work) : Line :=
  match findSess s w.handle with
  | none => collectiveLine [] g.round slot 0
  | some x =>
    let base := w.p0 + (w.chunk.map Chunk.len).getD 0
    let tok := if w.consumed then w.cand.getD 0xFFFFFFFF else 0xFFFFFFFF
    collectiveLine [tok, x.p, x.w, if x.p < base ∨ w.barged then x.p else 0xFFFFFFFF] g.round slot 0

/-- Release lines written by participant 0 to every other participant (R420). -/
def writeReleases (s : State) : State :=
  match s.sched.pour with
  | none => s
  | some p =>
    match p.group.bind (findGroup s) with
    | none => s
    | some g =>
      let base := ((findFlask s p.flask).map Flask.first).getD 0
      let slots := p.works.filter fun w => w.slot.isSome
      forEach (peerPackages s g) (fun dest t =>
        forEach slots (fun w t =>
          let k := w.slot.getD 0 - base
          fabricWrite 0 dest (releaseWindow g.num) k [releaseLine s g k w] t) t) s

/-- SAMPLING_DONE (R128, R136, R137, R293): a candidate for every sampling slot, then every release point in ascending slot number. -/
def execSamplingDone (obs : List SampleObs) (s : State) : Host.Outcome State Fault Refusal :=
  match s.sched.pour with
  | none => .next s
  | some p =>
    if p.step ≠ 6 ∨ p.rerun ∨ (p.works.any fun w => draws w && (obsOf obs w).isNone) then .next s
    else
      let drawn := p.works.map (drawWork s obs)
      let s1 : State := { s with sched := { s.sched with pour := some { p with works := drawn.map Prod.fst, step := 7 } } }
      let s2 := forEach (drawn.filter Prod.snd) (fun d t => countNumeric d.1.tenant t) s1
      let s3 := forEach (drawn.map Prod.fst) releasePoint s2
      let s4 := writeReleases s3
      .next { s4 with sched := { s4.sched with pour := s4.sched.pour.map fun q => { q with step := 8 } } }

/-! ### Moves decided at release points (R129, action 2; R146, R161) -/

/-- Every cache entry of a session released (R161). -/
def dropCache (x : Session) : Session :=
  { x with pages := x.pages.map fun g => if g.cond = .cast then { g with inT1 := false, frame := noFrame, unselected := 0, selected := false } else g }

/-- A session moved to WAITING_TOOL: its cache released, its deadline paused, its wait allowance started (R139, R146). -/
def moveToWait (h : Nat) (s : State) : State :=
  arm h (onSess h (fun x =>
    if x.toWait && x.op.isNone && (x.state == .opened || x.state == .active) then
      { dropCache x with state := .waitingTool, toWait := false, request := x.request.map fun r => { r with paused := true } }
    else x) s)

/-- Sessions pressed for demotion that no suspended pour works (R230). -/
def demotePressed (s : State) : State :=
  let kept := fun (h : Nat) => s.sched.suspended.any fun p => p.works.any fun w => w.handle == h && isWorking w
  let go := s.tiers.pressed.filter fun h => !kept h
  forEach go (startDemotion true) { s with tiers := { s.tiers with pressed := s.tiers.pressed.filter kept } }

/-! ### The selection cache (R160) -/

/-- A page's cache entry at the boundary of its flask: the count cleared or raised, the entry released at the linger; pinned entries keep no
count. -/
def lingerPage (x : Session) (linger : Nat) (g : Page) : Page :=
  if g.cond = .cast ∧ g.inT1 then
    if (x.state == .opened || x.state == .active) && pinned x g.layer g.row then { g with selected := false }
    else if g.selected then { g with selected := false, unselected := 0 }
    else if linger ≤ g.unselected + 1 then { g with inT1 := false, frame := noFrame, unselected := 0 }
    else { g with unselected := g.unselected + 1 }
  else { g with selected := false }

/-- The cache entries of a flask's sessions, and of those with no slot that its pour worked, at its boundary, by the setting the pour was planned
with (R157, R160). -/
def lingerFlask (p : Pour) (s : State) : State :=
  { s with sess := s.sess.map fun x =>
      if (flaskOf s x).map Flask.num = some p.flask || p.works.any (fun w => w.handle == x.handle) then
        { x with pages := x.pages.map (lingerPage x (settingOf s p x.tenant).2) }
      else x }

/-! ### Accounting (R351 to R353, R379) -/

/-- A share `k` of `n` parts of a figure. -/
def part (k n v : Nat) : Nat := if n = 0 then 0 else v * k / n

/-- A share of a die's work. -/
def useShare (k n : Nat) (u : Use) : Use :=
  { tensorNs := part k n u.tensorNs, attnNs := part k n u.attnNs, patternNs := part k n u.patternNs, textNs := part k n u.textNs
    mouldNs := part k n u.mouldNs, recallNs := part k n u.recallNs, storeNs := part k n u.storeNs, t1Read := part k n u.t1Read
    t1Written := part k n u.t1Written, t2Read := part k n u.t2Read, t2Written := part k n u.t2Written, t3Read := part k n u.t3Read
    t3Written := part k n u.t3Written, hRead := part k n u.hRead, hWritten := part k n u.hWritten, runner := part k n u.runner
    fabricSent := part k n u.fabricSent, fabricRecv := part k n u.fabricRecv, hostLink := part k n u.hostLink }

/-- Engine time, T1 bytes, T2 and fabric bytes, and host-link and T3 bytes of a use: what energy is divided by (R379). -/
def useTime (u : Use) : Nat := u.tensorNs + u.attnNs + u.patternNs + u.textNs + u.mouldNs + u.recallNs + u.storeNs
def useT1 (u : Use) : Nat := u.t1Read + u.t1Written
def useT2 (u : Use) : Nat := u.t2Read + u.t2Written + u.fabricSent + u.fabricRecv
def useIo (u : Use) : Nat := u.hostLink + u.t3Read + u.t3Written

/-- A saturating addition of counters (R351). -/
def satAdd (a b : Nat) : Nat := min max64 (a + b)

/-- A die's work added to a tenant's counters. -/
def addUse (u : Use) (c : Counters) : Counters :=
  { c with tensorTime := satAdd c.tensorTime u.tensorNs, attnTime := satAdd c.attnTime u.attnNs
           patternTime := satAdd c.patternTime u.patternNs, textTime := satAdd c.textTime u.textNs, mouldTime := satAdd c.mouldTime u.mouldNs
           recallTime := satAdd c.recallTime u.recallNs, storeTime := satAdd c.storeTime u.storeNs, t1Read := satAdd c.t1Read u.t1Read
           t1Written := satAdd c.t1Written u.t1Written, t2Read := satAdd c.t2Read u.t2Read, t2Written := satAdd c.t2Written u.t2Written
           t3Read := satAdd c.t3Read u.t3Read, t3Written := satAdd c.t3Written u.t3Written, hRead := satAdd c.hRead u.hRead
           hWritten := satAdd c.hWritten u.hWritten, runner := satAdd c.runner u.runner, fabricSent := satAdd c.fabricSent u.fabricSent
           fabricRecv := satAdd c.fabricRecv u.fabricRecv, hostLink := satAdd c.hostLink u.hostLink }

/-- Positions a tenant's slots and chunks carried in a pour (R352). -/
def carriedBy (t : Nat) (ws : List Work) : Nat := ((ws.filter fun w => w.tenant == t).map writes).sum

/-- A tenant's work of a pour, die by die: its own, and its share of what the pour's slots shared (R352). -/
def tenantUses (obs : BoundaryObs) (ws : List Work) (t : Nat) : List (Nat × Use) :=
  let all := (ws.map writes).sum
  (obs.own.filter fun o => o.1 == t).map Prod.snd ++ obs.shared.map fun o => (o.1, useShare (carriedBy t ws) all o.2)

/-- Millijoules that the sensors of one rail integrated since the last boundary (R362). -/
def railMj (obs : BoundaryObs) (rail : Nat) : Nat :=
  ((obs.sensed.filter fun e => e.2.1 == rail).map fun e => e.2.2).sum / 1000

/-- Millijoules that a die's core rail delivered since the last boundary (R362). -/
def coreMj (obs : BoundaryObs) (die : Nat) : Nat :=
  ((obs.sensed.filter fun e => e.1 == die && e.2.1 == 0).map fun e => e.2.2).sum / 1000

/-- A sensor's count moved on by what it integrated, and read at `ns` of its die's meter (R362). -/
def addEnergy (die rail uj ns : Nat) (cs : List EnergyCount) : List EnergyCount :=
  match cs.find? fun c => c.die == die && c.rail == rail with
  | none => cs ++ [{ die := die, rail := rail, uj := uj % 2 ^ 64, ns := ns }]
  | some _ => cs.map fun c => if c.die = die ∧ c.rail = rail then { c with uj := (c.uj + uj) % 2 ^ 64, ns := ns } else c

/-- The sensors of every fitted die read (R362). -/
def readSensors (obs : BoundaryObs) (s : State) : State :=
  let add := fun (cs : List EnergyCount) (e : Nat × Nat × Nat) =>
    if (diesFitted s.part).contains e.1 ∧ e.2.1 ≤ 5 then addEnergy e.1 e.2.1 e.2.2 (meterNs s e.1) cs else cs
  { s with ledger := { s.ledger with counts := obs.sensed.foldl add s.ledger.counts } }

/-- The package's energy in microjoules: the sum of every die's counts (R362). -/
def packageEnergy (s : State) : Nat := (s.ledger.counts.map EnergyCount.uj).sum

/-- Millijoules of a tenant (R379). -/
def tenantMj (obs : BoundaryObs) (tenants : List Nat) (ws : List Work) (t : Nat) : Nat :=
  let uses := tenantUses obs ws t
  let everyone := (tenants.map (tenantUses obs ws)).flatten
  let share := fun (mj : Nat) (f : Use → Nat) => part ((uses.map fun u => f u.2).sum) ((everyone.map fun u => f u.2).sum) mj
  let die := fun (d mj : Nat) =>
    part (((uses.filter fun u => u.1 == d).map fun u => useTime u.2).sum) (((everyone.filter fun u => u.1 == d).map fun u => useTime u.2).sum) mj
  ((List.range 8).map fun d => die d (coreMj obs d)).sum + share (railMj obs 2) useT1 + share (railMj obs 3) useT2 + share (railMj obs 4) useIo

/-- What a pour adds to a tenant's counters (Table 11-6). -/
def accountTenant (obs : BoundaryObs) (tenants : List Nat) (ws : List Work) (x : Tenant) : Tenant :=
  let mine := ws.filter fun w => w.tenant == x.id
  let c := (tenantUses obs ws x.id).foldl (fun c u => addUse u.2 c) x.counters
  let done := mine.filter fun w => !w.barged && w.fault.isNone
  { x with counters := { c with energy := satAdd c.energy (tenantMj obs tenants ws x.id)
                                tokens := satAdd c.tokens (mine.countP fun w => w.consumed)
                                prefill := satAdd c.prefill ((done.map fun w => (w.chunk.map Chunk.len).getD 0).sum)
                                budgetIdle := satAdd c.budgetIdle (mine.countP fun w => w.cls == .idleBudget) } }

/-- The pour's work and energy divided among tenants; what serves none is unattributed (R379). -/
def account (obs : BoundaryObs) (ws : List Work) (s : State) : State :=
  let ids := s.tens.map Tenant.id
  let given := (ids.map (tenantMj obs ids ws)).sum
  let total := ((List.range 8).map (coreMj obs)).sum + ((List.range 5).map fun r => railMj obs (r + 1)).sum
  { s with tens := s.tens.map (accountTenant obs ids ws)
           ledger := { s.ledger with unattributed := satAdd s.ledger.unattributed (total - given) } }

/-! ### Step 8 -/

/-- What a pour leaves on its sessions for the victim order: when they worked, and whether their slot was idle (Table 7-7). -/
def markWorked (p : Pour) (s : State) : State :=
  forEach (p.works.filter fun w => w.handle != 0) (fun w t => onSess w.handle (fun x =>
    if isWorking w then { x with lastWorked := p.number, lastIdle := false } else { x with lastIdle := true }) t) s

/-- On-device calls committed at the boundary of the pour that released the first position of their result (Table 4-6). -/
def commitCalls (p : Pour) (s : State) : State :=
  forEach (p.works.map Work.handle) (fun h => onSess h (fun x =>
    match x.call with | some (.result _ _ _ true) => { x with call := none } | _ => x)) s

/-- Actions 1 to 3 of the boundary of a pour, and what is measured there (R129). -/
def boundaryActions (obs : BoundaryObs) (p : Pour) (s : State) : State :=
  let s1 := commitCalls p (applyAsks true (some p.flask) s)
  let s2 := forEach ((s1.sess.filter fun x => x.toWait && (flaskOf s1 x).map Flask.num == some p.flask).map Session.handle) moveToWait s1
  let s3 := demotePressed (settleSlotted p.flask (freeAllSpent s2))
  let s4 := endFailedCalls true (forEach ((s3.sess.filter Session.revivalLate).map Session.handle) (endLate true) s3)
  let s5 := freeAllSpent (checkDeadlines true ((p.works.filter fun w => w.samples && !w.barged).map Work.handle) s4)
  let s6 := account obs p.works (readSensors obs (lingerFlask p (markWorked p s5)))
  let read := (obs.rates.mapIdx fun d r => (d, r)).filter fun r => (liveScs s6).contains r.1
  forEach read (fun r t => calibrate r.1 r.2 t) s6

/-- RELEASE_MIRROR_ACK (R129, R511): the mirror acknowledged, or none needed, step 8 runs: the boundary's first actions, then every tap
block. -/
def execReleaseMirrorAck (obs : BoundaryObs) (s : State) : Host.Outcome State Fault Refusal :=
  match s.sched.pour with
  | none => .next s
  | some p =>
    if p.step ≠ 8 then .next s
    else
      let s1 := boundaryActions obs p (mirrorTaken (passTime obs.elapsedUs s))
      let s2 := writePourBlocks p.flask p.number s1
      .next (drainAll { s2 with sched := { s2.sched with pour := s2.sched.pour.map fun q => { q with step := 9 } } })

end Sys2Proof.Machine
end

