-- ==== Sys2Proof/Machine/Clusters.lean ====
section
/-! DEFINITION. Clusters that fail, rotate and are tested; uncorrectable HBM errors; gate lists that take over (R25 to R28, R242, R243, R359,
R538, R539). -/

namespace Sys2Proof.Machine

/-- The physical position behind a logical cluster of a die. -/
def positionOf (s : State) (die cluster : Nat) : Option Nat :=
  ((findDie s die).bind fun d => d.logical[cluster]?).join

/-- Pours of flasks whose partition has no enabled cluster left: they are not planned again, and what waited for their boundary is taken up
as with no pour in flight (R28). -/
def dropUnserved (s : State) : State :=
  let dead := fun (p : Pour) => (findFlask s p.flask).any fun f => !flaskServes s f
  let gone := (s.sched.pour.toList ++ s.sched.suspended).filter dead
  if gone.isEmpty then s
  else
    let s1 := forEach (s.sched.suspended.filter dead) (fun p t => holdFetches false p (forEach (p.works.filter fun w => isWorking w && !w.barged) discardWork t)) s
    freeAllSpent (applyAsks false none { s1 with sched := { s1.sched with pour := s1.sched.pour.filter fun p => !dead p
                                                                          suspended := s1.sched.suspended.filter fun p => !dead p } })

/-- The pour in flight before its release points set to run again with its number: every slot's work discarded (R27). -/
def rerunPour (s : State) : State :=
  match s.sched.pour with
  | none => s
  | some p =>
    if 7 < p.step then s
    else
      let s1 := forEach (p.works.filter fun w => isWorking w && !w.barged) discardWork s
      let q : Pour := { p with rerun := true, step := 1, layer := 0, works := [], masksDone := false, waiting := false, preempt := none }
      { s1 with sched := { s1.sched with pour := some q } }

/-- A logical cluster that fails: the die's spare takes its number, or, with no spare, the number is left empty and the package is degraded
(R27, R28). -/
def loseCluster (die cluster : Nat) (s : State) : State :=
  match findDie s die, positionOf s die cluster with
  | some d, some pos =>
    match d.spare with
    | some sp => onDie die (fun d => { d with logical := d.logical.set cluster (some sp), spare := none, order := d.order.filter (· != pos) }) s
    | none => healthEvent die (die * 16 + cluster)
        (onDie die (fun d => { d with logical := d.logical.set cluster none, order := d.order.filter (· != pos) }) s)
  | _, _ => s

/-- CLUSTER_FAULT (R27, R28). -/
def execClusterFault (die cluster : Nat) (s : State) : Host.Outcome State Fault Refusal :=
  if decide (die < scCount s.part) && (positionOf s die cluster).isSome then .next (drainAll (dropUnserved (rerunPour (loseCluster die cluster s)))) else .next s

/-- Whether a pour boundary stands: no pour in flight, or its blocks written and its barrier to come. -/
def atBoundary (s : State) : Bool := match s.sched.pour with | none => true | some p => p.step == 9

/-- ROTATION_START (R538, R539): the enabled cluster tested least recently leaves and the spare takes its number. -/
def execRotationStart (die : Nat) (s : State) : Host.Outcome State Fault Refusal :=
  match findDie s die with
  | none => .next s
  | some d =>
    match d.spare, d.order.find? fun pos => d.logical.contains (some pos) with
    | some sp, some pos =>
      if s.dev.code = .ready ∧ s.sched.suspended = [] ∧ atBoundary s ∧ d.stopped = false ∧ d.testing = none ∧ die < scCount s.part then
        .next (onDie die (fun d => { d with logical := d.logical.map fun p => if p = some pos then some sp else p, spare := none, testing := some pos }) s)
      else .next s
    | _, _ => .next s

/-- ROTATION_TEST_END (R538, Table 19-6, step 5). -/
def execRotationTestEnd (die : Nat) (passed : Bool) (s : State) : Host.Outcome State Fault Refusal :=
  match (findDie s die).bind ScDie.testing with
  | none => .next s
  | some pos =>
    if passed then .next (onDie die (fun d => { d with spare := some pos, testing := none, order := d.order.filter (· != pos) ++ [pos] }) s)
    else .next (healthEvent die (die * 16 + pos)
      (onDie die (fun d => { d with testing := none, stopped := true, order := d.order.filter (· != pos) }) s))

/-- A test under way abandoned by a stop notice or a reset: its cluster counts as the spare, untested (R539). -/
def abandonTests (s : State) : State :=
  { s with dies := s.dies.map fun d => match d.testing with | some pos => { d with spare := some pos, testing := none } | none => d }

/-- HBM_UNCORRECTABLE (R242, R243, Table 7-11): the line's region is retired; an error in a cluster's T0 is a cluster fault. -/
def execHbmUncorrectable (stack region : Nat) (held : LineHeld) (s : State) : Host.Outcome State Fault Refusal :=
  match held with
  | .t0 die cluster => if stack / 6 < scCount s.part then execClusterFault die cluster s else .next s
  | _ => if stack / 6 < scCount s.part then .next (drainAll (lineLost held (retireRegion stack region s))) else .next s

/-- GATE_LIST_TAKEOVER (R359): the entry in progress done, the list staged for a pour number that has been issued starts at entry 0. -/
def execGateListTakeover (port : Nat) (s : State) : Host.Outcome State Fault Refusal :=
  match (findPort s port).bind Port.gateDue with
  | none => .next s
  | some g => if g.1 < s.sched.next then .next (onPort port (fun p => { p with gates := g.2, gateDue := none, takeover := p.bytes, entry := 0, used := 0 }) s) else .next s

end Sys2Proof.Machine
end

