-- ==== Sys2Proof/Machine/Sha3.lean ====
section
/-! DEFINITION. SHA3-512, as FIPS 202 defines it, and the keys that the device secret seeds (R464, R466, R472, R476). -/

namespace Sys2Proof.Machine

/-! ### Keccak-f[1600]: 25 lanes of 64 bits, lane x + 5y at row y and column x -/

/-- A lane, wrapping in both coordinates. -/
def lane (a : List (BitVec 64)) (x y : Nat) : BitVec 64 := a.getD (x % 5 + 5 * (y % 5)) 0

/-- The rotation of each lane. -/
def keccakRots : List Nat :=
  [0, 1, 62, 28, 27, 36, 44, 6, 55, 20, 3, 10, 43, 25, 39, 41, 45, 15, 21, 8, 18, 2, 61, 56, 14]

/-- The constant of each round. -/
def keccakConsts : List (BitVec 64) :=
  [0x0000000000000001, 0x0000000000008082, 0x800000000000808A, 0x8000000080008000, 0x000000000000808B, 0x0000000080000001,
   0x8000000080008081, 0x8000000000008009, 0x000000000000008A, 0x0000000000000088, 0x0000000080008009, 0x000000008000000A,
   0x000000008000808B, 0x800000000000008B, 0x8000000000008089, 0x8000000000008003, 0x8000000000008002, 0x8000000000000080,
   0x000000000000800A, 0x800000008000000A, 0x8000000080008081, 0x8000000000008080, 0x0000000080000001, 0x8000000080008008]

/-- A function of row and column over all lanes. -/
def lanes (f : Nat → Nat → BitVec 64) : List (BitVec 64) := (List.range 25).map fun i => f (i % 5) (i / 5)

/-- Every lane with the parities of two columns added. -/
def keccakTheta (a : List (BitVec 64)) : List (BitVec 64) :=
  let c := (List.range 5).map fun x => lane a x 0 ^^^ lane a x 1 ^^^ lane a x 2 ^^^ lane a x 3 ^^^ lane a x 4
  lanes fun x y => lane a x y ^^^ c.getD ((x + 4) % 5) 0 ^^^ (c.getD ((x + 1) % 5) 0).rotateLeft 1

/-- The lanes rotated, and moved to their places. -/
def keccakRhoPi (a : List (BitVec 64)) : List (BitVec 64) :=
  lanes fun x y => (lane a (x + 3 * y) x).rotateLeft (keccakRots.getD ((x + 3 * y) % 5 + 5 * x) 0)

/-- The step that is not linear. -/
def keccakChi (a : List (BitVec 64)) : List (BitVec 64) := lanes fun x y => lane a x y ^^^ (~~~(lane a (x + 1) y) &&& lane a (x + 2) y)

/-- A round. -/
def keccakRound (a : List (BitVec 64)) (k : BitVec 64) : List (BitVec 64) := (keccakChi (keccakRhoPi (keccakTheta a))).modify 0 (· ^^^ k)

/-- The permutation. -/
def keccakF (a : List (BitVec 64)) : List (BitVec 64) := keccakConsts.foldl keccakRound a

/-! ### The sponge -/

/-- A block of 72 bytes added to the state. -/
def absorb (a : List (BitVec 64)) (b : List Byte) : List (BitVec 64) :=
  keccakF (a.mapIdx fun i v => if i < 9 then v ^^^ BitVec.ofNat 64 (leNat ((b.drop (8 * i)).take 8)) else v)

/-- Blocks absorbed, so many. -/
def absorbAll : Nat → List Byte → List (BitVec 64) → List (BitVec 64)
  | 0, _, a => a
  | n + 1, bs, a => absorbAll n (bs.drop 72) (absorb a (bs.take 72))

/-- SHA3-512: 64 bytes. -/
def sha3 (bs : List Byte) : List Byte :=
  let n := bs.length / 72 + 1
  let padded := (padTo (72 * n) (bs ++ [0x06])).modify (72 * n - 1) (· ||| 0x80)
  ((absorbAll n padded (List.replicate 25 0)).take 8).flatMap fun v => leBytes 8 v.toNat

/-! ### Keys (Table 16-6) -/

/-- The 32 bytes that the identity key is generated from. -/
def identitySeed : List Byte := (sha3 ([0x49, 0x44, 0x45, 0x4E] ++ Config.deviceSecret)).take 32

/-- The bytes d and z that the key-import key is generated from. -/
def importSeed : List Byte := sha3 ([0x4B, 0x49, 0x4D, 0x50] ++ Config.deviceSecret)

/-- The 8-byte check value of a tenant key (R466). -/
def keyCheck (key : Nat) : Nat := leNat ((sha3 ([0x54, 0x53, 0x4E, 0x4B] ++ leBytes 64 key)).take 8)

end Sys2Proof.Machine
end

