-- ==== Sys2Proof/Machine/Apply.lean ====
section
/-! DEFINITION. What a committed item does to the state (Table 17-9): flasks and rosters, models, placements, H regions, indexes, tenants,
partitions, port roles, shapers, gate lists and tenant settings (R121 to R124, R203, R224, R233, R309, R359, R394, R458, R460, R494). -/

namespace Sys2Proof.Machine

/-! ### Flasks and rosters (R121, R122, R124) -/

/-- A flask created, changed or deleted (R121). -/
def applyFlask (b : FlaskItem) (s : State) : State :=
  let rest := eraseKey Flask.num b.flask s.sched.flasks
  let old := (findFlask s b.flask).getD { num := b.flask }
  let new : Flask :=
    { old with priority := b.priority, model := b.model, first := b.firstSlot, count := b.slotCount, budgetUs := b.pourBudget
               partition := b.partition, roster := (old.roster ++ List.replicate b.slotCount 0).take b.slotCount }
  { s with sched := { s.sched with flasks := if b.slotCount = 0 then rest else sortBy Flask.num (rest ++ [new]) } }

/-- Roster entries replaced (R122). -/
def applyRoster (b : RosterItem) (s : State) : State :=
  onFlask b.flask (fun f =>
    { f with roster := f.roster.mapIdx fun i h => if b.firstIndex ≤ i then b.handles.getD (i - b.firstIndex) h else h }) s

/-- The package slot number of a session by the rosters (R122). -/
def rosterSlot (s : State) (h : Nat) : Option Nat :=
  s.sched.flasks.findSome? fun f => (f.roster.findIdx? (· == h)).map (f.first + ·)

/-- A session's state with its slot: OPEN and ACTIVE differ only in that (Table 2-4). -/
def slottedState (slot : Option Nat) (st : SState) : SState :=
  match st, slot with
  | .opened, some _ => .active
  | .active, none => .opened
  | x, _ => x

/-- This package's participant of a model's live group, where it is not participant 0 (R420). -/
def shardPart (s : State) (model : Nat) : Option (MGroup × Participant) :=
  match s.rack.groups.find? (fun g => g.model == model && !g.torn) with
  | none => none
  | some g =>
    if isCounterpart s g then none
    else (g.parts.find? fun p => p.package == s.rack.num).map fun p => (g, p)

/-- Shard entries made for the handles that a roster of a group's flask names and the package does not hold (R420; log entry 70). -/
def addShards (s : State) : State :=
  forEach s.sched.flasks (fun f t =>
    match shardPart t f.model with
    | none => t
    | some g =>
      forEach (f.roster.filter fun h => h != 0 && (findSess t h).isNone) (fun h u =>
        addSess { handle := h, tenant := 0, model := f.model, state := .active, homeDie := g.2.die, shardOf := some g.1.num
                  heads := (ownHeads u f.model).map Prod.snd } u) t) s

/-- Every session's slot and state as the rosters stand after a commit (R124). -/
def reslot (s : State) : State :=
  let t := addShards s
  { t with sess := t.sess.map fun x =>
      let n := rosterSlot t x.handle
      { x with slot := n, state := slottedState n x.state, before := x.before.map (slottedState n)
               restored := x.restored && slottedState n x.state == x.state } }

/-! ### Models, placements, H regions, indexes -/

/-- A bind committed: BINDING, with space for each copy of its weights, or waiting for it (R205, R224, R225). -/
def applyBind (b : BindItem) (s : State) : State :=
  let m : Model := { num := b.model, partition := b.partition, window := b.window, copies := b.copies, program := bindProgram b
                     image := b.image.getD []
                     programDigest := match bindProgram b with | some p => sha3 ((b.image.getD []).take p.programLength) | none => [] }
  placeWeights b.model { s with models := upsert Model.num m s.models }

/-- An unbind committed: the model's window and extents go at once (R206). -/
def applyUnbind (n : Nat) (s : State) : State := { s with models := eraseKey Model.num n s.models }

/-- A late threshold of 0 selects 200 µs (R224). -/
def lateUs (n : Nat) : Nat := if n = 0 then 200 else n

/-- A placement committed (R224, R225). -/
def applyPlacement (b : PlacementItem) (s : State) : State :=
  let p : Placement := { kind := b.kind, partition := b.partition, owner := b.owner, index := b.index, pools := b.pools
                         residentT1 := b.residentT1, spillH := b.spillH, lateFirst := lateUs b.lateFirst, lateSecond := lateUs b.lateSecond }
  let rest := s.tiers.placements.filter fun q => !(q.kind == p.kind && q.partition == p.partition && q.owner == p.owner && q.index == p.index)
  { s with tiers := { s.tiers with placements := rest ++ [p] } }

/-- An H region set, or its removal begun: it completes once every copy in the part removed has moved to T2 (R233). -/
def applySpill (b : SpillItem) (s : State) : State :=
  let old := s.tiers.hRegions.find? fun r => r.partition == b.partition && r.link == b.link
  let rest := s.tiers.hRegions.filter fun r => !(r.partition == b.partition && r.link == b.link)
  let put := fun (r : HRegion) => settleRemoval { s with tiers := { s.tiers with hRegions := rest ++ [r] } }
  match old with
  | none => if b.length = 0 then s else put { partition := b.partition, link := b.link, address := b.address, length := b.length }
  | some r =>
    if b.length < r.length then put { r with address := if b.length = 0 then r.address else b.address, removing := some b.length }
    else put { r with address := b.address, length := b.length, failed := false }

/-- The fields of a shard that can change while it stands (R309). -/
def shardChanged (o n : IndexItem) : IndexItem :=
  { o with breadth := n.breadth, buildBreadth := n.buildBreadth, visitLimit := n.visitLimit, repairPct := n.repairPct }

/-- A shard created, changed, or its deletion committed (R309, R311). -/
def applyIndex (b : IndexItem) (s : State) : State :=
  match findShard s b.index b.shardNumber with
  | none => if b.capacity = 0 then s else { s with rcl := { s.rcl with shards := s.rcl.shards ++ [{ item := b }] } }
  | some _ =>
    onShard b.index b.shardNumber (fun h => if b.capacity = 0 then { h with deleting := true } else { h with item := shardChanged h.item b }) s

/-! ### Tenants and partitions (R458, R460, R464, R466) -/

/-- A tenant's key in the health record. -/
def keyOf (s : State) (t : Nat) : Option Nat :=
  (hrGoverning s.nor).bind fun r => (r.keys.find? fun k => k.tenant == t && !k.retired).bind KeyEntry.key

/-- A tenant created with its key: from its capsule, else drawn, else at a start from the health record (R464, R466, R505). -/
def createTenant (atStart : Bool) (b : TenantItem) (s : State) : State :=
  let drawn := (b.capsule.map Prod.snd).getD (Config.drbgKey s.free)
  let key := if atStart then keyOf s b.tenant else some drawn
  let t : Tenant := { id := b.tenant, partition := b.partition, link0 := b.link0, link1 := b.link1, label := b.label, key := key }
  let s1 : State := { s with tens := s.tens ++ [t], free := s.free + 1 }
  if atStart then s1
  else hrRewrite (fun r => { r with keys := upsert KeyEntry.tenant { tenant := b.tenant, check := keyCheck drawn, label := b.label, key := some drawn } r.keys }) s1

/-- A tenant item: a retirement marks the tenant here; what else step 1 of Table 16-7 does, the commit does. -/
def applyTenant (atStart : Bool) (b : TenantItem) (s : State) : State :=
  match b.action with
  | 1 => createTenant atStart b s
  | 2 => onTen b.tenant (fun t => { t with retiring := true, commitPour := lastPourNumber s }) s
  | _ => onTen b.tenant (fun t => { t with link0 := b.link0, link1 := b.link1 }) s

/-- A partition's layout (Table 16-3): action 0 makes it unused. -/
def applyPartition (b : PartitionItem) (s : State) : State :=
  let p : Partition :=
    if b.action = 0 then { num := b.partition }
    else { num := b.partition, active := true, clusters := b.clusterMask, stackSet := b.stackMask, link0 := b.link0, link1 := b.link1 }
  { s with parts := updKey Partition.num b.partition (fun _ => p) s.parts }

/-! ### Ports (R359, R360, R391, R394) -/

/-- A port without traffic takes a new role at once: OFF, and training where the role is not none (Table 13-4). -/
def takeRole (n : Nat) (d : PortDesc) (s : State) : State :=
  let s1 := onPort n (fun p => { p with want := d, role := d.role, leaving := none }) s
  let s2 := if (findPort s n).any fun p => p.state == .off then s1 else portFail n .off 7 s1
  if d.role = 0 then s2 else retrain n 16 s2

/-- A port role committed: an UP port stops new traffic and leaves once drained; any other takes the role at once (R394). -/
def applyPortRole (n : Nat) (d : PortDesc) (s : State) : State :=
  match findPort s n with
  | none => s
  | some p => if p.state == .up then onPort n (fun q => { q with leaving := some d }) s else takeRole n d s

/-- Shares and limits of a port's classes (R357, R360). -/
def applyShaper (b : ShaperItem) (s : State) : State := onPort b.port (fun p => { p with shares := b.classes, credits := [] }) s

/-- A gate list due at its take-over pour, 0 for the next pour planned (R359, Table 11-10). -/
def applyGates (b : GateListItem) (s : State) : State :=
  onPort b.port (fun p => { p with gateDue := some (if b.takeOver = 0 then s.sched.next else b.takeOver, b.entries) }) s

/-! ### One item -/

/-- An item applied, by kind. `fresh` are the tenants that its commit creates, whose scheduling setting also sets their budget (Table 11-1);
composition items are the commit's. -/
def applyItem (atStart : Bool) (fresh : List Nat) (i : Item) (s : State) : State :=
  match i.body with
  | .flask b => applyFlask b s
  | .roster b => applyRoster b s
  | .bind b => applyBind b s
  | .unbind m => applyUnbind m s
  | .placement b => applyPlacement b s
  | .spill b => applySpill b s
  | .index b => applyIndex b s
  | .tenant b => applyTenant atStart b s
  | .partition b => applyPartition b s
  | .portRole n d => applyPortRole n d s
  | .shaper b => applyShaper b s
  | .gateList b => applyGates b s
  | .composition _ _ => s
  | .restore b => { s with chk := { s.chk with restore := s.chk.restore ++ [b] } }
  | .selection budget linger => onTen i.tenant (fun t => { t with selBudget := budget, linger := linger }) s
  | .recallTool b => onTen i.tenant (fun t => { t with recallTool := some b }) s
  | .scheduling _ w init low =>
    onTen i.tenant (fun t => { t with weight := w, lowMark := low, budget := if fresh.contains i.tenant then init else t.budget }) s
  | .residency idle wait warm park => onTen i.tenant (fun t => { t with idleUs := idle, waitUs := wait, warmUs := warm, parkUs := park }) s
  | .policing rate depth =>
    onTen i.tenant (fun t =>
      { t with rate := rate, depth := depth
               bucket := if fresh.contains i.tenant then depth * 1000000 else min t.bucket (depth * 1000000) }) s
  | .quantisation mode => onTen i.tenant (fun t => { t with quantise := mode == 1 }) s
  | .inconsistent => s

/-- The tenants that a list of items creates. -/
def freshTenants (items : List Item) : List Nat :=
  items.filterMap fun i => match i.body with | .tenant b => if b.action = 1 then some b.tenant else none | _ => none

/-- Items applied in set order, at one instant (Table 17-12, step 3). -/
def applyItems (atStart : Bool) (items : List Item) (s : State) : State :=
  reslot (forEach items (applyItem atStart (freshTenants items)) s)

/-! ### The committed items that are persisted (Table 17-9) -/

/-- The object that a persisted item sets: its kind and what names it; absent for a kind not persisted. -/
def persistKey (i : Item) : Option (List Nat) :=
  match i.body with
  | .flask b => some [1, b.flask]
  | .placement b => some [5, b.kind, b.partition, b.owner, b.index]
  | .index b => some [7, b.index, b.shardNumber]
  | .tenant b => some [8, b.tenant]
  | .partition b => some [9, b.partition]
  | .portRole n _ => some [10, n]
  | .shaper b => some [11, b.port]
  | .gateList b => some [12, b.port]
  | .selection _ _ => some [16, i.tenant]
  | .recallTool _ => some [17, i.tenant]
  | .scheduling _ _ _ _ => some [18, i.tenant]
  | .residency _ _ _ _ => some [19, i.tenant]
  | .policing _ _ => some [20, i.tenant]
  | .quantisation _ => some [21, i.tenant]
  | _ => none

/-- Whether an item removes the object it names. -/
def removes (i : Item) : Bool :=
  match i.body with
  | .flask b => b.slotCount == 0
  | .index b => b.capacity == 0
  | .tenant b => b.action == 2
  | .gateList b => b.entries.isEmpty
  | _ => false

/-- The form in which a committed item is persisted: tenants as creations without capsule, gate lists with take-over 0 (Table 17-9). -/
def persisted (before : List Item) (i : Item) : Item :=
  match i.body with
  | .tenant b =>
    let part := (before.findSome? fun j => match j.body with
      | .tenant c => if c.tenant = b.tenant then some (c.partition, c.label) else none
      | _ => none).getD (b.partition, b.label)
    let b1 : TenantItem := if b.action = 1 then { b with capsule := none }
                           else { b with action := 1, capsule := none, partition := part.1, label := part.2 }
    { i with body := .tenant b1 }
  | .gateList b => { i with body := .gateList { b with takeOver := 0 } }
  | _ => i

/-- Whether an item belongs to a tenant that retires: its own item or a setting of it. -/
def ofTenant (t : Nat) (i : Item) : Bool :=
  match i.body with
  | .tenant b => b.tenant == t
  | .selection _ _ | .recallTool _ | .scheduling _ _ _ _ | .residency _ _ _ _ | .policing _ _ | .quantisation _ => i.tenant == t
  | _ => false

/-- The persisted items after one more is committed: it takes the place of the item that set its object, so that what it rests on stays
before it. -/
def commitItem (held : List Item) (i : Item) : List Item :=
  match persistKey i with
  | none => held
  | some k =>
    if removes i then
      match i.body with
      | .tenant b => held.filter fun j => !ofTenant b.tenant j
      | _ => held.filter fun j => persistKey j != some k
    else if held.any fun j => persistKey j == some k then
      held.map fun j => if persistKey j == some k then persisted held i else j
    else held ++ [persisted held i]

end Sys2Proof.Machine
end

