-- ==== Sys2Proof/Machine/Check.lean ====
section
/-! DEFINITION. CHECK: every rule that names it, as violations of a set against the committed state (R120 to R123, R148, R157, R182,
R191, R199 to R207, R217, R224, R228, R233, R305, R309, R310, R332, R360, R373, R393, R456, R458, R460, R495, R497, Table 17-11). -/

namespace Sys2Proof.Machine

/-- What a violation entry says beside its item: code, field, value. -/
abbrev Finding3 := Nat × Nat × Nat

/-- A condition that CHECK demands, or the entry that it fails. -/
def need (ok : Bool) (code field value : Nat) : List Finding3 := if ok then [] else [(code, field, value % 4294967296)]

/-- A value in a range (code 1). -/
def inRange (lo hi v field : Nat) : List Finding3 := need (decide (lo ≤ v) && decide (v ≤ hi)) 1 field v

/-- A body that names a partition names the set's; a start's section is no partition's set (code 12; R495, R505). -/
def inScope (part : Option Nat) (p field : Nat) : List Finding3 := need (part.all (· == p)) 12 field p

/-- An active partition. -/
def partActive (s : State) (p : Nat) : Bool := (findPart s p).any Partition.active

/-! ### Flasks and rosters (R120, R121, R123, R206, R305) -/

/-- The settings of a flask that only an empty roster lets change (R121). -/
def flaskShape (f : Flask) : Nat × Nat × Nat × Nat := (f.model, f.partition, f.first, f.count)

/-- Whether two flasks' slot ranges overlap. -/
def slotsOverlap (a b : Flask) : Bool := a.num != b.num && decide (a.first < b.first + b.count) && decide (b.first < a.first + a.count)

/-- MOVING sessions whose slot a commit would change: Table 2-4 lets it neither slot nor unslot them. -/
def movedSlots (b f : State) (flask : Nat) : List Nat :=
  (b.sess.filter fun x => x.state == .moving && (((rosterSlot b x.handle).bind (flaskOfSlot b)).map Flask.num) == some flask
    && rosterSlot b x.handle != rosterSlot f x.handle).map Session.handle

/-- Whether a mould in force serves a model's tokeniser (R305). -/
def moulded (s : State) (model : Nat) : Bool := (progOf s model).any fun p => s.dev.moulds.any fun m => m.tokeniser == p.tokeniser

/-- A flask item. A start's section is applied before any model is bound, binds not being persisted, so there a flask's model need not be
(R505; log entry 78). No bound is put on its first slot, for which R120 gives no check (log entry 203). -/
def checkFlask (part : Option Nat) (b st f : State) (x : FlaskItem) : List Finding3 :=
  let old := findFlask st x.flask
  let stuck := (movedSlots b f x.flask).map fun h => ((10, 6, h % 4294967296) : Finding3)
  let own := (old.map fun o => inScope part o.partition 0).getD []
  inRange 0 15 x.flask 0 ++ own ++ stuck ++
    if x.slotCount = 0 then need old.isSome 2 0 x.flask
    else
      let new := findFlask f x.flask
      let shape := match findFlask b x.flask, new with
        | some o, some n => flaskShape o == flaskShape n || n.roster.all (· == 0)
        | _, _ => true
      inScope part x.partition 12 ++ inRange 0 3 x.priority 1 ++ inRange 1000 1000000 x.pourBudget 8 ++
        need (partActive f x.partition) 2 12 x.partition ++
        need (part.isNone || (findModel f x.model).any fun m => m.state == 2 && m.partition == x.partition) 2 2 x.model ++
        need (!(moulded f x.model && decide (x.pourBudget < (board f).mouldBudget))) 11 8 x.pourBudget ++ need shape 4 6 x.slotCount ++
        need (!(new.any fun n => f.sched.flasks.any (slotsOverlap n))) 3 4 x.firstSlot ++
        need (decide ((f.sched.flasks.map Flask.count).sum ≤ slotLimit f.part)) 7 6 ((f.sched.flasks.map Flask.count).sum)

/-- One roster entry (R123). A handle that the package does not hold is a shard entry's where a group of the model makes it one (R420). -/
def checkEntry (st f : State) (k : Flask) (h field : Nat) : List Finding3 :=
  if h = 0 then []
  else
    let named := match findSess st h with
      | none => need (shardPart st k.model).isSome 10 field h
      | some x =>
        need (x.state != .free && x.state != .moving && x.state != .closed && x.state != .lost) 10 field h ++
          need (x.model == k.model && (x.shardOf.isSome || sessPart st x == k.partition)) 3 field h
    named ++ need (decide ((f.sched.flasks.map fun q => q.roster.count h).sum ≤ 1)) 3 field h

/-- A roster item (R122, R123). -/
def checkRoster (part : Option Nat) (b st f : State) (x : RosterItem) : List Finding3 :=
  match findFlask st x.flask with
  | none => need false 2 0 x.flask
  | some k =>
    inScope part k.partition 0 ++ inRange 1 480 x.handles.length 4 ++
      need (decide (x.firstIndex + x.handles.length ≤ k.count)) 1 2 x.firstIndex ++
      ((movedSlots b f x.flask).map fun h => ((10, 2, h % 4294967296) : Finding3)) ++
      ((x.handles.mapIdx fun i h => checkEntry st f k h (8 + 8 * i)).flatten)

/-! ### Models (R182, R191, R199 to R204, R206, R207) -/

/-- The state bytes that a block descriptor has to give (Table 6-6): a recurrent block's size, which is at most 4 MiB (R196), a carry block's of
whole FP32 values (R197), 0 otherwise. -/
def stateOk (p : ModelProgram) (d : BlockDesc) : Bool :=
  if d.mixer = 2 then d.stateBytes == recurrentBytes p d && decide (d.stateBytes ≤ 4194304)
  else if d.mixer = 3 then d.stateBytes % 4 == 0 && decide (d.stateBytes ≤ 4194304)
  else d.stateBytes == 0

/-- Whether a block descriptor is one that binds (Table 6-6, R189, R191, R196); `n` is its block number. An encoder block may have mixer 0, and
then no carry block (log entry 184). -/
def blockOk (encoder : Bool) (p : ModelProgram) (n : Nat) (d : BlockDesc) : Bool :=
  decide (d.mixer ≤ 3) && (encoder == (d.mixer == 3) || (encoder && d.mixer == 0)) && decide (d.ffn ≤ 2) && (encoder || d.mixer != 0 || d.ffn != 0) &&
    decide (d.pageFormat ≤ 2) && decide (d.weightFormat ≤ 7) && decide (d.activation ≤ 2) && decide (d.positional ≤ 1) &&
    decide (d.skipFloor ≤ 254) && stateOk p d && decide (d.firstTensor + d.tensorCount ≤ p.tensors.length) &&
    (d.ffn != 2 || decide (0 < p.experts)) && (((p.tensors.drop d.firstTensor).take d.tensorCount).all fun t => t.block == n)

/-- Whether a tensor entry is one that binds (Table 6-7, R182, R201): its length is what its shape and format give. -/
def tensorOk (p : ModelProgram) (t : TensorEntry) : Bool :=
  decide (t.format ≤ 7) && decide (t.role ≤ 13) && decide (t.offset % 64 = 0) && (decide (4 < t.format) || decide (t.columns % 32 = 0)) &&
    (!(t.role == 0 || t.role == 8 || t.role == 9) || t.format == 7) && t.length == tensorLength t.format t.rows t.columns &&
    (t.expert == 0xFFFF || t.expert == 0xFFFE || decide (t.expert < p.experts)) &&
    (if t.role = 0 ∨ t.role = 10 ∨ t.role = 11 then t.block == 0xFFFF else decide (t.block < p.encoders.length + p.decoders.length) || t.block == 0xFFFF)

/-- Whether the recall heads are those the program names: one of each width, from the hidden width (Table 6-5, R198). -/
def recallHeadsOk (p : ModelProgram) : Bool :=
  sortBy id ((p.tensors.filter fun t => t.role == 11).map TensorEntry.rows) == recallWidthsOf p &&
    (p.tensors.filter fun t => t.role == 11).all fun t => t.columns == p.hidden

/-- Tensors lie in directory order (R201). -/
def ordered : Nat → List TensorEntry → Bool
  | _, [] => true
  | at_, t :: ts => decide (at_ ≤ t.offset) && ordered (t.offset + t.length) ts

/-- The header's rules (Table 6-5, R199, R202), each with its value. -/
def headerRules (s : State) (p : ModelProgram) : List (Bool × Nat) :=
  let enc := p.encoders.length
  [(p.magicOk, 0), (p.version == 0x0100, p.version), (decide (1 ≤ p.decoders.length ∧ p.decoders.length ≤ 512), p.decoders.length),
   (decide (enc ≤ 32), enc), (decide (256 ≤ p.hidden ∧ p.hidden ≤ 32768 ∧ p.hidden % 32 = 0), p.hidden),
   (decide (1 ≤ p.queryHeads ∧ p.queryHeads ≤ 256), p.queryHeads),
   (decide (1 ≤ p.kvHeads ∧ p.kvHeads ≤ 64 ∧ p.queryHeads % max 1 p.kvHeads = 0), p.kvHeads), (decide (p.headDimCode ≤ 2), p.headDimCode),
   (decide (p.parameters ≤ 10000000000000), p.parameters), (decide (1 ≤ p.vocabulary ∧ p.vocabulary ≤ 262144), p.vocabulary),
   (decide (p.experts ≤ 1024), p.experts),
   (if p.experts = 0 then p.routed == 0 else decide (1 ≤ p.routed ∧ p.routed ≤ 8), p.routed), (decide (p.shared ≤ 2), p.shared),
   (decide (p.gateMode ≤ 1), p.gateMode), (decide (p.norm ≤ 1), p.norm),
   (decide (1 ≤ p.snapshotSpacing ∧ p.snapshotSpacing ≤ 16), p.snapshotSpacing), (decide (p.snapshotDepth ≤ 64), p.snapshotDepth),
   (if enc = 0 then p.frameBytes == 0 else decide (64 ≤ p.frameBytes ∧ p.frameBytes ≤ 65532 ∧ p.frameBytes % 4 = 0), p.frameBytes),
   (if enc = 0 then p.framePositions == 0 else decide (1 ≤ p.framePositions ∧ p.framePositions ≤ 16), p.framePositions),
   (decide (p.sampleFormat ≤ 1), p.sampleFormat), (decide (1 ≤ p.normalisation ∧ p.normalisation ≤ 3), p.normalisation),
   (decide (p.recallWidths < 8), p.recallWidths), (s.dev.tokenisers.any fun t => t.number == p.tokeniser, p.tokeniser),
   (decide (1 ≤ p.tensors.length ∧ p.tensors.length ≤ 65536), p.tensors.length), (decide (p.programLength ≤ 16777216), p.programLength),
   (decide (192 ≤ p.blockTable ∧ p.blockTable + 32 * (enc + p.decoders.length) ≤ p.programLength), p.blockTable),
   (decide (192 ≤ p.directory ∧ p.directory + 32 * p.tensors.length ≤ p.programLength), p.directory),
   ((p.tensors.head?.map TensorEntry.offset) == some p.programLength, p.programLength), (recallHeadsOk p, p.recallWidths)]

/-- Everything the program must satisfy: header, blocks, tensors. -/
def programRules (s : State) (length : Nat) (p : ModelProgram) : List (Bool × Nat) :=
  let enc := p.encoders.length
  headerRules s p ++ (p.encoders.mapIdx fun i d => (blockOk true p i d, i)) ++
    (p.decoders.mapIdx fun i d => (blockOk false p (enc + i) d, enc + i)) ++ (p.tensors.mapIdx fun i t => (tensorOk p t, i)) ++
    [(ordered p.programLength p.tensors, 0), (decide ((p.tensors.getLast?.map fun t => t.offset + t.length).getD 0 ≤ length), length)]

/-- Whether a model's weights have found space with every bind of the set before it (R202). -/
def bindFits (f : State) (n : Nat) : Bool := (findModel f n).any fun m => m.state == 1 && !m.pools.isEmpty

/-- A bind item (R202 to R204, R224). -/
def checkBind (part : Option Nat) (st f : State) (x : BindItem) : List Finding3 :=
  let busy := (findModel st x.model).any fun m => m.state == 1 || m.state == 2
  let pools := allowedPools f (placementOf f 1 x.partition x.model 0)
  inRange 1 65535 x.model 0 ++ inScope part x.partition 2 ++ need (partActive f x.partition) 2 2 x.partition ++ need (!busy) 3 0 x.model ++
    need (x.window == 0 || decide (2 ≤ x.window ∧ x.window ≤ 255)) 1 3 x.window ++ inRange 1 2 x.copies 4 ++
    need (decide ((f.models.filter fun m => m.state == 1 || m.state == 2).length ≤ 64)) 7 0 x.model ++
    need (decide (x.copies ≤ pools.length)) 3 4 x.copies ++
    match bindProgram x with
    | none => need false 9 8 0
    | some p => ((programRules st x.length p).map fun r => need r.1 9 8 r.2).flatten ++ need (bindFits f x.model) 7 16 (tensorBytes p)

/-- An unbind item (R204, R206): a number in BINDING or FAILED is unknown to it. -/
def checkUnbind (part : Option Nat) (st f : State) (n : Nat) : List Finding3 :=
  match (findModel st n).filter fun m => m.state == 2 with
  | none => need false 2 0 n
  | some m =>
    inScope part m.partition 0 ++ need (!(f.sched.flasks.any fun k => k.model == n)) 4 0 n ++
      need (!(st.sess.any fun x => x.model == n && x.state != .free && x.state != .closed && x.state != .lost)) 4 0 n

/-! ### Placements, H regions, indexes (R224, R233, R309, R310) -/

/-- A placement item. -/
def checkPlacement (part : Option Nat) (st f : State) (x : PlacementItem) : List Finding3 :=
  let named := (List.range 64).filter (bitAt x.pools)
  let granted := fun (n : Nat) => st.tiers.pools.any fun q => q.num == n && q.partition == x.partition && decide (0 < q.extents)
  let mirrored := x.kind == 1 && (findModel f x.owner).any fun m => m.state == 2 && m.copies == 2
  let late := fun (v : Nat) => v == 0 || decide (10 ≤ v ∧ v ≤ 100000)
  inScope part x.partition 1 ++ inRange 1 3 x.kind 0 ++ ((named.filter fun n => !granted n).map fun n => ((2, 8, n) : Finding3)) ++
    need (!(mirrored && decide (named.length < 2))) 3 8 named.length ++ need (late x.lateFirst) 1 20 x.lateFirst ++
    need (late x.lateSecond) 1 24 x.lateSecond

/-- A spill item. -/
def checkSpill (part : Option Nat) (st : State) (x : SpillItem) : List Finding3 :=
  let moving := st.tiers.hRegions.any fun r => r.partition == x.partition && r.link == x.link && r.removing.isSome
  inScope part x.partition 0 ++ need (decide (x.link < linkCount st.part)) 1 1 x.link ++ need (decide (x.address % 2097152 = 0)) 1 8 x.address ++
    need (decide (x.length % 2097152 = 0)) 1 16 x.length ++ need (!moving) 4 1 x.link

/-- The fields that a standing shard keeps (R309). -/
def shardKept (o n : IndexItem) : Bool :=
  { shardChanged o n with breadth := n.breadth, buildBreadth := n.buildBreadth, visitLimit := n.visitLimit, repairPct := n.repairPct } == n

/-- An index item. -/
def checkIndex (part : Option Nat) (st f : State) (x : IndexItem) : List Finding3 :=
  let old := findShard st x.index x.shardNumber
  if x.capacity = 0 then inScope part x.partition 6 ++ need (old.any fun h => !h.deleting) 2 0 x.index
  else
    let pools := allowedPools f (placementOf f 3 x.partition x.tenant x.index)
    let others := f.rcl.shards.any fun h =>
      h.item.index == x.index && !h.deleting &&
        (h.item.tenant != x.tenant || h.item.width != x.width || h.item.shardNumber != x.shardNumber)
    let sum := ((f.rcl.shards.filter fun h => h.item.hub == x.hub).map fun h => h.item.capacity).sum
    inScope part x.partition 6 ++ inRange 0 2 x.width 7 ++ inRange 1 2147483648 x.capacity 8 ++ inRange 16 64 x.degree 12 ++
      need (decide (x.hub < hubCount st.part)) 1 13 x.hub ++ inRange 16 1024 x.breadth 14 ++ inRange 32 1024 x.buildBreadth 16 ++
      inRange 1 4096 x.shardCount 18 ++ need (decide (x.shardNumber < x.shardCount)) 1 20 x.shardNumber ++ inRange 1 50 x.repairPct 22 ++
      inRange 1 2 x.copies 23 ++ inRange 64 1048576 x.visitLimit 24 ++ need (decide (sum ≤ 2147483648)) 7 8 sum ++
      need ((findTen st x.tenant).any fun t => t.partition == x.partition) 2 4 x.tenant ++ need (!others) 3 0 x.index ++
      need (!(x.copies == 2 && decide (pools.length < 2))) 3 23 x.copies ++
      (match old with
       | none => []
       | some h => need (!h.deleting) 4 0 x.index ++ need (h.deleting || shardKept h.item x) 3 0 x.index)

/-! ### Tenants and partitions (R456, R458 to R460) -/

/-- Virtual functions that a tenant item binds outside a partition (R460): the link and the function. -/
def strayFns (s : State) (p : Nat) (x : TenantItem) : List (Nat × Nat) :=
  let own := fun (link n : Nat) => (findPart s p).any fun q => bitAt (if link = 0 then q.link0 else q.link1) n
  (((List.range 63).map (· + 1)).filter fun n => bitAt x.link0 n && !own 0 n).map (fun n => (0, n)) ++
    (((List.range 63).map (· + 1)).filter fun n => bitAt x.link1 n && !own 1 n).map fun n => (1, n)

/-- A tenant item. -/
def checkTenant (part : Option Nat) (st f : State) (x : TenantItem) : List Finding3 :=
  let stray := fun (p : Nat) => (strayFns f p x).map fun e => ((3, 8 + 8 * e.1, e.2) : Finding3)
  inRange 1 0xFFFE x.tenant 0 ++ inRange 1 3 x.action 2 ++
    if x.action = 1 then
      inScope part x.partition 3 ++ need (partActive f x.partition) 2 3 x.partition ++ need (findTen st x.tenant).isNone 3 0 x.tenant ++
        need (decide (f.tens.length ≤ 4096)) 7 0 f.tens.length ++ stray x.partition ++
        need (x.capsule.all Prod.fst) 8 32 0
    else
      match findTen st x.tenant with
      | none => need false 2 0 x.tenant
      | some t => inScope part t.partition 0 ++ if x.action = 3 then stray t.partition else []

/-- Whether a partition is drained (R458). -/
def drained (s : State) (p : Nat) : Bool :=
  !(s.tens.any fun t => t.partition == p) && !(s.sched.flasks.any fun k => k.partition == p) &&
    !(s.models.any fun m => m.partition == p && (m.state == 1 || m.state == 2)) && !(s.rcl.shards.any fun h => h.item.partition == p) &&
    !(s.tiers.pools.any fun q => q.partition == p && decide (0 < q.extents)) &&
    !(s.tiers.hRegions.any fun r => r.partition == p && decide (0 < r.length))

/-- Logical cluster n of the package is enabled (Table 16-3). -/
def clusterOn (s : State) (n : Nat) : Bool :=
  decide (n / 8 < scCount s.part) && (findDie s (n / 8)).any fun d => !d.failed && (d.logical.getD (n % 8) none).isSome

/-- Whether every die with a cluster of the masks has a stack of them, and the reverse (R456). -/
def balanced (clusters stackMask : Nat) : Bool :=
  (List.range 4).all fun d => decide (clusters / 2 ^ (8 * d) % 256 = 0) == decide (stackMask / 2 ^ (6 * d) % 64 = 0)

/-- Units of a mask that a test refuses. -/
def refused (width mask : Nat) (ok : Nat → Bool) : List Nat := (List.range width).filter fun n => bitAt mask n && !ok n

/-- What a partition's body must satisfy by itself and against the other partitions (R456, R458). -/
def layoutRules (f : State) (x : PartitionItem) : List Finding3 :=
  let others := f.parts.filter fun p => p.active && p.num != x.partition
  need (others.all fun p => p.clusters &&& x.clusterMask == 0) 3 4 x.clusterMask ++
    need (others.all fun p => p.stackSet &&& x.stackMask == 0) 3 8 x.stackMask ++
    need (others.all fun p => p.link0 &&& x.link0 == 0) 3 16 x.link0 ++ need (others.all fun p => p.link1 &&& x.link1 == 0) 3 24 x.link1 ++
    ((refused 32 x.clusterMask (clusterOn f)).map fun n => ((2, 4, n) : Finding3)) ++
    ((refused 32 x.stackMask (stackOn f)).map fun n => ((2, 8, n) : Finding3)) ++ need (!bitAt x.link0 0) 2 16 0 ++ need (!bitAt x.link1 0) 2 24 0 ++
    need (balanced x.clusterMask x.stackMask) 3 4 x.clusterMask

/-- A partition item. -/
def checkPartition (st f : State) (x : PartitionItem) : List Finding3 :=
  let old := (findPart st x.partition).getD { num := x.partition }
  let set := x.action == 1
  let same := fun (a b : Nat) => a == (if set then b else 0)
  let free := drained st x.partition
  inRange 0 3 x.partition 0 ++ inRange 0 1 x.action 1 ++ need (free || same old.clusters x.clusterMask) 4 4 x.clusterMask ++
    need (free || same old.stackSet x.stackMask) 4 8 x.stackMask ++ need (free || same old.link0 x.link0) 4 16 x.link0 ++
    need (free || same old.link1 x.link1) 4 24 x.link1 ++ (if set then layoutRules f x else []) ++ need (f.parts.any Partition.active) 3 1 x.action

/-! ### Ports (R29, R360, R393) -/

/-- Classes that have traffic on a port of a role (Table 11-9): on a pool port everything that goes to and from T2, on a fabric port
collectives, migrations and manager messages (log entry 71). -/
def roleClasses (role : Nat) : List Nat := match role with | 1 => [1, 2, 3, 4, 5, 7] | 2 => [0, 5, 6] | _ => []

/-- Whether a port is drained of its present role (R393). -/
def portDrained (s : State) (p : Port) : Bool :=
  match p.role with
  | 1 => !(s.tiers.pools.any fun q => !q.failed && decide (0 < q.extents) && q.paths == [p.num])
  | 2 => !(s.links.flows.any fun e => e.2.2.2 == p.num && e.2.2.1 == 0 && s.rack.groups.any fun g => !g.torn)
  | _ => true

/-- The role that a port has once a change it waits for is made. -/
def roleAfter (p : Port) : Nat := (p.leaving.getD p.want).role

/-- A port-role item. -/
def checkPortRole (st f : State) (n : Nat) (d : PortDesc) : List Finding3 :=
  let pools := (f.links.ports.filter fun p => p.num / 16 == n / 16 && roleAfter p == 1).length
  need (decide (n < portCount st.part)) 1 0 n ++ inRange 0 2 d.role 1 ++ need ((findPort st n).all (portDrained st)) 4 0 n ++
    need (d.role != 1 || decide (pools ≤ 12)) 7 1 pools

/-- A shaper item. -/
def checkShaper (st : State) (x : ShaperItem) : List Finding3 :=
  let sum := (x.classes.map Prod.fst).sum
  need (decide (x.port < portCount st.part)) 1 0 x.port ++ need (decide (sum ≤ 65535)) 1 8 sum ++
    (x.classes.mapIdx fun c e => inRange 64 1048576 e.2 (12 + 8 * c)).flatten

/-- A gate-list item. -/
def checkGates (st : State) (x : GateListItem) : List Finding3 :=
  let opened := fun (c : Nat) => x.entries.any fun e => bitAt e.1 c
  let role := ((findPort st x.port).map roleAfter).getD 0
  need (decide (x.port < portCount st.part)) 1 0 x.port ++ need (decide (x.entries.length ≤ 255)) 1 1 x.entries.length ++
    (x.entries.mapIdx fun e g => inRange 256 4294967295 g.2 (20 + 8 * e)).flatten ++
    if x.entries.isEmpty then [] else ((roleClasses role).filter fun c => !opened c).map fun c => (1, 16, c)

/-! ### Composition and restore (R410, R413, R421, R450, R451) -/

/-- One map record (Table 14-1, Table 14-3). -/
def checkRecord (r : MapRecord) : List Finding3 :=
  match r with
  | .package n _ role _ _ => need (decide (n < 4096)) 1 0 n ++ inRange 1 3 role 0
  | .group n _ ps => need (decide (2 ≤ ps.length ∧ ps.length ≤ 64)) 7 0 n
  | .pool _ p _ _ _ part => need (decide (p < 64)) 1 0 p ++ need (decide (part < 4)) 1 0 part
  | .shard _ _ _ hub => need (decide (hub < 2)) 1 0 hub
  | .move h o d _ _ _ part => need (o != d) 3 0 h ++ need (decide (part < 4)) 1 0 part

/-- Whether this package may take a composition item: the top manager, or the package that the item makes so (R413, R428). -/
def composes (s : State) (add : List MapRecord) : Bool :=
  (isManager s && topManager s == s.rack.num) ||
    (isManager s && add.any fun r => match r with | .package n _ role _ _ => role == 3 && n == s.rack.num | _ => false)

/-- A restore item. -/
def checkRestore (st : State) (x : RestoreItem) : List Finding3 :=
  let whole := match progOf st x.model with
    | none => true
    | some p => !hasRecurrent p || (x.firstHead == 0 && x.heads == p.kvHeads)
  inRange 0 1 x.source 0 ++ inRange 1 4096 x.shares 30 ++ need (decide (x.share < x.shares)) 1 28 x.share ++ need whole 3 26 x.firstHead

/-! ### Tenant settings (R148, R157, R329, R332, Table 17-10) -/

/-- A recall-tool setting. "The tenant's model" is read as a bound model of the tenant's partition (log entry 72); a start's section
comes before any bind (log entry 78). -/
def checkTool (part : Option Nat) (st : State) (t : Tenant) (x : RecallTool) : List Finding3 :=
  let heads := st.models.any fun m => m.partition == t.partition && m.state == 2 && m.program.any fun p => bitAt p.recallWidths x.width
  inRange 0 2 x.width 2 ++ inRange 1 256 x.k 8 ++ need (decide (x.name.length ≤ 32)) 1 1 x.name.length ++
    need (part.isNone || !x.enabled || heads) 3 2 x.width ++ need ((localShards st x.index).any fun h => h.item.tenant == t.id) 2 4 x.index ++
    need (!(x.enabled && x.name.isEmpty)) 1 1 0 ++ need (st.dev.templates.any fun p => p.number == x.template) 2 10 x.template

/-- A tenant setting (Table 17-9, kinds 0x10 to 0x15). -/
def checkSetting (part : Option Nat) (st : State) (i : Item) : List Finding3 :=
  match findTen st i.tenant with
  | none => need false 2 0 i.tenant
  | some t =>
    inScope part t.partition 0 ++
      match i.body with
      | .selection budget linger =>
        need (budget == 0 || decide (16 ≤ budget ∧ budget ≤ 262144 ∧ budget % 16 = 0)) 1 0 budget ++ inRange 1 255 linger 4
      | .recallTool x => checkTool part st t x
      | .scheduling id w _ _ => need (id == i.tenant) 3 0 id ++ inRange 1 1000 w 2
      | .policing rate depth => inRange 1 20000000 rate 0 ++ inRange 1 1048576 depth 4
      | .quantisation mode => inRange 0 1 mode 0
      | _ => []

/-- What CHECK finds in one item: `b` is the committed state, `st` the state after the items before it, `f` after the whole set. -/
def checkItem (part : Option Nat) (b st f : State) (i : Item) : List Finding3 :=
  match i.body with
  | .flask x => checkFlask part b st f x
  | .roster x => checkRoster part b st f x
  | .bind x => checkBind part st f x
  | .unbind n => checkUnbind part st f n
  | .placement x => checkPlacement part st f x
  | .spill x => checkSpill part st x
  | .index x => checkIndex part st f x
  | .tenant x => checkTenant part st f x
  | .partition x => checkPartition st f x
  | .portRole n d => checkPortRole st f n d
  | .shaper x => checkShaper st x
  | .gateList x => checkGates st x
  | .composition add remove => need (composes st add) 12 0 0 ++ ((add ++ remove).map checkRecord).flatten
  | .restore x => checkRestore st x
  | .inconsistent => need false 1 0 0
  | _ => checkSetting part st i

/-! ### What the whole set would need (R228, R373) -/

/-- T1 that a commit would take of a die within a partition, in KiB (R228). -/
def countedKib (s : State) (p d : Nat) : Nat :=
  let all := ((List.range (scCount s.part)).map (partStacks s p)).sum
  let windows := ((s.models.filter fun m => m.partition == p && (m.state == 1 || m.state == 2)).map windowBytesOf).sum
  reserveKib s.part + ceilDiv (windows * partStacks s p d) (1024 * max 1 all) + recallKib s d + directoryKib s d +
    ((s.sess.filter fun x => x.homeDie == d && (rosterSlot s x.handle).isSome && sessPart s x == p).map (residentNeed s)).sum

/-- The dies whose T1 in a partition a commit would pass. -/
def overfull (s : State) (p : Nat) : List Nat :=
  (List.range (scCount s.part)).filter fun d =>
    decide (0 < partStacks s p d) && decide (partStacks s p d * 48 * 1048576 - countOf s.tiers.retired d * 64 < countedKib s p d)

/-- Checkpoint needs of the sessions slotted after a commit (R373): molten frames, recurrent blocks, snapshots, and the allowance of R437. -/
def slottedNeeds (s : State) : Nat :=
  let one := fun (x : Session) =>
    match sessProg s x with
    | none => 0
    | some p =>
      ((x.pages.filter fun g => g.cond == .molten || g.cond == .casting).map (pageBytes p)).sum + blockBytes x.blocks +
        (x.snapshots.map fun n => blockBytes n.blocks).sum
  ((s.sess.filter fun x => (rosterSlot s x.handle).isSome && resident x).map one).sum + pourAllowance s

/-- The largest S that the hold-up bound permits, in bytes (R371). -/
def largestSave (s : State) : Nat :=
  ((board s).holdUpJ - 10) * (board s).chillRate * 10000000 * chillCount s / max 1 (board s).pSaveW

/-- What the whole set breaks: T1 of a die in a partition, reported as the die and, where an entry of an item's body has its offset, the sum that
the set would need of it, in GiB rounded up (R228; log entry 185); and the hold-up bound, reported as the sum and the bound. -/
def checkWhole (f : State) : List Finding3 :=
  let past := fun (p : Partition) => (overfull f p.num).map fun d => ((5, min 65535 (ceilDiv (countedKib f p.num d) 1048576), d) : Finding3)
  ((f.parts.filter Partition.active).map past).flatten ++
    if holdUpFits f (slottedNeeds f) then [] else [(6, 0, slottedNeeds f % 4294967296), (6, 0, largestSave f % 4294967296)]

/-- Each item of a set with its index and the state before it. -/
def walkItems (atStart : Bool) (fresh : List Nat) : Nat → State → List Item → List (Nat × Item × State)
  | _, _, [] => []
  | n, st, i :: rest => (n, i, st) :: walkItems atStart fresh (n + 1) (applyItem atStart fresh i st) rest

/-- CHECK of a set against a committed state: the violations in item order, then those of the whole set, named at its last item (R497; log
entry 73). -/
def checkSet (atStart : Bool) (part : Option Nat) (items : List Item) (b : State) : List Violation :=
  let f := applyItems atStart items b
  let one := fun (e : Nat × Item × State) =>
    (checkItem part b e.2.2 f e.2.1).map fun v =>
      ({ item := e.1, hostTag := e.2.1.hostTag, code := v.1, field := v.2.1, value := v.2.2 } : Violation)
  let last := items.getLast?.map Item.hostTag
  ((walkItems atStart (freshTenants items) 0 b items).map one).flatten ++
    (checkWhole f).map fun v => { item := items.length - 1, hostTag := last.getD 0, code := v.1, field := v.2.1, value := v.2.2 }

end Sys2Proof.Machine
end

