-- ==== Sys2Proof/Machine/Epochs.lean ====
section
/-! DEFINITION. Applying a published epoch at a package: packages failed, groups composed and dropped, pool grants, moves begun, and the report
to its manager (R172, R175, R414, R417, R421, R425, R426, R428). -/

namespace Sys2Proof.Machine

/-- The records of one kind for this package. -/
def groupsOf (l : List MapRecord) : List (Nat × Nat × List Participant) :=
  l.filterMap fun r => match r with | .group n m ps => some (n, m, ps) | _ => none
def grantsOf (me : Nat) (l : List MapRecord) : List Pool :=
  l.filterMap fun r => match r with
    | .pool k p b ports ext part => if k = me then some { num := p, bridge := b, paths := ports, extents := ext, partition := part } else none
    | _ => none
def failedOf (l : List MapRecord) : List Nat :=
  l.filterMap fun r => match r with | .package n _ _ _ true => some n | _ => none

/-! ### Groups (R172, R175, R420, R425) -/

/-- The windows of a group at this package: two landing windows, and the release lines' where it is not participant 0 (R175, R420; log entry 67). -/
def groupWindows (s : State) (g : MGroup) : List Win :=
  let size := g.parts.length * slotLimit s.part * partialCount s g
  let w := fun (num kind len : Nat) => ({ num := num, kind := kind, writes := true, group := g.num, base := Config.windowBase num, length := len } : Win)
  ((ownParticipants s g).map fun q => [w (landingWindow g q 0) 1 size, w (landingWindow g q 1) 1 size]).flatten ++
    if isCounterpart s g then [] else [w (releaseWindow g.num) 4 (slotLimit s.part)]

/-- The landing windows of this package's participants, in T1 of their dies, each with its control block in a KiB after its lines, armed for the first round and the one after it (R175, R177, R463). -/
def layLandings (n : Nat) (s : State) : State :=
  match findGroup s n with
  | none => s
  | some g =>
    let kib := ceilDiv (g.parts.length * slotLimit s.part * partialCount s g * 64) 1024 + 1
    let one := fun (q : Nat) (odd : Bool) (t : State) =>
      let die := ((g.parts[q]?).map Participant.die).getD 0
      let r := takeT1 die noOwner kib (t1Base t) t
      let round := if (g.round % 2 == 1) == odd then g.round else (g.round + 1) % 2 ^ 32
      onGroup n (fun y => { y with lands := y.lands ++ [{ part := q, odd := odd, round := round, frame := r.1, kib := kib }] }) r.2
    forEach (ownParticipants s g) (fun q t => one q true (one q false t)) s

/-- A window's entry in the export table (Table 13-8). A landing window's base is its frame, and its control block follows its lines (log entry 67). -/
def windowEntry (s : State) (w : Win) : List Byte :=
  let land := (s.rack.groups.find? fun g => g.num == w.group).bind fun g =>
    g.lands.find? fun l => w.kind == 1 && landingWindow g l.part (if l.odd then 1 else 0) == w.num
  leBytes 1 w.num ++ leBytes 1 w.kind ++ leBytes 1 (w.writes.toNat + 2 * w.reads.toNat) ++ zeros 1 ++ leBytes 2 w.group ++ zeros 2 ++
    leBytes 4 ((land.map Landing.frame).getD w.base) ++ leBytes 4 w.length ++ leBytes 8 ((land.map fun l => (l.frame + l.kib - 1) * 1024).getD 0) ++
    leBytes 4 w.refused ++ zeros 4

/-- A group composed at this package: its round counter restarts at 1 where it was torn down or is new,
unless a restore brought one back (R175, R425, Table 15-2). -/
def composeGroup (r : Nat × Nat × List Participant) (s : State) : State :=
  let mine := r.2.2.any fun p => p.package == s.rack.num
  let old := findGroup s r.1
  let keep := match old with | some g => g.parts == r.2.2 && g.model == r.2.1 && !g.torn | none => false
  if keep then s
  else
    let g : MGroup := { num := r.1, model := r.2.1, parts := r.2.2, round := max 1 (countOf s.chk.rounds r.1) }
    let rest := s.rack.groups.filter fun x => x.num != r.1
    let wins := s.links.windows.filter fun w => w.group != r.1
    layLandings r.1
      { s with chk := { s.chk with rounds := s.chk.rounds.filter fun e => e.1 != r.1 }
               rack := { s.rack with groups := rest ++ [g] }
               links := { s.links with windows := if mine then wins ++ groupWindows s g else wins } }

/-- A group that the map no longer holds is torn down here and forgotten. -/
def dropGroup (g : Nat) (s : State) : State :=
  let t := tearGroup g s
  { t with rack := { t.rack with groups := t.rack.groups.filter fun x => x.num != g }
           links := { t.links with windows := t.links.windows.filter fun w => w.group != g } }

/-! ### Pool grants (R238, R426, R427) -/

/-- A grant accepted: a new pool, or more or fewer extents of one that stands; a failed pool returns only through a new grant, empty. -/
def acceptGrant (fresh : Bool) (p : Pool) (s : State) : State :=
  let put := fun (q : Pool) => fitExtents { s with tiers := { s.tiers with pools := upsert Pool.num q s.tiers.pools } }
  match s.tiers.pools.find? (fun q => q.num == p.num) with
  | none => put p
  | some q =>
    if q.failed && fresh then put p
    else put { q with bridge := p.bridge, paths := p.paths, extents := p.extents, partition := p.partition, leaving := false }

/-- A grant removed: a whole pool leaves once nothing in it is referenced, its copies being moved to others meanwhile; a failed one at once
(R220, R426, R427). -/
def dropGrant (n : Nat) (s : State) : State :=
  settleLeaving { s with tiers := { s.tiers with pools := s.tiers.pools.filterMap fun q =>
    if q.num = n then (if q.failed then none else some { q with leaving := true }) else some q } }

/-! ### Failed packages (R417, R422) -/

/-- What depended on a package newly marked failed: its groups torn down, migrations with it aborted. -/
def peerFailed (n : Nat) (s : State) : State :=
  let gs := (s.rack.groups.filter fun g => g.parts.any fun p => p.package == n).map MGroup.num
  let s1 := forEach gs tearGroup s
  let ms := (s1.rack.migrations.filter fun m => (if m.atOrigin then m.destination else m.origin) == n)
  let back := fun (m : Migration) (t : State) =>
    let u := abortMigration m.handle (if m.atOrigin then .destinationLost else .originLost) t
    if m.atOrigin then tellDirectory m.handle u.rack.num (((findSess u m.handle).map fun x => stateCode x.state).getD 1) u else u
  let s2 := forEach ms back s1
  let s3 := forEach ((s2.rack.asking.map fun (a : Open × Nat × Nat × List Nat) => a.2.2.2).flatten.filter fun h =>
    (mapRecords s2).any fun r => match r with | .move k o d _ _ _ _ => k == h && (o == n || d == n) | _ => false) moveSettled s2
  { s3 with rack := { s3.rack with unacked := s3.rack.unacked.filter fun m => m.peer != n } }

/-! ### Moves (R421) -/

/-- A move record of a new epoch begun by the top manager: "move begin" to origin and destination (Table 14-5, step 1). -/
def beginMove (r : MapRecord) (s : State) : State :=
  match r with
  | .move h o d home alt vec part =>
    let body := [o, d, home, alt, vec, part]
    sendMgr d 8 h body [] [] (sendMgr o 8 h body [] [] s)
  | _ => s

/-! ### The epoch -/

/-- Whether a package record names this package, as what (R428: a composition can name a new top manager). -/
def ownRole (s : State) (l : List MapRecord) : Option (Nat × Nat) :=
  l.findSome? fun r => match r with | .package n _ role above _ => if n = s.rack.num then some (role, above) else none | _ => none

/-- The published epoch applied (R414): from then on this package's requests carry it. Of three epochs the oldest is live no more (R416). -/
def applyEpoch (s : State) : State :=
  match s.rack.published with
  | none => s
  | some e =>
    let old := mapRecords s
    let es := s.rack.epochs ++ [e]
    let s1 : State := { s with rack := { s.rack with published := none, epochs := es.drop (es.length - 2) } }
    let s2 := forEach ((failedOf e.records).filter fun n => !(failedOf old).contains n) peerFailed s1
    let named := (groupsOf e.records).map Prod.fst
    let s3 := forEach ((s2.rack.groups.map MGroup.num).filter fun g => !named.contains g) dropGroup s2
    let s4 := forEach (groupsOf e.records) composeGroup s3
    let now := grantsOf s.rack.num e.records
    let was := (grantsOf s.rack.num old).map Pool.num
    let s5 := forEach (was.filter fun n => !(now.map Pool.num).contains n) dropGrant s4
    let s6 := forEach now (fun p => acceptGrant (!was.contains p.num) p) s5
    let s7 := match ownRole s6 e.records with
      | some r => { s6 with rack := { s6.rack with role := if isManager s6 then max 2 r.1 else s6.rack.role, above := r.2, managerLost := false } }
      | none => s6
    let begun := e.records.filter fun r => (moveHandle r).isSome && !old.contains r
    let s8 := if topManager s7 = s7.rack.num && isManager s7 then forEach begun beginMove s7 else s7
    tryRetire (if superior s8 = s8.rack.num then s8 else sendMgr (superior s8) 4 0 [e.num] [] [] s8)

end Sys2Proof.Machine
end

