-- ==== Sys2Proof/Machine/Mailbox.lean ====
section
/-! DEFINITION. The mailbox: how a request is taken, refused or answered in each device state (R115, R116, R531, R584, R585),
and the operations that only report or set up: IDENTIFY, HEALTH_READ, LOG_READ, ATTEST, TAP_SETUP, VECTOR_SET. -/

namespace Sys2Proof.Machine

/-! ### Taking a request -/

/-- What Table 3-16 and the state of the device make of an operation. -/
inductive MbGate where
  | run | notSupported | hold
  deriving DecidableEq, Repr

/-- Operations answered in SAFE_TALK (Table 3-16) and, with SHUTDOWN held, from step 5 to step 10 (R531). -/
def safeOp (op : Nat) : Bool := [0x01, 0x20, 0x40, 0x41, 0x70].contains op

/-- Operations a virtual function may send (Table 3-16). -/
def anyFnOp (op : Nat) : Bool := [0x01, 0x20, 0x30, 0x60, 0x61].contains op

/-- Operations Table 3-16 lists. -/
def listedOp (op : Nat) : Bool :=
  [0x01, 0x10, 0x11, 0x12, 0x13, 0x14, 0x20, 0x30, 0x40, 0x41, 0x50, 0x51, 0x60, 0x61, 0x70].contains op

/-- The gate of the device states (Table 19-1, R531, R119). -/
def mbGate (s : State) (op : Nat) : MbGate :=
  match s.dev.code with
  | .starting | .selfTest => if safeOp op then .run else if op = 0x50 then .hold else .notSupported
  | .ready | .orphan => .run
  | .stopping => if op = 0x10 ∨ op = 0x12 then .notSupported else .run
  | .stopped => if safeOp op || op == 0x50 || op == 0x51 then .run else .notSupported
  | .safeTalk => if safeOp op then .run else .notSupported

/-- A GO before step 5 of the start sets REJECTED (R531). -/
def mbEarly (s : State) : Bool := s.dev.code == .starting && decide (s.dev.step < 5)

/-- A GO is taken: DONE clears, BUSY sets, and the request gets the mailbox's next generation (R584). -/
def mbTake (r : MbReq) (op sub : Nat) (s : State) : Open × State :=
  let g := (fnOf s r.fn).mb.gen + 1
  ({ fn := r.fn, gen := g, tag := r.tag, op := op, sub := sub, partition := r.partition },
   onFn r.fn (fun f => { f with mb := { f.mb with gen := g, busy := true, done := false } }) s)

/-- A mailbox request: REJECTED before step 5 or while BUSY; NOT_SUPPORTED above minor 2, by function or by state; held where
R531 holds it; MALFORMED when its length is not one of `lens`; otherwise carried out by `body` (R89, R115, R116). -/
def mbRun (r : MbReq) (op sub : Nat) (lens : Nat → Bool) (hold body : Open → State → State) (s : State) : State :=
  if mbEarly s || (fnOf s r.fn).mb.busy then
    onFn r.fn (fun f => { f with mb := { f.mb with rejected := true } }) s
  else
    let t := mbTake r op sub s
    if 2 < r.minor ∨ listedOp op = false ∨ (isPhys r.fn = false ∧ anyFnOp op = false) then answerMb t.1 .notSupported [] t.2
    else match mbGate s op with
      | .notSupported => answerMb t.1 .notSupported [] t.2
      | .hold => if lens r.length then hold t.1 t.2 else answerMb t.1 .malformed [] t.2
      | .run => if lens r.length then body t.1 t.2 else answerMb t.1 .malformed [] t.2

/-- A request with no held form. -/
def mbSimple (r : MbReq) (op sub : Nat) (lens : Nat → Bool) (body : Open → State → State) (s : State) : State :=
  mbRun r op sub lens body body s

/-- A page of a long result from byte `cursor`: up to `room` bytes, and the next cursor, 0 when the last byte is sent. -/
def pageFrom (bs : List Byte) (cursor room : Nat) : List Byte × Nat :=
  ((bs.drop cursor).take room, if bs.length ≤ cursor + room then 0 else cursor + room)

/-! ### IDENTIFY, MB_CTRL, unknown operations -/

/-- IDENTIFY (R586). -/
def execIdentify (r : MbReq) (s : State) : Host.Outcome State Fault Refusal :=
  .next (mbSimple r 0x01 0 (· == 0) (fun q t => answerMb q .done (identifyPayload t r.fn) t) s)

/-- Sub-codes Table 3-16's operations give a meaning to (R499, R504, R474, R540, R429, R543, R550). -/
def subListed (op sub : Nat) : Bool :=
  match op with
  | 0x13 => decide (sub ≤ 1)
  | 0x14 => decide (sub ≤ 1)
  | 0x20 => decide (sub ≤ 2)
  | 0x40 => decide (1 ≤ sub) && decide (sub ≤ 10)
  | 0x50 => decide (sub ≤ 4)
  | 0x51 => sub == 1 || sub == 2
  | 0x70 => decide (1 ≤ sub) && decide (sub ≤ 3)
  | _ => true

/-- UNKNOWN_OPERATION (R116): NOT_SUPPORTED for an operation not listed; a listed one with an action byte or section code that
its rule does not list is answered MALFORMED (R540, R550; log entry 14). -/
def execUnknownOperation (r : MbReq) (op sub : Nat) (s : State) : Host.Outcome State Fault Refusal :=
  .next (mbSimple r op sub (fun _ => true) (fun q t => answerMb q .malformed [] t) s)

/-- The write-one-to-clear bits of MB_CTRL (R582, R585). -/
def clearMb (fn : Nat) (done rejected : Bool) (s : State) : State :=
  onFn fn (fun f => { f with mb := { f.mb with done := f.mb.done && !done, rejected := f.mb.rejected && !rejected } }) s

/-- MB_CTRL_CLEAR (R585). -/
def execMbCtrlClear (fn : Nat) (done rejected : Bool) (s : State) : Host.Outcome State Fault Refusal :=
  .next (clearMb fn done rejected s)

/-- A write to a vector control word of the MSI-X table, offset 0x8000 + 16v + 8, bit 32 masking the vector: a vector unmasked
with its pending bit set fires (R579, R114). -/
def msixWrite (fn off value : Nat) (s : State) : State :=
  let v := (off - 0x8000) / 16
  let s1 := onFn fn (fun f => { f with msixTable := setCount f.msixTable (off - 0x8000) value }) s
  if off % 16 = 8 then
    if value.testBit 32 then onFn fn (fun f => { f with masked := if f.masked.contains v then f.masked else f.masked ++ [v] }) s1
    else
      let s2 := onFn fn (fun f => { f with masked := f.masked.filter (· != v) }) s1
      if (fnOf s2 fn).pba.contains v then fire fn v (onFn fn (fun f => { f with pba := f.pba.filter (· != v) }) s2) else s2
  else s1

/-- REGISTER_WRITE (R578, R579, R582): the MSI-X table and MB_CTRL take a write; of MB_CTRL the clears act first,
then a 1 in GO (R585), which here submits a request area of zeros, the area of a request being its own command (log entry 180); a write into the sprue window
that is no whole slot is discarded and counted (R91); every other write has no effect. -/
def execRegisterWrite (fn bar offset value : Nat) (s : State) : Host.Outcome State Fault Refusal :=
  match bar with
  | 0 =>
    if offset = 0x220 then
      let s1 := clearMb fn (value.testBit 2) (value.testBit 3) s
      .next (if value.testBit 0 then mbSimple { fn := fn, minor := 0, tag := 0, length := 0, partition := 0 } 0 0 (fun _ => true) (fun _ t => t) s1 else s1)
    else if 0x8000 ≤ offset ∧ offset < 0x10000 then .next (msixWrite fn offset value s)
    else .next s
  | 2 => .next (onFn fn (fun f => { f with discarded := f.discarded + 1 }) s)
  | _ => .next s

/-! ### HEALTH_READ and LOG_READ -/

/-- Of a store namespace: its capacity, what its objects hold and have reserved, its groups, those in use, its spares, whether it is read-only,
and the erase counts of its groups (R247, R266). -/
def healthNs (s : State) (n : Ns) : List Nat :=
  let objs := s.store.objs.filter fun o => o.ns == n.num
  let gs := s.store.groups.filter fun g => g.ns == n.num
  [n.num, n.capacity, (objs.map Obj.pages).sum, (objs.map Obj.reserved).sum, n.total, gs.countP fun g => g.state != .free, n.spares, n.readOnly.toNat] ++
    gs.map Group.erases

/-- Of a recall shard: its live, tombstone and retired counts, whether a pass is running and whether it is marked damaged (R324, R326). -/
def healthShard (h : Shard) : List Nat :=
  let count := fun (st : NState) => h.nodes.countP fun n => n.state == st
  [count .live, count .tombstone, count .retired, h.repair.isSome.toNat, h.damaged.toNat]

/-- Of an SC die: whether it has failed, the position behind each logical cluster, its spare (R26, R28). -/
def healthDie (d : ScDie) : List Nat :=
  [d.num, d.failed.toNat] ++ d.logical.map (fun l => l.getD 0xFF) ++ [d.spare.getD 0xFF]

/-- What a health section reports (R550, sections 3 to 10): models with state and bytes streamed (R205), store namespaces, recall shards, dies,
clusters, spares and fenced units, rail energy counts each with its meter value and unattributed energy (R362, R379), tenant keys by label (R460),
the counters of R232, R370 and R269, and the ageing history. -/
def healthFacts (s : State) (code : Nat) : List Nat :=
  match code with
  | 3 => (s.models.map fun m => [m.num, m.state, m.bytes]).flatten
  | 4 => (s.store.nss.map (healthNs s)).flatten
  | 5 => (s.rcl.shards.map healthShard).flatten
  | 6 => ((s.dies.filter ScDie.fitted).map healthDie).flatten ++ s.dev.failed ++ s.links.lostRunners
  | 7 => (s.ledger.counts.map fun c => [c.die, c.rail, c.uj, c.ns]).flatten ++ [s.ledger.unattributed]
  | 8 => (s.tens.map fun t => [t.id, t.label]).flatten
  | 9 => (s.tiers.demotions.map fun d => [d.1, d.2]).flatten ++ (s.tiers.revivals.map fun d => [d.1, d.2]).flatten ++ [s.ledger.overruns] ++
    s.store.nss.map Ns.refused
  | 10 => ((((hrGoverning s.nor).map HealthRec.ageing).getD []).map fun a => [a.powered, a.die, a.kind, a.value]).flatten
  | _ => []

/-- The bytes of a health section (R550): the summary, the port reports, and sections whose layout the manual does not give, as
free bytes of what each reports. -/
def healthSection (s : State) (code : Nat) : List Byte :=
  match code with
  | 1 => healthSummary s
  | 2 => ((s.links.ports.filter fun p => decide (p.num < portCount s.part)).map (portReport s.free)).flatten
  | _ => Config.healthBytes code (healthFacts s code)

/-- HEALTH_READ (R550). -/
def execHealthRead (r : MbReq) (sect cursor : Nat) (s : State) : Host.Outcome State Fault Refusal :=
  .next (mbSimple r 0x40 sect (· == 8) (fun q t =>
    if subListed 0x40 sect then
      let bs := healthSection t sect
      let p := pageFrom bs cursor 4064
      answerMb q .done (leBytes 2 sect ++ zeros 2 ++ leBytes 4 bs.length ++ leBytes 4 p.2 ++ zeros 4 ++ p.1) (drawFree t)
    else answerMb q .malformed [] t) s)

/-- The entries a LOG_READ returns: from `start`, 0 for the oldest held, up to 127 (R552). -/
def logPage (s : State) (start : Nat) : List LogEntry :=
  (s.dev.log.filter fun e => decide (start ≤ e.sequence)).take 127

/-- The sequence number after a page of the log: one above its last entry, or the number the next entry will take. -/
def logNextOf (s : State) (es : List LogEntry) : Nat :=
  match es.getLast? with | some e => e.sequence + 1 | none => s.dev.logNext

/-- LOG_READ (R552). -/
def execLogRead (r : MbReq) (start : Nat) (s : State) : Host.Outcome State Fault Refusal :=
  .next (mbSimple r 0x41 0 (· == 8) (fun q t =>
    let es := logPage t start
    answerMb q .done (leBytes 4 es.length ++ zeros 4 ++ leBytes 8 (logNextOf t es) ++ (es.map logBytes).flatten) t) s)

/-! ### ATTEST (R473 to R477) -/

/-- The partition of a request resolved: the function's own where 0xFFFF names it; absent for every partition. -/
def reportPartition (s : State) (r : MbReq) : Option Nat :=
  match vfPartition s r.fn with
  | some p => some p
  | none => if r.partition = 0xFFFF then none else some r.partition

/-- Eight firmware digests of Table 16-10, zero where a core is absent or not loaded. -/
def firmwareDigests (s : State) : List Byte :=
  let loaded := s.dev.code != .safeTalk
  let one := fun (hub cls : Nat) =>
    if decide (hub < hubCount s.part) && (cls == 1 || loaded) && (cls == 1 || s.dev.image.isSome) then
      leBytes 64 (Config.firmwareDigest cls ((hubOf s hub).image)) else zeros 64
  leBytes 64 (Config.firmwareDigest 0 0) ++ one 0 1 ++ one 1 1 ++ one 0 2 ++ one 1 2 ++ one 0 3 ++ one 1 3 ++
    (if loaded && s.dev.image.isSome then leBytes 64 (Config.firmwareDigest 4 s.dev.slot) else zeros 64)

/-- The 32 bytes that the alias key is generated from: of the device secret, the firmware digests, the image digest, and the lifecycle and
unlock-count bytes (R472). -/
def aliasSeed (s : State) : List Byte :=
  (sha3 (Config.deviceSecret ++ firmwareDigests s ++ leBytes 64 ((s.dev.image.map Image.digest).getD 0) ++ leBytes 1 1 ++ leBytes 1 s.sec.unlocks)).take 32

/-- A hub's alias key generated at its start (R472, R519). -/
def deriveAlias (hub : Nat) (s : State) : State := onHub hub (fun h => { h with seed := aliasSeed s }) s

/-- T2 extents a partition holds (Table 16-11). -/
def extentsHeld (s : State) (p : Nat) : Nat := ((s.tiers.pools.filter fun x => x.partition == p).map Pool.extents).sum

/-- A partition entry (Table 16-11), with its state alone where the report does not cover it (R477). -/
def partitionEntry (s : State) (cover : Option Nat) (p : Partition) : List Byte :=
  if cover = none ∨ cover = some p.num then
    leBytes 1 (bit p.active) ++ zeros 1 ++ leBytes 2 (s.tens.countP fun t => t.partition == p.num) ++ leBytes 4 p.clusters ++
      leBytes 4 p.stackSet ++ leBytes 4 (extentsHeld s p.num) ++ leBytes 8 p.link0 ++ leBytes 8 p.link1
  else padTo 32 (leBytes 1 (bit p.active))

/-- Bytes 0 to 831 of a report (Table 16-10). -/
def reportHead (s : State) (r : MbReq) (fmt len signed nonce : Nat) : List Byte :=
  let cover := reportPartition s r
  let im := s.dev.image
  [0x54, 0x53, 0x41, 0x52] ++ leBytes 2 0x0100 ++ leBytes 1 fmt ++ leBytes 1 (cover.getD 0xFF) ++ leBytes 4 len ++
    leBytes 4 signed ++ leBytes 2 (partNumber s.part) ++ leBytes 1 0xB0 ++ leBytes 1 s.dev.leading ++ leBytes 2 s.rack.num ++
    leBytes 2 r.fn ++ leBytes 8 Config.factorySerial ++ leBytes 64 nonce ++ leBytes 1 1 ++
    leBytes 1 (bit true + bit s.sec.open_ * 2) ++ leBytes 1 s.sec.unlocks ++
    leBytes 1 (bit (s.dev.code == .safeTalk) + bit (degraded s) * 2 + bit (unprotected s) * 4 + bit s.sec.destroyed * 8) ++
    leBytes 4 s.nor.fuses ++ leBytes 4 ((im.map Image.imageVersion).getD 0) ++ zeros 4 ++
    leBytes 64 ((im.map Image.digest).getD 0) ++ firmwareDigests s ++ (s.parts.map (partitionEntry s cover)).flatten ++ zeros 16

/-- The 4,627 bytes of the signature by the leading hub's alias key: open content (Config). -/
def signatureBytes (s : State) (signed : List Byte) : List Byte :=
  (List.range 4627).map (Config.signature (hubOf s s.dev.leading).seed s.free signed)

/-- The native report (R475). -/
def nativeReport (s : State) (r : MbReq) (nonce : Nat) : List Byte :=
  let h := reportHead s r 1 5459 832 nonce
  h ++ signatureBytes s h

/-- A model entry (Table 16-12). -/
def modelEntry (m : Model) : List Byte :=
  leBytes 2 m.num ++ leBytes 1 m.state ++ leBytes 1 m.partition ++ leBytes 1 m.copies ++ zeros 3 ++
    leBytes 8 ((m.program.map ModelProgram.parameters).getD 0) ++ padTo 64 m.programDigest ++
    (if m.state = 2 then padTo 64 m.digest else zeros 64)

/-- The Snirdaob-compatible report: the native head with format 2, then the models covered in ascending number (R476). -/
def snirdaobReport (s : State) (r : MbReq) (nonce : Nat) : List Byte :=
  let cover := reportPartition s r
  let ms := sortBy Model.num (s.models.filter fun m => decide (cover = none ∨ cover = some m.partition))
  let n := ms.length
  let h := reportHead s r 2 (5523 + 144 * n) (896 + 144 * n) nonce ++ leBytes 2 n ++ zeros 62 ++ (ms.map modelEntry).flatten
  h ++ signatureBytes s h

/-- The certificate chain (R473). -/
def certificateChain (s : State) : List Byte :=
  Config.certificates (hubOf s s.dev.leading).seed identitySeed importSeed Config.factorySerial

/-- A page of a function's held result: total length, next cursor, 8 reserved bytes, up to 4,064 bytes (R474). -/
def attestPage (q : Open) (bs : List Byte) (cursor : Nat) (s : State) : State :=
  let p := pageFrom bs cursor 4064
  answerMb q .done (leBytes 4 bs.length ++ leBytes 4 p.2 ++ zeros 8 ++ p.1) s

/-- ATTEST: cursor 0 builds a result and holds it; another cursor reads on in the held result of the same mode (R474). -/
def attest (r : MbReq) (mode cursor : Nat) (build : State → List Byte) (s : State) : State :=
  mbSimple r 0x20 mode (· == 72) (fun q t =>
    if cursor = 0 then
      let bs := build t
      attestPage q bs 0 (drawFree (onFn r.fn (fun f => { f with attest := some { mode := mode, bytes := bs } }) t))
    else match (fnOf t r.fn).attest with
      | none => answerMb q .malformed [] t
      | some a => if a.mode ≠ mode ∨ a.bytes.length < cursor then answerMb q .malformed [] t else attestPage q a.bytes cursor t) s

/-- ATTEST mode 0 (R473). -/
def execAttestChain (r : MbReq) (cursor : Nat) (s : State) : Host.Outcome State Fault Refusal :=
  .next (attest r 0 cursor certificateChain s)

/-- ATTEST mode 1 (R475). -/
def execAttestNative (r : MbReq) (cursor nonce : Nat) (s : State) : Host.Outcome State Fault Refusal :=
  .next (attest r 1 cursor (fun t => nativeReport t r nonce) s)

/-- ATTEST mode 2 (R476). -/
def execAttestSnirdaob (r : MbReq) (cursor nonce : Nat) (s : State) : Host.Outcome State Fault Refusal :=
  .next (attest r 2 cursor (fun t => snirdaobReport t r nonce) s)

/-! ### TAP_SETUP and VECTOR_SET (R117) -/

/-- TAP_SETUP: accepted only while the function has no ring, at a base on 4 KiB, of 2^10 to 2^20 records; what waits in the
backlog is then written (R107, R117). -/
def execTapSetup (r : MbReq) (base logSize : Nat) (s : State) : Host.Outcome State Fault Refusal :=
  .next (mbSimple r 0x60 0 (· == 16) (fun q t =>
    if (fnOf t r.fn).ring = none ∧ base % 4096 = 0 ∧ 10 ≤ logSize ∧ logSize ≤ 20 then
      answerMb q .done [] (drainBacklog r.fn (onFn r.fn (fun f => { f with ring := some (base, logSize) }) t))
    else answerMb q .malformed [] t) s)

/-- VECTOR_SET: vector 0 or 3 to 2,047, c of 1 to 65,536, i of at most 1,000,000 µs (R114, R117). -/
def execVectorSet (r : MbReq) (vector count interval : Nat) (s : State) : Host.Outcome State Fault Refusal :=
  .next (mbSimple r 0x61 0 (· == 12) (fun q t =>
    if (vector = 0 ∨ (3 ≤ vector ∧ vector ≤ 2047)) ∧ 1 ≤ count ∧ count ≤ 65536 ∧ interval ≤ 1000000 then
      answerMb q .done [] (onFn r.fn (fun f =>
        { f with vectors := upsert VecCfg.vector { vector := vector, count := count, interval := interval } f.vectors }) t)
    else answerMb q .malformed [] t) s)

end Sys2Proof.Machine
end

