-- ==== Sys2Proof/Machine/Images.lean ====
section
/-! DEFINITION. The Alsol image: which images verify, what its contents may be, and what a start takes from it (R287, R304, R329, R455, R456,
R482 to R490, R492). -/

namespace Sys2Proof.Machine

/-! ### Verification (R484) -/

/-- The owner-key rule (R487): no key enrolled, the enrolled key, or a key endorsed by it. -/
def ownerOk (owner : Option Nat) (im : Image) : Bool :=
  im.ownerSigOk &&
    match owner with
    | none => true
    | some k => im.ownerKey == k || im.endorsedBy == some k

/-- Steps 1 to 4 of R484: part, stepping and length; digests; manifest and security version; owner signature. -/
def verifies (s : State) (im : Image) : Bool :=
  im.part == partNumber s.part && im.stepping == 0xB0 && im.lengthFits && im.digestsOk && im.manifestOk &&
    decide (im.securityVersion ≤ 64) && decide (s.nor.fuses ≤ im.securityVersion) && ownerOk ((hrGoverning s.nor).bind HealthRec.owner) im

/-! ### Contents (R484, step 5) -/

/-- A value in a range. -/
def within (lo hi v : Nat) : Bool := decide (lo ≤ v) && decide (v ≤ hi)

/-- Records in ascending code-point order. -/
def ascendingFrom : Nat → List (Nat × Nat × Nat) → Bool
  | _, [] => true
  | at_, r :: rest => decide (at_ ≤ r.1) && decide (r.1 ≤ r.2.1) && ascendingFrom (r.2.1 + 1) rest

/-- The normalisation section: Unicode 15.1.0, its range records ascending (R485). -/
def normOk (n : Option NormData) : Bool :=
  n.any fun d => d.version == (15, 1, 0) && ascendingFrom 0 d.combining && ascendingFrom 0 d.quickCheck

/-- Board power in watts (Table 17-5). -/
def envelopeOk (p : Part) (w : Nat) : Bool := match p with | .tsn8840 => within 900 2000 w | .tsn4420 => within 450 1000 w

/-- Every field of the board description that has a range lies in it (R489, Tables 12-3 and 17-5). -/
def boardOk (p : Part) (b : BoardDesc) : Bool :=
  envelopeOk p b.envelope && within 550 900 b.targetMv && within 1000 10000000 b.windowUs && within 0 2000 b.holdUpJ && within 100 1000 b.pSaveW &&
    within 100 3200 b.chillRate && within 1 100 b.slew && decide (b.chillModules < 4) && within 1000 1000000 b.mouldBudget &&
    within 100 100000 b.readTimeout && within 0 4294967295 b.orphanUs && within 1 8 b.targets && within 1 8 b.luns &&
    (b.planes == 2 || b.planes == 4) && (b.bitsPerCell == 3 || b.bitsPerCell == 4) && within 384 4608 b.blockPages && within 1 32 b.retryLevels &&
    within 500 100000 b.eraseLimit && b.shares.sum == 100 && (b.ports.all fun d => decide (d.role ≤ 2)) &&
    decide (((b.ports.take (portCount p)).take 16).countP (fun d => d.role == 1) ≤ 12) &&
    decide (((b.ports.take (portCount p)).drop 16).countP (fun d => d.role == 1) ≤ 12)

/-- Whether no resource is given to two partitions. -/
def apart : List PartitionItem → Bool
  | [] => true
  | x :: rest =>
    (rest.all fun y => x.partition != y.partition && x.clusterMask &&& y.clusterMask == 0 && x.stackMask &&& y.stackMask == 0 &&
      x.link0 &&& y.link0 == 0 && x.link1 &&& y.link1 == 0) && apart rest

/-- The partitions section (R455, R456). -/
def layoutOk (l : List PartitionItem) : Bool := apart l && l.all fun x => decide (x.partition < 4) && balanced x.clusterMask x.stackMask

/-- The checks whose failure makes the slot invalid (R484, R485, R489, R455). -/
def contentOk (s : State) (im : Image) : Bool := normOk im.norm && boardOk s.part im.board && layoutOk im.partitions

/-- A slot whose image a start may take (R484). -/
def slotOk (s : State) (im : Option Image) : Bool := im.any fun i => verifies s i && contentOk s i

/-! ### Slots (R492) -/

/-- The image of a NOR slot. -/
def slotImage (s : State) (slot : Nat) : Option Image := if slot = 0 then s.nor.slotA else s.nor.slotB

/-- An image written into a NOR slot. -/
def writeSlot (slot : Nat) (im : Image) (s : State) : State :=
  if slot = 0 then { s with nor := { s.nor with slotA := some im } } else { s with nor := { s.nor with slotB := some im } }

/-- The other slot. -/
def otherSlot (slot : Nat) : Nat := if slot = 0 then 1 else 0

/-! ### What is taken from an image at a start -/

/-- A tokeniser table that R287 takes: kind and vocabulary in range. -/
def tokeniserOk (t : Tokeniser) : Bool :=
  t.version == 0x0100 && decide (t.kind ≤ 1) && within 1 262144 t.tokens.length && within 1 255 t.longest

/-- A template that R329 takes: five well-formed sections of at most 1,024 bytes. -/
def templateOk (t : Template) : Bool :=
  within 1 65535 t.number && [t.pfx, t.item, t.separator, t.suffix, t.none].all fun x => decide (x.length ≤ 1024) && wellFormedText x

/-- A mould's header (Table 9-3). -/
def mouldShape (m : Mould) : Bool := within 1 65535 m.number && within 5 64 m.classes && within 1 64 m.depth

/-- Moulds loaded in image order: those whose T_m the budget holds, at most 4,096, of at most 256 MiB; each rejection is
logged (R304), its data the identifier in the high 32 bits and T_m in whole microseconds in the low (log entry 206). -/
def loadMoulds (tabs : List Tokeniser) (budget : Nat) (ms : List Mould) (s : State) : State :=
  forEach ms (fun m t =>
    let time := ((findKey Tokeniser.number m.tokeniser tabs).map (mouldTime m)).getD 0
    let room := decide (t.dev.moulds.length < 4096) && decide ((t.dev.moulds.map Mould.length).sum + m.length ≤ 268435456)
    if mouldShape m && (findKey Tokeniser.number m.tokeniser tabs).isSome && decide (time ≤ budget) && room then
      { t with dev := { t.dev with moulds := t.dev.moulds ++ [m] } }
    else note (leadDie t) (m.number * 4294967296 + time) t) { s with dev := { s.dev with moulds := [] } }

/-- Tables, templates and moulds of the running image loaded (R287, R304, R329, R484). -/
def loadTables (im : Image) (s : State) : State :=
  let tabs := im.tokenisers.filter tokeniserOk
  loadMoulds tabs im.board.mouldBudget im.moulds
    { s with dev := { s.dev with tokenisers := tabs, templates := im.templates.filter templateOk } }

/-- Every cluster, stack and virtual function of a part (R455: a section with no body). -/
def wholePartition (p : Part) : Partition :=
  { num := 0, active := true, clusters := 2 ^ (8 * scCount p) - 1, stackSet := 2 ^ (6 * scCount p) - 1, link0 := 2 ^ 64 - 2
    link1 := if linkCount p = 2 then 2 ^ 64 - 2 else 0 }

/-- The partition layout of an image (R455). -/
def imageParts (p : Part) (l : List PartitionItem) : List Partition :=
  let unused : List Partition := [{ num := 0 }, { num := 1 }, { num := 2 }, { num := 3 }]
  if l.isEmpty then updKey Partition.num 0 (fun _ => wholePartition p) unused
  else unused.map fun q =>
    match l.find? fun x => x.partition == q.num with
    | none => q
    | some x => if x.action = 0 then q
                else { num := q.num, active := true, clusters := x.clusterMask, stackSet := x.stackMask, link0 := x.link0, link1 := x.link1 }

end Sys2Proof.Machine
end

