-- ==== Sys2Proof/Machine/Restore.lean ====
section
/-! DEFINITION. Restoring sessions at a start: from a valid checkpoint slot, by a restore item, from the anchor log, or from the store's
object table (R422, R432 to R434, R445 to R452, R466, R543, R549). -/

namespace Sys2Proof.Machine

/-! ### Which slot (R445, R450) -/

/-- The logical clusters of the package that are enabled (Table 15-6). -/
def clusterMask (s : State) : Nat :=
  (((List.range (8 * scCount s.part)).filter (clusterOn s)).map (2 ^ ·)).sum

/-- A slot's number: 0 or 1. -/
def ckSlot (s : State) (k : Nat) : Option CkSlot := if k = 0 then s.chk.slot0 else s.chk.slot1

/-- A valid slot at a start (R445): its records on every module that wrote it, this package's serial, and its body as written. -/
def slotValid (digestOk : List Bool) (s : State) (k : Nat) : Option CkSlot :=
  (ckSlot s k).filter fun c => c.valid && c.serial == Config.factorySerial && c.modules == chillCount s && flagAt digestOk k

/-- The newer of two slots. -/
def newerSlot (a b : Option CkSlot) : Option CkSlot :=
  match a, b with
  | some x, some y => if x.number < y.number then some y else some x
  | some x, none => some x
  | none, y => y

/-- The slot that a start restores from. -/
def bestSlot (digestOk : List Bool) (s : State) : Option CkSlot := newerSlot (slotValid digestOk s 0) (slotValid digestOk s 1)

/-- A slot of this package's present shape (R450). -/
def sameShape (s : State) (c : CkSlot) : Bool := c.part == s.part && c.scDies == scCount s.part && c.clusters == clusterMask s

/-! ### Sessions -/

/-- Whether the package's own table holds the tenant's key that a checkpoint names, by the check value that its package section carries (R466). -/
def keyFits (s : State) (t : Tenant) : Bool := t.key.any fun k => (keyOf s t.id).any fun own => keyCheck own == keyCheck k

/-- A session whose tenant's key is at hand. -/
def keyed (s : State) (tens : List Tenant) (x : Session) : Bool := tens.any fun t => t.id == x.tenant && keyFits s t

/-- A page as a restore brings it back: cast pages below T1, molten state in T1 (R446). -/
def restoredPage (g : Page) : Page :=
  match g.cond with
  | .cast => { g with inT1 := false, frame := noFrame, unselected := 0, selected := false }
  | .frozen => g
  | _ => { g with inT1 := true, frame := noFrame }

/-- A MOVING session as Table 14-5's origin takes it up again: in its state before switch-over (R422). -/
def unmoved (x : Session) : Session :=
  if x.state = .moving then { x with state := x.before.getD .opened, before := none } else x

/-- A session of a checkpoint: its operation rolled back, its home die chosen again, its slot left to the rosters (R227, R432, R446). -/
def restoredSession (s : State) (x : Session) : Session :=
  let y := unmoved x
  let die := chooseDie s (sessPart s x)
  { y with op := none, slot := none, homeDie := die, restored := true, lastWorked := 0, copying := x.copying, queuedAt := x.queuedAt
           pages := y.pages.map restoredPage
           blks := if resident y then [] else y.blks, leaves := y.leaves.map fun l => if resident y then { range := l.range } else l }

/-- A session put among those held, under its own draw of free values. -/
def takeSession (x : Session) (s : State) : State := seat x.handle (drawFree (addSess (restoredSession s x) s))

/-- A PARKED session whose ingot is gone or cannot be read without its tenant's key is LOST (R267, R543). -/
def checkIngot (x : Session) (s : State) : State :=
  if x.state = .parked then
    let ok := (findObj s x.ingot).any fun o => o.committed && !o.deleted
    let key := ((findTen s x.tenant).bind Tenant.key).isSome
    if ok && key then s else loseSession false x.handle s
  else s

/-- Roster entries whose sessions the package does not hold, emptied. -/
def pruneRosters (s : State) : State :=
  { s with sched := { s.sched with flasks := s.sched.flasks.map fun f =>
      { f with roster := f.roster.map fun h => if h ≠ 0 ∧ (findSess s h).isNone ∧ (shardPart s f.model).isNone then 0 else h } } }

/-- The anchor log after a restore: current row casts kept, every session's entry appended (R433). -/
def reanchor (s : State) : State :=
  let rows := s.chk.anchors.filter fun a => a.kind == 0 && (findSess s a.handle).any fun x => decide (16 * a.row + 16 ≤ x.w) && x.state != .parked
  let kind := fun (x : Session) => match x.state with | .warm => 2 | .parked => 3 | .closed => 4 | .lost => 5 | _ => 1
  forEach s.sess (fun x t => anchor (kind x) x.handle t) { s with chk := { s.chk with anchors := rows } }

/-- Store objects after a restore: those the sessions name stand, every later one goes (R434, R453). -/
def settleObjects (s : State) : State :=
  let wanted := fun (o : Obj) => (findSess s o.handle).any fun x => if o.ingot then x.ingot == o.num || x.copying else x.durability == 2
  let kept : State := { s with store := { s.store with objs := s.store.objs.map fun o => if wanted o then { o with deleted := false } else o } }
  deleteObjs 0 (fun o => !wanted o) kept

/-! ### Recall (R322, R324, R327) -/

/-- A shard read back from its frozen tables: an insertion not yet live never was. -/
def thawShard (ok : Bool) (h : Shard) : Shard :=
  { h with nodes := h.nodes.map (fun n => if n.state = .linking then { num := n.num, gen := n.gen } else n), inserting := none
           repair := none, frozen := false, damaged := h.damaged || !ok }

/-! ### Pour state (R452) -/

/-- Suspended pours brought back under new numbers, the oldest first (R11, R452). -/
def renumber (pours : List Pour) (ctxs : List Ctx) (s : State) : State :=
  let n := s.sched.next
  let olds := pours.reverse.map Pour.number
  let fresh := fun (k : Nat) => match olds.findIdx? (· == k) with | some i => n + i | none => k
  { s with sched := { s.sched with suspended := pours.map (fun p => { p with number := fresh p.number, preempt := none })
                                   next := n + pours.length }
           cores := { s.cores with ctxs := ctxs.map fun c => { c with saved := c.saved.map fresh } } }

/-- Pour state that is not brought back: each slot keeps what it held before the pour (R138, R452). -/
def dropPourState (pours : List Pour) (s : State) : State :=
  forEach (pours.map Pour.works).flatten (fun w t => if isWorking w then discardWork w t else t) s

/-! ### From this package's slot (R446, R447) -/

/-- Binds that a model table shows BINDING are abandoned, with a health event (R549). -/
def dropBinding (s : State) : State :=
  let lost := s.models.filter fun m => m.state == 1
  forEach lost (fun m t => healthEvent (leadDie t) (m.num * 2 ^ 48 + m.bytes) t) { s with models := s.models.filter fun m => m.state != 1 }

/-- A tenant of the package section: its key from this package's table, its removal from the retired mark (R466, R471). -/
def restoredTenant (s : State) (t : Tenant) : Tenant :=
  let gone := (hrGoverning s.nor).any fun r => r.keys.any fun k => k.tenant == t.id && k.retired
  { t with key := if keyFits s t then t.key else none, retiring := t.retiring || gone, removal := if gone then 2 else t.removal, counters := {} }

/-- The package section loaded and its extent table mapped (R446, steps 1 and 2), with pools that no longer present their extents failed. -/
def loadPackage (present : Nat) (recallOk : Bool) (c : CkSlot) (s : State) : State :=
  let v := c.saved
  let pools := v.pools.map fun q => if bitAt present q.num then q else { q with failed := true }
  dropBinding
    { s with tens := v.tens.map (restoredTenant s), parts := v.parts, models := v.models.map fun m => { m with arrived := [] }
             sched := { s.sched with flasks := v.flasks.map fun f => { f with lastPour := 0 } }
             tiers := { s.tiers with placements := v.placements, hRegions := v.hRegions, pools := pools, extents := v.extents }
             stg := { s.stg with committed := v.committed }, rcl := { s.rcl with shards := v.shards.map (thawShard recallOk) }
             chk := { s.chk with rounds := v.rounds } }

/-- Sessions that a copy's failure or a missing ingot touches, settled (R446: Table 7-10 afterwards). -/
def settleRestored (hs : List Nat) (s : State) : State :=
  let s1 := forEach hs (fun h t => if (findSess t h).any (touchesFailed t) then settleLoss false h t else t) s
  forEach (s1.sess.filter fun x => hs.contains x.handle) checkIngot s1

/-- The record after a restore from a live checkpoint (R447). -/
def liveRecord (h : Nat) (s : State) : State :=
  match findSess s h with
  | none => s
  | some x => if resident x then emitOut false x { outcome := .truncated, length := x.p, d0 := x.p, d1 := 0xFFFFFFFF } s else s

/-- Sessions of a checkpoint taken up, those whose key is not at hand reported (R446, R466, R65). -/
def takeSessions (c : CkSlot) (xs : List Session) (s : State) : State :=
  let live := xs.filter fun x => x.state != .closed && x.state != .lost && x.state != .free
  let ok := live.filter (keyed s c.saved.tens)
  let bad := (live.filter fun x => !keyed s c.saved.tens x).map Session.handle
  let s1 := forEach ok takeSession s
  { s1 with chk := { s1.chk with unrestored := s1.chk.unrestored ++ bad } }

/-- The owner regions of a copy below T1 that a restore finds in place: its tenant's, and not cleared (R436). -/
def keepTags (tenant : Nat) (c : Place) (s : State) : State :=
  let keep := fun (tier unit : Nat) (rs : List Nat) (t : State) =>
    { t with tiers := { t.tiers with owners := t.tiers.owners ++
        ((rs.filter fun r => !(t.tiers.owners.any fun o => o.tier == tier && o.unit == unit && o.region == r)).map fun r =>
          ({ tier := tier, unit := unit, region := r, owner := tenant } : Owner)) } }
  let t2 := fun (a : Nat) (t : State) => if a = noAddress then t else keep 2 (a / 2 ^ 30) (regionsOf (a % 2 ^ 30 / 1024) c.kib) t
  t2 (if c.second then c.lower1 else noAddress) (t2 (if c.first then c.lower0 else noAddress) s)

/-- Every region that a restored object refers to tagged; one that none does counts as owned by no tenant (R436). -/
def retag (s : State) : State := forEach s.sess (fun x t => forEach (placesOf t x) (keepTags x.tenant) t) s

/-- What follows the sessions' return: slots, pour state, objects, losses, records, the anchor log. -/
def finishRestore (c : CkSlot) (pourState : Bool) (hs : List Nat) (s : State) : State :=
  let s1 := reslot (pruneRosters s)
  let s2 := if pourState then renumber c.saved.pours c.saved.ctxs s1 else dropPourState c.saved.pours s1
  let s3 := settleRestored hs (settleObjects (retag s2))
  reanchor (if c.kind = 2 then forEach hs liveRecord s3 else s3)

/-- The package restored from its own valid slot (R446, R447, R452). -/
def restoreSlot (present : Nat) (recallOk : Bool) (c : CkSlot) (s : State) : State :=
  let s1 := takeSessions c c.saved.sess (loadPackage present recallOk c s)
  finishRestore c true (s1.sess.map Session.handle) s1

/-! ### By a restore item (R450 to R452) -/

/-- Whether a handle falls to an item's share (R451). -/
def inShare (b : RestoreItem) (h : Nat) : Bool := (h % 2 ^ 52) % max 1 b.shares == b.share

/-- A list per position of a list per head, cut to a head range. -/
def cutHeads {α : Type} (first heads : Nat) (l : List (List α)) : List (List α) := l.map fun hs => (hs.drop first).take heads

/-- A page cut to a range of its own heads. -/
def slicePage (first heads : Nat) (g : Page) : Page :=
  { g with keys := cutHeads first heads g.keys, values := cutHeads first heads g.values, patterns := (g.patterns.drop first).take heads
           sums := (g.sums.drop first).take heads, heads := some heads }

/-- New lower copies of a page by the durability class (R451: recast). -/
def recastPage (p : ModelProgram) (x : Session) (acc : List Page × State) (g : Page) : List Page × State :=
  if g.cond = .cast then
    match pickPools (placementOf acc.2 2 (sessPart acc.2 x) x.tenant 0) (pageBytes p g) (castCopies x.durability) [] acc.2 with
    | none => (acc.1 ++ [g], acc.2)
    | some ps => (acc.1 ++ [{ g with first := true, second := decide (1 < ps.length), pools := ps, lower0 := noAddress, lower1 := noAddress
                                     inH := false, inStore := false }], drawFree acc.2)
  else (acc.1 ++ [g], acc.2)

/-- The first KV head and the KV heads that a checkpoint holds of a session: those of its section header, else all (Table 15-4). -/
def savedHeads (c : CkSlot) (p : ModelProgram) (x : Session) : Nat × Nat :=
  match c.saved.hdrs.find? fun h => h.kind == 3 && h.handle == x.handle with
  | some h => (h.firstHead, h.heads)
  | none => (0, headsOf p x)

/-- A session of an item's model assembled from its section: left where no head of it falls in the item's range, refused where those that do are
not exactly the item's, whole where they are all of the section, else sliced and recast (R451). -/
def assemble (b : RestoreItem) (c : CkSlot) (x : Session) (s : State) : State :=
  match (if x.model = b.model then progOf s x.model else none) with
  | none => takeSession x s
  | some p =>
    let own := savedHeads c p x
    let lo := max own.1 b.firstHead
    let hi := min (own.1 + own.2) (b.firstHead + b.heads)
    if hi ≤ lo then s
    else if lo ≠ b.firstHead ∨ hi ≠ b.firstHead + b.heads then { s with chk := { s.chk with unrestored := s.chk.unrestored ++ [x.handle] } }
    else if own.2 = b.heads then takeSession x s
    else
      let r := (x.pages.map (slicePage (lo - own.1) b.heads)).foldl (recastPage p x) ([], s)
      takeSession { x with pages := r.1, recastPending := true, heads := if b.heads = p.kvHeads then none else some b.heads } r.2

/-- The checkpoint that an item names: of this package's own slots, or the export at its T2 address (R450). -/
def itemSlot (s : State) (b : RestoreItem) : Option CkSlot :=
  let fits := fun (c : Option CkSlot) => c.filter fun k => k.valid && k.package == b.sourcePackage && (b.checkpoint == 0 || k.number == b.checkpoint)
  if b.source = 0 then newerSlot (fits s.chk.slot0) (fits s.chk.slot1)
  else fits ((s.chk.exports.find? fun e => e.1 == b.exportAddr).map Prod.snd)

/-- Whether an item takes everything a slot holds (R452). -/
def takesAll (s : State) (b : RestoreItem) : Bool :=
  b.shares == 1 && b.share == 0 && (b.model == 0 || (progOf s b.model).all fun p => b.firstHead == 0 && b.heads == p.kvHeads)

/-- The package section's entries that fall to an item's share and are not here yet (R451). -/
def mergePackage (b : RestoreItem) (c : CkSlot) (s : State) : State :=
  let v := c.saved
  let mine := fun (t : Nat) => t % max 1 b.shares == b.share || v.sess.any fun x => x.tenant == t && inShare b x.handle
  let tens := v.tens.filter fun t => mine t.id && (findTen s t.id).isNone
  let flasks := (v.flasks.filter fun f => (findFlask s f.num).isNone).map fun f =>
    { f with lastPour := 0, roster := f.roster.map fun h => if inShare b h then h else 0 }
  let models := v.models.filter fun m => m.state != 1 && (findModel s m.num).isNone
  let shards := v.shards.filter fun h => mine h.item.tenant && (findShard s h.item.index h.item.shardNumber).isNone
  let places := v.placements.filter fun p => !(s.tiers.placements.any fun q => q.kind == p.kind && q.partition == p.partition && q.owner == p.owner && q.index == p.index)
  { s with tens := s.tens ++ tens.map (restoredTenant s), models := s.models ++ models
           sched := { s.sched with flasks := sortBy Flask.num (s.sched.flasks ++ flasks) }
           rcl := { s.rcl with shards := s.rcl.shards ++ shards.map (thawShard true) }
           tiers := { s.tiers with placements := s.tiers.placements ++ places } }

/-- A restore item carried out, from an own slot or from an export in T2; with none that it names, a mismatch is reported (R450;
log entry 79). -/
def restoreByItem (b : RestoreItem) (s : State) : State :=
  match itemSlot s b with
  | none => { s with chk := { s.chk with mismatch := true } }
  | some c =>
    let s1 := mergePackage b c s
    let xs := c.saved.sess.filter fun x =>
      inShare b x.handle && (findSess s x.handle).isNone && x.state != .closed && x.state != .lost && x.state != .free
    let ok := xs.filter (keyed s1 c.saved.tens)
    let bad := (xs.filter fun x => !keyed s1 c.saved.tens x).map Session.handle
    let s2 := forEach ok (assemble b c) s1
    finishRestore c (takesAll s1 b && s.sched.pour.isNone) (ok.map Session.handle) { s2 with chk := { s2.chk with unrestored := s2.chk.unrestored ++ bad } }

/-! ### From the anchor log (R448) -/

/-- Handles that the log names, in the order they first occur. -/
def anchored (l : List Anchor) : List Nat := (l.map Anchor.handle).eraseDups

/-- The newest entry of a session that tells its state. -/
def newestState (l : List Anchor) (h : Nat) : Option Anchor := (l.filter fun a => a.handle == h && a.kind != 0).getLast?

/-- The newest row-cast entry of a row. -/
def rowEntry (l : List Anchor) (h row : Nat) : Option Anchor := (l.filter fun a => a.handle == h && a.kind == 0 && a.row == row).getLast?

/-- The rows cast of a session from row 0 on. -/
def castRun (l : List Anchor) (h : Nat) : Nat → Nat → List Anchor
  | 0, _ => []
  | n + 1, row => match rowEntry l h row with | none => [] | some a => a :: castRun l h n (row + 1)

/-- Whether the newest state entry stands after every row cast of its session. -/
def stateLast (l : List Anchor) (h : Nat) : Bool := ((l.filter fun a => a.handle == h).getLast?).any fun a => a.kind != 0

/-- Recurrent state that only a replay of the positions restores: open values in the shape it has (R82, R448). -/
def replayed (free : Nat) (n : Nat) (bs : List RecBlock) : List RecBlock :=
  let fill := fun (layer h : Nat) (vs : List Nat) =>
    (List.range vs.length).map fun i => if n = 0 then 0 else Config.recurrentValue (free + layer) (h * 65536 + i)
  bs.map fun b => { b with heads := b.heads.mapIdx (fill b.layer) }

/-- A session's content as its cast rows hold it (R448): rewound under R82 where frames break a replay. -/
def fromRows (l : List Anchor) (x : Session) (s : State) : Session :=
  let rows := castRun l x.handle l.length 0
  let all := 16 * rows.length
  let toks := (rows.map Anchor.tokens).flatten
  let n := if !x.blocks.isEmpty && toks.contains frameToken then 0 else all
  let pgs := if n = 0 then [] else ((rows.map Anchor.pages).flatten).map restoredPage
  { x with state := .opened, slot := none, op := none, p := n, w := n, pendingTok := none, tokens := toks.take n, pages := pgs
           blocks := replayed s.free n x.blocks, snapshots := [], queue := [], queuedAt := 0, frameData := [], window := {}, calls := 0, call := none, text := {}
           heldMsgs := [], asks := [], homeDie := chooseDie s (sessPart s x), allowKind := 0, allowance := 0, ingot := 0, restored := true
           trimmed := none, copying := false, toWait := false, barged := false, before := none, revivalLate := false, recastPending := false, blks := []
           leaves := x.leaves.map wakeLeaf, header := none }

/-- A request in progress ended TRUNCATED, final; the same record without one, not final (R448). -/
def truncatedRecord (h d0 d1 : Nat) (s : State) : State :=
  match findSess s h with
  | none => s
  | some x =>
    if x.request.isSome then freeSpent h (endRequest false h .truncated none false d0 d1 s)
    else emitOut false x { outcome := .truncated, length := x.p, d0 := d0, d1 := d1 } s

/-- A live session rebuilt OPEN from its cast rows. -/
def rebuildOpen (l : List Anchor) (x : Session) (s : State) : State :=
  let y := fromRows l x s
  let d1 := if stateLast l x.handle then x.p else 0xFFFFFFFF
  arm x.handle (truncatedRecord x.handle y.p d1 (drawFree (addSess y s)))

/-- The length that the store journal holds against an ingot (R84). -/
def trimOf (s : State) (ingot : Nat) (n : Nat) : Nat :=
  match (findObj s ingot).bind Obj.trimmed with | some t => min t n | none => n

/-- A WARM or PARKED session restored as its entry stands; a PARKED one lowered to what the journal holds against its ingot. A request that a
WARM session had lives in T1 and ends with it (log entry 80). -/
def rebuildStill (x : Session) (s : State) : State :=
  let y := { x with slot := none, op := none, window := {}, queue := [], queuedAt := 0, frameData := [], heldMsgs := [], asks := [], text := {}, call := none
                    restored := true, toWait := false, barged := false, before := none, revivalLate := false }
  let lower := fun (n : Nat) => if x.state = .parked then trimOf s x.ingot n else n
  let z := { y with p := lower y.p, w := lower y.w, pendingTok := if lower y.w < y.w then none else y.pendingTok
                    trimmed := if lower y.w < y.w then some (lower y.w) else y.trimmed }
  let s1 := addSess z s
  checkIngot z (if z.request.isSome then truncatedRecord x.handle z.p z.p s1 else s1)

/-- A session reported unrestored: the applied state does not hold its tenant (R448). -/
def unrestore (h : Nat) (s : State) : State := { s with chk := { s.chk with unrestored := s.chk.unrestored ++ [h] } }

/-- One session of the anchor log rebuilt (R448). -/
def rebuildOne (l : List Anchor) (h : Nat) (s : State) : State :=
  match newestState l h with
  | none => s
  | some a =>
    match a.image with
    | none => s
    | some x =>
      if a.kind = 4 ∨ a.kind = 5 then s
      else if (findTen s x.tenant).isNone then unrestore h s
      else if a.kind = 2 ∨ a.kind = 3 then rebuildStill x s
      else rebuildOpen l x s

/-- Every session rebuilt from the anchor log (R448). -/
def rebuildAnchors (s : State) : State :=
  let l := s.chk.anchors
  let s1 := forEach (anchored l) (rebuildOne l) s
  reanchor (settleObjects (settleRestored (s1.sess.map Session.handle) s1))

/-! ### From the store (R449) -/

/-- A session restored PARKED from a committed ingot's head (R449). -/
def fromIngotHead (o : Obj) (s : State) : State :=
  match o.image with
  | none => s
  | some x =>
    if (findTen s x.tenant).isNone then unrestore o.handle s
    else rebuildStill { x with state := .parked, ingot := o.num, pages := [], blocks := [], snapshots := [], homeDie := chooseDie s (sessPart s x) } s

/-- A session that a source names and no committed ingot holds: reported LOST (R449). -/
def reportLost (h tenant : Nat) (x : Option Session) (s : State) : State :=
  if (findSess s h).isSome then s
  else if (findTen s tenant).isNone then unrestore h s
  else
    let y : Session := (x.map fun k => { k with request := none, op := none, slot := none, window := {} }).getD { handle := h, tenant := tenant, model := 0 }
    loseSession false h (addSess { y with state := .opened, pages := [] } s)

/-- Every session the store's tables name, and every other that the anchor log names where it reads (R449). -/
def rebuildStore (anchorOk : Bool) (s : State) : State :=
  let l := s.chk.anchors
  let objs := s.store.objs.filter fun o => !o.deleted
  let s1 := forEach (objs.filter fun o => o.ingot && o.committed) fromIngotHead s
  let s2 := forEach (objs.filter fun o => !(o.ingot && o.committed)) (fun o t => reportLost o.handle o.tenant none t) s1
  let named := if anchorOk then (anchored l).filterMap (newestState l) else []
  let live := named.filter fun a => a.kind != 4 && a.kind != 5
  let s3 := forEach live (fun a t => reportLost a.handle ((a.image.map Session.tenant).getD 0) a.image t) s2
  reanchor (settleObjects s3)

end Sys2Proof.Machine
end

