-- ==== Sys2Proof/Machine/Staging.lean ====
section
/-! DEFINITION. Staged sets and commits: STAGE, CHECK, COMMIT, DISCARD and PERSIST, the application of a due commit, and the removal of a tenant
that it starts (R413, R467 to R470, R495 to R506). -/

namespace Sys2Proof.Machine

/-! ### Sets -/

/-- The open set of a partition (R496). -/
def findSet (s : State) (p : Nat) : Option OpenSet := s.stg.sets.find? fun o => o.partition == p

/-- A set's token (R497). -/
def tokenOfSet (o : OpenSet) : Nat := o.number * 4294967296 + o.items.length

/-- An open set put in its partition's place. -/
def putSet (o : OpenSet) (s : State) : State :=
  { s with stg := { s.stg with sets := s.stg.sets.filter (fun x => x.partition != o.partition) ++ [o] } }

/-- The open set of a partition gone. -/
def dropSet (p : Nat) (s : State) : State := { s with stg := { s.stg with sets := s.stg.sets.filter fun x => x.partition != p } }

/-- The accepted commit of a partition (R498). -/
def findCommit (s : State) (p : Nat) : Option Commit := s.stg.commits.find? fun c => c.partition == p

/-- A change of the sets or commits answered: once the following hub has acknowledged the configuration mirror, where there is one (R511).
`old` is the state that a takeover before the acknowledgement returns to. -/
def mirrored (old : Staging) (q : Open) (o : OCode) (payload : List Byte) (s : State) : State :=
  if hasFollower s then
    let w : MirrorWait := { q := q, outcome := o, payload := payload, sets0 := old.sets, commits0 := old.commits, next0 := (old.nextSet, old.nextCommit) }
    { s with stg := { s.stg with mirrors := s.stg.mirrors ++ [w] } }
  else answerMb q o payload s

/-- CONFIGURATION_MIRROR_ACK (R511): the oldest answer that waits for it is given. -/
def execConfigurationMirrorAck (s : State) : Host.Outcome State Fault Refusal :=
  match s.stg.mirrors with
  | [] => .next s
  | w :: rest => .next (answerMb w.q w.outcome w.payload { s with stg := { s.stg with mirrors := rest } })

/-- Whether an item's header or length is inconsistent (R496). -/
def isInconsistent (i : Item) : Bool := i.body == .inconsistent

/-- A STAGE payload added whole or not at all (R496). -/
def stageItems (items : List Item) (q : Open) (s : State) : State :=
  let old := findSet s q.partition
  let all := ((old.map OpenSet.items).getD []) ++ items
  if 4 ≤ q.partition ∨ items.isEmpty ∨ items.any isInconsistent ∨ 65536 < all.length ∨ 16777216 < (all.map Item.bytes).sum then
    answerMb q .malformed [] s
  else
    let o : OpenSet := match old with
      | some x => { x with items := all }
      | none => { partition := q.partition, number := s.stg.nextSet, items := all }
    let s1 := putSet o s
    let s2 : State := if old.isSome then s1 else { s1 with stg := { s1.stg with nextSet := s1.stg.nextSet + 1 } }
    mirrored s.stg q .done (leBytes 4 all.length) s2

/-- STAGE (R495, R496). -/
def execStage (r : MbReq) (items : List Item) (s : State) : Host.Outcome State Fault Refusal :=
  .next (mbSimple r 0x10 0 (fun _ => true) (stageItems items) s)

/-! ### CHECK (R497) -/

/-- The committed state as it would stand after every commit already accepted (R497). -/
def afterAccepted (s : State) : State := forEach s.stg.commits (fun c t => applyItems false c.items t) s

/-- Violations from `cursor` on: a page of 254 and the cursor after it. -/
def checkPayload (o : OpenSet) (cursor : Nat) : List Byte :=
  let n := o.violations.length
  let page := (o.violations.drop cursor).take 254
  leBytes 8 (tokenOfSet o) ++ leBytes 4 n ++ leBytes 4 (if n ≤ cursor + 254 then 0 else cursor + 254) ++ (page.map violationBytes).flatten

/-- A CHECK of an open set: cursor 0 checks it whole, another cursor lists on. -/
def checkOpen (cursor : Nat) (q : Open) (s : State) : State :=
  match (if 4 ≤ q.partition then none else findSet s q.partition) with
  | none => answerMb q .malformed [] s
  | some o =>
    let o1 := if cursor = 0 then { o with violations := checkSet false (some q.partition) o.items (afterAccepted s) } else o
    answerMb q (if o1.violations.isEmpty then .done else .checkFailed) (checkPayload o1 cursor) (putSet o1 s)

/-- CHECK (R497). -/
def execCheck (r : MbReq) (cursor : Nat) (s : State) : Host.Outcome State Fault Refusal :=
  .next (mbSimple r 0x11 0 (· == 4) (checkOpen cursor) s)

/-! ### COMMIT (R498) -/

/-- Whether a set holds a composition item. -/
def isComposition (items : List Item) : Bool := items.any fun i => match i.body with | .composition _ _ => true | _ => false

/-- A COMMIT in arrival order: refused, failed, or accepted with the next commit number (R498). The pour number answered is the stated one, or the
next to be issued where that has passed. -/
def acceptCommit (token pour : Nat) (q : Open) (s : State) : State :=
  if 4 ≤ q.partition then answerMb q .malformed [] s
  else match findSet s q.partition with
    | none => answerMb q .commitConflict [] s
    | some o =>
      if token ≠ tokenOfSet o ∨ (findCommit s q.partition).isSome then answerMb q .commitConflict [] s
      else
        let v := checkSet false (some q.partition) o.items (afterAccepted s)
        if v.isEmpty then
          let comp := isComposition o.items
          let c : Commit := { number := s.stg.nextCommit, partition := q.partition, fn := q.fn, pour := max pour s.sched.next, items := o.items
                              req := if comp then some q else none }
          let s1 := dropSet q.partition s
          let s2 : State := { s1 with stg := { s1.stg with commits := s1.stg.commits ++ [c], nextCommit := s1.stg.nextCommit + 1 } }
          if comp then s2 else mirrored s.stg q .done (commitAnswer c.number c.pour) s2
        else answerMb q .checkFailed [] (putSet { o with violations := v } s)

/-- COMMIT (R498). -/
def execCommit (r : MbReq) (token pour : Nat) (s : State) : Host.Outcome State Fault Refusal :=
  .next (mbSimple r 0x12 0 (· == 16) (acceptCommit token pour) s)

/-! ### DISCARD (R499) -/

/-- A composition COMMIT that will never be published answered COMMIT_CONFLICT: its set is open no more (log entry 81). -/
def refuseComposition (c : Commit) (s : State) : State :=
  match c.req with | some q => answerMb q .commitConflict [] s | none => s

/-- DISCARD of the open set (R499). -/
def execDiscardSet (r : MbReq) (s : State) : Host.Outcome State Fault Refusal :=
  .next (mbSimple r 0x13 0 (fun n => decide (1 ≤ n)) (fun q t =>
    if q.partition < 4 ∧ (findSet t q.partition).isSome then mirrored t.stg q .done [] (dropSet q.partition t)
    else answerMb q .malformed [] t) s)

/-- DISCARD of the accepted commit (R499). -/
def execDiscardCommit (r : MbReq) (s : State) : Host.Outcome State Fault Refusal :=
  .next (mbSimple r 0x13 1 (fun n => decide (1 ≤ n)) (fun q t =>
    if 4 ≤ q.partition then answerMb q .malformed [] t
    else match findCommit t q.partition with
      | none => answerMb q .nothingToCancel [] t
      | some c =>
        mirrored t.stg q .done [] (refuseComposition c
          { t with stg := { t.stg with commits := t.stg.commits.filter fun k => k.number != c.number } })) s)

/-! ### Applying a commit (R500 to R502, Table 17-12) -/

/-- Flasks that a commit names. -/
def namedFlasks (c : Commit) : List Nat :=
  c.items.filterMap fun i => match i.body with | .flask b => some b.flask | .roster b => some b.flask | _ => none

/-- Whether a commit applies at this boundary (R500, R350). -/
def isDue (s : State) (c : Commit) : Bool :=
  decide (c.pour ≤ s.sched.next) && !(s.sched.suspended.any fun p => (namedFlasks c).contains p.flask)

/-- The tenant registry told of a tenant (R413): at the top manager its own table. -/
def tellRegistry (tenant partition : Nat) (present : Bool) (s : State) : State :=
  if inDomain s then
    if topManager s = s.rack.num then
      let rest := s.rack.registry.filter fun e => e.1 != tenant
      { s with rack := { s.rack with registry := if present then rest ++ [(tenant, partition)] else rest } }
    else sendMgr (topManager s) 20 0 [tenant, partition, if present then 1 else 0] [] [] s
  else s

/-- The pour number of the boundary that stands: its pour's, or the last issued where none is in flight (R500). -/
def boundaryNumber (s : State) : Nat := match s.sched.pour with | some p => p.number | none => lastPourNumber s

/-- Step 1 of Table 16-7 for a tenant marked retiring: requests ended, migrations aborted (R467, R471). -/
def retireStart (t : Nat) (s : State) : State :=
  let hs := (s.sess.filter fun x => x.tenant == t).map Session.handle
  let s1 := forEach hs (fun h u => freeSpent h (stopWaiting h (endRequest false h .tenantRetiring none true 0 0 u))) s
  let s2 := forEach ((s1.rack.migrations.filter fun m => hs.contains m.handle && m.atOrigin).map Migration.handle) (fun h u => abortMigration h .retired u) s1
  onTen t (fun x => { x with removal := 1, commitPour := boundaryNumber s, madeClosed := 0 }) s2

/-- What a commit's items bring about beyond the state they set: retirements, restores, the registry. -/
def carryOut (i : Item) (s : State) : State :=
  match i.body with
  | .tenant b =>
    if b.action = 1 then tellRegistry b.tenant b.partition true s
    else if b.action = 2 then retireStart b.tenant s
    else s
  | .restore b => restoreByItem b s
  | _ => s

/-- The commit record (R502). -/
def commitRecord (o : OCode) (fn number pour : Nat) (s : State) : State :=
  answerFn fn { outcome := o, d0 := number, d1 := pour, pour := pour } s

/-- Violations written to the device log (Table 17-12, step 3). -/
def logViolations (vs : List Violation) (s : State) : State :=
  forEach vs (fun v t => note (leadDie t) (v.code * 2 ^ 48 + v.item * 2 ^ 16 + v.field) t) s

/-- The entries that a set's rosters name read: an allowance that has run out acts first (R62). -/
def readRosters (items : List Item) (s : State) : State :=
  forEach (items.map fun i => match i.body with | .roster b => b.handles | _ => []).flatten expire s

/-- A due commit applied, or found failing: every item in set order at one instant, then the record. -/
def applyCommit (c : Commit) (s0 : State) : State :=
  let pour := boundaryNumber s0
  let s := readRosters c.items { s0 with stg := { s0.stg with commits := s0.stg.commits.filter fun k => k.number != c.number } }
  let v := checkSet false (some c.partition) c.items s
  if v.isEmpty then
    let s1 := applyItems false c.items s
    let s2 : State := { s1 with stg := { s1.stg with committed := c.items.foldl commitItem s1.stg.committed, lastDone := c.number } }
    let s3 := forEach c.items carryOut s2
    let s4 := if isComposition c.items then publishOrWait c s3 else s3
    commitRecord .done c.fn c.number pour s4
  else
    let s1 := commitRecord .checkFailed c.fn c.number pour (logViolations v s)
    match c.req with | some q => answerMb q .checkFailed [] s1 | none => s1

/-- Every commit due at a boundary, in ascending number; one that waits holds back the later ones (R500, R501). -/
def applyDue : Nat → State → State
  | 0, s => s
  | n + 1, s =>
    match s.stg.commits with
    | [] => s
    | c :: _ => if isDue s c then applyDue n (applyCommit c s) else s

/-! ### PERSIST (R504) -/

/-- Whether the NOR is in use by a PLDM update (R557). -/
def norHeld (s : State) : Bool := s.dev.hubs.any Hub.updating

/-- The committed state written: the active image's signed part with a new staged-state section in the inactive slot, which becomes the next. -/
def writeState (s : State) : State :=
  match s.dev.image with
  | none => s
  | some im =>
    let sec : StagedSection := { cmacOk := true, commit := s.stg.lastDone, items := s.stg.committed }
    let slot := otherSlot s.dev.slot
    hrRewrite (fun r => { r with nextSlot := slot }) (writeSlot slot { im with staged := some sec } s)

/-- The snapshots that wait for a boundary taken there, after its commits, and answered. -/
def persistDue (s : State) : State :=
  let write := fun (q : Open) (t : State) => if norHeld t then answerMb q .commitConflict [] t else answerMb q .done [] (writeState t)
  forEach s.stg.persists write { s with stg := { s.stg with persists := [] } }

/-- Whether a boundary is to come that a snapshot waits for: a pour in flight, or a commit due. -/
def boundaryAhead (s : State) : Bool :=
  serving s && (s.sched.pour.isSome || !s.sched.suspended.isEmpty || s.stg.commits.any (isDue s))

/-- PERSIST mode 0 (R504). -/
def execPersistState (r : MbReq) (s : State) : Host.Outcome State Fault Refusal :=
  .next (mbSimple r 0x14 0 (· == 24) (fun q t =>
    if norHeld t || !t.stg.persists.isEmpty then answerMb q .commitConflict [] t
    else
      let t1 : State := { t with stg := { t.stg with persists := [q] } }
      if boundaryAhead t then t1 else persistDue t1) s)

/-- PERSIST mode 1 (R504): an image that verifies by steps 1 to 4 goes into the inactive slot. -/
def execPersistImage (r : MbReq) (img : Option Image) (s : State) : Host.Outcome State Fault Refusal :=
  .next (mbSimple r 0x14 1 (· == 24) (fun q t =>
    if norHeld t || !t.stg.persists.isEmpty then answerMb q .commitConflict [] t
    else match img.filter (verifies t) with
      | none => answerMb q .checkFailed [] t
      | some im =>
        let slot := otherSlot t.dev.slot
        answerMb q .done [] (hrRewrite (fun h => { h with nextSlot := slot, trial := true }) (writeSlot slot im t))) s)

/-! ### The removal of a tenant (Table 16-7) -/

/-- TENANT_KEY_DESTROYED (R467, step 2): the key gone, a retired mark in its place in the health record. -/
def execTenantKeyDestroyed (tenant : Nat) (s : State) : Host.Outcome State Fault Refusal :=
  match findTen s tenant with
  | none => .next s
  | some t =>
    if t.retiring ∧ t.removal = 1 then
      let mark : KeyEntry := { tenant := tenant, retired := true, check := 0, label := t.label }
      .next (hrRewrite (fun r => { r with keys := upsert KeyEntry.tenant mark r.keys }) (onTen tenant (fun x => { x with key := none, removal := 2 }) s))
    else .next s

/-- Whether a session counts among those that step 4 makes CLOSED (R470). -/
def closable (x : Session) : Bool := x.state != .closed && x.state != .lost && x.state != .free

/-- Steps 3 and 4 of Table 16-7: drained, sessions CLOSED with their objects deleted, shards and counters gone, owner regions cleared. -/
def clearTenant (t : Nat) (s : State) : State :=
  let hs := (s.sess.filter fun x => x.tenant == t && closable x).map Session.handle
  let s1 := forEach hs (fun h u => closeSession h (abandonOp false h (maskSlot h u))) s
  let s2 := deleteObjs 0 (fun o => o.tenant == t) s1
  let s3 : State := { s2 with rcl := { s2.rcl with shards := s2.rcl.shards.filter fun h => h.item.tenant != t
                                                   queries := s2.rcl.queries.filter fun q => !(localShards s2 q.index).any fun h => h.item.tenant == t }
                              tiers := { s2.tiers with owners := s2.tiers.owners.map fun o => if o.owner = t then { o with owner := 0 } else o } }
  onTen t (fun x => { x with counters := {}, removal := 4, madeClosed := hs.length }) s3

/-- TENANT_DRAIN_COMPLETE (R467, steps 3 and 4). -/
def execTenantDrainComplete (tenant : Nat) (s : State) : Host.Outcome State Fault Refusal :=
  match findTen s tenant with
  | none => .next s
  | some t => if t.retiring ∧ t.removal = 2 then .next (clearTenant tenant s) else .next s

/-- The completion record of a removal, at the physical function of each host link (R470). -/
def removalRecords (t : Tenant) (s : State) : State :=
  forEach (physFns s.part) (fun fn u => answerFn fn { outcome := .done, tenant := t.id, d0 := t.madeClosed, d1 := t.commitPour } u) s

/-- TENANT_REMOVAL_COMPLETE (R467, step 5): entries FREE, the record, a health event with vector 2; the tenant is unknown from then on. -/
def execTenantRemovalComplete (tenant : Nat) (s : State) : Host.Outcome State Fault Refusal :=
  match findTen s tenant with
  | none => .next s
  | some t =>
    if t.retiring ∧ t.removal = 4 then
      let s1 : State := { s with sess := s.sess.filter fun x => x.tenant != tenant
                                 tiers := { s.tiers with placements := s.tiers.placements.filter fun p => !(p.kind != 1 && p.owner == tenant) } }
      let s2 := removalRecords t (tellRegistry tenant t.partition false s1)
      .next (healthSignal (leadDie s2) tenant { s2 with tens := s2.tens.filter fun x => x.id != tenant })
    else .next s

/-! ### Binding (Table 6-9) -/

/-- BIND_STREAM_COMPLETE (R205): BOUND where every read and write succeeded and the hash is the program's digest; else FAILED, its partial
extents released. -/
def execBindStreamComplete (model bytes : Nat) (readOk writeOk : Bool) (hash : List Byte) (s : State) : Host.Outcome State Fault Refusal :=
  match findModel s model with
  | none => .next s
  | some m =>
    if m.state = 1 then
      let ok := readOk && writeOk && m.program.any fun p => p.digest == hash
      let good := fun (x : Model) => { x with state := 2, bytes := bytes, digest := hash }
      let bad := fun (x : Model) => { x with state := 3, bytes := bytes, pools := [] }
      .next (fireState (onModel model (if ok then good else bad) s))
    else .next s

/-! ### ACCOUNT_READ (R354) -/

/-- Whether a function may read a tenant's account. -/
def mayRead (fn : Nat) (t : Tenant) : Bool := isPhys fn || boundTo t fn

/-- An account record (Table 11-6). -/
def accountBytes (t : Tenant) : List Byte :=
  let c := t.counters
  padTo 256 (leBytes 2 t.id ++ leBytes 1 t.partition ++ leBytes 1 (if t.retiring then 1 else 0) ++ zeros 4 ++
    ([c.interval, c.tensorTime, c.attnTime, c.patternTime, c.textTime, c.mouldTime, c.recallTime, c.storeTime, c.t1Read, c.t1Written, c.t2Read, c.t2Written,
      c.t3Read, c.t3Written, c.hRead, c.hWritten, c.runner, c.fabricSent, c.fabricRecv, c.hostLink, c.energy, c.tokens, c.prefill, c.budgetIdle, t.budget,
      c.policed, c.replacements, c.numeric].map (leBytes 8)).flatten)

/-- An ACCOUNT_READ of one tenant or of every tenant the function may read: up to 15 records from the cursor, cleared unless peeked (R354). -/
def readAccounts (fn tenant : Nat) (peek : Bool) (cursor : Nat) (q : Open) (s : State) : State :=
  let named := sortBy Tenant.id (s.tens.filter fun t => mayRead fn t && (tenant == 0xFFFF || t.id == tenant))
  if tenant ≠ 0xFFFF ∧ named.isEmpty then answerMb q .malformed [] s
  else
    let page := (named.drop cursor).take 15
    let next := if named.length ≤ cursor + 15 then 0 else cursor + 15
    let clear := fun (t : Tenant) => if peek || !(page.any fun x => x.id == t.id) then t else { t with counters := {} }
    answerMb q .done (leBytes 2 page.length ++ zeros 2 ++ leBytes 4 next ++ zeros 8 ++ (page.map accountBytes).flatten)
      { s with tens := s.tens.map clear }

/-- ACCOUNT_READ (R354). -/
def execAccountRead (r : MbReq) (tenant : Nat) (peek : Bool) (cursor : Nat) (s : State) : Host.Outcome State Fault Refusal :=
  .next (mbSimple r 0x30 0 (· == 16) (readAccounts r.fn tenant peek cursor) s)

end Sys2Proof.Machine
end

