-- ==== Sys2Proof/Machine/Stopping.lean ====
section
/-! DEFINITION. Stop and live notices, the end of a stop, and the package reset that can follow it (R429 to R431, R439, R442, R444, R453, R503,
R528, R529, R539 to R541, R546, R547). -/

namespace Sys2Proof.Machine

/-! ### The package reset (R547) -/

/-- The package reset: kept are the NOR, the store, and what the checkpoint slots and the anchor log refer to; fuses, and inputs that the board
drives, stay; T0, T1 and everything in them is lost and the meters return to zero. The device destroyed by an unlock shows it at this start,
and at the next where this one ends before step 9 (R480; log entry 91). -/
def packageReset (s : State) : State :=
  let t : State :=
    { State.reset with
      part := s.part, nor := s.nor, dies := s.nor.shipped.mapIdx shippedDie, free := s.free, pending := s.pending, outs := s.outs
      sec := { unlocks := s.sec.unlocks, destroyed := s.sec.serveNot || (s.sec.destroyed && decide (s.dev.step < 9)) }
      pins := { tripLow := s.pins.tripLow, perst := s.pins.perst }
      dev := { powered := s.dev.powered, logNext := s.dev.logNext, logOldest := s.dev.logNext }
      store := (loseUnflushed s).store
      chk := { nextNumber := s.chk.nextNumber, slot0 := s.chk.slot0, slot1 := s.chk.slot1, anchors := s.chk.anchors, exports := s.chk.exports } }
  if s.dev.code = .starting then t else fireState t

/-! ### Answers of a checkpoint (R429, R442) -/

/-- What a checkpoint answers: outcome, number, slot and length in bytes. -/
def answerAsker (o : OCode) (number slot length : Nat) (a : Asker) (s : State) : State :=
  match a with
  | .mailbox q => answerMb q o (leBytes 8 number ++ leBytes 1 slot ++ leBytes 8 length) s
  | .manager peer => sendMgr peer 23 0 [number, slot, length, ocode o] [] [] s
  | .device => s

/-- Every asker answered. -/
def answerAskers (o : OCode) (number slot length : Nat) (l : List Asker) (s : State) : State :=
  forEach l (answerAsker o number slot length) s

/-- The number of the stop checkpoint that led to STOPPED, or 0. -/
def lastStopNumber (s : State) : Nat := (s.dev.lastStop.map Prod.fst).getD 0

/-- The answer that the last stop checkpoint gives (Table 19-2). -/
def answerStopped (a : Asker) (s : State) : State :=
  match s.dev.lastStop with
  | some r => answerAsker .done r.1 r.2.1 r.2.2 a s
  | none => answerAsker .done 0 0 0 a s

/-! ### The slot and the number (R439, R442) -/

/-- The number a slot commits, 0 where it is not valid. -/
def slotNumber (c : Option CkSlot) : Nat := match c with | some x => if x.valid then x.number else 0 | none => 0

/-- The slot that does not hold the newest committed checkpoint (R439). -/
def nextCkSlot (s : State) : Nat := if slotNumber s.chk.slot1 < slotNumber s.chk.slot0 then 1 else 0

/-- A checkpoint begun: its number issued, its slot chosen. -/
def beginCkpt (slot : Nat) (stop : Bool) (askers : List Asker) (s : State) : State :=
  let c : Ckpt := { number := s.chk.nextNumber, slot := slot, stop := stop, askers := askers }
  { s with chk := { s.chk with nextNumber := s.chk.nextNumber + 1, now := some c } }

/-- An asker joined to the checkpoint in progress (R453). -/
def joinCkpt (a : Asker) (s : State) : State :=
  { s with chk := { s.chk with now := s.chk.now.map fun c => { c with askers := c.askers ++ [a] } } }

/-! ### The end of a stop (Table 19-8) -/

/-- Step 2: a journal base on each hub, the shard tables frozen (R262, R327). -/
def writeBases (s : State) : State :=
  let s1 := forEach (List.range (hubCount s.part)) (fun h t => onHubStore h (fun x => { x with base := x.flushedPages, flushed := [] }) (flushJournal h t)) s
  { s1 with store := { s1.store with clean := true }, rcl := { s1.rcl with shards := s1.rcl.shards.map fun h => { h with frozen := true } } }

/-- Steps 4 and 5: flags and findings in the health record of an orderly shutdown, every SHUTDOWN answered, STOPPED, and the package reset that
action 4 asks for. `result`: 0 self-test not run, 1 passed, 2 failed. -/
def closeStop (result : Nat) (findings : List Finding) (t : Stop) (s : State) : State :=
  let s1 := if t.orderly then
      hrRewrite (fun r => { r with clean := t.ckptOk, selfPassed := result == 1, findings := findings }) s
    else s
  let s2 := forEach t.answers (fun q u => answerMb q .done (leBytes 8 t.number ++ leBytes 1 result) u) s1
  let s3 := enterState .stopped { s2 with dev := { s2.dev with stop := none } }
  if t.thenReset then packageReset s3 else s3

/-- The stop goes on once its checkpoint has committed, failed or is disabled: an orderly one writes its bases, and waits where the self-test
runs. -/
def proceedStop (s : State) : State :=
  match s.dev.stop with
  | none => s
  | some t =>
    if t.ckptDone && !t.parks then
      if t.orderly then
        let s1 := if s.store.clean then s else writeBases s
        if t.selfTest then s1 else closeStop 0 [] t s1
      else closeStop 0 [] t s
    else s

/-- What a stop's checkpoint came to. -/
def stopOutcome (ok : Bool) (number : Nat) (s : State) : State :=
  proceedStop { s with dev := { s.dev with stop := s.dev.stop.map fun t => { t with ckptDone := true, ckptOk := ok, number := number } } }

/-- The checkpoint in progress given up: its slot left invalid, its askers answered CHECK_FAILED, a stop going on without it (R444). -/
def failCkpt (s : State) : State :=
  match s.chk.now with
  | none => s
  | some c =>
    let s1 := answerAskers .checkFailed c.number c.slot 0 c.askers { s with chk := { s.chk with now := none } }
    if c.stop then stopOutcome false 0 s1 else s1

/-! ### Notices (Table 15-1, Table 15-8, Table 19-2) -/

/-- Accepted commits not yet applied dropped, with no record (R503). -/
def dropCommits (s : State) : State :=
  let cs := s.stg.commits
  forEach cs refuseComposition { s with stg := { s.stg with commits := [] } }

/-- STOPPING entered: commits dropped, rotation tests abandoned. -/
def enterStopping (t : Stop) (s : State) : State :=
  let s1 := abandonTests (dropCommits s)
  enterState .stopping { s1 with dev := { s1.dev with stop := some t, lastStop := none }, store := { s1.store with clean := false } }

/-- The stop checkpoint of a stop begun: in the slot of a live one that it abandons, whose askers it answers (Table 15-8); disabled, it has
failed at once (R374). -/
def stopCkpt (a : Asker) (s : State) : State :=
  match s.chk.now with
  | some c => beginCkpt c.slot true (c.askers ++ [a]) s
  | none =>
    if unprotected s then stopOutcome false 0 (answerAsker .checkFailed 0 0 0 a s)
    else beginCkpt (nextCkSlot s) true [a] s

/-- A notice to a package that is stopping: joined to the stop checkpoint, or answered as it ended. -/
def joinStop (a : Asker) (s : State) : State :=
  if s.chk.now.isSome then joinCkpt a s
  else if s.dev.stop.any fun t => !t.ckptOk then answerAsker .checkFailed 0 0 0 a s
  else answerStopped a s

/-- A stop notice (R430). -/
def noticeStop (a : Asker) (s : State) : State :=
  match s.dev.code with
  | .starting | .selfTest => { s with dev := { s.dev with heldStop := s.dev.heldStop ++ [a] } }
  | .ready | .orphan => stopCkpt a (enterStopping {} s)
  | .stopping => joinStop a s
  | .stopped => answerStopped a s
  | .safeTalk => s

/-- A live notice (R431). -/
def noticeLive (a : Asker) (s : State) : State :=
  match s.dev.code with
  | .safeTalk => s
  | .stopping => joinStop a s
  | .stopped => answerStopped a s
  | _ =>
    if s.chk.now.isSome then joinCkpt a s
    else if serving s && unprotected s then answerAsker .checkFailed 0 0 0 a s
    else beginCkpt (nextCkSlot s) false [a] s

/-- PREEMPT of kind stop (R429, R430). -/
def execPreemptStop (r : MbReq) (s : State) : Host.Outcome State Fault Refusal :=
  .next (mbSimple r 0x51 1 (· == 16) (fun q t => noticeStop (.mailbox q) t) s)

/-- PREEMPT of kind live (R429, R431). -/
def execPreemptLive (r : MbReq) (s : State) : Host.Outcome State Fault Refusal :=
  .next (mbSimple r 0x51 2 (· == 16) (fun q t => noticeLive (.mailbox q) t) s)

/-- PREEMPT_N_ARMED (R571): armed once it has read high for 1,000 µs since power good. -/
def execPreemptNArmed (s : State) : Host.Outcome State Fault Refusal :=
  .next (if s.pins.powerGood then { s with pins := { s.pins with armed := true } } else s)

/-- PREEMPT_N_ASSERT (R571): low for at least 1 µs once armed is a stop notice. Held low from power good it never arms, which is logged
(Table 20-7). -/
def execPreemptNAssert (lowNs : Nat) (s : State) : Host.Outcome State Fault Refusal :=
  if s.pins.powerGood = false ∨ lowNs < 1000 then .next s
  else if s.pins.armed then .next (noticeStop .device s)
  else .next (note (leadDie s) lowNs s)

/-- VAUX_WARNING (R564): below 1.76 V for 1 µs, where the board description's supply monitor is on, is a stop notice. -/
def execVauxWarning (mv lowNs : Nat) (s : State) : Host.Outcome State Fault Refusal :=
  if s.pins.powerGood && decide (mv < 1760) && decide (1000 ≤ lowNs) && (s.dev.image.any fun im => im.board.supplyMonitor) then .next (noticeStop .device s)
  else .next s

/-! ### SHUTDOWN (R517, R540, R541) -/

/-- An orderly shutdown begun or joined; the SHUTDOWN is answered at its end (R453, R541). `selfTest` and `thenReset` are actions 0 and 4. -/
def shutdown (selfTest thenReset : Bool) (q : Open) (s : State) : State :=
  match s.dev.code with
  | .ready | .orphan => stopCkpt .device (enterStopping { answers := [q], selfTest := selfTest, thenReset := thenReset, orderly := true } s)
  | .stopping =>
    let join := fun (t : Stop) =>
      { t with answers := t.answers ++ [q], selfTest := t.selfTest || selfTest, thenReset := t.thenReset || thenReset, orderly := true }
    { s with dev := { s.dev with stop := s.dev.stop.map join } }
  | .stopped =>
    let s1 := answerMb q .done (leBytes 8 (lastStopNumber s) ++ leBytes 1 0) s
    if thenReset then packageReset s1 else s1
  | _ => s

/-- A SHUTDOWN held until step 10 (R531). -/
def holdShut (q : Open) (s : State) : State := { s with dev := { s.dev with heldShut := s.dev.heldShut ++ [q] } }

/-- SHUTDOWN action 0. -/
def execShutdownSelfTest (r : MbReq) (s : State) : Host.Outcome State Fault Refusal :=
  .next (mbRun r 0x50 0 (· == 16) holdShut (shutdown true false) s)

/-- SHUTDOWN action 1. -/
def execShutdownOrderly (r : MbReq) (s : State) : Host.Outcome State Fault Refusal :=
  .next (mbRun r 0x50 1 (· == 16) holdShut (shutdown false false) s)

/-- SHUTDOWN action 4 (R529). -/
def execShutdownPackageReset (r : MbReq) (s : State) : Host.Outcome State Fault Refusal :=
  .next (mbRun r 0x50 4 (· == 16) holdShut (shutdown false true) s)

/-- The slot that PERSIST mode 1 has set to run next: one still on trial (R504, R517). -/
def rollSlot (s : State) : Option Nat := ((hrGoverning s.nor).filter HealthRec.trial).map HealthRec.nextSlot

/-- A hub roll begun: the following hub's cores restart from the next slot; refused MALFORMED, reason 3, where R517 gives. -/
def hubRoll (q : Open) (s : State) : State :=
  let f := otherHub s.dev.leading
  match rollSlot s with
  | some n =>
    if s.part = .tsn8840 ∧ serving s ∧ hasFollower s ∧ s.dev.roll = none then
      onHub f (fun h => { h with restarting := true, image := n }) { s with dev := { s.dev with roll := some { step := 1, req := q, hub := f } } }
    else answerMb q .malformed (leBytes 8 3) s
  | none => answerMb q .malformed (leBytes 8 3) s

/-- SHUTDOWN action 2 (R517). -/
def execHubRoll (r : MbReq) (s : State) : Host.Outcome State Fault Refusal :=
  .next (mbRun r 0x50 2 (· == 16) holdShut hubRoll s)

end Sys2Proof.Machine
end

