-- ==== Sys2Proof/Machine/Rack.lean ====
section
/-! DEFINITION. Manager messages: joining, the composition map, the rack directory and lookups, migration, teardown, recall fan-out, the registry,
acknowledgement and resending, checkpoint notices (R51, R408 to R428). -/

namespace Sys2Proof.Machine

/-! ### Taking an entry (R411, R412, R415) -/

/-- The package that a handle has moved to as far as this one knows: what an answer of STALE_EPOCH or a hint names. -/
def movedTo (s : State) (handle : Nat) : Nat :=
  match s.rack.forwards.find? (fun (f : Nat × Nat × Nat) => f.1 == handle) with | some f => f.2.1 | none => 0xFFFF

/-- An acknowledging entry with the receiver's consumed count, an answer code and its hints; it is not itself kept for an answer (R411, R412). -/
def sendAck (peer seq handle code : Nat) (hints : List Nat) (s : State) : State :=
  let q := countOf s.rack.nextSeq peer + 1
  let m : MgrMsg := { peer := peer, seq := q, kind := 21, epoch := newestEpoch s, handle := handle, body := [seq, s.rack.consumed, code] ++ hints }
  { s with rack := { s.rack with nextSeq := setCount s.rack.nextSeq peer q, outbox := s.rack.outbox ++ [m] } }

/-- An answer of DONE: under the older live epoch it carries the moved-to package as a hint (Table 14-4). -/
def ackDone (h : MgrHdr) (s : State) : State :=
  sendAck h.source h.seq 0 (ocode .done) (if h.epoch < newestEpoch s && s.rack.epochs.any (fun x => x.num == h.epoch) then [movedTo s h.handle] else []) s

/-- Standing of a message's full epoch (Table 14-4). -/
inductive MgrEpoch where
  | live | future | other
  deriving DecidableEq, Repr

/-- The epoch of a message against the live and the published ones; a package that has applied none takes every message. -/
def mgrEpoch (s : State) (e : Nat) : MgrEpoch :=
  if s.rack.epochs.isEmpty || s.rack.epochs.any (fun x => x.num == e) then .live
  else match s.rack.published with
    | some x => if x.num = e then .future else .other
    | none => .other

/-- Whether this package takes part in a rack with its cores running (R408, R542). -/
def onRack (s : State) : Bool := s.rack.role != 0 && s.dev.image.isSome && s.dev.code != .safeTalk

/-- An entry consumed and carried out once, then acknowledged; a repeat is acknowledged again; one with a bad crc is left unanswered (R88, R411,
R412). -/
def takeOnce (h : MgrHdr) (body : State → State) (s0 : State) : State :=
  if onRack s0 = false then s0
  else
    let s : State := { s0 with rack := { s0.rack with consumed := s0.rack.consumed + 1 } }
    if h.crcOk = false then s
    else if s.rack.seen.contains (h.source, h.seq) then ackDone h s
    else ackDone h (body { s with rack := { s.rack with seen := s.rack.seen ++ [(h.source, h.seq)] } })

/-- An entry answered STALE_EPOCH with the epoch held and the moved-to package, and not carried out (Table 14-4). -/
def staleMgr (h : MgrHdr) (s : State) : State :=
  sendAck h.source h.seq h.handle (ocode .staleEpoch) [newestEpoch s, movedTo s h.handle] { s with rack := { s.rack with consumed := s.rack.consumed + 1 } }

/-- An entry that crosses packages under an epoch (Table 14-4): carried out under a live one by a package that holds its target, held under one not
yet applied here, otherwise STALE_EPOCH. -/
def takeUnder (c : Instr) (h : MgrHdr) (holds : State → Bool) (body : State → State) (s : State) : State :=
  if onRack s && h.crcOk then
    match mgrEpoch s h.epoch with
    | .live => if holds s || s.rack.seen.contains (h.source, h.seq) then takeOnce h body s else staleMgr h s
    | .future => if s.rack.heldMgr.contains c then s else { s with rack := { s.rack with heldMgr := s.rack.heldMgr ++ [c] } }
    | .other => staleMgr h s
  else takeOnce h body s

/-! ### Joining (R51, R409, R410, R418) -/

/-- Package numbers in use: members', and those that the map lists. -/
def numbersUsed (s : State) : List Nat :=
  s.rack.num :: s.rack.members.map Member.num ++ (mapRecords s).filterMap fun r => match r with | .package n _ _ _ _ => some n | _ => none

/-- The number that the map or an earlier join gives a serial (R409). -/
def numberOf (s : State) (serial : Nat) : Option Nat :=
  match s.rack.members.find? (fun m => m.serial == serial) with
  | some m => some m.num
  | none => (mapRecords s).findSome? fun r => match r with | .package n k _ _ _ => if k = serial then some n else none | _ => none

/-- A number not in use: which one is open (Config), none where all 4,096 are used. -/
def freshNumber (s : State) : Option Nat :=
  let left := (List.range 4096).filter fun n => !(numbersUsed s).contains n
  left[Config.joinChoice s.free left.length % max 1 left.length]?

/-- The number that a join answer carries when the join is refused: the model's (log entry 82). -/
def joinRefusal : Nat := 0xFFFF

/-- The highest serial block end recorded under a number (R409). -/
def blockEnd (s : State) (n : Nat) : Nat := ((s.rack.members.filter fun m => m.num == n).map Member.serialEnd).foldl max 0

/-- A join at a manager: the worker's number by its serial, or refused past 64 workers or with no number left (R409, R410). -/
def takeJoin (source serial serialEnd : Nat) (s : State) : State :=
  let known := (numberOf s serial).isSome
  let refused := sendMgr source 2 0 [joinRefusal, 0] [] [] s
  if isManager s = false then s
  else if !known && decide (63 ≤ (s.rack.members.filter fun m => m.num != s.rack.num && !m.failed).length) then refused
  else match (match numberOf s serial with | some n => some n | none => freshNumber s) with
    | none => refused
    | some n =>
      let m : Member := { serial := serial, num := n, serialEnd := max serialEnd (blockEnd s n) }
      let s1 : State := drawFree { s with rack := { s.rack with members := (s.rack.members.filter fun k => k.serial != serial) ++ [m] } }
      let s2 := sendMgr n 2 0 [n, blockEnd s n] [] [] s1
      match s2.rack.epochs.getLast? with
      | some e => sendMgr n 3 0 [e.num] e.records [] s2
      | none => s2

/-- JOIN. A worker not yet joined has no number of its own, so its entry's sequence is not compared (log entry 82). -/
def execJoin (h : MgrHdr) (serial serialEnd : Nat) (s : State) : Host.Outcome State Fault Refusal :=
  if onRack s && h.crcOk then .next (takeJoin h.source serial serialEnd { s with rack := { s.rack with consumed := s.rack.consumed + 1 } }) else .next s

/-- Every handle held reported to its creator's manager (R418). -/
def reportHandles (s : State) : State :=
  forEach ((s.sess.filter fun x => x.shardOf.isNone)) (fun x t => tellDirectory x.handle t.rack.num (stateCode x.state) t) s

/-- A join answer: the worker's number, and its next serial block above the end given with it (R51, R409). -/
def takeJoinAnswer (number serialEnd : Nat) (s : State) : State :=
  if number = joinRefusal then { s with rack := { s.rack with joinRefused := true } }
  else
    let next := max s.dev.nextSerial (serialEnd + 1)
    let s1 : State :=
      { s with rack := { s.rack with num := number, numValid := true, joinRefused := false, managerLost := false }
               dev := { s.dev with nextSerial := next, serialEnd := if s.dev.serialEnd ≤ serialEnd then next - 1 else s.dev.serialEnd } }
    reportHandles s1

/-- JOIN_ANSWER. -/
def execJoinAnswer (h : MgrHdr) (number serialEnd : Nat) (s : State) : Host.Outcome State Fault Refusal :=
  .next (takeOnce h (fun t => if t.rack.role = 1 then takeJoinAnswer number serialEnd t else t) s)

/-! ### The map (R413 to R416) -/

/-- A member's record changed. -/
def onMember (n : Nat) (f : Member → Member) (s : State) : State :=
  { s with rack := { s.rack with members := s.rack.members.map fun m => if m.num = n then f m else m } }

/-- A published map taken; a manager sends it on to its workers (R414). -/
def takeMap (epoch : Nat) (records : List MapRecord) (s : State) : State :=
  if epoch ≤ newestEpoch s then s
  else
    let e : Epoch := { num := epoch, records := records }
    let s1 : State := { s with rack := { s.rack with published := some e } }
    if s1.rack.role = 2 then sendMap e s1 else s1

/-- MAP_APPLIED. -/
def execMapApplied (h : MgrHdr) (epoch : Nat) (s : State) : Host.Outcome State Fault Refusal :=
  .next (takeOnce h (onMember h.source fun m => { m with applied := max m.applied epoch }) s)

/-- A change of the map that the fabric manager makes itself, in the next epoch (R412, R427). -/
def composeNow (add remove : List MapRecord) (s : State) : State :=
  let i : Item := { tenant := 0, hostTag := 0, bytes := 0, body := .composition add remove }
  publishOrWait { number := 0, partition := 0, fn := 0, pour := 0, items := [i] } s

/-- A package declared failed in the next epoch (R412). -/
def declareFailed (n : Nat) (s : State) : State :=
  let old := (mapRecords s).find? fun r => match r with | .package k _ _ _ _ => k == n | _ => false
  let s1 := onMember n (fun m => { m with failed := true }) s
  match old with
  | some (.package k serial role above false) => composeNow [.package k serial role above true] [] s1
  | _ => s1

/-! ### Lookups (R418, R419) -/

/-- LOOKUP: answered by the directory of the creator's manager. -/
def takeLookup (h : MgrHdr) (s : State) : State :=
  let holder := match s.rack.directory.find? (fun (e : DirEntry) => e.handle == h.handle) with | some e => e.holder | none => 0xFFFF
  sendMgr h.source 7 h.handle [holder] [] [] s

/-- LOOKUP. -/
def execLookup (h : MgrHdr) (s : State) : Host.Outcome State Fault Refusal :=
  .next (takeUnder (.lookup h) h (fun _ => true) (takeLookup h) s)

/-- A message that waited for a lookup answered: STALE_EPOCH with the holder, or MALFORMED, reason 6 (R419). -/
def answerLookup (holder : Option Nat) (c : Instr) (s : State) : State :=
  match sprueOf c, holder with
  | some m, some k => refuseEarly m .staleEpoch (newestEpoch s) k s
  | some m, none => refuseEarly m .malformed 6 0 s
  | none, _ => s

/-- What a lookup's answer does: the messages that wait for it are answered; a restored copy of a session that another package holds is dropped,
with no record (R419, R422). -/
def takeLookupAnswer (handle : Nat) (holder : Option Nat) (s : State) : State :=
  let mine := s.rack.lookups.filter fun (p : Nat × Instr) => p.1 == handle
  let s1 : State := { s with rack := { s.rack with lookups := s.rack.lookups.filter fun (p : Nat × Instr) => p.1 != handle } }
  let s2 := forEach mine (fun p t => answerLookup holder p.2 t) s1
  match findSess s2 handle, holder with
  | some x, some k =>
    if k ≠ s2.rack.num ∧ x.restored then dropSess handle (anchor 4 handle (deleteSessObjs x (releasePages (sessProg s2 x) x.pages s2))) else s2
  | _, _ => s2

/-- LOOKUP_ANSWER. -/
def execLookupAnswer (h : MgrHdr) (holder : Option Nat) (s : State) : Host.Outcome State Fault Refusal :=
  .next (takeOnce h (takeLookupAnswer h.handle holder) s)

/-- Whether a live epoch moves a handle to a package (R421). -/
def movesTo (s : State) (handle dest : Nat) : Bool :=
  s.rack.epochs.any fun e => e.records.any fun r => match r with | .move k _ d _ _ _ _ => k == handle && d == dest | _ => false

/-- A directory update at a manager: written, and passed on to the top manager where it tells of a move; a package that claims a session held
elsewhere is told so (R418, R422, R423). -/
def takeUpdate (source handle holder state : Nat) (s : State) : State :=
  let other := s.rack.directory.find? fun (e : DirEntry) => e.handle == handle && e.holder != holder && !packageFailed s e.holder
  match other with
  | some e =>
    if movesTo s handle holder then
      let s1 := moveSettled handle (putDirectory handle holder state s)
      if topManager s1 = s1.rack.num then s1 else sendMgr (topManager s1) 17 handle [holder, state] [] [] s1
    else if state < 7 then sendMgr source 7 handle [e.holder] [] [] s
    else s
  | none =>
    let s1 := putDirectory handle holder state s
    if movesTo s1 handle holder then moveSettled handle s1 else s1

/-- DIRECTORY_UPDATE. -/
def execDirectoryUpdate (h : MgrHdr) (holder state : Nat) (s : State) : Host.Outcome State Fault Refusal :=
  .next (takeUnder (.directoryUpdate h holder state) h (fun _ => true) (fun t => if isManager t then takeUpdate h.source h.handle holder state t else t) s)

/-! ### Migration (R421 to R424, Table 14-5) -/

/-- A migration of a handle changed. -/
def onMigration (handle : Nat) (f : Migration → Migration) (s : State) : State :=
  { s with rack := { s.rack with migrations := s.rack.migrations.map fun m => if m.handle = handle then f m else m } }

/-- Lines of a migration-copy window: its length in the export table is open, and the model gives it the most that its field holds (Table 13-8;
log entry 83). -/
def copyWindow : Nat := 4294967295

/-- The lowest window number from 1 to 255 that the export table does not use (Table 13-8; log entry 83). -/
def freeWindow (s : State) : Option Nat :=
  ((List.range 256).drop 1).find? fun n => !(s.links.windows.any fun w => w.num == n)

/-- The move begin's effect at the destination: an entry and a window reserved, "move ready" (step 2); refused with neither free. -/
def reserveMove (mv : Migration) (s : State) : State :=
  match (if directoryLimit s.part ≤ entriesUsed s then none else freeWindow s) with
  | none => sendMgr mv.origin 13 mv.handle [moveReason .refused] [] [] s
  | some n =>
    let w : Win := { num := n, kind := 2, writes := true, base := Config.windowBase n, length := copyWindow, peer := some mv.origin }
    sendMgr mv.origin 9 mv.handle [n] [] []
      { s with links := { s.links with windows := s.links.windows ++ [w] }, rack := { s.rack with migrations := s.rack.migrations ++ [{ mv with step := 2 }] } }

/-- Whether the origin may move a session: held, in a state that moves, and of no model group (R421, Table 2-4). -/
def movable (s : State) (h : Nat) : Bool :=
  match findSess s h with
  | some x => x.shardOf.isNone && [SState.opened, .active, .waitingTool, .warm, .parked].contains x.state && (modelGroup s x.model).isNone
  | none => false

/-- MOVE_BEGIN at origin and destination (R421). -/
def takeMoveBegin (handle origin destination home alternate vector : Nat) (s0 : State) : State :=
  let s := if origin = s0.rack.num then expire handle s0 else s0
  let part := ((mapRecords s).findSome? fun r => match r with | .move h _ _ _ _ _ p => if h = handle then some p else none | _ => none).getD 0
  let mv : Migration := { handle := handle, origin := origin, destination := destination, home := home, alternate := alternate, vector := vector
                          partition := part, atOrigin := origin == s.rack.num }
  if (findMigration s handle).isSome ∨ origin = destination then s
  else if destination = s.rack.num then reserveMove mv s
  else if origin = s.rack.num then
    if movable s handle then { s with rack := { s.rack with migrations := s.rack.migrations ++ [mv] } }
    else sendMgr destination 13 handle [moveReason .refused] [] [] (sendMgr (managerOf s s.rack.num) 13 handle [moveReason .refused] [] [] s)
  else s

/-- MOVE_BEGIN. -/
def execMoveBegin (h : MgrHdr) (origin destination home alternate vector : Nat) (s : State) : Host.Outcome State Fault Refusal :=
  .next (takeUnder (.moveBegin h origin destination home alternate vector) h (fun t => origin != t.rack.num || (findSess t h.handle).isSome) (takeMoveBegin h.handle origin destination home alternate vector) s)

/-- MOVE_READY: the background copy of every cast page begins (step 3). -/
def execMoveReady (h : MgrHdr) (window : Nat) (s : State) : Host.Outcome State Fault Refusal :=
  .next (takeUnder (.moveReady h window) h (fun _ => true) (onMigration h.handle fun m => if m.atOrigin && m.step == 1 then { m with step := 3, window := window } else m) s)

/-- Cast pages of a session by row and layer, oldest row first. -/
def castList (x : Session) : List (Nat × Nat) :=
  sortBy (fun (p : Nat × Nat) => p.1 * 65536 + p.2) ((x.pages.filter fun g => g.cond == .cast).map fun g => (g.row, g.layer))

/-- The switch-over once the copy list is empty, no operation is under way and no pour of the session's flask is in flight (steps 3 and 4): the
session is MOVING, its slot idles. -/
def trySwitch (handle : Nat) (s0 : State) : State :=
  let s := if s0.rack.migrations.any fun m => m.handle == handle && m.atOrigin && m.step == 3 then expire handle s0 else s0
  match findMigration s handle, findSess s handle with
  | some m, some x =>
    if m.atOrigin && m.step == 3 && m.copied && x.op.isNone && !inFlight s x && (castList x).all (m.copies.contains ·) then
      let y := { x with state := .moving, before := some x.state, restored := false }
      let s1 := onMigration handle (fun k => { k with step := 4, before := x.state }) (setSess y s)
      sendMgr m.destination 10 handle [x.tenant, x.model, x.durability, x.p, x.w, x.pendingTok.getD 0xFFFFFFFF, ((x.request.map Request.allowance).getD 0)] []
        (entryBytes s x) s1
    else s
  | _, _ => s

/-- Every migration that can switch over. -/
def switchReady (s : State) : State := forEach (s.rack.migrations.map Migration.handle) trySwitch s

/-- MIGRATION_COPY_DONE: the copy list is empty (step 3). -/
def execMigrationCopyDone (handle : Nat) (s : State) : Host.Outcome State Fault Refusal :=
  match findSess s handle with
  | none => .next s
  | some x => .next (trySwitch handle (onMigration handle (fun m => if m.atOrigin && m.step == 3 then { m with copied := true, copies := castList x } else m) s))

/-- The session that a switch-over brings, in the state it held before it, OPEN in place of ACTIVE (step 6). -/
def movedSession (mv : Migration) (m : Moved) (s : State) : Session :=
  { handle := mv.handle, tenant := m.tenant, model := m.model, durability := m.durability, oneShot := m.oneShot, strict := m.strict
    normForm := m.normForm, home := mv.home, alternate := mv.alternate, vector := mv.vector, clientTag := m.clientTag
    state := if m.before = .active then .opened else m.before, p := m.p, w := m.w, pendingTok := m.pendingTok, queue := m.queue, frameData := m.frameData, tokens := m.tokens
    pages := m.pages, blocks := m.blocks, snapshots := m.snapshots, window := m.window, request := m.request, calls := m.calls, call := m.call
    text := m.text, homeDie := chooseDie s ((findTen s m.tenant).map Tenant.partition |>.getD 0) }

/-- SWITCH_OVER at the destination: the state in T1, "prepared" (step 5); a session whose tenant or model is not here is refused. -/
def takeSwitch (h : MgrHdr) (m : Moved) (s : State) : State :=
  match findMigration s h.handle with
  | none => s
  | some mv =>
    if mv.atOrigin || mv.step != 2 then s
    else if (findTen s m.tenant).isNone || !modelOk s m.tenant m.model then abortMigration h.handle .refused s
    else sendMgr mv.origin 11 h.handle [] [] [] (onMigration h.handle (fun k => { k with step := 5, incoming := some (movedSession mv m s) }) s)

/-- SWITCH_OVER. -/
def execSwitchOver (h : MgrHdr) (m : Moved) (s : State) : Host.Outcome State Fault Refusal :=
  .next (takeUnder (.switchOver h m) h (fun _ => true) (takeSwitch h m) s)

/-- PREPARED at the origin: its acknowledgement lets the destination commit (step 5). -/
def execPrepared (h : MgrHdr) (s : State) : Host.Outcome State Fault Refusal :=
  .next (takeUnder (.prepared h) h (fun _ => true) (onMigration h.handle fun m => if m.atOrigin && m.step == 4 then { m with step := 5, ackedPrep := true } else m) s)

/-- The destination's copy window gone. -/
def closeCopyWindow (origin : Nat) (s : State) : State :=
  { s with links := { s.links with windows := s.links.windows.filter fun w => !(w.kind == 2 && w.peer == some origin) } }

/-- The commit record written (step 6): the session is here, its pages in this package's own lower copies; origin and directory are told. -/
def commitMove (handle : Nat) (s : State) : State :=
  match findMigration s handle with
  | none => s
  | some mv =>
    match mv.incoming with
    | none => s
    | some x =>
      let here := fun (g : Page) => match g.cond with | .cast => { g with inT1 := false, pools := [], first := false, second := false, inH := false, handle := 0 } | _ => { g with inT1 := true, frame := noFrame, handle := 0 }
      let y := { x with pages := x.pages.map here }
      let r := match sessProg s y with | some p => y.pages.foldl (recastPage p y) ([], s) | none => (y.pages, s)
      let s1 := seat handle (addSess { y with pages := r.1, blks := [], leaves := [] } r.2)
      let s2 : State := closeCopyWindow mv.origin { s1 with rack := { s1.rack with migrations := s1.rack.migrations.filter fun (k : Migration) => k.handle != handle } }
      let s3 := forEach (List.range (rowsOf x.w)) (anchorRow handle) (arm handle (anchor 1 handle s2))
      drainHeld handle (tellDirectory handle s3.rack.num (stateCode y.state) (sendMgr mv.origin 12 handle [] [] [] s3))

/-- Forwarding entries kept at the least (R424). -/
def forwardLimit : Nat := 65536

/-- A forwarding entry left; the oldest go once more are kept than R424 asks and their epoch is live no more. -/
def leaveForward (handle dest : Nat) (s : State) : State :=
  let l := (s.rack.forwards.filter fun (f : Nat × Nat × Nat) => f.1 != handle) ++ [(handle, dest, newestEpoch s)]
  let old := fun (f : Nat × Nat × Nat) => !(s.rack.epochs.any fun e => decide (e.num ≤ f.2.2 + 1))
  let extra := l.length - forwardLimit
  { s with rack := { s.rack with forwards := ((l.take extra).filter fun f => !old f) ++ l.drop extra } }

/-- COMMITTED at the origin (step 7): the entry freed, a forwarding entry left, the held messages sent on in arrival order, lower copies
released. -/
def takeCommitted (handle : Nat) (s : State) : State :=
  match findMigration s handle, findSess s handle with
  | some m, some x =>
    if m.atOrigin then
      let held := x.heldMsgs.filterMap sprueOf
      let s1 := forEach held (fun w t => sendMgr m.destination 10 handle [w.fn] [] (leBytes 64 w.w.toNat) t) s
      let s2 := dropSess handle (anchor 4 handle (deleteSessObjs x (releasePages (sessProg s1 x) x.pages (dropQueries handle s1))))
      let s3 : State := { s2 with rack := { s2.rack with migrations := s2.rack.migrations.filter fun (k : Migration) => k.handle != handle } }
      moveSettled handle (leaveForward handle m.destination s3)
    else s
  | _, _ => s

/-- COMMITTED. -/
def execCommitted (h : MgrHdr) (s : State) : Host.Outcome State Fault Refusal := .next (takeUnder (.committed h) h (fun _ => true) (takeCommitted h.handle) s)

/-- ABORTED: the destination releases what it wrote, the origin resumes the session and its held messages; a manager lists it and passes it to
the top manager, whose composition it settles (R422, R423). -/
def takeAborted (handle reason : Nat) (s : State) : State :=
  let gone := findMigration s handle
  let s1 : State := { s with rack := { s.rack with migrations := s.rack.migrations.filter fun (k : Migration) => k.handle != handle
                                                   aborted := s.rack.aborted ++ [(handle, reason)] } }
  let back := fun (x : Session) => if x.state == .moving then { x with state := x.before.getD .opened, before := none } else x
  let s2 := match gone with
    | some m => if m.atOrigin then drainHeld handle (onSess handle back s1) else closeCopyWindow m.origin s1
    | none => s1
  if topManager s2 = s2.rack.num then moveSettled handle s2
  else if isManager s2 && gone.isNone then sendMgr (topManager s2) 13 handle [reason] [] [] s2
  else s2

/-- ABORTED. -/
def execAborted (h : MgrHdr) (reason : Nat) (s : State) : Host.Outcome State Fault Refusal :=
  .next (takeUnder (.aborted h reason) h (fun _ => true) (takeAborted h.handle reason) s)

/-! ### Teardown and reports (R405, R412, R425, R427) -/

/-- TEARDOWN (R425). -/
def execTeardown (h : MgrHdr) (group : Nat) (s : State) : Host.Outcome State Fault Refusal :=
  .next (takeUnder (.teardown h group) h (fun _ => true) (fun t => sendMgr h.source 15 0 [group] [] [] (tearGroup group t)) s)

/-- TEARDOWN_DONE. -/
def execTeardownDone (h : MgrHdr) (group : Nat) (s : State) : Host.Outcome State Fault Refusal :=
  .next (takeUnder (.teardownDone h group) h (fun _ => true) (onGroup group fun g => { g with tearing := g.tearing.filter (· != h.source) }) s)

/-- The window that marks a report of a lost package: the model's, as is the destination that marks a failed pool or a released one (log entry 84). -/
def lostWindow : Nat := 0xFFFF

/-- A report at the fabric manager: a package reported lost, a failed pool whose grants go, a pool's extents released, or a group's work broken (R412,
R425 to R427). -/
def takeReport (source destination window reason : Nat) (s : State) : State :=
  if window = lostWindow then
    if topManager s = s.rack.num then declareFailed destination s
    else sendMgr (topManager s) 16 0 [source, destination, window, reason] [] [] (onMember destination (fun m => { m with failed := true }) s)
  else if topManager s ≠ s.rack.num then sendMgr (topManager s) 16 0 [source, destination, window, reason] [] [] s
  else if destination = releasedPool then s
  else if destination = 0xFFFF then
    composeNow [] ((mapRecords s).filter fun r => match r with | .pool k p _ _ _ _ => k == source && p == reason | _ => false) s
  else match s.rack.groups.find? (fun g => !g.torn && (List.range 9).any fun k => groupWindow g.num k == window) with
    | some g => fabricTeardown g.num s
    | none => s

/-- POISONED_READ_REPORT. -/
def execPoisonedReadReport (h : MgrHdr) (source destination window reason : Nat) (s : State) : Host.Outcome State Fault Refusal :=
  .next (takeOnce h (fun t => if isManager t then drainAll (takeReport source destination window reason t) else t) s)

/-! ### Recall and the registry (R328, R413) -/

/-- RECALL_FAN_OUT (R328). -/
def execRecallFanOut (h : MgrHdr) (op index shard k require exclude key tags : Nat) (code : List Byte) (query : Nat) (s : State) :
    Host.Outcome State Fault Refusal :=
  .next (takeUnder (.recallFanOut h op index shard k require exclude key tags code query) h (fun t => shard == 0xFFFF || (findShard t index shard).isSome)
    (takeFanOut h.source op index shard k require exclude key tags code query) s)

/-- RECALL_ANSWER (R328). -/
def execRecallAnswer (h : MgrHdr) (query shard outcome : Nat) (results : List (Nat × Nat × Nat)) (s : State) : Host.Outcome State Fault Refusal :=
  .next (takeOnce h (fun t => drainAll (takeRecallAnswer query shard outcome results t)) s)

/-- REGISTRY_UPDATE: the tenant registry of the top manager (R413). -/
def execRegistryUpdate (h : MgrHdr) (tenant partition : Nat) (present : Bool) (s : State) : Host.Outcome State Fault Refusal :=
  .next (takeOnce h (fun t =>
    if topManager t = t.rack.num then
      let rest := t.rack.registry.filter fun (e : Nat × Nat) => e.1 != tenant
      { t with rack := { t.rack with registry := if present then rest ++ [(tenant, partition)] else rest } }
    else t) s)

/-! ### Acknowledgement and loss (R412, R416, R428) -/

/-- A manager declared lost (R428): lookups refused, sharded operations that wait for it TIER_FAULT, migrations not yet committed aborted. -/
def loseManager (s : State) : State :=
  let s1 := forEach s.rack.lookups (fun (p : Nat × Instr) t => answerLookup none p.2 t)
    { s with rack := { s.rack with lookups := [], managerLost := true } }
  let s2 := forEach ((s1.rcl.queries.filter fun q => q.left == [0xFFFF]).map Query.num) (fun n t => concludeQuery n (onQuery n (fun q => { q with failed := true, left := [] }) t)) s1
  drainAll (forEach ((s2.rack.migrations.filter fun m => !m.ackedPrep).map Migration.handle) (abortMigration · .destinationLost) s2)

/-- A peer found lost by its sender: reported to the manager, which declares it failed; a lost manager leaves its workers on their own. -/
def losePeer (peer : Nat) (s : State) : State :=
  let s1 : State := { s with rack := { s.rack with unacked := s.rack.unacked.filter fun m => m.peer != peer, lostPeers := s.rack.lostPeers ++ [peer] } }
  if peer = superior s1 ∧ superior s1 ≠ s1.rack.num then loseManager s1
  else if topManager s1 = s1.rack.num then declareFailed peer s1
  else sendMgr (superior s1) 16 0 [s1.rack.num, peer, lostWindow, 1] [] [] (if isManager s1 then onMember peer (fun m => { m with failed := true }) s1 else s1)

/-- MANAGER_RESEND_TIMEOUT (R412): sent again, or after 8 sends, or with the peer unreachable, the peer is lost. -/
def execManagerResendTimeout (peer seq : Nat) (s : State) : Host.Outcome State Fault Refusal :=
  match s.rack.unacked.find? (fun (m : MgrMsg) => m.peer == peer && m.seq == seq) with
  | none => .next s
  | some m =>
    if 8 ≤ m.sends ∨ s.links.unreachable.contains peer then .next (losePeer peer s)
    else
      let again := { m with sends := m.sends + 1 }
      .next { s with rack := { s.rack with unacked := s.rack.unacked.map (fun k => if k = m then again else k), outbox := s.rack.outbox ++ [again] } }

/-! ### Checkpoint notices (R411, R429) -/

/-- CHECKPOINT_NOTICE: body byte 0 is 1 for a stop, 2 for a live notice. -/
def execCheckpointNotice (h : MgrHdr) (kind : Nat) (s : State) : Host.Outcome State Fault Refusal :=
  .next (takeOnce h (fun t => if kind = 1 then noticeStop (.manager h.source) t else if kind = 2 then noticeLive (.manager h.source) t else t) s)

/-- CHECKPOINT_ANSWER at the manager that gave the notice: the package's answer is kept (R411). -/
def execCheckpointAnswer (h : MgrHdr) (number slot length outcome : Nat) (s : State) : Host.Outcome State Fault Refusal :=
  .next (takeOnce h (fun t => { t with rack := { t.rack with ckptAnswers := t.rack.ckptAnswers ++ [(h.source, number, slot, length, outcome)] } }) s)

end Sys2Proof.Machine
end

