-- ==== Sys2Proof/Machine/Boundary.lean ====
section
/-! DEFINITION. The pour barrier and the barrier of an idle package; epochs applied there; a hub roll's hand-over; and how a reset or a takeover
settles a pour and the work outside pours (R129, R414 to R416, R500, R511, R513, R516 to R519, R547, R548). -/

namespace Sys2Proof.Machine

/-! ### What waited for an epoch (Table 14-4) -/

/-- The state a command leaves. -/
def stateAfter (s : State) (o : Host.Outcome State Fault Refusal) : State := match o with | .next t => t | _ => s

/-- A command held for an epoch carried out. -/
def runHeld (c : Instr) (s : State) : State :=
  match c with
  | .lookup h => stateAfter s (execLookup h s)
  | .directoryUpdate h k st => stateAfter s (execDirectoryUpdate h k st s)
  | .moveBegin h o d home alt v => stateAfter s (execMoveBegin h o d home alt v s)
  | .moveReady h w => stateAfter s (execMoveReady h w s)
  | .switchOver h m => stateAfter s (execSwitchOver h m s)
  | .prepared h => stateAfter s (execPrepared h s)
  | .committed h => stateAfter s (execCommitted h s)
  | .aborted h r => stateAfter s (execAborted h r s)
  | .teardown h g => stateAfter s (execTeardown h g s)
  | .teardownDone h g => stateAfter s (execTeardownDone h g s)
  | .recallFanOut h op i sh k rq ex key tags code q => stateAfter s (execRecallFanOut h op i sh k rq ex key tags code q s)
  | .fabricReadRequest p h => stateAfter s (execFabricReadRequest p h s)
  | .fabricWriteReceived p h l => stateAfter s (execFabricWriteReceived p h l s)
  | _ => s

/-- The published epoch applied, and what was held for it carried out (R414, Table 14-4). -/
def applyPublished (s : State) : State :=
  if s.rack.published.isNone then s
  else
    let s1 := applyEpoch s
    let s2 : State := { s1 with rack := { s1.rack with heldMgr := [] }, links := { s1.links with held := [] } }
    drainAll (forEach (s1.rack.heldMgr ++ s1.links.held) runHeld s2)

/-- A published epoch applied at once with no pour in flight (R414). -/
def settleEpoch (s : State) : State := if s.sched.pour.isNone then applyPublished s else s

/-- MAP_PUBLISH (R414). -/
def execMapPublish (h : MgrHdr) (epoch : Nat) (records : List MapRecord) (s : State) : Host.Outcome State Fault Refusal :=
  .next (takeOnce h (fun t => settleEpoch (takeMap epoch records t)) s)

/-- EPOCH_RETIRED (R416). -/
def execEpochRetired (h : MgrHdr) (epoch : Nat) (s : State) : Host.Outcome State Fault Refusal :=
  .next (takeOnce h (fun t => settleEpoch (tryRetire (onMember h.source (fun m => { m with retired := max m.retired epoch }) t))) s)

/-- ACKNOWLEDGE: the message named is kept no longer; the acknowledgement of "prepared" is the commit's condition (R412, Table 14-5). -/
def execAcknowledge (h : MgrHdr) (seq : Nat) (s : State) : Host.Outcome State Fault Refusal :=
  if onRack s && h.crcOk then
    let hit := fun (m : MgrMsg) => m.peer == h.source && m.seq == seq
    let s1 : State := { s with rack := { s.rack with unacked := s.rack.unacked.filter fun m => !hit m, consumed := s.rack.consumed + 1 } }
    match s.rack.unacked.find? hit with
    | some m => .next (settleEpoch (tryRetire (if m.kind = 11 then commitMove m.handle s1 else s1)))
    | none => .next s1
  else .next s

/-! ### The hub roll at a barrier (Table 18-3, steps 2 to 4; R519) -/

/-- Leadership handed to the restarted hub at a barrier: cluster control reloads from the new image, held ATTEST results go, and the old leader
restarts from the same slot. -/
def handOver (s : State) : State :=
  match s.dev.roll with
  | none => s
  | some r =>
    if r.step ≠ 2 then s
    else
      let slot := (hubOf s r.hub).image
      let old := s.dev.leading
      let s1 := onHub old (fun h => { h with restarting := true, image := slot }) s
      { s1 with dev := { s1.dev with leading := r.hub, image := slotImage s slot, slot := slot, roll := some { r with step := 4, hub := old } }
                fns := s1.fns.map fun f => { f with attest := none } }

/-- HUB_ROLL_HUB_READY (R517, R518): the restarting hub reports as follower, or its start failed and it starts again from good slot. -/
def execHubRollHubReady (ok : Bool) (s : State) : Host.Outcome State Fault Refusal :=
  match s.dev.roll with
  | none => .next s
  | some r =>
    let good := ((hrGoverning s.nor).map HealthRec.goodSlot).getD 0
    let s1 := deriveAlias r.hub (onHub r.hub (fun h => { h with restarting := false, image := if ok then h.image else good }) s)
    if ok = false then
      if r.step = 1 ∨ r.step = 4 then .next (answerMb r.req .checkFailed [] { s1 with dev := { s1.dev with roll := none } }) else .next s
    else if r.step = 1 then
      let s2 : State := { s1 with dev := { s1.dev with roll := some { r with step := 2 } } }
      .next (if s2.sched.pour.isNone then handOver s2 else s2)
    else if r.step = 4 then
      let raise : Nor := { s1.nor with fuses := max s1.nor.fuses ((s1.dev.image.map Image.securityVersion).getD 0) }
      let s2 := hrRewrite (fun h => { h with trial := false, goodSlot := s1.dev.slot }) { s1 with nor := raise, dev := { s1.dev with roll := none } }
      .next (answerMb r.req .done [] s2)
    else .next s

/-! ### The barrier (R129, actions 4 to 6) -/

/-- Commits, epochs, snapshots and hand-overs of a barrier, the pour's boundary passed: then what may go on does. -/
def passBarrier (us : Nat) (s : State) : State :=
  let s1 := mirrorTaken (passTime us s)
  let s2 := applyDue s1.stg.commits.length s1
  let s3 : State := { s2 with sched := { s2.sched with pour := none } }
  let s4 := handOver (persistDue (applyPublished s3))
  let s5 := admitHeld (relieve (switchReady (drainAll s4)))
  if mayPlan s5 && (candidates s5).isEmpty then resumePour s5 else s5

/-- POUR_BARRIER (R129, R345): step 9 of the pour whose blocks are written. -/
def execPourBarrier (elapsedUs : Nat) (s : State) : Host.Outcome State Fault Refusal :=
  match s.sched.pour with
  | some p => if p.step = 9 then .next (passBarrier elapsedUs s) else .next s
  | none => .next s

/-- COMMIT_BARRIER_IDLE (R500): with no pour in flight a barrier stands as if a boundary had just passed. -/
def execCommitBarrierIdle (s : State) : Host.Outcome State Fault Refusal :=
  if s.sched.pour.isNone && serving s then .next (passBarrier 0 s) else .next s

/-! ### A pour settled by a takeover or a serving reset (R513, R547) -/

/-- A window's entry of a request that its release point ended, pending again. -/
def repend (seq : Nat) (w : Window) : Window := windowSet w seq fun e => { e with outcome := none }

/-- A session taken back to before its release point, with what it has taken since. -/
def unrelease (w : Work) (s : State) : State :=
  match w.sess0, findSess s w.handle with
  | some x0, some x =>
    let win := match x0.request with | some r => repend r.seq x.window | none => x.window
    let s1 := seat w.handle (setSess { x0 with window := win, heldMsgs := x.heldMsgs, asks := x.asks } s)
    let gone := fun (q : Query) => match q.asker with | .onDevice k n => k == w.handle && x0.call != some (.onDevice n q.num) | _ => false
    let s2 : State := { s1 with rcl := { s1.rcl with queries := s1.rcl.queries.filter fun q => !gone q } }
    let bare := (List.range (x0.w / 16)).filter fun r => !(s2.chk.anchors.any fun a => a.kind == 0 && a.handle == w.handle && a.row == r)
    let s3 := forEach bare (anchorRow w.handle) s2
    if w.consumed then onTen w.tenant (fun t => { t with budget := if t.budget = unlimited then t.budget else t.budget + 1 }) s3 else s3
  | _, _ => s

/-- The release points of a pour whose mirror was not acknowledged undone: no record of the pour has reached the tap (R513). -/
def rollBackRelease (s : State) : State :=
  match s.sched.pour with
  | none => s
  | some p =>
    let s1 := forEach p.works unrelease s
    { s1 with fns := s1.fns.map fun f => { f with waiting := f.waiting.filter fun r => !r.inPour }
              sched := { s1.sched with pour := some { p with step := 7 } } }

/-- The pour in flight settled: past its mirror it rolls forward, before it the pour runs again with its number (R513). -/
def settlePour (s : State) : State :=
  match s.sched.pour with
  | none => s
  | some p => if p.step = 9 then passBarrier 0 s else if p.step = 8 then rerunPour (rollBackRelease s) else rerunPour s

/-- Suspended pours set to run again with their numbers (R547). -/
def rerunSuspended (s : State) : State :=
  let s1 := forEach ((s.sched.suspended.map fun p => p.works.filter fun w => isWorking w && !w.barged).flatten) discardWork s
  let again := fun (p : Pour) => { p with rerun := true, step := 1, layer := 0, works := [], masksDone := false, waiting := false, preempt := none }
  { s1 with sched := { s1.sched with suspended := s1.sched.suspended.map again }
            cores := { s1.cores with ctxs := [] } }

/-! ### Work outside pours (R548) -/

/-- A session's operation before its commit step rolled back; a PARK that started it is held again. -/
def rollBackOp (h : Nat) (s : State) : State :=
  match findSess s h with
  | none => s
  | some x =>
    match x.op with
    | some (.park _ obj ask) =>
      let y := if resident x then applyTrim s x else x
      let s1 := onSess h (fun _ => { y with op := none }) (deleteObjs (sessHub s x) (fun o => o.num == obj) s)
      match ask with
      | some a => stampAsk a h s1
      | none => s1
    | some _ => onSess h (fun y => { y with op := none }) s
    | none => s

/-- Every operation before its commit step rolled back: demotions, parks and revivals, migrations, repair passes. -/
def rollBackOps (s : State) : State :=
  let s1 := forEach (s.sess.map Session.handle) rollBackOp s
  let early := fun (m : Migration) => if m.atOrigin then !m.ackedPrep else true
  let s2 := forEach ((s1.rack.migrations.filter early).map Migration.handle) (fun h t => abortMigration h .refused t) s1
  { s2 with rcl := { s2.rcl with shards := s2.rcl.shards.map fun h => { h with repair := none } } }

/-- What the messages that started operations do again, and what waited for a boundary that no pour will bring. -/
def resumeOps (s : State) : State := freeAllSpent (applyAsks false none (drainAll s))

/-! ### What a takeover loses (R516) -/

/-- A session taken back to before the messages that were not mirrored: gone are their window entries and what they left, their effects too where
the session is still where it was. -/
def unmirror (img : Bool × Session) (s : State) : State :=
  let x0 := img.2
  match findSess s x0.handle with
  | none => s
  | some x =>
    let known := fun (e : WinEntry) => x0.window.entries.any fun k => k.seq == e.seq
    let w : Window := { x.window with entries := x.window.entries.filter known, highest := x0.window.highest }
    let cut := { x with window := w, heldMsgs := x.heldMsgs.filter (x0.heldMsgs.contains ·), asks := x.asks.filter fun a => x0.asks.any fun b => b.seq == a.seq }
    let y := if !img.1 && x.state == x0.state && x.op.isNone && x.w == x0.w then
        { x0 with pages := x.pages, blocks := x.blocks, snapshots := x.snapshots, slot := x.slot, homeDie := x.homeDie, blks := x.blks, leaves := x.leaves }
      else cut
    let mine := fun (r : WaitRec) => match r.body with
      | .out o _ => o.win == some (.session x0.handle) && o.answers && !(x0.window.entries.any fun k => k.seq == o.seq)
      | .ses _ _ => false
    setSess y { s with fns := s.fns.map fun f => { f with waiting := f.waiting.filter fun r => !mine r } }

/-- A session's allowances as the last acknowledged mirror carried them: the time since is not counted (R48). -/
def restoreAllowed (l : List Allowed) (x : Session) : Session :=
  match l.find? fun a => a.handle == x.handle with
  | none => x
  | some a =>
    let frame := fun (q : QItem) => match q with
      | .frame n sq k al an o i => .frame n sq k (((a.frames.find? fun f => f.1 == o).map Prod.snd).getD al) an o i
      | q => q
    { x with allowance := if x.allowKind = a.kind then a.value else x.allowance
             request := x.request.map fun r => match a.req with
               | some q => if q.1 = r.seq then { r with allowance := q.2 } else r
               | none => r
             queue := x.queue.map frame }

/-- Everything that was not mirrored lost with the old leader; counting resumes from the allowances last mirrored (R48, R516). -/
def loseUnmirrored (s : State) : State :=
  let s1 := forEach s.cores.unmirrored unmirror s
  mirrorTaken { s1 with sess := s1.sess.map (restoreAllowed s.cores.allowed) }

end Sys2Proof.Machine
end

