-- ==== Sys2Proof/Machine/Checkpoint.lean ====
section
/-! DEFINITION. The cut, the commit and the failure of a checkpoint, and what the host links' states bring: orphaned sessions, the ORPHAN state and
its expiry (R431 to R435, R442 to R444, R450, R544 to R546). -/

namespace Sys2Proof.Machine

/-! ### What is saved (R432, R435) -/

/-- Works of pours that a live checkpoint does not hold: their slots stand as before the pour (R431). -/
def openWorks (s : State) : List Work := ((s.sched.suspended.map Pour.works).flatten).filter isWorking

/-- A session as a checkpoint saves it (R432): its operation rolled back, the PARK that began one held with its messages; in a live checkpoint, what
a suspended pour has written cut away. -/
def savedSession (s : State) (live : Bool) (x : Session) : Session :=
  let asks := match x.op with | some (.park _ _ (some a)) => x.asks ++ [a] | _ => x.asks
  let y := { x with op := none, asks := asks, slot := x.slot }
  match (if live then (openWorks s).find? (fun w => w.handle == x.handle) else none), sessProg s x with
  | some w, some p => { cutPages p x.w y with tokens := y.tokens, blocks := w.blocks0, snapshots := w.snaps0 }
  | _, _ => y

/-- The contents of a checkpoint (Table 15-2). Sessions and shards of a retiring tenant are not in it (R471). -/
def contentsNow (live : Bool) (s : State) : Saved :=
  let gone := (s.tens.filter Tenant.retiring).map Tenant.id
  { sess := (s.sess.filter fun x => !gone.contains x.tenant).map (savedSession s live), tens := s.tens, flasks := s.sched.flasks
    models := s.models, placements := s.tiers.placements, hRegions := s.tiers.hRegions, pools := s.tiers.pools, extents := s.tiers.extents, parts := s.parts
    committed := s.stg.committed, rounds := s.rack.groups.map (fun g => (g.num, g.round)), pours := if live then [] else s.sched.suspended
    shards := s.rcl.shards.filter (fun h => !gone.contains h.item.tenant), ctxs := if live then [] else s.cores.ctxs }

/-- The header of a session's section: the decoder blocks and KV heads it holds, its group and participant, and its molten rows (Table 15-4). -/
def sessionHdr (s : State) (x : Session) : SecHdr :=
  let rows := (x.pages.filter fun g => g.cond == .molten || g.cond == .casting).map Page.row
  let g := if x.heads.isSome then s.rack.groups.find? fun g => g.model == x.model && !g.torn else none
  let first := rows.foldl min (rows.headD 0)
  { kind := 3, encrypted := true, tenant := x.tenant, model := x.model, layers := ((sessProg s x).map fun p => p.decoders.length).getD 0
    firstHead := if x.heads.isSome then ((ownHeads s x.model).map Prod.fst).getD 0 else 0, heads := ((sessProg s x).map fun p => headsOf p x).getD 0
    group := (g.map MGroup.num).getD 0xFFFF
    participant := ((g.map fun g => g.parts.findIdx fun a => a.package == s.rack.num)).getD 0xFF
    handle := x.handle, firstRow := first, rows := if rows.isEmpty then 0 else rows.foldl max 0 + 1 - first, length := sectionBytes s x - 64 }

/-- The section headers of a checkpoint, package and directory first, then the sessions, pour state and recall (Table 15-2, R441, R442). -/
def sectionHdrs (s : State) (v : Saved) : List SecHdr :=
  [{ kind := 1, length := Config.packageSection v.tens.length v.flasks.length v.models.length v.pools.length },
   { kind := 2, encrypted := true, length := 64 * v.sess.length }] ++
  (v.sess.filter fun x => decide (0 < sectionBytes s x)).map (sessionHdr s) ++
  (if v.pours.isEmpty then [] else [{ kind := 4, length := v.pours.length * (pourAllowance s / 4) }]) ++
  (if v.shards.isEmpty then [] else [{ kind := 5, length := Config.recallSection v.shards.length }])

/-- The bytes of a section header, with its CRC-32C (Table 15-4). -/
def hdrBytes (h : SecHdr) : List Byte :=
  let b := leBytes 1 h.kind ++ leBytes 1 h.encrypted.toNat ++ leBytes 2 h.tenant ++ leBytes 2 h.model ++ leBytes 2 h.firstLayer ++ leBytes 2 h.layers ++
    leBytes 1 h.firstHead ++ leBytes 1 h.heads ++ leBytes 2 h.group ++ leBytes 1 h.participant ++ zeros 1 ++ leBytes 8 h.handle ++
    leBytes 4 h.firstRow ++ leBytes 4 h.rows ++ leBytes 8 h.length ++ zeros 20
  b ++ leBytes 4 (crc32c (b.map BitVec.toNat))

/-- The sections of a checkpoint: its contents under their headers. -/
def sectionsNow (live : Bool) (s : State) : Saved :=
  let v := contentsNow live s
  { v with hdrs := sectionHdrs s v }

/-- LBAs of a section: its header and its content, padded to 4 KiB (R439). -/
def sectionLbas (h : SecHdr) : Nat := ceilDiv (64 + h.length) 4096

/-- The section headers and LBAs of each module's body: each section goes to the module with the smaller total so far, the first of two that are
equal (R439, log entry 186). -/
def layBodies (modules : Nat) (hs : List SecHdr) : List (Nat × Nat) :=
  hs.foldl (fun bs h =>
    let least := (bs.map Prod.snd).foldl min ((bs.head?.map Prod.snd).getD 0)
    let at_ := bs.findIdx fun b => b.2 == least
    bs.modify at_ fun b => (b.1 + 1, b.2 + sectionLbas h)) (List.replicate modules (0, 0))

/-- Length of a checkpoint in bytes (R435): its sections at their sizes, a session's with its header. -/
def savedBytes (v : Saved) : Nat := (v.hdrs.map fun h => if h.kind = 3 then h.length + 64 else h.length).sum

/-! ### The cut (R430, R431) -/

/-- A slot whose body is being written holds no valid checkpoint (R439, R445). -/
def spoilSlot (k : Nat) (s : State) : State :=
  if k = 0 then { s with chk := { s.chk with slot0 := s.chk.slot0.map fun c => { c with valid := false } } }
  else { s with chk := { s.chk with slot1 := s.chk.slot1.map fun c => { c with valid := false } } }

/-- The cut taken. -/
def takeCut (c : Ckpt) (s : State) : State :=
  let v := sectionsNow (!c.stop) s
  let s1 := spoilSlot c.slot s
  { s1 with chk := { s1.chk with now := some { c with cut := true, cutPour := lastPourNumber s, modules := chillCount s, saved := v } } }

/-- Parks of an orphan stop that still run (R546). -/
def parksLeft (s : State) : Bool := s.sess.any fun x => match x.op with | some (.park _ _ _) => true | some (.demotion _) => true | _ => false

/-- A stop whose parks have ended waits for them no more. -/
def parksEnd (s : State) : State :=
  if parksLeft s then s else { s with dev := { s.dev with stop := s.dev.stop.map fun t => { t with parks := false } } }

/-- CHECKPOINT_CUT (R430, R431): a stop's cut with the pour in flight suspended at its layer boundary; a live cut at a pour boundary. A pour past its
last layer ends first (log entry 85). -/
def execCheckpointCut (s0 : State) : Host.Outcome State Fault Refusal :=
  let s := parksEnd s0
  match s.chk.now with
  | none => .next (proceedStop s)
  | some c =>
    if c.cut then .next s
    else if c.stop then
      if s.dev.stop.any Stop.parks || (s.sched.pour.any fun p => decide (4 < p.step)) then .next s
      else if unprotected s then .next (failCkpt s)
      else .next (takeCut c (suspend s))
    else if serving s && s.sched.pour.isNone then
      .next (if unprotected s then failCkpt s else takeCut c s)
    else .next s

/-! ### Commit (R434, R439, R442, R445, R450) -/

/-- Whether a checkpoint refers to a store object. -/
def refersTo (c : Option CkSlot) (o : Obj) : Bool :=
  c.any fun k => k.saved.sess.any fun x => x.handle == o.handle && (x.ingot == o.num || !o.ingot || x.copying)

/-- Space held for older checkpoints released once both slots hold newer ones, and deleted objects that neither slot refers to (R434). -/
def releaseOld (s : State) : State :=
  let oldest := match s.chk.slot0, s.chk.slot1 with | some a, some b => min a.number b.number | _, _ => 0
  let kept := fun (o : Obj) => !o.deleted || refersTo s.chk.slot0 o || refersTo s.chk.slot1 o
  { s with tiers := { s.tiers with freed := s.tiers.freed.filter fun f => decide (oldest ≤ f.2.2) }
           store := { s.store with objs := s.store.objs.filter kept } }

/-- A module's commit record, one LBA (Table 15-6). -/
def recordLba (c : CkSlot) (module : Nat) : List Byte :=
  let body := c.bodies.getD module (0, 0)
  let b := [0x43, 0x48, 0x4B, 0x50] ++ leBytes 2 0x0100 ++ leBytes 1 c.modules ++ leBytes 1 module ++ leBytes 8 c.number ++ leBytes 8 c.serial ++
    leBytes 2 c.package ++ leBytes 1 c.kind ++ leBytes 1 (if c.saved.pours.isEmpty then 0 else 1) ++ leBytes 4 body.1 ++ leBytes 8 body.2 ++
    leBytes 2 (partNumber c.part) ++ leBytes 1 c.scDies ++ zeros 1 ++ leBytes 4 c.clusters ++ leBytes 8 c.cut ++ zeros 8 ++
    (List.range 64).map (Config.bodyDigest c.number module)
  padTo 4096 (b ++ leBytes 4 (crc32c (b.map BitVec.toNat)))

/-- The first LBA of a checkpoint slot on a module of `lbas` LBAs, where its commit record lies (R439). -/
def slotLba (lbas slot : Nat) : Nat := 1 + slot * ((lbas - 1) / 2)

/-- A 4 KiB unit of a tenant's content in a checkpoint, encrypted under its tweak (R440). -/
def sealLba (key number lba : Nat) (bs : List Byte) : List Byte := Config.xts key (number * 2 ^ 32 + lba) (padTo 4096 bs)

/-- The content of the directory section: every entry not FREE, in handle order (Table 15-2). -/
def directoryContent (s : State) (v : Saved) : List Byte := ((sortBy Session.handle v.sess).map (entryBytes s)).flatten

/-- The commit records of a checkpoint written in its slot (Table 15-6). -/
def writeRecord (c : Ckpt) (s : State) : State :=
  let k : CkSlot :=
    { number := c.number, kind := if c.stop then 1 else 2, length := savedBytes c.saved, bodies := layBodies c.modules c.saved.hdrs, modules := c.modules, valid := true, cut := c.cutPour
      part := s.part, scDies := scCount s.part, clusters := clusterMask s, package := s.rack.num, serial := Config.factorySerial, saved := c.saved }
  if c.slot = 0 then { s with chk := { s.chk with slot0 := some k, now := none } } else { s with chk := { s.chk with slot1 := some k, now := none } }

/-- The committed checkpoint copied to the export extents that the board description names (R450). -/
def exportCkpt (slot : Nat) (s : State) : State :=
  match s.dev.image with
  | none => s
  | some im =>
    let at_ := im.board.exportFirst * 2 ^ 30
    match ckSlot s slot with
    | some k =>
      if im.board.exportSlots = 0 then s
      else { s with chk := { s.chk with exports := (at_, k) :: s.chk.exports.filter fun e => e.1 != at_ } }
    | none => s

/-- A checkpoint committed: its answers, vector 2 and a health event, and a stop going on (R442). -/
def commitCkpt (c : Ckpt) (s : State) : State :=
  let n := savedBytes c.saved
  let s1 := exportCkpt c.slot (releaseOld (writeRecord c s))
  let s2 := healthSignal (leadDie s) c.number (answerAskers .done c.number c.slot n c.askers s1)
  if c.stop then stopOutcome true c.number { s2 with dev := { s2.dev with lastStop := some (c.number, c.slot, n) } } else s2

/-- CHECKPOINT_COMMIT (R442, R444): every module present holds its record; with a module lost since the cut the checkpoint has failed. -/
def execCheckpointCommit (s : State) : Host.Outcome State Fault Refusal :=
  match s.chk.now with
  | none => .next s
  | some c =>
    if c.cut = false then .next s
    else if chillCount s = c.modules then .next (commitCkpt c s)
    else .next (healthSignal (leadDie s) c.number (failCkpt s))

/-- CHECKPOINT_FAILED (R444): a write failed, or modules are missing, of which so many are left. -/
def execCheckpointFailed (modulesLeft : Nat) (s : State) : Host.Outcome State Fault Refusal :=
  match s.chk.now with
  | none => .next s
  | some c =>
    let s1 : State :=
      if modulesLeft < chillCount s then { s with dev := { s.dev with chill := s.dev.chill.mapIdx fun i b => b && decide (((s.dev.chill.take i).countP id) < modulesLeft) } }
      else s
    .next (holdBound 0 (healthSignal (leadDie s1) c.number (failCkpt s1)))

/-! ### Links down and up (R238, R544 to R546) -/

/-- A session parked as a PARK with quantise 0 would park it, with the fallback of R269 (R545). -/
def orphanPark (h : Nat) (s : State) : State :=
  match findSess s h with
  | none => s
  | some x =>
    if x.op.isSome ∨ !(resident x || x.state == .warm) then s
    else
      let s1 := freeSpent h (endRequest false h .cancelled none true 0 0 (maskSlot h s))
      match findSess s1 h with
      | none => s1
      | some y =>
        let quant := parkForm s1 y 0
        let pages := match sessProg s1 y with | some p => objectPages s1 (ingotPages p quant y) | none => 1
        if (storeVerdict s1 (sessPart s1 y) pages).isSome then startDemotion false h s1
        else startPark false quant none h (onSess h (fun z => { z with toWait := false }) s1)

/-- The orphan allowance of a package in ORPHAN at zero: STOPPING, every resident session parked, then a stop checkpoint and steps 2 and 4 of Table
19-8 (R546). -/
def orphanStop (s : State) : State :=
  let s1 := enterStopping { orderly := true, parks := true } s
  let hs := (s1.sess.filter resident).map Session.handle
  stopCkpt .device (forEach hs orphanPark s1)

/-- ORPHAN_ALLOWANCE_EXPIRY (R546). -/
def execOrphanAllowanceExpiry (s : State) : Host.Outcome State Fault Refusal :=
  if s.dev.code = .orphan then .next (orphanStop s) else .next s

/-- LINK_ORPHAN_EXPIRY (R545): the sessions that a link's fall orphaned are parked. -/
def execLinkOrphanExpiry (link : Nat) (s : State) : Host.Outcome State Fault Refusal :=
  if flagAt s.dev.linkUp link || !serving s then .next s
  else .next (forEach ((s.sess.filter fun x => linkOf x.home == link && orphaned s x).map Session.handle) orphanPark s)

/-- Every function of a link that the host has enabled reset as by a function-level reset (R118, R544). -/
def resetLink (link : Nat) (s : State) : State :=
  forEach ((s.fns.filter fun f => linkOf f.id == link).map Fn.id) functionReset s

/-- A package in ORPHAN with an allowance of 0 stops at once (R546). -/
def enterOrphan (s : State) : State :=
  let s1 := enterState .orphan s
  if s1.dev.image.any (fun im => im.board.orphanUs == 0) then orphanStop s1 else s1

/-- HOST_LINK_DOWN (R544): DL_Down, or PERST_N asserted, which also resets every function of the link. -/
def execHostLinkDown (link : Nat) (perst : Bool) (s : State) : Host.Outcome State Fault Refusal :=
  if linkCount s.part ≤ link then .next s
  else
    let s1 : State := { s with dev := { s.dev with linkUp := s.dev.linkUp.set link false }, pins := { s.pins with perst := s.pins.perst.set link (perst || flagAt s.pins.perst link) } }
    let s2 := hostRegionsLost link (if perst then resetLink link s1 else s1)
    .next (if s2.dev.code = .ready ∧ !(s2.dev.linkUp.any id) then enterOrphan s2 else s2)

/-- HOST_LINK_UP (R544): DL_Up with PERST_N released (`perst` false): ORPHAN returns to READY, and what waits in the backlogs of the link's
functions is written. -/
def execHostLinkUp (link : Nat) (perst : Bool) (s : State) : Host.Outcome State Fault Refusal :=
  if linkCount s.part ≤ link ∨ s.pins.powerGood = false then .next s
  else if perst then .next { s with pins := { s.pins with perst := s.pins.perst.set link true } }
  else
    let s1 : State := { s with dev := { s.dev with linkUp := s.dev.linkUp.set link true }, pins := { s.pins with perst := s.pins.perst.set link false } }
    let s2 := forEach ((s1.fns.filter fun f => linkOf f.id == link).map Fn.id) drainBacklog s1
    .next (if s2.dev.code = .orphan then enterState .ready s2 else s2)

end Sys2Proof.Machine
end

