-- ==== Sys2Proof/Machine/Dies.lean ====
section
/-! DEFINITION. Dies that fail, and the runners that join them: lines checked and delivered, resends, sparing, fencing, and a die left with no path
to the leading hub (R32 to R38, R515, R537). -/

namespace Sys2Proof.Machine

/-! ### A failed die (R537, R515) -/

/-- A session homed on a failed die rebuilt from the anchor log onto another die of its partition, with the record of R448; its window and the
messages held for it stay. -/
def rebuildHome (l : List Anchor) (h : Nat) (s : State) : State :=
  match findSess s h, (newestState l h).bind Anchor.image with
  | some x, some i =>
    let y := fromRows l i s
    let z := { y with window := x.window, heldMsgs := x.heldMsgs, asks := x.asks, request := x.request, slot := x.slot
                      state := slottedState x.slot .opened }
    let d1 := if stateLast l h then i.p else 0xFFFFFFFF
    anchor 1 h (arm h (truncatedRecord h y.p d1 (drawFree (seat h (setSess z s)))))
  | _, _ => s

/-- A mask without the `w` bits of die `d`. -/
def cutMask (w d m : Nat) : Nat := ((List.range w).filter fun i => m.testBit (w * d + i)).foldl (fun a i => a - 2 ^ (w * d + i)) m

/-- The domains of an SC die switched off: its clusters and stacks leave their partitions. -/
def scOff (d : Nat) (s : State) : State :=
  let off := fun (x : ScDie) => { x with failed := true, logical := List.replicate 8 none, spare := none, order := [], testing := none
                                         stacksIn := List.replicate 6 false }
  onDie d off { s with parts := s.parts.map fun p => { p with clusters := cutMask 8 d p.clusters, stackSet := cutMask 6 d p.stackSet } }

/-- A failed SC die: the pour in flight runs again, sessions homed there are rebuilt elsewhere, and the others take another home. -/
def failSc (d : Nat) (s : State) : State :=
  let here := fun (x : Session) => x.homeDie == d && x.shardOf.isNone
  let hs := (s.sess.filter fun x => here x && resident x).map Session.handle
  let s1 := scOff d (forEach hs rollBackOp (rerunPour s))
  let s2 := forEach hs (rebuildHome s1.chk.anchors) s1
  forEach ((s2.sess.filter here).map Session.handle) (fun h t => onSess h (fun x => { x with homeDie := chooseDie t (sessPart t x) }) t) s2

/-- The ports of a failed PX die go OFF, with the loss of their paths (R403). -/
def failPx (d : Nat) (s : State) : State :=
  forEach ((List.range 16).map (16 * (d - 4) + ·)) (fun n t =>
    if (findPort t n).any fun p => p.state == .up then leaveUp n 0 (portGo n .off) t else portGo n .off t) s

/-- A hub's die failed whole: its host link is down and its NAND channels are fenced (R515). -/
def failHubDie (h : Nat) (s : State) : State :=
  let s1 := onHub h (fun x => { x with dieFailed := true }) s
  let off := ((List.range 32).map (32 * h + ·)).filter fun c => bitAt s1.store.channels c
  let s2 : State := { s1 with store := { s1.store with channels := off.foldl (fun m c => m - 2 ^ c) s1.store.channels }
                              pins := { s1.pins with aliveLow := s1.pins.aliveLow.set h false } }
  stateAfter s2 (execHostLinkDown h false s2)

/-- A die failed, with a health event (R537). A leading hub's failure comes by its takeover. -/
def failDie (d : Nat) (s : State) : State :=
  if s.dev.failed.contains d ∨ !((diesFitted s.part).contains d) then s
  else
    let s1 := healthSignal (leadDie s) d { s with dev := { s.dev with failed := s.dev.failed ++ [d] } }
    drainAll (if d < 4 then failSc d s1 else if d < 6 then failPx d s1 else failHubDie (d - 6) s1)

/-! ### The runners (R32 to R38) -/

/-- The two dies of a runner: the model's numbering of Table 1-4. -/
def runnerEnds (p : Part) (r : Nat) : Option (Nat × Nat) :=
  match p with
  | .tsn8840 => [(0, 1), (1, 3), (3, 2), (2, 0), (0, 4), (1, 4), (2, 5), (3, 5), (0, 6), (1, 6), (2, 7), (3, 7)][r]?
  | .tsn4420 => [(0, 1), (0, 1), (0, 4), (1, 4), (0, 6), (1, 6)][r]?

/-- Bundles of a runner (Table 1-5). -/
def runnerBundles (p : Part) (r : Nat) : Nat :=
  match runnerEnds p r with
  | none => 0
  | some e => if e.2 < 4 then 32 else if e.2 < 6 then 20 else 16

/-- Whether a part has a bundle. -/
def hasBundle (s : State) (r b : Nat) : Bool := decide (b < runnerBundles s.part r)

/-- One direction of a bundle, fresh when no line has used it (Table 1-5a is per direction). -/
def bundleOf (s : State) (r b : Nat) (d : Bool) : Bundle :=
  (s.links.bundles.find? fun x => x.runner == r && x.bundle == b && x.dir == d).getD { runner := r, bundle := b, dir := d }

/-- One direction of a bundle put in place. -/
def setBundle (x : Bundle) (s : State) : State :=
  { s with links := { s.links with
      bundles := (s.links.bundles.filter fun y => !(y.runner == x.runner && y.bundle == x.bundle && y.dir == x.dir)) ++ [x] } }

/-- Dies joined to a set of dies by a runner that is not lost, between dies that have not failed. -/
def joined (s : State) (ds : List Nat) : List Nat :=
  let rs := (List.range 12).filter fun r => !s.links.lostRunners.contains r
  let ok := fun (d : Nat) => !s.dev.failed.contains d
  rs.foldl (fun acc r =>
    match runnerEnds s.part r with
    | none => acc
    | some e =>
      if acc.contains e.1 && ok e.2 && !acc.contains e.2 then acc ++ [e.2]
      else if acc.contains e.2 && ok e.1 && !acc.contains e.1 then acc ++ [e.1] else acc) ds

/-- Dies with a path to the leading hub. -/
def reached (s : State) : List Nat := (List.range 8).foldl (fun ds _ => joined s ds) [leadDie s]

/-- Dies left with no path to the hub that leads, failed (R38). -/
def failUnreached (s : State) : State :=
  forEach ((diesFitted s.part).filter fun d => !(reached s).contains d) failDie s

/-- A bundle fenced in both directions, its pairs of engines free to take another; a runner with every bundle fenced is lost (R38). -/
def fenceBundle (r b : Nat) (s : State) : State :=
  if (bundleOf s r b false).fenced then s
  else
    let s0 := setBundle { bundleOf s r b true with fenced := true } (setBundle { bundleOf s r b false with fenced := true } s)
    let s1 := healthEvent (leadDie s) (r * 65536 + b)
      { s0 with links := { s0.links with pairs := s0.links.pairs.filter fun p => !(p.runner == r && p.bundle == b) } }
    if (List.range (runnerBundles s.part r)).all fun k => (bundleOf s1 r k false).fenced then
      failUnreached (healthSignal (leadDie s1) r { s1 with links := { s1.links with lostRunners := s1.links.lostRunners ++ [r] } })
    else s1

/-- A group shifted onto the next free spare group of its direction; a ninth spare fences the bundle (R37, R38). -/
def spareGroup (r b : Nat) (d : Bool) (g : Nat) (s : State) : State :=
  let x := bundleOf s r b d
  if x.fenced ∨ x.spared.contains g then s
  else if 8 ≤ x.spared.length then fenceBundle r b s
  else healthEvent (leadDie s) (r * 65536 + b * 1024 + bit d * 512 + g)
    (setBundle { x with spared := x.spared ++ [g], checks := x.checks.filter fun c => c.1 != g } s)

/-- The lines that the sender sends again from a sequence number (R36). -/
def resendFrom (x : Bundle) (seq : Nat) : List Nat := (x.sent.dropWhile fun e => e.1 != seq).map Prod.fst

/-- The receiver's notice that a group is to be spared, and its own shift (R37). -/
def noticeSpare (r b : Nat) (d : Bool) (g : Nat) (s : State) : State :=
  let x := bundleOf s r b d
  if x.fenced ∨ x.spared.contains g then s else spareGroup r b d g (setBundle { x with notices := x.notices ++ [g] } s)

/-- A line's check: CRC, legal codes, sequence, and a kind that is sent (R33, R36; log entry 175). -/
def lineGood (x : Bundle) (l : RunnerLine) : Bool :=
  l.legal && crc16 (bytesOf l.data 0 64) == l.crc && l.seq == x.expect && decide (l.kind < 4)

/-- Failed checks of a group within the last 1,048,576 lines (R37). -/
def recentChecks (x : Bundle) (g : Nat) : Nat := x.checks.countP fun c => c.1 == g && decide (x.lines < c.2 + 1048576)

/-- What the sender holds of a line: what it put on the bundle, in place of an earlier sending of the same number, among its last 64 (R36). -/
def sentLine (l : RunnerLine) (x : Bundle) : List (Nat × Nat × Line) :=
  let e := l.was.getD (l.seq, l.kind, l.data)
  let all := if x.sent.any fun k => k.1 == e.1 && x.replay.contains e.1 then x.sent else (x.sent.filter fun k => k.1 != e.1) ++ [e]
  all.drop (all.length - 64)

/-- The bundle of a line's pair of engines, chosen when the pair's first line is sent (R35). -/
def pairBundle (l : RunnerLine) (s : State) : Nat :=
  ((s.links.pairs.find? fun p => p.runner == l.runner && p.dir == l.dir && p.src == l.src && p.dst == l.dst).map Pair.bundle).getD l.bundle

/-- A line's pair of engines mapped to its bundle (R35). -/
def mapPair (l : RunnerLine) (s : State) : State :=
  if s.links.pairs.any fun p => p.runner == l.runner && p.dir == l.dir && p.src == l.src && p.dst == l.dst then s
  else { s with links := { s.links with pairs := s.links.pairs ++
    [{ runner := l.runner, dir := l.dir, src := l.src, dst := l.dst, bundle := l.bundle }] } }

/-- Whether a line can travel: its bundle is there and not fenced, and a data line's pair of engines is mapped to it (R35, R38). -/
def lineTravels (s : State) (l : RunnerLine) : Bool :=
  hasBundle s l.runner l.bundle && !(bundleOf s l.runner l.bundle l.dir).fenced && (l.kind != 0 || pairBundle l s == l.bundle)

/-- RUNNER_LINE_RECEIVED (R35, R36, R37): a good line is delivered once and in order, an empty line, a request or a notice delivering nothing;
a bad one is discarded with a resend request, on an empty line where no data line of the other direction waits, and its group's third failed
check spares it. -/
def execRunnerLineReceived (l : RunnerLine) (s : State) : Host.Outcome State Fault Refusal :=
  if lineTravels s l then
    let x0 := bundleOf s l.runner l.bundle l.dir
    let x := { x0 with lines := x0.lines + 1, sent := sentLine l x0 }
    let s0 := if l.kind = 0 then mapPair l s else s
    if lineGood x l then
      .next (setBundle { x with expect := (x.expect + 1) % 256, replay := x.replay.filter (· != l.seq)
                                delivered := if l.kind = 0 then x.delivered ++ [(l.src, l.dst, l.data)] else x.delivered } s0)
    else
      let y := { x with resends := x.resends ++ [(x.expect, !l.waiting)] }
      match l.badGroup with
      | none => .next (setBundle y s0)
      | some g =>
        let z := { y with checks := (y.checks ++ [(g, y.lines)]).filter fun c => decide (y.lines < c.2 + 1048576) }
        let s1 := setBundle z s0
        .next (if 3 ≤ recentChecks z g then noticeSpare l.runner l.bundle l.dir g s1 else s1)
  else .next s

/-- RUNNER_RESEND_REQUEST (R36): of the last 64 lines of the direction, those from the named number on are sent again. -/
def execRunnerResendRequest (runner : Nat) (side : BundleSide) (seq : Nat) (s : State) : Host.Outcome State Fault Refusal :=
  let x := bundleOf s runner side.bundle side.dir
  if !hasBundle s runner side.bundle || x.fenced then .next s
  else .next (setBundle { x with replay := resendFrom x seq } s)

/-- RUNNER_STUCK_WIRE (R37). -/
def execRunnerStuckWire (runner : Nat) (side : BundleSide) (group : Nat) (s : State) : Host.Outcome State Fault Refusal :=
  if hasBundle s runner side.bundle then .next (noticeSpare runner side.bundle side.dir group s) else .next s

/-- RUNNER_SPARING_NOTICE (R37): the sender shifts the group too, and sends again from its oldest unacknowledged line, the first that the
receiver has not taken. -/
def execRunnerSparingNotice (runner : Nat) (side : BundleSide) (group : Nat) (s : State) : Host.Outcome State Fault Refusal :=
  if !hasBundle s runner side.bundle || (bundleOf s runner side.bundle side.dir).fenced then .next s
  else
    let s1 := spareGroup runner side.bundle side.dir group s
    let x := bundleOf s1 runner side.bundle side.dir
    .next (setBundle { x with replay := if x.fenced then [] else resendFrom x x.expect } s1)

end Sys2Proof.Machine
end

