-- ==== Sys2Proof/Machine/Serving.lean ====
section
/-! DEFINITION. What a serving reset loses and keeps, and how the package serves again after it (R444, R500, R503, R513, R530, R547 to R549,
R585). -/

namespace Sys2Proof.Machine

/-! ### Messages not consumed -/

/-- A sprue message taken again from its slot. -/
def runMessage (c : Instr) (s : State) : State :=
  match c with
  | .openSession m => stateAfter s (execOpenSession m s)
  | .appendText m b => stateAfter s (execAppendText m b s)
  | .appendFrame m b => stateAfter s (execAppendFrame m b s)
  | .generate m b => stateAfter s (execGenerate m b s)
  | .toolResult m b => stateAfter s (execToolResult m b s)
  | .cancel m => stateAfter s (execCancel m s)
  | .barge m => stateAfter s (execBarge m s)
  | .park m => stateAfter s (execPark m s)
  | .close m => stateAfter s (execClose m s)
  | .recallQuery m b => stateAfter s (execRecall m b s)
  | .memorize m b => stateAfter s (execMemorize m b s)
  | .forget m => stateAfter s (execForget m s)
  | .tapRelease m => stateAfter s (execTapRelease m s)
  | .budget m => stateAfter s (execBudget m s)
  | .clockForward m => stateAfter s (execClockForward m s)
  | .unknownOpcode m => stateAfter s (execUnknownOpcode m s)
  | _ => s

/-- Messages that stood in the sprue slots unconsumed taken once the package serves again, in the order each function received them. -/
def takeUnconsumed (s : State) : State :=
  let all := (s.fns.map fun f => f.slots.map Prod.snd).flatten
  forEach all runMessage { s with fns := s.fns.map fun f => { f with slots := [] } }

/-! ### What the reset loses (Table 19-10) -/

/-- A function's mailbox after a serving or package reset: a request not answered is dropped, with BUSY and DONE 0 (R585). -/
def resetMb (m : Mailbox) : Mailbox := if m.busy then { gen := m.gen + 1, rejected := m.rejected } else { m with gen := m.gen + 1 }

/-- Open sets, commits not applied, mailbox requests not answered, held ATTEST results, the stop, the roll and the firmware's own state gone. -/
def dropRequests (s : State) : State :=
  { s with fns := s.fns.map (fun f => { f with mb := resetMb f.mb, attest := none })
           stg := { s.stg with sets := [], commits := [], mirrors := [], persists := [] }
           dev := { s.dev with stop := none, roll := none, heldShut := [] }
           rack := { s.rack with asking := [] }
           cores := {} }

/-- The serving reset up to its restart: the package stops serving, pours are settled, operations before their commit steps are rolled back,
binds, tests and the checkpoint in progress are abandoned. -/
def dropServing (s : State) : State :=
  let s1 := dropRequests (enterState .starting s)
  let s2 := rollBackOps (rerunSuspended (settlePour s1))
  abandonTests (failCkpt (dropBinding { s2 with dev := { s2.dev with step := 5 } }))

/-! ### Serving again (R530, Table 19-2) -/

/-- READY, or ORPHAN when no host link is up. -/
def enterServing (s : State) : State := if s.dev.linkUp.any id then enterState .ready s else enterOrphan s

/-- Steps 5 and 10 after a serving reset: what the reset rolled back is taken up again. -/
def serveAgain (s : State) : State :=
  let s1 := enterServing { s with dev := { s.dev with step := 10 }, store := { s.store with clean := false } }
  takeUnconsumed (resumeOps s1)

end Sys2Proof.Machine
end

