-- ==== Sys2Proof/Machine/Start.lean ====
section
/-! DEFINITION. The start sequence: the health record and the slot, the self-test's findings, training, the store, the restore and the entry to READY
(R31, R50, R223, R244, R247, R263, R423, R445 to R449, R455, R480, R486, R487, R491, R492, R505, R530 to R536, R562, R568, R593). -/

namespace Sys2Proof.Machine

/-! ### Steps 2 to 5 -/

/-- The SAFE_TALK state (R542): a start that has not reached step 5 derives its alias keys here (R472, log entry 200). -/
def enterSafeTalk (s : State) : State :=
  let s1 := enterState .safeTalk s
  if s.dev.step < 5 then deriveAlias 1 (deriveAlias 0 s1) else s1

/-- The step a start has reached. -/
def atStep (n : Nat) (s : State) : State := { s with dev := { s.dev with step := n } }

/-- Whether a trial has failed: its start began and did not reach READY (R492). -/
def trialFailed (r : HealthRec) : Bool := r.trial && r.tried

/-- The slot a start uses, and whether it fell back to it (R492). -/
def chooseSlot (s : State) (r : HealthRec) : Option (Nat × Bool) :=
  let first := if trialFailed r then r.goodSlot else r.nextSlot
  if slotOk s (slotImage s first) then some (first, false)
  else if slotOk s (slotImage s (otherSlot first)) then some (otherSlot first, true)
  else none

/-- Serials of a reserved block (R50). -/
def startBlock : Nat := 16777216

/-- Step 4: the flags cleared, a block of serials reserved, the owner's key enrolled, and the record rewritten (R50, R487, R492, R530). -/
def rewriteRecord (slot : Nat) (im : Image) (r : HealthRec) (s : State) : State :=
  let trial := r.trial && !trialFailed r
  let s1 := hrRewrite (fun h => { h with nextSlot := slot, trial := trial, tried := trial, clean := false, selfPassed := false
                                         serialEnd := r.serialEnd + startBlock, owner := some im.ownerKey }) s
  { s1 with dev := { s1.dev with nextSerial := r.serialEnd + 1, serialEnd := r.serialEnd + startBlock } }

/-- Step 5: every core runs its firmware from the image, the alias keys are derived; the leading hub is provisional. -/
def loadFirmware (slot : Nat) (im : Image) (s : State) : State :=
  deriveAlias 1 <| deriveAlias 0 <| atStep 5 { s with dev := { s.dev with image := some im, slot := slot, hubs := s.dev.hubs.map fun h => { h with image := slot } },
                                                       pins := { s.pins with aliveLow := (List.range 2).map fun h => hubServes s h } }

/-! ### Step 7: training and what is loaded -/

/-- The ports of the part with the roles of the board description, OFF (R393). -/
def boardPorts (p : Part) (b : BoardDesc) : List Port :=
  let none_ : PortDesc := { role := 0, peerKind := 0xFF, peerPort := 0xFF, peerUnit := 0xFFFF }
  (List.range (portCount p)).map fun n =>
    let d := b.ports.getD n none_
    { num := n, want := d, role := d.role }

/-- The HBM stacks that trained, and the dies a part fits. One that does not train has failed whole: that is recorded, and holds at every later
start (R242). -/
def trainStacks (ok : Nat) (s : State) : State :=
  let out := (hrGoverning s.nor).elim [] HealthRec.lostStacks
  let lost := (List.range (6 * scCount s.part)).filter fun n => !bitAt ok n && !out.contains n && (findDie s (n / 6)).any fun d => !d.failed
  let one := fun (d : ScDie) =>
    let up := fun (k : Nat) => decide (d.num < scCount s.part) && bitAt ok (6 * d.num + k) && !out.contains (6 * d.num + k)
    if d.failed then d else { d with fitted := decide (d.num < scCount s.part), stacksIn := (List.range 6).map up }
  let s1 : State := { s with dies := s.dies.map one }
  if lost.isEmpty then s1
  else forEach lost (fun n t => healthEvent (n / 6) (n * 2 ^ 32 + stackRegions) t) (hrRewrite (fun r => { r with lostStacks := r.lostStacks ++ lost }) s1)

/-- Whether a channel's hub can drive it. -/
def channelHubUp (s : State) (c : Nat) : Bool := decide (c < channelCount s.part) && !(hubOf s (c / 32)).dieFailed

/-- The channels fitted and trained, and the chill modules present (R244). -/
def trainStore (b : BoardDesc) (obs : StartObs) (s : State) : State :=
  let good := (List.range 64).filter fun c => bitAt b.channels c && bitAt obs.channelsOk c && channelHubUp s c
  let chill := (List.range 2).map fun h => decide (h < hubCount s.part) && bitAt b.chillModules h && bitAt obs.chillPresent h
  { s with store := { s.store with channels := (good.map (2 ^ ·)).sum }, dev := { s.dev with chill := chill } }

/-- Roles taken by ports whose wavelengths leave 8 lines; the rest with a role are DOWN, reason 2. A module's lasers are on once a port it feeds has
a role (R385, R387). -/
def trainPorts (s : State) : State :=
  let s1 := forEach (s.links.ports.filter fun p => p.role != 0) (fun p t =>
    if 8 ≤ goodLines p then retrain p.num 17 t else portFail p.num .down 2 t) s
  lightModules s1

/-- Extents that a standalone package's bridges offer, held by partition 0 and reached by the pool ports whose peer may be that bridge (R217, R395,
R426; log entry 86). -/
def ownPools (present : Nat) (s : State) : List Pool :=
  (List.range 64).filterMap fun n =>
    if bitAt present n then
      let paths := (s.links.ports.filter fun p => p.role == 1 && (p.want.peerUnit == 0xFFFF || p.want.peerUnit == n)).map Port.num
      some { num := n, bridge := n, paths := paths, extents := Config.bridgeExtents n }
    else none

/-- The manager message ring of a package in a domain: 4,096 lines, as window 0 (R411; log entry 230). -/
def exportRing (s : State) : State :=
  { s with links := { s.links with windows := s.links.windows ++ [{ num := 0, kind := 3, writes := true, base := Config.windowBase 0, length := 4096 }] } }

/-- The role section: a worker has no number until its manager gives one, and asks for it (R408, R409). -/
def takeImageRole (r : RoleDesc) (s : State) : State :=
  let worker := r.role == 1
  let s1 : State := { s with rack := { s.rack with role := r.role, domain := r.domain, num := if worker then 0 else r.package, numValid := !worker, above := r.above } }
  if r.role = 0 then s1
  else if worker then sendMgr r.above 1 0 [Config.factorySerial, s1.dev.serialEnd] [] [] (exportRing s1)
  else exportRing s1

/-- The regions that the health record tells retired, of stacks in service, counted for each die (R242). -/
def retiredCounts (s : State) : List (Nat × Nat) :=
  let bad := ((hrGoverning s.nor).elim [] HealthRec.regions).map Prod.fst
  (List.range (scCount s.part)).map fun d => (d, bad.countP fun k => k / 6 == d && stackOn s k)

/-- The dies that as many retired regions make degraded (R242). -/
def wornDies (s : State) : List Nat := (List.range (scCount s.part)).filter fun d => decide (65536 ≤ regionsRetired s d)

/-- The retired regions counted at a start, and the dies degraded by them. -/
def countRegions (s : State) : State :=
  let worn := wornDies { s with tiers := { s.tiers with retired := retiredCounts s } }
  { s with tiers := { s.tiers with retired := retiredCounts s, degraded := worn } }

/-- Step 7 (R530). -/
def trainUnits (im : Image) (obs : StartObs) (s : State) : State :=
  let s1 := trainPorts (trainStore im.board obs (trainStacks obs.stacksOk (atStep 7 s)))
  let cut := fun (p : Partition) => s1.dev.failed.foldl (fun (q : Partition) d =>
    if d < 4 then { q with clusters := cutMask 8 d q.clusters, stackSet := cutMask 6 d q.stackSet } else q) p
  let s2 : State := countRegions { s1 with parts := (imageParts s1.part im.partitions).map cut }
  let s3 := takeImageRole im.role (loadTables im s2)
  if im.role.role = 0 then fitExtents { s3 with tiers := { s3.tiers with pools := ownPools obs.poolsPresent s3 } } else s3

/-! ### Step 8: the store -/

/-- Good block groups of a namespace's share (R247). -/
def goodGroups (b : BoardDesc) (channels share : Nat) : Nat :=
  ((List.range 64).countP fun c => bitAt channels c) * b.targets * b.luns * Config.nandBlocks * share / 100

/-- A namespace as Table 8-3 divides it: the journal's 8 groups on each channel, 3 % spare, 7 % headroom, the rest usable at 15/16 of its native
payload in whole GiB, at most 1 TiB for each fitted target. -/
def layNs (b : BoardDesc) (channels n : Nat) (old : Option Ns) : Ns :=
  let good := goodGroups b channels (b.shares.getD n 0)
  let fitted := (List.range 64).countP fun c => bitAt channels c
  let spare := good * 3 / 100
  let rest := good - 8 * fitted - spare - good * 7 / 100
  let gib := rest * groupPages b false * 16384 * 15 / 16 / 2 ^ 30
  let x : Ns := old.getD { num := n, spares := spare }
  { x with capacity := min gib (1024 * b.targets * fitted) * 65536, groups := rest, total := good - 8 * fitted - min spare x.spares }

/-- Tables rebuilt after a stop that was not clean (Table 8-9): the journal's flushed records stand, objects with a head are committed, others go, runs
stay, the valid counts of open groups agree with what the objects hold there, and a new base is written. -/
def rebuildTables (s0 : State) : State :=
  let s := loseUnflushed s0
  let keep := fun (o : Obj) => !o.ingot || o.committed || decide (0 < o.headOk)
  let objs := (s.store.objs.filter keep).map fun o => { o with reserved := 0, committed := o.committed || (o.ingot && decide (0 < o.headOk)) }
  let hubs := s.store.hubs.map fun h => { h with flushed := [], base := h.flushedPages }
  let held := fun (g : Group) => ((((objs.filter fun o => !o.deleted).flatMap Obj.exts).filter fun e => e.hub == g.hub && e.group == g.num).map Ext.pages).sum
  let group := fun (g : Group) => { g with copying := g.bad, valid := if g.state = .opened then held g else g.valid }
  { s with store := { s.store with objs := objs, hubs := hubs, nextObj := s.store.objEnd, groups := s.store.groups.map group } }

/-- Step 8 (R247, R263). -/
def loadStore (b : BoardDesc) (s : State) : State :=
  let nss := (List.range 4).map fun n => layNs b s.store.channels n (findKey Ns.num n s.store.nss)
  let s1 : State := { atStep 8 s with store := { s.store with nss := nss } }
  if s.store.clean then s1 else rebuildTables s1

/-! ### Step 9: the restore -/

/-- The staged-state section applied as one commit before pour 1, or found failing; its record goes to the physical function of link 0. A section whose
CMAC fails is ignored and logged (R488, R505). -/
def applyStagedState (im : Image) (s : State) : State :=
  match im.staged with
  | none => s
  | some x =>
    if x.cmacOk = false then note (leadDie s) im.digest s
    else
      let v := checkSet true none x.items s
      if v.isEmpty then
        let s1 := applyItems true x.items s
        let s2 : State := { s1 with stg := { s1.stg with committed := x.items, lastDone := x.commit, nextCommit := max s1.stg.nextCommit (x.commit + 1) } }
        commitRecord .done 0 x.commit 0 (forEach x.items carryOut s2)
      else commitRecord .checkFailed 0 x.commit 0 (logViolations v s)

/-- Handles and tenants that any durable source names (R480). -/
def namedAnywhere (s : State) : List (Nat × Nat) :=
  let slot := fun (c : Option CkSlot) => (c.map fun k => k.saved.sess.map fun x => (x.handle, x.tenant)).getD []
  let log := s.chk.anchors.filterMap fun a => a.image.map fun x => (a.handle, x.tenant)
  (slot s.chk.slot0 ++ slot s.chk.slot1 ++ log ++ s.store.objs.map fun o => (o.handle, o.tenant)).eraseDups

/-- The first start after an unlock: T2 zero-filled, every object deleted, no session restored, every one named reported LOST (R480). -/
def restoreNothing (s : State) : State :=
  let named := namedAnywhere s
  let spoil := fun (c : Option CkSlot) => c.map fun (k : CkSlot) => { k with valid := false }
  let s1 : State := { s with chk := { s.chk with slot0 := spoil s.chk.slot0, slot1 := spoil s.chk.slot1, anchors := [] }, store := { s.store with objs := [] } }
  forEach named (fun x t => reportLost x.1 x.2 none t) s1

/-- Sessions rebuilt with no checkpoint: from the anchor log, or from the store where it cannot be read or no chill module is present (R374, R448, R449). -/
def rebuildSessions (anchorOk : Bool) (s : State) : State :=
  if anchorOk && decide (0 < chillCount s) then rebuildAnchors s else rebuildStore anchorOk s

/-- Step 9 (R445 to R450, R505). -/
def restoreAll (im : Image) (obs : StartObs) (s0 : State) : State :=
  let s := atStep 9 s0
  if s.sec.destroyed then restoreNothing (applyStagedState im s)
  else match bestSlot obs.digestOk s with
    | some c =>
      if sameShape s c then restoreSlot obs.poolsPresent obs.recallOk c s
      else applyStagedState im { s with chk := { s.chk with mismatch := true } }
    | none => rebuildSessions obs.anchorOk (applyStagedState im s)

/-! ### Step 10 -/

/-- A held SHUTDOWN acts as Table 19-2 gives; one whose request a reset has dropped is gone with it. -/
def actHeld (q : Open) (s : State) : State :=
  if (fnOf s q.fn).mb.gen ≠ q.gen then s
  else match q.sub with
    | 0 => shutdown true false q s
    | 1 => shutdown false false q s
    | 2 => hubRoll q s
    | 3 => if serving s then serveAgain (dropServing (answerMb q .done [] s)) else s
    | _ => shutdown false true q s

/-- The record of a start that reached READY: good slot, no trial, the fuse count raised (R486, R530). -/
def confirmStart (s : State) : State :=
  let sv := (s.dev.image.map Image.securityVersion).getD 0
  let s1 : State := { s with nor := { s.nor with fuses := max s.nor.fuses sv } }
  hrRewrite (fun h => { h with goodSlot := s.dev.slot, trial := false, tried := false, confirmed := max s.nor.fuses sv }) s1

/-- Step 10: READY or ORPHAN; then what was held acts. -/
def finishStart (s : State) : State :=
  let s1 := confirmStart (atStep 10 s)
  let s2 := enterServing { s1 with store := { s1.store with clean := false } }
  let shuts := s2.dev.heldShut
  let stops := s2.dev.heldStop
  let s3 : State := { s2 with dev := { s2.dev with heldShut := [], heldStop := [] } }
  let s4 := forEach stops noticeStop (forEach shuts actHeld s3)
  applyAsks false none (drainAll s4)

/-- Steps 7 to 10. -/
def completeStart (obs : StartObs) (s : State) : State :=
  match s.dev.image with
  | none => s
  | some im =>
    let s1 := enterState .starting s
    finishStart (restoreAll im obs (loadStore im.board (trainUnits im obs s1)))

/-! ### Step 6: the self-test's findings (Table 19-5) -/

/-- One finding acted on. -/
def applyFinding (f : Finding) (s : State) : State :=
  match f with
  | .cluster die pos =>
    match findDie s die with
    | none => s
    | some d =>
      if d.spare = some pos then onDie die (fun x => { x with spare := none, order := x.order.filter (· != pos) }) s
      else match d.logical.findIdx? (· == some pos) with
        | some n => loseCluster die n s
        | none => s
  | .runnerGroup r b d g => if hasBundle s r b then spareGroup r b d g s else s
  | .runnerBundle r b => if hasBundle s r b then fenceBundle r b s else s
  | .port n w => onPort n (fun p => if p.lostOut.contains w then p else { p with lostOut := p.lostOut ++ [w], spareOut := if p.spareOut.isNone then some w else p.spareOut }) s
  | .dieCommon d => if 6 ≤ d then onHub (d - 6) (fun h => { h with fenced := true }) s else failDie d s
  | .hub h => onHub h (fun x => { x with fenced := true }) s

/-- A finding's entry in the log. -/
def findingData (f : Finding) : Nat :=
  match f with
  | .cluster d p => 1 * 2 ^ 56 + d * 2 ^ 32 + p
  | .runnerGroup r b d g => 2 * 2 ^ 56 + r * 2 ^ 32 + b * 65536 + bit d * 512 + g
  | .runnerBundle r b => 3 * 2 ^ 56 + r * 2 ^ 32 + b
  | .port p w => 4 * 2 ^ 56 + p * 2 ^ 32 + w
  | .dieCommon d => 5 * 2 ^ 56 + d
  | .hub h => 6 * 2 ^ 56 + h

/-- Findings recorded in the log and acted on. -/
def applyFindings (fs : List Finding) (s : State) : State :=
  forEach fs (fun f t => applyFinding f (note (leadDie t) (findingData f) t)) s

/-- Whether a package is left without a hub or without an SC die. -/
def fatalNow (s : State) : Bool :=
  !((List.range (hubCount s.part)).any fun h => hubServes s h) || (List.range (scCount s.part)).all fun d => (findDie s d).all ScDie.failed

/-- The leading hub settled at step 6: hub A, or hub B where A is fenced (R31). -/
def settleLead (s : State) : State :=
  if hubServes s s.dev.leading then s else { s with dev := { s.dev with leading := otherHub s.dev.leading } }

/-- SELF_TEST_END (R536, R541): at a start the findings, with those that the last shutdown recorded, are acted on and the start goes on; in a
shutdown they are recorded for the next start. -/
def execSelfTestEnd (findings : List Finding) (obs : StartObs) (s : State) : Host.Outcome State Fault Refusal :=
  match s.dev.code with
  | .selfTest =>
    let kept := (hrGoverning s.nor).elim [] HealthRec.findings
    let s1 := applyFindings (kept ++ findings) (hrRewrite (fun h => { h with findings := [] }) s)
    if fatalNow s1 then .next (enterSafeTalk s1) else .next (completeStart obs (settleLead s1))
  | .stopping =>
    match s.dev.stop with
    | some t =>
      if t.selfTest && t.ckptDone && !t.parks then
        .next (closeStop (if findings.isEmpty then 1 else 2) findings t (forEach findings (fun f u => note (leadDie u) (findingData f) u) s))
      else .next s
    | none => .next s
  | _ => .next s

/-! ### Power good -/

/-- Steps 2 to 5, and on from there where the start is quick (R530, R533, R593). -/
def bootStart (obs : StartObs) (s : State) : State :=
  match hrGoverning s.nor with
  | none => enterSafeTalk (atStep 2 s)
  | some r =>
    match chooseSlot s r with
    | none => enterSafeTalk (atStep 3 s)
    | some (slot, fell) =>
      match slotImage s slot with
      | none => s
      | some im =>
        let s1 : State := { s with dev := { s.dev with powered := max s.dev.powered r.powered, quick := r.clean && r.selfPassed } }
        let s2 := if fell || trialFailed r then note (leadDie s1) slot s1 else s1
        let s3 := loadFirmware slot im (rewriteRecord slot im r s2)
        let s4 : State := { s3 with links := { s3.links with ports := boardPorts s3.part im.board } }
        if r.clean && r.selfPassed then completeStart obs s4 else enterState .selfTest (atStep 6 s4)

/-- POWER_GOOD (R562, R530): step 1 is done. Where hub A cannot read the NOR, hub B takes it over on the TSN-8840; with no hub to read it there is no
valid record (R568, R593). -/
def execPowerGood (obs : StartObs) (s : State) : Host.Outcome State Fault Refusal :=
  if s.pins.powerGood || s.dev.code != .starting then .next s
  else
    let s1 := atStep 2 { s with pins := { s.pins with powerGood := true } }
    if obs.norReadable then .next (bootStart obs s1)
    else if s.part = .tsn8840 then .next s1
    else .next (enterSafeTalk s1)

/-- NOR_TAKEOVER_HUB_B (R568, R593): 2 s without step 3, hub B drives the NOR, and leads the start. -/
def execNorTakeoverHubB (obs : StartObs) (s : State) : Host.Outcome State Fault Refusal :=
  if s.part = .tsn8840 ∧ s.pins.powerGood ∧ s.dev.code = .starting ∧ s.dev.step = 2 ∧ s.sec.serveNot = false then
    let s1 : State := { s with dev := { s.dev with leading := 1 } }
    if obs.norReadable then .next (bootStart obs s1) else .next (enterSafeTalk s1)
  else .next s

/-! ### RECOVER (R543) -/

/-- The slot that a RECOVER writes: one that fails verification, or the inactive one. -/
def recoverSlot (s : State) : Nat :=
  if !slotOk s s.nor.slotA then 0 else if !slotOk s s.nor.slotB then 1 else otherSlot s.dev.slot

/-- RECOVER action 1. -/
def execRecoverImage (r : MbReq) (img : Option Image) (s : State) : Host.Outcome State Fault Refusal :=
  .next (mbSimple r 0x70 1 (· == 24) (fun q t =>
    if norHeld t || !t.stg.persists.isEmpty then answerMb q .commitConflict [] t
    else match img.filter (verifies t) with
      | none => answerMb q .checkFailed [] t
      | some im =>
        let slot := recoverSlot t
        answerMb q .done [] (hrRewrite (fun h => { h with nextSlot := slot, trial := true, tried := false }) (writeSlot slot im t))) s)

/-- Whether a partition's namespace may be formatted: in SAFE_TALK, or in READY with none of its sessions PARKED or stored. -/
def mayFormat (ns : Nat) (s : State) : Bool :=
  s.dev.code == .safeTalk ||
    (s.dev.code == .ready && !(s.sess.any fun x => sessPart s x == ns && (x.state == .parked || x.copying)) &&
      !(s.store.objs.any fun o => o.ns == ns && !o.deleted))

/-- RECOVER action 2: every object of the namespace deleted, its groups erased, read-only cleared, a base written. -/
def execRecoverFormat (r : MbReq) (ns : Nat) (s : State) : Host.Outcome State Fault Refusal :=
  .next (mbSimple r 0x70 2 (· == 24) (fun q t =>
    if norHeld t || !t.stg.persists.isEmpty then answerMb q .commitConflict [] t
    else if 4 ≤ ns ∨ mayFormat ns t = false then answerMb q .malformed [] t
    else
      let wipe := fun (g : Group) =>
        if g.ns = ns ∧ g.state ≠ .retired then ({ hub := g.hub, num := g.num, ns := g.ns, erases := g.erases + 1 } : Group) else g
      let t1 : State := { t with store := { t.store with objs := t.store.objs.filter (fun o => o.ns != ns), groups := t.store.groups.map wipe } }
      let t2 := onNs ns (fun x => { x with readOnly := false }) t1
      let base := forEach (List.range (hubCount t2.part)) (fun h u => onHubStore h (fun x => { x with base := x.flushedPages, flushed := [] }) (flushJournal h u)) t2
      answerMb q .done [] base) s)

/-- RECOVER action 3, in SAFE_TALK alone: a record of a first start (R491, R543). -/
def execRecoverHealthRecord (r : MbReq) (s : State) : Host.Outcome State Fault Refusal :=
  .next (mbSimple r 0x70 3 (· == 24) (fun q t =>
    if t.dev.code ≠ .safeTalk then answerMb q .malformed [] t
    else if norHeld t then answerMb q .commitConflict [] t
    else
      let fresh : HealthRec := { powered := t.dev.powered, serialEnd := (hrGoverning t.nor).elim t.dev.serialEnd HealthRec.serialEnd }
      answerMb q .done [] { t with nor := { t.nor with copy0 := .valid fresh, copy1 := .erased } }) s)

/-! ### Serving reset and package reset (R547) -/

/-- The serving reset in each state (Table 19-2): a start begins again at step 5, a self-test begins again, a package that serves or stops comes back
by steps 5 and 10, and one stopped or in SAFE_TALK stays. -/
def servingReset (s : State) : State :=
  match s.dev.code with
  | .starting => if 5 ≤ s.dev.step then dropRequests (atStep 5 s) else s
  | .selfTest => dropRequests s
  | .stopped | .safeTalk => s
  | _ => serveAgain (dropServing s)

/-- SERVING_RESET (R547): WARM_RST_N low for 1 µs to under 10 ms. -/
def execServingReset (lowNs : Nat) (s : State) : Host.Outcome State Fault Refusal :=
  if 1000 ≤ lowNs ∧ lowNs < 10000000 ∧ s.pins.powerGood then .next (servingReset s) else .next s

/-- PACKAGE_RESET (R547): WARM_RST_N low for 10 ms or more. -/
def execPackageReset (lowNs : Nat) (s : State) : Host.Outcome State Fault Refusal :=
  if 10000000 ≤ lowNs ∧ s.pins.powerGood then .next (packageReset s) else .next s

/-- SHUTDOWN action 3: answered DONE before the reset starts (R540). -/
def execShutdownServingReset (r : MbReq) (s : State) : Host.Outcome State Fault Refusal :=
  .next (mbRun r 0x50 3 (· == 16) holdShut (fun q t => servingReset (answerMb q .done [] t)) s)

end Sys2Proof.Machine
end

