-- ==== Sys2Proof/Machine/Takeover.lean ====
section
/-! DEFINITION. Core faults, takeover by the following hub, heartbeats and a hub's return; supply rails out of range (R31, R377, R507 to R516, R563,
R574). -/

namespace Sys2Proof.Machine

/-! ### Takeover (R512 to R516) -/

/-- A mailbox request that the old leader took and never answered ends with it: BUSY clears and no response follows (log entry 88). -/
def loseRequest (q : Open) (s : State) : State :=
  if (fnOf s q.fn).mb.gen = q.gen then onFn q.fn (fun f => { f with mb := resetMb f.mb }) s else s

/-- Sets and commits as the follower's mirror holds them: what was not acknowledged is lost, and a commit applied since stays applied (R506, R511). -/
def loseMirrors (s : State) : State :=
  match s.stg.mirrors with
  | [] => s
  | w :: _ =>
    let live := fun (c : Commit) => decide (s.stg.lastDone < c.number) || s.stg.commits.any fun k => k.number == c.number
    let s1 := forEach (s.stg.mirrors.map MirrorWait.q) loseRequest s
    { s1 with stg := { s1.stg with sets := w.sets0, commits := w.commits0.filter live, nextSet := w.next0.1, nextCommit := w.next0.2, mirrors := [] } }

/-- A hub roll that a takeover meets has failed (R518). -/
def failRoll (s : State) : State :=
  match s.dev.roll with
  | none => s
  | some r => answerMb r.req .checkFailed [] { s with dev := { s.dev with roll := none } }

/-- A hub's cores as they are after a restart. -/
def freshCores (h : Nat) (s : State) : State :=
  { s with cores := { s.cores with cores := s.cores.cores.filter fun c => !(decide (c.id.cls < 3) && c.id.unit == h) } }

/-- A hub's three cores fenced by the new leader (R513). -/
def fenceCores (h : Nat) (s : State) : State :=
  forEach (List.range 3) (fun cls t => let id : CoreId := { cls := cls, unit := h, pos := 0 }
                                       setCore { coreOf t id with fenced := true } t) s

/-- A checkpoint not committed is taken from its notice again (R548). -/
def restartCkpt (s : State) : State :=
  { s with chk := { s.chk with now := s.chk.now.map fun c => { c with cut := false, saved := {}, cutPour := 0, modules := 0 } } }

/-- The following hub leads: the old leader's cores fenced, what it had not mirrored lost, the pour in flight settled, and work outside pours taken up
from its phase; vector 2 fires. -/
def takeover (s : State) : State :=
  let old := s.dev.leading
  let s1 := fenceCores old (onHub old (fun h => { h with restarting := true }) s)
  let s2 : State := { s1 with dev := { s1.dev with leading := otherHub old }, pins := { s1.pins with aliveLow := s1.pins.aliveLow.set old false } }
  let s3 := settlePour (loseUnmirrored (failRoll (loseMirrors s2)))
  fireState (resumeOps (restartCkpt (rollBackOps s3)))

/-- Records of a pour that stand in the ring of a function, with their sessions. -/
def pourRecords (pour : Nat) (f : Fn) : List TapBody :=
  let walk := fun (acc : Bool × List TapBody) (r : TapRec) =>
    match r.body with
    | .header _ _ _ _ p _ _ _ _ => (p == pour, acc.2)
    | b => (acc.1, if acc.1 then acc.2 ++ [b] else acc.2)
  (f.inRing.foldl walk (false, [])).2

/-- A record written again at its session's alternate function, where that link is up (R515). -/
def repeatRecord (s : State) (b : TapBody) : Option (Nat × Rec) :=
  let at_ := fun (h : Nat) => (findSess s h).filter fun x => x.alternate != 0xFFFF && fnUp s x.alternate
  match b with
  | .session r _ _ => (at_ r.handle).map fun x => (x.alternate, .ses r x.vector)
  | .outcome o => (at_ o.handle).map fun x => (x.alternate, .out { o with win := none, also := none } x.vector)
  | _ => none

/-- Records of the rolled-forward pour that were meant for a lost link written to the alternate functions in full (R515). -/
def repeatBlocks (link : Nat) (p : Pour) (s : State) : State :=
  let bodies := ((s.fns.filter fun f => linkOf f.id == link).map (pourRecords p.number)).flatten
  let recs := bodies.filterMap (repeatRecord s)
  forEach (recs.map Prod.fst).eraseDups (fun fn t => writeBlock fn p.flask p.number ((recs.filter fun r => r.1 == fn).map Prod.snd) t) s

/-- A takeover from a die that has failed whole (R515). -/
def takeoverWhole (s : State) : State :=
  let old := s.dev.leading
  let s1 : State := { s with dev := { s.dev with failed := s.dev.failed ++ [6 + old] } }
  let s2 := failHubDie old (takeover s1)
  match s.sched.pour with
  | some p => if p.step = 9 then repeatBlocks old p s2 else s2
  | none => s2

/-! ### Core faults (R507 to R509, R514) -/

/-- A fault of a hub's cores counted: the third within 3,600 s of its meter fences the hub (R514). -/
def countFault (h : Nat) (s : State) : State :=
  let now := meterNs s (6 + h)
  let recent := ((hubOf s h).faults.filter fun t => decide (now < t + 3600000000000)) ++ [now]
  onHub h (fun x => { x with faults := recent, fenced := x.fenced || decide (3 ≤ recent.length) }) s

/-- Answers that waited for a follower that is gone. -/
def releaseMirrors (s : State) : State :=
  forEach s.stg.mirrors (fun w t => answerMb w.q w.outcome w.payload t) { s with stg := { s.stg with mirrors := [] } }

/-- Whether the hubs' cores run the image's firmware and serve. -/
def running (s : State) : Bool :=
  match s.dev.code with | .ready | .orphan | .stopping | .stopped => true | _ => false

/-- A fault in one of a hub's cores: takeover where it leads and a follower is present; a serving reset where none is; a following hub restarts its
cores (Table 18-1, R508). -/
def hubFault (h : Nat) (s : State) : State :=
  if !running s || !hubServes s h then s
  else if h = s.dev.leading then
    if hasFollower s then countFault h (takeover s)
    else servingReset s
  else
    let s1 := countFault h (onHub h (fun x => { x with restarting := true }) s)
    let s2 : State := { s1 with pins := { s1.pins with aliveLow := s1.pins.aliveLow.set h false } }
    failRoll (releaseMirrors s2)

/-- Whether a core exists on a part. -/
def coreFitted (p : Part) (id : CoreId) : Bool :=
  if id.cls < 3 then decide (id.unit < hubCount p) else id.cls == 3 && decide (id.unit < scCount p) && decide (id.pos < 9)

/-- The number of a fault's cause in its log entry. -/
def causeCode (c : CoreFaultCause) : Nat := match c with | .watchdog => 1 | .illegal => 2 | .shadowOverflow => 3

/-- A core fault (R507, R509): the core stops at once and the fault is logged; a cluster control core's is a cluster fault. -/
def coreFault (id : CoreId) (cause : CoreFaultCause) (s : State) : State :=
  let c := coreOf s id
  if !coreFitted s.part id || c.faulted || c.fenced then s
  else
    let s1 := noteError (coreDie id) (coreCode id) (causeCode cause) (setCore { c with faulted := true } s)
    if id.cls = 3 then
      match (findDie s1 id.unit).bind fun d => d.logical.findIdx? (· == some id.pos) with
      | some n => stateAfter s1 (execClusterFault id.unit n s1)
      | none => s1
    else hubFault id.unit s1

/-- CORE_FAULT. -/
def execCoreFault (core : CoreId) (cause : CoreFaultCause) (s : State) : Host.Outcome State Fault Refusal := .next (coreFault core cause s)

/-- WATCHDOG_EXPIRY (R509). -/
def execWatchdogExpiry (core : CoreId) (s : State) : Host.Outcome State Fault Refusal := .next (coreFault core .watchdog s)

/-- HEARTBEAT (R511): it holds nothing and is not awaited. -/
def execHeartbeat (s : State) : Host.Outcome State Fault Refusal := .next s

/-- HEARTBEAT_MISSED (R512, R515): 5,000 µs of silence with the leader's HUB_ALIVE_N high: its die has failed whole. -/
def execHeartbeatMissed (s : State) : Host.Outcome State Fault Refusal :=
  if running s && hasFollower s then .next (takeoverWhole s) else .next s

/-- HUB_CORES_REJOIN (R514): a hub that restarts its cores from the active slot follows again, unless it stays fenced or a hub roll restarted it. -/
def execHubCoresRejoin (hub : Nat) (s : State) : Host.Outcome State Fault Refusal :=
  let h := hubOf s hub
  if h.restarting && !h.fenced && !h.dieFailed && !(s.dev.roll.any fun r => r.hub == hub) then
    .next (freshCores hub (deriveAlias hub (onHub hub (fun x => { x with restarting := false, image := s.dev.slot })
      { s with pins := { s.pins with aliveLow := s.pins.aliveLow.set hub true } })))
  else .next s

/-! ### Rails (R563, R574; Tables 20-2 and 20-8) -/

/-- The absolute maximum of a rail in millivolts (Table 20-8). -/
def ratingOf (r : Rail) : Int :=
  match r with
  | .vcoreSc _ | .vcorePx _ | .vcoreHub _ | .vsram => 1000
  | .vhbmDd | .vpho | .vioNf => 1500
  | .vhbmDq => 600
  | .vhbmPp | .vaux => 2200
  | .vio => 1100

/-- Whether a voltage lies within the absolute maximum ratings. -/
def withinRating (r : Rail) (mv : Int) : Bool := decide (-300 ≤ mv) && decide (mv ≤ ratingOf r)

/-- The middle and the half-width of a rail's operating range in millivolts, the core rails' around the voltage set (Table 20-2). -/
def railRange (s : State) (r : Rail) : Int × Int :=
  let core := fun (n : Nat) => (((s.ledger.rails.getD n {}).mv : Int), (10 : Int))
  match r with
  | .vcoreSc d => core d
  | .vcorePx d => core (4 + d)
  | .vcoreHub h => core (6 + h)
  | .vsram => (800, 16)
  | .vhbmDd => (1100, 33)
  | .vhbmDq => (400, 12)
  | .vhbmPp => (1800, 90)
  | .vpho => (1200, 24)
  | .vio => (900, 18)
  | .vioNf => (1200, 60)
  | .vaux => (1800, 90)

/-- The voltage asked of a core rail that is being moved by AVSBus (R365). -/
def askedOf (s : State) (r : Rail) : Option Nat :=
  match r with
  | .vcoreSc d => (s.ledger.rails.getD d {}).asked
  | .vcorePx d => (s.ledger.rails.getD (4 + d) {}).asked
  | .vcoreHub h => (s.ledger.rails.getD (6 + h) {}).asked
  | _ => none

/-- Whether a rail is in its operating range, or a core rail on its way from its old voltage to the one asked for. -/
def railFits (s : State) (r : Rail) (mv : Int) : Bool :=
  let g := railRange s r
  let lo := match askedOf s r with | some a => min g.1 a | none => g.1
  let hi := match askedOf s r with | some a => max g.1 a | none => g.1
  decide (lo - g.2 ≤ mv) && decide (mv ≤ hi + g.2)

/-- Whether a part has a rail. -/
def railFitted (p : Part) (r : Rail) : Bool :=
  match r with
  | .vcoreSc d => decide (d < scCount p)
  | .vcorePx d => decide (d < hubCount p)
  | .vcoreHub h => decide (h < hubCount p)
  | _ => true

/-- Power lost: the package stops at once without a checkpoint; THERMTRIP_N is driven no more once VAUX is gone (R377, R563). -/
def losePower (r : Rail) (s : State) : State :=
  let t := packageReset s
  if r = .vaux then { t with pins := { t.pins with tripLow := false } } else t

/-- RAIL_OUT_OF_RANGE (R563, R574): beyond its rating a rail can damage the part, and nothing is said of what follows; out of its range it ends power
good, where the package is powered. -/
def execRailOutOfRange (rail : Rail) (mv : Int) (s : State) : Host.Outcome State Fault Refusal :=
  if railFitted s.part rail = false then .next s
  else if withinRating rail mv = false then .fault .ratingExceeded
  else if s.pins.powerGood && !railFits s rail mv then .next (losePower rail s)
  else .next s

end Sys2Proof.Machine
end

