-- ==== Sys2Proof/Machine/Board.lean ====
section
/-! DEFINITION. The test access and debug ports, the management bus, noise sources, ageing, and configuration requests (R295, R385, R386, R462, R478 to
R480, R532, R553 to R557, R570, R573, R576). -/

namespace Sys2Proof.Machine

/-! ### Test access (R478, R570) -/

/-- A public instruction of the test access port, and what it shifts out where the manual gives it. -/
def tapInstruction (code : Nat) (out : Option Nat) (s : State) : State := { s with pins := { s.pins with tapInstr := code, tapOut := out } }

/-- The IDCODE of a part (R570). -/
def idcodeOf (p : Part) : Nat := match p with | .tsn8840 => 0x18840967 | .tsn4420 => 0x14420967

/-- BYPASS. -/
def execBypass (s : State) : Host.Outcome State Fault Refusal := .next (tapInstruction 1 none s)
/-- SAMPLE/PRELOAD. -/
def execSamplePreload (s : State) : Host.Outcome State Fault Refusal := .next (tapInstruction 2 none s)
/-- EXTEST. -/
def execExtest (s : State) : Host.Outcome State Fault Refusal := .next (tapInstruction 3 none s)
/-- IDCODE. -/
def execIdcode (s : State) : Host.Outcome State Fault Refusal := .next (tapInstruction 4 (some (idcodeOf s.part)) s)

/-! ### The debug port (R479, R480) -/

/-- Whether an unlock may be taken: in SAFE_TALK, or at a start before the image is read, and not once 15 have been made. -/
def mayUnlock (s : State) : Bool :=
  (s.dev.code == .safeTalk || (s.dev.code == .starting && s.dev.step == 2)) && decide (s.sec.unlocks < 15)

/-- DEBUG_CHALLENGE (R479): serial, unlock count and 32 bytes of the DRBG. -/
def execDebugChallenge (s : State) : Host.Outcome State Fault Refusal :=
  if mayUnlock s then
    let c := Config.factorySerial + s.sec.unlocks * 2 ^ 64 + (Config.drbgChallenge s.free % 2 ^ 256) * 2 ^ 72
    .next (drawFree { s with sec := { s.sec with challenge := some c }, pins := { s.pins with tapInstr := 5, tapOut := some c } })
  else .next s

/-- What an accepted unlock does, in the order of R480: keys and wrapped entries destroyed, a fuse blown, T0 and T1 zero-filled, the port open. -/
def unlock (s : State) : State :=
  let s1 := hrRewrite (fun r => { r with keys := [] }) s
  { s1 with tens := s1.tens.map (fun t => { t with key := none }), sess := []
            dev := { s1.dev with log := [], logOldest := s1.dev.logNext }
            sec := { unlocks := s1.sec.unlocks + 1, open_ := true, destroyed := s1.sec.destroyed, serveNot := true, challenge := none } }

/-- DEBUG_UNLOCK (R479, R480). -/
def execDebugUnlock (sigOk : Bool) (s : State) : Host.Outcome State Fault Refusal :=
  if mayUnlock s && s.sec.challenge.isSome && sigOk then .next (unlock s) else .next s

/-! ### The management bus (R555 to R557, R569, R573) -/

/-- Whether a hub's MCTP endpoint answers: from step 2 in every state, while its segment and its die stand. -/
def mctpServed (s : State) (hub : Nat) : Bool :=
  decide (hub < hubCount s.part) && s.pins.powerGood && !(hubOf s hub).mgaFenced && !(hubOf s hub).dieFailed

/-- Bytes sent on a hub's management bus. -/
def mgmtAnswer (hub : Nat) (bs : List Byte) (s : State) : State := drawFree { s with outs := { s.outs with mgmt := s.outs.mgmt ++ [(hub, bs)] } }

/-- MCTP_MESSAGE (R555): control messages are answered, in the 64-byte transmission unit; PLDM goes to its commands; no other type is supported. -/
def execMctpMessage (hub msgType length : Nat) (s : State) : Host.Outcome State Fault Refusal :=
  if mctpServed s hub && msgType == 0 && decide (length ≤ 64) then .next (mgmtAnswer hub (Config.mctpBody msgType s.free) s) else .next s

/-- PLDM_BASE_COMMAND (R556). -/
def execPldmBaseCommand (hub command : Nat) (s : State) : Host.Outcome State Fault Refusal :=
  if mctpServed s hub then .next (mgmtAnswer hub (Config.pldmBody 0 command [s.free]) s) else .next s

/-- What the numeric and state sensors read: die temperatures, the rails, the device state and the degraded flag (R556). -/
def sensorValues (s : State) : List Nat := s.ledger.temps ++ s.ledger.rails.map RailV.mv ++ [dstateCode s.dev.code, bit (degraded s)]

/-- PLDM_PLATFORM_COMMAND (R556). -/
def execPldmPlatformCommand (hub command sensor : Nat) (s : State) : Host.Outcome State Fault Refusal :=
  if mctpServed s hub then .next (mgmtAnswer hub (Config.pldmBody 2 command (sensor :: s.free :: sensorValues s)) s) else .next s

/-- RequestUpdate's answer: update mode entered, or unable to initiate it (R557). -/
def updateAnswer (entered : Bool) (n : Nat) : List Byte := Config.pldmBody 5 0x10 [bit entered, n]

/-- PLDM_REQUEST_UPDATE (R557). -/
def execPldmRequestUpdate (hub : Nat) (s : State) : Host.Outcome State Fault Refusal :=
  if mctpServed s hub then
    if norHeld s then .next (mgmtAnswer hub (updateAnswer false s.free) s)
    else .next (mgmtAnswer hub (updateAnswer true s.free) (onHub hub (fun h => { h with updating := true }) s))
  else .next s

/-- An image of a PLDM update written as RECOVER action 1 writes it; activation sets the next slot (R556). -/
def writeUpdate (activate : Bool) (im : Image) (s : State) : State :=
  let slot := recoverSlot s
  let s1 := writeSlot slot im s
  if activate then hrRewrite (fun h => { h with nextSlot := slot, trial := true, tried := false }) s1 else s1

/-- PLDM_FIRMWARE_UPDATE (R556): the transfer ends, and with it update mode; an image that fails verification leaves the NOR as it was. -/
def execPldmFirmwareUpdate (hub : Nat) (img : Option Image) (activate : Bool) (s : State) : Host.Outcome State Fault Refusal :=
  if mctpServed s hub && (hubOf s hub).updating then
    let s1 := onHub hub (fun h => { h with updating := false }) s
    match img.filter (verifies s) with
    | none => .next (mgmtAnswer hub (Config.pldmBody 5 0x18 [0, s.free]) s1)
    | some im => .next (mgmtAnswer hub (Config.pldmBody 5 0x18 [1, s.free]) (writeUpdate activate im s1))
  else .next s

/-- The ports of a PX die whose lasers cannot be reached go DARK (Table 20-7, R386). -/
def darken (px : Nat) (s : State) : State :=
  forEach ((List.range 16).map (16 * px + ·)) (fun n t =>
    match (findPort t n).map Port.state with
    | some .up => leaveUp n 0 (portFail n .dark 4) t
    | some .off => t
    | none => t
    | some _ => portFail n .dark 4 t) s

/-- MGMT_BUS_STUCK (R573): nine clocks and a bus reset free the line, or the segment is fenced. -/
def execMgmtBusStuck (hub : Nat) (mga stillHeld : Bool) (s : State) : Host.Outcome State Fault Refusal :=
  if hubCount s.part ≤ hub ∨ s.pins.powerGood = false then .next s
  else
    let s1 := note (6 + hub) (bit mga) s
    if stillHeld = false then .next s1
    else if mga then .next (onHub hub (fun h => { h with mgaFenced := true }) s1)
    else .next (darken hub (onHub hub (fun h => { h with mgbFenced := true }) s1))

/-! ### Noise sources (R295) -/

/-- NOISE_SOURCE_FAILURE (R295): recorded, with vector 2; the hub's DRBG reseeds from the other hub's source or goes on without, and sampling does
not stop. -/
def execNoiseSourceFailure (hub : Nat) (s : State) : Host.Outcome State Fault Refusal :=
  if hubCount s.part ≤ hub then .next s
  else .next (healthSignal (6 + hub) hub (onHub hub (fun h => { h with drbgOk := false }) s))

/-! ### Ageing (R553, R554) -/

/-- Mean erase count of the groups on a hub's channels (Table 19-14). -/
def hubErases (s : State) (h : Nat) : Nat :=
  let gs := s.store.groups.filter fun g => g.hub == h
  (gs.map Group.erases).sum / max 1 gs.length

/-- Samples taken of every indicator the package holds: the logic rates measured, regions retired, and NAND wear (Table 19-14). -/
def ageSamples (rates : List Nat) (s : State) : List AgeSample :=
  let at_ := fun (d k v : Nat) => ({ powered := s.dev.powered, die := d, kind := k, value := v } : AgeSample)
  ((diesFitted s.part).map fun d => at_ d 1 (rates.getD d 0)) ++
    ((List.range (scCount s.part)).map fun d => at_ d 2 (regionsRetired s d)) ++
    ((List.range (hubCount s.part)).map fun h => at_ (6 + h) 4 (hubErases s h))

/-- HANDSHAKE_RATE_MEASUREMENT (R553, R554): the ageing history grows, and vector 2 fires when the unit's prediction first falls below 12 months. -/
def execHandshakeRateMeasurement (rates : List Nat) (s : State) : Host.Outcome State Fault Refusal :=
  let s1 : State := { s with dev := { s.dev with powered := s.dev.powered + 3600 } }
  let s2 := hrAppend (fun r => { r with ageing := r.ageing ++ ageSamples rates s1, powered := s1.dev.powered }) s1
  if decide ((unitMonths s2).1 < 12) && !s2.dev.lowLife then .next (fireState { s2 with dev := { s2.dev with lowLife := true } }) else .next s2

/-! ### Configuration requests (R462, R532, R576) -/

/-- The size of a base address register's window, 0 where the function has none (Table 21-1). -/
def barSize (fn n : Nat) : Nat :=
  match n with | 0 => 65536 | 2 => 1048576 | 4 => if isPhys fn then 4194304 else 0 | _ => 0

/-- A function's identifiers in configuration space (R577): Device ID, Subsystem ID, Revision ID and class code. -/
def configIds (p : Part) (fn : Nat) : List Nat :=
  [(match p with | .tsn8840 => 0x8840 | .tsn4420 => 0x4420) + (if isPhys fn then 0 else 1), linkOf fn, 0xB0, 0x120000]

/-- The values of the SR-IOV capability (R577): InitialVFs, TotalVFs, First VF Offset, VF Stride and Supported Page Sizes. -/
def sriovValues : List Nat := [63, 63, 1, 1, 1]

/-- CONFIGURATION_REQUEST (R532): completed once PERST_N is released; NumVFs and the base addresses are what a write sets. -/
def execConfigurationRequest (link fn : Nat) (write : Bool) (reg : CfgReg) (value : Nat) (s : State) : Host.Outcome State Fault Refusal :=
  if linkCount s.part ≤ link ∨ flagAt s.pins.perst link ∨ linkOf fn ≠ link ∨ write = false then .next s
  else
    match reg with
    | .numVFs => if isPhys fn ∧ value ≤ 63 then .next { s with dev := { s.dev with numVFs := s.dev.numVFs.set link value } } else .next s
    | .bar n =>
      if barSize fn n = 0 ∨ fnPresent s fn = false then .next s
      else .next (onFn fn (fun f => { f with bars := setCount f.bars n (value / barSize fn n * barSize fn n) }) s)
    | .msixEnable => .next s
    | .other => .next s

end Sys2Proof.Machine
end

