-- ==== Sys2Proof/Machine/Dispatch.lean ====
section
/-! DEFINITION. The dispatcher: one arm per command, each one call of its meaning. -/

namespace Sys2Proof.Machine

/-- The effect of a command on everything but the queue (95_what_each_step_holds.md). -/
def exec (i : Instr) (s : State) : Host.Outcome State Fault Refusal :=
  match i with
  | .openSession m => Sys2Proof.Machine.execOpenSession m s
  | .appendText m buf => Sys2Proof.Machine.execAppendText m buf s
  | .appendFrame m buf => Sys2Proof.Machine.execAppendFrame m buf s
  | .generate m stops => Sys2Proof.Machine.execGenerate m stops s
  | .toolResult m buf => Sys2Proof.Machine.execToolResult m buf s
  | .cancel m => Sys2Proof.Machine.execCancel m s
  | .barge m => Sys2Proof.Machine.execBarge m s
  | .park m => Sys2Proof.Machine.execPark m s
  | .close m => Sys2Proof.Machine.execClose m s
  | .recallQuery m query => Sys2Proof.Machine.execRecall m query s
  | .memorize m code => Sys2Proof.Machine.execMemorize m code s
  | .forget m => Sys2Proof.Machine.execForget m s
  | .tapRelease m => Sys2Proof.Machine.execTapRelease m s
  | .budget m => Sys2Proof.Machine.execBudget m s
  | .clockForward m => Sys2Proof.Machine.execClockForward m s
  | .unknownOpcode m => Sys2Proof.Machine.execUnknownOpcode m s
  | .sprueWriteDiscarded fn cause => Sys2Proof.Machine.execSprueWriteDiscarded fn cause s
  | .identify r => Sys2Proof.Machine.execIdentify r s
  | .stage r items => Sys2Proof.Machine.execStage r items s
  | .check r cursor => Sys2Proof.Machine.execCheck r cursor s
  | .commit r token pour => Sys2Proof.Machine.execCommit r token pour s
  | .discardSet r => Sys2Proof.Machine.execDiscardSet r s
  | .discardCommit r => Sys2Proof.Machine.execDiscardCommit r s
  | .persistState r => Sys2Proof.Machine.execPersistState r s
  | .persistImage r img => Sys2Proof.Machine.execPersistImage r img s
  | .attestChain r cursor => Sys2Proof.Machine.execAttestChain r cursor s
  | .attestNative r cursor nonce => Sys2Proof.Machine.execAttestNative r cursor nonce s
  | .attestSnirdaob r cursor nonce => Sys2Proof.Machine.execAttestSnirdaob r cursor nonce s
  | .accountRead r tenant peek cursor => Sys2Proof.Machine.execAccountRead r tenant peek cursor s
  | .healthRead r sect cursor => Sys2Proof.Machine.execHealthRead r sect cursor s
  | .logRead r start => Sys2Proof.Machine.execLogRead r start s
  | .shutdownSelfTest r => Sys2Proof.Machine.execShutdownSelfTest r s
  | .shutdownOrderly r => Sys2Proof.Machine.execShutdownOrderly r s
  | .hubRoll r => Sys2Proof.Machine.execHubRoll r s
  | .shutdownServingReset r => Sys2Proof.Machine.execShutdownServingReset r s
  | .shutdownPackageReset r => Sys2Proof.Machine.execShutdownPackageReset r s
  | .preemptStop r => Sys2Proof.Machine.execPreemptStop r s
  | .preemptLive r => Sys2Proof.Machine.execPreemptLive r s
  | .tapSetup r base logSize => Sys2Proof.Machine.execTapSetup r base logSize s
  | .vectorSet r vector count interval => Sys2Proof.Machine.execVectorSet r vector count interval s
  | .recoverImage r img => Sys2Proof.Machine.execRecoverImage r img s
  | .recoverFormat r ns => Sys2Proof.Machine.execRecoverFormat r ns s
  | .recoverHealthRecord r => Sys2Proof.Machine.execRecoverHealthRecord r s
  | .unknownOperation r op sub => Sys2Proof.Machine.execUnknownOperation r op sub s
  | .mbCtrlClear fn done rejected => Sys2Proof.Machine.execMbCtrlClear fn done rejected s
  | .registerWrite fn bar offset value => Sys2Proof.Machine.execRegisterWrite fn bar offset value s
  | .functionLevelReset fn => Sys2Proof.Machine.execFunctionLevelReset fn s
  | .hostLinkDown link perst => Sys2Proof.Machine.execHostLinkDown link perst s
  | .hostLinkUp link perst => Sys2Proof.Machine.execHostLinkUp link perst s
  | .preemptNAssert lowNs => Sys2Proof.Machine.execPreemptNAssert lowNs s
  | .preemptNArmed => Sys2Proof.Machine.execPreemptNArmed s
  | .servingReset lowNs => Sys2Proof.Machine.execServingReset lowNs s
  | .packageReset lowNs => Sys2Proof.Machine.execPackageReset lowNs s
  | .powerGood obs => Sys2Proof.Machine.execPowerGood obs s
  | .norTakeoverHubB obs => Sys2Proof.Machine.execNorTakeoverHubB obs s
  | .selfTestEnd findings obs => Sys2Proof.Machine.execSelfTestEnd findings obs s
  | .railOutOfRange rail mv => Sys2Proof.Machine.execRailOutOfRange rail mv s
  | .vauxWarning mv lowNs => Sys2Proof.Machine.execVauxWarning mv lowNs s
  | .thermtrip die => Sys2Proof.Machine.execThermtrip die s
  | .pllLossOfLock die => Sys2Proof.Machine.execPllLossOfLock die s
  | .pllLockRegained die => Sys2Proof.Machine.execPllLockRegained die s
  | .pourPlan obs => Sys2Proof.Machine.execPourPlan obs s
  | .layerComplete obs => Sys2Proof.Machine.execLayerComplete obs s
  | .weightBlockArrived model block => Sys2Proof.Machine.execWeightBlockArrived model block s
  | .weightReadFailed model block => Sys2Proof.Machine.execWeightReadFailed model block s
  | .masksReady => Sys2Proof.Machine.execMasksReady s
  | .samplingDone obs => Sys2Proof.Machine.execSamplingDone obs s
  | .releaseMirrorAck obs => Sys2Proof.Machine.execReleaseMirrorAck obs s
  | .pourBarrier elapsedUs => Sys2Proof.Machine.execPourBarrier elapsedUs s
  | .commitBarrierIdle => Sys2Proof.Machine.execCommitBarrierIdle s
  | .gateListTakeover port => Sys2Proof.Machine.execGateListTakeover port s
  | .clusterFault die cluster => Sys2Proof.Machine.execClusterFault die cluster s
  | .rotationStart die => Sys2Proof.Machine.execRotationStart die s
  | .rotationTestEnd die passed => Sys2Proof.Machine.execRotationTestEnd die passed s
  | .residencyAllowanceExpiry handle => Sys2Proof.Machine.execResidencyAllowanceExpiry handle s
  | .directorySweep elapsedUs => Sys2Proof.Machine.execDirectorySweep elapsedUs s
  | .hardDeadlineExpiry handle => Sys2Proof.Machine.execHardDeadlineExpiry handle s
  | .softDeadlineExpiry handle => Sys2Proof.Machine.execSoftDeadlineExpiry handle s
  | .frameAllowanceExpiry handle frame => Sys2Proof.Machine.execFrameAllowanceExpiry handle frame s
  | .answerBlockTimeout fn => Sys2Proof.Machine.execAnswerBlockTimeout fn s
  | .backlogDrain fn => Sys2Proof.Machine.execBacklogDrain fn s
  | .vectorIntervalExpiry fn vector => Sys2Proof.Machine.execVectorIntervalExpiry fn vector s
  | .demotionCommit handle => Sys2Proof.Machine.execDemotionCommit handle s
  | .revivalPhase1End handle => Sys2Proof.Machine.execRevivalPhase1End handle s
  | .remeltPhase2End handle => Sys2Proof.Machine.execRemeltPhase2End handle s
  | .ingotCommit handle => Sys2Proof.Machine.execIngotCommit handle s
  | .pageCast handle row layer => Sys2Proof.Machine.execPageCast handle row layer s
  | .writeDownFailed handle row layer => Sys2Proof.Machine.execWriteDownFailed handle row layer s
  | .stalledWriteResume partition => Sys2Proof.Machine.execStalledWriteResume partition s
  | .storeCopyCommit handle row => Sys2Proof.Machine.execStoreCopyCommit handle row s
  | .demandFetchComplete handle row layer => Sys2Proof.Machine.execDemandFetchComplete handle row layer s
  | .demandFetchLate handle row layer => Sys2Proof.Machine.execDemandFetchLate handle row layer s
  | .demandFetchFailed handle row layer => Sys2Proof.Machine.execDemandFetchFailed handle row layer s
  | .frozenReadLate handle => Sys2Proof.Machine.execFrozenReadLate handle s
  | .bridgeFatalError pool => Sys2Proof.Machine.execBridgeFatalError pool s
  | .hbmUncorrectable stack region held => Sys2Proof.Machine.execHbmUncorrectable stack region held s
  | .hbmCorrected stack region meterS => Sys2Proof.Machine.execHbmCorrected stack region meterS s
  | .patrolScrub die => Sys2Proof.Machine.execPatrolScrub die s
  | .nandReadComplete hub group object page found => Sys2Proof.Machine.execNandReadComplete hub group object page found s
  | .nandProgramComplete hub group object pages page ok => Sys2Proof.Machine.execNandProgramComplete hub group object pages page ok s
  | .nandEraseComplete hub group ok => Sys2Proof.Machine.execNandEraseComplete hub group ok s
  | .journalFlushTimer hub => Sys2Proof.Machine.execJournalFlushTimer hub s
  | .channelRetrainTimer channel passed => Sys2Proof.Machine.execChannelRetrainTimer channel passed s
  | .recallQueryComplete query => Sys2Proof.Machine.execRecallQueryComplete query s
  | .recallReadLate query => Sys2Proof.Machine.execRecallReadLate query s
  | .recallReadFailed query => Sys2Proof.Machine.execRecallReadFailed query s
  | .memorizeLive index key => Sys2Proof.Machine.execMemorizeLive index key s
  | .repairPassEnd index shard => Sys2Proof.Machine.execRepairPassEnd index shard s
  | .indexDeleteEffect index shard => Sys2Proof.Machine.execIndexDeleteEffect index shard s
  | .envelopeOverrun => Sys2Proof.Machine.execEnvelopeOverrun s
  | .avsbusWriteUnacked rail requestedMv => Sys2Proof.Machine.execAvsbusWriteUnacked rail requestedMv s
  | .thermalRead temps => Sys2Proof.Machine.execThermalRead temps s
  | .chillModuleLost hub => Sys2Proof.Machine.execChillModuleLost hub s
  | .portTrained port width swap peer linkUp => Sys2Proof.Machine.execPortTrained port width swap peer linkUp s
  | .portTrainingTimeout port step => Sys2Proof.Machine.execPortTrainingTimeout port step s
  | .wavelengthSpare port out wavelength unacked => Sys2Proof.Machine.execWavelengthSpare port out wavelength unacked s
  | .portLightLost port noLight unacked => Sys2Proof.Machine.execPortLightLost port noLight unacked s
  | .laserFeedLow port lost unacked => Sys2Proof.Machine.execLaserFeedLow port lost unacked s
  | .laserFeedRestored port => Sys2Proof.Machine.execLaserFeedRestored port s
  | .linkLayerFatal port unacked => Sys2Proof.Machine.execLinkLayerFatal port unacked s
  | .portRetryInterval port lines => Sys2Proof.Machine.execPortRetryInterval port lines s
  | .portRoleDrained port lines => Sys2Proof.Machine.execPortRoleDrained port lines s
  | .fabricWriteReceived port h lines => Sys2Proof.Machine.execFabricWriteReceived port h lines s
  | .fabricReadRequest port h => Sys2Proof.Machine.execFabricReadRequest port h s
  | .fabricReadResponse port h => Sys2Proof.Machine.execFabricReadResponse port h s
  | .fabricReadTimeout tag => Sys2Proof.Machine.execFabricReadTimeout tag s
  | .fabricNotice h => Sys2Proof.Machine.execFabricNotice h s
  | .runnerLineReceived l => Sys2Proof.Machine.execRunnerLineReceived l s
  | .runnerResendRequest runner side seq => Sys2Proof.Machine.execRunnerResendRequest runner side seq s
  | .runnerStuckWire runner side group => Sys2Proof.Machine.execRunnerStuckWire runner side group s
  | .runnerSparingNotice runner side group => Sys2Proof.Machine.execRunnerSparingNotice runner side group s
  | .coreFault core cause => Sys2Proof.Machine.execCoreFault core cause s
  | .watchdogWrite core => Sys2Proof.Machine.execWatchdogWrite core s
  | .watchdogHalfPeriod core => Sys2Proof.Machine.execWatchdogHalfPeriod core s
  | .watchdogExpiry core => Sys2Proof.Machine.execWatchdogExpiry core s
  | .heartbeat => Sys2Proof.Machine.execHeartbeat s
  | .heartbeatMissed => Sys2Proof.Machine.execHeartbeatMissed s
  | .hubCoresRejoin hub => Sys2Proof.Machine.execHubCoresRejoin hub s
  | .configurationMirrorAck => Sys2Proof.Machine.execConfigurationMirrorAck s
  | .hubRollHubReady ok => Sys2Proof.Machine.execHubRollHubReady ok s
  | .eventSourceFire core source => Sys2Proof.Machine.execEventSourceFire core source s
  | .evcEosWrite core source ie => Sys2Proof.Machine.execEvcEosWrite core source ie s
  | .srcCfgSet core source priority bits ie => Sys2Proof.Machine.execSrcCfgSet core source priority bits ie s
  | .srcCfgPendingClear core source priority enable ie => Sys2Proof.Machine.execSrcCfgPendingClear core source priority enable ie s
  | .evcDeliverWrite core value base ie => Sys2Proof.Machine.execEvcDeliverWrite core value base ie s
  | .coreWait core ie => Sys2Proof.Machine.execCoreWait core ie s
  | .meterAlarm core => Sys2Proof.Machine.execMeterAlarm core s
  | .semaphoreAcquire die sem ctx => Sys2Proof.Machine.execSemaphoreAcquire die sem ctx s
  | .semaphoreRelease die sem ctx => Sys2Proof.Machine.execSemaphoreRelease die sem ctx s
  | .semaphoreRevokedClear die sem => Sys2Proof.Machine.execSemaphoreRevokedClear die sem s
  | .join h serial serialEnd => Sys2Proof.Machine.execJoin h serial serialEnd s
  | .joinAnswer h number serialEnd => Sys2Proof.Machine.execJoinAnswer h number serialEnd s
  | .mapPublish h epoch records => Sys2Proof.Machine.execMapPublish h epoch records s
  | .mapApplied h epoch => Sys2Proof.Machine.execMapApplied h epoch s
  | .epochRetired h epoch => Sys2Proof.Machine.execEpochRetired h epoch s
  | .lookup h => Sys2Proof.Machine.execLookup h s
  | .lookupAnswer h holder => Sys2Proof.Machine.execLookupAnswer h holder s
  | .moveBegin h origin destination home alternate vector => Sys2Proof.Machine.execMoveBegin h origin destination home alternate vector s
  | .moveReady h window => Sys2Proof.Machine.execMoveReady h window s
  | .migrationCopyDone handle => Sys2Proof.Machine.execMigrationCopyDone handle s
  | .switchOver h m => Sys2Proof.Machine.execSwitchOver h m s
  | .prepared h => Sys2Proof.Machine.execPrepared h s
  | .committed h => Sys2Proof.Machine.execCommitted h s
  | .aborted h reason => Sys2Proof.Machine.execAborted h reason s
  | .teardown h group => Sys2Proof.Machine.execTeardown h group s
  | .teardownDone h group => Sys2Proof.Machine.execTeardownDone h group s
  | .poisonedReadReport h source destination window reason => Sys2Proof.Machine.execPoisonedReadReport h source destination window reason s
  | .directoryUpdate h holder state => Sys2Proof.Machine.execDirectoryUpdate h holder state s
  | .recallFanOut h op index shard k require exclude key tags code query => Sys2Proof.Machine.execRecallFanOut h op index shard k require exclude key tags code query s
  | .recallAnswer h query shard outcome results => Sys2Proof.Machine.execRecallAnswer h query shard outcome results s
  | .registryUpdate h tenant partition present => Sys2Proof.Machine.execRegistryUpdate h tenant partition present s
  | .acknowledge h seq => Sys2Proof.Machine.execAcknowledge h seq s
  | .managerResendTimeout peer seq => Sys2Proof.Machine.execManagerResendTimeout peer seq s
  | .checkpointNotice h kind => Sys2Proof.Machine.execCheckpointNotice h kind s
  | .checkpointAnswer h number slot length outcome => Sys2Proof.Machine.execCheckpointAnswer h number slot length outcome s
  | .checkpointCut => Sys2Proof.Machine.execCheckpointCut s
  | .checkpointCommit => Sys2Proof.Machine.execCheckpointCommit s
  | .checkpointFailed modulesLeft => Sys2Proof.Machine.execCheckpointFailed modulesLeft s
  | .orphanAllowanceExpiry => Sys2Proof.Machine.execOrphanAllowanceExpiry s
  | .linkOrphanExpiry link => Sys2Proof.Machine.execLinkOrphanExpiry link s
  | .tenantKeyDestroyed tenant => Sys2Proof.Machine.execTenantKeyDestroyed tenant s
  | .tenantDrainComplete tenant => Sys2Proof.Machine.execTenantDrainComplete tenant s
  | .tenantRemovalComplete tenant => Sys2Proof.Machine.execTenantRemovalComplete tenant s
  | .bindStreamComplete model bytes readOk writeOk hash => Sys2Proof.Machine.execBindStreamComplete model bytes readOk writeOk hash s
  | .noiseSourceFailure hub => Sys2Proof.Machine.execNoiseSourceFailure hub s
  | .bypass => Sys2Proof.Machine.execBypass s
  | .samplePreload => Sys2Proof.Machine.execSamplePreload s
  | .extest => Sys2Proof.Machine.execExtest s
  | .idcode => Sys2Proof.Machine.execIdcode s
  | .debugChallenge => Sys2Proof.Machine.execDebugChallenge s
  | .debugUnlock sigOk => Sys2Proof.Machine.execDebugUnlock sigOk s
  | .mctpMessage hub msgType length => Sys2Proof.Machine.execMctpMessage hub msgType length s
  | .pldmBaseCommand hub command => Sys2Proof.Machine.execPldmBaseCommand hub command s
  | .pldmPlatformCommand hub command sensor => Sys2Proof.Machine.execPldmPlatformCommand hub command sensor s
  | .pldmRequestUpdate hub => Sys2Proof.Machine.execPldmRequestUpdate hub s
  | .pldmFirmwareUpdate hub img activate => Sys2Proof.Machine.execPldmFirmwareUpdate hub img activate s
  | .mgmtBusStuck hub mga stillHeld => Sys2Proof.Machine.execMgmtBusStuck hub mga stillHeld s
  | .backgroundCopyComplete handle row layer => Sys2Proof.Machine.execBackgroundCopyComplete handle row layer s
  | .clusterIdlePowerOff => Sys2Proof.Machine.execClusterIdlePowerOff s
  | .handshakeRateMeasurement rates => Sys2Proof.Machine.execHandshakeRateMeasurement rates s
  | .configurationRequest link fn write reg value => Sys2Proof.Machine.execConfigurationRequest link fn write reg value s

end Sys2Proof.Machine
end

