-- ==== Sys2Proof/Safety.lean ====
section
/-! DEFINITION. What counts as a safe step, and when a message or a request is taken, in the terms the statements use. -/

namespace Sys2Proof.Machine

/-- The command is carried out: the step answers a next state. -/
def Completes (c : Sys2Proof.Instr) (s : State) : Prop := ∃ t, exec c s = Host.Outcome.next t

/-- What holds of the device in every state: SAFE_N is low in SAFE_TALK alone (R542), a stop is in progress in STOPPING alone (Table 19-2), at
most 15 unlocks have been made (R479), and a package whose debug port an unlock opened does not serve (R480). -/
def Consistent (s : State) : Prop :=
  s.pins.safeLow = (s.dev.code == .safeTalk) ∧ s.dev.stop.isSome = (s.dev.code == .stopping) ∧ s.sec.unlocks ≤ 15 ∧
    (s.sec.open_ = true → s.sec.serveNot = true)

/-- SAFE_TALK and STOPPED, which only a package reset leaves (Table 19-2). -/
def Halted (s : State) : Prop := s.dev.code = .safeTalk ∨ s.dev.code = .stopped

/-! ### Messages -/

/-- Checks 1 to 3 of Table 3-2: CRC, minor version, opcode, sender, handle. -/
def passesForm (m : Sprue) : Bool :=
  msgCrcOk m && decide (msgMinor m ≤ 2) && opListed (msgOpcode m) && (!opPhysical (msgOpcode m) || isPhys m.fn) &&
    (opHandle (msgOpcode m) != (msgHandle m == 0))

/-- Check 2 and check 4: the tenant is bound to the sender, owns the session the message names, and has a token in its policing bucket; an
opcode that only a physical function sends names no tenant of its own. A retiring tenant sends TAP_RELEASE alone (R468). -/
def passesTenant (m : Sprue) (s : State) : Bool :=
  if opPhysical (msgOpcode m) then (findTen s (msgTenant m)).all fun t => !t.retiring
  else match findTen s (msgTenant m) with
    | none => false
    | some t => boundTo t m.fn && (!opPoliced (msgOpcode m) || decide (policeToken ≤ t.bucket)) && (!t.retiring || msgOpcode m == 0x10) &&
        (msgHandle m == 0 || (reachable s (msgHandle m)).any fun x => x.tenant == t.id)

/-- A message consumed and, where its opcode is policed, paid for (R92, R101). -/
def consumeMsg (m : Sprue) (s : State) : State :=
  let s1 := onFn m.fn (fun f => { f with consumed := f.consumed + 1 }) s
  if opPoliced (msgOpcode m) then onTen (msgTenant m) (fun t => { t with bucket := t.bucket - policeToken }) s1 else s1

/-- Check 5: the number is new to the duplicate window. -/
def passesWindow (m : Sprue) (s : State) : Bool := windowVerdict (windowOf s (msgWin m)) (msgSeq m) == .fresh

/-- A message that a serving package takes and that passes checks 1 to 5 of Table 3-2. -/
def Accepts (m : Sprue) (s : State) : Prop :=
  serving s = true ∧ passesForm m = true ∧ passesTenant m s = true ∧ passesWindow m (consumeMsg m s) = true

/-- The state in which an accepted message acts: consumed, paid for, and its number in the duplicate window as pending (R92, R98, R101). -/
def acceptMsg (m : Sprue) (s : State) : State :=
  onWindow (msgWin m) (fun w => windowEnter w (msgSeq m) (msgOpcode m)) (keepImage (msgHandle m) (consumeMsg m s))

/-- The state in which a session message acts: an allowance that has run out acts first (R62). -/
def actsIn (m : Sprue) (s : State) : State := expire (msgHandle m) (acceptMsg m s)

/-- A message of opcode `op` is accepted and finds its session `x`. -/
def Finds (m : Sprue) (op : Nat) (s : State) (x : Session) : Prop :=
  Accepts m s ∧ msgOpcode m = op ∧ findSess (actsIn m s) (msgHandle m) = some x

/-- A message of opcode `op` is accepted and finds its session `x` with no operation under way. -/
def Acts (m : Sprue) (op : Nat) (s : State) (x : Session) : Prop :=
  Accepts m s ∧ msgOpcode m = op ∧ findSess (actsIn m s) (msgHandle m) = some x ∧ x.op = none

/-- The data of an APPEND_TEXT whose fields are good (Table 3-5): inline, or in host memory that could be read. -/
def appendData (m : Sprue) (buf : HostBuf) : Option (List Byte) :=
  let inl := msgAt m 16 1
  let n := msgAt m 28 4
  if (msgAt m 17 1).testBit 1 then
    if inl ≠ 0 ∨ n = 0 ∨ 1048576 < n ∨ ((msgAt m 17 1).testBit 0 ∧ n % 4 ≠ 0) then none else buf.map (List.take n)
  else if 40 < inl ∨ ((msgAt m 17 1).testBit 0 ∧ inl % 4 ≠ 0) then none else some (inlineBytes m.w 20 inl)

/-- The bytes of data that an APPEND_TEXT says it has (Table 3-5). -/
def appendCount (m : Sprue) : Nat := if (msgAt m 17 1).testBit 1 then msgAt m 28 4 else msgAt m 16 1

/-- Token identifiers all inside the vocabulary of the session's model. -/
def tokensFit (s : State) (x : Session) (ids : List Nat) : Bool := ids.all fun t => decide (t < vocabOf s x)

/-- The fields of a GENERATE are good (Table 3-6). -/
def generateFields (m : Sprue) : Bool :=
  let n := msgAt m 16 4
  let cls := msgAt m 22 1
  decide (1 ≤ n) && decide (n ≤ 1048576) && decide (cls ≤ 2) && (cls == 0 || msgAt m 24 4 != 0) && decide (msgAt m 34 1 ≤ 16)

/-- The stop strings of a GENERATE, where they could be read and are well-formed text (Table 3-6). -/
def generateStops (m : Sprue) (buf : HostBuf) : Option (List (List Byte)) :=
  (match (if msgAt m 34 1 = 0 then some [] else buf) with
   | none => none
   | some bytes => stopStrings (msgAt m 34 1) bytes).filter fun l => l.all wellFormedText

/-- The fields of a message for the session `x` pass the checks that come before its session's state is looked at: form, positions, data, identifiers,
mould and stop strings (R93, R94; Tables 3-5 to 3-7). -/
def FieldsGood (c : Sys2Proof.Instr) (s : State) (x : Session) : Prop :=
  match c with
  | .appendText m buf => ∃ bytes, appendData m buf = some bytes ∧ ((msgAt m 17 1).testBit 0 = true →
      tokensFit s x ((tokensOf bytes).getD []) = true ∧ overLimit x (closeCost s x + appendCount m / 4) = false)
  | .appendFrame m buf => ∃ p, sessProg s x = some p ∧ p.encoders ≠ [] ∧ msgAt m 24 4 = p.frameBytes ∧
      overLimit x (closeCost s x + p.framePositions) = false ∧ buf ≠ none
  | .generate m buf => generateFields m = true ∧ mouldStart s x (msgAt m 20 2) ≠ none ∧ generateStops m buf ≠ none
  | .toolResult m buf => msgAt m 24 4 ≤ 1048576 ∧ callNamed x (msgAt m 28 4) = true ∧ (msgAt m 24 4 ≠ 0 → buf ≠ none) ∧
      ((msgAt m 32 1).testBit 0 = true → msgAt m 24 4 % 4 = 0 ∧
        (msgAt m 24 4 ≠ 0 → overLimit x (closeCost s x + msgAt m 24 4 / 4) = false ∧
          tokensFit s x ((tokensOf (((buf.getD []).take (msgAt m 24 4)))).getD []) = true))
  | _ => False

/-- The numbers of a duplicate window, the oldest first: `next` is the index of the oldest once the window is full (Table 3-9). -/
def recentEntries (w : Window) : List WinEntry := w.entries.drop w.next ++ w.entries.take w.next

/-- What holds of every duplicate window in use: at most 64 entries, none while it has no highest number, and an oldest index that stands at 0 until
the window is full (Table 3-9). -/
def WindowFit (w : Window) : Prop :=
  w.entries.length ≤ 64 ∧ w.next < 64 ∧ (w.entries.length < 64 → w.next = 0) ∧ (w.highest = none → w.entries = [])

/-! ### Mailbox requests -/

/-- A request that the mailbox takes and the device state lets run (R89, R115, R116, R531; Table 3-16, Table 19-1). -/
def Ready (r : MbReq) (op : Nat) (s : State) : Prop :=
  mbEarly s = false ∧ (fnOf s r.fn).mb.busy = false ∧ r.minor ≤ 2 ∧ listedOp op = true ∧ (isPhys r.fn || anyFnOp op) = true ∧ mbGate s op = .run

/-- The mailbox of the function that sent `r` holds the answer `o` with its payload: DONE set, BUSY clear (R115, Table 3-15). -/
def Answered (r : MbReq) (op : Nat) (o : OCode) (payload : List Byte) (t : State) : Prop :=
  (fnOf t r.fn).mb.busy = false ∧ (fnOf t r.fn).mb.done = true ∧
    (fnOf t r.fn).mb.response = some { outcome := o, op := op, tag := r.tag, payload := payload }

/-- The answer of an ATTEST with cursor 0: the total length, the next cursor, and the result's first 4,064 bytes (R474). -/
def attestAnswer (bs : List Byte) : List Byte :=
  leBytes 4 bs.length ++ leBytes 4 (pageFrom bs 0 4064).2 ++ zeros 8 ++ (pageFrom bs 0 4064).1

/-! ### Manager messages -/

/-- The entry of a manager message that crosses packages under an epoch (R415, Table 14-4). -/
def epochHdr (c : Sys2Proof.Instr) : Option MgrHdr :=
  match c with
  | .lookup h | .directoryUpdate h _ _ | .moveBegin h _ _ _ _ _ | .moveReady h _ | .switchOver h _ | .prepared h | .committed h | .aborted h _
  | .teardown h _ | .teardownDone h _ | .recallFanOut h _ _ _ _ _ _ _ _ _ _ => some h
  | _ => none

/-- The entry of a manager message that is taken under any epoch. -/
def anyHdr (c : Sys2Proof.Instr) : Option MgrHdr :=
  match c with
  | .joinAnswer h _ _ | .mapPublish h _ _ | .mapApplied h _ | .epochRetired h _ | .lookupAnswer h _ | .poisonedReadReport h _ _ _ _
  | .recallAnswer h _ _ _ _ | .registryUpdate h _ _ _ | .checkpointNotice h _ | .checkpointAnswer h _ _ _ _ => some h
  | _ => none

/-- An entry that is carried out: the package takes part in a rack, the entry's crc is good, and it has not been taken before (R411, R412). -/
def FreshEntry (h : MgrHdr) (s : State) : Prop := onRack s = true ∧ h.crcOk = true ∧ s.rack.seen.contains (h.source, h.seq) = false

/-- The state in which a fresh entry acts: consumed, and noted as taken (R411, R412). -/
def entryTaken (h : MgrHdr) (s : State) : State :=
  { s with rack := { s.rack with consumed := s.rack.consumed + 1, seen := s.rack.seen ++ [(h.source, h.seq)] } }

/-- The state with an entry's acknowledgement sent (R412). -/
def acked (h : MgrHdr) (s : State) : State := ackDone h s

end Sys2Proof.Machine
end

