-- ==== Sys2Proof/Certificates/Slice0/Obligations.lean ====
section
/-! DEFINITION. The statements about the block, for the provers. Each docstring names the rules a statement rests on; a clause that rests on a
choice of the model says so and names the log entry. -/

open Sys2Proof Sys2Proof.Machine

/-- For every command and state, a step of the state with the command at the front of its queue is exec of the command on the state with the rest of the queue; a step on an empty queue idles (the model's choice, log entry 1). -/
def Obligations.StepRunsTheFrontCommand : Prop :=
  (∀ (c : Instr) (rest : List Instr) (s : State), step { s with pending := c :: rest } = exec c { s with pending := rest }) ∧
    ∀ s : State, s.pending = [] → step s = .next s

/-- After reset the block is STARTING at step 1 with power not good, SAFE_N high, no stop in progress, no session, no pour, every meter at zero and the next pour number 1, and it is Consistent. -/
def Obligations.ResetIsConsistent : Prop :=
  Consistent State.reset ∧ State.reset.dev.code = .starting ∧ State.reset.dev.step = 1 ∧ State.reset.pins.powerGood = false ∧
    State.reset.pins.safeLow = false ∧ State.reset.sess = [] ∧ State.reset.sched.pour = none ∧ State.reset.sched.next = 1 ∧
    (∀ m ∈ State.reset.dev.meters, m.ns = 0) ∧ State.reset.pending = []

/-- From every Consistent state (SAFE_N low in SAFE_TALK alone, a stop in progress in STOPPING alone, at most 15 unlocks, an unlocked package serving nothing) every step that answers a next state answers a Consistent one. -/
def Obligations.StepKeepsConsistent : Prop :=
  ∀ s t : State, Consistent s → step s = .next t → Consistent t

/-- A step that answers a next state leaves the queue without its front command and otherwise as it was, leaves the part as it is, and lowers neither the anti-rollback fuse count nor the unlock count. -/
def Obligations.StepTakesOneCommand : Prop :=
  ∀ s t : State, step s = .next t →
    t.pending = s.pending.tail ∧ t.part = s.part ∧ s.nor.fuses ≤ t.nor.fuses ∧ s.sec.unlocks ≤ t.sec.unlocks

/-- From a Consistent state in SAFE_TALK or STOPPED, every step that answers a next state leaves the device state as it is or has returned to STARTING, as a package reset does. -/
def Obligations.OnlyAPackageResetEndsAHalt : Prop :=
  ∀ s t : State, Consistent s → Halted s → step s = .next t →
    t.dev.code = s.dev.code ∨ t.dev.code = .starting

/-- Every command answers a next state in every state, except RAIL_OUT_OF_RANGE for a rail that the part has at a voltage beyond its absolute maximum; that one stops with the fault ratingExceeded. -/
def Obligations.EveryCommandButARatingBreachCompletes : Prop :=
  (∀ (c : Instr) (s : State),
    (∀ rail mv, c = .railOutOfRange rail mv → railFitted s.part rail = false ∨ withinRating rail mv = true) → Completes c s) ∧
  ∀ (rail : Rail) (mv : Int) (s : State), railFitted s.part rail = true → withinRating rail mv = false →
    exec (.railOutOfRange rail mv) s = .fault .ratingExceeded

/-- Of a duplicate window that holds at most 64 numbers, none without a highest one, with its oldest index at 0 until it is full (WindowFit, which a window with nothing in it has and every number entered keeps): a number entered stands behind the others from the oldest on, of which the oldest has gone where the window was full; and a number that was fresh is then found as a duplicate of a message that is pending, under the opcode it was entered with. -/
def Obligations.DuplicateWindowRemembers64 : Prop :=
  WindowFit {} ∧
  ∀ (w : Window) (n op : Nat), WindowFit w →
    WindowFit (windowEnter w n op) ∧
    recentEntries (windowEnter w n op) = (recentEntries w ++ [({ seq := n, opcode := op } : WinEntry)]).drop (w.entries.length + 1 - 64) ∧
    (windowVerdict w n = .fresh → windowVerdict (windowEnter w n op) n = .duplicate { seq := n, opcode := op, outcome := none })

/-- For sequence numbers a and b of 32 bits, a is newer than b exactly when (a − b) mod 2^32 lies between 1 and 2,147,483,647; of two numbers that differ by anything but 2^31 exactly one is newer, and no number is newer than itself. -/
def Obligations.SerialArithmetic : Prop :=
  ∀ a b : Nat, a < 2 ^ 32 → b < 2 ^ 32 →
    (newer a b = true ↔ 1 ≤ ((a : Int) - b) % 2 ^ 32 ∧ ((a : Int) - b) % 2 ^ 32 ≤ 2147483647) ∧
    newer a a = false ∧
    (a ≠ b → ((a : Int) - b) % 2 ^ 32 ≠ 2 ^ 31 → (newer a b = true ↔ newer b a = false))

/-- Writing a number into n little-endian bytes and reading it back gives the number modulo 256^n; byte 0 is its least significant byte; reading n bytes and writing them back gives the bytes. -/
def Obligations.LittleEndianRoundTrip : Prop :=
  (∀ n v : Nat, (leBytes n v).length = n ∧ leNat (leBytes n v) = v % 256 ^ n) ∧
  (∀ n v : Nat, 0 < n → (leBytes n v).head? = some (BitVec.ofNat 8 v)) ∧
  ∀ bs : List Byte, leBytes bs.length (leNat bs) = bs

/-- The winner of an event controller is one of its enabled, pending sources that are not active; none of those comes before it in priority number and then in source number; and there is a winner whenever there is such a source. -/
def Obligations.EventWinnerIsLeast : Prop :=
  (∀ (c : Core) (x : EvSrc), winner c = some x →
    x ∈ c.srcs ∧ srcReady x = true ∧
      ∀ y ∈ c.srcs, srcReady y = true → x.priority < y.priority ∨ (x.priority = y.priority ∧ x.num ≤ y.num)) ∧
  ∀ c : Core, winner c = none ↔ ∀ y ∈ c.srcs, srcReady y = false

/-- An accepted OPEN whose fields are good, with a directory entry free, nothing waiting for the hold-up bound and room in it, is carried out: the session of the next handle (package number in bits 63 to 52, the next serial below) is in the directory in state OPEN with the message's tenant, model, durability, flags, home, alternate, vector and client tag and no position written; the serial is used up; and every other session, the part, the fuses, the pins, the models, the store and the recall engines are as before. -/
def Obligations.OpenCreatesSession : Prop :=
  ∀ (m : Sprue) (s : State), Accepts m s → msgOpcode m = 1 → openFields m (acceptMsg m s) = true → entriesUsed s < directoryLimit s.part →
    s.ledger.waiting = [] → holdUpFits (acceptMsg m s) (saveSize (acceptMsg m s) + openSize m (acceptMsg m s)) = true →
    findSess s (handleOf s.rack.num s.dev.nextSerial) = none →
    ∃ t, exec (.openSession m) s = .next t ∧
      (∃ x, findSess t (handleOf s.rack.num s.dev.nextSerial) = some x ∧ x.tenant = msgTenant m ∧ x.model = msgAt m 16 2 ∧
        x.durability = msgAt m 18 1 ∧ x.oneShot = (msgAt m 19 1).testBit 0 ∧ x.strict = (msgAt m 19 1).testBit 1 ∧ x.home = msgAt m 22 2 ∧
        x.alternate = msgAt m 24 2 ∧ x.vector = msgAt m 26 2 ∧ x.clientTag = msgAt m 28 8 ∧ x.state = .opened ∧ x.p = 0 ∧ x.w = 0 ∧
        x.request = none ∧ x.queue = []) ∧
      (∀ h, h ≠ handleOf s.rack.num s.dev.nextSerial → findSess t h = findSess s h) ∧
      t.dev.nextSerial = s.dev.nextSerial + 1 ∧
      t.part = s.part ∧ t.nor.fuses = s.nor.fuses ∧ t.pins = s.pins ∧ t.models = s.models ∧ t.store = s.store ∧ t.rcl = s.rcl

/-- An accepted APPEND_TEXT with good fields, and where its tokens flag is set with every identifier inside the vocabulary and the session within its limit of positions, is carried out: in an OPEN or ACTIVE session its text, or its token identifiers, are taken in; in a WARM or PARKED one it is held and the session is revived. An accepted APPEND_FRAME for a model with a frame encoder, of the model's frame size, within the limit of positions and in readable memory, is carried out alike: its data is queued as a frame, or it is held and the session revived. Either, past the limit of positions, is refused with reason 7 in each of those states. What the session held back is then taken up. -/
def Obligations.InputIsQueued : Prop :=
  (∀ (m : Sprue) (buf : HostBuf) (s : State) (x : Session) (bytes : List Byte), Acts m 2 s x → appendData m buf = some bytes →
    ((msgAt m 17 1).testBit 0 = true → tokensFit (actsIn m s) x ((tokensOf bytes).getD []) = true) →
    (((msgAt m 17 1).testBit 0 = true → overLimit x (closeCost (actsIn m s) x + appendCount m / 4) = false) →
      ((x.state = .opened ∨ x.state = .active) →
        exec (.appendText m buf) s = .next (drainHeld (msgHandle m)
          (if (msgAt m 17 1).testBit 0 then queueTokens m ((tokensOf bytes).getD []) (actsIn m s) else queueText m bytes (actsIn m s)))) ∧
      ((x.state = .warm ∨ x.state = .parked) →
        exec (.appendText m buf) s = .next (drainHeld (msgHandle m) (revive (.appendText m buf) (msgHandle m) (actsIn m s))))) ∧
    ((msgAt m 17 1).testBit 0 = true → overLimit x (closeCost (actsIn m s) x + appendCount m / 4) = true →
      exec (.appendText m buf) s = .next (drainHeld (msgHandle m) (refuse m 7 (actsIn m s))))) ∧
  ∀ (m : Sprue) (buf : HostBuf) (s : State) (x : Session) (p : ModelProgram), Acts m 3 s x → sessProg (actsIn m s) x = some p →
    p.encoders ≠ [] → msgAt m 24 4 = p.frameBytes →
    (overLimit x (closeCost (actsIn m s) x + p.framePositions) = false → ∀ data, buf = some data →
      ((x.state = .opened ∨ x.state = .active) →
        exec (.appendFrame m buf) s = .next (drainHeld (msgHandle m) (queueFrame m p.framePositions data (actsIn m s)))) ∧
      ((x.state = .warm ∨ x.state = .parked) →
        exec (.appendFrame m buf) s = .next (drainHeld (msgHandle m) (revive (.appendFrame m buf) (msgHandle m) (actsIn m s))))) ∧
    (overLimit x (closeCost (actsIn m s) x + p.framePositions) = true →
      exec (.appendFrame m buf) s = .next (drainHeld (msgHandle m) (refuse m 7 (actsIn m s))))

/-- An accepted GENERATE with good fields, a mould that the model may use and stop strings that could be read, in an OPEN or ACTIVE session that has no request, is carried out: its request is started with them; and a request that names a mould begins at the mould's start state with an empty stack. An accepted TOOL_RESULT that names the outstanding host call of a session in WAITING_TOOL, within the limit of positions, is carried out: its token identifiers, which are inside the vocabulary, or its text, or an empty result, are taken as the call's result. -/
def Obligations.GenerateStartsRequest : Prop :=
  (∀ (m : Sprue) (buf : HostBuf) (s : State) (x : Session) (start : Option Nat) (stops : List (List Byte)), Acts m 4 s x →
    generateFields m = true → mouldStart (actsIn m s) x (msgAt m 20 2) = some start → generateStops m buf = some stops →
    (x.state = .opened ∨ x.state = .active) → x.request = none →
    exec (.generate m buf) s = .next (drainHeld (msgHandle m) (startRequest m stops start (actsIn m s)))) ∧
  (∀ (m : Sprue) (stops : List (List Byte)) (n : Nat), (newRequest m stops (some n)).ctx = some { state := n, stack := [] }) ∧
  ∀ (m : Sprue) (buf : HostBuf) (s : State) (x : Session), Acts m 5 s x → x.state = .waitingTool → x.call = some (.host (msgAt m 28 4)) →
    msgAt m 24 4 ≤ 1048576 →
    (msgAt m 24 4 = 0 → overLimit x (closeCost (actsIn m s) x) = false →
      exec (.toolResult m buf) s = .next (drainHeld (msgHandle m) (toolResultNow m [] (closeInput (msgHandle m) (actsIn m s))))) ∧
    ∀ bytes, msgAt m 24 4 ≠ 0 → buf = some bytes →
      ((msgAt m 32 1).testBit 0 = false →
        exec (.toolResult m buf) s = .next (drainHeld (msgHandle m) (toolText m (bytes.take (msgAt m 24 4)) (actsIn m s)))) ∧
      ((msgAt m 32 1).testBit 0 = true → msgAt m 24 4 % 4 = 0 →
        tokensFit (actsIn m s) x ((tokensOf (bytes.take (msgAt m 24 4))).getD []) = true →
        overLimit x (closeCost (actsIn m s) x + msgAt m 24 4 / 4) = false →
        overLimit x (closeCost (actsIn m s) x + ((tokensOf (bytes.take (msgAt m 24 4))).getD []).length) = false →
        exec (.toolResult m buf) s = .next (drainHeld (msgHandle m)
          (toolResultNow m ((tokensOf (bytes.take (msgAt m 24 4))).getD []) (closeInput (msgHandle m) (actsIn m s)))))

/-- An accepted APPEND_TEXT, APPEND_FRAME, GENERATE or TOOL_RESULT whose fields pass their checks, and what the session held back after it: a session that is MOVING holds it, a LOST one answers it with LOST, and a CLOSED one refuses it with reason 6; in every other state a session with an operation under way holds it. With none under way, a session in WAITING_TOOL refuses all but a TOOL_RESULT with reason 6, a session with a request refuses a GENERATE with reason 6, and a WARM or PARKED one that refuses neither holds the message and is revived. -/
def Obligations.MessagesFollowTheState : Prop :=
  ∀ (c : Instr) (m : Sprue) (op : Nat) (buf : HostBuf) (s : State) (x : Session), Finds m op s x → FieldsGood c (actsIn m s) x →
    ((c = .appendText m buf ∧ op = 2) ∨ (c = .appendFrame m buf ∧ op = 3) ∨ (c = .generate m buf ∧ op = 4) ∨ (c = .toolResult m buf ∧ op = 5)) →
    (x.state = .moving → exec c s = .next (drainHeld (msgHandle m) (hold c (msgHandle m) (actsIn m s)))) ∧
    (x.state = .lost → exec c s = .next (drainHeld (msgHandle m) (answerMsg m .lost 0 0 (actsIn m s)))) ∧
    (x.state = .closed → exec c s = .next (drainHeld (msgHandle m) (refuse m 6 (actsIn m s)))) ∧
    (x.state ≠ .moving → x.state ≠ .lost → x.state ≠ .closed → x.op.isSome = true →
      exec c s = .next (drainHeld (msgHandle m) (hold c (msgHandle m) (actsIn m s)))) ∧
    (x.op = none → x.state = .waitingTool → op ≠ 5 → exec c s = .next (drainHeld (msgHandle m) (refuse m 6 (actsIn m s)))) ∧
    (x.op = none → x.state ≠ .moving → x.state ≠ .lost → x.state ≠ .closed → op = 4 → x.request.isSome = true →
      exec c s = .next (drainHeld (msgHandle m) (refuse m 6 (actsIn m s)))) ∧
    (x.op = none → (x.state = .warm ∨ x.state = .parked) → (op = 4 → x.request = none) →
      exec c s = .next (drainHeld (msgHandle m) (revive c (msgHandle m) (actsIn m s))))

/-- An accepted CANCEL, BARGE, PARK or CLOSE that finds its session is carried out in every state of the session, and what the session held back is then taken up where no operation is under way. Of a session that is OPEN, ACTIVE, WAITING_TOOL, WARM or PARKED: a CANCEL or CLOSE, whether or not an operation is under way, and a PARK of a quantise field of at most 2 with none under way, acts at once, unless the session is ACTIVE with a pour of its flask in flight, where it joins the messages that wait for the boundary; a BARGE acts when it is taken, at the number of positions heard that the message names; and a PARK with an operation under way is held. A PARK whose quantise field is above 2 is refused with reason 3. A session that is MOVING holds each of the four; a LOST one answers each with LOST; a CLOSED one answers CANCEL and BARGE with NOTHING_TO_CANCEL and CLOSE with DONE, and refuses PARK with reason 6. -/
def Obligations.AbortMessagesAct : Prop :=
  (∀ (m : Sprue) (s : State) (x : Session), Finds m 6 s x → x.state ≠ .moving → x.state ≠ .lost → x.state ≠ .closed →
    exec (.cancel m) s = .next (drainHeld (msgHandle m)
      (if x.state = .active ∧ inFlight (actsIn m s) x = true then stampAsk (msgAsk m) (msgHandle m) (actsIn m s)
       else freeSpent (msgHandle m) (cancelNow false (msgAsk m) (msgHandle m) (actsIn m s))))) ∧
  (∀ (m : Sprue) (s : State) (x : Session), Finds m 7 s x → x.state ≠ .moving → x.state ≠ .lost → x.state ≠ .closed →
    exec (.barge m) s = .next (drainHeld (msgHandle m)
      (freeSpent (msgHandle m) (bargeNow (msgAsk m) (msgAt m 16 4) (msgHandle m) (actsIn m s))))) ∧
  (∀ (m : Sprue) (s : State) (x : Session), Finds m 8 s x → msgAt m 16 1 ≤ 2 → x.state ≠ .moving → x.state ≠ .lost → x.state ≠ .closed →
    exec (.park m) s = .next (drainHeld (msgHandle m)
      (if x.op.isSome = true then hold (.park m) (msgHandle m) (actsIn m s)
       else if x.state = .active ∧ inFlight (actsIn m s) x = true then
         stampAsk { msgAsk m with quantise := msgAt m 16 1 } (msgHandle m) (actsIn m s)
       else parkNow false { msgAsk m with quantise := msgAt m 16 1 } (msgHandle m) (actsIn m s)))) ∧
  (∀ (m : Sprue) (s : State) (x : Session), Finds m 8 s x → 2 < msgAt m 16 1 →
    exec (.park m) s = .next (drainHeld (msgHandle m) (refuse m 3 (actsIn m s)))) ∧
  (∀ (m : Sprue) (s : State) (x : Session), Finds m 9 s x → x.state ≠ .moving → x.state ≠ .lost → x.state ≠ .closed →
    exec (.close m) s = .next (drainHeld (msgHandle m)
      (if x.state = .active ∧ inFlight (actsIn m s) x = true then stampAsk (msgAsk m) (msgHandle m) (actsIn m s)
       else closeNow false (msgAsk m) (msgHandle m) (actsIn m s)))) ∧
  ∀ (c : Instr) (m : Sprue) (op : Nat) (s : State) (x : Session), Finds m op s x →
    ((c = .cancel m ∧ op = 6) ∨ (c = .barge m ∧ op = 7) ∨ (c = .park m ∧ op = 8 ∧ msgAt m 16 1 ≤ 2) ∨ (c = .close m ∧ op = 9)) →
    (x.state = .moving → exec c s = .next (drainHeld (msgHandle m) (hold c (msgHandle m) (actsIn m s)))) ∧
    (x.state = .lost → exec c s = .next (drainHeld (msgHandle m) (answerMsg m .lost 0 0 (actsIn m s)))) ∧
    (x.state = .closed → exec c s = .next (drainHeld (msgHandle m)
      (if op = 8 then refuse m 6 (actsIn m s) else if op = 9 then answerMsg m .done 0 0 (actsIn m s)
       else answerMsg m .nothingToCancel 0 0 (actsIn m s))))

/-- An accepted RECALL, MEMORIZE or FORGET that names an index the tenant owns, at the index's width and with good fields, with its code readable and a place at the index's hub, begins the operation with the fields of the message. -/
def Obligations.RecallMessagesBeginQueries : Prop :=
  (∀ (m : Sprue) (s : State) (bytes : List Byte), Accepts m s → msgOpcode m = 10 → 1 ≤ msgAt m 20 2 → msgAt m 20 2 ≤ 256 → msgAt m 22 1 ≤ 2 →
    indexOk (acceptMsg m s) (msgTenant m) (msgAt m 16 4) (msgAt m 22 1) = true →
    recallFull (acceptMsg m s) (indexHub (acceptMsg m s) (msgAt m 16 4)) = false →
    exec (.recallQuery m (some bytes)) s = .next (startQuery
      { num := 0, asker := .message (msgAsk m) (msgTenant m) 0 (msgAt m 32 8), op := 0x0A, index := msgAt m 16 4
        hub := indexHub (acceptMsg m s) (msgAt m 16 4), k := msgAt m 20 2, require := msgAt m 40 8, exclude := msgAt m 48 8
        code := bytes.take (codeBytes (msgAt m 22 1)) } (acceptMsg m s))) ∧
  (∀ (m : Sprue) (s : State) (bytes : List Byte), Accepts m s → msgOpcode m = 11 → msgAt m 20 1 ≤ 2 →
    indexOk (acceptMsg m s) (msgTenant m) (msgAt m 16 4) (msgAt m 20 1) = true →
    recallFull (acceptMsg m s) (indexHub (acceptMsg m s) (msgAt m 16 4)) = false →
    exec (.memorize m (some bytes)) s = .next (startQuery
      { num := 0, asker := .message (msgAsk m) (msgTenant m) 0 0, op := 0x0B, index := msgAt m 16 4
        hub := indexHub (acceptMsg m s) (msgAt m 16 4), key := msgAt m 32 8, tags := msgAt m 40 8
        code := bytes.take (codeBytes (msgAt m 20 1)) } (acceptMsg m s))) ∧
  ∀ (m : Sprue) (s : State), Accepts m s → msgOpcode m = 12 →
    indexOk (acceptMsg m s) (msgTenant m) (msgAt m 16 4)
      (((localShards (acceptMsg m s) (msgAt m 16 4)).head?.map fun h => h.item.width).getD 0) = true →
    recallFull (acceptMsg m s) (indexHub (acceptMsg m s) (msgAt m 16 4)) = false →
    exec (.forget m) s = .next (startQuery
      { num := 0, asker := .message (msgAsk m) (msgTenant m) 0 0, op := 0x0C, index := msgAt m 16 4
        hub := indexHub (acceptMsg m s) (msgAt m 16 4), key := msgAt m 24 8 } (acceptMsg m s))

/-- An accepted TAP_RELEASE of a position between the last release and the next position releases the records below it. An accepted BUDGET with mode 0 adds to the tenant's budget, saturating at 2^64 − 1, and with mode 1 sets it. An accepted CLOCK_FORWARD, once per start, ages the allowances of restored entries by the duration it carries. An opcode not listed is answered NOT_SUPPORTED and nothing else comes of it. A discarded sprue write only counts one in the sender's discarded field. -/
def Obligations.PlainMessagesAct : Prop :=
  (∀ (m : Sprue) (s : State), Accepts m s → msgOpcode m = 0x10 → (fnOf (acceptMsg m s) m.fn).released ≤ msgAt m 16 8 →
    msgAt m 16 8 ≤ (fnOf (acceptMsg m s) m.fn).next →
    exec (.tapRelease m) s = .next (releaseTo m.fn (msgAt m 16 8) (carried m (acceptMsg m s)))) ∧
  (∀ (m : Sprue) (s : State) (x : Tenant), Accepts m s → msgOpcode m = 0x11 → findTen s (msgTenant m) = some x → msgAt m 24 1 ≤ 1 →
    ∃ t, exec (.budget m) s = .next t ∧
      (findTen t (msgTenant m)).map Tenant.budget =
        some (if msgAt m 24 1 = 0 then min (2 ^ 64 - 1) (x.budget + msgAt m 16 8) else msgAt m 16 8) ∧
      (∀ k, k ≠ msgTenant m → findTen t k = findTen s k) ∧
      t.sess = s.sess ∧ t.models = s.models ∧ t.sched = s.sched ∧ t.tiers = s.tiers ∧ t.store = s.store ∧ t.rcl = s.rcl ∧ t.links = s.links ∧
      t.rack = s.rack ∧ t.pins = s.pins ∧ t.part = s.part) ∧
  (∀ (m : Sprue) (s : State), Accepts m s → msgOpcode m = 0x12 → msgTenant m = 0 → s.dev.clocked = false →
    ∃ t, exec (.clockForward m) s = .next t ∧ t.dev = { s.dev with clocked := true } ∧
      t.sess = s.sess.map (fun x =>
        if x.restored = true ∧ x.allowKind ≠ 0 then { x with allowance := x.allowance - msgAt m 16 8 } else x) ∧
      t.tens = s.tens ∧ t.sched = s.sched ∧ t.tiers = s.tiers ∧ t.store = s.store ∧ t.rcl = s.rcl ∧ t.links = s.links ∧ t.pins = s.pins) ∧
  (∀ (m : Sprue) (s : State), serving s = true → msgCrcOk m = true → msgMinor m ≤ 2 → opListed (msgOpcode m) = false →
    exec (.unknownOpcode m) s =
      .next (refuseEarly m .notSupported 0 0 (onFn m.fn (fun f => { f with consumed := f.consumed + 1 }) s))) ∧
  ∀ (fn : Nat) (cause : DiscardCause) (s : State), exec (.sprueWriteDiscarded fn cause) s =
    .next (onFn fn (fun f => { f with discarded := f.discarded + 1 }) s)

/-- Of what any message command does with its message: outside READY and ORPHAN no message is executed (from a stop notice on it waits in a slot that holds none, and is otherwise discarded and counted); a message with a bad CRC is answered MALFORMED, reason 1, with nothing else of it but its slot's consumption; one with a minor version above 2 so with NOT_SUPPORTED. A policed message whose tenant's bucket holds no token is counted at its function, with no session changed and no answer waiting there. A duplicate of a number in the window is answered as one and not carried out. -/
def Obligations.BadMessagesAreRefused : Prop :=
  (∀ (c : Instr) (m : Sprue) (body : State → State) (s : State), serving s = false →
    ((s.dev.code = .stopping ∨ s.dev.code = .stopped) → (∀ p ∈ (fnOf s m.fn).slots, p.1 ≠ m.slot) →
      takeMessage c m body s = onFn m.fn (fun f => { f with slots := f.slots ++ [(m.slot, c)] }) s) ∧
    (¬(s.dev.code = .stopping ∨ s.dev.code = .stopped) ∨ (∃ p ∈ (fnOf s m.fn).slots, p.1 = m.slot) →
      takeMessage c m body s = onFn m.fn (fun f => { f with discarded := f.discarded + 1 }) s)) ∧
  (∀ (c : Instr) (m : Sprue) (body : State → State) (s : State), serving s = true → msgCrcOk m = false →
    takeMessage c m body s = answerFn m.fn { tenant := msgTenant m, outcome := .malformed, opcode := msgOpcode m, d0 := 1, d1 := m.slot
                                             answers := true } (onFn m.fn (fun f => { f with consumed := f.consumed + 1 }) s)) ∧
  (∀ (c : Instr) (m : Sprue) (body : State → State) (s : State), serving s = true → msgCrcOk m = true → 2 < msgMinor m →
    takeMessage c m body s = refuseEarly m .notSupported 0 0 (onFn m.fn (fun f => { f with consumed := f.consumed + 1 }) s)) ∧
  (∀ (m : Sprue) (body : State → State) (s : State) (t : Tenant), opPoliced (msgOpcode m) = true → findTen s (msgTenant m) = some t →
    t.bucket < 1000000 → ∃ u, checkPolice m body s = u ∧ (fnOf u m.fn).policed = (fnOf s m.fn).policed + 1 ∧
      u.sess = s.sess ∧ (fnOf u m.fn).waiting = (fnOf s m.fn).waiting) ∧
  ∀ (m : Sprue) (body : State → State) (s : State) (e : WinEntry), windowVerdict (windowOf s (msgWin m)) (msgSeq m) = .duplicate e →
    checkWindow m body s = answerDuplicate m (some e) s

/-- A request that the mailbox takes, of the length its rule gives, is answered DONE with the report's page: IDENTIFY with the identity payload, HEALTH_READ of sections 1 to 10 with total length, next cursor and up to 4,064 bytes of the section, LOG_READ with the entries from the sequence number asked for, up to 127 of them. ATTEST with cursor 0 builds the report of its mode, holds it for the function and answers with its first page: total length, next cursor and up to 4,064 bytes. None of them changes anything but the functions, the signals sent and the number of free values drawn. -/
def Obligations.ReportRequestsAnswer : Prop :=
  (∀ (r : MbReq) (s : State), Ready r 0x01 s → r.length = 0 →
    ∃ t, exec (.identify r) s = .next t ∧ Answered r 0x01 .done (identifyPayload (mbTake r 0x01 0 s).2 r.fn) t ∧
      t = { s with fns := t.fns, outs := t.outs }) ∧
  (∀ (r : MbReq) (sect cursor : Nat) (s : State), Ready r 0x40 s → r.length = 8 → 1 ≤ sect → sect ≤ 10 →
    ∃ t, exec (.healthRead r sect cursor) s = .next t ∧
      Answered r 0x40 .done (leBytes 2 sect ++ zeros 2 ++ leBytes 4 (healthSection (mbTake r 0x40 sect s).2 sect).length ++
        leBytes 4 (pageFrom (healthSection (mbTake r 0x40 sect s).2 sect) cursor 4064).2 ++ zeros 4 ++
        (pageFrom (healthSection (mbTake r 0x40 sect s).2 sect) cursor 4064).1) t ∧
      t = { s with fns := t.fns, outs := t.outs, free := s.free + 1 }) ∧
  (∀ (r : MbReq) (start : Nat) (s : State), Ready r 0x41 s → r.length = 8 →
    ∃ t, exec (.logRead r start) s = .next t ∧
      Answered r 0x41 .done (leBytes 4 (((s.dev.log.filter fun e => start ≤ e.sequence).take 127).length) ++ zeros 4 ++
        leBytes 8 (logNextOf s ((s.dev.log.filter fun e => start ≤ e.sequence).take 127)) ++
        (((s.dev.log.filter fun e => start ≤ e.sequence).take 127).map logBytes).flatten) t ∧
      t = { s with fns := t.fns, outs := t.outs }) ∧
  (∀ (r : MbReq) (s : State), Ready r 0x20 s → r.length = 72 →
    ∃ t, exec (.attestChain r 0) s = .next t ∧ Answered r 0x20 .done (attestAnswer (certificateChain (mbTake r 0x20 0 s).2)) t ∧
      (fnOf t r.fn).attest = some { mode := 0, bytes := certificateChain (mbTake r 0x20 0 s).2 } ∧ t = { s with fns := t.fns, outs := t.outs, free := s.free + 1 }) ∧
  (∀ (r : MbReq) (nonce : Nat) (s : State), Ready r 0x20 s → r.length = 72 →
    ∃ t, exec (.attestNative r 0 nonce) s = .next t ∧ Answered r 0x20 .done (attestAnswer (nativeReport (mbTake r 0x20 1 s).2 r nonce)) t ∧
      (fnOf t r.fn).attest = some { mode := 1, bytes := nativeReport (mbTake r 0x20 1 s).2 r nonce } ∧
      t = { s with fns := t.fns, outs := t.outs, free := s.free + 1 }) ∧
  ∀ (r : MbReq) (nonce : Nat) (s : State), Ready r 0x20 s → r.length = 72 →
    ∃ t, exec (.attestSnirdaob r 0 nonce) s = .next t ∧ Answered r 0x20 .done (attestAnswer (snirdaobReport (mbTake r 0x20 2 s).2 r nonce)) t ∧
      (fnOf t r.fn).attest = some { mode := 2, bytes := snirdaobReport (mbTake r 0x20 2 s).2 r nonce } ∧
      t = { s with fns := t.fns, outs := t.outs, free := s.free + 1 }

/-- An ACCOUNT_READ of one tenant that the function may read, or of every such tenant (0xFFFF), is answered DONE with up to 15 records in ascending tenant number from the cursor, and sets the counters of the tenants it returned to zero unless it only peeks; their budgets, policing buckets, keys and settings stay, and nothing but tenants' counters, the functions and the signals changes. -/
def Obligations.AccountReadClears : Prop :=
  ∀ (r : MbReq) (tenant cursor : Nat) (peek : Bool) (named page : List Tenant) (s : State), Ready r 0x30 s → r.length = 16 →
    named = sortBy Tenant.id (s.tens.filter fun x => mayRead r.fn x && (tenant == 0xFFFF || x.id == tenant)) →
    page = (named.drop cursor).take 15 → (tenant = 0xFFFF ∨ named ≠ []) →
    ∃ t, exec (.accountRead r tenant peek cursor) s = .next t ∧
      Answered r 0x30 .done (leBytes 2 page.length ++ zeros 2 ++ leBytes 4 (if named.length ≤ cursor + 15 then 0 else cursor + 15) ++ zeros 8 ++
        (page.map accountBytes).flatten) t ∧
      (peek = true → t.tens = s.tens) ∧
      (peek = false → t.tens = s.tens.map fun x => if page.any (fun y => y.id == x.id) then { x with counters := {} } else x) ∧
      t = { s with fns := t.fns, outs := t.outs, tens := t.tens }

/-- A STAGE that names a partition, of items that are all consistent and within the limits of a set, adds its items behind those of the partition's open set, or opens one with the next set number, and is answered DONE with the count of items, at once where no hub follows; where one does, that answer waits for its acknowledgement; no other partition's set and no commit changes. A CHECK with cursor 0 of an open set lists every violation that the set would have after the commits already accepted, and is answered DONE when there is none and CHECK_FAILED otherwise. -/
def Obligations.StageAndCheckSets : Prop :=
  (∀ (r : MbReq) (items : List Item) (s : State), Ready r 0x10 s → r.partition < 4 → items ≠ [] → items.any isInconsistent = false →
    ((((findSet s r.partition).map OpenSet.items).getD []) ++ items).length ≤ 65536 →
    (((((findSet s r.partition).map OpenSet.items).getD []) ++ items).map Item.bytes).sum ≤ 16777216 →
    ∃ t, exec (.stage r items) s = .next t ∧
      (∃ o, findSet t r.partition = some o ∧ o.items = (((findSet s r.partition).map OpenSet.items).getD []) ++ items ∧
        o.number = ((findSet s r.partition).map OpenSet.number).getD s.stg.nextSet) ∧
      (∀ p, p ≠ r.partition → findSet t p = findSet s p) ∧ t.stg.commits = s.stg.commits ∧
      t.stg.nextSet = (if (findSet s r.partition).isSome then s.stg.nextSet else s.stg.nextSet + 1) ∧
      (hasFollower s = false →
        Answered r 0x10 .done (leBytes 4 ((((findSet s r.partition).map OpenSet.items).getD []) ++ items).length) t) ∧
      (hasFollower s = true → (fnOf t r.fn).mb.busy = true ∧ ∃ w, t.stg.mirrors = s.stg.mirrors ++ [w] ∧ w.q.fn = r.fn ∧
        w.outcome = .done ∧ w.payload = leBytes 4 ((((findSet s r.partition).map OpenSet.items).getD []) ++ items).length) ∧
      t = { s with fns := t.fns, outs := t.outs, stg := t.stg }) ∧
  ∀ (r : MbReq) (s : State) (o : OpenSet), Ready r 0x11 s → r.length = 4 → r.partition < 4 → findSet s r.partition = some o →
    ∃ t v, exec (.check r 0) s = .next t ∧ v = checkSet false (some r.partition) o.items (afterAccepted (mbTake r 0x11 0 s).2) ∧
      Answered r 0x11 (if v.isEmpty then .done else .checkFailed) (checkPayload { o with violations := v } 0) t ∧
      findSet t r.partition = some { o with violations := v } ∧ (∀ p, p ≠ r.partition → findSet t p = findSet s p) ∧
      t = { s with fns := t.fns, outs := t.outs, stg := t.stg }

/-- A COMMIT with the token of the partition's open set, no accepted commit of the partition waiting and no violation takes the next commit number, closes the set, and waits for its pour: the pour asked for, or the next to be issued where that has passed. A COMMIT with another token is answered COMMIT_CONFLICT and changes no set and no commit. A DISCARD drops the partition's open set, or its accepted commit, and no other. -/
def Obligations.CommitAndDiscardSets : Prop :=
  (∀ (r : MbReq) (pour : Nat) (s : State) (o : OpenSet), Ready r 0x12 s → r.length = 16 → r.partition < 4 → findSet s r.partition = some o →
    findCommit s r.partition = none → checkSet false (some r.partition) o.items (afterAccepted (mbTake r 0x12 0 s).2) = [] →
    ∃ t c, exec (.commit r (tokenOfSet o) pour) s = .next t ∧ t.stg.commits = s.stg.commits ++ [c] ∧ c.number = s.stg.nextCommit ∧
      c.partition = r.partition ∧ c.fn = r.fn ∧ c.items = o.items ∧ c.pour = max pour s.sched.next ∧
      t.stg.nextCommit = s.stg.nextCommit + 1 ∧ findSet t r.partition = none ∧ (∀ p, p ≠ r.partition → findSet t p = findSet s p) ∧
      (isComposition o.items = false → hasFollower s = false → Answered r 0x12 .done (commitAnswer c.number c.pour) t) ∧
      t = { s with fns := t.fns, outs := t.outs, stg := t.stg }) ∧
  (∀ (r : MbReq) (token pour : Nat) (s : State) (o : OpenSet), Ready r 0x12 s → r.length = 16 → r.partition < 4 →
    findSet s r.partition = some o → token ≠ tokenOfSet o →
    ∃ t, exec (.commit r token pour) s = .next t ∧ Answered r 0x12 .commitConflict [] t ∧ t = { s with fns := t.fns, outs := t.outs }) ∧
  (∀ (r : MbReq) (s : State) (o : OpenSet), Ready r 0x13 s → 1 ≤ r.length → r.partition < 4 → findSet s r.partition = some o →
    ∃ t, exec (.discardSet r) s = .next t ∧ findSet t r.partition = none ∧ (∀ p, p ≠ r.partition → findSet t p = findSet s p) ∧
      t.stg.commits = s.stg.commits ∧ (hasFollower s = false → Answered r 0x13 .done [] t) ∧
      t = { s with fns := t.fns, outs := t.outs, stg := t.stg }) ∧
  ∀ (r : MbReq) (s : State) (c : Commit), Ready r 0x13 s → 1 ≤ r.length → r.partition < 4 → findCommit s r.partition = some c →
    ∃ t, exec (.discardCommit r) s = .next t ∧ t.stg.commits = s.stg.commits.filter (fun k => k.number != c.number) ∧
      t.stg.sets = s.stg.sets ∧ (c.req = none → hasFollower s = false → Answered r 0x13 .done [] t) ∧ t = { s with fns := t.fns, outs := t.outs, stg := t.stg }

/-- While no update holds the NOR and no snapshot waits: PERSIST mode 0 waits for the boundary where one is to come, and otherwise writes the active image with the committed items into the inactive slot at once and makes it the next slot; PERSIST mode 1 and RECOVER action 1 write an image that verifies into the inactive slot (RECOVER into one that fails verification, where there is one) and make it the next slot, on trial, with the other slot as it was; one that does not verify, or cannot be read, leaves the NOR as it was and is answered CHECK_FAILED. RECOVER action 2 leaves no object of a namespace that may be formatted and every other that is not deleted, erases its groups that are not retired, clears its read-only mark and writes a journal base on every hub. RECOVER action 3, in SAFE_TALK, leaves one fresh health record, with no owner's key and no tenant keys. Each that is carried out is answered DONE. -/
def Obligations.PersistAndRecoverWriteTheNor : Prop :=
  (∀ (r : MbReq) (s : State), Ready r 0x14 s → r.length = 24 → norHeld s = false → s.stg.persists = [] →
    (boundaryAhead s = true → ∃ t, exec (.persistState r) s = .next t ∧ t.stg.persists = [(mbTake r 0x14 0 s).1] ∧ t.nor = s.nor ∧
      (fnOf t r.fn).mb.busy = true ∧ t = { s with fns := t.fns, stg := { s.stg with persists := t.stg.persists } }) ∧
    (∀ im, boundaryAhead s = false → s.dev.image = some im → ∃ t, exec (.persistState r) s = .next t ∧ Answered r 0x14 .done [] t ∧
      slotImage t (otherSlot s.dev.slot) = some { im with staged := some { cmacOk := true, commit := s.stg.lastDone, items := s.stg.committed } } ∧
      slotImage t s.dev.slot = slotImage s s.dev.slot ∧
      (∀ h, hrGoverning s.nor = some h → ∃ k, hrGoverning t.nor = some k ∧ k.nextSlot = otherSlot s.dev.slot ∧ k.trial = h.trial ∧
        k.keys = h.keys ∧ k.owner = h.owner ∧ k.serialEnd = h.serialEnd) ∧
      t.nor.fuses = s.nor.fuses ∧ t = { s with fns := t.fns, outs := t.outs, nor := t.nor })) ∧
  (∀ (r : MbReq) (s : State), Ready r 0x14 s → r.length = 24 → norHeld s = false → s.stg.persists = [] →
    (∀ im, verifies s im = true → ∃ t, exec (.persistImage r (some im)) s = .next t ∧ Answered r 0x14 .done [] t ∧
      slotImage t (otherSlot s.dev.slot) = some im ∧ slotImage t s.dev.slot = slotImage s s.dev.slot ∧
      (∀ h, hrGoverning s.nor = some h → ∃ k, hrGoverning t.nor = some k ∧ k.nextSlot = otherSlot s.dev.slot ∧ k.trial = true ∧ k.keys = h.keys) ∧
      t = { s with fns := t.fns, outs := t.outs, nor := t.nor }) ∧
    ∀ img, (∀ im, img = some im → verifies s im = false) → ∃ t, exec (.persistImage r img) s = .next t ∧ Answered r 0x14 .checkFailed [] t ∧
      t = { s with fns := t.fns, outs := t.outs }) ∧
  (∀ (r : MbReq) (s : State), Ready r 0x70 s → r.length = 24 → norHeld s = false → s.stg.persists = [] →
    (∀ im, verifies s im = true → ∃ t, exec (.recoverImage r (some im)) s = .next t ∧ Answered r 0x70 .done [] t ∧
      slotImage t (recoverSlot s) = some im ∧ slotImage t (otherSlot (recoverSlot s)) = slotImage s (otherSlot (recoverSlot s)) ∧
      (slotOk s (slotImage s (recoverSlot s)) = true → recoverSlot s = otherSlot s.dev.slot) ∧
      (∀ h, hrGoverning s.nor = some h → ∃ k, hrGoverning t.nor = some k ∧ k.nextSlot = recoverSlot s ∧ k.trial = true ∧ k.keys = h.keys) ∧
      t = { s with fns := t.fns, outs := t.outs, nor := t.nor }) ∧
    ∀ img, (∀ im, img = some im → verifies s im = false) → ∃ t, exec (.recoverImage r img) s = .next t ∧ Answered r 0x70 .checkFailed [] t ∧
      t = { s with fns := t.fns, outs := t.outs }) ∧
  (∀ (r : MbReq) (ns : Nat) (s : State), Ready r 0x70 s → r.length = 24 → norHeld s = false → s.stg.persists = [] → ns < 4 →
    mayFormat ns s = true →
    ∃ t, exec (.recoverFormat r ns) s = .next t ∧ Answered r 0x70 .done [] t ∧ (∀ o ∈ t.store.objs, o.ns ≠ ns) ∧
      (∀ o ∈ s.store.objs, o.ns ≠ ns → o.deleted = false → ∃ k ∈ t.store.objs, k = { o with trimSafe := k.trimSafe }) ∧
      t.store.groups = s.store.groups.map (fun g => if g.ns = ns ∧ g.state ≠ .retired then
        ({ hub := g.hub, num := g.num, ns := g.ns, erases := g.erases + 1 } : Group) else g) ∧
      (∀ x ∈ t.store.nss, x.num = ns → x.readOnly = false) ∧
      (∀ k x, k < hubCount s.part → t.store.hubs[k]? = some x → x.unflushed = [] ∧ x.flushed = [] ∧ x.base = x.flushedPages) ∧
      t = { s with fns := t.fns, outs := t.outs, store := t.store }) ∧
  ∀ (r : MbReq) (s : State), Ready r 0x70 s → r.length = 24 → norHeld s = false → s.dev.code = .safeTalk →
    ∃ t h, exec (.recoverHealthRecord r) s = .next t ∧ Answered r 0x70 .done [] t ∧ t.nor = { s.nor with copy0 := .valid h, copy1 := .erased } ∧
      h.keys = [] ∧ h.owner = none ∧ h.nextSlot = 0 ∧ h.trial = false ∧ t = { s with fns := t.fns, outs := t.outs, nor := t.nor }

/-- From READY or ORPHAN a SHUTDOWN of action 0, 1 or 4 and a PREEMPT of kind stop begin a stop: with a checkpoint possible the device is STOPPING, the commits not applied are gone, the request is among those to be answered, and a stop checkpoint with the next number has begun, not yet cut. In STOPPING a SHUTDOWN of one of them joins the stop in progress; in STOPPED actions 0 and 1 are answered DONE with the number of the checkpoint that led there and 0 for no self-test run; and in a start one is held until step 10. Action 3 is answered DONE, before it makes a serving reset. Action 2 on a TSN-8840 that serves with a follower and an image on trial begins a hub roll for the request: the following hub's cores restart, from that slot; in every other case it is answered MALFORMED with reason 3. A PREEMPT of kind live begins a live checkpoint where none is in progress. -/
def Obligations.ShutdownRequestsAct : Prop :=
  (∀ (r : MbReq) (s : State), Ready r 0x50 s → r.length = 16 → serving s = true → s.chk.now = none → unprotected s = false →
    (∃ t, exec (.shutdownSelfTest r) s = .next t ∧ t.dev.code = .stopping ∧ t.stg.commits = [] ∧
      (∃ k, t.dev.stop = some k ∧ k.orderly = true ∧ k.selfTest = true ∧ k.thenReset = false ∧ k.answers.map Open.fn = [r.fn]) ∧
      ∃ c, t.chk.now = some c ∧ c.number = s.chk.nextNumber ∧ c.stop = true ∧ c.cut = false) ∧
    (∃ t, exec (.shutdownOrderly r) s = .next t ∧ t.dev.code = .stopping ∧ t.stg.commits = [] ∧
      (∃ k, t.dev.stop = some k ∧ k.orderly = true ∧ k.selfTest = false ∧ k.thenReset = false ∧ k.answers.map Open.fn = [r.fn]) ∧
      ∃ c, t.chk.now = some c ∧ c.number = s.chk.nextNumber ∧ c.stop = true ∧ c.cut = false) ∧
    ∃ t, exec (.shutdownPackageReset r) s = .next t ∧ t.dev.code = .stopping ∧ t.stg.commits = [] ∧
      (∃ k, t.dev.stop = some k ∧ k.orderly = true ∧ k.selfTest = false ∧ k.thenReset = true ∧ k.answers.map Open.fn = [r.fn]) ∧
      ∃ c, t.chk.now = some c ∧ c.number = s.chk.nextNumber ∧ c.stop = true ∧ c.cut = false) ∧
  (∀ (r : MbReq) (s : State) (k : Stop) (c : Instr) (selfTest thenReset : Bool), Ready r 0x50 s → r.length = 16 → s.dev.code = .stopping →
    s.dev.stop = some k → ((c = .shutdownSelfTest r ∧ selfTest = true ∧ thenReset = false) ∨ (c = .shutdownOrderly r ∧ selfTest = false ∧ thenReset = false) ∨
      (c = .shutdownPackageReset r ∧ selfTest = false ∧ thenReset = true)) →
    ∃ t j, exec c s = .next t ∧ t.dev = { s.dev with stop := some j } ∧ j.answers.map Open.fn = k.answers.map Open.fn ++ [r.fn] ∧ j.orderly = true ∧
      j.selfTest = (k.selfTest || selfTest) ∧ j.thenReset = (k.thenReset || thenReset) ∧ t = { s with fns := t.fns, dev := t.dev }) ∧
  (∀ (r : MbReq) (s : State) (c : Instr), Ready r 0x50 s → r.length = 16 → s.dev.code = .stopped → (c = .shutdownSelfTest r ∨ c = .shutdownOrderly r) →
    ∃ t, exec c s = .next t ∧ Answered r 0x50 .done (leBytes 8 (lastStopNumber s) ++ leBytes 1 0) t ∧ t = { s with fns := t.fns, outs := t.outs }) ∧
  (∀ (r : MbReq) (s : State) (c : Instr), mbEarly s = false → (fnOf s r.fn).mb.busy = false → r.minor ≤ 2 → isPhys r.fn = true → r.length = 16 →
    (s.dev.code = .starting ∨ s.dev.code = .selfTest) →
    (c = .shutdownSelfTest r ∨ c = .shutdownOrderly r ∨ c = .shutdownPackageReset r ∨ c = .shutdownServingReset r ∨ c = .hubRoll r) →
    ∃ t q, exec c s = .next t ∧ t.dev = { s.dev with heldShut := s.dev.heldShut ++ [q] } ∧ q.fn = r.fn ∧ (fnOf t r.fn).mb.busy = true ∧
      t = { s with fns := t.fns, dev := t.dev }) ∧
  (∀ (r : MbReq) (s : State), Ready r 0x51 s → r.length = 16 → serving s = true → s.chk.now = none → unprotected s = false →
    (∃ t, exec (.preemptStop r) s = .next t ∧ t.dev.code = .stopping ∧ t.stg.commits = [] ∧
      ∃ c, t.chk.now = some c ∧ c.number = s.chk.nextNumber ∧ c.stop = true ∧ c.cut = false ∧ c.askers = [.mailbox (mbTake r 0x51 1 s).1]) ∧
    ∃ t, exec (.preemptLive r) s = .next t ∧ t.dev = s.dev ∧ t.sess = s.sess ∧
      ∃ c, t.chk.now = some c ∧ c.number = s.chk.nextNumber ∧ c.stop = false ∧ c.askers = [.mailbox (mbTake r 0x51 2 s).1]) ∧
  (∀ (r : MbReq) (s : State), Ready r 0x50 s → r.length = 16 → exec (.shutdownServingReset r) s =
    .next (servingReset (answerMb (mbTake r 0x50 3 s).1 .done [] (mbTake r 0x50 3 s).2))) ∧
  (∀ (r : MbReq) (s : State), Ready r 0x50 s → r.length = 16 →
    (rollSlot s = none ∨ s.part ≠ .tsn8840 ∨ serving s = false ∨ hasFollower s = false ∨ s.dev.roll ≠ none) →
    ∃ t, exec (.hubRoll r) s = .next t ∧ Answered r 0x50 .malformed (leBytes 8 3) t ∧ t = { s with fns := t.fns, outs := t.outs }) ∧
  ∀ (r : MbReq) (n : Nat) (s : State), Ready r 0x50 s → r.length = 16 → s.part = .tsn8840 → serving s = true → hasFollower s = true →
    s.dev.roll = none → rollSlot s = some n →
    ∃ t k, exec (.hubRoll r) s = .next t ∧ t.dev.roll = some k ∧ k.step = 1 ∧ k.hub = otherHub s.dev.leading ∧ k.req = (mbTake r 0x50 2 s).1 ∧
      (k.hub < s.dev.hubs.length → (hubOf t k.hub).restarting = true ∧ (hubOf t k.hub).image = n) ∧
      t.dev.leading = s.dev.leading ∧ t.sess = s.sess ∧ t.dev.code = s.dev.code

/-- A TAP_SETUP of a function without a ring, at a base on 4 KiB and of 2^10 to 2^20 records, gives it the ring, with nothing of the device, tenants, pours, store and links changed. A VECTOR_SET of vector 0 or 3 to 2,047 with c of 1 to 65,536 and i of at most 1,000,000 µs sets that vector and no other. Each is answered DONE. An operation that Table 3-16 does not list is answered NOT_SUPPORTED, and a listed one with an action that its rule does not list MALFORMED (the model's reading, log entry 14), with nothing done, where the mailbox is free and past step 5 of a start. -/
def Obligations.TapRequestsAct : Prop :=
  (∀ (r : MbReq) (base logSize : Nat) (s : State), Ready r 0x60 s → r.length = 16 → (fnOf s r.fn).ring = none → base % 4096 = 0 →
    10 ≤ logSize → logSize ≤ 20 →
    ∃ t, exec (.tapSetup r base logSize) s = .next t ∧ Answered r 0x60 .done [] t ∧ (fnOf t r.fn).ring = some (base, logSize) ∧
      t.dev = s.dev ∧ t.tens = s.tens ∧ t.sched = s.sched ∧ t.store = s.store ∧ t.links = s.links) ∧
  (∀ (r : MbReq) (vector count interval : Nat) (s : State), Ready r 0x61 s → r.length = 12 →
    (vector = 0 ∨ (3 ≤ vector ∧ vector ≤ 2047)) → 1 ≤ count → count ≤ 65536 → interval ≤ 1000000 →
    ∃ t, exec (.vectorSet r vector count interval) s = .next t ∧ Answered r 0x61 .done [] t ∧
      vecCfg (fnOf t r.fn) vector = { vector := vector, count := count, interval := interval } ∧
      (∀ v, v ≠ vector → vecCfg (fnOf t r.fn) v = vecCfg (fnOf s r.fn) v) ∧ (∀ fn, fn ≠ r.fn → fnOf t fn = fnOf s fn) ∧
      t = { s with fns := t.fns, outs := t.outs }) ∧
  (∀ (r : MbReq) (op sub : Nat) (s : State), mbEarly s = false → (fnOf s r.fn).mb.busy = false → listedOp op = false →
    ∃ t, exec (.unknownOperation r op sub) s = .next t ∧ Answered r op .notSupported [] t ∧ t = { s with fns := t.fns, outs := t.outs }) ∧
  ∀ (r : MbReq) (op sub : Nat) (s : State), Ready r op s →
    ∃ t, exec (.unknownOperation r op sub) s = .next t ∧ Answered r op .malformed [] t ∧ t = { s with fns := t.fns, outs := t.outs }

/-- While a request is being carried out (BUSY set), and before step 5 of a start, every mailbox request only sets REJECTED: for each mailbox command the next state differs in that bit of the sender's mailbox alone. -/
def Obligations.BusyMailboxRejects : Prop :=
  ∀ (c : Instr) (r : MbReq) (s : State), (mbEarly s = true ∨ (fnOf s r.fn).mb.busy = true) →
    ((∃ a, c = .stage r a) ∨ (∃ a, c = .check r a) ∨ (∃ a b, c = .commit r a b) ∨ c = .discardSet r ∨ c = .discardCommit r ∨ c = .persistState r ∨
      (∃ a, c = .persistImage r a) ∨ c = .identify r ∨ (∃ a, c = .attestChain r a) ∨ (∃ a b, c = .attestNative r a b) ∨
      (∃ a b, c = .attestSnirdaob r a b) ∨ (∃ a b d, c = .accountRead r a b d) ∨ (∃ a b, c = .healthRead r a b) ∨ (∃ a, c = .logRead r a) ∨
      c = .shutdownSelfTest r ∨ c = .shutdownOrderly r ∨ c = .hubRoll r ∨ c = .shutdownServingReset r ∨ c = .shutdownPackageReset r ∨
      c = .preemptStop r ∨ c = .preemptLive r ∨ (∃ a b, c = .tapSetup r a b) ∨ (∃ a b d, c = .vectorSet r a b d) ∨
      (∃ a, c = .recoverImage r a) ∨ (∃ a, c = .recoverFormat r a) ∨ c = .recoverHealthRecord r ∨ (∃ a b, c = .unknownOperation r a b)) →
    exec c s = .next (onFn r.fn (fun f => { f with mb := { f.mb with rejected := true } }) s)

/-- Clearing DONE and REJECTED, directly or by a write of MB_CTRL at offset 0x220 with GO 0, changes those bits of the function's mailbox alone. A write of MB_CTRL with GO 1 clears what it names and submits a request area of zeros (the model's reading, log entry 180): it sets REJECTED where the mailbox is busy or a start is before step 5, and is answered NOT_SUPPORTED otherwise. A write of a vector's control word (and whatever stands beside it in its eight bytes) masks the vector, or unmasks it and, where its pending bit is set, clears the bit and fires it; a write elsewhere in the vector table changes the table's words alone. A write into the sprue window that is no whole slot is counted as discarded; every other register write changes nothing. A function-level reset empties the slots, the consumed count, the ring, the window, the vector settings, the held result and the mailbox of its function, and leaves the tap positions, the records that wait and every other function. -/
def Obligations.RegisterWritesAct : Prop :=
  (∀ (fn : Nat) (done rejected : Bool) (s : State),
    ∃ t, exec (.mbCtrlClear fn done rejected) s = .next t ∧ t = { s with fns := t.fns } ∧ (∀ j, j ≠ fn → fnOf t j = fnOf s j) ∧
      fnOf t fn = { fnOf s fn with
        id := fn, mb := { (fnOf s fn).mb with done := (fnOf s fn).mb.done && !done, rejected := (fnOf s fn).mb.rejected && !rejected } }) ∧
  (∀ (fn value : Nat) (s : State), value.testBit 0 = false →
    exec (.registerWrite fn 0 0x220 value) s = exec (.mbCtrlClear fn (value.testBit 2) (value.testBit 3)) s) ∧
  (∀ (fn value : Nat) (s u : State), value.testBit 0 = true → exec (.mbCtrlClear fn (value.testBit 2) (value.testBit 3)) s = .next u →
    ((mbEarly s = true ∨ (fnOf s fn).mb.busy = true) → exec (.registerWrite fn 0 0x220 value) s =
      .next (onFn fn (fun f => { f with mb := { f.mb with rejected := true } }) u)) ∧
    (mbEarly s = false → (fnOf s fn).mb.busy = false → ∃ t, exec (.registerWrite fn 0 0x220 value) s = .next t ∧
      (fnOf t fn).mb.busy = false ∧ (fnOf t fn).mb.done = true ∧
      (fnOf t fn).mb.response = some { outcome := .notSupported, op := 0, tag := 0, payload := [] } ∧ t = { s with fns := t.fns, outs := t.outs })) ∧
  (∀ (fn v value : Nat) (s : State), v < 2048 → value.testBit 32 = true →
    ∃ t, exec (.registerWrite fn 0 (0x8000 + 16 * v + 8) value) s = .next t ∧ v ∈ (fnOf t fn).masked ∧ (fnOf t fn).pba = (fnOf s fn).pba ∧
      (∀ j, j ≠ fn → fnOf t j = fnOf s j) ∧ t = { s with fns := t.fns }) ∧
  (∀ (fn v value : Nat) (s : State), v < 2048 → value.testBit 32 = false →
    ∃ t, exec (.registerWrite fn 0 (0x8000 + 16 * v + 8) value) s = .next t ∧ v ∉ (fnOf t fn).masked ∧ v ∉ (fnOf t fn).pba ∧
      t.outs.signals = s.outs.signals ++ (if v ∈ (fnOf s fn).pba then [(fn, v)] else []) ∧
      (∀ j, j ≠ fn → fnOf t j = fnOf s j) ∧ t = { s with fns := t.fns, outs := t.outs }) ∧
  (∀ (fn offset value : Nat) (s : State), 0x8000 ≤ offset → offset < 0x10000 → offset % 16 ≠ 8 →
    ∃ t, exec (.registerWrite fn 0 offset value) s = .next t ∧ t = { s with fns := t.fns } ∧ (∀ j, j ≠ fn → fnOf t j = fnOf s j) ∧
      fnOf t fn = { fnOf s fn with id := fn, msixTable := setCount (fnOf s fn).msixTable (offset - 0x8000) value }) ∧
  (∀ (fn offset value : Nat) (s : State),
    exec (.registerWrite fn 2 offset value) s = .next (onFn fn (fun f => { f with discarded := f.discarded + 1 }) s)) ∧
  (∀ (fn bar offset value : Nat) (s : State), bar ≠ 2 → (bar = 0 → offset ≠ 0x220 ∧ (offset < 0x8000 ∨ 0x10000 ≤ offset)) →
    exec (.registerWrite fn bar offset value) s = .next s) ∧
  ∀ (fn : Nat) (s : State),
    ∃ t, exec (.functionLevelReset fn) s = .next t ∧ t = { s with fns := t.fns } ∧ (∀ j, j ≠ fn → fnOf t j = fnOf s j) ∧
      fnOf t fn = { fnOf s fn with
        id := fn, slots := [], consumed := 0, ring := none, window := {}, vectors := [], attest := none, mb := { gen := (fnOf s fn).mb.gen + 1 } }

/-- A host link that falls while another is up leaves the device state, SAFE_N, the security state, the part and the fuses; the last one that falls, with no region of host memory behind it in use, takes a READY package to ORPHAN, where the orphan allowance is not 0, and changes nothing else but that link, its functions and signals. A link that comes up with PERST_N released is up, and takes a package in ORPHAN back to READY; the records that wait for its functions are written as far as they fit, and nothing else changes but those functions, their signals and the windows of sessions. -/
def Obligations.HostLinksFallAndReturn : Prop :=
  (∀ (link : Nat) (perst : Bool) (s : State), link < linkCount s.part → (∀ im, s.dev.image = some im → im.board.orphanUs ≠ 0) →
    (s.dev.linkUp.set link false).any id = true →
    ∃ t, exec (.hostLinkDown link perst) s = .next t ∧ t.dev.code = s.dev.code ∧ t.pins.safeLow = s.pins.safeLow ∧ t.sec = s.sec ∧
      t.part = s.part ∧ t.nor.fuses = s.nor.fuses) ∧
  (∀ (link : Nat) (perst : Bool) (s : State), link < linkCount s.part → s.dev.code = .ready →
    s.tiers.hRegions.any (fun r => r.link == link && !r.failed && decide (0 < r.length)) = false →
    (∀ im, s.dev.image = some im → im.board.orphanUs ≠ 0) → (s.dev.linkUp.set link false).any id = false →
    ∃ t, exec (.hostLinkDown link perst) s = .next t ∧ t.dev = { s.dev with code := .orphan, linkUp := s.dev.linkUp.set link false } ∧
      t = { s with dev := t.dev, pins := t.pins, fns := t.fns, outs := t.outs }) ∧
  (∀ (link : Nat) (s : State), link < linkCount s.part → s.pins.powerGood = true →
    ∃ t, exec (.hostLinkUp link false) s = .next t ∧
      t.dev = { s.dev with code := if s.dev.code = .orphan then .ready else s.dev.code, linkUp := s.dev.linkUp.set link true } ∧
      t.pins.perst = s.pins.perst.set link false ∧
      t = { s with dev := t.dev, pins := t.pins, fns := t.fns, outs := t.outs, sess := t.sess })

/-- PREEMPT_N read high for its time after power good is armed. Armed and low for at least 1 µs, or VAUX below 1.76 V for 1 µs where the board description turns the supply monitor on, it is a stop notice: from READY or ORPHAN, with a checkpoint possible and none in progress, the device is STOPPING, the commits not applied are gone and a stop checkpoint with the next number has begun. PREEMPT_N low and not armed is only logged. -/
def Obligations.BoardNoticesStop : Prop :=
  (∀ s : State, s.pins.powerGood = true → exec .preemptNArmed s = .next { s with pins := { s.pins with armed := true } }) ∧
  (∀ (c : Instr) (s : State), s.pins.powerGood = true → serving s = true → s.chk.now = none → unprotected s = false →
    ((∃ n, c = .preemptNAssert n ∧ 1000 ≤ n ∧ s.pins.armed = true) ∨
      ∃ mv n im, c = .vauxWarning mv n ∧ mv < 1760 ∧ 1000 ≤ n ∧ s.dev.image = some im ∧ im.board.supplyMonitor = true) →
    ∃ t k, exec c s = .next t ∧ t.dev.code = .stopping ∧ t.stg.commits = [] ∧ t.chk.now = some k ∧ k.number = s.chk.nextNumber ∧ k.stop = true ∧
      k.cut = false ∧ k.askers = [.device] ∧ t.chk.nextNumber = s.chk.nextNumber + 1 ∧ t.nor.fuses = s.nor.fuses ∧ t.sec = s.sec) ∧
  (∀ (n : Nat) (s : State), s.pins.powerGood = true → 1000 ≤ n → s.pins.armed = false →
    ∃ t, exec (.preemptNAssert n) s = .next t ∧ t.dev.logNext = s.dev.logNext + 1 ∧ (t.dev.log.getLast?.map LogEntry.data) = some n ∧
      t = { s with dev := { s.dev with log := t.dev.log, logNext := t.dev.logNext, logOldest := t.dev.logOldest }, free := s.free + 1 }) ∧
  ∀ (mv n : Nat) (s : State), 1760 ≤ mv → exec (.vauxWarning mv n) s = .next s

/-- WARM_RST_N low for 10 ms or more on a powered package is a package reset: STARTING at step 1 with power good to come again, no session, tenant, model or pour, every meter at zero; the NOR with its fuses, the store's objects (with the trims that flushed journal records hold) and groups, the checkpoint slots and the anchor log, and the unlock count stay. A supply rail out of its range, within its rating, on a powered package does the same. WARM_RST_N low for 1 µs to under 10 ms is a serving reset: from READY, ORPHAN or STOPPING the package comes back to READY where a host link is up, and otherwise to ORPHAN (or STOPPING, where the orphan allowance is 0), and the security state and the fuses stay; in STARTING from step 5 on, sets, commits and mailbox requests are dropped and the start begins again at step 5; in SELF_TEST they are dropped and the self-test goes on; in SAFE_TALK, in STOPPED and in STARTING before step 5 it does nothing. -/
def Obligations.PackageResetKeepsTheDurable : Prop :=
  (∀ (c : Instr) (s : State), s.pins.powerGood = true →
    ((∃ n, c = .packageReset n ∧ 10000000 ≤ n) ∨
      ∃ rail mv, c = .railOutOfRange rail mv ∧ railFitted s.part rail = true ∧ withinRating rail mv = true ∧ railFits s rail mv = false) →
    ∃ t, exec c s = .next t ∧ t.dev.code = .starting ∧ t.dev.step = 1 ∧ t.pins.powerGood = false ∧ t.pins.safeLow = false ∧ t.sess = [] ∧
      t.tens = [] ∧ t.models = [] ∧ t.sched = {} ∧ (∀ m ∈ t.dev.meters, m.ns = 0) ∧ t.nor = s.nor ∧
      (∀ o ∈ s.store.objs, ∃ k ∈ t.store.objs, k = { o with deleted := k.deleted, trimmed := o.trimSafe } ∧ (o.deleted = false → k.deleted = false)) ∧
      t.store.groups = s.store.groups ∧ t.chk.slot0 = s.chk.slot0 ∧ t.chk.slot1 = s.chk.slot1 ∧ t.chk.anchors = s.chk.anchors ∧
      t.sec.unlocks = s.sec.unlocks ∧ t.sec.open_ = false ∧ t.part = s.part) ∧
  (∀ (n : Nat) (s : State), 1000 ≤ n → n < 10000000 → s.pins.powerGood = true →
    (s.dev.code = .ready ∨ s.dev.code = .orphan ∨ s.dev.code = .stopping) →
    ∃ t, exec (.servingReset n) s = .next t ∧ (s.dev.linkUp.any id = true → t.dev.code = .ready) ∧
      (s.dev.linkUp.any id = false → t.dev.code = .orphan ∨ t.dev.code = .stopping) ∧ t.sec = s.sec ∧
      t.nor.fuses = s.nor.fuses ∧ t.part = s.part) ∧
  (∀ (n : Nat) (s : State), 1000 ≤ n → n < 10000000 → s.pins.powerGood = true → s.dev.code = .starting → 5 ≤ s.dev.step →
    ∃ t, exec (.servingReset n) s = .next t ∧
      t.dev = { s.dev with step := 5, stop := none, roll := none, heldShut := [] } ∧ t.stg.sets = [] ∧ t.stg.commits = [] ∧
      (∀ f ∈ t.fns, f.mb.busy = false ∧ f.attest = none) ∧
      t = { s with dev := t.dev, fns := t.fns, stg := t.stg, rack := t.rack, cores := {} }) ∧
  (∀ (n : Nat) (s : State), 1000 ≤ n → n < 10000000 → s.pins.powerGood = true → s.dev.code = .selfTest →
    ∃ t, exec (.servingReset n) s = .next t ∧ t.dev = { s.dev with stop := none, roll := none, heldShut := [] } ∧ t.stg.sets = [] ∧
      t.stg.commits = [] ∧ (∀ f ∈ t.fns, f.mb.busy = false ∧ f.attest = none) ∧
      t = { s with dev := t.dev, fns := t.fns, stg := t.stg, rack := t.rack, cores := {} }) ∧
  ∀ (n : Nat) (s : State), (s.dev.code = .safeTalk ∨ s.dev.code = .stopped ∨ (s.dev.code = .starting ∧ s.dev.step < 5)) →
    exec (.servingReset n) s = .next s

/-- Power good in STARTING with the NOR readable and a governing health record runs steps 2 to 5 from the first slot that verifies of the record's next slot (its good slot, after a failed trial) and the other one: the block of serials above the record's end is reserved, the record is rewritten with its flags clear, and every hub's firmware is of that slot; then the self-test begins, or, where both flags were set, the start goes on past it. Where no valid record or no valid slot is found the package is in SAFE_TALK. Where hub A cannot read the NOR, a TSN-8840 waits at step 2 until hub B takes the NOR over and leads the same start; a TSN-4420 is in SAFE_TALK. -/
def Obligations.PowerGoodStartsThePackage : Prop :=
  (∀ (obs : StartObs) (s : State) (r : HealthRec) (im : Image) (slot first : Nat), s.dev.code = .starting → obs.norReadable = true →
    hrGoverning s.nor = some r → first = (if r.trial && r.tried then r.goodSlot else r.nextSlot) → slotImage s slot = some im →
    slotOk s (some im) = true → (slot = first ∨ (slot = otherSlot first ∧ slotOk s (slotImage s first) = false)) →
    (s.pins.powerGood = false → (r.clean && r.selfPassed) = true →
      ∃ u, exec (.powerGood obs) s = .next (completeStart obs u) ∧ u.dev.step = 5 ∧ u.pins.powerGood = true ∧ u.dev.image = some im ∧
        u.dev.slot = slot ∧ u.dev.nextSerial = r.serialEnd + 1 ∧ u.nor.fuses = s.nor.fuses ∧ (∀ h ∈ u.dev.hubs, h.image = slot) ∧ u.sess = s.sess ∧
        ∃ h, hrGoverning u.nor = some h ∧ h.serialEnd = r.serialEnd + 16777216 ∧ h.clean = false ∧ h.selfPassed = false) ∧
    (s.pins.powerGood = false → (r.clean && r.selfPassed) = false →
      ∃ t, exec (.powerGood obs) s = .next t ∧ t.dev.code = .selfTest ∧ t.dev.step = 6 ∧ t.pins.powerGood = true ∧ t.dev.image = some im ∧
        t.dev.slot = slot ∧ t.dev.nextSerial = r.serialEnd + 1 ∧ t.dev.serialEnd = r.serialEnd + 16777216 ∧
        (∃ h, hrGoverning t.nor = some h ∧ h.serialEnd = r.serialEnd + 16777216 ∧ h.clean = false ∧ h.selfPassed = false ∧
          h.sequence = r.sequence + 1) ∧ t.nor.fuses = s.nor.fuses ∧ (∀ h ∈ t.dev.hubs, h.image = slot) ∧ t.sess = s.sess) ∧
    (s.pins.powerGood = true → (r.clean && r.selfPassed) = false → s.part = .tsn8840 → s.dev.step = 2 → s.sec.serveNot = false →
      ∃ t, exec (.norTakeoverHubB obs) s = .next t ∧ t.dev.code = .selfTest ∧ t.dev.step = 6 ∧ t.dev.leading = 1 ∧ t.dev.image = some im ∧
        t.dev.slot = slot ∧ t.dev.nextSerial = r.serialEnd + 1 ∧ t.nor.fuses = s.nor.fuses)) ∧
  (∀ (obs : StartObs) (s : State), s.dev.code = .starting → s.pins.powerGood = false → obs.norReadable = true →
    (hrGoverning s.nor = none ∨ ∃ r, hrGoverning s.nor = some r ∧ slotOk s s.nor.slotA = false ∧ slotOk s s.nor.slotB = false) →
    ∃ t, exec (.powerGood obs) s = .next t ∧ t.dev.code = .safeTalk ∧ t.pins.safeLow = true ∧ t.nor = s.nor) ∧
  (∀ (obs : StartObs) (s : State), s.dev.code = .starting → s.pins.powerGood = false → obs.norReadable = false →
    ∃ t, exec (.powerGood obs) s = .next t ∧ t.pins.powerGood = true ∧ t.dev.step = 2 ∧
      t.dev.code = (if s.part = .tsn8840 then .starting else .safeTalk)) ∧
  ∀ (obs : StartObs) (s : State), s.dev.code = .starting → s.pins.powerGood = true → s.dev.step = 2 → s.part = .tsn8840 → s.sec.serveNot = false →
    obs.norReadable = false → ∃ t, exec (.norTakeoverHubB obs) s = .next t ∧ t.dev.code = .safeTalk ∧ t.dev.leading = 1

/-- A self-test of a start ends with its findings, and those that the last shutdown recorded, logged and acted on; where no hub or no SC die is left the package is in SAFE_TALK, and otherwise steps 7 to 10 run. Step 10 of a start with nothing held and a host link up ends in READY with the fuses raised to the image's security version. The self-test of an orderly shutdown whose checkpoint has ended closes the stop: its findings are in the health record, and every SHUTDOWN is answered DONE with the checkpoint's number and 1 or 2 for a test passed or failed; the device is STOPPED, or STARTING where a package reset was asked for. -/
def Obligations.SelfTestEndGoesOn : Prop :=
  (∀ (findings : List Finding) (obs : StartObs) (s u : State), s.dev.code = .selfTest →
    u = applyFindings ((((hrGoverning s.nor).map HealthRec.findings).getD []) ++ findings) (hrRewrite (fun h => { h with findings := [] }) s) →
    (fatalNow u = true → ∃ t, exec (.selfTestEnd findings obs) s = .next t ∧ t.dev.code = .safeTalk ∧ t.pins.safeLow = true) ∧
    (fatalNow u = false → exec (.selfTestEnd findings obs) s = .next (completeStart obs (settleLead u)))) ∧
  (∀ u : State, u.dev.heldShut = [] → u.dev.heldStop = [] → u.dev.linkUp.any id = true →
    (finishStart u).dev.code = .ready ∧ (finishStart u).pins.safeLow = (if u.dev.code = .ready then u.pins.safeLow else false) ∧
      (finishStart u).nor.fuses = max u.nor.fuses ((u.dev.image.map Image.securityVersion).getD 0)) ∧
  ∀ (findings : List Finding) (obs : StartObs) (s : State) (k : Stop), s.dev.code = .stopping → s.dev.stop = some k →
    k.selfTest = true → k.ckptDone = true → k.parks = false → k.orderly = true → (k.answers.map Open.fn).Nodup →
    ∃ t, exec (.selfTestEnd findings obs) s = .next t ∧ t.dev.code = (if k.thenReset then .starting else .stopped) ∧ t.dev.stop = none ∧
      (k.thenReset = false → ∀ q ∈ k.answers, (fnOf s q.fn).mb.busy = true → (fnOf s q.fn).mb.gen = q.gen → (fnOf t q.fn).mb.busy = false ∧ (fnOf t q.fn).mb.done = true ∧ (fnOf t q.fn).mb.response =
        some { outcome := .done, op := q.op, tag := q.tag, payload := leBytes 8 k.number ++ leBytes 1 (if findings = [] then 1 else 2) }) ∧
      ((hrGoverning s.nor).isSome = true →
        ∃ h, hrGoverning t.nor = some h ∧ h.findings = findings ∧ h.clean = k.ckptOk ∧ h.selfPassed = decide (findings = []))

/-- With the time since the last plan passed and the dies' temperatures read: where pours are planned, none is in flight and a ready flask finds work, a pour of it is in flight at step 4 before its first layer, under a number now issued, with every entry of a slot or a chunk, the clusters on and its model the one loaded. Where none finds work the pour suspended last goes on, each cluster context saved for it loaded again. A pour in flight that runs again is planned again under its own number, for its own flask. With another pour in flight in or before step 4 and no pre-emption asked for, a ready flask that may go before it raises the request; where there is none, or the pour is past step 4, or the request stands, nothing else happens. Where no pour is planned (a stop, a halt by heat, a device state other than READY) only the time and the temperatures are taken. -/
def Obligations.PoursArePlanned : Prop :=
  ∀ (obs : PlanObs) (s u : State), u = readTemps obs.temps (passTime obs.elapsedUs s) →
    (mayPlan u = true → u.sched.pour = none → (planFirst obs (candidates u) u).1 = true →
      ∃ t p, exec (.pourPlan obs) s = .next t ∧ t.sched.pour = some p ∧ p.step = 4 ∧ p.layer = 0 ∧ p.rerun = false ∧ p.number < t.sched.next ∧
        t.sched.clustersOn = true ∧ t.sched.loaded = some p.model ∧ (∀ w ∈ p.works, w.slot.isSome = true ∨ w.chunk.isSome = true)) ∧
    (mayPlan u = true → u.sched.pour = none → (planFirst obs (candidates u) u).1 = false →
      ∃ v, v = (planFirst obs (candidates u) u).2 ∧ (v.sched.pour = none → v.sched.suspended = [] → exec (.pourPlan obs) s = .next v) ∧
        ∀ p rest, v.sched.pour = none → v.sched.suspended = p :: rest → ∃ t, exec (.pourPlan obs) s = .next t ∧
          t.sched = { v.sched with pour := some p, suspended := rest, loaded := some p.model } ∧ (∀ c ∈ t.cores.ctxs, c.saved ≠ some p.number) ∧
          t = { v with sched := t.sched, tiers := t.tiers, cores := { v.cores with ctxs := t.cores.ctxs } }) ∧
    (∀ p, mayPlan u = true → u.sched.pour = some p → p.rerun = true →
      ∃ t, exec (.pourPlan obs) s = .next t ∧ ∀ q, t.sched.pour = some q → q.number = p.number ∧ q.flask = p.flask) ∧
    (∀ p, mayPlan u = true → u.sched.pour = some p → p.rerun = false →
      (∀ f, p.step ≤ 4 → p.preempt = none → (readyFlasks u).find? (fun f => mayPreempt u f p) = some f →
        exec (.pourPlan obs) s = .next { u with sched := { u.sched with pour := some { p with preempt := some f.num } } }) ∧
      ((4 < p.step ∨ p.preempt.isSome = true ∨ (readyFlasks u).find? (fun f => mayPreempt u f p) = none) → exec (.pourPlan obs) s = .next u)) ∧
    (mayPlan u = false → exec (.pourPlan obs) s = .next u)

/-- A layer of a pour at step 4 ends once its block is in the window: every working entry does the layer; in a model group the collectives then go as far as the lines of the other participants have come; with no group the layer's number rises by one, and after the last layer the pour is at step 6 where its masks are ready and at step 5 where they are not, while with a pre-emption asked for before that it is suspended, before the others, instead. A block of the weight window that arrives for the pour in flight is in the window, and one read again is awaited no more. The first weight read of a block that fails is noted for the retry; a second one marks every working entry without a fault TIER_FAULT; each counts against the pool it was read from. Masks that are ready take step 5, once, and leave sessions, tenants, functions and models as they are. -/
def Obligations.LayersAndMasksAdvance : Prop :=
  (∀ (obs : LayerObs) (s u : State) (p : Pour) (m : ModelProgram), s.sched.pour = some p → p.step = 4 → p.rerun = false → p.waiting = false →
    blockIn s p = true → progOf s p.model = some m →
    u = forEach (p.works.filter fun w => (isWorking w || shardWorks (passTime obs.elapsedUs s) w) && !w.barged) (workLayer m p.layer obs)
      (passTime obs.elapsedUs s) →
    (p.group = none → exec (.layerComplete obs) s = .next (endLayer u)) ∧
    ∀ n g, p.group = some n → findGroup u n = some g → exec (.layerComplete obs) s = .next (goOnGroup n u)) ∧
  (∀ (s : State) (p : Pour), s.sched.pour = some p → p.group = none →
    (layerTotal s p ≤ p.layer + 1 →
      (endLayer s).sched.pour = some { p with layer := p.layer + 1, waiting := false, preempt := none, step := if p.masksDone then 6 else 5 }) ∧
    (p.layer + 1 < layerTotal s p → p.preempt = none →
      (endLayer s).sched.pour = some { p with layer := p.layer + 1, waiting := false }) ∧
    (p.layer + 1 < layerTotal s p → p.preempt.isSome = true → (endLayer s).sched.pour = none ∧
      (endLayer s).sched.suspended = { p with layer := p.layer + 1, waiting := false, preempt := none } :: s.sched.suspended) ∧
    (endLayer s).sess = s.sess ∧ (endLayer s).tens = s.tens ∧ (endLayer s).fns = s.fns) ∧
  (∀ (model block : Nat) (s : State) (p : Pour) (m : Model), s.sched.pour = some p → findModel s model = some m → p.model = model →
    m.window ≠ 0 → p.step ≤ 4 → p.layer ≤ block → block < p.layer + m.window → block < layerTotal s p → block ∉ m.arrived →
    ∃ t, exec (.weightBlockArrived model block) s = .next t ∧
      findModel t model = some { m with again := m.again.filter (· != block), arrived := m.arrived ++ [block] } ∧
      (∀ k, k ≠ model → findModel t k = findModel s k) ∧
      t = { s with models := t.models, tiers := { s.tiers with pools := t.tiers.pools, streams := t.tiers.streams } }) ∧
  (∀ (model block : Nat) (s : State) (m : Model), findModel s model = some m → block ∈ m.again →
    ∃ t k, exec (.weightBlockArrived model block) s = .next t ∧ findModel t model = some k ∧ k.again = m.again.filter (· != block)) ∧
  (∀ (model block : Nat) (s : State) (p : Pour) (m : Model), s.sched.pour = some p → findModel s model = some m → p.model = model → p.step ≤ 4 →
    ((m.window ≠ 0 ∧ p.layer ≤ block ∧ block < p.layer + m.window ∧ block ∉ m.arrived) ∨ block ∈ m.again) →
    (block ∉ m.retried → ∃ u, exec (.weightReadFailed model block) s = .next (missRead (poolOfBlock m 0 block) u) ∧
      findModel u model = some { m with retried := m.retried ++ [block] } ∧ (∀ k, k ≠ model → findModel u k = findModel s k) ∧
      u = { s with models := u.models }) ∧
    (block ∈ m.retried → ∃ u q, exec (.weightReadFailed model block) s = .next (missRead (poolOfBlock m (m.copies - 1) block) u) ∧
      u.sched.pour = some q ∧ q.number = p.number ∧ q.step = p.step ∧ q.works.length = p.works.length ∧
      (∀ w ∈ q.works, isWorking w = true → w.fault.isSome = true) ∧
      u = { s with sched := { s.sched with pour := u.sched.pour }, tiers := { s.tiers with streams := u.tiers.streams } })) ∧
  ∀ (s : State) (p : Pour), s.sched.pour = some p → p.masksDone = false → p.rerun = false → p.step ≤ 5 →
    ∃ t q, exec .masksReady s = .next t ∧ t.sched.pour = some q ∧ q.masksDone = true ∧ q.step = (if p.step = 5 then 6 else p.step) ∧
      q.number = p.number ∧ q.works.length = p.works.length ∧ t.sess = s.sess ∧ t.tens = s.tens ∧ t.fns = s.fns ∧ t.models = s.models ∧
      exec .masksReady t = .next t

/-- At step 6, with a choice for every entry that draws one, the choices are made, each entry passes its release point in order, the release lines go out, and the pour is at step 8. At its release point an entry that works, samples nothing and has no fault leaves its session's request as it is and its positions written up to the end of its chunk; one that was barged leaves every session as it is. A token released that neither ends its request nor completes a stop string takes the session's position on by one, is its pending token, and is counted in the request. The mirror acknowledged, the boundary's actions are taken and every function that has records gets its block; the pour is at step 9 before what was held goes on. Its barrier then passes; a package that serves with no pour in flight passes one whenever a commit waits for it. -/
def Obligations.ReleaseAndBarrierFollow : Prop :=
  (∀ (obs : List SampleObs) (s v : State) (p : Pour), s.sched.pour = some p → p.step = 6 → p.rerun = false →
    (∀ w ∈ p.works, draws w = true → (obsOf obs w).isSome = true) →
    v = writeReleases (forEach (p.works.map fun w => (drawWork s obs w).1) releasePoint
      (forEach ((p.works.map (drawWork s obs)).filter Prod.snd) (fun d t => countNumeric d.1.tenant t)
        { s with sched := { s.sched with pour := some { p with works := p.works.map fun w => (drawWork s obs w).1, step := 7 } } })) →
    exec (.samplingDone obs) s = .next { v with sched := { v.sched with pour := v.sched.pour.map fun q => { q with step := 8 } } }) ∧
  (∀ (w : Work) (s : State) (x : Session), isWorking w = true → findSess s w.handle = some x →
    (w.barged = true → (releasePoint w s).sess = s.sess) ∧
    (w.barged = false → w.fault = none → w.samples = false → ∃ y, findSess (releasePoint w s) w.handle = some y ∧ y.request = x.request ∧
      y.p = x.p + (w.chunk.map Chunk.len).getD 0 ∧ y.w = y.p)) ∧
  (∀ (w : Work) (tok : Nat) (s : State) (x : Session) (r : Request) (p : ModelProgram) (k : Tokeniser), findSess s w.handle = some x →
    x.request = some r → sessProg s x = some p → sessTok s x = some k → stopMatch r.stops ((r.out.map Prod.snd) ++ [outBytes k p tok]) = none →
    tok ≠ p.toolClose → tok ≠ p.endToken0 → tok ≠ p.endToken1 → r.count + 1 ≠ r.maxTokens → x.p + 1 ≠ maxPositions →
    ∃ y q, findSess (releaseToken w tok s) w.handle = some y ∧ y.p = x.p + 1 ∧ y.pendingTok = some tok ∧ y.request = some q ∧ q.count = r.count + 1) ∧
  (∀ (obs : BoundaryObs) (s : State) (p : Pour), s.sched.pour = some p → p.step = 8 →
    ∃ u, exec (.releaseMirrorAck obs) s = .next (drainAll u) ∧ (∀ q, u.sched.pour = some q → q.step = 9) ∧
      u.fns = (writePourBlocks p.flask p.number (boundaryActions obs p (mirrorTaken (passTime obs.elapsedUs s)))).fns) ∧
  (∀ (us : Nat) (s : State) (p : Pour), s.sched.pour = some p → p.step = 9 → exec (.pourBarrier us) s = .next (passBarrier us s)) ∧
  ∀ s : State, s.sched.pour = none → serving s = true → exec .commitBarrierIdle s = .next (passBarrier 0 s)

/-- A logical cluster of a fitted die that fails takes the die's spare, or is left empty where there is none; no other die changes, and a pour in flight before its release points runs again from step 1 under its number, with none of its work kept; a pour of a flask whose partition has no enabled cluster left does not. Rotation in READY at a boundary, with a spare, no suspended pour and no test under way, gives the spare the number of the enabled cluster tested least recently, which is then under test. A test passed makes that cluster the spare and the one tested last; one failed stops rotation on the die. A gate list that is due takes over at entry 0. An uncorrectable error in a cluster's T0, on a die that is fitted, is a fault of that cluster. -/
def Obligations.ClustersFailAndRotate : Prop :=
  (∀ (die cluster : Nat) (s : State) (d : ScDie) (pos : Nat), die < scCount s.part → findDie s die = some d → d.logical[cluster]? = some (some pos) →
    ∃ u, exec (.clusterFault die cluster) s = .next (drainAll (dropUnserved (rerunPour u))) ∧
      findDie u die = some { d with logical := d.logical.set cluster d.spare, spare := none, order := d.order.filter (· != pos) } ∧
      (∀ k, k ≠ die → findDie u k = findDie s k) ∧ u.dev.events = s.dev.events + (if d.spare.isNone then 1 else 0) ∧
      u.sched = s.sched ∧ u.sess = s.sess ∧ u.tens = s.tens ∧ u.fns = s.fns ∧ u.ledger = s.ledger ∧ u.links = s.links) ∧
  (∀ (s : State) (p : Pour), s.sched.pour = some p → p.step ≤ 7 →
    (rerunPour s).sched.pour = some { p with rerun := true, step := 1, layer := 0, works := [], masksDone := false, waiting := false, preempt := none }) ∧
  (∀ (s : State) (p : Pour), (dropUnserved s).sched.pour = some p →
    ∃ q, s.sched.pour = some q ∧ q.flask = p.flask ∧ ∀ f, findFlask s q.flask = some f → flaskServes s f = true) ∧
  (∀ (die cluster stack region : Nat) (s : State), stack / 6 < scCount s.part →
    exec (.hbmUncorrectable stack region (.t0 die cluster)) s = exec (.clusterFault die cluster) s) ∧
  (∀ (die : Nat) (s : State) (d : ScDie) (sp pos : Nat), findDie s die = some d → d.spare = some sp →
    d.order.find? (fun k => d.logical.contains (some k)) = some pos → s.dev.code = .ready → s.sched.suspended = [] → atBoundary s = true →
    d.stopped = false → d.testing = none → die < scCount s.part →
    ∃ t, exec (.rotationStart die) s = .next t ∧
      findDie t die = some { d with logical := d.logical.map fun k => if k = some pos then some sp else k, spare := none, testing := some pos } ∧
      (∀ k, k ≠ die → findDie t k = findDie s k) ∧ t = { s with dies := t.dies }) ∧
  (∀ (die : Nat) (s : State) (d : ScDie) (pos : Nat), findDie s die = some d → d.testing = some pos →
    (∃ t, exec (.rotationTestEnd die true) s = .next t ∧
      findDie t die = some { d with spare := some pos, testing := none, order := d.order.filter (· != pos) ++ [pos] } ∧
      (∀ k, k ≠ die → findDie t k = findDie s k) ∧ t = { s with dies := t.dies }) ∧
    ∃ t, exec (.rotationTestEnd die false) s = .next t ∧
      findDie t die = some { d with testing := none, stopped := true, order := d.order.filter (· != pos) } ∧
      (∀ k, k ≠ die → findDie t k = findDie s k) ∧ t.dev.events = s.dev.events + 1 ∧
      t = { s with dies := t.dies, free := s.free + 1, dev := { s.dev with log := t.dev.log, logNext := t.dev.logNext, logOldest := t.dev.logOldest
                                                                           events := t.dev.events } }) ∧
  ∀ (port pour : Nat) (gates : List (Nat × Nat)) (s : State) (p : Port), findPort s port = some p → p.gateDue = some (pour, gates) →
    pour < s.sched.next →
    ∃ t, exec (.gateListTakeover port) s = .next t ∧ findPort t port = some { p with gates := gates, gateDue := none, takeover := p.bytes, entry := 0, used := 0 } ∧
      (∀ k, k ≠ port → findPort t k = findPort s k) ∧ t = { s with links := { s.links with ports := t.links.ports } }

/-- The residency allowance of a session with no operation under way at zero begins the demotion of a resident session (the idle and the waiting allowance), begins the park of a session not MOVING (the warm allowance), and closes a PARKED one that may be kept no longer: CLOSED with its content gone; of a session MOVING, or with an operation under way, it only stands at zero. A hard deadline that expires with no pour in flight ends the request; with one in flight its allowance only stands at zero, for the boundary; one of a request of another class ends nothing. A soft deadline only sets the request's allowance to zero. A queued frame of the number whose allowance was running has it at zero, and with no pour in flight every such frame is marked answered. A sweep of the directory lets the time pass first, then checks every allowance and, with no pour in flight, every deadline, relieves the memory, admits what was held, and lets the store copies trickle: every meter moves on by the time and every allowance of a session that is not MOVING falls by it, to no less than zero. -/
def Obligations.AllowancesRunOut : Prop :=
  (∀ (h : Nat) (s : State) (x : Session), findSess s h = some x → x.op = none → resident x = true → (x.allowKind = 1 ∨ x.allowKind = 2) →
    ∃ t y, exec (.residencyAllowanceExpiry h) s = .next t ∧ findSess t h = some y ∧ y.op = some (.demotion false) ∧
      (∀ k, k ≠ h → findSess t k = findSess s k) ∧ t.sched.pour = s.sched.pour ∧ t.models = s.models ∧ t.store = s.store ∧ t.rcl = s.rcl ∧ t.links = s.links) ∧
  (∀ (h : Nat) (s u : State) (x : Session), findSess s h = some x → u = onSess h (fun y => { y with allowance := 0 }) s →
    (x.op = none → x.state ≠ .moving → x.allowKind = 3 →
      exec (.residencyAllowanceExpiry h) s = .next (startPark false (parkForm u { x with allowance := 0 } 0) none h u)) ∧
    ((x.op.isSome = true ∨ x.state = .moving) → exec (.residencyAllowanceExpiry h) s = .next u)) ∧
  (∀ (h : Nat) (s : State) (x : Session), findSess s h = some x → x.op = none → x.state ≠ .moving → x.allowKind = 4 →
    ∃ t y, exec (.residencyAllowanceExpiry h) s = .next t ∧ findSess t h = some y ∧ y.state = .closed ∧ y.pages = [] ∧ y.tokens = [] ∧
      y.ingot = 0 ∧ y.handle = x.handle ∧ y.tenant = x.tenant ∧ y.window = x.window ∧ (∀ k, k ≠ h → findSess t k = findSess s k)) ∧
  (∀ (h : Nat) (s : State) (x : Session) (r : Request), findSess s h = some x → x.request = some r → r.win = .session h → r.paused = false →
    x.state ≠ .moving → x.oneShot = false → x.spent = false → x.heldMsgs = [] → s.sched.pour = none → s.sched.suspended = [] →
    ∃ t y, exec (.hardDeadlineExpiry h) s = .next t ∧ findSess t h = some y ∧
      (r.dclass = 2 → y.request = none) ∧ (r.dclass ≠ 2 → y.request = some r) ∧ (∀ k, k ≠ h → findSess t k = findSess s k)) ∧
  (∀ (h : Nat) (s : State), s.sched.pour.isSome = true → ∃ t, exec (.hardDeadlineExpiry h) s = .next t ∧ t = { s with sess := t.sess } ∧
    (∀ k, k ≠ h → findSess t k = findSess s k) ∧
    findSess t h = (findSess s h).map fun x =>
      { x with request := x.request.map fun r => if r.dclass = 2 then { r with allowance := 0 } else r }) ∧
  (∀ (h : Nat) (s : State), ∃ t, exec (.softDeadlineExpiry h) s = .next t ∧ t = { s with sess := t.sess } ∧
    (∀ k, k ≠ h → findSess t k = findSess s k) ∧
    findSess t h = (findSess s h).map fun x =>
      { x with request := x.request.map fun r => if r.dclass = 1 then { r with allowance := 0 } else r }) ∧
  (∀ (h n : Nat) (s : State) (x : Session), findSess s h = some x →
    ∃ t y, exec (.frameAllowanceExpiry h n) s = .next t ∧ findSess t h = some y ∧ y.queue.length = x.queue.length ∧
      (∀ sq ps a d o i, .frame n sq ps a d o i ∈ y.queue → a = none ∨ (a = some 0 ∧ (s.sched.pour = none → d = true))) ∧
      (∀ k, k ≠ h → findSess t k = findSess s k) ∧ t = { s with sess := t.sess, fns := t.fns }) ∧
  (∀ (us : Nat) (s : State), ∃ u, u = (let u := forEach ((passTime us s).sess.map Session.handle) expire (passTime us s)
      if u.sched.pour.isNone then checkDeadlines false [] u else u) ∧
    exec (.directorySweep us) s = .next (forEach (u.sess.map Session.handle) trickleRow (admitHeld (relieve u)))) ∧
  ∀ (us : Nat) (s : State), (∀ d, d < s.dev.meters.length → meterNs (passTime us s) d = meterNs s d + us * 1000) ∧
    ∀ h x, findSess s h = some x → ∃ y, findSess (passTime us s) h = some y ∧ y.state = x.state ∧ y.p = x.p ∧
      y.allowance = (if x.state = .moving then x.allowance else x.allowance - us)

/-- Answers that have waited long enough leave the records of the pour in flight waiting and no other, and change nothing but the functions, the signals and the windows of sessions. A drain of the backlog of a function whose ring has at least 2^10 records and whose link is up ends with an empty backlog or with a block at its front whose next part no longer fits the ring. A vector's interval that runs out with records counted restarts the count and fires the vector: the message is sent, or, masked, its pending bit is set. -/
def Obligations.TapTimersAct : Prop :=
  (∀ (fn : Nat) (s : State), ∃ t, exec (.answerBlockTimeout fn) s = .next t ∧
    (fnOf t fn).waiting = (fnOf s fn).waiting.filter WaitRec.inPour ∧ t = { s with fns := t.fns, outs := t.outs, sess := t.sess }) ∧
  (∀ (fn base n : Nat) (s : State), (fnOf s fn).ring = some (base, n) → 10 ≤ n → fnUp s fn = true →
    ∃ t, exec (.backlogDrain fn) s = .next t ∧ t = { s with fns := t.fns, outs := t.outs, sess := t.sess } ∧
      ∀ b rest, (fnOf t fn).backlog = b :: rest →
        2 ^ n < (fnOf t fn).next + (b.recs.take (min (2 ^ n) 65535 - 1)).length + 1 - (fnOf t fn).released) ∧
  ∀ (fn v : Nat) (s : State), (vecCfg (fnOf s fn) v).interval ≠ 0 → 0 < countOf (fnOf s fn).counts v →
    ∃ t, exec (.vectorIntervalExpiry fn v) s = .next t ∧ countOf (fnOf t fn).counts v = 0 ∧
      (v ∉ (fnOf s fn).masked → t.outs.signals = s.outs.signals ++ [(fn, v)] ∧ (fnOf t fn).pba = (fnOf s fn).pba) ∧
      (v ∈ (fnOf s fn).masked → t.outs = s.outs ∧ v ∈ (fnOf t fn).pba) ∧ (∀ j, j ≠ fn → fnOf t j = fnOf s j) ∧
      t = { s with fns := t.fns, outs := t.outs }

/-- A demotion with no page casting whose frozen copies find room leaves the session WARM with no operation, no page in T1 and no molten page, before the marks and what was held go on; with no room it waits. A revival's first phase that fits the hold-up bound with nothing waiting before it leaves the session awake (ACTIVE with a slot, OPEN without) with no frozen page where nothing was trimmed; one that does not fit waits for the bound. The second phase of a remelt ends the copying: every page keeps its content and condition, and stands with the T2 copies it had or with ones it was given. A park with no page casting whose ingot is programmed leaves the session PARKED in it, with nothing else kept, and the object committed with both heads. -/
def Obligations.ResidencyOperationsCommit : Prop :=
  (∀ (h : Nat) (s : State) (x : Session) (prog : ModelProgram) (pr : Bool), findSess s h = some x → x.op = some (.demotion pr) →
    sessProg s x = some prog → (∀ g ∈ x.pages, g.cond ≠ .casting ∧ (g.cond = .frozen → g.inT1 = false)) →
    (demotionFits s x = true →
      ∃ u y, exec (.demotionCommit h) s = .next (admitHeld (drainHeld h (relieve u))) ∧ findSess u h = some y ∧ y.state = .warm ∧ y.op = none ∧
        (∀ g ∈ y.pages, g.inT1 = false ∧ g.cond ≠ .molten) ∧ y.tokens = x.tokens ∧ y.p = x.p ∧ y.w = x.w ∧
        (∀ k, k ≠ h → findSess u k = findSess s k) ∧ u.models = s.models ∧ u.store = s.store ∧ u.rcl = s.rcl ∧ u.links = s.links) ∧
    (demotionFits s x = false →
      exec (.demotionCommit h) s = .next (stall { partition := sessPart s x, handle := h, kind := 2, row := 0, layer := 0 } s))) ∧
  (∀ (h : Nat) (s : State) (x : Session) (remelt : Bool), findSess s h = some x → x.op = some (.revival remelt) →
    (s.ledger.waiting = [] → holdUpFits s (saveSize s + sectionBytes s { x with state := .opened }) = true →
      ∃ u y, exec (.revivalPhase1End h) s = .next (drainHeld h u) ∧ findSess u h = some y ∧ y.op = none ∧ y.ingot = 0 ∧ y.copying = remelt ∧
        y.state = (if x.slot.isSome then .active else .opened) ∧ (x.trimmed = none → ∀ g ∈ y.pages, remelt = false → g.cond ≠ .frozen) ∧
        (∀ k, k ≠ h → findSess u k = findSess s k) ∧
        u = { s with sess := u.sess, tiers := u.tiers, chk := { s.chk with anchors := u.chk.anchors }, free := u.free }) ∧
    (holdUpFits s (saveSize s + sectionBytes s { x with state := .opened }) = false → .revivalPhase1End h ∉ s.ledger.waiting →
      exec (.revivalPhase1End h) s = .next { s with ledger := { s.ledger with waiting := s.ledger.waiting ++ [.revivalPhase1End h] } })) ∧
  (∀ (h : Nat) (s : State) (x : Session) (p : ModelProgram), findSess s h = some x → sessProg s x = some p → x.copying = true →
    ∃ t y, exec (.remeltPhase2End h) s = .next t ∧ findSess t h = some y ∧ y.copying = false ∧ y.state = x.state ∧
      y.pages.length = x.pages.length ∧ (∀ g ∈ y.pages, ∃ g0 ∈ x.pages,
        g = { g0 with handle := g.handle, frame := g.frame, lower0 := g.lower0, lower1 := g.lower1, pools := g.pools, first := g.first
                      second := g.second, inStore := g.inStore } ∧
        ((g.first = g0.first ∧ g.pools = g0.pools ∧ g.inStore = g0.inStore) ∨ (g.first = true ∧ g.pools ≠ []))) ∧
      (∀ k, k ≠ h → findSess t k = findSess s k) ∧
      t = { s with sess := t.sess, tiers := t.tiers, chk := { s.chk with anchors := t.chk.anchors }, free := t.free }) ∧
  ∀ (h obj : Nat) (quantise : Bool) (ask : Option Ask) (s : State) (x : Session), findSess s h = some x →
    x.op = some (.park quantise obj ask) → (∀ g ∈ x.pages, g.cond ≠ .casting) → (∀ a, ask = some a → a.win = .session h) →
    ∃ u y, exec (.ingotCommit h) s = .next (admitHeld (drainHeld h u)) ∧ findSess u h = some y ∧ y.state = .parked ∧ y.op = none ∧
      y.ingot = obj ∧ y.pages = [] ∧ y.blocks = [] ∧ y.snapshots = [] ∧ y.copying = false ∧ y.tokens = x.tokens ∧
      (∀ o, findObj s obj = some o → o.deleted = false → ∃ o', findObj u obj = some o' ∧ o'.committed = true ∧ o'.headOk = 2 ∧ o'.reserved = 0) ∧
      (∀ k, k ≠ h → findSess u k = findSess s k) ∧ u.tens = s.tens ∧ u.models = s.models ∧ u.sched = s.sched ∧ u.links = s.links

/-- The write-down of a casting page for which pools are found leaves it cast with its copies in them; with none found it waits; the writes that wait in a partition are resumed in order, each as when it first ended. A failed write-down is logged and changes nothing else. A row's copy in the store that was queued, all of its pages cast and every row before it stored, marks them stored, in the object of the session, which is committed to past the row; the next row is then queued. A demand fetch that ends makes the page an entry of T1 in the frame it was read into, or, read with no frame free, is in the T0 of its task; of a fetch abandoned by a save the data are discarded. One that is late, or has no copy left to read, gives the session's slot its fault in the pour in flight, where it has none yet; a fetch with a copy left goes on from it and counts the miss against its pool. A late read of a frozen copy is held against the request for the boundary, and acts at once with no pour in flight. -/
def Obligations.CopiesAndFetchesComplete : Prop :=
  (∀ (h row layer : Nat) (s : State) (x : Session) (p : ModelProgram) (g : Page), findSess s h = some x → sessProg s x = some p →
    findPage x row layer = some g → g.cond = .casting →
    (∀ ps, pickPools (sessPlace s x) (pageBytes p g) (castCopies x.durability) [] s = some ps →
      ∃ t y g', exec (.pageCast h row layer) s = .next t ∧ findSess t h = some y ∧ findPage y row layer = some g' ∧ g'.cond = .cast ∧
        g'.pools = ps ∧ g'.first = true ∧ g'.second = decide (1 < ps.length) ∧ g'.keys = g.keys ∧ g'.values = g.values ∧
        g'.patterns = g.patterns ∧ (∀ k, k ≠ h → findSess t k = findSess s k) ∧
        t = { s with sess := t.sess, tiers := t.tiers, chk := { s.chk with anchors := t.chk.anchors }, free := t.free }) ∧
    (pickPools (sessPlace s x) (pageBytes p g) (castCopies x.durability) [] s = none →
      exec (.pageCast h row layer) s = .next (stall { partition := sessPart s x, handle := h, kind := 1, row := row, layer := layer } s))) ∧
  (∀ (h row layer : Nat) (s : State), ∃ t, exec (.writeDownFailed h row layer) s = .next t ∧ t.dev.logNext = s.dev.logNext + 1 ∧
    (t.dev.log.getLast?.map LogEntry.data) = some (h * 2 ^ 24 + row * 2 ^ 8 + layer) ∧
    t = { s with dev := { s.dev with log := t.dev.log, logNext := t.dev.logNext, logOldest := t.dev.logOldest }, free := s.free + 1 }) ∧
  (∀ (part : Nat) (s : State), exec (.stalledWriteResume part) s = .next (forEach (s.tiers.stalls.filter fun k => k.partition == part) resumeWrite
    { s with tiers := { s.tiers with stalls := s.tiers.stalls.filter fun k => k.partition != part } })) ∧
  (∀ (w : Stall) (s : State), (w.kind = 1 → exec (.pageCast w.handle w.row w.layer) s = .next (resumeWrite w s)) ∧
    (w.kind = 2 → exec (.demotionCommit w.handle) s = .next (resumeWrite w s)) ∧
    (w.kind ≠ 1 → w.kind ≠ 2 → resumeWrite w s = secondCopy w.handle w.row w.layer (secondCopy w.handle w.row w.layer s))) ∧
  (∀ (h row : Nat) (s : State) (x : Session) (o : Obj), findSess s h = some x → x.durability = 2 → (∃ g ∈ x.pages, g.row = row) →
    (∀ g ∈ x.pages, g.row = row → g.cond = .cast) → (∀ g ∈ x.pages, g.row < row → g.inStore = true) →
    (trickleRow h s).store.objs.find? (fun k => k.handle == h && !k.ingot && !k.deleted) = some o → row < o.queued →
    ∃ u, exec (.storeCopyCommit h row) s = .next (trickleRow h u) ∧
      findSess u h = some { x with pages := x.pages.map fun g => if g.row = row then { g with inStore := true } else g } ∧
      (∃ k ∈ u.store.objs, k.num = o.num ∧ k.handle = h ∧ k.ingot = false ∧ k.committed = true ∧ row + 1 ≤ k.rows) ∧
      (∀ k, k ≠ h → findSess u k = findSess s k) ∧ u = { trickleRow h s with sess := u.sess, store := u.store }) ∧
  (∀ (h row layer : Nat) (s : State) (x : Session) (g : Page) (f : Fetch), findSess s h = some x → findPage x row layer = some g →
    findFetch s h row layer = some f → f.held = false → g.cond = .cast → g.inT1 = false → resident x = true → g.handle = f.page →
    ∃ t, exec (.demandFetchComplete h row layer) s = .next t ∧ findFetch t h row layer = none ∧
      (f.frame ≠ noFrame → ∃ y, findSess t h = some y ∧
        findPage y row layer = some { g with inT1 := true, frame := f.frame, unselected := 0 } ∧ (∀ k, k ≠ h → findSess t k = findSess s k)) ∧
      (f.frame = noFrame → t.sess = s.sess ∧
        ∀ k ∈ s.tiers.t0, k.handle = h → k.layer = layer → row ∈ k.rows → { k with loaded := k.loaded ++ [row] } ∈ t.tiers.t0) ∧
      t = { s with sess := t.sess, tiers := t.tiers, sched := { s.sched with pour := t.sched.pour, suspended := t.sched.suspended } }) ∧
  (∀ (h row layer : Nat) (s : State) (f : Fetch), findFetch s h row layer = some f → f.held = true →
    exec (.demandFetchComplete h row layer) s = .next s ∧ exec (.demandFetchLate h row layer) s = .next s) ∧
  (∀ (h row layer : Nat) (s : State), (∀ f, findFetch s h row layer = some f → f.held = false) → ∃ t, exec (.demandFetchLate h row layer) s = .next t ∧
    (∀ f ∈ t.tiers.fetches, f.handle = h → f.row = row → f.layer = layer → f.late = true) ∧
    (∀ p, s.sched.pour = some p → p.step ≤ 7 → ∃ q, t.sched.pour = some q ∧ q.works.length = p.works.length ∧
      (∀ w ∈ q.works, w.handle = h → w.fault.isSome = true) ∧ (∀ w ∈ p.works, w.fault.isSome = true ∨ w.handle ≠ h → w ∈ q.works)) ∧
    t = { s with tiers := { s.tiers with fetches := t.tiers.fetches }, sched := { s.sched with pour := t.sched.pour, suspended := t.sched.suspended } }) ∧
  (∀ (h row layer : Nat) (s : State) (f : Fetch), findFetch s h row layer = some f →
    (∀ q ∈ s.tiers.pools, q.num = f.tier → q.missed < 15) →
    (∀ c rest, f.left = c :: rest → ∃ t, exec (.demandFetchFailed h row layer) s = .next t ∧
      findFetch t h row layer = some { f with tier := c, left := rest } ∧
      t.tiers.pools = s.tiers.pools.map (fun q => if q.num = f.tier then { q with missed := q.missed + 1 } else q) ∧
      t = { s with tiers := { s.tiers with fetches := t.tiers.fetches, pools := t.tiers.pools } }) ∧
    (f.left = [] → ∃ t, exec (.demandFetchFailed h row layer) s = .next t ∧ findFetch t h row layer = none ∧
      (∀ p, s.sched.pour = some p → p.step ≤ 7 → ∃ q, t.sched.pour = some q ∧ ∀ w ∈ q.works, w.handle = h → w.fault.isSome = true) ∧
      t.sess = s.sess ∧ t.models = s.models)) ∧
  (∀ (h : Nat) (s : State) (x : Session) (remelt : Bool), findSess s h = some x → x.op = some (.revival remelt) → s.sched.pour = none →
    exec (.frozenReadLate h) s = .next (endLate false h (onSess h (fun y => { y with revivalLate := true }) s))) ∧
  ∀ (h : Nat) (s : State) (x : Session) (remelt : Bool), findSess s h = some x → x.op = some (.revival remelt) → s.sched.pour.isSome = true →
    ∃ t, exec (.frozenReadLate h) s = .next t ∧ findSess t h = some { x with revivalLate := true } ∧
      (∀ k, k ≠ h → findSess t k = findSess s k) ∧ t = { s with sess := t.sess }

/-- A bridge whose error is fatal loses its pool: every pool of the number has failed, before what was held goes on; one that has failed already is left. An uncorrectable error in a stack of a fitted die retires its region, with a health event and in the health record, and the line's content is treated by what it held; weights are read again before use, and the line of a page with another copy costs nothing more: the sessions keep their states, positions, tokens and requests. A corrected error is counted for its stack; the first two of a region within 3,600 s are kept, the third retires the region. An error in a stack of a die that is not fitted changes nothing. A patrol pass is counted for its die. A copy out of a host region that is being removed goes back to a pool; a page of the WARM session that spills next goes to a host region with room while the partition spills (from under 2 % of its T2 free until 4 %). -/
def Obligations.PoolsAndLinesAreLost : Prop :=
  (∀ (pool : Nat) (s : State),
    ((∃ q ∈ s.tiers.pools, q.num = pool ∧ q.failed = false) →
      ∃ u, exec (.bridgeFatalError pool) s = .next (drainAll u) ∧ (∀ q ∈ u.tiers.pools, q.num = pool → q.failed = true) ∧
        u.tiers.pools.map Pool.num = s.tiers.pools.map Pool.num ∧ u.part = s.part ∧ u.sec = s.sec) ∧
    ((∀ q ∈ s.tiers.pools, q.num = pool → q.failed = true) → exec (.bridgeFatalError pool) s = .next (drainAll s))) ∧
  (∀ (stack region : Nat) (held : LineHeld) (s : State), stack / 6 < scCount s.part → (∀ d c, held ≠ .t0 d c) →
    exec (.hbmUncorrectable stack region held) s = .next (drainAll (lineLost held (retireRegion stack region s)))) ∧
  (∀ (stack region model block : Nat) (s : State), lineLost .oneCopy s = s ∧
    lineLost (.weights model block) s = onModel model (fun y =>
      { y with arrived := y.arrived.filter (· != block), again := y.again.filter (· != block) ++ [block] }) s) ∧
  (∀ (stack region : Nat) (s : State), stack / 6 < scCount s.part →
    ∃ u, u = retireRegion stack region s ∧ countOf u.tiers.retired (stack / 6) = countOf s.tiers.retired (stack / 6) + 1 ∧
      u.dev.events = s.dev.events + 1 ∧ (∀ r, hrGoverning s.nor = some r → ∃ r', hrGoverning u.nor = some r' ∧ (stack, region) ∈ r'.regions) ∧
      u.tens = s.tens ∧ u.models = s.models ∧ u.sched = s.sched ∧ u.store = s.store ∧
      ∀ h x, findSess s h = some x → ∃ y, findSess u h = some y ∧ y.state = x.state ∧ y.p = x.p ∧ y.w = x.w ∧ y.tokens = x.tokens ∧
        y.request = x.request ∧ y.queue = x.queue) ∧
  (∀ (stack region meterS : Nat) (s : State) (n : Nat), stack / 6 < scCount s.part →
    n = (s.tiers.recent.filter fun p => p.1 == stack && p.2.1 == region && decide (meterS ≤ p.2.2 + 3600)).length →
    ∃ t, exec (.hbmCorrected stack region meterS) s = .next t ∧
      countOf t.tiers.corrected stack = countOf s.tiers.corrected stack + 1 ∧ t.sched = s.sched ∧
      (n < 2 → (stack, region, meterS) ∈ t.tiers.recent ∧
        t = { s with tiers := { s.tiers with corrected := t.tiers.corrected, recent := t.tiers.recent } }) ∧
      (2 ≤ n → countOf t.tiers.retired (stack / 6) = countOf s.tiers.retired (stack / 6) + 1 ∧ t.dev.events = s.dev.events + 1 ∧
        ∀ p ∈ t.tiers.recent, ¬(p.1 = stack ∧ p.2.1 = region))) ∧
  (∀ (stack region meterS : Nat) (held : LineHeld) (s : State), scCount s.part ≤ stack / 6 →
    exec (.hbmCorrected stack region meterS) s = .next s ∧ exec (.hbmUncorrectable stack region held) s = .next s) ∧
  (∀ (die n : Nat) (s : State), die < scCount s.part → s.tiers.patrol[die]? = some n →
    ∃ t, exec (.patrolScrub die) s = .next t ∧ t.tiers.patrol[die]? = some (n + 1) ∧
      (∀ k, k ≠ die → t.tiers.patrol[k]? = s.tiers.patrol[k]?) ∧ t = { s with tiers := { s.tiers with patrol := t.tiers.patrol } }) ∧
  (∀ (h row layer q : Nat) (s : State) (x : Session) (p : ModelProgram) (g : Page), findSess s h = some x → sessProg s x = some p →
    findPage x row layer = some g → (∀ n, isLeaving s n = false) → g.inH = true →
    s.tiers.hRegions.any (fun r => r.partition == sessPart s x && r.link == g.hLink && r.removing.isSome) = true →
    pickPool s (roomyPools s (sessPlace s x) (pageBytes p g) g.pools) = some q →
    ∃ t y g', exec (.backgroundCopyComplete h row layer) s = .next t ∧ findSess t h = some y ∧ findPage y row layer = some g' ∧ g'.inH = false ∧
      g'.pools = g.pools ++ [q] ∧ g'.first = true ∧ (∀ k, k ≠ h → findSess t k = findSess s k) ∧
      t = { s with sess := t.sess, tiers := t.tiers, free := t.free }) ∧
  ∀ (h row layer : Nat) (s : State) (x : Session) (p : ModelProgram) (g : Page) (r : HRegion), findSess s h = some x → sessProg s x = some p →
    findPage x row layer = some g → (∀ n, isLeaving s n = false) → spillsNext s x g = true → spills s (sessPart s x) = true →
    (if g.cond = .frozen then frozenCopies x.durability else castCopies x.durability) ≤ g.pools.length →
    roomyH s (sessPart s x) (pageBytes p g) = some r →
    ∃ t y g', exec (.backgroundCopyComplete h row layer) s = .next t ∧ findSess t h = some y ∧ findPage y row layer = some g' ∧ g'.inH = true ∧
      g'.hLink = r.link ∧ g'.pools = g.pools.dropLast ∧ (∀ k, k ≠ h → findSess t k = findSess s k) ∧
      t = { s with sess := t.sess, tiers := t.tiers, free := t.free }

/-- New pages of an object that programme leave its reservation and become valid in their group, which closes when it is full; a free group is opened for them in SLC mode, unless new writes of the namespace wait, where nothing has been programmed. Copied pages leave the object's count and reservation as they are. A journal page only counts in the hub's write sequence. A programme that fails, and a read that needed parity or a second copy, condemn the group: it is retired where it holds no valid page; otherwise it is closed with its pages to be copied out, or, with no spare left or read-only, its namespace is read-only. A closed group with no valid page that is erased, in a namespace that is not read-only, is free with one more erase and nothing else kept; one whose erase fails, at its erase limit, or to be retired, is retired; any other is left. A read counts for its group, and a weak one flags it for refresh. A lost head of an ingot makes the session PARKED in it LOST. The journal timer makes every record of the hub durable in one page. A channel that fails its training is fenced with a health event. -/
def Obligations.NandEventsKeepTheStore : Prop :=
  (∀ (hub group object pages : Nat) (ok : Bool) (s : State), exec (.nandProgramComplete hub group object pages .journal ok) s =
    .next (onHubStore hub (fun x => { x with seq := x.seq + pages }) s)) ∧
  (∀ (hub group object pages row : Nat) (s : State) (o : Obj) (g : Group), findObj s object = some o → o.deleted = false → pages ≤ o.reserved →
    (findTen s o.tenant).any (fun t => t.key.isNone) = false → groupOf s hub group o.ns = g →
    (g.state = .opened ∨ (g.state = .free ∧ writesWait s o.ns = false)) →
    ∃ t o' g', exec (.nandProgramComplete hub group object pages (.row row) true) s = .next t ∧
      findObj t object = some o' ∧ o'.pages = o.pages + pages ∧ o'.reserved = o.reserved - pages ∧ groupOf t hub group o.ns = g' ∧
      (g.state = .opened → g'.valid = g.valid + pages ∧ g'.written = g.written + pages ∧
        g'.state = (if g.pages ≤ g.written + pages then .closed else .opened)) ∧
      (g.state = .free → g'.valid = pages ∧ g'.written = pages ∧ g'.slc = true) ∧
      t = { s with store := t.store }) ∧
  (∀ (hub group object pages row : Nat) (s : State) (o : Obj), findObj s object = some o → pages ≤ o.reserved →
    (groupOf s hub group o.ns).state = .free → writesWait s o.ns = true →
    exec (.nandProgramComplete hub group object pages (.row row) true) s = .next s) ∧
  (∀ (hub group object pages row : Nat) (s : State) (o : Obj), findObj s object = some o → o.deleted = false → o.reserved < pages →
    ∃ t o', exec (.nandProgramComplete hub group object pages (.row row) true) s = .next t ∧ findObj t object = some o' ∧ o'.pages = o.pages ∧
      o'.reserved = o.reserved ∧ t.sess = s.sess ∧ t.sched = s.sched) ∧
  (∀ (hub group object pages row ns : Nat) (s : State), ((findObj s object).map Obj.ns).getD 0 = ns →
    exec (.nandProgramComplete hub group object pages (.row row) false) s = .next (condemn (groupOf s hub group ns) s)) ∧
  (∀ (g : Group) (s : State), g.state ≠ .retired →
    (g.valid = 0 → (groupOf (condemn g s) g.hub g.num g.ns).state = .retired) ∧
    (0 < g.valid → (nsOf s g.ns).spares ≠ 0 → (nsOf s g.ns).readOnly = false →
      groupOf (condemn g s) g.hub g.num g.ns = { g with state := .closed, bad := true, copying := true }) ∧
    (0 < g.valid → ((nsOf s g.ns).spares = 0 ∨ (nsOf s g.ns).readOnly = true) → (∃ x ∈ s.store.nss, x.num = g.ns) →
      (nsOf (condemn g s) g.ns).readOnly = true) ∧
    (condemn g s).sess = s.sess ∧ (condemn g s).sched = s.sched ∧
    ∀ o ∈ s.store.objs, o.deleted = false → ∃ k ∈ (condemn g s).store.objs, k = { o with trimSafe := k.trimSafe }) ∧
  (∀ (hub group : Nat) (ok : Bool) (s : State) (g : Group), s.store.groups.find? (fun g => g.hub == hub && g.num == group) = some g →
    (g.state ≠ .closed ∨ 0 < g.valid ∨ (nsOf s g.ns).readOnly = true → exec (.nandEraseComplete hub group ok) s = .next s) ∧
    (g.state = .closed → g.valid = 0 → (nsOf s g.ns).readOnly = false → ∃ t, exec (.nandEraseComplete hub group ok) s = .next t ∧
      (ok = true → g.erases + 1 < (board s).eraseLimit → g.bad = false →
        groupOf t hub group g.ns = { hub := hub, num := group, ns := g.ns, erases := g.erases + 1 } ∧ t = { s with store := t.store }) ∧
      (ok = false ∨ (board s).eraseLimit ≤ g.erases + 1 ∨ g.bad = true → (groupOf t hub group g.ns).state = .retired ∧ t.sess = s.sess))) ∧
  (∀ (hub group object ns : Nat) (page : NandPage) (s : State) (g : Group), ((findObj s object).map Obj.ns).getD 0 = ns →
    groupOf s hub group ns = g →
    (∀ found, found = .decoded ∨ found = .weak → ∃ t, exec (.nandReadComplete hub group object page found) s = .next t ∧
      (groupOf t hub group ns).reads = g.reads + 1 ∧ (groupOf t hub group ns).state = g.state ∧
      (found = .weak ∨ (board s).readLimit < g.reads + 1 → (groupOf t hub group ns).refresh = true) ∧ t = { s with store := t.store }) ∧
    (∃ g', exec (.nandReadComplete hub group object page .rebuilt) s = .next (condemn g' (setGroup g' s)) ∧
      g' = { g with reads := g.reads + 1, refresh := g'.refresh }) ∧
    (∀ o x, findObj s object = some o → o.deleted = false → findSess s o.handle = some x → x.state = .parked → x.request = none → x.op = none → page = .head →
      ∃ u y, exec (.nandReadComplete hub group object page .lost) s = .next (drainAll u) ∧ findSess u o.handle = some y ∧ y.state = .lost ∧
        y.pages = [] ∧ y.tokens = [] ∧ y.ingot = 0 ∧ ∀ k, k ≠ o.handle → findSess u k = findSess s k)) ∧
  (∀ (hub : Nat) (s : State) (x : HubStore), s.store.hubs[hub]? = some x →
    ∃ t y, exec (.journalFlushTimer hub) s = .next t ∧ t.store.hubs[hub]? = some y ∧ y.unflushed = [] ∧ y.flushed = x.flushed ++ x.unflushed ∧
      y.flushedPages = x.flushedPages + (if x.unflushed = [] then 0 else 1) ∧ y.seq = x.seq + (if x.unflushed = [] then 0 else 1) ∧
      (∀ o ∈ s.store.objs, o.deleted = false → ∃ k ∈ t.store.objs, k = { o with trimSafe := k.trimSafe }) ∧
      (∀ k, k ≠ hub → t.store.hubs[k]? = s.store.hubs[k]?) ∧ t = { s with store := { s.store with hubs := t.store.hubs, objs := t.store.objs } }) ∧
  ∀ (channel : Nat) (s : State), exec (.channelRetrainTimer channel true) s = .next s ∧
    (s.store.channels.testBit channel = true → ∃ t, exec (.channelRetrainTimer channel false) s = .next t ∧
      t.store.channels.testBit channel = false ∧ (∀ k, k ≠ channel → t.store.channels.testBit k = s.store.channels.testBit k) ∧
      t.dev.events = s.dev.events + 1 ∧ t.sess = s.sess ∧ t.tens = s.tens ∧ t.store.objs = s.store.objs ∧ t.store.groups = s.store.groups)

/-- A host's search whose shards are all of this package ends with its results, ranked, written before its answer: DONE for k results and PARTIAL for fewer, with its context free; one with shards elsewhere keeps what was found here and waits for the others. A late read answers it TIER_LATE and a failed one TIER_FAULT, with no result written. An insertion that goes live makes its node live, and the shard's next operation is taken. The nodes that a repair pass began with are free or retired when it ends. A shard under deletion is gone once no query waits for it, and stays while one does. -/
def Obligations.RecallOperationsEnd : Prop :=
  (∀ (query : Nat) (s : State) (q : Query) (a : Ask) (tenant tag address : Nat), findQuery s query = some q → q.op = 0x0A → q.queued = false →
    q.failed = false → q.late = false → q.asker = .message a tenant tag address → (∀ n ∈ q.left, (findShard s q.index n).isSome = true) →
    ∀ rs, rs = ranked { q with left := [], found := q.found ++ localFound s q } →
    ∃ t w o, exec (.recallQueryComplete query) s = .next t ∧ findQuery t query = none ∧
      t.rcl.results = s.rcl.results ++ rs.mapIdx (fun i r =>
        { query := query, address := address + 24 * i, key := r.2.1, tags := r.2.2.1, distance := r.1, shard := r.2.2.2 }) ∧
      (fnOf t a.fn).waiting = (fnOf s a.fn).waiting ++ [w] ∧ w.body = .out o 0 ∧ o.opcode = a.opcode ∧ o.seq = a.seq ∧
      o.outcome = (if rs.length < q.k then .partialRes else .done) ∧ t = { s with rcl := t.rcl, fns := t.fns, sess := t.sess }) ∧
  (∀ (query : Nat) (s : State) (q : Query), findQuery s query = some q → q.op = 0x0A → q.queued = false → q.failed = false → q.late = false →
    (∃ n ∈ q.left, findShard s q.index n = none) →
    ∃ t, exec (.recallQueryComplete query) s = .next t ∧
      findQuery t query = some { q with left := q.left.filter (fun n => (findShard s q.index n).isNone), found := q.found ++ localFound s q } ∧
      t = { s with rcl := { s.rcl with queries := t.rcl.queries } }) ∧
  (∀ (c : Instr) (query : Nat) (s : State) (q : Query) (a : Ask) (tenant tag address : Nat),
    (c = .recallReadLate query ∨ c = .recallReadFailed query) → findQuery s query = some q → q.op = 0x0A → q.failed = false → q.late = false →
    q.asker = .message a tenant tag address → (∀ n ∈ q.left, (findShard s q.index n).isSome = true) →
    ∃ t w o, exec c s = .next t ∧ findQuery t query = none ∧ t.rcl.results = s.rcl.results ∧
      (fnOf t a.fn).waiting = (fnOf s a.fn).waiting ++ [w] ∧ w.body = .out o 0 ∧ o.opcode = a.opcode ∧ o.seq = a.seq ∧
      o.outcome = (if c = .recallReadLate query then .tierLate else .tierFault) ∧ t = { s with rcl := t.rcl, fns := t.fns, sess := t.sess }) ∧
  (∀ (index key n : Nat) (s : State) (sh : Shard) (q : Query) (x : Node),
    s.rcl.shards.find? (fun h => h.item.index == index && h.inserting.isSome && (keyNode h key).isSome) = some sh →
    findShard s index sh.item.shardNumber = some sh → sh.inserting = some n → findQuery s n = some q → q.key = key → keyNode sh key = some x →
    nodeOf sh x.num = some x → x.state = .linking →
    ∃ u sh' y, exec (.memorizeLive index key) s = .next (stepShard index sh.item.shardNumber (finishQuery q .done 0 u)) ∧
      findShard u index sh.item.shardNumber = some sh' ∧ sh'.inserting = none ∧ nodeOf sh' x.num = some y ∧ y.state = .live ∧ y.key = key ∧
      y.tags = x.tags ∧ y.code = x.code ∧ y.gen = x.gen ∧
      u = { s with rcl := { s.rcl with shards := u.rcl.shards }, tiers := u.tiers, free := u.free }) ∧
  (∀ (index shard : Nat) (s : State) (sh : Shard) (dead : List Nat), findShard s index shard = some sh → sh.repair = some dead →
    ∃ t sh', exec (.repairPassEnd index shard) s = .next t ∧ findShard t index shard = some sh' ∧
      (∀ n ∈ sh'.nodes, n.num ∈ dead → n.state = .free ∨ n.state = .retired) ∧
      t = { s with rcl := { s.rcl with shards := t.rcl.shards }, tiers := t.tiers, free := t.free }) ∧
  ∀ (index shard : Nat) (s : State) (sh : Shard), findShard s index shard = some sh → sh.deleting = true →
    ((∀ q ∈ s.rcl.queries, q.index = index → shard ∉ q.left) → ∃ t, exec (.indexDeleteEffect index shard) s = .next t ∧
      findShard t index shard = none ∧ t = { s with rcl := { s.rcl with shards := t.rcl.shards } } ∧
      ∀ i k, ¬(i = index ∧ k = shard) → findShard t i k = findShard s i k) ∧
    ((∃ q ∈ s.rcl.queries, q.index = index ∧ shard ∈ q.left) → exec (.indexDeleteEffect index shard) s = .next s)

/-- A node passes a filter exactly when its tags hold every bit of require and none of exclude, so that 0 and 0 pass every node. An edge is followed exactly when the node that the table names for it is linking, live or a tombstone and of the edge's generation. -/
def Obligations.FiltersAndEdgesOfASearch : Prop :=
  (∀ tags require exclude : Nat, passes tags require exclude = true ↔
    (∀ i, require.testBit i = true → tags.testBit i = true) ∧ ∀ i, exclude.testBit i = true → tags.testBit i = false) ∧
  (∀ tags : Nat, passes tags 0 0 = true) ∧
  ∀ (sh : Shard) (e : Nat × Nat) (n : Node), follow? sh e = some n ↔
    nodeOf sh e.1 = some n ∧ (n.state = .linking ∨ n.state = .live ∨ n.state = .tombstone) ∧ n.gen = e.2

/-- An accepted TAP_RELEASE of a position at least the last released one and at most the next write position releases every record below it: the position is the released one, no record below it is in the ring, and a CLOSED or LOST session that a released record reported has left the directory, before the backlog goes on. Any other position is refused with reason 10. -/
def Obligations.TapReleaseReleases : Prop :=
  ∀ (m : Sprue) (s : State) (v : Nat), Accepts m s → msgOpcode m = 0x10 → msgAt m 16 8 = v →
    ((fnOf (acceptMsg m s) m.fn).released ≤ v → v ≤ (fnOf (acceptMsg m s) m.fn).next →
      ∃ u, exec (.tapRelease m) s = .next (drainBacklog m.fn u) ∧ (fnOf u m.fn).released = v ∧
        (fnOf u m.fn).inRing = (fnOf (acceptMsg m s) m.fn).inRing.filter (fun r => decide (v ≤ r.pos)) ∧
        ∀ r ∈ (fnOf (acceptMsg m s) m.fn).inRing, ∀ o x, r.pos < v → r.body = .outcome o → o.reports = true →
          findSess (acceptMsg m s) o.handle = some x →
          (x.state = .closed ∨ x.state = .lost → findSess u o.handle = none) ∧
          (x.state ≠ .closed → x.state ≠ .lost → (findSess u o.handle).isSome = true)) ∧
    (v < (fnOf (acceptMsg m s) m.fn).released ∨ (fnOf (acceptMsg m s) m.fn).next < v →
      exec (.tapRelease m) s = .next (answerMsg m .malformed 10 0 (acceptMsg m s)))

/-- An overrun of the envelope with a pour in flight is counted and lowers every live SC die's core rail by 50 mV, to no less than 550 mV; without one it does nothing. A voltage write that no regulator acknowledged leaves the asked voltage on record, with a health event. A reading with every fitted die under 95 °C takes the temperatures and ends a halt; with one from 95 to 104 °C its rail is no higher than its cap; with a fitted die at 105 °C or not read every fitted die's rail is at 550 mV and planning is halted. A lost chill module is no longer counted on, before the hold-up bound is held. With no pour in flight the clusters' power goes off. A thermal trip drives THERMTRIP_N low. A fitted die whose PLL loses lock has its meter marked so, and marked locked again when it regains lock, each with a health event; for a die that is not fitted nothing happens; ports of a PX die that are neither UP, OFF nor DARK are then in training. -/
def Obligations.HeatAndPowerEventsAct : Prop :=
  (∀ s : State, (s.sched.pour.isSome = true → 8 ≤ s.ledger.rails.length →
      ∃ t, exec .envelopeOverrun s = .next t ∧ t.ledger.overruns = s.ledger.overruns + 1 ∧
        (∀ d, d ∉ liveScs s → railOf t d = railOf s d) ∧
        (∀ d ∈ liveScs s, 550 ≤ (railOf t d).mv ∧ (railOf t d).mv ≤ max 550 ((railOf s d).mv - 50) ∧
          ((liveScs s).Nodup → (railOf t d).mv = max 550 ((railOf s d).mv - 50))) ∧
        t = { s with ledger := { s.ledger with overruns := t.ledger.overruns, rails := t.ledger.rails }, outs := { s.outs with volts := t.outs.volts } }) ∧
    (s.sched.pour = none → exec .envelopeOverrun s = .next s)) ∧
  (∀ (rail mv : Nat) (s : State) (r : RailV), s.ledger.rails[rail]? = some r →
    ∃ t, exec (.avsbusWriteUnacked rail mv) s = .next t ∧ t.ledger.rails[rail]? = some { r with asked := some mv } ∧
      (∀ k, k ≠ rail → t.ledger.rails[k]? = s.ledger.rails[k]?) ∧ t.dev.events = s.dev.events + 1 ∧ t.sess = s.sess ∧ t.tens = s.tens ∧
      t.sched = s.sched ∧ t.links = s.links ∧ t.pins = s.pins) ∧
  (∀ (temps : List (Option Nat)) (s : State),
    ((∀ d ∈ diesFitted s.part, ∃ c, temps.getD d (some 0) = some c ∧ c < 95) →
      ∃ t, exec (.thermalRead temps) s = .next t ∧ t.ledger.halted = false ∧
        (∀ d ∈ diesFitted s.part, some (tempOf t d) = temps.getD d (some 0)) ∧
        t = { s with ledger := { s.ledger with temps := t.ledger.temps, halted := false } }) ∧
    ((∀ d ∈ diesFitted s.part, ∃ c, temps.getD d (some 0) = some c ∧ c < 105) → 8 ≤ s.ledger.rails.length →
      ∃ t, exec (.thermalRead temps) s = .next t ∧ (s.ledger.halted = false → t.ledger.halted = false) ∧
        (∀ d ∈ diesFitted s.part, ∀ c, temps.getD d (some 0) = some c → 95 ≤ c → (railOf t d).mv ≤ max 550 (targetMv s - 20 * (c - 95))) ∧
        t = { s with ledger := { s.ledger with temps := t.ledger.temps, rails := t.ledger.rails, halted := t.ledger.halted }, outs := { s.outs with volts := t.outs.volts } }) ∧
    ((∃ d ∈ diesFitted s.part, temps.getD d (some 0) = none ∨ ∃ c, temps.getD d (some 0) = some c ∧ 105 ≤ c) → 8 ≤ s.ledger.rails.length →
      ∃ t, exec (.thermalRead temps) s = .next t ∧ t.ledger.halted = true ∧ (∀ d ∈ diesFitted s.part, (railOf t d).mv = 550) ∧
        t.dev.events = s.dev.events + (if s.ledger.halted then 0 else 1) ∧ t.sess = s.sess ∧ t.sched = s.sched ∧ t.links = s.links)) ∧
  (∀ (hub : Nat) (s : State), hub < s.dev.chill.length →
    ∃ u, exec (.chillModuleLost hub) s = .next (holdBound 0 u) ∧ u.dev.chill[hub]? = some false ∧
      (∀ k, k ≠ hub → u.dev.chill[k]? = s.dev.chill[k]?) ∧ u = { s with dev := { s.dev with chill := u.dev.chill } }) ∧
  (∀ s : State, (s.sched.pour = none → exec .clusterIdlePowerOff s = .next { s with sched := { s.sched with clustersOn := false } }) ∧
    (s.sched.pour.isSome = true → exec .clusterIdlePowerOff s = .next s)) ∧
  (∀ (die : Nat) (s : State), exec (.thermtrip die) s = .next { s with pins := { s.pins with tripLow := true } }) ∧
  (∀ (die : Nat) (s : State), die ∉ diesFitted s.part → exec (.pllLossOfLock die) s = .next s ∧ exec (.pllLockRegained die) s = .next s) ∧
  (∀ (die : Nat) (s : State) (m : Meter), die ∈ diesFitted s.part → s.dev.meters[die]? = some m →
    ∃ t, exec (.pllLossOfLock die) s = .next t ∧ t.dev.meters[die]? = some { m with locked := false } ∧
      (∀ k, k ≠ die → t.dev.meters[k]? = s.dev.meters[k]?) ∧ t.dev.events = s.dev.events + 1 ∧
      (t.dev.log.getLast?.map LogEntry.data) = some die ∧ t.sess = s.sess ∧ t.links = s.links ∧ t.fns = s.fns ∧ t.ledger = s.ledger) ∧
  ∀ (die : Nat) (s : State) (m : Meter), die ∈ diesFitted s.part → s.dev.meters[die]? = some m → (∀ p ∈ s.links.ports, p.num / 16 + 4 = die → p.state ≠ .up) →
    ∃ t, exec (.pllLockRegained die) s = .next t ∧ t.dev.meters[die]? = some { m with locked := true } ∧ t.dev.events = s.dev.events + 1 ∧
      (∀ n p, findPort s n = some p → n / 16 + 4 = die → p.state ≠ .off → p.state ≠ .dark → ∃ q, findPort t n = some q ∧ q.state = .training) ∧
      (∀ n, n / 16 + 4 ≠ die → findPort t n = findPort s n) ∧ t.sess = s.sess ∧ t.sched = s.sched ∧ t.tiers = s.tiers

/-- A port in training whose peer answers is MISWIRED (reason 6 for no kind, 3 for an identity that does not fit), DOWN (5) where its link layer does not come up, or UP at its width; one whose training takes too long is DOWN with the reason of its step. A first lost wavelength takes the spare, named in the health log where the port is in training; a second, in either direction, retrains the UP port, or takes it DOWN (2) past nine lost, and its paths are lost after; a laser feed that leaves eight lines or more loses its wavelengths one after another. Light lost, a laser feed low or a fatal error take a port DOWN (1, 2 or 5) or DARK (4), an UP one losing its paths after. A DARK port whose feed is back trains, and so does a port in trouble at its retry with 8 lines or more; with fewer it is DARK with reason 4. A drained port is OFF with its new role, and trains where it has one, its module's lasers following. -/
def Obligations.PortsTrainAndFail : Prop :=
  (∀ (n width : Nat) (swap linkUp : Bool) (peer : Identity) (s : State) (p : Port), findPort s n = some p → p.state = .training →
    ∃ t, exec (.portTrained n width swap peer linkUp) s = .next t ∧
      findPort t n = some (if peer.kind = 0 then { p with swap := swap, peer := some peer, state := .miswired, reason := 6, width := 0 }
        else if peerFits s p peer = false then { p with swap := swap, peer := some peer, state := .miswired, reason := 3, width := 0 }
        else if linkUp = false then { p with swap := swap, peer := some peer, state := .down, reason := 5, width := 0 }
        else { p with swap := swap, peer := some peer, state := .up, width := if width = 8 then 8 else 16 }) ∧
      (∀ k, k ≠ n → findPort t k = findPort s k) ∧
      t = { s with links := { s.links with ports := t.links.ports }, fns := t.fns, outs := t.outs }) ∧
  (∀ (n : Nat) (c : Instr) (s : State) (p q : Port), findPort s n = some p →
    ((∃ step, c = .portTrainingTimeout n step ∧ p.state = .training ∧ q = { p with state := .down, reason := stepReason step, width := 0 }) ∨
      (c = .laserFeedRestored n ∧ p.state = .dark ∧ q = { p with state := .training, width := 0, trainings := p.trainings + 1 }) ∨
      (∃ lines, c = .portRetryInterval n lines ∧ (p.state = .dark ∨ p.state = .miswired ∨ p.state = .down) ∧ 8 ≤ lines ∧
        q = { p with peer := none, lostIn := [], spareIn := none, state := .training, width := 0, trainings := p.trainings + 1 }) ∨
      (∃ lines, c = .portRetryInterval n lines ∧ (p.state = .miswired ∨ p.state = .down) ∧ lines < 8 ∧
        q = { p with state := .dark, reason := 4, width := 0 }) ∨
      (∃ lines, c = .portRetryInterval n lines ∧ p.state = .dark ∧ lines < 8 ∧ q = { p with reason := 4 }) ∨
      (∃ noLight k, c = .portLightLost n noLight k ∧ (p.state = .training ∨ p.state = .miswired) ∧
        q = { p with state := .down, reason := if noLight then 1 else 2, width := 0 }) ∨
      (∃ lost k, c = .laserFeedLow n lost k ∧ 17 - lost.length < 8 ∧ (p.state = .training ∨ p.state = .miswired ∨ p.state = .down) ∧
        q = { p with state := .dark, reason := 4, width := 0 }) ∨
      (∃ k, c = .linkLayerFatal n k ∧ p.state = .training ∧ q = { p with state := .down, reason := 5, width := 0 }) ∨
      (∃ w k, c = .wavelengthSpare n true w k ∧ p.state = .up ∧ w ∉ p.lostOut ∧ p.spareOut = none ∧ q = { p with spareOut := some w }) ∨
      (∃ w k, c = .wavelengthSpare n false w k ∧ p.state = .up ∧ w ∉ p.lostIn ∧ p.spareIn = none ∧ q = { p with spareIn := some w })) →
    ∃ t, exec c s = .next t ∧ findPort t n = some q ∧ (∀ k, k ≠ n → findPort t k = findPort s k) ∧
      t = { s with links := { s.links with ports := t.links.ports }, fns := t.fns, outs := t.outs }) ∧
  (∀ (n w k : Nat) (out : Bool) (s : State) (p : Port), findPort s n = some p → p.state = .training →
    ∃ t, exec (.wavelengthSpare n out w k) s = .next t ∧ findPort t n = some (loseWave out w p) ∧ (∀ j, j ≠ n → findPort t j = findPort s j) ∧
      t.dev.events = s.dev.events + 1 ∧ (t.dev.log.getLast?.map LogEntry.data) = some (n * 256 + w) ∧ t.dev.code = s.dev.code ∧
      t = { s with links := { s.links with ports := t.links.ports }, dev := t.dev, free := t.free }) ∧
  (∀ (w : Nat) (p : Port), (w ∉ p.lostOut → p.spareOut = none → loseWave true w p = { p with spareOut := some w }) ∧
    (w ∉ p.lostIn → p.spareIn = none → loseWave false w p = { p with spareIn := some w })) ∧
  (∀ (n k : Nat) (c : Instr) (s : State) (p q : Port), findPort s n = some p → p.state = .up →
    ((∃ noLight, c = .portLightLost n noLight k ∧ q = { p with state := .down, reason := if noLight then 1 else 2, width := 0 }) ∨
      (∃ lost, c = .laserFeedLow n lost k ∧ 17 - lost.length < 8 ∧ q = { p with state := .dark, reason := 4, width := 0 }) ∨
      (c = .linkLayerFatal n k ∧ q = { p with state := .down, reason := 5, width := 0 }) ∨
      (∃ w v, c = .wavelengthSpare n true w k ∧ p.spareOut = some v ∧ w ∉ p.lostOut ∧ w ≠ v ∧
        (if 9 < p.lostOut.length + 2 ∨ 9 < (lostOf p false).length then q = { p with lostOut := p.lostOut ++ [w], state := .down, reason := 2, width := 0 }
         else q = { p with lostOut := p.lostOut ++ [w], state := .training, width := 0, trainings := p.trainings + 1 })) ∨
      (∃ w v, c = .wavelengthSpare n false w k ∧ p.spareIn = some v ∧ w ∉ p.lostIn ∧ w ≠ v ∧
        (if 9 < (lostOf p true).length ∨ 9 < p.lostIn.length + 2 then q = { p with lostIn := p.lostIn ++ [w], state := .down, reason := 2, width := 0 }
         else q = { p with lostIn := p.lostIn ++ [w], state := .training, width := 0, trainings := p.trainings + 1 }))) →
    ∃ u, exec c s = .next (drainAll (pathLoss n k u)) ∧ findPort u n = some q ∧ (∀ j, j ≠ n → findPort u j = findPort s j) ∧
      u = { s with links := { s.links with ports := u.links.ports }, fns := u.fns, outs := u.outs }) ∧
  (∀ (n k : Nat) (lost : List Nat) (s : State), 8 ≤ 17 - lost.length →
    exec (.laserFeedLow n lost k) s = .next (forEach lost (fun w t => spareWave n true w k t) s)) ∧
  (∀ (n k w : Nat) (out : Bool) (s : State), exec (.wavelengthSpare n out w k) s = .next (spareWave n out w k s)) ∧
  ∀ (n lines : Nat) (s : State) (p : Port) (d : PortDesc), findPort s n = some p → p.leaving = some d →
    ∃ t q, exec (.portRoleDrained n lines) s = .next t ∧ findPort t n = some q ∧ q.leaving = none ∧ q.want = d ∧ q.role = d.role ∧
      (d.role = 0 → q.state = .off ∧ q.reason = 7) ∧ (d.role ≠ 0 → 8 ≤ lines → q.state = .training) ∧
      (d.role ≠ 0 → lines < 8 → q.state = .dark ∧ q.reason = 4) ∧ (∀ j, j ≠ n → findPort t j = findPort s j) ∧
      t = { s with links := { s.links with ports := t.links.ports, lasers := t.links.lasers }, fns := t.fns, outs := t.outs }

/-- A write or a read request under an epoch published and not yet applied is held. A write under no live epoch, or that its window does not allow, is counted as refused at the window and stores nothing; one that its window takes is landed there, and a window that is neither for landing nor for results stores each of its lines. A read request is answered with its own tag on its flow's port, whose classes send it, and with no class shaped, no gate list and no unit waiting at once: its lines, or poisoned with reason 5 for its epoch and 3 for its window. A response retires its tag; of a tag not in use it does nothing. A poisoned response to a manager's read counts at its port, and a timeout ends any read as a poisoned response does, with the reason that the model chooses (log entry 50). A notice of a package that cannot be reached is kept until one that it can be. -/
def Obligations.FabricTrafficIsChecked : Prop :=
  (∀ (port : Nat) (h : FabricHdr) (lines : List Line) (s : State),
    (epochSays s h.epoch = .future → exec (.fabricWriteReceived port h lines) s =
        .next { s with links := { s.links with held := s.links.held ++ [.fabricWriteReceived port h lines] } } ∧
      exec (.fabricReadRequest port h) s = .next { s with links := { s.links with held := s.links.held ++ [.fabricReadRequest port h] } }) ∧
    (epochSays s h.epoch = .other ∨ (epochSays s h.epoch = .live ∧ winAllows s h true = none) →
      ∃ t, exec (.fabricWriteReceived port h lines) s = .next t ∧
        (∀ w, findWin s h.window = some w → findWin t h.window = some { w with refused := w.refused + 1 }) ∧
        (∀ k, k ≠ h.window → findWin t k = findWin s k) ∧ t = { s with links := { s.links with windows := t.links.windows } }) ∧
    (∀ w, epochSays s h.epoch = .live → winAllows s h true = some w → w.kind ≠ 1 → w.kind ≠ 4 →
      ∃ u w', exec (.fabricWriteReceived port h lines) s = .next (drainAll u) ∧ findWin u h.window = some w' ∧
        (∀ i l, (lines.take h.count)[i]? = some l → (h.offset + i, l) ∈ w'.data) ∧
        (∀ d ∈ w.data, d.1 < h.offset ∨ h.offset + (lines.take h.count).length ≤ d.1 → d ∈ w'.data) ∧
        (∀ k, k ≠ h.window → findWin u k = findWin s k) ∧ u = { s with links := { s.links with windows := u.links.windows } }) ∧
    (∀ w, epochSays s h.epoch = .live → winAllows s h true = some w →
      exec (.fabricWriteReceived port h lines) s = .next (drainAll (landWrite w h.offset (lines.take h.count) s)))) ∧
  (∀ (port p e d c : Nat) (h : FabricHdr) (s : State) (q : Port), epochSays s h.epoch ≠ .future → findPort s p = some q →
    s.links.flows.find? (fun (f : Nat × Nat × Nat × Nat) => f.1 == 0 && f.2.1 == h.source && f.2.2.1 == h.cls) = some (e, d, c, p) →
    ∃ t o, exec (.fabricReadRequest port h) s = .next t ∧ t.links.out = s.links.out ++ (offerUnit o q).2 ∧
      findPort t p = some (offerUnit o q).1 ∧ (∀ k, k ≠ p → findPort t k = findPort s k) ∧
      (q.queue = [] → q.gates = [] → q.shares = [] → h.cls < 8 → t.links.out = s.links.out ++ [o] ∧ (offerUnit o q).1.queue = []) ∧
      o.port = p ∧ o.hdr.dest = h.source ∧ o.hdr.cls = h.cls ∧
      o.hdr.tag = h.tag ∧ o.hdr.window = h.window ∧ o.hdr.offset = h.offset ∧ o.hdr.count = h.count ∧
      (epochSays s h.epoch = .other → o.hdr.kind = 4 ∧ o.hdr.reason = 5 ∧ o.lines = []) ∧
      (epochSays s h.epoch = .live → winAllows s h false = none → o.hdr.kind = 4 ∧ o.hdr.reason = 3 ∧ o.lines = []) ∧
      (∀ w, epochSays s h.epoch = .live → winAllows s h false = some w →
        o.hdr.kind = 3 ∧ o.hdr.reason = 0 ∧ o.lines = winLines s w h.offset h.count ∧ o.lines.length = h.count) ∧
      t = { s with links := { s.links with out := t.links.out, ports := t.links.ports }, free := t.free }) ∧
  (∀ (port : Nat) (h : FabricHdr) (s : State),
    ((∀ r ∈ s.links.reads, r.tag ≠ h.tag) → exec (.fabricReadResponse port h) s = .next s ∧ exec (.fabricReadTimeout h.tag) s = .next s) ∧
    (∀ r, s.links.reads.find? (fun (r : FRead) => r.tag == h.tag) = some r →
      (h.kind ≠ 4 → exec (.fabricReadResponse port h) s =
        .next (tryRetire { s with links := { s.links with reads := s.links.reads.filter fun k => k.tag != h.tag } })) ∧
      exec (.fabricReadTimeout h.tag) s = exec (.fabricReadResponse port { h with kind := 4, reason := timeoutReason }) s ∧
      (h.kind = 4 → r.issuer = .manager → ∃ u, exec (.fabricReadResponse port h) s = .next (tryRetire (drainAll u)) ∧
        u.links.reads = s.links.reads.filter (fun k => k.tag != h.tag) ∧
        (∀ q, findPort s r.port = some q → findPort u r.port = some { q with poisoned := q.poisoned + 1 }) ∧
        (∀ k, k ≠ r.port → findPort u k = findPort s k) ∧ u.sess = s.sess ∧ u.rcl = s.rcl ∧ u.sched = s.sched))) ∧
  ∀ (h : FabricHdr) (s : State),
    (h.reason = 1 → (∀ r ∈ s.links.reads, r.dest ≠ h.dest) → ∃ u, exec (.fabricNotice h) s = .next (drainAll u) ∧
      h.dest ∈ u.links.unreachable ∧ (∀ k ∈ s.links.unreachable, k ∈ u.links.unreachable) ∧
      u = { s with links := { s.links with unreachable := u.links.unreachable } }) ∧
    (h.reason = 0 → ∃ t, exec (.fabricNotice h) s = .next t ∧ h.dest ∉ t.links.unreachable ∧
      (∀ k ∈ s.links.unreachable, k ≠ h.dest → k ∈ t.links.unreachable) ∧
      t = { s with links := { s.links with unreachable := t.links.unreachable } })

/-- Of a direction of a bundle that the part has, that is not fenced and to which the line's pair of engines is mapped: a good line is delivered where it carries data, the next sequence number is expected, and the pair stays mapped; a bad one delivers nothing and is asked for again; one that blames a group counts against it, and the third failed check within 1,048,576 lines has the group spared. The sender keeps its last 64 lines. A resend request has the lines from its number on sent again. A stuck wire and a sparing notice shift the group onto a spare where one is free and the group has not been spared, with a health event; the receiver tells the sender, and the sender sends again. A notice for a direction with eight spares used fences the bundle in both directions, with nothing sent again. A line that cannot travel changes nothing. -/
def Obligations.RunnersCarryLines : Prop :=
  (∀ (l : RunnerLine) (s : State) (x : Bundle), lineTravels s l = true → bundleOf s l.runner l.bundle l.dir = x →
    (lineGood x l = true → ∃ t y, exec (.runnerLineReceived l) s = .next t ∧ bundleOf t l.runner l.bundle l.dir = y ∧
      y.expect = (x.expect + 1) % 256 ∧ y.delivered = x.delivered ++ (if l.kind = 0 then [(l.src, l.dst, l.data)] else []) ∧
      y.lines = x.lines + 1 ∧ y.sent.length ≤ 64 ∧ y.resends = x.resends ∧ y.spared = x.spared ∧ y.replay = x.replay.filter (· != l.seq) ∧
      (l.kind = 0 → pairBundle l t = l.bundle) ∧
      (∀ r b d, (r, b, d) ≠ (l.runner, l.bundle, l.dir) → bundleOf t r b d = bundleOf s r b d) ∧
      t = { s with links := { s.links with bundles := t.links.bundles, pairs := t.links.pairs } }) ∧
    (lineGood x l = false → ∃ u y, bundleOf u l.runner l.bundle l.dir = y ∧ y.lines = x.lines + 1 ∧
      y.resends = x.resends ++ [(x.expect, !l.waiting)] ∧ y.delivered = x.delivered ∧ y.expect = x.expect ∧ y.spared = x.spared ∧
      (∀ r b d, (r, b, d) ≠ (l.runner, l.bundle, l.dir) → bundleOf u r b d = bundleOf s r b d) ∧
      u = { s with links := { s.links with bundles := u.links.bundles, pairs := u.links.pairs } } ∧
      (l.badGroup = none → y.checks = x.checks ∧ exec (.runnerLineReceived l) s = .next u) ∧
      ∀ g, l.badGroup = some g → (g, x.lines + 1) ∈ y.checks ∧
        (recentChecks y g < 3 → exec (.runnerLineReceived l) s = .next u) ∧
        (3 ≤ recentChecks y g → exec (.runnerLineReceived l) s = .next (noticeSpare l.runner l.bundle l.dir g u)))) ∧
  (∀ (l : RunnerLine) (s : State), lineTravels s l = false → exec (.runnerLineReceived l) s = .next s) ∧
  (∀ (r b seq : Nat) (d : Bool) (s : State) (x : Bundle), hasBundle s r b = true → bundleOf s r b d = x → x.fenced = false →
    ∃ t, exec (.runnerResendRequest r ⟨b, d⟩ seq) s = .next t ∧
      bundleOf t r b d = { x with replay := (x.sent.dropWhile fun e => e.1 != seq).map Prod.fst } ∧
      t = { s with links := { s.links with bundles := t.links.bundles } }) ∧
  (∀ (r b g : Nat) (d : Bool) (s : State) (x : Bundle), hasBundle s r b = true → bundleOf s r b d = x → x.fenced = false → g ∉ x.spared →
    x.spared.length < 8 →
    (∃ t y, exec (.runnerStuckWire r ⟨b, d⟩ g) s = .next t ∧ bundleOf t r b d = y ∧ y.spared = x.spared ++ [g] ∧ y.notices = x.notices ++ [g] ∧
      y.fenced = false ∧ y.expect = x.expect ∧ t.dev.events = s.dev.events + 1 ∧ t.sess = s.sess ∧ t.sched = s.sched) ∧
    ∃ t y, exec (.runnerSparingNotice r ⟨b, d⟩ g) s = .next t ∧ bundleOf t r b d = y ∧ y.spared = x.spared ++ [g] ∧ y.notices = x.notices ∧
      y.replay = (x.sent.dropWhile fun e => e.1 != x.expect).map Prod.fst ∧ y.fenced = false ∧ t.dev.events = s.dev.events + 1 ∧
      t.sess = s.sess ∧ t.sched = s.sched) ∧
  ∀ (r b g : Nat) (d : Bool) (s : State) (x : Bundle), hasBundle s r b = true → bundleOf s r b d = x → x.fenced = false →
    (bundleOf s r b false).fenced = false → g ∉ x.spared → 8 ≤ x.spared.length →
    (∃ k, k < runnerBundles s.part r ∧ k ≠ b ∧ (bundleOf s r k false).fenced = false) →
    ∃ t, exec (.runnerSparingNotice r ⟨b, d⟩ g) s = .next t ∧ (∀ e, (bundleOf t r b e).fenced = true) ∧ (bundleOf t r b d).replay = [] ∧
      t.dev.events = s.dev.events + 1 ∧ t.sess = s.sess ∧ t.links.lostRunners = s.links.lostRunners

/-- A listed source that fires is pending, or, as the only ready one of a core that takes it, delivered: active, no longer pending, its priority running, the interrupt flag clear and the vector address at 8 bytes a source from the base. One not listed does nothing. A write of a source's configuration sets its priority and enable, and its pending bit is set by a 1 in set, cleared by a 1 in pending and kept by zeros; a write of deliver sets the bit and the base. With the core's flag clear neither delivers anything, and otherwise a source stays pending or becomes active. The end of a service leaves its source not active, one level less deep, with the highest source still active running; one of a source not active is only logged. A core that waits sleeps unless a source is ready. A watchdog write clears the half-period mark, and half a period sets it and fires source 1. Each changes its own core alone. -/
def Obligations.EventControllersDeliver : Prop :=
  (∀ (id : CoreId) (n : Nat) (s : State) (c : Core) (x : EvSrc), coreOf s id = c → srcOf c n = x →
    (sourceListed s.part id n = false → exec (.eventSourceFire id n) s = .next s) ∧
    (sourceListed s.part id n = true →
      (c.ie = false → ∃ t, exec (.eventSourceFire id n) s = .next t ∧ srcOf (coreOf t id) n = { x with pending := true } ∧
        (x.enable = true → x.active = false → (coreOf t id).asleep = false) ∧ (coreOf t id).vector = c.vector ∧
        (∀ k, k ≠ n → srcOf (coreOf t id) k = srcOf c k) ∧ (∀ j, j ≠ id → coreOf t j = coreOf s j) ∧
        t = { s with cores := { s.cores with cores := t.cores.cores } }) ∧
      ((∀ y ∈ c.srcs, y.num ≠ n → srcReady y = false) → x.enable = true → x.active = false → c.deliver = true → c.ie = true →
          x.priority < c.running → c.faulted = false → c.fenced = false →
        ∃ t, exec (.eventSourceFire id n) s = .next t ∧ srcOf (coreOf t id) n = { x with pending := false, active := true } ∧
          (coreOf t id).vector = some (c.base + 8 * n) ∧ (coreOf t id).running = x.priority ∧ (coreOf t id).depth = c.depth + 1 ∧
          (coreOf t id).ie = false ∧ (coreOf t id).asleep = false ∧ (∀ j, j ≠ id → coreOf t j = coreOf s j) ∧
          t = { s with cores := { s.cores with cores := t.cores.cores } }))) ∧
  (∀ (id : CoreId) (n : Nat) (ie : Bool) (s : State) (c : Core) (x : EvSrc), coreOf s id = c → srcOf c n = x → (∀ y ∈ c.srcs, y.pending = false) →
    (x.active = true → ∃ t, exec (.evcEosWrite id n ie) s = .next t ∧ srcOf (coreOf t id) n = { x with active := false } ∧
      (coreOf t id).depth = c.depth - 1 ∧ (∀ y ∈ c.srcs, y.active = true → y.num ≠ n → (coreOf t id).running ≤ y.priority) ∧
      (coreOf t id).ie = ie ∧ (∀ j, j ≠ id → coreOf t j = coreOf s j) ∧ t = { s with cores := { s.cores with cores := t.cores.cores } }) ∧
    (x.active = false → ∃ t, exec (.evcEosWrite id n ie) s = .next t ∧ coreOf t id = { c with ie := ie } ∧ t.dev.logNext = s.dev.logNext + 1 ∧
      (t.dev.log.getLast?.map LogEntry.data) = some n ∧ (∀ j, j ≠ id → coreOf t j = coreOf s j) ∧ t.sess = s.sess ∧ t.sched = s.sched)) ∧
  (∀ (id : CoreId) (n priority : Nat) (enable set clear ie : Bool) (s : State) (x : EvSrc), srcOf (coreOf s id) n = x →
    (∃ t y, exec (.srcCfgSet id n priority ⟨enable, set, clear⟩ ie) s = .next t ∧ srcOf (coreOf t id) n = y ∧
      y.priority = priority % 16 ∧ y.enable = enable ∧
      (y.pending = true ∨ y.active = true ↔ set = true ∨ (x.pending = true ∧ clear = false) ∨ x.active = true) ∧
      (ie = false → y = { x with priority := priority % 16, enable := enable, pending := (x.pending && !clear) || set } ∧
        ∀ k, k ≠ n → srcOf (coreOf t id) k = srcOf (coreOf s id) k) ∧
      (∀ j, j ≠ id → coreOf t j = coreOf s j) ∧ t = { s with cores := { s.cores with cores := t.cores.cores } }) ∧
    ∃ t y, exec (.srcCfgPendingClear id n priority enable ie) s = .next t ∧ srcOf (coreOf t id) n = y ∧
      y = { x with priority := priority % 16, enable := enable, pending := false } ∧
      (ie = false → ∀ k, k ≠ n → srcOf (coreOf t id) k = srcOf (coreOf s id) k) ∧
      (∀ j, j ≠ id → coreOf t j = coreOf s j) ∧ t = { s with cores := { s.cores with cores := t.cores.cores } }) ∧
  (∀ (id : CoreId) (value ie : Bool) (base : Nat) (s : State),
    ∃ t, exec (.evcDeliverWrite id value base ie) s = .next t ∧ (coreOf t id).deliver = value ∧
      (coreOf t id).base = base % 2 ^ 48 / 2048 * 2048 ∧ (ie = false → (coreOf t id).srcs = (coreOf s id).srcs) ∧
      (∀ j, j ≠ id → coreOf t j = coreOf s j) ∧ t = { s with cores := { s.cores with cores := t.cores.cores } }) ∧
  (∀ (id : CoreId) (ie : Bool) (s : State), ∃ t, exec (.coreWait id ie) s = .next t ∧
    ((∀ y ∈ (coreOf s id).srcs, srcReady y = false) → coreOf t id = { coreOf s id with ie := ie, asleep := true }) ∧
    ((∃ y ∈ (coreOf s id).srcs, srcReady y = true) → (coreOf t id).asleep = false) ∧ (∀ j, j ≠ id → coreOf t j = coreOf s j) ∧
    t = { s with cores := { s.cores with cores := t.cores.cores } }) ∧
  (∀ (id : CoreId) (s : State), exec (.meterAlarm id) s = exec (.eventSourceFire id 0) s ∧
    (∃ t, exec (.watchdogWrite id) s = .next t ∧ coreOf t id = { coreOf s id with halfSeen := false } ∧
      (∀ j, j ≠ id → coreOf t j = coreOf s j) ∧ t = { s with cores := { s.cores with cores := t.cores.cores } }) ∧
    ∃ t, exec (.watchdogHalfPeriod id) s = .next t ∧ (coreOf t id).halfSeen = true ∧
      ((srcOf (coreOf t id) 1).pending = true ∨ (srcOf (coreOf t id) 1).active = true) ∧
      (∀ j, j ≠ id → coreOf t j = coreOf s j) ∧ t = { s with cores := { s.cores with cores := t.cores.cores } })

/-- A free semaphore goes to the context that asks, which holds fewer than four, and one with four is given no other. One held by another context that is not saved leaves the asker asleep and last in line. One held by a saved context as its only semaphore is revoked and goes to the asker: the saved context loses its shadow and restarts from its grant. Its owner alone frees it, its shadow committed: to nobody, or to the context first in line. A cleared revoked bit changes nothing else. -/
def Obligations.SemaphoresAreGranted : Prop :=
  (∀ (die n ctx : Nat) (s : State) (x : Sem) (c : Ctx), semOf s die n = x → ctxOf s die ctx = c →
    (x.owner = none → c.grants.length < 4 → ∃ t, exec (.semaphoreAcquire die n ctx) s = .next t ∧
      semOf t die n = { x with owner := some ctx } ∧ ctxOf t die ctx = { c with grants := c.grants ++ [n], asleep := false } ∧
      (∀ k, k ≠ n → semOf t die k = semOf s die k) ∧ (∀ k, k ≠ ctx → ctxOf t die k = ctxOf s die k) ∧
      t = { s with cores := { s.cores with sems := t.cores.sems, ctxs := t.cores.ctxs } }) ∧
    (∀ o, x.owner = some o → o ≠ ctx → c.grants.length < 4 → ctx ∉ x.waiters →
      ((ctxOf s die o).saved = none → ∃ t, exec (.semaphoreAcquire die n ctx) s = .next t ∧
        semOf t die n = { x with waiters := x.waiters ++ [ctx] } ∧ ctxOf t die ctx = { c with asleep := true } ∧
        (∀ k, k ≠ n → semOf t die k = semOf s die k) ∧ t = { s with cores := { s.cores with sems := t.cores.sems, ctxs := t.cores.ctxs } }) ∧
      ((ctxOf s die o).saved.isSome = true → (ctxOf s die o).grants = [n] → ∃ t, exec (.semaphoreAcquire die n ctx) s = .next t ∧
        semOf t die n = { x with owner := some ctx, revoked := true } ∧ ctxOf t die ctx = { c with grants := c.grants ++ [n], asleep := false } ∧
        (ctxOf t die o).shadow = 0 ∧ (ctxOf t die o).grants = [] ∧ (ctxOf t die o).restart.isSome = true ∧
        t = { s with cores := { s.cores with sems := t.cores.sems, ctxs := t.cores.ctxs } })) ∧
    (x.owner = some ctx ∨ 4 ≤ c.grants.length → exec (.semaphoreAcquire die n ctx) s = .next s)) ∧
  (∀ (die n ctx : Nat) (s : State) (x : Sem), semOf s die n = x →
    (x.owner ≠ some ctx → exec (.semaphoreRelease die n ctx) s = .next s) ∧
    (x.owner = some ctx → x.waiters = [] → ∃ t, exec (.semaphoreRelease die n ctx) s = .next t ∧ semOf t die n = { x with owner := none } ∧
      ctxOf t die ctx = { ctxOf s die ctx with shadow := 0, grants := (ctxOf s die ctx).grants.filter (· != n) } ∧
      (∀ k, k ≠ n → semOf t die k = semOf s die k) ∧ (∀ k, k ≠ ctx → ctxOf t die k = ctxOf s die k) ∧
      t = { s with cores := { s.cores with sems := t.cores.sems, ctxs := t.cores.ctxs } }) ∧
    (∀ w ws, x.owner = some ctx → x.waiters = w :: ws → w ≠ ctx → ∃ t, exec (.semaphoreRelease die n ctx) s = .next t ∧
      semOf t die n = { x with owner := some w, waiters := ws } ∧
      ctxOf t die w = { ctxOf s die w with grants := (ctxOf s die w).grants ++ [n], asleep := false } ∧
      ctxOf t die ctx = { ctxOf s die ctx with shadow := 0, grants := (ctxOf s die ctx).grants.filter (· != n) } ∧
      t = { s with cores := { s.cores with sems := t.cores.sems, ctxs := t.cores.ctxs } })) ∧
  ∀ (die n : Nat) (s : State), ∃ t, exec (.semaphoreRevokedClear die n) s = .next t ∧ semOf t die n = { semOf s die n with revoked := false } ∧
    (∀ k, k ≠ n → semOf t die k = semOf s die k) ∧ t = { s with cores := { s.cores with sems := t.cores.sems } }

/-- A core that the part has not, or that has stopped already, faults no more. A fault of a cluster control core that a logical cluster uses is that cluster's fault; one of the following hub's cores stops the core, restarts the hub's cores and releases the answers that waited for them, and leaves the leading hub as it is. A fault of the leading hub's cores with a follower, and with no pour at its barrier, gives the lead to the follower, and so does its silence, which also records its die as failed. A heartbeat by itself holds nothing. A hub that restarts, not fenced and not failed, follows again with the active slot's firmware, the alias seed derived anew and fresh cores. The oldest answer that waits for the follower is given at its acknowledgement. A rolled hub that comes up moves the roll to its next step, and ends it DONE, with the fuses raised, when it was the second; one that does not ends it CHECK_FAILED. -/
def Obligations.FaultsChangeTheLeadingHub : Prop :=
  (∀ (id : CoreId) (cause : CoreFaultCause) (s : State),
    (coreFitted s.part id = false ∨ (coreOf s id).faulted = true ∨ (coreOf s id).fenced = true → exec (.coreFault id cause) s = .next s) ∧
    (∀ d n, id.cls = 3 → coreFitted s.part id = true → (coreOf s id).faulted = false → (coreOf s id).fenced = false →
      findDie s id.unit = some d → d.logical.findIdx? (fun k => k == some id.pos) = some n →
      ∃ u, exec (.coreFault id cause) s = exec (.clusterFault id.unit n) u ∧ (coreOf u id).faulted = true ∧ u.dies = s.dies ∧ u.sched = s.sched ∧
        u.sess = s.sess ∧ u.dev.logNext = s.dev.logNext + 1) ∧
    (id.cls < 3 → coreFitted s.part id = true → (coreOf s id).faulted = false → (coreOf s id).fenced = false → running s = true →
      hubServes s id.unit = true → id.unit < s.dev.hubs.length →
      (id.unit ≠ s.dev.leading → ∃ t, exec (.coreFault id cause) s = .next t ∧ (coreOf t id).faulted = true ∧
        (hubOf t id.unit).restarting = true ∧ t.stg.mirrors = [] ∧ t.dev.roll = none ∧ t.dev.leading = s.dev.leading ∧
        t.dev.logNext = s.dev.logNext + 1 ∧ t.sched = s.sched ∧ t.sess = s.sess ∧ t.tens = s.tens) ∧
      (id.unit = s.dev.leading → hasFollower s = true → (∀ p, s.sched.pour = some p → p.step ≠ 9) →
        ∃ t, exec (.coreFault id cause) s = .next t ∧ t.dev.leading = otherHub s.dev.leading ∧ (hubOf t id.unit).restarting = true ∧
          t.stg.mirrors = [] ∧ t.dev.roll = none)) ∧
    exec (.watchdogExpiry id) s = exec (.coreFault id .watchdog) s) ∧
  (∀ s : State, exec .heartbeat s = .next s ∧ (running s = false ∨ hasFollower s = false → exec .heartbeatMissed s = .next s) ∧
    (running s = true → hasFollower s = true → (∀ p, s.sched.pour = some p → p.step ≠ 9) →
      ∃ t, exec .heartbeatMissed s = .next t ∧ t.dev.leading = otherHub s.dev.leading ∧ 6 + s.dev.leading ∈ t.dev.failed ∧ t.dev.roll = none)) ∧
  (∀ (hub : Nat) (s : State) (h : Hub), s.dev.hubs[hub]? = some h → h.restarting = true → h.fenced = false → h.dieFailed = false →
    (∀ r, s.dev.roll = some r → r.hub ≠ hub) →
    ∃ t, exec (.hubCoresRejoin hub) s = .next t ∧ t.dev.hubs[hub]? = some { h with restarting := false, image := s.dev.slot, seed := aliasSeed s } ∧
      (∀ k, k ≠ hub → t.dev.hubs[k]? = s.dev.hubs[k]?) ∧ (∀ c ∈ t.cores.cores, ¬(c.id.cls < 3 ∧ c.id.unit = hub)) ∧
      t = { s with dev := { s.dev with hubs := t.dev.hubs }, pins := { s.pins with aliveLow := s.pins.aliveLow.set hub true }
                   cores := { s.cores with cores := t.cores.cores } }) ∧
  (∀ s : State, (s.stg.mirrors = [] → exec .configurationMirrorAck s = .next s) ∧
    (∀ w rest, s.stg.mirrors = w :: rest → (fnOf s w.q.fn).mb.busy = true → (fnOf s w.q.fn).mb.gen = w.q.gen →
      ∃ t, exec .configurationMirrorAck s = .next t ∧ t.stg.mirrors = rest ∧
        (fnOf t w.q.fn).mb = { (fnOf s w.q.fn).mb with busy := false, done := true, response := some { outcome := w.outcome, op := w.q.op, tag := w.q.tag, payload := w.payload } } ∧
        t = { s with stg := { s.stg with mirrors := rest }, fns := t.fns, outs := t.outs })) ∧
  ∀ (s : State) (ok : Bool), (s.dev.roll = none → exec (.hubRollHubReady ok) s = .next s) ∧
    (∀ r, s.dev.roll = some r →
      (r.step = 1 → s.sched.pour.isSome = true → ∃ t, exec (.hubRollHubReady true) s = .next t ∧ t.dev.roll = some { r with step := 2 } ∧
        (r.hub < s.dev.hubs.length → (hubOf t r.hub).restarting = false ∧ (hubOf t r.hub).image = (hubOf s r.hub).image) ∧
        t = { s with dev := { s.dev with hubs := t.dev.hubs, roll := t.dev.roll } }) ∧
      ((fnOf s r.req.fn).mb.busy = true → (fnOf s r.req.fn).mb.gen = r.req.gen →
        (r.step = 4 → ∃ t, exec (.hubRollHubReady true) s = .next t ∧ t.dev.roll = none ∧
          t.nor.fuses = max s.nor.fuses ((s.dev.image.map Image.securityVersion).getD 0) ∧ (fnOf t r.req.fn).mb.busy = false ∧
          (fnOf t r.req.fn).mb.response = some { outcome := .done, op := r.req.op, tag := r.req.tag, payload := [] } ∧
          t.sess = s.sess ∧ t.sched = s.sched) ∧
        (r.step = 1 ∨ r.step = 4 → ∃ t, exec (.hubRollHubReady false) s = .next t ∧ t.dev.roll = none ∧ t.nor = s.nor ∧
          (fnOf t r.req.fn).mb.busy = false ∧
          (fnOf t r.req.fn).mb.response = some { outcome := .checkFailed, op := r.req.op, tag := r.req.tag, payload := [] } ∧
          t.sess = s.sess ∧ t.sched = s.sched)))

/-- Of a package with no part in a rack, or whose cores do not run, no manager message changes anything. An entry with a bad crc is consumed and not answered; one taken before is consumed and acknowledged again, with nothing else of it, and under an older live epoch the answer names the package that the handle has moved to. An entry that crosses packages under an epoch is held while its epoch is published and not applied, and consumed and answered STALE_EPOCH, with the epoch held and the package moved to, and not carried out, under any other that is not live. A message whose kind is not gated so is never held. -/
def Obligations.ManagerEntriesAreTakenOnce : Prop :=
  ∀ (c : Instr) (h : MgrHdr) (s : State), (epochHdr c = some h ∨ anyHdr c = some h) →
    (onRack s = false → exec c s = .next s) ∧
    (onRack s = true → h.crcOk = false → exec c s = .next { s with rack := { s.rack with consumed := s.rack.consumed + 1 } }) ∧
    (onRack s = true → h.crcOk = true → (h.source, h.seq) ∈ s.rack.seen → (epochHdr c = some h → mgrEpoch s h.epoch = .live) →
      ∃ t m, exec c s = .next t ∧ t.rack.outbox = s.rack.outbox ++ [m] ∧ m.peer = h.source ∧ m.kind = 21 ∧
        m.body = [h.seq, s.rack.consumed + 1, ocode .done] ++
          (if h.epoch < newestEpoch s && s.rack.epochs.any (fun x => x.num == h.epoch) then [movedTo s h.handle] else []) ∧ t.rack.consumed = s.rack.consumed + 1 ∧
        t = { s with rack := { s.rack with nextSeq := t.rack.nextSeq, outbox := t.rack.outbox, consumed := t.rack.consumed } }) ∧
    (epochHdr c = some h → onRack s = true → h.crcOk = true →
      (mgrEpoch s h.epoch = .future → ∃ t, exec c s = .next t ∧ c ∈ t.rack.heldMgr ∧ (∀ k ∈ s.rack.heldMgr, k ∈ t.rack.heldMgr) ∧
        t = { s with rack := { s.rack with heldMgr := t.rack.heldMgr } }) ∧
      (mgrEpoch s h.epoch = .other → ∃ t m, exec c s = .next t ∧ t.rack.outbox = s.rack.outbox ++ [m] ∧ m.peer = h.source ∧ m.kind = 21 ∧
        m.body = [h.seq, s.rack.consumed + 1, ocode .staleEpoch, newestEpoch s, movedTo s h.handle] ∧ t.rack.consumed = s.rack.consumed + 1 ∧
        t = { s with rack := { s.rack with nextSeq := t.rack.nextSeq, outbox := t.rack.outbox, consumed := t.rack.consumed } }))

/-- A manager that a package joins lists it under its number, known or fresh, with the highest serial block end of that number, and sends it the number and the end recorded before; with 63 live workers or every number in use it refuses a package that has none (in the form the model chose, log entry 82). A worker takes its number and continues its serials above the end it is given, or learns that it is refused (with the number the model chose, log entry 82). A newer map is kept until the boundary while a pour is in flight; an older one is not. A member's applied and retired epochs only rise; the registry of the top manager follows its updates. An acknowledged message is kept no longer, and that of a "prepared" commits its migration. One not acknowledged in time is sent again up to eight times, unless its peer cannot be reached, which then is listed as lost. A checkpoint notice of a manager is a stop notice or a live notice, and a checkpoint's answer is kept. -/
def Obligations.ManagersKeepTheMap : Prop :=
  (∀ (h : MgrHdr) (serial serialEnd n : Nat) (s : State), onRack s = true → h.crcOk = true →
    (isManager s = false → exec (.join h serial serialEnd) s = .next { s with rack := { s.rack with consumed := s.rack.consumed + 1 } }) ∧
    (isManager s = true → (numberOf s serial = some n ∨ (numberOf s serial = none ∧ freshNumber s = some n ∧
        (s.rack.members.filter fun m => m.num != s.rack.num && !m.failed).length < 63)) →
      ∃ t m k, exec (.join h serial serialEnd) s = .next t ∧ m ∈ t.rack.members ∧ m.serial = serial ∧ m.num = n ∧
        m.serialEnd = max serialEnd (blockEnd s n) ∧ k ∈ t.rack.outbox ∧ k.peer = n ∧ k.kind = 2 ∧ k.body = [n, blockEnd s n] ∧
        (numberOf s serial = none → n ∉ numbersUsed s ∧ n < 4096) ∧ t = { s with rack := t.rack, free := s.free + 1 }) ∧
    (isManager s = true → numberOf s serial = none →
      (63 ≤ (s.rack.members.filter fun m => m.num != s.rack.num && !m.failed).length ∨ freshNumber s = none) →
      ∃ t m, exec (.join h serial serialEnd) s = .next t ∧ t.rack.members = s.rack.members ∧ t.rack.outbox = s.rack.outbox ++ [m] ∧
        m.peer = h.source ∧ m.kind = 2 ∧ m.body = [joinRefusal, 0] ∧ t = { s with rack := t.rack })) ∧
  (∀ (h : MgrHdr) (number serialEnd : Nat) (s : State), FreshEntry h s → s.rack.role = 1 →
    (number ≠ 0xFFFF → ∃ u, exec (.joinAnswer h number serialEnd) s = .next (acked h u) ∧ u.rack.num = number ∧ u.rack.numValid = true ∧
      u.rack.managerLost = false ∧ u.dev.nextSerial = max s.dev.nextSerial (serialEnd + 1) ∧ u.sess = s.sess ∧ u.sched = s.sched) ∧
    (number = 0xFFFF → ∃ u, exec (.joinAnswer h number serialEnd) s = .next (acked h u) ∧ u.rack.joinRefused = true ∧
      u = { entryTaken h s with rack := { (entryTaken h s).rack with joinRefused := true } })) ∧
  (∀ (h : MgrHdr) (epoch : Nat) (records : List MapRecord) (s : State), FreshEntry h s → s.sched.pour.isSome = true →
    (newestEpoch s < epoch → ∃ u, exec (.mapPublish h epoch records) s = .next (acked h u) ∧
      u.rack.published = some { num := epoch, records := records } ∧ u.rack.epochs = s.rack.epochs ∧ u = { s with rack := u.rack }) ∧
    (epoch ≤ newestEpoch s → exec (.mapPublish h epoch records) s = .next (acked h (entryTaken h s)))) ∧
  (∀ (h : MgrHdr) (epoch : Nat) (s : State), FreshEntry h s →
    (∃ u, exec (.mapApplied h epoch) s = .next (acked h u) ∧
      u.rack.members = s.rack.members.map (fun m => if m.num = h.source then { m with applied := max m.applied epoch } else m) ∧
      u = { entryTaken h s with rack := { (entryTaken h s).rack with members := u.rack.members } }) ∧
    ∃ u, exec (.epochRetired h epoch) s = .next (acked h (settleEpoch (tryRetire u))) ∧
      u.rack.members = s.rack.members.map (fun m => if m.num = h.source then { m with retired := max m.retired epoch } else m) ∧
      u = { entryTaken h s with rack := { (entryTaken h s).rack with members := u.rack.members } }) ∧
  (∀ (h : MgrHdr) (tenant part : Nat) (present : Bool) (s : State), FreshEntry h s → topManager s = s.rack.num →
    ∃ u, exec (.registryUpdate h tenant part present) s = .next (acked h u) ∧ ((tenant, part) ∈ u.rack.registry ↔ present = true) ∧
      (∀ e, e.1 ≠ tenant → (e ∈ u.rack.registry ↔ e ∈ s.rack.registry)) ∧
      u = { entryTaken h s with rack := { (entryTaken h s).rack with registry := u.rack.registry } }) ∧
  (∀ (h : MgrHdr) (seq : Nat) (s : State), onRack s = true → h.crcOk = true →
    (∀ m, s.rack.unacked.find? (fun (m : MgrMsg) => m.peer == h.source && m.seq == seq) = some m →
      ∃ u, exec (.acknowledge h seq) s = .next (settleEpoch (tryRetire (if m.kind = 11 then commitMove m.handle u else u))) ∧ (∀ k ∈ u.rack.unacked, ¬(k.peer = h.source ∧ k.seq = seq)) ∧
        (∀ k ∈ s.rack.unacked, ¬(k.peer = h.source ∧ k.seq = seq) → k ∈ u.rack.unacked) ∧
        u = { s with rack := { s.rack with unacked := u.rack.unacked, consumed := s.rack.consumed + 1 } }) ∧
    ((∀ m ∈ s.rack.unacked, ¬(m.peer = h.source ∧ m.seq = seq)) →
      exec (.acknowledge h seq) s = .next { s with rack := { s.rack with consumed := s.rack.consumed + 1 } })) ∧
  (∀ (peer seq : Nat) (s : State), ((∀ m ∈ s.rack.unacked, ¬(m.peer = peer ∧ m.seq = seq)) → exec (.managerResendTimeout peer seq) s = .next s) ∧
    ∀ m, s.rack.unacked.find? (fun (m : MgrMsg) => m.peer == peer && m.seq == seq) = some m →
      (m.sends < 8 → peer ∉ s.links.unreachable → ∃ t, exec (.managerResendTimeout peer seq) s = .next t ∧
        t.rack.outbox = s.rack.outbox ++ [{ m with sends := m.sends + 1 }] ∧ { m with sends := m.sends + 1 } ∈ t.rack.unacked ∧
        t.rack.unacked.length = s.rack.unacked.length ∧ t = { s with rack := { s.rack with unacked := t.rack.unacked, outbox := t.rack.outbox } }) ∧
      (8 ≤ m.sends ∨ peer ∈ s.links.unreachable → ∃ t, exec (.managerResendTimeout peer seq) s = .next t ∧ peer ∈ t.rack.lostPeers)) ∧
  ∀ (h : MgrHdr) (s : State), FreshEntry h s →
    exec (.checkpointNotice h 1) s = .next (acked h (noticeStop (.manager h.source) (entryTaken h s))) ∧
    exec (.checkpointNotice h 2) s = .next (acked h (noticeLive (.manager h.source) (entryTaken h s))) ∧
    ∀ number slot length outcome, ∃ u, exec (.checkpointAnswer h number slot length outcome) s = .next (acked h u) ∧
      u.rack.ckptAnswers = s.rack.ckptAnswers ++ [(h.source, number, slot, length, outcome)] ∧
      u = { entryTaken h s with rack := { (entryTaken h s).rack with ckptAnswers := u.rack.ckptAnswers } }

/-- A lookup is answered with the directory's holder, or 0xFFFF where it lists none. An answer ends the wait of every message for its handle, a waiting one answered STALE_EPOCH with the holder, or MALFORMED, reason 6; a restored copy of a session held elsewhere is dropped. A directory update at a manager writes the entry, or removes it for a state of no live session, and tells a package whose claim another holder contests; at a worker it does nothing. A report is for managers alone; the top manager marks a package reported lost as failed, and one below passes it up. A report that is taken has the messages held drained. A shard's fan-out begins a search under the asker's number, or is answered STALE_EPOCH for a shard not here and TIER_FAULT for a damaged one; an answer is merged into its query, which waits for the shards left, and one of a shard no longer awaited is not. A teardown tears its group and says so; the fabric manager notes each member that has. -/
def Obligations.RackWorkActs : Prop :=
  (∀ (h : MgrHdr) (s : State), FreshEntry h s → mgrEpoch s h.epoch = .live →
    ∃ u m, exec (.lookup h) s = .next (acked h u) ∧ u.rack.outbox = s.rack.outbox ++ [m] ∧ m.peer = h.source ∧ m.kind = 7 ∧ m.handle = h.handle ∧
      m.body = [((s.rack.directory.find? fun (e : DirEntry) => e.handle == h.handle).map DirEntry.holder).getD 0xFFFF] ∧
      u.rack.directory = s.rack.directory ∧ u = { s with rack := u.rack }) ∧
  (∀ (h : MgrHdr) (holder : Option Nat) (s : State), FreshEntry h s →
    ∃ u, exec (.lookupAnswer h holder) s = .next (acked h u) ∧ u.rack.lookups = s.rack.lookups.filter (fun (p : Nat × Instr) => p.1 != h.handle) ∧
      (holder = none → u.sess = s.sess) ∧
      (∀ x k, holder = some k → k ≠ s.rack.num → findSess s h.handle = some x → x.restored = true → findSess u h.handle = none) ∧
      (∀ k, k ≠ h.handle → findSess u k = findSess s k) ∧
      (∀ c m, s.rack.lookups.filter (fun (p : Nat × Instr) => p.1 == h.handle) = [(h.handle, c)] → sprueOf c = some m →
        ∃ w o, (fnOf u m.fn).waiting = (fnOf s m.fn).waiting ++ [w] ∧ w.body = .out o 0 ∧ o.seq = msgSeq m ∧ o.opcode = msgOpcode m ∧
          (∀ k, holder = some k → o.outcome = .staleEpoch ∧ o.d1 = k) ∧ (holder = none → o.outcome = .malformed ∧ o.d0 = 6))) ∧
  (∀ (h : MgrHdr) (holder state : Nat) (s : State), FreshEntry h s → mgrEpoch s h.epoch = .live →
    (isManager s = false → exec (.directoryUpdate h holder state) s = .next (acked h (entryTaken h s))) ∧
    (isManager s = true → movesTo s h.handle holder = false → (∀ e ∈ s.rack.directory, e.handle = h.handle → e.holder = holder) →
      ∃ u, exec (.directoryUpdate h holder state) s = .next (acked h u) ∧
        (state < 7 → ∃ e ∈ u.rack.directory, e.handle = h.handle ∧ e.holder = holder ∧ e.state = state) ∧
        (7 ≤ state → ∀ e ∈ u.rack.directory, e.handle ≠ h.handle) ∧
        (∀ e ∈ s.rack.directory, e.handle ≠ h.handle → e ∈ u.rack.directory) ∧
        u = { entryTaken h s with rack := { (entryTaken h s).rack with directory := u.rack.directory } }) ∧
    (∀ e, isManager s = true → movesTo s h.handle holder = false → state < 7 →
      s.rack.directory.find? (fun (e : DirEntry) => e.handle == h.handle && e.holder != holder && !packageFailed s e.holder) = some e →
      ∃ u m, exec (.directoryUpdate h holder state) s = .next (acked h u) ∧ u.rack.outbox = s.rack.outbox ++ [m] ∧ m.peer = h.source ∧ m.kind = 7 ∧
        m.handle = h.handle ∧ m.body = [e.holder] ∧ u.rack.directory = s.rack.directory ∧ u.sess = s.sess)) ∧
  (∀ (h : MgrHdr) (source dest window reason : Nat) (s : State), FreshEntry h s →
    (isManager s = false → exec (.poisonedReadReport h source dest window reason) s = .next (acked h (entryTaken h s))) ∧
    (isManager s = true → exec (.poisonedReadReport h source dest window reason) s =
      .next (acked h (drainAll (takeReport source dest window reason (entryTaken h s))))) ∧
    (isManager s = true → topManager s ≠ s.rack.num → window ≠ 0xFFFF → ∃ u m, exec (.poisonedReadReport h source dest window reason) s =
        .next (acked h (drainAll u)) ∧ u.rack.outbox = s.rack.outbox ++ [m] ∧ m.peer = topManager s ∧ m.kind = 16 ∧
      m.body = [source, dest, window, reason] ∧ u.rack.members = s.rack.members ∧ u = { s with rack := u.rack }) ∧
    (isManager s = true → topManager s = s.rack.num → window = 0xFFFF → ∃ u, exec (.poisonedReadReport h source dest window reason) s =
        .next (acked h (drainAll u)) ∧ (∀ m ∈ u.rack.members, m.num = dest → m.failed = true) ∧
      u.rack.members.map Member.num = s.rack.members.map Member.num ∧ u.sess = s.sess ∧ u.tiers = s.tiers)) ∧
  (∀ (h : MgrHdr) (op index shard k require exclude key tags query : Nat) (code : List Byte) (s : State), FreshEntry h s →
    mgrEpoch s h.epoch = .live → shard ≠ 0xFFFF →
    (findShard s index shard = none → exec (.recallFanOut h op index shard k require exclude key tags code query) s = .next (staleMgr h s)) ∧
    (∀ sh, findShard s index shard = some sh → sh.damaged = true →
      ∃ u m, exec (.recallFanOut h op index shard k require exclude key tags code query) s = .next (acked h u) ∧
        u.rack.outbox = s.rack.outbox ++ [m] ∧ m.peer = h.source ∧ m.kind = 19 ∧ m.body = [query, shard, ocode .tierFault] ∧ u.rcl = s.rcl) ∧
    (∀ sh, findShard s index shard = some sh → sh.damaged = false → op = 0x0A →
      ∃ u q, exec (.recallFanOut h op index shard k require exclude key tags code query) s = .next (acked h u) ∧ q ∈ u.rcl.queries ∧
        q.num = s.rcl.nextQ ∧ q.asker = .peer h.source query ∧ q.op = 0x0A ∧ q.index = index ∧ q.k = k ∧ q.require = require ∧ q.exclude = exclude ∧
        q.code = code ∧ q.left = [shard] ∧ u.rcl.queries.length = s.rcl.queries.length + 1 ∧ u.rcl.shards = s.rcl.shards)) ∧
  (∀ (h : MgrHdr) (query shard outcome : Nat) (rs : List (Nat × Nat × Nat)) (s : State), FreshEntry h s →
    (findQuery s query = none ∨ (∃ q, findQuery s query = some q ∧ shard ∉ q.left) →
      exec (.recallAnswer h query shard outcome rs) s = .next (acked h (drainAll (entryTaken h s)))) ∧
    (∀ q, findQuery s query = some q → q.op = 0x0A → shard ∈ q.left → (∃ n ∈ q.left, n ≠ shard) → outcome = ocode .done →
      ∃ u, exec (.recallAnswer h query shard outcome rs) s = .next (acked h (drainAll u)) ∧
        findQuery u query = some { q with left := q.left.filter (· != shard), found := q.found ++ rs.map fun r => (r.2.2, r.1, r.2.1, shard) } ∧
        u = { entryTaken h s with rcl := { s.rcl with queries := u.rcl.queries } })) ∧
  ∀ (h : MgrHdr) (group : Nat) (s : State) (g : MGroup), FreshEntry h s → mgrEpoch s h.epoch = .live → findGroup s group = some g →
    (g.torn = false → ∃ v w y, exec (.teardown h group) s = .next (acked h v) ∧ findGroup v group = some y ∧ y.torn = true ∧
      w ∈ v.rack.outbox ∧ w.peer = h.source ∧ w.kind = 15 ∧ w.body = [group]) ∧
    ∃ u y, exec (.teardownDone h group) s = .next (acked h u) ∧ findGroup u group = some y ∧ y = { g with tearing := g.tearing.filter (· != h.source) } ∧
      (∀ k, k ≠ group → findGroup u k = findGroup s k) ∧
      u = { entryTaken h s with rack := { (entryTaken h s).rack with groups := u.rack.groups } }

/-- At its destination a move reserves a migration at step 2 and a copy window of a number not in use (the lowest, the model's choice: log entry 83), and answers "move ready", or refuses it with every number or every directory entry in use; at its origin, a lapsed allowance acted on first, it begins for a session that can move, is refused to both sides for one that cannot, and is answered STALE_EPOCH for one not here. "Move ready" begins the copy. With the copy done, no allowance lapsed, no operation and no pour of the session's flask in flight, the session is MOVING and its state goes to the destination. The destination takes the state of a session whose tenant and model it has at step 5 and answers "prepared"; one it has not it refuses. "Prepared" is noted at the origin. "Committed" frees the origin's entry and leaves a forwarding entry; "aborted" puts a MOVING session of the origin back in its earlier state. -/
def Obligations.MigrationsGoByTheirSteps : Prop :=
  (∀ (h : MgrHdr) (origin dest home alt vec : Nat) (s : State), FreshEntry h s → mgrEpoch s h.epoch = .live → findMigration s h.handle = none →
    origin ≠ dest →
    (dest = s.rack.num → entriesUsed s < directoryLimit s.part → (freeWindow s).isSome = true → ∃ u m w,
      exec (.moveBegin h origin dest home alt vec) s = .next (acked h u) ∧ freeWindow s = some w.num ∧
      findMigration u h.handle = some m ∧ m.origin = origin ∧ m.destination = dest ∧ m.home = home ∧ m.alternate = alt ∧ m.vector = vec ∧
      m.step = 2 ∧ m.atOrigin = false ∧ w ∈ u.links.windows ∧ w.kind = 2 ∧ w.writes = true ∧ w.peer = some origin ∧
      (∃ k ∈ u.rack.outbox, k.peer = origin ∧ k.kind = 9 ∧ k.handle = h.handle ∧ k.body = [w.num]) ∧ u.sess = s.sess) ∧
    (dest = s.rack.num → freeWindow s = none ∨ directoryLimit s.part ≤ entriesUsed s → ∃ u, exec (.moveBegin h origin dest home alt vec) s = .next (acked h u) ∧
      u.links = s.links ∧ findMigration u h.handle = none ∧ u.sess = s.sess ∧ ∃ k ∈ u.rack.outbox, k.peer = origin ∧ k.kind = 13 ∧ k.handle = h.handle) ∧
    (origin = s.rack.num → findSess s h.handle = none → exec (.moveBegin h origin dest home alt vec) s = .next (staleMgr h s)) ∧
    (∀ e, origin = s.rack.num → (findSess s h.handle).isSome = true → expire h.handle (entryTaken h s) = e → e.rack.num = s.rack.num →
      findMigration e h.handle = none →
      (movable e h.handle = true → ∃ u m, exec (.moveBegin h origin dest home alt vec) s = .next (acked h u) ∧
        findMigration u h.handle = some m ∧ m.step = 1 ∧ m.atOrigin = true ∧ m.destination = dest ∧
        u = { e with rack := { e.rack with migrations := u.rack.migrations } }) ∧
      (movable e h.handle = false → ∃ u, exec (.moveBegin h origin dest home alt vec) s = .next (acked h u) ∧
        findMigration u h.handle = none ∧ u.sess = e.sess ∧
        ∃ k ∈ u.rack.outbox, k.peer = dest ∧ k.kind = 13 ∧ k.handle = h.handle))) ∧
  (∀ (h : MgrHdr) (window : Nat) (s : State) (m : Migration), FreshEntry h s → mgrEpoch s h.epoch = .live → findMigration s h.handle = some m →
    ∃ u, exec (.moveReady h window) s = .next (acked h u) ∧
      findMigration u h.handle = some (if m.atOrigin && m.step == 1 then { m with step := 3, window := window } else m) ∧
      u = { entryTaken h s with rack := { (entryTaken h s).rack with migrations := u.rack.migrations } }) ∧
  (∀ (handle : Nat) (s : State), findSess s handle = none → exec (.migrationCopyDone handle) s = .next s) ∧
  (∀ (handle : Nat) (s : State) (x : Session) (m : Migration), findSess s handle = some x → findMigration s handle = some m → m.atOrigin = true →
    m.step = 3 → x.op = none → inFlight s x = false → x.allowance ≠ 0 ∨ x.allowKind = 0 →
    ∃ t k, exec (.migrationCopyDone handle) s = .next t ∧ findSess t handle = some { x with state := .moving, before := some x.state, restored := false } ∧
      findMigration t handle = some { m with copied := true, copies := castList x, step := 4, before := x.state } ∧
      k ∈ t.rack.outbox ∧ k.peer = m.destination ∧ k.kind = 10 ∧ k.handle = handle ∧ (∀ j, j ≠ handle → findSess t j = findSess s j) ∧
      t = { s with sess := t.sess, rack := t.rack }) ∧
  (∀ (h : MgrHdr) (v : Moved) (s : State) (m : Migration), FreshEntry h s → mgrEpoch s h.epoch = .live → findMigration s h.handle = some m →
    m.atOrigin = false → m.step = 2 →
    ((findTen s v.tenant).isSome = true → modelOk s v.tenant v.model = true → ∃ u y x k, exec (.switchOver h v) s = .next (acked h u) ∧
      findMigration u h.handle = some y ∧ y.step = 5 ∧ y.incoming = some x ∧ x.handle = h.handle ∧ x.tenant = v.tenant ∧ x.p = v.p ∧ x.w = v.w ∧
      x.tokens = v.tokens ∧ x.home = m.home ∧ k ∈ u.rack.outbox ∧ k.peer = m.origin ∧ k.kind = 11 ∧ u.sess = s.sess) ∧
    ((findTen s v.tenant).isNone = true ∨ modelOk s v.tenant v.model = false → ∃ u, exec (.switchOver h v) s = .next (acked h u) ∧
      findMigration u h.handle = none ∧ (h.handle, 6) ∈ u.rack.aborted ∧ ∀ j, findSess u j = findSess s j)) ∧
  (∀ (h : MgrHdr) (s : State) (m : Migration), FreshEntry h s → mgrEpoch s h.epoch = .live → findMigration s h.handle = some m →
    ∃ u, exec (.prepared h) s = .next (acked h u) ∧
      findMigration u h.handle = some (if m.atOrigin && m.step == 4 then { m with step := 5, ackedPrep := true } else m) ∧
      u = { entryTaken h s with rack := { (entryTaken h s).rack with migrations := u.rack.migrations } }) ∧
  (∀ (h : MgrHdr) (s : State) (m : Migration) (x : Session), FreshEntry h s → mgrEpoch s h.epoch = .live → findMigration s h.handle = some m →
    findSess s h.handle = some x → m.atOrigin = true →
    ∃ u, exec (.committed h) s = .next (acked h u) ∧ findSess u h.handle = none ∧ findMigration u h.handle = none ∧
      (s.rack.forwards.length < 65536 → (h.handle, m.destination, newestEpoch s) ∈ u.rack.forwards) ∧
      ∀ j, j ≠ h.handle → findSess u j = findSess s j) ∧
  ∀ (h : MgrHdr) (reason : Nat) (s : State) (m : Migration) (x : Session), FreshEntry h s → mgrEpoch s h.epoch = .live →
    findMigration s h.handle = some m → m.atOrigin = true → findSess s h.handle = some x → x.state = .moving → x.heldMsgs = [] →
    ∃ u, exec (.aborted h reason) s = .next (acked h u) ∧ findMigration u h.handle = none ∧
      findSess u h.handle = some { x with state := x.before.getD .opened, before := none } ∧ (h.handle, reason) ∈ u.rack.aborted ∧
      ∀ j, j ≠ h.handle → findSess u j = findSess s j

/-- A live checkpoint of a serving, protected package is cut with no pour in flight, and a stop's once no park runs, the pour in flight suspended unless it is past its last layer: its slot is no valid checkpoint and it notes the modules present and the last pour. Committed with those modules, its record stands valid in its slot under its number, with a health event; a stop that only waited for it is STOPPED, that checkpoint its last. With other modules it has failed, as it has by a failed write, and the slots are left as they are. An expired orphan allowance takes a package in ORPHAN to STOPPING, with no commit left and its parks under way. The expiry of a fallen link's allowance parks the sessions it orphaned, one at a time; where the link is up it does nothing. -/
def Obligations.CheckpointsAreCutAndCommitted : Prop :=
  (∀ (s : State) (c : Ckpt), s.chk.now = some c → c.cut = false → unprotected s = false →
    (c.stop = false → serving s = true → s.sched.pour = none → ∃ t k, exec .checkpointCut s = .next t ∧ t.chk.now = some k ∧ k.cut = true ∧
      k.number = c.number ∧ k.slot = c.slot ∧ k.askers = c.askers ∧ k.modules = chillCount s ∧ k.cutPour = lastPourNumber s ∧
      (∀ x, (if c.slot = 0 then t.chk.slot0 else t.chk.slot1) = some x → x.valid = false) ∧
      t = { s with chk := { s.chk with now := t.chk.now, slot0 := t.chk.slot0, slot1 := t.chk.slot1 }, dev := { s.dev with stop := t.dev.stop } }) ∧
    (∀ st p, c.stop = true → s.dev.stop = some st → st.parks = false → s.sched.pour = some p → p.step ≤ 4 →
      ∃ t k, exec .checkpointCut s = .next t ∧ t.chk.now = some k ∧ k.cut = true ∧ k.number = c.number ∧ t.sched.pour = none ∧
        t.sched.suspended = { p with preempt := none } :: s.sched.suspended ∧ k.saved.pours = t.sched.suspended ∧ t.sess = s.sess ∧
        (∀ x, (if c.slot = 0 then t.chk.slot0 else t.chk.slot1) = some x → x.valid = false))) ∧
  (∀ (s : State) (c : Ckpt), s.chk.now = some c → c.cut = true →
    (chillCount s = c.modules →
      (c.stop = false → ∃ t k, exec .checkpointCommit s = .next t ∧ t.chk.now = none ∧
        (if c.slot = 0 then t.chk.slot0 else t.chk.slot1) = some k ∧ k.number = c.number ∧ k.valid = true ∧ k.kind = 2 ∧ k.modules = c.modules ∧
        k.saved = c.saved ∧ (if c.slot = 0 then t.chk.slot1 = s.chk.slot1 else t.chk.slot0 = s.chk.slot0) ∧ t.dev.events = s.dev.events + 1 ∧
        t.sess = s.sess ∧ t.sched = s.sched ∧ t.dev.code = s.dev.code) ∧
      (∀ st, c.stop = true → s.dev.stop = some st → st.orderly = false → st.parks = false → st.thenReset = false →
        ∃ t k, exec .checkpointCommit s = .next t ∧ t.dev.code = .stopped ∧ t.dev.stop = none ∧ t.chk.now = none ∧
          (if c.slot = 0 then t.chk.slot0 else t.chk.slot1) = some k ∧ k.number = c.number ∧ k.valid = true ∧ k.kind = 1 ∧
          (t.dev.lastStop.map Prod.fst) = some c.number)) ∧
    (chillCount s ≠ c.modules → c.stop = false → ∃ t, exec .checkpointCommit s = .next t ∧ t.chk.now = none ∧ t.chk.slot0 = s.chk.slot0 ∧
      t.chk.slot1 = s.chk.slot1 ∧ t.dev.events = s.dev.events + 1 ∧ t.sess = s.sess ∧ t.sched = s.sched)) ∧
  (∀ (left : Nat) (s : State), (s.chk.now = none → exec (.checkpointFailed left) s = .next s) ∧
    ∀ c, s.chk.now = some c → c.stop = false → ∃ u, exec (.checkpointFailed left) s = .next (holdBound 0 u) ∧ u.chk.now = none ∧
      u.chk.slot0 = s.chk.slot0 ∧ u.chk.slot1 = s.chk.slot1 ∧ chillCount u = min left (chillCount s) ∧ u.dev.events = s.dev.events + 1 ∧
      u.sess = s.sess ∧ u.sched = s.sched) ∧
  (∀ s : State, (s.dev.code ≠ .orphan → exec .orphanAllowanceExpiry s = .next s) ∧
    (s.dev.code = .orphan → ∃ t st, exec .orphanAllowanceExpiry s = .next t ∧ t.dev.code = .stopping ∧ t.stg.commits = [] ∧
      t.dev.stop = some st ∧ st.orderly = true ∧ st.parks = true)) ∧
  ∀ (link : Nat) (s : State), (flagAt s.dev.linkUp link = true ∨ serving s = false → exec (.linkOrphanExpiry link) s = .next s) ∧
    (flagAt s.dev.linkUp link = false → serving s = true → exec (.linkOrphanExpiry link) s =
      .next (forEach ((s.sess.filter fun x => linkOf x.home == link && orphaned s x).map Session.handle) orphanPark s)) ∧
    ∀ h x, findSess s h = some x → x.op.isSome = true ∨ (resident x = false ∧ x.state ≠ .warm) → orphanPark h s = s

/-- The key of a retiring tenant that has been marked is destroyed, and the health record holds its entry as retired. Once it has drained, its objects are deleted, its shards and counters gone. Its removal ends with no session and no entry of it, a removal record to every physical function, and a health event. None of the three does anything out of its turn. The stream that binds a model ends it BOUND with its digest where it was read and written well and its hash is the program's, and FAILED with no pool otherwise. A noise source that fails is recorded, its hub's generator marked, with a health event. -/
def Obligations.TenantsAreRemovedInOrder : Prop :=
  (∀ (n : Nat) (s : State) (x : Tenant), findTen s n = some x →
    (x.retiring = true → x.removal = 1 → ∃ t, exec (.tenantKeyDestroyed n) s = .next t ∧ findTen t n = some { x with key := none, removal := 2 } ∧
      (∀ k, k ≠ n → findTen t k = findTen s k) ∧
      (∀ r, hrGoverning s.nor = some r → ∃ r' e, hrGoverning t.nor = some r' ∧ e ∈ r'.keys ∧ e.tenant = n ∧ e.retired = true ∧ e.label = x.label) ∧
      t.nor.fuses = s.nor.fuses ∧ t = { s with tens := t.tens, nor := t.nor }) ∧
    (x.retiring = false ∨ x.removal ≠ 1 → exec (.tenantKeyDestroyed n) s = .next s) ∧
    (x.retiring = true → x.removal = 2 → ∃ t y, exec (.tenantDrainComplete n) s = .next t ∧ findTen t n = some y ∧ y.removal = 4 ∧
      y.counters = {} ∧ y.retiring = true ∧ (∀ o ∈ t.store.objs, o.tenant = n → o.deleted = true) ∧ (∀ h ∈ t.rcl.shards, h.item.tenant ≠ n) ∧
      (∀ o ∈ t.tiers.owners, o.owner = n → n = 0)) ∧
    (x.retiring = false ∨ x.removal ≠ 2 → exec (.tenantDrainComplete n) s = .next s) ∧
    (x.retiring = true → x.removal = 4 → ∃ t, exec (.tenantRemovalComplete n) s = .next t ∧ findTen t n = none ∧
      (∀ k, k ≠ n → findTen t k = findTen s k) ∧ (∀ y ∈ t.sess, y.tenant ≠ n) ∧ (∀ y ∈ s.sess, y.tenant ≠ n → y ∈ t.sess) ∧
      (∀ fn ∈ physFns s.part, ∃ w o, (fnOf t fn).waiting = (fnOf s fn).waiting ++ [w] ∧ w.body = .out o 0 ∧ o.outcome = .done ∧ o.tenant = n ∧
        o.d0 = x.madeClosed ∧ o.d1 = x.commitPour) ∧ t.dev.events = s.dev.events + 1 ∧ t.sched = s.sched ∧ t.models = s.models) ∧
    (x.retiring = false ∨ x.removal ≠ 4 → exec (.tenantRemovalComplete n) s = .next s)) ∧
  (∀ (n bytes : Nat) (readOk writeOk : Bool) (hash : List Byte) (s : State) (m : Model), findModel s n = some m →
    (m.state = 1 → ∃ t, exec (.bindStreamComplete n bytes readOk writeOk hash) s = .next t ∧
      findModel t n = some (if readOk && writeOk && m.program.any (fun p => p.digest == hash) then { m with state := 2, bytes := bytes, digest := hash }
        else { m with state := 3, bytes := bytes, pools := [] }) ∧
      (∀ k, k ≠ n → findModel t k = findModel s k) ∧ t = { s with models := t.models, fns := t.fns, outs := t.outs }) ∧
    (m.state ≠ 1 → exec (.bindStreamComplete n bytes readOk writeOk hash) s = .next s)) ∧
  ∀ (hub : Nat) (s : State) (x : Hub), (hubCount s.part ≤ hub → exec (.noiseSourceFailure hub) s = .next s) ∧
    (hub < hubCount s.part → s.dev.hubs[hub]? = some x → ∃ t, exec (.noiseSourceFailure hub) s = .next t ∧
      t.dev.hubs[hub]? = some { x with drbgOk := false } ∧ t.dev.events = s.dev.events + 1 ∧ t.sess = s.sess ∧ t.sched = s.sched ∧ t.models = s.models)

/-- The test access port takes its public instructions in every state, and shifts out the part's identification for IDCODE. A challenge, in SAFE_TALK or at step 2 of a start and with fewer than 15 unlocks made, is drawn and shifted out; an unlock with a good signature over it destroys the sessions, the tenants' keys, the key entries and the log, opens the port, ends service, and counts one unlock; without a challenge or with another signature it does nothing. A configuration write reaches NumVFs of a link's physical function, to 63 at most, and the base address of a window that a function has, aligned on its size; a read, and any request while PERST_N is asserted, changes nothing. -/
def Obligations.TestAndDebugPortsAnswer : Prop :=
  (∀ s : State, exec .bypass s = .next { s with pins := { s.pins with tapInstr := 1, tapOut := none } } ∧
    exec .samplePreload s = .next { s with pins := { s.pins with tapInstr := 2, tapOut := none } } ∧
    exec .extest s = .next { s with pins := { s.pins with tapInstr := 3, tapOut := none } } ∧
    exec .idcode s = .next { s with pins := { s.pins with tapInstr := 4
                                                          tapOut := some (if s.part = .tsn8840 then 0x18840967 else 0x14420967) } }) ∧
  (∀ s : State, (((s.dev.code = .safeTalk ∨ (s.dev.code = .starting ∧ s.dev.step = 2)) ∧ s.sec.unlocks < 15) →
      ∃ t c, exec .debugChallenge s = .next t ∧ t.sec.challenge = some c ∧ t.pins.tapOut = some c ∧ t.sec.unlocks = s.sec.unlocks ∧
        t = { s with sec := { s.sec with challenge := some c }, pins := { s.pins with tapInstr := 5, tapOut := some c }, free := s.free + 1 }) ∧
    (¬((s.dev.code = .safeTalk ∨ (s.dev.code = .starting ∧ s.dev.step = 2)) ∧ s.sec.unlocks < 15) →
      exec .debugChallenge s = .next s ∧ ∀ ok, exec (.debugUnlock ok) s = .next s) ∧
    (((s.dev.code = .safeTalk ∨ (s.dev.code = .starting ∧ s.dev.step = 2)) ∧ s.sec.unlocks < 15) → s.sec.challenge.isSome = true →
      ∃ t, exec (.debugUnlock true) s = .next t ∧ t.sess = [] ∧ (∀ x ∈ t.tens, x.key = none) ∧ t.tens.map Tenant.id = s.tens.map Tenant.id ∧
        t.dev.log = [] ∧ t.sec.open_ = true ∧ t.sec.serveNot = true ∧ t.sec.unlocks = s.sec.unlocks + 1 ∧ t.sec.challenge = none ∧
        (∀ r, hrGoverning s.nor = some r → ∃ r', hrGoverning t.nor = some r' ∧ r'.keys = []) ∧ t.nor.fuses = s.nor.fuses ∧ t.dev.code = s.dev.code) ∧
    (s.sec.challenge = none → ∀ ok, exec (.debugUnlock ok) s = .next s) ∧ exec (.debugUnlock false) s = .next s) ∧
  ∀ (link fn value : Nat) (reg : CfgReg) (s : State), exec (.configurationRequest link fn false reg value) s = .next s ∧
    (flagAt s.pins.perst link = true → exec (.configurationRequest link fn true reg value) s = .next s) ∧
    (link < linkCount s.part → flagAt s.pins.perst link = false → linkOf fn = link →
      (isPhys fn = true → value ≤ 63 → exec (.configurationRequest link fn true .numVFs value) s =
        .next { s with dev := { s.dev with numVFs := s.dev.numVFs.set link value } }) ∧
      (isPhys fn = false ∨ 63 < value → exec (.configurationRequest link fn true .numVFs value) s = .next s) ∧
      (∀ n size, fnPresent s fn = true → ((n = 0 ∧ size = 65536) ∨ (n = 2 ∧ size = 1048576) ∨ (n = 4 ∧ size = 4194304 ∧ isPhys fn = true)) →
        ∃ t, exec (.configurationRequest link fn true (.bar n) value) s = .next t ∧ countOf (fnOf t fn).bars n = value / size * size ∧
          (∀ k, k ≠ fn → fnOf t k = fnOf s k) ∧ t = { s with fns := t.fns }) ∧
      exec (.configurationRequest link fn true .msixEnable value) s = .next s ∧ exec (.configurationRequest link fn true .other value) s = .next s)

/-- A hub whose endpoint is served answers an MCTP control message of at most 64 bytes and each PLDM command with one message of its own (whose body the model leaves open), and changes nothing else by it, except that RequestUpdate with the NOR not held begins the hub's update mode, and that the end of an update ends it: with an image that verifies in the slot to recover, which activation makes the next one, on trial; and with the NOR as it was without. One that is not served answers nothing. A stuck bus that nine clocks free is only logged; one that stays held is fenced, and a hub whose laser bus it was has its ports DARK. A rate measurement adds an hour to the powered time and its samples to the health record. -/
def Obligations.ManagementBusAnswers : Prop :=
  (∀ (hub : Nat) (c : Instr) (s : State),
    ((∃ n, c = .mctpMessage hub 0 n ∧ n ≤ 64) ∨ (∃ k, c = .pldmBaseCommand hub k) ∨ (∃ k j, c = .pldmPlatformCommand hub k j) ∨
      (c = .pldmRequestUpdate hub ∧ norHeld s = true)) →
    (mctpServed s hub = true → ∃ t bs, exec c s = .next t ∧ t.outs.mgmt = s.outs.mgmt ++ [(hub, bs)] ∧
      t = { s with outs := { s.outs with mgmt := t.outs.mgmt }, free := s.free + 1 }) ∧
    (mctpServed s hub = false → exec c s = .next s)) ∧
  (∀ (hub ty n : Nat) (s : State), ty ≠ 0 ∨ 64 < n → exec (.mctpMessage hub ty n) s = .next s) ∧
  (∀ (hub : Nat) (s : State) (x : Hub), mctpServed s hub = true → s.dev.hubs[hub]? = some x →
    (norHeld s = false → ∃ t bs, exec (.pldmRequestUpdate hub) s = .next t ∧ t.dev.hubs[hub]? = some { x with updating := true } ∧
      t.outs.mgmt = s.outs.mgmt ++ [(hub, bs)] ∧
      t = { s with dev := { s.dev with hubs := t.dev.hubs }, outs := { s.outs with mgmt := t.outs.mgmt }, free := s.free + 1 }) ∧
    (x.updating = true → ∀ (img : Option Image) (activate : Bool),
      ((∀ im, img = some im → verifies s im = false) → ∃ t bs, exec (.pldmFirmwareUpdate hub img activate) s = .next t ∧
        t.dev.hubs[hub]? = some { x with updating := false } ∧ t.nor = s.nor ∧ t.outs.mgmt = s.outs.mgmt ++ [(hub, bs)] ∧ t.sess = s.sess) ∧
      (∀ im, img = some im → verifies s im = true → ∃ t bs, exec (.pldmFirmwareUpdate hub img activate) s = .next t ∧
        t.dev.hubs[hub]? = some { x with updating := false } ∧ (if recoverSlot s = 0 then t.nor.slotA else t.nor.slotB) = some im ∧
        t.outs.mgmt = s.outs.mgmt ++ [(hub, bs)] ∧ t.nor.fuses = s.nor.fuses ∧ t.sess = s.sess ∧
        (∀ r, activate = true → hrGoverning s.nor = some r →
          ∃ r', hrGoverning t.nor = some r' ∧ r'.nextSlot = recoverSlot s ∧ r'.trial = true) ∧
        (activate = false → hrGoverning t.nor = hrGoverning s.nor)))) ∧
  (∀ (hub : Nat) (mga held : Bool) (s : State) (x : Hub), hub < hubCount s.part → s.pins.powerGood = true → s.dev.hubs[hub]? = some x →
    (held = false → ∃ t, exec (.mgmtBusStuck hub mga held) s = .next t ∧ t.dev.logNext = s.dev.logNext + 1 ∧ t.dev.hubs = s.dev.hubs ∧
      t.links = s.links ∧ t.sess = s.sess) ∧
    (held = true → mga = true → ∃ t, exec (.mgmtBusStuck hub mga held) s = .next t ∧ t.dev.hubs[hub]? = some { x with mgaFenced := true } ∧
      t.links = s.links ∧ t.sess = s.sess) ∧
    (held = true → mga = false → (∀ p ∈ s.links.ports, p.num / 16 = hub → p.state ≠ .up) →
      ∃ t, exec (.mgmtBusStuck hub mga held) s = .next t ∧ t.dev.hubs[hub]? = some { x with mgbFenced := true } ∧
        (∀ n p, findPort s n = some p → n / 16 = hub → p.state ≠ .off → ∃ q, findPort t n = some q ∧ q.state = .dark ∧ q.reason = 4) ∧
        (∀ n, n / 16 ≠ hub → findPort t n = findPort s n) ∧ t.sess = s.sess)) ∧
  ∀ (rates : List Nat) (s : State), ∃ t, exec (.handshakeRateMeasurement rates) s = .next t ∧ t.dev.powered = s.dev.powered + 3600 ∧
    (∀ a, s.nor.copy0 = .valid a → s.nor.copy1 = .erased → ∃ r, hrGoverning t.nor = some r ∧ r.powered = s.dev.powered + 3600 ∧
      ∃ new, r.ageing = a.ageing ++ new ∧ (diesFitted s.part).length ≤ new.length) ∧ t.sess = s.sess ∧ t.sched = s.sched ∧ t.links = s.links
end

