-- ==== Sys2Proof/Laws/State.lean ====
section
/-! SUPPORT. What each update of the state does to each field: true by unfolding, once, so that no later proof unfolds an update. -/

namespace Sys2Proof.Machine

/-! ### `setSess` -/

@[simp] theorem setSess_part (x : Session) (s : State) : (setSess x s).part = s.part := rfl
@[simp] theorem setSess_dev (x : Session) (s : State) : (setSess x s).dev = s.dev := rfl
@[simp] theorem setSess_nor (x : Session) (s : State) : (setSess x s).nor = s.nor := rfl
@[simp] theorem setSess_pins (x : Session) (s : State) : (setSess x s).pins = s.pins := rfl
@[simp] theorem setSess_sec (x : Session) (s : State) : (setSess x s).sec = s.sec := rfl
@[simp] theorem setSess_outs (x : Session) (s : State) : (setSess x s).outs = s.outs := rfl
@[simp] theorem setSess_parts (x : Session) (s : State) : (setSess x s).parts = s.parts := rfl
@[simp] theorem setSess_dies (x : Session) (s : State) : (setSess x s).dies = s.dies := rfl
@[simp] theorem setSess_cores (x : Session) (s : State) : (setSess x s).cores = s.cores := rfl
@[simp] theorem setSess_stg (x : Session) (s : State) : (setSess x s).stg = s.stg := rfl
@[simp] theorem setSess_fns (x : Session) (s : State) : (setSess x s).fns = s.fns := rfl
@[simp] theorem setSess_tens (x : Session) (s : State) : (setSess x s).tens = s.tens := rfl
@[simp] theorem setSess_sess (x : Session) (s : State) : (setSess x s).sess = updKey Session.handle x.handle (fun _ => x) s.sess := rfl
@[simp] theorem setSess_sched (x : Session) (s : State) : (setSess x s).sched = s.sched := rfl
@[simp] theorem setSess_models (x : Session) (s : State) : (setSess x s).models = s.models := rfl
@[simp] theorem setSess_tiers (x : Session) (s : State) : (setSess x s).tiers = s.tiers := rfl
@[simp] theorem setSess_store (x : Session) (s : State) : (setSess x s).store = s.store := rfl
@[simp] theorem setSess_rcl (x : Session) (s : State) : (setSess x s).rcl = s.rcl := rfl
@[simp] theorem setSess_ledger (x : Session) (s : State) : (setSess x s).ledger = s.ledger := rfl
@[simp] theorem setSess_links (x : Session) (s : State) : (setSess x s).links = s.links := rfl
@[simp] theorem setSess_rack (x : Session) (s : State) : (setSess x s).rack = s.rack := rfl
@[simp] theorem setSess_chk (x : Session) (s : State) : (setSess x s).chk = s.chk := rfl
@[simp] theorem setSess_free (x : Session) (s : State) : (setSess x s).free = s.free := rfl
@[simp] theorem setSess_pending (x : Session) (s : State) : (setSess x s).pending = s.pending := rfl

/-! ### `onSess` -/

@[simp] theorem onSess_part (h : Nat) (f : Session → Session) (s : State) : (onSess h f s).part = s.part := rfl
@[simp] theorem onSess_dev (h : Nat) (f : Session → Session) (s : State) : (onSess h f s).dev = s.dev := rfl
@[simp] theorem onSess_nor (h : Nat) (f : Session → Session) (s : State) : (onSess h f s).nor = s.nor := rfl
@[simp] theorem onSess_pins (h : Nat) (f : Session → Session) (s : State) : (onSess h f s).pins = s.pins := rfl
@[simp] theorem onSess_sec (h : Nat) (f : Session → Session) (s : State) : (onSess h f s).sec = s.sec := rfl
@[simp] theorem onSess_outs (h : Nat) (f : Session → Session) (s : State) : (onSess h f s).outs = s.outs := rfl
@[simp] theorem onSess_parts (h : Nat) (f : Session → Session) (s : State) : (onSess h f s).parts = s.parts := rfl
@[simp] theorem onSess_dies (h : Nat) (f : Session → Session) (s : State) : (onSess h f s).dies = s.dies := rfl
@[simp] theorem onSess_cores (h : Nat) (f : Session → Session) (s : State) : (onSess h f s).cores = s.cores := rfl
@[simp] theorem onSess_stg (h : Nat) (f : Session → Session) (s : State) : (onSess h f s).stg = s.stg := rfl
@[simp] theorem onSess_fns (h : Nat) (f : Session → Session) (s : State) : (onSess h f s).fns = s.fns := rfl
@[simp] theorem onSess_tens (h : Nat) (f : Session → Session) (s : State) : (onSess h f s).tens = s.tens := rfl
@[simp] theorem onSess_sess (h : Nat) (f : Session → Session) (s : State) : (onSess h f s).sess = updKey Session.handle h f s.sess := rfl
@[simp] theorem onSess_sched (h : Nat) (f : Session → Session) (s : State) : (onSess h f s).sched = s.sched := rfl
@[simp] theorem onSess_models (h : Nat) (f : Session → Session) (s : State) : (onSess h f s).models = s.models := rfl
@[simp] theorem onSess_tiers (h : Nat) (f : Session → Session) (s : State) : (onSess h f s).tiers = s.tiers := rfl
@[simp] theorem onSess_store (h : Nat) (f : Session → Session) (s : State) : (onSess h f s).store = s.store := rfl
@[simp] theorem onSess_rcl (h : Nat) (f : Session → Session) (s : State) : (onSess h f s).rcl = s.rcl := rfl
@[simp] theorem onSess_ledger (h : Nat) (f : Session → Session) (s : State) : (onSess h f s).ledger = s.ledger := rfl
@[simp] theorem onSess_links (h : Nat) (f : Session → Session) (s : State) : (onSess h f s).links = s.links := rfl
@[simp] theorem onSess_rack (h : Nat) (f : Session → Session) (s : State) : (onSess h f s).rack = s.rack := rfl
@[simp] theorem onSess_chk (h : Nat) (f : Session → Session) (s : State) : (onSess h f s).chk = s.chk := rfl
@[simp] theorem onSess_free (h : Nat) (f : Session → Session) (s : State) : (onSess h f s).free = s.free := rfl
@[simp] theorem onSess_pending (h : Nat) (f : Session → Session) (s : State) : (onSess h f s).pending = s.pending := rfl

/-! ### `dropSess` -/

@[simp] theorem dropSess_part (h : Nat) (s : State) : (dropSess h s).part = s.part := rfl
@[simp] theorem dropSess_dev (h : Nat) (s : State) : (dropSess h s).dev = s.dev := rfl
@[simp] theorem dropSess_nor (h : Nat) (s : State) : (dropSess h s).nor = s.nor := rfl
@[simp] theorem dropSess_pins (h : Nat) (s : State) : (dropSess h s).pins = s.pins := rfl
@[simp] theorem dropSess_sec (h : Nat) (s : State) : (dropSess h s).sec = s.sec := rfl
@[simp] theorem dropSess_outs (h : Nat) (s : State) : (dropSess h s).outs = s.outs := rfl
@[simp] theorem dropSess_parts (h : Nat) (s : State) : (dropSess h s).parts = s.parts := rfl
@[simp] theorem dropSess_dies (h : Nat) (s : State) : (dropSess h s).dies = s.dies := rfl
@[simp] theorem dropSess_cores (h : Nat) (s : State) : (dropSess h s).cores = s.cores := rfl
@[simp] theorem dropSess_stg (h : Nat) (s : State) : (dropSess h s).stg = s.stg := rfl
@[simp] theorem dropSess_fns (h : Nat) (s : State) : (dropSess h s).fns = s.fns := rfl
@[simp] theorem dropSess_tens (h : Nat) (s : State) : (dropSess h s).tens = s.tens := rfl
@[simp] theorem dropSess_sess (h : Nat) (s : State) : (dropSess h s).sess = eraseKey Session.handle h s.sess := rfl
@[simp] theorem dropSess_sched (h : Nat) (s : State) : (dropSess h s).sched = s.sched := rfl
@[simp] theorem dropSess_models (h : Nat) (s : State) : (dropSess h s).models = s.models := rfl
@[simp] theorem dropSess_tiers (h : Nat) (s : State) : (dropSess h s).tiers = s.tiers := rfl
@[simp] theorem dropSess_store (h : Nat) (s : State) : (dropSess h s).store = s.store := rfl
@[simp] theorem dropSess_rcl (h : Nat) (s : State) : (dropSess h s).rcl = s.rcl := rfl
@[simp] theorem dropSess_ledger (h : Nat) (s : State) : (dropSess h s).ledger = s.ledger := rfl
@[simp] theorem dropSess_links (h : Nat) (s : State) : (dropSess h s).links = s.links := rfl
@[simp] theorem dropSess_rack (h : Nat) (s : State) : (dropSess h s).rack = s.rack := rfl
@[simp] theorem dropSess_chk (h : Nat) (s : State) : (dropSess h s).chk = s.chk := rfl
@[simp] theorem dropSess_free (h : Nat) (s : State) : (dropSess h s).free = s.free := rfl
@[simp] theorem dropSess_pending (h : Nat) (s : State) : (dropSess h s).pending = s.pending := rfl

/-! ### `addSess` -/

@[simp] theorem addSess_part (x : Session) (s : State) : (addSess x s).part = s.part := rfl
@[simp] theorem addSess_dev (x : Session) (s : State) : (addSess x s).dev = s.dev := rfl
@[simp] theorem addSess_nor (x : Session) (s : State) : (addSess x s).nor = s.nor := rfl
@[simp] theorem addSess_pins (x : Session) (s : State) : (addSess x s).pins = s.pins := rfl
@[simp] theorem addSess_sec (x : Session) (s : State) : (addSess x s).sec = s.sec := rfl
@[simp] theorem addSess_outs (x : Session) (s : State) : (addSess x s).outs = s.outs := rfl
@[simp] theorem addSess_parts (x : Session) (s : State) : (addSess x s).parts = s.parts := rfl
@[simp] theorem addSess_dies (x : Session) (s : State) : (addSess x s).dies = s.dies := rfl
@[simp] theorem addSess_cores (x : Session) (s : State) : (addSess x s).cores = s.cores := rfl
@[simp] theorem addSess_stg (x : Session) (s : State) : (addSess x s).stg = s.stg := rfl
@[simp] theorem addSess_fns (x : Session) (s : State) : (addSess x s).fns = s.fns := rfl
@[simp] theorem addSess_tens (x : Session) (s : State) : (addSess x s).tens = s.tens := rfl
@[simp] theorem addSess_sess (x : Session) (s : State) : (addSess x s).sess = s.sess ++ [x] := rfl
@[simp] theorem addSess_sched (x : Session) (s : State) : (addSess x s).sched = s.sched := rfl
@[simp] theorem addSess_models (x : Session) (s : State) : (addSess x s).models = s.models := rfl
@[simp] theorem addSess_tiers (x : Session) (s : State) : (addSess x s).tiers = s.tiers := rfl
@[simp] theorem addSess_store (x : Session) (s : State) : (addSess x s).store = s.store := rfl
@[simp] theorem addSess_rcl (x : Session) (s : State) : (addSess x s).rcl = s.rcl := rfl
@[simp] theorem addSess_ledger (x : Session) (s : State) : (addSess x s).ledger = s.ledger := rfl
@[simp] theorem addSess_links (x : Session) (s : State) : (addSess x s).links = s.links := rfl
@[simp] theorem addSess_rack (x : Session) (s : State) : (addSess x s).rack = s.rack := rfl
@[simp] theorem addSess_chk (x : Session) (s : State) : (addSess x s).chk = s.chk := rfl
@[simp] theorem addSess_free (x : Session) (s : State) : (addSess x s).free = s.free := rfl
@[simp] theorem addSess_pending (x : Session) (s : State) : (addSess x s).pending = s.pending := rfl

/-! ### `onTen` -/

@[simp] theorem onTen_part (t : Nat) (f : Tenant → Tenant) (s : State) : (onTen t f s).part = s.part := rfl
@[simp] theorem onTen_dev (t : Nat) (f : Tenant → Tenant) (s : State) : (onTen t f s).dev = s.dev := rfl
@[simp] theorem onTen_nor (t : Nat) (f : Tenant → Tenant) (s : State) : (onTen t f s).nor = s.nor := rfl
@[simp] theorem onTen_pins (t : Nat) (f : Tenant → Tenant) (s : State) : (onTen t f s).pins = s.pins := rfl
@[simp] theorem onTen_sec (t : Nat) (f : Tenant → Tenant) (s : State) : (onTen t f s).sec = s.sec := rfl
@[simp] theorem onTen_outs (t : Nat) (f : Tenant → Tenant) (s : State) : (onTen t f s).outs = s.outs := rfl
@[simp] theorem onTen_parts (t : Nat) (f : Tenant → Tenant) (s : State) : (onTen t f s).parts = s.parts := rfl
@[simp] theorem onTen_dies (t : Nat) (f : Tenant → Tenant) (s : State) : (onTen t f s).dies = s.dies := rfl
@[simp] theorem onTen_cores (t : Nat) (f : Tenant → Tenant) (s : State) : (onTen t f s).cores = s.cores := rfl
@[simp] theorem onTen_stg (t : Nat) (f : Tenant → Tenant) (s : State) : (onTen t f s).stg = s.stg := rfl
@[simp] theorem onTen_fns (t : Nat) (f : Tenant → Tenant) (s : State) : (onTen t f s).fns = s.fns := rfl
@[simp] theorem onTen_tens (t : Nat) (f : Tenant → Tenant) (s : State) : (onTen t f s).tens = updKey Tenant.id t f s.tens := rfl
@[simp] theorem onTen_sess (t : Nat) (f : Tenant → Tenant) (s : State) : (onTen t f s).sess = s.sess := rfl
@[simp] theorem onTen_sched (t : Nat) (f : Tenant → Tenant) (s : State) : (onTen t f s).sched = s.sched := rfl
@[simp] theorem onTen_models (t : Nat) (f : Tenant → Tenant) (s : State) : (onTen t f s).models = s.models := rfl
@[simp] theorem onTen_tiers (t : Nat) (f : Tenant → Tenant) (s : State) : (onTen t f s).tiers = s.tiers := rfl
@[simp] theorem onTen_store (t : Nat) (f : Tenant → Tenant) (s : State) : (onTen t f s).store = s.store := rfl
@[simp] theorem onTen_rcl (t : Nat) (f : Tenant → Tenant) (s : State) : (onTen t f s).rcl = s.rcl := rfl
@[simp] theorem onTen_ledger (t : Nat) (f : Tenant → Tenant) (s : State) : (onTen t f s).ledger = s.ledger := rfl
@[simp] theorem onTen_links (t : Nat) (f : Tenant → Tenant) (s : State) : (onTen t f s).links = s.links := rfl
@[simp] theorem onTen_rack (t : Nat) (f : Tenant → Tenant) (s : State) : (onTen t f s).rack = s.rack := rfl
@[simp] theorem onTen_chk (t : Nat) (f : Tenant → Tenant) (s : State) : (onTen t f s).chk = s.chk := rfl
@[simp] theorem onTen_free (t : Nat) (f : Tenant → Tenant) (s : State) : (onTen t f s).free = s.free := rfl
@[simp] theorem onTen_pending (t : Nat) (f : Tenant → Tenant) (s : State) : (onTen t f s).pending = s.pending := rfl

/-! ### `setFn` -/

@[simp] theorem setFn_part (f : Fn) (s : State) : (setFn f s).part = s.part := rfl
@[simp] theorem setFn_dev (f : Fn) (s : State) : (setFn f s).dev = s.dev := rfl
@[simp] theorem setFn_nor (f : Fn) (s : State) : (setFn f s).nor = s.nor := rfl
@[simp] theorem setFn_pins (f : Fn) (s : State) : (setFn f s).pins = s.pins := rfl
@[simp] theorem setFn_sec (f : Fn) (s : State) : (setFn f s).sec = s.sec := rfl
@[simp] theorem setFn_outs (f : Fn) (s : State) : (setFn f s).outs = s.outs := rfl
@[simp] theorem setFn_parts (f : Fn) (s : State) : (setFn f s).parts = s.parts := rfl
@[simp] theorem setFn_dies (f : Fn) (s : State) : (setFn f s).dies = s.dies := rfl
@[simp] theorem setFn_cores (f : Fn) (s : State) : (setFn f s).cores = s.cores := rfl
@[simp] theorem setFn_stg (f : Fn) (s : State) : (setFn f s).stg = s.stg := rfl
@[simp] theorem setFn_fns (f : Fn) (s : State) : (setFn f s).fns = upsert Fn.id f s.fns := rfl
@[simp] theorem setFn_tens (f : Fn) (s : State) : (setFn f s).tens = s.tens := rfl
@[simp] theorem setFn_sess (f : Fn) (s : State) : (setFn f s).sess = s.sess := rfl
@[simp] theorem setFn_sched (f : Fn) (s : State) : (setFn f s).sched = s.sched := rfl
@[simp] theorem setFn_models (f : Fn) (s : State) : (setFn f s).models = s.models := rfl
@[simp] theorem setFn_tiers (f : Fn) (s : State) : (setFn f s).tiers = s.tiers := rfl
@[simp] theorem setFn_store (f : Fn) (s : State) : (setFn f s).store = s.store := rfl
@[simp] theorem setFn_rcl (f : Fn) (s : State) : (setFn f s).rcl = s.rcl := rfl
@[simp] theorem setFn_ledger (f : Fn) (s : State) : (setFn f s).ledger = s.ledger := rfl
@[simp] theorem setFn_links (f : Fn) (s : State) : (setFn f s).links = s.links := rfl
@[simp] theorem setFn_rack (f : Fn) (s : State) : (setFn f s).rack = s.rack := rfl
@[simp] theorem setFn_chk (f : Fn) (s : State) : (setFn f s).chk = s.chk := rfl
@[simp] theorem setFn_free (f : Fn) (s : State) : (setFn f s).free = s.free := rfl
@[simp] theorem setFn_pending (f : Fn) (s : State) : (setFn f s).pending = s.pending := rfl

/-! ### `onFn` -/

@[simp] theorem onFn_part (fn : Nat) (g : Fn → Fn) (s : State) : (onFn fn g s).part = s.part := rfl
@[simp] theorem onFn_dev (fn : Nat) (g : Fn → Fn) (s : State) : (onFn fn g s).dev = s.dev := rfl
@[simp] theorem onFn_nor (fn : Nat) (g : Fn → Fn) (s : State) : (onFn fn g s).nor = s.nor := rfl
@[simp] theorem onFn_pins (fn : Nat) (g : Fn → Fn) (s : State) : (onFn fn g s).pins = s.pins := rfl
@[simp] theorem onFn_sec (fn : Nat) (g : Fn → Fn) (s : State) : (onFn fn g s).sec = s.sec := rfl
@[simp] theorem onFn_outs (fn : Nat) (g : Fn → Fn) (s : State) : (onFn fn g s).outs = s.outs := rfl
@[simp] theorem onFn_parts (fn : Nat) (g : Fn → Fn) (s : State) : (onFn fn g s).parts = s.parts := rfl
@[simp] theorem onFn_dies (fn : Nat) (g : Fn → Fn) (s : State) : (onFn fn g s).dies = s.dies := rfl
@[simp] theorem onFn_cores (fn : Nat) (g : Fn → Fn) (s : State) : (onFn fn g s).cores = s.cores := rfl
@[simp] theorem onFn_stg (fn : Nat) (g : Fn → Fn) (s : State) : (onFn fn g s).stg = s.stg := rfl
@[simp] theorem onFn_fns (fn : Nat) (g : Fn → Fn) (s : State) : (onFn fn g s).fns = upsert Fn.id { g (fnOf s fn) with id := fn } s.fns := rfl
@[simp] theorem onFn_tens (fn : Nat) (g : Fn → Fn) (s : State) : (onFn fn g s).tens = s.tens := rfl
@[simp] theorem onFn_sess (fn : Nat) (g : Fn → Fn) (s : State) : (onFn fn g s).sess = s.sess := rfl
@[simp] theorem onFn_sched (fn : Nat) (g : Fn → Fn) (s : State) : (onFn fn g s).sched = s.sched := rfl
@[simp] theorem onFn_models (fn : Nat) (g : Fn → Fn) (s : State) : (onFn fn g s).models = s.models := rfl
@[simp] theorem onFn_tiers (fn : Nat) (g : Fn → Fn) (s : State) : (onFn fn g s).tiers = s.tiers := rfl
@[simp] theorem onFn_store (fn : Nat) (g : Fn → Fn) (s : State) : (onFn fn g s).store = s.store := rfl
@[simp] theorem onFn_rcl (fn : Nat) (g : Fn → Fn) (s : State) : (onFn fn g s).rcl = s.rcl := rfl
@[simp] theorem onFn_ledger (fn : Nat) (g : Fn → Fn) (s : State) : (onFn fn g s).ledger = s.ledger := rfl
@[simp] theorem onFn_links (fn : Nat) (g : Fn → Fn) (s : State) : (onFn fn g s).links = s.links := rfl
@[simp] theorem onFn_rack (fn : Nat) (g : Fn → Fn) (s : State) : (onFn fn g s).rack = s.rack := rfl
@[simp] theorem onFn_chk (fn : Nat) (g : Fn → Fn) (s : State) : (onFn fn g s).chk = s.chk := rfl
@[simp] theorem onFn_free (fn : Nat) (g : Fn → Fn) (s : State) : (onFn fn g s).free = s.free := rfl
@[simp] theorem onFn_pending (fn : Nat) (g : Fn → Fn) (s : State) : (onFn fn g s).pending = s.pending := rfl

/-! ### `onModel` -/

@[simp] theorem onModel_part (m : Nat) (f : Model → Model) (s : State) : (onModel m f s).part = s.part := rfl
@[simp] theorem onModel_dev (m : Nat) (f : Model → Model) (s : State) : (onModel m f s).dev = s.dev := rfl
@[simp] theorem onModel_nor (m : Nat) (f : Model → Model) (s : State) : (onModel m f s).nor = s.nor := rfl
@[simp] theorem onModel_pins (m : Nat) (f : Model → Model) (s : State) : (onModel m f s).pins = s.pins := rfl
@[simp] theorem onModel_sec (m : Nat) (f : Model → Model) (s : State) : (onModel m f s).sec = s.sec := rfl
@[simp] theorem onModel_outs (m : Nat) (f : Model → Model) (s : State) : (onModel m f s).outs = s.outs := rfl
@[simp] theorem onModel_parts (m : Nat) (f : Model → Model) (s : State) : (onModel m f s).parts = s.parts := rfl
@[simp] theorem onModel_dies (m : Nat) (f : Model → Model) (s : State) : (onModel m f s).dies = s.dies := rfl
@[simp] theorem onModel_cores (m : Nat) (f : Model → Model) (s : State) : (onModel m f s).cores = s.cores := rfl
@[simp] theorem onModel_stg (m : Nat) (f : Model → Model) (s : State) : (onModel m f s).stg = s.stg := rfl
@[simp] theorem onModel_fns (m : Nat) (f : Model → Model) (s : State) : (onModel m f s).fns = s.fns := rfl
@[simp] theorem onModel_tens (m : Nat) (f : Model → Model) (s : State) : (onModel m f s).tens = s.tens := rfl
@[simp] theorem onModel_sess (m : Nat) (f : Model → Model) (s : State) : (onModel m f s).sess = s.sess := rfl
@[simp] theorem onModel_sched (m : Nat) (f : Model → Model) (s : State) : (onModel m f s).sched = s.sched := rfl
@[simp] theorem onModel_models (m : Nat) (f : Model → Model) (s : State) : (onModel m f s).models = updKey Model.num m f s.models := rfl
@[simp] theorem onModel_tiers (m : Nat) (f : Model → Model) (s : State) : (onModel m f s).tiers = s.tiers := rfl
@[simp] theorem onModel_store (m : Nat) (f : Model → Model) (s : State) : (onModel m f s).store = s.store := rfl
@[simp] theorem onModel_rcl (m : Nat) (f : Model → Model) (s : State) : (onModel m f s).rcl = s.rcl := rfl
@[simp] theorem onModel_ledger (m : Nat) (f : Model → Model) (s : State) : (onModel m f s).ledger = s.ledger := rfl
@[simp] theorem onModel_links (m : Nat) (f : Model → Model) (s : State) : (onModel m f s).links = s.links := rfl
@[simp] theorem onModel_rack (m : Nat) (f : Model → Model) (s : State) : (onModel m f s).rack = s.rack := rfl
@[simp] theorem onModel_chk (m : Nat) (f : Model → Model) (s : State) : (onModel m f s).chk = s.chk := rfl
@[simp] theorem onModel_free (m : Nat) (f : Model → Model) (s : State) : (onModel m f s).free = s.free := rfl
@[simp] theorem onModel_pending (m : Nat) (f : Model → Model) (s : State) : (onModel m f s).pending = s.pending := rfl

/-! ### `onFlask` -/

@[simp] theorem onFlask_part (k : Nat) (f : Flask → Flask) (s : State) : (onFlask k f s).part = s.part := rfl
@[simp] theorem onFlask_dev (k : Nat) (f : Flask → Flask) (s : State) : (onFlask k f s).dev = s.dev := rfl
@[simp] theorem onFlask_nor (k : Nat) (f : Flask → Flask) (s : State) : (onFlask k f s).nor = s.nor := rfl
@[simp] theorem onFlask_pins (k : Nat) (f : Flask → Flask) (s : State) : (onFlask k f s).pins = s.pins := rfl
@[simp] theorem onFlask_sec (k : Nat) (f : Flask → Flask) (s : State) : (onFlask k f s).sec = s.sec := rfl
@[simp] theorem onFlask_outs (k : Nat) (f : Flask → Flask) (s : State) : (onFlask k f s).outs = s.outs := rfl
@[simp] theorem onFlask_parts (k : Nat) (f : Flask → Flask) (s : State) : (onFlask k f s).parts = s.parts := rfl
@[simp] theorem onFlask_dies (k : Nat) (f : Flask → Flask) (s : State) : (onFlask k f s).dies = s.dies := rfl
@[simp] theorem onFlask_cores (k : Nat) (f : Flask → Flask) (s : State) : (onFlask k f s).cores = s.cores := rfl
@[simp] theorem onFlask_stg (k : Nat) (f : Flask → Flask) (s : State) : (onFlask k f s).stg = s.stg := rfl
@[simp] theorem onFlask_fns (k : Nat) (f : Flask → Flask) (s : State) : (onFlask k f s).fns = s.fns := rfl
@[simp] theorem onFlask_tens (k : Nat) (f : Flask → Flask) (s : State) : (onFlask k f s).tens = s.tens := rfl
@[simp] theorem onFlask_sess (k : Nat) (f : Flask → Flask) (s : State) : (onFlask k f s).sess = s.sess := rfl
@[simp] theorem onFlask_sched_next (k : Nat) (f : Flask → Flask) (s : State) : (onFlask k f s).sched.next = s.sched.next := rfl
@[simp] theorem onFlask_sched_flasks (k : Nat) (f : Flask → Flask) (s : State) : (onFlask k f s).sched.flasks = updKey Flask.num k f s.sched.flasks := rfl
@[simp] theorem onFlask_sched_pour (k : Nat) (f : Flask → Flask) (s : State) : (onFlask k f s).sched.pour = s.sched.pour := rfl
@[simp] theorem onFlask_sched_suspended (k : Nat) (f : Flask → Flask) (s : State) : (onFlask k f s).sched.suspended = s.sched.suspended := rfl
@[simp] theorem onFlask_sched_rounds (k : Nat) (f : Flask → Flask) (s : State) : (onFlask k f s).sched.rounds = s.sched.rounds := rfl
@[simp] theorem onFlask_sched_orders (k : Nat) (f : Flask → Flask) (s : State) : (onFlask k f s).sched.orders = s.sched.orders := rfl
@[simp] theorem onFlask_sched_clustersOn (k : Nat) (f : Flask → Flask) (s : State) : (onFlask k f s).sched.clustersOn = s.sched.clustersOn := rfl
@[simp] theorem onFlask_sched_dropped (k : Nat) (f : Flask → Flask) (s : State) : (onFlask k f s).sched.dropped = s.sched.dropped := rfl
@[simp] theorem onFlask_sched_selections (k : Nat) (f : Flask → Flask) (s : State) : (onFlask k f s).sched.selections = s.sched.selections := rfl
@[simp] theorem onFlask_sched_loaded (k : Nat) (f : Flask → Flask) (s : State) : (onFlask k f s).sched.loaded = s.sched.loaded := rfl
@[simp] theorem onFlask_models (k : Nat) (f : Flask → Flask) (s : State) : (onFlask k f s).models = s.models := rfl
@[simp] theorem onFlask_tiers (k : Nat) (f : Flask → Flask) (s : State) : (onFlask k f s).tiers = s.tiers := rfl
@[simp] theorem onFlask_store (k : Nat) (f : Flask → Flask) (s : State) : (onFlask k f s).store = s.store := rfl
@[simp] theorem onFlask_rcl (k : Nat) (f : Flask → Flask) (s : State) : (onFlask k f s).rcl = s.rcl := rfl
@[simp] theorem onFlask_ledger (k : Nat) (f : Flask → Flask) (s : State) : (onFlask k f s).ledger = s.ledger := rfl
@[simp] theorem onFlask_links (k : Nat) (f : Flask → Flask) (s : State) : (onFlask k f s).links = s.links := rfl
@[simp] theorem onFlask_rack (k : Nat) (f : Flask → Flask) (s : State) : (onFlask k f s).rack = s.rack := rfl
@[simp] theorem onFlask_chk (k : Nat) (f : Flask → Flask) (s : State) : (onFlask k f s).chk = s.chk := rfl
@[simp] theorem onFlask_free (k : Nat) (f : Flask → Flask) (s : State) : (onFlask k f s).free = s.free := rfl
@[simp] theorem onFlask_pending (k : Nat) (f : Flask → Flask) (s : State) : (onFlask k f s).pending = s.pending := rfl

/-! ### `onPort` -/

@[simp] theorem onPort_part (p : Nat) (f : Port → Port) (s : State) : (onPort p f s).part = s.part := rfl
@[simp] theorem onPort_dev (p : Nat) (f : Port → Port) (s : State) : (onPort p f s).dev = s.dev := rfl
@[simp] theorem onPort_nor (p : Nat) (f : Port → Port) (s : State) : (onPort p f s).nor = s.nor := rfl
@[simp] theorem onPort_pins (p : Nat) (f : Port → Port) (s : State) : (onPort p f s).pins = s.pins := rfl
@[simp] theorem onPort_sec (p : Nat) (f : Port → Port) (s : State) : (onPort p f s).sec = s.sec := rfl
@[simp] theorem onPort_outs (p : Nat) (f : Port → Port) (s : State) : (onPort p f s).outs = s.outs := rfl
@[simp] theorem onPort_parts (p : Nat) (f : Port → Port) (s : State) : (onPort p f s).parts = s.parts := rfl
@[simp] theorem onPort_dies (p : Nat) (f : Port → Port) (s : State) : (onPort p f s).dies = s.dies := rfl
@[simp] theorem onPort_cores (p : Nat) (f : Port → Port) (s : State) : (onPort p f s).cores = s.cores := rfl
@[simp] theorem onPort_stg (p : Nat) (f : Port → Port) (s : State) : (onPort p f s).stg = s.stg := rfl
@[simp] theorem onPort_fns (p : Nat) (f : Port → Port) (s : State) : (onPort p f s).fns = s.fns := rfl
@[simp] theorem onPort_tens (p : Nat) (f : Port → Port) (s : State) : (onPort p f s).tens = s.tens := rfl
@[simp] theorem onPort_sess (p : Nat) (f : Port → Port) (s : State) : (onPort p f s).sess = s.sess := rfl
@[simp] theorem onPort_sched (p : Nat) (f : Port → Port) (s : State) : (onPort p f s).sched = s.sched := rfl
@[simp] theorem onPort_models (p : Nat) (f : Port → Port) (s : State) : (onPort p f s).models = s.models := rfl
@[simp] theorem onPort_tiers (p : Nat) (f : Port → Port) (s : State) : (onPort p f s).tiers = s.tiers := rfl
@[simp] theorem onPort_store (p : Nat) (f : Port → Port) (s : State) : (onPort p f s).store = s.store := rfl
@[simp] theorem onPort_rcl (p : Nat) (f : Port → Port) (s : State) : (onPort p f s).rcl = s.rcl := rfl
@[simp] theorem onPort_ledger (p : Nat) (f : Port → Port) (s : State) : (onPort p f s).ledger = s.ledger := rfl
@[simp] theorem onPort_links_ports (p : Nat) (f : Port → Port) (s : State) : (onPort p f s).links.ports = updKey Port.num p f s.links.ports := rfl
@[simp] theorem onPort_links_windows (p : Nat) (f : Port → Port) (s : State) : (onPort p f s).links.windows = s.links.windows := rfl
@[simp] theorem onPort_links_flows (p : Nat) (f : Port → Port) (s : State) : (onPort p f s).links.flows = s.links.flows := rfl
@[simp] theorem onPort_links_reads (p : Nat) (f : Port → Port) (s : State) : (onPort p f s).links.reads = s.links.reads := rfl
@[simp] theorem onPort_links_nextTag (p : Nat) (f : Port → Port) (s : State) : (onPort p f s).links.nextTag = s.links.nextTag := rfl
@[simp] theorem onPort_links_unreachable (p : Nat) (f : Port → Port) (s : State) : (onPort p f s).links.unreachable = s.links.unreachable := rfl
@[simp] theorem onPort_links_out (p : Nat) (f : Port → Port) (s : State) : (onPort p f s).links.out = s.links.out := rfl
@[simp] theorem onPort_links_held (p : Nat) (f : Port → Port) (s : State) : (onPort p f s).links.held = s.links.held := rfl
@[simp] theorem onPort_links_bundles (p : Nat) (f : Port → Port) (s : State) : (onPort p f s).links.bundles = s.links.bundles := rfl
@[simp] theorem onPort_links_pairs (p : Nat) (f : Port → Port) (s : State) : (onPort p f s).links.pairs = s.links.pairs := rfl
@[simp] theorem onPort_links_lostRunners (p : Nat) (f : Port → Port) (s : State) : (onPort p f s).links.lostRunners = s.links.lostRunners := rfl
@[simp] theorem onPort_links_lasers (p : Nat) (f : Port → Port) (s : State) : (onPort p f s).links.lasers = s.links.lasers := rfl
@[simp] theorem onPort_rack (p : Nat) (f : Port → Port) (s : State) : (onPort p f s).rack = s.rack := rfl
@[simp] theorem onPort_chk (p : Nat) (f : Port → Port) (s : State) : (onPort p f s).chk = s.chk := rfl
@[simp] theorem onPort_free (p : Nat) (f : Port → Port) (s : State) : (onPort p f s).free = s.free := rfl
@[simp] theorem onPort_pending (p : Nat) (f : Port → Port) (s : State) : (onPort p f s).pending = s.pending := rfl

/-! ### `onDie` -/

@[simp] theorem onDie_part (d : Nat) (f : ScDie → ScDie) (s : State) : (onDie d f s).part = s.part := rfl
@[simp] theorem onDie_dev (d : Nat) (f : ScDie → ScDie) (s : State) : (onDie d f s).dev = s.dev := rfl
@[simp] theorem onDie_nor (d : Nat) (f : ScDie → ScDie) (s : State) : (onDie d f s).nor = s.nor := rfl
@[simp] theorem onDie_pins (d : Nat) (f : ScDie → ScDie) (s : State) : (onDie d f s).pins = s.pins := rfl
@[simp] theorem onDie_sec (d : Nat) (f : ScDie → ScDie) (s : State) : (onDie d f s).sec = s.sec := rfl
@[simp] theorem onDie_outs (d : Nat) (f : ScDie → ScDie) (s : State) : (onDie d f s).outs = s.outs := rfl
@[simp] theorem onDie_parts (d : Nat) (f : ScDie → ScDie) (s : State) : (onDie d f s).parts = s.parts := rfl
@[simp] theorem onDie_dies (d : Nat) (f : ScDie → ScDie) (s : State) : (onDie d f s).dies = updKey ScDie.num d f s.dies := rfl
@[simp] theorem onDie_cores (d : Nat) (f : ScDie → ScDie) (s : State) : (onDie d f s).cores = s.cores := rfl
@[simp] theorem onDie_stg (d : Nat) (f : ScDie → ScDie) (s : State) : (onDie d f s).stg = s.stg := rfl
@[simp] theorem onDie_fns (d : Nat) (f : ScDie → ScDie) (s : State) : (onDie d f s).fns = s.fns := rfl
@[simp] theorem onDie_tens (d : Nat) (f : ScDie → ScDie) (s : State) : (onDie d f s).tens = s.tens := rfl
@[simp] theorem onDie_sess (d : Nat) (f : ScDie → ScDie) (s : State) : (onDie d f s).sess = s.sess := rfl
@[simp] theorem onDie_sched (d : Nat) (f : ScDie → ScDie) (s : State) : (onDie d f s).sched = s.sched := rfl
@[simp] theorem onDie_models (d : Nat) (f : ScDie → ScDie) (s : State) : (onDie d f s).models = s.models := rfl
@[simp] theorem onDie_tiers (d : Nat) (f : ScDie → ScDie) (s : State) : (onDie d f s).tiers = s.tiers := rfl
@[simp] theorem onDie_store (d : Nat) (f : ScDie → ScDie) (s : State) : (onDie d f s).store = s.store := rfl
@[simp] theorem onDie_rcl (d : Nat) (f : ScDie → ScDie) (s : State) : (onDie d f s).rcl = s.rcl := rfl
@[simp] theorem onDie_ledger (d : Nat) (f : ScDie → ScDie) (s : State) : (onDie d f s).ledger = s.ledger := rfl
@[simp] theorem onDie_links (d : Nat) (f : ScDie → ScDie) (s : State) : (onDie d f s).links = s.links := rfl
@[simp] theorem onDie_rack (d : Nat) (f : ScDie → ScDie) (s : State) : (onDie d f s).rack = s.rack := rfl
@[simp] theorem onDie_chk (d : Nat) (f : ScDie → ScDie) (s : State) : (onDie d f s).chk = s.chk := rfl
@[simp] theorem onDie_free (d : Nat) (f : ScDie → ScDie) (s : State) : (onDie d f s).free = s.free := rfl
@[simp] theorem onDie_pending (d : Nat) (f : ScDie → ScDie) (s : State) : (onDie d f s).pending = s.pending := rfl

/-! ### `onHub` -/

@[simp] theorem onHub_part (h : Nat) (f : Hub → Hub) (s : State) : (onHub h f s).part = s.part := rfl
@[simp] theorem onHub_dev_code (h : Nat) (f : Hub → Hub) (s : State) : (onHub h f s).dev.code = s.dev.code := rfl
@[simp] theorem onHub_dev_step (h : Nat) (f : Hub → Hub) (s : State) : (onHub h f s).dev.step = s.dev.step := rfl
@[simp] theorem onHub_dev_quick (h : Nat) (f : Hub → Hub) (s : State) : (onHub h f s).dev.quick = s.dev.quick := rfl
@[simp] theorem onHub_dev_leading (h : Nat) (f : Hub → Hub) (s : State) : (onHub h f s).dev.leading = s.dev.leading := rfl
@[simp] theorem onHub_dev_hubs (h : Nat) (f : Hub → Hub) (s : State) : (onHub h f s).dev.hubs = s.dev.hubs.modify h f := rfl
@[simp] theorem onHub_dev_linkUp (h : Nat) (f : Hub → Hub) (s : State) : (onHub h f s).dev.linkUp = s.dev.linkUp := rfl
@[simp] theorem onHub_dev_numVFs (h : Nat) (f : Hub → Hub) (s : State) : (onHub h f s).dev.numVFs = s.dev.numVFs := rfl
@[simp] theorem onHub_dev_image (h : Nat) (f : Hub → Hub) (s : State) : (onHub h f s).dev.image = s.dev.image := rfl
@[simp] theorem onHub_dev_slot (h : Nat) (f : Hub → Hub) (s : State) : (onHub h f s).dev.slot = s.dev.slot := rfl
@[simp] theorem onHub_dev_moulds (h : Nat) (f : Hub → Hub) (s : State) : (onHub h f s).dev.moulds = s.dev.moulds := rfl
@[simp] theorem onHub_dev_tokenisers (h : Nat) (f : Hub → Hub) (s : State) : (onHub h f s).dev.tokenisers = s.dev.tokenisers := rfl
@[simp] theorem onHub_dev_templates (h : Nat) (f : Hub → Hub) (s : State) : (onHub h f s).dev.templates = s.dev.templates := rfl
@[simp] theorem onHub_dev_failed (h : Nat) (f : Hub → Hub) (s : State) : (onHub h f s).dev.failed = s.dev.failed := rfl
@[simp] theorem onHub_dev_meters (h : Nat) (f : Hub → Hub) (s : State) : (onHub h f s).dev.meters = s.dev.meters := rfl
@[simp] theorem onHub_dev_log (h : Nat) (f : Hub → Hub) (s : State) : (onHub h f s).dev.log = s.dev.log := rfl
@[simp] theorem onHub_dev_logNext (h : Nat) (f : Hub → Hub) (s : State) : (onHub h f s).dev.logNext = s.dev.logNext := rfl
@[simp] theorem onHub_dev_logOldest (h : Nat) (f : Hub → Hub) (s : State) : (onHub h f s).dev.logOldest = s.dev.logOldest := rfl
@[simp] theorem onHub_dev_events (h : Nat) (f : Hub → Hub) (s : State) : (onHub h f s).dev.events = s.dev.events := rfl
@[simp] theorem onHub_dev_powered (h : Nat) (f : Hub → Hub) (s : State) : (onHub h f s).dev.powered = s.dev.powered := rfl
@[simp] theorem onHub_dev_stop (h : Nat) (f : Hub → Hub) (s : State) : (onHub h f s).dev.stop = s.dev.stop := rfl
@[simp] theorem onHub_dev_heldShut (h : Nat) (f : Hub → Hub) (s : State) : (onHub h f s).dev.heldShut = s.dev.heldShut := rfl
@[simp] theorem onHub_dev_heldStop (h : Nat) (f : Hub → Hub) (s : State) : (onHub h f s).dev.heldStop = s.dev.heldStop := rfl
@[simp] theorem onHub_dev_roll (h : Nat) (f : Hub → Hub) (s : State) : (onHub h f s).dev.roll = s.dev.roll := rfl
@[simp] theorem onHub_dev_lowLife (h : Nat) (f : Hub → Hub) (s : State) : (onHub h f s).dev.lowLife = s.dev.lowLife := rfl
@[simp] theorem onHub_dev_lastStop (h : Nat) (f : Hub → Hub) (s : State) : (onHub h f s).dev.lastStop = s.dev.lastStop := rfl
@[simp] theorem onHub_dev_serialEnd (h : Nat) (f : Hub → Hub) (s : State) : (onHub h f s).dev.serialEnd = s.dev.serialEnd := rfl
@[simp] theorem onHub_dev_nextSerial (h : Nat) (f : Hub → Hub) (s : State) : (onHub h f s).dev.nextSerial = s.dev.nextSerial := rfl
@[simp] theorem onHub_dev_clocked (h : Nat) (f : Hub → Hub) (s : State) : (onHub h f s).dev.clocked = s.dev.clocked := rfl
@[simp] theorem onHub_dev_chill (h : Nat) (f : Hub → Hub) (s : State) : (onHub h f s).dev.chill = s.dev.chill := rfl
@[simp] theorem onHub_nor (h : Nat) (f : Hub → Hub) (s : State) : (onHub h f s).nor = s.nor := rfl
@[simp] theorem onHub_pins (h : Nat) (f : Hub → Hub) (s : State) : (onHub h f s).pins = s.pins := rfl
@[simp] theorem onHub_sec (h : Nat) (f : Hub → Hub) (s : State) : (onHub h f s).sec = s.sec := rfl
@[simp] theorem onHub_outs (h : Nat) (f : Hub → Hub) (s : State) : (onHub h f s).outs = s.outs := rfl
@[simp] theorem onHub_parts (h : Nat) (f : Hub → Hub) (s : State) : (onHub h f s).parts = s.parts := rfl
@[simp] theorem onHub_dies (h : Nat) (f : Hub → Hub) (s : State) : (onHub h f s).dies = s.dies := rfl
@[simp] theorem onHub_cores (h : Nat) (f : Hub → Hub) (s : State) : (onHub h f s).cores = s.cores := rfl
@[simp] theorem onHub_stg (h : Nat) (f : Hub → Hub) (s : State) : (onHub h f s).stg = s.stg := rfl
@[simp] theorem onHub_fns (h : Nat) (f : Hub → Hub) (s : State) : (onHub h f s).fns = s.fns := rfl
@[simp] theorem onHub_tens (h : Nat) (f : Hub → Hub) (s : State) : (onHub h f s).tens = s.tens := rfl
@[simp] theorem onHub_sess (h : Nat) (f : Hub → Hub) (s : State) : (onHub h f s).sess = s.sess := rfl
@[simp] theorem onHub_sched (h : Nat) (f : Hub → Hub) (s : State) : (onHub h f s).sched = s.sched := rfl
@[simp] theorem onHub_models (h : Nat) (f : Hub → Hub) (s : State) : (onHub h f s).models = s.models := rfl
@[simp] theorem onHub_tiers (h : Nat) (f : Hub → Hub) (s : State) : (onHub h f s).tiers = s.tiers := rfl
@[simp] theorem onHub_store (h : Nat) (f : Hub → Hub) (s : State) : (onHub h f s).store = s.store := rfl
@[simp] theorem onHub_rcl (h : Nat) (f : Hub → Hub) (s : State) : (onHub h f s).rcl = s.rcl := rfl
@[simp] theorem onHub_ledger (h : Nat) (f : Hub → Hub) (s : State) : (onHub h f s).ledger = s.ledger := rfl
@[simp] theorem onHub_links (h : Nat) (f : Hub → Hub) (s : State) : (onHub h f s).links = s.links := rfl
@[simp] theorem onHub_rack (h : Nat) (f : Hub → Hub) (s : State) : (onHub h f s).rack = s.rack := rfl
@[simp] theorem onHub_chk (h : Nat) (f : Hub → Hub) (s : State) : (onHub h f s).chk = s.chk := rfl
@[simp] theorem onHub_free (h : Nat) (f : Hub → Hub) (s : State) : (onHub h f s).free = s.free := rfl
@[simp] theorem onHub_pending (h : Nat) (f : Hub → Hub) (s : State) : (onHub h f s).pending = s.pending := rfl

/-! ### `answerAt` -/

@[simp] theorem answerAt_part (fn : Nat) (r : WaitRec) (s : State) : (answerAt fn r s).part = s.part := rfl
@[simp] theorem answerAt_dev (fn : Nat) (r : WaitRec) (s : State) : (answerAt fn r s).dev = s.dev := rfl
@[simp] theorem answerAt_nor (fn : Nat) (r : WaitRec) (s : State) : (answerAt fn r s).nor = s.nor := rfl
@[simp] theorem answerAt_pins (fn : Nat) (r : WaitRec) (s : State) : (answerAt fn r s).pins = s.pins := rfl
@[simp] theorem answerAt_sec (fn : Nat) (r : WaitRec) (s : State) : (answerAt fn r s).sec = s.sec := rfl
@[simp] theorem answerAt_outs (fn : Nat) (r : WaitRec) (s : State) : (answerAt fn r s).outs = s.outs := rfl
@[simp] theorem answerAt_parts (fn : Nat) (r : WaitRec) (s : State) : (answerAt fn r s).parts = s.parts := rfl
@[simp] theorem answerAt_dies (fn : Nat) (r : WaitRec) (s : State) : (answerAt fn r s).dies = s.dies := rfl
@[simp] theorem answerAt_cores (fn : Nat) (r : WaitRec) (s : State) : (answerAt fn r s).cores = s.cores := rfl
@[simp] theorem answerAt_stg (fn : Nat) (r : WaitRec) (s : State) : (answerAt fn r s).stg = s.stg := rfl
@[simp] theorem answerAt_fns (fn : Nat) (r : WaitRec) (s : State) : (answerAt fn r s).fns = upsert Fn.id { fnOf s fn with waiting := (fnOf s fn).waiting ++ [r], id := fn } s.fns := rfl
@[simp] theorem answerAt_tens (fn : Nat) (r : WaitRec) (s : State) : (answerAt fn r s).tens = s.tens := rfl
@[simp] theorem answerAt_sess (fn : Nat) (r : WaitRec) (s : State) : (answerAt fn r s).sess = s.sess := rfl
@[simp] theorem answerAt_sched (fn : Nat) (r : WaitRec) (s : State) : (answerAt fn r s).sched = s.sched := rfl
@[simp] theorem answerAt_models (fn : Nat) (r : WaitRec) (s : State) : (answerAt fn r s).models = s.models := rfl
@[simp] theorem answerAt_tiers (fn : Nat) (r : WaitRec) (s : State) : (answerAt fn r s).tiers = s.tiers := rfl
@[simp] theorem answerAt_store (fn : Nat) (r : WaitRec) (s : State) : (answerAt fn r s).store = s.store := rfl
@[simp] theorem answerAt_rcl (fn : Nat) (r : WaitRec) (s : State) : (answerAt fn r s).rcl = s.rcl := rfl
@[simp] theorem answerAt_ledger (fn : Nat) (r : WaitRec) (s : State) : (answerAt fn r s).ledger = s.ledger := rfl
@[simp] theorem answerAt_links (fn : Nat) (r : WaitRec) (s : State) : (answerAt fn r s).links = s.links := rfl
@[simp] theorem answerAt_rack (fn : Nat) (r : WaitRec) (s : State) : (answerAt fn r s).rack = s.rack := rfl
@[simp] theorem answerAt_chk (fn : Nat) (r : WaitRec) (s : State) : (answerAt fn r s).chk = s.chk := rfl
@[simp] theorem answerAt_free (fn : Nat) (r : WaitRec) (s : State) : (answerAt fn r s).free = s.free := rfl
@[simp] theorem answerAt_pending (fn : Nat) (r : WaitRec) (s : State) : (answerAt fn r s).pending = s.pending := rfl

/-! ### `drawFree` -/

@[simp] theorem drawFree_part (s : State) : (drawFree s).part = s.part := rfl
@[simp] theorem drawFree_dev (s : State) : (drawFree s).dev = s.dev := rfl
@[simp] theorem drawFree_nor (s : State) : (drawFree s).nor = s.nor := rfl
@[simp] theorem drawFree_pins (s : State) : (drawFree s).pins = s.pins := rfl
@[simp] theorem drawFree_sec (s : State) : (drawFree s).sec = s.sec := rfl
@[simp] theorem drawFree_outs (s : State) : (drawFree s).outs = s.outs := rfl
@[simp] theorem drawFree_parts (s : State) : (drawFree s).parts = s.parts := rfl
@[simp] theorem drawFree_dies (s : State) : (drawFree s).dies = s.dies := rfl
@[simp] theorem drawFree_cores (s : State) : (drawFree s).cores = s.cores := rfl
@[simp] theorem drawFree_stg (s : State) : (drawFree s).stg = s.stg := rfl
@[simp] theorem drawFree_fns (s : State) : (drawFree s).fns = s.fns := rfl
@[simp] theorem drawFree_tens (s : State) : (drawFree s).tens = s.tens := rfl
@[simp] theorem drawFree_sess (s : State) : (drawFree s).sess = s.sess := rfl
@[simp] theorem drawFree_sched (s : State) : (drawFree s).sched = s.sched := rfl
@[simp] theorem drawFree_models (s : State) : (drawFree s).models = s.models := rfl
@[simp] theorem drawFree_tiers (s : State) : (drawFree s).tiers = s.tiers := rfl
@[simp] theorem drawFree_store (s : State) : (drawFree s).store = s.store := rfl
@[simp] theorem drawFree_rcl (s : State) : (drawFree s).rcl = s.rcl := rfl
@[simp] theorem drawFree_ledger (s : State) : (drawFree s).ledger = s.ledger := rfl
@[simp] theorem drawFree_links (s : State) : (drawFree s).links = s.links := rfl
@[simp] theorem drawFree_rack (s : State) : (drawFree s).rack = s.rack := rfl
@[simp] theorem drawFree_chk (s : State) : (drawFree s).chk = s.chk := rfl
@[simp] theorem drawFree_free (s : State) : (drawFree s).free = s.free + 1 := rfl
@[simp] theorem drawFree_pending (s : State) : (drawFree s).pending = s.pending := rfl

end Sys2Proof.Machine
end

