-- ==== Sys2Proof/Laws/Keys.lean ====
section
/-! SUPPORT. Lists by key, little-endian numbers and duplicate windows: what a lookup finds after an update. -/

namespace Sys2Proof.Machine

/-! ### Lists by key -/

@[simp] theorem findKey_nil {α : Type} (key : α → Nat) (k : Nat) : findKey key k ([] : List α) = none := rfl

theorem findKey_some {α : Type} {key : α → Nat} {k : Nat} {l : List α} {x : α} (h : findKey key k l = some x) : key x = k ∧ x ∈ l := by
  unfold findKey at h
  exact ⟨by simpa using List.find?_some h, List.mem_of_find?_eq_some h⟩

/-- A member changed under its key is found changed; the others are found as they were. -/
theorem findKey_updKey {α : Type} (key : α → Nat) (k j : Nat) (f : α → α) (hf : ∀ x, key x = k → key (f x) = k) (l : List α) :
    findKey key j (updKey key k f l) = if j = k then (findKey key j l).map f else findKey key j l := by
  unfold findKey updKey
  induction l with
  | nil => simp
  | cons x l ih =>
    rw [List.map_cons, List.find?_cons, List.find?_cons, ih]
    by_cases hx : key x = k
    · by_cases hj : j = k
      · subst hj; simp [hx, hf x hx]
      · have hj' : (k == j) = false := by simpa using fun e : k = j => hj e.symm
        simp [hx, hj, hf x hx, hj']
    · by_cases hj : j = k
      · subst hj
        have hx' : (key x == j) = false := by simpa using hx
        simp [hx, hx']
      · simp [hx, hj]

theorem findKey_append {α : Type} (key : α → Nat) (k : Nat) (l : List α) (x : α) :
    findKey key k (l ++ [x]) = (findKey key k l).or (if key x = k then some x else none) := by
  unfold findKey
  rw [List.find?_append]
  congr 1
  by_cases h : key x = k <;> simp [h]

theorem findKey_none_of_any {α : Type} {key : α → Nat} {k : Nat} {l : List α} (h : l.any (fun y => key y == k) = false) :
    findKey key k l = none := by
  unfold findKey
  rw [List.find?_eq_none]
  intro y hy
  have := List.any_eq_false.mp h y hy
  simpa using this

/-- What stands under a key after a member was put in its place or added. -/
theorem findKey_upsert {α : Type} (key : α → Nat) (x : α) (j : Nat) (l : List α) :
    findKey key j (upsert key x l) = if j = key x then some x else findKey key j l := by
  unfold upsert
  by_cases h : l.any (fun y => key y == key x) = true
  · rw [if_pos h, findKey_updKey key (key x) j (fun _ => x) (fun _ _ => rfl)]
    split
    · rename_i e
      subst e
      obtain ⟨y, hy, hk⟩ := List.any_eq_true.mp h
      cases e : findKey key (key x) l with
      | some z => rfl
      | none =>
        unfold findKey at e
        rw [List.find?_eq_none] at e
        exact absurd hk (e y hy)
    · rfl
  · rw [if_neg h, findKey_append]
    have hn := findKey_none_of_any (by simpa using h)
    by_cases e : j = key x
    · subst e; simp [hn]
    · have e' : ¬ key x = j := fun c => e c.symm
      simp [e, e']

theorem findKey_eraseKey {α : Type} (key : α → Nat) (k j : Nat) (l : List α) :
    findKey key j (eraseKey key k l) = if j = k then none else findKey key j l := by
  unfold findKey eraseKey
  induction l with
  | nil => simp
  | cons x l ih =>
    rw [List.filter_cons]
    by_cases hx : key x = k
    · simp only [hx, bne_self_eq_false, Bool.false_eq_true, if_false, ih, List.find?_cons]
      by_cases hj : j = k
      · simp [hj]
      · have hj' : (k == j) = false := by simpa using fun e : k = j => hj e.symm
        simp [hj, hj']
    · have hb : (key x != k) = true := by simpa using hx
      rw [if_pos hb, List.find?_cons, List.find?_cons, ih]
      by_cases hj : j = k
      · subst hj
        have hx' : (key x == j) = false := by simpa using hx
        simp [hx']
      · simp [hj]

/-! ### Sessions, tenants and functions -/

theorem findSess_onSess (h j : Nat) (f : Session → Session) (hf : ∀ x, (f x).handle = x.handle) (s : State) :
    findSess (onSess h f s) j = if j = h then (findSess s j).map f else findSess s j := by
  unfold findSess onSess
  exact findKey_updKey _ _ _ _ (fun x e => (hf x).trans e) _

theorem findTen_onTen (t j : Nat) (f : Tenant → Tenant) (hf : ∀ x, (f x).id = x.id) (s : State) :
    findTen (onTen t f s) j = if j = t then (findTen s j).map f else findTen s j := by
  unfold findTen onTen
  exact findKey_updKey _ _ _ _ (fun x e => (hf x).trans e) _

/-- A function changed is what it was changed to; every other is as it was. -/
theorem fnOf_onFn (fn j : Nat) (g : Fn → Fn) (s : State) :
    fnOf (onFn fn g s) j = if j = fn then { g (fnOf s fn) with id := fn } else fnOf s j := by
  show (findKey Fn.id j (upsert Fn.id { g (fnOf s fn) with id := fn } s.fns)).getD { id := j } = _
  rw [findKey_upsert]
  by_cases h : j = fn
  · subst h; simp
  · simp only [h, if_false]; rfl

@[simp] theorem fnOf_onFn_self (fn : Nat) (g : Fn → Fn) (s : State) : fnOf (onFn fn g s) fn = { g (fnOf s fn) with id := fn } := by
  rw [fnOf_onFn, if_pos rfl]

theorem fnOf_onFn_other {fn j : Nat} (h : j ≠ fn) (g : Fn → Fn) (s : State) : fnOf (onFn fn g s) j = fnOf s j := by
  rw [fnOf_onFn, if_neg h]

@[simp] theorem findSess_onFn (fn h : Nat) (g : Fn → Fn) (s : State) : findSess (onFn fn g s) h = findSess s h := rfl
@[simp] theorem findTen_onFn (fn t : Nat) (g : Fn → Fn) (s : State) : findTen (onFn fn g s) t = findTen s t := rfl
@[simp] theorem fnOf_onSess (h fn : Nat) (f : Session → Session) (s : State) : fnOf (onSess h f s) fn = fnOf s fn := rfl
@[simp] theorem fnOf_onTen (t fn : Nat) (f : Tenant → Tenant) (s : State) : fnOf (onTen t f s) fn = fnOf s fn := rfl
@[simp] theorem findTen_onSess (h t : Nat) (f : Session → Session) (s : State) : findTen (onSess h f s) t = findTen s t := rfl
@[simp] theorem findSess_onTen (t h : Nat) (f : Tenant → Tenant) (s : State) : findSess (onTen t f s) h = findSess s h := rfl

/-! ### Vectors and mailbox answers -/

/-- A vector that fires changes the messages sent, or the pending bits of its own function. -/
theorem fire_cases (fn v : Nat) (s : State) :
    fire fn v s = { s with outs := { s.outs with signals := s.outs.signals ++ [(fn, v)] } } ∨
      fire fn v s = onFn fn (fun f => { f with pba := if f.pba.contains v then f.pba else f.pba ++ [v] }) s := by
  unfold fire
  split
  · exact Or.inr rfl
  · exact Or.inl rfl

theorem fnOf_fire_mb (fn v j : Nat) (s : State) : (fnOf (fire fn v s) j).mb = (fnOf s j).mb := by
  rcases fire_cases fn v s with h | h
  · rw [h]; rfl
  · rw [h, fnOf_onFn]
    split
    · rename_i e; subst e; rfl
    · rfl

/-- An answer to a request that its mailbox still carries out. -/
theorem answerMb_mb (q : Open) (o : OCode) (payload : List Byte) (s : State) (hb : (fnOf s q.fn).mb.busy = true)
    (hg : (fnOf s q.fn).mb.gen = q.gen) :
    (fnOf (answerMb q o payload s) q.fn).mb =
      { (fnOf s q.fn).mb with busy := false, done := true
                              response := some { outcome := o, op := q.op, tag := q.tag, payload := payload } } := by
  unfold answerMb
  dsimp only
  rw [if_pos ⟨hb, hg⟩, fnOf_fire_mb, fnOf_onFn_self]

end Sys2Proof.Machine
end

