-- ==== Sys2Proof/Laws/Commands.lean ====
section
/-! SUPPORT. When a message or a mailbox request is taken, what it does is its own meaning in the state it acts in. -/

namespace Sys2Proof.Machine

theorem findTen_id {s : State} {t : Nat} {x : Tenant} (h : findTen s t = some x) : x.id = t := (findKey_some h).1

theorem keepImage_sess (h : Nat) (s : State) : (keepImage h s).sess = s.sess := by
  unfold keepImage; split
  · rfl
  · split <;> rfl

theorem keepImage_tens (h : Nat) (s : State) : (keepImage h s).tens = s.tens := by
  unfold keepImage; split
  · rfl
  · split <;> rfl

theorem keepImage_fns (h : Nat) (s : State) : (keepImage h s).fns = s.fns := by
  unfold keepImage; split
  · rfl
  · split <;> rfl

theorem onWindow_tens (r : WinRef) (f : Window → Window) (s : State) : (onWindow r f s).tens = s.tens := by
  cases r <;> rfl

/-- A message whose number is new acts, unless its tenant is retiring. -/
theorem checkWindow_fresh (m : Sprue) (body : State → State) (s : State) (hw : passesWindow m s = true)
    (hr : ((findTen s (msgTenant m)).all fun t => !t.retiring || msgOpcode m == 0x10) = true) :
    checkWindow m body s =
      body (onWindow (msgWin m) (fun w => windowEnter w (msgSeq m) (msgOpcode m)) (keepImage (msgHandle m) s)) := by
  have e : windowVerdict (windowOf s (msgWin m)) (msgSeq m) = .fresh := by
    unfold passesWindow at hw
    exact of_decide_eq_true (by simpa using hw)
  unfold checkWindow
  rw [e]
  dsimp only
  cases h : findTen s (msgTenant m) with
  | none => simp
  | some t =>
    rw [h] at hr
    have hr' : (t.retiring && msgOpcode m != 0x10) = false := by
      simp only [Option.all_some, Bool.or_eq_true, Bool.not_eq_true', beq_iff_eq] at hr
      rcases hr with hr | hr <;> simp [hr]
    simp only [Option.map_some, Option.getD_some]
    rw [if_neg (by rw [hr']; simp)]

/-- A change under a key that no tenant has changes nothing. -/
theorem onTen_none (t : Nat) (f : Tenant → Tenant) (s : State) (h : findTen s t = none) : onTen t f s = s := by
  have e : updKey Tenant.id t f s.tens = s.tens := by
    unfold updKey
    conv_rhs => rw [← List.map_id s.tens]
    apply List.map_congr_left
    intro x hx
    have : ¬ x.id = t := by
      intro e
      unfold findTen findKey at h
      rw [List.find?_eq_none] at h
      exact h x hx (by simpa using e)
    simp [this]
  unfold onTen
  rw [e]

/-- A message paid for, where its opcode is policed. -/
def payMsg (m : Sprue) (u : State) : State :=
  if opPoliced (msgOpcode m) then onTen (msgTenant m) (fun t => { t with bucket := t.bucket - policeToken }) u else u

theorem findTen_payMsg (m : Sprue) (u : State) :
    findTen (payMsg m u) (msgTenant m) =
      (findTen u (msgTenant m)).map fun t => if opPoliced (msgOpcode m) then { t with bucket := t.bucket - policeToken } else t := by
  unfold payMsg
  split
  · rw [findTen_onTen (msgTenant m) (msgTenant m) (fun t => { t with bucket := t.bucket - policeToken }) (fun _ => rfl) u, if_pos rfl]
  · simp

/-- Check 4 passed. -/
theorem checkPolice_pays (m : Sprue) (body : State → State) (u : State)
    (hb : opPoliced (msgOpcode m) = true → ∀ t, findTen u (msgTenant m) = some t → policeToken ≤ t.bucket) :
    checkPolice m body u = checkWindow m body (payMsg m u) := by
  unfold checkPolice payMsg
  by_cases hp : opPoliced (msgOpcode m) = true
  · rw [if_pos hp, if_pos hp]
    cases ht : findTen u (msgTenant m) with
    | none => rw [onTen_none _ _ _ ht]
    | some t =>
      dsimp only
      rw [if_neg (Nat.not_lt.mpr (hb hp t ht)), findTen_id ht]
  · rw [if_neg hp, if_neg hp]

/-- Checks 1 to 3 passed. -/
theorem checkOwner_passes (c : Instr) (m : Sprue) (body : State → State) (u : State) (h2 : passesForm m = true) (h3 : passesTenant m u = true) :
    checkOwner c m body u = checkPolice m body u := by
  unfold passesForm at h2
  simp only [Bool.and_eq_true, decide_eq_true_eq, bne_iff_ne, ne_eq] at h2
  obtain ⟨⟨⟨⟨c1, c2⟩, c3⟩, c4⟩, c5⟩ := h2
  have c4' : ¬ (opListed (msgOpcode m) = false ∨ (opPhysical (msgOpcode m) = true ∧ isPhys m.fn = false)) := by
    rw [c3]
    rintro (c | ⟨a, b⟩)
    · cases c
    · rw [a, b] at c4; cases c4
  unfold checkOwner
  dsimp only
  rw [if_neg (by rw [c1]; simp), if_neg (by omega), if_neg c4', if_neg (by simpa using c5)]
  unfold passesTenant at h3
  by_cases hp : opPhysical (msgOpcode m) = true
  · rw [if_pos hp]
  · rw [if_neg hp] at h3 ⊢
    cases ht : findTen u (msgTenant m) with
    | none => rw [ht] at h3; cases h3
    | some t =>
      rw [ht] at h3
      simp only [Bool.and_eq_true, Bool.or_eq_true, Bool.not_eq_true', decide_eq_true_eq, beq_iff_eq] at h3
      obtain ⟨⟨⟨b1, _⟩, _⟩, b4⟩ := h3
      dsimp only
      rw [if_neg (by rw [b1]; simp)]
      by_cases hh : msgHandle m = 0
      · rw [if_pos hh]
      · rw [if_neg hh]
        have b4' := b4.resolve_left hh
        cases hx : reachable u (msgHandle m) with
        | none => rw [hx] at b4'; cases b4'
        | some x =>
          rw [hx] at b4'
          simp only [Option.any_some, beq_iff_eq] at b4'
          dsimp only
          rw [if_neg (by simpa using b4')]

theorem passesTenant_police {m : Sprue} {u : State} (h3 : passesTenant m u = true) :
    (opPoliced (msgOpcode m) = true → ∀ t, findTen u (msgTenant m) = some t → policeToken ≤ t.bucket) ∧
      ((findTen u (msgTenant m)).all fun t => !t.retiring || msgOpcode m == 0x10) = true := by
  unfold passesTenant at h3
  by_cases hp : opPhysical (msgOpcode m) = true
  · rw [if_pos hp] at h3
    refine ⟨fun hq => ?_, ?_⟩
    · unfold opPhysical at hp
      unfold opPoliced at hq
      simp only [Bool.or_eq_true, beq_iff_eq, decide_eq_true_eq] at hp hq
      omega
    · cases ht : findTen u (msgTenant m) with
      | none => rfl
      | some t => rw [ht] at h3; simp only [Option.all_some] at h3 ⊢; rw [h3]; rfl
  · rw [if_neg hp] at h3
    cases ht : findTen u (msgTenant m) with
    | none => rw [ht] at h3; cases h3
    | some t =>
      rw [ht] at h3
      simp only [Bool.and_eq_true, Bool.or_eq_true, Bool.not_eq_true', decide_eq_true_eq, beq_iff_eq] at h3
      obtain ⟨⟨⟨_, b2⟩, b3⟩, _⟩ := h3
      refine ⟨fun hq t' ht' => ?_, ?_⟩
      · cases ht'
        rcases b2 with b2 | b2
        · rw [b2] at hq; cases hq
        · exact b2
      · simp only [Option.all_some, Bool.or_eq_true, Bool.not_eq_true', beq_iff_eq]
        exact b3

/-- A message that passes checks 1 to 5 acts in the state `acceptMsg` gives. -/
theorem takeMessage_accepts (c : Instr) (m : Sprue) (body : State → State) (s : State) (h : Accepts m s) :
    takeMessage c m body s = body (acceptMsg m s) := by
  obtain ⟨h1, h2, h3, h4⟩ := h
  have h3' : passesTenant m (onFn m.fn (fun f => { f with consumed := f.consumed + 1 }) s) = true := h3
  have p := passesTenant_police h3'
  unfold takeMessage
  rw [if_pos h1, checkOwner_passes c m body _ h2 h3', checkPolice_pays m body _ p.1]
  refine checkWindow_fresh m body _ h4 ?_
  rw [findTen_payMsg]
  have q := p.2
  cases ht : findTen (onFn m.fn (fun f => { f with consumed := f.consumed + 1 }) s) (msgTenant m) with
  | none => rfl
  | some t =>
    rw [ht] at q
    simp only [Option.all_some, Option.map_some] at q ⊢
    split
    · exact q
    · exact q

/-! ### Mailbox requests -/

theorem mbRun_ready (r : MbReq) (op sub : Nat) (lens : Nat → Bool) (hold body : Open → State → State) (s : State) (h : Ready r op s)
    (hl : lens r.length = true) : mbRun r op sub lens hold body s = body (mbTake r op sub s).1 (mbTake r op sub s).2 := by
  obtain ⟨h1, h2, h3, h4, h5, h6⟩ := h
  unfold mbRun
  rw [if_neg (by rw [h1, h2]; simp)]
  have h7 : ¬ (2 < r.minor ∨ listedOp op = false ∨ (isPhys r.fn = false ∧ anyFnOp op = false)) := by
    rw [h4]
    rintro (c | c | ⟨a, b⟩)
    · omega
    · cases c
    · rw [a, b] at h5; cases h5
  dsimp only
  rw [if_neg h7, h6]
  dsimp only
  rw [if_pos hl]

theorem mbSimple_ready (r : MbReq) (op sub : Nat) (lens : Nat → Bool) (body : Open → State → State) (s : State) (h : Ready r op s)
    (hl : lens r.length = true) : mbSimple r op sub lens body s = body (mbTake r op sub s).1 (mbTake r op sub s).2 :=
  mbRun_ready r op sub lens body body s h hl

/-- A request taken is being carried out. -/
theorem mbTake_mb (r : MbReq) (op sub : Nat) (s : State) :
    (fnOf (mbTake r op sub s).2 r.fn).mb = { (fnOf s r.fn).mb with gen := (fnOf s r.fn).mb.gen + 1, busy := true, done := false } := by
  unfold mbTake
  dsimp only
  rw [fnOf_onFn_self]

/-- An answer given while the mailbox still carries the request out. -/
theorem answerMb_answered (r : MbReq) (op sub : Nat) (o : OCode) (payload : List Byte) (s t : State)
    (ht : (fnOf t r.fn).mb = (fnOf (mbTake r op sub s).2 r.fn).mb) : Answered r op o payload (answerMb (mbTake r op sub s).1 o payload t) := by
  have hb : (fnOf t r.fn).mb.busy = true := by rw [ht, mbTake_mb]
  have hg : (fnOf t r.fn).mb.gen = (mbTake r op sub s).1.gen := by rw [ht, mbTake_mb]; rfl
  have e := answerMb_mb (mbTake r op sub s).1 o payload t hb hg
  have e' : (fnOf (answerMb (mbTake r op sub s).1 o payload t) r.fn).mb =
      { (fnOf t r.fn).mb with busy := false, done := true
                              response := some { outcome := o, op := op, tag := r.tag, payload := payload } } := e
  refine ⟨?_, ?_, ?_⟩ <;> rw [e']

end Sys2Proof.Machine
end

