-- ==== Sys2Proof/Laws/Frame.lean ====
section
/-! SUPPORT. What the operations leave alone: one lemma for each says that it keeps the part, the queue, the security state, the
fuses, the device state, SAFE_N and the host links' state. -/

set_option linter.all false
set_option linter.unreachableTactic false

namespace Sys2Proof.Machine

/-- `t` has the part, the queue, the security state, the fuses, the device state, SAFE_N and the host links' state of `s`. -/
structure Keeps (s t : State) : Prop where
  part : t.part = s.part
  pending : t.pending = s.pending
  sec : t.sec = s.sec
  fuses : t.nor.fuses = s.nor.fuses
  code : t.dev.code = s.dev.code
  safeLow : t.pins.safeLow = s.pins.safeLow
  stop : t.dev.stop.isSome = s.dev.stop.isSome
  linkUp : t.dev.linkUp = s.dev.linkUp

theorem Keeps.refl (s : State) : Keeps s s := ⟨rfl, rfl, rfl, rfl, rfl, rfl, rfl, rfl⟩

theorem Keeps.trans {s t u : State} (a : Keeps s t) (b : Keeps t u) : Keeps s u :=
  ⟨b.part.trans a.part, b.pending.trans a.pending, b.sec.trans a.sec, b.fuses.trans a.fuses, b.code.trans a.code,
    b.safeLow.trans a.safeLow, b.stop.trans a.stop, b.linkUp.trans a.linkUp⟩

theorem Keeps.cut {s t u : State} (h : Keeps s u) (k : Keeps s u → Keeps s t) : Keeps s t := k h

/-- A state written out with other fields changed. -/
theorem Keeps.lit {s t : State} {dev nor pins outs parts dies cores stg fns tens sess sched models tiers store rcl ledger links rack chk free}
    (a : Keeps s t) (h4 : nor.fuses = t.nor.fuses) (h5 : dev.code = t.dev.code) (h6 : pins.safeLow = t.pins.safeLow)
    (h7 : dev.stop.isSome = t.dev.stop.isSome) (h8 : dev.linkUp = t.dev.linkUp) :
    Keeps s ⟨t.part, dev, nor, pins, t.sec, outs, parts, dies, cores, stg, fns, tens, sess, sched, models, tiers, store, rcl, ledger,
      links, rack, chk, free, t.pending⟩ := a.trans ⟨rfl, rfl, rfl, h4, h5, h6, h7, h8⟩

/-- An outcome that, when it is a next state, keeps what `Keeps` says. -/
def OKeeps (s : State) (o : Host.Outcome State Fault Refusal) : Prop :=
  match o with
  | .next t => Keeps s t
  | _ => True

theorem OKeeps.next {s t : State} (h : Keeps s t) : OKeeps s (.next t) := h

theorem foldl_keeps {α : Type} (g : State → α → State) (hg : ∀ t x, Keeps t (g t x)) :
    ∀ (l : List α) (s : State), Keeps s (l.foldl g s)
  | [], s => Keeps.refl s
  | x :: l, s => (hg s x).trans (foldl_keeps g hg l (g s x))

theorem foldl_pair_keeps {α β : Type} (g : β × State → α → β × State) (hg : ∀ t x, Keeps t.2 (g t x).2) :
    ∀ (l : List α) (t : β × State), Keeps t.2 (l.foldl g t).2
  | [], t => Keeps.refl t.2
  | x :: l, t => (hg t x).trans (foldl_pair_keeps g hg l (g t x))

theorem forEach_keeps {α : Type} (l : List α) (f : α → State → State) (s : State) (h : ∀ x t, Keeps t (f x t)) :
    Keeps s (forEach l f s) := foldl_keeps _ (fun t x => h x t) l s

theorem setSess_keeps (x : Session) (s : State) : Keeps s (setSess x s) := by
  unfold setSess
  repeat' first
    | assumption
    | with_reducible exact Keeps.refl _
    | (with_reducible apply Keeps.lit ?_ ?_ ?_ ?_ ?_ ?_); (on_goal 2 => rfl); (on_goal 2 => rfl); (on_goal 2 => rfl); (on_goal 2 => rfl); (on_goal 2 => rfl); first | assumption | with_reducible exact Keeps.refl _
    | dsimp -zeta only

theorem onSess_keeps (h : Nat) (f : Session → Session) (s : State) : Keeps s (onSess h f s) := by
  unfold onSess
  repeat' first
    | assumption
    | with_reducible exact Keeps.refl _
    | (with_reducible apply Keeps.lit ?_ ?_ ?_ ?_ ?_ ?_); (on_goal 2 => rfl); (on_goal 2 => rfl); (on_goal 2 => rfl); (on_goal 2 => rfl); (on_goal 2 => rfl); first | assumption | with_reducible exact Keeps.refl _
    | dsimp -zeta only

theorem dropSess_keeps (h : Nat) (s : State) : Keeps s (dropSess h s) := by
  unfold dropSess
  repeat' first
    | assumption
    | with_reducible exact Keeps.refl _
    | (with_reducible apply Keeps.lit ?_ ?_ ?_ ?_ ?_ ?_); (on_goal 2 => rfl); (on_goal 2 => rfl); (on_goal 2 => rfl); (on_goal 2 => rfl); (on_goal 2 => rfl); first | assumption | with_reducible exact Keeps.refl _
    | dsimp -zeta only

theorem addSess_keeps (x : Session) (s : State) : Keeps s (addSess x s) := by
  unfold addSess
  repeat' first
    | assumption
    | with_reducible exact Keeps.refl _
    | (with_reducible apply Keeps.lit ?_ ?_ ?_ ?_ ?_ ?_); (on_goal 2 => rfl); (on_goal 2 => rfl); (on_goal 2 => rfl); (on_goal 2 => rfl); (on_goal 2 => rfl); first | assumption | with_reducible exact Keeps.refl _
    | dsimp -zeta only

theorem onTen_keeps (t : Nat) (f : Tenant → Tenant) (s : State) : Keeps s (onTen t f s) := by
  unfold onTen
  repeat' first
    | assumption
    | with_reducible exact Keeps.refl _
    | (with_reducible apply Keeps.lit ?_ ?_ ?_ ?_ ?_ ?_); (on_goal 2 => rfl); (on_goal 2 => rfl); (on_goal 2 => rfl); (on_goal 2 => rfl); (on_goal 2 => rfl); first | assumption | with_reducible exact Keeps.refl _
    | dsimp -zeta only

theorem setFn_keeps (f : Fn) (s : State) : Keeps s (setFn f s) := by
  unfold setFn
  repeat' first
    | assumption
    | with_reducible exact Keeps.refl _
    | (with_reducible apply Keeps.lit ?_ ?_ ?_ ?_ ?_ ?_); (on_goal 2 => rfl); (on_goal 2 => rfl); (on_goal 2 => rfl); (on_goal 2 => rfl); (on_goal 2 => rfl); first | assumption | with_reducible exact Keeps.refl _
    | dsimp -zeta only

theorem onFn_keeps (fn : Nat) (g : Fn → Fn) (s : State) : Keeps s (onFn fn g s) := by
  unfold onFn
  repeat' first
    | assumption
    | with_reducible exact Keeps.refl _
    | with_reducible apply Keeps.trans ?_ (setFn_keeps _ _)
    | (with_reducible apply Keeps.lit ?_ ?_ ?_ ?_ ?_ ?_); (on_goal 2 => rfl); (on_goal 2 => rfl); (on_goal 2 => rfl); (on_goal 2 => rfl); (on_goal 2 => rfl); first | assumption | with_reducible exact Keeps.refl _ | with_reducible apply Keeps.trans ?_ (setFn_keeps _ _)
    | dsimp -zeta only

theorem onModel_keeps (m : Nat) (f : Model → Model) (s : State) : Keeps s (onModel m f s) := by
  unfold onModel
  repeat' first
    | assumption
    | with_reducible exact Keeps.refl _
    | (with_reducible apply Keeps.lit ?_ ?_ ?_ ?_ ?_ ?_); (on_goal 2 => rfl); (on_goal 2 => rfl); (on_goal 2 => rfl); (on_goal 2 => rfl); (on_goal 2 => rfl); first | assumption | with_reducible exact Keeps.refl _
    | dsimp -zeta only

theorem onFlask_keeps (k : Nat) (f : Flask → Flask) (s : State) : Keeps s (onFlask k f s) := by
  unfold onFlask
  repeat' first
    | assumption
    | with_reducible exact Keeps.refl _
    | (with_reducible apply Keeps.lit ?_ ?_ ?_ ?_ ?_ ?_); (on_goal 2 => rfl); (on_goal 2 => rfl); (on_goal 2 => rfl); (on_goal 2 => rfl); (on_goal 2 => rfl); first | assumption | with_reducible exact Keeps.refl _
    | dsimp -zeta only

theorem onPort_keeps (p : Nat) (f : Port → Port) (s : State) : Keeps s (onPort p f s) := by
  unfold onPort
  repeat' first
    | assumption
    | with_reducible exact Keeps.refl _
    | (with_reducible apply Keeps.lit ?_ ?_ ?_ ?_ ?_ ?_); (on_goal 2 => rfl); (on_goal 2 => rfl); (on_goal 2 => rfl); (on_goal 2 => rfl); (on_goal 2 => rfl); first | assumption | with_reducible exact Keeps.refl _
    | dsimp -zeta only

theorem onDie_keeps (d : Nat) (f : ScDie → ScDie) (s : State) : Keeps s (onDie d f s) := by
  unfold onDie
  repeat' first
    | assumption
    | with_reducible exact Keeps.refl _
    | (with_reducible apply Keeps.lit ?_ ?_ ?_ ?_ ?_ ?_); (on_goal 2 => rfl); (on_goal 2 => rfl); (on_goal 2 => rfl); (on_goal 2 => rfl); (on_goal 2 => rfl); first | assumption | with_reducible exact Keeps.refl _
    | dsimp -zeta only

theorem onHub_keeps (h : Nat) (f : Hub → Hub) (s : State) : Keeps s (onHub h f s) := by
  unfold onHub
  repeat' first
    | assumption
    | with_reducible exact Keeps.refl _
    | (with_reducible apply Keeps.lit ?_ ?_ ?_ ?_ ?_ ?_); (on_goal 2 => rfl); (on_goal 2 => rfl); (on_goal 2 => rfl); (on_goal 2 => rfl); (on_goal 2 => rfl); first | assumption | with_reducible exact Keeps.refl _
    | dsimp -zeta only

theorem tickMeters_keeps (us : Nat) (s : State) : Keeps s (tickMeters us s) := by
  unfold tickMeters
  repeat' first
    | assumption
    | with_reducible exact Keeps.refl _
    | (with_reducible apply Keeps.lit ?_ ?_ ?_ ?_ ?_ ?_); (on_goal 2 => rfl); (on_goal 2 => rfl); (on_goal 2 => rfl); (on_goal 2 => rfl); (on_goal 2 => rfl); first | assumption | with_reducible exact Keeps.refl _
    | dsimp -zeta only

theorem fire_keeps (fn v : Nat) (s : State) : Keeps s (fire fn v s) := by
  unfold fire
  repeat' first
    | assumption
    | with_reducible exact Keeps.refl _
    | with_reducible apply Keeps.trans ?_ (onFn_keeps _ _ _)
    | (with_reducible apply Keeps.lit ?_ ?_ ?_ ?_ ?_ ?_); (on_goal 2 => rfl); (on_goal 2 => rfl); (on_goal 2 => rfl); (on_goal 2 => rfl); (on_goal 2 => rfl); first | assumption | with_reducible exact Keeps.refl _ | with_reducible apply Keeps.trans ?_ (onFn_keeps _ _ _) | split
    | split
    | dsimp -zeta only

theorem fireState_keeps (s : State) : Keeps s (fireState s) := by
  unfold fireState
  repeat' first
    | assumption
    | with_reducible exact Keeps.refl _
    | with_reducible apply Keeps.trans ?_ (forEach_keeps _ _ _ (fun _ _ => ?_))
    | with_reducible apply Keeps.trans ?_ (fire_keeps _ _ _)
    | dsimp -zeta only

theorem hrRewrite_keeps (f : HealthRec → HealthRec) (s : State) : Keeps s (hrRewrite f s) := by
  unfold hrRewrite
  repeat' first
    | assumption
    | with_reducible exact Keeps.refl _
    | extract_lets
    | (with_reducible apply Keeps.lit ?_ ?_ ?_ ?_ ?_ ?_); (on_goal 2 => rfl); (on_goal 2 => rfl); (on_goal 2 => rfl); (on_goal 2 => rfl); (on_goal 2 => rfl); first | assumption | with_reducible exact Keeps.refl _ | split
    | split
    | dsimp -zeta only

theorem hrAppend_keeps (f : HealthRec → HealthRec) (s : State) : Keeps s (hrAppend f s) := by
  unfold hrAppend
  repeat' first
    | assumption
    | with_reducible exact Keeps.refl _
    | (with_reducible apply Keeps.lit ?_ ?_ ?_ ?_ ?_ ?_); (on_goal 2 => rfl); (on_goal 2 => rfl); (on_goal 2 => rfl); (on_goal 2 => rfl); (on_goal 2 => rfl); first | assumption | with_reducible exact Keeps.refl _ | split
    | split
    | dsimp -zeta only

theorem logWith_keeps (die core : Nat) (sev : Option Nat) (data : Nat) (s : State) : Keeps s (logWith die core sev data s) := by
  unfold logWith
  repeat' first
    | assumption
    | with_reducible exact Keeps.refl _
    | with_reducible apply Keeps.trans ?_ (hrAppend_keeps _ _)
    | extract_lets
    | (with_reducible apply Keeps.lit ?_ ?_ ?_ ?_ ?_ ?_); (on_goal 2 => rfl); (on_goal 2 => rfl); (on_goal 2 => rfl); (on_goal 2 => rfl); (on_goal 2 => rfl); first | assumption | with_reducible exact Keeps.refl _ | with_reducible apply Keeps.trans ?_ (hrAppend_keeps _ _) | split
    | split
    | dsimp -zeta only

theorem note_keeps (die data : Nat) (s : State) : Keeps s (note die data s) := by
  unfold note
  repeat' first
    | assumption
    | with_reducible exact Keeps.refl _
    | with_reducible apply Keeps.trans ?_ (logWith_keeps _ _ _ _ _)
    | dsimp -zeta only

theorem noteError_keeps (die core data : Nat) (s : State) : Keeps s (noteError die core data s) := by
  unfold noteError
  repeat' first
    | assumption
    | with_reducible exact Keeps.refl _
    | with_reducible apply Keeps.trans ?_ (logWith_keeps _ _ _ _ _)
    | dsimp -zeta only

theorem healthEvent_keeps (die data : Nat) (s : State) : Keeps s (healthEvent die data s) := by
  unfold healthEvent
  repeat' first
    | assumption
    | with_reducible exact Keeps.refl _
    | with_reducible apply Keeps.trans ?_ (note_keeps _ _ _)
    | extract_lets
    | (with_reducible apply Keeps.lit ?_ ?_ ?_ ?_ ?_ ?_); (on_goal 2 => rfl); (on_goal 2 => rfl); (on_goal 2 => rfl); (on_goal 2 => rfl); (on_goal 2 => rfl); first | assumption | with_reducible exact Keeps.refl _ | with_reducible apply Keeps.trans ?_ (note_keeps _ _ _)
    | dsimp -zeta only

theorem healthSignal_keeps (die data : Nat) (s : State) : Keeps s (healthSignal die data s) := by
  unfold healthSignal
  repeat' first
    | assumption
    | with_reducible exact Keeps.refl _
    | with_reducible apply Keeps.trans ?_ (healthEvent_keeps _ _ _)
    | with_reducible apply Keeps.trans ?_ (fireState_keeps _)
    | dsimp -zeta only

theorem onWindow_keeps (r : WinRef) (f : Window → Window) (s : State) : Keeps s (onWindow r f s) := by
  unfold onWindow
  repeat' first
    | assumption
    | with_reducible exact Keeps.refl _
    | with_reducible apply Keeps.trans ?_ (onFn_keeps _ _ _)
    | with_reducible apply Keeps.trans ?_ (onSess_keeps _ _ _)
    | (with_reducible apply Keeps.lit ?_ ?_ ?_ ?_ ?_ ?_); (on_goal 2 => rfl); (on_goal 2 => rfl); (on_goal 2 => rfl); (on_goal 2 => rfl); (on_goal 2 => rfl); first | assumption | with_reducible exact Keeps.refl _ | with_reducible apply Keeps.trans ?_ (onFn_keeps _ _ _) | with_reducible apply Keeps.trans ?_ (onSess_keeps _ _ _) | split
    | split
    | dsimp -zeta only

theorem settle_keeps (r : WinRef) (seq : Nat) (o : OCode) (s : State) : Keeps s (settle r seq o s) := by
  unfold settle
  repeat' first
    | assumption
    | with_reducible exact Keeps.refl _
    | with_reducible apply Keeps.trans ?_ (onWindow_keeps _ _ _)
    | (with_reducible apply Keeps.lit ?_ ?_ ?_ ?_ ?_ ?_); (on_goal 2 => rfl); (on_goal 2 => rfl); (on_goal 2 => rfl); (on_goal 2 => rfl); (on_goal 2 => rfl); first | assumption | with_reducible exact Keeps.refl _ | with_reducible apply Keeps.trans ?_ (onWindow_keeps _ _ _)
    | dsimp -zeta only

theorem answerAt_keeps (fn : Nat) (r : WaitRec) (s : State) : Keeps s (answerAt fn r s) := by
  unfold answerAt
  repeat' first
    | assumption
    | with_reducible exact Keeps.refl _
    | with_reducible apply Keeps.trans ?_ (onFn_keeps _ _ _)
    | (with_reducible apply Keeps.lit ?_ ?_ ?_ ?_ ?_ ?_); (on_goal 2 => rfl); (on_goal 2 => rfl); (on_goal 2 => rfl); (on_goal 2 => rfl); (on_goal 2 => rfl); first | assumption | with_reducible exact Keeps.refl _ | with_reducible apply Keeps.trans ?_ (onFn_keeps _ _ _)
    | dsimp -zeta only

theorem answerFn_keeps (fn : Nat) (o : OutRec) (s : State) : Keeps s (answerFn fn o s) := by
  unfold answerFn
  repeat' first
    | assumption
    | with_reducible exact Keeps.refl _
    | with_reducible apply Keeps.trans ?_ (answerAt_keeps _ _ _)
    | dsimp -zeta only

theorem emitOut_keeps (b : Bool) (x : Session) (o : OutRec) (s : State) : Keeps s (emitOut b x o s) := by
  unfold emitOut
  repeat' first
    | assumption
    | with_reducible exact Keeps.refl _
    | with_reducible apply Keeps.trans ?_ (answerAt_keeps _ _ _)
    | extract_lets
    | (with_reducible apply Keeps.lit ?_ ?_ ?_ ?_ ?_ ?_); (on_goal 2 => rfl); (on_goal 2 => rfl); (on_goal 2 => rfl); (on_goal 2 => rfl); (on_goal 2 => rfl); first | assumption | with_reducible exact Keeps.refl _ | with_reducible apply Keeps.trans ?_ (answerAt_keeps _ _ _) | split
    | split
    | dsimp -zeta only

theorem emitSes_keeps (b : Bool) (x : Session) (r : SesRec) (s : State) : Keeps s (emitSes b x r s) := by
  unfold emitSes
  repeat' first
    | assumption
    | with_reducible exact Keeps.refl _
    | with_reducible apply Keeps.trans ?_ (answerAt_keeps _ _ _)
    | split
    | dsimp -zeta only

theorem answerMb_keeps (q : Open) (o : OCode) (payload : List Byte) (s : State) : Keeps s (answerMb q o payload s) := by
  unfold answerMb
  repeat' first
    | assumption
    | with_reducible exact Keeps.refl _
    | with_reducible apply Keeps.trans ?_ (fire_keeps _ _ _)
    | with_reducible apply Keeps.trans ?_ (onFn_keeps _ _ _)
    | extract_lets
    | (with_reducible apply Keeps.lit ?_ ?_ ?_ ?_ ?_ ?_); (on_goal 2 => rfl); (on_goal 2 => rfl); (on_goal 2 => rfl); (on_goal 2 => rfl); (on_goal 2 => rfl); first | assumption | with_reducible exact Keeps.refl _ | with_reducible apply Keeps.trans ?_ (fire_keeps _ _ _) | with_reducible apply Keeps.trans ?_ (onFn_keeps _ _ _) | split
    | split
    | dsimp -zeta only

theorem drawFree_keeps (s : State) : Keeps s (drawFree s) := by
  unfold drawFree
  repeat' first
    | assumption
    | with_reducible exact Keeps.refl _
    | (with_reducible apply Keeps.lit ?_ ?_ ?_ ?_ ?_ ?_); (on_goal 2 => rfl); (on_goal 2 => rfl); (on_goal 2 => rfl); (on_goal 2 => rfl); (on_goal 2 => rfl); first | assumption | with_reducible exact Keeps.refl _
    | dsimp -zeta only

theorem countVector_keeps (fn v k : Nat) (s : State) : Keeps s (countVector fn v k s) := by
  unfold countVector
  repeat' first
    | assumption
    | with_reducible exact Keeps.refl _
    | with_reducible apply Keeps.trans ?_ (fire_keeps _ _ _)
    | with_reducible apply Keeps.trans ?_ (onFn_keeps _ _ _)
    | extract_lets
    | (with_reducible apply Keeps.lit ?_ ?_ ?_ ?_ ?_ ?_); (on_goal 2 => rfl); (on_goal 2 => rfl); (on_goal 2 => rfl); (on_goal 2 => rfl); (on_goal 2 => rfl); first | assumption | with_reducible exact Keeps.refl _ | with_reducible apply Keeps.trans ?_ (fire_keeps _ _ _) | with_reducible apply Keeps.trans ?_ (onFn_keeps _ _ _) | split
    | split
    | dsimp -zeta only

theorem fillPosition_keeps (r : TapRec) (s : State) : Keeps s (fillPosition r s) := by
  unfold fillPosition
  repeat' first
    | assumption
    | with_reducible exact Keeps.refl _
    | with_reducible apply Keeps.trans ?_ (onWindow_keeps _ _ _)
    | extract_lets
    | (with_reducible apply Keeps.lit ?_ ?_ ?_ ?_ ?_ ?_); (on_goal 2 => rfl); (on_goal 2 => rfl); (on_goal 2 => rfl); (on_goal 2 => rfl); (on_goal 2 => rfl); first | assumption | with_reducible exact Keeps.refl _ | with_reducible apply Keeps.trans ?_ (onWindow_keeps _ _ _) | split
    | split
    | dsimp -zeta only

theorem writePart_keeps (fn n flask pour : Nat) (more : Bool) (part : List (TapBody × Nat)) (s : State) : Keeps s (writePart fn n flask pour more part s) := by
  unfold writePart
  repeat' first
    | assumption
    | with_reducible exact Keeps.refl _
    | with_reducible apply Keeps.trans ?_ (forEach_keeps _ _ _ (fun _ _ => ?_))
    | with_reducible apply Keeps.trans ?_ (fillPosition_keeps _ _)
    | with_reducible apply Keeps.trans ?_ (countVector_keeps _ _ _ _)
    | with_reducible apply Keeps.trans ?_ (onFn_keeps _ _ _)
    | extract_lets
    | (with_reducible apply Keeps.lit ?_ ?_ ?_ ?_ ?_ ?_); (on_goal 2 => rfl); (on_goal 2 => rfl); (on_goal 2 => rfl); (on_goal 2 => rfl); (on_goal 2 => rfl); first | assumption | with_reducible exact Keeps.refl _ | with_reducible apply Keeps.trans ?_ (forEach_keeps _ _ _ (fun _ _ => ?_)) | with_reducible apply Keeps.trans ?_ (fillPosition_keeps _ _) | with_reducible apply Keeps.trans ?_ (countVector_keeps _ _ _ _) | with_reducible apply Keeps.trans ?_ (onFn_keeps _ _ _)
    | dsimp -zeta only

theorem drainWith_keeps (fn : Nat) : ∀ (n : Nat) (s : State), Keeps s (drainWith fn n s)
  | 0, s => Keeps.refl s
  | k + 1, s => by
    unfold drainWith
    dsimp only
    split
    · split
      · split
        · exact ((onFn_keeps _ _ _).trans (writePart_keeps _ _ _ _ _ _ _)).trans (drainWith_keeps fn k _)
        · exact Keeps.refl _
      · exact Keeps.refl _
    · exact Keeps.refl _

theorem drainBacklog_keeps (fn : Nat) (s : State) : Keeps s (drainBacklog fn s) := by
  unfold drainBacklog
  repeat' first
    | assumption
    | with_reducible exact Keeps.refl _
    | with_reducible apply Keeps.trans ?_ (drainWith_keeps _ _ _)
    | extract_lets
    | dsimp -zeta only

theorem writeBlock_keeps (fn flask pour : Nat) (recs : List Rec) (s : State) : Keeps s (writeBlock fn flask pour recs s) := by
  unfold writeBlock
  repeat' first
    | assumption
    | with_reducible exact Keeps.refl _
    | with_reducible apply Keeps.trans ?_ (drainBacklog_keeps _ _)
    | with_reducible apply Keeps.trans ?_ (onFn_keeps _ _ _)
    | (with_reducible apply Keeps.lit ?_ ?_ ?_ ?_ ?_ ?_); (on_goal 2 => rfl); (on_goal 2 => rfl); (on_goal 2 => rfl); (on_goal 2 => rfl); (on_goal 2 => rfl); first | assumption | with_reducible exact Keeps.refl _ | with_reducible apply Keeps.trans ?_ (drainBacklog_keeps _ _) | with_reducible apply Keeps.trans ?_ (onFn_keeps _ _ _) | split
    | split
    | dsimp -zeta only

theorem waitingBlock_keeps (all : Bool) (flask pour fn : Nat) (s : State) : Keeps s (waitingBlock all flask pour fn s) := by
  unfold waitingBlock
  repeat' first
    | assumption
    | with_reducible exact Keeps.refl _
    | with_reducible apply Keeps.trans ?_ (writeBlock_keeps _ _ _ _ _)
    | with_reducible apply Keeps.trans ?_ (onFn_keeps _ _ _)
    | extract_lets
    | (with_reducible apply Keeps.lit ?_ ?_ ?_ ?_ ?_ ?_); (on_goal 2 => rfl); (on_goal 2 => rfl); (on_goal 2 => rfl); (on_goal 2 => rfl); (on_goal 2 => rfl); first | assumption | with_reducible exact Keeps.refl _ | with_reducible apply Keeps.trans ?_ (writeBlock_keeps _ _ _ _ _) | with_reducible apply Keeps.trans ?_ (onFn_keeps _ _ _)
    | dsimp -zeta only

theorem writePourBlocks_keeps (flask pour : Nat) (s : State) : Keeps s (writePourBlocks flask pour s) := by
  unfold writePourBlocks
  repeat' first
    | assumption
    | with_reducible exact Keeps.refl _
    | with_reducible apply Keeps.trans ?_ (forEach_keeps _ _ _ (fun _ _ => ?_))
    | with_reducible apply Keeps.trans ?_ (waitingBlock_keeps _ _ _ _ _)
    | dsimp -zeta only

theorem answerBlock_keeps (fn : Nat) (s : State) : Keeps s (answerBlock fn s) := by
  unfold answerBlock
  repeat' first
    | assumption
    | with_reducible exact Keeps.refl _
    | with_reducible apply Keeps.trans ?_ (waitingBlock_keeps _ _ _ _ _)
    | dsimp -zeta only

theorem freeReported_keeps (h : Nat) (s : State) : Keeps s (freeReported h s) := by
  unfold freeReported
  repeat' first
    | assumption
    | with_reducible exact Keeps.refl _
    | with_reducible apply Keeps.trans ?_ (dropSess_keeps _ _)
    | (with_reducible apply Keeps.lit ?_ ?_ ?_ ?_ ?_ ?_); (on_goal 2 => rfl); (on_goal 2 => rfl); (on_goal 2 => rfl); (on_goal 2 => rfl); (on_goal 2 => rfl); first | assumption | with_reducible exact Keeps.refl _ | with_reducible apply Keeps.trans ?_ (dropSess_keeps _ _) | split
    | split
    | dsimp -zeta only

theorem releaseTo_keeps (fn v : Nat) (s : State) : Keeps s (releaseTo fn v s) := by
  unfold releaseTo
  repeat' first
    | assumption
    | with_reducible exact Keeps.refl _
    | with_reducible apply Keeps.trans ?_ (forEach_keeps _ _ _ (fun _ _ => ?_))
    | with_reducible apply Keeps.trans ?_ (freeReported_keeps _ _)
    | with_reducible apply Keeps.trans ?_ (drainBacklog_keeps _ _)
    | with_reducible apply Keeps.trans ?_ (onFn_keeps _ _ _)
    | extract_lets
    | (with_reducible apply Keeps.lit ?_ ?_ ?_ ?_ ?_ ?_); (on_goal 2 => rfl); (on_goal 2 => rfl); (on_goal 2 => rfl); (on_goal 2 => rfl); (on_goal 2 => rfl); first | assumption | with_reducible exact Keeps.refl _ | with_reducible apply Keeps.trans ?_ (forEach_keeps _ _ _ (fun _ _ => ?_)) | with_reducible apply Keeps.trans ?_ (freeReported_keeps _ _) | with_reducible apply Keeps.trans ?_ (drainBacklog_keeps _ _) | with_reducible apply Keeps.trans ?_ (onFn_keeps _ _ _)
    | dsimp -zeta only

theorem functionReset_keeps (fn : Nat) (s : State) : Keeps s (functionReset fn s) := by
  unfold functionReset
  repeat' first
    | assumption
    | with_reducible exact Keeps.refl _
    | with_reducible apply Keeps.trans ?_ (attest_keeps _ _ _ _ _)
    | with_reducible apply Keeps.trans ?_ (onFn_keeps _ _ _)
    | (with_reducible apply Keeps.lit ?_ ?_ ?_ ?_ ?_ ?_); (on_goal 2 => rfl); (on_goal 2 => rfl); (on_goal 2 => rfl); (on_goal 2 => rfl); (on_goal 2 => rfl); first | assumption | with_reducible exact Keeps.refl _ | with_reducible apply Keeps.trans ?_ (attest_keeps _ _ _ _ _) | with_reducible apply Keeps.trans ?_ (onFn_keeps _ _ _)
    | dsimp -zeta only

theorem execSprueWriteDiscarded_keeps (fn : Nat) (_cause : DiscardCause) (s : State) : OKeeps s (execSprueWriteDiscarded fn _cause s) := by
  unfold execSprueWriteDiscarded
  repeat' first
    | assumption
    | with_reducible exact Keeps.refl _
    | with_reducible apply OKeeps.next ?_
    | exact True.intro
    | with_reducible apply Keeps.trans ?_ (onFn_keeps _ _ _)
    | (with_reducible apply Keeps.lit ?_ ?_ ?_ ?_ ?_ ?_); (on_goal 2 => rfl); (on_goal 2 => rfl); (on_goal 2 => rfl); (on_goal 2 => rfl); (on_goal 2 => rfl); first | assumption | with_reducible exact Keeps.refl _ | with_reducible apply Keeps.trans ?_ (onFn_keeps _ _ _)
    | dsimp -zeta only

theorem execAnswerBlockTimeout_keeps (fn : Nat) (s : State) : OKeeps s (execAnswerBlockTimeout fn s) := by
  unfold execAnswerBlockTimeout
  repeat' first
    | assumption
    | with_reducible exact Keeps.refl _
    | with_reducible apply OKeeps.next ?_
    | exact True.intro
    | with_reducible apply Keeps.trans ?_ (answerBlock_keeps _ _)
    | dsimp -zeta only

theorem execBacklogDrain_keeps (fn : Nat) (s : State) : OKeeps s (execBacklogDrain fn s) := by
  unfold execBacklogDrain
  repeat' first
    | assumption
    | with_reducible exact Keeps.refl _
    | with_reducible apply OKeeps.next ?_
    | exact True.intro
    | with_reducible apply Keeps.trans ?_ (drainBacklog_keeps _ _)
    | dsimp -zeta only

theorem execVectorIntervalExpiry_keeps (fn vector : Nat) (s : State) : OKeeps s (execVectorIntervalExpiry fn vector s) := by
  unfold execVectorIntervalExpiry
  repeat' first
    | assumption
    | with_reducible exact Keeps.refl _
    | with_reducible apply OKeeps.next ?_
    | exact True.intro
    | with_reducible apply Keeps.trans ?_ (fire_keeps _ _ _)
    | with_reducible apply Keeps.trans ?_ (onFn_keeps _ _ _)
    | extract_lets
    | (with_reducible apply Keeps.lit ?_ ?_ ?_ ?_ ?_ ?_); (on_goal 2 => rfl); (on_goal 2 => rfl); (on_goal 2 => rfl); (on_goal 2 => rfl); (on_goal 2 => rfl); first | assumption | with_reducible exact Keeps.refl _ | with_reducible apply Keeps.trans ?_ (fire_keeps _ _ _) | with_reducible apply Keeps.trans ?_ (onFn_keeps _ _ _) | split
    | split
    | dsimp -zeta only

theorem execFunctionLevelReset_keeps (fn : Nat) (s : State) : OKeeps s (execFunctionLevelReset fn s) := by
  unfold execFunctionLevelReset
  repeat' first
    | assumption
    | with_reducible exact Keeps.refl _
    | with_reducible apply OKeeps.next ?_
    | exact True.intro
    | with_reducible apply Keeps.trans ?_ (functionReset_keeps _ _)
    | dsimp -zeta only

theorem mbTake_keeps (r : MbReq) (op sub : Nat) (s : State) : Keeps s (mbTake r op sub s).2 := by
  unfold mbTake
  repeat' first
    | assumption
    | with_reducible exact Keeps.refl _
    | with_reducible apply Keeps.trans ?_ (onFn_keeps _ _ _)
    | extract_lets
    | (with_reducible apply Keeps.lit ?_ ?_ ?_ ?_ ?_ ?_); (on_goal 2 => rfl); (on_goal 2 => rfl); (on_goal 2 => rfl); (on_goal 2 => rfl); (on_goal 2 => rfl); first | assumption | with_reducible exact Keeps.refl _ | with_reducible apply Keeps.trans ?_ (onFn_keeps _ _ _)
    | dsimp -zeta only

theorem mbRun_keeps (r : MbReq) (op sub : Nat) (lens : Nat → Bool) (hold body : Open → State → State)
    (hh : ∀ q t, Keeps t (hold q t)) (hb : ∀ q t, Keeps t (body q t)) (s : State) : Keeps s (mbRun r op sub lens hold body s) := by
  have ht : Keeps s (mbTake r op sub s).2 := mbTake_keeps r op sub s
  unfold mbRun
  split
  · exact onFn_keeps _ _ _
  · dsimp only
    split
    · exact ht.trans (answerMb_keeps _ _ _ _)
    · split
      · exact ht.trans (answerMb_keeps _ _ _ _)
      · split
        · exact ht.trans (hh _ _)
        · exact ht.trans (answerMb_keeps _ _ _ _)
      · split
        · exact ht.trans (hb _ _)
        · exact ht.trans (answerMb_keeps _ _ _ _)

theorem mbSimple_keeps (r : MbReq) (op sub : Nat) (lens : Nat → Bool) (body : Open → State → State)
    (hb : ∀ q t, Keeps t (body q t)) (s : State) : Keeps s (mbSimple r op sub lens body s) :=
  mbRun_keeps r op sub lens body body hb hb s

theorem execIdentify_keeps (r : MbReq) (s : State) : OKeeps s (execIdentify r s) := by
  unfold execIdentify
  repeat' first
    | assumption
    | with_reducible exact Keeps.refl _
    | with_reducible apply OKeeps.next ?_
    | exact True.intro
    | with_reducible apply Keeps.trans ?_ (mbSimple_keeps _ _ _ _ _ (fun _ _ => ?_) _)
    | with_reducible apply Keeps.trans ?_ (answerMb_keeps _ _ _ _)
    | dsimp -zeta only

theorem execUnknownOperation_keeps (r : MbReq) (op sub : Nat) (s : State) : OKeeps s (execUnknownOperation r op sub s) := by
  unfold execUnknownOperation
  repeat' first
    | assumption
    | with_reducible exact Keeps.refl _
    | with_reducible apply OKeeps.next ?_
    | exact True.intro
    | with_reducible apply Keeps.trans ?_ (mbSimple_keeps _ _ _ _ _ (fun _ _ => ?_) _)
    | with_reducible apply Keeps.trans ?_ (answerMb_keeps _ _ _ _)
    | dsimp -zeta only

theorem clearMb_keeps (fn : Nat) (done rejected : Bool) (s : State) : Keeps s (clearMb fn done rejected s) := by
  unfold clearMb
  repeat' first
    | assumption
    | with_reducible exact Keeps.refl _
    | with_reducible apply Keeps.trans ?_ (onFn_keeps _ _ _)
    | (with_reducible apply Keeps.lit ?_ ?_ ?_ ?_ ?_ ?_); (on_goal 2 => rfl); (on_goal 2 => rfl); (on_goal 2 => rfl); (on_goal 2 => rfl); (on_goal 2 => rfl); first | assumption | with_reducible exact Keeps.refl _ | with_reducible apply Keeps.trans ?_ (onFn_keeps _ _ _)
    | dsimp -zeta only

theorem execMbCtrlClear_keeps (fn : Nat) (done rejected : Bool) (s : State) : OKeeps s (execMbCtrlClear fn done rejected s) := by
  unfold execMbCtrlClear
  repeat' first
    | assumption
    | with_reducible exact Keeps.refl _
    | with_reducible apply OKeeps.next ?_
    | exact True.intro
    | with_reducible apply Keeps.trans ?_ (clearMb_keeps _ _ _ _)
    | dsimp -zeta only

theorem msixWrite_keeps (fn off value : Nat) (s : State) : Keeps s (msixWrite fn off value s) := by
  unfold msixWrite
  repeat' first
    | assumption
    | with_reducible exact Keeps.refl _
    | with_reducible apply Keeps.trans ?_ (fire_keeps _ _ _)
    | with_reducible apply Keeps.trans ?_ (onFn_keeps _ _ _)
    | extract_lets
    | (with_reducible apply Keeps.lit ?_ ?_ ?_ ?_ ?_ ?_); (on_goal 2 => rfl); (on_goal 2 => rfl); (on_goal 2 => rfl); (on_goal 2 => rfl); (on_goal 2 => rfl); first | assumption | with_reducible exact Keeps.refl _ | with_reducible apply Keeps.trans ?_ (fire_keeps _ _ _) | with_reducible apply Keeps.trans ?_ (onFn_keeps _ _ _) | split
    | split
    | dsimp -zeta only

theorem execRegisterWrite_keeps (fn bar offset value : Nat) (s : State) : OKeeps s (execRegisterWrite fn bar offset value s) := by
  unfold execRegisterWrite
  repeat' first
    | assumption
    | with_reducible exact Keeps.refl _
    | with_reducible apply OKeeps.next ?_
    | exact True.intro
    | with_reducible apply Keeps.trans ?_ (msixWrite_keeps _ _ _ _)
    | with_reducible apply Keeps.trans ?_ (clearMb_keeps _ _ _ _)
    | with_reducible apply Keeps.trans ?_ (mbSimple_keeps _ _ _ _ _ (fun _ _ => ?_) _)
    | with_reducible apply Keeps.trans ?_ (onFn_keeps _ _ _)
    | extract_lets
    | (with_reducible apply Keeps.lit ?_ ?_ ?_ ?_ ?_ ?_); (on_goal 2 => rfl); (on_goal 2 => rfl); (on_goal 2 => rfl); (on_goal 2 => rfl); (on_goal 2 => rfl); first | assumption | with_reducible exact Keeps.refl _ | with_reducible apply Keeps.trans ?_ (msixWrite_keeps _ _ _ _) | with_reducible apply Keeps.trans ?_ (clearMb_keeps _ _ _ _) | with_reducible apply Keeps.trans ?_ (mbSimple_keeps _ _ _ _ _ (fun _ _ => ?_) _) | with_reducible apply Keeps.trans ?_ (onFn_keeps _ _ _) | split
    | split
    | dsimp -zeta only

theorem execHealthRead_keeps (r : MbReq) (sect cursor : Nat) (s : State) : OKeeps s (execHealthRead r sect cursor s) := by
  unfold execHealthRead
  repeat' first
    | assumption
    | with_reducible exact Keeps.refl _
    | with_reducible apply OKeeps.next ?_
    | exact True.intro
    | with_reducible apply Keeps.trans ?_ (mbSimple_keeps _ _ _ _ _ (fun _ _ => ?_) _)
    | with_reducible apply Keeps.trans ?_ (drawFree_keeps _)
    | with_reducible apply Keeps.trans ?_ (answerMb_keeps _ _ _ _)
    | extract_lets
    | split
    | dsimp -zeta only

theorem execLogRead_keeps (r : MbReq) (start : Nat) (s : State) : OKeeps s (execLogRead r start s) := by
  unfold execLogRead
  repeat' first
    | assumption
    | with_reducible exact Keeps.refl _
    | with_reducible apply OKeeps.next ?_
    | exact True.intro
    | with_reducible apply Keeps.trans ?_ (mbSimple_keeps _ _ _ _ _ (fun _ _ => ?_) _)
    | with_reducible apply Keeps.trans ?_ (answerMb_keeps _ _ _ _)
    | extract_lets
    | dsimp -zeta only

theorem deriveAlias_keeps (hub : Nat) (s : State) : Keeps s (deriveAlias hub s) := by
  unfold deriveAlias
  repeat' first
    | assumption
    | with_reducible exact Keeps.refl _
    | with_reducible apply Keeps.trans ?_ (onHub_keeps _ _ _)
    | (with_reducible apply Keeps.lit ?_ ?_ ?_ ?_ ?_ ?_); (on_goal 2 => rfl); (on_goal 2 => rfl); (on_goal 2 => rfl); (on_goal 2 => rfl); (on_goal 2 => rfl); first | assumption | with_reducible exact Keeps.refl _ | with_reducible apply Keeps.trans ?_ (onHub_keeps _ _ _)
    | dsimp -zeta only

theorem attestPage_keeps (q : Open) (bs : List Byte) (cursor : Nat) (s : State) : Keeps s (attestPage q bs cursor s) := by
  unfold attestPage
  repeat' first
    | assumption
    | with_reducible exact Keeps.refl _
    | with_reducible apply Keeps.trans ?_ (answerMb_keeps _ _ _ _)
    | extract_lets
    | dsimp -zeta only

theorem attest_keeps (r : MbReq) (mode cursor : Nat) (build : State → List Byte) (s : State) : Keeps s (attest r mode cursor build s) := by
  unfold attest
  refine mbSimple_keeps _ _ _ _ _ (fun q t => ?_) _
  dsimp only
  split
  · exact ((onFn_keeps _ _ _).trans (drawFree_keeps _)).trans (attestPage_keeps _ _ _ _)
  · split
    · exact answerMb_keeps _ _ _ _
    · split
      · exact answerMb_keeps _ _ _ _
      · exact attestPage_keeps _ _ _ _

theorem execAttestChain_keeps (r : MbReq) (cursor : Nat) (s : State) : OKeeps s (execAttestChain r cursor s) := by
  unfold execAttestChain
  repeat' first
    | assumption
    | with_reducible exact Keeps.refl _
    | with_reducible apply OKeeps.next ?_
    | exact True.intro
    | with_reducible apply Keeps.trans ?_ (attest_keeps _ _ _ _ _)
    | dsimp -zeta only

theorem execAttestNative_keeps (r : MbReq) (cursor nonce : Nat) (s : State) : OKeeps s (execAttestNative r cursor nonce s) := by
  unfold execAttestNative
  repeat' first
    | assumption
    | with_reducible exact Keeps.refl _
    | with_reducible apply OKeeps.next ?_
    | exact True.intro
    | with_reducible apply Keeps.trans ?_ (attest_keeps _ _ _ _ _)
    | dsimp -zeta only

theorem execAttestSnirdaob_keeps (r : MbReq) (cursor nonce : Nat) (s : State) : OKeeps s (execAttestSnirdaob r cursor nonce s) := by
  unfold execAttestSnirdaob
  repeat' first
    | assumption
    | with_reducible exact Keeps.refl _
    | with_reducible apply OKeeps.next ?_
    | exact True.intro
    | with_reducible apply Keeps.trans ?_ (attest_keeps _ _ _ _ _)
    | dsimp -zeta only

theorem execTapSetup_keeps (r : MbReq) (base logSize : Nat) (s : State) : OKeeps s (execTapSetup r base logSize s) := by
  unfold execTapSetup
  repeat' first
    | assumption
    | with_reducible exact Keeps.refl _
    | with_reducible apply OKeeps.next ?_
    | exact True.intro
    | with_reducible apply Keeps.trans ?_ (mbSimple_keeps _ _ _ _ _ (fun _ _ => ?_) _)
    | with_reducible apply Keeps.trans ?_ (drainBacklog_keeps _ _)
    | with_reducible apply Keeps.trans ?_ (answerMb_keeps _ _ _ _)
    | with_reducible apply Keeps.trans ?_ (onFn_keeps _ _ _)
    | (with_reducible apply Keeps.lit ?_ ?_ ?_ ?_ ?_ ?_); (on_goal 2 => rfl); (on_goal 2 => rfl); (on_goal 2 => rfl); (on_goal 2 => rfl); (on_goal 2 => rfl); first | assumption | with_reducible exact Keeps.refl _ | with_reducible apply Keeps.trans ?_ (mbSimple_keeps _ _ _ _ _ (fun _ _ => ?_) _) | with_reducible apply Keeps.trans ?_ (drainBacklog_keeps _ _) | with_reducible apply Keeps.trans ?_ (answerMb_keeps _ _ _ _) | with_reducible apply Keeps.trans ?_ (onFn_keeps _ _ _) | split
    | split
    | dsimp -zeta only

theorem execVectorSet_keeps (r : MbReq) (vector count interval : Nat) (s : State) : OKeeps s (execVectorSet r vector count interval s) := by
  unfold execVectorSet
  repeat' first
    | assumption
    | with_reducible exact Keeps.refl _
    | with_reducible apply OKeeps.next ?_
    | exact True.intro
    | with_reducible apply Keeps.trans ?_ (mbSimple_keeps _ _ _ _ _ (fun _ _ => ?_) _)
    | with_reducible apply Keeps.trans ?_ (answerMb_keeps _ _ _ _)
    | with_reducible apply Keeps.trans ?_ (onFn_keeps _ _ _)
    | (with_reducible apply Keeps.lit ?_ ?_ ?_ ?_ ?_ ?_); (on_goal 2 => rfl); (on_goal 2 => rfl); (on_goal 2 => rfl); (on_goal 2 => rfl); (on_goal 2 => rfl); first | assumption | with_reducible exact Keeps.refl _ | with_reducible apply Keeps.trans ?_ (mbSimple_keeps _ _ _ _ _ (fun _ _ => ?_) _) | with_reducible apply Keeps.trans ?_ (answerMb_keeps _ _ _ _) | with_reducible apply Keeps.trans ?_ (onFn_keeps _ _ _) | split
    | split
    | dsimp -zeta only

theorem setCore_keeps (c : Core) (s : State) : Keeps s (setCore c s) := by
  unfold setCore
  repeat' first
    | assumption
    | with_reducible exact Keeps.refl _
    | extract_lets
    | (with_reducible apply Keeps.lit ?_ ?_ ?_ ?_ ?_ ?_); (on_goal 2 => rfl); (on_goal 2 => rfl); (on_goal 2 => rfl); (on_goal 2 => rfl); (on_goal 2 => rfl); first | assumption | with_reducible exact Keeps.refl _ | split
    | split
    | dsimp -zeta only

theorem fireSrc_keeps (id : CoreId) (n : Nat) (s : State) : Keeps s (fireSrc id n s) := by
  unfold fireSrc
  repeat' first
    | assumption
    | with_reducible exact Keeps.refl _
    | with_reducible apply Keeps.trans ?_ (setCore_keeps _ _)
    | dsimp -zeta only

theorem execEventSourceFire_keeps (core : CoreId) (source : Nat) (s : State) : OKeeps s (execEventSourceFire core source s) := by
  unfold execEventSourceFire
  repeat' first
    | assumption
    | with_reducible exact Keeps.refl _
    | with_reducible apply OKeeps.next ?_
    | exact True.intro
    | with_reducible apply Keeps.trans ?_ (fireSrc_keeps _ _ _)
    | split
    | dsimp -zeta only

theorem execEvcEosWrite_keeps (core : CoreId) (source : Nat) (ie : Bool) (s : State) : OKeeps s (execEvcEosWrite core source ie s) := by
  unfold execEvcEosWrite
  repeat' first
    | assumption
    | with_reducible exact Keeps.refl _
    | with_reducible apply OKeeps.next ?_
    | exact True.intro
    | with_reducible apply Keeps.trans ?_ (setCore_keeps _ _)
    | with_reducible apply Keeps.trans ?_ (noteError_keeps _ _ _ _)
    | extract_lets
    | (with_reducible apply Keeps.lit ?_ ?_ ?_ ?_ ?_ ?_); (on_goal 2 => rfl); (on_goal 2 => rfl); (on_goal 2 => rfl); (on_goal 2 => rfl); (on_goal 2 => rfl); first | assumption | with_reducible exact Keeps.refl _ | with_reducible apply Keeps.trans ?_ (setCore_keeps _ _) | with_reducible apply Keeps.trans ?_ (noteError_keeps _ _ _ _) | split
    | split
    | dsimp -zeta only

theorem execSrcCfgSet_keeps (core : CoreId) (source priority : Nat) (bits : SrcBits) (ie : Bool) (s : State) : OKeeps s (execSrcCfgSet core source priority bits ie s) := by
  unfold execSrcCfgSet
  repeat' first
    | assumption
    | with_reducible exact Keeps.refl _
    | with_reducible apply OKeeps.next ?_
    | exact True.intro
    | with_reducible apply Keeps.trans ?_ (setCore_keeps _ _)
    | extract_lets
    | (with_reducible apply Keeps.lit ?_ ?_ ?_ ?_ ?_ ?_); (on_goal 2 => rfl); (on_goal 2 => rfl); (on_goal 2 => rfl); (on_goal 2 => rfl); (on_goal 2 => rfl); first | assumption | with_reducible exact Keeps.refl _ | with_reducible apply Keeps.trans ?_ (setCore_keeps _ _)
    | dsimp -zeta only

theorem execSrcCfgPendingClear_keeps (core : CoreId) (source priority : Nat) (enable ie : Bool) (s : State) : OKeeps s (execSrcCfgPendingClear core source priority enable ie s) := by
  unfold execSrcCfgPendingClear
  repeat' first
    | assumption
    | with_reducible exact Keeps.refl _
    | with_reducible apply OKeeps.next ?_
    | exact True.intro
    | with_reducible apply Keeps.trans ?_ (setCore_keeps _ _)
    | extract_lets
    | (with_reducible apply Keeps.lit ?_ ?_ ?_ ?_ ?_ ?_); (on_goal 2 => rfl); (on_goal 2 => rfl); (on_goal 2 => rfl); (on_goal 2 => rfl); (on_goal 2 => rfl); first | assumption | with_reducible exact Keeps.refl _ | with_reducible apply Keeps.trans ?_ (setCore_keeps _ _)
    | dsimp -zeta only

theorem execEvcDeliverWrite_keeps (core : CoreId) (value : Bool) (base : Nat) (ie : Bool) (s : State) : OKeeps s (execEvcDeliverWrite core value base ie s) := by
  unfold execEvcDeliverWrite
  repeat' first
    | assumption
    | with_reducible exact Keeps.refl _
    | with_reducible apply OKeeps.next ?_
    | exact True.intro
    | with_reducible apply Keeps.trans ?_ (setCore_keeps _ _)
    | (with_reducible apply Keeps.lit ?_ ?_ ?_ ?_ ?_ ?_); (on_goal 2 => rfl); (on_goal 2 => rfl); (on_goal 2 => rfl); (on_goal 2 => rfl); (on_goal 2 => rfl); first | assumption | with_reducible exact Keeps.refl _ | with_reducible apply Keeps.trans ?_ (setCore_keeps _ _)
    | dsimp -zeta only

theorem execCoreWait_keeps (core : CoreId) (ie : Bool) (s : State) : OKeeps s (execCoreWait core ie s) := by
  unfold execCoreWait
  repeat' first
    | assumption
    | with_reducible exact Keeps.refl _
    | with_reducible apply OKeeps.next ?_
    | exact True.intro
    | with_reducible apply Keeps.trans ?_ (setCore_keeps _ _)
    | (with_reducible apply Keeps.lit ?_ ?_ ?_ ?_ ?_ ?_); (on_goal 2 => rfl); (on_goal 2 => rfl); (on_goal 2 => rfl); (on_goal 2 => rfl); (on_goal 2 => rfl); first | assumption | with_reducible exact Keeps.refl _ | with_reducible apply Keeps.trans ?_ (setCore_keeps _ _)
    | dsimp -zeta only

theorem execMeterAlarm_keeps (core : CoreId) (s : State) : OKeeps s (execMeterAlarm core s) := by
  unfold execMeterAlarm
  repeat' first
    | assumption
    | with_reducible exact Keeps.refl _
    | with_reducible apply OKeeps.next ?_
    | exact True.intro
    | with_reducible apply Keeps.trans ?_ (fireSrc_keeps _ _ _)
    | dsimp -zeta only

theorem execWatchdogWrite_keeps (core : CoreId) (s : State) : OKeeps s (execWatchdogWrite core s) := by
  unfold execWatchdogWrite
  repeat' first
    | assumption
    | with_reducible exact Keeps.refl _
    | with_reducible apply OKeeps.next ?_
    | exact True.intro
    | with_reducible apply Keeps.trans ?_ (setCore_keeps _ _)
    | (with_reducible apply Keeps.lit ?_ ?_ ?_ ?_ ?_ ?_); (on_goal 2 => rfl); (on_goal 2 => rfl); (on_goal 2 => rfl); (on_goal 2 => rfl); (on_goal 2 => rfl); first | assumption | with_reducible exact Keeps.refl _ | with_reducible apply Keeps.trans ?_ (setCore_keeps _ _)
    | dsimp -zeta only

theorem execWatchdogHalfPeriod_keeps (core : CoreId) (s : State) : OKeeps s (execWatchdogHalfPeriod core s) := by
  unfold execWatchdogHalfPeriod
  repeat' first
    | assumption
    | with_reducible exact Keeps.refl _
    | with_reducible apply OKeeps.next ?_
    | exact True.intro
    | with_reducible apply Keeps.trans ?_ (setCore_keeps _ _)
    | (with_reducible apply Keeps.lit ?_ ?_ ?_ ?_ ?_ ?_); (on_goal 2 => rfl); (on_goal 2 => rfl); (on_goal 2 => rfl); (on_goal 2 => rfl); (on_goal 2 => rfl); first | assumption | with_reducible exact Keeps.refl _ | with_reducible apply Keeps.trans ?_ (setCore_keeps _ _)
    | dsimp -zeta only

theorem setSem_keeps (x : Sem) (s : State) : Keeps s (setSem x s) := by
  unfold setSem
  repeat' first
    | assumption
    | with_reducible exact Keeps.refl _
    | extract_lets
    | (with_reducible apply Keeps.lit ?_ ?_ ?_ ?_ ?_ ?_); (on_goal 2 => rfl); (on_goal 2 => rfl); (on_goal 2 => rfl); (on_goal 2 => rfl); (on_goal 2 => rfl); first | assumption | with_reducible exact Keeps.refl _
    | dsimp -zeta only

theorem setCtx_keeps (x : Ctx) (s : State) : Keeps s (setCtx x s) := by
  unfold setCtx
  repeat' first
    | assumption
    | with_reducible exact Keeps.refl _
    | extract_lets
    | (with_reducible apply Keeps.lit ?_ ?_ ?_ ?_ ?_ ?_); (on_goal 2 => rfl); (on_goal 2 => rfl); (on_goal 2 => rfl); (on_goal 2 => rfl); (on_goal 2 => rfl); first | assumption | with_reducible exact Keeps.refl _
    | dsimp -zeta only

theorem grantSem_keeps (die n ctx : Nat) (s : State) : Keeps s (grantSem die n ctx s) := by
  unfold grantSem
  repeat' first
    | assumption
    | with_reducible exact Keeps.refl _
    | with_reducible apply Keeps.trans ?_ (setCtx_keeps _ _)
    | with_reducible apply Keeps.trans ?_ (setSem_keeps _ _)
    | extract_lets
    | (with_reducible apply Keeps.lit ?_ ?_ ?_ ?_ ?_ ?_); (on_goal 2 => rfl); (on_goal 2 => rfl); (on_goal 2 => rfl); (on_goal 2 => rfl); (on_goal 2 => rfl); first | assumption | with_reducible exact Keeps.refl _ | with_reducible apply Keeps.trans ?_ (setCtx_keeps _ _) | with_reducible apply Keeps.trans ?_ (setSem_keeps _ _)
    | dsimp -zeta only

theorem freeSem_keeps (die n : Nat) (s : State) : Keeps s (freeSem die n s) := by
  unfold freeSem
  repeat' first
    | assumption
    | with_reducible exact Keeps.refl _
    | with_reducible apply Keeps.trans ?_ (grantSem_keeps _ _ _ _)
    | with_reducible apply Keeps.trans ?_ (setSem_keeps _ _)
    | extract_lets
    | (with_reducible apply Keeps.lit ?_ ?_ ?_ ?_ ?_ ?_); (on_goal 2 => rfl); (on_goal 2 => rfl); (on_goal 2 => rfl); (on_goal 2 => rfl); (on_goal 2 => rfl); first | assumption | with_reducible exact Keeps.refl _ | with_reducible apply Keeps.trans ?_ (grantSem_keeps _ _ _ _) | with_reducible apply Keeps.trans ?_ (setSem_keeps _ _) | split
    | split
    | dsimp -zeta only

theorem revokeCtx_keeps (die holder : Nat) (s : State) : Keeps s (revokeCtx die holder s) := by
  unfold revokeCtx
  repeat' first
    | assumption
    | with_reducible exact Keeps.refl _
    | with_reducible apply Keeps.trans ?_ (forEach_keeps _ _ _ (fun _ _ => ?_))
    | with_reducible apply Keeps.trans ?_ (freeSem_keeps _ _ _)
    | with_reducible apply Keeps.trans ?_ (setCtx_keeps _ _)
    | with_reducible apply Keeps.trans ?_ (setSem_keeps _ _)
    | extract_lets
    | (with_reducible apply Keeps.lit ?_ ?_ ?_ ?_ ?_ ?_); (on_goal 2 => rfl); (on_goal 2 => rfl); (on_goal 2 => rfl); (on_goal 2 => rfl); (on_goal 2 => rfl); first | assumption | with_reducible exact Keeps.refl _ | with_reducible apply Keeps.trans ?_ (forEach_keeps _ _ _ (fun _ _ => ?_)) | with_reducible apply Keeps.trans ?_ (freeSem_keeps _ _ _) | with_reducible apply Keeps.trans ?_ (setCtx_keeps _ _) | with_reducible apply Keeps.trans ?_ (setSem_keeps _ _) | split
    | split
    | dsimp -zeta only

theorem execSemaphoreAcquire_keeps (die sem ctx : Nat) (s : State) : OKeeps s (execSemaphoreAcquire die sem ctx s) := by
  unfold execSemaphoreAcquire
  repeat' first
    | assumption
    | with_reducible exact Keeps.refl _
    | with_reducible apply OKeeps.next ?_
    | exact True.intro
    | with_reducible apply Keeps.trans ?_ (revokeCtx_keeps _ _ _)
    | with_reducible apply Keeps.trans ?_ (grantSem_keeps _ _ _ _)
    | with_reducible apply Keeps.trans ?_ (setCtx_keeps _ _)
    | with_reducible apply Keeps.trans ?_ (setSem_keeps _ _)
    | extract_lets
    | (with_reducible apply Keeps.lit ?_ ?_ ?_ ?_ ?_ ?_); (on_goal 2 => rfl); (on_goal 2 => rfl); (on_goal 2 => rfl); (on_goal 2 => rfl); (on_goal 2 => rfl); first | assumption | with_reducible exact Keeps.refl _ | with_reducible apply Keeps.trans ?_ (revokeCtx_keeps _ _ _) | with_reducible apply Keeps.trans ?_ (grantSem_keeps _ _ _ _) | with_reducible apply Keeps.trans ?_ (setCtx_keeps _ _) | with_reducible apply Keeps.trans ?_ (setSem_keeps _ _) | split
    | split
    | dsimp -zeta only

theorem execSemaphoreRelease_keeps (die sem ctx : Nat) (s : State) : OKeeps s (execSemaphoreRelease die sem ctx s) := by
  unfold execSemaphoreRelease
  repeat' first
    | assumption
    | with_reducible exact Keeps.refl _
    | with_reducible apply OKeeps.next ?_
    | exact True.intro
    | with_reducible apply Keeps.trans ?_ (freeSem_keeps _ _ _)
    | with_reducible apply Keeps.trans ?_ (setCtx_keeps _ _)
    | extract_lets
    | (with_reducible apply Keeps.lit ?_ ?_ ?_ ?_ ?_ ?_); (on_goal 2 => rfl); (on_goal 2 => rfl); (on_goal 2 => rfl); (on_goal 2 => rfl); (on_goal 2 => rfl); first | assumption | with_reducible exact Keeps.refl _ | with_reducible apply Keeps.trans ?_ (freeSem_keeps _ _ _) | with_reducible apply Keeps.trans ?_ (setCtx_keeps _ _) | split
    | split
    | dsimp -zeta only

theorem execSemaphoreRevokedClear_keeps (die sem : Nat) (s : State) : OKeeps s (execSemaphoreRevokedClear die sem s) := by
  unfold execSemaphoreRevokedClear
  repeat' first
    | assumption
    | with_reducible exact Keeps.refl _
    | with_reducible apply OKeeps.next ?_
    | exact True.intro
    | with_reducible apply Keeps.trans ?_ (setSem_keeps _ _)
    | (with_reducible apply Keeps.lit ?_ ?_ ?_ ?_ ?_ ?_); (on_goal 2 => rfl); (on_goal 2 => rfl); (on_goal 2 => rfl); (on_goal 2 => rfl); (on_goal 2 => rfl); first | assumption | with_reducible exact Keeps.refl _ | with_reducible apply Keeps.trans ?_ (setSem_keeps _ _)
    | dsimp -zeta only

theorem sendMgr_keeps (peer kind handle : Nat) (body : List Nat) (records : List MapRecord) (bytes : List Byte) (s : State) : Keeps s (sendMgr peer kind handle body records bytes s) := by
  unfold sendMgr
  repeat' first
    | assumption
    | with_reducible exact Keeps.refl _
    | extract_lets
    | (with_reducible apply Keeps.lit ?_ ?_ ?_ ?_ ?_ ?_); (on_goal 2 => rfl); (on_goal 2 => rfl); (on_goal 2 => rfl); (on_goal 2 => rfl); (on_goal 2 => rfl); first | assumption | with_reducible exact Keeps.refl _
    | dsimp -zeta only

theorem putDirectory_keeps (h holder state : Nat) (s : State) : Keeps s (putDirectory h holder state s) := by
  unfold putDirectory
  repeat' first
    | assumption
    | with_reducible exact Keeps.refl _
    | extract_lets
    | (with_reducible apply Keeps.lit ?_ ?_ ?_ ?_ ?_ ?_); (on_goal 2 => rfl); (on_goal 2 => rfl); (on_goal 2 => rfl); (on_goal 2 => rfl); (on_goal 2 => rfl); first | assumption | with_reducible exact Keeps.refl _ | split
    | split
    | dsimp -zeta only

theorem tellDirectory_keeps (h holder state : Nat) (s : State) : Keeps s (tellDirectory h holder state s) := by
  unfold tellDirectory
  repeat' first
    | assumption
    | with_reducible exact Keeps.refl _
    | with_reducible apply Keeps.trans ?_ (putDirectory_keeps _ _ _ _)
    | with_reducible apply Keeps.trans ?_ (sendMgr_keeps _ _ _ _ _ _ _)
    | extract_lets
    | split
    | dsimp -zeta only

theorem abortMigration_keeps (h : Nat) (r : MoveEnd) (s : State) : Keeps s (abortMigration h r s) := by
  unfold abortMigration
  repeat' first
    | assumption
    | with_reducible exact Keeps.refl _
    | with_reducible apply Keeps.trans ?_ (sendMgr_keeps _ _ _ _ _ _ _)
    | with_reducible apply Keeps.trans ?_ (onSess_keeps _ _ _)
    | extract_lets
    | (with_reducible apply Keeps.lit ?_ ?_ ?_ ?_ ?_ ?_); (on_goal 2 => rfl); (on_goal 2 => rfl); (on_goal 2 => rfl); (on_goal 2 => rfl); (on_goal 2 => rfl); first | assumption | with_reducible exact Keeps.refl _ | with_reducible apply Keeps.trans ?_ (sendMgr_keeps _ _ _ _ _ _ _) | with_reducible apply Keeps.trans ?_ (onSess_keeps _ _ _) | split
    | split
    | dsimp -zeta only

theorem placeWeights_keeps (n : Nat) (s : State) : Keeps s (placeWeights n s) := by
  unfold placeWeights
  split
  · exact Keeps.refl _
  · rename_i m _
    extract_lets pl part whole
    have hw : Keeps s whole := forEach_keeps _ _ _ (fun k t => (foldl_pair_keeps (β := List (Nat × Nat)) (part k) (fun t h => by
      dsimp only [part]
      split
      · exact Keeps.refl _
      · split
        · exact drawFree_keeps _
        · exact Keeps.refl _) _ ([], t)).trans (onModel_keeps _ _ _))
    clear_value whole
    split
    · split
      · exact (drawFree_keeps _).trans (onModel_keeps _ _ _)
      · exact Keeps.refl _
    · split
      · exact hw.trans (onModel_keeps _ _ _)
      · exact Keeps.refl _

theorem placeAllWeights_keeps (s : State) : Keeps s (placeAllWeights s) := by
  unfold placeAllWeights
  repeat' first
    | assumption
    | with_reducible exact Keeps.refl _
    | with_reducible apply Keeps.trans ?_ (forEach_keeps _ _ _ (fun _ _ => ?_))
    | with_reducible apply Keeps.trans ?_ (placeWeights_keeps _ _)
    | dsimp -zeta only

theorem releasePlaces_keeps (cs : List Place) (s : State) : Keeps s (releasePlaces cs s) := by
  unfold releasePlaces
  repeat' first
    | assumption
    | with_reducible exact Keeps.refl _
    | extract_lets
    | (with_reducible apply Keeps.lit ?_ ?_ ?_ ?_ ?_ ?_); (on_goal 2 => rfl); (on_goal 2 => rfl); (on_goal 2 => rfl); (on_goal 2 => rfl); (on_goal 2 => rfl); first | assumption | with_reducible exact Keeps.refl _ | split
    | split
    | dsimp -zeta only

theorem releasePages_keeps (p : Option ModelProgram) (pgs : List Page) (s : State) : Keeps s (releasePages p pgs s) := by
  unfold releasePages
  repeat' first
    | assumption
    | with_reducible exact Keeps.refl _
    | with_reducible apply Keeps.trans ?_ (releasePlaces_keeps _ _)
    | (with_reducible apply Keeps.lit ?_ ?_ ?_ ?_ ?_ ?_); (on_goal 2 => rfl); (on_goal 2 => rfl); (on_goal 2 => rfl); (on_goal 2 => rfl); (on_goal 2 => rfl); first | assumption | with_reducible exact Keeps.refl _ | with_reducible apply Keeps.trans ?_ (releasePlaces_keeps _ _) | split
    | split
    | dsimp -zeta only

theorem tagRegions_keeps (tier unit tenant : Nat) (regions : List Nat) (s : State) : Keeps s (tagRegions tier unit tenant regions s) := by
  unfold tagRegions
  repeat' first
    | assumption
    | with_reducible exact Keeps.refl _
    | extract_lets
    | (with_reducible apply Keeps.lit ?_ ?_ ?_ ?_ ?_ ?_); (on_goal 2 => rfl); (on_goal 2 => rfl); (on_goal 2 => rfl); (on_goal 2 => rfl); (on_goal 2 => rfl); first | assumption | with_reducible exact Keeps.refl _ | split
    | split
    | dsimp -zeta only

theorem takeT1_keeps (die owner kib base : Nat) (s : State) : Keeps s (takeT1 die owner kib base s).2 := by
  unfold takeT1
  repeat' first
    | assumption
    | with_reducible exact Keeps.refl _
    | with_reducible apply Keeps.trans ?_ (tagRegions_keeps _ _ _ _ _)
    | extract_lets
    | dsimp -zeta only

theorem takeFrameAt_keeps (x : Session) (kib base : Nat) (s : State) : Keeps s (takeFrameAt x kib base s).2 := by
  unfold takeFrameAt
  repeat' first
    | assumption
    | with_reducible exact Keeps.refl _
    | with_reducible apply Keeps.trans ?_ (takeT1_keeps _ _ _ _ _)
    | dsimp -zeta only

theorem takeFrame_keeps (x : Session) (kib : Nat) (s : State) : Keeps s (takeFrame x kib s).2 := by
  unfold takeFrame
  repeat' first
    | assumption
    | with_reducible exact Keeps.refl _
    | with_reducible apply Keeps.trans ?_ (takeFrameAt_keeps _ _ _ _)
    | dsimp -zeta only

theorem takeFrame2_keeps (x : Session) (frame kib : Nat) (s : State) : Keeps s (takeFrame2 x frame kib s).2 := by
  unfold takeFrame2
  repeat' first
    | assumption
    | with_reducible exact Keeps.refl _
    | with_reducible apply Keeps.trans ?_ (takeFrameAt_keeps _ _ _ _)
    | extract_lets
    | dsimp -zeta only

theorem takeLower_keeps (tenant pool kib : Nat) (s : State) : Keeps s (takeLower tenant pool kib s).2 := by
  unfold takeLower
  dsimp only
  split
  · exact tagRegions_keeps _ _ _ _ _
  · exact Keeps.refl _

theorem takeH_keeps (tenant partition link kib : Nat) (s : State) : Keeps s (takeH tenant partition link kib s).2 := by
  unfold takeH
  repeat' first
    | assumption
    | with_reducible exact Keeps.refl _
    | with_reducible apply Keeps.trans ?_ (tagRegions_keeps _ _ _ _ _)
    | extract_lets
    | dsimp -zeta only

theorem seatPlace_keeps (x : Session) (partition : Nat) (c : Place) (s : State) : Keeps s (seatPlace x partition c s).2 := by
  unfold seatPlace
  extract_lets r1 r2 r3 r4
  have h1 : Keeps s r1.2 := by
    dsimp only [r1]; split
    · exact takeFrame_keeps _ _ _
    · exact Keeps.refl _
  clear_value r1
  have h2 : Keeps s r2.2 := by
    dsimp only [r2]; split
    · split
      · exact h1.trans (takeFrame2_keeps _ _ _ _)
      · exact h1
    · exact h1
  clear_value r2
  have h3 : Keeps s r3.2 := by
    dsimp only [r3]; split
    · exact h2.trans (takeLower_keeps _ _ _ _)
    · exact h2
  clear_value r3
  dsimp only [r4]
  split
  · exact h3.trans (takeLower_keeps _ _ _ _)
  · split
    · exact h3.trans (takeH_keeps _ _ _ _ _)
    · exact h3

theorem seatSlab_keeps (h : Shard) (b : Slab) (s : State) : Keeps s (seatSlab h b s).2 := by
  unfold seatSlab
  split
  · exact Keeps.refl _
  · split
    · exact Keeps.refl _
    · exact (drawFree_keeps s).trans (foldl_pair_keeps (β := List Nat) _ (fun _ _ => takeLower_keeps _ _ _ _) _ ([], drawFree s))

theorem seatSlabs_keeps (s : State) : Keeps s (seatSlabs s) := by
  unfold seatSlabs
  extract_lets one
  refine foldl_pair_keeps one (fun t h => ?_) s.rcl.shards (([] : List Shard), s)
  dsimp only [one]
  split
  · exact Keeps.refl _
  · exact Keeps.lit (foldl_pair_keeps (β := List Slab) _ (fun _ _ => seatSlab_keeps _ _ _) _ ([], t.2)) rfl rfl rfl rfl rfl

theorem clearExtents_keeps (slots : List Nat) (s : State) : Keeps s (clearExtents slots s) := by
  unfold clearExtents
  repeat' first
    | assumption
    | with_reducible exact Keeps.refl _
    | (with_reducible apply Keeps.lit ?_ ?_ ?_ ?_ ?_ ?_); (on_goal 2 => rfl); (on_goal 2 => rfl); (on_goal 2 => rfl); (on_goal 2 => rfl); (on_goal 2 => rfl); first | assumption | with_reducible exact Keeps.refl _ | split
    | split
    | dsimp -zeta only

theorem fitPool_keeps (n : Nat) (s : State) : Keeps s (fitPool n s) := by
  unfold fitPool
  repeat' first
    | assumption
    | with_reducible exact Keeps.refl _
    | with_reducible apply Keeps.trans ?_ (clearExtents_keeps _ _)
    | extract_lets
    | (with_reducible apply Keeps.lit ?_ ?_ ?_ ?_ ?_ ?_); (on_goal 2 => rfl); (on_goal 2 => rfl); (on_goal 2 => rfl); (on_goal 2 => rfl); (on_goal 2 => rfl); first | assumption | with_reducible exact Keeps.refl _ | with_reducible apply Keeps.trans ?_ (clearExtents_keeps _ _) | split
    | split
    | dsimp -zeta only

theorem fitExtents_keeps (s : State) : Keeps s (fitExtents s) := by
  unfold fitExtents
  repeat' first
    | assumption
    | with_reducible exact Keeps.refl _
    | with_reducible apply Keeps.trans ?_ (forEach_keeps _ _ _ (fun _ _ => ?_))
    | with_reducible apply Keeps.trans ?_ (fitPool_keeps _ _)
    | with_reducible apply Keeps.trans ?_ (clearExtents_keeps _ _)
    | with_reducible apply Keeps.trans ?_ (seatSlabs_keeps _)
    | with_reducible apply Keeps.trans ?_ (placeAllWeights_keeps _)
    | extract_lets
    | (with_reducible apply Keeps.lit ?_ ?_ ?_ ?_ ?_ ?_); (on_goal 2 => rfl); (on_goal 2 => rfl); (on_goal 2 => rfl); (on_goal 2 => rfl); (on_goal 2 => rfl); first | assumption | with_reducible exact Keeps.refl _ | with_reducible apply Keeps.trans ?_ (forEach_keeps _ _ _ (fun _ _ => ?_)) | with_reducible apply Keeps.trans ?_ (fitPool_keeps _ _) | with_reducible apply Keeps.trans ?_ (clearExtents_keeps _ _) | with_reducible apply Keeps.trans ?_ (seatSlabs_keeps _) | with_reducible apply Keeps.trans ?_ (placeAllWeights_keeps _)
    | dsimp -zeta only

theorem reportRelease_keeps (pool extents : Nat) (s : State) : Keeps s (reportRelease pool extents s) := by
  unfold reportRelease
  repeat' first
    | assumption
    | with_reducible exact Keeps.refl _
    | with_reducible apply Keeps.trans ?_ (sendMgr_keeps _ _ _ _ _ _ _)
    | extract_lets
    | split
    | dsimp -zeta only

theorem settleLeaving_keeps (s : State) : Keeps s (settleLeaving s) := by
  unfold settleLeaving
  repeat' first
    | assumption
    | with_reducible exact Keeps.refl _
    | with_reducible apply Keeps.trans ?_ (forEach_keeps _ _ _ (fun _ _ => ?_))
    | with_reducible apply Keeps.trans ?_ (reportRelease_keeps _ _ _)
    | with_reducible apply Keeps.trans ?_ (fitExtents_keeps _)
    | (with_reducible apply Keeps.lit ?_ ?_ ?_ ?_ ?_ ?_); (on_goal 2 => rfl); (on_goal 2 => rfl); (on_goal 2 => rfl); (on_goal 2 => rfl); (on_goal 2 => rfl); first | assumption | with_reducible exact Keeps.refl _ | with_reducible apply Keeps.trans ?_ (forEach_keeps _ _ _ (fun _ _ => ?_)) | with_reducible apply Keeps.trans ?_ (reportRelease_keeps _ _ _) | with_reducible apply Keeps.trans ?_ (fitExtents_keeps _) | split
    | split
    | dsimp -zeta only

theorem startStream_keeps (k : Stream) (s : State) : Keeps s (startStream k s) := by
  unfold startStream
  repeat' first
    | assumption
    | with_reducible exact Keeps.refl _
    | (with_reducible apply Keeps.lit ?_ ?_ ?_ ?_ ?_ ?_); (on_goal 2 => rfl); (on_goal 2 => rfl); (on_goal 2 => rfl); (on_goal 2 => rfl); (on_goal 2 => rfl); first | assumption | with_reducible exact Keeps.refl _ | split
    | split
    | dsimp -zeta only

theorem endStream_keeps (c : Carried) (s : State) : Keeps s (endStream c s) := by
  unfold endStream
  repeat' first
    | assumption
    | with_reducible exact Keeps.refl _
    | (with_reducible apply Keeps.lit ?_ ?_ ?_ ?_ ?_ ?_); (on_goal 2 => rfl); (on_goal 2 => rfl); (on_goal 2 => rfl); (on_goal 2 => rfl); (on_goal 2 => rfl); first | assumption | with_reducible exact Keeps.refl _
    | dsimp -zeta only

theorem startPoolStream_keeps (pool a : Nat) (c : Carried) (lines : Nat) (s : State) : Keeps s (startPoolStream pool a c lines s) := by
  unfold startPoolStream
  repeat' first
    | assumption
    | with_reducible exact Keeps.refl _
    | with_reducible apply Keeps.trans ?_ (forEach_keeps _ _ _ (fun _ _ => ?_))
    | with_reducible apply Keeps.trans ?_ (startStream_keeps _ _)
    | extract_lets
    | split
    | dsimp -zeta only

theorem issueHandle_keeps (h : Nat) (s : State) : Keeps s (issueHandle h s).2 := by
  unfold issueHandle
  repeat' first
    | assumption
    | with_reducible exact Keeps.refl _
    | with_reducible apply Keeps.trans ?_ (onSess_keeps _ _ _)
    | extract_lets
    | (with_reducible apply Keeps.lit ?_ ?_ ?_ ?_ ?_ ?_); (on_goal 2 => rfl); (on_goal 2 => rfl); (on_goal 2 => rfl); (on_goal 2 => rfl); (on_goal 2 => rfl); first | assumption | with_reducible exact Keeps.refl _ | with_reducible apply Keeps.trans ?_ (onSess_keeps _ _ _) | split
    | split
    | dsimp -zeta only

theorem onPage_keeps (h row layer : Nat) (f : Page → Page) (s : State) : Keeps s (onPage h row layer f s) := by
  unfold onPage
  repeat' first
    | assumption
    | with_reducible exact Keeps.refl _
    | with_reducible apply Keeps.trans ?_ (onSess_keeps _ _ _)
    | (with_reducible apply Keeps.lit ?_ ?_ ?_ ?_ ?_ ?_); (on_goal 2 => rfl); (on_goal 2 => rfl); (on_goal 2 => rfl); (on_goal 2 => rfl); (on_goal 2 => rfl); first | assumption | with_reducible exact Keeps.refl _ | with_reducible apply Keeps.trans ?_ (onSess_keeps _ _ _) | split
    | split
    | dsimp -zeta only

theorem onBlk_keeps (h : Nat) (b : Blk) (f : Blk → Blk) (s : State) : Keeps s (onBlk h b f s) := by
  unfold onBlk
  repeat' first
    | assumption
    | with_reducible exact Keeps.refl _
    | with_reducible apply Keeps.trans ?_ (onSess_keeps _ _ _)
    | (with_reducible apply Keeps.lit ?_ ?_ ?_ ?_ ?_ ?_); (on_goal 2 => rfl); (on_goal 2 => rfl); (on_goal 2 => rfl); (on_goal 2 => rfl); (on_goal 2 => rfl); first | assumption | with_reducible exact Keeps.refl _ | with_reducible apply Keeps.trans ?_ (onSess_keeps _ _ _) | split
    | split
    | dsimp -zeta only

theorem onLeaf_keeps (h range : Nat) (f : Leaf → Leaf) (s : State) : Keeps s (onLeaf h range f s) := by
  unfold onLeaf
  repeat' first
    | assumption
    | with_reducible exact Keeps.refl _
    | with_reducible apply Keeps.trans ?_ (onSess_keeps _ _ _)
    | (with_reducible apply Keeps.lit ?_ ?_ ?_ ?_ ?_ ?_); (on_goal 2 => rfl); (on_goal 2 => rfl); (on_goal 2 => rfl); (on_goal 2 => rfl); (on_goal 2 => rfl); first | assumption | with_reducible exact Keeps.refl _ | with_reducible apply Keeps.trans ?_ (onSess_keeps _ _ _) | split
    | split
    | dsimp -zeta only

theorem seatPage_keeps (h partition row layer : Nat) (s : State) : Keeps s (seatPage h partition row layer s) := by
  unfold seatPage
  repeat' first
    | assumption
    | with_reducible exact Keeps.refl _
    | with_reducible apply Keeps.trans ?_ (onPage_keeps _ _ _ _ _)
    | with_reducible apply Keeps.trans ?_ (issueHandle_keeps _ _)
    | with_reducible apply Keeps.trans ?_ (seatPlace_keeps _ _ _ _)
    | extract_lets
    | (with_reducible apply Keeps.lit ?_ ?_ ?_ ?_ ?_ ?_); (on_goal 2 => rfl); (on_goal 2 => rfl); (on_goal 2 => rfl); (on_goal 2 => rfl); (on_goal 2 => rfl); first | assumption | with_reducible exact Keeps.refl _ | with_reducible apply Keeps.trans ?_ (onPage_keeps _ _ _ _ _) | with_reducible apply Keeps.trans ?_ (issueHandle_keeps _ _) | with_reducible apply Keeps.trans ?_ (seatPlace_keeps _ _ _ _) | split
    | split
    | dsimp -zeta only

theorem seatBlk_keeps (h partition : Nat) (b : Blk) (s : State) : Keeps s (seatBlk h partition b s) := by
  unfold seatBlk
  split
  · exact Keeps.refl _
  · extract_lets r c
    have h1 : Keeps s r.2 := by
      dsimp only [r]; split
      · exact issueHandle_keeps _ _
      · exact Keeps.refl _
    clear_value r
    exact (h1.trans (seatPlace_keeps _ _ _ _)).trans (onBlk_keeps _ _ _ _)

theorem seatLeaf_keeps (h partition : Nat) (l : Leaf) (s : State) : Keeps s (seatLeaf h partition l s) := by
  unfold seatLeaf
  repeat' first
    | assumption
    | with_reducible exact Keeps.refl _
    | with_reducible apply Keeps.trans ?_ (onLeaf_keeps _ _ _ _)
    | with_reducible apply Keeps.trans ?_ (seatPlace_keeps _ _ _ _)
    | extract_lets
    | (with_reducible apply Keeps.lit ?_ ?_ ?_ ?_ ?_ ?_); (on_goal 2 => rfl); (on_goal 2 => rfl); (on_goal 2 => rfl); (on_goal 2 => rfl); (on_goal 2 => rfl); first | assumption | with_reducible exact Keeps.refl _ | with_reducible apply Keeps.trans ?_ (onLeaf_keeps _ _ _ _) | with_reducible apply Keeps.trans ?_ (seatPlace_keeps _ _ _ _) | split
    | split
    | dsimp -zeta only

theorem seat_keeps (h : Nat) (s : State) : Keeps s (seat h s) := by
  unfold seat
  repeat' first
    | assumption
    | with_reducible exact Keeps.refl _
    | with_reducible apply Keeps.trans ?_ (forEach_keeps _ _ _ (fun _ _ => ?_))
    | with_reducible apply Keeps.trans ?_ (hold_keeps _ _ _)
    | with_reducible apply Keeps.trans ?_ (seatLeaf_keeps _ _ _ _)
    | with_reducible apply Keeps.trans ?_ (seatBlk_keeps _ _ _ _)
    | with_reducible apply Keeps.trans ?_ (seatPage_keeps _ _ _ _ _)
    | with_reducible apply Keeps.trans ?_ (setSess_keeps _ _)
    | extract_lets
    | (with_reducible apply Keeps.lit ?_ ?_ ?_ ?_ ?_ ?_); (on_goal 2 => rfl); (on_goal 2 => rfl); (on_goal 2 => rfl); (on_goal 2 => rfl); (on_goal 2 => rfl); first | assumption | with_reducible exact Keeps.refl _ | with_reducible apply Keeps.trans ?_ (forEach_keeps _ _ _ (fun _ _ => ?_)) | with_reducible apply Keeps.trans ?_ (hold_keeps _ _ _) | with_reducible apply Keeps.trans ?_ (seatLeaf_keeps _ _ _ _) | with_reducible apply Keeps.trans ?_ (seatBlk_keeps _ _ _ _) | with_reducible apply Keeps.trans ?_ (seatPage_keeps _ _ _ _ _) | with_reducible apply Keeps.trans ?_ (setSess_keeps _ _) | split
    | split
    | dsimp -zeta only

theorem onHubStore_keeps (h : Nat) (f : HubStore → HubStore) (s : State) : Keeps s (onHubStore h f s) := by
  unfold onHubStore
  repeat' first
    | assumption
    | with_reducible exact Keeps.refl _
    | (with_reducible apply Keeps.lit ?_ ?_ ?_ ?_ ?_ ?_); (on_goal 2 => rfl); (on_goal 2 => rfl); (on_goal 2 => rfl); (on_goal 2 => rfl); (on_goal 2 => rfl); first | assumption | with_reducible exact Keeps.refl _
    | dsimp -zeta only

theorem flushJournal_keeps (h : Nat) (s : State) : Keeps s (flushJournal h s) := by
  unfold flushJournal
  repeat' first
    | assumption
    | with_reducible exact Keeps.refl _
    | with_reducible apply Keeps.trans ?_ (onHubStore_keeps _ _ _)
    | extract_lets
    | (with_reducible apply Keeps.lit ?_ ?_ ?_ ?_ ?_ ?_); (on_goal 2 => rfl); (on_goal 2 => rfl); (on_goal 2 => rfl); (on_goal 2 => rfl); (on_goal 2 => rfl); first | assumption | with_reducible exact Keeps.refl _ | with_reducible apply Keeps.trans ?_ (onHubStore_keeps _ _ _) | split
    | split
    | dsimp -zeta only

theorem loseUnflushed_keeps (s : State) : Keeps s (loseUnflushed s) := by
  unfold loseUnflushed
  repeat' first
    | assumption
    | with_reducible exact Keeps.refl _
    | extract_lets
    | (with_reducible apply Keeps.lit ?_ ?_ ?_ ?_ ?_ ?_); (on_goal 2 => rfl); (on_goal 2 => rfl); (on_goal 2 => rfl); (on_goal 2 => rfl); (on_goal 2 => rfl); first | assumption | with_reducible exact Keeps.refl _ | split
    | split
    | dsimp -zeta only

theorem journal_keeps (h : Nat) (r : JRec) (s : State) : Keeps s (journal h r s) := by
  unfold journal
  repeat' first
    | assumption
    | with_reducible exact Keeps.refl _
    | with_reducible apply Keeps.trans ?_ (flushJournal_keeps _ _)
    | with_reducible apply Keeps.trans ?_ (onHubStore_keeps _ _ _)
    | extract_lets
    | (with_reducible apply Keeps.lit ?_ ?_ ?_ ?_ ?_ ?_); (on_goal 2 => rfl); (on_goal 2 => rfl); (on_goal 2 => rfl); (on_goal 2 => rfl); (on_goal 2 => rfl); first | assumption | with_reducible exact Keeps.refl _ | with_reducible apply Keeps.trans ?_ (flushJournal_keeps _ _) | with_reducible apply Keeps.trans ?_ (onHubStore_keeps _ _ _) | split
    | split
    | dsimp -zeta only

theorem onNs_keeps (n : Nat) (f : Ns → Ns) (s : State) : Keeps s (onNs n f s) := by
  unfold onNs
  repeat' first
    | assumption
    | with_reducible exact Keeps.refl _
    | (with_reducible apply Keeps.lit ?_ ?_ ?_ ?_ ?_ ?_); (on_goal 2 => rfl); (on_goal 2 => rfl); (on_goal 2 => rfl); (on_goal 2 => rfl); (on_goal 2 => rfl); first | assumption | with_reducible exact Keeps.refl _
    | dsimp -zeta only

theorem issueObject_keeps (hub : Nat) (s : State) : Keeps s (issueObject hub s).2 := by
  have lit : ∀ (n : Nat) (t : State), Keeps t { t with store := { t.store with objEnd := n } } :=
    fun _ t => Keeps.lit (Keeps.refl t) rfl rfl rfl rfl rfl
  have lit2 : ∀ (n : Nat) (t : State), Keeps t { t with store := { t.store with nextObj := n } } :=
    fun _ t => Keeps.lit (Keeps.refl t) rfl rfl rfl rfl rfl
  unfold issueObject
  refine Keeps.trans ?_ (lit2 _ _)
  split
  · exact (lit _ _).trans (journal_keeps _ _ _)
  · exact Keeps.refl _

theorem reserveObject_keeps (x : Session) (ingot quantised : Bool) (pages : Nat) (s : State) : Keeps s (reserveObject x ingot quantised pages s).2 := by
  unfold reserveObject
  repeat' first
    | assumption
    | with_reducible exact Keeps.refl _
    | with_reducible apply Keeps.trans ?_ (issueObject_keeps _ _)
    | with_reducible apply Keeps.trans ?_ (journal_keeps _ _ _)
    | extract_lets
    | (with_reducible apply Keeps.lit ?_ ?_ ?_ ?_ ?_ ?_); (on_goal 2 => rfl); (on_goal 2 => rfl); (on_goal 2 => rfl); (on_goal 2 => rfl); (on_goal 2 => rfl); first | assumption | with_reducible exact Keeps.refl _ | with_reducible apply Keeps.trans ?_ (issueObject_keeps _ _) | with_reducible apply Keeps.trans ?_ (journal_keeps _ _ _)
    | dsimp -zeta only

theorem onObj_keeps (n : Nat) (f : Obj → Obj) (s : State) : Keeps s (onObj n f s) := by
  unfold onObj
  repeat' first
    | assumption
    | with_reducible exact Keeps.refl _
    | (with_reducible apply Keeps.lit ?_ ?_ ?_ ?_ ?_ ?_); (on_goal 2 => rfl); (on_goal 2 => rfl); (on_goal 2 => rfl); (on_goal 2 => rfl); (on_goal 2 => rfl); first | assumption | with_reducible exact Keeps.refl _
    | dsimp -zeta only

theorem invalidate_keeps (es : List Ext) (s : State) : Keeps s (invalidate es s) := by
  unfold invalidate
  repeat' first
    | assumption
    | with_reducible exact Keeps.refl _
    | extract_lets
    | (with_reducible apply Keeps.lit ?_ ?_ ?_ ?_ ?_ ?_); (on_goal 2 => rfl); (on_goal 2 => rfl); (on_goal 2 => rfl); (on_goal 2 => rfl); (on_goal 2 => rfl); first | assumption | with_reducible exact Keeps.refl _
    | dsimp -zeta only

theorem deleteObjs_keeps (hub : Nat) (which : Obj → Bool) (s : State) : Keeps s (deleteObjs hub which s) := by
  unfold deleteObjs
  repeat' first
    | assumption
    | with_reducible exact Keeps.refl _
    | with_reducible apply Keeps.trans ?_ (forEach_keeps _ _ _ (fun _ _ => ?_))
    | with_reducible apply Keeps.trans ?_ (invalidate_keeps _ _)
    | with_reducible apply Keeps.trans ?_ (journal_keeps _ _ _)
    | extract_lets
    | (with_reducible apply Keeps.lit ?_ ?_ ?_ ?_ ?_ ?_); (on_goal 2 => rfl); (on_goal 2 => rfl); (on_goal 2 => rfl); (on_goal 2 => rfl); (on_goal 2 => rfl); first | assumption | with_reducible exact Keeps.refl _ | with_reducible apply Keeps.trans ?_ (forEach_keeps _ _ _ (fun _ _ => ?_)) | with_reducible apply Keeps.trans ?_ (invalidate_keeps _ _) | with_reducible apply Keeps.trans ?_ (journal_keeps _ _ _) | split
    | split
    | dsimp -zeta only

theorem deleteSessObjs_keeps (x : Session) (s : State) : Keeps s (deleteSessObjs x s) := by
  unfold deleteSessObjs
  repeat' first
    | assumption
    | with_reducible exact Keeps.refl _
    | with_reducible apply Keeps.trans ?_ (deleteObjs_keeps _ _ _)
    | dsimp -zeta only

theorem sendMap_keeps (e : Epoch) (s : State) : Keeps s (sendMap e s) := by
  unfold sendMap
  repeat' first
    | assumption
    | with_reducible exact Keeps.refl _
    | with_reducible apply Keeps.trans ?_ (forEach_keeps _ _ _ (fun _ _ => ?_))
    | with_reducible apply Keeps.trans ?_ (sendMgr_keeps _ _ _ _ _ _ _)
    | dsimp -zeta only

theorem publish_keeps (c : Commit) (s : State) : Keeps s (publish c s) := by
  unfold publish
  repeat' first
    | assumption
    | with_reducible exact Keeps.refl _
    | with_reducible apply Keeps.trans ?_ (sendMap_keeps _ _)
    | with_reducible apply Keeps.trans ?_ (answerMb_keeps _ _ _ _)
    | extract_lets
    | (with_reducible apply Keeps.lit ?_ ?_ ?_ ?_ ?_ ?_); (on_goal 2 => rfl); (on_goal 2 => rfl); (on_goal 2 => rfl); (on_goal 2 => rfl); (on_goal 2 => rfl); first | assumption | with_reducible exact Keeps.refl _ | with_reducible apply Keeps.trans ?_ (sendMap_keeps _ _) | with_reducible apply Keeps.trans ?_ (answerMb_keeps _ _ _ _) | split
    | split
    | dsimp -zeta only

theorem publishOrWait_keeps (c : Commit) (s : State) : Keeps s (publishOrWait c s) := by
  unfold publishOrWait
  repeat' first
    | assumption
    | with_reducible exact Keeps.refl _
    | with_reducible apply Keeps.trans ?_ (publish_keeps _ _)
    | (with_reducible apply Keeps.lit ?_ ?_ ?_ ?_ ?_ ?_); (on_goal 2 => rfl); (on_goal 2 => rfl); (on_goal 2 => rfl); (on_goal 2 => rfl); (on_goal 2 => rfl); first | assumption | with_reducible exact Keeps.refl _ | with_reducible apply Keeps.trans ?_ (publish_keeps _ _) | split
    | split
    | dsimp -zeta only

theorem publishWaiting_keeps (s : State) : Keeps s (publishWaiting s) := by
  unfold publishWaiting
  repeat' first
    | assumption
    | with_reducible exact Keeps.refl _
    | with_reducible apply Keeps.trans ?_ (publish_keeps _ _)
    | (with_reducible apply Keeps.lit ?_ ?_ ?_ ?_ ?_ ?_); (on_goal 2 => rfl); (on_goal 2 => rfl); (on_goal 2 => rfl); (on_goal 2 => rfl); (on_goal 2 => rfl); first | assumption | with_reducible exact Keeps.refl _ | with_reducible apply Keeps.trans ?_ (publish_keeps _ _) | split
    | split
    | dsimp -zeta only

theorem moveSettled_keeps (h : Nat) (s : State) : Keeps s (moveSettled h s) := by
  unfold moveSettled
  repeat' first
    | assumption
    | with_reducible exact Keeps.refl _
    | with_reducible apply Keeps.trans ?_ (forEach_keeps _ _ _ (fun _ _ => ?_))
    | with_reducible apply Keeps.trans ?_ (answerMb_keeps _ _ _ _)
    | extract_lets
    | (with_reducible apply Keeps.lit ?_ ?_ ?_ ?_ ?_ ?_); (on_goal 2 => rfl); (on_goal 2 => rfl); (on_goal 2 => rfl); (on_goal 2 => rfl); (on_goal 2 => rfl); first | assumption | with_reducible exact Keeps.refl _ | with_reducible apply Keeps.trans ?_ (forEach_keeps _ _ _ (fun _ _ => ?_)) | with_reducible apply Keeps.trans ?_ (answerMb_keeps _ _ _ _)
    | dsimp -zeta only

theorem tryRetire_keeps (s : State) : Keeps s (tryRetire s) := by
  unfold tryRetire
  repeat' first
    | assumption
    | with_reducible exact Keeps.refl _
    | with_reducible apply Keeps.trans ?_ (publishWaiting_keeps _)
    | with_reducible apply Keeps.trans ?_ (sendMgr_keeps _ _ _ _ _ _ _)
    | extract_lets
    | (with_reducible apply Keeps.lit ?_ ?_ ?_ ?_ ?_ ?_); (on_goal 2 => rfl); (on_goal 2 => rfl); (on_goal 2 => rfl); (on_goal 2 => rfl); (on_goal 2 => rfl); first | assumption | with_reducible exact Keeps.refl _ | with_reducible apply Keeps.trans ?_ (publishWaiting_keeps _) | with_reducible apply Keeps.trans ?_ (sendMgr_keeps _ _ _ _ _ _ _) | split
    | split
    | dsimp -zeta only

theorem anchor_keeps (kind h : Nat) (s : State) : Keeps s (anchor kind h s) := by
  unfold anchor
  repeat' first
    | assumption
    | with_reducible exact Keeps.refl _
    | (with_reducible apply Keeps.lit ?_ ?_ ?_ ?_ ?_ ?_); (on_goal 2 => rfl); (on_goal 2 => rfl); (on_goal 2 => rfl); (on_goal 2 => rfl); (on_goal 2 => rfl); first | assumption | with_reducible exact Keeps.refl _ | split
    | split
    | dsimp -zeta only

theorem anchorRow_keeps (h row : Nat) (s : State) : Keeps s (anchorRow h row s) := by
  unfold anchorRow
  repeat' first
    | assumption
    | with_reducible exact Keeps.refl _
    | extract_lets
    | (with_reducible apply Keeps.lit ?_ ?_ ?_ ?_ ?_ ?_); (on_goal 2 => rfl); (on_goal 2 => rfl); (on_goal 2 => rfl); (on_goal 2 => rfl); (on_goal 2 => rfl); first | assumption | with_reducible exact Keeps.refl _ | split
    | split
    | dsimp -zeta only

theorem dropAnchors_keeps (h r : Nat) (s : State) : Keeps s (dropAnchors h r s) := by
  unfold dropAnchors
  repeat' first
    | assumption
    | with_reducible exact Keeps.refl _
    | (with_reducible apply Keeps.lit ?_ ?_ ?_ ?_ ?_ ?_); (on_goal 2 => rfl); (on_goal 2 => rfl); (on_goal 2 => rfl); (on_goal 2 => rfl); (on_goal 2 => rfl); first | assumption | with_reducible exact Keeps.refl _
    | dsimp -zeta only

theorem rewind_keeps (h q : Nat) (s : State) : Keeps s (rewind h q s).1 := by
  unfold rewind
  repeat' first
    | assumption
    | with_reducible exact Keeps.refl _
    | with_reducible apply Keeps.trans ?_ (dropAnchors_keeps _ _ _)
    | with_reducible apply Keeps.trans ?_ (anchor_keeps _ _ _)
    | with_reducible apply Keeps.trans ?_ (invalidate_keeps _ _)
    | with_reducible apply Keeps.trans ?_ (onObj_keeps _ _ _)
    | with_reducible apply Keeps.trans ?_ (journal_keeps _ _ _)
    | with_reducible apply Keeps.trans ?_ (seat_keeps _ _)
    | with_reducible apply Keeps.trans ?_ (releasePages_keeps _ _ _)
    | with_reducible apply Keeps.trans ?_ (drawFree_keeps _)
    | with_reducible apply Keeps.trans ?_ (onSess_keeps _ _ _)
    | with_reducible apply Keeps.trans ?_ (setSess_keeps _ _)
    | extract_lets
    | (with_reducible apply Keeps.lit ?_ ?_ ?_ ?_ ?_ ?_); (on_goal 2 => rfl); (on_goal 2 => rfl); (on_goal 2 => rfl); (on_goal 2 => rfl); (on_goal 2 => rfl); first | assumption | with_reducible exact Keeps.refl _ | with_reducible apply Keeps.trans ?_ (dropAnchors_keeps _ _ _) | with_reducible apply Keeps.trans ?_ (anchor_keeps _ _ _) | with_reducible apply Keeps.trans ?_ (invalidate_keeps _ _) | with_reducible apply Keeps.trans ?_ (onObj_keeps _ _ _) | with_reducible apply Keeps.trans ?_ (journal_keeps _ _ _) | with_reducible apply Keeps.trans ?_ (seat_keeps _ _) | with_reducible apply Keeps.trans ?_ (releasePages_keeps _ _ _) | with_reducible apply Keeps.trans ?_ (drawFree_keeps _) | with_reducible apply Keeps.trans ?_ (onSess_keeps _ _ _) | with_reducible apply Keeps.trans ?_ (setSess_keeps _ _) | split
    | split
    | dsimp -zeta only

theorem arm_keeps (h : Nat) (s : State) : Keeps s (arm h s) := by
  unfold arm
  repeat' first
    | assumption
    | with_reducible exact Keeps.refl _
    | with_reducible apply Keeps.trans ?_ (onSess_keeps _ _ _)
    | extract_lets
    | (with_reducible apply Keeps.lit ?_ ?_ ?_ ?_ ?_ ?_); (on_goal 2 => rfl); (on_goal 2 => rfl); (on_goal 2 => rfl); (on_goal 2 => rfl); (on_goal 2 => rfl); first | assumption | with_reducible exact Keeps.refl _ | with_reducible apply Keeps.trans ?_ (onSess_keeps _ _ _) | split
    | split
    | dsimp -zeta only

theorem stampQueue_keeps (h : Nat) (s : State) : Keeps s (stampQueue h s) := by
  unfold stampQueue
  repeat' first
    | assumption
    | with_reducible exact Keeps.refl _
    | with_reducible apply Keeps.trans ?_ (onSess_keeps _ _ _)
    | (with_reducible apply Keeps.lit ?_ ?_ ?_ ?_ ?_ ?_); (on_goal 2 => rfl); (on_goal 2 => rfl); (on_goal 2 => rfl); (on_goal 2 => rfl); (on_goal 2 => rfl); first | assumption | with_reducible exact Keeps.refl _ | with_reducible apply Keeps.trans ?_ (onSess_keeps _ _ _) | split
    | split
    | dsimp -zeta only

theorem countFixes_keeps (t n : Nat) (s : State) : Keeps s (countFixes t n s) := by
  unfold countFixes
  repeat' first
    | assumption
    | with_reducible exact Keeps.refl _
    | with_reducible apply Keeps.trans ?_ (onTen_keeps _ _ _)
    | (with_reducible apply Keeps.lit ?_ ?_ ?_ ?_ ?_ ?_); (on_goal 2 => rfl); (on_goal 2 => rfl); (on_goal 2 => rfl); (on_goal 2 => rfl); (on_goal 2 => rfl); first | assumption | with_reducible exact Keeps.refl _ | with_reducible apply Keeps.trans ?_ (onTen_keeps _ _ _) | split
    | split
    | dsimp -zeta only

theorem closeInput_keeps (h : Nat) (s : State) : Keeps s (closeInput h s) := by
  unfold closeInput
  repeat' first
    | assumption
    | with_reducible exact Keeps.refl _
    | with_reducible apply Keeps.trans ?_ (countFixes_keeps _ _ _)
    | with_reducible apply Keeps.trans ?_ (stampQueue_keeps _ _)
    | with_reducible apply Keeps.trans ?_ (emitOut_keeps _ _ _ _)
    | with_reducible apply Keeps.trans ?_ (setSess_keeps _ _)
    | extract_lets
    | (with_reducible apply Keeps.lit ?_ ?_ ?_ ?_ ?_ ?_); (on_goal 2 => rfl); (on_goal 2 => rfl); (on_goal 2 => rfl); (on_goal 2 => rfl); (on_goal 2 => rfl); first | assumption | with_reducible exact Keeps.refl _ | with_reducible apply Keeps.trans ?_ (countFixes_keeps _ _ _) | with_reducible apply Keeps.trans ?_ (stampQueue_keeps _ _) | with_reducible apply Keeps.trans ?_ (emitOut_keeps _ _ _ _) | with_reducible apply Keeps.trans ?_ (setSess_keeps _ _) | split
    | split
    | dsimp -zeta only

theorem dropQueries_keeps (h : Nat) (s : State) : Keeps s (dropQueries h s) := by
  unfold dropQueries
  repeat' first
    | assumption
    | with_reducible exact Keeps.refl _
    | with_reducible apply Keeps.trans ?_ (onSess_keeps _ _ _)
    | extract_lets
    | (with_reducible apply Keeps.lit ?_ ?_ ?_ ?_ ?_ ?_); (on_goal 2 => rfl); (on_goal 2 => rfl); (on_goal 2 => rfl); (on_goal 2 => rfl); (on_goal 2 => rfl); first | assumption | with_reducible exact Keeps.refl _ | with_reducible apply Keeps.trans ?_ (onSess_keeps _ _ _) | split
    | split
    | dsimp -zeta only

theorem flushHeld_keeps (b : Bool) (x : Session) (r : Request) (s : State) : Keeps s (flushHeld b x r s) := by
  unfold flushHeld
  repeat' first
    | assumption
    | with_reducible exact Keeps.refl _
    | with_reducible apply Keeps.trans ?_ (emitSes_keeps _ _ _ _)
    | extract_lets
    | split
    | dsimp -zeta only

theorem answerGone_keeps (x : Session) (c : Instr) (s : State) : Keeps s (answerGone x c s) := by
  unfold answerGone
  repeat' first
    | assumption
    | with_reducible exact Keeps.refl _
    | with_reducible apply Keeps.trans ?_ (emitOut_keeps _ _ _ _)
    | extract_lets
    | (with_reducible apply Keeps.lit ?_ ?_ ?_ ?_ ?_ ?_); (on_goal 2 => rfl); (on_goal 2 => rfl); (on_goal 2 => rfl); (on_goal 2 => rfl); (on_goal 2 => rfl); first | assumption | with_reducible exact Keeps.refl _ | with_reducible apply Keeps.trans ?_ (emitOut_keeps _ _ _ _) | split
    | split
    | dsimp -zeta only

theorem freeSession_keeps (h : Nat) (s : State) : Keeps s (freeSession h s) := by
  unfold freeSession
  repeat' first
    | assumption
    | with_reducible exact Keeps.refl _
    | with_reducible apply Keeps.trans ?_ (forEach_keeps _ _ _ (fun _ _ => ?_))
    | with_reducible apply Keeps.trans ?_ (answerGone_keeps _ _ _)
    | with_reducible apply Keeps.trans ?_ (anchor_keeps _ _ _)
    | with_reducible apply Keeps.trans ?_ (deleteSessObjs_keeps _ _)
    | with_reducible apply Keeps.trans ?_ (releasePlaces_keeps _ _)
    | with_reducible apply Keeps.trans ?_ (tellDirectory_keeps _ _ _ _)
    | with_reducible apply Keeps.trans ?_ (dropSess_keeps _ _)
    | (with_reducible apply Keeps.lit ?_ ?_ ?_ ?_ ?_ ?_); (on_goal 2 => rfl); (on_goal 2 => rfl); (on_goal 2 => rfl); (on_goal 2 => rfl); (on_goal 2 => rfl); first | assumption | with_reducible exact Keeps.refl _ | with_reducible apply Keeps.trans ?_ (forEach_keeps _ _ _ (fun _ _ => ?_)) | with_reducible apply Keeps.trans ?_ (answerGone_keeps _ _ _) | with_reducible apply Keeps.trans ?_ (anchor_keeps _ _ _) | with_reducible apply Keeps.trans ?_ (deleteSessObjs_keeps _ _) | with_reducible apply Keeps.trans ?_ (releasePlaces_keeps _ _) | with_reducible apply Keeps.trans ?_ (tellDirectory_keeps _ _ _ _) | with_reducible apply Keeps.trans ?_ (dropSess_keeps _ _) | split
    | split
    | dsimp -zeta only

theorem endRequest_keeps (b : Bool) (h : Nat) (o : OCode) (ans : Option Ask) (deliver : Bool) (d0 d1 : Nat) (s : State) : Keeps s (endRequest b h o ans deliver d0 d1 s) := by
  unfold endRequest
  repeat' first
    | assumption
    | with_reducible exact Keeps.refl _
    | with_reducible apply Keeps.trans ?_ (flushHeld_keeps _ _ _ _)
    | with_reducible apply Keeps.trans ?_ (dropQueries_keeps _ _)
    | with_reducible apply Keeps.trans ?_ (arm_keeps _ _)
    | with_reducible apply Keeps.trans ?_ (emitOut_keeps _ _ _ _)
    | with_reducible apply Keeps.trans ?_ (settle_keeps _ _ _ _)
    | with_reducible apply Keeps.trans ?_ (onSess_keeps _ _ _)
    | extract_lets
    | (with_reducible apply Keeps.lit ?_ ?_ ?_ ?_ ?_ ?_); (on_goal 2 => rfl); (on_goal 2 => rfl); (on_goal 2 => rfl); (on_goal 2 => rfl); (on_goal 2 => rfl); first | assumption | with_reducible exact Keeps.refl _ | with_reducible apply Keeps.trans ?_ (flushHeld_keeps _ _ _ _) | with_reducible apply Keeps.trans ?_ (dropQueries_keeps _ _) | with_reducible apply Keeps.trans ?_ (arm_keeps _ _) | with_reducible apply Keeps.trans ?_ (emitOut_keeps _ _ _ _) | with_reducible apply Keeps.trans ?_ (settle_keeps _ _ _ _) | with_reducible apply Keeps.trans ?_ (onSess_keeps _ _ _) | split
    | split
    | dsimp -zeta only

theorem answerAsk_keeps (b : Bool) (h : Nat) (a : Ask) (o : OCode) (d0 : Nat) (s : State) : Keeps s (answerAsk b h a o d0 s) := by
  unfold answerAsk
  repeat' first
    | assumption
    | with_reducible exact Keeps.refl _
    | with_reducible apply Keeps.trans ?_ (emitOut_keeps _ _ _ _)
    | with_reducible apply Keeps.trans ?_ (settle_keeps _ _ _ _)
    | (with_reducible apply Keeps.lit ?_ ?_ ?_ ?_ ?_ ?_); (on_goal 2 => rfl); (on_goal 2 => rfl); (on_goal 2 => rfl); (on_goal 2 => rfl); (on_goal 2 => rfl); first | assumption | with_reducible exact Keeps.refl _ | with_reducible apply Keeps.trans ?_ (emitOut_keeps _ _ _ _) | with_reducible apply Keeps.trans ?_ (settle_keeps _ _ _ _) | split
    | split
    | dsimp -zeta only

theorem freeSpent_keeps (h : Nat) (s : State) : Keeps s (freeSpent h s) := by
  unfold freeSpent
  repeat' first
    | assumption
    | with_reducible exact Keeps.refl _
    | with_reducible apply Keeps.trans ?_ (freeSession_keeps _ _)
    | (with_reducible apply Keeps.lit ?_ ?_ ?_ ?_ ?_ ?_); (on_goal 2 => rfl); (on_goal 2 => rfl); (on_goal 2 => rfl); (on_goal 2 => rfl); (on_goal 2 => rfl); first | assumption | with_reducible exact Keeps.refl _ | with_reducible apply Keeps.trans ?_ (freeSession_keeps _ _) | split
    | split
    | dsimp -zeta only

theorem releaseContent_keeps (st : SState) (h : Nat) (s : State) : Keeps s (releaseContent st h s) := by
  unfold releaseContent
  repeat' first
    | assumption
    | with_reducible exact Keeps.refl _
    | with_reducible apply Keeps.trans ?_ (dropQueries_keeps _ _)
    | with_reducible apply Keeps.trans ?_ (deleteSessObjs_keeps _ _)
    | with_reducible apply Keeps.trans ?_ (releasePlaces_keeps _ _)
    | with_reducible apply Keeps.trans ?_ (setSess_keeps _ _)
    | extract_lets
    | (with_reducible apply Keeps.lit ?_ ?_ ?_ ?_ ?_ ?_); (on_goal 2 => rfl); (on_goal 2 => rfl); (on_goal 2 => rfl); (on_goal 2 => rfl); (on_goal 2 => rfl); first | assumption | with_reducible exact Keeps.refl _ | with_reducible apply Keeps.trans ?_ (dropQueries_keeps _ _) | with_reducible apply Keeps.trans ?_ (deleteSessObjs_keeps _ _) | with_reducible apply Keeps.trans ?_ (releasePlaces_keeps _ _) | with_reducible apply Keeps.trans ?_ (setSess_keeps _ _) | split
    | split
    | dsimp -zeta only

theorem closeSession_keeps (h : Nat) (s : State) : Keeps s (closeSession h s) := by
  unfold closeSession
  repeat' first
    | assumption
    | with_reducible exact Keeps.refl _
    | with_reducible apply Keeps.trans ?_ (releaseContent_keeps _ _ _)
    | with_reducible apply Keeps.trans ?_ (anchor_keeps _ _ _)
    | with_reducible apply Keeps.trans ?_ (tellDirectory_keeps _ _ _ _)
    | dsimp -zeta only

theorem loseSession_keeps (b : Bool) (h : Nat) (s : State) : Keeps s (loseSession b h s) := by
  unfold loseSession
  repeat' first
    | assumption
    | with_reducible exact Keeps.refl _
    | with_reducible apply Keeps.trans ?_ (releaseContent_keeps _ _ _)
    | with_reducible apply Keeps.trans ?_ (answerAsk_keeps _ _ _ _ _ _)
    | with_reducible apply Keeps.trans ?_ (anchor_keeps _ _ _)
    | with_reducible apply Keeps.trans ?_ (tellDirectory_keeps _ _ _ _)
    | with_reducible apply Keeps.trans ?_ (emitOut_keeps _ _ _ _)
    | with_reducible apply Keeps.trans ?_ (settle_keeps _ _ _ _)
    | with_reducible apply Keeps.trans ?_ (onSess_keeps _ _ _)
    | extract_lets
    | (with_reducible apply Keeps.lit ?_ ?_ ?_ ?_ ?_ ?_); (on_goal 2 => rfl); (on_goal 2 => rfl); (on_goal 2 => rfl); (on_goal 2 => rfl); (on_goal 2 => rfl); first | assumption | with_reducible exact Keeps.refl _ | with_reducible apply Keeps.trans ?_ (releaseContent_keeps _ _ _) | with_reducible apply Keeps.trans ?_ (answerAsk_keeps _ _ _ _ _ _) | with_reducible apply Keeps.trans ?_ (anchor_keeps _ _ _) | with_reducible apply Keeps.trans ?_ (tellDirectory_keeps _ _ _ _) | with_reducible apply Keeps.trans ?_ (emitOut_keeps _ _ _ _) | with_reducible apply Keeps.trans ?_ (settle_keeps _ _ _ _) | with_reducible apply Keeps.trans ?_ (onSess_keeps _ _ _) | split
    | split
    | dsimp -zeta only

theorem truncateSession_keeps (b : Bool) (h q : Nat) (s : State) : Keeps s (truncateSession b h q s) := by
  unfold truncateSession
  repeat' first
    | assumption
    | with_reducible exact Keeps.refl _
    | with_reducible apply Keeps.trans ?_ (endRequest_keeps _ _ _ _ _ _ _ _)
    | with_reducible apply Keeps.trans ?_ (flushHeld_keeps _ _ _ _)
    | with_reducible apply Keeps.trans ?_ (rewind_keeps _ _ _)
    | with_reducible apply Keeps.trans ?_ (emitOut_keeps _ _ _ _)
    | extract_lets
    | (with_reducible apply Keeps.lit ?_ ?_ ?_ ?_ ?_ ?_); (on_goal 2 => rfl); (on_goal 2 => rfl); (on_goal 2 => rfl); (on_goal 2 => rfl); (on_goal 2 => rfl); first | assumption | with_reducible exact Keeps.refl _ | with_reducible apply Keeps.trans ?_ (endRequest_keeps _ _ _ _ _ _ _ _) | with_reducible apply Keeps.trans ?_ (flushHeld_keeps _ _ _ _) | with_reducible apply Keeps.trans ?_ (rewind_keeps _ _ _) | with_reducible apply Keeps.trans ?_ (emitOut_keeps _ _ _ _) | split
    | split
    | dsimp -zeta only

theorem countPressure_keeps (demotion : Bool) (partition : Nat) (s : State) : Keeps s (countPressure demotion partition s) := by
  unfold countPressure
  repeat' first
    | assumption
    | with_reducible exact Keeps.refl _
    | extract_lets
    | (with_reducible apply Keeps.lit ?_ ?_ ?_ ?_ ?_ ?_); (on_goal 2 => rfl); (on_goal 2 => rfl); (on_goal 2 => rfl); (on_goal 2 => rfl); (on_goal 2 => rfl); first | assumption | with_reducible exact Keeps.refl _ | split
    | split
    | dsimp -zeta only

theorem streamFrozen_keeps (h : Nat) (s : State) : Keeps s (streamFrozen h s) := by
  unfold streamFrozen
  repeat' first
    | assumption
    | with_reducible exact Keeps.refl _
    | with_reducible apply Keeps.trans ?_ (startPoolStream_keeps _ _ _ _ _)
    | extract_lets
    | (with_reducible apply Keeps.lit ?_ ?_ ?_ ?_ ?_ ?_); (on_goal 2 => rfl); (on_goal 2 => rfl); (on_goal 2 => rfl); (on_goal 2 => rfl); (on_goal 2 => rfl); first | assumption | with_reducible exact Keeps.refl _ | with_reducible apply Keeps.trans ?_ (startPoolStream_keeps _ _ _ _ _) | split
    | split
    | dsimp -zeta only

theorem streamRevived_keeps (h : Nat) (s : State) : Keeps s (streamRevived h s) := by
  unfold streamRevived
  repeat' first
    | assumption
    | with_reducible exact Keeps.refl _
    | with_reducible apply Keeps.trans ?_ (startPoolStream_keeps _ _ _ _ _)
    | with_reducible apply Keeps.trans ?_ (startStream_keeps _ _)
    | extract_lets
    | (with_reducible apply Keeps.lit ?_ ?_ ?_ ?_ ?_ ?_); (on_goal 2 => rfl); (on_goal 2 => rfl); (on_goal 2 => rfl); (on_goal 2 => rfl); (on_goal 2 => rfl); first | assumption | with_reducible exact Keeps.refl _ | with_reducible apply Keeps.trans ?_ (startPoolStream_keeps _ _ _ _ _) | with_reducible apply Keeps.trans ?_ (startStream_keeps _ _) | split
    | split
    | dsimp -zeta only

theorem startDemotion_keeps (pressure : Bool) (h : Nat) (s : State) : Keeps s (startDemotion pressure h s) := by
  unfold startDemotion
  repeat' first
    | assumption
    | with_reducible exact Keeps.refl _
    | with_reducible apply Keeps.trans ?_ (streamFrozen_keeps _ _)
    | with_reducible apply Keeps.trans ?_ (countPressure_keeps _ _ _)
    | with_reducible apply Keeps.trans ?_ (closeInput_keeps _ _)
    | with_reducible apply Keeps.trans ?_ (onSess_keeps _ _ _)
    | extract_lets
    | (with_reducible apply Keeps.lit ?_ ?_ ?_ ?_ ?_ ?_); (on_goal 2 => rfl); (on_goal 2 => rfl); (on_goal 2 => rfl); (on_goal 2 => rfl); (on_goal 2 => rfl); first | assumption | with_reducible exact Keeps.refl _ | with_reducible apply Keeps.trans ?_ (streamFrozen_keeps _ _) | with_reducible apply Keeps.trans ?_ (countPressure_keeps _ _ _) | with_reducible apply Keeps.trans ?_ (closeInput_keeps _ _) | with_reducible apply Keeps.trans ?_ (onSess_keeps _ _ _) | split
    | split
    | dsimp -zeta only

theorem queueRevival_keeps (x : Session) (s : State) : Keeps s (queueRevival x s) := by
  unfold queueRevival
  repeat' first
    | assumption
    | with_reducible exact Keeps.refl _
    | (with_reducible apply Keeps.lit ?_ ?_ ?_ ?_ ?_ ?_); (on_goal 2 => rfl); (on_goal 2 => rfl); (on_goal 2 => rfl); (on_goal 2 => rfl); (on_goal 2 => rfl); first | assumption | with_reducible exact Keeps.refl _ | split
    | split
    | dsimp -zeta only

theorem freezeIn_keeps (x : Session) (kib : Nat) (put : List Nat → State → State) (hp : ∀ l t, Keeps t (put l t)) (s : State) :
    Keeps s (freezeIn x kib put s) := by
  unfold freezeIn
  split
  · exact (drawFree_keeps _).trans (hp _ _)
  · exact Keeps.refl _

theorem freezeAll_keeps (h : Nat) (s : State) : Keeps s (freezeAll h s) := by
  unfold freezeAll
  repeat' first
    | assumption
    | with_reducible exact Keeps.refl _
    | with_reducible apply Keeps.trans ?_ (forEach_keeps _ _ _ (fun _ _ => ?_))
    | with_reducible apply Keeps.trans ?_ (freezeIn_keeps _ _ _ (fun _ _ => ?_) _)
    | with_reducible apply Keeps.trans ?_ (onLeaf_keeps _ _ _ _)
    | with_reducible apply Keeps.trans ?_ (onBlk_keeps _ _ _ _)
    | with_reducible apply Keeps.trans ?_ (onPage_keeps _ _ _ _ _)
    | with_reducible apply Keeps.trans ?_ (onSess_keeps _ _ _)
    | extract_lets
    | (with_reducible apply Keeps.lit ?_ ?_ ?_ ?_ ?_ ?_); (on_goal 2 => rfl); (on_goal 2 => rfl); (on_goal 2 => rfl); (on_goal 2 => rfl); (on_goal 2 => rfl); first | assumption | with_reducible exact Keeps.refl _ | with_reducible apply Keeps.trans ?_ (forEach_keeps _ _ _ (fun _ _ => ?_)) | with_reducible apply Keeps.trans ?_ (freezeIn_keeps _ _ _ (fun _ _ => ?_) _) | with_reducible apply Keeps.trans ?_ (onLeaf_keeps _ _ _ _) | with_reducible apply Keeps.trans ?_ (onBlk_keeps _ _ _ _) | with_reducible apply Keeps.trans ?_ (onPage_keeps _ _ _ _ _) | with_reducible apply Keeps.trans ?_ (onSess_keeps _ _ _) | split
    | split
    | dsimp -zeta only

theorem commitDemotion_keeps (h : Nat) (s0 : State) : Keeps s0 (commitDemotion h s0) := by
  unfold commitDemotion
  repeat' first
    | assumption
    | with_reducible exact Keeps.refl _
    | with_reducible apply Keeps.trans ?_ (freezeAll_keeps _ _)
    | with_reducible apply Keeps.trans ?_ (queueRevival_keeps _ _)
    | with_reducible apply Keeps.trans ?_ (closeInput_keeps _ _)
    | with_reducible apply Keeps.trans ?_ (arm_keeps _ _)
    | with_reducible apply Keeps.trans ?_ (anchor_keeps _ _ _)
    | with_reducible apply Keeps.trans ?_ (seat_keeps _ _)
    | with_reducible apply Keeps.trans ?_ (endStream_keeps _ _)
    | with_reducible apply Keeps.trans ?_ (onSess_keeps _ _ _)
    | extract_lets
    | (with_reducible apply Keeps.lit ?_ ?_ ?_ ?_ ?_ ?_); (on_goal 2 => rfl); (on_goal 2 => rfl); (on_goal 2 => rfl); (on_goal 2 => rfl); (on_goal 2 => rfl); first | assumption | with_reducible exact Keeps.refl _ | with_reducible apply Keeps.trans ?_ (freezeAll_keeps _ _) | with_reducible apply Keeps.trans ?_ (queueRevival_keeps _ _) | with_reducible apply Keeps.trans ?_ (closeInput_keeps _ _) | with_reducible apply Keeps.trans ?_ (arm_keeps _ _) | with_reducible apply Keeps.trans ?_ (anchor_keeps _ _ _) | with_reducible apply Keeps.trans ?_ (seat_keeps _ _) | with_reducible apply Keeps.trans ?_ (endStream_keeps _ _) | with_reducible apply Keeps.trans ?_ (onSess_keeps _ _ _) | split
    | split
    | dsimp -zeta only

theorem startRevival_keeps (h : Nat) (s : State) : Keeps s (startRevival h s) := by
  unfold startRevival
  repeat' first
    | assumption
    | with_reducible exact Keeps.refl _
    | with_reducible apply Keeps.trans ?_ (streamRevived_keeps _ _)
    | with_reducible apply Keeps.trans ?_ (arm_keeps _ _)
    | with_reducible apply Keeps.trans ?_ (onSess_keeps _ _ _)
    | extract_lets
    | (with_reducible apply Keeps.lit ?_ ?_ ?_ ?_ ?_ ?_); (on_goal 2 => rfl); (on_goal 2 => rfl); (on_goal 2 => rfl); (on_goal 2 => rfl); (on_goal 2 => rfl); first | assumption | with_reducible exact Keeps.refl _ | with_reducible apply Keeps.trans ?_ (streamRevived_keeps _ _) | with_reducible apply Keeps.trans ?_ (arm_keeps _ _) | with_reducible apply Keeps.trans ?_ (onSess_keeps _ _ _) | split
    | split
    | dsimp -zeta only

theorem commitRevival_keeps (h : Nat) (s : State) : Keeps s (commitRevival h s) := by
  unfold commitRevival
  repeat' first
    | assumption
    | with_reducible exact Keeps.refl _
    | with_reducible apply Keeps.trans ?_ (arm_keeps _ _)
    | with_reducible apply Keeps.trans ?_ (dropAnchors_keeps _ _ _)
    | with_reducible apply Keeps.trans ?_ (anchor_keeps _ _ _)
    | with_reducible apply Keeps.trans ?_ (seat_keeps _ _)
    | with_reducible apply Keeps.trans ?_ (endStream_keeps _ _)
    | with_reducible apply Keeps.trans ?_ (releasePlaces_keeps _ _)
    | with_reducible apply Keeps.trans ?_ (drawFree_keeps _)
    | with_reducible apply Keeps.trans ?_ (setSess_keeps _ _)
    | extract_lets
    | (with_reducible apply Keeps.lit ?_ ?_ ?_ ?_ ?_ ?_); (on_goal 2 => rfl); (on_goal 2 => rfl); (on_goal 2 => rfl); (on_goal 2 => rfl); (on_goal 2 => rfl); first | assumption | with_reducible exact Keeps.refl _ | with_reducible apply Keeps.trans ?_ (arm_keeps _ _) | with_reducible apply Keeps.trans ?_ (dropAnchors_keeps _ _ _) | with_reducible apply Keeps.trans ?_ (anchor_keeps _ _ _) | with_reducible apply Keeps.trans ?_ (seat_keeps _ _) | with_reducible apply Keeps.trans ?_ (endStream_keeps _ _) | with_reducible apply Keeps.trans ?_ (releasePlaces_keeps _ _) | with_reducible apply Keeps.trans ?_ (drawFree_keeps _) | with_reducible apply Keeps.trans ?_ (setSess_keeps _ _) | split
    | split
    | dsimp -zeta only

theorem parkFallback_keeps (b : Bool) (o : OCode) (ask : Option Ask) (h : Nat) (s : State) : Keeps s (parkFallback b o ask h s) := by
  unfold parkFallback
  repeat' first
    | assumption
    | with_reducible exact Keeps.refl _
    | with_reducible apply Keeps.trans ?_ (startDemotion_keeps _ _ _)
    | with_reducible apply Keeps.trans ?_ (answerAsk_keeps _ _ _ _ _ _)
    | with_reducible apply Keeps.trans ?_ (onNs_keeps _ _ _)
    | with_reducible apply Keeps.trans ?_ (onSess_keeps _ _ _)
    | extract_lets
    | (with_reducible apply Keeps.lit ?_ ?_ ?_ ?_ ?_ ?_); (on_goal 2 => rfl); (on_goal 2 => rfl); (on_goal 2 => rfl); (on_goal 2 => rfl); (on_goal 2 => rfl); first | assumption | with_reducible exact Keeps.refl _ | with_reducible apply Keeps.trans ?_ (startDemotion_keeps _ _ _) | with_reducible apply Keeps.trans ?_ (answerAsk_keeps _ _ _ _ _ _) | with_reducible apply Keeps.trans ?_ (onNs_keeps _ _ _) | with_reducible apply Keeps.trans ?_ (onSess_keeps _ _ _) | split
    | split
    | dsimp -zeta only

theorem startPark_keeps (b : Bool) (quantise : Bool) (ask : Option Ask) (h : Nat) (s0 : State) : Keeps s0 (startPark b quantise ask h s0) := by
  unfold startPark
  repeat' first
    | assumption
    | with_reducible exact Keeps.refl _
    | with_reducible apply Keeps.trans ?_ (parkFallback_keeps _ _ _ _ _)
    | with_reducible apply Keeps.trans ?_ (closeInput_keeps _ _)
    | with_reducible apply Keeps.trans ?_ (reserveObject_keeps _ _ _ _ _)
    | with_reducible apply Keeps.trans ?_ (onSess_keeps _ _ _)
    | extract_lets
    | (with_reducible apply Keeps.lit ?_ ?_ ?_ ?_ ?_ ?_); (on_goal 2 => rfl); (on_goal 2 => rfl); (on_goal 2 => rfl); (on_goal 2 => rfl); (on_goal 2 => rfl); first | assumption | with_reducible exact Keeps.refl _ | with_reducible apply Keeps.trans ?_ (parkFallback_keeps _ _ _ _ _) | with_reducible apply Keeps.trans ?_ (closeInput_keeps _ _) | with_reducible apply Keeps.trans ?_ (reserveObject_keeps _ _ _ _ _) | with_reducible apply Keeps.trans ?_ (onSess_keeps _ _ _) | split
    | split
    | dsimp -zeta only

theorem commitPark_keeps (h : Nat) (s : State) : Keeps s (commitPark h s) := by
  unfold commitPark
  repeat' first
    | assumption
    | with_reducible exact Keeps.refl _
    | with_reducible apply Keeps.trans ?_ (answerAsk_keeps _ _ _ _ _ _)
    | with_reducible apply Keeps.trans ?_ (arm_keeps _ _)
    | with_reducible apply Keeps.trans ?_ (dropAnchors_keeps _ _ _)
    | with_reducible apply Keeps.trans ?_ (anchor_keeps _ _ _)
    | with_reducible apply Keeps.trans ?_ (deleteObjs_keeps _ _ _)
    | with_reducible apply Keeps.trans ?_ (onObj_keeps _ _ _)
    | with_reducible apply Keeps.trans ?_ (journal_keeps _ _ _)
    | with_reducible apply Keeps.trans ?_ (releasePlaces_keeps _ _)
    | with_reducible apply Keeps.trans ?_ (onSess_keeps _ _ _)
    | extract_lets
    | (with_reducible apply Keeps.lit ?_ ?_ ?_ ?_ ?_ ?_); (on_goal 2 => rfl); (on_goal 2 => rfl); (on_goal 2 => rfl); (on_goal 2 => rfl); (on_goal 2 => rfl); first | assumption | with_reducible exact Keeps.refl _ | with_reducible apply Keeps.trans ?_ (answerAsk_keeps _ _ _ _ _ _) | with_reducible apply Keeps.trans ?_ (arm_keeps _ _) | with_reducible apply Keeps.trans ?_ (dropAnchors_keeps _ _ _) | with_reducible apply Keeps.trans ?_ (anchor_keeps _ _ _) | with_reducible apply Keeps.trans ?_ (deleteObjs_keeps _ _ _) | with_reducible apply Keeps.trans ?_ (onObj_keeps _ _ _) | with_reducible apply Keeps.trans ?_ (journal_keeps _ _ _) | with_reducible apply Keeps.trans ?_ (releasePlaces_keeps _ _) | with_reducible apply Keeps.trans ?_ (onSess_keeps _ _ _) | split
    | split
    | dsimp -zeta only

theorem abandonOp_keeps (b : Bool) (h : Nat) (s : State) : Keeps s (abandonOp b h s) := by
  unfold abandonOp
  repeat' first
    | assumption
    | with_reducible exact Keeps.refl _
    | with_reducible apply Keeps.trans ?_ (answerAsk_keeps _ _ _ _ _ _)
    | with_reducible apply Keeps.trans ?_ (deleteObjs_keeps _ _ _)
    | with_reducible apply Keeps.trans ?_ (endStream_keeps _ _)
    | with_reducible apply Keeps.trans ?_ (onSess_keeps _ _ _)
    | extract_lets
    | (with_reducible apply Keeps.lit ?_ ?_ ?_ ?_ ?_ ?_); (on_goal 2 => rfl); (on_goal 2 => rfl); (on_goal 2 => rfl); (on_goal 2 => rfl); (on_goal 2 => rfl); first | assumption | with_reducible exact Keeps.refl _ | with_reducible apply Keeps.trans ?_ (answerAsk_keeps _ _ _ _ _ _) | with_reducible apply Keeps.trans ?_ (deleteObjs_keeps _ _ _) | with_reducible apply Keeps.trans ?_ (endStream_keeps _ _) | with_reducible apply Keeps.trans ?_ (onSess_keeps _ _ _) | split
    | split
    | dsimp -zeta only

theorem passTime_keeps (us : Nat) (s : State) : Keeps s (passTime us s) := by
  unfold passTime
  repeat' first
    | assumption
    | with_reducible exact Keeps.refl _
    | with_reducible apply Keeps.trans ?_ (tickMeters_keeps _ _)
    | extract_lets
    | (with_reducible apply Keeps.lit ?_ ?_ ?_ ?_ ?_ ?_); (on_goal 2 => rfl); (on_goal 2 => rfl); (on_goal 2 => rfl); (on_goal 2 => rfl); (on_goal 2 => rfl); first | assumption | with_reducible exact Keeps.refl _ | with_reducible apply Keeps.trans ?_ (tickMeters_keeps _ _)
    | dsimp -zeta only

theorem refuseEarly_keeps (m : Sprue) (o : OCode) (d0 d1 : Nat) (s : State) : Keeps s (refuseEarly m o d0 d1 s) := by
  unfold refuseEarly
  repeat' first
    | assumption
    | with_reducible exact Keeps.refl _
    | with_reducible apply Keeps.trans ?_ (answerFn_keeps _ _ _)
    | split
    | dsimp -zeta only

theorem answerMsg_keeps (m : Sprue) (o : OCode) (d0 d1 : Nat) (s : State) : Keeps s (answerMsg m o d0 d1 s) := by
  unfold answerMsg
  repeat' first
    | assumption
    | with_reducible exact Keeps.refl _
    | with_reducible apply Keeps.trans ?_ (emitOut_keeps _ _ _ _)
    | with_reducible apply Keeps.trans ?_ (answerFn_keeps _ _ _)
    | with_reducible apply Keeps.trans ?_ (settle_keeps _ _ _ _)
    | extract_lets
    | (with_reducible apply Keeps.lit ?_ ?_ ?_ ?_ ?_ ?_); (on_goal 2 => rfl); (on_goal 2 => rfl); (on_goal 2 => rfl); (on_goal 2 => rfl); (on_goal 2 => rfl); first | assumption | with_reducible exact Keeps.refl _ | with_reducible apply Keeps.trans ?_ (emitOut_keeps _ _ _ _) | with_reducible apply Keeps.trans ?_ (answerFn_keeps _ _ _) | with_reducible apply Keeps.trans ?_ (settle_keeps _ _ _ _) | split
    | split
    | dsimp -zeta only

theorem refuse_keeps (m : Sprue) (reason : Nat) (s : State) : Keeps s (refuse m reason s) := by
  unfold refuse
  repeat' first
    | assumption
    | with_reducible exact Keeps.refl _
    | with_reducible apply Keeps.trans ?_ (answerMsg_keeps _ _ _ _ _)
    | dsimp -zeta only

theorem carried_keeps (m : Sprue) (s : State) : Keeps s (carried m s) := by
  unfold carried
  repeat' first
    | assumption
    | with_reducible exact Keeps.refl _
    | with_reducible apply Keeps.trans ?_ (settle_keeps _ _ _ _)
    | dsimp -zeta only

theorem notHeld_keeps (c : Instr) (m : Sprue) (s : State) : Keeps s (notHeld c m s) := by
  unfold notHeld
  repeat' first
    | assumption
    | with_reducible exact Keeps.refl _
    | with_reducible apply Keeps.trans ?_ (refuseEarly_keeps _ _ _ _ _)
    | with_reducible apply Keeps.trans ?_ (sendMgr_keeps _ _ _ _ _ _ _)
    | extract_lets
    | (with_reducible apply Keeps.lit ?_ ?_ ?_ ?_ ?_ ?_); (on_goal 2 => rfl); (on_goal 2 => rfl); (on_goal 2 => rfl); (on_goal 2 => rfl); (on_goal 2 => rfl); first | assumption | with_reducible exact Keeps.refl _ | with_reducible apply Keeps.trans ?_ (refuseEarly_keeps _ _ _ _ _) | with_reducible apply Keeps.trans ?_ (sendMgr_keeps _ _ _ _ _ _ _) | split
    | split
    | dsimp -zeta only

theorem answerDuplicate_keeps (m : Sprue) (e : Option WinEntry) (s : State) : Keeps s (answerDuplicate m e s) := by
  unfold answerDuplicate
  repeat' first
    | assumption
    | with_reducible exact Keeps.refl _
    | with_reducible apply Keeps.trans ?_ (emitOut_keeps _ _ _ _)
    | with_reducible apply Keeps.trans ?_ (answerFn_keeps _ _ _)
    | extract_lets
    | (with_reducible apply Keeps.lit ?_ ?_ ?_ ?_ ?_ ?_); (on_goal 2 => rfl); (on_goal 2 => rfl); (on_goal 2 => rfl); (on_goal 2 => rfl); (on_goal 2 => rfl); first | assumption | with_reducible exact Keeps.refl _ | with_reducible apply Keeps.trans ?_ (emitOut_keeps _ _ _ _) | with_reducible apply Keeps.trans ?_ (answerFn_keeps _ _ _) | split
    | split
    | dsimp -zeta only

theorem keepImage_keeps (h : Nat) (s : State) : Keeps s (keepImage h s) := by
  unfold keepImage
  repeat' first
    | assumption
    | with_reducible exact Keeps.refl _
    | (with_reducible apply Keeps.lit ?_ ?_ ?_ ?_ ?_ ?_); (on_goal 2 => rfl); (on_goal 2 => rfl); (on_goal 2 => rfl); (on_goal 2 => rfl); (on_goal 2 => rfl); first | assumption | with_reducible exact Keeps.refl _ | split
    | split
    | dsimp -zeta only

theorem mirrorTaken_keeps (s : State) : Keeps s (mirrorTaken s) := by
  unfold mirrorTaken
  repeat' first
    | assumption
    | with_reducible exact Keeps.refl _
    | (with_reducible apply Keeps.lit ?_ ?_ ?_ ?_ ?_ ?_); (on_goal 2 => rfl); (on_goal 2 => rfl); (on_goal 2 => rfl); (on_goal 2 => rfl); (on_goal 2 => rfl); first | assumption | with_reducible exact Keeps.refl _
    | dsimp -zeta only

theorem checkWindow_keeps (m : Sprue) (body : State → State) (hb : ∀ t, Keeps t (body t)) (s : State) : Keeps s (checkWindow m body s) := by
  unfold checkWindow
  dsimp only
  split
  · exact answerDuplicate_keeps _ _ _
  · exact answerDuplicate_keeps _ _ _
  · have h := (keepImage_keeps (msgHandle m) s).trans (onWindow_keeps (msgWin m) (fun w => windowEnter w (msgSeq m) (msgOpcode m)) _)
    split
    · exact h.trans (answerMsg_keeps _ _ _ _ _)
    · exact h.trans (hb _)

theorem checkPolice_keeps (m : Sprue) (body : State → State) (hb : ∀ t, Keeps t (body t)) (s : State) : Keeps s (checkPolice m body s) := by
  unfold checkPolice
  dsimp only
  split
  · split
    · exact checkWindow_keeps m body hb s
    · split
      · exact (onTen_keeps _ _ _).trans (onFn_keeps _ _ _)
      · exact (onTen_keeps _ _ _).trans (checkWindow_keeps m body hb _)
  · exact checkWindow_keeps m body hb s

theorem checkOwner_keeps (c : Instr) (m : Sprue) (body : State → State) (hb : ∀ t, Keeps t (body t)) (s : State) :
    Keeps s (checkOwner c m body s) := by
  unfold checkOwner
  dsimp only
  repeat' first
    | exact answerFn_keeps _ _ _
    | exact refuseEarly_keeps _ _ _ _ _
    | exact notHeld_keeps _ _ _
    | exact checkPolice_keeps m body hb s
    | split

theorem takeMessage_keeps (c : Instr) (m : Sprue) (body : State → State) (hb : ∀ t, Keeps t (body t)) (s : State) :
    Keeps s (takeMessage c m body s) := by
  unfold takeMessage
  repeat' first
    | exact onFn_keeps _ _ _
    | exact (onFn_keeps _ _ _).trans (checkOwner_keeps c m body hb _)
    | split

theorem expire_keeps (h : Nat) (s : State) : Keeps s (expire h s) := by
  unfold expire
  repeat' first
    | assumption
    | with_reducible exact Keeps.refl _
    | with_reducible apply Keeps.trans ?_ (startPark_keeps _ _ _ _ _)
    | with_reducible apply Keeps.trans ?_ (startDemotion_keeps _ _ _)
    | with_reducible apply Keeps.trans ?_ (closeSession_keeps _ _)
    | with_reducible apply Keeps.trans ?_ (emitOut_keeps _ _ _ _)
    | extract_lets
    | (with_reducible apply Keeps.lit ?_ ?_ ?_ ?_ ?_ ?_); (on_goal 2 => rfl); (on_goal 2 => rfl); (on_goal 2 => rfl); (on_goal 2 => rfl); (on_goal 2 => rfl); first | assumption | with_reducible exact Keeps.refl _ | with_reducible apply Keeps.trans ?_ (startPark_keeps _ _ _ _ _) | with_reducible apply Keeps.trans ?_ (startDemotion_keeps _ _ _) | with_reducible apply Keeps.trans ?_ (closeSession_keeps _ _) | with_reducible apply Keeps.trans ?_ (emitOut_keeps _ _ _ _) | split
    | split
    | dsimp -zeta only

theorem stampAsk_keeps (a : Ask) (h : Nat) (s : State) : Keeps s (stampAsk a h s) := by
  unfold stampAsk
  repeat' first
    | assumption
    | with_reducible exact Keeps.refl _
    | with_reducible apply Keeps.trans ?_ (onSess_keeps _ _ _)
    | extract_lets
    | (with_reducible apply Keeps.lit ?_ ?_ ?_ ?_ ?_ ?_); (on_goal 2 => rfl); (on_goal 2 => rfl); (on_goal 2 => rfl); (on_goal 2 => rfl); (on_goal 2 => rfl); first | assumption | with_reducible exact Keeps.refl _ | with_reducible apply Keeps.trans ?_ (onSess_keeps _ _ _)
    | dsimp -zeta only

theorem stopWaiting_keeps (h : Nat) (s : State) : Keeps s (stopWaiting h s) := by
  unfold stopWaiting
  repeat' first
    | assumption
    | with_reducible exact Keeps.refl _
    | with_reducible apply Keeps.trans ?_ (arm_keeps _ _)
    | with_reducible apply Keeps.trans ?_ (onSess_keeps _ _ _)
    | (with_reducible apply Keeps.lit ?_ ?_ ?_ ?_ ?_ ?_); (on_goal 2 => rfl); (on_goal 2 => rfl); (on_goal 2 => rfl); (on_goal 2 => rfl); (on_goal 2 => rfl); first | assumption | with_reducible exact Keeps.refl _ | with_reducible apply Keeps.trans ?_ (arm_keeps _ _) | with_reducible apply Keeps.trans ?_ (onSess_keeps _ _ _) | split
    | split
    | dsimp -zeta only

theorem discardWork_keeps (w : Work) (s : State) : Keeps s (discardWork w s) := by
  unfold discardWork
  repeat' first
    | assumption
    | with_reducible exact Keeps.refl _
    | with_reducible apply Keeps.trans ?_ (dropAnchors_keeps _ _ _)
    | with_reducible apply Keeps.trans ?_ (seat_keeps _ _)
    | with_reducible apply Keeps.trans ?_ (onSess_keeps _ _ _)
    | (with_reducible apply Keeps.lit ?_ ?_ ?_ ?_ ?_ ?_); (on_goal 2 => rfl); (on_goal 2 => rfl); (on_goal 2 => rfl); (on_goal 2 => rfl); (on_goal 2 => rfl); first | assumption | with_reducible exact Keeps.refl _ | with_reducible apply Keeps.trans ?_ (dropAnchors_keeps _ _ _) | with_reducible apply Keeps.trans ?_ (seat_keeps _ _) | with_reducible apply Keeps.trans ?_ (onSess_keeps _ _ _) | split
    | split
    | dsimp -zeta only

theorem maskSlot_keeps (h : Nat) (s : State) : Keeps s (maskSlot h s) := by
  unfold maskSlot
  repeat' first
    | assumption
    | with_reducible exact Keeps.refl _
    | with_reducible apply Keeps.trans ?_ (forEach_keeps _ _ _ (fun _ _ => ?_))
    | with_reducible apply Keeps.trans ?_ (discardWork_keeps _ _)
    | extract_lets
    | (with_reducible apply Keeps.lit ?_ ?_ ?_ ?_ ?_ ?_); (on_goal 2 => rfl); (on_goal 2 => rfl); (on_goal 2 => rfl); (on_goal 2 => rfl); (on_goal 2 => rfl); first | assumption | with_reducible exact Keeps.refl _ | with_reducible apply Keeps.trans ?_ (forEach_keeps _ _ _ (fun _ _ => ?_)) | with_reducible apply Keeps.trans ?_ (discardWork_keeps _ _) | split
    | split
    | dsimp -zeta only

theorem closeNow_keeps (b : Bool) (a : Ask) (h : Nat) (s : State) : Keeps s (closeNow b a h s) := by
  unfold closeNow
  repeat' first
    | assumption
    | with_reducible exact Keeps.refl _
    | with_reducible apply Keeps.trans ?_ (maskSlot_keeps _ _)
    | with_reducible apply Keeps.trans ?_ (abandonOp_keeps _ _ _)
    | with_reducible apply Keeps.trans ?_ (closeSession_keeps _ _)
    | with_reducible apply Keeps.trans ?_ (answerAsk_keeps _ _ _ _ _ _)
    | with_reducible apply Keeps.trans ?_ (endRequest_keeps _ _ _ _ _ _ _ _)
    | with_reducible apply Keeps.trans ?_ (freeSession_keeps _ _)
    | with_reducible apply Keeps.trans ?_ (abortMigration_keeps _ _ _)
    | with_reducible apply Keeps.trans ?_ (emitOut_keeps _ _ _ _)
    | with_reducible apply Keeps.trans ?_ (settle_keeps _ _ _ _)
    | extract_lets
    | (with_reducible apply Keeps.lit ?_ ?_ ?_ ?_ ?_ ?_); (on_goal 2 => rfl); (on_goal 2 => rfl); (on_goal 2 => rfl); (on_goal 2 => rfl); (on_goal 2 => rfl); first | assumption | with_reducible exact Keeps.refl _ | with_reducible apply Keeps.trans ?_ (maskSlot_keeps _ _) | with_reducible apply Keeps.trans ?_ (abandonOp_keeps _ _ _) | with_reducible apply Keeps.trans ?_ (closeSession_keeps _ _) | with_reducible apply Keeps.trans ?_ (answerAsk_keeps _ _ _ _ _ _) | with_reducible apply Keeps.trans ?_ (endRequest_keeps _ _ _ _ _ _ _ _) | with_reducible apply Keeps.trans ?_ (freeSession_keeps _ _) | with_reducible apply Keeps.trans ?_ (abortMigration_keeps _ _ _) | with_reducible apply Keeps.trans ?_ (emitOut_keeps _ _ _ _) | with_reducible apply Keeps.trans ?_ (settle_keeps _ _ _ _) | split
    | split
    | dsimp -zeta only

theorem parkNow_keeps (b : Bool) (a : Ask) (h : Nat) (s : State) : Keeps s (parkNow b a h s) := by
  unfold parkNow
  repeat' first
    | assumption
    | with_reducible exact Keeps.refl _
    | with_reducible apply Keeps.trans ?_ (maskSlot_keeps _ _)
    | with_reducible apply Keeps.trans ?_ (startPark_keeps _ _ _ _ _)
    | with_reducible apply Keeps.trans ?_ (answerAsk_keeps _ _ _ _ _ _)
    | with_reducible apply Keeps.trans ?_ (endRequest_keeps _ _ _ _ _ _ _ _)
    | with_reducible apply Keeps.trans ?_ (freeSession_keeps _ _)
    | with_reducible apply Keeps.trans ?_ (onSess_keeps _ _ _)
    | extract_lets
    | (with_reducible apply Keeps.lit ?_ ?_ ?_ ?_ ?_ ?_); (on_goal 2 => rfl); (on_goal 2 => rfl); (on_goal 2 => rfl); (on_goal 2 => rfl); (on_goal 2 => rfl); first | assumption | with_reducible exact Keeps.refl _ | with_reducible apply Keeps.trans ?_ (maskSlot_keeps _ _) | with_reducible apply Keeps.trans ?_ (startPark_keeps _ _ _ _ _) | with_reducible apply Keeps.trans ?_ (answerAsk_keeps _ _ _ _ _ _) | with_reducible apply Keeps.trans ?_ (endRequest_keeps _ _ _ _ _ _ _ _) | with_reducible apply Keeps.trans ?_ (freeSession_keeps _ _) | with_reducible apply Keeps.trans ?_ (onSess_keeps _ _ _) | split
    | split
    | dsimp -zeta only

theorem cancelNow_keeps (b : Bool) (a : Ask) (h : Nat) (s : State) : Keeps s (cancelNow b a h s) := by
  unfold cancelNow
  repeat' first
    | assumption
    | with_reducible exact Keeps.refl _
    | with_reducible apply Keeps.trans ?_ (stopWaiting_keeps _ _)
    | with_reducible apply Keeps.trans ?_ (answerAsk_keeps _ _ _ _ _ _)
    | with_reducible apply Keeps.trans ?_ (endRequest_keeps _ _ _ _ _ _ _ _)
    | (with_reducible apply Keeps.lit ?_ ?_ ?_ ?_ ?_ ?_); (on_goal 2 => rfl); (on_goal 2 => rfl); (on_goal 2 => rfl); (on_goal 2 => rfl); (on_goal 2 => rfl); first | assumption | with_reducible exact Keeps.refl _ | with_reducible apply Keeps.trans ?_ (stopWaiting_keeps _ _) | with_reducible apply Keeps.trans ?_ (answerAsk_keeps _ _ _ _ _ _) | with_reducible apply Keeps.trans ?_ (endRequest_keeps _ _ _ _ _ _ _ _) | split
    | split
    | dsimp -zeta only

theorem dropUnwritten_keeps (h : Nat) (s : State) : Keeps s (dropUnwritten h s) := by
  unfold dropUnwritten
  repeat' first
    | assumption
    | with_reducible exact Keeps.refl _
    | extract_lets
    | (with_reducible apply Keeps.lit ?_ ?_ ?_ ?_ ?_ ?_); (on_goal 2 => rfl); (on_goal 2 => rfl); (on_goal 2 => rfl); (on_goal 2 => rfl); (on_goal 2 => rfl); first | assumption | with_reducible exact Keeps.refl _ | split
    | split
    | dsimp -zeta only

theorem bargeNow_keeps (a : Ask) (heard : Nat) (h : Nat) (s : State) : Keeps s (bargeNow a heard h s) := by
  unfold bargeNow
  repeat' first
    | assumption
    | with_reducible exact Keeps.refl _
    | with_reducible apply Keeps.trans ?_ (dropUnwritten_keeps _ _)
    | with_reducible apply Keeps.trans ?_ (maskSlot_keeps _ _)
    | with_reducible apply Keeps.trans ?_ (stopWaiting_keeps _ _)
    | with_reducible apply Keeps.trans ?_ (answerAsk_keeps _ _ _ _ _ _)
    | with_reducible apply Keeps.trans ?_ (endRequest_keeps _ _ _ _ _ _ _ _)
    | with_reducible apply Keeps.trans ?_ (rewind_keeps _ _ _)
    | extract_lets
    | (with_reducible apply Keeps.lit ?_ ?_ ?_ ?_ ?_ ?_); (on_goal 2 => rfl); (on_goal 2 => rfl); (on_goal 2 => rfl); (on_goal 2 => rfl); (on_goal 2 => rfl); first | assumption | with_reducible exact Keeps.refl _ | with_reducible apply Keeps.trans ?_ (dropUnwritten_keeps _ _) | with_reducible apply Keeps.trans ?_ (maskSlot_keeps _ _) | with_reducible apply Keeps.trans ?_ (stopWaiting_keeps _ _) | with_reducible apply Keeps.trans ?_ (answerAsk_keeps _ _ _ _ _ _) | with_reducible apply Keeps.trans ?_ (endRequest_keeps _ _ _ _ _ _ _ _) | with_reducible apply Keeps.trans ?_ (rewind_keeps _ _ _) | split
    | split
    | dsimp -zeta only

theorem hold_keeps (c : Instr) (h : Nat) (s : State) : Keeps s (hold c h s) := by
  unfold hold
  repeat' first
    | assumption
    | with_reducible exact Keeps.refl _
    | with_reducible apply Keeps.trans ?_ (onSess_keeps _ _ _)
    | (with_reducible apply Keeps.lit ?_ ?_ ?_ ?_ ?_ ?_); (on_goal 2 => rfl); (on_goal 2 => rfl); (on_goal 2 => rfl); (on_goal 2 => rfl); (on_goal 2 => rfl); first | assumption | with_reducible exact Keeps.refl _ | with_reducible apply Keeps.trans ?_ (onSess_keeps _ _ _) | split
    | split
    | dsimp -zeta only

theorem inState_keeps (c : Instr) (m : Sprue) (soon : Bool) (closed body : State → State) (hc : ∀ t, Keeps t (closed t))
    (hb : ∀ t, Keeps t (body t)) (s : State) : Keeps s (inState c m soon closed body s) := by
  unfold inState
  repeat' first
    | exact Keeps.refl _
    | exact hold_keeps _ _ _
    | exact answerMsg_keeps _ _ _ _ _
    | exact hc _
    | exact hb _
    | split

theorem revive_keeps (c : Instr) (h : Nat) (s : State) : Keeps s (revive c h s) := by
  unfold revive
  repeat' first
    | assumption
    | with_reducible exact Keeps.refl _
    | with_reducible apply Keeps.trans ?_ (hold_keeps _ _ _)
    | with_reducible apply Keeps.trans ?_ (startRevival_keeps _ _)
    | dsimp -zeta only

theorem invalidText_keeps (m : Sprue) (off : Nat) (s : State) : Keeps s (invalidText m off s) := by
  unfold invalidText
  repeat' first
    | assumption
    | with_reducible exact Keeps.refl _
    | with_reducible apply Keeps.trans ?_ (stopWaiting_keeps _ _)
    | with_reducible apply Keeps.trans ?_ (answerMsg_keeps _ _ _ _ _)
    | with_reducible apply Keeps.trans ?_ (freeSpent_keeps _ _)
    | with_reducible apply Keeps.trans ?_ (endRequest_keeps _ _ _ _ _ _ _ _)
    | (with_reducible apply Keeps.lit ?_ ?_ ?_ ?_ ?_ ?_); (on_goal 2 => rfl); (on_goal 2 => rfl); (on_goal 2 => rfl); (on_goal 2 => rfl); (on_goal 2 => rfl); first | assumption | with_reducible exact Keeps.refl _ | with_reducible apply Keeps.trans ?_ (stopWaiting_keeps _ _) | with_reducible apply Keeps.trans ?_ (answerMsg_keeps _ _ _ _ _) | with_reducible apply Keeps.trans ?_ (freeSpent_keeps _ _) | with_reducible apply Keeps.trans ?_ (endRequest_keeps _ _ _ _ _ _ _ _) | split
    | split
    | dsimp -zeta only

theorem queued_keeps (m : Sprue) (s : State) : Keeps s (queued m s) := by
  unfold queued
  repeat' first
    | assumption
    | with_reducible exact Keeps.refl _
    | with_reducible apply Keeps.trans ?_ (carried_keeps _ _)
    | with_reducible apply Keeps.trans ?_ (stampQueue_keeps _ _)
    | with_reducible apply Keeps.trans ?_ (arm_keeps _ _)
    | dsimp -zeta only

theorem queueText_keeps (m : Sprue) (bytes : List Byte) (s : State) : Keeps s (queueText m bytes s) := by
  unfold queueText
  repeat' first
    | assumption
    | with_reducible exact Keeps.refl _
    | with_reducible apply Keeps.trans ?_ (queued_keeps _ _)
    | with_reducible apply Keeps.trans ?_ (invalidText_keeps _ _ _)
    | with_reducible apply Keeps.trans ?_ (carried_keeps _ _)
    | with_reducible apply Keeps.trans ?_ (refuse_keeps _ _ _)
    | with_reducible apply Keeps.trans ?_ (countFixes_keeps _ _ _)
    | with_reducible apply Keeps.trans ?_ (setSess_keeps _ _)
    | extract_lets
    | (with_reducible apply Keeps.lit ?_ ?_ ?_ ?_ ?_ ?_); (on_goal 2 => rfl); (on_goal 2 => rfl); (on_goal 2 => rfl); (on_goal 2 => rfl); (on_goal 2 => rfl); first | assumption | with_reducible exact Keeps.refl _ | with_reducible apply Keeps.trans ?_ (queued_keeps _ _) | with_reducible apply Keeps.trans ?_ (invalidText_keeps _ _ _) | with_reducible apply Keeps.trans ?_ (carried_keeps _ _) | with_reducible apply Keeps.trans ?_ (refuse_keeps _ _ _) | with_reducible apply Keeps.trans ?_ (countFixes_keeps _ _ _) | with_reducible apply Keeps.trans ?_ (setSess_keeps _ _) | split
    | split
    | dsimp -zeta only

theorem queueTokens_keeps (m : Sprue) (toks : List Nat) (s : State) : Keeps s (queueTokens m toks s) := by
  unfold queueTokens
  repeat' first
    | assumption
    | with_reducible exact Keeps.refl _
    | with_reducible apply Keeps.trans ?_ (queued_keeps _ _)
    | with_reducible apply Keeps.trans ?_ (refuse_keeps _ _ _)
    | with_reducible apply Keeps.trans ?_ (closeInput_keeps _ _)
    | with_reducible apply Keeps.trans ?_ (onSess_keeps _ _ _)
    | (with_reducible apply Keeps.lit ?_ ?_ ?_ ?_ ?_ ?_); (on_goal 2 => rfl); (on_goal 2 => rfl); (on_goal 2 => rfl); (on_goal 2 => rfl); (on_goal 2 => rfl); first | assumption | with_reducible exact Keeps.refl _ | with_reducible apply Keeps.trans ?_ (queued_keeps _ _) | with_reducible apply Keeps.trans ?_ (refuse_keeps _ _ _) | with_reducible apply Keeps.trans ?_ (closeInput_keeps _ _) | with_reducible apply Keeps.trans ?_ (onSess_keeps _ _ _) | split
    | split
    | dsimp -zeta only

theorem queueFrame_keeps (m : Sprue) (positions : Nat) (data : List Byte) (s : State) : Keeps s (queueFrame m positions data s) := by
  unfold queueFrame
  repeat' first
    | assumption
    | with_reducible exact Keeps.refl _
    | with_reducible apply Keeps.trans ?_ (queued_keeps _ _)
    | with_reducible apply Keeps.trans ?_ (refuse_keeps _ _ _)
    | with_reducible apply Keeps.trans ?_ (closeInput_keeps _ _)
    | with_reducible apply Keeps.trans ?_ (onSess_keeps _ _ _)
    | extract_lets
    | (with_reducible apply Keeps.lit ?_ ?_ ?_ ?_ ?_ ?_); (on_goal 2 => rfl); (on_goal 2 => rfl); (on_goal 2 => rfl); (on_goal 2 => rfl); (on_goal 2 => rfl); first | assumption | with_reducible exact Keeps.refl _ | with_reducible apply Keeps.trans ?_ (queued_keeps _ _) | with_reducible apply Keeps.trans ?_ (refuse_keeps _ _ _) | with_reducible apply Keeps.trans ?_ (closeInput_keeps _ _) | with_reducible apply Keeps.trans ?_ (onSess_keeps _ _ _) | split
    | split
    | dsimp -zeta only

theorem toolResultNow_keeps (m : Sprue) (toks : List Nat) (s : State) : Keeps s (toolResultNow m toks s) := by
  unfold toolResultNow
  repeat' first
    | assumption
    | with_reducible exact Keeps.refl _
    | with_reducible apply Keeps.trans ?_ (queued_keeps _ _)
    | with_reducible apply Keeps.trans ?_ (stopWaiting_keeps _ _)
    | with_reducible apply Keeps.trans ?_ (onSess_keeps _ _ _)
    | extract_lets
    | (with_reducible apply Keeps.lit ?_ ?_ ?_ ?_ ?_ ?_); (on_goal 2 => rfl); (on_goal 2 => rfl); (on_goal 2 => rfl); (on_goal 2 => rfl); (on_goal 2 => rfl); first | assumption | with_reducible exact Keeps.refl _ | with_reducible apply Keeps.trans ?_ (queued_keeps _ _) | with_reducible apply Keeps.trans ?_ (stopWaiting_keeps _ _) | with_reducible apply Keeps.trans ?_ (onSess_keeps _ _ _) | split
    | split
    | dsimp -zeta only

theorem toolText_keeps (m : Sprue) (bytes : List Byte) (s : State) : Keeps s (toolText m bytes s) := by
  unfold toolText
  repeat' first
    | assumption
    | with_reducible exact Keeps.refl _
    | with_reducible apply Keeps.trans ?_ (toolResultNow_keeps _ _ _)
    | with_reducible apply Keeps.trans ?_ (invalidText_keeps _ _ _)
    | with_reducible apply Keeps.trans ?_ (refuse_keeps _ _ _)
    | with_reducible apply Keeps.trans ?_ (closeInput_keeps _ _)
    | with_reducible apply Keeps.trans ?_ (countFixes_keeps _ _ _)
    | with_reducible apply Keeps.trans ?_ (emitOut_keeps _ _ _ _)
    | with_reducible apply Keeps.trans ?_ (onSess_keeps _ _ _)
    | extract_lets
    | (with_reducible apply Keeps.lit ?_ ?_ ?_ ?_ ?_ ?_); (on_goal 2 => rfl); (on_goal 2 => rfl); (on_goal 2 => rfl); (on_goal 2 => rfl); (on_goal 2 => rfl); first | assumption | with_reducible exact Keeps.refl _ | with_reducible apply Keeps.trans ?_ (toolResultNow_keeps _ _ _) | with_reducible apply Keeps.trans ?_ (invalidText_keeps _ _ _) | with_reducible apply Keeps.trans ?_ (refuse_keeps _ _ _) | with_reducible apply Keeps.trans ?_ (closeInput_keeps _ _) | with_reducible apply Keeps.trans ?_ (countFixes_keeps _ _ _) | with_reducible apply Keeps.trans ?_ (emitOut_keeps _ _ _ _) | with_reducible apply Keeps.trans ?_ (onSess_keeps _ _ _) | split
    | split
    | dsimp -zeta only

theorem takeBack_keeps (h : Nat) (s : State) : Keeps s (takeBack h s) := by
  unfold takeBack
  repeat' first
    | assumption
    | with_reducible exact Keeps.refl _
    | with_reducible apply Keeps.trans ?_ (dropAnchors_keeps _ _ _)
    | with_reducible apply Keeps.trans ?_ (releasePages_keeps _ _ _)
    | with_reducible apply Keeps.trans ?_ (drawFree_keeps _)
    | with_reducible apply Keeps.trans ?_ (setSess_keeps _ _)
    | extract_lets
    | (with_reducible apply Keeps.lit ?_ ?_ ?_ ?_ ?_ ?_); (on_goal 2 => rfl); (on_goal 2 => rfl); (on_goal 2 => rfl); (on_goal 2 => rfl); (on_goal 2 => rfl); first | assumption | with_reducible exact Keeps.refl _ | with_reducible apply Keeps.trans ?_ (dropAnchors_keeps _ _ _) | with_reducible apply Keeps.trans ?_ (releasePages_keeps _ _ _) | with_reducible apply Keeps.trans ?_ (drawFree_keeps _) | with_reducible apply Keeps.trans ?_ (setSess_keeps _ _) | split
    | split
    | dsimp -zeta only

theorem issueSerial_keeps (s : State) : Keeps s (issueSerial s).2 := by
  have lit : ∀ (n : Nat) (t : State), Keeps t { t with dev := { t.dev with serialEnd := n } } :=
    fun _ t => Keeps.lit (Keeps.refl t) rfl rfl rfl rfl rfl
  have lit2 : ∀ (n : Nat) (t : State), Keeps t { t with dev := { t.dev with nextSerial := n } } :=
    fun _ t => Keeps.lit (Keeps.refl t) rfl rfl rfl rfl rfl
  unfold issueSerial
  refine Keeps.trans ?_ (lit2 _ _)
  split
  · exact (lit _ _).trans (hrRewrite_keeps _ _)
  · exact Keeps.refl _

theorem openNow_keeps (m : Sprue) (s : State) : Keeps s (openNow m s) := by
  unfold openNow
  repeat' first
    | assumption
    | with_reducible exact Keeps.refl _
    | with_reducible apply Keeps.trans ?_ (issueSerial_keeps _)
    | with_reducible apply Keeps.trans ?_ (refuse_keeps _ _ _)
    | with_reducible apply Keeps.trans ?_ (arm_keeps _ _)
    | with_reducible apply Keeps.trans ?_ (anchor_keeps _ _ _)
    | with_reducible apply Keeps.trans ?_ (seat_keeps _ _)
    | with_reducible apply Keeps.trans ?_ (tellDirectory_keeps _ _ _ _)
    | with_reducible apply Keeps.trans ?_ (emitOut_keeps _ _ _ _)
    | with_reducible apply Keeps.trans ?_ (settle_keeps _ _ _ _)
    | with_reducible apply Keeps.trans ?_ (addSess_keeps _ _)
    | extract_lets
    | (with_reducible apply Keeps.lit ?_ ?_ ?_ ?_ ?_ ?_); (on_goal 2 => rfl); (on_goal 2 => rfl); (on_goal 2 => rfl); (on_goal 2 => rfl); (on_goal 2 => rfl); first | assumption | with_reducible exact Keeps.refl _ | with_reducible apply Keeps.trans ?_ (issueSerial_keeps _) | with_reducible apply Keeps.trans ?_ (refuse_keeps _ _ _) | with_reducible apply Keeps.trans ?_ (arm_keeps _ _) | with_reducible apply Keeps.trans ?_ (anchor_keeps _ _ _) | with_reducible apply Keeps.trans ?_ (seat_keeps _ _) | with_reducible apply Keeps.trans ?_ (tellDirectory_keeps _ _ _ _) | with_reducible apply Keeps.trans ?_ (emitOut_keeps _ _ _ _) | with_reducible apply Keeps.trans ?_ (settle_keeps _ _ _ _) | with_reducible apply Keeps.trans ?_ (addSess_keeps _ _) | split
    | split
    | dsimp -zeta only

theorem doOpen_keeps (m : Sprue) (s : State) : Keeps s (doOpen m s) := by
  unfold doOpen
  repeat' first
    | assumption
    | with_reducible exact Keeps.refl _
    | with_reducible apply Keeps.trans ?_ (openNow_keeps _ _)
    | with_reducible apply Keeps.trans ?_ (refuse_keeps _ _ _)
    | with_reducible apply Keeps.trans ?_ (answerMsg_keeps _ _ _ _ _)
    | (with_reducible apply Keeps.lit ?_ ?_ ?_ ?_ ?_ ?_); (on_goal 2 => rfl); (on_goal 2 => rfl); (on_goal 2 => rfl); (on_goal 2 => rfl); (on_goal 2 => rfl); first | assumption | with_reducible exact Keeps.refl _ | with_reducible apply Keeps.trans ?_ (openNow_keeps _ _) | with_reducible apply Keeps.trans ?_ (refuse_keeps _ _ _) | with_reducible apply Keeps.trans ?_ (answerMsg_keeps _ _ _ _ _) | split
    | split
    | dsimp -zeta only

theorem doAppendText_keeps (m : Sprue) (buf : HostBuf) (s : State) : Keeps s (doAppendText m buf s) := by
  unfold doAppendText
  repeat' first
    | assumption
    | with_reducible exact Keeps.refl _
    | with_reducible apply Keeps.trans ?_ (queueTokens_keeps _ _ _)
    | with_reducible apply Keeps.trans ?_ (queueText_keeps _ _ _)
    | with_reducible apply Keeps.trans ?_ (revive_keeps _ _ _)
    | with_reducible apply Keeps.trans ?_ (inState_keeps _ _ _ _ _ (fun _ => ?_) (fun _ => ?_) _)
    | with_reducible apply Keeps.trans ?_ (refuse_keeps _ _ _)
    | extract_lets
    | (with_reducible apply Keeps.lit ?_ ?_ ?_ ?_ ?_ ?_); (on_goal 2 => rfl); (on_goal 2 => rfl); (on_goal 2 => rfl); (on_goal 2 => rfl); (on_goal 2 => rfl); first | assumption | with_reducible exact Keeps.refl _ | with_reducible apply Keeps.trans ?_ (queueTokens_keeps _ _ _) | with_reducible apply Keeps.trans ?_ (queueText_keeps _ _ _) | with_reducible apply Keeps.trans ?_ (revive_keeps _ _ _) | with_reducible apply Keeps.trans ?_ (inState_keeps _ _ _ _ _ (fun _ => ?_) (fun _ => ?_) _) | with_reducible apply Keeps.trans ?_ (refuse_keeps _ _ _) | split
    | split
    | dsimp -zeta only

theorem doAppendFrame_keeps (m : Sprue) (buf : HostBuf) (s : State) : Keeps s (doAppendFrame m buf s) := by
  unfold doAppendFrame
  repeat' first
    | assumption
    | with_reducible exact Keeps.refl _
    | with_reducible apply Keeps.trans ?_ (queueFrame_keeps _ _ _ _)
    | with_reducible apply Keeps.trans ?_ (revive_keeps _ _ _)
    | with_reducible apply Keeps.trans ?_ (inState_keeps _ _ _ _ _ (fun _ => ?_) (fun _ => ?_) _)
    | with_reducible apply Keeps.trans ?_ (refuse_keeps _ _ _)
    | (with_reducible apply Keeps.lit ?_ ?_ ?_ ?_ ?_ ?_); (on_goal 2 => rfl); (on_goal 2 => rfl); (on_goal 2 => rfl); (on_goal 2 => rfl); (on_goal 2 => rfl); first | assumption | with_reducible exact Keeps.refl _ | with_reducible apply Keeps.trans ?_ (queueFrame_keeps _ _ _ _) | with_reducible apply Keeps.trans ?_ (revive_keeps _ _ _) | with_reducible apply Keeps.trans ?_ (inState_keeps _ _ _ _ _ (fun _ => ?_) (fun _ => ?_) _) | with_reducible apply Keeps.trans ?_ (refuse_keeps _ _ _) | split
    | split
    | dsimp -zeta only

theorem startRequest_keeps (m : Sprue) (stops : List (List Byte)) (start : Option Nat) (s : State) : Keeps s (startRequest m stops start s) := by
  unfold startRequest
  repeat' first
    | assumption
    | with_reducible exact Keeps.refl _
    | with_reducible apply Keeps.trans ?_ (takeBack_keeps _ _)
    | with_reducible apply Keeps.trans ?_ (refuse_keeps _ _ _)
    | with_reducible apply Keeps.trans ?_ (closeInput_keeps _ _)
    | with_reducible apply Keeps.trans ?_ (arm_keeps _ _)
    | with_reducible apply Keeps.trans ?_ (onSess_keeps _ _ _)
    | extract_lets
    | (with_reducible apply Keeps.lit ?_ ?_ ?_ ?_ ?_ ?_); (on_goal 2 => rfl); (on_goal 2 => rfl); (on_goal 2 => rfl); (on_goal 2 => rfl); (on_goal 2 => rfl); first | assumption | with_reducible exact Keeps.refl _ | with_reducible apply Keeps.trans ?_ (takeBack_keeps _ _) | with_reducible apply Keeps.trans ?_ (refuse_keeps _ _ _) | with_reducible apply Keeps.trans ?_ (closeInput_keeps _ _) | with_reducible apply Keeps.trans ?_ (arm_keeps _ _) | with_reducible apply Keeps.trans ?_ (onSess_keeps _ _ _) | split
    | split
    | dsimp -zeta only

theorem doGenerate_keeps (m : Sprue) (buf : HostBuf) (s : State) : Keeps s (doGenerate m buf s) := by
  unfold doGenerate
  repeat' first
    | assumption
    | with_reducible exact Keeps.refl _
    | with_reducible apply Keeps.trans ?_ (startRequest_keeps _ _ _ _)
    | with_reducible apply Keeps.trans ?_ (revive_keeps _ _ _)
    | with_reducible apply Keeps.trans ?_ (inState_keeps _ _ _ _ _ (fun _ => ?_) (fun _ => ?_) _)
    | with_reducible apply Keeps.trans ?_ (refuse_keeps _ _ _)
    | extract_lets
    | (with_reducible apply Keeps.lit ?_ ?_ ?_ ?_ ?_ ?_); (on_goal 2 => rfl); (on_goal 2 => rfl); (on_goal 2 => rfl); (on_goal 2 => rfl); (on_goal 2 => rfl); first | assumption | with_reducible exact Keeps.refl _ | with_reducible apply Keeps.trans ?_ (startRequest_keeps _ _ _ _) | with_reducible apply Keeps.trans ?_ (revive_keeps _ _ _) | with_reducible apply Keeps.trans ?_ (inState_keeps _ _ _ _ _ (fun _ => ?_) (fun _ => ?_) _) | with_reducible apply Keeps.trans ?_ (refuse_keeps _ _ _) | split
    | split
    | dsimp -zeta only

theorem doToolResult_keeps (m : Sprue) (buf : HostBuf) (s : State) : Keeps s (doToolResult m buf s) := by
  unfold doToolResult
  repeat' first
    | assumption
    | with_reducible exact Keeps.refl _
    | with_reducible apply Keeps.trans ?_ (toolText_keeps _ _ _)
    | with_reducible apply Keeps.trans ?_ (toolResultNow_keeps _ _ _)
    | with_reducible apply Keeps.trans ?_ (revive_keeps _ _ _)
    | with_reducible apply Keeps.trans ?_ (inState_keeps _ _ _ _ _ (fun _ => ?_) (fun _ => ?_) _)
    | with_reducible apply Keeps.trans ?_ (refuse_keeps _ _ _)
    | with_reducible apply Keeps.trans ?_ (closeInput_keeps _ _)
    | extract_lets
    | (with_reducible apply Keeps.lit ?_ ?_ ?_ ?_ ?_ ?_); (on_goal 2 => rfl); (on_goal 2 => rfl); (on_goal 2 => rfl); (on_goal 2 => rfl); (on_goal 2 => rfl); first | assumption | with_reducible exact Keeps.refl _ | with_reducible apply Keeps.trans ?_ (toolText_keeps _ _ _) | with_reducible apply Keeps.trans ?_ (toolResultNow_keeps _ _ _) | with_reducible apply Keeps.trans ?_ (revive_keeps _ _ _) | with_reducible apply Keeps.trans ?_ (inState_keeps _ _ _ _ _ (fun _ => ?_) (fun _ => ?_) _) | with_reducible apply Keeps.trans ?_ (refuse_keeps _ _ _) | with_reducible apply Keeps.trans ?_ (closeInput_keeps _ _) | split
    | split
    | dsimp -zeta only

theorem doCancel_keeps (m : Sprue) (s : State) : Keeps s (doCancel m s) := by
  unfold doCancel
  repeat' first
    | assumption
    | with_reducible exact Keeps.refl _
    | with_reducible apply Keeps.trans ?_ (inState_keeps _ _ _ _ _ (fun _ => ?_) (fun _ => ?_) _)
    | with_reducible apply Keeps.trans ?_ (cancelNow_keeps _ _ _ _)
    | with_reducible apply Keeps.trans ?_ (stampAsk_keeps _ _ _)
    | with_reducible apply Keeps.trans ?_ (answerMsg_keeps _ _ _ _ _)
    | with_reducible apply Keeps.trans ?_ (freeSpent_keeps _ _)
    | (with_reducible apply Keeps.lit ?_ ?_ ?_ ?_ ?_ ?_); (on_goal 2 => rfl); (on_goal 2 => rfl); (on_goal 2 => rfl); (on_goal 2 => rfl); (on_goal 2 => rfl); first | assumption | with_reducible exact Keeps.refl _ | with_reducible apply Keeps.trans ?_ (inState_keeps _ _ _ _ _ (fun _ => ?_) (fun _ => ?_) _) | with_reducible apply Keeps.trans ?_ (cancelNow_keeps _ _ _ _) | with_reducible apply Keeps.trans ?_ (stampAsk_keeps _ _ _) | with_reducible apply Keeps.trans ?_ (answerMsg_keeps _ _ _ _ _) | with_reducible apply Keeps.trans ?_ (freeSpent_keeps _ _) | split
    | split
    | dsimp -zeta only

theorem doBarge_keeps (m : Sprue) (s : State) : Keeps s (doBarge m s) := by
  unfold doBarge
  repeat' first
    | assumption
    | with_reducible exact Keeps.refl _
    | with_reducible apply Keeps.trans ?_ (inState_keeps _ _ _ _ _ (fun _ => ?_) (fun _ => ?_) _)
    | with_reducible apply Keeps.trans ?_ (bargeNow_keeps _ _ _ _)
    | with_reducible apply Keeps.trans ?_ (answerMsg_keeps _ _ _ _ _)
    | with_reducible apply Keeps.trans ?_ (freeSpent_keeps _ _)
    | (with_reducible apply Keeps.lit ?_ ?_ ?_ ?_ ?_ ?_); (on_goal 2 => rfl); (on_goal 2 => rfl); (on_goal 2 => rfl); (on_goal 2 => rfl); (on_goal 2 => rfl); first | assumption | with_reducible exact Keeps.refl _ | with_reducible apply Keeps.trans ?_ (inState_keeps _ _ _ _ _ (fun _ => ?_) (fun _ => ?_) _) | with_reducible apply Keeps.trans ?_ (bargeNow_keeps _ _ _ _) | with_reducible apply Keeps.trans ?_ (answerMsg_keeps _ _ _ _ _) | with_reducible apply Keeps.trans ?_ (freeSpent_keeps _ _) | split
    | split
    | dsimp -zeta only

theorem doPark_keeps (m : Sprue) (s : State) : Keeps s (doPark m s) := by
  unfold doPark
  repeat' first
    | assumption
    | with_reducible exact Keeps.refl _
    | with_reducible apply Keeps.trans ?_ (inState_keeps _ _ _ _ _ (fun _ => ?_) (fun _ => ?_) _)
    | with_reducible apply Keeps.trans ?_ (parkNow_keeps _ _ _ _)
    | with_reducible apply Keeps.trans ?_ (stampAsk_keeps _ _ _)
    | with_reducible apply Keeps.trans ?_ (refuse_keeps _ _ _)
    | extract_lets
    | (with_reducible apply Keeps.lit ?_ ?_ ?_ ?_ ?_ ?_); (on_goal 2 => rfl); (on_goal 2 => rfl); (on_goal 2 => rfl); (on_goal 2 => rfl); (on_goal 2 => rfl); first | assumption | with_reducible exact Keeps.refl _ | with_reducible apply Keeps.trans ?_ (inState_keeps _ _ _ _ _ (fun _ => ?_) (fun _ => ?_) _) | with_reducible apply Keeps.trans ?_ (parkNow_keeps _ _ _ _) | with_reducible apply Keeps.trans ?_ (stampAsk_keeps _ _ _) | with_reducible apply Keeps.trans ?_ (refuse_keeps _ _ _) | split
    | split
    | dsimp -zeta only

theorem doClose_keeps (m : Sprue) (s : State) : Keeps s (doClose m s) := by
  unfold doClose
  repeat' first
    | assumption
    | with_reducible exact Keeps.refl _
    | with_reducible apply Keeps.trans ?_ (inState_keeps _ _ _ _ _ (fun _ => ?_) (fun _ => ?_) _)
    | with_reducible apply Keeps.trans ?_ (closeNow_keeps _ _ _ _)
    | with_reducible apply Keeps.trans ?_ (stampAsk_keeps _ _ _)
    | with_reducible apply Keeps.trans ?_ (answerMsg_keeps _ _ _ _ _)
    | (with_reducible apply Keeps.lit ?_ ?_ ?_ ?_ ?_ ?_); (on_goal 2 => rfl); (on_goal 2 => rfl); (on_goal 2 => rfl); (on_goal 2 => rfl); (on_goal 2 => rfl); first | assumption | with_reducible exact Keeps.refl _ | with_reducible apply Keeps.trans ?_ (inState_keeps _ _ _ _ _ (fun _ => ?_) (fun _ => ?_) _) | with_reducible apply Keeps.trans ?_ (closeNow_keeps _ _ _ _) | with_reducible apply Keeps.trans ?_ (stampAsk_keeps _ _ _) | with_reducible apply Keeps.trans ?_ (answerMsg_keeps _ _ _ _ _) | split
    | split
    | dsimp -zeta only

theorem applySession_keeps (c : Instr) (s : State) : Keeps s (applySession c s) := by
  unfold applySession
  repeat' first
    | assumption
    | with_reducible exact Keeps.refl _
    | with_reducible apply Keeps.trans ?_ (doClose_keeps _ _)
    | with_reducible apply Keeps.trans ?_ (doPark_keeps _ _)
    | with_reducible apply Keeps.trans ?_ (doBarge_keeps _ _)
    | with_reducible apply Keeps.trans ?_ (doCancel_keeps _ _)
    | with_reducible apply Keeps.trans ?_ (doToolResult_keeps _ _ _)
    | with_reducible apply Keeps.trans ?_ (doGenerate_keeps _ _ _)
    | with_reducible apply Keeps.trans ?_ (doAppendFrame_keeps _ _ _)
    | with_reducible apply Keeps.trans ?_ (doAppendText_keeps _ _ _)
    | with_reducible apply Keeps.trans ?_ (expire_keeps _ _)
    | (with_reducible apply Keeps.lit ?_ ?_ ?_ ?_ ?_ ?_); (on_goal 2 => rfl); (on_goal 2 => rfl); (on_goal 2 => rfl); (on_goal 2 => rfl); (on_goal 2 => rfl); first | assumption | with_reducible exact Keeps.refl _ | with_reducible apply Keeps.trans ?_ (doClose_keeps _ _) | with_reducible apply Keeps.trans ?_ (doPark_keeps _ _) | with_reducible apply Keeps.trans ?_ (doBarge_keeps _ _) | with_reducible apply Keeps.trans ?_ (doCancel_keeps _ _) | with_reducible apply Keeps.trans ?_ (doToolResult_keeps _ _ _) | with_reducible apply Keeps.trans ?_ (doGenerate_keeps _ _ _) | with_reducible apply Keeps.trans ?_ (doAppendFrame_keeps _ _ _) | with_reducible apply Keeps.trans ?_ (doAppendText_keeps _ _ _) | with_reducible apply Keeps.trans ?_ (expire_keeps _ _) | split
    | split
    | dsimp -zeta only

theorem drainWithFuel_keeps (h : Nat) : ∀ (n : Nat) (s : State), Keeps s (drainWithFuel h n s)
  | 0, s => Keeps.refl s
  | k + 1, s => by
    unfold drainWithFuel
    dsimp only
    have e : ∀ (t : State) (f : Session → Session) (c : Instr) (x : Session) (l : List Instr), Keeps s t →
        Keeps s (forEach l (answerGone x) (applySession c (onSess h f t))) := fun t f c x l a =>
      ((a.trans (onSess_keeps _ _ _)).trans (applySession_keeps _ _)).trans (forEach_keeps _ _ _ (fun _ _ => answerGone_keeps _ _ _))
    repeat' first
      | exact Keeps.refl _
      | exact e s _ _ _ _ (Keeps.refl s)
      | exact (((onSess_keeps _ _ _).trans (applySession_keeps _ _)).trans (onSess_keeps _ _ _)).trans (drainWithFuel_keeps h k _)
      | split

theorem drainHeld_keeps (h : Nat) (s : State) : Keeps s (drainHeld h s) := by
  unfold drainHeld
  repeat' first
    | assumption
    | with_reducible exact Keeps.refl _
    | with_reducible apply Keeps.trans ?_ (drainWithFuel_keeps _ _ _)
    | (with_reducible apply Keeps.lit ?_ ?_ ?_ ?_ ?_ ?_); (on_goal 2 => rfl); (on_goal 2 => rfl); (on_goal 2 => rfl); (on_goal 2 => rfl); (on_goal 2 => rfl); first | assumption | with_reducible exact Keeps.refl _ | with_reducible apply Keeps.trans ?_ (drainWithFuel_keeps _ _ _) | split
    | split
    | dsimp -zeta only

theorem sessionMessage_keeps (c : Instr) (m : Sprue) (s : State) : Keeps s (sessionMessage c m s) := by
  unfold sessionMessage
  repeat' first
    | assumption
    | with_reducible exact Keeps.refl _
    | with_reducible apply Keeps.trans ?_ (drainHeld_keeps _ _)
    | with_reducible apply Keeps.trans ?_ (applySession_keeps _ _)
    | with_reducible apply Keeps.trans ?_ (takeMessage_keeps _ _ _ (fun _ => ?_) _)
    | dsimp -zeta only

theorem execOpenSession_keeps (m : Sprue) (s : State) : OKeeps s (execOpenSession m s) := by
  unfold execOpenSession
  repeat' first
    | assumption
    | with_reducible exact Keeps.refl _
    | with_reducible apply OKeeps.next ?_
    | exact True.intro
    | with_reducible apply Keeps.trans ?_ (doOpen_keeps _ _)
    | with_reducible apply Keeps.trans ?_ (takeMessage_keeps _ _ _ (fun _ => ?_) _)
    | dsimp -zeta only

theorem execAppendText_keeps (m : Sprue) (buf : HostBuf) (s : State) : OKeeps s (execAppendText m buf s) := by
  unfold execAppendText
  repeat' first
    | assumption
    | with_reducible exact Keeps.refl _
    | with_reducible apply OKeeps.next ?_
    | exact True.intro
    | with_reducible apply Keeps.trans ?_ (sessionMessage_keeps _ _ _)
    | dsimp -zeta only

theorem execAppendFrame_keeps (m : Sprue) (buf : HostBuf) (s : State) : OKeeps s (execAppendFrame m buf s) := by
  unfold execAppendFrame
  repeat' first
    | assumption
    | with_reducible exact Keeps.refl _
    | with_reducible apply OKeeps.next ?_
    | exact True.intro
    | with_reducible apply Keeps.trans ?_ (sessionMessage_keeps _ _ _)
    | dsimp -zeta only

theorem execGenerate_keeps (m : Sprue) (stops : HostBuf) (s : State) : OKeeps s (execGenerate m stops s) := by
  unfold execGenerate
  repeat' first
    | assumption
    | with_reducible exact Keeps.refl _
    | with_reducible apply OKeeps.next ?_
    | exact True.intro
    | with_reducible apply Keeps.trans ?_ (sessionMessage_keeps _ _ _)
    | dsimp -zeta only

theorem execToolResult_keeps (m : Sprue) (buf : HostBuf) (s : State) : OKeeps s (execToolResult m buf s) := by
  unfold execToolResult
  repeat' first
    | assumption
    | with_reducible exact Keeps.refl _
    | with_reducible apply OKeeps.next ?_
    | exact True.intro
    | with_reducible apply Keeps.trans ?_ (sessionMessage_keeps _ _ _)
    | dsimp -zeta only

theorem execCancel_keeps (m : Sprue) (s : State) : OKeeps s (execCancel m s) := by
  unfold execCancel
  repeat' first
    | assumption
    | with_reducible exact Keeps.refl _
    | with_reducible apply OKeeps.next ?_
    | exact True.intro
    | with_reducible apply Keeps.trans ?_ (sessionMessage_keeps _ _ _)
    | dsimp -zeta only

theorem execBarge_keeps (m : Sprue) (s : State) : OKeeps s (execBarge m s) := by
  unfold execBarge
  repeat' first
    | assumption
    | with_reducible exact Keeps.refl _
    | with_reducible apply OKeeps.next ?_
    | exact True.intro
    | with_reducible apply Keeps.trans ?_ (sessionMessage_keeps _ _ _)
    | dsimp -zeta only

theorem execPark_keeps (m : Sprue) (s : State) : OKeeps s (execPark m s) := by
  unfold execPark
  repeat' first
    | assumption
    | with_reducible exact Keeps.refl _
    | with_reducible apply OKeeps.next ?_
    | exact True.intro
    | with_reducible apply Keeps.trans ?_ (sessionMessage_keeps _ _ _)
    | dsimp -zeta only

theorem execClose_keeps (m : Sprue) (s : State) : OKeeps s (execClose m s) := by
  unfold execClose
  repeat' first
    | assumption
    | with_reducible exact Keeps.refl _
    | with_reducible apply OKeeps.next ?_
    | exact True.intro
    | with_reducible apply Keeps.trans ?_ (sessionMessage_keeps _ _ _)
    | dsimp -zeta only

theorem doTapRelease_keeps (m : Sprue) (s : State) : Keeps s (doTapRelease m s) := by
  unfold doTapRelease
  repeat' first
    | assumption
    | with_reducible exact Keeps.refl _
    | with_reducible apply Keeps.trans ?_ (carried_keeps _ _)
    | with_reducible apply Keeps.trans ?_ (refuse_keeps _ _ _)
    | with_reducible apply Keeps.trans ?_ (releaseTo_keeps _ _ _)
    | extract_lets
    | split
    | dsimp -zeta only

theorem execTapRelease_keeps (m : Sprue) (s : State) : OKeeps s (execTapRelease m s) := by
  unfold execTapRelease
  repeat' first
    | assumption
    | with_reducible exact Keeps.refl _
    | with_reducible apply OKeeps.next ?_
    | exact True.intro
    | with_reducible apply Keeps.trans ?_ (doTapRelease_keeps _ _)
    | with_reducible apply Keeps.trans ?_ (takeMessage_keeps _ _ _ (fun _ => ?_) _)
    | dsimp -zeta only

theorem setBudget_keeps (t v : Nat) (s : State) : Keeps s (setBudget t v s) := by
  unfold setBudget
  repeat' first
    | assumption
    | with_reducible exact Keeps.refl _
    | with_reducible apply Keeps.trans ?_ (healthSignal_keeps _ _ _)
    | with_reducible apply Keeps.trans ?_ (onTen_keeps _ _ _)
    | extract_lets
    | (with_reducible apply Keeps.lit ?_ ?_ ?_ ?_ ?_ ?_); (on_goal 2 => rfl); (on_goal 2 => rfl); (on_goal 2 => rfl); (on_goal 2 => rfl); (on_goal 2 => rfl); first | assumption | with_reducible exact Keeps.refl _ | with_reducible apply Keeps.trans ?_ (healthSignal_keeps _ _ _) | with_reducible apply Keeps.trans ?_ (onTen_keeps _ _ _) | split
    | split
    | dsimp -zeta only

theorem doBudget_keeps (m : Sprue) (s : State) : Keeps s (doBudget m s) := by
  unfold doBudget
  repeat' first
    | assumption
    | with_reducible exact Keeps.refl _
    | with_reducible apply Keeps.trans ?_ (setBudget_keeps _ _ _)
    | with_reducible apply Keeps.trans ?_ (refuse_keeps _ _ _)
    | with_reducible apply Keeps.trans ?_ (answerMsg_keeps _ _ _ _ _)
    | extract_lets
    | (with_reducible apply Keeps.lit ?_ ?_ ?_ ?_ ?_ ?_); (on_goal 2 => rfl); (on_goal 2 => rfl); (on_goal 2 => rfl); (on_goal 2 => rfl); (on_goal 2 => rfl); first | assumption | with_reducible exact Keeps.refl _ | with_reducible apply Keeps.trans ?_ (setBudget_keeps _ _ _) | with_reducible apply Keeps.trans ?_ (refuse_keeps _ _ _) | with_reducible apply Keeps.trans ?_ (answerMsg_keeps _ _ _ _ _) | split
    | split
    | dsimp -zeta only

theorem execBudget_keeps (m : Sprue) (s : State) : OKeeps s (execBudget m s) := by
  unfold execBudget
  repeat' first
    | assumption
    | with_reducible exact Keeps.refl _
    | with_reducible apply OKeeps.next ?_
    | exact True.intro
    | with_reducible apply Keeps.trans ?_ (doBudget_keeps _ _)
    | with_reducible apply Keeps.trans ?_ (takeMessage_keeps _ _ _ (fun _ => ?_) _)
    | dsimp -zeta only

theorem doClockForward_keeps (m : Sprue) (s : State) : Keeps s (doClockForward m s) := by
  unfold doClockForward
  repeat' first
    | assumption
    | with_reducible exact Keeps.refl _
    | with_reducible apply Keeps.trans ?_ (carried_keeps _ _)
    | with_reducible apply Keeps.trans ?_ (refuse_keeps _ _ _)
    | extract_lets
    | (with_reducible apply Keeps.lit ?_ ?_ ?_ ?_ ?_ ?_); (on_goal 2 => rfl); (on_goal 2 => rfl); (on_goal 2 => rfl); (on_goal 2 => rfl); (on_goal 2 => rfl); first | assumption | with_reducible exact Keeps.refl _ | with_reducible apply Keeps.trans ?_ (carried_keeps _ _) | with_reducible apply Keeps.trans ?_ (refuse_keeps _ _ _) | split
    | split
    | dsimp -zeta only

theorem execClockForward_keeps (m : Sprue) (s : State) : OKeeps s (execClockForward m s) := by
  unfold execClockForward
  repeat' first
    | assumption
    | with_reducible exact Keeps.refl _
    | with_reducible apply OKeeps.next ?_
    | exact True.intro
    | with_reducible apply Keeps.trans ?_ (doClockForward_keeps _ _)
    | with_reducible apply Keeps.trans ?_ (takeMessage_keeps _ _ _ (fun _ => ?_) _)
    | dsimp -zeta only

theorem execUnknownOpcode_keeps (m : Sprue) (s : State) : OKeeps s (execUnknownOpcode m s) :=
  takeMessage_keeps _ _ _ (fun t => Keeps.refl t) s

theorem applyAsk_keeps (b : Bool) (h : Nat) (a : Ask) (s : State) : Keeps s (applyAsk b h a s) := by
  unfold applyAsk
  repeat' first
    | assumption
    | with_reducible exact Keeps.refl _
    | with_reducible apply Keeps.trans ?_ (cancelNow_keeps _ _ _ _)
    | with_reducible apply Keeps.trans ?_ (parkNow_keeps _ _ _ _)
    | with_reducible apply Keeps.trans ?_ (closeNow_keeps _ _ _ _)
    | with_reducible apply Keeps.trans ?_ (answerAsk_keeps _ _ _ _ _ _)
    | with_reducible apply Keeps.trans ?_ (onSess_keeps _ _ _)
    | extract_lets
    | (with_reducible apply Keeps.lit ?_ ?_ ?_ ?_ ?_ ?_); (on_goal 2 => rfl); (on_goal 2 => rfl); (on_goal 2 => rfl); (on_goal 2 => rfl); (on_goal 2 => rfl); first | assumption | with_reducible exact Keeps.refl _ | with_reducible apply Keeps.trans ?_ (cancelNow_keeps _ _ _ _) | with_reducible apply Keeps.trans ?_ (parkNow_keeps _ _ _ _) | with_reducible apply Keeps.trans ?_ (closeNow_keeps _ _ _ _) | with_reducible apply Keeps.trans ?_ (answerAsk_keeps _ _ _ _ _ _) | with_reducible apply Keeps.trans ?_ (onSess_keeps _ _ _) | split
    | split
    | dsimp -zeta only

theorem applyAsks_keeps (b : Bool) (k : Option Nat) (s : State) : Keeps s (applyAsks b k s) := by
  unfold applyAsks
  repeat' first
    | assumption
    | with_reducible exact Keeps.refl _
    | with_reducible apply Keeps.trans ?_ (forEach_keeps _ _ _ (fun _ _ => ?_))
    | with_reducible apply Keeps.trans ?_ (applyAsk_keeps _ _ _ _)
    | dsimp -zeta only

theorem freeAllSpent_keeps (s : State) : Keeps s (freeAllSpent s) := by
  unfold freeAllSpent
  repeat' first
    | assumption
    | with_reducible exact Keeps.refl _
    | with_reducible apply Keeps.trans ?_ (forEach_keeps _ _ _ (fun _ _ => ?_))
    | with_reducible apply Keeps.trans ?_ (freeSession_keeps _ _)
    | extract_lets
    | dsimp -zeta only

theorem drainAll_keeps (s : State) : Keeps s (drainAll s) := by
  unfold drainAll
  repeat' first
    | assumption
    | with_reducible exact Keeps.refl _
    | with_reducible apply Keeps.trans ?_ (forEach_keeps _ _ _ (fun _ _ => ?_))
    | with_reducible apply Keeps.trans ?_ (drainHeld_keeps _ _)
    | dsimp -zeta only

theorem checkDeadline_keeps (b : Bool) (h : Nat) (s : State) : Keeps s (checkDeadline b h s) := by
  unfold checkDeadline
  repeat' first
    | assumption
    | with_reducible exact Keeps.refl _
    | with_reducible apply Keeps.trans ?_ (stopWaiting_keeps _ _)
    | with_reducible apply Keeps.trans ?_ (endRequest_keeps _ _ _ _ _ _ _ _)
    | extract_lets
    | (with_reducible apply Keeps.lit ?_ ?_ ?_ ?_ ?_ ?_); (on_goal 2 => rfl); (on_goal 2 => rfl); (on_goal 2 => rfl); (on_goal 2 => rfl); (on_goal 2 => rfl); first | assumption | with_reducible exact Keeps.refl _ | with_reducible apply Keeps.trans ?_ (stopWaiting_keeps _ _) | with_reducible apply Keeps.trans ?_ (endRequest_keeps _ _ _ _ _ _ _ _) | split
    | split
    | dsimp -zeta only

theorem checkFrames_keeps (b : Bool) (h : Nat) (s : State) : Keeps s (checkFrames b h s) := by
  unfold checkFrames
  repeat' first
    | assumption
    | with_reducible exact Keeps.refl _
    | with_reducible apply Keeps.trans ?_ (forEach_keeps _ _ _ (fun _ _ => ?_))
    | with_reducible apply Keeps.trans ?_ (emitOut_keeps _ _ _ _)
    | with_reducible apply Keeps.trans ?_ (onSess_keeps _ _ _)
    | extract_lets
    | (with_reducible apply Keeps.lit ?_ ?_ ?_ ?_ ?_ ?_); (on_goal 2 => rfl); (on_goal 2 => rfl); (on_goal 2 => rfl); (on_goal 2 => rfl); (on_goal 2 => rfl); first | assumption | with_reducible exact Keeps.refl _ | with_reducible apply Keeps.trans ?_ (forEach_keeps _ _ _ (fun _ _ => ?_)) | with_reducible apply Keeps.trans ?_ (emitOut_keeps _ _ _ _) | with_reducible apply Keeps.trans ?_ (onSess_keeps _ _ _) | split
    | split
    | dsimp -zeta only

theorem checkDeadlines_keeps (b : Bool) (sampled : List Nat) (s : State) : Keeps s (checkDeadlines b sampled s) := by
  unfold checkDeadlines
  repeat' first
    | assumption
    | with_reducible exact Keeps.refl _
    | with_reducible apply Keeps.trans ?_ (forEach_keeps _ _ _ (fun _ _ => ?_))
    | with_reducible apply Keeps.trans ?_ (checkFrames_keeps _ _ _)
    | with_reducible apply Keeps.trans ?_ (checkDeadline_keeps _ _ _)
    | with_reducible apply Keeps.trans ?_ (freeSpent_keeps _ _)
    | extract_lets
    | dsimp -zeta only

theorem releaseLoose_keeps (d mark : Nat) : ∀ (l : List (Nat × Nat × Nat)) (s : State), Keeps s (releaseLoose d mark l s)
  | [], s => Keeps.refl s
  | p :: l, s => by
    unfold releaseLoose
    split
    · exact Keeps.refl _
    · exact (onPage_keeps _ _ _ _ _).trans (releaseLoose_keeps d mark l _)

theorem pressVictim_keeps (x : Session) (s : State) : Keeps s (pressVictim x s) := by
  unfold pressVictim
  repeat' first
    | assumption
    | with_reducible exact Keeps.refl _
    | with_reducible apply Keeps.trans ?_ (startDemotion_keeps _ _ _)
    | (with_reducible apply Keeps.lit ?_ ?_ ?_ ?_ ?_ ?_); (on_goal 2 => rfl); (on_goal 2 => rfl); (on_goal 2 => rfl); (on_goal 2 => rfl); (on_goal 2 => rfl); first | assumption | with_reducible exact Keeps.refl _ | with_reducible apply Keeps.trans ?_ (startDemotion_keeps _ _ _) | split
    | split
    | dsimp -zeta only

theorem pressDie_keeps (d : Nat) (s : State) : Keeps s (pressDie d s) := by
  unfold pressDie
  repeat' first
    | assumption
    | with_reducible exact Keeps.refl _
    | with_reducible apply Keeps.trans ?_ (pressVictim_keeps _ _)
    | (with_reducible apply Keeps.lit ?_ ?_ ?_ ?_ ?_ ?_); (on_goal 2 => rfl); (on_goal 2 => rfl); (on_goal 2 => rfl); (on_goal 2 => rfl); (on_goal 2 => rfl); first | assumption | with_reducible exact Keeps.refl _ | with_reducible apply Keeps.trans ?_ (pressVictim_keeps _ _) | split
    | split
    | dsimp -zeta only

theorem setLow_keeps (d : Nat) (on : Bool) (s : State) : Keeps s (setLow d on s) := by
  unfold setLow
  repeat' first
    | assumption
    | with_reducible exact Keeps.refl _
    | (with_reducible apply Keeps.lit ?_ ?_ ?_ ?_ ?_ ?_); (on_goal 2 => rfl); (on_goal 2 => rfl); (on_goal 2 => rfl); (on_goal 2 => rfl); (on_goal 2 => rfl); first | assumption | with_reducible exact Keeps.refl _ | split
    | split
    | dsimp -zeta only

theorem relieveDie_keeps (d : Nat) (s : State) : Keeps s (relieveDie d s) := by
  unfold relieveDie
  repeat' first
    | assumption
    | with_reducible exact Keeps.refl _
    | with_reducible apply Keeps.trans ?_ (setLow_keeps _ _ _)
    | with_reducible apply Keeps.trans ?_ (pressDie_keeps _ _)
    | with_reducible apply Keeps.trans ?_ (releaseLoose_keeps _ _ _ _)
    | extract_lets
    | split
    | dsimp -zeta only

theorem reviveWaiting_keeps (s : State) : Keeps s (reviveWaiting s) := by
  unfold reviveWaiting
  repeat' first
    | assumption
    | with_reducible exact Keeps.refl _
    | with_reducible apply Keeps.trans ?_ (startRevival_keeps _ _)
    | with_reducible apply Keeps.trans ?_ (countPressure_keeps _ _ _)
    | extract_lets
    | (with_reducible apply Keeps.lit ?_ ?_ ?_ ?_ ?_ ?_); (on_goal 2 => rfl); (on_goal 2 => rfl); (on_goal 2 => rfl); (on_goal 2 => rfl); (on_goal 2 => rfl); first | assumption | with_reducible exact Keeps.refl _ | with_reducible apply Keeps.trans ?_ (startRevival_keeps _ _) | with_reducible apply Keeps.trans ?_ (countPressure_keeps _ _ _) | split
    | split
    | dsimp -zeta only

theorem relieve_keeps (s : State) : Keeps s (relieve s) := by
  unfold relieve
  repeat' first
    | assumption
    | with_reducible exact Keeps.refl _
    | with_reducible apply Keeps.trans ?_ (forEach_keeps _ _ _ (fun _ _ => ?_))
    | with_reducible apply Keeps.trans ?_ (reviveWaiting_keeps _)
    | with_reducible apply Keeps.trans ?_ (relieveDie_keeps _ _)
    | dsimp -zeta only

theorem reserveDie_keeps (d kib : Nat) (s : State) : Keeps s (reserveDie d kib s) := by
  unfold reserveDie
  repeat' first
    | assumption
    | with_reducible exact Keeps.refl _
    | with_reducible apply Keeps.trans ?_ (pressDie_keeps _ _)
    | with_reducible apply Keeps.trans ?_ (releaseLoose_keeps _ _ _ _)
    | with_reducible apply Keeps.trans ?_ (hold_keeps _ _ _)
    | extract_lets
    | split
    | dsimp -zeta only

theorem boundVictims_keeps (growth : Nat) : ∀ (l : List Session) (s : State), Keeps s (boundVictims growth l s)
  | [], s => Keeps.refl s
  | x :: l, s => by
    unfold boundVictims
    split
    · exact Keeps.refl _
    · exact (pressVictim_keeps _ _).trans (boundVictims_keeps growth l _)

theorem holdBound_keeps (growth : Nat) (s : State) : Keeps s (holdBound growth s) := by
  unfold holdBound
  repeat' first
    | assumption
    | with_reducible exact Keeps.refl _
    | with_reducible apply Keeps.trans ?_ (boundVictims_keeps _ _ _)
    | dsimp -zeta only

theorem admitWaiting_keeps : ∀ (n : Nat) (s : State), Keeps s (admitWaiting n s)
  | 0, s => Keeps.refl s
  | k + 1, s => by
    unfold admitWaiting
    split
    · exact Keeps.refl _
    · rename_i c rest _
      extract_lets s1
      have h : Keeps s { s with ledger := { s.ledger with waiting := rest } } := Keeps.lit (Keeps.refl s) rfl rfl rfl rfl rfl
      split
      · split
        · exact (h.trans (answerMsg_keeps _ _ _ _ _)).trans (admitWaiting_keeps k _)
        · split
          · split
            · exact (h.trans (openNow_keeps _ _)).trans (admitWaiting_keeps k _)
            · exact (h.trans (refuse_keeps _ _ _)).trans (admitWaiting_keeps k _)
          · exact Keeps.refl _
      · extract_lets
        split
        · exact ((h.trans (commitRevival_keeps _ _)).trans (drainHeld_keeps _ _)).trans (admitWaiting_keeps k _)
        · exact Keeps.refl _
      · exact h.trans (admitWaiting_keeps k _)

theorem admitHeld_keeps (s : State) : Keeps s (admitHeld s) := by
  unfold admitHeld
  repeat' first
    | assumption
    | with_reducible exact Keeps.refl _
    | with_reducible apply Keeps.trans ?_ (admitWaiting_keeps _ _)
    | dsimp -zeta only

theorem execResidencyAllowanceExpiry_keeps (handle : Nat) (s : State) : OKeeps s (execResidencyAllowanceExpiry handle s) := by
  unfold execResidencyAllowanceExpiry
  repeat' first
    | assumption
    | with_reducible exact Keeps.refl _
    | with_reducible apply OKeeps.next ?_
    | exact True.intro
    | with_reducible apply Keeps.trans ?_ (expire_keeps _ _)
    | with_reducible apply Keeps.trans ?_ (onSess_keeps _ _ _)
    | (with_reducible apply Keeps.lit ?_ ?_ ?_ ?_ ?_ ?_); (on_goal 2 => rfl); (on_goal 2 => rfl); (on_goal 2 => rfl); (on_goal 2 => rfl); (on_goal 2 => rfl); first | assumption | with_reducible exact Keeps.refl _ | with_reducible apply Keeps.trans ?_ (expire_keeps _ _) | with_reducible apply Keeps.trans ?_ (onSess_keeps _ _ _)
    | dsimp -zeta only

theorem trickleRow_keeps (h : Nat) (s : State) : Keeps s (trickleRow h s) := by
  unfold trickleRow
  split
  · exact Keeps.refl _
  · split
    · extract_lets pages run r
      clear_value run
      split
      · split
        · exact onObj_keeps _ _ _
        · exact (reserveObject_keeps _ _ _ _ _).trans (onObj_keeps _ _ _)
      · exact Keeps.refl _
    · exact Keeps.refl _

theorem execDirectorySweep_keeps (elapsedUs : Nat) (s : State) : OKeeps s (execDirectorySweep elapsedUs s) := by
  unfold execDirectorySweep
  repeat' first
    | assumption
    | with_reducible exact Keeps.refl _
    | with_reducible apply OKeeps.next ?_
    | exact True.intro
    | with_reducible apply Keeps.trans ?_ (forEach_keeps _ _ _ (fun _ _ => ?_))
    | with_reducible apply Keeps.trans ?_ (trickleRow_keeps _ _)
    | with_reducible apply Keeps.trans ?_ (admitHeld_keeps _)
    | with_reducible apply Keeps.trans ?_ (relieve_keeps _)
    | with_reducible apply Keeps.trans ?_ (checkDeadlines_keeps _ _ _)
    | with_reducible apply Keeps.trans ?_ (expire_keeps _ _)
    | with_reducible apply Keeps.trans ?_ (passTime_keeps _ _)
    | extract_lets
    | split
    | dsimp -zeta only

theorem execHardDeadlineExpiry_keeps (handle : Nat) (s : State) : OKeeps s (execHardDeadlineExpiry handle s) := by
  unfold execHardDeadlineExpiry
  repeat' first
    | assumption
    | with_reducible exact Keeps.refl _
    | with_reducible apply OKeeps.next ?_
    | exact True.intro
    | with_reducible apply Keeps.trans ?_ (checkDeadline_keeps _ _ _)
    | with_reducible apply Keeps.trans ?_ (drainHeld_keeps _ _)
    | with_reducible apply Keeps.trans ?_ (freeSpent_keeps _ _)
    | with_reducible apply Keeps.trans ?_ (onSess_keeps _ _ _)
    | extract_lets
    | (with_reducible apply Keeps.lit ?_ ?_ ?_ ?_ ?_ ?_); (on_goal 2 => rfl); (on_goal 2 => rfl); (on_goal 2 => rfl); (on_goal 2 => rfl); (on_goal 2 => rfl); first | assumption | with_reducible exact Keeps.refl _ | with_reducible apply Keeps.trans ?_ (checkDeadline_keeps _ _ _) | with_reducible apply Keeps.trans ?_ (drainHeld_keeps _ _) | with_reducible apply Keeps.trans ?_ (freeSpent_keeps _ _) | with_reducible apply Keeps.trans ?_ (onSess_keeps _ _ _) | split
    | split
    | dsimp -zeta only

theorem execSoftDeadlineExpiry_keeps (handle : Nat) (s : State) : OKeeps s (execSoftDeadlineExpiry handle s) := by
  unfold execSoftDeadlineExpiry
  repeat' first
    | assumption
    | with_reducible exact Keeps.refl _
    | with_reducible apply OKeeps.next ?_
    | exact True.intro
    | with_reducible apply Keeps.trans ?_ (onSess_keeps _ _ _)
    | (with_reducible apply Keeps.lit ?_ ?_ ?_ ?_ ?_ ?_); (on_goal 2 => rfl); (on_goal 2 => rfl); (on_goal 2 => rfl); (on_goal 2 => rfl); (on_goal 2 => rfl); first | assumption | with_reducible exact Keeps.refl _ | with_reducible apply Keeps.trans ?_ (onSess_keeps _ _ _) | split
    | split
    | dsimp -zeta only

theorem execFrameAllowanceExpiry_keeps (handle frame : Nat) (s : State) : OKeeps s (execFrameAllowanceExpiry handle frame s) := by
  unfold execFrameAllowanceExpiry
  repeat' first
    | assumption
    | with_reducible exact Keeps.refl _
    | with_reducible apply OKeeps.next ?_
    | exact True.intro
    | with_reducible apply Keeps.trans ?_ (checkFrames_keeps _ _ _)
    | with_reducible apply Keeps.trans ?_ (onSess_keeps _ _ _)
    | extract_lets
    | (with_reducible apply Keeps.lit ?_ ?_ ?_ ?_ ?_ ?_); (on_goal 2 => rfl); (on_goal 2 => rfl); (on_goal 2 => rfl); (on_goal 2 => rfl); (on_goal 2 => rfl); first | assumption | with_reducible exact Keeps.refl _ | with_reducible apply Keeps.trans ?_ (checkFrames_keeps _ _ _) | with_reducible apply Keeps.trans ?_ (onSess_keeps _ _ _) | split
    | split
    | dsimp -zeta only

theorem stall_keeps (x : Stall) (s : State) : Keeps s (stall x s) := by
  unfold stall
  repeat' first
    | assumption
    | with_reducible exact Keeps.refl _
    | (with_reducible apply Keeps.lit ?_ ?_ ?_ ?_ ?_ ?_); (on_goal 2 => rfl); (on_goal 2 => rfl); (on_goal 2 => rfl); (on_goal 2 => rfl); (on_goal 2 => rfl); first | assumption | with_reducible exact Keeps.refl _ | split
    | split
    | dsimp -zeta only

theorem finishDemotion_keeps (h : Nat) (s : State) : Keeps s (finishDemotion h s) := by
  unfold finishDemotion
  repeat' first
    | assumption
    | with_reducible exact Keeps.refl _
    | with_reducible apply Keeps.trans ?_ (stall_keeps _ _)
    | with_reducible apply Keeps.trans ?_ (admitHeld_keeps _)
    | with_reducible apply Keeps.trans ?_ (relieve_keeps _)
    | with_reducible apply Keeps.trans ?_ (drainHeld_keeps _ _)
    | with_reducible apply Keeps.trans ?_ (commitDemotion_keeps _ _)
    | (with_reducible apply Keeps.lit ?_ ?_ ?_ ?_ ?_ ?_); (on_goal 2 => rfl); (on_goal 2 => rfl); (on_goal 2 => rfl); (on_goal 2 => rfl); (on_goal 2 => rfl); first | assumption | with_reducible exact Keeps.refl _ | with_reducible apply Keeps.trans ?_ (stall_keeps _ _) | with_reducible apply Keeps.trans ?_ (admitHeld_keeps _) | with_reducible apply Keeps.trans ?_ (relieve_keeps _) | with_reducible apply Keeps.trans ?_ (drainHeld_keeps _ _) | with_reducible apply Keeps.trans ?_ (commitDemotion_keeps _ _) | split
    | split
    | dsimp -zeta only

theorem execDemotionCommit_keeps (handle : Nat) (s : State) : OKeeps s (execDemotionCommit handle s) := by
  unfold execDemotionCommit
  repeat' first
    | assumption
    | with_reducible exact Keeps.refl _
    | with_reducible apply OKeeps.next ?_
    | exact True.intro
    | with_reducible apply Keeps.trans ?_ (finishDemotion_keeps _ _)
    | dsimp -zeta only

theorem execRevivalPhase1End_keeps (handle : Nat) (s : State) : OKeeps s (execRevivalPhase1End handle s) := by
  unfold execRevivalPhase1End
  repeat' first
    | assumption
    | with_reducible exact Keeps.refl _
    | with_reducible apply OKeeps.next ?_
    | exact True.intro
    | with_reducible apply Keeps.trans ?_ (drainHeld_keeps _ _)
    | with_reducible apply Keeps.trans ?_ (commitRevival_keeps _ _)
    | with_reducible apply Keeps.trans ?_ (onSess_keeps _ _ _)
    | (with_reducible apply Keeps.lit ?_ ?_ ?_ ?_ ?_ ?_); (on_goal 2 => rfl); (on_goal 2 => rfl); (on_goal 2 => rfl); (on_goal 2 => rfl); (on_goal 2 => rfl); first | assumption | with_reducible exact Keeps.refl _ | with_reducible apply Keeps.trans ?_ (drainHeld_keeps _ _) | with_reducible apply Keeps.trans ?_ (commitRevival_keeps _ _) | with_reducible apply Keeps.trans ?_ (onSess_keeps _ _ _) | split
    | split
    | dsimp -zeta only

theorem execIngotCommit_keeps (handle : Nat) (s : State) : OKeeps s (execIngotCommit handle s) := by
  unfold execIngotCommit
  repeat' first
    | assumption
    | with_reducible exact Keeps.refl _
    | with_reducible apply OKeeps.next ?_
    | exact True.intro
    | with_reducible apply Keeps.trans ?_ (admitHeld_keeps _)
    | with_reducible apply Keeps.trans ?_ (drainHeld_keeps _ _)
    | with_reducible apply Keeps.trans ?_ (commitPark_keeps _ _)
    | dsimp -zeta only

theorem onGroup_keeps (g : Nat) (f : MGroup → MGroup) (s : State) : Keeps s (onGroup g f s) := by
  unfold onGroup
  repeat' first
    | assumption
    | with_reducible exact Keeps.refl _
    | (with_reducible apply Keeps.lit ?_ ?_ ?_ ?_ ?_ ?_); (on_goal 2 => rfl); (on_goal 2 => rfl); (on_goal 2 => rfl); (on_goal 2 => rfl); (on_goal 2 => rfl); first | assumption | with_reducible exact Keeps.refl _
    | dsimp -zeta only

theorem tearSession_keeps (counterpart : Bool) (h : Nat) (s : State) : Keeps s (tearSession counterpart h s) := by
  unfold tearSession
  repeat' first
    | assumption
    | with_reducible exact Keeps.refl _
    | with_reducible apply Keeps.trans ?_ (maskSlot_keeps _ _)
    | with_reducible apply Keeps.trans ?_ (stopWaiting_keeps _ _)
    | with_reducible apply Keeps.trans ?_ (freeSpent_keeps _ _)
    | with_reducible apply Keeps.trans ?_ (endRequest_keeps _ _ _ _ _ _ _ _)
    | with_reducible apply Keeps.trans ?_ (flushHeld_keeps _ _ _ _)
    | with_reducible apply Keeps.trans ?_ (rewind_keeps _ _ _)
    | with_reducible apply Keeps.trans ?_ (emitOut_keeps _ _ _ _)
    | extract_lets
    | (with_reducible apply Keeps.lit ?_ ?_ ?_ ?_ ?_ ?_); (on_goal 2 => rfl); (on_goal 2 => rfl); (on_goal 2 => rfl); (on_goal 2 => rfl); (on_goal 2 => rfl); first | assumption | with_reducible exact Keeps.refl _ | with_reducible apply Keeps.trans ?_ (maskSlot_keeps _ _) | with_reducible apply Keeps.trans ?_ (stopWaiting_keeps _ _) | with_reducible apply Keeps.trans ?_ (freeSpent_keeps _ _) | with_reducible apply Keeps.trans ?_ (endRequest_keeps _ _ _ _ _ _ _ _) | with_reducible apply Keeps.trans ?_ (flushHeld_keeps _ _ _ _) | with_reducible apply Keeps.trans ?_ (rewind_keeps _ _ _) | with_reducible apply Keeps.trans ?_ (emitOut_keeps _ _ _ _) | split
    | split
    | dsimp -zeta only

theorem dropPours_keeps (model : Nat) (s : State) : Keeps s (dropPours model s) := by
  unfold dropPours
  repeat' first
    | assumption
    | with_reducible exact Keeps.refl _
    | with_reducible apply Keeps.trans ?_ (forEach_keeps _ _ _ (fun _ _ => ?_))
    | with_reducible apply Keeps.trans ?_ (discardWork_keeps _ _)
    | extract_lets
    | (with_reducible apply Keeps.lit ?_ ?_ ?_ ?_ ?_ ?_); (on_goal 2 => rfl); (on_goal 2 => rfl); (on_goal 2 => rfl); (on_goal 2 => rfl); (on_goal 2 => rfl); first | assumption | with_reducible exact Keeps.refl _ | with_reducible apply Keeps.trans ?_ (forEach_keeps _ _ _ (fun _ _ => ?_)) | with_reducible apply Keeps.trans ?_ (discardWork_keeps _ _) | split
    | split
    | dsimp -zeta only

theorem tearGroup_keeps (g : Nat) (s : State) : Keeps s (tearGroup g s) := by
  unfold tearGroup
  repeat' first
    | assumption
    | with_reducible exact Keeps.refl _
    | with_reducible apply Keeps.trans ?_ (forEach_keeps _ _ _ (fun _ _ => ?_))
    | with_reducible apply Keeps.trans ?_ (dropPours_keeps _ _)
    | with_reducible apply Keeps.trans ?_ (tearSession_keeps _ _ _)
    | with_reducible apply Keeps.trans ?_ (onGroup_keeps _ _ _)
    | with_reducible apply Keeps.trans ?_ (drainAll_keeps _)
    | with_reducible apply Keeps.trans ?_ (applyAsks_keeps _ _ _)
    | extract_lets
    | (with_reducible apply Keeps.lit ?_ ?_ ?_ ?_ ?_ ?_); (on_goal 2 => rfl); (on_goal 2 => rfl); (on_goal 2 => rfl); (on_goal 2 => rfl); (on_goal 2 => rfl); first | assumption | with_reducible exact Keeps.refl _ | with_reducible apply Keeps.trans ?_ (forEach_keeps _ _ _ (fun _ _ => ?_)) | with_reducible apply Keeps.trans ?_ (dropPours_keeps _ _) | with_reducible apply Keeps.trans ?_ (tearSession_keeps _ _ _) | with_reducible apply Keeps.trans ?_ (onGroup_keeps _ _ _) | with_reducible apply Keeps.trans ?_ (drainAll_keeps _) | with_reducible apply Keeps.trans ?_ (applyAsks_keeps _ _ _) | split
    | split
    | dsimp -zeta only

theorem fabricTeardown_keeps (g : Nat) (s : State) : Keeps s (fabricTeardown g s) := by
  unfold fabricTeardown
  repeat' first
    | assumption
    | with_reducible exact Keeps.refl _
    | with_reducible apply Keeps.trans ?_ (forEach_keeps _ _ _ (fun _ _ => ?_))
    | with_reducible apply Keeps.trans ?_ (tearGroup_keeps _ _)
    | with_reducible apply Keeps.trans ?_ (onGroup_keeps _ _ _)
    | with_reducible apply Keeps.trans ?_ (sendMgr_keeps _ _ _ _ _ _ _)
    | extract_lets
    | (with_reducible apply Keeps.lit ?_ ?_ ?_ ?_ ?_ ?_); (on_goal 2 => rfl); (on_goal 2 => rfl); (on_goal 2 => rfl); (on_goal 2 => rfl); (on_goal 2 => rfl); first | assumption | with_reducible exact Keeps.refl _ | with_reducible apply Keeps.trans ?_ (forEach_keeps _ _ _ (fun _ _ => ?_)) | with_reducible apply Keeps.trans ?_ (tearGroup_keeps _ _) | with_reducible apply Keeps.trans ?_ (onGroup_keeps _ _ _) | with_reducible apply Keeps.trans ?_ (sendMgr_keeps _ _ _ _ _ _ _) | split
    | split
    | dsimp -zeta only

theorem reportBroken_keeps (g reason : Nat) (s : State) : Keeps s (reportBroken g reason s) := by
  unfold reportBroken
  repeat' first
    | assumption
    | with_reducible exact Keeps.refl _
    | with_reducible apply Keeps.trans ?_ (fabricTeardown_keeps _ _)
    | with_reducible apply Keeps.trans ?_ (tearGroup_keeps _ _)
    | with_reducible apply Keeps.trans ?_ (sendMgr_keeps _ _ _ _ _ _ _)
    | split
    | dsimp -zeta only

theorem castPage_keeps (h row layer : Nat) (s : State) : Keeps s (castPage h row layer s) := by
  unfold castPage
  repeat' first
    | assumption
    | with_reducible exact Keeps.refl _
    | with_reducible apply Keeps.trans ?_ (stall_keeps _ _)
    | with_reducible apply Keeps.trans ?_ (anchorRow_keeps _ _ _)
    | with_reducible apply Keeps.trans ?_ (seat_keeps _ _)
    | with_reducible apply Keeps.trans ?_ (onPage_keeps _ _ _ _ _)
    | with_reducible apply Keeps.trans ?_ (endStream_keeps _ _)
    | with_reducible apply Keeps.trans ?_ (drawFree_keeps _)
    | extract_lets
    | (with_reducible apply Keeps.lit ?_ ?_ ?_ ?_ ?_ ?_); (on_goal 2 => rfl); (on_goal 2 => rfl); (on_goal 2 => rfl); (on_goal 2 => rfl); (on_goal 2 => rfl); first | assumption | with_reducible exact Keeps.refl _ | with_reducible apply Keeps.trans ?_ (stall_keeps _ _) | with_reducible apply Keeps.trans ?_ (anchorRow_keeps _ _ _) | with_reducible apply Keeps.trans ?_ (seat_keeps _ _) | with_reducible apply Keeps.trans ?_ (onPage_keeps _ _ _ _ _) | with_reducible apply Keeps.trans ?_ (endStream_keeps _ _) | with_reducible apply Keeps.trans ?_ (drawFree_keeps _) | split
    | split
    | dsimp -zeta only

theorem execPageCast_keeps (handle row layer : Nat) (s : State) : OKeeps s (execPageCast handle row layer s) := by
  unfold execPageCast
  repeat' first
    | assumption
    | with_reducible exact Keeps.refl _
    | with_reducible apply OKeeps.next ?_
    | exact True.intro
    | with_reducible apply Keeps.trans ?_ (castPage_keeps _ _ _ _)
    | dsimp -zeta only

theorem execWriteDownFailed_keeps (handle row layer : Nat) (s : State) : OKeeps s (execWriteDownFailed handle row layer s) := by
  unfold execWriteDownFailed
  repeat' first
    | assumption
    | with_reducible exact Keeps.refl _
    | with_reducible apply OKeeps.next ?_
    | exact True.intro
    | with_reducible apply Keeps.trans ?_ (note_keeps _ _ _)
    | dsimp -zeta only

theorem secondCopy_keeps (h row layer : Nat) (s : State) : Keeps s (secondCopy h row layer s) := by
  unfold secondCopy
  repeat' first
    | assumption
    | with_reducible exact Keeps.refl _
    | with_reducible apply Keeps.trans ?_ (stall_keeps _ _)
    | with_reducible apply Keeps.trans ?_ (anchorRow_keeps _ _ _)
    | with_reducible apply Keeps.trans ?_ (seat_keeps _ _)
    | with_reducible apply Keeps.trans ?_ (onPage_keeps _ _ _ _ _)
    | with_reducible apply Keeps.trans ?_ (drawFree_keeps _)
    | extract_lets
    | (with_reducible apply Keeps.lit ?_ ?_ ?_ ?_ ?_ ?_); (on_goal 2 => rfl); (on_goal 2 => rfl); (on_goal 2 => rfl); (on_goal 2 => rfl); (on_goal 2 => rfl); first | assumption | with_reducible exact Keeps.refl _ | with_reducible apply Keeps.trans ?_ (stall_keeps _ _) | with_reducible apply Keeps.trans ?_ (anchorRow_keeps _ _ _) | with_reducible apply Keeps.trans ?_ (seat_keeps _ _) | with_reducible apply Keeps.trans ?_ (onPage_keeps _ _ _ _ _) | with_reducible apply Keeps.trans ?_ (drawFree_keeps _) | split
    | split
    | dsimp -zeta only

theorem remeltPage_keeps (h : Nat) (g : Page) (s : State) : Keeps s (remeltPage h g s) := by
  unfold remeltPage
  repeat' first
    | assumption
    | with_reducible exact Keeps.refl _
    | with_reducible apply Keeps.trans ?_ (secondCopy_keeps _ _ _ _)
    | split
    | dsimp -zeta only

theorem execRemeltPhase2End_keeps (handle : Nat) (s : State) : OKeeps s (execRemeltPhase2End handle s) := by
  unfold execRemeltPhase2End
  repeat' first
    | assumption
    | with_reducible exact Keeps.refl _
    | with_reducible apply OKeeps.next ?_
    | exact True.intro
    | with_reducible apply Keeps.trans ?_ (forEach_keeps _ _ _ (fun _ _ => ?_))
    | with_reducible apply Keeps.trans ?_ (remeltPage_keeps _ _ _)
    | with_reducible apply Keeps.trans ?_ (onSess_keeps _ _ _)
    | (with_reducible apply Keeps.lit ?_ ?_ ?_ ?_ ?_ ?_); (on_goal 2 => rfl); (on_goal 2 => rfl); (on_goal 2 => rfl); (on_goal 2 => rfl); (on_goal 2 => rfl); first | assumption | with_reducible exact Keeps.refl _ | with_reducible apply Keeps.trans ?_ (forEach_keeps _ _ _ (fun _ _ => ?_)) | with_reducible apply Keeps.trans ?_ (remeltPage_keeps _ _ _) | with_reducible apply Keeps.trans ?_ (onSess_keeps _ _ _) | split
    | split
    | dsimp -zeta only

theorem resumeWrite_keeps (x : Stall) (s : State) : Keeps s (resumeWrite x s) := by
  unfold resumeWrite
  repeat' first
    | assumption
    | with_reducible exact Keeps.refl _
    | with_reducible apply Keeps.trans ?_ (secondCopy_keeps _ _ _ _)
    | with_reducible apply Keeps.trans ?_ (castPage_keeps _ _ _ _)
    | with_reducible apply Keeps.trans ?_ (finishDemotion_keeps _ _)
    | (with_reducible apply Keeps.lit ?_ ?_ ?_ ?_ ?_ ?_); (on_goal 2 => rfl); (on_goal 2 => rfl); (on_goal 2 => rfl); (on_goal 2 => rfl); (on_goal 2 => rfl); first | assumption | with_reducible exact Keeps.refl _ | with_reducible apply Keeps.trans ?_ (secondCopy_keeps _ _ _ _) | with_reducible apply Keeps.trans ?_ (castPage_keeps _ _ _ _) | with_reducible apply Keeps.trans ?_ (finishDemotion_keeps _ _) | split
    | split
    | dsimp -zeta only

theorem execStalledWriteResume_keeps (partition : Nat) (s : State) : OKeeps s (execStalledWriteResume partition s) := by
  unfold execStalledWriteResume
  repeat' first
    | assumption
    | with_reducible exact Keeps.refl _
    | with_reducible apply OKeeps.next ?_
    | exact True.intro
    | with_reducible apply Keeps.trans ?_ (forEach_keeps _ _ _ (fun _ _ => ?_))
    | with_reducible apply Keeps.trans ?_ (resumeWrite_keeps _ _)
    | extract_lets
    | (with_reducible apply Keeps.lit ?_ ?_ ?_ ?_ ?_ ?_); (on_goal 2 => rfl); (on_goal 2 => rfl); (on_goal 2 => rfl); (on_goal 2 => rfl); (on_goal 2 => rfl); first | assumption | with_reducible exact Keeps.refl _ | with_reducible apply Keeps.trans ?_ (forEach_keeps _ _ _ (fun _ _ => ?_)) | with_reducible apply Keeps.trans ?_ (resumeWrite_keeps _ _)
    | dsimp -zeta only

theorem execStoreCopyCommit_keeps (handle row : Nat) (s : State) : OKeeps s (execStoreCopyCommit handle row s) := by
  unfold execStoreCopyCommit
  repeat' first
    | assumption
    | with_reducible exact Keeps.refl _
    | with_reducible apply OKeeps.next ?_
    | exact True.intro
    | with_reducible apply Keeps.trans ?_ (trickleRow_keeps _ _)
    | with_reducible apply Keeps.trans ?_ (onObj_keeps _ _ _)
    | with_reducible apply Keeps.trans ?_ (onSess_keeps _ _ _)
    | (extract_lets +onlyGivenNames x; first | ((with_reducible refine Keeps.cut (u := x) ?_ ?_); (on_goal 1 => dsimp -zeta only [x]); on_goal 2 => (intro _; clear_value x)) | ((with_reducible refine Keeps.cut (u := x.2) ?_ ?_); (on_goal 1 => dsimp -zeta only [x]); on_goal 2 => (intro _; clear_value x)) | ((with_reducible refine Keeps.cut (u := x.1) ?_ ?_); (on_goal 1 => dsimp -zeta only [x]); on_goal 2 => (intro _; clear_value x)) | skip)
    | (with_reducible apply Keeps.lit ?_ ?_ ?_ ?_ ?_ ?_); (on_goal 2 => rfl); (on_goal 2 => rfl); (on_goal 2 => rfl); (on_goal 2 => rfl); (on_goal 2 => rfl); first | assumption | with_reducible exact Keeps.refl _ | with_reducible apply Keeps.trans ?_ (trickleRow_keeps _ _) | with_reducible apply Keeps.trans ?_ (onObj_keeps _ _ _) | with_reducible apply Keeps.trans ?_ (onSess_keeps _ _ _) | split
    | split
    | dsimp -zeta only

theorem dropFetch_keeps (h row layer : Nat) (s : State) : Keeps s (dropFetch h row layer s) := by
  unfold dropFetch
  repeat' first
    | assumption
    | with_reducible exact Keeps.refl _
    | (with_reducible apply Keeps.lit ?_ ?_ ?_ ?_ ?_ ?_); (on_goal 2 => rfl); (on_goal 2 => rfl); (on_goal 2 => rfl); (on_goal 2 => rfl); (on_goal 2 => rfl); first | assumption | with_reducible exact Keeps.refl _
    | dsimp -zeta only

theorem faultSlot_keeps (h : Nat) (o : OCode) (s : State) : Keeps s (faultSlot h o s) := by
  unfold faultSlot
  repeat' first
    | assumption
    | with_reducible exact Keeps.refl _
    | extract_lets
    | (with_reducible apply Keeps.lit ?_ ?_ ?_ ?_ ?_ ?_); (on_goal 2 => rfl); (on_goal 2 => rfl); (on_goal 2 => rfl); (on_goal 2 => rfl); (on_goal 2 => rfl); first | assumption | with_reducible exact Keeps.refl _ | split
    | split
    | dsimp -zeta only

theorem noteCame_keeps (h row layer : Nat) (s : State) : Keeps s (noteCame h row layer s) := by
  unfold noteCame
  repeat' first
    | assumption
    | with_reducible exact Keeps.refl _
    | extract_lets
    | (with_reducible apply Keeps.lit ?_ ?_ ?_ ?_ ?_ ?_); (on_goal 2 => rfl); (on_goal 2 => rfl); (on_goal 2 => rfl); (on_goal 2 => rfl); (on_goal 2 => rfl); first | assumption | with_reducible exact Keeps.refl _ | split
    | split
    | dsimp -zeta only

theorem loadT0_keeps (h row layer : Nat) (s : State) : Keeps s (loadT0 h row layer s) := by
  unfold loadT0
  repeat' first
    | assumption
    | with_reducible exact Keeps.refl _
    | (with_reducible apply Keeps.lit ?_ ?_ ?_ ?_ ?_ ?_); (on_goal 2 => rfl); (on_goal 2 => rfl); (on_goal 2 => rfl); (on_goal 2 => rfl); (on_goal 2 => rfl); first | assumption | with_reducible exact Keeps.refl _ | split
    | split
    | dsimp -zeta only

theorem execDemandFetchComplete_keeps (handle row layer : Nat) (s : State) : OKeeps s (execDemandFetchComplete handle row layer s) := by
  unfold execDemandFetchComplete
  repeat' first
    | assumption
    | with_reducible exact Keeps.refl _
    | with_reducible apply OKeeps.next ?_
    | exact True.intro
    | with_reducible apply Keeps.trans ?_ (loadT0_keeps _ _ _ _)
    | with_reducible apply Keeps.trans ?_ (noteCame_keeps _ _ _ _)
    | with_reducible apply Keeps.trans ?_ (dropFetch_keeps _ _ _ _)
    | with_reducible apply Keeps.trans ?_ (onPage_keeps _ _ _ _ _)
    | extract_lets
    | (with_reducible apply Keeps.lit ?_ ?_ ?_ ?_ ?_ ?_); (on_goal 2 => rfl); (on_goal 2 => rfl); (on_goal 2 => rfl); (on_goal 2 => rfl); (on_goal 2 => rfl); first | assumption | with_reducible exact Keeps.refl _ | with_reducible apply Keeps.trans ?_ (loadT0_keeps _ _ _ _) | with_reducible apply Keeps.trans ?_ (noteCame_keeps _ _ _ _) | with_reducible apply Keeps.trans ?_ (dropFetch_keeps _ _ _ _) | with_reducible apply Keeps.trans ?_ (onPage_keeps _ _ _ _ _) | split
    | split
    | dsimp -zeta only

theorem execDemandFetchLate_keeps (handle row layer : Nat) (s : State) : OKeeps s (execDemandFetchLate handle row layer s) := by
  unfold execDemandFetchLate
  repeat' first
    | assumption
    | with_reducible exact Keeps.refl _
    | with_reducible apply OKeeps.next ?_
    | exact True.intro
    | with_reducible apply Keeps.trans ?_ (faultSlot_keeps _ _ _)
    | extract_lets
    | (with_reducible apply Keeps.lit ?_ ?_ ?_ ?_ ?_ ?_); (on_goal 2 => rfl); (on_goal 2 => rfl); (on_goal 2 => rfl); (on_goal 2 => rfl); (on_goal 2 => rfl); first | assumption | with_reducible exact Keeps.refl _ | with_reducible apply Keeps.trans ?_ (faultSlot_keeps _ _ _) | split
    | split
    | dsimp -zeta only

theorem fetchFailed_keeps (h row layer : Nat) (s : State) : Keeps s (fetchFailed h row layer s) := by
  unfold fetchFailed
  repeat' first
    | assumption
    | with_reducible exact Keeps.refl _
    | with_reducible apply Keeps.trans ?_ (faultSlot_keeps _ _ _)
    | with_reducible apply Keeps.trans ?_ (dropFetch_keeps _ _ _ _)
    | (with_reducible apply Keeps.lit ?_ ?_ ?_ ?_ ?_ ?_); (on_goal 2 => rfl); (on_goal 2 => rfl); (on_goal 2 => rfl); (on_goal 2 => rfl); (on_goal 2 => rfl); first | assumption | with_reducible exact Keeps.refl _ | with_reducible apply Keeps.trans ?_ (faultSlot_keeps _ _ _) | with_reducible apply Keeps.trans ?_ (dropFetch_keeps _ _ _ _) | split
    | split
    | dsimp -zeta only

theorem settleLoss_keeps (b : Bool) (h : Nat) (s : State) : Keeps s (settleLoss b h s) := by
  unfold settleLoss
  repeat' first
    | assumption
    | with_reducible exact Keeps.refl _
    | with_reducible apply Keeps.trans ?_ (truncateSession_keeps _ _ _ _)
    | with_reducible apply Keeps.trans ?_ (loseSession_keeps _ _ _)
    | with_reducible apply Keeps.trans ?_ (setSess_keeps _ _)
    | extract_lets
    | (with_reducible apply Keeps.lit ?_ ?_ ?_ ?_ ?_ ?_); (on_goal 2 => rfl); (on_goal 2 => rfl); (on_goal 2 => rfl); (on_goal 2 => rfl); (on_goal 2 => rfl); first | assumption | with_reducible exact Keeps.refl _ | with_reducible apply Keeps.trans ?_ (truncateSession_keeps _ _ _ _) | with_reducible apply Keeps.trans ?_ (loseSession_keeps _ _ _) | with_reducible apply Keeps.trans ?_ (setSess_keeps _ _) | split
    | split
    | dsimp -zeta only

theorem settleUnslotted_keeps (s : State) : Keeps s (settleUnslotted s) := by
  unfold settleUnslotted
  repeat' first
    | assumption
    | with_reducible exact Keeps.refl _
    | with_reducible apply Keeps.trans ?_ (forEach_keeps _ _ _ (fun _ _ => ?_))
    | with_reducible apply Keeps.trans ?_ (settleLoss_keeps _ _ _)
    | with_reducible apply Keeps.trans ?_ (freeSpent_keeps _ _)
    | dsimp -zeta only

theorem settleSlotted_keeps (flask : Nat) (s : State) : Keeps s (settleSlotted flask s) := by
  unfold settleSlotted
  repeat' first
    | assumption
    | with_reducible exact Keeps.refl _
    | with_reducible apply Keeps.trans ?_ (forEach_keeps _ _ _ (fun _ _ => ?_))
    | with_reducible apply Keeps.trans ?_ (settleLoss_keeps _ _ _)
    | dsimp -zeta only

theorem modelLoss_keeps (pool : Nat) (m : Model) (s : State) : Keeps s (modelLoss pool m s) := by
  unfold modelLoss
  repeat' first
    | assumption
    | with_reducible exact Keeps.refl _
    | with_reducible apply Keeps.trans ?_ (forEach_keeps _ _ _ (fun _ _ => ?_))
    | with_reducible apply Keeps.trans ?_ (faultSlot_keeps _ _ _)
    | with_reducible apply Keeps.trans ?_ (stopWaiting_keeps _ _)
    | with_reducible apply Keeps.trans ?_ (freeSpent_keeps _ _)
    | with_reducible apply Keeps.trans ?_ (endRequest_keeps _ _ _ _ _ _ _ _)
    | with_reducible apply Keeps.trans ?_ (placeWeights_keeps _ _)
    | with_reducible apply Keeps.trans ?_ (onModel_keeps _ _ _)
    | extract_lets
    | (with_reducible apply Keeps.lit ?_ ?_ ?_ ?_ ?_ ?_); (on_goal 2 => rfl); (on_goal 2 => rfl); (on_goal 2 => rfl); (on_goal 2 => rfl); (on_goal 2 => rfl); first | assumption | with_reducible exact Keeps.refl _ | with_reducible apply Keeps.trans ?_ (forEach_keeps _ _ _ (fun _ _ => ?_)) | with_reducible apply Keeps.trans ?_ (faultSlot_keeps _ _ _) | with_reducible apply Keeps.trans ?_ (stopWaiting_keeps _ _) | with_reducible apply Keeps.trans ?_ (freeSpent_keeps _ _) | with_reducible apply Keeps.trans ?_ (endRequest_keeps _ _ _ _ _ _ _ _) | with_reducible apply Keeps.trans ?_ (placeWeights_keeps _ _) | with_reducible apply Keeps.trans ?_ (onModel_keeps _ _ _) | split
    | split
    | dsimp -zeta only

theorem failFetches_keeps (tier : Nat) (s : State) : Keeps s (failFetches tier s) := by
  unfold failFetches
  repeat' first
    | assumption
    | with_reducible exact Keeps.refl _
    | with_reducible apply Keeps.trans ?_ (forEach_keeps _ _ _ (fun _ _ => ?_))
    | with_reducible apply Keeps.trans ?_ (fetchFailed_keeps _ _ _ _)
    | dsimp -zeta only

theorem strikeSlabs_keeps (s : State) : Keeps s (strikeSlabs s) := by
  unfold strikeSlabs
  repeat' first
    | assumption
    | with_reducible exact Keeps.refl _
    | extract_lets
    | (with_reducible apply Keeps.lit ?_ ?_ ?_ ?_ ?_ ?_); (on_goal 2 => rfl); (on_goal 2 => rfl); (on_goal 2 => rfl); (on_goal 2 => rfl); (on_goal 2 => rfl); first | assumption | with_reducible exact Keeps.refl _
    | dsimp -zeta only

theorem poolLost_keeps (n : Nat) (s : State) : Keeps s (poolLost n s) := by
  unfold poolLost
  repeat' first
    | assumption
    | with_reducible exact Keeps.refl _
    | with_reducible apply Keeps.trans ?_ (forEach_keeps _ _ _ (fun _ _ => ?_))
    | with_reducible apply Keeps.trans ?_ (strikeSlabs_keeps _)
    | with_reducible apply Keeps.trans ?_ (failFetches_keeps _ _)
    | with_reducible apply Keeps.trans ?_ (modelLoss_keeps _ _ _)
    | with_reducible apply Keeps.trans ?_ (settleUnslotted_keeps _)
    | with_reducible apply Keeps.trans ?_ (sendMgr_keeps _ _ _ _ _ _ _)
    | with_reducible apply Keeps.trans ?_ (healthSignal_keeps _ _ _)
    | extract_lets
    | (with_reducible apply Keeps.lit ?_ ?_ ?_ ?_ ?_ ?_); (on_goal 2 => rfl); (on_goal 2 => rfl); (on_goal 2 => rfl); (on_goal 2 => rfl); (on_goal 2 => rfl); first | assumption | with_reducible exact Keeps.refl _ | with_reducible apply Keeps.trans ?_ (forEach_keeps _ _ _ (fun _ _ => ?_)) | with_reducible apply Keeps.trans ?_ (strikeSlabs_keeps _) | with_reducible apply Keeps.trans ?_ (failFetches_keeps _ _) | with_reducible apply Keeps.trans ?_ (modelLoss_keeps _ _ _) | with_reducible apply Keeps.trans ?_ (settleUnslotted_keeps _) | with_reducible apply Keeps.trans ?_ (sendMgr_keeps _ _ _ _ _ _ _) | with_reducible apply Keeps.trans ?_ (healthSignal_keeps _ _ _) | split
    | split
    | dsimp -zeta only

theorem hostRegionsLost_keeps (link : Nat) (s : State) : Keeps s (hostRegionsLost link s) := by
  unfold hostRegionsLost
  repeat' first
    | assumption
    | with_reducible exact Keeps.refl _
    | with_reducible apply Keeps.trans ?_ (failFetches_keeps _ _)
    | with_reducible apply Keeps.trans ?_ (settleUnslotted_keeps _)
    | extract_lets
    | (with_reducible apply Keeps.lit ?_ ?_ ?_ ?_ ?_ ?_); (on_goal 2 => rfl); (on_goal 2 => rfl); (on_goal 2 => rfl); (on_goal 2 => rfl); (on_goal 2 => rfl); first | assumption | with_reducible exact Keeps.refl _ | with_reducible apply Keeps.trans ?_ (failFetches_keeps _ _) | with_reducible apply Keeps.trans ?_ (settleUnslotted_keeps _) | split
    | split
    | dsimp -zeta only

theorem missRead_keeps (n : Nat) (s : State) : Keeps s (missRead n s) := by
  unfold missRead
  repeat' first
    | assumption
    | with_reducible exact Keeps.refl _
    | with_reducible apply Keeps.trans ?_ (poolLost_keeps _ _)
    | extract_lets
    | (with_reducible apply Keeps.lit ?_ ?_ ?_ ?_ ?_ ?_); (on_goal 2 => rfl); (on_goal 2 => rfl); (on_goal 2 => rfl); (on_goal 2 => rfl); (on_goal 2 => rfl); first | assumption | with_reducible exact Keeps.refl _ | with_reducible apply Keeps.trans ?_ (poolLost_keeps _ _) | split
    | split
    | dsimp -zeta only

theorem execDemandFetchFailed_keeps (handle row layer : Nat) (s : State) : OKeeps s (execDemandFetchFailed handle row layer s) := by
  unfold execDemandFetchFailed
  repeat' first
    | assumption
    | with_reducible exact Keeps.refl _
    | with_reducible apply OKeeps.next ?_
    | exact True.intro
    | with_reducible apply Keeps.trans ?_ (missRead_keeps _ _)
    | with_reducible apply Keeps.trans ?_ (fetchFailed_keeps _ _ _ _)
    | extract_lets
    | (with_reducible apply Keeps.lit ?_ ?_ ?_ ?_ ?_ ?_); (on_goal 2 => rfl); (on_goal 2 => rfl); (on_goal 2 => rfl); (on_goal 2 => rfl); (on_goal 2 => rfl); first | assumption | with_reducible exact Keeps.refl _ | with_reducible apply Keeps.trans ?_ (missRead_keeps _ _) | with_reducible apply Keeps.trans ?_ (fetchFailed_keeps _ _ _ _) | split
    | split
    | dsimp -zeta only

theorem endLate_keeps (b : Bool) (h : Nat) (s : State) : Keeps s (endLate b h s) := by
  unfold endLate
  repeat' first
    | assumption
    | with_reducible exact Keeps.refl _
    | with_reducible apply Keeps.trans ?_ (freeSpent_keeps _ _)
    | with_reducible apply Keeps.trans ?_ (endRequest_keeps _ _ _ _ _ _ _ _)
    | with_reducible apply Keeps.trans ?_ (onSess_keeps _ _ _)
    | (with_reducible apply Keeps.lit ?_ ?_ ?_ ?_ ?_ ?_); (on_goal 2 => rfl); (on_goal 2 => rfl); (on_goal 2 => rfl); (on_goal 2 => rfl); (on_goal 2 => rfl); first | assumption | with_reducible exact Keeps.refl _ | with_reducible apply Keeps.trans ?_ (freeSpent_keeps _ _) | with_reducible apply Keeps.trans ?_ (endRequest_keeps _ _ _ _ _ _ _ _) | with_reducible apply Keeps.trans ?_ (onSess_keeps _ _ _) | split
    | split
    | dsimp -zeta only

theorem execFrozenReadLate_keeps (handle : Nat) (s : State) : OKeeps s (execFrozenReadLate handle s) := by
  unfold execFrozenReadLate
  repeat' first
    | assumption
    | with_reducible exact Keeps.refl _
    | with_reducible apply OKeeps.next ?_
    | exact True.intro
    | with_reducible apply Keeps.trans ?_ (endLate_keeps _ _ _)
    | with_reducible apply Keeps.trans ?_ (onSess_keeps _ _ _)
    | extract_lets
    | (with_reducible apply Keeps.lit ?_ ?_ ?_ ?_ ?_ ?_); (on_goal 2 => rfl); (on_goal 2 => rfl); (on_goal 2 => rfl); (on_goal 2 => rfl); (on_goal 2 => rfl); first | assumption | with_reducible exact Keeps.refl _ | with_reducible apply Keeps.trans ?_ (endLate_keeps _ _ _) | with_reducible apply Keeps.trans ?_ (onSess_keeps _ _ _) | split
    | split
    | dsimp -zeta only

theorem execBridgeFatalError_keeps (pool : Nat) (s : State) : OKeeps s (execBridgeFatalError pool s) := by
  unfold execBridgeFatalError
  repeat' first
    | assumption
    | with_reducible exact Keeps.refl _
    | with_reducible apply OKeeps.next ?_
    | exact True.intro
    | with_reducible apply Keeps.trans ?_ (poolLost_keeps _ _)
    | with_reducible apply Keeps.trans ?_ (drainAll_keeps _)
    | dsimp -zeta only

theorem moveOut_keeps (stack region : Nat) (s : State) : Keeps s (moveOut stack region s) := by
  unfold moveOut
  extract_lets held s1 fetched r landed group q
  have h1 : Keeps s s1 := forEach_keeps _ _ _ (fun x t => by
    split
    · exact (onSess_keeps _ _ _).trans (seat_keeps _ _)
    · exact Keeps.refl _)
  clear_value s1
  have h2 : Keeps s r.2 := h1.trans (foldl_pair_keeps (β := List Fetch) fetched (fun t f => by
    dsimp only [fetched]
    split
    · exact takeT1_keeps _ _ _ _ _
    · exact Keeps.refl _) _ ([], s1))
  clear_value r
  have h3 : Keeps s q.2 := h2.trans (foldl_pair_keeps (β := List MGroup) group (fun t g =>
    foldl_pair_keeps (β := List Landing) landed (fun t f => by
      dsimp only [landed]
      split
      · exact takeT1_keeps _ _ _ _ _
      · exact Keeps.refl _) _ ([], t.2)) _ ([], r.2))
  exact Keeps.lit h3 rfl rfl rfl rfl rfl

theorem retireRegion_keeps (stack region : Nat) (s : State) : Keeps s (retireRegion stack region s) := by
  unfold retireRegion
  repeat' first
    | assumption
    | with_reducible exact Keeps.refl _
    | with_reducible apply Keeps.trans ?_ (moveOut_keeps _ _ _)
    | with_reducible apply Keeps.trans ?_ (healthEvent_keeps _ _ _)
    | with_reducible apply Keeps.trans ?_ (hrRewrite_keeps _ _)
    | with_reducible apply Keeps.trans ?_ (fireState_keeps _)
    | extract_lets
    | (with_reducible apply Keeps.lit ?_ ?_ ?_ ?_ ?_ ?_); (on_goal 2 => rfl); (on_goal 2 => rfl); (on_goal 2 => rfl); (on_goal 2 => rfl); (on_goal 2 => rfl); first | assumption | with_reducible exact Keeps.refl _ | with_reducible apply Keeps.trans ?_ (moveOut_keeps _ _ _) | with_reducible apply Keeps.trans ?_ (healthEvent_keeps _ _ _) | with_reducible apply Keeps.trans ?_ (hrRewrite_keeps _ _) | with_reducible apply Keeps.trans ?_ (fireState_keeps _) | split
    | split
    | dsimp -zeta only

theorem recastPatterns_keeps (h layer : Nat) (s : State) : Keeps s (recastPatterns h layer s) := by
  unfold recastPatterns
  repeat' first
    | assumption
    | with_reducible exact Keeps.refl _
    | with_reducible apply Keeps.trans ?_ (drawFree_keeps _)
    | with_reducible apply Keeps.trans ?_ (onSess_keeps _ _ _)
    | extract_lets
    | (with_reducible apply Keeps.lit ?_ ?_ ?_ ?_ ?_ ?_); (on_goal 2 => rfl); (on_goal 2 => rfl); (on_goal 2 => rfl); (on_goal 2 => rfl); (on_goal 2 => rfl); first | assumption | with_reducible exact Keeps.refl _ | with_reducible apply Keeps.trans ?_ (drawFree_keeps _) | with_reducible apply Keeps.trans ?_ (onSess_keeps _ _ _) | split
    | split
    | dsimp -zeta only

theorem cutLost_keeps (h q : Nat) (s : State) : Keeps s (cutLost h q s) := by
  unfold cutLost
  repeat' first
    | assumption
    | with_reducible exact Keeps.refl _
    | with_reducible apply Keeps.trans ?_ (maskSlot_keeps _ _)
    | with_reducible apply Keeps.trans ?_ (truncateSession_keeps _ _ _ _)
    | with_reducible apply Keeps.trans ?_ (freeSpent_keeps _ _)
    | dsimp -zeta only

theorem lineLost_keeps (held : LineHeld) (s : State) : Keeps s (lineLost held s) := by
  unfold lineLost
  repeat' first
    | assumption
    | with_reducible exact Keeps.refl _
    | with_reducible apply Keeps.trans ?_ (forEach_keeps _ _ _ (fun _ _ => ?_))
    | with_reducible apply Keeps.trans ?_ (cutLost_keeps _ _ _)
    | with_reducible apply Keeps.trans ?_ (recastPatterns_keeps _ _ _)
    | with_reducible apply Keeps.trans ?_ (reportBroken_keeps _ _ _)
    | with_reducible apply Keeps.trans ?_ (maskSlot_keeps _ _)
    | with_reducible apply Keeps.trans ?_ (loseSession_keeps _ _ _)
    | with_reducible apply Keeps.trans ?_ (onPage_keeps _ _ _ _ _)
    | with_reducible apply Keeps.trans ?_ (fireState_keeps _)
    | with_reducible apply Keeps.trans ?_ (onModel_keeps _ _ _)
    | with_reducible apply Keeps.trans ?_ (onFn_keeps _ _ _)
    | with_reducible apply Keeps.trans ?_ (onSess_keeps _ _ _)
    | extract_lets
    | (with_reducible apply Keeps.lit ?_ ?_ ?_ ?_ ?_ ?_); (on_goal 2 => rfl); (on_goal 2 => rfl); (on_goal 2 => rfl); (on_goal 2 => rfl); (on_goal 2 => rfl); first | assumption | with_reducible exact Keeps.refl _ | with_reducible apply Keeps.trans ?_ (forEach_keeps _ _ _ (fun _ _ => ?_)) | with_reducible apply Keeps.trans ?_ (cutLost_keeps _ _ _) | with_reducible apply Keeps.trans ?_ (recastPatterns_keeps _ _ _) | with_reducible apply Keeps.trans ?_ (reportBroken_keeps _ _ _) | with_reducible apply Keeps.trans ?_ (maskSlot_keeps _ _) | with_reducible apply Keeps.trans ?_ (loseSession_keeps _ _ _) | with_reducible apply Keeps.trans ?_ (onPage_keeps _ _ _ _ _) | with_reducible apply Keeps.trans ?_ (fireState_keeps _) | with_reducible apply Keeps.trans ?_ (onModel_keeps _ _ _) | with_reducible apply Keeps.trans ?_ (onFn_keeps _ _ _) | with_reducible apply Keeps.trans ?_ (onSess_keeps _ _ _) | split
    | split
    | dsimp -zeta only

theorem execHbmCorrected_keeps (stack region meterS : Nat) (s : State) : OKeeps s (execHbmCorrected stack region meterS s) := by
  unfold execHbmCorrected
  split
  · exact Keeps.refl s
  · extract_lets src s1 near keep src2
    have h1 : Keeps s s1 := Keeps.lit (Keeps.refl s) rfl rfl rfl rfl rfl
    clear_value s1
    split
    · exact (Keeps.lit h1 rfl rfl rfl rfl rfl).trans (retireRegion_keeps _ _ _)
    · exact Keeps.lit h1 rfl rfl rfl rfl rfl

theorem execPatrolScrub_keeps (die : Nat) (s : State) : OKeeps s (execPatrolScrub die s) := by
  unfold execPatrolScrub
  repeat' first
    | assumption
    | with_reducible exact Keeps.refl _
    | with_reducible apply OKeeps.next ?_
    | exact True.intro
    | (with_reducible apply Keeps.lit ?_ ?_ ?_ ?_ ?_ ?_); (on_goal 2 => rfl); (on_goal 2 => rfl); (on_goal 2 => rfl); (on_goal 2 => rfl); (on_goal 2 => rfl); first | assumption | with_reducible exact Keeps.refl _ | split
    | split
    | dsimp -zeta only

theorem settleRemoval_keeps (s : State) : Keeps s (settleRemoval s) := by
  unfold settleRemoval
  repeat' first
    | assumption
    | with_reducible exact Keeps.refl _
    | extract_lets
    | (with_reducible apply Keeps.lit ?_ ?_ ?_ ?_ ?_ ?_); (on_goal 2 => rfl); (on_goal 2 => rfl); (on_goal 2 => rfl); (on_goal 2 => rfl); (on_goal 2 => rfl); first | assumption | with_reducible exact Keeps.refl _ | split
    | split
    | dsimp -zeta only

theorem unspill_keeps (x : Session) (p : ModelProgram) (g : Page) (s : State) : Keeps s (unspill x p g s) := by
  unfold unspill
  repeat' first
    | assumption
    | with_reducible exact Keeps.refl _
    | with_reducible apply Keeps.trans ?_ (settleRemoval_keeps _)
    | with_reducible apply Keeps.trans ?_ (seat_keeps _ _)
    | with_reducible apply Keeps.trans ?_ (onPage_keeps _ _ _ _ _)
    | with_reducible apply Keeps.trans ?_ (drawFree_keeps _)
    | (with_reducible apply Keeps.lit ?_ ?_ ?_ ?_ ?_ ?_); (on_goal 2 => rfl); (on_goal 2 => rfl); (on_goal 2 => rfl); (on_goal 2 => rfl); (on_goal 2 => rfl); first | assumption | with_reducible exact Keeps.refl _ | with_reducible apply Keeps.trans ?_ (settleRemoval_keeps _) | with_reducible apply Keeps.trans ?_ (seat_keeps _ _) | with_reducible apply Keeps.trans ?_ (onPage_keeps _ _ _ _ _) | with_reducible apply Keeps.trans ?_ (drawFree_keeps _) | split
    | split
    | dsimp -zeta only

theorem spillPage_keeps (x : Session) (p : ModelProgram) (g : Page) (s : State) : Keeps s (spillPage x p g s) := by
  unfold spillPage
  repeat' first
    | assumption
    | with_reducible exact Keeps.refl _
    | with_reducible apply Keeps.trans ?_ (seat_keeps _ _)
    | with_reducible apply Keeps.trans ?_ (onPage_keeps _ _ _ _ _)
    | with_reducible apply Keeps.trans ?_ (releasePages_keeps _ _ _)
    | (with_reducible apply Keeps.lit ?_ ?_ ?_ ?_ ?_ ?_); (on_goal 2 => rfl); (on_goal 2 => rfl); (on_goal 2 => rfl); (on_goal 2 => rfl); (on_goal 2 => rfl); first | assumption | with_reducible exact Keeps.refl _ | with_reducible apply Keeps.trans ?_ (seat_keeps _ _) | with_reducible apply Keeps.trans ?_ (onPage_keeps _ _ _ _ _) | with_reducible apply Keeps.trans ?_ (releasePages_keeps _ _ _) | split
    | split
    | dsimp -zeta only

theorem leavePool_keeps (x : Session) (kib : Nat) (pools : List Nat) (put : List Nat → State → State) (hp : ∀ l t, Keeps t (put l t)) (s : State) :
    Keeps s (leavePool x kib pools put s) := by
  unfold leavePool
  split
  · exact Keeps.refl _
  · split
    · exact Keeps.refl _
    · exact (drawFree_keeps _).trans (hp _ _)

theorem leavePools_keeps (h row layer : Nat) (s : State) : Keeps s (leavePools h row layer s) := by
  unfold leavePools
  repeat' first
    | assumption
    | with_reducible exact Keeps.refl _
    | with_reducible apply Keeps.trans ?_ (forEach_keeps _ _ _ (fun _ _ => ?_))
    | with_reducible apply Keeps.trans ?_ (leavePool_keeps _ _ _ _ (fun _ _ => ?_) _)
    | with_reducible apply Keeps.trans ?_ (seat_keeps _ _)
    | with_reducible apply Keeps.trans ?_ (onLeaf_keeps _ _ _ _)
    | with_reducible apply Keeps.trans ?_ (onBlk_keeps _ _ _ _)
    | with_reducible apply Keeps.trans ?_ (onPage_keeps _ _ _ _ _)
    | with_reducible apply Keeps.trans ?_ (settleLeaving_keeps _)
    | extract_lets
    | (with_reducible apply Keeps.lit ?_ ?_ ?_ ?_ ?_ ?_); (on_goal 2 => rfl); (on_goal 2 => rfl); (on_goal 2 => rfl); (on_goal 2 => rfl); (on_goal 2 => rfl); first | assumption | with_reducible exact Keeps.refl _ | with_reducible apply Keeps.trans ?_ (forEach_keeps _ _ _ (fun _ _ => ?_)) | with_reducible apply Keeps.trans ?_ (leavePool_keeps _ _ _ _ (fun _ _ => ?_) _) | with_reducible apply Keeps.trans ?_ (seat_keeps _ _) | with_reducible apply Keeps.trans ?_ (onLeaf_keeps _ _ _ _) | with_reducible apply Keeps.trans ?_ (onBlk_keeps _ _ _ _) | with_reducible apply Keeps.trans ?_ (onPage_keeps _ _ _ _ _) | with_reducible apply Keeps.trans ?_ (settleLeaving_keeps _) | split
    | split
    | dsimp -zeta only

theorem markSpill_keeps (part : Nat) (s : State) : Keeps s (markSpill part s) := by
  unfold markSpill
  repeat' first
    | assumption
    | with_reducible exact Keeps.refl _
    | (with_reducible apply Keeps.lit ?_ ?_ ?_ ?_ ?_ ?_); (on_goal 2 => rfl); (on_goal 2 => rfl); (on_goal 2 => rfl); (on_goal 2 => rfl); (on_goal 2 => rfl); first | assumption | with_reducible exact Keeps.refl _ | split
    | split
    | dsimp -zeta only

theorem spillBlks_keeps (h : Nat) (s : State) : Keeps s (spillBlks h s) := by
  unfold spillBlks
  repeat' first
    | assumption
    | with_reducible exact Keeps.refl _
    | with_reducible apply Keeps.trans ?_ (forEach_keeps _ _ _ (fun _ _ => ?_))
    | with_reducible apply Keeps.trans ?_ (seat_keeps _ _)
    | with_reducible apply Keeps.trans ?_ (onBlk_keeps _ _ _ _)
    | (with_reducible apply Keeps.lit ?_ ?_ ?_ ?_ ?_ ?_); (on_goal 2 => rfl); (on_goal 2 => rfl); (on_goal 2 => rfl); (on_goal 2 => rfl); (on_goal 2 => rfl); first | assumption | with_reducible exact Keeps.refl _ | with_reducible apply Keeps.trans ?_ (forEach_keeps _ _ _ (fun _ _ => ?_)) | with_reducible apply Keeps.trans ?_ (seat_keeps _ _) | with_reducible apply Keeps.trans ?_ (onBlk_keeps _ _ _ _) | split
    | split
    | dsimp -zeta only

theorem execBackgroundCopyComplete_keeps (handle row layer : Nat) (s : State) : OKeeps s (execBackgroundCopyComplete handle row layer s) := by
  unfold execBackgroundCopyComplete
  repeat' first
    | assumption
    | with_reducible exact Keeps.refl _
    | with_reducible apply OKeeps.next ?_
    | exact True.intro
    | with_reducible apply Keeps.trans ?_ (spillBlks_keeps _ _)
    | with_reducible apply Keeps.trans ?_ (markSpill_keeps _ _)
    | with_reducible apply Keeps.trans ?_ (leavePools_keeps _ _ _ _)
    | with_reducible apply Keeps.trans ?_ (spillPage_keeps _ _ _ _)
    | with_reducible apply Keeps.trans ?_ (unspill_keeps _ _ _ _)
    | with_reducible apply Keeps.trans ?_ (secondCopy_keeps _ _ _ _)
    | extract_lets
    | (with_reducible apply Keeps.lit ?_ ?_ ?_ ?_ ?_ ?_); (on_goal 2 => rfl); (on_goal 2 => rfl); (on_goal 2 => rfl); (on_goal 2 => rfl); (on_goal 2 => rfl); first | assumption | with_reducible exact Keeps.refl _ | with_reducible apply Keeps.trans ?_ (spillBlks_keeps _ _) | with_reducible apply Keeps.trans ?_ (markSpill_keeps _ _) | with_reducible apply Keeps.trans ?_ (leavePools_keeps _ _ _ _) | with_reducible apply Keeps.trans ?_ (spillPage_keeps _ _ _ _) | with_reducible apply Keeps.trans ?_ (unspill_keeps _ _ _ _) | with_reducible apply Keeps.trans ?_ (secondCopy_keeps _ _ _ _) | split
    | split
    | dsimp -zeta only

theorem setGroup_keeps (g : Group) (s : State) : Keeps s (setGroup g s) := by
  unfold setGroup
  repeat' first
    | assumption
    | with_reducible exact Keeps.refl _
    | (with_reducible apply Keeps.lit ?_ ?_ ?_ ?_ ?_ ?_); (on_goal 2 => rfl); (on_goal 2 => rfl); (on_goal 2 => rfl); (on_goal 2 => rfl); (on_goal 2 => rfl); first | assumption | with_reducible exact Keeps.refl _
    | dsimp -zeta only

theorem enterReadOnly_keeps (hub n : Nat) (s : State) : Keeps s (enterReadOnly hub n s) := by
  unfold enterReadOnly
  repeat' first
    | assumption
    | with_reducible exact Keeps.refl _
    | with_reducible apply Keeps.trans ?_ (onNs_keeps _ _ _)
    | with_reducible apply Keeps.trans ?_ (journal_keeps _ _ _)
    | with_reducible apply Keeps.trans ?_ (healthSignal_keeps _ _ _)
    | extract_lets
    | (with_reducible apply Keeps.lit ?_ ?_ ?_ ?_ ?_ ?_); (on_goal 2 => rfl); (on_goal 2 => rfl); (on_goal 2 => rfl); (on_goal 2 => rfl); (on_goal 2 => rfl); first | assumption | with_reducible exact Keeps.refl _ | with_reducible apply Keeps.trans ?_ (onNs_keeps _ _ _) | with_reducible apply Keeps.trans ?_ (journal_keeps _ _ _) | with_reducible apply Keeps.trans ?_ (healthSignal_keeps _ _ _) | split
    | split
    | dsimp -zeta only

theorem retireGroup_keeps (g : Group) (s : State) : Keeps s (retireGroup g s) := by
  unfold retireGroup
  repeat' first
    | assumption
    | with_reducible exact Keeps.refl _
    | with_reducible apply Keeps.trans ?_ (enterReadOnly_keeps _ _ _)
    | with_reducible apply Keeps.trans ?_ (setGroup_keeps _ _)
    | with_reducible apply Keeps.trans ?_ (onNs_keeps _ _ _)
    | with_reducible apply Keeps.trans ?_ (journal_keeps _ _ _)
    | with_reducible apply Keeps.trans ?_ (flushJournal_keeps _ _)
    | extract_lets
    | (with_reducible apply Keeps.lit ?_ ?_ ?_ ?_ ?_ ?_); (on_goal 2 => rfl); (on_goal 2 => rfl); (on_goal 2 => rfl); (on_goal 2 => rfl); (on_goal 2 => rfl); first | assumption | with_reducible exact Keeps.refl _ | with_reducible apply Keeps.trans ?_ (enterReadOnly_keeps _ _ _) | with_reducible apply Keeps.trans ?_ (setGroup_keeps _ _) | with_reducible apply Keeps.trans ?_ (onNs_keeps _ _ _) | with_reducible apply Keeps.trans ?_ (journal_keeps _ _ _) | with_reducible apply Keeps.trans ?_ (flushJournal_keeps _ _) | split
    | split
    | dsimp -zeta only

theorem condemn_keeps (g : Group) (s : State) : Keeps s (condemn g s) := by
  unfold condemn
  repeat' first
    | assumption
    | with_reducible exact Keeps.refl _
    | with_reducible apply Keeps.trans ?_ (retireGroup_keeps _ _)
    | with_reducible apply Keeps.trans ?_ (enterReadOnly_keeps _ _ _)
    | with_reducible apply Keeps.trans ?_ (setGroup_keeps _ _)
    | (with_reducible apply Keeps.lit ?_ ?_ ?_ ?_ ?_ ?_); (on_goal 2 => rfl); (on_goal 2 => rfl); (on_goal 2 => rfl); (on_goal 2 => rfl); (on_goal 2 => rfl); first | assumption | with_reducible exact Keeps.refl _ | with_reducible apply Keeps.trans ?_ (retireGroup_keeps _ _) | with_reducible apply Keeps.trans ?_ (enterReadOnly_keeps _ _ _) | with_reducible apply Keeps.trans ?_ (setGroup_keeps _ _) | split
    | split
    | dsimp -zeta only

theorem startCopy_keeps (g : Group) (s : State) : Keeps s (startCopy g s) := by
  unfold startCopy
  repeat' first
    | assumption
    | with_reducible exact Keeps.refl _
    | with_reducible apply Keeps.trans ?_ (setGroup_keeps _ _)
    | (with_reducible apply Keeps.lit ?_ ?_ ?_ ?_ ?_ ?_); (on_goal 2 => rfl); (on_goal 2 => rfl); (on_goal 2 => rfl); (on_goal 2 => rfl); (on_goal 2 => rfl); first | assumption | with_reducible exact Keeps.refl _ | with_reducible apply Keeps.trans ?_ (setGroup_keeps _ _)
    | dsimp -zeta only

theorem tend_keeps (n : Nat) (s0 : State) : Keeps s0 (tend n s0) := by
  unfold tend
  repeat' first
    | assumption
    | with_reducible exact Keeps.refl _
    | with_reducible apply Keeps.trans ?_ (startCopy_keeps _ _)
    | with_reducible apply Keeps.trans ?_ (onNs_keeps _ _ _)
    | extract_lets
    | (with_reducible apply Keeps.lit ?_ ?_ ?_ ?_ ?_ ?_); (on_goal 2 => rfl); (on_goal 2 => rfl); (on_goal 2 => rfl); (on_goal 2 => rfl); (on_goal 2 => rfl); first | assumption | with_reducible exact Keeps.refl _ | with_reducible apply Keeps.trans ?_ (startCopy_keeps _ _) | with_reducible apply Keeps.trans ?_ (onNs_keeps _ _ _) | split
    | split
    | dsimp -zeta only

theorem openGroup_keeps (g : Group) (slc : Bool) (s : State) : Keeps s (openGroup g slc s).2 := by
  unfold openGroup
  repeat' first
    | assumption
    | with_reducible exact Keeps.refl _
    | with_reducible apply Keeps.trans ?_ (journal_keeps _ _ _)
    | with_reducible apply Keeps.trans ?_ (flushJournal_keeps _ _)
    | extract_lets
    | (with_reducible apply Keeps.lit ?_ ?_ ?_ ?_ ?_ ?_); (on_goal 2 => rfl); (on_goal 2 => rfl); (on_goal 2 => rfl); (on_goal 2 => rfl); (on_goal 2 => rfl); first | assumption | with_reducible exact Keeps.refl _ | with_reducible apply Keeps.trans ?_ (journal_keeps _ _ _) | with_reducible apply Keeps.trans ?_ (flushJournal_keeps _ _) | split
    | split
    | dsimp -zeta only

theorem moveExtent_keeps (e : Ext) (obj : Nat) (s : State) : Keeps s (moveExtent e obj s) := by
  unfold moveExtent
  repeat' first
    | assumption
    | with_reducible exact Keeps.refl _
    | with_reducible apply Keeps.trans ?_ (retireGroup_keeps _ _)
    | with_reducible apply Keeps.trans ?_ (setGroup_keeps _ _)
    | with_reducible apply Keeps.trans ?_ (onObj_keeps _ _ _)
    | with_reducible apply Keeps.trans ?_ (journal_keeps _ _ _)
    | extract_lets
    | (with_reducible apply Keeps.lit ?_ ?_ ?_ ?_ ?_ ?_); (on_goal 2 => rfl); (on_goal 2 => rfl); (on_goal 2 => rfl); (on_goal 2 => rfl); (on_goal 2 => rfl); first | assumption | with_reducible exact Keeps.refl _ | with_reducible apply Keeps.trans ?_ (retireGroup_keeps _ _) | with_reducible apply Keeps.trans ?_ (setGroup_keeps _ _) | with_reducible apply Keeps.trans ?_ (onObj_keeps _ _ _) | with_reducible apply Keeps.trans ?_ (journal_keeps _ _ _) | split
    | split
    | dsimp -zeta only

theorem countPages_keeps (e : Ext) (obj : Nat) (page : NandPage) (s : State) : Keeps s (countPages e obj page s).2 := by
  unfold countPages
  repeat' first
    | assumption
    | with_reducible exact Keeps.refl _
    | with_reducible apply Keeps.trans ?_ (moveExtent_keeps _ _ _)
    | with_reducible apply Keeps.trans ?_ (onObj_keeps _ _ _)
    | with_reducible apply Keeps.trans ?_ (journal_keeps _ _ _)
    | extract_lets
    | (with_reducible apply Keeps.lit ?_ ?_ ?_ ?_ ?_ ?_); (on_goal 2 => rfl); (on_goal 2 => rfl); (on_goal 2 => rfl); (on_goal 2 => rfl); (on_goal 2 => rfl); first | assumption | with_reducible exact Keeps.refl _ | with_reducible apply Keeps.trans ?_ (moveExtent_keeps _ _ _) | with_reducible apply Keeps.trans ?_ (onObj_keeps _ _ _) | with_reducible apply Keeps.trans ?_ (journal_keeps _ _ _) | split
    | split
    | dsimp -zeta only

theorem execNandProgramComplete_keeps (hub group object pages : Nat) (page : NandPage) (ok : Bool) (s : State) : OKeeps s (execNandProgramComplete hub group object pages page ok s) := by
  unfold execNandProgramComplete
  repeat' first
    | assumption
    | with_reducible exact Keeps.refl _
    | with_reducible apply OKeeps.next ?_
    | exact True.intro
    | with_reducible apply Keeps.trans ?_ (countPages_keeps _ _ _ _)
    | with_reducible apply Keeps.trans ?_ (openGroup_keeps _ _ _)
    | with_reducible apply Keeps.trans ?_ (tend_keeps _ _)
    | with_reducible apply Keeps.trans ?_ (condemn_keeps _ _)
    | with_reducible apply Keeps.trans ?_ (setGroup_keeps _ _)
    | with_reducible apply Keeps.trans ?_ (journal_keeps _ _ _)
    | with_reducible apply Keeps.trans ?_ (onHubStore_keeps _ _ _)
    | extract_lets
    | (with_reducible apply Keeps.lit ?_ ?_ ?_ ?_ ?_ ?_); (on_goal 2 => rfl); (on_goal 2 => rfl); (on_goal 2 => rfl); (on_goal 2 => rfl); (on_goal 2 => rfl); first | assumption | with_reducible exact Keeps.refl _ | with_reducible apply Keeps.trans ?_ (countPages_keeps _ _ _ _) | with_reducible apply Keeps.trans ?_ (openGroup_keeps _ _ _) | with_reducible apply Keeps.trans ?_ (tend_keeps _ _) | with_reducible apply Keeps.trans ?_ (condemn_keeps _ _) | with_reducible apply Keeps.trans ?_ (setGroup_keeps _ _) | with_reducible apply Keeps.trans ?_ (journal_keeps _ _ _) | with_reducible apply Keeps.trans ?_ (onHubStore_keeps _ _ _) | split
    | split
    | dsimp -zeta only

theorem execNandEraseComplete_keeps (hub group : Nat) (ok : Bool) (s : State) : OKeeps s (execNandEraseComplete hub group ok s) := by
  unfold execNandEraseComplete
  repeat' first
    | assumption
    | with_reducible exact Keeps.refl _
    | with_reducible apply OKeeps.next ?_
    | exact True.intro
    | with_reducible apply Keeps.trans ?_ (tend_keeps _ _)
    | with_reducible apply Keeps.trans ?_ (retireGroup_keeps _ _)
    | with_reducible apply Keeps.trans ?_ (setGroup_keeps _ _)
    | with_reducible apply Keeps.trans ?_ (journal_keeps _ _ _)
    | with_reducible apply Keeps.trans ?_ (flushJournal_keeps _ _)
    | extract_lets
    | (with_reducible apply Keeps.lit ?_ ?_ ?_ ?_ ?_ ?_); (on_goal 2 => rfl); (on_goal 2 => rfl); (on_goal 2 => rfl); (on_goal 2 => rfl); (on_goal 2 => rfl); first | assumption | with_reducible exact Keeps.refl _ | with_reducible apply Keeps.trans ?_ (tend_keeps _ _) | with_reducible apply Keeps.trans ?_ (retireGroup_keeps _ _) | with_reducible apply Keeps.trans ?_ (setGroup_keeps _ _) | with_reducible apply Keeps.trans ?_ (journal_keeps _ _ _) | with_reducible apply Keeps.trans ?_ (flushJournal_keeps _ _) | split
    | split
    | dsimp -zeta only

theorem rowLost_keeps (x : Session) (row : Nat) (s : State) : Keeps s (rowLost x row s) := by
  unfold rowLost
  repeat' first
    | assumption
    | with_reducible exact Keeps.refl _
    | with_reducible apply Keeps.trans ?_ (cutLost_keeps _ _ _)
    | with_reducible apply Keeps.trans ?_ (onSess_keeps _ _ _)
    | extract_lets
    | (with_reducible apply Keeps.lit ?_ ?_ ?_ ?_ ?_ ?_); (on_goal 2 => rfl); (on_goal 2 => rfl); (on_goal 2 => rfl); (on_goal 2 => rfl); (on_goal 2 => rfl); first | assumption | with_reducible exact Keeps.refl _ | with_reducible apply Keeps.trans ?_ (cutLost_keeps _ _ _) | with_reducible apply Keeps.trans ?_ (onSess_keeps _ _ _) | split
    | split
    | dsimp -zeta only

theorem pageLost_keeps (obj : Nat) (page : NandPage) (s : State) : Keeps s (pageLost obj page s) := by
  unfold pageLost
  repeat' first
    | assumption
    | with_reducible exact Keeps.refl _
    | with_reducible apply Keeps.trans ?_ (rowLost_keeps _ _ _)
    | with_reducible apply Keeps.trans ?_ (loseSession_keeps _ _ _)
    | with_reducible apply Keeps.trans ?_ (onSess_keeps _ _ _)
    | (with_reducible apply Keeps.lit ?_ ?_ ?_ ?_ ?_ ?_); (on_goal 2 => rfl); (on_goal 2 => rfl); (on_goal 2 => rfl); (on_goal 2 => rfl); (on_goal 2 => rfl); first | assumption | with_reducible exact Keeps.refl _ | with_reducible apply Keeps.trans ?_ (rowLost_keeps _ _ _) | with_reducible apply Keeps.trans ?_ (loseSession_keeps _ _ _) | with_reducible apply Keeps.trans ?_ (onSess_keeps _ _ _) | split
    | split
    | dsimp -zeta only

theorem execNandReadComplete_keeps (hub group object : Nat) (page : NandPage) (found : NandRead) (s : State) : OKeeps s (execNandReadComplete hub group object page found s) := by
  unfold execNandReadComplete
  repeat' first
    | assumption
    | with_reducible exact Keeps.refl _
    | with_reducible apply OKeeps.next ?_
    | exact True.intro
    | with_reducible apply Keeps.trans ?_ (pageLost_keeps _ _ _)
    | with_reducible apply Keeps.trans ?_ (tend_keeps _ _)
    | with_reducible apply Keeps.trans ?_ (condemn_keeps _ _)
    | with_reducible apply Keeps.trans ?_ (setGroup_keeps _ _)
    | with_reducible apply Keeps.trans ?_ (drainAll_keeps _)
    | extract_lets
    | (with_reducible apply Keeps.lit ?_ ?_ ?_ ?_ ?_ ?_); (on_goal 2 => rfl); (on_goal 2 => rfl); (on_goal 2 => rfl); (on_goal 2 => rfl); (on_goal 2 => rfl); first | assumption | with_reducible exact Keeps.refl _ | with_reducible apply Keeps.trans ?_ (pageLost_keeps _ _ _) | with_reducible apply Keeps.trans ?_ (tend_keeps _ _) | with_reducible apply Keeps.trans ?_ (condemn_keeps _ _) | with_reducible apply Keeps.trans ?_ (setGroup_keeps _ _) | with_reducible apply Keeps.trans ?_ (drainAll_keeps _) | split
    | split
    | dsimp -zeta only

theorem execJournalFlushTimer_keeps (hub : Nat) (s : State) : OKeeps s (execJournalFlushTimer hub s) := by
  unfold execJournalFlushTimer
  repeat' first
    | assumption
    | with_reducible exact Keeps.refl _
    | with_reducible apply OKeeps.next ?_
    | exact True.intro
    | with_reducible apply Keeps.trans ?_ (flushJournal_keeps _ _)
    | dsimp -zeta only

theorem execChannelRetrainTimer_keeps (channel : Nat) (passed : Bool) (s : State) : OKeeps s (execChannelRetrainTimer channel passed s) := by
  unfold execChannelRetrainTimer
  repeat' first
    | assumption
    | with_reducible exact Keeps.refl _
    | with_reducible apply OKeeps.next ?_
    | exact True.intro
    | with_reducible apply Keeps.trans ?_ (healthSignal_keeps _ _ _)
    | extract_lets
    | (with_reducible apply Keeps.lit ?_ ?_ ?_ ?_ ?_ ?_); (on_goal 2 => rfl); (on_goal 2 => rfl); (on_goal 2 => rfl); (on_goal 2 => rfl); (on_goal 2 => rfl); first | assumption | with_reducible exact Keeps.refl _ | with_reducible apply Keeps.trans ?_ (healthSignal_keeps _ _ _) | split
    | split
    | dsimp -zeta only

theorem onShard_keeps (index shard : Nat) (f : Shard → Shard) (s : State) : Keeps s (onShard index shard f s) := by
  unfold onShard
  repeat' first
    | assumption
    | with_reducible exact Keeps.refl _
    | (with_reducible apply Keeps.lit ?_ ?_ ?_ ?_ ?_ ?_); (on_goal 2 => rfl); (on_goal 2 => rfl); (on_goal 2 => rfl); (on_goal 2 => rfl); (on_goal 2 => rfl); first | assumption | with_reducible exact Keeps.refl _ | split
    | split
    | dsimp -zeta only

theorem addQuery_keeps (q : Query) (s : State) : Keeps s (addQuery q s) := by
  unfold addQuery
  repeat' first
    | assumption
    | with_reducible exact Keeps.refl _
    | with_reducible apply Keeps.trans ?_ (queued_keeps _ _)
    | extract_lets
    | (with_reducible apply Keeps.lit ?_ ?_ ?_ ?_ ?_ ?_); (on_goal 2 => rfl); (on_goal 2 => rfl); (on_goal 2 => rfl); (on_goal 2 => rfl); (on_goal 2 => rfl); first | assumption | with_reducible exact Keeps.refl _ | with_reducible apply Keeps.trans ?_ (queued_keeps _ _) | split
    | split
    | dsimp -zeta only

theorem promote_keeps (hub : Nat) (s : State) : Keeps s (promote hub s) := by
  unfold promote
  repeat' first
    | assumption
    | with_reducible exact Keeps.refl _
    | with_reducible apply Keeps.trans ?_ (queued_keeps _ _)
    | (with_reducible apply Keeps.lit ?_ ?_ ?_ ?_ ?_ ?_); (on_goal 2 => rfl); (on_goal 2 => rfl); (on_goal 2 => rfl); (on_goal 2 => rfl); (on_goal 2 => rfl); first | assumption | with_reducible exact Keeps.refl _ | with_reducible apply Keeps.trans ?_ (queued_keeps _ _) | split
    | split
    | dsimp -zeta only

theorem dropQuery_keeps (q : Query) (s : State) : Keeps s (dropQuery q s) := by
  unfold dropQuery
  repeat' first
    | assumption
    | with_reducible exact Keeps.refl _
    | with_reducible apply Keeps.trans ?_ (promote_keeps _ _)
    | (with_reducible apply Keeps.lit ?_ ?_ ?_ ?_ ?_ ?_); (on_goal 2 => rfl); (on_goal 2 => rfl); (on_goal 2 => rfl); (on_goal 2 => rfl); (on_goal 2 => rfl); first | assumption | with_reducible exact Keeps.refl _ | with_reducible apply Keeps.trans ?_ (promote_keeps _ _)
    | dsimp -zeta only

theorem onQuery_keeps (n : Nat) (f : Query → Query) (s : State) : Keeps s (onQuery n f s) := by
  unfold onQuery
  repeat' first
    | assumption
    | with_reducible exact Keeps.refl _
    | (with_reducible apply Keeps.lit ?_ ?_ ?_ ?_ ?_ ?_); (on_goal 2 => rfl); (on_goal 2 => rfl); (on_goal 2 => rfl); (on_goal 2 => rfl); (on_goal 2 => rfl); first | assumption | with_reducible exact Keeps.refl _
    | dsimp -zeta only

theorem queueResult_keeps (h : Nat) (text : List Byte) (s0 : State) : Keeps s0 (queueResult h text s0) := by
  unfold queueResult
  repeat' first
    | assumption
    | with_reducible exact Keeps.refl _
    | with_reducible apply Keeps.trans ?_ (closeInput_keeps _ _)
    | with_reducible apply Keeps.trans ?_ (stampQueue_keeps _ _)
    | with_reducible apply Keeps.trans ?_ (arm_keeps _ _)
    | with_reducible apply Keeps.trans ?_ (onSess_keeps _ _ _)
    | with_reducible apply Keeps.trans ?_ (setSess_keeps _ _)
    | extract_lets
    | (with_reducible apply Keeps.lit ?_ ?_ ?_ ?_ ?_ ?_); (on_goal 2 => rfl); (on_goal 2 => rfl); (on_goal 2 => rfl); (on_goal 2 => rfl); (on_goal 2 => rfl); first | assumption | with_reducible exact Keeps.refl _ | with_reducible apply Keeps.trans ?_ (closeInput_keeps _ _) | with_reducible apply Keeps.trans ?_ (stampQueue_keeps _ _) | with_reducible apply Keeps.trans ?_ (arm_keeps _ _) | with_reducible apply Keeps.trans ?_ (onSess_keeps _ _ _) | with_reducible apply Keeps.trans ?_ (setSess_keeps _ _) | split
    | split
    | dsimp -zeta only

theorem finishQuery_keeps (q : Query) (o : OCode) (reason : Nat) (s : State) : Keeps s (finishQuery q o reason s) := by
  unfold finishQuery
  repeat' first
    | assumption
    | with_reducible exact Keeps.refl _
    | with_reducible apply Keeps.trans ?_ (queueResult_keeps _ _ _)
    | with_reducible apply Keeps.trans ?_ (dropQuery_keeps _ _)
    | with_reducible apply Keeps.trans ?_ (sendMgr_keeps _ _ _ _ _ _ _)
    | with_reducible apply Keeps.trans ?_ (emitOut_keeps _ _ _ _)
    | with_reducible apply Keeps.trans ?_ (answerFn_keeps _ _ _)
    | with_reducible apply Keeps.trans ?_ (settle_keeps _ _ _ _)
    | extract_lets
    | (with_reducible apply Keeps.lit ?_ ?_ ?_ ?_ ?_ ?_); (on_goal 2 => rfl); (on_goal 2 => rfl); (on_goal 2 => rfl); (on_goal 2 => rfl); (on_goal 2 => rfl); first | assumption | with_reducible exact Keeps.refl _ | with_reducible apply Keeps.trans ?_ (queueResult_keeps _ _ _) | with_reducible apply Keeps.trans ?_ (dropQuery_keeps _ _) | with_reducible apply Keeps.trans ?_ (sendMgr_keeps _ _ _ _ _ _ _) | with_reducible apply Keeps.trans ?_ (emitOut_keeps _ _ _ _) | with_reducible apply Keeps.trans ?_ (answerFn_keeps _ _ _) | with_reducible apply Keeps.trans ?_ (settle_keeps _ _ _ _) | split
    | split
    | dsimp -zeta only

theorem concludeQuery_keeps (n : Nat) (s : State) : Keeps s (concludeQuery n s) := by
  unfold concludeQuery
  repeat' first
    | assumption
    | with_reducible exact Keeps.refl _
    | with_reducible apply Keeps.trans ?_ (finishQuery_keeps _ _ _ _)
    | (with_reducible apply Keeps.lit ?_ ?_ ?_ ?_ ?_ ?_); (on_goal 2 => rfl); (on_goal 2 => rfl); (on_goal 2 => rfl); (on_goal 2 => rfl); (on_goal 2 => rfl); first | assumption | with_reducible exact Keeps.refl _ | with_reducible apply Keeps.trans ?_ (finishQuery_keeps _ _ _ _) | split
    | split
    | dsimp -zeta only

theorem takeForget_keeps (q : Query) (sh : Shard) (s : State) : Keeps s (takeForget q sh s) := by
  unfold takeForget
  repeat' first
    | assumption
    | with_reducible exact Keeps.refl _
    | with_reducible apply Keeps.trans ?_ (finishQuery_keeps _ _ _ _)
    | with_reducible apply Keeps.trans ?_ (onShard_keeps _ _ _ _)
    | (with_reducible apply Keeps.lit ?_ ?_ ?_ ?_ ?_ ?_); (on_goal 2 => rfl); (on_goal 2 => rfl); (on_goal 2 => rfl); (on_goal 2 => rfl); (on_goal 2 => rfl); first | assumption | with_reducible exact Keeps.refl _ | with_reducible apply Keeps.trans ?_ (finishQuery_keeps _ _ _ _) | with_reducible apply Keeps.trans ?_ (onShard_keeps _ _ _ _) | split
    | split
    | dsimp -zeta only

theorem takeMemorize_keeps (q : Query) (sh : Shard) (s : State) : Keeps s (takeMemorize q sh s) := by
  unfold takeMemorize
  repeat' first
    | assumption
    | with_reducible exact Keeps.refl _
    | with_reducible apply Keeps.trans ?_ (finishQuery_keeps _ _ _ _)
    | with_reducible apply Keeps.trans ?_ (onShard_keeps _ _ _ _)
    | extract_lets
    | (with_reducible apply Keeps.lit ?_ ?_ ?_ ?_ ?_ ?_); (on_goal 2 => rfl); (on_goal 2 => rfl); (on_goal 2 => rfl); (on_goal 2 => rfl); (on_goal 2 => rfl); first | assumption | with_reducible exact Keeps.refl _ | with_reducible apply Keeps.trans ?_ (finishQuery_keeps _ _ _ _) | with_reducible apply Keeps.trans ?_ (onShard_keeps _ _ _ _) | split
    | split
    | dsimp -zeta only

theorem runShard_keeps (index shard : Nat) : ∀ (n : Nat) (s : State), Keeps s (runShard index shard n s)
  | 0, s => Keeps.refl s
  | k + 1, s => by
    unfold runShard
    repeat' first
      | exact Keeps.refl _
      | exact (finishQuery_keeps _ _ _ _).trans (runShard_keeps index shard k _)
      | exact (takeForget_keeps _ _ _).trans (runShard_keeps index shard k _)
      | exact (takeMemorize_keeps _ _ _).trans (runShard_keeps index shard k _)
      | split

theorem stepShard_keeps (index shard : Nat) (s : State) : Keeps s (stepShard index shard s) := by
  unfold stepShard
  repeat' first
    | assumption
    | with_reducible exact Keeps.refl _
    | with_reducible apply Keeps.trans ?_ (runShard_keeps _ _ _ _)
    | dsimp -zeta only

theorem fanTo_keeps (q : Query) (n : Nat) (place : Nat × Nat) (s : State) : Keeps s (fanTo q n place s) := by
  unfold fanTo
  repeat' first
    | assumption
    | with_reducible exact Keeps.refl _
    | with_reducible apply Keeps.trans ?_ (sendMgr_keeps _ _ _ _ _ _ _)
    | split
    | dsimp -zeta only

theorem startQuery_keeps (q : Query) (s : State) : Keeps s (startQuery q s) := by
  unfold startQuery
  repeat' first
    | assumption
    | with_reducible exact Keeps.refl _
    | with_reducible apply Keeps.trans ?_ (forEach_keeps _ _ _ (fun _ _ => ?_))
    | with_reducible apply Keeps.trans ?_ (fanTo_keeps _ _ _ _)
    | with_reducible apply Keeps.trans ?_ (stepShard_keeps _ _ _)
    | with_reducible apply Keeps.trans ?_ (finishQuery_keeps _ _ _ _)
    | with_reducible apply Keeps.trans ?_ (addQuery_keeps _ _)
    | extract_lets
    | (with_reducible apply Keeps.lit ?_ ?_ ?_ ?_ ?_ ?_); (on_goal 2 => rfl); (on_goal 2 => rfl); (on_goal 2 => rfl); (on_goal 2 => rfl); (on_goal 2 => rfl); first | assumption | with_reducible exact Keeps.refl _ | with_reducible apply Keeps.trans ?_ (forEach_keeps _ _ _ (fun _ _ => ?_)) | with_reducible apply Keeps.trans ?_ (fanTo_keeps _ _ _ _) | with_reducible apply Keeps.trans ?_ (stepShard_keeps _ _ _) | with_reducible apply Keeps.trans ?_ (finishQuery_keeps _ _ _ _) | with_reducible apply Keeps.trans ?_ (addQuery_keeps _ _) | split
    | split
    | dsimp -zeta only

theorem doRecall_keeps (m : Sprue) (buf : HostBuf) (s : State) : Keeps s (doRecall m buf s) := by
  unfold doRecall
  repeat' first
    | assumption
    | with_reducible exact Keeps.refl _
    | with_reducible apply Keeps.trans ?_ (startQuery_keeps _ _)
    | with_reducible apply Keeps.trans ?_ (refuse_keeps _ _ _)
    | with_reducible apply Keeps.trans ?_ (answerMsg_keeps _ _ _ _ _)
    | extract_lets
    | (with_reducible apply Keeps.lit ?_ ?_ ?_ ?_ ?_ ?_); (on_goal 2 => rfl); (on_goal 2 => rfl); (on_goal 2 => rfl); (on_goal 2 => rfl); (on_goal 2 => rfl); first | assumption | with_reducible exact Keeps.refl _ | with_reducible apply Keeps.trans ?_ (startQuery_keeps _ _) | with_reducible apply Keeps.trans ?_ (refuse_keeps _ _ _) | with_reducible apply Keeps.trans ?_ (answerMsg_keeps _ _ _ _ _) | split
    | split
    | dsimp -zeta only

theorem execRecall_keeps (m : Sprue) (query : HostBuf) (s : State) : OKeeps s (execRecall m query s) := by
  unfold execRecall
  repeat' first
    | assumption
    | with_reducible exact Keeps.refl _
    | with_reducible apply OKeeps.next ?_
    | exact True.intro
    | with_reducible apply Keeps.trans ?_ (doRecall_keeps _ _ _)
    | with_reducible apply Keeps.trans ?_ (takeMessage_keeps _ _ _ (fun _ => ?_) _)
    | dsimp -zeta only

theorem doMemorize_keeps (m : Sprue) (buf : HostBuf) (s : State) : Keeps s (doMemorize m buf s) := by
  unfold doMemorize
  repeat' first
    | assumption
    | with_reducible exact Keeps.refl _
    | with_reducible apply Keeps.trans ?_ (startQuery_keeps _ _)
    | with_reducible apply Keeps.trans ?_ (refuse_keeps _ _ _)
    | with_reducible apply Keeps.trans ?_ (answerMsg_keeps _ _ _ _ _)
    | extract_lets
    | (with_reducible apply Keeps.lit ?_ ?_ ?_ ?_ ?_ ?_); (on_goal 2 => rfl); (on_goal 2 => rfl); (on_goal 2 => rfl); (on_goal 2 => rfl); (on_goal 2 => rfl); first | assumption | with_reducible exact Keeps.refl _ | with_reducible apply Keeps.trans ?_ (startQuery_keeps _ _) | with_reducible apply Keeps.trans ?_ (refuse_keeps _ _ _) | with_reducible apply Keeps.trans ?_ (answerMsg_keeps _ _ _ _ _) | split
    | split
    | dsimp -zeta only

theorem execMemorize_keeps (m : Sprue) (code : HostBuf) (s : State) : OKeeps s (execMemorize m code s) := by
  unfold execMemorize
  repeat' first
    | assumption
    | with_reducible exact Keeps.refl _
    | with_reducible apply OKeeps.next ?_
    | exact True.intro
    | with_reducible apply Keeps.trans ?_ (doMemorize_keeps _ _ _)
    | with_reducible apply Keeps.trans ?_ (takeMessage_keeps _ _ _ (fun _ => ?_) _)
    | dsimp -zeta only

theorem doForget_keeps (m : Sprue) (s : State) : Keeps s (doForget m s) := by
  unfold doForget
  repeat' first
    | assumption
    | with_reducible exact Keeps.refl _
    | with_reducible apply Keeps.trans ?_ (startQuery_keeps _ _)
    | with_reducible apply Keeps.trans ?_ (refuse_keeps _ _ _)
    | with_reducible apply Keeps.trans ?_ (answerMsg_keeps _ _ _ _ _)
    | extract_lets
    | split
    | dsimp -zeta only

theorem execForget_keeps (m : Sprue) (s : State) : OKeeps s (execForget m s) := by
  unfold execForget
  repeat' first
    | assumption
    | with_reducible exact Keeps.refl _
    | with_reducible apply OKeeps.next ?_
    | exact True.intro
    | with_reducible apply Keeps.trans ?_ (doForget_keeps _ _)
    | with_reducible apply Keeps.trans ?_ (takeMessage_keeps _ _ _ (fun _ => ?_) _)
    | dsimp -zeta only

theorem startOnDevice_keeps (h call : Nat) (t : RecallTool) (code : List Byte) (s : State) : Keeps s (startOnDevice h call t code s) := by
  unfold startOnDevice
  repeat' first
    | assumption
    | with_reducible exact Keeps.refl _
    | with_reducible apply Keeps.trans ?_ (startQuery_keeps _ _)
    | with_reducible apply Keeps.trans ?_ (finishQuery_keeps _ _ _ _)
    | with_reducible apply Keeps.trans ?_ (addQuery_keeps _ _)
    | with_reducible apply Keeps.trans ?_ (sendMgr_keeps _ _ _ _ _ _ _)
    | extract_lets
    | (with_reducible apply Keeps.lit ?_ ?_ ?_ ?_ ?_ ?_); (on_goal 2 => rfl); (on_goal 2 => rfl); (on_goal 2 => rfl); (on_goal 2 => rfl); (on_goal 2 => rfl); first | assumption | with_reducible exact Keeps.refl _ | with_reducible apply Keeps.trans ?_ (startQuery_keeps _ _) | with_reducible apply Keeps.trans ?_ (finishQuery_keeps _ _ _ _) | with_reducible apply Keeps.trans ?_ (addQuery_keeps _ _) | with_reducible apply Keeps.trans ?_ (sendMgr_keeps _ _ _ _ _ _ _) | split
    | split
    | dsimp -zeta only

theorem execRecallQueryComplete_keeps (query : Nat) (s : State) : OKeeps s (execRecallQueryComplete query s) := by
  unfold execRecallQueryComplete
  repeat' first
    | assumption
    | with_reducible exact Keeps.refl _
    | with_reducible apply OKeeps.next ?_
    | exact True.intro
    | with_reducible apply Keeps.trans ?_ (concludeQuery_keeps _ _)
    | with_reducible apply Keeps.trans ?_ (onQuery_keeps _ _ _)
    | extract_lets
    | (with_reducible apply Keeps.lit ?_ ?_ ?_ ?_ ?_ ?_); (on_goal 2 => rfl); (on_goal 2 => rfl); (on_goal 2 => rfl); (on_goal 2 => rfl); (on_goal 2 => rfl); first | assumption | with_reducible exact Keeps.refl _ | with_reducible apply Keeps.trans ?_ (concludeQuery_keeps _ _) | with_reducible apply Keeps.trans ?_ (onQuery_keeps _ _ _) | split
    | split
    | dsimp -zeta only

theorem readEnded_keeps (query : Nat) (late : Bool) (s : State) : Keeps s (readEnded query late s) := by
  unfold readEnded
  repeat' first
    | assumption
    | with_reducible exact Keeps.refl _
    | with_reducible apply Keeps.trans ?_ (concludeQuery_keeps _ _)
    | with_reducible apply Keeps.trans ?_ (onQuery_keeps _ _ _)
    | extract_lets
    | (with_reducible apply Keeps.lit ?_ ?_ ?_ ?_ ?_ ?_); (on_goal 2 => rfl); (on_goal 2 => rfl); (on_goal 2 => rfl); (on_goal 2 => rfl); (on_goal 2 => rfl); first | assumption | with_reducible exact Keeps.refl _ | with_reducible apply Keeps.trans ?_ (concludeQuery_keeps _ _) | with_reducible apply Keeps.trans ?_ (onQuery_keeps _ _ _) | split
    | split
    | dsimp -zeta only

theorem execRecallReadLate_keeps (query : Nat) (s : State) : OKeeps s (execRecallReadLate query s) := by
  unfold execRecallReadLate
  repeat' first
    | assumption
    | with_reducible exact Keeps.refl _
    | with_reducible apply OKeeps.next ?_
    | exact True.intro
    | with_reducible apply Keeps.trans ?_ (readEnded_keeps _ _ _)
    | dsimp -zeta only

theorem execRecallReadFailed_keeps (query : Nat) (s : State) : OKeeps s (execRecallReadFailed query s) := by
  unfold execRecallReadFailed
  repeat' first
    | assumption
    | with_reducible exact Keeps.refl _
    | with_reducible apply OKeeps.next ?_
    | exact True.intro
    | with_reducible apply Keeps.trans ?_ (readEnded_keeps _ _ _)
    | dsimp -zeta only

theorem execMemorizeLive_keeps (index key : Nat) (s : State) : OKeeps s (execMemorizeLive index key s) := by
  unfold execMemorizeLive
  repeat' first
    | assumption
    | with_reducible exact Keeps.refl _
    | with_reducible apply OKeeps.next ?_
    | exact True.intro
    | with_reducible apply Keeps.trans ?_ (stepShard_keeps _ _ _)
    | with_reducible apply Keeps.trans ?_ (finishQuery_keeps _ _ _ _)
    | with_reducible apply Keeps.trans ?_ (onShard_keeps _ _ _ _)
    | with_reducible apply Keeps.trans ?_ (seatSlabs_keeps _)
    | extract_lets
    | (with_reducible apply Keeps.lit ?_ ?_ ?_ ?_ ?_ ?_); (on_goal 2 => rfl); (on_goal 2 => rfl); (on_goal 2 => rfl); (on_goal 2 => rfl); (on_goal 2 => rfl); first | assumption | with_reducible exact Keeps.refl _ | with_reducible apply Keeps.trans ?_ (stepShard_keeps _ _ _) | with_reducible apply Keeps.trans ?_ (finishQuery_keeps _ _ _ _) | with_reducible apply Keeps.trans ?_ (onShard_keeps _ _ _ _) | with_reducible apply Keeps.trans ?_ (seatSlabs_keeps _) | split
    | split
    | dsimp -zeta only

theorem execRepairPassEnd_keeps (index shard : Nat) (s : State) : OKeeps s (execRepairPassEnd index shard s) := by
  unfold execRepairPassEnd
  repeat' first
    | assumption
    | with_reducible exact Keeps.refl _
    | with_reducible apply OKeeps.next ?_
    | exact True.intro
    | with_reducible apply Keeps.trans ?_ (onShard_keeps _ _ _ _)
    | with_reducible apply Keeps.trans ?_ (seatSlabs_keeps _)
    | dsimp -zeta only

theorem execIndexDeleteEffect_keeps (index shard : Nat) (s : State) : OKeeps s (execIndexDeleteEffect index shard s) := by
  unfold execIndexDeleteEffect
  repeat' first
    | assumption
    | with_reducible exact Keeps.refl _
    | with_reducible apply OKeeps.next ?_
    | exact True.intro
    | (with_reducible apply Keeps.lit ?_ ?_ ?_ ?_ ?_ ?_); (on_goal 2 => rfl); (on_goal 2 => rfl); (on_goal 2 => rfl); (on_goal 2 => rfl); (on_goal 2 => rfl); first | assumption | with_reducible exact Keeps.refl _ | split
    | split
    | dsimp -zeta only

theorem takeFanOut_keeps (peer op index shard k require exclude key tags : Nat) (code : List Byte) (query : Nat) (s : State) : Keeps s (takeFanOut peer op index shard k require exclude key tags code query s) := by
  unfold takeFanOut
  repeat' first
    | assumption
    | with_reducible exact Keeps.refl _
    | with_reducible apply Keeps.trans ?_ (startQuery_keeps _ _)
    | with_reducible apply Keeps.trans ?_ (stepShard_keeps _ _ _)
    | with_reducible apply Keeps.trans ?_ (addQuery_keeps _ _)
    | with_reducible apply Keeps.trans ?_ (sendMgr_keeps _ _ _ _ _ _ _)
    | extract_lets
    | (with_reducible apply Keeps.lit ?_ ?_ ?_ ?_ ?_ ?_); (on_goal 2 => rfl); (on_goal 2 => rfl); (on_goal 2 => rfl); (on_goal 2 => rfl); (on_goal 2 => rfl); first | assumption | with_reducible exact Keeps.refl _ | with_reducible apply Keeps.trans ?_ (startQuery_keeps _ _) | with_reducible apply Keeps.trans ?_ (stepShard_keeps _ _ _) | with_reducible apply Keeps.trans ?_ (addQuery_keeps _ _) | with_reducible apply Keeps.trans ?_ (sendMgr_keeps _ _ _ _ _ _ _) | split
    | split
    | dsimp -zeta only

theorem takeRecallAnswer_keeps (query shard outcome : Nat) (rs : List (Nat × Nat × Nat)) (s : State) : Keeps s (takeRecallAnswer query shard outcome rs s) := by
  unfold takeRecallAnswer
  repeat' first
    | assumption
    | with_reducible exact Keeps.refl _
    | with_reducible apply Keeps.trans ?_ (concludeQuery_keeps _ _)
    | with_reducible apply Keeps.trans ?_ (finishQuery_keeps _ _ _ _)
    | with_reducible apply Keeps.trans ?_ (onQuery_keeps _ _ _)
    | extract_lets
    | (with_reducible apply Keeps.lit ?_ ?_ ?_ ?_ ?_ ?_); (on_goal 2 => rfl); (on_goal 2 => rfl); (on_goal 2 => rfl); (on_goal 2 => rfl); (on_goal 2 => rfl); first | assumption | with_reducible exact Keeps.refl _ | with_reducible apply Keeps.trans ?_ (concludeQuery_keeps _ _) | with_reducible apply Keeps.trans ?_ (finishQuery_keeps _ _ _ _) | with_reducible apply Keeps.trans ?_ (onQuery_keeps _ _ _) | split
    | split
    | dsimp -zeta only

theorem endFailedCalls_keeps (b : Bool) (s : State) : Keeps s (endFailedCalls b s) := by
  unfold endFailedCalls
  repeat' first
    | assumption
    | with_reducible exact Keeps.refl _
    | with_reducible apply Keeps.trans ?_ (forEach_keeps _ _ _ (fun _ _ => ?_))
    | with_reducible apply Keeps.trans ?_ (endRequest_keeps _ _ _ _ _ _ _ _)
    | extract_lets
    | (with_reducible apply Keeps.lit ?_ ?_ ?_ ?_ ?_ ?_); (on_goal 2 => rfl); (on_goal 2 => rfl); (on_goal 2 => rfl); (on_goal 2 => rfl); (on_goal 2 => rfl); first | assumption | with_reducible exact Keeps.refl _ | with_reducible apply Keeps.trans ?_ (forEach_keeps _ _ _ (fun _ _ => ?_)) | with_reducible apply Keeps.trans ?_ (endRequest_keeps _ _ _ _ _ _ _ _) | split
    | split
    | dsimp -zeta only

theorem writeRail_keeps (n mv : Nat) (s : State) : Keeps s (writeRail n mv s) := by
  unfold writeRail
  repeat' first
    | assumption
    | with_reducible exact Keeps.refl _
    | (with_reducible apply Keeps.lit ?_ ?_ ?_ ?_ ?_ ?_); (on_goal 2 => rfl); (on_goal 2 => rfl); (on_goal 2 => rfl); (on_goal 2 => rfl); (on_goal 2 => rfl); first | assumption | with_reducible exact Keeps.refl _ | split
    | split
    | dsimp -zeta only

theorem calibrate_keeps (die : Nat) (m : Nat × Nat × Nat) (s : State) : Keeps s (calibrate die m s) := by
  unfold calibrate
  repeat' first
    | assumption
    | with_reducible exact Keeps.refl _
    | extract_lets
    | (with_reducible apply Keeps.lit ?_ ?_ ?_ ?_ ?_ ?_); (on_goal 2 => rfl); (on_goal 2 => rfl); (on_goal 2 => rfl); (on_goal 2 => rfl); (on_goal 2 => rfl); first | assumption | with_reducible exact Keeps.refl _
    | dsimp -zeta only

theorem setPlanned_keeps (mv : Nat) (s : State) : Keeps s (setPlanned mv s) := by
  unfold setPlanned
  repeat' first
    | assumption
    | with_reducible exact Keeps.refl _
    | with_reducible apply Keeps.trans ?_ (forEach_keeps _ _ _ (fun _ _ => ?_))
    | with_reducible apply Keeps.trans ?_ (writeRail_keeps _ _ _)
    | extract_lets
    | split
    | dsimp -zeta only

theorem readTemps_keeps (temps : List (Option Nat)) (s : State) : Keeps s (readTemps temps s) := by
  unfold readTemps
  repeat' first
    | assumption
    | with_reducible exact Keeps.refl _
    | with_reducible apply Keeps.trans ?_ (forEach_keeps _ _ _ (fun _ _ => ?_))
    | with_reducible apply Keeps.trans ?_ (writeRail_keeps _ _ _)
    | with_reducible apply Keeps.trans ?_ (healthSignal_keeps _ _ _)
    | extract_lets
    | (with_reducible apply Keeps.lit ?_ ?_ ?_ ?_ ?_ ?_); (on_goal 2 => rfl); (on_goal 2 => rfl); (on_goal 2 => rfl); (on_goal 2 => rfl); (on_goal 2 => rfl); first | assumption | with_reducible exact Keeps.refl _ | with_reducible apply Keeps.trans ?_ (forEach_keeps _ _ _ (fun _ _ => ?_)) | with_reducible apply Keeps.trans ?_ (writeRail_keeps _ _ _) | with_reducible apply Keeps.trans ?_ (healthSignal_keeps _ _ _) | split
    | split
    | dsimp -zeta only

theorem execThermalRead_keeps (temps : List (Option Nat)) (s : State) : OKeeps s (execThermalRead temps s) := by
  unfold execThermalRead
  repeat' first
    | assumption
    | with_reducible exact Keeps.refl _
    | with_reducible apply OKeeps.next ?_
    | exact True.intro
    | with_reducible apply Keeps.trans ?_ (readTemps_keeps _ _)
    | dsimp -zeta only

theorem execEnvelopeOverrun_keeps (s : State) : OKeeps s (execEnvelopeOverrun s) := by
  unfold execEnvelopeOverrun
  repeat' first
    | assumption
    | with_reducible exact Keeps.refl _
    | with_reducible apply OKeeps.next ?_
    | exact True.intro
    | with_reducible apply Keeps.trans ?_ (forEach_keeps _ _ _ (fun _ _ => ?_))
    | with_reducible apply Keeps.trans ?_ (writeRail_keeps _ _ _)
    | extract_lets
    | (with_reducible apply Keeps.lit ?_ ?_ ?_ ?_ ?_ ?_); (on_goal 2 => rfl); (on_goal 2 => rfl); (on_goal 2 => rfl); (on_goal 2 => rfl); (on_goal 2 => rfl); first | assumption | with_reducible exact Keeps.refl _ | with_reducible apply Keeps.trans ?_ (forEach_keeps _ _ _ (fun _ _ => ?_)) | with_reducible apply Keeps.trans ?_ (writeRail_keeps _ _ _) | split
    | split
    | dsimp -zeta only

theorem execAvsbusWriteUnacked_keeps (rail requestedMv : Nat) (s : State) : OKeeps s (execAvsbusWriteUnacked rail requestedMv s) := by
  unfold execAvsbusWriteUnacked
  repeat' first
    | assumption
    | with_reducible exact Keeps.refl _
    | with_reducible apply OKeeps.next ?_
    | exact True.intro
    | with_reducible apply Keeps.trans ?_ (healthSignal_keeps _ _ _)
    | (with_reducible apply Keeps.lit ?_ ?_ ?_ ?_ ?_ ?_); (on_goal 2 => rfl); (on_goal 2 => rfl); (on_goal 2 => rfl); (on_goal 2 => rfl); (on_goal 2 => rfl); first | assumption | with_reducible exact Keeps.refl _ | with_reducible apply Keeps.trans ?_ (healthSignal_keeps _ _ _)
    | dsimp -zeta only

theorem execChillModuleLost_keeps (hub : Nat) (s : State) : OKeeps s (execChillModuleLost hub s) := by
  unfold execChillModuleLost
  repeat' first
    | assumption
    | with_reducible exact Keeps.refl _
    | with_reducible apply OKeeps.next ?_
    | exact True.intro
    | with_reducible apply Keeps.trans ?_ (holdBound_keeps _ _)
    | (with_reducible apply Keeps.lit ?_ ?_ ?_ ?_ ?_ ?_); (on_goal 2 => rfl); (on_goal 2 => rfl); (on_goal 2 => rfl); (on_goal 2 => rfl); (on_goal 2 => rfl); first | assumption | with_reducible exact Keeps.refl _ | with_reducible apply Keeps.trans ?_ (holdBound_keeps _ _)
    | dsimp -zeta only

theorem execClusterIdlePowerOff_keeps (s : State) : OKeeps s (execClusterIdlePowerOff s) := by
  unfold execClusterIdlePowerOff
  repeat' first
    | assumption
    | with_reducible exact Keeps.refl _
    | with_reducible apply OKeeps.next ?_
    | exact True.intro
    | (with_reducible apply Keeps.lit ?_ ?_ ?_ ?_ ?_ ?_); (on_goal 2 => rfl); (on_goal 2 => rfl); (on_goal 2 => rfl); (on_goal 2 => rfl); (on_goal 2 => rfl); first | assumption | with_reducible exact Keeps.refl _ | split
    | split
    | dsimp -zeta only

theorem execThermtrip_keeps (_die : Nat) (s : State) : OKeeps s (execThermtrip _die s) := by
  unfold execThermtrip
  repeat' first
    | assumption
    | with_reducible exact Keeps.refl _
    | with_reducible apply OKeeps.next ?_
    | exact True.intro
    | (with_reducible apply Keeps.lit ?_ ?_ ?_ ?_ ?_ ?_); (on_goal 2 => rfl); (on_goal 2 => rfl); (on_goal 2 => rfl); (on_goal 2 => rfl); (on_goal 2 => rfl); first | assumption | with_reducible exact Keeps.refl _
    | dsimp -zeta only

theorem execPllLossOfLock_keeps (die : Nat) (s : State) : OKeeps s (execPllLossOfLock die s) := by
  unfold execPllLossOfLock
  repeat' first
    | assumption
    | with_reducible exact Keeps.refl _
    | with_reducible apply OKeeps.next ?_
    | exact True.intro
    | with_reducible apply Keeps.trans ?_ (healthEvent_keeps _ _ _)
    | (with_reducible apply Keeps.lit ?_ ?_ ?_ ?_ ?_ ?_); (on_goal 2 => rfl); (on_goal 2 => rfl); (on_goal 2 => rfl); (on_goal 2 => rfl); (on_goal 2 => rfl); first | assumption | with_reducible exact Keeps.refl _ | with_reducible apply Keeps.trans ?_ (healthEvent_keeps _ _ _) | split
    | split
    | dsimp -zeta only

theorem flowPort_keeps (engine dest cls : Nat) (s : State) : Keeps s (flowPort engine dest cls s).2 := by
  unfold flowPort
  repeat' first
    | assumption
    | with_reducible exact Keeps.refl _
    | extract_lets
    | (with_reducible apply Keeps.lit ?_ ?_ ?_ ?_ ?_ ?_); (on_goal 2 => rfl); (on_goal 2 => rfl); (on_goal 2 => rfl); (on_goal 2 => rfl); (on_goal 2 => rfl); first | assumption | with_reducible exact Keeps.refl _ | split
    | split
    | dsimp -zeta only

theorem sendHdr_keeps (engine : Nat) (h : FabricHdr) (lines : List Line) (s : State) : Keeps s (sendHdr engine h lines s) := by
  unfold sendHdr
  repeat' first
    | assumption
    | with_reducible exact Keeps.refl _
    | with_reducible apply Keeps.trans ?_ (flowPort_keeps _ _ _ _)
    | with_reducible apply Keeps.trans ?_ (onPort_keeps _ _ _)
    | extract_lets
    | (with_reducible apply Keeps.lit ?_ ?_ ?_ ?_ ?_ ?_); (on_goal 2 => rfl); (on_goal 2 => rfl); (on_goal 2 => rfl); (on_goal 2 => rfl); (on_goal 2 => rfl); first | assumption | with_reducible exact Keeps.refl _ | with_reducible apply Keeps.trans ?_ (flowPort_keeps _ _ _ _) | with_reducible apply Keeps.trans ?_ (onPort_keeps _ _ _) | split
    | split
    | dsimp -zeta only

theorem fabricWrite_keeps (cls dest window offset : Nat) (lines : List Line) (s : State) : Keeps s (fabricWrite cls dest window offset lines s) := by
  unfold fabricWrite
  repeat' first
    | assumption
    | with_reducible exact Keeps.refl _
    | with_reducible apply Keeps.trans ?_ (sendHdr_keeps _ _ _ _)
    | dsimp -zeta only

theorem fabricRead_keeps (issuer : Issuer) (cls dest window offset count : Nat) (s : State) : Keeps s (fabricRead issuer cls dest window offset count s) := by
  unfold fabricRead
  repeat' first
    | assumption
    | with_reducible exact Keeps.refl _
    | with_reducible apply Keeps.trans ?_ (sendHdr_keeps _ _ _ _)
    | with_reducible apply Keeps.trans ?_ (flowPort_keeps _ _ _ _)
    | extract_lets
    | (with_reducible apply Keeps.lit ?_ ?_ ?_ ?_ ?_ ?_); (on_goal 2 => rfl); (on_goal 2 => rfl); (on_goal 2 => rfl); (on_goal 2 => rfl); (on_goal 2 => rfl); first | assumption | with_reducible exact Keeps.refl _ | with_reducible apply Keeps.trans ?_ (sendHdr_keeps _ _ _ _) | with_reducible apply Keeps.trans ?_ (flowPort_keeps _ _ _ _)
    | dsimp -zeta only

theorem reportFabric_keeps (dest window reason : Nat) (s : State) : Keeps s (reportFabric dest window reason s) := by
  unfold reportFabric
  repeat' first
    | assumption
    | with_reducible exact Keeps.refl _
    | with_reducible apply Keeps.trans ?_ (sendMgr_keeps _ _ _ _ _ _ _)
    | split
    | dsimp -zeta only

theorem poison_keeps (r : FRead) (reason : Nat) (s : State) : Keeps s (poison r reason s) := by
  unfold poison
  repeat' first
    | assumption
    | with_reducible exact Keeps.refl _
    | with_reducible apply Keeps.trans ?_ (reportFabric_keeps _ _ _ _)
    | with_reducible apply Keeps.trans ?_ (concludeQuery_keeps _ _)
    | with_reducible apply Keeps.trans ?_ (onQuery_keeps _ _ _)
    | with_reducible apply Keeps.trans ?_ (reportBroken_keeps _ _ _)
    | with_reducible apply Keeps.trans ?_ (abortMigration_keeps _ _ _)
    | with_reducible apply Keeps.trans ?_ (onPort_keeps _ _ _)
    | extract_lets
    | (with_reducible apply Keeps.lit ?_ ?_ ?_ ?_ ?_ ?_); (on_goal 2 => rfl); (on_goal 2 => rfl); (on_goal 2 => rfl); (on_goal 2 => rfl); (on_goal 2 => rfl); first | assumption | with_reducible exact Keeps.refl _ | with_reducible apply Keeps.trans ?_ (reportFabric_keeps _ _ _ _) | with_reducible apply Keeps.trans ?_ (concludeQuery_keeps _ _) | with_reducible apply Keeps.trans ?_ (onQuery_keeps _ _ _) | with_reducible apply Keeps.trans ?_ (reportBroken_keeps _ _ _) | with_reducible apply Keeps.trans ?_ (abortMigration_keeps _ _ _) | with_reducible apply Keeps.trans ?_ (onPort_keeps _ _ _) | split
    | split
    | dsimp -zeta only

theorem execFabricReadResponse_keeps (_port : Nat) (h : FabricHdr) (s : State) : OKeeps s (execFabricReadResponse _port h s) := by
  unfold execFabricReadResponse
  repeat' first
    | assumption
    | with_reducible exact Keeps.refl _
    | with_reducible apply OKeeps.next ?_
    | exact True.intro
    | with_reducible apply Keeps.trans ?_ (poison_keeps _ _ _)
    | with_reducible apply Keeps.trans ?_ (drainAll_keeps _)
    | with_reducible apply Keeps.trans ?_ (tryRetire_keeps _)
    | (with_reducible apply Keeps.lit ?_ ?_ ?_ ?_ ?_ ?_); (on_goal 2 => rfl); (on_goal 2 => rfl); (on_goal 2 => rfl); (on_goal 2 => rfl); (on_goal 2 => rfl); first | assumption | with_reducible exact Keeps.refl _ | with_reducible apply Keeps.trans ?_ (poison_keeps _ _ _) | with_reducible apply Keeps.trans ?_ (drainAll_keeps _) | with_reducible apply Keeps.trans ?_ (tryRetire_keeps _) | split
    | split
    | dsimp -zeta only

theorem execFabricReadTimeout_keeps (tag : Nat) (s : State) : OKeeps s (execFabricReadTimeout tag s) := by
  unfold execFabricReadTimeout
  repeat' first
    | assumption
    | with_reducible exact Keeps.refl _
    | with_reducible apply OKeeps.next ?_
    | exact True.intro
    | with_reducible apply Keeps.trans ?_ (poison_keeps _ _ _)
    | with_reducible apply Keeps.trans ?_ (drainAll_keeps _)
    | with_reducible apply Keeps.trans ?_ (tryRetire_keeps _)
    | (with_reducible apply Keeps.lit ?_ ?_ ?_ ?_ ?_ ?_); (on_goal 2 => rfl); (on_goal 2 => rfl); (on_goal 2 => rfl); (on_goal 2 => rfl); (on_goal 2 => rfl); first | assumption | with_reducible exact Keeps.refl _ | with_reducible apply Keeps.trans ?_ (poison_keeps _ _ _) | with_reducible apply Keeps.trans ?_ (drainAll_keeps _) | with_reducible apply Keeps.trans ?_ (tryRetire_keeps _) | split
    | split
    | dsimp -zeta only

theorem execFabricNotice_keeps (h : FabricHdr) (s : State) : OKeeps s (execFabricNotice h s) := by
  unfold execFabricNotice
  repeat' first
    | assumption
    | with_reducible exact Keeps.refl _
    | with_reducible apply OKeeps.next ?_
    | exact True.intro
    | with_reducible apply Keeps.trans ?_ (forEach_keeps _ _ _ (fun _ _ => ?_))
    | with_reducible apply Keeps.trans ?_ (poison_keeps _ _ _)
    | with_reducible apply Keeps.trans ?_ (drainAll_keeps _)
    | extract_lets
    | (with_reducible apply Keeps.lit ?_ ?_ ?_ ?_ ?_ ?_); (on_goal 2 => rfl); (on_goal 2 => rfl); (on_goal 2 => rfl); (on_goal 2 => rfl); (on_goal 2 => rfl); first | assumption | with_reducible exact Keeps.refl _ | with_reducible apply Keeps.trans ?_ (forEach_keeps _ _ _ (fun _ _ => ?_)) | with_reducible apply Keeps.trans ?_ (poison_keeps _ _ _) | with_reducible apply Keeps.trans ?_ (drainAll_keeps _) | split
    | split
    | dsimp -zeta only

theorem answerRead_keeps (h : FabricHdr) (s : State) : Keeps s (answerRead h s) := by
  unfold answerRead
  repeat' first
    | assumption
    | with_reducible exact Keeps.refl _
    | with_reducible apply Keeps.trans ?_ (sendHdr_keeps _ _ _ _)
    | with_reducible apply Keeps.trans ?_ (drawFree_keeps _)
    | extract_lets
    | (with_reducible apply Keeps.lit ?_ ?_ ?_ ?_ ?_ ?_); (on_goal 2 => rfl); (on_goal 2 => rfl); (on_goal 2 => rfl); (on_goal 2 => rfl); (on_goal 2 => rfl); first | assumption | with_reducible exact Keeps.refl _ | with_reducible apply Keeps.trans ?_ (sendHdr_keeps _ _ _ _) | with_reducible apply Keeps.trans ?_ (drawFree_keeps _) | split
    | split
    | dsimp -zeta only

theorem execFabricReadRequest_keeps (port : Nat) (h : FabricHdr) (s : State) : OKeeps s (execFabricReadRequest port h s) := by
  unfold execFabricReadRequest
  repeat' first
    | assumption
    | with_reducible exact Keeps.refl _
    | with_reducible apply OKeeps.next ?_
    | exact True.intro
    | with_reducible apply Keeps.trans ?_ (answerRead_keeps _ _)
    | (with_reducible apply Keeps.lit ?_ ?_ ?_ ?_ ?_ ?_); (on_goal 2 => rfl); (on_goal 2 => rfl); (on_goal 2 => rfl); (on_goal 2 => rfl); (on_goal 2 => rfl); first | assumption | with_reducible exact Keeps.refl _ | with_reducible apply Keeps.trans ?_ (answerRead_keeps _ _) | split
    | split
    | dsimp -zeta only

theorem portGo_keeps (n : Nat) (st : PortState) (s : State) : Keeps s (portGo n st s) := by
  unfold portGo
  repeat' first
    | assumption
    | with_reducible exact Keeps.refl _
    | with_reducible apply Keeps.trans ?_ (fireState_keeps _)
    | with_reducible apply Keeps.trans ?_ (onPort_keeps _ _ _)
    | extract_lets
    | (with_reducible apply Keeps.lit ?_ ?_ ?_ ?_ ?_ ?_); (on_goal 2 => rfl); (on_goal 2 => rfl); (on_goal 2 => rfl); (on_goal 2 => rfl); (on_goal 2 => rfl); first | assumption | with_reducible exact Keeps.refl _ | with_reducible apply Keeps.trans ?_ (fireState_keeps _) | with_reducible apply Keeps.trans ?_ (onPort_keeps _ _ _) | split
    | split
    | dsimp -zeta only

theorem portFail_keeps (n : Nat) (st : PortState) (reason : Nat) (s : State) : Keeps s (portFail n st reason s) := by
  unfold portFail
  repeat' first
    | assumption
    | with_reducible exact Keeps.refl _
    | with_reducible apply Keeps.trans ?_ (portGo_keeps _ _ _)
    | with_reducible apply Keeps.trans ?_ (onPort_keeps _ _ _)
    | (with_reducible apply Keeps.lit ?_ ?_ ?_ ?_ ?_ ?_); (on_goal 2 => rfl); (on_goal 2 => rfl); (on_goal 2 => rfl); (on_goal 2 => rfl); (on_goal 2 => rfl); first | assumption | with_reducible exact Keeps.refl _ | with_reducible apply Keeps.trans ?_ (portGo_keeps _ _ _) | with_reducible apply Keeps.trans ?_ (onPort_keeps _ _ _)
    | dsimp -zeta only

theorem retrain_keeps (n lines : Nat) (s : State) : Keeps s (retrain n lines s) := by
  unfold retrain
  repeat' first
    | assumption
    | with_reducible exact Keeps.refl _
    | with_reducible apply Keeps.trans ?_ (portFail_keeps _ _ _ _)
    | with_reducible apply Keeps.trans ?_ (portGo_keeps _ _ _)
    | with_reducible apply Keeps.trans ?_ (onPort_keeps _ _ _)
    | (with_reducible apply Keeps.lit ?_ ?_ ?_ ?_ ?_ ?_); (on_goal 2 => rfl); (on_goal 2 => rfl); (on_goal 2 => rfl); (on_goal 2 => rfl); (on_goal 2 => rfl); first | assumption | with_reducible exact Keeps.refl _ | with_reducible apply Keeps.trans ?_ (portFail_keeps _ _ _ _) | with_reducible apply Keeps.trans ?_ (portGo_keeps _ _ _) | with_reducible apply Keeps.trans ?_ (onPort_keeps _ _ _) | split
    | split
    | dsimp -zeta only

theorem dropWrite_keeps (port : Nat) (o : FOut) (s : State) : Keeps s (dropWrite port o s) := by
  unfold dropWrite
  repeat' first
    | assumption
    | with_reducible exact Keeps.refl _
    | with_reducible apply Keeps.trans ?_ (reportFabric_keeps _ _ _ _)
    | with_reducible apply Keeps.trans ?_ (onPort_keeps _ _ _)
    | (with_reducible apply Keeps.lit ?_ ?_ ?_ ?_ ?_ ?_); (on_goal 2 => rfl); (on_goal 2 => rfl); (on_goal 2 => rfl); (on_goal 2 => rfl); (on_goal 2 => rfl); first | assumption | with_reducible exact Keeps.refl _ | with_reducible apply Keeps.trans ?_ (reportFabric_keeps _ _ _ _) | with_reducible apply Keeps.trans ?_ (onPort_keeps _ _ _)
    | dsimp -zeta only

theorem reissue_keeps (r : FRead) (s : State) : Keeps s (reissue r s) := by
  unfold reissue
  repeat' first
    | assumption
    | with_reducible exact Keeps.refl _
    | with_reducible apply Keeps.trans ?_ (sendHdr_keeps _ _ _ _)
    | with_reducible apply Keeps.trans ?_ (flowPort_keeps _ _ _ _)
    | extract_lets
    | (with_reducible apply Keeps.lit ?_ ?_ ?_ ?_ ?_ ?_); (on_goal 2 => rfl); (on_goal 2 => rfl); (on_goal 2 => rfl); (on_goal 2 => rfl); (on_goal 2 => rfl); first | assumption | with_reducible exact Keeps.refl _ | with_reducible apply Keeps.trans ?_ (sendHdr_keeps _ _ _ _) | with_reducible apply Keeps.trans ?_ (flowPort_keeps _ _ _ _) | split
    | split
    | dsimp -zeta only

theorem losePools_keeps (n : Nat) (s : State) : Keeps s (losePools n s) := by
  unfold losePools
  repeat' first
    | assumption
    | with_reducible exact Keeps.refl _
    | with_reducible apply Keeps.trans ?_ (forEach_keeps _ _ _ (fun _ _ => ?_))
    | with_reducible apply Keeps.trans ?_ (poolLost_keeps _ _)
    | dsimp -zeta only

theorem pathLoss_keeps (n unacked : Nat) (s : State) : Keeps s (pathLoss n unacked s) := by
  unfold pathLoss
  repeat' first
    | assumption
    | with_reducible exact Keeps.refl _
    | with_reducible apply Keeps.trans ?_ (forEach_keeps _ _ _ (fun _ _ => ?_))
    | with_reducible apply Keeps.trans ?_ (losePools_keeps _ _)
    | with_reducible apply Keeps.trans ?_ (reissue_keeps _ _)
    | with_reducible apply Keeps.trans ?_ (dropWrite_keeps _ _ _)
    | with_reducible apply Keeps.trans ?_ (sendHdr_keeps _ _ _ _)
    | with_reducible apply Keeps.trans ?_ (onPort_keeps _ _ _)
    | extract_lets
    | (with_reducible apply Keeps.lit ?_ ?_ ?_ ?_ ?_ ?_); (on_goal 2 => rfl); (on_goal 2 => rfl); (on_goal 2 => rfl); (on_goal 2 => rfl); (on_goal 2 => rfl); first | assumption | with_reducible exact Keeps.refl _ | with_reducible apply Keeps.trans ?_ (forEach_keeps _ _ _ (fun _ _ => ?_)) | with_reducible apply Keeps.trans ?_ (losePools_keeps _ _) | with_reducible apply Keeps.trans ?_ (reissue_keeps _ _) | with_reducible apply Keeps.trans ?_ (dropWrite_keeps _ _ _) | with_reducible apply Keeps.trans ?_ (sendHdr_keeps _ _ _ _) | with_reducible apply Keeps.trans ?_ (onPort_keeps _ _ _)
    | dsimp -zeta only

theorem leaveUp_keeps (n unacked : Nat) (go : State → State) (hg : ∀ t, Keeps t (go t)) (s : State) : Keeps s (leaveUp n unacked go s) :=
  ((hg s).trans (pathLoss_keeps _ _ _)).trans (drainAll_keeps _)

theorem execPortTrained_keeps (port width : Nat) (swap : Bool) (peer : Identity) (linkUp : Bool) (s : State) : OKeeps s (execPortTrained port width swap peer linkUp s) := by
  unfold execPortTrained
  repeat' first
    | assumption
    | with_reducible exact Keeps.refl _
    | with_reducible apply OKeeps.next ?_
    | exact True.intro
    | with_reducible apply Keeps.trans ?_ (portFail_keeps _ _ _ _)
    | with_reducible apply Keeps.trans ?_ (portGo_keeps _ _ _)
    | with_reducible apply Keeps.trans ?_ (onPort_keeps _ _ _)
    | extract_lets
    | (with_reducible apply Keeps.lit ?_ ?_ ?_ ?_ ?_ ?_); (on_goal 2 => rfl); (on_goal 2 => rfl); (on_goal 2 => rfl); (on_goal 2 => rfl); (on_goal 2 => rfl); first | assumption | with_reducible exact Keeps.refl _ | with_reducible apply Keeps.trans ?_ (portFail_keeps _ _ _ _) | with_reducible apply Keeps.trans ?_ (portGo_keeps _ _ _) | with_reducible apply Keeps.trans ?_ (onPort_keeps _ _ _) | split
    | split
    | dsimp -zeta only

theorem execPortTrainingTimeout_keeps (port step : Nat) (s : State) : OKeeps s (execPortTrainingTimeout port step s) := by
  unfold execPortTrainingTimeout
  repeat' first
    | assumption
    | with_reducible exact Keeps.refl _
    | with_reducible apply OKeeps.next ?_
    | exact True.intro
    | with_reducible apply Keeps.trans ?_ (portFail_keeps _ _ _ _)
    | (with_reducible apply Keeps.lit ?_ ?_ ?_ ?_ ?_ ?_); (on_goal 2 => rfl); (on_goal 2 => rfl); (on_goal 2 => rfl); (on_goal 2 => rfl); (on_goal 2 => rfl); first | assumption | with_reducible exact Keeps.refl _ | with_reducible apply Keeps.trans ?_ (portFail_keeps _ _ _ _) | split
    | split
    | dsimp -zeta only

theorem spareWave_keeps (port : Nat) (out : Bool) (w unacked : Nat) (s : State) : Keeps s (spareWave port out w unacked s) := by
  unfold spareWave
  repeat' first
    | assumption
    | with_reducible exact Keeps.refl _
    | with_reducible apply Keeps.trans ?_ (leaveUp_keeps _ _ _ (fun _ => ?_) _)
    | with_reducible apply Keeps.trans ?_ (portFail_keeps _ _ _ _)
    | with_reducible apply Keeps.trans ?_ (portGo_keeps _ _ _)
    | with_reducible apply Keeps.trans ?_ (healthEvent_keeps _ _ _)
    | with_reducible apply Keeps.trans ?_ (onPort_keeps _ _ _)
    | extract_lets
    | (with_reducible apply Keeps.lit ?_ ?_ ?_ ?_ ?_ ?_); (on_goal 2 => rfl); (on_goal 2 => rfl); (on_goal 2 => rfl); (on_goal 2 => rfl); (on_goal 2 => rfl); first | assumption | with_reducible exact Keeps.refl _ | with_reducible apply Keeps.trans ?_ (leaveUp_keeps _ _ _ (fun _ => ?_) _) | with_reducible apply Keeps.trans ?_ (portFail_keeps _ _ _ _) | with_reducible apply Keeps.trans ?_ (portGo_keeps _ _ _) | with_reducible apply Keeps.trans ?_ (healthEvent_keeps _ _ _) | with_reducible apply Keeps.trans ?_ (onPort_keeps _ _ _) | split
    | split
    | dsimp -zeta only

theorem execWavelengthSpare_keeps (port : Nat) (out : Bool) (wavelength unacked : Nat) (s : State) : OKeeps s (execWavelengthSpare port out wavelength unacked s) := by
  unfold execWavelengthSpare
  repeat' first
    | assumption
    | with_reducible exact Keeps.refl _
    | with_reducible apply OKeeps.next ?_
    | exact True.intro
    | with_reducible apply Keeps.trans ?_ (spareWave_keeps _ _ _ _ _)
    | dsimp -zeta only

theorem execPortLightLost_keeps (port : Nat) (noLight : Bool) (unacked : Nat) (s : State) : OKeeps s (execPortLightLost port noLight unacked s) := by
  unfold execPortLightLost
  repeat' first
    | assumption
    | with_reducible exact Keeps.refl _
    | with_reducible apply OKeeps.next ?_
    | exact True.intro
    | with_reducible apply Keeps.trans ?_ (leaveUp_keeps _ _ _ (fun _ => ?_) _)
    | with_reducible apply Keeps.trans ?_ (portFail_keeps _ _ _ _)
    | extract_lets
    | (with_reducible apply Keeps.lit ?_ ?_ ?_ ?_ ?_ ?_); (on_goal 2 => rfl); (on_goal 2 => rfl); (on_goal 2 => rfl); (on_goal 2 => rfl); (on_goal 2 => rfl); first | assumption | with_reducible exact Keeps.refl _ | with_reducible apply Keeps.trans ?_ (leaveUp_keeps _ _ _ (fun _ => ?_) _) | with_reducible apply Keeps.trans ?_ (portFail_keeps _ _ _ _) | split
    | split
    | dsimp -zeta only

theorem execLaserFeedLow_keeps (port : Nat) (lost : List Nat) (unacked : Nat) (s : State) : OKeeps s (execLaserFeedLow port lost unacked s) := by
  unfold execLaserFeedLow
  repeat' first
    | assumption
    | with_reducible exact Keeps.refl _
    | with_reducible apply OKeeps.next ?_
    | exact True.intro
    | with_reducible apply Keeps.trans ?_ (forEach_keeps _ _ _ (fun _ _ => ?_))
    | with_reducible apply Keeps.trans ?_ (spareWave_keeps _ _ _ _ _)
    | with_reducible apply Keeps.trans ?_ (leaveUp_keeps _ _ _ (fun _ => ?_) _)
    | with_reducible apply Keeps.trans ?_ (portFail_keeps _ _ _ _)
    | (with_reducible apply Keeps.lit ?_ ?_ ?_ ?_ ?_ ?_); (on_goal 2 => rfl); (on_goal 2 => rfl); (on_goal 2 => rfl); (on_goal 2 => rfl); (on_goal 2 => rfl); first | assumption | with_reducible exact Keeps.refl _ | with_reducible apply Keeps.trans ?_ (forEach_keeps _ _ _ (fun _ _ => ?_)) | with_reducible apply Keeps.trans ?_ (spareWave_keeps _ _ _ _ _) | with_reducible apply Keeps.trans ?_ (leaveUp_keeps _ _ _ (fun _ => ?_) _) | with_reducible apply Keeps.trans ?_ (portFail_keeps _ _ _ _) | split
    | split
    | dsimp -zeta only

theorem execLaserFeedRestored_keeps (port : Nat) (s : State) : OKeeps s (execLaserFeedRestored port s) := by
  unfold execLaserFeedRestored
  repeat' first
    | assumption
    | with_reducible exact Keeps.refl _
    | with_reducible apply OKeeps.next ?_
    | exact True.intro
    | with_reducible apply Keeps.trans ?_ (portGo_keeps _ _ _)
    | (with_reducible apply Keeps.lit ?_ ?_ ?_ ?_ ?_ ?_); (on_goal 2 => rfl); (on_goal 2 => rfl); (on_goal 2 => rfl); (on_goal 2 => rfl); (on_goal 2 => rfl); first | assumption | with_reducible exact Keeps.refl _ | with_reducible apply Keeps.trans ?_ (portGo_keeps _ _ _) | split
    | split
    | dsimp -zeta only

theorem execLinkLayerFatal_keeps (port unacked : Nat) (s : State) : OKeeps s (execLinkLayerFatal port unacked s) := by
  unfold execLinkLayerFatal
  repeat' first
    | assumption
    | with_reducible exact Keeps.refl _
    | with_reducible apply OKeeps.next ?_
    | exact True.intro
    | with_reducible apply Keeps.trans ?_ (leaveUp_keeps _ _ _ (fun _ => ?_) _)
    | with_reducible apply Keeps.trans ?_ (portFail_keeps _ _ _ _)
    | (with_reducible apply Keeps.lit ?_ ?_ ?_ ?_ ?_ ?_); (on_goal 2 => rfl); (on_goal 2 => rfl); (on_goal 2 => rfl); (on_goal 2 => rfl); (on_goal 2 => rfl); first | assumption | with_reducible exact Keeps.refl _ | with_reducible apply Keeps.trans ?_ (leaveUp_keeps _ _ _ (fun _ => ?_) _) | with_reducible apply Keeps.trans ?_ (portFail_keeps _ _ _ _) | split
    | split
    | dsimp -zeta only

theorem execPortRetryInterval_keeps (port lines : Nat) (s : State) : OKeeps s (execPortRetryInterval port lines s) := by
  unfold execPortRetryInterval
  repeat' first
    | assumption
    | with_reducible exact Keeps.refl _
    | with_reducible apply OKeeps.next ?_
    | exact True.intro
    | with_reducible apply Keeps.trans ?_ (retrain_keeps _ _ _)
    | (with_reducible apply Keeps.lit ?_ ?_ ?_ ?_ ?_ ?_); (on_goal 2 => rfl); (on_goal 2 => rfl); (on_goal 2 => rfl); (on_goal 2 => rfl); (on_goal 2 => rfl); first | assumption | with_reducible exact Keeps.refl _ | with_reducible apply Keeps.trans ?_ (retrain_keeps _ _ _) | split
    | split
    | dsimp -zeta only

theorem lightModules_keeps (s : State) : Keeps s (lightModules s) := by
  unfold lightModules
  repeat' first
    | assumption
    | with_reducible exact Keeps.refl _
    | (with_reducible apply Keeps.lit ?_ ?_ ?_ ?_ ?_ ?_); (on_goal 2 => rfl); (on_goal 2 => rfl); (on_goal 2 => rfl); (on_goal 2 => rfl); (on_goal 2 => rfl); first | assumption | with_reducible exact Keeps.refl _
    | dsimp -zeta only

theorem execPortRoleDrained_keeps (port lines : Nat) (s : State) : OKeeps s (execPortRoleDrained port lines s) := by
  unfold execPortRoleDrained
  repeat' first
    | assumption
    | with_reducible exact Keeps.refl _
    | with_reducible apply OKeeps.next ?_
    | exact True.intro
    | with_reducible apply Keeps.trans ?_ (lightModules_keeps _)
    | with_reducible apply Keeps.trans ?_ (retrain_keeps _ _ _)
    | with_reducible apply Keeps.trans ?_ (portFail_keeps _ _ _ _)
    | with_reducible apply Keeps.trans ?_ (onPort_keeps _ _ _)
    | extract_lets
    | (with_reducible apply Keeps.lit ?_ ?_ ?_ ?_ ?_ ?_); (on_goal 2 => rfl); (on_goal 2 => rfl); (on_goal 2 => rfl); (on_goal 2 => rfl); (on_goal 2 => rfl); first | assumption | with_reducible exact Keeps.refl _ | with_reducible apply Keeps.trans ?_ (lightModules_keeps _) | with_reducible apply Keeps.trans ?_ (retrain_keeps _ _ _) | with_reducible apply Keeps.trans ?_ (portFail_keeps _ _ _ _) | with_reducible apply Keeps.trans ?_ (onPort_keeps _ _ _) | split
    | split
    | dsimp -zeta only

theorem execPllLockRegained_keeps (die : Nat) (s : State) : OKeeps s (execPllLockRegained die s) := by
  unfold execPllLockRegained
  repeat' first
    | assumption
    | with_reducible exact Keeps.refl _
    | with_reducible apply OKeeps.next ?_
    | exact True.intro
    | with_reducible apply Keeps.trans ?_ (forEach_keeps _ _ _ (fun _ _ => ?_))
    | with_reducible apply Keeps.trans ?_ (leaveUp_keeps _ _ _ (fun _ => ?_) _)
    | with_reducible apply Keeps.trans ?_ (portGo_keeps _ _ _)
    | with_reducible apply Keeps.trans ?_ (healthEvent_keeps _ _ _)
    | extract_lets
    | (with_reducible apply Keeps.lit ?_ ?_ ?_ ?_ ?_ ?_); (on_goal 2 => rfl); (on_goal 2 => rfl); (on_goal 2 => rfl); (on_goal 2 => rfl); (on_goal 2 => rfl); first | assumption | with_reducible exact Keeps.refl _ | with_reducible apply Keeps.trans ?_ (forEach_keeps _ _ _ (fun _ _ => ?_)) | with_reducible apply Keeps.trans ?_ (leaveUp_keeps _ _ _ (fun _ => ?_) _) | with_reducible apply Keeps.trans ?_ (portGo_keeps _ _ _) | with_reducible apply Keeps.trans ?_ (healthEvent_keeps _ _ _) | split
    | split
    | dsimp -zeta only

theorem onWork_keeps (h : Nat) (f : Work → Work) (s : State) : Keeps s (onWork h f s) := by
  unfold onWork
  repeat' first
    | assumption
    | with_reducible exact Keeps.refl _
    | (with_reducible apply Keeps.lit ?_ ?_ ?_ ?_ ?_ ?_); (on_goal 2 => rfl); (on_goal 2 => rfl); (on_goal 2 => rfl); (on_goal 2 => rfl); (on_goal 2 => rfl); first | assumption | with_reducible exact Keeps.refl _ | split
    | split
    | dsimp -zeta only

theorem clearTasks_keeps (l : Nat) (s : State) : Keeps s (clearTasks l s) := by
  unfold clearTasks
  repeat' first
    | assumption
    | with_reducible exact Keeps.refl _
    | (with_reducible apply Keeps.lit ?_ ?_ ?_ ?_ ?_ ?_); (on_goal 2 => rfl); (on_goal 2 => rfl); (on_goal 2 => rfl); (on_goal 2 => rfl); (on_goal 2 => rfl); first | assumption | with_reducible exact Keeps.refl _
    | dsimp -zeta only

theorem putTasks_keeps (ts : List Task) (s : State) : Keeps s (putTasks ts s) := by
  unfold putTasks
  repeat' first
    | assumption
    | with_reducible exact Keeps.refl _
    | (with_reducible apply Keeps.lit ?_ ?_ ?_ ?_ ?_ ?_); (on_goal 2 => rfl); (on_goal 2 => rfl); (on_goal 2 => rfl); (on_goal 2 => rfl); (on_goal 2 => rfl); first | assumption | with_reducible exact Keeps.refl _
    | dsimp -zeta only

theorem issueFetch_keeps (h l row : Nat) (s : State) : Keeps s (issueFetch h l row s) := by
  unfold issueFetch
  split
  · exact Keeps.refl _
  · split
    · split
      · exact faultSlot_keeps _ _ _
      · extract_lets kib r c f
        have h1 : Keeps s r.2 := by
          dsimp only [r]; split
          · exact takeFrame_keeps _ _ _
          · exact Keeps.refl _
        exact Keeps.lit h1 rfl rfl rfl rfl rfl
    · exact Keeps.refl _

theorem startWork_keeps (p : ModelProgram) (l h : Nat) (s : State) : Keeps s (startWork p l h s) := by
  unfold startWork
  repeat' first
    | assumption
    | with_reducible exact Keeps.refl _
    | with_reducible apply Keeps.trans ?_ (forEach_keeps _ _ _ (fun _ _ => ?_))
    | with_reducible apply Keeps.trans ?_ (issueFetch_keeps _ _ _ _)
    | with_reducible apply Keeps.trans ?_ (putTasks_keeps _ _)
    | with_reducible apply Keeps.trans ?_ (onWork_keeps _ _ _)
    | with_reducible apply Keeps.trans ?_ (onSess_keeps _ _ _)
    | extract_lets
    | (with_reducible apply Keeps.lit ?_ ?_ ?_ ?_ ?_ ?_); (on_goal 2 => rfl); (on_goal 2 => rfl); (on_goal 2 => rfl); (on_goal 2 => rfl); (on_goal 2 => rfl); first | assumption | with_reducible exact Keeps.refl _ | with_reducible apply Keeps.trans ?_ (forEach_keeps _ _ _ (fun _ _ => ?_)) | with_reducible apply Keeps.trans ?_ (issueFetch_keeps _ _ _ _) | with_reducible apply Keeps.trans ?_ (putTasks_keeps _ _) | with_reducible apply Keeps.trans ?_ (onWork_keeps _ _ _) | with_reducible apply Keeps.trans ?_ (onSess_keeps _ _ _) | split
    | split
    | dsimp -zeta only

theorem startPour_keeps (s : State) : Keeps s (startPour s) := by
  unfold startPour
  repeat' first
    | assumption
    | with_reducible exact Keeps.refl _
    | with_reducible apply Keeps.trans ?_ (forEach_keeps _ _ _ (fun _ _ => ?_))
    | with_reducible apply Keeps.trans ?_ (startWork_keeps _ _ _ _)
    | with_reducible apply Keeps.trans ?_ (drawFree_keeps _)
    | extract_lets
    | (with_reducible apply Keeps.lit ?_ ?_ ?_ ?_ ?_ ?_); (on_goal 2 => rfl); (on_goal 2 => rfl); (on_goal 2 => rfl); (on_goal 2 => rfl); (on_goal 2 => rfl); first | assumption | with_reducible exact Keeps.refl _ | with_reducible apply Keeps.trans ?_ (forEach_keeps _ _ _ (fun _ _ => ?_)) | with_reducible apply Keeps.trans ?_ (startWork_keeps _ _ _ _) | with_reducible apply Keeps.trans ?_ (drawFree_keeps _) | split
    | split
    | dsimp -zeta only

theorem setRound_keeps (r : Round) (s : State) : Keeps s (setRound r s) := by
  unfold setRound
  repeat' first
    | assumption
    | with_reducible exact Keeps.refl _
    | (with_reducible apply Keeps.lit ?_ ?_ ?_ ?_ ?_ ?_); (on_goal 2 => rfl); (on_goal 2 => rfl); (on_goal 2 => rfl); (on_goal 2 => rfl); (on_goal 2 => rfl); first | assumption | with_reducible exact Keeps.refl _
    | dsimp -zeta only

theorem roundOrder_keeps (p : Nat) (ids : List Nat) (s : State) : Keeps s (roundOrder p ids s).2 := by
  unfold roundOrder
  repeat' first
    | assumption
    | with_reducible exact Keeps.refl _
    | with_reducible apply Keeps.trans ?_ (setRound_keeps _ _)
    | extract_lets
    | (with_reducible apply Keeps.lit ?_ ?_ ?_ ?_ ?_ ?_); (on_goal 2 => rfl); (on_goal 2 => rfl); (on_goal 2 => rfl); (on_goal 2 => rfl); (on_goal 2 => rfl); first | assumption | with_reducible exact Keeps.refl _ | with_reducible apply Keeps.trans ?_ (setRound_keeps _ _) | split
    | split
    | dsimp -zeta only

theorem giveChunk_st (w : Work) (c : Chunk) (f : Filling) : (giveChunk w c f).st = f.st := by
  unfold giveChunk
  split <;> rfl

theorem takeChunk_st (w : Work) (cap : Nat) (f : Filling) : (takeChunk w cap f).2.st = f.st := by
  unfold takeChunk
  split
  · split
    · exact giveChunk_st _ _ _
    · rfl
  · rfl

theorem turn_keeps (t : Nat) : ∀ (l : List Work) (f : Filling), Keeps f.st (turn t l f).2.st
  | [], f => Keeps.refl _
  | w :: ws, f => by
    unfold turn
    extract_lets d
    have h := takeChunk_st w d.toNat f
    split
    · exact turn_keeps t ws f
    · exact Keeps.refl _
    · rename_i n g e
      rw [e] at h
      have k := turn_keeps t ws { g with st := onTen t (fun x => { x with deficit := x.deficit - n }) g.st }
      have j : Keeps g.st (onTen t (fun x => { x with deficit := x.deficit - n }) g.st) := onTen_keeps _ _ _
      rw [show f.st = g.st from h.symm]
      exact j.trans k

theorem fillText_keeps (p : Nat) : ∀ (l : List Nat) (cut : Option Nat) (f : Filling), Keeps f.st (fillText p cut l f).st
  | [], cut, f => Keeps.refl _
  | t :: ts, cut, f => by
    unfold fillText
    extract_lets weight quantum s1 src s2
    have h1 : Keeps f.st s1 := by
      dsimp -zeta only [s1]
      split
      · exact Keeps.refl _
      · exact onTen_keeps _ _ _
    have h2 : Keeps f.st s2 := h1.trans (setRound_keeps _ _)
    have h3 := turn_keeps t (textOrder s2 f.works t) { f with st := s2 }
    split
    · rename_i g e
      rw [e] at h3
      exact (h2.trans h3).trans (setRound_keeps _ _)
    · rename_i g e
      rw [e] at h3
      extract_lets s3
      have h4 : Keeps g.st s3 := by
        dsimp only [s3]
        split
        · exact Keeps.refl _
        · exact onTen_keeps _ _ _
      exact (((h2.trans h3).trans h4).trans (setRound_keeps _ _)).trans
        (fillText_keeps p ts none { g with st := setRound { partition := p, last := some t } s3 })

theorem fillFrames_st : ∀ (l : List Work) (f : Filling), (fillFrames l f).st = f.st
  | [], f => rfl
  | w :: ws, f => (fillFrames_st ws _).trans (takeChunk_st _ _ _)

theorem minimumChunk_keeps : ∀ (l : List Work) (f : Filling), Keeps f.st (minimumChunk l f).st
  | [], f => Keeps.refl _
  | w :: ws, f => by
    unfold minimumChunk
    split
    · exact minimumChunk_keeps ws f
    · rename_i c cs _
      have h := giveChunk_st w ((c :: cs).getLastD c) f
      dsimp only
      split
      · exact (show Keeps f.st (giveChunk w ((c :: cs).getLastD c) f).st by rw [h]; exact Keeps.refl _).trans (onTen_keeps _ _ _)
      · rw [h]; exact Keeps.refl _

theorem fillPour_keeps (f : Flask) (allot : Nat) (ws : List Work) (s : State) : Keeps s (fillPour f allot ws s).st := by
  unfold fillPour
  extract_lets r g ids
  have h : Keeps s r.2 := roundOrder_keeps _ _ _
  split
  · exact h.trans (minimumChunk_keeps _ { st := r.2, works := ws, left := 0 })
  · have hg : g.st = r.2 := fillFrames_st _ _
    refine h.trans ?_
    rw [← hg]
    exact fillText_keeps _ _ _ _

theorem reserveDies_keeps (ws : List Work) (s : State) : Keeps s (reserveDies ws s) := by
  unfold reserveDies
  repeat' first
    | assumption
    | with_reducible exact Keeps.refl _
    | with_reducible apply Keeps.trans ?_ (forEach_keeps _ _ _ (fun _ _ => ?_))
    | with_reducible apply Keeps.trans ?_ (reserveDie_keeps _ _ _)
    | dsimp -zeta only

theorem markDropped_keeps (n : Nat) (s : State) : Keeps s (markDropped n s) := by
  unfold markDropped
  repeat' first
    | assumption
    | with_reducible exact Keeps.refl _
    | (with_reducible apply Keeps.lit ?_ ?_ ?_ ?_ ?_ ?_); (on_goal 2 => rfl); (on_goal 2 => rfl); (on_goal 2 => rfl); (on_goal 2 => rfl); (on_goal 2 => rfl); first | assumption | with_reducible exact Keeps.refl _
    | dsimp -zeta only

theorem takeBacks_keeps (f : Flask) (s : State) : Keeps s (takeBacks f s) := by
  unfold takeBacks
  repeat' first
    | assumption
    | with_reducible exact Keeps.refl _
    | with_reducible apply Keeps.trans ?_ (forEach_keeps _ _ _ (fun _ _ => ?_))
    | with_reducible apply Keeps.trans ?_ (takeBack_keeps _ _)
    | (with_reducible apply Keeps.lit ?_ ?_ ?_ ?_ ?_ ?_); (on_goal 2 => rfl); (on_goal 2 => rfl); (on_goal 2 => rfl); (on_goal 2 => rfl); (on_goal 2 => rfl); first | assumption | with_reducible exact Keeps.refl _ | with_reducible apply Keeps.trans ?_ (forEach_keeps _ _ _ (fun _ _ => ?_)) | with_reducible apply Keeps.trans ?_ (takeBack_keeps _ _) | split
    | split
    | dsimp -zeta only

theorem stranded_keeps (f : Flask) (s : State) : Keeps s (stranded f s) := by
  unfold stranded
  repeat' first
    | assumption
    | with_reducible exact Keeps.refl _
    | extract_lets
    | (with_reducible apply Keeps.lit ?_ ?_ ?_ ?_ ?_ ?_); (on_goal 2 => rfl); (on_goal 2 => rfl); (on_goal 2 => rfl); (on_goal 2 => rfl); (on_goal 2 => rfl); first | assumption | with_reducible exact Keeps.refl _ | split
    | split
    | dsimp -zeta only

theorem planWorks_keeps (obs : PlanObs) (f : Flask) (s : State) : Keeps s (planWorks obs f s).1.st := fillPour_keeps _ _ _ _

theorem stageCopies_keeps (ws : List Work) (s : State) : Keeps s (stageCopies ws s) := by
  unfold stageCopies
  repeat' first
    | assumption
    | with_reducible exact Keeps.refl _
    | extract_lets
    | (with_reducible apply Keeps.lit ?_ ?_ ?_ ?_ ?_ ?_); (on_goal 2 => rfl); (on_goal 2 => rfl); (on_goal 2 => rfl); (on_goal 2 => rfl); (on_goal 2 => rfl); first | assumption | with_reducible exact Keeps.refl _ | split
    | split
    | dsimp -zeta only

theorem streamBlocks_keeps (s : State) : Keeps s (streamBlocks s) := by
  unfold streamBlocks
  repeat' first
    | assumption
    | with_reducible exact Keeps.refl _
    | with_reducible apply Keeps.trans ?_ (forEach_keeps _ _ _ (fun _ _ => ?_))
    | with_reducible apply Keeps.trans ?_ (startPoolStream_keeps _ _ _ _ _)
    | extract_lets
    | (with_reducible apply Keeps.lit ?_ ?_ ?_ ?_ ?_ ?_); (on_goal 2 => rfl); (on_goal 2 => rfl); (on_goal 2 => rfl); (on_goal 2 => rfl); (on_goal 2 => rfl); first | assumption | with_reducible exact Keeps.refl _ | with_reducible apply Keeps.trans ?_ (forEach_keeps _ _ _ (fun _ _ => ?_)) | with_reducible apply Keeps.trans ?_ (startPoolStream_keeps _ _ _ _ _) | split
    | split
    | dsimp -zeta only

theorem planPour_keeps (obs : PlanObs) (f : Flask) (number : Nat) (s0 : State) : Keeps s0 (planPour obs f number s0).2 := by
  unfold planPour
  extract_lets s first pressed second ws st windowed pour s1 s2
  have h1 : Keeps s0 s := ((takeBacks_keeps _ _).trans (stranded_keeps _ _)).trans (relieve_keeps _)
  have h2 : Keeps s0 first.1.st := h1.trans (planWorks_keeps _ _ _)
  have h3 : Keeps s0 pressed := by
    dsimp only [pressed]
    split
    · exact h1
    · exact (h1.trans (holdBound_keeps _ _)).trans (reserveDies_keeps _ _)
  have h4 : Keeps s0 second.1.st := by
    dsimp only [second]
    split
    · exact h2
    · exact h3.trans (planWorks_keeps _ _ _)
  clear_value second pressed
  split
  · have h5 : Keeps s0 s1 := ((h4.trans (onFlask_keeps _ _ _)).trans (onModel_keeps _ _ _)).trans (stageCopies_keeps _ _)
    exact (((Keeps.lit h5 rfl rfl rfl rfl rfl).trans (setPlanned_keeps _ _)).trans (startPour_keeps _)).trans (streamBlocks_keeps _)
  · exact h3

theorem planFirst_keeps (obs : PlanObs) : ∀ (l : List Flask) (s : State), Keeps s (planFirst obs l s).2
  | [], s => Keeps.refl s
  | f :: fs, s => by
    have h := planPour_keeps obs f s.sched.next s
    unfold planFirst
    split
    · rename_i t e; rw [e] at h; exact h
    · rename_i t e; rw [e] at h; exact (h.trans (markDropped_keeps _ _)).trans (planFirst_keeps obs fs _)

theorem holdFetches_keeps (on : Bool) (p : Pour) (s : State) : Keeps s (holdFetches on p s) := by
  unfold holdFetches
  repeat' first
    | assumption
    | with_reducible exact Keeps.refl _
    | extract_lets
    | (with_reducible apply Keeps.lit ?_ ?_ ?_ ?_ ?_ ?_); (on_goal 2 => rfl); (on_goal 2 => rfl); (on_goal 2 => rfl); (on_goal 2 => rfl); (on_goal 2 => rfl); first | assumption | with_reducible exact Keeps.refl _ | split
    | split
    | dsimp -zeta only

theorem suspend_keeps (s0 : State) : Keeps s0 (suspend s0) := by
  unfold suspend
  repeat' first
    | assumption
    | with_reducible exact Keeps.refl _
    | with_reducible apply Keeps.trans ?_ (holdFetches_keeps _ _ _)
    | extract_lets
    | (with_reducible apply Keeps.lit ?_ ?_ ?_ ?_ ?_ ?_); (on_goal 2 => rfl); (on_goal 2 => rfl); (on_goal 2 => rfl); (on_goal 2 => rfl); (on_goal 2 => rfl); first | assumption | with_reducible exact Keeps.refl _ | with_reducible apply Keeps.trans ?_ (holdFetches_keeps _ _ _) | split
    | split
    | dsimp -zeta only

theorem resumePour_keeps (s : State) : Keeps s (resumePour s) := by
  unfold resumePour
  repeat' first
    | assumption
    | with_reducible exact Keeps.refl _
    | with_reducible apply Keeps.trans ?_ (forEach_keeps _ _ _ (fun _ _ => ?_))
    | with_reducible apply Keeps.trans ?_ (holdFetches_keeps _ _ _)
    | with_reducible apply Keeps.trans ?_ (streamBlocks_keeps _)
    | with_reducible apply Keeps.trans ?_ (putTasks_keeps _ _)
    | extract_lets
    | (with_reducible apply Keeps.lit ?_ ?_ ?_ ?_ ?_ ?_); (on_goal 2 => rfl); (on_goal 2 => rfl); (on_goal 2 => rfl); (on_goal 2 => rfl); (on_goal 2 => rfl); first | assumption | with_reducible exact Keeps.refl _ | with_reducible apply Keeps.trans ?_ (forEach_keeps _ _ _ (fun _ _ => ?_)) | with_reducible apply Keeps.trans ?_ (holdFetches_keeps _ _ _) | with_reducible apply Keeps.trans ?_ (streamBlocks_keeps _) | with_reducible apply Keeps.trans ?_ (putTasks_keeps _ _) | split
    | split
    | dsimp -zeta only

theorem requestPreempt_keeps (s : State) : Keeps s (requestPreempt s) := by
  unfold requestPreempt
  repeat' first
    | assumption
    | with_reducible exact Keeps.refl _
    | (with_reducible apply Keeps.lit ?_ ?_ ?_ ?_ ?_ ?_); (on_goal 2 => rfl); (on_goal 2 => rfl); (on_goal 2 => rfl); (on_goal 2 => rfl); (on_goal 2 => rfl); first | assumption | with_reducible exact Keeps.refl _ | split
    | split
    | dsimp -zeta only

theorem replan_keeps (obs : PlanObs) (p : Pour) (s : State) : Keeps s (replan obs p s) := by
  unfold replan
  repeat' first
    | assumption
    | with_reducible exact Keeps.refl _
    | with_reducible apply Keeps.trans ?_ (planPour_keeps _ _ _ _)
    | extract_lets
    | (with_reducible apply Keeps.lit ?_ ?_ ?_ ?_ ?_ ?_); (on_goal 2 => rfl); (on_goal 2 => rfl); (on_goal 2 => rfl); (on_goal 2 => rfl); (on_goal 2 => rfl); first | assumption | with_reducible exact Keeps.refl _ | with_reducible apply Keeps.trans ?_ (planPour_keeps _ _ _ _) | split
    | split
    | dsimp -zeta only

theorem execPourPlan_keeps (obs : PlanObs) (s : State) : OKeeps s (execPourPlan obs s) := by
  unfold execPourPlan
  repeat' first
    | assumption
    | with_reducible exact Keeps.refl _
    | with_reducible apply OKeeps.next ?_
    | exact True.intro
    | with_reducible apply Keeps.trans ?_ (replan_keeps _ _ _)
    | with_reducible apply Keeps.trans ?_ (requestPreempt_keeps _)
    | with_reducible apply Keeps.trans ?_ (resumePour_keeps _)
    | with_reducible apply Keeps.trans ?_ (planFirst_keeps _ _ _)
    | with_reducible apply Keeps.trans ?_ (readTemps_keeps _ _)
    | with_reducible apply Keeps.trans ?_ (passTime_keeps _ _)
    | extract_lets
    | (with_reducible apply Keeps.lit ?_ ?_ ?_ ?_ ?_ ?_); (on_goal 2 => rfl); (on_goal 2 => rfl); (on_goal 2 => rfl); (on_goal 2 => rfl); (on_goal 2 => rfl); first | assumption | with_reducible exact Keeps.refl _ | with_reducible apply Keeps.trans ?_ (replan_keeps _ _ _) | with_reducible apply Keeps.trans ?_ (requestPreempt_keeps _) | with_reducible apply Keeps.trans ?_ (resumePour_keeps _) | with_reducible apply Keeps.trans ?_ (planFirst_keeps _ _ _) | with_reducible apply Keeps.trans ?_ (readTemps_keeps _ _) | with_reducible apply Keeps.trans ?_ (passTime_keeps _ _) | split
    | split
    | dsimp -zeta only

theorem streamDown_keeps (p : ModelProgram) (h row l : Nat) (s : State) : Keeps s (streamDown p h row l s) := by
  unfold streamDown
  repeat' first
    | assumption
    | with_reducible exact Keeps.refl _
    | with_reducible apply Keeps.trans ?_ (startPoolStream_keeps _ _ _ _ _)
    | (with_reducible apply Keeps.lit ?_ ?_ ?_ ?_ ?_ ?_); (on_goal 2 => rfl); (on_goal 2 => rfl); (on_goal 2 => rfl); (on_goal 2 => rfl); (on_goal 2 => rfl); first | assumption | with_reducible exact Keeps.refl _ | with_reducible apply Keeps.trans ?_ (startPoolStream_keeps _ _ _ _ _) | split
    | split
    | dsimp -zeta only

theorem appendPos_keeps (p : ModelProgram) (h l pos : Nat) (ks vs : List (List Nat)) (s : State) : Keeps s (appendPos p h l pos ks vs s) := by
  unfold appendPos
  repeat' first
    | assumption
    | with_reducible exact Keeps.refl _
    | with_reducible apply Keeps.trans ?_ (streamDown_keeps _ _ _ _ _)
    | with_reducible apply Keeps.trans ?_ (seat_keeps _ _)
    | with_reducible apply Keeps.trans ?_ (onPage_keeps _ _ _ _ _)
    | with_reducible apply Keeps.trans ?_ (onSess_keeps _ _ _)
    | extract_lets
    | (with_reducible apply Keeps.lit ?_ ?_ ?_ ?_ ?_ ?_); (on_goal 2 => rfl); (on_goal 2 => rfl); (on_goal 2 => rfl); (on_goal 2 => rfl); (on_goal 2 => rfl); first | assumption | with_reducible exact Keeps.refl _ | with_reducible apply Keeps.trans ?_ (streamDown_keeps _ _ _ _ _) | with_reducible apply Keeps.trans ?_ (seat_keeps _ _) | with_reducible apply Keeps.trans ?_ (onPage_keeps _ _ _ _ _) | with_reducible apply Keeps.trans ?_ (onSess_keeps _ _ _) | split
    | split
    | dsimp -zeta only

theorem finishWork_keeps (p : ModelProgram) (l h : Nat) (adds : List (List Nat)) (s : State) : Keeps s (finishWork p l h adds s) := by
  unfold finishWork
  repeat' first
    | assumption
    | with_reducible exact Keeps.refl _
    | with_reducible apply Keeps.trans ?_ (startWork_keeps _ _ _ _)
    | with_reducible apply Keeps.trans ?_ (onWork_keeps _ _ _)
    | extract_lets
    | (with_reducible apply Keeps.lit ?_ ?_ ?_ ?_ ?_ ?_); (on_goal 2 => rfl); (on_goal 2 => rfl); (on_goal 2 => rfl); (on_goal 2 => rfl); (on_goal 2 => rfl); first | assumption | with_reducible exact Keeps.refl _ | with_reducible apply Keeps.trans ?_ (startWork_keeps _ _ _ _) | with_reducible apply Keeps.trans ?_ (onWork_keeps _ _ _) | split
    | split
    | dsimp -zeta only

theorem workLayer_keeps (p : ModelProgram) (l : Nat) (obs : LayerObs) (w : Work) (s : State) : Keeps s (workLayer p l obs w s) := by
  unfold workLayer
  repeat' first
    | assumption
    | with_reducible exact Keeps.refl _
    | with_reducible apply Keeps.trans ?_ (forEach_keeps _ _ _ (fun _ _ => ?_))
    | with_reducible apply Keeps.trans ?_ (finishWork_keeps _ _ _ _ _)
    | with_reducible apply Keeps.trans ?_ (appendPos_keeps _ _ _ _ _ _ _)
    | with_reducible apply Keeps.trans ?_ (startWork_keeps _ _ _ _)
    | with_reducible apply Keeps.trans ?_ (onWork_keeps _ _ _)
    | with_reducible apply Keeps.trans ?_ (onSess_keeps _ _ _)
    | extract_lets
    | (with_reducible apply Keeps.lit ?_ ?_ ?_ ?_ ?_ ?_); (on_goal 2 => rfl); (on_goal 2 => rfl); (on_goal 2 => rfl); (on_goal 2 => rfl); (on_goal 2 => rfl); first | assumption | with_reducible exact Keeps.refl _ | with_reducible apply Keeps.trans ?_ (forEach_keeps _ _ _ (fun _ _ => ?_)) | with_reducible apply Keeps.trans ?_ (finishWork_keeps _ _ _ _ _) | with_reducible apply Keeps.trans ?_ (appendPos_keeps _ _ _ _ _ _ _) | with_reducible apply Keeps.trans ?_ (startWork_keeps _ _ _ _) | with_reducible apply Keeps.trans ?_ (onWork_keeps _ _ _) | with_reducible apply Keeps.trans ?_ (onSess_keeps _ _ _) | split
    | split
    | dsimp -zeta only

theorem writeLines_keeps (cls dest window offset : Nat) (ls : List Line) (s : State) : Keeps s (writeLines cls dest window offset ls s) :=
  foldl_pair_keeps _ (fun _ _ => fabricWrite_keeps _ _ _ _ _ _) _ (offset, s)

theorem fireLanding_keeps (g : MGroup) (w : Landing) (s : State) : Keeps s (fireLanding g w s) := by
  unfold fireLanding
  repeat' first
    | assumption
    | with_reducible exact Keeps.refl _
    | with_reducible apply Keeps.trans ?_ (forEach_keeps _ _ _ (fun _ _ => ?_))
    | with_reducible apply Keeps.trans ?_ (fireSrc_keeps _ _ _)
    | (with_reducible apply Keeps.lit ?_ ?_ ?_ ?_ ?_ ?_); (on_goal 2 => rfl); (on_goal 2 => rfl); (on_goal 2 => rfl); (on_goal 2 => rfl); (on_goal 2 => rfl); first | assumption | with_reducible exact Keeps.refl _ | with_reducible apply Keeps.trans ?_ (forEach_keeps _ _ _ (fun _ _ => ?_)) | with_reducible apply Keeps.trans ?_ (fireSrc_keeps _ _ _) | split
    | split
    | dsimp -zeta only

theorem landIn_keeps (n q round offset : Nat) (line : Line) (s : State) : Keeps s (landIn n q round offset line s) := by
  unfold landIn
  repeat' first
    | assumption
    | with_reducible exact Keeps.refl _
    | with_reducible apply Keeps.trans ?_ (fireLanding_keeps _ _ _)
    | with_reducible apply Keeps.trans ?_ (onGroup_keeps _ _ _)
    | extract_lets
    | (with_reducible apply Keeps.lit ?_ ?_ ?_ ?_ ?_ ?_); (on_goal 2 => rfl); (on_goal 2 => rfl); (on_goal 2 => rfl); (on_goal 2 => rfl); (on_goal 2 => rfl); first | assumption | with_reducible exact Keeps.refl _ | with_reducible apply Keeps.trans ?_ (fireLanding_keeps _ _ _) | with_reducible apply Keeps.trans ?_ (onGroup_keeps _ _ _) | split
    | split
    | dsimp -zeta only

theorem writeCollective_keeps (g : MGroup) (s : State) : Keeps s (writeCollective g s) := by
  unfold writeCollective
  repeat' first
    | assumption
    | with_reducible exact Keeps.refl _
    | with_reducible apply Keeps.trans ?_ (forEach_keeps _ _ _ (fun _ _ => ?_))
    | with_reducible apply Keeps.trans ?_ (landIn_keeps _ _ _ _ _ _)
    | with_reducible apply Keeps.trans ?_ (writeLines_keeps _ _ _ _ _ _)
    | extract_lets
    | (with_reducible apply Keeps.lit ?_ ?_ ?_ ?_ ?_ ?_); (on_goal 2 => rfl); (on_goal 2 => rfl); (on_goal 2 => rfl); (on_goal 2 => rfl); (on_goal 2 => rfl); first | assumption | with_reducible exact Keeps.refl _ | with_reducible apply Keeps.trans ?_ (forEach_keeps _ _ _ (fun _ _ => ?_)) | with_reducible apply Keeps.trans ?_ (landIn_keeps _ _ _ _ _ _) | with_reducible apply Keeps.trans ?_ (writeLines_keeps _ _ _ _ _ _) | split
    | split
    | dsimp -zeta only

theorem addTurn_keeps (g : MGroup) (s : State) : Keeps s (addTurn g s) := by
  unfold addTurn
  repeat' first
    | assumption
    | with_reducible exact Keeps.refl _
    | with_reducible apply Keeps.trans ?_ (onGroup_keeps _ _ _)
    | extract_lets
    | (with_reducible apply Keeps.lit ?_ ?_ ?_ ?_ ?_ ?_); (on_goal 2 => rfl); (on_goal 2 => rfl); (on_goal 2 => rfl); (on_goal 2 => rfl); (on_goal 2 => rfl); first | assumption | with_reducible exact Keeps.refl _ | with_reducible apply Keeps.trans ?_ (onGroup_keeps _ _ _) | split
    | split
    | dsimp -zeta only

theorem runTurns_keeps (n : Nat) : ∀ (k : Nat) (s : State), Keeps s (runTurns n k s).2
  | 0, s => Keeps.refl s
  | k + 1, s => by
    unfold runTurns
    split
    · exact Keeps.refl _
    · extract_lets s1
      have h1 : Keeps s s1 := writeCollective_keeps _ _
      split
      · exact h1
      · split
        · exact (h1.trans (addTurn_keeps _ _)).trans (runTurns_keeps n k _)
        · exact h1

theorem finishGroup_keeps (s : State) : Keeps s (finishGroup s) := by
  unfold finishGroup
  repeat' first
    | assumption
    | with_reducible exact Keeps.refl _
    | with_reducible apply Keeps.trans ?_ (forEach_keeps _ _ _ (fun _ _ => ?_))
    | with_reducible apply Keeps.trans ?_ (finishWork_keeps _ _ _ _ _)
    | extract_lets
    | (with_reducible apply Keeps.lit ?_ ?_ ?_ ?_ ?_ ?_); (on_goal 2 => rfl); (on_goal 2 => rfl); (on_goal 2 => rfl); (on_goal 2 => rfl); (on_goal 2 => rfl); first | assumption | with_reducible exact Keeps.refl _ | with_reducible apply Keeps.trans ?_ (forEach_keeps _ _ _ (fun _ _ => ?_)) | with_reducible apply Keeps.trans ?_ (finishWork_keeps _ _ _ _ _) | split
    | split
    | dsimp -zeta only

theorem endLayer_keeps (s0 : State) : Keeps s0 (endLayer s0) := by
  unfold endLayer
  repeat' first
    | assumption
    | with_reducible exact Keeps.refl _
    | with_reducible apply Keeps.trans ?_ (finishGroup_keeps _)
    | with_reducible apply Keeps.trans ?_ (suspend_keeps _)
    | with_reducible apply Keeps.trans ?_ (streamBlocks_keeps _)
    | with_reducible apply Keeps.trans ?_ (clearTasks_keeps _ _)
    | with_reducible apply Keeps.trans ?_ (onModel_keeps _ _ _)
    | extract_lets
    | (with_reducible apply Keeps.lit ?_ ?_ ?_ ?_ ?_ ?_); (on_goal 2 => rfl); (on_goal 2 => rfl); (on_goal 2 => rfl); (on_goal 2 => rfl); (on_goal 2 => rfl); first | assumption | with_reducible exact Keeps.refl _ | with_reducible apply Keeps.trans ?_ (finishGroup_keeps _) | with_reducible apply Keeps.trans ?_ (suspend_keeps _) | with_reducible apply Keeps.trans ?_ (streamBlocks_keeps _) | with_reducible apply Keeps.trans ?_ (clearTasks_keeps _ _) | with_reducible apply Keeps.trans ?_ (onModel_keeps _ _ _) | split
    | split
    | dsimp -zeta only

theorem goOnGroup_keeps (n : Nat) (s : State) : Keeps s (goOnGroup n s) := by
  unfold goOnGroup
  extract_lets left r
  have h1 : Keeps s r.2 := runTurns_keeps _ _ _
  split
  · exact h1.trans (endLayer_keeps _)
  · exact Keeps.lit h1 rfl rfl rfl rfl rfl

theorem execLayerComplete_keeps (obs : LayerObs) (s : State) : OKeeps s (execLayerComplete obs s) := by
  unfold execLayerComplete
  repeat' first
    | assumption
    | with_reducible exact Keeps.refl _
    | with_reducible apply OKeeps.next ?_
    | exact True.intro
    | with_reducible apply Keeps.trans ?_ (forEach_keeps _ _ _ (fun _ _ => ?_))
    | with_reducible apply Keeps.trans ?_ (goOnGroup_keeps _ _)
    | with_reducible apply Keeps.trans ?_ (endLayer_keeps _)
    | with_reducible apply Keeps.trans ?_ (workLayer_keeps _ _ _ _ _)
    | with_reducible apply Keeps.trans ?_ (passTime_keeps _ _)
    | extract_lets
    | (with_reducible apply Keeps.lit ?_ ?_ ?_ ?_ ?_ ?_); (on_goal 2 => rfl); (on_goal 2 => rfl); (on_goal 2 => rfl); (on_goal 2 => rfl); (on_goal 2 => rfl); first | assumption | with_reducible exact Keeps.refl _ | with_reducible apply Keeps.trans ?_ (forEach_keeps _ _ _ (fun _ _ => ?_)) | with_reducible apply Keeps.trans ?_ (goOnGroup_keeps _ _) | with_reducible apply Keeps.trans ?_ (endLayer_keeps _) | with_reducible apply Keeps.trans ?_ (workLayer_keeps _ _ _ _ _) | with_reducible apply Keeps.trans ?_ (passTime_keeps _ _) | split
    | split
    | dsimp -zeta only

theorem answered_keeps (n : Nat) (s : State) : Keeps s (answered n s) := by
  unfold answered
  repeat' first
    | assumption
    | with_reducible exact Keeps.refl _
    | (with_reducible apply Keeps.lit ?_ ?_ ?_ ?_ ?_ ?_); (on_goal 2 => rfl); (on_goal 2 => rfl); (on_goal 2 => rfl); (on_goal 2 => rfl); (on_goal 2 => rfl); first | assumption | with_reducible exact Keeps.refl _ | split
    | split
    | dsimp -zeta only

theorem execWeightBlockArrived_keeps (model block : Nat) (s0 : State) : OKeeps s0 (execWeightBlockArrived model block s0) := by
  unfold execWeightBlockArrived
  repeat' first
    | assumption
    | with_reducible exact Keeps.refl _
    | with_reducible apply OKeeps.next ?_
    | exact True.intro
    | with_reducible apply Keeps.trans ?_ (answered_keeps _ _)
    | with_reducible apply Keeps.trans ?_ (endStream_keeps _ _)
    | with_reducible apply Keeps.trans ?_ (onModel_keeps _ _ _)
    | extract_lets
    | (with_reducible apply Keeps.lit ?_ ?_ ?_ ?_ ?_ ?_); (on_goal 2 => rfl); (on_goal 2 => rfl); (on_goal 2 => rfl); (on_goal 2 => rfl); (on_goal 2 => rfl); first | assumption | with_reducible exact Keeps.refl _ | with_reducible apply Keeps.trans ?_ (answered_keeps _ _) | with_reducible apply Keeps.trans ?_ (endStream_keeps _ _) | with_reducible apply Keeps.trans ?_ (onModel_keeps _ _ _) | split
    | split
    | dsimp -zeta only

theorem execWeightReadFailed_keeps (model block : Nat) (s : State) : OKeeps s (execWeightReadFailed model block s) := by
  unfold execWeightReadFailed
  repeat' first
    | assumption
    | with_reducible exact Keeps.refl _
    | with_reducible apply OKeeps.next ?_
    | exact True.intro
    | with_reducible apply Keeps.trans ?_ (missRead_keeps _ _)
    | with_reducible apply Keeps.trans ?_ (endStream_keeps _ _)
    | with_reducible apply Keeps.trans ?_ (onModel_keeps _ _ _)
    | extract_lets
    | (with_reducible apply Keeps.lit ?_ ?_ ?_ ?_ ?_ ?_); (on_goal 2 => rfl); (on_goal 2 => rfl); (on_goal 2 => rfl); (on_goal 2 => rfl); (on_goal 2 => rfl); first | assumption | with_reducible exact Keeps.refl _ | with_reducible apply Keeps.trans ?_ (missRead_keeps _ _) | with_reducible apply Keeps.trans ?_ (endStream_keeps _ _) | with_reducible apply Keeps.trans ?_ (onModel_keeps _ _ _) | split
    | split
    | dsimp -zeta only

theorem maskWork_keeps (w : Work) (acc : List Work × State) : Keeps acc.2 (maskWork w acc).2 := by
  unfold maskWork
  repeat' first
    | exact Keeps.refl _
    | exact note_keeps _ _ _
    | exact drawFree_keeps _
    | split
    | dsimp only

theorem execMasksReady_keeps (s : State) : OKeeps s (execMasksReady s) := by
  unfold execMasksReady
  repeat' first
    | assumption
    | with_reducible exact Keeps.refl _
    | with_reducible apply OKeeps.next ?_
    | exact True.intro
    | with_reducible apply Keeps.trans ?_ (foldl_pair_keeps _ (fun _ _ => maskWork_keeps _ _) _ _)
    | with_reducible apply Keeps.trans ?_ (maskWork_keeps _ _)
    | extract_lets
    | (with_reducible apply Keeps.lit ?_ ?_ ?_ ?_ ?_ ?_); (on_goal 2 => rfl); (on_goal 2 => rfl); (on_goal 2 => rfl); (on_goal 2 => rfl); (on_goal 2 => rfl); first | assumption | with_reducible exact Keeps.refl _ | with_reducible apply Keeps.trans ?_ (foldl_pair_keeps _ (fun _ _ => maskWork_keeps _ _) _ _) | with_reducible apply Keeps.trans ?_ (maskWork_keeps _ _) | split
    | split
    | dsimp -zeta only

theorem applyRelease_keeps (h : Nat) (line : Line) (s : State) : Keeps s (applyRelease h line s) := by
  unfold applyRelease
  repeat' first
    | assumption
    | with_reducible exact Keeps.refl _
    | with_reducible apply Keeps.trans ?_ (rewind_keeps _ _ _)
    | with_reducible apply Keeps.trans ?_ (onSess_keeps _ _ _)
    | with_reducible apply Keeps.trans ?_ (setSess_keeps _ _)
    | extract_lets
    | (with_reducible apply Keeps.lit ?_ ?_ ?_ ?_ ?_ ?_); (on_goal 2 => rfl); (on_goal 2 => rfl); (on_goal 2 => rfl); (on_goal 2 => rfl); (on_goal 2 => rfl); first | assumption | with_reducible exact Keeps.refl _ | with_reducible apply Keeps.trans ?_ (rewind_keeps _ _ _) | with_reducible apply Keeps.trans ?_ (onSess_keeps _ _ _) | with_reducible apply Keeps.trans ?_ (setSess_keeps _ _) | split
    | split
    | dsimp -zeta only

theorem settleRelease_keeps (n : Nat) (s : State) : Keeps s (settleRelease n s) := by
  unfold settleRelease
  repeat' first
    | assumption
    | with_reducible exact Keeps.refl _
    | with_reducible apply Keeps.trans ?_ (forEach_keeps _ _ _ (fun _ _ => ?_))
    | with_reducible apply Keeps.trans ?_ (applyRelease_keeps _ _ _)
    | with_reducible apply Keeps.trans ?_ (onGroup_keeps _ _ _)
    | extract_lets
    | (with_reducible apply Keeps.lit ?_ ?_ ?_ ?_ ?_ ?_); (on_goal 2 => rfl); (on_goal 2 => rfl); (on_goal 2 => rfl); (on_goal 2 => rfl); (on_goal 2 => rfl); first | assumption | with_reducible exact Keeps.refl _ | with_reducible apply Keeps.trans ?_ (forEach_keeps _ _ _ (fun _ _ => ?_)) | with_reducible apply Keeps.trans ?_ (applyRelease_keeps _ _ _) | with_reducible apply Keeps.trans ?_ (onGroup_keeps _ _ _) | split
    | split
    | dsimp -zeta only

theorem storeLine_keeps (n offset : Nat) (l : Line) (s : State) : Keeps s (storeLine n offset l s) := by
  unfold storeLine
  repeat' first
    | assumption
    | with_reducible exact Keeps.refl _
    | (with_reducible apply Keeps.lit ?_ ?_ ?_ ?_ ?_ ?_); (on_goal 2 => rfl); (on_goal 2 => rfl); (on_goal 2 => rfl); (on_goal 2 => rfl); (on_goal 2 => rfl); first | assumption | with_reducible exact Keeps.refl _ | split
    | split
    | dsimp -zeta only

theorem landWrite_keeps (w : Win) (offset : Nat) (ls : List Line) (s : State) : Keeps s (landWrite w offset ls s) := by
  unfold landWrite
  repeat' first
    | assumption
    | with_reducible exact Keeps.refl _
    | with_reducible apply Keeps.trans ?_ (forEach_keeps _ _ _ (fun _ _ => ?_))
    | with_reducible apply Keeps.trans ?_ (storeLine_keeps _ _ _ _)
    | with_reducible apply Keeps.trans ?_ (settleRelease_keeps _ _)
    | with_reducible apply Keeps.trans ?_ (goOnGroup_keeps _ _)
    | with_reducible apply Keeps.trans ?_ (addTurn_keeps _ _)
    | with_reducible apply Keeps.trans ?_ (landIn_keeps _ _ _ _ _ _)
    | with_reducible apply Keeps.trans ?_ (onGroup_keeps _ _ _)
    | extract_lets
    | (with_reducible apply Keeps.lit ?_ ?_ ?_ ?_ ?_ ?_); (on_goal 2 => rfl); (on_goal 2 => rfl); (on_goal 2 => rfl); (on_goal 2 => rfl); (on_goal 2 => rfl); first | assumption | with_reducible exact Keeps.refl _ | with_reducible apply Keeps.trans ?_ (forEach_keeps _ _ _ (fun _ _ => ?_)) | with_reducible apply Keeps.trans ?_ (storeLine_keeps _ _ _ _) | with_reducible apply Keeps.trans ?_ (settleRelease_keeps _ _) | with_reducible apply Keeps.trans ?_ (goOnGroup_keeps _ _) | with_reducible apply Keeps.trans ?_ (addTurn_keeps _ _) | with_reducible apply Keeps.trans ?_ (landIn_keeps _ _ _ _ _ _) | with_reducible apply Keeps.trans ?_ (onGroup_keeps _ _ _) | split
    | split
    | dsimp -zeta only

theorem refuseWrite_keeps (n : Nat) (s : State) : Keeps s (refuseWrite n s) := by
  unfold refuseWrite
  repeat' first
    | assumption
    | with_reducible exact Keeps.refl _
    | (with_reducible apply Keeps.lit ?_ ?_ ?_ ?_ ?_ ?_); (on_goal 2 => rfl); (on_goal 2 => rfl); (on_goal 2 => rfl); (on_goal 2 => rfl); (on_goal 2 => rfl); first | assumption | with_reducible exact Keeps.refl _ | split
    | split
    | dsimp -zeta only

theorem execFabricWriteReceived_keeps (port : Nat) (h : FabricHdr) (lines : List Line) (s : State) : OKeeps s (execFabricWriteReceived port h lines s) := by
  unfold execFabricWriteReceived
  repeat' first
    | assumption
    | with_reducible exact Keeps.refl _
    | with_reducible apply OKeeps.next ?_
    | exact True.intro
    | with_reducible apply Keeps.trans ?_ (refuseWrite_keeps _ _)
    | with_reducible apply Keeps.trans ?_ (landWrite_keeps _ _ _ _)
    | with_reducible apply Keeps.trans ?_ (drainAll_keeps _)
    | (with_reducible apply Keeps.lit ?_ ?_ ?_ ?_ ?_ ?_); (on_goal 2 => rfl); (on_goal 2 => rfl); (on_goal 2 => rfl); (on_goal 2 => rfl); (on_goal 2 => rfl); first | assumption | with_reducible exact Keeps.refl _ | with_reducible apply Keeps.trans ?_ (refuseWrite_keeps _ _) | with_reducible apply Keeps.trans ?_ (landWrite_keeps _ _ _ _) | with_reducible apply Keeps.trans ?_ (drainAll_keeps _) | split
    | split
    | dsimp -zeta only

theorem countNumeric_keeps (t : Nat) (s : State) : Keeps s (countNumeric t s) := by
  unfold countNumeric
  repeat' first
    | assumption
    | with_reducible exact Keeps.refl _
    | with_reducible apply Keeps.trans ?_ (onTen_keeps _ _ _)
    | (with_reducible apply Keeps.lit ?_ ?_ ?_ ?_ ?_ ?_); (on_goal 2 => rfl); (on_goal 2 => rfl); (on_goal 2 => rfl); (on_goal 2 => rfl); (on_goal 2 => rfl); first | assumption | with_reducible exact Keeps.refl _ | with_reducible apply Keeps.trans ?_ (onTen_keeps _ _ _)
    | dsimp -zeta only

theorem consumeBudget_keeps (t : Nat) (s : State) : Keeps s (consumeBudget t s) := by
  unfold consumeBudget
  repeat' first
    | assumption
    | with_reducible exact Keeps.refl _
    | with_reducible apply Keeps.trans ?_ (setBudget_keeps _ _ _)
    | (with_reducible apply Keeps.lit ?_ ?_ ?_ ?_ ?_ ?_); (on_goal 2 => rfl); (on_goal 2 => rfl); (on_goal 2 => rfl); (on_goal 2 => rfl); (on_goal 2 => rfl); first | assumption | with_reducible exact Keeps.refl _ | with_reducible apply Keeps.trans ?_ (setBudget_keeps _ _ _) | split
    | split
    | dsimp -zeta only

theorem releaseRecord_keeps (h tok : Nat) (flush : Bool) (upTo : Nat) (late held : Bool) (s : State) : Keeps s (releaseRecord h tok flush upTo late held s) := by
  unfold releaseRecord
  repeat' first
    | assumption
    | with_reducible exact Keeps.refl _
    | with_reducible apply Keeps.trans ?_ (emitSes_keeps _ _ _ _)
    | with_reducible apply Keeps.trans ?_ (onSess_keeps _ _ _)
    | extract_lets
    | (with_reducible apply Keeps.lit ?_ ?_ ?_ ?_ ?_ ?_); (on_goal 2 => rfl); (on_goal 2 => rfl); (on_goal 2 => rfl); (on_goal 2 => rfl); (on_goal 2 => rfl); first | assumption | with_reducible exact Keeps.refl _ | with_reducible apply Keeps.trans ?_ (emitSes_keeps _ _ _ _) | with_reducible apply Keeps.trans ?_ (onSess_keeps _ _ _) | split
    | split
    | dsimp -zeta only

theorem toolCall_keeps (h : Nat) (code : List Byte) (s : State) : Keeps s (toolCall h code s) := by
  unfold toolCall
  repeat' first
    | assumption
    | with_reducible exact Keeps.refl _
    | with_reducible apply Keeps.trans ?_ (startOnDevice_keeps _ _ _ _ _)
    | with_reducible apply Keeps.trans ?_ (emitOut_keeps _ _ _ _)
    | with_reducible apply Keeps.trans ?_ (onSess_keeps _ _ _)
    | extract_lets
    | (with_reducible apply Keeps.lit ?_ ?_ ?_ ?_ ?_ ?_); (on_goal 2 => rfl); (on_goal 2 => rfl); (on_goal 2 => rfl); (on_goal 2 => rfl); (on_goal 2 => rfl); first | assumption | with_reducible exact Keeps.refl _ | with_reducible apply Keeps.trans ?_ (startOnDevice_keeps _ _ _ _ _) | with_reducible apply Keeps.trans ?_ (emitOut_keeps _ _ _ _) | with_reducible apply Keeps.trans ?_ (onSess_keeps _ _ _) | split
    | split
    | dsimp -zeta only

theorem releaseToken_keeps (w : Work) (tok : Nat) (s : State) : Keeps s (releaseToken w tok s) := by
  unfold releaseToken
  split
  · exact Keeps.refl _
  · split
    · extract_lets out r1 y s1 bytes late close ended full found h
      have h1 : Keeps s s1 := ((setSess_keeps _ _).trans (consumeBudget_keeps _ _)).trans (onWork_keeps _ _ _)
      clear_value s1 found
      split
      · exact ((h1.trans (releaseRecord_keeps _ _ _ _ _ _ _)).trans (rewind_keeps _ _ _)).trans (endRequest_keeps _ _ _ _ _ _ _ _)
      · repeat' first
          | exact (h1.trans (releaseRecord_keeps _ _ _ _ _ _ _)).trans (endRequest_keeps _ _ _ _ _ _ _ _)
          | exact (h1.trans (releaseRecord_keeps _ _ _ _ _ _ _)).trans (toolCall_keeps _ _ _)
          | exact h1.trans (releaseRecord_keeps _ _ _ _ _ _ _)
          | split
          | extract_lets
    · exact Keeps.refl _

theorem releasePoint_keeps (w : Work) (s : State) : Keeps s (releasePoint w s) := by
  unfold releasePoint
  repeat' first
    | assumption
    | with_reducible exact Keeps.refl _
    | with_reducible apply Keeps.trans ?_ (releaseToken_keeps _ _ _)
    | with_reducible apply Keeps.trans ?_ (onWork_keeps _ _ _)
    | with_reducible apply Keeps.trans ?_ (discardWork_keeps _ _)
    | with_reducible apply Keeps.trans ?_ (endRequest_keeps _ _ _ _ _ _ _ _)
    | with_reducible apply Keeps.trans ?_ (arm_keeps _ _)
    | with_reducible apply Keeps.trans ?_ (seat_keeps _ _)
    | with_reducible apply Keeps.trans ?_ (onSess_keeps _ _ _)
    | extract_lets
    | (with_reducible apply Keeps.lit ?_ ?_ ?_ ?_ ?_ ?_); (on_goal 2 => rfl); (on_goal 2 => rfl); (on_goal 2 => rfl); (on_goal 2 => rfl); (on_goal 2 => rfl); first | assumption | with_reducible exact Keeps.refl _ | with_reducible apply Keeps.trans ?_ (releaseToken_keeps _ _ _) | with_reducible apply Keeps.trans ?_ (onWork_keeps _ _ _) | with_reducible apply Keeps.trans ?_ (discardWork_keeps _ _) | with_reducible apply Keeps.trans ?_ (endRequest_keeps _ _ _ _ _ _ _ _) | with_reducible apply Keeps.trans ?_ (arm_keeps _ _) | with_reducible apply Keeps.trans ?_ (seat_keeps _ _) | with_reducible apply Keeps.trans ?_ (onSess_keeps _ _ _) | split
    | split
    | dsimp -zeta only

theorem writeReleases_keeps (s : State) : Keeps s (writeReleases s) := by
  unfold writeReleases
  repeat' first
    | assumption
    | with_reducible exact Keeps.refl _
    | with_reducible apply Keeps.trans ?_ (forEach_keeps _ _ _ (fun _ _ => ?_))
    | with_reducible apply Keeps.trans ?_ (fabricWrite_keeps _ _ _ _ _ _)
    | extract_lets
    | (with_reducible apply Keeps.lit ?_ ?_ ?_ ?_ ?_ ?_); (on_goal 2 => rfl); (on_goal 2 => rfl); (on_goal 2 => rfl); (on_goal 2 => rfl); (on_goal 2 => rfl); first | assumption | with_reducible exact Keeps.refl _ | with_reducible apply Keeps.trans ?_ (forEach_keeps _ _ _ (fun _ _ => ?_)) | with_reducible apply Keeps.trans ?_ (fabricWrite_keeps _ _ _ _ _ _) | split
    | split
    | dsimp -zeta only

theorem execSamplingDone_keeps (obs : List SampleObs) (s : State) : OKeeps s (execSamplingDone obs s) := by
  unfold execSamplingDone
  repeat' first
    | assumption
    | with_reducible exact Keeps.refl _
    | with_reducible apply OKeeps.next ?_
    | exact True.intro
    | with_reducible apply Keeps.trans ?_ (forEach_keeps _ _ _ (fun _ _ => ?_))
    | with_reducible apply Keeps.trans ?_ (writeReleases_keeps _)
    | with_reducible apply Keeps.trans ?_ (releasePoint_keeps _ _)
    | with_reducible apply Keeps.trans ?_ (countNumeric_keeps _ _)
    | extract_lets
    | (with_reducible apply Keeps.lit ?_ ?_ ?_ ?_ ?_ ?_); (on_goal 2 => rfl); (on_goal 2 => rfl); (on_goal 2 => rfl); (on_goal 2 => rfl); (on_goal 2 => rfl); first | assumption | with_reducible exact Keeps.refl _ | with_reducible apply Keeps.trans ?_ (forEach_keeps _ _ _ (fun _ _ => ?_)) | with_reducible apply Keeps.trans ?_ (writeReleases_keeps _) | with_reducible apply Keeps.trans ?_ (releasePoint_keeps _ _) | with_reducible apply Keeps.trans ?_ (countNumeric_keeps _ _) | split
    | split
    | dsimp -zeta only

theorem moveToWait_keeps (h : Nat) (s : State) : Keeps s (moveToWait h s) := by
  unfold moveToWait
  repeat' first
    | assumption
    | with_reducible exact Keeps.refl _
    | with_reducible apply Keeps.trans ?_ (arm_keeps _ _)
    | with_reducible apply Keeps.trans ?_ (onSess_keeps _ _ _)
    | (with_reducible apply Keeps.lit ?_ ?_ ?_ ?_ ?_ ?_); (on_goal 2 => rfl); (on_goal 2 => rfl); (on_goal 2 => rfl); (on_goal 2 => rfl); (on_goal 2 => rfl); first | assumption | with_reducible exact Keeps.refl _ | with_reducible apply Keeps.trans ?_ (arm_keeps _ _) | with_reducible apply Keeps.trans ?_ (onSess_keeps _ _ _) | split
    | split
    | dsimp -zeta only

theorem demotePressed_keeps (s : State) : Keeps s (demotePressed s) := by
  unfold demotePressed
  repeat' first
    | assumption
    | with_reducible exact Keeps.refl _
    | with_reducible apply Keeps.trans ?_ (forEach_keeps _ _ _ (fun _ _ => ?_))
    | with_reducible apply Keeps.trans ?_ (startDemotion_keeps _ _ _)
    | extract_lets
    | (with_reducible apply Keeps.lit ?_ ?_ ?_ ?_ ?_ ?_); (on_goal 2 => rfl); (on_goal 2 => rfl); (on_goal 2 => rfl); (on_goal 2 => rfl); (on_goal 2 => rfl); first | assumption | with_reducible exact Keeps.refl _ | with_reducible apply Keeps.trans ?_ (forEach_keeps _ _ _ (fun _ _ => ?_)) | with_reducible apply Keeps.trans ?_ (startDemotion_keeps _ _ _)
    | dsimp -zeta only

theorem lingerFlask_keeps (p : Pour) (s : State) : Keeps s (lingerFlask p s) := by
  unfold lingerFlask
  repeat' first
    | assumption
    | with_reducible exact Keeps.refl _
    | (with_reducible apply Keeps.lit ?_ ?_ ?_ ?_ ?_ ?_); (on_goal 2 => rfl); (on_goal 2 => rfl); (on_goal 2 => rfl); (on_goal 2 => rfl); (on_goal 2 => rfl); first | assumption | with_reducible exact Keeps.refl _ | split
    | split
    | dsimp -zeta only

theorem readSensors_keeps (obs : BoundaryObs) (s : State) : Keeps s (readSensors obs s) := by
  unfold readSensors
  repeat' first
    | assumption
    | with_reducible exact Keeps.refl _
    | extract_lets
    | (with_reducible apply Keeps.lit ?_ ?_ ?_ ?_ ?_ ?_); (on_goal 2 => rfl); (on_goal 2 => rfl); (on_goal 2 => rfl); (on_goal 2 => rfl); (on_goal 2 => rfl); first | assumption | with_reducible exact Keeps.refl _ | split
    | split
    | dsimp -zeta only

theorem account_keeps (obs : BoundaryObs) (ws : List Work) (s : State) : Keeps s (account obs ws s) := by
  unfold account
  repeat' first
    | assumption
    | with_reducible exact Keeps.refl _
    | extract_lets
    | (with_reducible apply Keeps.lit ?_ ?_ ?_ ?_ ?_ ?_); (on_goal 2 => rfl); (on_goal 2 => rfl); (on_goal 2 => rfl); (on_goal 2 => rfl); (on_goal 2 => rfl); first | assumption | with_reducible exact Keeps.refl _
    | dsimp -zeta only

theorem markWorked_keeps (p : Pour) (s : State) : Keeps s (markWorked p s) := by
  unfold markWorked
  repeat' first
    | assumption
    | with_reducible exact Keeps.refl _
    | with_reducible apply Keeps.trans ?_ (forEach_keeps _ _ _ (fun _ _ => ?_))
    | with_reducible apply Keeps.trans ?_ (onSess_keeps _ _ _)
    | (with_reducible apply Keeps.lit ?_ ?_ ?_ ?_ ?_ ?_); (on_goal 2 => rfl); (on_goal 2 => rfl); (on_goal 2 => rfl); (on_goal 2 => rfl); (on_goal 2 => rfl); first | assumption | with_reducible exact Keeps.refl _ | with_reducible apply Keeps.trans ?_ (forEach_keeps _ _ _ (fun _ _ => ?_)) | with_reducible apply Keeps.trans ?_ (onSess_keeps _ _ _) | split
    | split
    | dsimp -zeta only

theorem commitCalls_keeps (p : Pour) (s : State) : Keeps s (commitCalls p s) := by
  unfold commitCalls
  repeat' first
    | assumption
    | with_reducible exact Keeps.refl _
    | with_reducible apply Keeps.trans ?_ (forEach_keeps _ _ _ (fun _ _ => ?_))
    | with_reducible apply Keeps.trans ?_ (onSess_keeps _ _ _)
    | (with_reducible apply Keeps.lit ?_ ?_ ?_ ?_ ?_ ?_); (on_goal 2 => rfl); (on_goal 2 => rfl); (on_goal 2 => rfl); (on_goal 2 => rfl); (on_goal 2 => rfl); first | assumption | with_reducible exact Keeps.refl _ | with_reducible apply Keeps.trans ?_ (forEach_keeps _ _ _ (fun _ _ => ?_)) | with_reducible apply Keeps.trans ?_ (onSess_keeps _ _ _) | split
    | split
    | dsimp -zeta only

theorem boundaryActions_keeps (obs : BoundaryObs) (p : Pour) (s : State) : Keeps s (boundaryActions obs p s) := by
  unfold boundaryActions
  repeat' first
    | assumption
    | with_reducible exact Keeps.refl _
    | with_reducible apply Keeps.trans ?_ (forEach_keeps _ _ _ (fun _ _ => ?_))
    | with_reducible apply Keeps.trans ?_ (commitCalls_keeps _ _)
    | with_reducible apply Keeps.trans ?_ (markWorked_keeps _ _)
    | with_reducible apply Keeps.trans ?_ (account_keeps _ _ _)
    | with_reducible apply Keeps.trans ?_ (readSensors_keeps _ _)
    | with_reducible apply Keeps.trans ?_ (lingerFlask_keeps _ _)
    | with_reducible apply Keeps.trans ?_ (demotePressed_keeps _)
    | with_reducible apply Keeps.trans ?_ (moveToWait_keeps _ _)
    | with_reducible apply Keeps.trans ?_ (calibrate_keeps _ _ _)
    | with_reducible apply Keeps.trans ?_ (endFailedCalls_keeps _ _)
    | with_reducible apply Keeps.trans ?_ (endLate_keeps _ _ _)
    | with_reducible apply Keeps.trans ?_ (settleSlotted_keeps _ _)
    | with_reducible apply Keeps.trans ?_ (checkDeadlines_keeps _ _ _)
    | with_reducible apply Keeps.trans ?_ (freeAllSpent_keeps _)
    | with_reducible apply Keeps.trans ?_ (applyAsks_keeps _ _ _)
    | extract_lets
    | dsimp -zeta only

theorem execReleaseMirrorAck_keeps (obs : BoundaryObs) (s : State) : OKeeps s (execReleaseMirrorAck obs s) := by
  unfold execReleaseMirrorAck
  repeat' first
    | assumption
    | with_reducible exact Keeps.refl _
    | with_reducible apply OKeeps.next ?_
    | exact True.intro
    | with_reducible apply Keeps.trans ?_ (boundaryActions_keeps _ _ _)
    | with_reducible apply Keeps.trans ?_ (drainAll_keeps _)
    | with_reducible apply Keeps.trans ?_ (mirrorTaken_keeps _)
    | with_reducible apply Keeps.trans ?_ (passTime_keeps _ _)
    | with_reducible apply Keeps.trans ?_ (writePourBlocks_keeps _ _ _)
    | extract_lets
    | (with_reducible apply Keeps.lit ?_ ?_ ?_ ?_ ?_ ?_); (on_goal 2 => rfl); (on_goal 2 => rfl); (on_goal 2 => rfl); (on_goal 2 => rfl); (on_goal 2 => rfl); first | assumption | with_reducible exact Keeps.refl _ | with_reducible apply Keeps.trans ?_ (boundaryActions_keeps _ _ _) | with_reducible apply Keeps.trans ?_ (drainAll_keeps _) | with_reducible apply Keeps.trans ?_ (mirrorTaken_keeps _) | with_reducible apply Keeps.trans ?_ (passTime_keeps _ _) | with_reducible apply Keeps.trans ?_ (writePourBlocks_keeps _ _ _) | split
    | split
    | dsimp -zeta only

theorem dropUnserved_keeps (s : State) : Keeps s (dropUnserved s) := by
  unfold dropUnserved
  repeat' first
    | assumption
    | with_reducible exact Keeps.refl _
    | with_reducible apply Keeps.trans ?_ (forEach_keeps _ _ _ (fun _ _ => ?_))
    | with_reducible apply Keeps.trans ?_ (holdFetches_keeps _ _ _)
    | with_reducible apply Keeps.trans ?_ (freeAllSpent_keeps _)
    | with_reducible apply Keeps.trans ?_ (applyAsks_keeps _ _ _)
    | with_reducible apply Keeps.trans ?_ (discardWork_keeps _ _)
    | extract_lets
    | (with_reducible apply Keeps.lit ?_ ?_ ?_ ?_ ?_ ?_); (on_goal 2 => rfl); (on_goal 2 => rfl); (on_goal 2 => rfl); (on_goal 2 => rfl); (on_goal 2 => rfl); first | assumption | with_reducible exact Keeps.refl _ | with_reducible apply Keeps.trans ?_ (forEach_keeps _ _ _ (fun _ _ => ?_)) | with_reducible apply Keeps.trans ?_ (holdFetches_keeps _ _ _) | with_reducible apply Keeps.trans ?_ (freeAllSpent_keeps _) | with_reducible apply Keeps.trans ?_ (applyAsks_keeps _ _ _) | with_reducible apply Keeps.trans ?_ (discardWork_keeps _ _) | split
    | split
    | dsimp -zeta only

theorem rerunPour_keeps (s : State) : Keeps s (rerunPour s) := by
  unfold rerunPour
  repeat' first
    | assumption
    | with_reducible exact Keeps.refl _
    | with_reducible apply Keeps.trans ?_ (forEach_keeps _ _ _ (fun _ _ => ?_))
    | with_reducible apply Keeps.trans ?_ (discardWork_keeps _ _)
    | extract_lets
    | (with_reducible apply Keeps.lit ?_ ?_ ?_ ?_ ?_ ?_); (on_goal 2 => rfl); (on_goal 2 => rfl); (on_goal 2 => rfl); (on_goal 2 => rfl); (on_goal 2 => rfl); first | assumption | with_reducible exact Keeps.refl _ | with_reducible apply Keeps.trans ?_ (forEach_keeps _ _ _ (fun _ _ => ?_)) | with_reducible apply Keeps.trans ?_ (discardWork_keeps _ _) | split
    | split
    | dsimp -zeta only

theorem loseCluster_keeps (die cluster : Nat) (s : State) : Keeps s (loseCluster die cluster s) := by
  unfold loseCluster
  repeat' first
    | assumption
    | with_reducible exact Keeps.refl _
    | with_reducible apply Keeps.trans ?_ (healthEvent_keeps _ _ _)
    | with_reducible apply Keeps.trans ?_ (onDie_keeps _ _ _)
    | (with_reducible apply Keeps.lit ?_ ?_ ?_ ?_ ?_ ?_); (on_goal 2 => rfl); (on_goal 2 => rfl); (on_goal 2 => rfl); (on_goal 2 => rfl); (on_goal 2 => rfl); first | assumption | with_reducible exact Keeps.refl _ | with_reducible apply Keeps.trans ?_ (healthEvent_keeps _ _ _) | with_reducible apply Keeps.trans ?_ (onDie_keeps _ _ _) | split
    | split
    | dsimp -zeta only

theorem execClusterFault_keeps (die cluster : Nat) (s : State) : OKeeps s (execClusterFault die cluster s) := by
  unfold execClusterFault
  repeat' first
    | assumption
    | with_reducible exact Keeps.refl _
    | with_reducible apply OKeeps.next ?_
    | exact True.intro
    | with_reducible apply Keeps.trans ?_ (loseCluster_keeps _ _ _)
    | with_reducible apply Keeps.trans ?_ (rerunPour_keeps _)
    | with_reducible apply Keeps.trans ?_ (dropUnserved_keeps _)
    | with_reducible apply Keeps.trans ?_ (drainAll_keeps _)
    | split
    | dsimp -zeta only

theorem execRotationStart_keeps (die : Nat) (s : State) : OKeeps s (execRotationStart die s) := by
  unfold execRotationStart
  repeat' first
    | assumption
    | with_reducible exact Keeps.refl _
    | with_reducible apply OKeeps.next ?_
    | exact True.intro
    | with_reducible apply Keeps.trans ?_ (onDie_keeps _ _ _)
    | (with_reducible apply Keeps.lit ?_ ?_ ?_ ?_ ?_ ?_); (on_goal 2 => rfl); (on_goal 2 => rfl); (on_goal 2 => rfl); (on_goal 2 => rfl); (on_goal 2 => rfl); first | assumption | with_reducible exact Keeps.refl _ | with_reducible apply Keeps.trans ?_ (onDie_keeps _ _ _) | split
    | split
    | dsimp -zeta only

theorem execRotationTestEnd_keeps (die : Nat) (passed : Bool) (s : State) : OKeeps s (execRotationTestEnd die passed s) := by
  unfold execRotationTestEnd
  repeat' first
    | assumption
    | with_reducible exact Keeps.refl _
    | with_reducible apply OKeeps.next ?_
    | exact True.intro
    | with_reducible apply Keeps.trans ?_ (healthEvent_keeps _ _ _)
    | with_reducible apply Keeps.trans ?_ (onDie_keeps _ _ _)
    | (with_reducible apply Keeps.lit ?_ ?_ ?_ ?_ ?_ ?_); (on_goal 2 => rfl); (on_goal 2 => rfl); (on_goal 2 => rfl); (on_goal 2 => rfl); (on_goal 2 => rfl); first | assumption | with_reducible exact Keeps.refl _ | with_reducible apply Keeps.trans ?_ (healthEvent_keeps _ _ _) | with_reducible apply Keeps.trans ?_ (onDie_keeps _ _ _) | split
    | split
    | dsimp -zeta only

theorem abandonTests_keeps (s : State) : Keeps s (abandonTests s) := by
  unfold abandonTests
  repeat' first
    | assumption
    | with_reducible exact Keeps.refl _
    | (with_reducible apply Keeps.lit ?_ ?_ ?_ ?_ ?_ ?_); (on_goal 2 => rfl); (on_goal 2 => rfl); (on_goal 2 => rfl); (on_goal 2 => rfl); (on_goal 2 => rfl); first | assumption | with_reducible exact Keeps.refl _ | split
    | split
    | dsimp -zeta only

theorem execHbmUncorrectable_keeps (stack region : Nat) (held : LineHeld) (s : State) : OKeeps s (execHbmUncorrectable stack region held s) := by
  unfold execHbmUncorrectable
  split
  · split
    · exact execClusterFault_keeps _ _ _
    · exact Keeps.refl s
  · split
    · exact ((retireRegion_keeps _ _ _).trans (lineLost_keeps _ _)).trans (drainAll_keeps _)
    · exact Keeps.refl s

theorem execGateListTakeover_keeps (port : Nat) (s : State) : OKeeps s (execGateListTakeover port s) := by
  unfold execGateListTakeover
  repeat' first
    | assumption
    | with_reducible exact Keeps.refl _
    | with_reducible apply OKeeps.next ?_
    | exact True.intro
    | with_reducible apply Keeps.trans ?_ (takeover_keeps _)
    | with_reducible apply Keeps.trans ?_ (onPort_keeps _ _ _)
    | (with_reducible apply Keeps.lit ?_ ?_ ?_ ?_ ?_ ?_); (on_goal 2 => rfl); (on_goal 2 => rfl); (on_goal 2 => rfl); (on_goal 2 => rfl); (on_goal 2 => rfl); first | assumption | with_reducible exact Keeps.refl _ | with_reducible apply Keeps.trans ?_ (takeover_keeps _) | with_reducible apply Keeps.trans ?_ (onPort_keeps _ _ _) | split
    | split
    | dsimp -zeta only

theorem applyFlask_keeps (b : FlaskItem) (s : State) : Keeps s (applyFlask b s) := by
  unfold applyFlask
  repeat' first
    | assumption
    | with_reducible exact Keeps.refl _
    | extract_lets
    | (with_reducible apply Keeps.lit ?_ ?_ ?_ ?_ ?_ ?_); (on_goal 2 => rfl); (on_goal 2 => rfl); (on_goal 2 => rfl); (on_goal 2 => rfl); (on_goal 2 => rfl); first | assumption | with_reducible exact Keeps.refl _ | split
    | split
    | dsimp -zeta only

theorem applyRoster_keeps (b : RosterItem) (s : State) : Keeps s (applyRoster b s) := by
  unfold applyRoster
  repeat' first
    | assumption
    | with_reducible exact Keeps.refl _
    | with_reducible apply Keeps.trans ?_ (onFlask_keeps _ _ _)
    | (with_reducible apply Keeps.lit ?_ ?_ ?_ ?_ ?_ ?_); (on_goal 2 => rfl); (on_goal 2 => rfl); (on_goal 2 => rfl); (on_goal 2 => rfl); (on_goal 2 => rfl); first | assumption | with_reducible exact Keeps.refl _ | with_reducible apply Keeps.trans ?_ (onFlask_keeps _ _ _) | split
    | split
    | dsimp -zeta only

theorem addShards_keeps (s : State) : Keeps s (addShards s) := by
  unfold addShards
  repeat' first
    | assumption
    | with_reducible exact Keeps.refl _
    | with_reducible apply Keeps.trans ?_ (forEach_keeps _ _ _ (fun _ _ => ?_))
    | with_reducible apply Keeps.trans ?_ (addSess_keeps _ _)
    | (with_reducible apply Keeps.lit ?_ ?_ ?_ ?_ ?_ ?_); (on_goal 2 => rfl); (on_goal 2 => rfl); (on_goal 2 => rfl); (on_goal 2 => rfl); (on_goal 2 => rfl); first | assumption | with_reducible exact Keeps.refl _ | with_reducible apply Keeps.trans ?_ (forEach_keeps _ _ _ (fun _ _ => ?_)) | with_reducible apply Keeps.trans ?_ (addSess_keeps _ _) | split
    | split
    | dsimp -zeta only

theorem reslot_keeps (s : State) : Keeps s (reslot s) := by
  unfold reslot
  repeat' first
    | assumption
    | with_reducible exact Keeps.refl _
    | with_reducible apply Keeps.trans ?_ (addShards_keeps _)
    | extract_lets
    | (with_reducible apply Keeps.lit ?_ ?_ ?_ ?_ ?_ ?_); (on_goal 2 => rfl); (on_goal 2 => rfl); (on_goal 2 => rfl); (on_goal 2 => rfl); (on_goal 2 => rfl); first | assumption | with_reducible exact Keeps.refl _ | with_reducible apply Keeps.trans ?_ (addShards_keeps _)
    | dsimp -zeta only

theorem applyBind_keeps (b : BindItem) (s : State) : Keeps s (applyBind b s) := by
  unfold applyBind
  repeat' first
    | assumption
    | with_reducible exact Keeps.refl _
    | with_reducible apply Keeps.trans ?_ (placeWeights_keeps _ _)
    | extract_lets
    | (with_reducible apply Keeps.lit ?_ ?_ ?_ ?_ ?_ ?_); (on_goal 2 => rfl); (on_goal 2 => rfl); (on_goal 2 => rfl); (on_goal 2 => rfl); (on_goal 2 => rfl); first | assumption | with_reducible exact Keeps.refl _ | with_reducible apply Keeps.trans ?_ (placeWeights_keeps _ _) | split
    | split
    | dsimp -zeta only

theorem applyUnbind_keeps (n : Nat) (s : State) : Keeps s (applyUnbind n s) := by
  unfold applyUnbind
  repeat' first
    | assumption
    | with_reducible exact Keeps.refl _
    | (with_reducible apply Keeps.lit ?_ ?_ ?_ ?_ ?_ ?_); (on_goal 2 => rfl); (on_goal 2 => rfl); (on_goal 2 => rfl); (on_goal 2 => rfl); (on_goal 2 => rfl); first | assumption | with_reducible exact Keeps.refl _
    | dsimp -zeta only

theorem applyPlacement_keeps (b : PlacementItem) (s : State) : Keeps s (applyPlacement b s) := by
  unfold applyPlacement
  repeat' first
    | assumption
    | with_reducible exact Keeps.refl _
    | extract_lets
    | (with_reducible apply Keeps.lit ?_ ?_ ?_ ?_ ?_ ?_); (on_goal 2 => rfl); (on_goal 2 => rfl); (on_goal 2 => rfl); (on_goal 2 => rfl); (on_goal 2 => rfl); first | assumption | with_reducible exact Keeps.refl _
    | dsimp -zeta only

theorem applySpill_keeps (b : SpillItem) (s : State) : Keeps s (applySpill b s) := by
  unfold applySpill
  extract_lets old rest src put
  have hp : ∀ r, Keeps s (put r) := fun r => (Keeps.lit (Keeps.refl s) rfl rfl rfl rfl rfl).trans (settleRemoval_keeps _)
  clear_value put old
  repeat' first
    | exact Keeps.refl _
    | exact hp _
    | split

theorem applyIndex_keeps (b : IndexItem) (s : State) : Keeps s (applyIndex b s) := by
  unfold applyIndex
  repeat' first
    | assumption
    | with_reducible exact Keeps.refl _
    | with_reducible apply Keeps.trans ?_ (onShard_keeps _ _ _ _)
    | (with_reducible apply Keeps.lit ?_ ?_ ?_ ?_ ?_ ?_); (on_goal 2 => rfl); (on_goal 2 => rfl); (on_goal 2 => rfl); (on_goal 2 => rfl); (on_goal 2 => rfl); first | assumption | with_reducible exact Keeps.refl _ | with_reducible apply Keeps.trans ?_ (onShard_keeps _ _ _ _) | split
    | split
    | dsimp -zeta only

theorem createTenant_keeps (atStart : Bool) (b : TenantItem) (s : State) : Keeps s (createTenant atStart b s) := by
  unfold createTenant
  repeat' first
    | assumption
    | with_reducible exact Keeps.refl _
    | with_reducible apply Keeps.trans ?_ (hrRewrite_keeps _ _)
    | extract_lets
    | (with_reducible apply Keeps.lit ?_ ?_ ?_ ?_ ?_ ?_); (on_goal 2 => rfl); (on_goal 2 => rfl); (on_goal 2 => rfl); (on_goal 2 => rfl); (on_goal 2 => rfl); first | assumption | with_reducible exact Keeps.refl _ | with_reducible apply Keeps.trans ?_ (hrRewrite_keeps _ _) | split
    | split
    | dsimp -zeta only

theorem applyTenant_keeps (atStart : Bool) (b : TenantItem) (s : State) : Keeps s (applyTenant atStart b s) := by
  unfold applyTenant
  repeat' first
    | assumption
    | with_reducible exact Keeps.refl _
    | with_reducible apply Keeps.trans ?_ (createTenant_keeps _ _ _)
    | with_reducible apply Keeps.trans ?_ (onTen_keeps _ _ _)
    | (with_reducible apply Keeps.lit ?_ ?_ ?_ ?_ ?_ ?_); (on_goal 2 => rfl); (on_goal 2 => rfl); (on_goal 2 => rfl); (on_goal 2 => rfl); (on_goal 2 => rfl); first | assumption | with_reducible exact Keeps.refl _ | with_reducible apply Keeps.trans ?_ (createTenant_keeps _ _ _) | with_reducible apply Keeps.trans ?_ (onTen_keeps _ _ _) | split
    | split
    | dsimp -zeta only

theorem applyPartition_keeps (b : PartitionItem) (s : State) : Keeps s (applyPartition b s) := by
  unfold applyPartition
  repeat' first
    | assumption
    | with_reducible exact Keeps.refl _
    | extract_lets
    | (with_reducible apply Keeps.lit ?_ ?_ ?_ ?_ ?_ ?_); (on_goal 2 => rfl); (on_goal 2 => rfl); (on_goal 2 => rfl); (on_goal 2 => rfl); (on_goal 2 => rfl); first | assumption | with_reducible exact Keeps.refl _ | split
    | split
    | dsimp -zeta only

theorem takeRole_keeps (n : Nat) (d : PortDesc) (s : State) : Keeps s (takeRole n d s) := by
  unfold takeRole
  repeat' first
    | assumption
    | with_reducible exact Keeps.refl _
    | with_reducible apply Keeps.trans ?_ (retrain_keeps _ _ _)
    | with_reducible apply Keeps.trans ?_ (portFail_keeps _ _ _ _)
    | with_reducible apply Keeps.trans ?_ (onPort_keeps _ _ _)
    | extract_lets
    | (with_reducible apply Keeps.lit ?_ ?_ ?_ ?_ ?_ ?_); (on_goal 2 => rfl); (on_goal 2 => rfl); (on_goal 2 => rfl); (on_goal 2 => rfl); (on_goal 2 => rfl); first | assumption | with_reducible exact Keeps.refl _ | with_reducible apply Keeps.trans ?_ (retrain_keeps _ _ _) | with_reducible apply Keeps.trans ?_ (portFail_keeps _ _ _ _) | with_reducible apply Keeps.trans ?_ (onPort_keeps _ _ _) | split
    | split
    | dsimp -zeta only

theorem applyPortRole_keeps (n : Nat) (d : PortDesc) (s : State) : Keeps s (applyPortRole n d s) := by
  unfold applyPortRole
  repeat' first
    | assumption
    | with_reducible exact Keeps.refl _
    | with_reducible apply Keeps.trans ?_ (takeRole_keeps _ _ _)
    | with_reducible apply Keeps.trans ?_ (onPort_keeps _ _ _)
    | (with_reducible apply Keeps.lit ?_ ?_ ?_ ?_ ?_ ?_); (on_goal 2 => rfl); (on_goal 2 => rfl); (on_goal 2 => rfl); (on_goal 2 => rfl); (on_goal 2 => rfl); first | assumption | with_reducible exact Keeps.refl _ | with_reducible apply Keeps.trans ?_ (takeRole_keeps _ _ _) | with_reducible apply Keeps.trans ?_ (onPort_keeps _ _ _) | split
    | split
    | dsimp -zeta only

theorem applyShaper_keeps (b : ShaperItem) (s : State) : Keeps s (applyShaper b s) := by
  unfold applyShaper
  repeat' first
    | assumption
    | with_reducible exact Keeps.refl _
    | with_reducible apply Keeps.trans ?_ (onPort_keeps _ _ _)
    | (with_reducible apply Keeps.lit ?_ ?_ ?_ ?_ ?_ ?_); (on_goal 2 => rfl); (on_goal 2 => rfl); (on_goal 2 => rfl); (on_goal 2 => rfl); (on_goal 2 => rfl); first | assumption | with_reducible exact Keeps.refl _ | with_reducible apply Keeps.trans ?_ (onPort_keeps _ _ _)
    | dsimp -zeta only

theorem applyGates_keeps (b : GateListItem) (s : State) : Keeps s (applyGates b s) := by
  unfold applyGates
  repeat' first
    | assumption
    | with_reducible exact Keeps.refl _
    | with_reducible apply Keeps.trans ?_ (onPort_keeps _ _ _)
    | (with_reducible apply Keeps.lit ?_ ?_ ?_ ?_ ?_ ?_); (on_goal 2 => rfl); (on_goal 2 => rfl); (on_goal 2 => rfl); (on_goal 2 => rfl); (on_goal 2 => rfl); first | assumption | with_reducible exact Keeps.refl _ | with_reducible apply Keeps.trans ?_ (onPort_keeps _ _ _) | split
    | split
    | dsimp -zeta only

theorem applyItem_keeps (atStart : Bool) (fresh : List Nat) (i : Item) (s : State) : Keeps s (applyItem atStart fresh i s) := by
  unfold applyItem
  repeat' first
    | assumption
    | with_reducible exact Keeps.refl _
    | with_reducible apply Keeps.trans ?_ (applyGates_keeps _ _)
    | with_reducible apply Keeps.trans ?_ (applyShaper_keeps _ _)
    | with_reducible apply Keeps.trans ?_ (applyPortRole_keeps _ _ _)
    | with_reducible apply Keeps.trans ?_ (applyPartition_keeps _ _)
    | with_reducible apply Keeps.trans ?_ (applyTenant_keeps _ _ _)
    | with_reducible apply Keeps.trans ?_ (applyIndex_keeps _ _)
    | with_reducible apply Keeps.trans ?_ (applySpill_keeps _ _)
    | with_reducible apply Keeps.trans ?_ (applyPlacement_keeps _ _)
    | with_reducible apply Keeps.trans ?_ (applyUnbind_keeps _ _)
    | with_reducible apply Keeps.trans ?_ (applyBind_keeps _ _)
    | with_reducible apply Keeps.trans ?_ (applyRoster_keeps _ _)
    | with_reducible apply Keeps.trans ?_ (applyFlask_keeps _ _)
    | with_reducible apply Keeps.trans ?_ (onTen_keeps _ _ _)
    | (with_reducible apply Keeps.lit ?_ ?_ ?_ ?_ ?_ ?_); (on_goal 2 => rfl); (on_goal 2 => rfl); (on_goal 2 => rfl); (on_goal 2 => rfl); (on_goal 2 => rfl); first | assumption | with_reducible exact Keeps.refl _ | with_reducible apply Keeps.trans ?_ (applyGates_keeps _ _) | with_reducible apply Keeps.trans ?_ (applyShaper_keeps _ _) | with_reducible apply Keeps.trans ?_ (applyPortRole_keeps _ _ _) | with_reducible apply Keeps.trans ?_ (applyPartition_keeps _ _) | with_reducible apply Keeps.trans ?_ (applyTenant_keeps _ _ _) | with_reducible apply Keeps.trans ?_ (applyIndex_keeps _ _) | with_reducible apply Keeps.trans ?_ (applySpill_keeps _ _) | with_reducible apply Keeps.trans ?_ (applyPlacement_keeps _ _) | with_reducible apply Keeps.trans ?_ (applyUnbind_keeps _ _) | with_reducible apply Keeps.trans ?_ (applyBind_keeps _ _) | with_reducible apply Keeps.trans ?_ (applyRoster_keeps _ _) | with_reducible apply Keeps.trans ?_ (applyFlask_keeps _ _) | with_reducible apply Keeps.trans ?_ (onTen_keeps _ _ _) | split
    | split
    | dsimp -zeta only

theorem applyItems_keeps (atStart : Bool) (items : List Item) (s : State) : Keeps s (applyItems atStart items s) := by
  unfold applyItems
  repeat' first
    | assumption
    | with_reducible exact Keeps.refl _
    | with_reducible apply Keeps.trans ?_ (forEach_keeps _ _ _ (fun _ _ => ?_))
    | with_reducible apply Keeps.trans ?_ (applyItem_keeps _ _ _ _)
    | with_reducible apply Keeps.trans ?_ (reslot_keeps _)
    | dsimp -zeta only

theorem layLandings_keeps (n : Nat) (s : State) : Keeps s (layLandings n s) := by
  unfold layLandings
  repeat' first
    | assumption
    | with_reducible exact Keeps.refl _
    | with_reducible apply Keeps.trans ?_ (forEach_keeps _ _ _ (fun _ _ => ?_))
    | with_reducible apply Keeps.trans ?_ (onGroup_keeps _ _ _)
    | with_reducible apply Keeps.trans ?_ (takeT1_keeps _ _ _ _ _)
    | extract_lets
    | (with_reducible apply Keeps.lit ?_ ?_ ?_ ?_ ?_ ?_); (on_goal 2 => rfl); (on_goal 2 => rfl); (on_goal 2 => rfl); (on_goal 2 => rfl); (on_goal 2 => rfl); first | assumption | with_reducible exact Keeps.refl _ | with_reducible apply Keeps.trans ?_ (forEach_keeps _ _ _ (fun _ _ => ?_)) | with_reducible apply Keeps.trans ?_ (onGroup_keeps _ _ _) | with_reducible apply Keeps.trans ?_ (takeT1_keeps _ _ _ _ _) | split
    | split
    | dsimp -zeta only

theorem composeGroup_keeps (r : Nat × Nat × List Participant) (s : State) : Keeps s (composeGroup r s) := by
  unfold composeGroup
  repeat' first
    | assumption
    | with_reducible exact Keeps.refl _
    | with_reducible apply Keeps.trans ?_ (layLandings_keeps _ _)
    | extract_lets
    | (with_reducible apply Keeps.lit ?_ ?_ ?_ ?_ ?_ ?_); (on_goal 2 => rfl); (on_goal 2 => rfl); (on_goal 2 => rfl); (on_goal 2 => rfl); (on_goal 2 => rfl); first | assumption | with_reducible exact Keeps.refl _ | with_reducible apply Keeps.trans ?_ (layLandings_keeps _ _) | split
    | split
    | dsimp -zeta only

theorem dropGroup_keeps (g : Nat) (s : State) : Keeps s (dropGroup g s) := by
  unfold dropGroup
  repeat' first
    | assumption
    | with_reducible exact Keeps.refl _
    | with_reducible apply Keeps.trans ?_ (tearGroup_keeps _ _)
    | extract_lets
    | (with_reducible apply Keeps.lit ?_ ?_ ?_ ?_ ?_ ?_); (on_goal 2 => rfl); (on_goal 2 => rfl); (on_goal 2 => rfl); (on_goal 2 => rfl); (on_goal 2 => rfl); first | assumption | with_reducible exact Keeps.refl _ | with_reducible apply Keeps.trans ?_ (tearGroup_keeps _ _)
    | dsimp -zeta only

theorem acceptGrant_keeps (fresh : Bool) (p : Pool) (s : State) : Keeps s (acceptGrant fresh p s) := by
  unfold acceptGrant
  repeat' first
    | assumption
    | with_reducible exact Keeps.refl _
    | with_reducible apply Keeps.trans ?_ (fitExtents_keeps _)
    | extract_lets
    | (with_reducible apply Keeps.lit ?_ ?_ ?_ ?_ ?_ ?_); (on_goal 2 => rfl); (on_goal 2 => rfl); (on_goal 2 => rfl); (on_goal 2 => rfl); (on_goal 2 => rfl); first | assumption | with_reducible exact Keeps.refl _ | with_reducible apply Keeps.trans ?_ (fitExtents_keeps _) | split
    | split
    | dsimp -zeta only

theorem dropGrant_keeps (n : Nat) (s : State) : Keeps s (dropGrant n s) := by
  unfold dropGrant
  repeat' first
    | assumption
    | with_reducible exact Keeps.refl _
    | with_reducible apply Keeps.trans ?_ (settleLeaving_keeps _)
    | (with_reducible apply Keeps.lit ?_ ?_ ?_ ?_ ?_ ?_); (on_goal 2 => rfl); (on_goal 2 => rfl); (on_goal 2 => rfl); (on_goal 2 => rfl); (on_goal 2 => rfl); first | assumption | with_reducible exact Keeps.refl _ | with_reducible apply Keeps.trans ?_ (settleLeaving_keeps _) | split
    | split
    | dsimp -zeta only

theorem peerFailed_keeps (n : Nat) (s : State) : Keeps s (peerFailed n s) := by
  unfold peerFailed
  repeat' first
    | assumption
    | with_reducible exact Keeps.refl _
    | with_reducible apply Keeps.trans ?_ (forEach_keeps _ _ _ (fun _ _ => ?_))
    | with_reducible apply Keeps.trans ?_ (tearGroup_keeps _ _)
    | with_reducible apply Keeps.trans ?_ (moveSettled_keeps _ _)
    | with_reducible apply Keeps.trans ?_ (abortMigration_keeps _ _ _)
    | with_reducible apply Keeps.trans ?_ (tellDirectory_keeps _ _ _ _)
    | extract_lets
    | (with_reducible apply Keeps.lit ?_ ?_ ?_ ?_ ?_ ?_); (on_goal 2 => rfl); (on_goal 2 => rfl); (on_goal 2 => rfl); (on_goal 2 => rfl); (on_goal 2 => rfl); first | assumption | with_reducible exact Keeps.refl _ | with_reducible apply Keeps.trans ?_ (forEach_keeps _ _ _ (fun _ _ => ?_)) | with_reducible apply Keeps.trans ?_ (tearGroup_keeps _ _) | with_reducible apply Keeps.trans ?_ (moveSettled_keeps _ _) | with_reducible apply Keeps.trans ?_ (abortMigration_keeps _ _ _) | with_reducible apply Keeps.trans ?_ (tellDirectory_keeps _ _ _ _) | split
    | split
    | dsimp -zeta only

theorem beginMove_keeps (r : MapRecord) (s : State) : Keeps s (beginMove r s) := by
  unfold beginMove
  repeat' first
    | assumption
    | with_reducible exact Keeps.refl _
    | with_reducible apply Keeps.trans ?_ (sendMgr_keeps _ _ _ _ _ _ _)
    | extract_lets
    | (with_reducible apply Keeps.lit ?_ ?_ ?_ ?_ ?_ ?_); (on_goal 2 => rfl); (on_goal 2 => rfl); (on_goal 2 => rfl); (on_goal 2 => rfl); (on_goal 2 => rfl); first | assumption | with_reducible exact Keeps.refl _ | with_reducible apply Keeps.trans ?_ (sendMgr_keeps _ _ _ _ _ _ _) | split
    | split
    | dsimp -zeta only

theorem applyEpoch_keeps (s : State) : Keeps s (applyEpoch s) := by
  unfold applyEpoch
  repeat' first
    | assumption
    | with_reducible exact Keeps.refl _
    | with_reducible apply Keeps.trans ?_ (forEach_keeps _ _ _ (fun _ _ => ?_))
    | with_reducible apply Keeps.trans ?_ (beginMove_keeps _ _)
    | with_reducible apply Keeps.trans ?_ (peerFailed_keeps _ _)
    | with_reducible apply Keeps.trans ?_ (dropGrant_keeps _ _)
    | with_reducible apply Keeps.trans ?_ (acceptGrant_keeps _ _ _)
    | with_reducible apply Keeps.trans ?_ (dropGroup_keeps _ _)
    | with_reducible apply Keeps.trans ?_ (composeGroup_keeps _ _)
    | with_reducible apply Keeps.trans ?_ (tryRetire_keeps _)
    | with_reducible apply Keeps.trans ?_ (sendMgr_keeps _ _ _ _ _ _ _)
    | extract_lets
    | (with_reducible apply Keeps.lit ?_ ?_ ?_ ?_ ?_ ?_); (on_goal 2 => rfl); (on_goal 2 => rfl); (on_goal 2 => rfl); (on_goal 2 => rfl); (on_goal 2 => rfl); first | assumption | with_reducible exact Keeps.refl _ | with_reducible apply Keeps.trans ?_ (forEach_keeps _ _ _ (fun _ _ => ?_)) | with_reducible apply Keeps.trans ?_ (beginMove_keeps _ _) | with_reducible apply Keeps.trans ?_ (peerFailed_keeps _ _) | with_reducible apply Keeps.trans ?_ (dropGrant_keeps _ _) | with_reducible apply Keeps.trans ?_ (acceptGrant_keeps _ _ _) | with_reducible apply Keeps.trans ?_ (dropGroup_keeps _ _) | with_reducible apply Keeps.trans ?_ (composeGroup_keeps _ _) | with_reducible apply Keeps.trans ?_ (tryRetire_keeps _) | with_reducible apply Keeps.trans ?_ (sendMgr_keeps _ _ _ _ _ _ _) | split
    | split
    | dsimp -zeta only

theorem writeSlot_keeps (slot : Nat) (im : Image) (s : State) : Keeps s (writeSlot slot im s) := by
  unfold writeSlot
  repeat' first
    | assumption
    | with_reducible exact Keeps.refl _
    | (with_reducible apply Keeps.lit ?_ ?_ ?_ ?_ ?_ ?_); (on_goal 2 => rfl); (on_goal 2 => rfl); (on_goal 2 => rfl); (on_goal 2 => rfl); (on_goal 2 => rfl); first | assumption | with_reducible exact Keeps.refl _ | split
    | split
    | dsimp -zeta only

theorem loadMoulds_keeps (tabs : List Tokeniser) (budget : Nat) (ms : List Mould) (s : State) : Keeps s (loadMoulds tabs budget ms s) := by
  unfold loadMoulds
  repeat' first
    | assumption
    | with_reducible exact Keeps.refl _
    | with_reducible apply Keeps.trans ?_ (forEach_keeps _ _ _ (fun _ _ => ?_))
    | with_reducible apply Keeps.trans ?_ (note_keeps _ _ _)
    | extract_lets
    | (with_reducible apply Keeps.lit ?_ ?_ ?_ ?_ ?_ ?_); (on_goal 2 => rfl); (on_goal 2 => rfl); (on_goal 2 => rfl); (on_goal 2 => rfl); (on_goal 2 => rfl); first | assumption | with_reducible exact Keeps.refl _ | with_reducible apply Keeps.trans ?_ (forEach_keeps _ _ _ (fun _ _ => ?_)) | with_reducible apply Keeps.trans ?_ (note_keeps _ _ _) | split
    | split
    | dsimp -zeta only

theorem loadTables_keeps (im : Image) (s : State) : Keeps s (loadTables im s) := by
  unfold loadTables
  repeat' first
    | assumption
    | with_reducible exact Keeps.refl _
    | with_reducible apply Keeps.trans ?_ (loadMoulds_keeps _ _ _ _)
    | extract_lets
    | (with_reducible apply Keeps.lit ?_ ?_ ?_ ?_ ?_ ?_); (on_goal 2 => rfl); (on_goal 2 => rfl); (on_goal 2 => rfl); (on_goal 2 => rfl); (on_goal 2 => rfl); first | assumption | with_reducible exact Keeps.refl _ | with_reducible apply Keeps.trans ?_ (loadMoulds_keeps _ _ _ _)
    | dsimp -zeta only

theorem takeSession_keeps (x : Session) (s : State) : Keeps s (takeSession x s) := by
  unfold takeSession
  repeat' first
    | assumption
    | with_reducible exact Keeps.refl _
    | with_reducible apply Keeps.trans ?_ (seat_keeps _ _)
    | with_reducible apply Keeps.trans ?_ (drawFree_keeps _)
    | with_reducible apply Keeps.trans ?_ (addSess_keeps _ _)
    | dsimp -zeta only

theorem checkIngot_keeps (x : Session) (s : State) : Keeps s (checkIngot x s) := by
  unfold checkIngot
  repeat' first
    | assumption
    | with_reducible exact Keeps.refl _
    | with_reducible apply Keeps.trans ?_ (loseSession_keeps _ _ _)
    | extract_lets
    | split
    | dsimp -zeta only

theorem pruneRosters_keeps (s : State) : Keeps s (pruneRosters s) := by
  unfold pruneRosters
  repeat' first
    | assumption
    | with_reducible exact Keeps.refl _
    | (with_reducible apply Keeps.lit ?_ ?_ ?_ ?_ ?_ ?_); (on_goal 2 => rfl); (on_goal 2 => rfl); (on_goal 2 => rfl); (on_goal 2 => rfl); (on_goal 2 => rfl); first | assumption | with_reducible exact Keeps.refl _ | split
    | split
    | dsimp -zeta only

theorem reanchor_keeps (s : State) : Keeps s (reanchor s) := by
  unfold reanchor
  repeat' first
    | assumption
    | with_reducible exact Keeps.refl _
    | with_reducible apply Keeps.trans ?_ (forEach_keeps _ _ _ (fun _ _ => ?_))
    | with_reducible apply Keeps.trans ?_ (anchor_keeps _ _ _)
    | extract_lets
    | (with_reducible apply Keeps.lit ?_ ?_ ?_ ?_ ?_ ?_); (on_goal 2 => rfl); (on_goal 2 => rfl); (on_goal 2 => rfl); (on_goal 2 => rfl); (on_goal 2 => rfl); first | assumption | with_reducible exact Keeps.refl _ | with_reducible apply Keeps.trans ?_ (forEach_keeps _ _ _ (fun _ _ => ?_)) | with_reducible apply Keeps.trans ?_ (anchor_keeps _ _ _) | split
    | split
    | dsimp -zeta only

theorem settleObjects_keeps (s : State) : Keeps s (settleObjects s) := by
  unfold settleObjects
  repeat' first
    | assumption
    | with_reducible exact Keeps.refl _
    | with_reducible apply Keeps.trans ?_ (deleteObjs_keeps _ _ _)
    | extract_lets
    | (with_reducible apply Keeps.lit ?_ ?_ ?_ ?_ ?_ ?_); (on_goal 2 => rfl); (on_goal 2 => rfl); (on_goal 2 => rfl); (on_goal 2 => rfl); (on_goal 2 => rfl); first | assumption | with_reducible exact Keeps.refl _ | with_reducible apply Keeps.trans ?_ (deleteObjs_keeps _ _ _) | split
    | split
    | dsimp -zeta only

theorem renumber_keeps (pours : List Pour) (ctxs : List Ctx) (s : State) : Keeps s (renumber pours ctxs s) := by
  unfold renumber
  repeat' first
    | assumption
    | with_reducible exact Keeps.refl _
    | extract_lets
    | (with_reducible apply Keeps.lit ?_ ?_ ?_ ?_ ?_ ?_); (on_goal 2 => rfl); (on_goal 2 => rfl); (on_goal 2 => rfl); (on_goal 2 => rfl); (on_goal 2 => rfl); first | assumption | with_reducible exact Keeps.refl _ | split
    | split
    | dsimp -zeta only

theorem dropPourState_keeps (pours : List Pour) (s : State) : Keeps s (dropPourState pours s) := by
  unfold dropPourState
  repeat' first
    | assumption
    | with_reducible exact Keeps.refl _
    | with_reducible apply Keeps.trans ?_ (forEach_keeps _ _ _ (fun _ _ => ?_))
    | with_reducible apply Keeps.trans ?_ (discardWork_keeps _ _)
    | split
    | dsimp -zeta only

theorem dropBinding_keeps (s : State) : Keeps s (dropBinding s) := by
  unfold dropBinding
  repeat' first
    | assumption
    | with_reducible exact Keeps.refl _
    | with_reducible apply Keeps.trans ?_ (forEach_keeps _ _ _ (fun _ _ => ?_))
    | with_reducible apply Keeps.trans ?_ (healthEvent_keeps _ _ _)
    | extract_lets
    | (with_reducible apply Keeps.lit ?_ ?_ ?_ ?_ ?_ ?_); (on_goal 2 => rfl); (on_goal 2 => rfl); (on_goal 2 => rfl); (on_goal 2 => rfl); (on_goal 2 => rfl); first | assumption | with_reducible exact Keeps.refl _ | with_reducible apply Keeps.trans ?_ (forEach_keeps _ _ _ (fun _ _ => ?_)) | with_reducible apply Keeps.trans ?_ (healthEvent_keeps _ _ _)
    | dsimp -zeta only

theorem loadPackage_keeps (present : Nat) (recallOk : Bool) (c : CkSlot) (s : State) : Keeps s (loadPackage present recallOk c s) := by
  unfold loadPackage
  repeat' first
    | assumption
    | with_reducible exact Keeps.refl _
    | with_reducible apply Keeps.trans ?_ (dropBinding_keeps _)
    | extract_lets
    | (with_reducible apply Keeps.lit ?_ ?_ ?_ ?_ ?_ ?_); (on_goal 2 => rfl); (on_goal 2 => rfl); (on_goal 2 => rfl); (on_goal 2 => rfl); (on_goal 2 => rfl); first | assumption | with_reducible exact Keeps.refl _ | with_reducible apply Keeps.trans ?_ (dropBinding_keeps _) | split
    | split
    | dsimp -zeta only

theorem settleRestored_keeps (hs : List Nat) (s : State) : Keeps s (settleRestored hs s) := by
  unfold settleRestored
  repeat' first
    | assumption
    | with_reducible exact Keeps.refl _
    | with_reducible apply Keeps.trans ?_ (forEach_keeps _ _ _ (fun _ _ => ?_))
    | with_reducible apply Keeps.trans ?_ (checkIngot_keeps _ _)
    | with_reducible apply Keeps.trans ?_ (settleLoss_keeps _ _ _)
    | extract_lets
    | split
    | dsimp -zeta only

theorem liveRecord_keeps (h : Nat) (s : State) : Keeps s (liveRecord h s) := by
  unfold liveRecord
  repeat' first
    | assumption
    | with_reducible exact Keeps.refl _
    | with_reducible apply Keeps.trans ?_ (emitOut_keeps _ _ _ _)
    | (with_reducible apply Keeps.lit ?_ ?_ ?_ ?_ ?_ ?_); (on_goal 2 => rfl); (on_goal 2 => rfl); (on_goal 2 => rfl); (on_goal 2 => rfl); (on_goal 2 => rfl); first | assumption | with_reducible exact Keeps.refl _ | with_reducible apply Keeps.trans ?_ (emitOut_keeps _ _ _ _) | split
    | split
    | dsimp -zeta only

theorem takeSessions_keeps (c : CkSlot) (xs : List Session) (s : State) : Keeps s (takeSessions c xs s) := by
  unfold takeSessions
  repeat' first
    | assumption
    | with_reducible exact Keeps.refl _
    | with_reducible apply Keeps.trans ?_ (forEach_keeps _ _ _ (fun _ _ => ?_))
    | with_reducible apply Keeps.trans ?_ (takeSession_keeps _ _)
    | extract_lets
    | (with_reducible apply Keeps.lit ?_ ?_ ?_ ?_ ?_ ?_); (on_goal 2 => rfl); (on_goal 2 => rfl); (on_goal 2 => rfl); (on_goal 2 => rfl); (on_goal 2 => rfl); first | assumption | with_reducible exact Keeps.refl _ | with_reducible apply Keeps.trans ?_ (forEach_keeps _ _ _ (fun _ _ => ?_)) | with_reducible apply Keeps.trans ?_ (takeSession_keeps _ _)
    | dsimp -zeta only

theorem keepTags_keeps (tenant : Nat) (c : Place) (s : State) : Keeps s (keepTags tenant c s) := by
  unfold keepTags
  repeat' first
    | assumption
    | with_reducible exact Keeps.refl _
    | extract_lets
    | (with_reducible apply Keeps.lit ?_ ?_ ?_ ?_ ?_ ?_); (on_goal 2 => rfl); (on_goal 2 => rfl); (on_goal 2 => rfl); (on_goal 2 => rfl); (on_goal 2 => rfl); first | assumption | with_reducible exact Keeps.refl _ | split
    | split
    | dsimp -zeta only

theorem retag_keeps (s : State) : Keeps s (retag s) := by
  unfold retag
  repeat' first
    | assumption
    | with_reducible exact Keeps.refl _
    | with_reducible apply Keeps.trans ?_ (forEach_keeps _ _ _ (fun _ _ => ?_))
    | with_reducible apply Keeps.trans ?_ (keepTags_keeps _ _ _)
    | dsimp -zeta only

theorem finishRestore_keeps (c : CkSlot) (pourState : Bool) (hs : List Nat) (s : State) : Keeps s (finishRestore c pourState hs s) := by
  unfold finishRestore
  repeat' first
    | assumption
    | with_reducible exact Keeps.refl _
    | with_reducible apply Keeps.trans ?_ (forEach_keeps _ _ _ (fun _ _ => ?_))
    | with_reducible apply Keeps.trans ?_ (retag_keeps _)
    | with_reducible apply Keeps.trans ?_ (liveRecord_keeps _ _)
    | with_reducible apply Keeps.trans ?_ (settleRestored_keeps _ _)
    | with_reducible apply Keeps.trans ?_ (dropPourState_keeps _ _)
    | with_reducible apply Keeps.trans ?_ (renumber_keeps _ _ _)
    | with_reducible apply Keeps.trans ?_ (settleObjects_keeps _)
    | with_reducible apply Keeps.trans ?_ (reanchor_keeps _)
    | with_reducible apply Keeps.trans ?_ (pruneRosters_keeps _)
    | with_reducible apply Keeps.trans ?_ (reslot_keeps _)
    | extract_lets
    | split
    | dsimp -zeta only

theorem restoreSlot_keeps (present : Nat) (recallOk : Bool) (c : CkSlot) (s : State) : Keeps s (restoreSlot present recallOk c s) := by
  unfold restoreSlot
  repeat' first
    | assumption
    | with_reducible exact Keeps.refl _
    | with_reducible apply Keeps.trans ?_ (finishRestore_keeps _ _ _ _)
    | with_reducible apply Keeps.trans ?_ (takeSessions_keeps _ _ _)
    | with_reducible apply Keeps.trans ?_ (loadPackage_keeps _ _ _ _)
    | extract_lets
    | dsimp -zeta only

theorem recastPage_keeps (p : ModelProgram) (x : Session) (t : List Page × State) (g : Page) : Keeps t.2 (recastPage p x t g).2 := by
  unfold recastPage
  repeat' first
    | exact Keeps.refl _
    | exact drawFree_keeps _
    | split

theorem assemble_keeps (b : RestoreItem) (c : CkSlot) (x : Session) (s : State) : Keeps s (assemble b c x s) := by
  unfold assemble
  repeat' first
    | assumption
    | with_reducible exact Keeps.refl _
    | with_reducible apply Keeps.trans ?_ (foldl_pair_keeps _ (fun _ _ => recastPage_keeps _ _ _ _) _ _)
    | with_reducible apply Keeps.trans ?_ (recastPage_keeps _ _ _ _)
    | with_reducible apply Keeps.trans ?_ (takeSession_keeps _ _)
    | extract_lets
    | (with_reducible apply Keeps.lit ?_ ?_ ?_ ?_ ?_ ?_); (on_goal 2 => rfl); (on_goal 2 => rfl); (on_goal 2 => rfl); (on_goal 2 => rfl); (on_goal 2 => rfl); first | assumption | with_reducible exact Keeps.refl _ | with_reducible apply Keeps.trans ?_ (foldl_pair_keeps _ (fun _ _ => recastPage_keeps _ _ _ _) _ _) | with_reducible apply Keeps.trans ?_ (recastPage_keeps _ _ _ _) | with_reducible apply Keeps.trans ?_ (takeSession_keeps _ _) | split
    | split
    | dsimp -zeta only

theorem mergePackage_keeps (b : RestoreItem) (c : CkSlot) (s : State) : Keeps s (mergePackage b c s) := by
  unfold mergePackage
  repeat' first
    | assumption
    | with_reducible exact Keeps.refl _
    | extract_lets
    | (with_reducible apply Keeps.lit ?_ ?_ ?_ ?_ ?_ ?_); (on_goal 2 => rfl); (on_goal 2 => rfl); (on_goal 2 => rfl); (on_goal 2 => rfl); (on_goal 2 => rfl); first | assumption | with_reducible exact Keeps.refl _ | split
    | split
    | dsimp -zeta only

theorem restoreByItem_keeps (b : RestoreItem) (s : State) : Keeps s (restoreByItem b s) := by
  unfold restoreByItem
  repeat' first
    | assumption
    | with_reducible exact Keeps.refl _
    | with_reducible apply Keeps.trans ?_ (forEach_keeps _ _ _ (fun _ _ => ?_))
    | with_reducible apply Keeps.trans ?_ (mergePackage_keeps _ _ _)
    | with_reducible apply Keeps.trans ?_ (assemble_keeps _ _ _ _)
    | with_reducible apply Keeps.trans ?_ (finishRestore_keeps _ _ _ _)
    | with_reducible apply Keeps.trans ?_ (anchor_keeps _ _ _)
    | extract_lets
    | (with_reducible apply Keeps.lit ?_ ?_ ?_ ?_ ?_ ?_); (on_goal 2 => rfl); (on_goal 2 => rfl); (on_goal 2 => rfl); (on_goal 2 => rfl); (on_goal 2 => rfl); first | assumption | with_reducible exact Keeps.refl _ | with_reducible apply Keeps.trans ?_ (forEach_keeps _ _ _ (fun _ _ => ?_)) | with_reducible apply Keeps.trans ?_ (mergePackage_keeps _ _ _) | with_reducible apply Keeps.trans ?_ (assemble_keeps _ _ _ _) | with_reducible apply Keeps.trans ?_ (finishRestore_keeps _ _ _ _) | with_reducible apply Keeps.trans ?_ (anchor_keeps _ _ _) | split
    | split
    | dsimp -zeta only

theorem truncatedRecord_keeps (h d0 d1 : Nat) (s : State) : Keeps s (truncatedRecord h d0 d1 s) := by
  unfold truncatedRecord
  repeat' first
    | assumption
    | with_reducible exact Keeps.refl _
    | with_reducible apply Keeps.trans ?_ (freeSpent_keeps _ _)
    | with_reducible apply Keeps.trans ?_ (endRequest_keeps _ _ _ _ _ _ _ _)
    | with_reducible apply Keeps.trans ?_ (emitOut_keeps _ _ _ _)
    | (with_reducible apply Keeps.lit ?_ ?_ ?_ ?_ ?_ ?_); (on_goal 2 => rfl); (on_goal 2 => rfl); (on_goal 2 => rfl); (on_goal 2 => rfl); (on_goal 2 => rfl); first | assumption | with_reducible exact Keeps.refl _ | with_reducible apply Keeps.trans ?_ (freeSpent_keeps _ _) | with_reducible apply Keeps.trans ?_ (endRequest_keeps _ _ _ _ _ _ _ _) | with_reducible apply Keeps.trans ?_ (emitOut_keeps _ _ _ _) | split
    | split
    | dsimp -zeta only

theorem rebuildOpen_keeps (l : List Anchor) (x : Session) (s : State) : Keeps s (rebuildOpen l x s) := by
  unfold rebuildOpen
  repeat' first
    | assumption
    | with_reducible exact Keeps.refl _
    | with_reducible apply Keeps.trans ?_ (truncatedRecord_keeps _ _ _ _)
    | with_reducible apply Keeps.trans ?_ (arm_keeps _ _)
    | with_reducible apply Keeps.trans ?_ (drawFree_keeps _)
    | with_reducible apply Keeps.trans ?_ (addSess_keeps _ _)
    | extract_lets
    | split
    | dsimp -zeta only

theorem rebuildStill_keeps (x : Session) (s : State) : Keeps s (rebuildStill x s) := by
  unfold rebuildStill
  repeat' first
    | assumption
    | with_reducible exact Keeps.refl _
    | with_reducible apply Keeps.trans ?_ (truncatedRecord_keeps _ _ _ _)
    | with_reducible apply Keeps.trans ?_ (checkIngot_keeps _ _)
    | with_reducible apply Keeps.trans ?_ (addSess_keeps _ _)
    | extract_lets
    | (with_reducible apply Keeps.lit ?_ ?_ ?_ ?_ ?_ ?_); (on_goal 2 => rfl); (on_goal 2 => rfl); (on_goal 2 => rfl); (on_goal 2 => rfl); (on_goal 2 => rfl); first | assumption | with_reducible exact Keeps.refl _ | with_reducible apply Keeps.trans ?_ (truncatedRecord_keeps _ _ _ _) | with_reducible apply Keeps.trans ?_ (checkIngot_keeps _ _) | with_reducible apply Keeps.trans ?_ (addSess_keeps _ _) | split
    | split
    | dsimp -zeta only

theorem unrestore_keeps (h : Nat) (s : State) : Keeps s (unrestore h s) := by
  unfold unrestore
  repeat' first
    | assumption
    | with_reducible exact Keeps.refl _
    | (with_reducible apply Keeps.lit ?_ ?_ ?_ ?_ ?_ ?_); (on_goal 2 => rfl); (on_goal 2 => rfl); (on_goal 2 => rfl); (on_goal 2 => rfl); (on_goal 2 => rfl); first | assumption | with_reducible exact Keeps.refl _
    | dsimp -zeta only

theorem rebuildOne_keeps (l : List Anchor) (h : Nat) (s : State) : Keeps s (rebuildOne l h s) := by
  unfold rebuildOne
  repeat' first
    | assumption
    | with_reducible exact Keeps.refl _
    | with_reducible apply Keeps.trans ?_ (unrestore_keeps _ _)
    | with_reducible apply Keeps.trans ?_ (rebuildStill_keeps _ _)
    | with_reducible apply Keeps.trans ?_ (rebuildOpen_keeps _ _ _)
    | (with_reducible apply Keeps.lit ?_ ?_ ?_ ?_ ?_ ?_); (on_goal 2 => rfl); (on_goal 2 => rfl); (on_goal 2 => rfl); (on_goal 2 => rfl); (on_goal 2 => rfl); first | assumption | with_reducible exact Keeps.refl _ | with_reducible apply Keeps.trans ?_ (unrestore_keeps _ _) | with_reducible apply Keeps.trans ?_ (rebuildStill_keeps _ _) | with_reducible apply Keeps.trans ?_ (rebuildOpen_keeps _ _ _) | split
    | split
    | dsimp -zeta only

theorem rebuildAnchors_keeps (s : State) : Keeps s (rebuildAnchors s) := by
  unfold rebuildAnchors
  repeat' first
    | assumption
    | with_reducible exact Keeps.refl _
    | with_reducible apply Keeps.trans ?_ (forEach_keeps _ _ _ (fun _ _ => ?_))
    | with_reducible apply Keeps.trans ?_ (rebuildOne_keeps _ _ _)
    | with_reducible apply Keeps.trans ?_ (settleRestored_keeps _ _)
    | with_reducible apply Keeps.trans ?_ (settleObjects_keeps _)
    | with_reducible apply Keeps.trans ?_ (reanchor_keeps _)
    | extract_lets
    | dsimp -zeta only

theorem fromIngotHead_keeps (o : Obj) (s : State) : Keeps s (fromIngotHead o s) := by
  unfold fromIngotHead
  repeat' first
    | assumption
    | with_reducible exact Keeps.refl _
    | with_reducible apply Keeps.trans ?_ (unrestore_keeps _ _)
    | with_reducible apply Keeps.trans ?_ (rebuildStill_keeps _ _)
    | (with_reducible apply Keeps.lit ?_ ?_ ?_ ?_ ?_ ?_); (on_goal 2 => rfl); (on_goal 2 => rfl); (on_goal 2 => rfl); (on_goal 2 => rfl); (on_goal 2 => rfl); first | assumption | with_reducible exact Keeps.refl _ | with_reducible apply Keeps.trans ?_ (unrestore_keeps _ _) | with_reducible apply Keeps.trans ?_ (rebuildStill_keeps _ _) | split
    | split
    | dsimp -zeta only

theorem reportLost_keeps (h tenant : Nat) (x : Option Session) (s : State) : Keeps s (reportLost h tenant x s) := by
  unfold reportLost
  repeat' first
    | assumption
    | with_reducible exact Keeps.refl _
    | with_reducible apply Keeps.trans ?_ (unrestore_keeps _ _)
    | with_reducible apply Keeps.trans ?_ (loseSession_keeps _ _ _)
    | with_reducible apply Keeps.trans ?_ (addSess_keeps _ _)
    | extract_lets
    | (with_reducible apply Keeps.lit ?_ ?_ ?_ ?_ ?_ ?_); (on_goal 2 => rfl); (on_goal 2 => rfl); (on_goal 2 => rfl); (on_goal 2 => rfl); (on_goal 2 => rfl); first | assumption | with_reducible exact Keeps.refl _ | with_reducible apply Keeps.trans ?_ (unrestore_keeps _ _) | with_reducible apply Keeps.trans ?_ (loseSession_keeps _ _ _) | with_reducible apply Keeps.trans ?_ (addSess_keeps _ _) | split
    | split
    | dsimp -zeta only

theorem rebuildStore_keeps (anchorOk : Bool) (s : State) : Keeps s (rebuildStore anchorOk s) := by
  unfold rebuildStore
  repeat' first
    | assumption
    | with_reducible exact Keeps.refl _
    | with_reducible apply Keeps.trans ?_ (forEach_keeps _ _ _ (fun _ _ => ?_))
    | with_reducible apply Keeps.trans ?_ (reportLost_keeps _ _ _ _)
    | with_reducible apply Keeps.trans ?_ (fromIngotHead_keeps _ _)
    | with_reducible apply Keeps.trans ?_ (settleObjects_keeps _)
    | with_reducible apply Keeps.trans ?_ (reanchor_keeps _)
    | extract_lets
    | split
    | dsimp -zeta only

theorem putSet_keeps (o : OpenSet) (s : State) : Keeps s (putSet o s) := by
  unfold putSet
  repeat' first
    | assumption
    | with_reducible exact Keeps.refl _
    | (with_reducible apply Keeps.lit ?_ ?_ ?_ ?_ ?_ ?_); (on_goal 2 => rfl); (on_goal 2 => rfl); (on_goal 2 => rfl); (on_goal 2 => rfl); (on_goal 2 => rfl); first | assumption | with_reducible exact Keeps.refl _
    | dsimp -zeta only

theorem dropSet_keeps (p : Nat) (s : State) : Keeps s (dropSet p s) := by
  unfold dropSet
  repeat' first
    | assumption
    | with_reducible exact Keeps.refl _
    | (with_reducible apply Keeps.lit ?_ ?_ ?_ ?_ ?_ ?_); (on_goal 2 => rfl); (on_goal 2 => rfl); (on_goal 2 => rfl); (on_goal 2 => rfl); (on_goal 2 => rfl); first | assumption | with_reducible exact Keeps.refl _
    | dsimp -zeta only

theorem mirrored_keeps (old : Staging) (q : Open) (o : OCode) (payload : List Byte) (s : State) : Keeps s (mirrored old q o payload s) := by
  unfold mirrored
  repeat' first
    | assumption
    | with_reducible exact Keeps.refl _
    | with_reducible apply Keeps.trans ?_ (answerMb_keeps _ _ _ _)
    | extract_lets
    | (with_reducible apply Keeps.lit ?_ ?_ ?_ ?_ ?_ ?_); (on_goal 2 => rfl); (on_goal 2 => rfl); (on_goal 2 => rfl); (on_goal 2 => rfl); (on_goal 2 => rfl); first | assumption | with_reducible exact Keeps.refl _ | with_reducible apply Keeps.trans ?_ (answerMb_keeps _ _ _ _) | split
    | split
    | dsimp -zeta only

theorem execConfigurationMirrorAck_keeps (s : State) : OKeeps s (execConfigurationMirrorAck s) := by
  unfold execConfigurationMirrorAck
  repeat' first
    | assumption
    | with_reducible exact Keeps.refl _
    | with_reducible apply OKeeps.next ?_
    | exact True.intro
    | with_reducible apply Keeps.trans ?_ (answerMb_keeps _ _ _ _)
    | (with_reducible apply Keeps.lit ?_ ?_ ?_ ?_ ?_ ?_); (on_goal 2 => rfl); (on_goal 2 => rfl); (on_goal 2 => rfl); (on_goal 2 => rfl); (on_goal 2 => rfl); first | assumption | with_reducible exact Keeps.refl _ | with_reducible apply Keeps.trans ?_ (answerMb_keeps _ _ _ _) | split
    | split
    | dsimp -zeta only

theorem stageItems_keeps (items : List Item) (q : Open) (s : State) : Keeps s (stageItems items q s) := by
  unfold stageItems
  repeat' first
    | assumption
    | with_reducible exact Keeps.refl _
    | with_reducible apply Keeps.trans ?_ (mirrored_keeps _ _ _ _ _)
    | with_reducible apply Keeps.trans ?_ (putSet_keeps _ _)
    | with_reducible apply Keeps.trans ?_ (answerMb_keeps _ _ _ _)
    | extract_lets
    | (with_reducible apply Keeps.lit ?_ ?_ ?_ ?_ ?_ ?_); (on_goal 2 => rfl); (on_goal 2 => rfl); (on_goal 2 => rfl); (on_goal 2 => rfl); (on_goal 2 => rfl); first | assumption | with_reducible exact Keeps.refl _ | with_reducible apply Keeps.trans ?_ (mirrored_keeps _ _ _ _ _) | with_reducible apply Keeps.trans ?_ (putSet_keeps _ _) | with_reducible apply Keeps.trans ?_ (answerMb_keeps _ _ _ _) | split
    | split
    | dsimp -zeta only

theorem execStage_keeps (r : MbReq) (items : List Item) (s : State) : OKeeps s (execStage r items s) := by
  unfold execStage
  repeat' first
    | assumption
    | with_reducible exact Keeps.refl _
    | with_reducible apply OKeeps.next ?_
    | exact True.intro
    | with_reducible apply Keeps.trans ?_ (stageItems_keeps _ _ _)
    | with_reducible apply Keeps.trans ?_ (mbSimple_keeps _ _ _ _ _ (fun _ _ => ?_) _)
    | dsimp -zeta only

theorem afterAccepted_keeps (s : State) : Keeps s (afterAccepted s) := by
  unfold afterAccepted
  repeat' first
    | assumption
    | with_reducible exact Keeps.refl _
    | with_reducible apply Keeps.trans ?_ (forEach_keeps _ _ _ (fun _ _ => ?_))
    | with_reducible apply Keeps.trans ?_ (applyItems_keeps _ _ _)
    | dsimp -zeta only

theorem checkOpen_keeps (cursor : Nat) (q : Open) (s : State) : Keeps s (checkOpen cursor q s) := by
  unfold checkOpen
  repeat' first
    | assumption
    | with_reducible exact Keeps.refl _
    | with_reducible apply Keeps.trans ?_ (afterAccepted_keeps _)
    | with_reducible apply Keeps.trans ?_ (putSet_keeps _ _)
    | with_reducible apply Keeps.trans ?_ (answerMb_keeps _ _ _ _)
    | extract_lets
    | (with_reducible apply Keeps.lit ?_ ?_ ?_ ?_ ?_ ?_); (on_goal 2 => rfl); (on_goal 2 => rfl); (on_goal 2 => rfl); (on_goal 2 => rfl); (on_goal 2 => rfl); first | assumption | with_reducible exact Keeps.refl _ | with_reducible apply Keeps.trans ?_ (afterAccepted_keeps _) | with_reducible apply Keeps.trans ?_ (putSet_keeps _ _) | with_reducible apply Keeps.trans ?_ (answerMb_keeps _ _ _ _) | split
    | split
    | dsimp -zeta only

theorem execCheck_keeps (r : MbReq) (cursor : Nat) (s : State) : OKeeps s (execCheck r cursor s) := by
  unfold execCheck
  repeat' first
    | assumption
    | with_reducible exact Keeps.refl _
    | with_reducible apply OKeeps.next ?_
    | exact True.intro
    | with_reducible apply Keeps.trans ?_ (checkOpen_keeps _ _ _)
    | with_reducible apply Keeps.trans ?_ (mbSimple_keeps _ _ _ _ _ (fun _ _ => ?_) _)
    | dsimp -zeta only

theorem acceptCommit_keeps (token pour : Nat) (q : Open) (s : State) : Keeps s (acceptCommit token pour q s) := by
  unfold acceptCommit
  repeat' first
    | assumption
    | with_reducible exact Keeps.refl _
    | with_reducible apply Keeps.trans ?_ (afterAccepted_keeps _)
    | with_reducible apply Keeps.trans ?_ (mirrored_keeps _ _ _ _ _)
    | with_reducible apply Keeps.trans ?_ (dropSet_keeps _ _)
    | with_reducible apply Keeps.trans ?_ (putSet_keeps _ _)
    | with_reducible apply Keeps.trans ?_ (answerMb_keeps _ _ _ _)
    | extract_lets
    | (with_reducible apply Keeps.lit ?_ ?_ ?_ ?_ ?_ ?_); (on_goal 2 => rfl); (on_goal 2 => rfl); (on_goal 2 => rfl); (on_goal 2 => rfl); (on_goal 2 => rfl); first | assumption | with_reducible exact Keeps.refl _ | with_reducible apply Keeps.trans ?_ (afterAccepted_keeps _) | with_reducible apply Keeps.trans ?_ (mirrored_keeps _ _ _ _ _) | with_reducible apply Keeps.trans ?_ (dropSet_keeps _ _) | with_reducible apply Keeps.trans ?_ (putSet_keeps _ _) | with_reducible apply Keeps.trans ?_ (answerMb_keeps _ _ _ _) | split
    | split
    | dsimp -zeta only

theorem execCommit_keeps (r : MbReq) (token pour : Nat) (s : State) : OKeeps s (execCommit r token pour s) := by
  unfold execCommit
  repeat' first
    | assumption
    | with_reducible exact Keeps.refl _
    | with_reducible apply OKeeps.next ?_
    | exact True.intro
    | with_reducible apply Keeps.trans ?_ (acceptCommit_keeps _ _ _ _)
    | with_reducible apply Keeps.trans ?_ (mbSimple_keeps _ _ _ _ _ (fun _ _ => ?_) _)
    | dsimp -zeta only

theorem refuseComposition_keeps (c : Commit) (s : State) : Keeps s (refuseComposition c s) := by
  unfold refuseComposition
  repeat' first
    | assumption
    | with_reducible exact Keeps.refl _
    | with_reducible apply Keeps.trans ?_ (answerMb_keeps _ _ _ _)
    | (with_reducible apply Keeps.lit ?_ ?_ ?_ ?_ ?_ ?_); (on_goal 2 => rfl); (on_goal 2 => rfl); (on_goal 2 => rfl); (on_goal 2 => rfl); (on_goal 2 => rfl); first | assumption | with_reducible exact Keeps.refl _ | with_reducible apply Keeps.trans ?_ (answerMb_keeps _ _ _ _) | split
    | split
    | dsimp -zeta only

theorem execDiscardSet_keeps (r : MbReq) (s : State) : OKeeps s (execDiscardSet r s) := by
  unfold execDiscardSet
  repeat' first
    | assumption
    | with_reducible exact Keeps.refl _
    | with_reducible apply OKeeps.next ?_
    | exact True.intro
    | with_reducible apply Keeps.trans ?_ (mirrored_keeps _ _ _ _ _)
    | with_reducible apply Keeps.trans ?_ (dropSet_keeps _ _)
    | with_reducible apply Keeps.trans ?_ (mbSimple_keeps _ _ _ _ _ (fun _ _ => ?_) _)
    | with_reducible apply Keeps.trans ?_ (answerMb_keeps _ _ _ _)
    | split
    | dsimp -zeta only

theorem execDiscardCommit_keeps (r : MbReq) (s : State) : OKeeps s (execDiscardCommit r s) := by
  unfold execDiscardCommit
  repeat' first
    | assumption
    | with_reducible exact Keeps.refl _
    | with_reducible apply OKeeps.next ?_
    | exact True.intro
    | with_reducible apply Keeps.trans ?_ (refuseComposition_keeps _ _)
    | with_reducible apply Keeps.trans ?_ (mirrored_keeps _ _ _ _ _)
    | with_reducible apply Keeps.trans ?_ (mbSimple_keeps _ _ _ _ _ (fun _ _ => ?_) _)
    | with_reducible apply Keeps.trans ?_ (answerMb_keeps _ _ _ _)
    | (with_reducible apply Keeps.lit ?_ ?_ ?_ ?_ ?_ ?_); (on_goal 2 => rfl); (on_goal 2 => rfl); (on_goal 2 => rfl); (on_goal 2 => rfl); (on_goal 2 => rfl); first | assumption | with_reducible exact Keeps.refl _ | with_reducible apply Keeps.trans ?_ (refuseComposition_keeps _ _) | with_reducible apply Keeps.trans ?_ (mirrored_keeps _ _ _ _ _) | with_reducible apply Keeps.trans ?_ (mbSimple_keeps _ _ _ _ _ (fun _ _ => ?_) _) | with_reducible apply Keeps.trans ?_ (answerMb_keeps _ _ _ _) | split
    | split
    | dsimp -zeta only

theorem tellRegistry_keeps (tenant partition : Nat) (present : Bool) (s : State) : Keeps s (tellRegistry tenant partition present s) := by
  unfold tellRegistry
  repeat' first
    | assumption
    | with_reducible exact Keeps.refl _
    | with_reducible apply Keeps.trans ?_ (sendMgr_keeps _ _ _ _ _ _ _)
    | extract_lets
    | (with_reducible apply Keeps.lit ?_ ?_ ?_ ?_ ?_ ?_); (on_goal 2 => rfl); (on_goal 2 => rfl); (on_goal 2 => rfl); (on_goal 2 => rfl); (on_goal 2 => rfl); first | assumption | with_reducible exact Keeps.refl _ | with_reducible apply Keeps.trans ?_ (sendMgr_keeps _ _ _ _ _ _ _) | split
    | split
    | dsimp -zeta only

theorem retireStart_keeps (t : Nat) (s : State) : Keeps s (retireStart t s) := by
  unfold retireStart
  repeat' first
    | assumption
    | with_reducible exact Keeps.refl _
    | with_reducible apply Keeps.trans ?_ (forEach_keeps _ _ _ (fun _ _ => ?_))
    | with_reducible apply Keeps.trans ?_ (stopWaiting_keeps _ _)
    | with_reducible apply Keeps.trans ?_ (freeSpent_keeps _ _)
    | with_reducible apply Keeps.trans ?_ (endRequest_keeps _ _ _ _ _ _ _ _)
    | with_reducible apply Keeps.trans ?_ (abortMigration_keeps _ _ _)
    | with_reducible apply Keeps.trans ?_ (onTen_keeps _ _ _)
    | extract_lets
    | (with_reducible apply Keeps.lit ?_ ?_ ?_ ?_ ?_ ?_); (on_goal 2 => rfl); (on_goal 2 => rfl); (on_goal 2 => rfl); (on_goal 2 => rfl); (on_goal 2 => rfl); first | assumption | with_reducible exact Keeps.refl _ | with_reducible apply Keeps.trans ?_ (forEach_keeps _ _ _ (fun _ _ => ?_)) | with_reducible apply Keeps.trans ?_ (stopWaiting_keeps _ _) | with_reducible apply Keeps.trans ?_ (freeSpent_keeps _ _) | with_reducible apply Keeps.trans ?_ (endRequest_keeps _ _ _ _ _ _ _ _) | with_reducible apply Keeps.trans ?_ (abortMigration_keeps _ _ _) | with_reducible apply Keeps.trans ?_ (onTen_keeps _ _ _)
    | dsimp -zeta only

theorem carryOut_keeps (i : Item) (s : State) : Keeps s (carryOut i s) := by
  unfold carryOut
  repeat' first
    | assumption
    | with_reducible exact Keeps.refl _
    | with_reducible apply Keeps.trans ?_ (retireStart_keeps _ _)
    | with_reducible apply Keeps.trans ?_ (tellRegistry_keeps _ _ _ _)
    | with_reducible apply Keeps.trans ?_ (restoreByItem_keeps _ _)
    | (with_reducible apply Keeps.lit ?_ ?_ ?_ ?_ ?_ ?_); (on_goal 2 => rfl); (on_goal 2 => rfl); (on_goal 2 => rfl); (on_goal 2 => rfl); (on_goal 2 => rfl); first | assumption | with_reducible exact Keeps.refl _ | with_reducible apply Keeps.trans ?_ (retireStart_keeps _ _) | with_reducible apply Keeps.trans ?_ (tellRegistry_keeps _ _ _ _) | with_reducible apply Keeps.trans ?_ (restoreByItem_keeps _ _) | split
    | split
    | dsimp -zeta only

theorem commitRecord_keeps (o : OCode) (fn number pour : Nat) (s : State) : Keeps s (commitRecord o fn number pour s) := by
  unfold commitRecord
  repeat' first
    | assumption
    | with_reducible exact Keeps.refl _
    | with_reducible apply Keeps.trans ?_ (answerFn_keeps _ _ _)
    | dsimp -zeta only

theorem logViolations_keeps (vs : List Violation) (s : State) : Keeps s (logViolations vs s) := by
  unfold logViolations
  repeat' first
    | assumption
    | with_reducible exact Keeps.refl _
    | with_reducible apply Keeps.trans ?_ (forEach_keeps _ _ _ (fun _ _ => ?_))
    | with_reducible apply Keeps.trans ?_ (note_keeps _ _ _)
    | dsimp -zeta only

theorem readRosters_keeps (items : List Item) (s : State) : Keeps s (readRosters items s) := by
  unfold readRosters
  repeat' first
    | assumption
    | with_reducible exact Keeps.refl _
    | with_reducible apply Keeps.trans ?_ (forEach_keeps _ _ _ (fun _ _ => ?_))
    | with_reducible apply Keeps.trans ?_ (expire_keeps _ _)
    | (with_reducible apply Keeps.lit ?_ ?_ ?_ ?_ ?_ ?_); (on_goal 2 => rfl); (on_goal 2 => rfl); (on_goal 2 => rfl); (on_goal 2 => rfl); (on_goal 2 => rfl); first | assumption | with_reducible exact Keeps.refl _ | with_reducible apply Keeps.trans ?_ (forEach_keeps _ _ _ (fun _ _ => ?_)) | with_reducible apply Keeps.trans ?_ (expire_keeps _ _) | split
    | split
    | dsimp -zeta only

theorem applyCommit_keeps (c : Commit) (s0 : State) : Keeps s0 (applyCommit c s0) := by
  unfold applyCommit
  repeat' first
    | assumption
    | with_reducible exact Keeps.refl _
    | with_reducible apply Keeps.trans ?_ (forEach_keeps _ _ _ (fun _ _ => ?_))
    | with_reducible apply Keeps.trans ?_ (readRosters_keeps _ _)
    | with_reducible apply Keeps.trans ?_ (logViolations_keeps _ _)
    | with_reducible apply Keeps.trans ?_ (commitRecord_keeps _ _ _ _ _)
    | with_reducible apply Keeps.trans ?_ (carryOut_keeps _ _)
    | with_reducible apply Keeps.trans ?_ (applyItems_keeps _ _ _)
    | with_reducible apply Keeps.trans ?_ (publishOrWait_keeps _ _)
    | with_reducible apply Keeps.trans ?_ (answerMb_keeps _ _ _ _)
    | extract_lets
    | (with_reducible apply Keeps.lit ?_ ?_ ?_ ?_ ?_ ?_); (on_goal 2 => rfl); (on_goal 2 => rfl); (on_goal 2 => rfl); (on_goal 2 => rfl); (on_goal 2 => rfl); first | assumption | with_reducible exact Keeps.refl _ | with_reducible apply Keeps.trans ?_ (forEach_keeps _ _ _ (fun _ _ => ?_)) | with_reducible apply Keeps.trans ?_ (readRosters_keeps _ _) | with_reducible apply Keeps.trans ?_ (logViolations_keeps _ _) | with_reducible apply Keeps.trans ?_ (commitRecord_keeps _ _ _ _ _) | with_reducible apply Keeps.trans ?_ (carryOut_keeps _ _) | with_reducible apply Keeps.trans ?_ (applyItems_keeps _ _ _) | with_reducible apply Keeps.trans ?_ (publishOrWait_keeps _ _) | with_reducible apply Keeps.trans ?_ (answerMb_keeps _ _ _ _) | split
    | split
    | dsimp -zeta only

theorem applyDue_keeps : ∀ (n : Nat) (s : State), Keeps s (applyDue n s)
  | 0, s => Keeps.refl s
  | k + 1, s => by
    unfold applyDue
    repeat' first
      | exact Keeps.refl _
      | exact (applyCommit_keeps _ _).trans (applyDue_keeps k _)
      | split

theorem writeState_keeps (s : State) : Keeps s (writeState s) := by
  unfold writeState
  repeat' first
    | assumption
    | with_reducible exact Keeps.refl _
    | with_reducible apply Keeps.trans ?_ (writeSlot_keeps _ _ _)
    | with_reducible apply Keeps.trans ?_ (hrRewrite_keeps _ _)
    | extract_lets
    | (with_reducible apply Keeps.lit ?_ ?_ ?_ ?_ ?_ ?_); (on_goal 2 => rfl); (on_goal 2 => rfl); (on_goal 2 => rfl); (on_goal 2 => rfl); (on_goal 2 => rfl); first | assumption | with_reducible exact Keeps.refl _ | with_reducible apply Keeps.trans ?_ (writeSlot_keeps _ _ _) | with_reducible apply Keeps.trans ?_ (hrRewrite_keeps _ _) | split
    | split
    | dsimp -zeta only

theorem persistDue_keeps (s : State) : Keeps s (persistDue s) := by
  unfold persistDue
  repeat' first
    | assumption
    | with_reducible exact Keeps.refl _
    | with_reducible apply Keeps.trans ?_ (forEach_keeps _ _ _ (fun _ _ => ?_))
    | with_reducible apply Keeps.trans ?_ (writeState_keeps _)
    | with_reducible apply Keeps.trans ?_ (answerMb_keeps _ _ _ _)
    | extract_lets
    | (with_reducible apply Keeps.lit ?_ ?_ ?_ ?_ ?_ ?_); (on_goal 2 => rfl); (on_goal 2 => rfl); (on_goal 2 => rfl); (on_goal 2 => rfl); (on_goal 2 => rfl); first | assumption | with_reducible exact Keeps.refl _ | with_reducible apply Keeps.trans ?_ (forEach_keeps _ _ _ (fun _ _ => ?_)) | with_reducible apply Keeps.trans ?_ (writeState_keeps _) | with_reducible apply Keeps.trans ?_ (answerMb_keeps _ _ _ _) | split
    | split
    | dsimp -zeta only

theorem execPersistState_keeps (r : MbReq) (s : State) : OKeeps s (execPersistState r s) := by
  unfold execPersistState
  repeat' first
    | assumption
    | with_reducible exact Keeps.refl _
    | with_reducible apply OKeeps.next ?_
    | exact True.intro
    | with_reducible apply Keeps.trans ?_ (persistDue_keeps _)
    | with_reducible apply Keeps.trans ?_ (mbSimple_keeps _ _ _ _ _ (fun _ _ => ?_) _)
    | with_reducible apply Keeps.trans ?_ (answerMb_keeps _ _ _ _)
    | extract_lets
    | (with_reducible apply Keeps.lit ?_ ?_ ?_ ?_ ?_ ?_); (on_goal 2 => rfl); (on_goal 2 => rfl); (on_goal 2 => rfl); (on_goal 2 => rfl); (on_goal 2 => rfl); first | assumption | with_reducible exact Keeps.refl _ | with_reducible apply Keeps.trans ?_ (persistDue_keeps _) | with_reducible apply Keeps.trans ?_ (mbSimple_keeps _ _ _ _ _ (fun _ _ => ?_) _) | with_reducible apply Keeps.trans ?_ (answerMb_keeps _ _ _ _) | split
    | split
    | dsimp -zeta only

theorem execPersistImage_keeps (r : MbReq) (img : Option Image) (s : State) : OKeeps s (execPersistImage r img s) := by
  unfold execPersistImage
  repeat' first
    | assumption
    | with_reducible exact Keeps.refl _
    | with_reducible apply OKeeps.next ?_
    | exact True.intro
    | with_reducible apply Keeps.trans ?_ (writeSlot_keeps _ _ _)
    | with_reducible apply Keeps.trans ?_ (mbSimple_keeps _ _ _ _ _ (fun _ _ => ?_) _)
    | with_reducible apply Keeps.trans ?_ (answerMb_keeps _ _ _ _)
    | with_reducible apply Keeps.trans ?_ (hrRewrite_keeps _ _)
    | extract_lets
    | (with_reducible apply Keeps.lit ?_ ?_ ?_ ?_ ?_ ?_); (on_goal 2 => rfl); (on_goal 2 => rfl); (on_goal 2 => rfl); (on_goal 2 => rfl); (on_goal 2 => rfl); first | assumption | with_reducible exact Keeps.refl _ | with_reducible apply Keeps.trans ?_ (writeSlot_keeps _ _ _) | with_reducible apply Keeps.trans ?_ (mbSimple_keeps _ _ _ _ _ (fun _ _ => ?_) _) | with_reducible apply Keeps.trans ?_ (answerMb_keeps _ _ _ _) | with_reducible apply Keeps.trans ?_ (hrRewrite_keeps _ _) | split
    | split
    | dsimp -zeta only

theorem execTenantKeyDestroyed_keeps (tenant : Nat) (s : State) : OKeeps s (execTenantKeyDestroyed tenant s) := by
  unfold execTenantKeyDestroyed
  repeat' first
    | assumption
    | with_reducible exact Keeps.refl _
    | with_reducible apply OKeeps.next ?_
    | exact True.intro
    | with_reducible apply Keeps.trans ?_ (hrRewrite_keeps _ _)
    | with_reducible apply Keeps.trans ?_ (onTen_keeps _ _ _)
    | extract_lets
    | (with_reducible apply Keeps.lit ?_ ?_ ?_ ?_ ?_ ?_); (on_goal 2 => rfl); (on_goal 2 => rfl); (on_goal 2 => rfl); (on_goal 2 => rfl); (on_goal 2 => rfl); first | assumption | with_reducible exact Keeps.refl _ | with_reducible apply Keeps.trans ?_ (hrRewrite_keeps _ _) | with_reducible apply Keeps.trans ?_ (onTen_keeps _ _ _) | split
    | split
    | dsimp -zeta only

theorem clearTenant_keeps (t : Nat) (s : State) : Keeps s (clearTenant t s) := by
  unfold clearTenant
  repeat' first
    | assumption
    | with_reducible exact Keeps.refl _
    | with_reducible apply Keeps.trans ?_ (forEach_keeps _ _ _ (fun _ _ => ?_))
    | with_reducible apply Keeps.trans ?_ (maskSlot_keeps _ _)
    | with_reducible apply Keeps.trans ?_ (abandonOp_keeps _ _ _)
    | with_reducible apply Keeps.trans ?_ (closeSession_keeps _ _)
    | with_reducible apply Keeps.trans ?_ (deleteObjs_keeps _ _ _)
    | with_reducible apply Keeps.trans ?_ (onTen_keeps _ _ _)
    | extract_lets
    | (with_reducible apply Keeps.lit ?_ ?_ ?_ ?_ ?_ ?_); (on_goal 2 => rfl); (on_goal 2 => rfl); (on_goal 2 => rfl); (on_goal 2 => rfl); (on_goal 2 => rfl); first | assumption | with_reducible exact Keeps.refl _ | with_reducible apply Keeps.trans ?_ (forEach_keeps _ _ _ (fun _ _ => ?_)) | with_reducible apply Keeps.trans ?_ (maskSlot_keeps _ _) | with_reducible apply Keeps.trans ?_ (abandonOp_keeps _ _ _) | with_reducible apply Keeps.trans ?_ (closeSession_keeps _ _) | with_reducible apply Keeps.trans ?_ (deleteObjs_keeps _ _ _) | with_reducible apply Keeps.trans ?_ (onTen_keeps _ _ _) | split
    | split
    | dsimp -zeta only

theorem execTenantDrainComplete_keeps (tenant : Nat) (s : State) : OKeeps s (execTenantDrainComplete tenant s) := by
  unfold execTenantDrainComplete
  repeat' first
    | assumption
    | with_reducible exact Keeps.refl _
    | with_reducible apply OKeeps.next ?_
    | exact True.intro
    | with_reducible apply Keeps.trans ?_ (clearTenant_keeps _ _)
    | (with_reducible apply Keeps.lit ?_ ?_ ?_ ?_ ?_ ?_); (on_goal 2 => rfl); (on_goal 2 => rfl); (on_goal 2 => rfl); (on_goal 2 => rfl); (on_goal 2 => rfl); first | assumption | with_reducible exact Keeps.refl _ | with_reducible apply Keeps.trans ?_ (clearTenant_keeps _ _) | split
    | split
    | dsimp -zeta only

theorem removalRecords_keeps (t : Tenant) (s : State) : Keeps s (removalRecords t s) := by
  unfold removalRecords
  repeat' first
    | assumption
    | with_reducible exact Keeps.refl _
    | with_reducible apply Keeps.trans ?_ (forEach_keeps _ _ _ (fun _ _ => ?_))
    | with_reducible apply Keeps.trans ?_ (answerFn_keeps _ _ _)
    | dsimp -zeta only

theorem execTenantRemovalComplete_keeps (tenant : Nat) (s : State) : OKeeps s (execTenantRemovalComplete tenant s) := by
  unfold execTenantRemovalComplete
  repeat' first
    | assumption
    | with_reducible exact Keeps.refl _
    | with_reducible apply OKeeps.next ?_
    | exact True.intro
    | with_reducible apply Keeps.trans ?_ (removalRecords_keeps _ _)
    | with_reducible apply Keeps.trans ?_ (tellRegistry_keeps _ _ _ _)
    | with_reducible apply Keeps.trans ?_ (healthSignal_keeps _ _ _)
    | extract_lets
    | (with_reducible apply Keeps.lit ?_ ?_ ?_ ?_ ?_ ?_); (on_goal 2 => rfl); (on_goal 2 => rfl); (on_goal 2 => rfl); (on_goal 2 => rfl); (on_goal 2 => rfl); first | assumption | with_reducible exact Keeps.refl _ | with_reducible apply Keeps.trans ?_ (removalRecords_keeps _ _) | with_reducible apply Keeps.trans ?_ (tellRegistry_keeps _ _ _ _) | with_reducible apply Keeps.trans ?_ (healthSignal_keeps _ _ _) | split
    | split
    | dsimp -zeta only

theorem execBindStreamComplete_keeps (model bytes : Nat) (readOk writeOk : Bool) (hash : List Byte) (s : State) : OKeeps s (execBindStreamComplete model bytes readOk writeOk hash s) := by
  unfold execBindStreamComplete
  repeat' first
    | assumption
    | with_reducible exact Keeps.refl _
    | with_reducible apply OKeeps.next ?_
    | exact True.intro
    | with_reducible apply Keeps.trans ?_ (fireState_keeps _)
    | with_reducible apply Keeps.trans ?_ (onModel_keeps _ _ _)
    | extract_lets
    | (with_reducible apply Keeps.lit ?_ ?_ ?_ ?_ ?_ ?_); (on_goal 2 => rfl); (on_goal 2 => rfl); (on_goal 2 => rfl); (on_goal 2 => rfl); (on_goal 2 => rfl); first | assumption | with_reducible exact Keeps.refl _ | with_reducible apply Keeps.trans ?_ (fireState_keeps _) | with_reducible apply Keeps.trans ?_ (onModel_keeps _ _ _) | split
    | split
    | dsimp -zeta only

theorem readAccounts_keeps (fn tenant : Nat) (peek : Bool) (cursor : Nat) (q : Open) (s : State) : Keeps s (readAccounts fn tenant peek cursor q s) := by
  unfold readAccounts
  repeat' first
    | assumption
    | with_reducible exact Keeps.refl _
    | with_reducible apply Keeps.trans ?_ (answerMb_keeps _ _ _ _)
    | extract_lets
    | (with_reducible apply Keeps.lit ?_ ?_ ?_ ?_ ?_ ?_); (on_goal 2 => rfl); (on_goal 2 => rfl); (on_goal 2 => rfl); (on_goal 2 => rfl); (on_goal 2 => rfl); first | assumption | with_reducible exact Keeps.refl _ | with_reducible apply Keeps.trans ?_ (answerMb_keeps _ _ _ _) | split
    | split
    | dsimp -zeta only

theorem execAccountRead_keeps (r : MbReq) (tenant : Nat) (peek : Bool) (cursor : Nat) (s : State) : OKeeps s (execAccountRead r tenant peek cursor s) := by
  unfold execAccountRead
  repeat' first
    | assumption
    | with_reducible exact Keeps.refl _
    | with_reducible apply OKeeps.next ?_
    | exact True.intro
    | with_reducible apply Keeps.trans ?_ (readAccounts_keeps _ _ _ _ _ _)
    | with_reducible apply Keeps.trans ?_ (mbSimple_keeps _ _ _ _ _ (fun _ _ => ?_) _)
    | dsimp -zeta only

theorem answerAsker_keeps (o : OCode) (number slot length : Nat) (a : Asker) (s : State) : Keeps s (answerAsker o number slot length a s) := by
  unfold answerAsker
  repeat' first
    | assumption
    | with_reducible exact Keeps.refl _
    | with_reducible apply Keeps.trans ?_ (sendMgr_keeps _ _ _ _ _ _ _)
    | with_reducible apply Keeps.trans ?_ (answerMb_keeps _ _ _ _)
    | (with_reducible apply Keeps.lit ?_ ?_ ?_ ?_ ?_ ?_); (on_goal 2 => rfl); (on_goal 2 => rfl); (on_goal 2 => rfl); (on_goal 2 => rfl); (on_goal 2 => rfl); first | assumption | with_reducible exact Keeps.refl _ | with_reducible apply Keeps.trans ?_ (sendMgr_keeps _ _ _ _ _ _ _) | with_reducible apply Keeps.trans ?_ (answerMb_keeps _ _ _ _) | split
    | split
    | dsimp -zeta only

theorem answerAskers_keeps (o : OCode) (number slot length : Nat) (l : List Asker) (s : State) : Keeps s (answerAskers o number slot length l s) := by
  unfold answerAskers
  repeat' first
    | assumption
    | with_reducible exact Keeps.refl _
    | with_reducible apply Keeps.trans ?_ (forEach_keeps _ _ _ (fun _ _ => ?_))
    | with_reducible apply Keeps.trans ?_ (answerAsker_keeps _ _ _ _ _ _)
    | dsimp -zeta only

theorem answerStopped_keeps (a : Asker) (s : State) : Keeps s (answerStopped a s) := by
  unfold answerStopped
  repeat' first
    | assumption
    | with_reducible exact Keeps.refl _
    | with_reducible apply Keeps.trans ?_ (answerAsker_keeps _ _ _ _ _ _)
    | (with_reducible apply Keeps.lit ?_ ?_ ?_ ?_ ?_ ?_); (on_goal 2 => rfl); (on_goal 2 => rfl); (on_goal 2 => rfl); (on_goal 2 => rfl); (on_goal 2 => rfl); first | assumption | with_reducible exact Keeps.refl _ | with_reducible apply Keeps.trans ?_ (answerAsker_keeps _ _ _ _ _ _) | split
    | split
    | dsimp -zeta only

theorem beginCkpt_keeps (slot : Nat) (stop : Bool) (askers : List Asker) (s : State) : Keeps s (beginCkpt slot stop askers s) := by
  unfold beginCkpt
  repeat' first
    | assumption
    | with_reducible exact Keeps.refl _
    | extract_lets
    | (with_reducible apply Keeps.lit ?_ ?_ ?_ ?_ ?_ ?_); (on_goal 2 => rfl); (on_goal 2 => rfl); (on_goal 2 => rfl); (on_goal 2 => rfl); (on_goal 2 => rfl); first | assumption | with_reducible exact Keeps.refl _
    | dsimp -zeta only

theorem joinCkpt_keeps (a : Asker) (s : State) : Keeps s (joinCkpt a s) := by
  unfold joinCkpt
  repeat' first
    | assumption
    | with_reducible exact Keeps.refl _
    | (with_reducible apply Keeps.lit ?_ ?_ ?_ ?_ ?_ ?_); (on_goal 2 => rfl); (on_goal 2 => rfl); (on_goal 2 => rfl); (on_goal 2 => rfl); (on_goal 2 => rfl); first | assumption | with_reducible exact Keeps.refl _
    | dsimp -zeta only

theorem writeBases_keeps (s : State) : Keeps s (writeBases s) := by
  unfold writeBases
  repeat' first
    | assumption
    | with_reducible exact Keeps.refl _
    | with_reducible apply Keeps.trans ?_ (forEach_keeps _ _ _ (fun _ _ => ?_))
    | with_reducible apply Keeps.trans ?_ (flushJournal_keeps _ _)
    | with_reducible apply Keeps.trans ?_ (onHubStore_keeps _ _ _)
    | extract_lets
    | (with_reducible apply Keeps.lit ?_ ?_ ?_ ?_ ?_ ?_); (on_goal 2 => rfl); (on_goal 2 => rfl); (on_goal 2 => rfl); (on_goal 2 => rfl); (on_goal 2 => rfl); first | assumption | with_reducible exact Keeps.refl _ | with_reducible apply Keeps.trans ?_ (forEach_keeps _ _ _ (fun _ _ => ?_)) | with_reducible apply Keeps.trans ?_ (flushJournal_keeps _ _) | with_reducible apply Keeps.trans ?_ (onHubStore_keeps _ _ _)
    | dsimp -zeta only

theorem dropCommits_keeps (s : State) : Keeps s (dropCommits s) := by
  unfold dropCommits
  repeat' first
    | assumption
    | with_reducible exact Keeps.refl _
    | with_reducible apply Keeps.trans ?_ (forEach_keeps _ _ _ (fun _ _ => ?_))
    | with_reducible apply Keeps.trans ?_ (refuseComposition_keeps _ _)
    | extract_lets
    | (with_reducible apply Keeps.lit ?_ ?_ ?_ ?_ ?_ ?_); (on_goal 2 => rfl); (on_goal 2 => rfl); (on_goal 2 => rfl); (on_goal 2 => rfl); (on_goal 2 => rfl); first | assumption | with_reducible exact Keeps.refl _ | with_reducible apply Keeps.trans ?_ (forEach_keeps _ _ _ (fun _ _ => ?_)) | with_reducible apply Keeps.trans ?_ (refuseComposition_keeps _ _)
    | dsimp -zeta only

theorem joinStop_keeps (a : Asker) (s : State) : Keeps s (joinStop a s) := by
  unfold joinStop
  repeat' first
    | assumption
    | with_reducible exact Keeps.refl _
    | with_reducible apply Keeps.trans ?_ (joinCkpt_keeps _ _)
    | with_reducible apply Keeps.trans ?_ (answerStopped_keeps _ _)
    | with_reducible apply Keeps.trans ?_ (answerAsker_keeps _ _ _ _ _ _)
    | split
    | dsimp -zeta only

theorem noticeLive_keeps (a : Asker) (s : State) : Keeps s (noticeLive a s) := by
  unfold noticeLive
  repeat' first
    | assumption
    | with_reducible exact Keeps.refl _
    | with_reducible apply Keeps.trans ?_ (joinStop_keeps _ _)
    | with_reducible apply Keeps.trans ?_ (joinCkpt_keeps _ _)
    | with_reducible apply Keeps.trans ?_ (beginCkpt_keeps _ _ _ _)
    | with_reducible apply Keeps.trans ?_ (answerStopped_keeps _ _)
    | with_reducible apply Keeps.trans ?_ (answerAsker_keeps _ _ _ _ _ _)
    | (with_reducible apply Keeps.lit ?_ ?_ ?_ ?_ ?_ ?_); (on_goal 2 => rfl); (on_goal 2 => rfl); (on_goal 2 => rfl); (on_goal 2 => rfl); (on_goal 2 => rfl); first | assumption | with_reducible exact Keeps.refl _ | with_reducible apply Keeps.trans ?_ (joinStop_keeps _ _) | with_reducible apply Keeps.trans ?_ (joinCkpt_keeps _ _) | with_reducible apply Keeps.trans ?_ (beginCkpt_keeps _ _ _ _) | with_reducible apply Keeps.trans ?_ (answerStopped_keeps _ _) | with_reducible apply Keeps.trans ?_ (answerAsker_keeps _ _ _ _ _ _) | split
    | split
    | dsimp -zeta only

theorem execPreemptLive_keeps (r : MbReq) (s : State) : OKeeps s (execPreemptLive r s) := by
  unfold execPreemptLive
  repeat' first
    | assumption
    | with_reducible exact Keeps.refl _
    | with_reducible apply OKeeps.next ?_
    | exact True.intro
    | with_reducible apply Keeps.trans ?_ (noticeLive_keeps _ _)
    | with_reducible apply Keeps.trans ?_ (mbSimple_keeps _ _ _ _ _ (fun _ _ => ?_) _)
    | dsimp -zeta only

theorem execPreemptNArmed_keeps (s : State) : OKeeps s (execPreemptNArmed s) := by
  unfold execPreemptNArmed
  repeat' first
    | assumption
    | with_reducible exact Keeps.refl _
    | with_reducible apply OKeeps.next ?_
    | exact True.intro
    | (with_reducible apply Keeps.lit ?_ ?_ ?_ ?_ ?_ ?_); (on_goal 2 => rfl); (on_goal 2 => rfl); (on_goal 2 => rfl); (on_goal 2 => rfl); (on_goal 2 => rfl); first | assumption | with_reducible exact Keeps.refl _ | split
    | split
    | dsimp -zeta only

theorem holdShut_keeps (q : Open) (s : State) : Keeps s (holdShut q s) := by
  unfold holdShut
  repeat' first
    | assumption
    | with_reducible exact Keeps.refl _
    | (with_reducible apply Keeps.lit ?_ ?_ ?_ ?_ ?_ ?_); (on_goal 2 => rfl); (on_goal 2 => rfl); (on_goal 2 => rfl); (on_goal 2 => rfl); (on_goal 2 => rfl); first | assumption | with_reducible exact Keeps.refl _
    | dsimp -zeta only

theorem hubRoll_keeps (q : Open) (s : State) : Keeps s (hubRoll q s) := by
  unfold hubRoll
  repeat' first
    | assumption
    | with_reducible exact Keeps.refl _
    | with_reducible apply Keeps.trans ?_ (answerMb_keeps _ _ _ _)
    | with_reducible apply Keeps.trans ?_ (onHub_keeps _ _ _)
    | extract_lets
    | (with_reducible apply Keeps.lit ?_ ?_ ?_ ?_ ?_ ?_); (on_goal 2 => rfl); (on_goal 2 => rfl); (on_goal 2 => rfl); (on_goal 2 => rfl); (on_goal 2 => rfl); first | assumption | with_reducible exact Keeps.refl _ | with_reducible apply Keeps.trans ?_ (answerMb_keeps _ _ _ _) | with_reducible apply Keeps.trans ?_ (onHub_keeps _ _ _) | split
    | split
    | dsimp -zeta only

theorem execHubRoll_keeps (r : MbReq) (s : State) : OKeeps s (execHubRoll r s) := by
  unfold execHubRoll
  repeat' first
    | assumption
    | with_reducible exact Keeps.refl _
    | with_reducible apply OKeeps.next ?_
    | exact True.intro
    | with_reducible apply Keeps.trans ?_ (hubRoll_keeps _ _)
    | with_reducible apply Keeps.trans ?_ (holdShut_keeps _ _)
    | with_reducible apply Keeps.trans ?_ (mbRun_keeps _ _ _ _ _ _ (fun _ _ => ?_) (fun _ _ => ?_) _)
    | dsimp -zeta only

theorem sendAck_keeps (peer seq handle code : Nat) (hints : List Nat) (s : State) : Keeps s (sendAck peer seq handle code hints s) := by
  unfold sendAck
  repeat' first
    | assumption
    | with_reducible exact Keeps.refl _
    | extract_lets
    | (with_reducible apply Keeps.lit ?_ ?_ ?_ ?_ ?_ ?_); (on_goal 2 => rfl); (on_goal 2 => rfl); (on_goal 2 => rfl); (on_goal 2 => rfl); (on_goal 2 => rfl); first | assumption | with_reducible exact Keeps.refl _
    | dsimp -zeta only

theorem ackDone_keeps (h : MgrHdr) (s : State) : Keeps s (ackDone h s) := by
  unfold ackDone
  repeat' first
    | assumption
    | with_reducible exact Keeps.refl _
    | with_reducible apply Keeps.trans ?_ (sendAck_keeps _ _ _ _ _ _)
    | split
    | dsimp -zeta only

theorem takeOnce_keeps (h : MgrHdr) (body : State → State) (hb : ∀ t, Keeps t (body t)) (s : State) : Keeps s (takeOnce h body s) := by
  unfold takeOnce
  dsimp only
  repeat' first
    | exact Keeps.refl _
    | exact Keeps.lit (Keeps.refl s) rfl rfl rfl rfl rfl
    | exact (Keeps.lit (Keeps.refl s) rfl rfl rfl rfl rfl).trans (ackDone_keeps _ _)
    | exact ((Keeps.lit (Keeps.refl s) rfl rfl rfl rfl rfl).trans (hb _)).trans (ackDone_keeps _ _)
    | split

theorem staleMgr_keeps (h : MgrHdr) (s : State) : Keeps s (staleMgr h s) := by
  unfold staleMgr
  repeat' first
    | assumption
    | with_reducible exact Keeps.refl _
    | with_reducible apply Keeps.trans ?_ (sendAck_keeps _ _ _ _ _ _)
    | (with_reducible apply Keeps.lit ?_ ?_ ?_ ?_ ?_ ?_); (on_goal 2 => rfl); (on_goal 2 => rfl); (on_goal 2 => rfl); (on_goal 2 => rfl); (on_goal 2 => rfl); first | assumption | with_reducible exact Keeps.refl _ | with_reducible apply Keeps.trans ?_ (sendAck_keeps _ _ _ _ _ _)
    | dsimp -zeta only

theorem takeUnder_keeps (c : Instr) (h : MgrHdr) (holds : State → Bool) (body : State → State) (hb : ∀ t, Keeps t (body t)) (s : State) :
    Keeps s (takeUnder c h holds body s) := by
  unfold takeUnder
  repeat' first
    | exact takeOnce_keeps h body hb s
    | exact Keeps.refl _
    | exact staleMgr_keeps _ _
    | exact Keeps.lit (Keeps.refl s) rfl rfl rfl rfl rfl
    | split

theorem takeJoin_keeps (source serial serialEnd : Nat) (s : State) : Keeps s (takeJoin source serial serialEnd s) := by
  unfold takeJoin
  repeat' first
    | assumption
    | with_reducible exact Keeps.refl _
    | with_reducible apply Keeps.trans ?_ (sendMgr_keeps _ _ _ _ _ _ _)
    | with_reducible apply Keeps.trans ?_ (drawFree_keeps _)
    | extract_lets
    | (with_reducible apply Keeps.lit ?_ ?_ ?_ ?_ ?_ ?_); (on_goal 2 => rfl); (on_goal 2 => rfl); (on_goal 2 => rfl); (on_goal 2 => rfl); (on_goal 2 => rfl); first | assumption | with_reducible exact Keeps.refl _ | with_reducible apply Keeps.trans ?_ (sendMgr_keeps _ _ _ _ _ _ _) | with_reducible apply Keeps.trans ?_ (drawFree_keeps _) | split
    | split
    | dsimp -zeta only

theorem execJoin_keeps (h : MgrHdr) (serial serialEnd : Nat) (s : State) : OKeeps s (execJoin h serial serialEnd s) := by
  unfold execJoin
  repeat' first
    | assumption
    | with_reducible exact Keeps.refl _
    | with_reducible apply OKeeps.next ?_
    | exact True.intro
    | with_reducible apply Keeps.trans ?_ (takeJoin_keeps _ _ _ _)
    | (with_reducible apply Keeps.lit ?_ ?_ ?_ ?_ ?_ ?_); (on_goal 2 => rfl); (on_goal 2 => rfl); (on_goal 2 => rfl); (on_goal 2 => rfl); (on_goal 2 => rfl); first | assumption | with_reducible exact Keeps.refl _ | with_reducible apply Keeps.trans ?_ (takeJoin_keeps _ _ _ _) | split
    | split
    | dsimp -zeta only

theorem reportHandles_keeps (s : State) : Keeps s (reportHandles s) := by
  unfold reportHandles
  repeat' first
    | assumption
    | with_reducible exact Keeps.refl _
    | with_reducible apply Keeps.trans ?_ (forEach_keeps _ _ _ (fun _ _ => ?_))
    | with_reducible apply Keeps.trans ?_ (tellDirectory_keeps _ _ _ _)
    | dsimp -zeta only

theorem takeJoinAnswer_keeps (number serialEnd : Nat) (s : State) : Keeps s (takeJoinAnswer number serialEnd s) := by
  unfold takeJoinAnswer
  repeat' first
    | assumption
    | with_reducible exact Keeps.refl _
    | with_reducible apply Keeps.trans ?_ (reportHandles_keeps _)
    | extract_lets
    | (with_reducible apply Keeps.lit ?_ ?_ ?_ ?_ ?_ ?_); (on_goal 2 => rfl); (on_goal 2 => rfl); (on_goal 2 => rfl); (on_goal 2 => rfl); (on_goal 2 => rfl); first | assumption | with_reducible exact Keeps.refl _ | with_reducible apply Keeps.trans ?_ (reportHandles_keeps _) | split
    | split
    | dsimp -zeta only

theorem execJoinAnswer_keeps (h : MgrHdr) (number serialEnd : Nat) (s : State) : OKeeps s (execJoinAnswer h number serialEnd s) := by
  unfold execJoinAnswer
  repeat' first
    | assumption
    | with_reducible exact Keeps.refl _
    | with_reducible apply OKeeps.next ?_
    | exact True.intro
    | with_reducible apply Keeps.trans ?_ (takeJoinAnswer_keeps _ _ _)
    | with_reducible apply Keeps.trans ?_ (takeOnce_keeps _ _ (fun _ => ?_) _)
    | split
    | dsimp -zeta only

theorem onMember_keeps (n : Nat) (f : Member → Member) (s : State) : Keeps s (onMember n f s) := by
  unfold onMember
  repeat' first
    | assumption
    | with_reducible exact Keeps.refl _
    | (with_reducible apply Keeps.lit ?_ ?_ ?_ ?_ ?_ ?_); (on_goal 2 => rfl); (on_goal 2 => rfl); (on_goal 2 => rfl); (on_goal 2 => rfl); (on_goal 2 => rfl); first | assumption | with_reducible exact Keeps.refl _ | split
    | split
    | dsimp -zeta only

theorem takeMap_keeps (epoch : Nat) (records : List MapRecord) (s : State) : Keeps s (takeMap epoch records s) := by
  unfold takeMap
  repeat' first
    | assumption
    | with_reducible exact Keeps.refl _
    | with_reducible apply Keeps.trans ?_ (sendMap_keeps _ _)
    | extract_lets
    | (with_reducible apply Keeps.lit ?_ ?_ ?_ ?_ ?_ ?_); (on_goal 2 => rfl); (on_goal 2 => rfl); (on_goal 2 => rfl); (on_goal 2 => rfl); (on_goal 2 => rfl); first | assumption | with_reducible exact Keeps.refl _ | with_reducible apply Keeps.trans ?_ (sendMap_keeps _ _) | split
    | split
    | dsimp -zeta only

theorem execMapApplied_keeps (h : MgrHdr) (epoch : Nat) (s : State) : OKeeps s (execMapApplied h epoch s) := by
  unfold execMapApplied
  repeat' first
    | assumption
    | with_reducible exact Keeps.refl _
    | with_reducible apply OKeeps.next ?_
    | exact True.intro
    | with_reducible apply Keeps.trans ?_ (onMember_keeps _ _ _)
    | with_reducible apply Keeps.trans ?_ (takeOnce_keeps _ _ (fun _ => ?_) _)
    | (with_reducible apply Keeps.lit ?_ ?_ ?_ ?_ ?_ ?_); (on_goal 2 => rfl); (on_goal 2 => rfl); (on_goal 2 => rfl); (on_goal 2 => rfl); (on_goal 2 => rfl); first | assumption | with_reducible exact Keeps.refl _ | with_reducible apply Keeps.trans ?_ (onMember_keeps _ _ _) | with_reducible apply Keeps.trans ?_ (takeOnce_keeps _ _ (fun _ => ?_) _)
    | dsimp -zeta only

theorem composeNow_keeps (add remove : List MapRecord) (s : State) : Keeps s (composeNow add remove s) := by
  unfold composeNow
  repeat' first
    | assumption
    | with_reducible exact Keeps.refl _
    | with_reducible apply Keeps.trans ?_ (publishOrWait_keeps _ _)
    | extract_lets
    | dsimp -zeta only

theorem declareFailed_keeps (n : Nat) (s : State) : Keeps s (declareFailed n s) := by
  unfold declareFailed
  extract_lets old s1
  have h1 : Keeps s s1 := onMember_keeps _ _ _
  clear_value s1 old
  split
  · exact h1.trans (composeNow_keeps _ _ _)
  · exact h1

theorem takeLookup_keeps (h : MgrHdr) (s : State) : Keeps s (takeLookup h s) := by
  unfold takeLookup
  repeat' first
    | assumption
    | with_reducible exact Keeps.refl _
    | with_reducible apply Keeps.trans ?_ (sendMgr_keeps _ _ _ _ _ _ _)
    | extract_lets
    | (with_reducible apply Keeps.lit ?_ ?_ ?_ ?_ ?_ ?_); (on_goal 2 => rfl); (on_goal 2 => rfl); (on_goal 2 => rfl); (on_goal 2 => rfl); (on_goal 2 => rfl); first | assumption | with_reducible exact Keeps.refl _ | with_reducible apply Keeps.trans ?_ (sendMgr_keeps _ _ _ _ _ _ _) | split
    | split
    | dsimp -zeta only

theorem execLookup_keeps (h : MgrHdr) (s : State) : OKeeps s (execLookup h s) := by
  unfold execLookup
  repeat' first
    | assumption
    | with_reducible exact Keeps.refl _
    | with_reducible apply OKeeps.next ?_
    | exact True.intro
    | with_reducible apply Keeps.trans ?_ (takeLookup_keeps _ _)
    | with_reducible apply Keeps.trans ?_ (takeUnder_keeps _ _ _ _ (fun _ => ?_) _)
    | dsimp -zeta only

theorem answerLookup_keeps (holder : Option Nat) (c : Instr) (s : State) : Keeps s (answerLookup holder c s) := by
  unfold answerLookup
  repeat' first
    | assumption
    | with_reducible exact Keeps.refl _
    | with_reducible apply Keeps.trans ?_ (refuseEarly_keeps _ _ _ _ _)
    | (with_reducible apply Keeps.lit ?_ ?_ ?_ ?_ ?_ ?_); (on_goal 2 => rfl); (on_goal 2 => rfl); (on_goal 2 => rfl); (on_goal 2 => rfl); (on_goal 2 => rfl); first | assumption | with_reducible exact Keeps.refl _ | with_reducible apply Keeps.trans ?_ (refuseEarly_keeps _ _ _ _ _) | split
    | split
    | dsimp -zeta only

theorem takeLookupAnswer_keeps (handle : Nat) (holder : Option Nat) (s : State) : Keeps s (takeLookupAnswer handle holder s) := by
  unfold takeLookupAnswer
  repeat' first
    | assumption
    | with_reducible exact Keeps.refl _
    | with_reducible apply Keeps.trans ?_ (forEach_keeps _ _ _ (fun _ _ => ?_))
    | with_reducible apply Keeps.trans ?_ (answerLookup_keeps _ _ _)
    | with_reducible apply Keeps.trans ?_ (anchor_keeps _ _ _)
    | with_reducible apply Keeps.trans ?_ (deleteSessObjs_keeps _ _)
    | with_reducible apply Keeps.trans ?_ (releasePages_keeps _ _ _)
    | with_reducible apply Keeps.trans ?_ (dropSess_keeps _ _)
    | extract_lets
    | (with_reducible apply Keeps.lit ?_ ?_ ?_ ?_ ?_ ?_); (on_goal 2 => rfl); (on_goal 2 => rfl); (on_goal 2 => rfl); (on_goal 2 => rfl); (on_goal 2 => rfl); first | assumption | with_reducible exact Keeps.refl _ | with_reducible apply Keeps.trans ?_ (forEach_keeps _ _ _ (fun _ _ => ?_)) | with_reducible apply Keeps.trans ?_ (answerLookup_keeps _ _ _) | with_reducible apply Keeps.trans ?_ (anchor_keeps _ _ _) | with_reducible apply Keeps.trans ?_ (deleteSessObjs_keeps _ _) | with_reducible apply Keeps.trans ?_ (releasePages_keeps _ _ _) | with_reducible apply Keeps.trans ?_ (dropSess_keeps _ _) | split
    | split
    | dsimp -zeta only

theorem execLookupAnswer_keeps (h : MgrHdr) (holder : Option Nat) (s : State) : OKeeps s (execLookupAnswer h holder s) := by
  unfold execLookupAnswer
  repeat' first
    | assumption
    | with_reducible exact Keeps.refl _
    | with_reducible apply OKeeps.next ?_
    | exact True.intro
    | with_reducible apply Keeps.trans ?_ (takeLookupAnswer_keeps _ _ _)
    | with_reducible apply Keeps.trans ?_ (takeOnce_keeps _ _ (fun _ => ?_) _)
    | dsimp -zeta only

theorem takeUpdate_keeps (source handle holder state : Nat) (s : State) : Keeps s (takeUpdate source handle holder state s) := by
  unfold takeUpdate
  extract_lets other s1 s2
  have h2 : Keeps s s2 := putDirectory_keeps _ _ _ _
  have h1 : Keeps s s1 := h2.trans (moveSettled_keeps _ _)
  clear_value s1 s2 other
  repeat' first
    | exact Keeps.refl _
    | exact h1
    | exact h2
    | exact h1.trans (sendMgr_keeps _ _ _ _ _ _ _)
    | exact sendMgr_keeps _ _ _ _ _ _ _
    | exact h2.trans (moveSettled_keeps _ _)
    | split

theorem execDirectoryUpdate_keeps (h : MgrHdr) (holder state : Nat) (s : State) : OKeeps s (execDirectoryUpdate h holder state s) := by
  unfold execDirectoryUpdate
  repeat' first
    | assumption
    | with_reducible exact Keeps.refl _
    | with_reducible apply OKeeps.next ?_
    | exact True.intro
    | with_reducible apply Keeps.trans ?_ (takeUpdate_keeps _ _ _ _ _)
    | with_reducible apply Keeps.trans ?_ (takeUnder_keeps _ _ _ _ (fun _ => ?_) _)
    | split
    | dsimp -zeta only

theorem onMigration_keeps (handle : Nat) (f : Migration → Migration) (s : State) : Keeps s (onMigration handle f s) := by
  unfold onMigration
  repeat' first
    | assumption
    | with_reducible exact Keeps.refl _
    | (with_reducible apply Keeps.lit ?_ ?_ ?_ ?_ ?_ ?_); (on_goal 2 => rfl); (on_goal 2 => rfl); (on_goal 2 => rfl); (on_goal 2 => rfl); (on_goal 2 => rfl); first | assumption | with_reducible exact Keeps.refl _ | split
    | split
    | dsimp -zeta only

theorem reserveMove_keeps (mv : Migration) (s : State) : Keeps s (reserveMove mv s) := by
  unfold reserveMove
  repeat' first
    | assumption
    | with_reducible exact Keeps.refl _
    | with_reducible apply Keeps.trans ?_ (sendMgr_keeps _ _ _ _ _ _ _)
    | extract_lets
    | (with_reducible apply Keeps.lit ?_ ?_ ?_ ?_ ?_ ?_); (on_goal 2 => rfl); (on_goal 2 => rfl); (on_goal 2 => rfl); (on_goal 2 => rfl); (on_goal 2 => rfl); first | assumption | with_reducible exact Keeps.refl _ | with_reducible apply Keeps.trans ?_ (sendMgr_keeps _ _ _ _ _ _ _) | split
    | split
    | dsimp -zeta only

theorem takeMoveBegin_keeps (handle origin destination home alternate vector : Nat) (s0 : State) :
    Keeps s0 (takeMoveBegin handle origin destination home alternate vector s0) := by
  unfold takeMoveBegin
  extract_lets s part mv
  have h1 : Keeps s0 s := by
    dsimp only [s]; split
    · exact expire_keeps _ _
    · exact Keeps.refl _
  clear_value s
  split
  · exact h1
  · split
    · exact h1.trans (reserveMove_keeps _ _)
    · split
      · split
        · exact Keeps.lit h1 rfl rfl rfl rfl rfl
        · exact (h1.trans (sendMgr_keeps _ _ _ _ _ _ _)).trans (sendMgr_keeps _ _ _ _ _ _ _)
      · exact h1

theorem execMoveBegin_keeps (h : MgrHdr) (origin destination home alternate vector : Nat) (s : State) : OKeeps s (execMoveBegin h origin destination home alternate vector s) := by
  unfold execMoveBegin
  repeat' first
    | assumption
    | with_reducible exact Keeps.refl _
    | with_reducible apply OKeeps.next ?_
    | exact True.intro
    | with_reducible apply Keeps.trans ?_ (takeMoveBegin_keeps _ _ _ _ _ _ _)
    | with_reducible apply Keeps.trans ?_ (takeUnder_keeps _ _ _ _ (fun _ => ?_) _)
    | dsimp -zeta only

theorem execMoveReady_keeps (h : MgrHdr) (window : Nat) (s : State) : OKeeps s (execMoveReady h window s) := by
  unfold execMoveReady
  repeat' first
    | assumption
    | with_reducible exact Keeps.refl _
    | with_reducible apply OKeeps.next ?_
    | exact True.intro
    | with_reducible apply Keeps.trans ?_ (onMigration_keeps _ _ _)
    | with_reducible apply Keeps.trans ?_ (takeUnder_keeps _ _ _ _ (fun _ => ?_) _)
    | (with_reducible apply Keeps.lit ?_ ?_ ?_ ?_ ?_ ?_); (on_goal 2 => rfl); (on_goal 2 => rfl); (on_goal 2 => rfl); (on_goal 2 => rfl); (on_goal 2 => rfl); first | assumption | with_reducible exact Keeps.refl _ | with_reducible apply Keeps.trans ?_ (onMigration_keeps _ _ _) | with_reducible apply Keeps.trans ?_ (takeUnder_keeps _ _ _ _ (fun _ => ?_) _) | split
    | split
    | dsimp -zeta only

theorem trySwitch_keeps (handle : Nat) (s0 : State) : Keeps s0 (trySwitch handle s0) := by
  unfold trySwitch
  repeat' first
    | assumption
    | with_reducible exact Keeps.refl _
    | with_reducible apply Keeps.trans ?_ (onMigration_keeps _ _ _)
    | with_reducible apply Keeps.trans ?_ (expire_keeps _ _)
    | with_reducible apply Keeps.trans ?_ (sendMgr_keeps _ _ _ _ _ _ _)
    | with_reducible apply Keeps.trans ?_ (setSess_keeps _ _)
    | extract_lets
    | (with_reducible apply Keeps.lit ?_ ?_ ?_ ?_ ?_ ?_); (on_goal 2 => rfl); (on_goal 2 => rfl); (on_goal 2 => rfl); (on_goal 2 => rfl); (on_goal 2 => rfl); first | assumption | with_reducible exact Keeps.refl _ | with_reducible apply Keeps.trans ?_ (onMigration_keeps _ _ _) | with_reducible apply Keeps.trans ?_ (expire_keeps _ _) | with_reducible apply Keeps.trans ?_ (sendMgr_keeps _ _ _ _ _ _ _) | with_reducible apply Keeps.trans ?_ (setSess_keeps _ _) | split
    | split
    | dsimp -zeta only

theorem switchReady_keeps (s : State) : Keeps s (switchReady s) := by
  unfold switchReady
  repeat' first
    | assumption
    | with_reducible exact Keeps.refl _
    | with_reducible apply Keeps.trans ?_ (forEach_keeps _ _ _ (fun _ _ => ?_))
    | with_reducible apply Keeps.trans ?_ (trySwitch_keeps _ _)
    | dsimp -zeta only

theorem execMigrationCopyDone_keeps (handle : Nat) (s : State) : OKeeps s (execMigrationCopyDone handle s) := by
  unfold execMigrationCopyDone
  repeat' first
    | assumption
    | with_reducible exact Keeps.refl _
    | with_reducible apply OKeeps.next ?_
    | exact True.intro
    | with_reducible apply Keeps.trans ?_ (trySwitch_keeps _ _)
    | with_reducible apply Keeps.trans ?_ (onMigration_keeps _ _ _)
    | (with_reducible apply Keeps.lit ?_ ?_ ?_ ?_ ?_ ?_); (on_goal 2 => rfl); (on_goal 2 => rfl); (on_goal 2 => rfl); (on_goal 2 => rfl); (on_goal 2 => rfl); first | assumption | with_reducible exact Keeps.refl _ | with_reducible apply Keeps.trans ?_ (trySwitch_keeps _ _) | with_reducible apply Keeps.trans ?_ (onMigration_keeps _ _ _) | split
    | split
    | dsimp -zeta only

theorem takeSwitch_keeps (h : MgrHdr) (m : Moved) (s : State) : Keeps s (takeSwitch h m s) := by
  unfold takeSwitch
  repeat' first
    | assumption
    | with_reducible exact Keeps.refl _
    | with_reducible apply Keeps.trans ?_ (onMigration_keeps _ _ _)
    | with_reducible apply Keeps.trans ?_ (abortMigration_keeps _ _ _)
    | with_reducible apply Keeps.trans ?_ (sendMgr_keeps _ _ _ _ _ _ _)
    | (with_reducible apply Keeps.lit ?_ ?_ ?_ ?_ ?_ ?_); (on_goal 2 => rfl); (on_goal 2 => rfl); (on_goal 2 => rfl); (on_goal 2 => rfl); (on_goal 2 => rfl); first | assumption | with_reducible exact Keeps.refl _ | with_reducible apply Keeps.trans ?_ (onMigration_keeps _ _ _) | with_reducible apply Keeps.trans ?_ (abortMigration_keeps _ _ _) | with_reducible apply Keeps.trans ?_ (sendMgr_keeps _ _ _ _ _ _ _) | split
    | split
    | dsimp -zeta only

theorem execSwitchOver_keeps (h : MgrHdr) (m : Moved) (s : State) : OKeeps s (execSwitchOver h m s) := by
  unfold execSwitchOver
  repeat' first
    | assumption
    | with_reducible exact Keeps.refl _
    | with_reducible apply OKeeps.next ?_
    | exact True.intro
    | with_reducible apply Keeps.trans ?_ (takeSwitch_keeps _ _ _)
    | with_reducible apply Keeps.trans ?_ (takeUnder_keeps _ _ _ _ (fun _ => ?_) _)
    | dsimp -zeta only

theorem execPrepared_keeps (h : MgrHdr) (s : State) : OKeeps s (execPrepared h s) := by
  unfold execPrepared
  repeat' first
    | assumption
    | with_reducible exact Keeps.refl _
    | with_reducible apply OKeeps.next ?_
    | exact True.intro
    | with_reducible apply Keeps.trans ?_ (onMigration_keeps _ _ _)
    | with_reducible apply Keeps.trans ?_ (takeUnder_keeps _ _ _ _ (fun _ => ?_) _)
    | (with_reducible apply Keeps.lit ?_ ?_ ?_ ?_ ?_ ?_); (on_goal 2 => rfl); (on_goal 2 => rfl); (on_goal 2 => rfl); (on_goal 2 => rfl); (on_goal 2 => rfl); first | assumption | with_reducible exact Keeps.refl _ | with_reducible apply Keeps.trans ?_ (onMigration_keeps _ _ _) | with_reducible apply Keeps.trans ?_ (takeUnder_keeps _ _ _ _ (fun _ => ?_) _) | split
    | split
    | dsimp -zeta only

theorem closeCopyWindow_keeps (origin : Nat) (s : State) : Keeps s (closeCopyWindow origin s) := by
  unfold closeCopyWindow
  repeat' first
    | assumption
    | with_reducible exact Keeps.refl _
    | (with_reducible apply Keeps.lit ?_ ?_ ?_ ?_ ?_ ?_); (on_goal 2 => rfl); (on_goal 2 => rfl); (on_goal 2 => rfl); (on_goal 2 => rfl); (on_goal 2 => rfl); first | assumption | with_reducible exact Keeps.refl _
    | dsimp -zeta only

theorem commitMove_keeps (handle : Nat) (s : State) : Keeps s (commitMove handle s) := by
  unfold commitMove
  repeat' first
    | assumption
    | with_reducible exact Keeps.refl _
    | with_reducible apply Keeps.trans ?_ (forEach_keeps _ _ _ (fun _ _ => ?_))
    | with_reducible apply Keeps.trans ?_ (foldl_pair_keeps _ (fun _ _ => recastPage_keeps _ _ _ _) _ _)
    | with_reducible apply Keeps.trans ?_ (closeCopyWindow_keeps _ _)
    | with_reducible apply Keeps.trans ?_ (recastPage_keeps _ _ _ _)
    | with_reducible apply Keeps.trans ?_ (drainHeld_keeps _ _)
    | with_reducible apply Keeps.trans ?_ (arm_keeps _ _)
    | with_reducible apply Keeps.trans ?_ (anchorRow_keeps _ _ _)
    | with_reducible apply Keeps.trans ?_ (anchor_keeps _ _ _)
    | with_reducible apply Keeps.trans ?_ (seat_keeps _ _)
    | with_reducible apply Keeps.trans ?_ (tellDirectory_keeps _ _ _ _)
    | with_reducible apply Keeps.trans ?_ (sendMgr_keeps _ _ _ _ _ _ _)
    | with_reducible apply Keeps.trans ?_ (addSess_keeps _ _)
    | extract_lets
    | (with_reducible apply Keeps.lit ?_ ?_ ?_ ?_ ?_ ?_); (on_goal 2 => rfl); (on_goal 2 => rfl); (on_goal 2 => rfl); (on_goal 2 => rfl); (on_goal 2 => rfl); first | assumption | with_reducible exact Keeps.refl _ | with_reducible apply Keeps.trans ?_ (forEach_keeps _ _ _ (fun _ _ => ?_)) | with_reducible apply Keeps.trans ?_ (foldl_pair_keeps _ (fun _ _ => recastPage_keeps _ _ _ _) _ _) | with_reducible apply Keeps.trans ?_ (closeCopyWindow_keeps _ _) | with_reducible apply Keeps.trans ?_ (recastPage_keeps _ _ _ _) | with_reducible apply Keeps.trans ?_ (drainHeld_keeps _ _) | with_reducible apply Keeps.trans ?_ (arm_keeps _ _) | with_reducible apply Keeps.trans ?_ (anchorRow_keeps _ _ _) | with_reducible apply Keeps.trans ?_ (anchor_keeps _ _ _) | with_reducible apply Keeps.trans ?_ (seat_keeps _ _) | with_reducible apply Keeps.trans ?_ (tellDirectory_keeps _ _ _ _) | with_reducible apply Keeps.trans ?_ (sendMgr_keeps _ _ _ _ _ _ _) | with_reducible apply Keeps.trans ?_ (addSess_keeps _ _) | split
    | split
    | dsimp -zeta only

theorem leaveForward_keeps (handle dest : Nat) (s : State) : Keeps s (leaveForward handle dest s) := by
  unfold leaveForward
  repeat' first
    | assumption
    | with_reducible exact Keeps.refl _
    | extract_lets
    | (with_reducible apply Keeps.lit ?_ ?_ ?_ ?_ ?_ ?_); (on_goal 2 => rfl); (on_goal 2 => rfl); (on_goal 2 => rfl); (on_goal 2 => rfl); (on_goal 2 => rfl); first | assumption | with_reducible exact Keeps.refl _
    | dsimp -zeta only

theorem takeCommitted_keeps (handle : Nat) (s : State) : Keeps s (takeCommitted handle s) := by
  unfold takeCommitted
  repeat' first
    | assumption
    | with_reducible exact Keeps.refl _
    | with_reducible apply Keeps.trans ?_ (forEach_keeps _ _ _ (fun _ _ => ?_))
    | with_reducible apply Keeps.trans ?_ (leaveForward_keeps _ _ _)
    | with_reducible apply Keeps.trans ?_ (dropQueries_keeps _ _)
    | with_reducible apply Keeps.trans ?_ (anchor_keeps _ _ _)
    | with_reducible apply Keeps.trans ?_ (moveSettled_keeps _ _)
    | with_reducible apply Keeps.trans ?_ (sendMgr_keeps _ _ _ _ _ _ _)
    | with_reducible apply Keeps.trans ?_ (deleteSessObjs_keeps _ _)
    | with_reducible apply Keeps.trans ?_ (releasePages_keeps _ _ _)
    | with_reducible apply Keeps.trans ?_ (dropSess_keeps _ _)
    | extract_lets
    | (with_reducible apply Keeps.lit ?_ ?_ ?_ ?_ ?_ ?_); (on_goal 2 => rfl); (on_goal 2 => rfl); (on_goal 2 => rfl); (on_goal 2 => rfl); (on_goal 2 => rfl); first | assumption | with_reducible exact Keeps.refl _ | with_reducible apply Keeps.trans ?_ (forEach_keeps _ _ _ (fun _ _ => ?_)) | with_reducible apply Keeps.trans ?_ (leaveForward_keeps _ _ _) | with_reducible apply Keeps.trans ?_ (dropQueries_keeps _ _) | with_reducible apply Keeps.trans ?_ (anchor_keeps _ _ _) | with_reducible apply Keeps.trans ?_ (moveSettled_keeps _ _) | with_reducible apply Keeps.trans ?_ (sendMgr_keeps _ _ _ _ _ _ _) | with_reducible apply Keeps.trans ?_ (deleteSessObjs_keeps _ _) | with_reducible apply Keeps.trans ?_ (releasePages_keeps _ _ _) | with_reducible apply Keeps.trans ?_ (dropSess_keeps _ _) | split
    | split
    | dsimp -zeta only

theorem execCommitted_keeps (h : MgrHdr) (s : State) : OKeeps s (execCommitted h s) := by
  unfold execCommitted
  repeat' first
    | assumption
    | with_reducible exact Keeps.refl _
    | with_reducible apply OKeeps.next ?_
    | exact True.intro
    | with_reducible apply Keeps.trans ?_ (takeCommitted_keeps _ _)
    | with_reducible apply Keeps.trans ?_ (takeUnder_keeps _ _ _ _ (fun _ => ?_) _)
    | dsimp -zeta only

theorem takeAborted_keeps (handle reason : Nat) (s : State) : Keeps s (takeAborted handle reason s) := by
  unfold takeAborted
  extract_lets gone src s1 back s2
  have h1 : Keeps s s1 := Keeps.lit (Keeps.refl s) rfl rfl rfl rfl rfl
  have h2 : Keeps s s2 := by
    dsimp -zeta only [s2]
    clear_value s1 gone
    repeat' first
      | exact h1
      | exact (h1.trans (onSess_keeps _ _ _)).trans (drainHeld_keeps _ _)
      | exact h1.trans (closeCopyWindow_keeps _ _)
      | split
  clear_value s2 gone
  repeat' first
    | exact h2
    | exact h2.trans (moveSettled_keeps _ _)
    | exact h2.trans (sendMgr_keeps _ _ _ _ _ _ _)
    | split

theorem execAborted_keeps (h : MgrHdr) (reason : Nat) (s : State) : OKeeps s (execAborted h reason s) := by
  unfold execAborted
  repeat' first
    | assumption
    | with_reducible exact Keeps.refl _
    | with_reducible apply OKeeps.next ?_
    | exact True.intro
    | with_reducible apply Keeps.trans ?_ (takeAborted_keeps _ _ _)
    | with_reducible apply Keeps.trans ?_ (takeUnder_keeps _ _ _ _ (fun _ => ?_) _)
    | dsimp -zeta only

theorem execTeardown_keeps (h : MgrHdr) (group : Nat) (s : State) : OKeeps s (execTeardown h group s) := by
  unfold execTeardown
  repeat' first
    | assumption
    | with_reducible exact Keeps.refl _
    | with_reducible apply OKeeps.next ?_
    | exact True.intro
    | with_reducible apply Keeps.trans ?_ (takeUnder_keeps _ _ _ _ (fun _ => ?_) _)
    | with_reducible apply Keeps.trans ?_ (tearGroup_keeps _ _)
    | with_reducible apply Keeps.trans ?_ (sendMgr_keeps _ _ _ _ _ _ _)
    | dsimp -zeta only

theorem execTeardownDone_keeps (h : MgrHdr) (group : Nat) (s : State) : OKeeps s (execTeardownDone h group s) := by
  unfold execTeardownDone
  repeat' first
    | assumption
    | with_reducible exact Keeps.refl _
    | with_reducible apply OKeeps.next ?_
    | exact True.intro
    | with_reducible apply Keeps.trans ?_ (takeUnder_keeps _ _ _ _ (fun _ => ?_) _)
    | with_reducible apply Keeps.trans ?_ (onGroup_keeps _ _ _)
    | (with_reducible apply Keeps.lit ?_ ?_ ?_ ?_ ?_ ?_); (on_goal 2 => rfl); (on_goal 2 => rfl); (on_goal 2 => rfl); (on_goal 2 => rfl); (on_goal 2 => rfl); first | assumption | with_reducible exact Keeps.refl _ | with_reducible apply Keeps.trans ?_ (takeUnder_keeps _ _ _ _ (fun _ => ?_) _) | with_reducible apply Keeps.trans ?_ (onGroup_keeps _ _ _)
    | dsimp -zeta only

theorem takeReport_keeps (source destination window reason : Nat) (s : State) : Keeps s (takeReport source destination window reason s) := by
  unfold takeReport
  repeat' first
    | assumption
    | with_reducible exact Keeps.refl _
    | with_reducible apply Keeps.trans ?_ (declareFailed_keeps _ _)
    | with_reducible apply Keeps.trans ?_ (composeNow_keeps _ _ _)
    | with_reducible apply Keeps.trans ?_ (onMember_keeps _ _ _)
    | with_reducible apply Keeps.trans ?_ (fabricTeardown_keeps _ _)
    | with_reducible apply Keeps.trans ?_ (sendMgr_keeps _ _ _ _ _ _ _)
    | (with_reducible apply Keeps.lit ?_ ?_ ?_ ?_ ?_ ?_); (on_goal 2 => rfl); (on_goal 2 => rfl); (on_goal 2 => rfl); (on_goal 2 => rfl); (on_goal 2 => rfl); first | assumption | with_reducible exact Keeps.refl _ | with_reducible apply Keeps.trans ?_ (declareFailed_keeps _ _) | with_reducible apply Keeps.trans ?_ (composeNow_keeps _ _ _) | with_reducible apply Keeps.trans ?_ (onMember_keeps _ _ _) | with_reducible apply Keeps.trans ?_ (fabricTeardown_keeps _ _) | with_reducible apply Keeps.trans ?_ (sendMgr_keeps _ _ _ _ _ _ _) | split
    | split
    | dsimp -zeta only

theorem execPoisonedReadReport_keeps (h : MgrHdr) (source destination window reason : Nat) (s : State) : OKeeps s (execPoisonedReadReport h source destination window reason s) := by
  unfold execPoisonedReadReport
  repeat' first
    | assumption
    | with_reducible exact Keeps.refl _
    | with_reducible apply OKeeps.next ?_
    | exact True.intro
    | with_reducible apply Keeps.trans ?_ (takeReport_keeps _ _ _ _ _)
    | with_reducible apply Keeps.trans ?_ (takeOnce_keeps _ _ (fun _ => ?_) _)
    | with_reducible apply Keeps.trans ?_ (drainAll_keeps _)
    | split
    | dsimp -zeta only

theorem execRecallFanOut_keeps (h : MgrHdr) (op index shard k require exclude key tags : Nat) (code : List Byte) (query : Nat) (s : State) : OKeeps s (execRecallFanOut h op index shard k require exclude key tags code query s) := by
  unfold execRecallFanOut
  repeat' first
    | assumption
    | with_reducible exact Keeps.refl _
    | with_reducible apply OKeeps.next ?_
    | exact True.intro
    | with_reducible apply Keeps.trans ?_ (takeUnder_keeps _ _ _ _ (fun _ => ?_) _)
    | with_reducible apply Keeps.trans ?_ (takeFanOut_keeps _ _ _ _ _ _ _ _ _ _ _ _)
    | dsimp -zeta only

theorem execRecallAnswer_keeps (h : MgrHdr) (query shard outcome : Nat) (results : List (Nat × Nat × Nat)) (s : State) : OKeeps s (execRecallAnswer h query shard outcome results s) := by
  unfold execRecallAnswer
  repeat' first
    | assumption
    | with_reducible exact Keeps.refl _
    | with_reducible apply OKeeps.next ?_
    | exact True.intro
    | with_reducible apply Keeps.trans ?_ (takeOnce_keeps _ _ (fun _ => ?_) _)
    | with_reducible apply Keeps.trans ?_ (takeRecallAnswer_keeps _ _ _ _ _)
    | with_reducible apply Keeps.trans ?_ (drainAll_keeps _)
    | dsimp -zeta only

theorem execRegistryUpdate_keeps (h : MgrHdr) (tenant partition : Nat) (present : Bool) (s : State) : OKeeps s (execRegistryUpdate h tenant partition present s) := by
  unfold execRegistryUpdate
  repeat' first
    | assumption
    | with_reducible exact Keeps.refl _
    | with_reducible apply OKeeps.next ?_
    | exact True.intro
    | with_reducible apply Keeps.trans ?_ (takeOnce_keeps _ _ (fun _ => ?_) _)
    | extract_lets
    | (with_reducible apply Keeps.lit ?_ ?_ ?_ ?_ ?_ ?_); (on_goal 2 => rfl); (on_goal 2 => rfl); (on_goal 2 => rfl); (on_goal 2 => rfl); (on_goal 2 => rfl); first | assumption | with_reducible exact Keeps.refl _ | with_reducible apply Keeps.trans ?_ (takeOnce_keeps _ _ (fun _ => ?_) _) | split
    | split
    | dsimp -zeta only

theorem loseManager_keeps (s : State) : Keeps s (loseManager s) := by
  unfold loseManager
  repeat' first
    | assumption
    | with_reducible exact Keeps.refl _
    | with_reducible apply Keeps.trans ?_ (forEach_keeps _ _ _ (fun _ _ => ?_))
    | with_reducible apply Keeps.trans ?_ (answerLookup_keeps _ _ _)
    | with_reducible apply Keeps.trans ?_ (concludeQuery_keeps _ _)
    | with_reducible apply Keeps.trans ?_ (onQuery_keeps _ _ _)
    | with_reducible apply Keeps.trans ?_ (drainAll_keeps _)
    | with_reducible apply Keeps.trans ?_ (abortMigration_keeps _ _ _)
    | extract_lets
    | (with_reducible apply Keeps.lit ?_ ?_ ?_ ?_ ?_ ?_); (on_goal 2 => rfl); (on_goal 2 => rfl); (on_goal 2 => rfl); (on_goal 2 => rfl); (on_goal 2 => rfl); first | assumption | with_reducible exact Keeps.refl _ | with_reducible apply Keeps.trans ?_ (forEach_keeps _ _ _ (fun _ _ => ?_)) | with_reducible apply Keeps.trans ?_ (answerLookup_keeps _ _ _) | with_reducible apply Keeps.trans ?_ (concludeQuery_keeps _ _) | with_reducible apply Keeps.trans ?_ (onQuery_keeps _ _ _) | with_reducible apply Keeps.trans ?_ (drainAll_keeps _) | with_reducible apply Keeps.trans ?_ (abortMigration_keeps _ _ _)
    | dsimp -zeta only

theorem losePeer_keeps (peer : Nat) (s : State) : Keeps s (losePeer peer s) := by
  unfold losePeer
  repeat' first
    | assumption
    | with_reducible exact Keeps.refl _
    | with_reducible apply Keeps.trans ?_ (loseManager_keeps _)
    | with_reducible apply Keeps.trans ?_ (declareFailed_keeps _ _)
    | with_reducible apply Keeps.trans ?_ (onMember_keeps _ _ _)
    | with_reducible apply Keeps.trans ?_ (sendMgr_keeps _ _ _ _ _ _ _)
    | extract_lets
    | (with_reducible apply Keeps.lit ?_ ?_ ?_ ?_ ?_ ?_); (on_goal 2 => rfl); (on_goal 2 => rfl); (on_goal 2 => rfl); (on_goal 2 => rfl); (on_goal 2 => rfl); first | assumption | with_reducible exact Keeps.refl _ | with_reducible apply Keeps.trans ?_ (loseManager_keeps _) | with_reducible apply Keeps.trans ?_ (declareFailed_keeps _ _) | with_reducible apply Keeps.trans ?_ (onMember_keeps _ _ _) | with_reducible apply Keeps.trans ?_ (sendMgr_keeps _ _ _ _ _ _ _) | split
    | split
    | dsimp -zeta only

theorem execManagerResendTimeout_keeps (peer seq : Nat) (s : State) : OKeeps s (execManagerResendTimeout peer seq s) := by
  unfold execManagerResendTimeout
  repeat' first
    | assumption
    | with_reducible exact Keeps.refl _
    | with_reducible apply OKeeps.next ?_
    | exact True.intro
    | with_reducible apply Keeps.trans ?_ (losePeer_keeps _ _)
    | extract_lets
    | (with_reducible apply Keeps.lit ?_ ?_ ?_ ?_ ?_ ?_); (on_goal 2 => rfl); (on_goal 2 => rfl); (on_goal 2 => rfl); (on_goal 2 => rfl); (on_goal 2 => rfl); first | assumption | with_reducible exact Keeps.refl _ | with_reducible apply Keeps.trans ?_ (losePeer_keeps _ _) | split
    | split
    | dsimp -zeta only

theorem execCheckpointAnswer_keeps (h : MgrHdr) (number slot length outcome : Nat) (s : State) : OKeeps s (execCheckpointAnswer h number slot length outcome s) := by
  unfold execCheckpointAnswer
  repeat' first
    | assumption
    | with_reducible exact Keeps.refl _
    | with_reducible apply OKeeps.next ?_
    | exact True.intro
    | with_reducible apply Keeps.trans ?_ (takeOnce_keeps _ _ (fun _ => ?_) _)
    | (with_reducible apply Keeps.lit ?_ ?_ ?_ ?_ ?_ ?_); (on_goal 2 => rfl); (on_goal 2 => rfl); (on_goal 2 => rfl); (on_goal 2 => rfl); (on_goal 2 => rfl); first | assumption | with_reducible exact Keeps.refl _ | with_reducible apply Keeps.trans ?_ (takeOnce_keeps _ _ (fun _ => ?_) _)
    | dsimp -zeta only

theorem stateAfter_keeps (s : State) (o : Host.Outcome State Fault Refusal) (h : OKeeps s o) : Keeps s (stateAfter s o) := by
  unfold stateAfter
  split
  · exact h
  · exact Keeps.refl _

theorem runHeld_keeps (c : Instr) (s : State) : Keeps s (runHeld c s) := by
  unfold runHeld
  split
  · exact stateAfter_keeps _ _ (execLookup_keeps _ _)
  · exact stateAfter_keeps _ _ (execDirectoryUpdate_keeps _ _ _ _)
  · exact stateAfter_keeps _ _ (execMoveBegin_keeps _ _ _ _ _ _ _)
  · exact stateAfter_keeps _ _ (execMoveReady_keeps _ _ _)
  · exact stateAfter_keeps _ _ (execSwitchOver_keeps _ _ _)
  · exact stateAfter_keeps _ _ (execPrepared_keeps _ _)
  · exact stateAfter_keeps _ _ (execCommitted_keeps _ _)
  · exact stateAfter_keeps _ _ (execAborted_keeps _ _ _)
  · exact stateAfter_keeps _ _ (execTeardown_keeps _ _ _)
  · exact stateAfter_keeps _ _ (execTeardownDone_keeps _ _ _)
  · exact stateAfter_keeps _ _ (execRecallFanOut_keeps _ _ _ _ _ _ _ _ _ _ _ _)
  · exact stateAfter_keeps _ _ (execFabricReadRequest_keeps _ _ _)
  · exact stateAfter_keeps _ _ (execFabricWriteReceived_keeps _ _ _ _)
  · exact Keeps.refl _

theorem applyPublished_keeps (s : State) : Keeps s (applyPublished s) := by
  unfold applyPublished
  repeat' first
    | assumption
    | with_reducible exact Keeps.refl _
    | with_reducible apply Keeps.trans ?_ (forEach_keeps _ _ _ (fun _ _ => ?_))
    | with_reducible apply Keeps.trans ?_ (runHeld_keeps _ _)
    | with_reducible apply Keeps.trans ?_ (applyEpoch_keeps _)
    | with_reducible apply Keeps.trans ?_ (drainAll_keeps _)
    | extract_lets
    | (with_reducible apply Keeps.lit ?_ ?_ ?_ ?_ ?_ ?_); (on_goal 2 => rfl); (on_goal 2 => rfl); (on_goal 2 => rfl); (on_goal 2 => rfl); (on_goal 2 => rfl); first | assumption | with_reducible exact Keeps.refl _ | with_reducible apply Keeps.trans ?_ (forEach_keeps _ _ _ (fun _ _ => ?_)) | with_reducible apply Keeps.trans ?_ (runHeld_keeps _ _) | with_reducible apply Keeps.trans ?_ (applyEpoch_keeps _) | with_reducible apply Keeps.trans ?_ (drainAll_keeps _) | split
    | split
    | dsimp -zeta only

theorem settleEpoch_keeps (s : State) : Keeps s (settleEpoch s) := by
  unfold settleEpoch
  repeat' first
    | assumption
    | with_reducible exact Keeps.refl _
    | with_reducible apply Keeps.trans ?_ (applyPublished_keeps _)
    | split
    | dsimp -zeta only

theorem execMapPublish_keeps (h : MgrHdr) (epoch : Nat) (records : List MapRecord) (s : State) : OKeeps s (execMapPublish h epoch records s) := by
  unfold execMapPublish
  repeat' first
    | assumption
    | with_reducible exact Keeps.refl _
    | with_reducible apply OKeeps.next ?_
    | exact True.intro
    | with_reducible apply Keeps.trans ?_ (settleEpoch_keeps _)
    | with_reducible apply Keeps.trans ?_ (takeMap_keeps _ _ _)
    | with_reducible apply Keeps.trans ?_ (takeOnce_keeps _ _ (fun _ => ?_) _)
    | dsimp -zeta only

theorem execEpochRetired_keeps (h : MgrHdr) (epoch : Nat) (s : State) : OKeeps s (execEpochRetired h epoch s) := by
  unfold execEpochRetired
  repeat' first
    | assumption
    | with_reducible exact Keeps.refl _
    | with_reducible apply OKeeps.next ?_
    | exact True.intro
    | with_reducible apply Keeps.trans ?_ (settleEpoch_keeps _)
    | with_reducible apply Keeps.trans ?_ (onMember_keeps _ _ _)
    | with_reducible apply Keeps.trans ?_ (takeOnce_keeps _ _ (fun _ => ?_) _)
    | with_reducible apply Keeps.trans ?_ (tryRetire_keeps _)
    | (with_reducible apply Keeps.lit ?_ ?_ ?_ ?_ ?_ ?_); (on_goal 2 => rfl); (on_goal 2 => rfl); (on_goal 2 => rfl); (on_goal 2 => rfl); (on_goal 2 => rfl); first | assumption | with_reducible exact Keeps.refl _ | with_reducible apply Keeps.trans ?_ (settleEpoch_keeps _) | with_reducible apply Keeps.trans ?_ (onMember_keeps _ _ _) | with_reducible apply Keeps.trans ?_ (takeOnce_keeps _ _ (fun _ => ?_) _) | with_reducible apply Keeps.trans ?_ (tryRetire_keeps _)
    | dsimp -zeta only

theorem execAcknowledge_keeps (h : MgrHdr) (seq : Nat) (s : State) : OKeeps s (execAcknowledge h seq s) := by
  unfold execAcknowledge
  repeat' first
    | assumption
    | with_reducible exact Keeps.refl _
    | with_reducible apply OKeeps.next ?_
    | exact True.intro
    | with_reducible apply Keeps.trans ?_ (settleEpoch_keeps _)
    | with_reducible apply Keeps.trans ?_ (commitMove_keeps _ _)
    | with_reducible apply Keeps.trans ?_ (tryRetire_keeps _)
    | extract_lets
    | (with_reducible apply Keeps.lit ?_ ?_ ?_ ?_ ?_ ?_); (on_goal 2 => rfl); (on_goal 2 => rfl); (on_goal 2 => rfl); (on_goal 2 => rfl); (on_goal 2 => rfl); first | assumption | with_reducible exact Keeps.refl _ | with_reducible apply Keeps.trans ?_ (settleEpoch_keeps _) | with_reducible apply Keeps.trans ?_ (commitMove_keeps _ _) | with_reducible apply Keeps.trans ?_ (tryRetire_keeps _) | split
    | split
    | dsimp -zeta only

theorem handOver_keeps (s : State) : Keeps s (handOver s) := by
  unfold handOver
  repeat' first
    | assumption
    | with_reducible exact Keeps.refl _
    | with_reducible apply Keeps.trans ?_ (attest_keeps _ _ _ _ _)
    | with_reducible apply Keeps.trans ?_ (onHub_keeps _ _ _)
    | extract_lets
    | (with_reducible apply Keeps.lit ?_ ?_ ?_ ?_ ?_ ?_); (on_goal 2 => rfl); (on_goal 2 => rfl); (on_goal 2 => rfl); (on_goal 2 => rfl); (on_goal 2 => rfl); first | assumption | with_reducible exact Keeps.refl _ | with_reducible apply Keeps.trans ?_ (attest_keeps _ _ _ _ _) | with_reducible apply Keeps.trans ?_ (onHub_keeps _ _ _) | split
    | split
    | dsimp -zeta only

theorem passBarrier_keeps (us : Nat) (s : State) : Keeps s (passBarrier us s) := by
  unfold passBarrier
  repeat' first
    | assumption
    | with_reducible exact Keeps.refl _
    | with_reducible apply Keeps.trans ?_ (handOver_keeps _)
    | with_reducible apply Keeps.trans ?_ (applyPublished_keeps _)
    | with_reducible apply Keeps.trans ?_ (switchReady_keeps _)
    | with_reducible apply Keeps.trans ?_ (persistDue_keeps _)
    | with_reducible apply Keeps.trans ?_ (applyDue_keeps _ _)
    | with_reducible apply Keeps.trans ?_ (resumePour_keeps _)
    | with_reducible apply Keeps.trans ?_ (admitHeld_keeps _)
    | with_reducible apply Keeps.trans ?_ (relieve_keeps _)
    | with_reducible apply Keeps.trans ?_ (drainAll_keeps _)
    | with_reducible apply Keeps.trans ?_ (mirrorTaken_keeps _)
    | with_reducible apply Keeps.trans ?_ (passTime_keeps _ _)
    | extract_lets
    | (with_reducible apply Keeps.lit ?_ ?_ ?_ ?_ ?_ ?_); (on_goal 2 => rfl); (on_goal 2 => rfl); (on_goal 2 => rfl); (on_goal 2 => rfl); (on_goal 2 => rfl); first | assumption | with_reducible exact Keeps.refl _ | with_reducible apply Keeps.trans ?_ (handOver_keeps _) | with_reducible apply Keeps.trans ?_ (applyPublished_keeps _) | with_reducible apply Keeps.trans ?_ (switchReady_keeps _) | with_reducible apply Keeps.trans ?_ (persistDue_keeps _) | with_reducible apply Keeps.trans ?_ (applyDue_keeps _ _) | with_reducible apply Keeps.trans ?_ (resumePour_keeps _) | with_reducible apply Keeps.trans ?_ (admitHeld_keeps _) | with_reducible apply Keeps.trans ?_ (relieve_keeps _) | with_reducible apply Keeps.trans ?_ (drainAll_keeps _) | with_reducible apply Keeps.trans ?_ (mirrorTaken_keeps _) | with_reducible apply Keeps.trans ?_ (passTime_keeps _ _) | split
    | split
    | dsimp -zeta only

theorem execPourBarrier_keeps (elapsedUs : Nat) (s : State) : OKeeps s (execPourBarrier elapsedUs s) := by
  unfold execPourBarrier
  repeat' first
    | assumption
    | with_reducible exact Keeps.refl _
    | with_reducible apply OKeeps.next ?_
    | exact True.intro
    | with_reducible apply Keeps.trans ?_ (passBarrier_keeps _ _)
    | (with_reducible apply Keeps.lit ?_ ?_ ?_ ?_ ?_ ?_); (on_goal 2 => rfl); (on_goal 2 => rfl); (on_goal 2 => rfl); (on_goal 2 => rfl); (on_goal 2 => rfl); first | assumption | with_reducible exact Keeps.refl _ | with_reducible apply Keeps.trans ?_ (passBarrier_keeps _ _) | split
    | split
    | dsimp -zeta only

theorem execCommitBarrierIdle_keeps (s : State) : OKeeps s (execCommitBarrierIdle s) := by
  unfold execCommitBarrierIdle
  repeat' first
    | assumption
    | with_reducible exact Keeps.refl _
    | with_reducible apply OKeeps.next ?_
    | exact True.intro
    | with_reducible apply Keeps.trans ?_ (takeover_keeps _)
    | with_reducible apply Keeps.trans ?_ (passBarrier_keeps _ _)
    | split
    | dsimp -zeta only

theorem unrelease_keeps (w : Work) (s : State) : Keeps s (unrelease w s) := by
  unfold unrelease
  repeat' first
    | assumption
    | with_reducible exact Keeps.refl _
    | with_reducible apply Keeps.trans ?_ (forEach_keeps _ _ _ (fun _ _ => ?_))
    | with_reducible apply Keeps.trans ?_ (anchorRow_keeps _ _ _)
    | with_reducible apply Keeps.trans ?_ (seat_keeps _ _)
    | with_reducible apply Keeps.trans ?_ (onTen_keeps _ _ _)
    | with_reducible apply Keeps.trans ?_ (setSess_keeps _ _)
    | extract_lets
    | (with_reducible apply Keeps.lit ?_ ?_ ?_ ?_ ?_ ?_); (on_goal 2 => rfl); (on_goal 2 => rfl); (on_goal 2 => rfl); (on_goal 2 => rfl); (on_goal 2 => rfl); first | assumption | with_reducible exact Keeps.refl _ | with_reducible apply Keeps.trans ?_ (forEach_keeps _ _ _ (fun _ _ => ?_)) | with_reducible apply Keeps.trans ?_ (anchorRow_keeps _ _ _) | with_reducible apply Keeps.trans ?_ (seat_keeps _ _) | with_reducible apply Keeps.trans ?_ (onTen_keeps _ _ _) | with_reducible apply Keeps.trans ?_ (setSess_keeps _ _) | split
    | split
    | dsimp -zeta only

theorem rollBackRelease_keeps (s : State) : Keeps s (rollBackRelease s) := by
  unfold rollBackRelease
  repeat' first
    | assumption
    | with_reducible exact Keeps.refl _
    | with_reducible apply Keeps.trans ?_ (forEach_keeps _ _ _ (fun _ _ => ?_))
    | with_reducible apply Keeps.trans ?_ (unrelease_keeps _ _)
    | extract_lets
    | (with_reducible apply Keeps.lit ?_ ?_ ?_ ?_ ?_ ?_); (on_goal 2 => rfl); (on_goal 2 => rfl); (on_goal 2 => rfl); (on_goal 2 => rfl); (on_goal 2 => rfl); first | assumption | with_reducible exact Keeps.refl _ | with_reducible apply Keeps.trans ?_ (forEach_keeps _ _ _ (fun _ _ => ?_)) | with_reducible apply Keeps.trans ?_ (unrelease_keeps _ _) | split
    | split
    | dsimp -zeta only

theorem settlePour_keeps (s : State) : Keeps s (settlePour s) := by
  unfold settlePour
  repeat' first
    | assumption
    | with_reducible exact Keeps.refl _
    | with_reducible apply Keeps.trans ?_ (rollBackRelease_keeps _)
    | with_reducible apply Keeps.trans ?_ (passBarrier_keeps _ _)
    | with_reducible apply Keeps.trans ?_ (rerunPour_keeps _)
    | (with_reducible apply Keeps.lit ?_ ?_ ?_ ?_ ?_ ?_); (on_goal 2 => rfl); (on_goal 2 => rfl); (on_goal 2 => rfl); (on_goal 2 => rfl); (on_goal 2 => rfl); first | assumption | with_reducible exact Keeps.refl _ | with_reducible apply Keeps.trans ?_ (rollBackRelease_keeps _) | with_reducible apply Keeps.trans ?_ (passBarrier_keeps _ _) | with_reducible apply Keeps.trans ?_ (rerunPour_keeps _) | split
    | split
    | dsimp -zeta only

theorem rerunSuspended_keeps (s : State) : Keeps s (rerunSuspended s) := by
  unfold rerunSuspended
  repeat' first
    | assumption
    | with_reducible exact Keeps.refl _
    | with_reducible apply Keeps.trans ?_ (forEach_keeps _ _ _ (fun _ _ => ?_))
    | with_reducible apply Keeps.trans ?_ (discardWork_keeps _ _)
    | extract_lets
    | (with_reducible apply Keeps.lit ?_ ?_ ?_ ?_ ?_ ?_); (on_goal 2 => rfl); (on_goal 2 => rfl); (on_goal 2 => rfl); (on_goal 2 => rfl); (on_goal 2 => rfl); first | assumption | with_reducible exact Keeps.refl _ | with_reducible apply Keeps.trans ?_ (forEach_keeps _ _ _ (fun _ _ => ?_)) | with_reducible apply Keeps.trans ?_ (discardWork_keeps _ _)
    | dsimp -zeta only

theorem rollBackOp_keeps (h : Nat) (s : State) : Keeps s (rollBackOp h s) := by
  unfold rollBackOp
  repeat' first
    | assumption
    | with_reducible exact Keeps.refl _
    | with_reducible apply Keeps.trans ?_ (stampAsk_keeps _ _ _)
    | with_reducible apply Keeps.trans ?_ (deleteObjs_keeps _ _ _)
    | with_reducible apply Keeps.trans ?_ (onSess_keeps _ _ _)
    | extract_lets
    | (with_reducible apply Keeps.lit ?_ ?_ ?_ ?_ ?_ ?_); (on_goal 2 => rfl); (on_goal 2 => rfl); (on_goal 2 => rfl); (on_goal 2 => rfl); (on_goal 2 => rfl); first | assumption | with_reducible exact Keeps.refl _ | with_reducible apply Keeps.trans ?_ (stampAsk_keeps _ _ _) | with_reducible apply Keeps.trans ?_ (deleteObjs_keeps _ _ _) | with_reducible apply Keeps.trans ?_ (onSess_keeps _ _ _) | split
    | split
    | dsimp -zeta only

theorem rollBackOps_keeps (s : State) : Keeps s (rollBackOps s) := by
  unfold rollBackOps
  repeat' first
    | assumption
    | with_reducible exact Keeps.refl _
    | with_reducible apply Keeps.trans ?_ (forEach_keeps _ _ _ (fun _ _ => ?_))
    | with_reducible apply Keeps.trans ?_ (rollBackOp_keeps _ _)
    | with_reducible apply Keeps.trans ?_ (abortMigration_keeps _ _ _)
    | extract_lets
    | (with_reducible apply Keeps.lit ?_ ?_ ?_ ?_ ?_ ?_); (on_goal 2 => rfl); (on_goal 2 => rfl); (on_goal 2 => rfl); (on_goal 2 => rfl); (on_goal 2 => rfl); first | assumption | with_reducible exact Keeps.refl _ | with_reducible apply Keeps.trans ?_ (forEach_keeps _ _ _ (fun _ _ => ?_)) | with_reducible apply Keeps.trans ?_ (rollBackOp_keeps _ _) | with_reducible apply Keeps.trans ?_ (abortMigration_keeps _ _ _) | split
    | split
    | dsimp -zeta only

theorem resumeOps_keeps (s : State) : Keeps s (resumeOps s) := by
  unfold resumeOps
  repeat' first
    | assumption
    | with_reducible exact Keeps.refl _
    | with_reducible apply Keeps.trans ?_ (takeover_keeps _)
    | with_reducible apply Keeps.trans ?_ (drainAll_keeps _)
    | with_reducible apply Keeps.trans ?_ (freeAllSpent_keeps _)
    | with_reducible apply Keeps.trans ?_ (applyAsks_keeps _ _ _)
    | dsimp -zeta only

theorem unmirror_keeps (img : Bool × Session) (s : State) : Keeps s (unmirror img s) := by
  unfold unmirror
  repeat' first
    | assumption
    | with_reducible exact Keeps.refl _
    | with_reducible apply Keeps.trans ?_ (setSess_keeps _ _)
    | extract_lets
    | (with_reducible apply Keeps.lit ?_ ?_ ?_ ?_ ?_ ?_); (on_goal 2 => rfl); (on_goal 2 => rfl); (on_goal 2 => rfl); (on_goal 2 => rfl); (on_goal 2 => rfl); first | assumption | with_reducible exact Keeps.refl _ | with_reducible apply Keeps.trans ?_ (setSess_keeps _ _) | split
    | split
    | dsimp -zeta only

theorem loseUnmirrored_keeps (s : State) : Keeps s (loseUnmirrored s) := by
  unfold loseUnmirrored
  repeat' first
    | assumption
    | with_reducible exact Keeps.refl _
    | with_reducible apply Keeps.trans ?_ (forEach_keeps _ _ _ (fun _ _ => ?_))
    | with_reducible apply Keeps.trans ?_ (unmirror_keeps _ _)
    | with_reducible apply Keeps.trans ?_ (mirrorTaken_keeps _)
    | extract_lets
    | (with_reducible apply Keeps.lit ?_ ?_ ?_ ?_ ?_ ?_); (on_goal 2 => rfl); (on_goal 2 => rfl); (on_goal 2 => rfl); (on_goal 2 => rfl); (on_goal 2 => rfl); first | assumption | with_reducible exact Keeps.refl _ | with_reducible apply Keeps.trans ?_ (forEach_keeps _ _ _ (fun _ _ => ?_)) | with_reducible apply Keeps.trans ?_ (unmirror_keeps _ _) | with_reducible apply Keeps.trans ?_ (mirrorTaken_keeps _)
    | dsimp -zeta only

theorem spoilSlot_keeps (k : Nat) (s : State) : Keeps s (spoilSlot k s) := by
  unfold spoilSlot
  repeat' first
    | assumption
    | with_reducible exact Keeps.refl _
    | (with_reducible apply Keeps.lit ?_ ?_ ?_ ?_ ?_ ?_); (on_goal 2 => rfl); (on_goal 2 => rfl); (on_goal 2 => rfl); (on_goal 2 => rfl); (on_goal 2 => rfl); first | assumption | with_reducible exact Keeps.refl _ | split
    | split
    | dsimp -zeta only

theorem takeCut_keeps (c : Ckpt) (s : State) : Keeps s (takeCut c s) := by
  unfold takeCut
  repeat' first
    | assumption
    | with_reducible exact Keeps.refl _
    | with_reducible apply Keeps.trans ?_ (spoilSlot_keeps _ _)
    | extract_lets
    | (with_reducible apply Keeps.lit ?_ ?_ ?_ ?_ ?_ ?_); (on_goal 2 => rfl); (on_goal 2 => rfl); (on_goal 2 => rfl); (on_goal 2 => rfl); (on_goal 2 => rfl); first | assumption | with_reducible exact Keeps.refl _ | with_reducible apply Keeps.trans ?_ (spoilSlot_keeps _ _)
    | dsimp -zeta only

theorem parksEnd_keeps (s : State) : Keeps s (parksEnd s) := by
  unfold parksEnd
  split
  · exact Keeps.refl _
  · exact ⟨rfl, rfl, rfl, rfl, rfl, rfl, by cases s.dev.stop <;> rfl, rfl⟩

theorem releaseOld_keeps (s : State) : Keeps s (releaseOld s) := by
  unfold releaseOld
  repeat' first
    | assumption
    | with_reducible exact Keeps.refl _
    | extract_lets
    | (with_reducible apply Keeps.lit ?_ ?_ ?_ ?_ ?_ ?_); (on_goal 2 => rfl); (on_goal 2 => rfl); (on_goal 2 => rfl); (on_goal 2 => rfl); (on_goal 2 => rfl); first | assumption | with_reducible exact Keeps.refl _ | split
    | split
    | dsimp -zeta only

theorem writeRecord_keeps (c : Ckpt) (s : State) : Keeps s (writeRecord c s) := by
  unfold writeRecord
  repeat' first
    | assumption
    | with_reducible exact Keeps.refl _
    | extract_lets
    | (with_reducible apply Keeps.lit ?_ ?_ ?_ ?_ ?_ ?_); (on_goal 2 => rfl); (on_goal 2 => rfl); (on_goal 2 => rfl); (on_goal 2 => rfl); (on_goal 2 => rfl); first | assumption | with_reducible exact Keeps.refl _ | split
    | split
    | dsimp -zeta only

theorem exportCkpt_keeps (k : Nat) (s : State) : Keeps s (exportCkpt k s) := by
  unfold exportCkpt
  repeat' first
    | assumption
    | with_reducible exact Keeps.refl _
    | extract_lets
    | (with_reducible apply Keeps.lit ?_ ?_ ?_ ?_ ?_ ?_); (on_goal 2 => rfl); (on_goal 2 => rfl); (on_goal 2 => rfl); (on_goal 2 => rfl); (on_goal 2 => rfl); first | assumption | with_reducible exact Keeps.refl _ | split
    | split
    | dsimp -zeta only

theorem orphanPark_keeps (h : Nat) (s : State) : Keeps s (orphanPark h s) := by
  unfold orphanPark
  repeat' first
    | assumption
    | with_reducible exact Keeps.refl _
    | with_reducible apply Keeps.trans ?_ (maskSlot_keeps _ _)
    | with_reducible apply Keeps.trans ?_ (startPark_keeps _ _ _ _ _)
    | with_reducible apply Keeps.trans ?_ (startDemotion_keeps _ _ _)
    | with_reducible apply Keeps.trans ?_ (freeSpent_keeps _ _)
    | with_reducible apply Keeps.trans ?_ (endRequest_keeps _ _ _ _ _ _ _ _)
    | with_reducible apply Keeps.trans ?_ (onSess_keeps _ _ _)
    | extract_lets
    | (with_reducible apply Keeps.lit ?_ ?_ ?_ ?_ ?_ ?_); (on_goal 2 => rfl); (on_goal 2 => rfl); (on_goal 2 => rfl); (on_goal 2 => rfl); (on_goal 2 => rfl); first | assumption | with_reducible exact Keeps.refl _ | with_reducible apply Keeps.trans ?_ (maskSlot_keeps _ _) | with_reducible apply Keeps.trans ?_ (startPark_keeps _ _ _ _ _) | with_reducible apply Keeps.trans ?_ (startDemotion_keeps _ _ _) | with_reducible apply Keeps.trans ?_ (freeSpent_keeps _ _) | with_reducible apply Keeps.trans ?_ (endRequest_keeps _ _ _ _ _ _ _ _) | with_reducible apply Keeps.trans ?_ (onSess_keeps _ _ _) | split
    | split
    | dsimp -zeta only

theorem execLinkOrphanExpiry_keeps (link : Nat) (s : State) : OKeeps s (execLinkOrphanExpiry link s) := by
  unfold execLinkOrphanExpiry
  repeat' first
    | assumption
    | with_reducible exact Keeps.refl _
    | with_reducible apply OKeeps.next ?_
    | exact True.intro
    | with_reducible apply Keeps.trans ?_ (forEach_keeps _ _ _ (fun _ _ => ?_))
    | with_reducible apply Keeps.trans ?_ (orphanPark_keeps _ _)
    | split
    | dsimp -zeta only

theorem resetLink_keeps (link : Nat) (s : State) : Keeps s (resetLink link s) := by
  unfold resetLink
  repeat' first
    | assumption
    | with_reducible exact Keeps.refl _
    | with_reducible apply Keeps.trans ?_ (forEach_keeps _ _ _ (fun _ _ => ?_))
    | with_reducible apply Keeps.trans ?_ (functionReset_keeps _ _)
    | dsimp -zeta only

theorem rebuildHome_keeps (l : List Anchor) (h : Nat) (s : State) : Keeps s (rebuildHome l h s) := by
  unfold rebuildHome
  repeat' first
    | assumption
    | with_reducible exact Keeps.refl _
    | with_reducible apply Keeps.trans ?_ (truncatedRecord_keeps _ _ _ _)
    | with_reducible apply Keeps.trans ?_ (arm_keeps _ _)
    | with_reducible apply Keeps.trans ?_ (anchor_keeps _ _ _)
    | with_reducible apply Keeps.trans ?_ (seat_keeps _ _)
    | with_reducible apply Keeps.trans ?_ (drawFree_keeps _)
    | with_reducible apply Keeps.trans ?_ (setSess_keeps _ _)
    | extract_lets
    | (with_reducible apply Keeps.lit ?_ ?_ ?_ ?_ ?_ ?_); (on_goal 2 => rfl); (on_goal 2 => rfl); (on_goal 2 => rfl); (on_goal 2 => rfl); (on_goal 2 => rfl); first | assumption | with_reducible exact Keeps.refl _ | with_reducible apply Keeps.trans ?_ (truncatedRecord_keeps _ _ _ _) | with_reducible apply Keeps.trans ?_ (arm_keeps _ _) | with_reducible apply Keeps.trans ?_ (anchor_keeps _ _ _) | with_reducible apply Keeps.trans ?_ (seat_keeps _ _) | with_reducible apply Keeps.trans ?_ (drawFree_keeps _) | with_reducible apply Keeps.trans ?_ (setSess_keeps _ _) | split
    | split
    | dsimp -zeta only

theorem scOff_keeps (d : Nat) (s : State) : Keeps s (scOff d s) := by
  unfold scOff
  repeat' first
    | assumption
    | with_reducible exact Keeps.refl _
    | with_reducible apply Keeps.trans ?_ (onDie_keeps _ _ _)
    | extract_lets
    | (with_reducible apply Keeps.lit ?_ ?_ ?_ ?_ ?_ ?_); (on_goal 2 => rfl); (on_goal 2 => rfl); (on_goal 2 => rfl); (on_goal 2 => rfl); (on_goal 2 => rfl); first | assumption | with_reducible exact Keeps.refl _ | with_reducible apply Keeps.trans ?_ (onDie_keeps _ _ _)
    | dsimp -zeta only

theorem failSc_keeps (d : Nat) (s : State) : Keeps s (failSc d s) := by
  unfold failSc
  repeat' first
    | assumption
    | with_reducible exact Keeps.refl _
    | with_reducible apply Keeps.trans ?_ (forEach_keeps _ _ _ (fun _ _ => ?_))
    | with_reducible apply Keeps.trans ?_ (scOff_keeps _ _)
    | with_reducible apply Keeps.trans ?_ (rebuildHome_keeps _ _ _)
    | with_reducible apply Keeps.trans ?_ (rollBackOp_keeps _ _)
    | with_reducible apply Keeps.trans ?_ (rerunPour_keeps _)
    | with_reducible apply Keeps.trans ?_ (onSess_keeps _ _ _)
    | extract_lets
    | (with_reducible apply Keeps.lit ?_ ?_ ?_ ?_ ?_ ?_); (on_goal 2 => rfl); (on_goal 2 => rfl); (on_goal 2 => rfl); (on_goal 2 => rfl); (on_goal 2 => rfl); first | assumption | with_reducible exact Keeps.refl _ | with_reducible apply Keeps.trans ?_ (forEach_keeps _ _ _ (fun _ _ => ?_)) | with_reducible apply Keeps.trans ?_ (scOff_keeps _ _) | with_reducible apply Keeps.trans ?_ (rebuildHome_keeps _ _ _) | with_reducible apply Keeps.trans ?_ (rollBackOp_keeps _ _) | with_reducible apply Keeps.trans ?_ (rerunPour_keeps _) | with_reducible apply Keeps.trans ?_ (onSess_keeps _ _ _)
    | dsimp -zeta only

theorem failPx_keeps (d : Nat) (s : State) : Keeps s (failPx d s) := by
  unfold failPx
  repeat' first
    | assumption
    | with_reducible exact Keeps.refl _
    | with_reducible apply Keeps.trans ?_ (forEach_keeps _ _ _ (fun _ _ => ?_))
    | with_reducible apply Keeps.trans ?_ (leaveUp_keeps _ _ _ (fun _ => ?_) _)
    | with_reducible apply Keeps.trans ?_ (portGo_keeps _ _ _)
    | split
    | dsimp -zeta only

theorem setBundle_keeps (x : Bundle) (s : State) : Keeps s (setBundle x s) := by
  unfold setBundle
  repeat' first
    | assumption
    | with_reducible exact Keeps.refl _
    | (with_reducible apply Keeps.lit ?_ ?_ ?_ ?_ ?_ ?_); (on_goal 2 => rfl); (on_goal 2 => rfl); (on_goal 2 => rfl); (on_goal 2 => rfl); (on_goal 2 => rfl); first | assumption | with_reducible exact Keeps.refl _
    | dsimp -zeta only

theorem mapPair_keeps (l : RunnerLine) (s : State) : Keeps s (mapPair l s) := by
  unfold mapPair
  repeat' first
    | assumption
    | with_reducible exact Keeps.refl _
    | (with_reducible apply Keeps.lit ?_ ?_ ?_ ?_ ?_ ?_); (on_goal 2 => rfl); (on_goal 2 => rfl); (on_goal 2 => rfl); (on_goal 2 => rfl); (on_goal 2 => rfl); first | assumption | with_reducible exact Keeps.refl _ | split
    | split
    | dsimp -zeta only

theorem execRunnerResendRequest_keeps (runner : Nat) (side : BundleSide) (seq : Nat) (s : State) : OKeeps s (execRunnerResendRequest runner side seq s) := by
  unfold execRunnerResendRequest
  repeat' first
    | assumption
    | with_reducible exact Keeps.refl _
    | with_reducible apply OKeeps.next ?_
    | exact True.intro
    | with_reducible apply Keeps.trans ?_ (setBundle_keeps _ _)
    | extract_lets
    | (with_reducible apply Keeps.lit ?_ ?_ ?_ ?_ ?_ ?_); (on_goal 2 => rfl); (on_goal 2 => rfl); (on_goal 2 => rfl); (on_goal 2 => rfl); (on_goal 2 => rfl); first | assumption | with_reducible exact Keeps.refl _ | with_reducible apply Keeps.trans ?_ (setBundle_keeps _ _) | split
    | split
    | dsimp -zeta only

theorem runMessage_keeps (c : Instr) (s : State) : Keeps s (runMessage c s) := by
  unfold runMessage
  split
  · exact stateAfter_keeps _ _ (execOpenSession_keeps _ _)
  · exact stateAfter_keeps _ _ (execAppendText_keeps _ _ _)
  · exact stateAfter_keeps _ _ (execAppendFrame_keeps _ _ _)
  · exact stateAfter_keeps _ _ (execGenerate_keeps _ _ _)
  · exact stateAfter_keeps _ _ (execToolResult_keeps _ _ _)
  · exact stateAfter_keeps _ _ (execCancel_keeps _ _)
  · exact stateAfter_keeps _ _ (execBarge_keeps _ _)
  · exact stateAfter_keeps _ _ (execPark_keeps _ _)
  · exact stateAfter_keeps _ _ (execClose_keeps _ _)
  · exact stateAfter_keeps _ _ (execRecall_keeps _ _ _)
  · exact stateAfter_keeps _ _ (execMemorize_keeps _ _ _)
  · exact stateAfter_keeps _ _ (execForget_keeps _ _)
  · exact stateAfter_keeps _ _ (execTapRelease_keeps _ _)
  · exact stateAfter_keeps _ _ (execBudget_keeps _ _)
  · exact stateAfter_keeps _ _ (execClockForward_keeps _ _)
  · exact stateAfter_keeps _ _ (execUnknownOpcode_keeps _ _)
  · exact Keeps.refl _

theorem takeUnconsumed_keeps (s : State) : Keeps s (takeUnconsumed s) := by
  unfold takeUnconsumed
  repeat' first
    | assumption
    | with_reducible exact Keeps.refl _
    | with_reducible apply Keeps.trans ?_ (forEach_keeps _ _ _ (fun _ _ => ?_))
    | with_reducible apply Keeps.trans ?_ (runMessage_keeps _ _)
    | extract_lets
    | (with_reducible apply Keeps.lit ?_ ?_ ?_ ?_ ?_ ?_); (on_goal 2 => rfl); (on_goal 2 => rfl); (on_goal 2 => rfl); (on_goal 2 => rfl); (on_goal 2 => rfl); first | assumption | with_reducible exact Keeps.refl _ | with_reducible apply Keeps.trans ?_ (forEach_keeps _ _ _ (fun _ _ => ?_)) | with_reducible apply Keeps.trans ?_ (runMessage_keeps _ _)
    | dsimp -zeta only

theorem atStep_keeps (n : Nat) (s : State) : Keeps s (atStep n s) := by
  unfold atStep
  repeat' first
    | assumption
    | with_reducible exact Keeps.refl _
    | (with_reducible apply Keeps.lit ?_ ?_ ?_ ?_ ?_ ?_); (on_goal 2 => rfl); (on_goal 2 => rfl); (on_goal 2 => rfl); (on_goal 2 => rfl); (on_goal 2 => rfl); first | assumption | with_reducible exact Keeps.refl _
    | dsimp -zeta only

theorem rewriteRecord_keeps (slot : Nat) (im : Image) (r : HealthRec) (s : State) : Keeps s (rewriteRecord slot im r s) := by
  unfold rewriteRecord
  repeat' first
    | assumption
    | with_reducible exact Keeps.refl _
    | with_reducible apply Keeps.trans ?_ (hrRewrite_keeps _ _)
    | extract_lets
    | (with_reducible apply Keeps.lit ?_ ?_ ?_ ?_ ?_ ?_); (on_goal 2 => rfl); (on_goal 2 => rfl); (on_goal 2 => rfl); (on_goal 2 => rfl); (on_goal 2 => rfl); first | assumption | with_reducible exact Keeps.refl _ | with_reducible apply Keeps.trans ?_ (hrRewrite_keeps _ _)
    | dsimp -zeta only

theorem loadFirmware_keeps (slot : Nat) (im : Image) (s : State) : Keeps s (loadFirmware slot im s) := by
  unfold loadFirmware
  repeat' first
    | assumption
    | with_reducible exact Keeps.refl _
    | with_reducible apply Keeps.trans ?_ (atStep_keeps _ _)
    | with_reducible apply Keeps.trans ?_ (deriveAlias_keeps _ _)
    | (with_reducible apply Keeps.lit ?_ ?_ ?_ ?_ ?_ ?_); (on_goal 2 => rfl); (on_goal 2 => rfl); (on_goal 2 => rfl); (on_goal 2 => rfl); (on_goal 2 => rfl); first | assumption | with_reducible exact Keeps.refl _ | with_reducible apply Keeps.trans ?_ (atStep_keeps _ _) | with_reducible apply Keeps.trans ?_ (deriveAlias_keeps _ _)
    | dsimp -zeta only

theorem trainStacks_keeps (ok : Nat) (s : State) : Keeps s (trainStacks ok s) := by
  unfold trainStacks
  repeat' first
    | assumption
    | with_reducible exact Keeps.refl _
    | with_reducible apply Keeps.trans ?_ (forEach_keeps _ _ _ (fun _ _ => ?_))
    | with_reducible apply Keeps.trans ?_ (healthEvent_keeps _ _ _)
    | with_reducible apply Keeps.trans ?_ (hrRewrite_keeps _ _)
    | extract_lets
    | (with_reducible apply Keeps.lit ?_ ?_ ?_ ?_ ?_ ?_); (on_goal 2 => rfl); (on_goal 2 => rfl); (on_goal 2 => rfl); (on_goal 2 => rfl); (on_goal 2 => rfl); first | assumption | with_reducible exact Keeps.refl _ | with_reducible apply Keeps.trans ?_ (forEach_keeps _ _ _ (fun _ _ => ?_)) | with_reducible apply Keeps.trans ?_ (healthEvent_keeps _ _ _) | with_reducible apply Keeps.trans ?_ (hrRewrite_keeps _ _) | split
    | split
    | dsimp -zeta only

theorem trainStore_keeps (b : BoardDesc) (obs : StartObs) (s : State) : Keeps s (trainStore b obs s) := by
  unfold trainStore
  repeat' first
    | assumption
    | with_reducible exact Keeps.refl _
    | extract_lets
    | (with_reducible apply Keeps.lit ?_ ?_ ?_ ?_ ?_ ?_); (on_goal 2 => rfl); (on_goal 2 => rfl); (on_goal 2 => rfl); (on_goal 2 => rfl); (on_goal 2 => rfl); first | assumption | with_reducible exact Keeps.refl _
    | dsimp -zeta only

theorem trainPorts_keeps (s : State) : Keeps s (trainPorts s) := by
  unfold trainPorts
  repeat' first
    | assumption
    | with_reducible exact Keeps.refl _
    | with_reducible apply Keeps.trans ?_ (forEach_keeps _ _ _ (fun _ _ => ?_))
    | with_reducible apply Keeps.trans ?_ (lightModules_keeps _)
    | with_reducible apply Keeps.trans ?_ (retrain_keeps _ _ _)
    | with_reducible apply Keeps.trans ?_ (portFail_keeps _ _ _ _)
    | extract_lets
    | split
    | dsimp -zeta only

theorem exportRing_keeps (s : State) : Keeps s (exportRing s) := by
  unfold exportRing
  repeat' first
    | assumption
    | with_reducible exact Keeps.refl _
    | (with_reducible apply Keeps.lit ?_ ?_ ?_ ?_ ?_ ?_); (on_goal 2 => rfl); (on_goal 2 => rfl); (on_goal 2 => rfl); (on_goal 2 => rfl); (on_goal 2 => rfl); first | assumption | with_reducible exact Keeps.refl _
    | dsimp -zeta only

theorem takeImageRole_keeps (r : RoleDesc) (s : State) : Keeps s (takeImageRole r s) := by
  unfold takeImageRole
  repeat' first
    | assumption
    | with_reducible exact Keeps.refl _
    | with_reducible apply Keeps.trans ?_ (exportRing_keeps _)
    | with_reducible apply Keeps.trans ?_ (sendMgr_keeps _ _ _ _ _ _ _)
    | extract_lets
    | (with_reducible apply Keeps.lit ?_ ?_ ?_ ?_ ?_ ?_); (on_goal 2 => rfl); (on_goal 2 => rfl); (on_goal 2 => rfl); (on_goal 2 => rfl); (on_goal 2 => rfl); first | assumption | with_reducible exact Keeps.refl _ | with_reducible apply Keeps.trans ?_ (exportRing_keeps _) | with_reducible apply Keeps.trans ?_ (sendMgr_keeps _ _ _ _ _ _ _) | split
    | split
    | dsimp -zeta only

theorem countRegions_keeps (s : State) : Keeps s (countRegions s) := by
  unfold countRegions
  repeat' first
    | assumption
    | with_reducible exact Keeps.refl _
    | extract_lets
    | (with_reducible apply Keeps.lit ?_ ?_ ?_ ?_ ?_ ?_); (on_goal 2 => rfl); (on_goal 2 => rfl); (on_goal 2 => rfl); (on_goal 2 => rfl); (on_goal 2 => rfl); first | assumption | with_reducible exact Keeps.refl _
    | dsimp -zeta only

theorem trainUnits_keeps (im : Image) (obs : StartObs) (s : State) : Keeps s (trainUnits im obs s) := by
  unfold trainUnits
  repeat' first
    | assumption
    | with_reducible exact Keeps.refl _
    | with_reducible apply Keeps.trans ?_ (countRegions_keeps _)
    | with_reducible apply Keeps.trans ?_ (takeImageRole_keeps _ _)
    | with_reducible apply Keeps.trans ?_ (trainPorts_keeps _)
    | with_reducible apply Keeps.trans ?_ (trainStore_keeps _ _ _)
    | with_reducible apply Keeps.trans ?_ (trainStacks_keeps _ _)
    | with_reducible apply Keeps.trans ?_ (atStep_keeps _ _)
    | with_reducible apply Keeps.trans ?_ (loadTables_keeps _ _)
    | with_reducible apply Keeps.trans ?_ (fitExtents_keeps _)
    | extract_lets
    | (with_reducible apply Keeps.lit ?_ ?_ ?_ ?_ ?_ ?_); (on_goal 2 => rfl); (on_goal 2 => rfl); (on_goal 2 => rfl); (on_goal 2 => rfl); (on_goal 2 => rfl); first | assumption | with_reducible exact Keeps.refl _ | with_reducible apply Keeps.trans ?_ (countRegions_keeps _) | with_reducible apply Keeps.trans ?_ (takeImageRole_keeps _ _) | with_reducible apply Keeps.trans ?_ (trainPorts_keeps _) | with_reducible apply Keeps.trans ?_ (trainStore_keeps _ _ _) | with_reducible apply Keeps.trans ?_ (trainStacks_keeps _ _) | with_reducible apply Keeps.trans ?_ (atStep_keeps _ _) | with_reducible apply Keeps.trans ?_ (loadTables_keeps _ _) | with_reducible apply Keeps.trans ?_ (fitExtents_keeps _) | split
    | split
    | dsimp -zeta only

theorem rebuildTables_keeps (s0 : State) : Keeps s0 (rebuildTables s0) := by
  unfold rebuildTables
  repeat' first
    | assumption
    | with_reducible exact Keeps.refl _
    | with_reducible apply Keeps.trans ?_ (loseUnflushed_keeps _)
    | extract_lets
    | (with_reducible apply Keeps.lit ?_ ?_ ?_ ?_ ?_ ?_); (on_goal 2 => rfl); (on_goal 2 => rfl); (on_goal 2 => rfl); (on_goal 2 => rfl); (on_goal 2 => rfl); first | assumption | with_reducible exact Keeps.refl _ | with_reducible apply Keeps.trans ?_ (loseUnflushed_keeps _) | split
    | split
    | dsimp -zeta only

theorem loadStore_keeps (b : BoardDesc) (s : State) : Keeps s (loadStore b s) := by
  unfold loadStore
  repeat' first
    | assumption
    | with_reducible exact Keeps.refl _
    | with_reducible apply Keeps.trans ?_ (rebuildTables_keeps _)
    | with_reducible apply Keeps.trans ?_ (atStep_keeps _ _)
    | extract_lets
    | (with_reducible apply Keeps.lit ?_ ?_ ?_ ?_ ?_ ?_); (on_goal 2 => rfl); (on_goal 2 => rfl); (on_goal 2 => rfl); (on_goal 2 => rfl); (on_goal 2 => rfl); first | assumption | with_reducible exact Keeps.refl _ | with_reducible apply Keeps.trans ?_ (rebuildTables_keeps _) | with_reducible apply Keeps.trans ?_ (atStep_keeps _ _) | split
    | split
    | dsimp -zeta only

theorem applyStagedState_keeps (im : Image) (s : State) : Keeps s (applyStagedState im s) := by
  unfold applyStagedState
  repeat' first
    | assumption
    | with_reducible exact Keeps.refl _
    | with_reducible apply Keeps.trans ?_ (forEach_keeps _ _ _ (fun _ _ => ?_))
    | with_reducible apply Keeps.trans ?_ (logViolations_keeps _ _)
    | with_reducible apply Keeps.trans ?_ (commitRecord_keeps _ _ _ _ _)
    | with_reducible apply Keeps.trans ?_ (carryOut_keeps _ _)
    | with_reducible apply Keeps.trans ?_ (applyItems_keeps _ _ _)
    | with_reducible apply Keeps.trans ?_ (note_keeps _ _ _)
    | extract_lets
    | (with_reducible apply Keeps.lit ?_ ?_ ?_ ?_ ?_ ?_); (on_goal 2 => rfl); (on_goal 2 => rfl); (on_goal 2 => rfl); (on_goal 2 => rfl); (on_goal 2 => rfl); first | assumption | with_reducible exact Keeps.refl _ | with_reducible apply Keeps.trans ?_ (forEach_keeps _ _ _ (fun _ _ => ?_)) | with_reducible apply Keeps.trans ?_ (logViolations_keeps _ _) | with_reducible apply Keeps.trans ?_ (commitRecord_keeps _ _ _ _ _) | with_reducible apply Keeps.trans ?_ (carryOut_keeps _ _) | with_reducible apply Keeps.trans ?_ (applyItems_keeps _ _ _) | with_reducible apply Keeps.trans ?_ (note_keeps _ _ _) | split
    | split
    | dsimp -zeta only

theorem restoreNothing_keeps (s : State) : Keeps s (restoreNothing s) := by
  unfold restoreNothing
  repeat' first
    | assumption
    | with_reducible exact Keeps.refl _
    | with_reducible apply Keeps.trans ?_ (forEach_keeps _ _ _ (fun _ _ => ?_))
    | with_reducible apply Keeps.trans ?_ (reportLost_keeps _ _ _ _)
    | extract_lets
    | (with_reducible apply Keeps.lit ?_ ?_ ?_ ?_ ?_ ?_); (on_goal 2 => rfl); (on_goal 2 => rfl); (on_goal 2 => rfl); (on_goal 2 => rfl); (on_goal 2 => rfl); first | assumption | with_reducible exact Keeps.refl _ | with_reducible apply Keeps.trans ?_ (forEach_keeps _ _ _ (fun _ _ => ?_)) | with_reducible apply Keeps.trans ?_ (reportLost_keeps _ _ _ _)
    | dsimp -zeta only

theorem rebuildSessions_keeps (anchorOk : Bool) (s : State) : Keeps s (rebuildSessions anchorOk s) := by
  unfold rebuildSessions
  repeat' first
    | assumption
    | with_reducible exact Keeps.refl _
    | with_reducible apply Keeps.trans ?_ (rebuildStore_keeps _ _)
    | with_reducible apply Keeps.trans ?_ (rebuildAnchors_keeps _)
    | split
    | dsimp -zeta only

theorem restoreAll_keeps (im : Image) (obs : StartObs) (s0 : State) : Keeps s0 (restoreAll im obs s0) := by
  unfold restoreAll
  repeat' first
    | assumption
    | with_reducible exact Keeps.refl _
    | with_reducible apply Keeps.trans ?_ (rebuildSessions_keeps _ _)
    | with_reducible apply Keeps.trans ?_ (restoreNothing_keeps _)
    | with_reducible apply Keeps.trans ?_ (applyStagedState_keeps _ _)
    | with_reducible apply Keeps.trans ?_ (atStep_keeps _ _)
    | with_reducible apply Keeps.trans ?_ (restoreSlot_keeps _ _ _ _)
    | extract_lets
    | (with_reducible apply Keeps.lit ?_ ?_ ?_ ?_ ?_ ?_); (on_goal 2 => rfl); (on_goal 2 => rfl); (on_goal 2 => rfl); (on_goal 2 => rfl); (on_goal 2 => rfl); first | assumption | with_reducible exact Keeps.refl _ | with_reducible apply Keeps.trans ?_ (rebuildSessions_keeps _ _) | with_reducible apply Keeps.trans ?_ (restoreNothing_keeps _) | with_reducible apply Keeps.trans ?_ (applyStagedState_keeps _ _) | with_reducible apply Keeps.trans ?_ (atStep_keeps _ _) | with_reducible apply Keeps.trans ?_ (restoreSlot_keeps _ _ _ _) | split
    | split
    | dsimp -zeta only

theorem settleLead_keeps (s : State) : Keeps s (settleLead s) := by
  unfold settleLead
  repeat' first
    | assumption
    | with_reducible exact Keeps.refl _
    | (with_reducible apply Keeps.lit ?_ ?_ ?_ ?_ ?_ ?_); (on_goal 2 => rfl); (on_goal 2 => rfl); (on_goal 2 => rfl); (on_goal 2 => rfl); (on_goal 2 => rfl); first | assumption | with_reducible exact Keeps.refl _ | split
    | split
    | dsimp -zeta only

theorem execRecoverImage_keeps (r : MbReq) (img : Option Image) (s : State) : OKeeps s (execRecoverImage r img s) := by
  unfold execRecoverImage
  repeat' first
    | assumption
    | with_reducible exact Keeps.refl _
    | with_reducible apply OKeeps.next ?_
    | exact True.intro
    | with_reducible apply Keeps.trans ?_ (writeSlot_keeps _ _ _)
    | with_reducible apply Keeps.trans ?_ (mbSimple_keeps _ _ _ _ _ (fun _ _ => ?_) _)
    | with_reducible apply Keeps.trans ?_ (answerMb_keeps _ _ _ _)
    | with_reducible apply Keeps.trans ?_ (hrRewrite_keeps _ _)
    | extract_lets
    | (with_reducible apply Keeps.lit ?_ ?_ ?_ ?_ ?_ ?_); (on_goal 2 => rfl); (on_goal 2 => rfl); (on_goal 2 => rfl); (on_goal 2 => rfl); (on_goal 2 => rfl); first | assumption | with_reducible exact Keeps.refl _ | with_reducible apply Keeps.trans ?_ (writeSlot_keeps _ _ _) | with_reducible apply Keeps.trans ?_ (mbSimple_keeps _ _ _ _ _ (fun _ _ => ?_) _) | with_reducible apply Keeps.trans ?_ (answerMb_keeps _ _ _ _) | with_reducible apply Keeps.trans ?_ (hrRewrite_keeps _ _) | split
    | split
    | dsimp -zeta only

theorem execRecoverFormat_keeps (r : MbReq) (ns : Nat) (s : State) : OKeeps s (execRecoverFormat r ns s) := by
  unfold execRecoverFormat
  repeat' first
    | assumption
    | with_reducible exact Keeps.refl _
    | with_reducible apply OKeeps.next ?_
    | exact True.intro
    | with_reducible apply Keeps.trans ?_ (forEach_keeps _ _ _ (fun _ _ => ?_))
    | with_reducible apply Keeps.trans ?_ (onNs_keeps _ _ _)
    | with_reducible apply Keeps.trans ?_ (flushJournal_keeps _ _)
    | with_reducible apply Keeps.trans ?_ (onHubStore_keeps _ _ _)
    | with_reducible apply Keeps.trans ?_ (mbSimple_keeps _ _ _ _ _ (fun _ _ => ?_) _)
    | with_reducible apply Keeps.trans ?_ (answerMb_keeps _ _ _ _)
    | extract_lets
    | (with_reducible apply Keeps.lit ?_ ?_ ?_ ?_ ?_ ?_); (on_goal 2 => rfl); (on_goal 2 => rfl); (on_goal 2 => rfl); (on_goal 2 => rfl); (on_goal 2 => rfl); first | assumption | with_reducible exact Keeps.refl _ | with_reducible apply Keeps.trans ?_ (forEach_keeps _ _ _ (fun _ _ => ?_)) | with_reducible apply Keeps.trans ?_ (onNs_keeps _ _ _) | with_reducible apply Keeps.trans ?_ (flushJournal_keeps _ _) | with_reducible apply Keeps.trans ?_ (onHubStore_keeps _ _ _) | with_reducible apply Keeps.trans ?_ (mbSimple_keeps _ _ _ _ _ (fun _ _ => ?_) _) | with_reducible apply Keeps.trans ?_ (answerMb_keeps _ _ _ _) | split
    | split
    | dsimp -zeta only

theorem execRecoverHealthRecord_keeps (r : MbReq) (s : State) : OKeeps s (execRecoverHealthRecord r s) := by
  unfold execRecoverHealthRecord
  repeat' first
    | assumption
    | with_reducible exact Keeps.refl _
    | with_reducible apply OKeeps.next ?_
    | exact True.intro
    | with_reducible apply Keeps.trans ?_ (mbSimple_keeps _ _ _ _ _ (fun _ _ => ?_) _)
    | with_reducible apply Keeps.trans ?_ (answerMb_keeps _ _ _ _)
    | extract_lets
    | (with_reducible apply Keeps.lit ?_ ?_ ?_ ?_ ?_ ?_); (on_goal 2 => rfl); (on_goal 2 => rfl); (on_goal 2 => rfl); (on_goal 2 => rfl); (on_goal 2 => rfl); first | assumption | with_reducible exact Keeps.refl _ | with_reducible apply Keeps.trans ?_ (mbSimple_keeps _ _ _ _ _ (fun _ _ => ?_) _) | with_reducible apply Keeps.trans ?_ (answerMb_keeps _ _ _ _) | split
    | split
    | dsimp -zeta only

theorem loseRequest_keeps (q : Open) (s : State) : Keeps s (loseRequest q s) := by
  unfold loseRequest
  repeat' first
    | assumption
    | with_reducible exact Keeps.refl _
    | with_reducible apply Keeps.trans ?_ (onFn_keeps _ _ _)
    | (with_reducible apply Keeps.lit ?_ ?_ ?_ ?_ ?_ ?_); (on_goal 2 => rfl); (on_goal 2 => rfl); (on_goal 2 => rfl); (on_goal 2 => rfl); (on_goal 2 => rfl); first | assumption | with_reducible exact Keeps.refl _ | with_reducible apply Keeps.trans ?_ (onFn_keeps _ _ _) | split
    | split
    | dsimp -zeta only

theorem loseMirrors_keeps (s : State) : Keeps s (loseMirrors s) := by
  unfold loseMirrors
  repeat' first
    | assumption
    | with_reducible exact Keeps.refl _
    | with_reducible apply Keeps.trans ?_ (forEach_keeps _ _ _ (fun _ _ => ?_))
    | with_reducible apply Keeps.trans ?_ (loseRequest_keeps _ _)
    | extract_lets
    | (with_reducible apply Keeps.lit ?_ ?_ ?_ ?_ ?_ ?_); (on_goal 2 => rfl); (on_goal 2 => rfl); (on_goal 2 => rfl); (on_goal 2 => rfl); (on_goal 2 => rfl); first | assumption | with_reducible exact Keeps.refl _ | with_reducible apply Keeps.trans ?_ (forEach_keeps _ _ _ (fun _ _ => ?_)) | with_reducible apply Keeps.trans ?_ (loseRequest_keeps _ _) | split
    | split
    | dsimp -zeta only

theorem failRoll_keeps (s : State) : Keeps s (failRoll s) := by
  unfold failRoll
  repeat' first
    | assumption
    | with_reducible exact Keeps.refl _
    | with_reducible apply Keeps.trans ?_ (answerMb_keeps _ _ _ _)
    | (with_reducible apply Keeps.lit ?_ ?_ ?_ ?_ ?_ ?_); (on_goal 2 => rfl); (on_goal 2 => rfl); (on_goal 2 => rfl); (on_goal 2 => rfl); (on_goal 2 => rfl); first | assumption | with_reducible exact Keeps.refl _ | with_reducible apply Keeps.trans ?_ (answerMb_keeps _ _ _ _) | split
    | split
    | dsimp -zeta only

theorem freshCores_keeps (h : Nat) (s : State) : Keeps s (freshCores h s) := by
  unfold freshCores
  repeat' first
    | assumption
    | with_reducible exact Keeps.refl _
    | (with_reducible apply Keeps.lit ?_ ?_ ?_ ?_ ?_ ?_); (on_goal 2 => rfl); (on_goal 2 => rfl); (on_goal 2 => rfl); (on_goal 2 => rfl); (on_goal 2 => rfl); first | assumption | with_reducible exact Keeps.refl _
    | dsimp -zeta only

theorem fenceCores_keeps (h : Nat) (s : State) : Keeps s (fenceCores h s) := by
  unfold fenceCores
  repeat' first
    | assumption
    | with_reducible exact Keeps.refl _
    | with_reducible apply Keeps.trans ?_ (forEach_keeps _ _ _ (fun _ _ => ?_))
    | with_reducible apply Keeps.trans ?_ (setCore_keeps _ _)
    | extract_lets
    | (with_reducible apply Keeps.lit ?_ ?_ ?_ ?_ ?_ ?_); (on_goal 2 => rfl); (on_goal 2 => rfl); (on_goal 2 => rfl); (on_goal 2 => rfl); (on_goal 2 => rfl); first | assumption | with_reducible exact Keeps.refl _ | with_reducible apply Keeps.trans ?_ (forEach_keeps _ _ _ (fun _ _ => ?_)) | with_reducible apply Keeps.trans ?_ (setCore_keeps _ _)
    | dsimp -zeta only

theorem restartCkpt_keeps (s : State) : Keeps s (restartCkpt s) := by
  unfold restartCkpt
  repeat' first
    | assumption
    | with_reducible exact Keeps.refl _
    | (with_reducible apply Keeps.lit ?_ ?_ ?_ ?_ ?_ ?_); (on_goal 2 => rfl); (on_goal 2 => rfl); (on_goal 2 => rfl); (on_goal 2 => rfl); (on_goal 2 => rfl); first | assumption | with_reducible exact Keeps.refl _
    | dsimp -zeta only

theorem takeover_keeps (s : State) : Keeps s (takeover s) := by
  unfold takeover
  repeat' first
    | assumption
    | with_reducible exact Keeps.refl _
    | with_reducible apply Keeps.trans ?_ (restartCkpt_keeps _)
    | with_reducible apply Keeps.trans ?_ (fenceCores_keeps _ _)
    | with_reducible apply Keeps.trans ?_ (failRoll_keeps _)
    | with_reducible apply Keeps.trans ?_ (loseMirrors_keeps _)
    | with_reducible apply Keeps.trans ?_ (loseUnmirrored_keeps _)
    | with_reducible apply Keeps.trans ?_ (resumeOps_keeps _)
    | with_reducible apply Keeps.trans ?_ (rollBackOps_keeps _)
    | with_reducible apply Keeps.trans ?_ (settlePour_keeps _)
    | with_reducible apply Keeps.trans ?_ (fireState_keeps _)
    | with_reducible apply Keeps.trans ?_ (onHub_keeps _ _ _)
    | extract_lets
    | (with_reducible apply Keeps.lit ?_ ?_ ?_ ?_ ?_ ?_); (on_goal 2 => rfl); (on_goal 2 => rfl); (on_goal 2 => rfl); (on_goal 2 => rfl); (on_goal 2 => rfl); first | assumption | with_reducible exact Keeps.refl _ | with_reducible apply Keeps.trans ?_ (restartCkpt_keeps _) | with_reducible apply Keeps.trans ?_ (fenceCores_keeps _ _) | with_reducible apply Keeps.trans ?_ (failRoll_keeps _) | with_reducible apply Keeps.trans ?_ (loseMirrors_keeps _) | with_reducible apply Keeps.trans ?_ (loseUnmirrored_keeps _) | with_reducible apply Keeps.trans ?_ (resumeOps_keeps _) | with_reducible apply Keeps.trans ?_ (rollBackOps_keeps _) | with_reducible apply Keeps.trans ?_ (settlePour_keeps _) | with_reducible apply Keeps.trans ?_ (fireState_keeps _) | with_reducible apply Keeps.trans ?_ (onHub_keeps _ _ _)
    | dsimp -zeta only

theorem repeatBlocks_keeps (link : Nat) (p : Pour) (s : State) : Keeps s (repeatBlocks link p s) := by
  unfold repeatBlocks
  repeat' first
    | assumption
    | with_reducible exact Keeps.refl _
    | with_reducible apply Keeps.trans ?_ (forEach_keeps _ _ _ (fun _ _ => ?_))
    | with_reducible apply Keeps.trans ?_ (writeBlock_keeps _ _ _ _ _)
    | extract_lets
    | dsimp -zeta only

theorem countFault_keeps (h : Nat) (s : State) : Keeps s (countFault h s) := by
  unfold countFault
  repeat' first
    | assumption
    | with_reducible exact Keeps.refl _
    | with_reducible apply Keeps.trans ?_ (onHub_keeps _ _ _)
    | extract_lets
    | (with_reducible apply Keeps.lit ?_ ?_ ?_ ?_ ?_ ?_); (on_goal 2 => rfl); (on_goal 2 => rfl); (on_goal 2 => rfl); (on_goal 2 => rfl); (on_goal 2 => rfl); first | assumption | with_reducible exact Keeps.refl _ | with_reducible apply Keeps.trans ?_ (onHub_keeps _ _ _)
    | dsimp -zeta only

theorem releaseMirrors_keeps (s : State) : Keeps s (releaseMirrors s) := by
  unfold releaseMirrors
  repeat' first
    | assumption
    | with_reducible exact Keeps.refl _
    | with_reducible apply Keeps.trans ?_ (forEach_keeps _ _ _ (fun _ _ => ?_))
    | with_reducible apply Keeps.trans ?_ (answerMb_keeps _ _ _ _)
    | (with_reducible apply Keeps.lit ?_ ?_ ?_ ?_ ?_ ?_); (on_goal 2 => rfl); (on_goal 2 => rfl); (on_goal 2 => rfl); (on_goal 2 => rfl); (on_goal 2 => rfl); first | assumption | with_reducible exact Keeps.refl _ | with_reducible apply Keeps.trans ?_ (forEach_keeps _ _ _ (fun _ _ => ?_)) | with_reducible apply Keeps.trans ?_ (answerMb_keeps _ _ _ _)
    | dsimp -zeta only

theorem execHeartbeat_keeps (s : State) : OKeeps s (execHeartbeat s) := by
  unfold execHeartbeat
  repeat' first
    | assumption
    | with_reducible exact Keeps.refl _
    | with_reducible apply OKeeps.next ?_
    | exact True.intro
    | dsimp -zeta only

theorem execHubCoresRejoin_keeps (hub : Nat) (s : State) : OKeeps s (execHubCoresRejoin hub s) := by
  unfold execHubCoresRejoin
  repeat' first
    | assumption
    | with_reducible exact Keeps.refl _
    | with_reducible apply OKeeps.next ?_
    | exact True.intro
    | with_reducible apply Keeps.trans ?_ (freshCores_keeps _ _)
    | with_reducible apply Keeps.trans ?_ (deriveAlias_keeps _ _)
    | with_reducible apply Keeps.trans ?_ (onHub_keeps _ _ _)
    | extract_lets
    | (with_reducible apply Keeps.lit ?_ ?_ ?_ ?_ ?_ ?_); (on_goal 2 => rfl); (on_goal 2 => rfl); (on_goal 2 => rfl); (on_goal 2 => rfl); (on_goal 2 => rfl); first | assumption | with_reducible exact Keeps.refl _ | with_reducible apply Keeps.trans ?_ (freshCores_keeps _ _) | with_reducible apply Keeps.trans ?_ (deriveAlias_keeps _ _) | with_reducible apply Keeps.trans ?_ (onHub_keeps _ _ _) | split
    | split
    | dsimp -zeta only

theorem tapInstruction_keeps (code : Nat) (out : Option Nat) (s : State) : Keeps s (tapInstruction code out s) := by
  unfold tapInstruction
  repeat' first
    | assumption
    | with_reducible exact Keeps.refl _
    | (with_reducible apply Keeps.lit ?_ ?_ ?_ ?_ ?_ ?_); (on_goal 2 => rfl); (on_goal 2 => rfl); (on_goal 2 => rfl); (on_goal 2 => rfl); (on_goal 2 => rfl); first | assumption | with_reducible exact Keeps.refl _
    | dsimp -zeta only

theorem execBypass_keeps (s : State) : OKeeps s (execBypass s) := by
  unfold execBypass
  repeat' first
    | assumption
    | with_reducible exact Keeps.refl _
    | with_reducible apply OKeeps.next ?_
    | exact True.intro
    | with_reducible apply Keeps.trans ?_ (tapInstruction_keeps _ _ _)
    | dsimp -zeta only

theorem execSamplePreload_keeps (s : State) : OKeeps s (execSamplePreload s) := by
  unfold execSamplePreload
  repeat' first
    | assumption
    | with_reducible exact Keeps.refl _
    | with_reducible apply OKeeps.next ?_
    | exact True.intro
    | with_reducible apply Keeps.trans ?_ (tapInstruction_keeps _ _ _)
    | dsimp -zeta only

theorem execExtest_keeps (s : State) : OKeeps s (execExtest s) := by
  unfold execExtest
  repeat' first
    | assumption
    | with_reducible exact Keeps.refl _
    | with_reducible apply OKeeps.next ?_
    | exact True.intro
    | with_reducible apply Keeps.trans ?_ (tapInstruction_keeps _ _ _)
    | dsimp -zeta only

theorem execIdcode_keeps (s : State) : OKeeps s (execIdcode s) := by
  unfold execIdcode
  repeat' first
    | assumption
    | with_reducible exact Keeps.refl _
    | with_reducible apply OKeeps.next ?_
    | exact True.intro
    | with_reducible apply Keeps.trans ?_ (tapInstruction_keeps _ _ _)
    | dsimp -zeta only

theorem mgmtAnswer_keeps (hub : Nat) (bs : List Byte) (s : State) : Keeps s (mgmtAnswer hub bs s) := by
  unfold mgmtAnswer
  repeat' first
    | assumption
    | with_reducible exact Keeps.refl _
    | with_reducible apply Keeps.trans ?_ (drawFree_keeps _)
    | (with_reducible apply Keeps.lit ?_ ?_ ?_ ?_ ?_ ?_); (on_goal 2 => rfl); (on_goal 2 => rfl); (on_goal 2 => rfl); (on_goal 2 => rfl); (on_goal 2 => rfl); first | assumption | with_reducible exact Keeps.refl _ | with_reducible apply Keeps.trans ?_ (drawFree_keeps _)
    | dsimp -zeta only

theorem execMctpMessage_keeps (hub msgType length : Nat) (s : State) : OKeeps s (execMctpMessage hub msgType length s) := by
  unfold execMctpMessage
  repeat' first
    | assumption
    | with_reducible exact Keeps.refl _
    | with_reducible apply OKeeps.next ?_
    | exact True.intro
    | with_reducible apply Keeps.trans ?_ (mgmtAnswer_keeps _ _ _)
    | split
    | dsimp -zeta only

theorem execPldmBaseCommand_keeps (hub command : Nat) (s : State) : OKeeps s (execPldmBaseCommand hub command s) := by
  unfold execPldmBaseCommand
  repeat' first
    | assumption
    | with_reducible exact Keeps.refl _
    | with_reducible apply OKeeps.next ?_
    | exact True.intro
    | with_reducible apply Keeps.trans ?_ (mgmtAnswer_keeps _ _ _)
    | split
    | dsimp -zeta only

theorem execPldmPlatformCommand_keeps (hub command sensor : Nat) (s : State) : OKeeps s (execPldmPlatformCommand hub command sensor s) := by
  unfold execPldmPlatformCommand
  repeat' first
    | assumption
    | with_reducible exact Keeps.refl _
    | with_reducible apply OKeeps.next ?_
    | exact True.intro
    | with_reducible apply Keeps.trans ?_ (mgmtAnswer_keeps _ _ _)
    | split
    | dsimp -zeta only

theorem execPldmRequestUpdate_keeps (hub : Nat) (s : State) : OKeeps s (execPldmRequestUpdate hub s) := by
  unfold execPldmRequestUpdate
  repeat' first
    | assumption
    | with_reducible exact Keeps.refl _
    | with_reducible apply OKeeps.next ?_
    | exact True.intro
    | with_reducible apply Keeps.trans ?_ (mgmtAnswer_keeps _ _ _)
    | with_reducible apply Keeps.trans ?_ (onHub_keeps _ _ _)
    | (with_reducible apply Keeps.lit ?_ ?_ ?_ ?_ ?_ ?_); (on_goal 2 => rfl); (on_goal 2 => rfl); (on_goal 2 => rfl); (on_goal 2 => rfl); (on_goal 2 => rfl); first | assumption | with_reducible exact Keeps.refl _ | with_reducible apply Keeps.trans ?_ (mgmtAnswer_keeps _ _ _) | with_reducible apply Keeps.trans ?_ (onHub_keeps _ _ _) | split
    | split
    | dsimp -zeta only

theorem writeUpdate_keeps (activate : Bool) (im : Image) (s : State) : Keeps s (writeUpdate activate im s) := by
  unfold writeUpdate
  repeat' first
    | assumption
    | with_reducible exact Keeps.refl _
    | with_reducible apply Keeps.trans ?_ (writeSlot_keeps _ _ _)
    | with_reducible apply Keeps.trans ?_ (hrRewrite_keeps _ _)
    | extract_lets
    | (with_reducible apply Keeps.lit ?_ ?_ ?_ ?_ ?_ ?_); (on_goal 2 => rfl); (on_goal 2 => rfl); (on_goal 2 => rfl); (on_goal 2 => rfl); (on_goal 2 => rfl); first | assumption | with_reducible exact Keeps.refl _ | with_reducible apply Keeps.trans ?_ (writeSlot_keeps _ _ _) | with_reducible apply Keeps.trans ?_ (hrRewrite_keeps _ _) | split
    | split
    | dsimp -zeta only

theorem execPldmFirmwareUpdate_keeps (hub : Nat) (img : Option Image) (activate : Bool) (s : State) : OKeeps s (execPldmFirmwareUpdate hub img activate s) := by
  unfold execPldmFirmwareUpdate
  repeat' first
    | assumption
    | with_reducible exact Keeps.refl _
    | with_reducible apply OKeeps.next ?_
    | exact True.intro
    | with_reducible apply Keeps.trans ?_ (writeUpdate_keeps _ _ _)
    | with_reducible apply Keeps.trans ?_ (mgmtAnswer_keeps _ _ _)
    | with_reducible apply Keeps.trans ?_ (onHub_keeps _ _ _)
    | extract_lets
    | (with_reducible apply Keeps.lit ?_ ?_ ?_ ?_ ?_ ?_); (on_goal 2 => rfl); (on_goal 2 => rfl); (on_goal 2 => rfl); (on_goal 2 => rfl); (on_goal 2 => rfl); first | assumption | with_reducible exact Keeps.refl _ | with_reducible apply Keeps.trans ?_ (writeUpdate_keeps _ _ _) | with_reducible apply Keeps.trans ?_ (mgmtAnswer_keeps _ _ _) | with_reducible apply Keeps.trans ?_ (onHub_keeps _ _ _) | split
    | split
    | dsimp -zeta only

theorem darken_keeps (px : Nat) (s : State) : Keeps s (darken px s) := by
  unfold darken
  repeat' first
    | assumption
    | with_reducible exact Keeps.refl _
    | with_reducible apply Keeps.trans ?_ (forEach_keeps _ _ _ (fun _ _ => ?_))
    | with_reducible apply Keeps.trans ?_ (leaveUp_keeps _ _ _ (fun _ => ?_) _)
    | with_reducible apply Keeps.trans ?_ (portFail_keeps _ _ _ _)
    | (with_reducible apply Keeps.lit ?_ ?_ ?_ ?_ ?_ ?_); (on_goal 2 => rfl); (on_goal 2 => rfl); (on_goal 2 => rfl); (on_goal 2 => rfl); (on_goal 2 => rfl); first | assumption | with_reducible exact Keeps.refl _ | with_reducible apply Keeps.trans ?_ (forEach_keeps _ _ _ (fun _ _ => ?_)) | with_reducible apply Keeps.trans ?_ (leaveUp_keeps _ _ _ (fun _ => ?_) _) | with_reducible apply Keeps.trans ?_ (portFail_keeps _ _ _ _) | split
    | split
    | dsimp -zeta only

theorem execMgmtBusStuck_keeps (hub : Nat) (mga stillHeld : Bool) (s : State) : OKeeps s (execMgmtBusStuck hub mga stillHeld s) := by
  unfold execMgmtBusStuck
  repeat' first
    | assumption
    | with_reducible exact Keeps.refl _
    | with_reducible apply OKeeps.next ?_
    | exact True.intro
    | with_reducible apply Keeps.trans ?_ (darken_keeps _ _)
    | with_reducible apply Keeps.trans ?_ (note_keeps _ _ _)
    | with_reducible apply Keeps.trans ?_ (onHub_keeps _ _ _)
    | extract_lets
    | (with_reducible apply Keeps.lit ?_ ?_ ?_ ?_ ?_ ?_); (on_goal 2 => rfl); (on_goal 2 => rfl); (on_goal 2 => rfl); (on_goal 2 => rfl); (on_goal 2 => rfl); first | assumption | with_reducible exact Keeps.refl _ | with_reducible apply Keeps.trans ?_ (darken_keeps _ _) | with_reducible apply Keeps.trans ?_ (note_keeps _ _ _) | with_reducible apply Keeps.trans ?_ (onHub_keeps _ _ _) | split
    | split
    | dsimp -zeta only

theorem execNoiseSourceFailure_keeps (hub : Nat) (s : State) : OKeeps s (execNoiseSourceFailure hub s) := by
  unfold execNoiseSourceFailure
  repeat' first
    | assumption
    | with_reducible exact Keeps.refl _
    | with_reducible apply OKeeps.next ?_
    | exact True.intro
    | with_reducible apply Keeps.trans ?_ (healthSignal_keeps _ _ _)
    | with_reducible apply Keeps.trans ?_ (onHub_keeps _ _ _)
    | (with_reducible apply Keeps.lit ?_ ?_ ?_ ?_ ?_ ?_); (on_goal 2 => rfl); (on_goal 2 => rfl); (on_goal 2 => rfl); (on_goal 2 => rfl); (on_goal 2 => rfl); first | assumption | with_reducible exact Keeps.refl _ | with_reducible apply Keeps.trans ?_ (healthSignal_keeps _ _ _) | with_reducible apply Keeps.trans ?_ (onHub_keeps _ _ _) | split
    | split
    | dsimp -zeta only

theorem execHandshakeRateMeasurement_keeps (rates : List Nat) (s : State) : OKeeps s (execHandshakeRateMeasurement rates s) := by
  unfold execHandshakeRateMeasurement
  repeat' first
    | assumption
    | with_reducible exact Keeps.refl _
    | with_reducible apply OKeeps.next ?_
    | exact True.intro
    | with_reducible apply Keeps.trans ?_ (hrAppend_keeps _ _)
    | with_reducible apply Keeps.trans ?_ (fireState_keeps _)
    | extract_lets
    | (with_reducible apply Keeps.lit ?_ ?_ ?_ ?_ ?_ ?_); (on_goal 2 => rfl); (on_goal 2 => rfl); (on_goal 2 => rfl); (on_goal 2 => rfl); (on_goal 2 => rfl); first | assumption | with_reducible exact Keeps.refl _ | with_reducible apply Keeps.trans ?_ (hrAppend_keeps _ _) | with_reducible apply Keeps.trans ?_ (fireState_keeps _) | split
    | split
    | dsimp -zeta only

theorem execConfigurationRequest_keeps (link fn : Nat) (write : Bool) (reg : CfgReg) (value : Nat) (s : State) : OKeeps s (execConfigurationRequest link fn write reg value s) := by
  unfold execConfigurationRequest
  repeat' first
    | assumption
    | with_reducible exact Keeps.refl _
    | with_reducible apply OKeeps.next ?_
    | exact True.intro
    | with_reducible apply Keeps.trans ?_ (onFn_keeps _ _ _)
    | (with_reducible apply Keeps.lit ?_ ?_ ?_ ?_ ?_ ?_); (on_goal 2 => rfl); (on_goal 2 => rfl); (on_goal 2 => rfl); (on_goal 2 => rfl); (on_goal 2 => rfl); first | assumption | with_reducible exact Keeps.refl _ | with_reducible apply Keeps.trans ?_ (onFn_keeps _ _ _) | split
    | split
    | dsimp -zeta only

end Sys2Proof.Machine
end

