-- ==== Sys2Proof/Laws/Moves.lean ====
section
/-! SUPPORT. The operations that change the device state, the fuses or the security state: what each can do to them. -/

namespace Sys2Proof.Machine

/-- `t` follows `s`: the part and the queue stay, the fuses and the unlock count do not fall, `Consistent` is kept, and SAFE_TALK and STOPPED stay. -/
structure Moves (s t : State) : Prop where
  part : t.part = s.part
  pending : t.pending = s.pending
  fuses : s.nor.fuses ≤ t.nor.fuses
  unlocks : s.sec.unlocks ≤ t.sec.unlocks
  inv : Consistent s → Consistent t
  halted : Consistent s → Halted s → t.dev.code = s.dev.code

/-- As `Moves`, but a package reset may end SAFE_TALK and STOPPED in STARTING. -/
structure Ends (s t : State) : Prop where
  part : t.part = s.part
  pending : t.pending = s.pending
  fuses : s.nor.fuses ≤ t.nor.fuses
  unlocks : s.sec.unlocks ≤ t.sec.unlocks
  inv : Consistent s → Consistent t
  halted : Consistent s → Halted s → t.dev.code = s.dev.code ∨ t.dev.code = .starting

/-- An outcome that, when it is a next state, is one that `Ends` allows. -/
def OEnds (s : State) (o : Host.Outcome State Fault Refusal) : Prop :=
  match o with
  | .next t => Ends s t
  | _ => True

theorem Keeps.consistent {s t : State} (k : Keeps s t) (h : Consistent s) : Consistent t := by
  obtain ⟨h1, h2, h3, h4⟩ := h
  refine ⟨?_, ?_, ?_, ?_⟩
  · rw [k.safeLow, k.code]; exact h1
  · rw [k.stop, k.code]; exact h2
  · rw [k.sec]; exact h3
  · rw [k.sec]; exact h4

theorem Keeps.moves {s t : State} (k : Keeps s t) : Moves s t :=
  ⟨k.part, k.pending, k.fuses.symm.le, (congrArg Sec.unlocks k.sec).symm.le, k.consistent, fun _ _ => k.code⟩

theorem Moves.refl (s : State) : Moves s s := (Keeps.refl s).moves

theorem Moves.trans {s t u : State} (a : Moves s t) (b : Moves t u) : Moves s u :=
  ⟨b.part.trans a.part, b.pending.trans a.pending, a.fuses.trans b.fuses, a.unlocks.trans b.unlocks, fun h => b.inv (a.inv h),
    fun h d => (b.halted (a.inv h) (by unfold Halted; rw [a.halted h d]; exact d)).trans (a.halted h d)⟩

theorem Moves.ends {s t : State} (a : Moves s t) : Ends s t :=
  ⟨a.part, a.pending, a.fuses, a.unlocks, a.inv, fun h d => Or.inl (a.halted h d)⟩

theorem Moves.trans_ends {s t u : State} (a : Moves s t) (b : Ends t u) : Ends s u :=
  ⟨b.part.trans a.part, b.pending.trans a.pending, a.fuses.trans b.fuses, a.unlocks.trans b.unlocks, fun h => b.inv (a.inv h),
    fun h d => by
      have e := a.halted h d
      rw [← e]
      exact b.halted (a.inv h) (by unfold Halted; rw [e]; exact d)⟩

theorem OKeeps.ends {s : State} {o : Host.Outcome State Fault Refusal} (h : OKeeps s o) : OEnds s o := by
  cases o with
  | next t => exact (show Keeps s t from h).moves.ends
  | fault _ => exact True.intro
  | refused _ => exact True.intro

theorem forEach_moves {α : Type} (l : List α) (f : α → State → State) (s : State) (h : ∀ x t, Moves t (f x t)) : Moves s (forEach l f s) := by
  unfold forEach
  induction l generalizing s with
  | nil => exact Moves.refl s
  | cons x l ih => exact (h x s).trans (ih (f x s))

theorem forEach_ends {α : Type} (l : List α) (f : α → State → State) (s : State) (P : State → Prop) (hP : ∀ x t, P t → P (f x t))
    (h : ∀ x t, P t → Moves t (f x t)) (hs : P s) : Moves s (forEach l f s) := by
  unfold forEach
  induction l generalizing s with
  | nil => exact Moves.refl s
  | cons x l ih => exact (h x s hs).trans (ih (f x s) (hP x s hs))

/-! ### Device states -/

theorem enterState_code (d : DState) (s : State) : (enterState d s).dev.code = d := by
  unfold enterState
  split
  · assumption
  · exact (fireState_keeps _).code

theorem enterState_stop (d : DState) (s : State) : (enterState d s).dev.stop.isSome = s.dev.stop.isSome := by
  unfold enterState
  split
  · rfl
  · exact (fireState_keeps _).stop

theorem enterState_rest (d : DState) (s : State) :
    (enterState d s).part = s.part ∧ (enterState d s).pending = s.pending ∧ (enterState d s).sec = s.sec ∧
      (enterState d s).nor.fuses = s.nor.fuses := by
  unfold enterState
  split
  · exact ⟨rfl, rfl, rfl, rfl⟩
  · have k := fireState_keeps { s with dev := { s.dev with code := d }, pins := { s.pins with safeLow := d == .safeTalk } }
    exact ⟨k.part, k.pending, k.sec, k.fuses⟩

theorem enterState_safeLow (d : DState) (s : State) (h : s.pins.safeLow = (s.dev.code == .safeTalk)) :
    (enterState d s).pins.safeLow = (d == .safeTalk) := by
  unfold enterState
  split
  · rename_i e; rw [← e]; exact h
  · exact (fireState_keeps _).safeLow

/-- The device enters a state from one that is not SAFE_TALK or STOPPED, with a stop in progress if and only if the state is STOPPING. -/
theorem enter_moves (d : DState) {s u : State} (hp : u.part = s.part) (hq : u.pending = s.pending) (hr : u.sec = s.sec)
    (hf : u.nor.fuses = s.nor.fuses) (hl : u.pins.safeLow = s.pins.safeLow) (hc : u.dev.code = s.dev.code)
    (hs : Consistent s → u.dev.stop.isSome = (d == .stopping)) (hh : Consistent s → ¬ Halted s) : Moves s (enterState d u) := by
  obtain ⟨p, q, r, f⟩ := enterState_rest d u
  refine ⟨p.trans hp, q.trans hq, (f.trans hf).symm.le, (congrArg Sec.unlocks (r.trans hr)).symm.le, fun h => ⟨?_, ?_, ?_, ?_⟩,
    fun h k => absurd k (hh h)⟩
  · rw [enterState_safeLow d u (by rw [hl, hc]; exact h.1), enterState_code]
  · rw [enterState_stop, enterState_code, hs h]
  · rw [r, hr]; exact h.2.2.1
  · rw [r, hr]; exact h.2.2.2

theorem enterState_moves (d : DState) (s : State) (hs : Consistent s → s.dev.stop.isSome = (d == .stopping)) (hh : Consistent s → ¬ Halted s) :
    Moves s (enterState d s) := enter_moves d rfl rfl rfl rfl rfl rfl hs hh

theorem Ends.trans_keeps {s t u : State} (a : Ends s t) (b : Keeps t u) : Ends s u :=
  ⟨b.part.trans a.part, b.pending.trans a.pending, a.fuses.trans b.fuses.symm.le, a.unlocks.trans (congrArg Sec.unlocks b.sec).symm.le,
    fun h => b.consistent (a.inv h), fun h d => by rw [b.code]; exact a.halted h d⟩

theorem Keeps.halted_iff {s t : State} (k : Keeps s t) : Halted t ↔ Halted s := by
  unfold Halted; rw [k.code]

theorem packageReset_ends (s : State) : Ends s (packageReset s) := by
  have key : ∀ t : State, t.part = s.part → t.pending = s.pending → t.nor = s.nor → t.sec.unlocks = s.sec.unlocks → t.sec.open_ = false →
      t.dev.code = .starting → t.dev.stop = none → t.pins.safeLow = false → Ends s t := by
    intro t a b c d e f g i
    refine ⟨a, b, by rw [c], by rw [d], fun h => ⟨?_, ?_, ?_, ?_⟩, fun _ _ => Or.inr f⟩
    · rw [i, f]; rfl
    · rw [g, f]; rfl
    · rw [d]; exact h.2.2.1
    · rw [e]; intro x; cases x
  unfold packageReset
  extract_lets base t
  have et : Ends s t := by
    refine key t ?_ ?_ ?_ ?_ ?_ ?_ ?_ ?_ <;> rfl
  split
  · exact et
  · have e := et
    have k := fireState_keeps t
    refine ⟨k.part.trans e.part, k.pending.trans e.pending, e.fuses.trans k.fuses.symm.le, e.unlocks.trans (congrArg Sec.unlocks k.sec).symm.le,
      fun h => k.consistent (e.inv h), fun h d => by rw [k.code]; exact e.halted h d⟩

/-! ### Stopping -/

/-- With no stop in progress, a stop's outcome changes nothing. -/
theorem proceedStop_none (s : State) (h : s.dev.stop = none) : proceedStop s = s := by
  unfold proceedStop
  rw [h]

theorem not_stopping_none {s : State} (h : Consistent s) (c : s.dev.code ≠ .stopping) : s.dev.stop = none := by
  have h2 := h.2.1
  cases e : s.dev.stop with
  | none => rfl
  | some t =>
    rw [e] at h2
    exact absurd (of_decide_eq_true (by simpa using h2.symm)) c

theorem halted_none {s : State} (h : Consistent s) (d : Halted s) : s.dev.stop = none := by
  refine not_stopping_none h (fun e => ?_)
  cases d with
  | inl d => rw [e] at d; cases d
  | inr d => rw [e] at d; cases d

/-- What a state that follows must keep of the state before it carries over to one that is the same in all of it. -/
theorem Keeps.back {s t : State} (k : Keeps s t) (h : Consistent t) : Consistent s := by
  obtain ⟨h1, h2, h3, h4⟩ := h
  refine ⟨?_, ?_, ?_, ?_⟩
  · rw [← k.safeLow, ← k.code]; exact h1
  · rw [← k.stop, ← k.code]; exact h2
  · rw [← k.sec]; exact h3
  · rw [← k.sec]; exact h4

theorem Keeps.live {s t : State} (k : Keeps s t) (h : Consistent s → ¬ Halted s) : Consistent t → ¬ Halted t :=
  fun c d => h (k.back c) (k.halted_iff.mp d)

/-- A stop closes: STOPPED, and the package reset that may follow. -/
theorem closeStop_ends (result : Nat) (findings : List Finding) (t : Stop) (s : State) (hh : Consistent s → ¬ Halted s) :
    Ends s (closeStop result findings t s) := by
  unfold closeStop
  extract_lets s1 s2 src s3
  have h1 : Keeps s s1 := by
    dsimp -zeta only [s1]
    split
    · exact hrRewrite_keeps _ _
    · exact Keeps.refl _
  have h2 : Keeps s s2 := h1.trans (forEach_keeps _ _ _ (fun _ _ => answerMb_keeps _ _ _ _))
  have h3 : Moves s2 s3 := enter_moves .stopped rfl rfl rfl rfl rfl rfl (fun _ => rfl) (h2.live hh)
  clear_value s3
  split
  · exact (h2.moves.trans h3).trans_ends (packageReset_ends _)
  · exact (h2.moves.trans h3).ends

theorem stop_live {s : State} (t : Stop) (e : s.dev.stop = some t) : Consistent s → ¬ Halted s := by
  intro h d
  rw [halted_none h d] at e
  cases e

/-- Where no stop is in progress nothing happens, so SAFE_TALK and STOPPED stay. -/
theorem proceedStop_ends (s : State) : Ends s (proceedStop s) := by
  unfold proceedStop
  split
  · exact (Moves.refl s).ends
  · rename_i t e
    have hh := stop_live t e
    have kw := writeBases_keeps s
    repeat' first
      | exact (Moves.refl s).ends
      | exact closeStop_ends _ _ _ _ hh
      | exact kw.moves.ends
      | exact kw.moves.trans_ends (closeStop_ends _ _ _ _ (kw.live hh))
      | split

theorem stopOutcome_ends (ok : Bool) (number : Nat) (s : State) : Ends s (stopOutcome ok number s) := by
  unfold stopOutcome
  refine Moves.trans_ends (Keeps.moves ?_) (proceedStop_ends _)
  exact ⟨rfl, rfl, rfl, rfl, rfl, rfl, by cases s.dev.stop <;> rfl, rfl⟩

theorem failCkpt_ends (s : State) : Ends s (failCkpt s) := by
  unfold failCkpt
  split
  · exact (Moves.refl s).ends
  · rename_i c _
    have k : ∀ l : List Asker, Keeps s (answerAskers .checkFailed c.number c.slot 0 l { s with chk := { s.chk with now := none } }) :=
      fun l => (Keeps.lit (Keeps.refl s) rfl rfl rfl rfl rfl).trans (answerAskers_keeps _ _ _ _ _ _)
    dsimp only
    split
    · exact (k _).moves.trans_ends (stopOutcome_ends _ _ _)
    · exact (k _).moves.ends

/-- With no stop in progress a failed checkpoint leaves the device state as it is. -/
theorem failCkpt_code (s : State) (h : s.dev.stop = none) : (failCkpt s).dev.code = s.dev.code := by
  unfold failCkpt
  split
  · rfl
  · rename_i c _
    have k : ∀ l : List Asker, Keeps s (answerAskers .checkFailed c.number c.slot 0 l { s with chk := { s.chk with now := none } }) :=
      fun l => (Keeps.lit (Keeps.refl s) rfl rfl rfl rfl rfl).trans (answerAskers_keeps _ _ _ _ _ _)
    dsimp only
    split
    · have n : (answerAskers .checkFailed c.number c.slot 0 c.askers { s with chk := { s.chk with now := none } }).dev.stop = none := by
        have := (k c.askers).stop
        rw [h] at this
        simpa using this
      unfold stopOutcome
      rw [proceedStop_none]
      · exact (k _).code
      · show Option.map _ _ = none
        rw [n]; rfl
    · exact (k _).code

/-- STOPPING is entered from a state in which no stop is in progress. -/
theorem enterStopping_moves (t : Stop) (s : State) (hh : Consistent s → ¬ Halted s) : Moves s (enterStopping t s) := by
  unfold enterStopping
  have k : Keeps s (abandonTests (dropCommits s)) := (dropCommits_keeps s).trans (abandonTests_keeps _)
  exact k.moves.trans (enter_moves .stopping rfl rfl rfl rfl rfl rfl (fun _ => rfl) (k.live hh))

theorem stopCkpt_ends (a : Asker) (s : State) : Ends s (stopCkpt a s) := by
  unfold stopCkpt
  split
  · exact (beginCkpt_keeps _ _ _ _).moves.ends
  · split
    · exact (answerAsker_keeps _ _ _ _ _ _).moves.trans_ends (stopOutcome_ends _ _ _)
    · exact (beginCkpt_keeps _ _ _ _).moves.ends

theorem code_live {s : State} {d : DState} (e : s.dev.code = d) (h1 : d ≠ .safeTalk) (h2 : d ≠ .stopped) : Consistent s → ¬ Halted s := by
  intro _ h
  cases h with
  | inl h => exact h1 (e.symm.trans h)
  | inr h => exact h2 (e.symm.trans h)

theorem noticeStop_ends (a : Asker) (s : State) : Ends s (noticeStop a s) := by
  unfold noticeStop
  split
  · refine (Keeps.moves ?_).ends
    exact ⟨rfl, rfl, rfl, rfl, rfl, rfl, rfl, rfl⟩
  · refine (Keeps.moves ?_).ends
    exact ⟨rfl, rfl, rfl, rfl, rfl, rfl, rfl, rfl⟩
  · rename_i e
    exact (enterStopping_moves _ _ (code_live e (by decide) (by decide))).trans_ends (stopCkpt_ends _ _)
  · rename_i e
    exact (enterStopping_moves _ _ (code_live e (by decide) (by decide))).trans_ends (stopCkpt_ends _ _)
  · exact (joinStop_keeps _ _).moves.ends
  · exact (answerStopped_keeps _ _).moves.ends
  · exact (Moves.refl s).ends

theorem shutdown_ends (selfTest thenReset : Bool) (q : Open) (s : State) : Ends s (shutdown selfTest thenReset q s) := by
  unfold shutdown
  split
  · rename_i e
    exact (enterStopping_moves _ _ (code_live e (by decide) (by decide))).trans_ends (stopCkpt_ends _ _)
  · rename_i e
    exact (enterStopping_moves _ _ (code_live e (by decide) (by decide))).trans_ends (stopCkpt_ends _ _)
  · refine (Keeps.moves ?_).ends
    exact ⟨rfl, rfl, rfl, rfl, rfl, rfl, by cases h : s.dev.stop <;> rfl, rfl⟩
  · dsimp only
    split
    · exact (answerMb_keeps _ _ _ _).moves.trans_ends (packageReset_ends _)
    · exact (answerMb_keeps _ _ _ _).moves.ends
  · exact (Moves.refl s).ends

/-! ### Checkpoints and links -/

theorem commitCkpt_ends (c : Ckpt) (s : State) : Ends s (commitCkpt c s) := by
  unfold commitCkpt
  extract_lets n s1 s2
  have k : Keeps s s2 :=
    ((((writeRecord_keeps _ _).trans (releaseOld_keeps _)).trans (exportCkpt_keeps _ _)).trans (answerAskers_keeps _ _ _ _ _ _)).trans
      (healthSignal_keeps _ _ _)
  clear_value s2
  split
  · refine Moves.trans_ends (Keeps.moves ?_) (stopOutcome_ends _ _ _)
    exact k.trans ⟨rfl, rfl, rfl, rfl, rfl, rfl, rfl, rfl⟩
  · exact k.moves.ends

theorem orphanStop_ends (s : State) (hh : Consistent s → ¬ Halted s) : Ends s (orphanStop s) := by
  unfold orphanStop
  exact ((enterStopping_moves _ _ hh).trans (forEach_keeps _ _ _ (fun _ _ => orphanPark_keeps _ _)).moves).trans_ends (stopCkpt_ends _ _)

theorem enterOrphan_ends (s : State) (hh : Consistent s → ¬ Halted s) (hs : Consistent s → s.dev.code ≠ .stopping) : Ends s (enterOrphan s) := by
  have m : Moves s (enterState .orphan s) :=
    enterState_moves _ _ (fun h => by rw [not_stopping_none h (hs h)]; rfl) hh
  unfold enterOrphan
  dsimp only
  split
  · exact m.trans_ends (orphanStop_ends _ (code_live (enterState_code _ _) (by decide) (by decide)))
  · exact m.ends

theorem enterServing_ends (s : State) (hh : Consistent s → ¬ Halted s) (hs : Consistent s → s.dev.code ≠ .stopping) : Ends s (enterServing s) := by
  unfold enterServing
  split
  · exact (enterState_moves _ _ (fun h => by rw [not_stopping_none h (hs h)]; rfl) hh).ends
  · exact enterOrphan_ends s hh hs

/-- From a state that is not SAFE_TALK or STOPPED. -/
theorem Ends.moves {s t : State} (a : Ends s t) (hh : Consistent s → ¬ Halted s) : Moves s t :=
  ⟨a.part, a.pending, a.fuses, a.unlocks, a.inv, fun h d => absurd d (hh h)⟩

/-- An outcome that, when it is a next state, is one that `Moves` allows. -/
def OMoves (s : State) (o : Host.Outcome State Fault Refusal) : Prop :=
  match o with
  | .next t => Moves s t
  | _ => True

theorem OMoves.ends {s : State} {o : Host.Outcome State Fault Refusal} (h : OMoves s o) : OEnds s o := by
  cases o with
  | next t => exact (show Moves s t from h).ends
  | fault _ => exact True.intro
  | refused _ => exact True.intro

theorem stateAfter_moves (s : State) (o : Host.Outcome State Fault Refusal) (h : OMoves s o) : Moves s (stateAfter s o) := by
  unfold stateAfter
  split
  · exact h
  · exact Moves.refl _

theorem hostLinkDown_moves (link : Nat) (perst : Bool) (s : State) : OMoves s (execHostLinkDown link perst s) := by
  unfold execHostLinkDown
  split
  · exact Moves.refl s
  · extract_lets src1 src2 s1 s2
    have k1 : Moves s s1 := ⟨rfl, rfl, le_refl _, le_refl _, fun h => h, fun _ _ => rfl⟩
    have k2 : Keeps s1 s2 := by
      dsimp -zeta only [s2]
      refine Keeps.trans ?_ (hostRegionsLost_keeps _ _)
      split
      · exact resetLink_keeps _ _
      · exact Keeps.refl _
    have k : Moves s s2 := k1.trans k2.moves
    clear_value s2
    show Moves s _
    split
    · rename_i c
      have l := code_live c.1 (by decide) (by decide)
      exact k.trans ((enterOrphan_ends s2 l (fun _ e => by rw [c.1] at e; cases e)).moves l)
    · exact k

theorem hostLinkUp_moves (link : Nat) (perst : Bool) (s : State) : OMoves s (execHostLinkUp link perst s) := by
  unfold execHostLinkUp
  split
  · exact Moves.refl s
  · split
    · refine Keeps.moves ?_
      exact ⟨rfl, rfl, rfl, rfl, rfl, rfl, rfl, rfl⟩
    · extract_lets src1 src2 s1 s2
      have k1 : Moves s s1 := ⟨rfl, rfl, le_refl _, le_refl _, fun h => h, fun _ _ => rfl⟩
      have k2 : Keeps s1 s2 := forEach_keeps _ _ _ (fun _ _ => drainBacklog_keeps _ _)
      have k : Moves s s2 := k1.trans k2.moves
      clear_value s2
      show Moves s _
      split
      · rename_i c
        exact k.trans (enterState_moves _ _ (fun h => by
          rw [not_stopping_none h (fun e => by rw [c] at e; cases e)]; rfl) (code_live c (by decide) (by decide)))
      · exact k

/-! ### Dies and runners -/

/-- `Moves`, and a device state other than READY stays. -/
def Steady (s t : State) : Prop := Moves s t ∧ (s.dev.code ≠ .ready → t.dev.code = s.dev.code)

theorem Keeps.steady {s t : State} (k : Keeps s t) : Steady s t := ⟨k.moves, fun _ => k.code⟩

theorem Steady.refl (s : State) : Steady s s := (Keeps.refl s).steady

theorem Steady.trans {s t u : State} (a : Steady s t) (b : Steady t u) : Steady s u :=
  ⟨a.1.trans b.1, fun h => (b.2 (by rw [a.2 h]; exact h)).trans (a.2 h)⟩

theorem forEach_steady {α : Type} (l : List α) (f : α → State → State) (s : State) (h : ∀ x t, Steady t (f x t)) : Steady s (forEach l f s) := by
  unfold forEach
  induction l generalizing s with
  | nil => exact Steady.refl s
  | cons x l ih => exact (h x s).trans (ih (f x s))

theorem hostLinkDown_steady (link : Nat) (perst : Bool) (s : State) : Steady s (stateAfter s (execHostLinkDown link perst s)) := by
  refine ⟨stateAfter_moves _ _ (hostLinkDown_moves _ _ _), fun h => ?_⟩
  unfold execHostLinkDown
  split
  · rfl
  · extract_lets src1 src2 s1 s2
    have k : Keeps s1 s2 := by
      dsimp -zeta only [s2]
      refine Keeps.trans ?_ (hostRegionsLost_keeps _ _)
      split
      · exact resetLink_keeps _ _
      · exact Keeps.refl _
    have hc : s2.dev.code = s.dev.code := k.code
    clear_value s2
    show (if s2.dev.code = DState.ready ∧ _ then enterOrphan s2 else s2).dev.code = s.dev.code
    rw [if_neg (fun c => h (hc.symm.trans c.1))]
    exact hc


theorem failHubDie_steady (h : Nat) (s : State) : Steady s (failHubDie h s) := by
  unfold failHubDie
  extract_lets s1 off src1 src2 s2
  have k1 : Keeps s s1 := onHub_keeps _ _ _
  have k : Keeps s s2 := k1.trans ⟨rfl, rfl, rfl, rfl, rfl, rfl, rfl, rfl⟩
  exact k.steady.trans (hostLinkDown_steady _ _ _)

theorem failDie_steady (d : Nat) (s : State) : Steady s (failDie d s) := by
  unfold failDie
  split
  · exact Steady.refl s
  · extract_lets src s1
    have k : Keeps s s1 := by
      dsimp -zeta only [s1]
      with_reducible apply Keeps.trans ?_ (healthSignal_keeps _ _ _)
      exact ⟨rfl, rfl, rfl, rfl, rfl, rfl, rfl, rfl⟩
    clear_value s1
    refine Steady.trans ?_ (drainAll_keeps _).steady
    split
    · exact (k.trans (failSc_keeps _ _)).steady
    · split
      · exact (k.trans (failPx_keeps _ _)).steady
      · exact k.steady.trans (failHubDie_steady _ _)

theorem failUnreached_steady (s : State) : Steady s (failUnreached s) := forEach_steady _ _ _ failDie_steady

theorem fenceBundle_steady (r b : Nat) (s : State) : Steady s (fenceBundle r b s) := by
  unfold fenceBundle
  split
  · exact Steady.refl s
  · extract_lets b1 b2 s0 src s1
    have k : Keeps s s1 := by
      have k0 : Keeps s s0 := (setBundle_keeps _ _).trans (setBundle_keeps _ _)
      dsimp -zeta only [s1]
      clear_value s0
      with_reducible apply Keeps.trans ?_ (healthEvent_keeps _ _ _)
      exact Keeps.lit k0 rfl rfl rfl rfl rfl
    clear_value s1
    split
    · have k2 : Keeps s { s1 with links := { s1.links with lostRunners := s1.links.lostRunners ++ [r] } } :=
        k.trans ⟨rfl, rfl, rfl, rfl, rfl, rfl, rfl, rfl⟩
      exact (k2.trans (healthSignal_keeps _ _ _)).steady.trans (failUnreached_steady _)
    · exact k.steady

theorem spareGroup_steady (r b : Nat) (d : Bool) (g : Nat) (s : State) : Steady s (spareGroup r b d g s) := by
  unfold spareGroup
  dsimp only
  repeat' first
    | exact Steady.refl s
    | exact fenceBundle_steady _ _ _
    | exact ((setBundle_keeps _ _).trans (healthEvent_keeps _ _ _)).steady
    | split

theorem noticeSpare_steady (r b : Nat) (d : Bool) (g : Nat) (s : State) : Steady s (noticeSpare r b d g s) := by
  unfold noticeSpare
  dsimp only
  split
  · exact Steady.refl s
  · exact (setBundle_keeps _ _).steady.trans (spareGroup_steady _ _ _ _ _)

/-! ### Serving and starting -/

/-- A reset of what the package serves, from a state that is not SAFE_TALK or STOPPED: the stop goes with it. -/
theorem dropRequests_fields (s : State) :
    (dropRequests s).part = s.part ∧ (dropRequests s).pending = s.pending ∧ (dropRequests s).sec = s.sec ∧
      (dropRequests s).nor.fuses = s.nor.fuses ∧ (dropRequests s).pins.safeLow = s.pins.safeLow ∧
      (dropRequests s).dev.code = s.dev.code ∧ (dropRequests s).dev.stop = none := ⟨rfl, rfl, rfl, rfl, rfl, rfl, rfl⟩

theorem dropRequests_moves (s : State) (hs : Consistent s → s.dev.code ≠ .stopping) : Moves s (dropRequests s) := by
  refine ⟨rfl, rfl, le_refl _, le_refl _, fun h => ⟨h.1, ?_, h.2.2.1, h.2.2.2⟩, fun _ _ => rfl⟩
  have e := h.2.1
  rw [not_stopping_none h (hs h)] at e
  exact e

theorem dropServing_moves (s : State) (hh : Consistent s → ¬ Halted s) : Moves s (dropServing s) := by
  have m : Moves s (dropRequests (enterState .starting s)) := by
    obtain ⟨p, q, r, f⟩ := enterState_rest .starting s
    refine ⟨p, q, f.symm.le, (congrArg Sec.unlocks r).symm.le, fun h => ⟨?_, ?_, ?_, ?_⟩, fun h k => absurd k (hh h)⟩
    · exact (enterState_safeLow .starting s h.1).trans (by rw [show (dropRequests (enterState .starting s)).dev.code = .starting from enterState_code _ _])
    · rw [show (dropRequests (enterState .starting s)).dev.code = .starting from enterState_code _ _]; rfl
    · exact (congrArg Sec.unlocks r).le.trans h.2.2.1
    · exact fun o => (congrArg Sec.serveNot r).trans (h.2.2.2 ((congrArg Sec.open_ r).symm.trans o))
  have c : (dropRequests (enterState .starting s)).dev.code = .starting := enterState_code _ _
  unfold dropServing
  extract_lets s1 s2 src
  have k2 : Keeps s1 s2 := by
    dsimp -zeta only [s2]
    exact ((settlePour_keeps _).trans (rerunSuspended_keeps _)).trans (rollBackOps_keeps _)
  have m1 : Moves s s1 := m
  have c1 : s1.dev.code = .starting := c
  clear_value s2 s1
  have k3 : Keeps s1 (dropBinding { s2 with dev := { s2.dev with step := 5 } }) := by
    with_reducible apply Keeps.trans ?_ (dropBinding_keeps _)
    exact k2.trans ⟨rfl, rfl, rfl, rfl, rfl, rfl, rfl, rfl⟩
  have l := k3.live (code_live c1 (by decide) (by decide))
  with_reducible apply Moves.trans ?_ (abandonTests_keeps _).moves
  exact (m1.trans k3.moves).trans ((failCkpt_ends _).moves l)

theorem serveAgain_moves (s : State) (hh : Consistent s → ¬ Halted s) (hs : Consistent s → s.dev.code ≠ .stopping) : Moves s (serveAgain s) := by
  unfold serveAgain
  extract_lets src src' s1
  have m : Moves s s1 := by
    dsimp -zeta only [s1]
    generalize e : ({ s with dev := { s.dev with step := 10 }, store := { s.store with clean := false } } : State) = u
    have k : Keeps s u := by rw [← e]; exact ⟨rfl, rfl, rfl, rfl, rfl, rfl, rfl, rfl⟩
    have hu : Consistent u → u.dev.code ≠ .stopping := fun c => by rw [k.code]; exact hs (k.back c)
    exact k.moves.trans ((enterServing_ends _ (k.live hh) hu).moves (k.live hh))
  clear_value s1
  with_reducible apply Moves.trans ?_ (takeUnconsumed_keeps _).moves
  with_reducible apply Moves.trans ?_ (resumeOps_keeps _).moves
  exact m

theorem dropServing_code (s : State) : (dropServing s).dev.code = .starting := by
  have c : (dropRequests (enterState .starting s)).dev.code = .starting := enterState_code _ _
  have n : (dropRequests (enterState .starting s)).dev.stop = none := rfl
  unfold dropServing
  extract_lets s1 s2 src
  have k2 : Keeps s1 s2 := by
    dsimp -zeta only [s2]
    exact ((settlePour_keeps _).trans (rerunSuspended_keeps _)).trans (rollBackOps_keeps _)
  have c1 : s1.dev.code = .starting := c
  have n1 : s1.dev.stop = none := n
  clear_value s2 s1
  have k3 : Keeps s1 (dropBinding { s2 with dev := { s2.dev with step := 5 } }) := by
    with_reducible apply Keeps.trans ?_ (dropBinding_keeps _)
    exact k2.trans ⟨rfl, rfl, rfl, rfl, rfl, rfl, rfl, rfl⟩
  have n3 : (dropBinding { s2 with dev := { s2.dev with step := 5 } }).dev.stop = none := by
    have := k3.stop
    rw [n1] at this
    simpa using this
  rw [(abandonTests_keeps _).code, failCkpt_code _ n3, k3.code]
  exact c1

end Sys2Proof.Machine
end

