-- ==== Sys2Proof/Laws/Signals.lean ====
section
/-! SUPPORT. Answers and signals: what they change, and that everything else stays. -/

namespace Sys2Proof.Machine

/-- `t` differs from `s` in its functions and in the signals sent alone. -/
def Signals (s t : State) : Prop := t = { s with fns := t.fns, outs := t.outs }

theorem Signals.refl (s : State) : Signals s s := rfl

theorem Signals.trans {s t u : State} (a : Signals s t) (b : Signals t u) : Signals s u := by
  unfold Signals at *
  rw [b, a]

theorem onFn_signals (fn : Nat) (g : Fn → Fn) (s : State) : Signals s (onFn fn g s) := rfl

theorem fire_signals (fn v : Nat) (s : State) : Signals s (fire fn v s) := by
  rcases fire_cases fn v s with h | h <;> rw [h] <;> rfl

theorem forEach_signals {α : Type} (l : List α) (f : α → State → State) (s : State) (h : ∀ x t, Signals t (f x t)) : Signals s (forEach l f s) := by
  unfold forEach
  induction l generalizing s with
  | nil => exact Signals.refl s
  | cons a l ih => exact (h a s).trans (ih (f a s))

theorem fireState_signals (s : State) : Signals s (fireState s) := forEach_signals _ _ _ fun fn t => fire_signals fn 2 t

theorem mbTake_signals (r : MbReq) (op sub : Nat) (s : State) : Signals s (mbTake r op sub s).2 := rfl

theorem answerMb_signals (q : Open) (o : OCode) (p : List Byte) (s : State) : Signals s (answerMb q o p s) := by
  unfold answerMb
  dsimp only
  split
  · exact (onFn_signals _ _ _).trans (fire_signals _ _ _)
  · exact Signals.refl s

/-- Vector 2 on every physical function leaves every mailbox as it is. -/
theorem fnOf_fireState_mb (j : Nat) (s : State) : (fnOf (fireState s) j).mb = (fnOf s j).mb := by
  unfold fireState forEach
  generalize physFns s.part = l
  induction l generalizing s with
  | nil => rfl
  | cons a l ih => rw [List.foldl_cons, ih, fnOf_fire_mb]

/-- A log entry changes the log, the free values drawn and the errors after the health record alone. -/
theorem logWith_frame (die core : Nat) (sev : Option Nat) (data : Nat) (s : State) :
    let t := logWith die core sev data s
    t = { s with free := s.free + 1, nor := t.nor, dev := { s.dev with log := t.dev.log, logNext := s.dev.logNext + 1, logOldest := t.dev.logOldest } } := by
  unfold logWith
  dsimp only
  cases sev with
  | none => rfl
  | some v =>
    dsimp only
    split
    · unfold hrAppend; dsimp only; split
      · split <;> rfl
      · rfl
      · rfl
      · rfl
    · rfl

/-- An entry of no given severity leaves the NOR as it is. -/
theorem note_frame (die data : Nat) (s : State) :
    let t := note die data s
    t = { s with free := s.free + 1, dev := { s.dev with log := t.dev.log, logNext := s.dev.logNext + 1, logOldest := t.dev.logOldest } } := rfl

/-- A health event with vector 2: an entry in the log, counted, and the signals. -/
theorem healthSignal_frame (die data : Nat) (s : State) :
    let t := healthSignal die data s
    t = { s with fns := t.fns, outs := t.outs, free := s.free + 1
                 dev := { s.dev with log := t.dev.log, logNext := s.dev.logNext + 1, logOldest := t.dev.logOldest, events := s.dev.events + 1 } } := by
  have h : healthSignal die data s = _ := fireState_signals (healthEvent die data s)
  have hd : (healthSignal die data s).dev = (healthEvent die data s).dev := by rw [h]
  dsimp only
  rw [hd]
  exact h

/-- A request that is carried out and answered, with nothing else changed, is answered. -/
theorem answer_after (r : MbReq) (op sub : Nat) (o : OCode) (payload : List Byte) (s t : State) (h : t.fns = (mbTake r op sub s).2.fns) :
    Answered r op o payload (answerMb (mbTake r op sub s).1 o payload t) := by
  apply answerMb_answered
  have : fnOf t r.fn = fnOf (mbTake r op sub s).2 r.fn := by unfold fnOf; rw [h]
  rw [this]

end Sys2Proof.Machine
end

