-- ==== Sys2Proof/Laws/Steps.lean ====
section
/-! SUPPORT. The start, the takeover and the commands that move the device: what each can do to the device state, the fuses and the security
state. -/

namespace Sys2Proof.Machine

/-- `t` follows `s`, from which nothing is said of SAFE_TALK and STOPPED. -/
structure Grows (s t : State) : Prop where
  part : t.part = s.part
  pending : t.pending = s.pending
  fuses : s.nor.fuses ≤ t.nor.fuses
  unlocks : s.sec.unlocks ≤ t.sec.unlocks
  inv : Consistent s → Consistent t

theorem Ends.grows {s t : State} (a : Ends s t) : Grows s t := ⟨a.part, a.pending, a.fuses, a.unlocks, a.inv⟩

theorem Moves.grows {s t : State} (a : Moves s t) : Grows s t := a.ends.grows

theorem Keeps.grows {s t : State} (a : Keeps s t) : Grows s t := a.moves.grows

theorem Grows.trans {s t u : State} (a : Grows s t) (b : Grows t u) : Grows s u :=
  ⟨b.part.trans a.part, b.pending.trans a.pending, a.fuses.trans b.fuses, a.unlocks.trans b.unlocks, fun h => b.inv (a.inv h)⟩

/-- From a state that is not SAFE_TALK or STOPPED. -/
theorem Grows.moves {s t : State} (a : Grows s t) (hh : Consistent s → ¬ Halted s) : Moves s t :=
  ⟨a.part, a.pending, a.fuses, a.unlocks, a.inv, fun h d => absurd d (hh h)⟩

theorem forEach_grows {α : Type} (l : List α) (f : α → State → State) (s : State) (h : ∀ x t, Grows t (f x t)) : Grows s (forEach l f s) := by
  unfold forEach
  induction l generalizing s with
  | nil => exact (Keeps.refl s).grows
  | cons x l ih => exact (h x s).trans (ih (f x s))

theorem not_stopping {s : State} {d : DState} (e : s.dev.code = d) (h : d ≠ .stopping) : Consistent s → s.dev.code ≠ .stopping :=
  fun _ c => h (e.symm.trans c)

/-! ### The serving reset -/

theorem servingReset_moves (s : State) : Moves s (servingReset s) := by
  unfold servingReset
  split
  · rename_i e
    split
    · refine (atStep_keeps 5 s).moves.trans (dropRequests_moves _ ?_)
      exact not_stopping ((atStep_keeps 5 s).code.trans e) (by decide)
    · exact Moves.refl s
  · rename_i e
    exact dropRequests_moves _ (not_stopping e (by decide))
  · exact Moves.refl s
  · exact Moves.refl s
  · rename_i h3 h4
    have hh : Consistent s → ¬ Halted s := fun _ d => d.elim h4 h3
    have c := dropServing_code s
    exact (dropServing_moves s hh).trans (serveAgain_moves _ (code_live c (by decide) (by decide)) (not_stopping c (by decide)))

/-! ### The start -/

theorem confirmStart_moves (s : State) : Moves s (confirmStart s) := by
  have m : Moves s { s with nor := { s.nor with fuses := max s.nor.fuses ((s.dev.image.map Image.securityVersion).getD 0) } } :=
    ⟨rfl, rfl, le_max_left _ _, le_refl _, fun h => h, fun _ _ => rfl⟩
  unfold confirmStart
  exact m.trans (hrRewrite_keeps _ _).moves

theorem confirmStart_code (s : State) : (confirmStart s).dev.code = s.dev.code := by
  unfold confirmStart
  exact (hrRewrite_keeps _ _).code

theorem actHeld_grows (q : Open) (s : State) : Grows s (actHeld q s) := by
  unfold actHeld
  split
  · exact (Keeps.refl s).grows
  · split
    · exact (shutdown_ends _ _ _ _).grows
    · exact (shutdown_ends _ _ _ _).grows
    · exact (hubRoll_keeps _ _).grows
    · split
      · rename_i h
        have k := answerMb_keeps q .done [] s
        have hh : Consistent s → ¬ Halted s := by
          intro _ d
          unfold serving at h
          cases d with
          | inl d => rw [d] at h; exact absurd h (by decide)
          | inr d => rw [d] at h; exact absurd h (by decide)
        have c := dropServing_code (answerMb q .done [] s)
        exact ((k.moves.trans (dropServing_moves _ (k.live hh))).trans
          (serveAgain_moves _ (code_live c (by decide) (by decide)) (not_stopping c (by decide)))).grows
      · exact (Keeps.refl s).grows
    · exact (shutdown_ends _ _ _ _).grows

/-- From STARTING. -/
theorem finishStart_grows (s : State) (e : s.dev.code = .starting) : Grows s (finishStart s) := by
  unfold finishStart
  extract_lets s1 src s2 shuts stops src' s3 s4
  have m1 : Moves s s1 := (atStep_keeps 10 s).moves.trans (confirmStart_moves _)
  have c1 : s1.dev.code = .starting := (confirmStart_code _).trans ((atStep_keeps 10 s).code.trans e)
  have m2 : Moves s1 s2 := by
    dsimp -zeta only [s2]
    generalize eu : ({ s1 with store := { s1.store with clean := false } } : State) = u
    have k : Keeps s1 u := by rw [← eu]; exact ⟨rfl, rfl, rfl, rfl, rfl, rfl, rfl, rfl⟩
    have cu := k.code.trans c1
    have l := code_live cu (by decide) (by decide)
    exact k.moves.trans ((enterServing_ends u l (not_stopping cu (by decide))).moves l)
  clear_value s2 s1
  have g3 : Grows s s3 := (m1.trans m2).grows.trans (Keeps.grows ⟨rfl, rfl, rfl, rfl, rfl, rfl, rfl, rfl⟩)
  clear_value s3
  have g4 : Grows s s4 := by
    dsimp -zeta only [s4]
    exact (g3.trans (forEach_grows _ _ _ actHeld_grows)).trans (forEach_grows _ _ _ fun a t => (noticeStop_ends a t).grows)
  clear_value s4
  exact (g4.trans (drainAll_keeps _).grows).trans (applyAsks_keeps _ _ _).grows

/-- From a start or a self-test. -/
theorem completeStart_grows (obs : StartObs) (s : State) (hh : Consistent s → ¬ Halted s) (hs : Consistent s → s.dev.code ≠ .stopping) :
    Grows s (completeStart obs s) := by
  unfold completeStart
  split
  · exact (Keeps.refl s).grows
  · dsimp only
    rename_i im _
    have m : Moves s (enterState .starting s) := enterState_moves _ _ (fun h => by rw [not_stopping_none h (hs h)]; rfl) hh
    have k := ((trainUnits_keeps im obs (enterState .starting s)).trans (loadStore_keeps im.board _)).trans (restoreAll_keeps im obs _)
    exact (m.grows.trans k.grows).trans (finishStart_grows _ (k.code.trans (enterState_code _ _)))

theorem enterSafeTalk_moves (s : State) (hh : Consistent s → ¬ Halted s) (hs : Consistent s → s.dev.code ≠ .stopping) : Moves s (enterSafeTalk s) := by
  have m : Moves s (enterState .safeTalk s) := enterState_moves _ _ (fun h => by rw [not_stopping_none h (hs h)]; rfl) hh
  unfold enterSafeTalk
  dsimp only
  split
  · exact m.trans ((deriveAlias_keeps _ _).trans (deriveAlias_keeps _ _)).moves
  · exact m

theorem applyFinding_steady (f : Finding) (s : State) : Steady s (applyFinding f s) := by
  unfold applyFinding
  split
  · split
    · exact Steady.refl s
    · split
      · exact (onDie_keeps _ _ _).steady
      · split
        · exact (loseCluster_keeps _ _ _).steady
        · exact Steady.refl s
  · split
    · exact spareGroup_steady _ _ _ _ _
    · exact Steady.refl s
  · split
    · exact fenceBundle_steady _ _ _
    · exact Steady.refl s
  · exact (onPort_keeps _ _ _).steady
  · split
    · exact (onHub_keeps _ _ _).steady
    · exact failDie_steady _ _
  · exact (onHub_keeps _ _ _).steady

theorem applyFindings_steady (fs : List Finding) (s : State) : Steady s (applyFindings fs s) :=
  forEach_steady _ _ _ fun f t => (note_keeps _ _ t).steady.trans (applyFinding_steady f _)

theorem selfTestEnd_ends (findings : List Finding) (obs : StartObs) (s : State) : OEnds s (execSelfTestEnd findings obs s) := by
  unfold execSelfTestEnd
  split
  · rename_i e
    extract_lets kept s1
    have st : Steady s s1 := (hrRewrite_keeps _ s).steady.trans (applyFindings_steady _ _)
    have c1 : s1.dev.code = .selfTest := (st.2 (by rw [e]; decide)).trans e
    clear_value s1
    split
    · exact (st.1.trans (enterSafeTalk_moves s1 (code_live c1 (by decide) (by decide)) (not_stopping c1 (by decide)))).ends
    · have k := settleLead_keeps s1
      have c2 := k.code.trans c1
      have g := completeStart_grows obs (settleLead s1) (code_live c2 (by decide) (by decide)) (not_stopping c2 (by decide))
      exact (((st.1.trans k.moves).grows.trans g).moves (code_live e (by decide) (by decide))).ends
  · rename_i e
    have hh : Consistent s → ¬ Halted s := code_live e (by decide) (by decide)
    split
    · split
      · have k : ∀ d : State → Nat, Keeps s (forEach findings (fun f u => note (d u) (findingData f) u) s) := fun d => forEach_keeps _ _ _ fun f u => note_keeps _ _ u
        exact (k leadDie).moves.trans_ends (closeStop_ends _ _ _ _ ((k leadDie).live hh))
      · exact (Moves.refl s).ends
    · exact (Moves.refl s).ends
  · exact (Moves.refl s).ends

/-- From STARTING. -/
theorem bootStart_moves (obs : StartObs) (s : State) (e : s.dev.code = .starting) : Moves s (bootStart obs s) := by
  have dark : ∀ t, Keeps s t → Moves s (enterSafeTalk t) := fun t k =>
    k.moves.trans (enterSafeTalk_moves t (code_live (k.code.trans e) (by decide) (by decide)) (not_stopping (k.code.trans e) (by decide)))
  unfold bootStart
  split
  · exact dark _ (atStep_keeps _ _)
  · split
    · exact dark _ (atStep_keeps _ _)
    · split
      · exact Moves.refl s
      · extract_lets src s1 s2 s3 src' s4
        have k1 : Keeps s s1 := ⟨rfl, rfl, rfl, rfl, rfl, rfl, rfl, rfl⟩
        have k2 : Keeps s s2 := by
          dsimp -zeta only [s2]
          split
          · exact k1.trans (note_keeps _ _ _)
          · exact k1
        have k3 : Keeps s s3 := by
          dsimp -zeta only [s3]
          exact (k2.trans (rewriteRecord_keeps _ _ _ _)).trans (loadFirmware_keeps _ _ _)
        have k4 : Keeps s s4 := k3.trans ⟨rfl, rfl, rfl, rfl, rfl, rfl, rfl, rfl⟩
        clear_value s4
        have c4 := k4.code.trans e
        split
        · have g := completeStart_grows obs s4 (code_live c4 (by decide) (by decide)) (not_stopping c4 (by decide))
          exact (k4.grows.trans g).moves (code_live e (by decide) (by decide))
        · have k5 := k4.trans (atStep_keeps 6 s4)
          have c5 := k5.code.trans e
          exact k5.moves.trans (enterState_moves _ _ (fun h => by
            rw [not_stopping_none h (not_stopping c5 (by decide) h)]; rfl) (code_live c5 (by decide) (by decide)))

/-- Power good is read from a state before it, which is STARTING. -/
theorem powerGood_ends (obs : StartObs) (s : State) : OEnds s (execPowerGood obs s) := by
  unfold execPowerGood
  split
  · exact (Moves.refl s).ends
  · rename_i h
    have e : s.dev.code = .starting := by
      simp only [Bool.or_eq_true, bne_iff_ne, ne_eq, not_or, not_not] at h
      exact h.2
    extract_lets src s1
    have k : Keeps s s1 := by
      dsimp -zeta only [s1]
      with_reducible apply Keeps.trans ?_ (atStep_keeps _ _)
      exact ⟨rfl, rfl, rfl, rfl, rfl, rfl, rfl, rfl⟩
    clear_value s1
    have c := k.code.trans e
    split
    · exact (k.moves.trans (bootStart_moves obs s1 c)).ends
    · split
      · exact k.moves.ends
      · exact (k.moves.trans (enterSafeTalk_moves s1 (code_live c (by decide) (by decide)) (not_stopping c (by decide)))).ends

theorem norTakeoverHubB_ends (obs : StartObs) (s : State) : OEnds s (execNorTakeoverHubB obs s) := by
  unfold execNorTakeoverHubB
  split
  · rename_i h
    extract_lets src s1
    have k : Keeps s s1 := ⟨rfl, rfl, rfl, rfl, rfl, rfl, rfl, rfl⟩
    clear_value s1
    have c := k.code.trans h.2.2.1
    split
    · exact (k.moves.trans (bootStart_moves obs s1 c)).ends
    · exact (k.moves.trans (enterSafeTalk_moves s1 (code_live c (by decide) (by decide)) (not_stopping c (by decide)))).ends
  · exact (Moves.refl s).ends

/-! ### Faults of cores, hubs and rails -/

theorem takeoverWhole_moves (s : State) : Moves s (takeoverWhole s) := by
  unfold takeoverWhole
  extract_lets old src s1 s2
  have k1 : Keeps s s1 := ⟨rfl, rfl, rfl, rfl, rfl, rfl, rfl, rfl⟩
  have m : Moves s s2 := by
    dsimp -zeta only [s2]
    exact (k1.trans (takeover_keeps s1)).moves.trans (failHubDie_steady _ _).1
  clear_value s2
  split
  · split
    · exact m.trans (repeatBlocks_keeps _ _ _).moves
    · exact m
  · exact m

theorem hubFault_moves (h : Nat) (s : State) : Moves s (hubFault h s) := by
  unfold hubFault
  split
  · exact Moves.refl s
  · split
    · split
      · exact ((takeover_keeps s).trans (countFault_keeps _ _)).moves
      · exact servingReset_moves s
    · extract_lets s1 src s2
      have k1 : Keeps s s1 := by
        dsimp -zeta only [s1]
        exact (onHub_keeps _ _ _).trans (countFault_keeps _ _)
      have k2 : Keeps s s2 := k1.trans ⟨rfl, rfl, rfl, rfl, rfl, rfl, rfl, rfl⟩
      exact ((k2.trans (releaseMirrors_keeps _)).trans (failRoll_keeps _)).moves

theorem coreFault_moves (id : CoreId) (cause : CoreFaultCause) (s : State) : Moves s (coreFault id cause s) := by
  unfold coreFault
  extract_lets c s1
  have k1 : Keeps s s1 := by
    dsimp -zeta only [s1]
    exact (setCore_keeps _ _).trans (noteError_keeps _ _ _ _)
  clear_value s1
  split
  · exact Moves.refl s
  · split
    · split
      · rename_i n _
        exact (k1.trans (stateAfter_keeps _ _ (execClusterFault_keeps id.unit n s1))).moves
      · exact k1.moves
    · exact k1.moves.trans (hubFault_moves _ _)

theorem losePower_ends (r : Rail) (s : State) : Ends s (losePower r s) := by
  unfold losePower
  extract_lets t src
  have e : Ends s t := packageReset_ends s
  clear_value t
  split
  · exact e.trans_keeps ⟨rfl, rfl, rfl, rfl, rfl, rfl, rfl, rfl⟩
  · exact e

theorem railOutOfRange_ends (rail : Rail) (mv : Int) (s : State) : OEnds s (execRailOutOfRange rail mv s) := by
  unfold execRailOutOfRange
  split
  · exact (Moves.refl s).ends
  · split
    · exact True.intro
    · split
      · exact losePower_ends _ _
      · exact (Moves.refl s).ends

/-! ### The debug port -/

theorem mayUnlock_count {s : State} (h : mayUnlock s = true) : s.sec.unlocks < 15 := by
  unfold mayUnlock at h
  simp only [Bool.and_eq_true, decide_eq_true_eq] at h
  exact h.2

theorem unlock_moves (s : State) (h : s.sec.unlocks < 15) : Moves s (unlock s) := by
  unfold unlock
  extract_lets s1
  have k : Keeps s s1 := hrRewrite_keeps _ s
  clear_value s1
  have u : s1.sec.unlocks = s.sec.unlocks := congrArg Sec.unlocks k.sec
  refine k.moves.trans ⟨rfl, rfl, le_refl _, Nat.le_succ _, fun c => ⟨c.1, c.2.1, ?_, fun _ => rfl⟩, fun _ _ => rfl⟩
  show s1.sec.unlocks + 1 ≤ 15
  rw [u]; exact h

theorem debugChallenge_ends (s : State) : OEnds s (execDebugChallenge s) := by
  unfold execDebugChallenge
  split
  · dsimp only
    refine Moves.ends (Moves.trans ?_ (drawFree_keeps _).moves)
    exact ⟨rfl, rfl, le_refl _, le_refl _, fun c => c, fun _ _ => rfl⟩
  · exact (Moves.refl s).ends

theorem debugUnlock_ends (sigOk : Bool) (s : State) : OEnds s (execDebugUnlock sigOk s) := by
  unfold execDebugUnlock
  split
  · rename_i h
    simp only [Bool.and_eq_true] at h
    exact (unlock_moves s (mayUnlock_count h.1.1)).ends
  · exact (Moves.refl s).ends

/-! ### Requests and messages -/

/-- A mailbox request whose meaning may move the device. -/
theorem mbRun_ends (r : MbReq) (op sub : Nat) (lens : Nat → Bool) (hold body : Open → State → State)
    (hh : ∀ q t, Keeps t (hold q t)) (hb : ∀ q t, Ends t (body q t)) (s : State) : Ends s (mbRun r op sub lens hold body s) := by
  have ht : Keeps s (mbTake r op sub s).2 := mbTake_keeps r op sub s
  unfold mbRun
  split
  · exact (onFn_keeps _ _ _).moves.ends
  · dsimp only
    split
    · exact (ht.trans (answerMb_keeps _ _ _ _)).moves.ends
    · split
      · exact (ht.trans (answerMb_keeps _ _ _ _)).moves.ends
      · split
        · exact (ht.trans (hh _ _)).moves.ends
        · exact (ht.trans (answerMb_keeps _ _ _ _)).moves.ends
      · split
        · exact ht.moves.trans_ends (hb _ _)
        · exact (ht.trans (answerMb_keeps _ _ _ _)).moves.ends

theorem takeOnce_ends (h : MgrHdr) (body : State → State) (hb : ∀ t, Ends t (body t)) (s : State) : Ends s (takeOnce h body s) := by
  unfold takeOnce
  extract_lets src s1
  have k : Keeps s s1 := ⟨rfl, rfl, rfl, rfl, rfl, rfl, rfl, rfl⟩
  split
  · exact (Moves.refl s).ends
  · split
    · exact k.moves.ends
    · split
      · exact (k.trans (ackDone_keeps _ _)).moves.ends
      · refine (Moves.trans_ends (Keeps.moves ?_) (hb _)).trans_keeps (ackDone_keeps _ _)
        exact k.trans ⟨rfl, rfl, rfl, rfl, rfl, rfl, rfl, rfl⟩

theorem shutdownSelfTest_ends (r : MbReq) (s : State) : OEnds s (execShutdownSelfTest r s) :=
  mbRun_ends r _ _ _ _ _ holdShut_keeps (shutdown_ends true false) s

theorem shutdownOrderly_ends (r : MbReq) (s : State) : OEnds s (execShutdownOrderly r s) :=
  mbRun_ends r _ _ _ _ _ holdShut_keeps (shutdown_ends false false) s

theorem shutdownPackageReset_ends (r : MbReq) (s : State) : OEnds s (execShutdownPackageReset r s) :=
  mbRun_ends r _ _ _ _ _ holdShut_keeps (shutdown_ends false true) s

theorem shutdownServingReset_ends (r : MbReq) (s : State) : OEnds s (execShutdownServingReset r s) :=
  mbRun_ends r _ _ _ _ _ holdShut_keeps (fun q t => ((answerMb_keeps q .done [] t).moves.trans (servingReset_moves _)).ends) s

theorem preemptStop_ends (r : MbReq) (s : State) : OEnds s (execPreemptStop r s) := by
  have b : ∀ q t, Ends t (noticeStop (.mailbox q) t) := fun q t => noticeStop_ends _ t
  unfold execPreemptStop mbSimple
  have ht : Keeps s (mbTake r 0x51 1 s).2 := mbTake_keeps r _ _ s
  unfold mbRun
  show Ends s _
  split
  · exact (onFn_keeps _ _ _).moves.ends
  · dsimp only
    split
    · exact (ht.trans (answerMb_keeps _ _ _ _)).moves.ends
    · split
      · exact (ht.trans (answerMb_keeps _ _ _ _)).moves.ends
      · split
        · exact ht.moves.trans_ends (b _ _)
        · exact (ht.trans (answerMb_keeps _ _ _ _)).moves.ends
      · split
        · exact ht.moves.trans_ends (b _ _)
        · exact (ht.trans (answerMb_keeps _ _ _ _)).moves.ends

theorem checkpointNotice_ends (h : MgrHdr) (kind : Nat) (s : State) : OEnds s (execCheckpointNotice h kind s) := by
  refine takeOnce_ends h _ (fun t => ?_) s
  split
  · exact noticeStop_ends _ t
  · split
    · exact (noticeLive_keeps _ t).moves.ends
    · exact (Moves.refl t).ends

theorem preemptNAssert_ends (lowNs : Nat) (s : State) : OEnds s (execPreemptNAssert lowNs s) := by
  unfold execPreemptNAssert
  split
  · exact (Moves.refl s).ends
  · split
    · exact noticeStop_ends _ s
    · exact (note_keeps _ _ s).moves.ends

theorem vauxWarning_ends (mv lowNs : Nat) (s : State) : OEnds s (execVauxWarning mv lowNs s) := by
  unfold execVauxWarning
  split
  · exact noticeStop_ends _ s
  · exact (Moves.refl s).ends

theorem execServingReset_ends (lowNs : Nat) (s : State) : OEnds s (execServingReset lowNs s) := by
  unfold execServingReset
  split
  · exact (servingReset_moves s).ends
  · exact (Moves.refl s).ends

theorem execPackageReset_ends (lowNs : Nat) (s : State) : OEnds s (execPackageReset lowNs s) := by
  unfold execPackageReset
  split
  · exact packageReset_ends s
  · exact (Moves.refl s).ends

theorem heartbeatMissed_ends (s : State) : OEnds s (execHeartbeatMissed s) := by
  unfold execHeartbeatMissed
  split
  · exact (takeoverWhole_moves s).ends
  · exact (Moves.refl s).ends

theorem hubRollHubReady_ends (ok : Bool) (s : State) : OEnds s (execHubRollHubReady ok s) := by
  unfold execHubRollHubReady
  split
  · exact (Moves.refl s).ends
  · rename_i r _
    extract_lets good s1 src1 s2 raise src2 s3
    have k1 : Keeps s s1 := (onHub_keeps _ _ _).trans (deriveAlias_keeps _ _)
    have k2 : Keeps s s2 := k1.trans ⟨rfl, rfl, rfl, rfl, rfl, rfl, rfl, rfl⟩
    have m3 : Moves s s3 := by
      dsimp -zeta only [s3]
      refine Moves.trans (k1.moves.trans ?_) (hrRewrite_keeps _ _).moves
      exact ⟨rfl, rfl, le_max_left _ _, le_refl _, fun c => c, fun _ _ => rfl⟩
    clear_value s3 s2
    split
    · split
      · refine Moves.ends (Keeps.moves (Keeps.trans ?_ (answerMb_keeps _ _ _ _)))
        exact k1.trans ⟨rfl, rfl, rfl, rfl, rfl, rfl, rfl, rfl⟩
      · exact (Moves.refl s).ends
    · split
      · show Ends s _
        split
        · exact (k2.trans (handOver_keeps _)).moves.ends
        · exact k2.moves.ends
      · split
        · exact (m3.trans (answerMb_keeps _ _ _ _).moves).ends
        · exact (Moves.refl s).ends

/-! ### Checkpoints, links and runners -/

theorem checkpointCut_ends (s : State) : OEnds s (execCheckpointCut s) := by
  unfold execCheckpointCut
  extract_lets t
  have k : Keeps s t := parksEnd_keeps s
  clear_value t
  split
  · exact k.moves.trans_ends (proceedStop_ends t)
  · split
    · exact k.moves.ends
    · split
      · split
        · exact k.moves.ends
        · split
          · exact k.moves.trans_ends (failCkpt_ends t)
          · exact ((k.trans (suspend_keeps t)).trans (takeCut_keeps _ _)).moves.ends
      · split
        · show Ends s _
          split
          · exact k.moves.trans_ends (failCkpt_ends t)
          · exact (k.trans (takeCut_keeps _ _)).moves.ends
        · exact k.moves.ends

theorem checkpointCommit_ends (s : State) : OEnds s (execCheckpointCommit s) := by
  unfold execCheckpointCommit
  split
  · exact (Moves.refl s).ends
  · split
    · exact (Moves.refl s).ends
    · split
      · exact commitCkpt_ends _ s
      · exact (failCkpt_ends s).trans_keeps (healthSignal_keeps _ _ _)

theorem checkpointFailed_ends (modulesLeft : Nat) (s : State) : OEnds s (execCheckpointFailed modulesLeft s) := by
  unfold execCheckpointFailed
  split
  · exact (Moves.refl s).ends
  · extract_lets src1 s1
    have k : Keeps s s1 := by
      dsimp -zeta only [s1]
      split
      · exact ⟨rfl, rfl, rfl, rfl, rfl, rfl, rfl, rfl⟩
      · exact Keeps.refl s
    clear_value s1
    exact ((k.moves.trans_ends (failCkpt_ends s1)).trans_keeps (healthSignal_keeps _ _ _)).trans_keeps (holdBound_keeps _ _)

theorem orphanAllowanceExpiry_ends (s : State) : OEnds s (execOrphanAllowanceExpiry s) := by
  unfold execOrphanAllowanceExpiry
  split
  · rename_i e
    exact orphanStop_ends s (code_live e (by decide) (by decide))
  · exact (Moves.refl s).ends

theorem runnerLineReceived_ends (l : RunnerLine) (s : State) : OEnds s (execRunnerLineReceived l s) := by
  unfold execRunnerLineReceived
  split
  · extract_lets x0 x s0 y
    have k : Keeps s s0 := by
      dsimp -zeta only [s0]
      split
      · exact mapPair_keeps _ _
      · exact Keeps.refl s
    clear_value s0
    split
    · exact (k.trans (setBundle_keeps _ _)).moves.ends
    · split
      · exact (k.trans (setBundle_keeps _ _)).moves.ends
      · extract_lets z s1
        have k1 : Keeps s s1 := k.trans (setBundle_keeps _ _)
        clear_value s1
        show Ends s _
        split
        · exact (k1.moves.trans (noticeSpare_steady _ _ _ _ _).1).ends
        · exact k1.moves.ends
  · exact (Moves.refl s).ends

theorem runnerStuckWire_ends (runner : Nat) (side : BundleSide) (group : Nat) (s : State) : OEnds s (execRunnerStuckWire runner side group s) := by
  unfold execRunnerStuckWire
  split
  · exact (noticeSpare_steady _ _ _ _ s).1.ends
  · exact (Moves.refl s).ends

theorem runnerSparingNotice_ends (runner : Nat) (side : BundleSide) (group : Nat) (s : State) :
    OEnds s (execRunnerSparingNotice runner side group s) := by
  unfold execRunnerSparingNotice
  dsimp only
  split
  · exact (Moves.refl s).ends
  · exact ((spareGroup_steady _ _ _ _ s).1.trans (setBundle_keeps _ _).moves).ends

end Sys2Proof.Machine
end

