-- ==== Sys2Proof/Laws/Updates.lean ====
section
/-! SUPPORT. The named updates above the plain ones: what each leaves of every field, and what it makes of the entry that it writes: once, so that no
later proof unfolds an update; and when a port sends a unit at once. -/

namespace Sys2Proof.Machine

/-! ### `setCore` -/

@[simp] theorem setCore_part (c : Core) (s : State) : (setCore c s).part = s.part := rfl
@[simp] theorem setCore_dev (c : Core) (s : State) : (setCore c s).dev = s.dev := rfl
@[simp] theorem setCore_nor (c : Core) (s : State) : (setCore c s).nor = s.nor := rfl
@[simp] theorem setCore_pins (c : Core) (s : State) : (setCore c s).pins = s.pins := rfl
@[simp] theorem setCore_sec (c : Core) (s : State) : (setCore c s).sec = s.sec := rfl
@[simp] theorem setCore_outs (c : Core) (s : State) : (setCore c s).outs = s.outs := rfl
@[simp] theorem setCore_parts (c : Core) (s : State) : (setCore c s).parts = s.parts := rfl
@[simp] theorem setCore_dies (c : Core) (s : State) : (setCore c s).dies = s.dies := rfl
@[simp] theorem setCore_cores_sems (c : Core) (s : State) : (setCore c s).cores.sems = s.cores.sems := rfl
@[simp] theorem setCore_cores_ctxs (c : Core) (s : State) : (setCore c s).cores.ctxs = s.cores.ctxs := rfl
@[simp] theorem setCore_cores_unmirrored (c : Core) (s : State) : (setCore c s).cores.unmirrored = s.cores.unmirrored := rfl
@[simp] theorem setCore_cores_allowed (c : Core) (s : State) : (setCore c s).cores.allowed = s.cores.allowed := rfl
@[simp] theorem setCore_stg (c : Core) (s : State) : (setCore c s).stg = s.stg := rfl
@[simp] theorem setCore_fns (c : Core) (s : State) : (setCore c s).fns = s.fns := rfl
@[simp] theorem setCore_tens (c : Core) (s : State) : (setCore c s).tens = s.tens := rfl
@[simp] theorem setCore_sess (c : Core) (s : State) : (setCore c s).sess = s.sess := rfl
@[simp] theorem setCore_sched (c : Core) (s : State) : (setCore c s).sched = s.sched := rfl
@[simp] theorem setCore_models (c : Core) (s : State) : (setCore c s).models = s.models := rfl
@[simp] theorem setCore_tiers (c : Core) (s : State) : (setCore c s).tiers = s.tiers := rfl
@[simp] theorem setCore_store (c : Core) (s : State) : (setCore c s).store = s.store := rfl
@[simp] theorem setCore_rcl (c : Core) (s : State) : (setCore c s).rcl = s.rcl := rfl
@[simp] theorem setCore_ledger (c : Core) (s : State) : (setCore c s).ledger = s.ledger := rfl
@[simp] theorem setCore_links (c : Core) (s : State) : (setCore c s).links = s.links := rfl
@[simp] theorem setCore_rack (c : Core) (s : State) : (setCore c s).rack = s.rack := rfl
@[simp] theorem setCore_chk (c : Core) (s : State) : (setCore c s).chk = s.chk := rfl
@[simp] theorem setCore_free (c : Core) (s : State) : (setCore c s).free = s.free := rfl
@[simp] theorem setCore_pending (c : Core) (s : State) : (setCore c s).pending = s.pending := rfl

/-! ### `setSem` -/

@[simp] theorem setSem_part (x : Sem) (s : State) : (setSem x s).part = s.part := rfl
@[simp] theorem setSem_dev (x : Sem) (s : State) : (setSem x s).dev = s.dev := rfl
@[simp] theorem setSem_nor (x : Sem) (s : State) : (setSem x s).nor = s.nor := rfl
@[simp] theorem setSem_pins (x : Sem) (s : State) : (setSem x s).pins = s.pins := rfl
@[simp] theorem setSem_sec (x : Sem) (s : State) : (setSem x s).sec = s.sec := rfl
@[simp] theorem setSem_outs (x : Sem) (s : State) : (setSem x s).outs = s.outs := rfl
@[simp] theorem setSem_parts (x : Sem) (s : State) : (setSem x s).parts = s.parts := rfl
@[simp] theorem setSem_dies (x : Sem) (s : State) : (setSem x s).dies = s.dies := rfl
@[simp] theorem setSem_cores_cores (x : Sem) (s : State) : (setSem x s).cores.cores = s.cores.cores := rfl
@[simp] theorem setSem_cores_ctxs (x : Sem) (s : State) : (setSem x s).cores.ctxs = s.cores.ctxs := rfl
@[simp] theorem setSem_cores_unmirrored (x : Sem) (s : State) : (setSem x s).cores.unmirrored = s.cores.unmirrored := rfl
@[simp] theorem setSem_cores_allowed (x : Sem) (s : State) : (setSem x s).cores.allowed = s.cores.allowed := rfl
@[simp] theorem setSem_stg (x : Sem) (s : State) : (setSem x s).stg = s.stg := rfl
@[simp] theorem setSem_fns (x : Sem) (s : State) : (setSem x s).fns = s.fns := rfl
@[simp] theorem setSem_tens (x : Sem) (s : State) : (setSem x s).tens = s.tens := rfl
@[simp] theorem setSem_sess (x : Sem) (s : State) : (setSem x s).sess = s.sess := rfl
@[simp] theorem setSem_sched (x : Sem) (s : State) : (setSem x s).sched = s.sched := rfl
@[simp] theorem setSem_models (x : Sem) (s : State) : (setSem x s).models = s.models := rfl
@[simp] theorem setSem_tiers (x : Sem) (s : State) : (setSem x s).tiers = s.tiers := rfl
@[simp] theorem setSem_store (x : Sem) (s : State) : (setSem x s).store = s.store := rfl
@[simp] theorem setSem_rcl (x : Sem) (s : State) : (setSem x s).rcl = s.rcl := rfl
@[simp] theorem setSem_ledger (x : Sem) (s : State) : (setSem x s).ledger = s.ledger := rfl
@[simp] theorem setSem_links (x : Sem) (s : State) : (setSem x s).links = s.links := rfl
@[simp] theorem setSem_rack (x : Sem) (s : State) : (setSem x s).rack = s.rack := rfl
@[simp] theorem setSem_chk (x : Sem) (s : State) : (setSem x s).chk = s.chk := rfl
@[simp] theorem setSem_free (x : Sem) (s : State) : (setSem x s).free = s.free := rfl
@[simp] theorem setSem_pending (x : Sem) (s : State) : (setSem x s).pending = s.pending := rfl

/-! ### `setCtx` -/

@[simp] theorem setCtx_part (x : Ctx) (s : State) : (setCtx x s).part = s.part := rfl
@[simp] theorem setCtx_dev (x : Ctx) (s : State) : (setCtx x s).dev = s.dev := rfl
@[simp] theorem setCtx_nor (x : Ctx) (s : State) : (setCtx x s).nor = s.nor := rfl
@[simp] theorem setCtx_pins (x : Ctx) (s : State) : (setCtx x s).pins = s.pins := rfl
@[simp] theorem setCtx_sec (x : Ctx) (s : State) : (setCtx x s).sec = s.sec := rfl
@[simp] theorem setCtx_outs (x : Ctx) (s : State) : (setCtx x s).outs = s.outs := rfl
@[simp] theorem setCtx_parts (x : Ctx) (s : State) : (setCtx x s).parts = s.parts := rfl
@[simp] theorem setCtx_dies (x : Ctx) (s : State) : (setCtx x s).dies = s.dies := rfl
@[simp] theorem setCtx_cores_cores (x : Ctx) (s : State) : (setCtx x s).cores.cores = s.cores.cores := rfl
@[simp] theorem setCtx_cores_sems (x : Ctx) (s : State) : (setCtx x s).cores.sems = s.cores.sems := rfl
@[simp] theorem setCtx_cores_unmirrored (x : Ctx) (s : State) : (setCtx x s).cores.unmirrored = s.cores.unmirrored := rfl
@[simp] theorem setCtx_cores_allowed (x : Ctx) (s : State) : (setCtx x s).cores.allowed = s.cores.allowed := rfl
@[simp] theorem setCtx_stg (x : Ctx) (s : State) : (setCtx x s).stg = s.stg := rfl
@[simp] theorem setCtx_fns (x : Ctx) (s : State) : (setCtx x s).fns = s.fns := rfl
@[simp] theorem setCtx_tens (x : Ctx) (s : State) : (setCtx x s).tens = s.tens := rfl
@[simp] theorem setCtx_sess (x : Ctx) (s : State) : (setCtx x s).sess = s.sess := rfl
@[simp] theorem setCtx_sched (x : Ctx) (s : State) : (setCtx x s).sched = s.sched := rfl
@[simp] theorem setCtx_models (x : Ctx) (s : State) : (setCtx x s).models = s.models := rfl
@[simp] theorem setCtx_tiers (x : Ctx) (s : State) : (setCtx x s).tiers = s.tiers := rfl
@[simp] theorem setCtx_store (x : Ctx) (s : State) : (setCtx x s).store = s.store := rfl
@[simp] theorem setCtx_rcl (x : Ctx) (s : State) : (setCtx x s).rcl = s.rcl := rfl
@[simp] theorem setCtx_ledger (x : Ctx) (s : State) : (setCtx x s).ledger = s.ledger := rfl
@[simp] theorem setCtx_links (x : Ctx) (s : State) : (setCtx x s).links = s.links := rfl
@[simp] theorem setCtx_rack (x : Ctx) (s : State) : (setCtx x s).rack = s.rack := rfl
@[simp] theorem setCtx_chk (x : Ctx) (s : State) : (setCtx x s).chk = s.chk := rfl
@[simp] theorem setCtx_free (x : Ctx) (s : State) : (setCtx x s).free = s.free := rfl
@[simp] theorem setCtx_pending (x : Ctx) (s : State) : (setCtx x s).pending = s.pending := rfl

/-! ### `setBundle` -/

@[simp] theorem setBundle_part (x : Bundle) (s : State) : (setBundle x s).part = s.part := rfl
@[simp] theorem setBundle_dev (x : Bundle) (s : State) : (setBundle x s).dev = s.dev := rfl
@[simp] theorem setBundle_nor (x : Bundle) (s : State) : (setBundle x s).nor = s.nor := rfl
@[simp] theorem setBundle_pins (x : Bundle) (s : State) : (setBundle x s).pins = s.pins := rfl
@[simp] theorem setBundle_sec (x : Bundle) (s : State) : (setBundle x s).sec = s.sec := rfl
@[simp] theorem setBundle_outs (x : Bundle) (s : State) : (setBundle x s).outs = s.outs := rfl
@[simp] theorem setBundle_parts (x : Bundle) (s : State) : (setBundle x s).parts = s.parts := rfl
@[simp] theorem setBundle_dies (x : Bundle) (s : State) : (setBundle x s).dies = s.dies := rfl
@[simp] theorem setBundle_cores (x : Bundle) (s : State) : (setBundle x s).cores = s.cores := rfl
@[simp] theorem setBundle_stg (x : Bundle) (s : State) : (setBundle x s).stg = s.stg := rfl
@[simp] theorem setBundle_fns (x : Bundle) (s : State) : (setBundle x s).fns = s.fns := rfl
@[simp] theorem setBundle_tens (x : Bundle) (s : State) : (setBundle x s).tens = s.tens := rfl
@[simp] theorem setBundle_sess (x : Bundle) (s : State) : (setBundle x s).sess = s.sess := rfl
@[simp] theorem setBundle_sched (x : Bundle) (s : State) : (setBundle x s).sched = s.sched := rfl
@[simp] theorem setBundle_models (x : Bundle) (s : State) : (setBundle x s).models = s.models := rfl
@[simp] theorem setBundle_tiers (x : Bundle) (s : State) : (setBundle x s).tiers = s.tiers := rfl
@[simp] theorem setBundle_store (x : Bundle) (s : State) : (setBundle x s).store = s.store := rfl
@[simp] theorem setBundle_rcl (x : Bundle) (s : State) : (setBundle x s).rcl = s.rcl := rfl
@[simp] theorem setBundle_ledger (x : Bundle) (s : State) : (setBundle x s).ledger = s.ledger := rfl
@[simp] theorem setBundle_links_ports (x : Bundle) (s : State) : (setBundle x s).links.ports = s.links.ports := rfl
@[simp] theorem setBundle_links_windows (x : Bundle) (s : State) : (setBundle x s).links.windows = s.links.windows := rfl
@[simp] theorem setBundle_links_flows (x : Bundle) (s : State) : (setBundle x s).links.flows = s.links.flows := rfl
@[simp] theorem setBundle_links_reads (x : Bundle) (s : State) : (setBundle x s).links.reads = s.links.reads := rfl
@[simp] theorem setBundle_links_nextTag (x : Bundle) (s : State) : (setBundle x s).links.nextTag = s.links.nextTag := rfl
@[simp] theorem setBundle_links_unreachable (x : Bundle) (s : State) : (setBundle x s).links.unreachable = s.links.unreachable := rfl
@[simp] theorem setBundle_links_out (x : Bundle) (s : State) : (setBundle x s).links.out = s.links.out := rfl
@[simp] theorem setBundle_links_held (x : Bundle) (s : State) : (setBundle x s).links.held = s.links.held := rfl
@[simp] theorem setBundle_links_pairs (x : Bundle) (s : State) : (setBundle x s).links.pairs = s.links.pairs := rfl
@[simp] theorem setBundle_links_lostRunners (x : Bundle) (s : State) : (setBundle x s).links.lostRunners = s.links.lostRunners := rfl
@[simp] theorem setBundle_links_lasers (x : Bundle) (s : State) : (setBundle x s).links.lasers = s.links.lasers := rfl
@[simp] theorem setBundle_rack (x : Bundle) (s : State) : (setBundle x s).rack = s.rack := rfl
@[simp] theorem setBundle_chk (x : Bundle) (s : State) : (setBundle x s).chk = s.chk := rfl
@[simp] theorem setBundle_free (x : Bundle) (s : State) : (setBundle x s).free = s.free := rfl
@[simp] theorem setBundle_pending (x : Bundle) (s : State) : (setBundle x s).pending = s.pending := rfl

/-! ### `onObj` -/

@[simp] theorem onObj_part (n : Nat) (f : Obj → Obj) (s : State) : (onObj n f s).part = s.part := rfl
@[simp] theorem onObj_dev (n : Nat) (f : Obj → Obj) (s : State) : (onObj n f s).dev = s.dev := rfl
@[simp] theorem onObj_nor (n : Nat) (f : Obj → Obj) (s : State) : (onObj n f s).nor = s.nor := rfl
@[simp] theorem onObj_pins (n : Nat) (f : Obj → Obj) (s : State) : (onObj n f s).pins = s.pins := rfl
@[simp] theorem onObj_sec (n : Nat) (f : Obj → Obj) (s : State) : (onObj n f s).sec = s.sec := rfl
@[simp] theorem onObj_outs (n : Nat) (f : Obj → Obj) (s : State) : (onObj n f s).outs = s.outs := rfl
@[simp] theorem onObj_parts (n : Nat) (f : Obj → Obj) (s : State) : (onObj n f s).parts = s.parts := rfl
@[simp] theorem onObj_dies (n : Nat) (f : Obj → Obj) (s : State) : (onObj n f s).dies = s.dies := rfl
@[simp] theorem onObj_cores (n : Nat) (f : Obj → Obj) (s : State) : (onObj n f s).cores = s.cores := rfl
@[simp] theorem onObj_stg (n : Nat) (f : Obj → Obj) (s : State) : (onObj n f s).stg = s.stg := rfl
@[simp] theorem onObj_fns (n : Nat) (f : Obj → Obj) (s : State) : (onObj n f s).fns = s.fns := rfl
@[simp] theorem onObj_tens (n : Nat) (f : Obj → Obj) (s : State) : (onObj n f s).tens = s.tens := rfl
@[simp] theorem onObj_sess (n : Nat) (f : Obj → Obj) (s : State) : (onObj n f s).sess = s.sess := rfl
@[simp] theorem onObj_sched (n : Nat) (f : Obj → Obj) (s : State) : (onObj n f s).sched = s.sched := rfl
@[simp] theorem onObj_models (n : Nat) (f : Obj → Obj) (s : State) : (onObj n f s).models = s.models := rfl
@[simp] theorem onObj_tiers (n : Nat) (f : Obj → Obj) (s : State) : (onObj n f s).tiers = s.tiers := rfl
@[simp] theorem onObj_store_channels (n : Nat) (f : Obj → Obj) (s : State) : (onObj n f s).store.channels = s.store.channels := rfl
@[simp] theorem onObj_store_nextObj (n : Nat) (f : Obj → Obj) (s : State) : (onObj n f s).store.nextObj = s.store.nextObj := rfl
@[simp] theorem onObj_store_objEnd (n : Nat) (f : Obj → Obj) (s : State) : (onObj n f s).store.objEnd = s.store.objEnd := rfl
@[simp] theorem onObj_store_nss (n : Nat) (f : Obj → Obj) (s : State) : (onObj n f s).store.nss = s.store.nss := rfl
@[simp] theorem onObj_store_groups (n : Nat) (f : Obj → Obj) (s : State) : (onObj n f s).store.groups = s.store.groups := rfl
@[simp] theorem onObj_store_hubs (n : Nat) (f : Obj → Obj) (s : State) : (onObj n f s).store.hubs = s.store.hubs := rfl
@[simp] theorem onObj_store_clean (n : Nat) (f : Obj → Obj) (s : State) : (onObj n f s).store.clean = s.store.clean := rfl
@[simp] theorem onObj_rcl (n : Nat) (f : Obj → Obj) (s : State) : (onObj n f s).rcl = s.rcl := rfl
@[simp] theorem onObj_ledger (n : Nat) (f : Obj → Obj) (s : State) : (onObj n f s).ledger = s.ledger := rfl
@[simp] theorem onObj_links (n : Nat) (f : Obj → Obj) (s : State) : (onObj n f s).links = s.links := rfl
@[simp] theorem onObj_rack (n : Nat) (f : Obj → Obj) (s : State) : (onObj n f s).rack = s.rack := rfl
@[simp] theorem onObj_chk (n : Nat) (f : Obj → Obj) (s : State) : (onObj n f s).chk = s.chk := rfl
@[simp] theorem onObj_free (n : Nat) (f : Obj → Obj) (s : State) : (onObj n f s).free = s.free := rfl
@[simp] theorem onObj_pending (n : Nat) (f : Obj → Obj) (s : State) : (onObj n f s).pending = s.pending := rfl

/-! ### `onQuery` -/

@[simp] theorem onQuery_part (n : Nat) (f : Query → Query) (s : State) : (onQuery n f s).part = s.part := rfl
@[simp] theorem onQuery_dev (n : Nat) (f : Query → Query) (s : State) : (onQuery n f s).dev = s.dev := rfl
@[simp] theorem onQuery_nor (n : Nat) (f : Query → Query) (s : State) : (onQuery n f s).nor = s.nor := rfl
@[simp] theorem onQuery_pins (n : Nat) (f : Query → Query) (s : State) : (onQuery n f s).pins = s.pins := rfl
@[simp] theorem onQuery_sec (n : Nat) (f : Query → Query) (s : State) : (onQuery n f s).sec = s.sec := rfl
@[simp] theorem onQuery_outs (n : Nat) (f : Query → Query) (s : State) : (onQuery n f s).outs = s.outs := rfl
@[simp] theorem onQuery_parts (n : Nat) (f : Query → Query) (s : State) : (onQuery n f s).parts = s.parts := rfl
@[simp] theorem onQuery_dies (n : Nat) (f : Query → Query) (s : State) : (onQuery n f s).dies = s.dies := rfl
@[simp] theorem onQuery_cores (n : Nat) (f : Query → Query) (s : State) : (onQuery n f s).cores = s.cores := rfl
@[simp] theorem onQuery_stg (n : Nat) (f : Query → Query) (s : State) : (onQuery n f s).stg = s.stg := rfl
@[simp] theorem onQuery_fns (n : Nat) (f : Query → Query) (s : State) : (onQuery n f s).fns = s.fns := rfl
@[simp] theorem onQuery_tens (n : Nat) (f : Query → Query) (s : State) : (onQuery n f s).tens = s.tens := rfl
@[simp] theorem onQuery_sess (n : Nat) (f : Query → Query) (s : State) : (onQuery n f s).sess = s.sess := rfl
@[simp] theorem onQuery_sched (n : Nat) (f : Query → Query) (s : State) : (onQuery n f s).sched = s.sched := rfl
@[simp] theorem onQuery_models (n : Nat) (f : Query → Query) (s : State) : (onQuery n f s).models = s.models := rfl
@[simp] theorem onQuery_tiers (n : Nat) (f : Query → Query) (s : State) : (onQuery n f s).tiers = s.tiers := rfl
@[simp] theorem onQuery_store (n : Nat) (f : Query → Query) (s : State) : (onQuery n f s).store = s.store := rfl
@[simp] theorem onQuery_rcl_shards (n : Nat) (f : Query → Query) (s : State) : (onQuery n f s).rcl.shards = s.rcl.shards := rfl
@[simp] theorem onQuery_rcl_nextQ (n : Nat) (f : Query → Query) (s : State) : (onQuery n f s).rcl.nextQ = s.rcl.nextQ := rfl
@[simp] theorem onQuery_rcl_results (n : Nat) (f : Query → Query) (s : State) : (onQuery n f s).rcl.results = s.rcl.results := rfl
@[simp] theorem onQuery_ledger (n : Nat) (f : Query → Query) (s : State) : (onQuery n f s).ledger = s.ledger := rfl
@[simp] theorem onQuery_links (n : Nat) (f : Query → Query) (s : State) : (onQuery n f s).links = s.links := rfl
@[simp] theorem onQuery_rack (n : Nat) (f : Query → Query) (s : State) : (onQuery n f s).rack = s.rack := rfl
@[simp] theorem onQuery_chk (n : Nat) (f : Query → Query) (s : State) : (onQuery n f s).chk = s.chk := rfl
@[simp] theorem onQuery_free (n : Nat) (f : Query → Query) (s : State) : (onQuery n f s).free = s.free := rfl
@[simp] theorem onQuery_pending (n : Nat) (f : Query → Query) (s : State) : (onQuery n f s).pending = s.pending := rfl

/-! ### `onShard` -/

@[simp] theorem onShard_part (i n : Nat) (f : Shard → Shard) (s : State) : (onShard i n f s).part = s.part := rfl
@[simp] theorem onShard_dev (i n : Nat) (f : Shard → Shard) (s : State) : (onShard i n f s).dev = s.dev := rfl
@[simp] theorem onShard_nor (i n : Nat) (f : Shard → Shard) (s : State) : (onShard i n f s).nor = s.nor := rfl
@[simp] theorem onShard_pins (i n : Nat) (f : Shard → Shard) (s : State) : (onShard i n f s).pins = s.pins := rfl
@[simp] theorem onShard_sec (i n : Nat) (f : Shard → Shard) (s : State) : (onShard i n f s).sec = s.sec := rfl
@[simp] theorem onShard_outs (i n : Nat) (f : Shard → Shard) (s : State) : (onShard i n f s).outs = s.outs := rfl
@[simp] theorem onShard_parts (i n : Nat) (f : Shard → Shard) (s : State) : (onShard i n f s).parts = s.parts := rfl
@[simp] theorem onShard_dies (i n : Nat) (f : Shard → Shard) (s : State) : (onShard i n f s).dies = s.dies := rfl
@[simp] theorem onShard_cores (i n : Nat) (f : Shard → Shard) (s : State) : (onShard i n f s).cores = s.cores := rfl
@[simp] theorem onShard_stg (i n : Nat) (f : Shard → Shard) (s : State) : (onShard i n f s).stg = s.stg := rfl
@[simp] theorem onShard_fns (i n : Nat) (f : Shard → Shard) (s : State) : (onShard i n f s).fns = s.fns := rfl
@[simp] theorem onShard_tens (i n : Nat) (f : Shard → Shard) (s : State) : (onShard i n f s).tens = s.tens := rfl
@[simp] theorem onShard_sess (i n : Nat) (f : Shard → Shard) (s : State) : (onShard i n f s).sess = s.sess := rfl
@[simp] theorem onShard_sched (i n : Nat) (f : Shard → Shard) (s : State) : (onShard i n f s).sched = s.sched := rfl
@[simp] theorem onShard_models (i n : Nat) (f : Shard → Shard) (s : State) : (onShard i n f s).models = s.models := rfl
@[simp] theorem onShard_tiers (i n : Nat) (f : Shard → Shard) (s : State) : (onShard i n f s).tiers = s.tiers := rfl
@[simp] theorem onShard_store (i n : Nat) (f : Shard → Shard) (s : State) : (onShard i n f s).store = s.store := rfl
@[simp] theorem onShard_rcl_queries (i n : Nat) (f : Shard → Shard) (s : State) : (onShard i n f s).rcl.queries = s.rcl.queries := rfl
@[simp] theorem onShard_rcl_nextQ (i n : Nat) (f : Shard → Shard) (s : State) : (onShard i n f s).rcl.nextQ = s.rcl.nextQ := rfl
@[simp] theorem onShard_rcl_results (i n : Nat) (f : Shard → Shard) (s : State) : (onShard i n f s).rcl.results = s.rcl.results := rfl
@[simp] theorem onShard_ledger (i n : Nat) (f : Shard → Shard) (s : State) : (onShard i n f s).ledger = s.ledger := rfl
@[simp] theorem onShard_links (i n : Nat) (f : Shard → Shard) (s : State) : (onShard i n f s).links = s.links := rfl
@[simp] theorem onShard_rack (i n : Nat) (f : Shard → Shard) (s : State) : (onShard i n f s).rack = s.rack := rfl
@[simp] theorem onShard_chk (i n : Nat) (f : Shard → Shard) (s : State) : (onShard i n f s).chk = s.chk := rfl
@[simp] theorem onShard_free (i n : Nat) (f : Shard → Shard) (s : State) : (onShard i n f s).free = s.free := rfl
@[simp] theorem onShard_pending (i n : Nat) (f : Shard → Shard) (s : State) : (onShard i n f s).pending = s.pending := rfl

/-! ### `onGroup` -/

@[simp] theorem onGroup_part (g : Nat) (f : MGroup → MGroup) (s : State) : (onGroup g f s).part = s.part := rfl
@[simp] theorem onGroup_dev (g : Nat) (f : MGroup → MGroup) (s : State) : (onGroup g f s).dev = s.dev := rfl
@[simp] theorem onGroup_nor (g : Nat) (f : MGroup → MGroup) (s : State) : (onGroup g f s).nor = s.nor := rfl
@[simp] theorem onGroup_pins (g : Nat) (f : MGroup → MGroup) (s : State) : (onGroup g f s).pins = s.pins := rfl
@[simp] theorem onGroup_sec (g : Nat) (f : MGroup → MGroup) (s : State) : (onGroup g f s).sec = s.sec := rfl
@[simp] theorem onGroup_outs (g : Nat) (f : MGroup → MGroup) (s : State) : (onGroup g f s).outs = s.outs := rfl
@[simp] theorem onGroup_parts (g : Nat) (f : MGroup → MGroup) (s : State) : (onGroup g f s).parts = s.parts := rfl
@[simp] theorem onGroup_dies (g : Nat) (f : MGroup → MGroup) (s : State) : (onGroup g f s).dies = s.dies := rfl
@[simp] theorem onGroup_cores (g : Nat) (f : MGroup → MGroup) (s : State) : (onGroup g f s).cores = s.cores := rfl
@[simp] theorem onGroup_stg (g : Nat) (f : MGroup → MGroup) (s : State) : (onGroup g f s).stg = s.stg := rfl
@[simp] theorem onGroup_fns (g : Nat) (f : MGroup → MGroup) (s : State) : (onGroup g f s).fns = s.fns := rfl
@[simp] theorem onGroup_tens (g : Nat) (f : MGroup → MGroup) (s : State) : (onGroup g f s).tens = s.tens := rfl
@[simp] theorem onGroup_sess (g : Nat) (f : MGroup → MGroup) (s : State) : (onGroup g f s).sess = s.sess := rfl
@[simp] theorem onGroup_sched (g : Nat) (f : MGroup → MGroup) (s : State) : (onGroup g f s).sched = s.sched := rfl
@[simp] theorem onGroup_models (g : Nat) (f : MGroup → MGroup) (s : State) : (onGroup g f s).models = s.models := rfl
@[simp] theorem onGroup_tiers (g : Nat) (f : MGroup → MGroup) (s : State) : (onGroup g f s).tiers = s.tiers := rfl
@[simp] theorem onGroup_store (g : Nat) (f : MGroup → MGroup) (s : State) : (onGroup g f s).store = s.store := rfl
@[simp] theorem onGroup_rcl (g : Nat) (f : MGroup → MGroup) (s : State) : (onGroup g f s).rcl = s.rcl := rfl
@[simp] theorem onGroup_ledger (g : Nat) (f : MGroup → MGroup) (s : State) : (onGroup g f s).ledger = s.ledger := rfl
@[simp] theorem onGroup_links (g : Nat) (f : MGroup → MGroup) (s : State) : (onGroup g f s).links = s.links := rfl
@[simp] theorem onGroup_rack_role (g : Nat) (f : MGroup → MGroup) (s : State) : (onGroup g f s).rack.role = s.rack.role := rfl
@[simp] theorem onGroup_rack_domain (g : Nat) (f : MGroup → MGroup) (s : State) : (onGroup g f s).rack.domain = s.rack.domain := rfl
@[simp] theorem onGroup_rack_num (g : Nat) (f : MGroup → MGroup) (s : State) : (onGroup g f s).rack.num = s.rack.num := rfl
@[simp] theorem onGroup_rack_numValid (g : Nat) (f : MGroup → MGroup) (s : State) : (onGroup g f s).rack.numValid = s.rack.numValid := rfl
@[simp] theorem onGroup_rack_above (g : Nat) (f : MGroup → MGroup) (s : State) : (onGroup g f s).rack.above = s.rack.above := rfl
@[simp] theorem onGroup_rack_members (g : Nat) (f : MGroup → MGroup) (s : State) : (onGroup g f s).rack.members = s.rack.members := rfl
@[simp] theorem onGroup_rack_directory (g : Nat) (f : MGroup → MGroup) (s : State) : (onGroup g f s).rack.directory = s.rack.directory := rfl
@[simp] theorem onGroup_rack_epochs (g : Nat) (f : MGroup → MGroup) (s : State) : (onGroup g f s).rack.epochs = s.rack.epochs := rfl
@[simp] theorem onGroup_rack_published (g : Nat) (f : MGroup → MGroup) (s : State) : (onGroup g f s).rack.published = s.rack.published := rfl
@[simp] theorem onGroup_rack_nextEpoch (g : Nat) (f : MGroup → MGroup) (s : State) : (onGroup g f s).rack.nextEpoch = s.rack.nextEpoch := rfl
@[simp] theorem onGroup_rack_retired (g : Nat) (f : MGroup → MGroup) (s : State) : (onGroup g f s).rack.retired = s.rack.retired := rfl
@[simp] theorem onGroup_rack_asking (g : Nat) (f : MGroup → MGroup) (s : State) : (onGroup g f s).rack.asking = s.rack.asking := rfl
@[simp] theorem onGroup_rack_nextSeq (g : Nat) (f : MGroup → MGroup) (s : State) : (onGroup g f s).rack.nextSeq = s.rack.nextSeq := rfl
@[simp] theorem onGroup_rack_unacked (g : Nat) (f : MGroup → MGroup) (s : State) : (onGroup g f s).rack.unacked = s.rack.unacked := rfl
@[simp] theorem onGroup_rack_seen (g : Nat) (f : MGroup → MGroup) (s : State) : (onGroup g f s).rack.seen = s.rack.seen := rfl
@[simp] theorem onGroup_rack_consumed (g : Nat) (f : MGroup → MGroup) (s : State) : (onGroup g f s).rack.consumed = s.rack.consumed := rfl
@[simp] theorem onGroup_rack_outbox (g : Nat) (f : MGroup → MGroup) (s : State) : (onGroup g f s).rack.outbox = s.rack.outbox := rfl
@[simp] theorem onGroup_rack_heldMgr (g : Nat) (f : MGroup → MGroup) (s : State) : (onGroup g f s).rack.heldMgr = s.rack.heldMgr := rfl
@[simp] theorem onGroup_rack_lookups (g : Nat) (f : MGroup → MGroup) (s : State) : (onGroup g f s).rack.lookups = s.rack.lookups := rfl
@[simp] theorem onGroup_rack_forwards (g : Nat) (f : MGroup → MGroup) (s : State) : (onGroup g f s).rack.forwards = s.rack.forwards := rfl
@[simp] theorem onGroup_rack_migrations (g : Nat) (f : MGroup → MGroup) (s : State) : (onGroup g f s).rack.migrations = s.rack.migrations := rfl
@[simp] theorem onGroup_rack_aborted (g : Nat) (f : MGroup → MGroup) (s : State) : (onGroup g f s).rack.aborted = s.rack.aborted := rfl
@[simp] theorem onGroup_rack_registry (g : Nat) (f : MGroup → MGroup) (s : State) : (onGroup g f s).rack.registry = s.rack.registry := rfl
@[simp] theorem onGroup_rack_waiting (g : Nat) (f : MGroup → MGroup) (s : State) : (onGroup g f s).rack.waiting = s.rack.waiting := rfl
@[simp] theorem onGroup_rack_lostPeers (g : Nat) (f : MGroup → MGroup) (s : State) : (onGroup g f s).rack.lostPeers = s.rack.lostPeers := rfl
@[simp] theorem onGroup_rack_joinRefused (g : Nat) (f : MGroup → MGroup) (s : State) : (onGroup g f s).rack.joinRefused = s.rack.joinRefused := rfl
@[simp] theorem onGroup_rack_ckptAnswers (g : Nat) (f : MGroup → MGroup) (s : State) : (onGroup g f s).rack.ckptAnswers = s.rack.ckptAnswers := rfl
@[simp] theorem onGroup_rack_managerLost (g : Nat) (f : MGroup → MGroup) (s : State) : (onGroup g f s).rack.managerLost = s.rack.managerLost := rfl
@[simp] theorem onGroup_chk (g : Nat) (f : MGroup → MGroup) (s : State) : (onGroup g f s).chk = s.chk := rfl
@[simp] theorem onGroup_free (g : Nat) (f : MGroup → MGroup) (s : State) : (onGroup g f s).free = s.free := rfl
@[simp] theorem onGroup_pending (g : Nat) (f : MGroup → MGroup) (s : State) : (onGroup g f s).pending = s.pending := rfl

/-! ### `onMember` -/

@[simp] theorem onMember_part (n : Nat) (f : Member → Member) (s : State) : (onMember n f s).part = s.part := rfl
@[simp] theorem onMember_dev (n : Nat) (f : Member → Member) (s : State) : (onMember n f s).dev = s.dev := rfl
@[simp] theorem onMember_nor (n : Nat) (f : Member → Member) (s : State) : (onMember n f s).nor = s.nor := rfl
@[simp] theorem onMember_pins (n : Nat) (f : Member → Member) (s : State) : (onMember n f s).pins = s.pins := rfl
@[simp] theorem onMember_sec (n : Nat) (f : Member → Member) (s : State) : (onMember n f s).sec = s.sec := rfl
@[simp] theorem onMember_outs (n : Nat) (f : Member → Member) (s : State) : (onMember n f s).outs = s.outs := rfl
@[simp] theorem onMember_parts (n : Nat) (f : Member → Member) (s : State) : (onMember n f s).parts = s.parts := rfl
@[simp] theorem onMember_dies (n : Nat) (f : Member → Member) (s : State) : (onMember n f s).dies = s.dies := rfl
@[simp] theorem onMember_cores (n : Nat) (f : Member → Member) (s : State) : (onMember n f s).cores = s.cores := rfl
@[simp] theorem onMember_stg (n : Nat) (f : Member → Member) (s : State) : (onMember n f s).stg = s.stg := rfl
@[simp] theorem onMember_fns (n : Nat) (f : Member → Member) (s : State) : (onMember n f s).fns = s.fns := rfl
@[simp] theorem onMember_tens (n : Nat) (f : Member → Member) (s : State) : (onMember n f s).tens = s.tens := rfl
@[simp] theorem onMember_sess (n : Nat) (f : Member → Member) (s : State) : (onMember n f s).sess = s.sess := rfl
@[simp] theorem onMember_sched (n : Nat) (f : Member → Member) (s : State) : (onMember n f s).sched = s.sched := rfl
@[simp] theorem onMember_models (n : Nat) (f : Member → Member) (s : State) : (onMember n f s).models = s.models := rfl
@[simp] theorem onMember_tiers (n : Nat) (f : Member → Member) (s : State) : (onMember n f s).tiers = s.tiers := rfl
@[simp] theorem onMember_store (n : Nat) (f : Member → Member) (s : State) : (onMember n f s).store = s.store := rfl
@[simp] theorem onMember_rcl (n : Nat) (f : Member → Member) (s : State) : (onMember n f s).rcl = s.rcl := rfl
@[simp] theorem onMember_ledger (n : Nat) (f : Member → Member) (s : State) : (onMember n f s).ledger = s.ledger := rfl
@[simp] theorem onMember_links (n : Nat) (f : Member → Member) (s : State) : (onMember n f s).links = s.links := rfl
@[simp] theorem onMember_rack_role (n : Nat) (f : Member → Member) (s : State) : (onMember n f s).rack.role = s.rack.role := rfl
@[simp] theorem onMember_rack_domain (n : Nat) (f : Member → Member) (s : State) : (onMember n f s).rack.domain = s.rack.domain := rfl
@[simp] theorem onMember_rack_num (n : Nat) (f : Member → Member) (s : State) : (onMember n f s).rack.num = s.rack.num := rfl
@[simp] theorem onMember_rack_numValid (n : Nat) (f : Member → Member) (s : State) : (onMember n f s).rack.numValid = s.rack.numValid := rfl
@[simp] theorem onMember_rack_above (n : Nat) (f : Member → Member) (s : State) : (onMember n f s).rack.above = s.rack.above := rfl
@[simp] theorem onMember_rack_directory (n : Nat) (f : Member → Member) (s : State) : (onMember n f s).rack.directory = s.rack.directory := rfl
@[simp] theorem onMember_rack_epochs (n : Nat) (f : Member → Member) (s : State) : (onMember n f s).rack.epochs = s.rack.epochs := rfl
@[simp] theorem onMember_rack_published (n : Nat) (f : Member → Member) (s : State) : (onMember n f s).rack.published = s.rack.published := rfl
@[simp] theorem onMember_rack_nextEpoch (n : Nat) (f : Member → Member) (s : State) : (onMember n f s).rack.nextEpoch = s.rack.nextEpoch := rfl
@[simp] theorem onMember_rack_retired (n : Nat) (f : Member → Member) (s : State) : (onMember n f s).rack.retired = s.rack.retired := rfl
@[simp] theorem onMember_rack_asking (n : Nat) (f : Member → Member) (s : State) : (onMember n f s).rack.asking = s.rack.asking := rfl
@[simp] theorem onMember_rack_nextSeq (n : Nat) (f : Member → Member) (s : State) : (onMember n f s).rack.nextSeq = s.rack.nextSeq := rfl
@[simp] theorem onMember_rack_unacked (n : Nat) (f : Member → Member) (s : State) : (onMember n f s).rack.unacked = s.rack.unacked := rfl
@[simp] theorem onMember_rack_seen (n : Nat) (f : Member → Member) (s : State) : (onMember n f s).rack.seen = s.rack.seen := rfl
@[simp] theorem onMember_rack_consumed (n : Nat) (f : Member → Member) (s : State) : (onMember n f s).rack.consumed = s.rack.consumed := rfl
@[simp] theorem onMember_rack_outbox (n : Nat) (f : Member → Member) (s : State) : (onMember n f s).rack.outbox = s.rack.outbox := rfl
@[simp] theorem onMember_rack_heldMgr (n : Nat) (f : Member → Member) (s : State) : (onMember n f s).rack.heldMgr = s.rack.heldMgr := rfl
@[simp] theorem onMember_rack_lookups (n : Nat) (f : Member → Member) (s : State) : (onMember n f s).rack.lookups = s.rack.lookups := rfl
@[simp] theorem onMember_rack_forwards (n : Nat) (f : Member → Member) (s : State) : (onMember n f s).rack.forwards = s.rack.forwards := rfl
@[simp] theorem onMember_rack_migrations (n : Nat) (f : Member → Member) (s : State) : (onMember n f s).rack.migrations = s.rack.migrations := rfl
@[simp] theorem onMember_rack_aborted (n : Nat) (f : Member → Member) (s : State) : (onMember n f s).rack.aborted = s.rack.aborted := rfl
@[simp] theorem onMember_rack_groups (n : Nat) (f : Member → Member) (s : State) : (onMember n f s).rack.groups = s.rack.groups := rfl
@[simp] theorem onMember_rack_registry (n : Nat) (f : Member → Member) (s : State) : (onMember n f s).rack.registry = s.rack.registry := rfl
@[simp] theorem onMember_rack_waiting (n : Nat) (f : Member → Member) (s : State) : (onMember n f s).rack.waiting = s.rack.waiting := rfl
@[simp] theorem onMember_rack_lostPeers (n : Nat) (f : Member → Member) (s : State) : (onMember n f s).rack.lostPeers = s.rack.lostPeers := rfl
@[simp] theorem onMember_rack_joinRefused (n : Nat) (f : Member → Member) (s : State) : (onMember n f s).rack.joinRefused = s.rack.joinRefused := rfl
@[simp] theorem onMember_rack_ckptAnswers (n : Nat) (f : Member → Member) (s : State) : (onMember n f s).rack.ckptAnswers = s.rack.ckptAnswers := rfl
@[simp] theorem onMember_rack_managerLost (n : Nat) (f : Member → Member) (s : State) : (onMember n f s).rack.managerLost = s.rack.managerLost := rfl
@[simp] theorem onMember_chk (n : Nat) (f : Member → Member) (s : State) : (onMember n f s).chk = s.chk := rfl
@[simp] theorem onMember_free (n : Nat) (f : Member → Member) (s : State) : (onMember n f s).free = s.free := rfl
@[simp] theorem onMember_pending (n : Nat) (f : Member → Member) (s : State) : (onMember n f s).pending = s.pending := rfl

/-! ### `onMigration` -/

@[simp] theorem onMigration_part (h : Nat) (f : Migration → Migration) (s : State) : (onMigration h f s).part = s.part := rfl
@[simp] theorem onMigration_dev (h : Nat) (f : Migration → Migration) (s : State) : (onMigration h f s).dev = s.dev := rfl
@[simp] theorem onMigration_nor (h : Nat) (f : Migration → Migration) (s : State) : (onMigration h f s).nor = s.nor := rfl
@[simp] theorem onMigration_pins (h : Nat) (f : Migration → Migration) (s : State) : (onMigration h f s).pins = s.pins := rfl
@[simp] theorem onMigration_sec (h : Nat) (f : Migration → Migration) (s : State) : (onMigration h f s).sec = s.sec := rfl
@[simp] theorem onMigration_outs (h : Nat) (f : Migration → Migration) (s : State) : (onMigration h f s).outs = s.outs := rfl
@[simp] theorem onMigration_parts (h : Nat) (f : Migration → Migration) (s : State) : (onMigration h f s).parts = s.parts := rfl
@[simp] theorem onMigration_dies (h : Nat) (f : Migration → Migration) (s : State) : (onMigration h f s).dies = s.dies := rfl
@[simp] theorem onMigration_cores (h : Nat) (f : Migration → Migration) (s : State) : (onMigration h f s).cores = s.cores := rfl
@[simp] theorem onMigration_stg (h : Nat) (f : Migration → Migration) (s : State) : (onMigration h f s).stg = s.stg := rfl
@[simp] theorem onMigration_fns (h : Nat) (f : Migration → Migration) (s : State) : (onMigration h f s).fns = s.fns := rfl
@[simp] theorem onMigration_tens (h : Nat) (f : Migration → Migration) (s : State) : (onMigration h f s).tens = s.tens := rfl
@[simp] theorem onMigration_sess (h : Nat) (f : Migration → Migration) (s : State) : (onMigration h f s).sess = s.sess := rfl
@[simp] theorem onMigration_sched (h : Nat) (f : Migration → Migration) (s : State) : (onMigration h f s).sched = s.sched := rfl
@[simp] theorem onMigration_models (h : Nat) (f : Migration → Migration) (s : State) : (onMigration h f s).models = s.models := rfl
@[simp] theorem onMigration_tiers (h : Nat) (f : Migration → Migration) (s : State) : (onMigration h f s).tiers = s.tiers := rfl
@[simp] theorem onMigration_store (h : Nat) (f : Migration → Migration) (s : State) : (onMigration h f s).store = s.store := rfl
@[simp] theorem onMigration_rcl (h : Nat) (f : Migration → Migration) (s : State) : (onMigration h f s).rcl = s.rcl := rfl
@[simp] theorem onMigration_ledger (h : Nat) (f : Migration → Migration) (s : State) : (onMigration h f s).ledger = s.ledger := rfl
@[simp] theorem onMigration_links (h : Nat) (f : Migration → Migration) (s : State) : (onMigration h f s).links = s.links := rfl
@[simp] theorem onMigration_rack_role (h : Nat) (f : Migration → Migration) (s : State) : (onMigration h f s).rack.role = s.rack.role := rfl
@[simp] theorem onMigration_rack_domain (h : Nat) (f : Migration → Migration) (s : State) : (onMigration h f s).rack.domain = s.rack.domain := rfl
@[simp] theorem onMigration_rack_num (h : Nat) (f : Migration → Migration) (s : State) : (onMigration h f s).rack.num = s.rack.num := rfl
@[simp] theorem onMigration_rack_numValid (h : Nat) (f : Migration → Migration) (s : State) : (onMigration h f s).rack.numValid = s.rack.numValid := rfl
@[simp] theorem onMigration_rack_above (h : Nat) (f : Migration → Migration) (s : State) : (onMigration h f s).rack.above = s.rack.above := rfl
@[simp] theorem onMigration_rack_members (h : Nat) (f : Migration → Migration) (s : State) : (onMigration h f s).rack.members = s.rack.members := rfl
@[simp] theorem onMigration_rack_directory (h : Nat) (f : Migration → Migration) (s : State) : (onMigration h f s).rack.directory = s.rack.directory := rfl
@[simp] theorem onMigration_rack_epochs (h : Nat) (f : Migration → Migration) (s : State) : (onMigration h f s).rack.epochs = s.rack.epochs := rfl
@[simp] theorem onMigration_rack_published (h : Nat) (f : Migration → Migration) (s : State) : (onMigration h f s).rack.published = s.rack.published := rfl
@[simp] theorem onMigration_rack_nextEpoch (h : Nat) (f : Migration → Migration) (s : State) : (onMigration h f s).rack.nextEpoch = s.rack.nextEpoch := rfl
@[simp] theorem onMigration_rack_retired (h : Nat) (f : Migration → Migration) (s : State) : (onMigration h f s).rack.retired = s.rack.retired := rfl
@[simp] theorem onMigration_rack_asking (h : Nat) (f : Migration → Migration) (s : State) : (onMigration h f s).rack.asking = s.rack.asking := rfl
@[simp] theorem onMigration_rack_nextSeq (h : Nat) (f : Migration → Migration) (s : State) : (onMigration h f s).rack.nextSeq = s.rack.nextSeq := rfl
@[simp] theorem onMigration_rack_unacked (h : Nat) (f : Migration → Migration) (s : State) : (onMigration h f s).rack.unacked = s.rack.unacked := rfl
@[simp] theorem onMigration_rack_seen (h : Nat) (f : Migration → Migration) (s : State) : (onMigration h f s).rack.seen = s.rack.seen := rfl
@[simp] theorem onMigration_rack_consumed (h : Nat) (f : Migration → Migration) (s : State) : (onMigration h f s).rack.consumed = s.rack.consumed := rfl
@[simp] theorem onMigration_rack_outbox (h : Nat) (f : Migration → Migration) (s : State) : (onMigration h f s).rack.outbox = s.rack.outbox := rfl
@[simp] theorem onMigration_rack_heldMgr (h : Nat) (f : Migration → Migration) (s : State) : (onMigration h f s).rack.heldMgr = s.rack.heldMgr := rfl
@[simp] theorem onMigration_rack_lookups (h : Nat) (f : Migration → Migration) (s : State) : (onMigration h f s).rack.lookups = s.rack.lookups := rfl
@[simp] theorem onMigration_rack_forwards (h : Nat) (f : Migration → Migration) (s : State) : (onMigration h f s).rack.forwards = s.rack.forwards := rfl
@[simp] theorem onMigration_rack_aborted (h : Nat) (f : Migration → Migration) (s : State) : (onMigration h f s).rack.aborted = s.rack.aborted := rfl
@[simp] theorem onMigration_rack_groups (h : Nat) (f : Migration → Migration) (s : State) : (onMigration h f s).rack.groups = s.rack.groups := rfl
@[simp] theorem onMigration_rack_registry (h : Nat) (f : Migration → Migration) (s : State) : (onMigration h f s).rack.registry = s.rack.registry := rfl
@[simp] theorem onMigration_rack_waiting (h : Nat) (f : Migration → Migration) (s : State) : (onMigration h f s).rack.waiting = s.rack.waiting := rfl
@[simp] theorem onMigration_rack_lostPeers (h : Nat) (f : Migration → Migration) (s : State) : (onMigration h f s).rack.lostPeers = s.rack.lostPeers := rfl
@[simp] theorem onMigration_rack_joinRefused (h : Nat) (f : Migration → Migration) (s : State) : (onMigration h f s).rack.joinRefused = s.rack.joinRefused := rfl
@[simp] theorem onMigration_rack_ckptAnswers (h : Nat) (f : Migration → Migration) (s : State) : (onMigration h f s).rack.ckptAnswers = s.rack.ckptAnswers := rfl
@[simp] theorem onMigration_rack_managerLost (h : Nat) (f : Migration → Migration) (s : State) : (onMigration h f s).rack.managerLost = s.rack.managerLost := rfl
@[simp] theorem onMigration_chk (h : Nat) (f : Migration → Migration) (s : State) : (onMigration h f s).chk = s.chk := rfl
@[simp] theorem onMigration_free (h : Nat) (f : Migration → Migration) (s : State) : (onMigration h f s).free = s.free := rfl
@[simp] theorem onMigration_pending (h : Nat) (f : Migration → Migration) (s : State) : (onMigration h f s).pending = s.pending := rfl

/-! ### The entry written -/

theorem coreOf_setCore (c : Core) (j : CoreId) (s : State) : coreOf (setCore c s) j = if j = c.id then c else coreOf s j := by
  unfold coreOf setCore
  have miss : ∀ l : List Core, (l.any fun x => x.id == c.id) = false → l.find? (fun x => x.id == c.id) = none := by
    intro l h; rw [List.find?_eq_none]; intro x hx e; rw [List.any_eq_false] at h; exact h x hx e
  have hit : ∀ l : List Core, (l.any fun x => x.id == c.id) = true →
      (l.map fun x => if x.id = c.id then c else x).find? (fun x => x.id == c.id) = some c := by
    intro l
    induction l with
    | nil => intro h; cases h
    | cons y l ih =>
      intro h
      by_cases e : y.id = c.id
      · simp [e]
      · have : (y.id == c.id) = false := by simp [e]
        simp only [List.any_cons, this, Bool.false_or] at h
        simp [e, ih h]
  have other : ∀ l : List Core, j ≠ c.id → (l.map fun x => if x.id = c.id then c else x).find? (fun x => x.id == j) = l.find? fun x => x.id == j := by
    intro l hj
    induction l with
    | nil => rfl
    | cons y l ih =>
      by_cases e : y.id = c.id
      · have a : (c.id == j) = false := by simp [Ne.symm hj]
        have b : (y.id == j) = false := by simp [e, Ne.symm hj]
        simp [e, a, ih]
      · by_cases k : y.id = j
        · simp [k, hj]
        · simp [e, k, ih]
  dsimp only
  by_cases hj : j = c.id
  · subst hj
    rw [if_pos rfl]
    split
    · rename_i h; rw [hit _ h]; rfl
    · rename_i h
      rw [List.find?_append, miss _ (by simpa using h)]
      simp
  · rw [if_neg hj]
    split
    · rw [other _ hj]
    · rw [List.find?_append]
      have : (c.id == j) = false := by simp [Ne.symm hj]
      simp [this]

theorem find?_put {α : Type} (key : α → Bool) (x : α) (hx : key x = true) (l : List α) :
    (l.filter (fun y => !key y) ++ [x]).find? key = some x := by
  rw [List.find?_append]
  have : (l.filter fun y => !key y).find? key = none := by
    rw [List.find?_eq_none]; intro y hy; simp at hy; simp [hy.2]
  simp [this, hx]

theorem find?_put_other {α : Type} (gone key : α → Bool) (x : α) (hx : key x = false) (hk : ∀ y, key y = true → gone y = false) (l : List α) :
    (l.filter (fun y => !gone y) ++ [x]).find? key = l.find? key := by
  rw [List.find?_append]
  have : (l.filter fun y => !gone y).find? key = l.find? key := by
    induction l with
    | nil => rfl
    | cons y l ih =>
      by_cases k : key y = true
      · simp [hk y k, k]
      · by_cases g : gone y = true
        · simp [g, k, ih]
        · simp [g, k, ih]
  simp [this, hx]

theorem semOf_setSem_self (x : Sem) (s : State) : semOf (setSem x s) x.die x.num = x := by
  unfold semOf setSem
  dsimp only
  rw [find?_put (fun y : Sem => y.die == x.die && y.num == x.num) x (by simp)]
  rfl

theorem semOf_setSem_other (x : Sem) (s : State) {die n : Nat} (h : ¬(die = x.die ∧ n = x.num)) : semOf (setSem x s) die n = semOf s die n := by
  unfold semOf setSem
  dsimp only
  rw [find?_put_other (fun y : Sem => y.die == x.die && y.num == x.num) (fun y => y.die == die && y.num == n) x]
  · simpa using fun a b => h ⟨a.symm, b.symm⟩
  · intro y hy
    simp at hy
    simpa [hy.1, hy.2] using fun a b => h ⟨a, b⟩

theorem ctxOf_setCtx_self (x : Ctx) (s : State) : ctxOf (setCtx x s) x.die x.num = x := by
  unfold ctxOf setCtx
  dsimp only
  rw [find?_put (fun y : Ctx => y.die == x.die && y.num == x.num) x (by simp)]
  rfl

theorem ctxOf_setCtx_other (x : Ctx) (s : State) {die n : Nat} (h : ¬(die = x.die ∧ n = x.num)) : ctxOf (setCtx x s) die n = ctxOf s die n := by
  unfold ctxOf setCtx
  dsimp only
  rw [find?_put_other (fun y : Ctx => y.die == x.die && y.num == x.num) (fun y => y.die == die && y.num == n) x]
  · simpa using fun a b => h ⟨a.symm, b.symm⟩
  · intro y hy
    simp at hy
    simpa [hy.1, hy.2] using fun a b => h ⟨a, b⟩

theorem bundleOf_setBundle_self (x : Bundle) (s : State) : bundleOf (setBundle x s) x.runner x.bundle x.dir = x := by
  unfold bundleOf setBundle
  dsimp only
  rw [find?_put (fun y : Bundle => y.runner == x.runner && y.bundle == x.bundle && y.dir == x.dir) x (by simp)]
  rfl

theorem bundleOf_setBundle_other (x : Bundle) (s : State) {r b : Nat} {d : Bool} (h : ¬(r = x.runner ∧ b = x.bundle ∧ d = x.dir)) :
    bundleOf (setBundle x s) r b d = bundleOf s r b d := by
  unfold bundleOf setBundle
  dsimp only
  rw [find?_put_other (fun y : Bundle => y.runner == x.runner && y.bundle == x.bundle && y.dir == x.dir)
    (fun y => y.runner == r && y.bundle == b && y.dir == d) x]
  · simpa using fun a b c => h ⟨a.symm, b.symm, c.symm⟩
  · intro y hy
    simp at hy
    simpa [hy.1.1, hy.1.2, hy.2] using fun a b c => h ⟨a, b, c⟩

/-! ### Sending at a port -/

/-- A port with no class shaped, no gate list and no unit waiting sends a unit at once (R356, R358). -/
theorem offerUnit_idle (u : FOut) (p : Port) (hq : p.queue = []) (hg : p.gates = []) (hs : p.shares = []) (hc : u.hdr.cls < 8) :
    (offerUnit u p).2 = [u] ∧ (offerUnit u p).1.queue = [] := by
  have first : ∀ c, firstOf { p with queue := p.queue ++ [u] } c = if u.hdr.cls = c then some u else none := by
    intro c
    by_cases e : u.hdr.cls = c <;> simp [firstOf, hq, e]
  have may : ∀ c, mayStart { p with queue := p.queue ++ [u] } c = decide (u.hdr.cls = c) := by
    intro c
    unfold mayStart
    rw [first]
    by_cases e : u.hdr.cls = c <;> simp [e, gateOpen, unitFits, entryLeft, shareOf, hg, hs]
  have next : nextClass { p with queue := p.queue ++ [u] } = some u.hdr.cls := by
    unfold nextClass
    rw [List.find?_congr (p₂ := fun c => decide (u.hdr.cls = c)) (fun c _ => may c)]
    generalize u.hdr.cls = k at hc
    interval_cases k <;> rfl
  have sent : ((sendUnit u.hdr.cls u { p with queue := p.queue ++ [u] }).queue) = [] := by
    unfold sendUnit countBytes raiseCredits
    simp [shareOf, hs, hg, hq, moveGate]
  have head := first u.hdr.cls
  rw [if_pos rfl] at head
  unfold offerUnit
  rw [hq] at next head sent ⊢
  simp only [List.length_nil, Nat.zero_add]
  unfold pumpPort
  rw [next]
  dsimp only
  rw [head]
  exact ⟨rfl, sent⟩

end Sys2Proof.Machine
end

