-- ==== Sys2Proof/Tests/Base.lean ====
section
/-! SUPPORT. Small states and operands from which the tests and the witnesses of the statements are built. -/

namespace Sys2Proof.Tests

open Sys2Proof Sys2Proof.Machine

/-- An attention block of one layer with pages in BF16 (Table 6-6). -/
def block0 : BlockDesc :=
  { mixer := 0, ffn := 0, pageFormat := 0, weightFormat := 0, activation := 0, positional := 0, skipFloor := 0, rotaryBase := 0
    ffnWidth := 64, stateBytes := 0, stateHeads := 0, stateDim := 0, firstTensor := 0, tensorCount := 0 }

/-- A model program of one attention layer and one KV head (Table 6-5). -/
def prog0 : ModelProgram :=
  { magicOk := true, version := 1, hidden := 64, queryHeads := 1, kvHeads := 1, headDimCode := 0, parameters := 0, vocabulary := 100
    experts := 0, routed := 0, shared := 0, gateMode := 0, norm := 0, snapshotSpacing := 0, snapshotDepth := 0, epsilon := 0
    scoreScale := 0, endToken0 := 1, endToken1 := 1, toolOpen := 0xFFFFFFFF, toolClose := 0xFFFFFFFF, projectionSeed := 0
    frameBytes := 4096, framePositions := 8, sampleFormat := 0, normalisation := 0, recallWidths := 0, tokeniser := 0
    encoders := [block0], decoders := [block0, block0], tensors := [], programLength := 0, digest := [1#8] }

/-- Model 1, bound (Table 6-9). -/
def model1 : Model := { num := 1, state := 2, program := some prog0 }

/-- Tenant 1, bound to function 0 (R461). -/
def tenant1 : Tenant := { id := 1, link0 := 1 }

/-- An image whose verdicts of R484 are good; `holdUp` is the board description's hold-up energy (Table 17-5). -/
def image (holdUp : Nat) : Image :=
  { part := 8840, stepping := 0xB0, imageVersion := 1, securityVersion := 3, lengthFits := true, digestsOk := true, manifestOk := true
    ownerKey := 0, ownerSigOk := true, endorsedBy := none, digest := 0
    norm := some { version := (15, 1, 0), combining := [], quickCheck := [], canonical := [], compat := [], composites := [] }
    tokenisers := [], moulds := [], templates := [], board := { holdUpJ := holdUp, supplyMonitor := true }, role := {}, partitions := []
    staged := none }

/-- A TSN-8840 in READY with both host links up, both chill modules present, every cluster in partition 0, tenant 1 and model 1. -/
def ready : State :=
  { dev := { code := .ready, step := 10, linkUp := [true, true], image := some (image 300), chill := [true, true] }
    pins := { powerGood := true, perst := [false, false] }
    parts := [{ num := 0, active := true, clusters := 0xFFFFFFFF }, { num := 1 }, { num := 2 }, { num := 3 }]
    tens := [tenant1], models := [model1] }

/-- The same package with the hold-up bound off. -/
def plain : State := { ready with dev := { ready.dev with image := some (image 0) } }

/-- The package without an image, as no run reaches it: nothing bounds its hold-up. -/
def bare : State := { ready with dev := { ready.dev with image := none } }

/-- The package alone, hub B fenced: no hub follows. -/
def alone (s : State) : State := { s with dev := { s.dev with hubs := [{}, { fenced := true }] } }

/-- The package with one session. -/
def hold (x : Session) (s : State) : State := { s with sess := [x] }

/-- The package with a pour in flight. -/
def pouring (p : Pour) (s : State) : State := { s with sched := { s.sched with pour := some p, next := 2 } }

/-- Session 5 of tenant 1 and model 1. -/
def session5 : Session := { handle := 5, tenant := 1, model := 1 }

/-- A sprue message of function 0 with a good crc. -/
def message (opcode tenant seq handle : Nat) (payload : List (Nat × Nat × Nat)) : Sprue :=
  { fn := 0, slot := 0, w := sealMessage 2 opcode tenant seq handle payload }

/-- A mailbox request of physical function 0 with `length` bytes. -/
def request (length : Nat) : MbReq := { fn := 0, minor := 0, tag := 7, length := length, partition := 0 }

/-- A package of a rack: a worker, manager or top manager of number 3 (Table 17-6). -/
def racked (role : Nat) (s : State) : State := { s with rack := { s.rack with role := role, domain := 1, num := 3, numValid := true, above := 9 } }

/-- An entry of a manager ring with a good crc (Table 14-2). -/
def entry (source handle : Nat) : MgrHdr := { source := source, epoch := 1, seq := 4, handle := handle, crcOk := true }

end Sys2Proof.Tests
end

