-- ==== Sys2Proof/Tests/Devices.lean ====
section
/-! SUPPORT. Witnesses of the statements about the parking store, the recall engine, the ledger, ports, runners, firmware cores, semaphores,
test access and management: for each, states and operands that meet its hypotheses, clause by clause. -/

namespace Sys2Proof.Tests
set_option Elab.async false

open Sys2Proof Sys2Proof.Machine

/-! ### The parking store -/

/-- Object 2 of partition 0 with four pages reserved, and the group it is programmed into. -/
def obj2 : Obj := { num := 2, ns := 0, handle := 5, tenant := 1, ingot := true, reserved := 4 }
def openGroup4 : Group := { hub := 0, num := 4, ns := 0, state := .opened, slc := true, pages := 6, written := 2, valid := 2 }
def stored (g : List Group) : State := { bare with store := { bare.store with objs := [obj2], groups := g } }
def closed (valid erases : Nat) : Group := { openGroup4 with state := .closed, valid := valid, erases := erases }
/-- The same with session 5 parked in object 2. -/
def parked5 : State := { stored [openGroup4] with sess := [{ session5 with state := .parked, ingot := 2 }] }
/-- A hub with one record not yet in the journal; and the parking store with channel 3 present. -/
def recorded : State := { bare with store := { bare.store with hubs := [{ unflushed := [{ kind := 1 }] }, {}], channels := 8 } }

/-- The store with its namespace: many groups and its spares, and one that is read-only. -/
def ns0 (spares : Nat) (readOnly : Bool) : Ns := { num := 0, capacity := 2 ^ 30, groups := 1000, total := 1000, spares := spares, readOnly := readOnly }
def spaced (n : Ns) (g : List Group) : State := { stored g with store := { (stored g).store with nss := [n] }, tens := [{ tenant1 with key := some 1 }] }

theorem witness_NandEventsKeepTheStore :
    (∀ g ∈ [[openGroup4], []], let s := spaced (ns0 20 false) g
      findObj s 2 = some obj2 ∧ obj2.deleted = false ∧ 4 ≤ obj2.reserved ∧ (findTen s obj2.tenant).any (fun t => t.key.isNone) = false ∧
      ((groupOf s 0 4 0).state = .opened ∨ ((groupOf s 0 4 0).state = .free ∧ writesWait s obj2.ns = false))) ∧
    (findObj (stored []) 2 = some obj2 ∧ 4 ≤ obj2.reserved ∧ (groupOf (stored []) 0 4 0).state = .free ∧ writesWait (stored []) obj2.ns = true) ∧
    (obj2.deleted = false ∧ obj2.reserved < 5) ∧
    ((((findObj (stored [openGroup4]) 2).map Obj.ns).getD 0 = 0 ∧ (groupOf (stored [openGroup4]) 0 4 0).state ≠ .retired) ∧
      (closed 0 0).state ≠ .retired ∧ (closed 0 0).valid = 0 ∧ 0 < (closed 1 0).valid) ∧
    ((nsOf (spaced (ns0 20 false) []) (closed 1 0).ns).spares ≠ 0 ∧ (nsOf (spaced (ns0 20 false) []) (closed 1 0).ns).readOnly = false) ∧
    (∀ n ∈ [ns0 0 false, ns0 20 true], ((nsOf (spaced n []) (closed 1 0).ns).spares = 0 ∨ (nsOf (spaced n []) (closed 1 0).ns).readOnly = true) ∧
      ∃ x ∈ (spaced n []).store.nss, x.num = (closed 1 0).ns) ∧
    (∀ g ∈ [openGroup4, closed 1 0], (stored [g]).store.groups.find? (fun g => g.hub == 0 && g.num == 4) = some g ∧ (g.state ≠ .closed ∨ 0 < g.valid)) ∧
    (∀ k ∈ [2998, 2999], (stored [closed 0 k]).store.groups.find? (fun g => g.hub == 0 && g.num == 4) = some (closed 0 k) ∧ (closed 0 k).state = .closed ∧
      (closed 0 k).valid = 0 ∧ (nsOf (stored [closed 0 k]) (closed 0 k).ns).readOnly = false) ∧
    ((closed 0 2998).erases + 1 < (board bare).eraseLimit ∧ (board bare).eraseLimit ≤ (closed 0 2999).erases + 1) ∧
    (findObj parked5 2 = some obj2 ∧ obj2.deleted = false ∧ findSess parked5 obj2.handle = some { session5 with state := .parked, ingot := 2 } ∧
      session5.request = none ∧ session5.op = none) ∧
    recorded.store.hubs[0]? = some { unflushed := [{ kind := 1 }] } ∧ recorded.store.channels.testBit 3 = true := by
  refine ⟨?_, ?_, ?_, ?_, ?_, ?_, ?_, ?_, ?_, ?_, ?_, ?_⟩ <;> decide +kernel

/-! ### The recall engine -/

/-- Index 3 of tenant 1 as one shard, and as a shard of two whose other is elsewhere (Table 10-1). -/
def item3 (shards : Nat) : IndexItem :=
  { index := 3, tenant := 1, partition := 0, width := 0, capacity := 1024, degree := 16, hub := 0, breadth := 64, buildBreadth := 64
    shardCount := shards, shardNumber := 0, repairPct := 5, copies := 1, visitLimit := 1000 }
def shard0 : Shard := { item := item3 1 }
def ask10 : Ask := { win := .function 0, seq := 1, opcode := 10, fn := 0 }
def query1 (left : List Nat) : Query := { num := 1, asker := .message ask10 1 0 0, op := 0x0A, index := 3, k := 10, left := left }
def searching (sh : Shard) (left : List Nat) : State := { bare with rcl := { shards := [sh], queries := [query1 left], nextQ := 2 } }
/-- Node 6 linking under key 42, inserted by query 1. -/
def node6 : Node := { num := 6, state := .linking, key := 42 }
def insertion : Query := { num := 1, asker := .message { ask10 with opcode := 11 } 1 0 0, op := 0x0B, index := 3, key := 42, left := [0] }
def inserting : Shard := { shard0 with nodes := [node6], inserting := some 1 }
def inserts : State := { bare with rcl := { shards := [inserting], queries := [insertion], nextQ := 2 } }

theorem witness_RecallOperationsEnd :
    (findQuery (searching shard0 [0]) 1 = some (query1 [0]) ∧ (query1 [0]).op = 0x0A ∧ (query1 [0]).queued = false ∧ (query1 [0]).failed = false ∧
      (query1 [0]).late = false ∧ (query1 [0]).asker = .message ask10 1 0 0 ∧
      ∀ n ∈ (query1 [0]).left, (findShard (searching shard0 [0]) 3 n).isSome = true) ∧
    (findQuery (searching shard0 [0, 1]) 1 = some (query1 [0, 1]) ∧
      ∃ n ∈ (query1 [0, 1]).left, findShard (searching shard0 [0, 1]) 3 n = none) ∧
    (inserts.rcl.shards.find? (fun h => h.item.index == 3 && h.inserting.isSome && (keyNode h 42).isSome) = some inserting ∧
      findShard inserts 3 inserting.item.shardNumber = some inserting ∧ inserting.inserting = some 1 ∧ findQuery inserts 1 = some insertion ∧
      insertion.key = 42 ∧ keyNode inserting 42 = some node6 ∧ nodeOf inserting node6.num = some node6 ∧ node6.state = .linking) ∧
    (findShard (searching { shard0 with repair := some [2] } []) 3 0 = some { shard0 with repair := some [2] }) ∧
    (findShard (searching { shard0 with deleting := true } []) 3 0 = some { shard0 with deleting := true } ∧
      (∀ q ∈ (searching { shard0 with deleting := true } []).rcl.queries, q.index = 3 → 0 ∉ q.left)) ∧
    ∃ q ∈ (searching { shard0 with deleting := true } [0]).rcl.queries, q.index = 3 ∧ 0 ∈ q.left := by decide +kernel

theorem witness_FiltersAndEdgesOfASearch : follow? { shard0 with nodes := [{ node6 with gen := 2 }] } (6, 2) = some { node6 with gen := 2 } := by decide

/-! ### The ledger and the ports -/

theorem witness_HeatAndPowerEventsAct :
    ((pouring { number := 1, flask := 0 } ready).sched.pour.isSome = true ∧ 8 ≤ (pouring { number := 1, flask := 0 } ready).ledger.rails.length ∧
      (liveScs ready).Nodup ∧ liveScs ready ≠ []) ∧ ready.sched.pour = none ∧ ready.ledger.rails[7]? = some ({} : RailV) ∧
    (∀ d ∈ diesFitted ready.part, ∃ c, (List.replicate 8 (some 94)).getD d (some 0) = some c ∧ c < 95) ∧
    ((∃ d ∈ diesFitted ready.part, ([some 105] : List (Option Nat)).getD d (some 0) = none ∨
        ∃ c, ([some 105] : List (Option Nat)).getD d (some 0) = some c ∧ 105 ≤ c) ∧
      (∃ d ∈ diesFitted ready.part, ([none] : List (Option Nat)).getD d (some 0) = none) ∧ 8 ≤ ready.ledger.rails.length) ∧
    1 < ready.dev.chill.length ∧ 5 ∉ diesFitted .tsn4420 ∧ 7 ∈ diesFitted ready.part ∧ ready.dev.meters[7]? = some ({} : Meter) ∧ ∀ p ∈ ready.links.ports, p.num / 16 + 4 = 7 → p.state ≠ .up := by
  refine ⟨by decide, by decide, by decide, ?_, ⟨⟨0, by decide, Or.inr ⟨105, by decide, by decide⟩⟩, ⟨0, by decide, by decide⟩, by decide⟩,
    by decide, by decide, by decide, by decide, by decide⟩
  intro d hd
  refine ⟨94, ?_, by decide⟩
  revert d
  decide

/-- Port 2 in a state, and an identity block that fits or does not (Table 13-2). -/
def port2 (st : PortState) : Port := { num := 2, state := st, role := 1, width := if st = .up then 16 else 0 }
def ported (p : Port) : State := { ready with links := { ready.links with ports := [p] } }
def peer2 (kind role : Nat) : Identity := { kind := kind, port := 0, unit := 0, domain := 0xFFFF, role := role, serial := 0 }

theorem witness_PortsTrainAndFail :
    (findPort (ported (port2 .training)) 2 = some (port2 .training) ∧ (port2 .training).state = .training ∧ (peer2 0 1).kind = 0 ∧
      peerFits (ported (port2 .training)) (port2 .training) (peer2 1 2) = false ∧ (peer2 1 2).kind ≠ 0 ∧
      peerFits (ported (port2 .training)) (port2 .training) (peer2 1 1) = true) ∧
    (∀ st ∈ [PortState.dark, .miswired, .down, .up, .training], findPort (ported (port2 st)) 2 = some (port2 st) ∧ (port2 st).state = st ∧
      (3 : Nat) ∉ (port2 st).lostOut ∧ (3 : Nat) ∉ (port2 st).lostIn ∧ (port2 st).spareOut = none ∧ (port2 st).spareIn = none) ∧
    (17 - (List.range 10).length < 8 ∧ 8 ≤ 17 - (List.range 9).length) ∧
    (let p := { port2 .up with spareOut := some 1 }
     findPort (ported p) 2 = some p ∧ p.state = .up ∧ p.spareOut = some 1 ∧ 3 ∉ p.lostOut ∧ 3 ≠ 1 ∧
       ¬(9 < p.lostOut.length + 2 ∨ 9 < (lostOf p false).length)) ∧
    (let p := { port2 .up with spareOut := some 1, lostOut := [4, 5, 6, 7, 8, 9, 10, 11] }
     findPort (ported p) 2 = some p ∧ 3 ∉ p.lostOut ∧ 9 < p.lostOut.length + 2) ∧
    (let p := { port2 .up with spareIn := some 1 }
     findPort (ported p) 2 = some p ∧ p.state = .up ∧ p.spareIn = some 1 ∧ 3 ∉ p.lostIn ∧ 3 ≠ 1 ∧ ¬(9 < (lostOf p true).length ∨ 9 < p.lostIn.length + 2)) ∧
    (∀ r ∈ [0, 1], let d : PortDesc := { role := r, peerKind := 0xFF, peerPort := 0xFF, peerUnit := 0xFFFF }
      let p := { port2 .up with leaving := some d }
      findPort (ported p) 2 = some p ∧ p.leaving = some d) := by decide +kernel

/-! ### Runners -/

/-- Bundle 0 of runner 0 in its first direction, fresh, and with spares used; a good line and a bad one. -/
def bundle00 (spared : List Nat) : Bundle := { runner := 0, bundle := 0, spared := spared }
def bundled (x : Bundle) : State := { ready with links := { ready.links with bundles := [x] } }
def goodLine : RunnerLine :=
  { runner := 0, bundle := 0, crc := crc16 (bytesOf 0#512 0 64), legal := true, seq := 0, kind := 0, data := 0#512, badGroup := none }
/-- Two failed checks of group 9 a few lines ago. -/
def blamed : Bundle := { bundle00 [] with lines := 4, checks := [(9, 2), (9, 4)] }

theorem witness_RunnersCarryLines :
    (lineTravels (bundled (bundle00 [])) goodLine = true ∧ bundleOf (bundled (bundle00 [])) 0 0 false = bundle00 [] ∧ lineGood (bundle00 []) goodLine = true) ∧
    (∀ l ∈ [{ goodLine with legal := false }, { goodLine with seq := 1, badGroup := some 9 }, { goodLine with kind := 4 }],
      lineTravels (bundled (bundle00 [])) l = true ∧ lineGood (bundle00 []) l = false) ∧
    (recentChecks { blamed with lines := 5, checks := blamed.checks ++ [(9, 5)] } 9 = 3 ∧
      recentChecks { bundle00 [] with lines := 1, checks := [(9, 1)] } 9 = 1) ∧
    (∀ l ∈ [{ goodLine with bundle := 32 }, { goodLine with runner := 8, bundle := 16 }], lineTravels ready l = false) ∧
    lineTravels (bundled { bundle00 [] with fenced := true }) goodLine = false ∧
    (hasBundle (bundled (bundle00 [])) 0 0 = true ∧ (bundle00 []).fenced = false ∧ 277 ∉ (bundle00 []).spared ∧
      ∀ l ∈ [[], [0, 1, 2, 3, 4, 5, 6]], bundleOf (bundled (bundle00 l)) 0 0 false = bundle00 l ∧ (bundle00 l).spared.length < 8) ∧
    (let x := bundle00 [0, 1, 2, 3, 4, 5, 6, 7]
     bundleOf (bundled x) 0 0 false = x ∧ (bundleOf (bundled x) 0 0 false).fenced = false ∧ 8 ∉ x.spared ∧ 8 ≤ x.spared.length ∧
       31 < runnerBundles ready.part 0 ∧ 31 ≠ 0 ∧ (bundleOf (bundled x) 0 31 false).fenced = false) := by
  refine ⟨?_, ?_, ?_, ?_, ?_, ?_, ?_⟩ <;> decide +kernel

/-! ### Firmware cores -/

def sched0 : CoreId := { cls := 0, unit := 0, pos := 0 }
/-- Source 8 of hub A's scheduler core, enabled. -/
def src8 : EvSrc := { num := 8, priority := 2, enable := true }
def cored (c : Core) : State := { ready with cores := { ready.cores with cores := [c] } }
def taking : Core := { id := sched0, ie := true, deliver := true, base := 2048, srcs := [src8] }
def masked : Core := { taking with ie := false }
def served : Core := { taking with srcs := [{ src8 with active := true }], running := 2, depth := 1 }

theorem witness_EventControllersDeliver :
    (coreOf (cored taking) sched0 = taking ∧ srcOf taking 8 = src8 ∧ sourceListed ready.part sched0 8 = true ∧ (∀ y ∈ taking.srcs, y.num ≠ 8 → srcReady y = false) ∧
      src8.enable = true ∧ src8.active = false ∧ taking.deliver = true ∧ taking.ie = true ∧ src8.priority < taking.running ∧ taking.faulted = false ∧
      taking.fenced = false) ∧
    sourceListed ready.part sched0 7 = false ∧ sourceListed ready.part sched0 64 = false ∧
    (coreOf (cored masked) sched0 = masked ∧ masked.ie = false ∧ srcOf masked 8 = src8) ∧
    (coreOf (cored served) sched0 = served ∧ srcOf served 8 = { src8 with active := true } ∧ (∀ y ∈ served.srcs, y.pending = false) ∧
      srcOf served 9 = { num := 9 } ∧ ({ num := 9 } : EvSrc).active = false) ∧
    ((2048 : Nat) < 2 ^ 48 ∧ 2048 % 2048 = 0 ∧ (2 ^ 48 - 2048) % 2048 = 0) ∧
    ((∀ y ∈ (coreOf (cored taking) sched0).srcs, srcReady y = false) ∧
      ∃ y ∈ (coreOf (cored { taking with srcs := [{ src8 with pending := true }] }) sched0).srcs, srcReady y = true) := by decide

/-- Semaphore 3 of die 0 free, held by context 1, with a waiter; context 1 running and saved. -/
def sem3 (owner : Option Nat) (waiters : List Nat) : Sem := { die := 0, num := 3, owner := owner, waiters := waiters }
def ctx1 (saved : Option Nat) : Ctx := { die := 0, num := 1, saved := saved, grants := [3] }
def semed (x : Sem) (c : Ctx) : State := { ready with cores := { ready.cores with sems := [x], ctxs := [c] } }

theorem witness_SemaphoresAreGranted :
    (semOf (semed (sem3 none []) (ctx1 none)) 0 3 = sem3 none [] ∧ (sem3 none []).owner = none ∧
      (ctxOf (semed (sem3 none []) (ctx1 none)) 0 2).grants.length < 4) ∧
    (∀ sv ∈ [none, some 7], let s := semed (sem3 (some 1) []) (ctx1 sv)
      semOf s 0 3 = sem3 (some 1) [] ∧ (sem3 (some 1) []).owner = some 1 ∧ 1 ≠ 2 ∧ (ctxOf s 0 2).grants.length < 4 ∧ 2 ∉ (sem3 (some 1) []).waiters ∧
        (ctxOf s 0 1).saved = sv ∧ (ctxOf s 0 1).grants = [3]) ∧
    (let c : Ctx := { ctx1 none with grants := [4, 5, 6, 7] }
     let s : State := { ready with cores := { ready.cores with sems := [sem3 none []], ctxs := [c] } }
     ctxOf s 0 1 = c ∧ 4 ≤ c.grants.length) ∧
    (sem3 (some 1) []).owner ≠ some 2 ∧ (sem3 (some 1) [2]).waiters = [2] ∧ (sem3 (some 1) [2]).owner = some 1 ∧ (2 : Nat) ≠ 1 ∧
    semOf (semed (sem3 (some 1) [2]) (ctx1 none)) 0 3 = sem3 (some 1) [2] := by decide

/-! ### Faults, heartbeats, rolls -/

def mirrored : State :=
  { ready with fns := [{ id := 0, mb := { gen := 1, busy := true } }]
               stg := { ready.stg with mirrors := [{ q := { fn := 0, gen := 1, tag := 7, op := 0x10, sub := 0 }, outcome := .done, payload := [] }] } }
def rolling (step : Nat) : State :=
  { ready with fns := [{ id := 0, mb := { gen := 1, busy := true } }]
               dev := { ready.dev with roll := some { step := step, req := { fn := 0, gen := 1, tag := 7, op := 0x50, sub := 2 }, hub := 1 } } }

theorem witness_FaultsChangeTheLeadingHub :
    (coreFitted ready.part { cls := 3, unit := 4, pos := 0 } = false ∧ (coreOf (cored { id := sched0, faulted := true }) sched0).faulted = true) ∧
    (let id : CoreId := { cls := 3, unit := 0, pos := 7 }
     id.cls = 3 ∧ coreFitted ready.part id = true ∧ (coreOf ready id).faulted = false ∧ (coreOf ready id).fenced = false ∧
       findDie ready 0 = some { num := 0 } ∧ ({ num := 0 } : ScDie).logical.findIdx? (fun k => k == some id.pos) = some 7) ∧
    (∀ u ∈ [0, 1], let id : CoreId := { cls := 2, unit := u, pos := 0 }
      id.cls < 3 ∧ coreFitted ready.part id = true ∧ (coreOf ready id).faulted = false ∧ (coreOf ready id).fenced = false ∧ running ready = true ∧
        hubServes ready id.unit = true ∧ id.unit < ready.dev.hubs.length) ∧
    (ready.dev.leading = 0 ∧ hasFollower ready = true ∧ ∀ p, ready.sched.pour = some p → p.step ≠ 9) ∧
    (running State.reset = false ∧ hasFollower (alone ready) = false) ∧
    (let s := { ready with dev := { ready.dev with hubs := [{}, { restarting := true }] } }
     s.dev.hubs[1]? = some ({ restarting := true } : Hub) ∧ ∀ r, s.dev.roll = some r → r.hub ≠ 1) ∧
    (mirrored.stg.mirrors = [{ q := { fn := 0, gen := 1, tag := 7, op := 0x10, sub := 0 }, outcome := .done, payload := [] }] ∧
      (fnOf mirrored 0).mb.busy = true ∧ (fnOf mirrored 0).mb.gen = 1) ∧
    (ready.dev.roll = none ∧ (pouring { number := 1, flask := 0 } (rolling 1)).sched.pour.isSome = true ∧
      ∀ k ∈ [1, 4], (rolling k).dev.roll = some { step := k, req := { fn := 0, gen := 1, tag := 7, op := 0x50, sub := 2 }, hub := 1 } ∧
        (fnOf (rolling k) 0).mb.busy = true ∧ (fnOf (rolling k) 0).mb.gen = 1) := by
  refine ⟨by decide, by decide, by decide, ⟨rfl, by decide, ?_⟩, by decide, ⟨by decide, ?_⟩, by decide, by decide⟩
  · intro p h; cases h
  · intro r h; cases h

/-! ### Test access, debug and management -/

/-- SAFE_TALK, and step 2 of a start. -/
def inSafeTalk : State := { ready with dev := { ready.dev with code := .safeTalk }, pins := { ready.pins with safeLow := true } }
def atStep2 : State := { ready with dev := { ready.dev with code := .starting, step := 2 } }

theorem witness_TestAndDebugPortsAnswer :
    (∀ s ∈ [inSafeTalk, atStep2], ((s.dev.code = .safeTalk ∨ (s.dev.code = .starting ∧ s.dev.step = 2)) ∧ s.sec.unlocks < 15)) ∧
    ¬((ready.dev.code = .safeTalk ∨ (ready.dev.code = .starting ∧ ready.dev.step = 2)) ∧ ready.sec.unlocks < 15) ∧
    ({ inSafeTalk with sec := { inSafeTalk.sec with challenge := some 1 } } : State).sec.challenge.isSome = true ∧ inSafeTalk.sec.challenge = none ∧
    flagAt State.reset.pins.perst 1 = true ∧
    (1 < linkCount ready.part ∧ flagAt ready.pins.perst 1 = false ∧ linkOf 256 = 1 ∧ isPhys 256 = true ∧ 63 ≤ 63 ∧ 63 < 64 ∧ isPhys 257 = false ∧
      linkOf 257 = 1 ∧ fnPresent ready 256 = true ∧ fnPresent { ready with dev := { ready.dev with numVFs := [0, 1] } } 257 = true) := by decide

theorem witness_ManagementBusAnswers :
    (∀ h ∈ [0, 1], mctpServed ready h = true ∧ ready.dev.hubs[h]? = some ({} : Hub)) ∧ 64 ≤ 64 ∧ (1 ≠ 0 ∨ 64 < 65) ∧ mctpServed State.reset 0 = false ∧
    norHeld ready = false ∧
    (let s := { ready with dev := { ready.dev with hubs := [{ updating := true }, {}] } }
     norHeld s = true ∧ mctpServed s 0 = true ∧ s.dev.hubs[0]? = some ({ updating := true } : Hub) ∧ verifies s (image 300) = true ∧
       verifies s { image 300 with digestsOk := false } = false ∧ hrGoverning s.nor = some ({} : HealthRec)) ∧
    (1 < hubCount ready.part ∧ ready.pins.powerGood = true ∧ ready.dev.hubs[1]? = some ({} : Hub) ∧ ∀ p ∈ ready.links.ports, p.num / 16 = 1 → p.state ≠ .up) ∧
    (let s := { ready with nor := { ready.nor with copy0 := .valid {} } }
     s.nor.copy0 = .valid {} ∧ s.nor.copy1 = .erased) := by decide +kernel

end Sys2Proof.Tests
end

