-- ==== Sys2Proof/Tests/Messages.lean ====
section
/-! SUPPORT. Witnesses of the statements about steps, messages and the tap: for each, states and operands that meet its hypotheses, clause by
clause. -/

namespace Sys2Proof.Tests
set_option Elab.async false

open Sys2Proof Sys2Proof.Machine

/-- The session a message acts on. -/
def taken (m : Sprue) (s : State) : Session := (findSess (actsIn m s) (msgHandle m)).getD session5

/-- The package with session 5 in a state. -/
def with5 (st : SState) : State := hold { session5 with state := st } bare

theorem witness_StepRunsTheFrontCommand : State.reset.pending = [] := rfl

theorem witness_StepKeepsConsistent : Consistent State.reset ∧ step State.reset = .next State.reset ∧ Consistent ready := by
  unfold Consistent
  exact ⟨by decide, rfl, by decide⟩

theorem witness_StepTakesOneCommand : step { ready with pending := [.heartbeat] } = .next ready := rfl

/-- The package in a device state, with SAFE_N as R542 has it. -/
def inState (c : DState) (s : State) : State := { s with dev := { s.dev with code := c }, pins := { s.pins with safeLow := c == .safeTalk } }

theorem witness_OnlyAPackageResetEndsAHalt :
    (Consistent (inState .safeTalk ready) ∧ Halted (inState .safeTalk ready) ∧ Consistent (inState .stopped ready) ∧ Halted (inState .stopped ready)) ∧
    step (inState .stopped ready) = .next (inState .stopped ready) := by
  unfold Consistent Halted
  exact ⟨by decide, rfl⟩

theorem witness_EveryCommandButARatingBreachCompletes :
    (railFitted ready.part .vaux = true ∧ withinRating .vaux 1800 = true) ∧
    (railFitted ready.part .vaux = true ∧ withinRating .vaux 100000 = false) := by decide

/-- A duplicate window that is full, its oldest number at index 5. -/
def fullWindow : Window := { highest := some 68, next := 5, entries := (List.range 64).map fun n => { seq := if n < 5 then 64 + n else n, opcode := 2 } }

theorem witness_DuplicateWindowRemembers64 :
    (WindowFit fullWindow ∧ windowVerdict fullWindow 69 = .fresh) ∧ (WindowFit {} ∧ windowVerdict {} 1 = .fresh) := by
  unfold WindowFit
  decide +kernel

theorem witness_SerialArithmetic : (0 : Nat) < 2 ^ 32 ∧ (4294967295 : Nat) < 2 ^ 32 ∧ (0 : Nat) ≠ 4294967295 ∧
    ((0 : Int) - 4294967295) % 2 ^ 32 ≠ 2 ^ 31 := by decide

theorem witness_LittleEndianRoundTrip : 0 < 1 := by decide

/-- A core with sources 3 and 4 pending. -/
def core34 : Core :=
  { id := { cls := 0, unit := 0, pos := 0 }
    srcs := [{ num := 3, priority := 2, enable := true, pending := true }, { num := 4, priority := 2, enable := true, pending := true }] }

theorem witness_EventWinnerIsLeast : (winner core34).map EvSrc.num = some 3 ∧ winner { core34 with srcs := [] } = none := by decide

/-- An OPEN of model 1 by tenant 1 through function 0. -/
def openMsg : Sprue := message 1 1 1 0 [(16, 2, 1)]

theorem witness_OpenCreatesSession :
    Accepts openMsg bare ∧ msgOpcode openMsg = 1 ∧ openFields openMsg (acceptMsg openMsg bare) = true ∧ entriesUsed bare < directoryLimit bare.part ∧
    bare.ledger.waiting = [] ∧
    holdUpFits (acceptMsg openMsg bare) (saveSize (acceptMsg openMsg bare) + openSize openMsg (acceptMsg openMsg bare)) = true ∧
    findSess bare (handleOf bare.rack.num bare.dev.nextSerial) = none := by
  unfold Accepts
  refine ⟨by decide +kernel, by decide +kernel, by decide +kernel, by decide, rfl, by decide +kernel, by decide +kernel⟩

/-- An APPEND_TEXT of four bytes, and one of one token. -/
def textMsg : Sprue := message 2 1 1 5 [(16, 1, 4), (20, 4, 0x64636261)]
def tokenMsg : Sprue := message 2 1 1 5 [(16, 1, 4), (17, 1, 1), (20, 4, 7)]
/-- An APPEND_FRAME of a whole frame. -/
def frameMsg : Sprue := message 3 1 1 5 [(24, 4, 4096)]

/-- The package with session 5 in a state, at its limit of positions. -/
def full5 (st : SState) : State := hold { session5 with state := st, p := maxPositions } bare

theorem witness_InputIsQueued :
    (∀ st ∈ [SState.opened, .active, .warm, .parked], Acts textMsg 2 (with5 st) (taken textMsg (with5 st)) ∧ (taken textMsg (with5 st)).state = st) ∧
    appendData textMsg none = some [0x61, 0x62, 0x63, 0x64] ∧ (msgAt textMsg 17 1).testBit 0 = false ∧
    (∀ st ∈ [SState.opened, .active, .warm, .parked], Acts tokenMsg 2 (with5 st) (taken tokenMsg (with5 st)) ∧ (taken tokenMsg (with5 st)).state = st ∧
      appendData tokenMsg none = some [7, 0, 0, 0] ∧ (msgAt tokenMsg 17 1).testBit 0 = true ∧
      tokensFit (actsIn tokenMsg (with5 st)) (taken tokenMsg (with5 st)) ((tokensOf [7, 0, 0, 0]).getD []) = true ∧
      overLimit (taken tokenMsg (with5 st)) (closeCost (actsIn tokenMsg (with5 st)) (taken tokenMsg (with5 st)) + appendCount tokenMsg / 4) = false) ∧
    (Acts tokenMsg 2 (full5 .opened) (taken tokenMsg (full5 .opened)) ∧
      tokensFit (actsIn tokenMsg (full5 .opened)) (taken tokenMsg (full5 .opened)) ((tokensOf [7, 0, 0, 0]).getD []) = true ∧
      overLimit (taken tokenMsg (full5 .opened)) (closeCost (actsIn tokenMsg (full5 .opened)) (taken tokenMsg (full5 .opened)) + appendCount tokenMsg / 4) =
        true) ∧
    (∀ st ∈ [SState.opened, .active, .warm, .parked], Acts frameMsg 3 (with5 st) (taken frameMsg (with5 st)) ∧
      sessProg (actsIn frameMsg (with5 st)) (taken frameMsg (with5 st)) = some prog0 ∧ (taken frameMsg (with5 st)).state = st ∧
      overLimit (taken frameMsg (with5 st)) (closeCost (actsIn frameMsg (with5 st)) (taken frameMsg (with5 st)) + prog0.framePositions) = false) ∧
    (Acts frameMsg 3 (full5 .opened) (taken frameMsg (full5 .opened)) ∧
      sessProg (actsIn frameMsg (full5 .opened)) (taken frameMsg (full5 .opened)) = some prog0 ∧
      overLimit (taken frameMsg (full5 .opened)) (closeCost (actsIn frameMsg (full5 .opened)) (taken frameMsg (full5 .opened)) + prog0.framePositions) = true) ∧
    prog0.encoders ≠ [] ∧ msgAt frameMsg 24 4 = prog0.frameBytes := by
  unfold Acts Accepts
  exact ⟨by decide +kernel, by decide +kernel, by decide +kernel, by decide +kernel, by decide +kernel, by decide +kernel, by decide +kernel,
    by decide +kernel⟩

/-- A GENERATE of ten tokens; TOOL_RESULTs for call 9: empty, of four bytes of text, and of one token. -/
def generateMsg : Sprue := message 4 1 1 5 [(16, 4, 10)]
def toolEmpty : Sprue := message 5 1 1 5 [(28, 4, 9)]
def toolTextMsg : Sprue := message 5 1 1 5 [(24, 4, 4), (28, 4, 9)]
def toolTokenMsg : Sprue := message 5 1 1 5 [(24, 4, 4), (28, 4, 9), (32, 1, 1)]
/-- Session 5 waiting for host call 9. -/
def calling : State := hold { session5 with state := .waitingTool, call := some (.host 9) } bare

theorem witness_GenerateStartsRequest :
    (∀ st ∈ [SState.opened, .active], Acts generateMsg 4 (with5 st) (taken generateMsg (with5 st)) ∧ (taken generateMsg (with5 st)).state = st ∧
      (taken generateMsg (with5 st)).request = none) ∧
    generateFields generateMsg = true ∧
    mouldStart (actsIn generateMsg (with5 .opened)) (taken generateMsg (with5 .opened)) (msgAt generateMsg 20 2) = some none ∧
    generateStops generateMsg none = some [] ∧
    (∀ m ∈ [toolEmpty, toolTextMsg, toolTokenMsg], Acts m 5 calling (taken m calling) ∧ (taken m calling).state = .waitingTool ∧
      (taken m calling).call = some (.host (msgAt m 28 4)) ∧ msgAt m 24 4 ≤ 1048576) ∧
    (msgAt toolEmpty 24 4 = 0 ∧ overLimit (taken toolEmpty calling) (closeCost (actsIn toolEmpty calling) (taken toolEmpty calling)) = false) ∧
    (msgAt toolTextMsg 24 4 ≠ 0 ∧ (msgAt toolTextMsg 32 1).testBit 0 = false) ∧
    (msgAt toolTokenMsg 24 4 ≠ 0 ∧ (msgAt toolTokenMsg 32 1).testBit 0 = true ∧ msgAt toolTokenMsg 24 4 % 4 = 0 ∧
      tokensFit (actsIn toolTokenMsg calling) (taken toolTokenMsg calling) ((tokensOf (List.take (msgAt toolTokenMsg 24 4) [7, 0, 0, 0])).getD []) = true ∧
      overLimit (taken toolTokenMsg calling) (closeCost (actsIn toolTokenMsg calling) (taken toolTokenMsg calling) + msgAt toolTokenMsg 24 4 / 4) = false ∧
      overLimit (taken toolTokenMsg calling) (closeCost (actsIn toolTokenMsg calling) (taken toolTokenMsg calling) +
        ((tokensOf (List.take (msgAt toolTokenMsg 24 4) [7, 0, 0, 0])).getD []).length) = false) := by
  unfold Acts Accepts
  decide +kernel

/-- Session 5 in a state with an operation under way; and with a request. -/
def busy5 (st : SState) : State := hold { session5 with state := st, op := some (.demotion false) } bare
def asked5 (st : SState) : State := hold { session5 with state := st, request := some { seq := 1, win := .session 5, maxTokens := 10 } } bare

theorem witness_MessagesFollowTheState :
    (∀ st ∈ [SState.opened, .active, .waitingTool, .warm, .parked, .moving, .lost, .closed],
      Finds generateMsg 4 (with5 st) (taken generateMsg (with5 st)) ∧ (taken generateMsg (with5 st)).state = st ∧
      (taken generateMsg (with5 st)).op = none ∧ (taken generateMsg (with5 st)).request = none ∧
      generateFields generateMsg = true ∧ mouldStart (actsIn generateMsg (with5 st)) (taken generateMsg (with5 st)) (msgAt generateMsg 20 2) ≠ none ∧
      generateStops generateMsg none ≠ none) ∧
    (∀ st ∈ [SState.opened, .warm], Finds generateMsg 4 (busy5 st) (taken generateMsg (busy5 st)) ∧ (taken generateMsg (busy5 st)).op.isSome = true) ∧
    (∀ st ∈ [SState.opened, .active, .warm], Finds generateMsg 4 (asked5 st) (taken generateMsg (asked5 st)) ∧
      (taken generateMsg (asked5 st)).op = none ∧ (taken generateMsg (asked5 st)).request.isSome = true) ∧
    (Finds textMsg 2 (with5 .warm) (taken textMsg (with5 .warm)) ∧ (taken textMsg (with5 .warm)).state = .warm ∧
      FieldsGood (.appendText textMsg none) (actsIn textMsg (with5 .warm)) (taken textMsg (with5 .warm))) ∧
    (Finds frameMsg 3 (with5 .parked) (taken frameMsg (with5 .parked)) ∧ (taken frameMsg (with5 .parked)).state = .parked ∧
      FieldsGood (.appendFrame frameMsg (some [])) (actsIn frameMsg (with5 .parked)) (taken frameMsg (with5 .parked))) ∧
    (Finds toolEmpty 5 calling (taken toolEmpty calling) ∧ (taken toolEmpty calling).op = none ∧
      FieldsGood (.toolResult toolEmpty none) (actsIn toolEmpty calling) (taken toolEmpty calling)) := by
  have text : FieldsGood (.appendText textMsg none) (actsIn textMsg (with5 .warm)) (taken textMsg (with5 .warm)) :=
    ⟨[0x61, 0x62, 0x63, 0x64], by decide +kernel, by decide +kernel⟩
  have frame : FieldsGood (.appendFrame frameMsg (some [])) (actsIn frameMsg (with5 .parked)) (taken frameMsg (with5 .parked)) :=
    ⟨prog0, by decide +kernel, by decide +kernel, by decide +kernel, by decide +kernel, by decide⟩
  have tool : FieldsGood (.toolResult toolEmpty none) (actsIn toolEmpty calling) (taken toolEmpty calling) :=
    ⟨by decide +kernel, by decide +kernel, by decide +kernel, by decide +kernel⟩
  unfold Finds Accepts
  exact ⟨by decide +kernel, by decide +kernel, by decide +kernel, ⟨by decide +kernel, by decide +kernel, text⟩,
    ⟨by decide +kernel, by decide +kernel, frame⟩, by decide +kernel, by decide +kernel, tool⟩

/-- Session 5 ACTIVE in flask 0 with a pour of that flask in flight. -/
def flying5 : State :=
  { hold { session5 with state := .active, slot := some 0 } bare with
    sched := { flasks := [{ num := 0, priority := 2, model := 1, count := 1, roster := [5] }], next := 2
               pour := some { number := 1, flask := 0, model := 1, works := [] } } }

theorem witness_AbortMessagesAct :
    (∀ op ∈ [6, 7, 8, 9], ∀ st ∈ [SState.opened, .active, .waitingTool, .warm, .parked, .moving, .lost, .closed],
      Finds (message op 1 1 5 []) op (with5 st) (taken (message op 1 1 5 []) (with5 st)) ∧ (taken (message op 1 1 5 []) (with5 st)).state = st ∧
        (taken (message op 1 1 5 []) (with5 st)).op = none ∧ msgAt (message op 1 1 5 []) 16 1 ≤ 2) ∧
    (∀ op ∈ [6, 7, 8, 9], Finds (message op 1 1 5 []) op (busy5 .warm) (taken (message op 1 1 5 []) (busy5 .warm)) ∧
      (taken (message op 1 1 5 []) (busy5 .warm)).op.isSome = true) ∧
    (∀ op ∈ [6, 8, 9], Finds (message op 1 1 5 []) op flying5 (taken (message op 1 1 5 []) flying5) ∧
      (taken (message op 1 1 5 []) flying5).state = .active ∧
      inFlight (actsIn (message op 1 1 5 []) flying5) (taken (message op 1 1 5 []) flying5) = true) ∧
    (Finds (message 8 1 1 5 [(16, 1, 3)]) 8 (with5 .opened) (taken (message 8 1 1 5 [(16, 1, 3)]) (with5 .opened)) ∧
      2 < msgAt (message 8 1 1 5 [(16, 1, 3)]) 16 1) := by
  unfold Finds Accepts
  decide +kernel

/-- An index of tenant 1, one shard at hub A, of 256-bit codes (Table 10-1). -/
def index3 : IndexItem :=
  { index := 3, tenant := 1, partition := 0, width := 0, capacity := 1024, degree := 16, hub := 0, breadth := 64, buildBreadth := 64
    shardCount := 1, shardNumber := 0, repairPct := 5, copies := 1, visitLimit := 1000 }
def indexed : State := { bare with rcl := { shards := [{ item := index3 }] } }
def recallMsg (op : Nat) (payload : List (Nat × Nat × Nat)) : Sprue := message op 1 1 0 ((16, 4, 3) :: payload)

theorem witness_RecallMessagesBeginQueries :
    (Accepts (recallMsg 10 [(20, 2, 10)]) indexed ∧ msgOpcode (recallMsg 10 [(20, 2, 10)]) = 10 ∧ 1 ≤ msgAt (recallMsg 10 [(20, 2, 10)]) 20 2 ∧
      msgAt (recallMsg 10 [(20, 2, 10)]) 20 2 ≤ 256 ∧ msgAt (recallMsg 10 [(20, 2, 10)]) 22 1 ≤ 2 ∧
      indexOk (acceptMsg (recallMsg 10 [(20, 2, 10)]) indexed) 1 3 0 = true ∧ recallFull (acceptMsg (recallMsg 10 [(20, 2, 10)]) indexed) 0 = false) ∧
    (Accepts (recallMsg 11 []) indexed ∧ msgOpcode (recallMsg 11 []) = 11 ∧ msgAt (recallMsg 11 []) 20 1 ≤ 2 ∧
      indexOk (acceptMsg (recallMsg 11 []) indexed) 1 3 0 = true ∧ recallFull (acceptMsg (recallMsg 11 []) indexed) 0 = false) ∧
    (Accepts (recallMsg 12 []) indexed ∧ msgOpcode (recallMsg 12 []) = 12 ∧
      indexOk (acceptMsg (recallMsg 12 []) indexed) 1 3
        (((localShards (acceptMsg (recallMsg 12 []) indexed) 3).head?.map fun h => h.item.width).getD 0) = true ∧
      recallFull (acceptMsg (recallMsg 12 []) indexed) 0 = false) := by
  unfold Accepts
  decide +kernel

/-- A ring of 2^10 with records 0 to 2, none released; record 1 reported session 5 closed. -/
def ringed : State :=
  { hold { session5 with state := .closed } bare with
    fns := [{ id := 0, ring := some (0, 10), next := 3
              inRing := [{ pos := 0, lap := true, body := .header false false 3 0 0 0 0 0 0 },
                         { pos := 1, lap := true, body := .outcome { handle := 5, outcome := .done, reports := true } },
                         { pos := 2, lap := true, body := .outcome { handle := 6, outcome := .done } }] }] }
/-- A TAP_RELEASE of a position. -/
def releaseMsg (v : Nat) : Sprue := message 16 1 1 0 [(16, 8, v)]

theorem witness_TapReleaseReleases :
    (∀ v ∈ [0, 2, 3], Accepts (releaseMsg v) ringed ∧ msgOpcode (releaseMsg v) = 0x10 ∧ msgAt (releaseMsg v) 16 8 = v ∧
      (fnOf (acceptMsg (releaseMsg v) ringed) 0).released ≤ v ∧ v ≤ (fnOf (acceptMsg (releaseMsg v) ringed) 0).next) ∧
    (Accepts (releaseMsg 4) ringed ∧ msgOpcode (releaseMsg 4) = 0x10 ∧ (fnOf (acceptMsg (releaseMsg 4) ringed) 0).next < msgAt (releaseMsg 4) 16 8) ∧
    (findSess (acceptMsg (releaseMsg 2) ringed) 5).map Session.state = some .closed := by
  unfold Accepts
  decide +kernel

/-- BUDGETs adding and setting, a CLOCK_FORWARD, and a message of opcode 13. -/
def budgetMsg (mode : Nat) : Sprue := message 0x11 1 1 0 [(16, 8, 100), (24, 1, mode)]
def clockMsg : Sprue := message 0x12 0 1 0 [(16, 8, 100)]
def oddMsg : Sprue := message 13 1 1 0 []

theorem witness_PlainMessagesAct :
    (Accepts (releaseMsg 2) ringed ∧ msgOpcode (releaseMsg 2) = 0x10 ∧ (fnOf (acceptMsg (releaseMsg 2) ringed) 0).released ≤ 2 ∧
      2 ≤ (fnOf (acceptMsg (releaseMsg 2) ringed) 0).next) ∧
    (∀ mode ∈ [0, 1], Accepts (budgetMsg mode) bare ∧ msgOpcode (budgetMsg mode) = 0x11 ∧ findTen bare (msgTenant (budgetMsg mode)) = some tenant1 ∧
      msgAt (budgetMsg mode) 24 1 ≤ 1) ∧
    (Accepts clockMsg bare ∧ msgOpcode clockMsg = 0x12 ∧ msgTenant clockMsg = 0 ∧ bare.dev.clocked = false) ∧
    (serving bare = true ∧ msgCrcOk oddMsg = true ∧ msgMinor oddMsg ≤ 2 ∧ opListed (msgOpcode oddMsg) = false) := by
  unfold Accepts
  decide +kernel

/-- A message whose crc does not match, and one of minor version 3. -/
def tornMsg : Sprue := { fn := 0, slot := 0, w := openMsg.w + 1#512 }
def minorMsg : Sprue := { fn := 0, slot := 0, w := sealMessage 3 1 1 1 0 [] }

theorem witness_BadMessagesAreRefused :
    (∀ c ∈ [DState.stopping, .stopped], serving (inState c ready) = false ∧ ∀ p ∈ (fnOf (inState c ready) 0).slots, p.1 ≠ 0) ∧
    (serving State.reset = false ∧ State.reset.dev.code = .starting) ∧ (serving ready = true ∧ msgCrcOk tornMsg = false) ∧
    (serving ready = true ∧ msgCrcOk minorMsg = true ∧ 2 < msgMinor minorMsg) ∧
    (opPoliced (msgOpcode openMsg) = true ∧ findTen { ready with tens := [{ tenant1 with bucket := 999999 }] } (msgTenant openMsg) =
      some { tenant1 with bucket := 999999 }) ∧
    windowVerdict (windowOf { ready with fns := [{ id := 0, window := windowEnter {} 1 1 }] } (msgWin openMsg)) (msgSeq openMsg) =
      .duplicate { seq := 1, opcode := 1 } := by decide +kernel

theorem witness_RegisterWritesAct :
    ((2047 : Nat) < 2048 ∧ (2 ^ 32 : Nat).testBit 32 = true ∧ (2 ^ 32 - 1 : Nat).testBit 32 = false) ∧
    ((4 : Nat).testBit 0 = false ∧ (1 : Nat).testBit 0 = true ∧ exec (.mbCtrlClear 0 false false) ready = .next (stateAfter ready (exec (.mbCtrlClear 0 false false) ready)) ∧
      mbEarly State.reset = true ∧ (fnOf { ready with fns := [{ id := 0, mb := { busy := true } }] } 0).mb.busy = true ∧
      mbEarly ready = false ∧ (fnOf ready 0).mb.busy = false) ∧
    (0x8000 ≤ (0x8000 : Nat) ∧ (0x8000 : Nat) < 0x10000 ∧ (0x8000 : Nat) % 16 ≠ 8) ∧
    ((0 : Nat) ≠ 2 ∧ ((0x218 : Nat) ≠ 0x220 ∧ (0x218 : Nat) < 0x8000) ∧ ((0x10000 : Nat) ≠ 0x220 ∧ 0x10000 ≤ (0x10000 : Nat)) ∧ (4 : Nat) ≠ 2) :=
  ⟨by decide, ⟨by decide, by decide, rfl, by decide, by decide, by decide, by decide⟩, by decide, by decide⟩

theorem witness_TapTimersAct :
    ((fnOf ringed 0).ring = some (0, 10) ∧ 10 ≤ 10 ∧ fnUp ringed 0 = true) ∧
    (let s : State := { ready with fns := [{ id := 0, vectors := [{ vector := 3, count := 4, interval := 10 }], counts := [(3, 1)] }] }
     (vecCfg (fnOf s 0) 3).interval ≠ 0 ∧ 0 < countOf (fnOf s 0).counts 3 ∧ 3 ∉ (fnOf s 0).masked) ∧
    (let s : State := { ready with fns := [{ id := 0, vectors := [{ vector := 3, count := 4, interval := 10 }], counts := [(3, 1)], masked := [3] }] }
     (vecCfg (fnOf s 0) 3).interval ≠ 0 ∧ 0 < countOf (fnOf s 0).counts 3 ∧ 3 ∈ (fnOf s 0).masked) := by decide +kernel

end Sys2Proof.Tests
end

