-- ==== Sys2Proof/Tests/Pours.lean ====
section
/-! SUPPORT. Witnesses of the statements about pours, allowances, residency and the memory tiers: for each, states and operands that meet its
hypotheses, clause by clause. -/

namespace Sys2Proof.Tests
set_option Elab.async false

open Sys2Proof Sys2Proof.Machine

/-- A request of session 5 begun by its message 1. -/
def req5 : Request := { seq := 1, win := .session 5, maxTokens := 10 }
/-- Session 5 in slot 0 with a pending token: it generates (Table 4-4). -/
def generating : Session := { session5 with state := .active, slot := some 0, p := 4, w := 4, pendingTok := some 7, request := some req5 }
/-- A flask of one slot that lists session 5 (Table 4-1). -/
def flask0 : Flask := { num := 0, priority := 2, model := 1, count := 1, roster := [5] }
/-- What POUR_PLAN reads with every die at 40 °C and more fixed power than the envelope has: the allotment is 0, and the minimum chunk is planned. -/
def cool : PlanObs :=
  { temps := [some 40, some 40, some 40, some 40, some 40, some 40, some 40, some 40], window := [(2000000, 0)], fixedMw := 10 ^ 12, fetchBytes := 0
    t1Bytes := 0, elapsedUs := 5 }
def seen (s : State) : State := readTemps cool.temps (passTime cool.elapsedUs s)
/-- A state with flask 0 to be planned, one whose pour is suspended, and one whose pour a flask of higher priority may go before. -/
def toPlan : State :=
  { hold { session5 with slot := some 0, queue := [.text (List.replicate 20 7) false] } bare with
    sched := { flasks := [flask0] }
    dies := [{ num := 0 }]
    ledger := { calib := steps.map fun v => (0, v, 1000 * v, 1000, 80000) } }
def toResume : State := { bare with sched := { suspended := [{ number := 3, flask := 0, model := 1 }], next := 4 } }
def toPreempt : State :=
  { hold generating bare with
    models := [model1, { model1 with num := 2 }]
    sched := { flasks := [{ flask0 with priority := 0 }, { num := 1, priority := 3, model := 2 }]
               pour := some { number := 3, flask := 1, model := 2 }, next := 4 } }

/-- A pour to be planned again, one past step 4, and one with no flask that may go before it. -/
def toRerun : State := { toPlan with sched := { toPlan.sched with pour := some { number := 1, flask := 0, model := 1, rerun := true }, next := 2 } }
def goingOn (p : Pour) : State := { toPlan with sched := { toPlan.sched with pour := some p, next := 2 } }

theorem witness_PoursArePlanned :
    (mayPlan (seen toPlan) = true ∧ (seen toPlan).sched.pour = none ∧ (planFirst cool (candidates (seen toPlan)) (seen toPlan)).1 = true) ∧
    (∀ s ∈ [bare, toResume], mayPlan (seen s) = true ∧ (seen s).sched.pour = none ∧ (planFirst cool (candidates (seen s)) (seen s)).1 = false) ∧
    (((planFirst cool (candidates (seen bare)) (seen bare)).2.sched.pour = none) ∧
      (planFirst cool (candidates (seen bare)) (seen bare)).2.sched.suspended = []) ∧
    ((planFirst cool (candidates (seen toResume)) (seen toResume)).2.sched.pour = none ∧
      (planFirst cool (candidates (seen toResume)) (seen toResume)).2.sched.suspended = [{ number := 3, flask := 0, model := 1 }]) ∧
    (mayPlan (seen toRerun) = true ∧ (seen toRerun).sched.pour = some { number := 1, flask := 0, model := 1, rerun := true }) ∧
    (mayPlan (seen toPreempt) = true ∧ (seen toPreempt).sched.pour = some { number := 3, flask := 1, model := 2 } ∧
      (readyFlasks (seen toPreempt)).find? (fun f => mayPreempt (seen toPreempt) f { number := 3, flask := 1, model := 2 }) =
        some { flask0 with priority := 0 }) ∧
    (∀ p ∈ [({ number := 1, flask := 0, model := 1, step := 5 } : Pour), { number := 1, flask := 0, model := 1, preempt := some 1 },
        { number := 1, flask := 0, model := 1 }],
      mayPlan (seen (goingOn p)) = true ∧ (seen (goingOn p)).sched.pour = some p ∧ p.rerun = false ∧
        (4 < p.step ∨ p.preempt.isSome = true ∨ (readyFlasks (seen (goingOn p))).find? (fun f => mayPreempt (seen (goingOn p)) f p) = none)) ∧
    mayPlan (seen State.reset) = false := by
  refine ⟨?_, ?_, ?_, ?_, ?_, ?_, ?_, ?_⟩ <;> decide +kernel

/-- The work of session 5 in a pour, and a pour of flask 0 at a step and layer. -/
def work5 : Work := { slot := some 0, handle := 5, tenant := 1, cls := .generating, samples := true, reserved := true }
def pourAt (step layer : Nat) : Pour := { number := 1, flask := 0, model := 1, step := step, layer := layer, works := [work5] }
def flowing (step layer : Nat) : State := pouring (pourAt step layer) (hold generating bare)
/-- The same with a weight window of one block. -/
def windowed (layer : Nat) : State := { flowing 4 layer with models := [{ model1 with window := 1 }] }

/-- A pour of a model group of one package. -/
def groupedPour : State :=
  { pouring { pourAt 4 0 with group := some 2 } (hold generating bare) with rack := { bare.rack with groups := [{ num := 2, model := 1 }] } }

theorem witness_LayersAndMasksAdvance :
    ((flowing 4 0).sched.pour = some (pourAt 4 0) ∧ (pourAt 4 0).rerun = false ∧ (pourAt 4 0).waiting = false ∧ blockIn (flowing 4 0) (pourAt 4 0) = true ∧
      progOf (flowing 4 0) (pourAt 4 0).model = some prog0 ∧ (pourAt 4 0).group = none) ∧
    (groupedPour.sched.pour = some { pourAt 4 0 with group := some 2 } ∧ blockIn groupedPour { pourAt 4 0 with group := some 2 } = true ∧
      progOf groupedPour 1 = some prog0 ∧
      findGroup (forEach (([work5] : List Work).filter fun w => (isWorking w || shardWorks (passTime 5 groupedPour) w) && !w.barged)
        (workLayer prog0 0 { works := [], elapsedUs := 5 }) (passTime 5 groupedPour)) 2 = some { num := 2, model := 1 }) ∧
    (layerTotal (flowing 4 1) (pourAt 4 1) ≤ (pourAt 4 1).layer + 1 ∧ (pourAt 4 0).layer + 1 < layerTotal (flowing 4 0) (pourAt 4 0)) ∧
    ((pourAt 4 0).preempt = none ∧ ({ pourAt 4 0 with preempt := some 1 } : Pour).preempt.isSome = true) ∧
    (findModel (windowed 1) 1 = some { model1 with window := 1 } ∧ (windowed 1).sched.pour = some (pourAt 4 1) ∧ (pourAt 4 1).model = 1 ∧
      ({ model1 with window := 1 } : Model).window ≠ 0 ∧ (pourAt 4 1).step ≤ 4 ∧ (pourAt 4 1).layer ≤ 1 ∧
      1 < (pourAt 4 1).layer + ({ model1 with window := 1 } : Model).window ∧ 1 < layerTotal (windowed 1) (pourAt 4 1) ∧
      1 ∉ ({ model1 with window := 1 } : Model).arrived ∧ 1 ∉ ({ model1 with window := 1 } : Model).retried) ∧
    (let m := { model1 with again := [0], retried := [0] }
     findModel { flowing 4 1 with models := [m] } 1 = some m ∧ 0 ∈ m.again ∧ 0 ∈ m.retried) ∧
    (∀ k ∈ [4, 5], (flowing k 2).sched.pour = some (pourAt k 2) ∧ (pourAt k 2).masksDone = false ∧ (pourAt k 2).rerun = false ∧ (pourAt k 2).step ≤ 5) := by
  refine ⟨?_, ?_, ?_, ?_, ?_, ?_, ?_⟩ <;> decide +kernel

/-- A tokeniser of three tokens of one byte each, and the state whose session releases tokens. -/
def tok3 : Tokeniser :=
  { number := 0, kind := 1, byteFallback := false, addSpace := false, longest := 1, unknown := 0, space := 0, tokens := [[97], [98], [99]]
    special := [false, false, false], byteTokens := [], merges := [], scores := [], version := 1
    presplit := { classes := [], otherClass := 0, start := 0, accept := [], next := [] } }
def letters : State := { hold generating bare with dev := { bare.dev with tokenisers := [tok3] } }

theorem witness_ReleaseAndBarrierFollow :
    ((flowing 6 2).sched.pour = some (pourAt 6 2) ∧ (pourAt 6 2).step = 6 ∧ (pourAt 6 2).rerun = false ∧
      ∀ w ∈ (pourAt 6 2).works, draws w = true → (obsOf [{ handle := 5, draw := 0 }] w).isSome = true) ∧
    ((flowing 8 2).sched.pour = some (pourAt 8 2) ∧ (pourAt 8 2).step = 8) ∧
    ((flowing 9 2).sched.pour = some (pourAt 9 2) ∧ (pourAt 9 2).step = 9) ∧ (ready.sched.pour = none ∧ serving ready = true) ∧
    (∀ b ∈ [true, false], let w : Work := { slot := some 0, handle := 5, tenant := 1, cls := .idlePrefill, chunk := some { len := 16 }, barged := b }
     isWorking w = true ∧ w.fault = none ∧ w.samples = false ∧ findSess (hold session5 bare) w.handle = some session5) ∧
    (findSess letters work5.handle = some generating ∧ generating.request = some req5 ∧ sessProg letters generating = some prog0 ∧
      sessTok letters generating = some tok3 ∧ stopMatch req5.stops ((req5.out.map Prod.snd) ++ [outBytes tok3 prog0 2]) = none ∧
      2 ≠ prog0.toolClose ∧ 2 ≠ prog0.endToken0 ∧ 2 ≠ prog0.endToken1 ∧ req5.count + 1 ≠ req5.maxTokens ∧ generating.p + 1 ≠ maxPositions) := by
  refine ⟨?_, ?_, ?_, ?_, ?_, ?_⟩ <;> decide +kernel

/-- SC die 0 as shipped; with its spare used; with a position under test. -/
def die0 : ScDie := { num := 0 }
def spent0 : ScDie := { die0 with spare := none, logical := [some 8, some 1, some 2, some 3, some 4, some 5, some 6, some 7] }
def tested0 : ScDie := { die0 with spare := none, testing := some 0, logical := spent0.logical }
def diesOf (d : ScDie) : State := { ready with dies := [d, { num := 1 }, { num := 2 }, { num := 3 }] }
/-- A port with a gate list due at pour 1. -/
def gated : Port := { num := 0, state := .up, gateDue := some (1, [(255, 64)]) }

/-- A pour whose flask serves. -/
def servedPour : State := { flowing 4 0 with sched := { (flowing 4 0).sched with flasks := [flask0] } }

theorem witness_ClustersFailAndRotate :
    (∀ d ∈ [die0, spent0], 0 < scCount (diesOf d).part ∧ findDie (diesOf d) 0 = some d ∧ (d.logical[1]?) = some (some 1)) ∧
    (∀ k ∈ [4, 7], (flowing k 0).sched.pour = some (pourAt k 0) ∧ (pourAt k 0).step ≤ 7) ∧
    (dropUnserved servedPour).sched.pour = some (pourAt 4 0) ∧ 5 / 6 < scCount ready.part ∧
    (findDie ready 0 = some die0 ∧ die0.spare = some 8 ∧ die0.order.find? (fun k => die0.logical.contains (some k)) = some 0 ∧ ready.dev.code = .ready ∧
      ready.sched.suspended = [] ∧ atBoundary ready = true ∧ die0.stopped = false ∧ die0.testing = none ∧ 0 < scCount ready.part) ∧
    (findDie (diesOf tested0) 0 = some tested0 ∧ tested0.testing = some 0) ∧
    (let s : State := { ready with links := { ready.links with ports := [gated] }, sched := { next := 2 } }
     findPort s 0 = some gated ∧ gated.gateDue = some (1, [(255, 64)]) ∧ 1 < s.sched.next) := by
  refine ⟨?_, ?_, ?_, ?_, ?_, ?_, ?_⟩ <;> decide +kernel

/-- Session 5 with its first frame queued and its allowance at zero. -/
def framed : Session := { session5 with queue := [.frame 1 1 8 (some 0) false 0 false], allowKind := 1 }

theorem witness_AllowancesRunOut :
    (∀ k ∈ [1, 2], let x := { session5 with allowKind := k }
      findSess (hold x bare) 5 = some x ∧ x.op = none ∧ resident x = true ∧ (x.allowKind = 1 ∨ x.allowKind = 2)) ∧
    (let x := { session5 with state := .warm, allowKind := 3 }
     findSess (hold x bare) 5 = some x ∧ x.op = none ∧ x.state ≠ .moving ∧ x.allowKind = 3) ∧
    (∀ x ∈ [{ session5 with op := some (.demotion false) }, { session5 with state := .moving }],
      findSess (hold x bare) 5 = some x ∧ (x.op.isSome = true ∨ x.state = .moving)) ∧
    (let x := { session5 with state := .parked, allowKind := 4 }
     findSess (hold x bare) 5 = some x ∧ x.op = none ∧ x.state ≠ .moving ∧ x.allowKind = 4) ∧
    (∀ k ∈ [0, 1, 2], let x := { generating with request := some { req5 with dclass := k } }
      findSess (hold x bare) 5 = some x ∧ x.request = some { req5 with dclass := k } ∧ req5.win = .session 5 ∧ req5.paused = false ∧
        x.state ≠ .moving ∧ x.oneShot = false ∧ x.spent = false ∧ x.heldMsgs = [] ∧ (hold x bare).sched.pour = none ∧
        (hold x bare).sched.suspended = []) ∧
    (flowing 4 0).sched.pour.isSome = true ∧ findSess (hold framed bare) 5 = some framed ∧ framed.queue ≠ [] ∧ 0 < bare.dev.meters.length := by
  refine ⟨?_, ?_, ?_, ?_, ?_, ?_, ?_⟩ <;> decide +kernel

/-! ### Residency and the tiers -/

/-- A pool of 4 GiB of partition 0, and a placement of nothing: every pool is allowed. -/
def pool0 : Pool := { num := 0, extents := 4 }
/-- A molten page of row 0 and layer 0, the same casting, and cast with its copy in pool 0. -/
def molten : Page := { handle := 1, row := 0, layer := 0, fill := 4 }
def casting : Page := { molten with cond := .casting, fill := 16 }
def castPage : Page := { molten with cond := .cast, fill := 16, inT1 := false, first := true, pools := [0] }
/-- A frozen page, its copy in pool 0. -/
def frozen : Page := { molten with cond := .frozen, inT1 := false, first := true, pools := [0] }
/-- The package with pool 0 and a session. -/
def pooled (x : Session) : State := { hold x bare with tiers := { bare.tiers with pools := [pool0] } }
def poolless (x : Session) : State := hold x bare

/-- Of one roomy pool, that pool is taken, whatever is free. -/
theorem pickPool_one (s : State) (q : Nat) : pickPool s [q] = some q := by simp [pickPool]

/-- One copy of a page goes to the one roomy pool. -/
theorem pickPools_one (p : Placement) (bytes q : Nat) (s : State) (h : roomyPools s p bytes [] = [q]) : pickPools p bytes 1 [] s = some [q] := by
  simp [pickPools, h, pickPool_one]

/-- With no roomy pool there is none to take. -/
theorem pickPools_none (p : Placement) (bytes n : Nat) (s : State) (h : roomyPools s p bytes [] = []) : pickPools p bytes (n + 1) [] s = none := by
  simp [pickPools, h, pickPool]

/-- Session 5 demoting, reviving, and parking into object 2. -/
def demoting (pages : List Page) : Session := { session5 with op := some (.demotion false), pages := pages }
def reviving (remelt : Bool) : Session := { session5 with state := .warm, op := some (.revival remelt), pages := [frozen] }
def parking : Session := { session5 with op := some (.park false 2 none), pages := [castPage] }
/-- The package with no room at the hold-up bound: a board with 10 J and less of hold-up holds nothing up. -/
def boundless : State := { hold (reviving true) ready with dev := { ready.dev with image := some (image 5) } }

/-- Under 10 J nothing is held up. -/
theorem nothingHeldUp (s : State) (n : Nat) (im : Image) (h : s.dev.image = some im) (h5 : im.board.holdUpJ = 5) (hc : chillCount s = 2) :
    holdUpFits s n = false := by simp [holdUpFits, h, h5, hc]

/-- Session 5 WARM with a page of one copy, its remelt being copied. -/
def copied : Session := { session5 with pages := [castPage], copying := true }

theorem witness_ResidencyOperationsCommit :
    ((findSess (pooled (demoting [castPage])) 5 = some (demoting [castPage]) ∧ (demoting [castPage]).op = some (.demotion false) ∧
        sessProg (pooled (demoting [castPage])) (demoting [castPage]) = some prog0 ∧
        (∀ g ∈ (demoting [castPage]).pages, g.cond ≠ .casting ∧ (g.cond = .frozen → g.inT1 = false))) ∧
      demotionFits (pooled (demoting [castPage])) (demoting [castPage]) = true) ∧
    ((findSess (poolless (demoting [molten])) 5 = some (demoting [molten]) ∧ (demoting [molten]).op = some (.demotion false) ∧
        sessProg (poolless (demoting [molten])) (demoting [molten]) = some prog0 ∧
        (∀ g ∈ (demoting [molten]).pages, g.cond ≠ .casting ∧ (g.cond = .frozen → g.inT1 = false))) ∧
      demotionFits (poolless (demoting [molten])) (demoting [molten]) = false) ∧
    (∀ r ∈ [true, false], findSess (pooled (reviving r)) 5 = some (reviving r) ∧ (reviving r).op = some (.revival r) ∧ (pooled (reviving r)).ledger.waiting = [] ∧
      holdUpFits (pooled (reviving r)) (saveSize (pooled (reviving r)) + sectionBytes (pooled (reviving r)) { reviving r with state := .opened }) = true) ∧
    (findSess boundless 5 = some (reviving true) ∧ .revivalPhase1End 5 ∉ boundless.ledger.waiting ∧
      holdUpFits boundless (saveSize boundless + sectionBytes boundless { reviving true with state := .opened }) = false) ∧
    (findSess (pooled copied) 5 = some copied ∧ sessProg (pooled copied) copied = some prog0 ∧ copied.copying = true) ∧
    (findSess (pooled parking) 5 = some parking ∧ parking.op = some (.park false 2 none) ∧ (∀ g ∈ parking.pages, g.cond ≠ .casting) ∧
      ∀ a : Ask, (none : Option Ask) = some a → a.win = .session 5) := by
  refine ⟨⟨by decide +kernel, ?_⟩, ⟨by decide +kernel, ?_⟩, by decide +kernel, ⟨by decide +kernel, by decide, ?_⟩, by decide +kernel,
    by decide +kernel, rfl, by decide, by simp⟩
  · decide +kernel
  · decide +kernel
  · exact nothingHeldUp boundless _ (image 5) rfl rfl (by decide)

/-- Session 5 with one page; a fetch of its page with the copies left, the frame and the hold given; a write that waits. -/
def paged (g : Page) : Session := { session5 with pages := [g] }
def fetch5 (left : List Nat) (frame : Nat) (held : Bool) : Fetch :=
  { handle := 5, row := 0, layer := 0, tier := 0, left := left, page := 1, frame := frame, held := held }
def fetching (f : Fetch) : State := { pooled (paged castPage) with tiers := { (pooled (paged castPage)).tiers with fetches := [f] } }
def stalled1 (kind : Nat) : State :=
  { pooled (paged casting) with
    tiers := { (pooled (paged casting)).tiers with stalls := [{ partition := 0, handle := 5, kind := kind, row := 0, layer := 0 }] } }
/-- A session of durability 2 whose row 0 is queued for the store. -/
def durable : Session := { paged castPage with durability := 2 }
def rowsRun : Obj := { num := 2, ns := 0, handle := 5, tenant := 1, ingot := false, queued := 1 }
def trickling : State := { pooled durable with store := { (pooled durable).store with objs := [rowsRun] } }

theorem witness_CopiesAndFetchesComplete :
    (findSess (pooled (paged casting)) 5 = some (paged casting) ∧ sessProg (pooled (paged casting)) (paged casting) = some prog0 ∧
      findPage (paged casting) 0 0 = some casting ∧ casting.cond = .casting ∧
      pickPools (sessPlace (pooled (paged casting)) (paged casting)) (pageBytes prog0 casting) (castCopies (paged casting).durability) []
        (pooled (paged casting)) = some [0]) ∧
    pickPools (sessPlace (poolless (paged casting)) (paged casting)) (pageBytes prog0 casting) (castCopies (paged casting).durability) []
      (poolless (paged casting)) = none ∧
    (∀ k ∈ [1, 2], (stalled1 k).tiers.stalls.filter (fun w => w.partition == 0) = [{ partition := 0, handle := 5, kind := k, row := 0, layer := 0 }]) ∧
    (findSess trickling 5 = some durable ∧ durable.durability = 2 ∧ (∃ g ∈ durable.pages, g.row = 0) ∧
      (∀ g ∈ durable.pages, g.row = 0 → g.cond = .cast) ∧ (∀ g ∈ durable.pages, g.row < 0 → g.inStore = true) ∧
      (trickleRow 5 trickling).store.objs.find? (fun k => k.handle == 5 && !k.ingot && !k.deleted) = some rowsRun ∧ 0 < rowsRun.queued) ∧
    (∀ f ∈ [fetch5 [] 3 false, fetch5 [] noFrame false], findSess (fetching f) 5 = some (paged castPage) ∧ findPage (paged castPage) 0 0 = some castPage ∧
      findFetch (fetching f) 5 0 0 = some f ∧ f.held = false ∧ castPage.cond = .cast ∧ castPage.inT1 = false ∧ resident (paged castPage) = true ∧
      castPage.handle = f.page) ∧
    (findFetch (fetching (fetch5 [] 3 true)) 5 0 0 = some (fetch5 [] 3 true)) ∧
    ((∀ f, findFetch (flowing 4 0) 5 0 0 = some f → f.held = false) ∧ (flowing 4 0).sched.pour = some (pourAt 4 0) ∧ (pourAt 4 0).step ≤ 7 ∧
      ∃ w ∈ (pourAt 4 0).works, w.handle = 5) ∧
    (∀ l ∈ [[], [1]], findFetch (fetching (fetch5 l 3 false)) 5 0 0 = some (fetch5 l 3 false) ∧
      ∀ q ∈ (fetching (fetch5 l 3 false)).tiers.pools, q.num = (fetch5 l 3 false).tier → q.missed < 15) ∧
    (let s := pooled (reviving true)
     findSess s 5 = some (reviving true) ∧ (reviving true).op = some (.revival true) ∧ s.sched.pour = none) ∧
    (let s := pouring (pourAt 4 0) (pooled (reviving true))
     findSess s 5 = some (reviving true) ∧ (reviving true).op = some (.revival true) ∧ s.sched.pour.isSome = true) := by
  refine ⟨⟨by decide +kernel, by decide +kernel, by decide, rfl, pickPools_one _ _ _ _ (by decide +kernel)⟩, pickPools_none _ _ 0 _ (by decide +kernel),
    ?_, ?_, ?_, ?_, ⟨by simp [findFetch, flowing, pouring, hold, bare, ready], ?_⟩, ?_, ?_, ?_⟩ <;> decide +kernel

/-- A pool that has failed; a host region being removed; a page the partition spills next, and the region with room. -/
def failedPool : State := { bare with tiers := { bare.tiers with pools := [{ pool0 with failed := true }] } }
def inHost : Page := { castPage with inH := true, pools := [] }
def leaving : State :=
  { pooled (paged inHost) with
    tiers := { (pooled session5).tiers with hRegions := [{ partition := 0, link := 0, length := 2 ^ 30, removing := some 0 }] } }
def crowded : Session := { session5 with state := .warm, pages := [castPage] }
def regionH : HRegion := { partition := 0, link := 0, length := 2 ^ 30 }
def spilling : State :=
  { hold crowded bare with
    models := [{ model1 with pools := [[(0, 2 ^ 40)]], bytes := 2 ^ 40 }]
    tiers := { bare.tiers with pools := [pool0], hRegions := [regionH]
                               placements := [{ kind := 2, partition := 0, owner := 1, spillH := true }] } }
def erring : State := { ready with tiers := { ready.tiers with recent := [(0, 0, 5), (0, 0, 6)] } }

theorem witness_PoolsAndLinesAreLost :
    ((∃ q ∈ (pooled session5).tiers.pools, q.num = 0 ∧ q.failed = false) ∧ ∀ q ∈ failedPool.tiers.pools, q.num = 0 → q.failed = true) ∧
    (0 / 6 < scCount ready.part ∧ (∀ d c, LineHeld.weights 1 0 ≠ .t0 d c) ∧ ∀ d c, LineHeld.oneCopy ≠ .t0 d c) ∧
    (hrGoverning ready.nor = some {} ∧ findSess (hold session5 ready) 5 = some session5) ∧
    (0 = (ready.tiers.recent.filter fun p => p.1 == 0 && p.2.1 == 0 && decide (3605 ≤ p.2.2 + 3600)).length ∧
      2 = (erring.tiers.recent.filter fun p => p.1 == 0 && p.2.1 == 0 && decide (3605 ≤ p.2.2 + 3600)).length) ∧
    scCount ready.part ≤ 24 / 6 ∧ (3 < scCount ready.part ∧ ready.tiers.patrol[3]? = some 0) ∧
    (findSess leaving 5 = some (paged inHost) ∧ sessProg leaving (paged inHost) = some prog0 ∧ findPage (paged inHost) 0 0 = some inHost ∧
       (∀ n, isLeaving leaving n = false) ∧ inHost.inH = true ∧
       leaving.tiers.hRegions.any (fun r => r.partition == sessPart leaving (paged inHost) && r.link == inHost.hLink && r.removing.isSome) = true ∧
       pickPool leaving (roomyPools leaving (sessPlace leaving (paged inHost)) (pageBytes prog0 inHost) inHost.pools) = some 0) ∧
    (findSess spilling 5 = some crowded ∧ sessProg spilling crowded = some prog0 ∧ findPage crowded 0 0 = some castPage ∧
      (∀ n, isLeaving spilling n = false) ∧ spillsNext spilling crowded castPage = true ∧ spills spilling (sessPart spilling crowded) = true ∧
      (if castPage.cond = .frozen then frozenCopies crowded.durability else castCopies crowded.durability) ≤ castPage.pools.length ∧
      roomyH spilling (sessPart spilling crowded) (pageBytes prog0 castPage) = some regionH) := by
  refine ⟨by decide, ⟨by decide, by simp, by simp⟩, by decide +kernel, by decide +kernel, by decide, by decide,
    ⟨by decide +kernel, by decide +kernel, by decide +kernel, by simp [isLeaving, leaving, pooled, pool0], rfl, by decide +kernel, ?_⟩,
    by decide +kernel, by decide +kernel, by decide +kernel, by simp [isLeaving, spilling, pool0], ?_⟩
  · rw [show roomyPools leaving (sessPlace leaving (paged inHost)) (pageBytes prog0 inHost) inHost.pools = [0] by decide +kernel]
    exact pickPool_one _ _
  · decide +kernel

end Sys2Proof.Tests
end

