-- ==== Sys2Proof/Tests/Racks.lean ====
section
/-! SUPPORT. Witnesses of the statements about the fabric, the rack, migrations, checkpoints and tenants: for each, states and operands that meet
its hypotheses, clause by clause. -/

namespace Sys2Proof.Tests
set_option Elab.async false

open Sys2Proof Sys2Proof.Machine

/-! ### The fabric -/

/-- A header of package 8 for lines 0 to 3 of window 5 (Table 13-7); window 5 of four lines open to all (Table 13-8). -/
def hdr5 : FabricHdr := { kind := 1, cls := 0, count := 4, dest := 3, source := 8, window := 5, offset := 0, tag := 6, epoch := 1, reason := 0 }
def win5 : Win := { num := 5, kind := 3, reads := true, writes := true, length := 4 }
/-- Package 3 with that window, a flow back to package 8 on port 2, and a manager's read of tag 6 outstanding. -/
def fabric : State :=
  { racked 1 ready with
    links := { ready.links with windows := [win5], flows := [(0, 8, 0, 2)], ports := [{ num := 2, state := .up }]
                                reads := [{ tag := 6, cls := 1, dest := 8, window := 1, offset := 0, count := 1, port := 2, issuer := .manager }] } }
/-- The same under a map of epoch 1, with epoch 2 published. -/
def mapped : State := { fabric with rack := { fabric.rack with epochs := [{ num := 1 }], published := some { num := 2 } } }

theorem witness_FabricTrafficIsChecked :
    epochSays mapped 2 = .future ∧ epochSays mapped 3 = .other ∧
    (epochSays fabric 1 = .live ∧ winAllows fabric { hdr5 with offset := 1 } true = none ∧ winAllows fabric { hdr5 with offset := 1 } false = none) ∧
    (∀ s ∈ [fabric, mapped], epochSays s 1 = .live ∧ winAllows s hdr5 true = some win5 ∧ winAllows s hdr5 false = some win5) ∧ win5.kind ≠ 1 ∧
    win5.kind ≠ 4 ∧
    fabric.links.flows.find? (fun (f : Nat × Nat × Nat × Nat) => f.1 == 0 && f.2.1 == hdr5.source && f.2.2.1 == hdr5.cls) = some (0, 8, 0, 2) ∧
    (epochSays fabric 1 ≠ .future ∧ findPort fabric 2 = some { num := 2, state := .up } ∧ hdr5.cls < 8) ∧
    (∀ r ∈ ready.links.reads, r.tag ≠ hdr5.tag) ∧
    (fabric.links.reads.find? (fun (r : FRead) => r.tag == hdr5.tag) =
      some { tag := 6, cls := 1, dest := 8, window := 1, offset := 0, count := 1, port := 2, issuer := .manager } ∧ hdr5.kind ≠ 4 ∧ ({ hdr5 with kind := 4 } : FabricHdr).kind = 4) ∧
    (({ hdr5 with reason := 1 } : FabricHdr).reason = 1 ∧ (∀ r ∈ fabric.links.reads, r.dest ≠ hdr5.dest) ∧ hdr5.reason = 0) := by decide +kernel

/-! ### The rack -/

theorem witness_ManagerEntriesAreTakenOnce :
    (epochHdr (.lookup (entry 8 5)) = some (entry 8 5) ∧ anyHdr (.lookupAnswer (entry 8 5) none) = some (entry 8 5)) ∧ onRack ready = false ∧
    (onRack (racked 1 ready) = true ∧ ({ entry 8 5 with crcOk := false } : MgrHdr).crcOk = false ∧ (entry 8 5).crcOk = true) ∧
    (let s : State := { racked 1 ready with rack := { (racked 1 ready).rack with seen := [(8, 4)] } }
     onRack s = true ∧ ((entry 8 5).source, (entry 8 5).seq) ∈ s.rack.seen ∧ mgrEpoch s (entry 8 5).epoch = .live) ∧
    (onRack mapped = true ∧ mgrEpoch mapped 2 = .future ∧ mgrEpoch mapped 3 = .other) := by decide +kernel

/-- A manager that knows the package of serial 77 as number 6, and one with every other number used but 9. -/
def knowing : State := { racked 2 ready with rack := { (racked 2 ready).rack with members := [{ serial := 77, num := 6 }] } }
/-- A manager of 63 live workers. -/
def fullRack : State :=
  { racked 2 ready with rack := { (racked 2 ready).rack with members := (List.range 63).map fun n => { serial := 100 + n, num := 10 + n } } }
/-- A worker whose message 4 to package 8 is not acknowledged, sent once and sent eight times. -/
def unanswered (sends : Nat) : State :=
  { racked 1 ready with rack := { (racked 1 ready).rack with unacked := [{ peer := 8, seq := 4, kind := 5, epoch := 0, sends := sends }] } }

/-- A list with an element has one at every index taken modulo its length. -/
theorem some_of_mod (l : List Nat) (k : Nat) (h : 0 < l.length) : ∃ n, l[k % max 1 l.length]? = some n := by
  have h1 : k % max 1 l.length < l.length := lt_of_lt_of_eq (Nat.mod_lt _ (by omega)) (by omega)
  exact ⟨_, List.getElem?_eq_getElem h1⟩

/-- Whatever number is drawn, a manager with numbers left has one to give. -/
theorem freshNumber_some (s : State) (h : 0 < ((List.range 4096).filter fun n => !(numbersUsed s).contains n).length) : ∃ n, freshNumber s = some n :=
  some_of_mod _ _ h

theorem witness_ManagersKeepTheMap :
    (onRack (racked 1 ready) = true ∧ isManager (racked 1 ready) = false) ∧
    (onRack knowing = true ∧ (entry 8 5).crcOk = true ∧ isManager knowing = true ∧ numberOf knowing 77 = some 6 ∧ numberOf knowing 78 = none ∧
      (∃ n, freshNumber knowing = some n) ∧ (knowing.rack.members.filter fun m => m.num != knowing.rack.num && !m.failed).length < 63) ∧
    (onRack fullRack = true ∧ isManager fullRack = true ∧ numberOf fullRack 78 = none ∧
      63 ≤ (fullRack.rack.members.filter fun m => m.num != fullRack.rack.num && !m.failed).length) ∧
    (FreshEntry (entry 8 5) (racked 1 ready) ∧ (racked 1 ready).rack.role = 1 ∧ (0xFFFE : Nat) ≠ 0xFFFF) ∧
    (FreshEntry (entry 8 5) (pouring { number := 1, flask := 0 } mapped) ∧ (pouring { number := 1, flask := 0 } mapped).sched.pour.isSome = true ∧
      newestEpoch (pouring { number := 1, flask := 0 } mapped) < 2 ∧ 1 ≤ newestEpoch (pouring { number := 1, flask := 0 } mapped)) ∧
    (FreshEntry (entry 8 5) (racked 3 ready) ∧ topManager (racked 3 ready) = (racked 3 ready).rack.num) ∧
    (∀ n ∈ [7, 8], (unanswered n).rack.unacked.find? (fun (m : MgrMsg) => m.peer == (entry 8 5).source && m.seq == 4) =
      some { peer := 8, seq := 4, kind := 5, epoch := 0, sends := n }) ∧ 8 ∉ (unanswered 7).links.unreachable ∧
    onRack (unanswered 7) = true ∧ ∀ m ∈ (racked 1 ready).rack.unacked, ¬(m.peer = 8 ∧ m.seq = 4) := by
  unfold FreshEntry
  refine ⟨by decide, ⟨by decide, rfl, by decide, by decide, by decide, ?_, by decide⟩, by decide +kernel, by decide, by decide, by decide, by decide, by decide, by decide,
    by decide⟩
  refine freshNumber_some _ (List.length_pos_of_mem (a := 9) (List.mem_filter.mpr ⟨List.mem_range.mpr (by omega), by decide⟩))

/-- A manager whose directory lists session 5 with package 8; a worker with a message for session 5 waiting for its holder. -/
def listing (holder : Nat) : State :=
  { racked 2 ready with rack := { (racked 2 ready).rack with directory := [{ handle := 5, holder := holder, state := 1, epoch := 1 }] } }
def cancel5 : Sprue := message 6 1 1 5 []
def asking : State := { racked 1 ready with rack := { (racked 1 ready).rack with lookups := [(5, .cancel cancel5)] } }
/-- A shard of index 3, and a query of it that waits for two. -/
def item30 : IndexItem :=
  { index := 3, tenant := 1, partition := 0, width := 0, capacity := 1024, degree := 16, hub := 0, breadth := 64, buildBreadth := 64
    shardCount := 2, shardNumber := 0, repairPct := 5, copies := 1, visitLimit := 1000 }
def split (damaged : Bool) : State :=
  { racked 2 ready with
    rcl := { shards := [{ item := item30, damaged := damaged }], nextQ := 2
             queries := [{ num := 1, asker := .peer 8 3, op := 0x0A, index := 3, k := 10, left := [0, 1] }] } }
/-- Group 4 of this package and package 8. -/
def group4 : MGroup := { num := 4, model := 1, parts := [{ package := 3, die := 0, firstHead := 0, heads := 1 }, { package := 8, die := 0, firstHead := 1, heads := 1 }] }
def grouped : State := { racked 2 ready with rack := { (racked 2 ready).rack with groups := [group4] } }

theorem witness_RackWorkActs :
    (FreshEntry (entry 8 5) (listing 8) ∧ mgrEpoch (listing 8) (entry 8 5).epoch = .live) ∧
    (FreshEntry (entry 8 5) asking ∧ asking.rack.lookups.filter (fun (p : Nat × Instr) => p.1 == (entry 8 5).handle) = [(5, .cancel cancel5)] ∧
      sprueOf (.cancel cancel5) = some cancel5) ∧
    (FreshEntry (entry 8 5) (split true) ∧ mgrEpoch (split true) 1 = .live) ∧
    (let s := hold { session5 with restored := true } (racked 1 ready)
     (8 : Nat) ≠ s.rack.num ∧ findSess s 5 = some { session5 with restored := true }) ∧
    (isManager (racked 1 ready) = false ∧ isManager (listing 8) = true ∧ movesTo (listing 8) 5 8 = false ∧
      (∀ e ∈ (listing 8).rack.directory, e.handle = 5 → e.holder = 8)) ∧
    ((listing 7).rack.directory.find? (fun (e : DirEntry) => e.handle == 5 && e.holder != 8 && !packageFailed (listing 7) e.holder) =
      some { handle := 5, holder := 7, state := 1, epoch := 1 } ∧ movesTo (listing 7) 5 8 = false) ∧
    (FreshEntry (entry 8 5) (racked 2 ready) ∧ isManager (racked 2 ready) = true ∧ topManager (racked 2 ready) ≠ (racked 2 ready).rack.num ∧
      topManager (racked 3 ready) = (racked 3 ready).rack.num ∧ isManager (racked 3 ready) = true) ∧
    (FreshEntry (entry 8 5) (split false) ∧ mgrEpoch (split false) 1 = .live ∧ findShard (split false) 3 1 = none ∧
      (∃ sh, findShard (split true) 3 0 = some sh ∧ sh.damaged = true) ∧ ∃ sh, findShard (split false) 3 0 = some sh ∧ sh.damaged = false) ∧
    (findQuery (split false) 9 = none ∧ (∃ q, findQuery (split false) 1 = some q ∧ 2 ∉ q.left) ∧
      ∃ q, findQuery (split false) 1 = some q ∧ q.op = 0x0A ∧ 0 ∈ q.left ∧ ∃ n ∈ q.left, n ≠ 0) ∧
    (FreshEntry (entry 8 5) grouped ∧ mgrEpoch grouped 1 = .live ∧ findGroup grouped 4 = some group4 ∧ group4.torn = false) := by
  unfold FreshEntry
  refine ⟨by decide, ⟨by decide, by decide +kernel, rfl⟩, by decide, by decide +kernel, by decide, by decide, by decide, ⟨by decide, by decide, by decide,
    ⟨_, rfl, rfl⟩, _, rfl, rfl⟩, ⟨by decide, ⟨_, rfl, by decide⟩, _, rfl, rfl, by decide, 1, by decide, by decide⟩, by decide⟩

/-- A migration of session 5 from package 3 to package 8 at a step; and one that comes to package 3. -/
def leaving5 (step : Nat) : Migration := { handle := 5, origin := 3, destination := 8, atOrigin := true, step := step }
def coming5 : Migration := { handle := 5, origin := 8, destination := 3, atOrigin := false, step := 2 }
def moving (x : Session) (m : Migration) : State := { hold x (racked 1 bare) with rack := { (racked 1 bare).rack with migrations := [m] }
                                                                                  dev := ready.dev }

theorem witness_MigrationsGoByTheirSteps :
    (FreshEntry (entry 8 5) (racked 1 ready) ∧ mgrEpoch (racked 1 ready) 1 = .live ∧ findMigration (racked 1 ready) 5 = none ∧ (8 : Nat) ≠ 3 ∧
      3 = (racked 1 ready).rack.num ∧ entriesUsed (racked 1 ready) < directoryLimit (racked 1 ready).part ∧
      (freeWindow (racked 1 ready)).isSome = true ∧ findSess (racked 1 ready) 5 = none) ∧
    (∀ x ∈ [session5, { session5 with state := .closed }], let s := hold x (racked 1 ready)
      FreshEntry (entry 8 5) s ∧ mgrEpoch s 1 = .live ∧ findMigration s 5 = none ∧ (findSess s 5).isSome = true ∧
        (expire 5 (entryTaken (entry 8 5) s)).rack.num = s.rack.num ∧ findMigration (expire 5 (entryTaken (entry 8 5) s)) 5 = none ∧
        movable (expire 5 (entryTaken (entry 8 5) s)) 5 = (x.state != .closed)) ∧
    (let s : State := { racked 1 ready with links := { ready.links with windows := (List.range 256).map fun n => { num := n, kind := 1 } } }
     FreshEntry (entry 8 5) s ∧ mgrEpoch s 1 = .live ∧ findMigration s 5 = none ∧ (8 : Nat) ≠ 3 ∧ 3 = s.rack.num ∧ freeWindow s = none) ∧
    (∀ k ∈ [1, 2, 4], FreshEntry (entry 8 5) (moving session5 (leaving5 k)) ∧ mgrEpoch (moving session5 (leaving5 k)) 1 = .live ∧
      findMigration (moving session5 (leaving5 k)) 5 = some (leaving5 k)) ∧
    (findSess (moving session5 (leaving5 3)) 5 = some session5 ∧ findMigration (moving session5 (leaving5 3)) 5 = some (leaving5 3) ∧
      (leaving5 3).atOrigin = true ∧ (leaving5 3).step = 3 ∧ session5.op = none ∧ inFlight (moving session5 (leaving5 3)) session5 = false ∧
      session5.allowKind = 0) ∧
    (let s : State := { moving session5 coming5 with sess := [] }
     FreshEntry (entry 8 5) s ∧ mgrEpoch s 1 = .live ∧ findMigration s 5 = some coming5 ∧ coming5.atOrigin = false ∧ coming5.step = 2 ∧
       (findTen s 1).isSome = true ∧ modelOk s 1 1 = true ∧ modelOk s 1 2 = false ∧ (findTen s 2).isNone = true) ∧
    (let x := { session5 with state := .moving, before := some .opened }
     FreshEntry (entry 8 5) (moving x (leaving5 5)) ∧ mgrEpoch (moving x (leaving5 5)) 1 = .live ∧
       findMigration (moving x (leaving5 5)) 5 = some (leaving5 5) ∧ findSess (moving x (leaving5 5)) 5 = some x ∧ (leaving5 5).atOrigin = true ∧
       x.state = .moving ∧ x.heldMsgs = [] ∧ (moving x (leaving5 5)).rack.forwards.length < 65536) := by
  unfold FreshEntry
  refine ⟨?_, ?_, ?_, ?_, ?_, ?_, ?_⟩ <;> decide +kernel

/-! ### Checkpoints and tenants -/

/-- A live checkpoint and a stop's, uncut and cut with both modules. -/
def live2 (cut : Bool) : Ckpt := { number := 2, slot := 0, stop := false, askers := [.device], cut := cut, modules := 2 }
def stop2 (cut : Bool) : Ckpt := { live2 cut with stop := true }
def saving (c : Ckpt) : State := { ready with chk := { ready.chk with now := some c } }
def stopping (c : Ckpt) : State := { saving c with dev := { ready.dev with code := .stopping, stop := some {} } }

theorem witness_CheckpointsAreCutAndCommitted :
    ((saving (live2 false)).chk.now = some (live2 false) ∧ (live2 false).cut = false ∧ unprotected (saving (live2 false)) = false ∧ (live2 false).stop = false ∧
      serving (saving (live2 false)) = true ∧ (saving (live2 false)).sched.pour = none) ∧
    (let s := pouring { number := 1, flask := 0, step := 4 } (stopping (stop2 false))
     s.chk.now = some (stop2 false) ∧ (stop2 false).cut = false ∧ unprotected s = false ∧ (stop2 false).stop = true ∧ s.dev.stop = some {} ∧
       ({} : Stop).parks = false ∧ s.sched.pour = some { number := 1, flask := 0, step := 4 }) ∧
    ((saving (live2 true)).chk.now = some (live2 true) ∧ (live2 true).cut = true ∧ chillCount (saving (live2 true)) = (live2 true).modules) ∧
    ((stopping (stop2 true)).chk.now = some (stop2 true) ∧ chillCount (stopping (stop2 true)) = (stop2 true).modules ∧
      (stopping (stop2 true)).dev.stop = some {} ∧ ({} : Stop).orderly = false ∧ ({} : Stop).thenReset = false) ∧
    chillCount { saving (live2 true) with dev := { ready.dev with chill := [true, false] } } ≠ (live2 true).modules ∧ ready.chk.now = none ∧
    ready.dev.code ≠ .orphan ∧
    (let s := { ready with dev := { ready.dev with code := .orphan, linkUp := [false, false] } }
     s.dev.code = .orphan ∧ flagAt s.dev.linkUp 1 = false ∧ serving s = true) ∧
    (flagAt ready.dev.linkUp 1 = true ∧ serving State.reset = false) ∧
    (findSess (hold { session5 with state := .parked } ready) 5 = some { session5 with state := .parked } ∧
      resident { session5 with state := .parked } = false) := by decide +kernel

def retiringTenant (step : Nat) : Tenant := { tenant1 with retiring := true, removal := step }
def removing (step : Nat) : State := { ready with tens := [retiringTenant step] }
def binding : State := { ready with models := [{ model1 with state := 1 }] }

theorem witness_TenantsAreRemovedInOrder :
    (∀ k ∈ [1, 2, 4], findTen (removing k) 1 = some (retiringTenant k) ∧ (retiringTenant k).retiring = true ∧ (retiringTenant k).removal = k) ∧
    (findTen ready 1 = some tenant1 ∧ tenant1.retiring = false) ∧ hrGoverning ready.nor = some {} ∧ physFns ready.part ≠ [] ∧
    (findModel binding 1 = some { model1 with state := 1 } ∧ ({ model1 with state := 1 } : Model).state = 1 ∧ model1.state ≠ 1 ∧
      model1.program.any (fun p => p.digest == [1#8]) = true) ∧
    (hubCount ready.part ≤ 2 ∧ 1 < hubCount ready.part ∧ ready.dev.hubs[1]? = some ({} : Hub)) := by decide +kernel

end Sys2Proof.Tests
end

