-- ==== Sys2Proof/Tests/Requests.lean ====
section
/-! SUPPORT. Witnesses of the statements about mailbox requests, links, resets and starts: for each, states and operands that meet its
hypotheses, clause by clause. -/

namespace Sys2Proof.Tests
set_option Elab.async false

open Sys2Proof Sys2Proof.Machine

/-- READY with the security state of the shipped part, hub B following. -/
def lone : State := alone ready

theorem witness_ReportRequestsAnswer :
    (Ready (request 0) 0x01 ready ∧ (request 0).length = 0) ∧ (Ready (request 8) 0x40 ready ∧ 1 ≤ 1 ∧ 10 ≤ 10) ∧ Ready (request 8) 0x41 ready ∧
    (Ready (request 72) 0x20 ready ∧ (request 72).length = 72) := by
  unfold Ready; decide +kernel

theorem witness_AccountReadClears :
    Ready (request 16) 0x30 ready ∧ (request 16).length = 16 ∧
    sortBy Tenant.id (ready.tens.filter fun x => mayRead 0 x && ((0xFFFF : Nat) == 0xFFFF || x.id == 0xFFFF)) = [tenant1] ∧
    ([tenant1].drop 0).take 15 = [tenant1] ∧
    sortBy Tenant.id (ready.tens.filter fun x => mayRead 0 x && ((1 : Nat) == 0xFFFF || x.id == 1)) ≠ [] := by
  unfold Ready; decide +kernel

/-- A policing item of tenant 1 (Table 3-17). -/
def item1 : Item := { tenant := 1, hostTag := 9, bytes := 24, body := .policing 1000 64 }
/-- The open set of partition 0 with that item, and an accepted commit of it. -/
def openSet : OpenSet := { partition := 0, number := 1, items := [item1] }
def commit1 : Commit := { number := 1, partition := 0, fn := 0, pour := 5, items := [item1] }
def staged (s : State) : State := { s with stg := { s.stg with sets := [openSet], nextSet := 2 } }
def accepted (s : State) : State := { s with stg := { s.stg with commits := [commit1], nextCommit := 2 } }

theorem witness_StageAndCheckSets :
    (∀ s ∈ [ready, staged ready, lone], Ready (request 100) 0x10 s ∧
      ((((findSet s 0).map OpenSet.items).getD []) ++ [item1]).length ≤ 65536 ∧
      (((((findSet s 0).map OpenSet.items).getD []) ++ [item1]).map Item.bytes).sum ≤ 16777216) ∧
    (request 100).partition < 4 ∧ [item1] ≠ [] ∧ [item1].any isInconsistent = false ∧ hasFollower ready = true ∧ hasFollower lone = false ∧
    (Ready (request 4) 0x11 (staged ready) ∧ (request 4).length = 4 ∧ findSet (staged ready) 0 = some openSet) := by
  unfold Ready; decide +kernel

theorem witness_CommitAndDiscardSets :
    (∀ s ∈ [staged ready, staged lone], Ready (request 16) 0x12 s ∧ findSet s 0 = some openSet ∧ findCommit s 0 = none ∧
      checkSet false (some 0) openSet.items (afterAccepted (mbTake (request 16) 0x12 0 s).2) = []) ∧
    (request 16).length = 16 ∧ (request 16).partition < 4 ∧ isComposition openSet.items = false ∧ (0 : Nat) ≠ tokenOfSet openSet ∧
    (∀ s ∈ [staged ready, staged lone], Ready (request 1) 0x13 s ∧ findSet s 0 = some openSet) ∧
    (∀ s ∈ [accepted ready, accepted lone], Ready (request 1) 0x13 s ∧ findCommit s 0 = some commit1 ∧ commit1.req = none) ∧
    1 ≤ (request 1).length := by
  unfold Ready; decide +kernel

/-- A start found no valid image (R542). -/
def talk : State := { ready with dev := { ready.dev with code := .safeTalk, image := none }, pins := { ready.pins with safeLow := true } }

/-- READY with a snapshot that would wait for a boundary. -/
def waiting (s : State) : State := { s with stg := { s.stg with persists := [(mbTake (request 24) 0x14 0 s).1] } }
def poured : State := pouring { number := 1, flask := 0 } ready

theorem witness_PersistAndRecoverWriteTheNor :
    (∀ s ∈ [ready, poured], Ready (request 24) 0x14 s ∧ norHeld s = false ∧ s.stg.persists = []) ∧
    (request 24).length = 24 ∧ boundaryAhead ready = false ∧ ready.dev.image = some (image 300) ∧ boundaryAhead poured = true ∧
    (verifies ready (image 300) = true ∧ (hrGoverning ready.nor).isSome = true ∧ verifies ready { image 300 with part := 4420 } = false) ∧
    (∀ s ∈ [ready, talk], Ready (request 24) 0x70 s ∧ norHeld s = false ∧ s.stg.persists = [] ∧ verifies s (image 300) = true ∧
      mayFormat 3 s = true) ∧
    (let s : State := { ready with nor := { ready.nor with slotA := some (image 300), slotB := some (image 300) } }
     Ready (request 24) 0x70 s ∧ slotOk s (slotImage s (recoverSlot s)) = true) ∧ talk.dev.code = .safeTalk := by
  unfold Ready; exact ⟨by decide +kernel, by decide, by decide, rfl, by decide, by decide +kernel, by decide +kernel, by decide +kernel, rfl⟩

/-- A health record with slot 1 on trial. -/
def trial1 : HealthRec := { nextSlot := 1, trial := true, sequence := 4 }

/-- READY's ORPHAN: no host link up. -/
def inOrphan : State := { ready with dev := { ready.dev with code := .orphan, linkUp := [false, false] } }

/-- A stop in progress; a package STOPPED by one; and one that starts, at step 6. -/
def stopping1 : State := { ready with dev := { ready.dev with code := .stopping, stop := some { orderly := true } } }
def stopped1 : State := { ready with dev := { ready.dev with code := .stopped, lastStop := some (2, 0, 4096) } }
def rising (c : DState) : State := { ready with dev := { ready.dev with code := c, step := 6 } }

theorem witness_ShutdownRequestsAct :
    (∀ s ∈ [ready, inOrphan], Ready (request 16) 0x50 s ∧ Ready (request 16) 0x51 s ∧ serving s = true ∧ s.chk.now = none ∧ unprotected s = false) ∧
    (request 16).length = 16 ∧
    (Ready (request 16) 0x50 stopping1 ∧ stopping1.dev.code = .stopping ∧ stopping1.dev.stop = some { orderly := true }) ∧
    (Ready (request 16) 0x50 stopped1 ∧ stopped1.dev.code = .stopped) ∧
    (∀ c ∈ [DState.starting, .selfTest], mbEarly (rising c) = false ∧ (fnOf (rising c) 0).mb.busy = false ∧ (request 16).minor ≤ 2 ∧
      isPhys (request 16).fn = true ∧ (rising c).dev.code = c) ∧
    (Ready (request 16) 0x50 ready ∧ rollSlot ready = none) ∧
    (let s : State := { ready with nor := { ready.nor with copy0 := .valid trial1 } }
     Ready (request 16) 0x50 s ∧ s.part = .tsn8840 ∧ serving s = true ∧ hasFollower s = true ∧ s.dev.roll = none ∧ rollSlot s = some 1) := by
  unfold Ready
  exact ⟨by decide +kernel, by decide, by decide +kernel, by decide +kernel, by decide +kernel, by decide +kernel, by decide +kernel⟩

theorem witness_TapRequestsAct :
    (Ready (request 16) 0x60 ready ∧ (request 16).length = 16 ∧ (fnOf ready 0).ring = none ∧ 4096 % 4096 = 0 ∧ 10 ≤ 10 ∧ 20 ≤ 20) ∧
    (Ready (request 12) 0x61 ready ∧ (request 12).length = 12 ∧ ((0 : Nat) = 0 ∨ (3 ≤ 0 ∧ 0 ≤ 2047)) ∧ ((2047 : Nat) = 0 ∨ (3 ≤ 2047 ∧ 2047 ≤ 2047)) ∧
      1 ≤ 1 ∧ 65536 ≤ 65536 ∧ 1000000 ≤ 1000000) ∧
    (mbEarly ready = false ∧ (fnOf ready 0).mb.busy = false ∧ listedOp 0x99 = false) ∧ Ready (request 16) 0x70 ready := by
  unfold Ready; decide +kernel

theorem witness_BusyMailboxRejects :
    mbEarly State.reset = true ∧ (fnOf { ready with fns := [{ id := 0, mb := { busy := true } }] } (request 0).fn).mb.busy = true ∧
    (∃ a, Instr.check (request 4) 0 = .check (request 4) a) := ⟨by decide, by decide, 0, rfl⟩

theorem witness_HostLinksFallAndReturn :
    (1 < linkCount ready.part ∧ (∀ im, ready.dev.image = some im → im.board.orphanUs ≠ 0) ∧ (ready.dev.linkUp.set 1 false).any id = true) ∧
    (let s : State := { ready with dev := { ready.dev with linkUp := [true, false] } }
     0 < linkCount s.part ∧ s.dev.code = .ready ∧
       s.tiers.hRegions.any (fun r => r.link == 0 && !r.failed && decide (0 < r.length)) = false ∧
       (∀ im, s.dev.image = some im → im.board.orphanUs ≠ 0) ∧ (s.dev.linkUp.set 0 false).any id = false) ∧
    (1 < linkCount ready.part ∧ ready.pins.powerGood = true) := by
  refine ⟨⟨by decide, ?_, by decide⟩, ⟨by decide, rfl, by decide, ?_, by decide⟩, by decide, rfl⟩ <;>
  · intro im h
    injection h with h
    subst h
    decide

theorem witness_BoardNoticesStop :
    (let s : State := { ready with pins := { ready.pins with armed := true } }
     s.pins.powerGood = true ∧ serving s = true ∧ s.chk.now = none ∧ unprotected s = false ∧
       (∃ n, Instr.preemptNAssert 1000 = .preemptNAssert n ∧ 1000 ≤ n ∧ s.pins.armed = true)) ∧
    (∃ mv n im, Instr.vauxWarning 1759 1000 = .vauxWarning mv n ∧ mv < 1760 ∧ 1000 ≤ n ∧ ready.dev.image = some im ∧ im.board.supplyMonitor = true) ∧
    (ready.pins.powerGood = true ∧ 1000 ≤ 1000 ∧ ready.pins.armed = false) ∧ 1760 ≤ 1760 :=
  ⟨⟨rfl, rfl, rfl, by decide, 1000, rfl, by decide, rfl⟩, ⟨1759, 1000, _, rfl, by decide, by decide, rfl, rfl⟩, by decide, by decide⟩

theorem witness_PackageResetKeepsTheDurable :
    (ready.pins.powerGood = true ∧ ∃ n, Instr.packageReset 10000000 = .packageReset n ∧ 10000000 ≤ n) ∧
    (railFitted ready.part .vio = true ∧ withinRating .vio 0 = true ∧ railFits ready .vio 0 = false) ∧
    (1000 ≤ 1000 ∧ 9999999 < 10000000 ∧
      (∀ c ∈ [DState.ready, .orphan, .stopping], let s : State := { ready with dev := { ready.dev with code := c } }
        s.pins.powerGood = true ∧ (s.dev.code = .ready ∨ s.dev.code = .orphan ∨ s.dev.code = .stopping))) ∧
    (let s : State := { ready with dev := { ready.dev with code := .starting, step := 5 } }
     s.pins.powerGood = true ∧ s.dev.code = .starting ∧ 5 ≤ s.dev.step) ∧
    ((rising .selfTest).pins.powerGood = true ∧ (rising .selfTest).dev.code = .selfTest) ∧
    (talk.dev.code = .safeTalk ∧ stopped1.dev.code = .stopped ∧ State.reset.dev.code = .starting ∧ State.reset.dev.step < 5) :=
  ⟨⟨rfl, 10000000, rfl, by decide⟩, by decide +kernel, by decide, by decide, by decide, by decide⟩

/-- What a start finds with everything present (Table 19-3). -/
def found : StartObs :=
  { norReadable := true, stacksOk := 0xFFFFFF, channelsOk := 0, chillPresent := 3, digestOk := [], poolsPresent := 0, anchorOk := true, recallOk := true }

/-- After reset, a package whose NOR holds a valid image in slot A and a health record. -/
def stocked : State := { State.reset with nor := { slotA := some (image 300), copy0 := .valid {} } }
def unread : StartObs := { found with norReadable := false }
def powered : State := { stocked with pins := { stocked.pins with powerGood := true }, dev := { stocked.dev with step := 2 } }

/-- The same with slot A empty, with both flags set, and after a failed trial of slot B. -/
def second : State := { State.reset with nor := { slotB := some (image 300), copy0 := .valid {} } }
def passed : HealthRec := { clean := true, selfPassed := true }
def failedTrial : HealthRec := { nextSlot := 1, trial := true, tried := true, goodSlot := 0 }
def withRecord (r : HealthRec) : State := { State.reset with nor := { slotA := some (image 300), copy0 := .valid r } }

theorem witness_PowerGoodStartsThePackage :
    (stocked.dev.code = .starting ∧ found.norReadable = true ∧ hrGoverning stocked.nor = some {} ∧
      (0 : Nat) = (if ({} : HealthRec).trial && ({} : HealthRec).tried then ({} : HealthRec).goodSlot else ({} : HealthRec).nextSlot) ∧
      slotImage stocked 0 = some (image 300) ∧ slotOk stocked (some (image 300)) = true ∧ (({} : HealthRec).clean && ({} : HealthRec).selfPassed) = false ∧
      stocked.pins.powerGood = false) ∧
    (hrGoverning second.nor = some {} ∧ slotImage second 1 = some (image 300) ∧ slotOk second (some (image 300)) = true ∧ 1 = otherSlot 0 ∧
      slotOk second (slotImage second 0) = false) ∧
    (hrGoverning (withRecord passed).nor = some passed ∧ (passed.clean && passed.selfPassed) = true ∧ slotImage (withRecord passed) 0 = some (image 300) ∧
      slotOk (withRecord passed) (some (image 300)) = true ∧ (withRecord passed).pins.powerGood = false) ∧
    (hrGoverning (withRecord failedTrial).nor = some failedTrial ∧
      (0 : Nat) = (if failedTrial.trial && failedTrial.tried then failedTrial.goodSlot else failedTrial.nextSlot) ∧
      slotOk (withRecord failedTrial) (some (image 300)) = true) ∧
    (powered.dev.code = .starting ∧ powered.pins.powerGood = true ∧ powered.part = .tsn8840 ∧ powered.dev.step = 2 ∧ powered.sec.serveNot = false ∧
      hrGoverning powered.nor = some {} ∧ slotImage powered 0 = some (image 300) ∧ slotOk powered (some (image 300)) = true) ∧
    (hrGoverning { State.reset with nor := { copy0 := .corrupt, copy1 := .erased } }.nor = none ∧
      (hrGoverning State.reset.nor = some {} ∧ slotOk State.reset State.reset.nor.slotA = false ∧
        slotOk State.reset State.reset.nor.slotB = false)) ∧
    (stocked.pins.powerGood = false ∧ unread.norReadable = false) :=
  ⟨by decide +kernel, by decide +kernel, by decide +kernel, by decide +kernel, by decide +kernel, by decide +kernel, by decide⟩

/-- The self-test of a start, with and without its hubs; and that of an orderly shutdown whose checkpoint has ended. -/
def testing : State := { ready with dev := { ready.dev with code := .selfTest, step := 6 } }
def hubless : State := { testing with dev := { testing.dev with hubs := [{ fenced := true }, { fenced := true }] } }
def ask50 : Open := { fn := 0, gen := 1, tag := 7, op := 0x50, sub := 0 }
def closing : Stop := { answers := [ask50], selfTest := true, orderly := true, ckptDone := true, ckptOk := true, number := 2 }
def ending : State :=
  { ready with dev := { ready.dev with code := .stopping, stop := some closing }, fns := [{ id := 0, mb := { gen := 1, busy := true } }] }

theorem witness_SelfTestEndGoesOn :
    (testing.dev.code = .selfTest ∧
      fatalNow (applyFindings ((((hrGoverning testing.nor).map HealthRec.findings).getD []) ++ [])
        (hrRewrite (fun h => { h with findings := [] }) testing)) = false) ∧
    (hubless.dev.code = .selfTest ∧
      fatalNow (applyFindings ((((hrGoverning hubless.nor).map HealthRec.findings).getD []) ++ [])
        (hrRewrite (fun h => { h with findings := [] }) hubless)) = true) ∧
    (testing.dev.heldShut = [] ∧ testing.dev.heldStop = [] ∧ testing.dev.linkUp.any id = true) ∧
    (ending.dev.code = .stopping ∧ ending.dev.stop = some closing ∧ closing.selfTest = true ∧ closing.ckptDone = true ∧ closing.parks = false ∧
      closing.orderly = true ∧ (closing.answers.map Open.fn).Nodup ∧ ask50 ∈ closing.answers ∧ (fnOf ending ask50.fn).mb.busy = true ∧ (fnOf ending ask50.fn).mb.gen = ask50.gen ∧
      (hrGoverning ending.nor).isSome = true) := by decide +kernel

end Sys2Proof.Tests
end

