-- ==== Sys2Proof/WellFormed.lean ====
section
/-! DEFINITION. Which commands are well formed: operands within the numbering the manual gives (R86, Table 1-1, Table 3-1,
Table 3-15, R33, R381, R527). -/

namespace Sys2Proof

/-- A number below a bound. -/
def below (n bound : Nat) : Bool := decide (n < bound)

/-- A function identifier: link 0 or 1, function 0 to 63 (R86). -/
def okFn (fn : Nat) : Bool := below fn 512 && below (fn % 256) 64

/-- A message lies in one of the 16,384 slots of a function's sprue window (R90). -/
def okSprue (m : Sprue) : Bool := okFn m.fn && below m.slot 16384

/-- Byte 1 of the message is the row's opcode (Table 3-1). -/
def okOpcode (m : Sprue) (op : Nat) : Bool := (m.w.toNat / 256) % 256 == op

/-- Byte 1 of the message is an opcode that Table 3-3 does not list. -/
def okUnlisted (m : Sprue) : Bool :=
  !([1, 2, 3, 4, 5, 6, 7, 8, 9, 10, 11, 12, 16, 17, 18].contains ((m.w.toNat / 256) % 256))

/-- A mailbox request header in the widths of Table 3-15. -/
def okMb (r : MbReq) : Bool :=
  okFn r.fn && below r.minor 256 && below r.tag (2 ^ 32) && below r.length 4081 && below r.partition 65536

/-- A fabric header in the widths of Table 13-7. -/
def okFabric (h : FabricHdr) : Bool :=
  below h.kind 16 && below h.cls 8 && (below 0 h.count && below h.count 65) && below h.dest 4096 && below h.source 4096 &&
    below h.window 256 && below h.offset (2 ^ 32) && below h.tag 65536 && below h.epoch 65536 && below h.reason 8

/-- A manager message header in the widths of Table 14-2. -/
def okMgr (h : MgrHdr) : Bool :=
  below h.source 65536 && below h.epoch (2 ^ 32) && below h.seq (2 ^ 64) && below h.handle (2 ^ 64)

/-- A firmware core: a hub core of hub 0 or 1, or the control core of a physical position of an SC die (Table 18-1). -/
def okCore (c : CoreId) : Bool :=
  (below c.cls 3 && below c.unit 2 && c.pos == 0) || (c.cls == 3 && below c.unit 4 && below c.pos 9)

/-- A runner line in the widths of Table 1-5a: an 8-bit sequence number, a 4-bit kind. -/
def okLine (l : RunnerLine) : Bool :=
  below l.runner 12 && below l.bundle 32 && below l.crc 65536 && below l.seq 256 && below l.kind 16

/-- Which commands are well formed. -/
def wellFormed (i : Instr) : Bool :=
  match i with
  | .openSession m => okSprue m && okOpcode m 1
  | .appendText m _ => okSprue m && okOpcode m 2
  | .appendFrame m _ => okSprue m && okOpcode m 3
  | .generate m _ => okSprue m && okOpcode m 4
  | .toolResult m _ => okSprue m && okOpcode m 5
  | .cancel m => okSprue m && okOpcode m 6
  | .barge m => okSprue m && okOpcode m 7
  | .park m => okSprue m && okOpcode m 8
  | .close m => okSprue m && okOpcode m 9
  | .recallQuery m _ => okSprue m && okOpcode m 10
  | .memorize m _ => okSprue m && okOpcode m 11
  | .forget m => okSprue m && okOpcode m 12
  | .tapRelease m => okSprue m && okOpcode m 16
  | .budget m => okSprue m && okOpcode m 17
  | .clockForward m => okSprue m && okOpcode m 18
  | .unknownOpcode m => okSprue m && okUnlisted m
  | .sprueWriteDiscarded fn _ => okFn fn
  | .identify r => okMb r
  | .stage r _ => okMb r
  | .check r _ => okMb r
  | .commit r _ _ => okMb r
  | .discardSet r => okMb r
  | .discardCommit r => okMb r
  | .persistState r => okMb r
  | .persistImage r _ => okMb r
  | .attestChain r _ => okMb r
  | .attestNative r _ _ => okMb r
  | .attestSnirdaob r _ _ => okMb r
  | .accountRead r tenant _ _ => okMb r && below tenant 65536
  | .healthRead r _ _ => okMb r
  | .logRead r _ => okMb r
  | .shutdownSelfTest r => okMb r
  | .shutdownOrderly r => okMb r
  | .hubRoll r => okMb r
  | .shutdownServingReset r => okMb r
  | .shutdownPackageReset r => okMb r
  | .preemptStop r => okMb r
  | .preemptLive r => okMb r
  | .tapSetup r _ _ => okMb r
  | .vectorSet r _ _ _ => okMb r
  | .recoverImage r _ => okMb r
  | .recoverFormat r _ => okMb r
  | .recoverHealthRecord r => okMb r
  | .unknownOperation r _ _ => okMb r
  | .mbCtrlClear fn _ _ => okFn fn
  | .registerWrite fn _ _ _ => okFn fn
  | .functionLevelReset fn => okFn fn
  | .hostLinkDown link _ => below link 2
  | .hostLinkUp link _ => below link 2
  | .preemptNAssert _ => true
  | .preemptNArmed => true
  | .servingReset _ => true
  | .packageReset _ => true
  | .powerGood _ => true
  | .norTakeoverHubB _ => true
  | .selfTestEnd _ _ => true
  | .railOutOfRange _ _ => true
  | .vauxWarning _ _ => true
  | .thermtrip die => below die 8
  | .pllLossOfLock die => below die 8
  | .pllLockRegained die => below die 8
  | .pourPlan _ => true
  | .layerComplete _ => true
  | .weightBlockArrived _ _ => true
  | .weightReadFailed _ _ => true
  | .masksReady => true
  | .samplingDone _ => true
  | .releaseMirrorAck _ => true
  | .pourBarrier _ => true
  | .commitBarrierIdle => true
  | .gateListTakeover port => below port 32
  | .clusterFault die cluster => below die 4 && below cluster 8
  | .rotationStart die => below die 4
  | .rotationTestEnd die _ => below die 4
  | .residencyAllowanceExpiry handle => below handle (2 ^ 64)
  | .directorySweep _ => true
  | .hardDeadlineExpiry handle => below handle (2 ^ 64)
  | .softDeadlineExpiry handle => below handle (2 ^ 64)
  | .frameAllowanceExpiry handle _ => below handle (2 ^ 64)
  | .answerBlockTimeout fn => okFn fn
  | .backlogDrain fn => okFn fn
  | .vectorIntervalExpiry fn _ => okFn fn
  | .demotionCommit handle => below handle (2 ^ 64)
  | .revivalPhase1End handle => below handle (2 ^ 64)
  | .remeltPhase2End handle => below handle (2 ^ 64)
  | .ingotCommit handle => below handle (2 ^ 64)
  | .pageCast handle _ _ => below handle (2 ^ 64)
  | .writeDownFailed handle _ _ => below handle (2 ^ 64)
  | .stalledWriteResume _ => true
  | .storeCopyCommit handle _ => below handle (2 ^ 64)
  | .demandFetchComplete handle _ _ => below handle (2 ^ 64)
  | .demandFetchLate handle _ _ => below handle (2 ^ 64)
  | .demandFetchFailed handle _ _ => below handle (2 ^ 64)
  | .frozenReadLate handle => below handle (2 ^ 64)
  | .bridgeFatalError pool => below pool 64
  | .hbmUncorrectable stack _ _ => below stack 24
  | .hbmCorrected stack _ _ => below stack 24
  | .patrolScrub die => below die 4
  | .nandReadComplete hub _ _ _ _ => below hub 2
  | .nandProgramComplete hub _ _ _ _ _ => below hub 2
  | .nandEraseComplete hub _ _ => below hub 2
  | .journalFlushTimer hub => below hub 2
  | .channelRetrainTimer channel _ => below channel 64
  | .recallQueryComplete _ => true
  | .recallReadLate _ => true
  | .recallReadFailed _ => true
  | .memorizeLive _ _ => true
  | .repairPassEnd _ _ => true
  | .indexDeleteEffect _ _ => true
  | .envelopeOverrun => true
  | .avsbusWriteUnacked _ _ => true
  | .thermalRead _ => true
  | .chillModuleLost hub => below hub 2
  | .portTrained port _ _ _ _ => below port 32
  | .portTrainingTimeout port _ => below port 32
  | .wavelengthSpare port _ wavelength _ => below port 32 && below wavelength 17
  | .portLightLost port _ _ => below port 32
  | .laserFeedLow port lost _ => below port 32 && lost.all fun n => below n 17
  | .laserFeedRestored port => below port 32
  | .linkLayerFatal port _ => below port 32
  | .portRetryInterval port _ => below port 32
  | .portRoleDrained port _ => below port 32
  | .fabricWriteReceived port h _ => below port 32 && okFabric h
  | .fabricReadRequest port h => below port 32 && okFabric h
  | .fabricReadResponse port h => below port 32 && okFabric h
  | .fabricReadTimeout _ => true
  | .fabricNotice h => okFabric h
  | .runnerLineReceived l => okLine l
  | .runnerResendRequest runner side seq => below runner 12 && below side.bundle 32 && below seq 256
  | .runnerStuckWire runner side group => below runner 12 && below side.bundle 32 && below group 278
  | .runnerSparingNotice runner side group => below runner 12 && below side.bundle 32 && below group 278
  | .coreFault core _ => okCore core
  | .watchdogWrite core => okCore core
  | .watchdogHalfPeriod core => okCore core
  | .watchdogExpiry core => okCore core
  | .heartbeat => true
  | .heartbeatMissed => true
  | .hubCoresRejoin hub => below hub 2
  | .configurationMirrorAck => true
  | .hubRollHubReady _ => true
  | .eventSourceFire core source => okCore core && below source 256
  | .evcEosWrite core source _ => okCore core && below source 256
  | .srcCfgSet core source priority _ _ => okCore core && below source 256 && below priority 16
  | .srcCfgPendingClear core source priority _ _ => okCore core && below source 256 && below priority 16
  | .evcDeliverWrite core _ base _ => okCore core && below base (2 ^ 48)
  | .coreWait core _ => okCore core
  | .meterAlarm core => okCore core
  | .semaphoreAcquire die sem _ => below die 4 && below sem 256
  | .semaphoreRelease die sem _ => below die 4 && below sem 256
  | .semaphoreRevokedClear die sem => below die 4 && below sem 256
  | .join h _ _ => okMgr h
  | .joinAnswer h _ _ => okMgr h
  | .mapPublish h _ _ => okMgr h
  | .mapApplied h _ => okMgr h
  | .epochRetired h _ => okMgr h
  | .lookup h => okMgr h
  | .lookupAnswer h _ => okMgr h
  | .moveBegin h _ _ _ _ _ => okMgr h
  | .moveReady h _ => okMgr h
  | .migrationCopyDone handle => below handle (2 ^ 64)
  | .switchOver h m => okMgr h && below m.tenant 65536
  | .prepared h => okMgr h
  | .committed h => okMgr h
  | .aborted h _ => okMgr h
  | .teardown h group => okMgr h && below group 65536
  | .teardownDone h group => okMgr h && below group 65536
  | .poisonedReadReport h _ _ _ _ => okMgr h
  | .directoryUpdate h _ _ => okMgr h
  | .recallFanOut h _ _ _ _ _ _ _ _ _ _ => okMgr h
  | .recallAnswer h _ _ _ _ => okMgr h
  | .registryUpdate h tenant _ _ => okMgr h && below tenant 65536
  | .acknowledge h _ => okMgr h
  | .managerResendTimeout _ _ => true
  | .checkpointNotice h _ => okMgr h
  | .checkpointAnswer h _ _ _ _ => okMgr h
  | .checkpointCut => true
  | .checkpointCommit => true
  | .checkpointFailed _ => true
  | .orphanAllowanceExpiry => true
  | .linkOrphanExpiry link => below link 2
  | .tenantKeyDestroyed tenant => below tenant 65536
  | .tenantDrainComplete tenant => below tenant 65536
  | .tenantRemovalComplete tenant => below tenant 65536
  | .bindStreamComplete _ _ _ _ _ => true
  | .noiseSourceFailure hub => below hub 2
  | .bypass => true
  | .samplePreload => true
  | .extest => true
  | .idcode => true
  | .debugChallenge => true
  | .debugUnlock _ => true
  | .mctpMessage hub _ _ => below hub 2
  | .pldmBaseCommand hub _ => below hub 2
  | .pldmPlatformCommand hub _ _ => below hub 2
  | .pldmRequestUpdate hub => below hub 2
  | .pldmFirmwareUpdate hub _ _ => below hub 2
  | .mgmtBusStuck hub _ _ => below hub 2
  | .backgroundCopyComplete handle _ _ => below handle (2 ^ 64)
  | .clusterIdlePowerOff => true
  | .handshakeRateMeasurement _ => true
  | .configurationRequest link fn _ _ _ => below link 2 && okFn fn

end Sys2Proof
end

