-- ==== Sys2Proof/Tests/Slice0.lean ====
section
/-! SUPPORT. The checks of WellFormed refuse an ill-formed term each, and words, layouts and small steps taken from the manual's own figures. -/

namespace Sys2Proof.Tests
set_option Elab.async false

open Sys2Proof Sys2Proof.Machine

/-! ### WellFormed: a good term and, for each check, an ill-formed one -/

/-- A line whose byte 1 is the opcode (Table 3-1). -/
def opLine (op : Nat) : Line := BitVec.ofNat 512 (op * 256)

/-- A message in a slot of a function. -/
def at_ (fn slot op : Nat) : Sprue := { fn := fn, slot := slot, w := opLine op }

/-- Each message row takes its own opcode alone. -/
theorem test_wellFormed_opcodes :
    wellFormed (.openSession (at_ 0 0 1)) = true ∧ wellFormed (.openSession (at_ 0 0 2)) = false ∧
    wellFormed (.appendText (at_ 0 0 2) none) = true ∧ wellFormed (.appendText (at_ 0 0 3) none) = false ∧
    wellFormed (.appendFrame (at_ 0 0 3) none) = true ∧ wellFormed (.appendFrame (at_ 0 0 4) none) = false ∧
    wellFormed (.generate (at_ 0 0 4) none) = true ∧ wellFormed (.generate (at_ 0 0 5) none) = false ∧
    wellFormed (.toolResult (at_ 0 0 5) none) = true ∧ wellFormed (.toolResult (at_ 0 0 6) none) = false ∧
    wellFormed (.cancel (at_ 0 0 6)) = true ∧ wellFormed (.cancel (at_ 0 0 7)) = false ∧
    wellFormed (.barge (at_ 0 0 7)) = true ∧ wellFormed (.barge (at_ 0 0 8)) = false ∧
    wellFormed (.park (at_ 0 0 8)) = true ∧ wellFormed (.park (at_ 0 0 9)) = false ∧
    wellFormed (.close (at_ 0 0 9)) = true ∧ wellFormed (.close (at_ 0 0 10)) = false ∧
    wellFormed (.recallQuery (at_ 0 0 10) none) = true ∧ wellFormed (.recallQuery (at_ 0 0 11) none) = false ∧
    wellFormed (.memorize (at_ 0 0 11) none) = true ∧ wellFormed (.memorize (at_ 0 0 12) none) = false ∧
    wellFormed (.forget (at_ 0 0 12)) = true ∧ wellFormed (.forget (at_ 0 0 0)) = false ∧
    wellFormed (.tapRelease (at_ 0 0 16)) = true ∧ wellFormed (.tapRelease (at_ 0 0 17)) = false ∧
    wellFormed (.budget (at_ 0 0 17)) = true ∧ wellFormed (.budget (at_ 0 0 18)) = false ∧
    wellFormed (.clockForward (at_ 0 0 18)) = true ∧ wellFormed (.clockForward (at_ 0 0 0)) = false := by decide +kernel

/-- A function is of link 0 or 1 and numbered 0 to 63 there; a slot is below 16,384; UNKNOWN_OPCODE takes no listed opcode. -/
theorem test_wellFormed_messages :
    wellFormed (.cancel (at_ 319 16383 6)) = true ∧ wellFormed (.cancel (at_ 512 0 6)) = false ∧ wellFormed (.cancel (at_ 64 0 6)) = false ∧
    wellFormed (.cancel (at_ 0 16384 6)) = false ∧ wellFormed (.unknownOpcode (at_ 0 0 13)) = true ∧
    wellFormed (.unknownOpcode (at_ 0 0 18)) = false ∧ wellFormed (.unknownOpcode (at_ 64 0 13)) = false ∧
    wellFormed (.sprueWriteDiscarded 63 .short) = true ∧ wellFormed (.sprueWriteDiscarded 64 .short) = false := by decide +kernel

/-- The fields of a mailbox request header are of the widths of Table 3-15. -/
theorem test_wellFormed_mailbox :
    wellFormed (.identify { fn := 1, minor := 255, tag := 4294967295, length := 4080, partition := 65535 }) = true ∧
    wellFormed (.identify { fn := 64, minor := 0, tag := 0, length := 0, partition := 0 }) = false ∧
    wellFormed (.identify { fn := 0, minor := 256, tag := 0, length := 0, partition := 0 }) = false ∧
    wellFormed (.identify { fn := 0, minor := 0, tag := 4294967296, length := 0, partition := 0 }) = false ∧
    wellFormed (.identify { fn := 0, minor := 0, tag := 0, length := 4081, partition := 0 }) = false ∧
    wellFormed (.identify { fn := 0, minor := 0, tag := 0, length := 0, partition := 65536 }) = false := by decide +kernel

/-- A request no mailbox can send. -/
def badRequest : MbReq := { fn := 512, minor := 0, tag := 0, length := 0, partition := 0 }

/-- Every mailbox row checks its header; ACCOUNT_READ checks its tenant too. -/
theorem test_wellFormed_mailbox_rows :
    wellFormed (.accountRead (request 16) 65536 true 0) = false ∧ wellFormed (.accountRead (request 16) 65535 true 0) = true ∧
    wellFormed (.identify (request 0)) = true ∧ wellFormed (.identify badRequest) = false ∧
    wellFormed (.stage (request 0) []) = true ∧ wellFormed (.stage badRequest []) = false ∧
    wellFormed (.check (request 0) 0) = true ∧ wellFormed (.check badRequest 0) = false ∧
    wellFormed (.commit (request 0) 0 0) = true ∧ wellFormed (.commit badRequest 0 0) = false ∧
    wellFormed (.discardSet (request 0)) = true ∧ wellFormed (.discardSet badRequest) = false ∧
    wellFormed (.discardCommit (request 0)) = true ∧ wellFormed (.discardCommit badRequest) = false ∧
    wellFormed (.persistState (request 0)) = true ∧ wellFormed (.persistState badRequest) = false ∧
    wellFormed (.persistImage (request 0) none) = true ∧ wellFormed (.persistImage badRequest none) = false ∧
    wellFormed (.attestChain (request 0) 0) = true ∧ wellFormed (.attestChain badRequest 0) = false ∧
    wellFormed (.attestNative (request 0) 0 0) = true ∧ wellFormed (.attestNative badRequest 0 0) = false ∧
    wellFormed (.attestSnirdaob (request 0) 0 0) = true ∧ wellFormed (.attestSnirdaob badRequest 0 0) = false ∧
    wellFormed (.accountRead (request 0) 0 true 0) = true ∧ wellFormed (.accountRead badRequest 0 true 0) = false ∧
    wellFormed (.healthRead (request 0) 1 0) = true ∧ wellFormed (.healthRead badRequest 1 0) = false ∧
    wellFormed (.logRead (request 0) 0) = true ∧ wellFormed (.logRead badRequest 0) = false ∧
    wellFormed (.shutdownSelfTest (request 0)) = true ∧ wellFormed (.shutdownSelfTest badRequest) = false ∧
    wellFormed (.shutdownOrderly (request 0)) = true ∧ wellFormed (.shutdownOrderly badRequest) = false ∧
    wellFormed (.hubRoll (request 0)) = true ∧ wellFormed (.hubRoll badRequest) = false ∧
    wellFormed (.shutdownServingReset (request 0)) = true ∧ wellFormed (.shutdownServingReset badRequest) = false ∧
    wellFormed (.shutdownPackageReset (request 0)) = true ∧ wellFormed (.shutdownPackageReset badRequest) = false ∧
    wellFormed (.preemptStop (request 0)) = true ∧ wellFormed (.preemptStop badRequest) = false ∧
    wellFormed (.preemptLive (request 0)) = true ∧ wellFormed (.preemptLive badRequest) = false ∧
    wellFormed (.tapSetup (request 0) 0 0) = true ∧ wellFormed (.tapSetup badRequest 0 0) = false ∧
    wellFormed (.vectorSet (request 0) 0 0 0) = true ∧ wellFormed (.vectorSet badRequest 0 0 0) = false ∧
    wellFormed (.recoverImage (request 0) none) = true ∧ wellFormed (.recoverImage badRequest none) = false ∧
    wellFormed (.recoverFormat (request 0) 0) = true ∧ wellFormed (.recoverFormat badRequest 0) = false ∧
    wellFormed (.recoverHealthRecord (request 0)) = true ∧ wellFormed (.recoverHealthRecord badRequest) = false ∧
    wellFormed (.unknownOperation (request 0) 0 0) = true ∧ wellFormed (.unknownOperation badRequest 0 0) = false := by decide +kernel

/-- Numbers stay below the bounds of their numbering, 1. -/
theorem test_wellFormed_bounds1 :
    wellFormed (.mbCtrlClear 256 true true) = true ∧ wellFormed (.mbCtrlClear 320 true true) = false ∧
    wellFormed (.registerWrite 256 0 0 0) = true ∧ wellFormed (.registerWrite 320 0 0 0) = false ∧
    wellFormed (.functionLevelReset 256) = true ∧ wellFormed (.functionLevelReset 320) = false ∧
    wellFormed (.answerBlockTimeout 256) = true ∧ wellFormed (.answerBlockTimeout 320) = false ∧
    wellFormed (.backlogDrain 256) = true ∧ wellFormed (.backlogDrain 320) = false ∧
    wellFormed (.vectorIntervalExpiry 256 0) = true ∧ wellFormed (.vectorIntervalExpiry 320 0) = false ∧
    wellFormed (.hostLinkDown 1 true) = true ∧ wellFormed (.hostLinkDown 2 true) = false ∧
    wellFormed (.hostLinkUp 1 true) = true ∧ wellFormed (.hostLinkUp 2 true) = false ∧
    wellFormed (.thermtrip 7) = true ∧ wellFormed (.thermtrip 8) = false ∧
    wellFormed (.pllLossOfLock 7) = true ∧ wellFormed (.pllLossOfLock 8) = false ∧
    wellFormed (.pllLockRegained 7) = true ∧ wellFormed (.pllLockRegained 8) = false ∧
    wellFormed (.gateListTakeover 31) = true ∧ wellFormed (.gateListTakeover 32) = false ∧
    wellFormed (.rotationStart 3) = true ∧ wellFormed (.rotationStart 4) = false ∧
    wellFormed (.rotationTestEnd 3 true) = true ∧ wellFormed (.rotationTestEnd 4 true) = false ∧
    wellFormed (.bridgeFatalError 63) = true ∧ wellFormed (.bridgeFatalError 64) = false ∧
    wellFormed (.hbmUncorrectable 23 0 .oneCopy) = true ∧ wellFormed (.hbmUncorrectable 24 0 .oneCopy) = false ∧
    wellFormed (.hbmCorrected 23 0 0) = true ∧ wellFormed (.hbmCorrected 24 0 0) = false ∧
    wellFormed (.patrolScrub 3) = true ∧ wellFormed (.patrolScrub 4) = false ∧
    wellFormed (.nandReadComplete 1 0 0 .head .lost) = true ∧ wellFormed (.nandReadComplete 2 0 0 .head .lost) = false ∧
    wellFormed (.nandProgramComplete 1 0 0 0 .head true) = true ∧ wellFormed (.nandProgramComplete 2 0 0 0 .head true) = false ∧
    wellFormed (.nandEraseComplete 1 0 true) = true ∧ wellFormed (.nandEraseComplete 2 0 true) = false ∧
    wellFormed (.journalFlushTimer 1) = true ∧ wellFormed (.journalFlushTimer 2) = false ∧
    wellFormed (.channelRetrainTimer 63 true) = true ∧ wellFormed (.channelRetrainTimer 64 true) = false ∧
    wellFormed (.chillModuleLost 1) = true ∧ wellFormed (.chillModuleLost 2) = false ∧
    wellFormed (.portTrainingTimeout 31 1) = true ∧ wellFormed (.portTrainingTimeout 32 1) = false := by decide +kernel

/-- Numbers stay below the bounds of their numbering, 2. -/
theorem test_wellFormed_bounds2 :
    wellFormed (.portLightLost 31 true 0) = true ∧ wellFormed (.portLightLost 32 true 0) = false ∧
    wellFormed (.laserFeedRestored 31) = true ∧ wellFormed (.laserFeedRestored 32) = false ∧
    wellFormed (.linkLayerFatal 31 0) = true ∧ wellFormed (.linkLayerFatal 32 0) = false ∧
    wellFormed (.portRetryInterval 31 16) = true ∧ wellFormed (.portRetryInterval 32 16) = false ∧
    wellFormed (.portRoleDrained 31 16) = true ∧ wellFormed (.portRoleDrained 32 16) = false ∧
    wellFormed (.hubCoresRejoin 1) = true ∧ wellFormed (.hubCoresRejoin 2) = false ∧
    wellFormed (.linkOrphanExpiry 1) = true ∧ wellFormed (.linkOrphanExpiry 2) = false ∧
    wellFormed (.tenantKeyDestroyed 65535) = true ∧ wellFormed (.tenantKeyDestroyed 65536) = false ∧
    wellFormed (.tenantDrainComplete 65535) = true ∧ wellFormed (.tenantDrainComplete 65536) = false ∧
    wellFormed (.tenantRemovalComplete 65535) = true ∧ wellFormed (.tenantRemovalComplete 65536) = false ∧
    wellFormed (.noiseSourceFailure 1) = true ∧ wellFormed (.noiseSourceFailure 2) = false ∧
    wellFormed (.mctpMessage 1 0 0) = true ∧ wellFormed (.mctpMessage 2 0 0) = false ∧
    wellFormed (.pldmBaseCommand 1 0) = true ∧ wellFormed (.pldmBaseCommand 2 0) = false ∧
    wellFormed (.pldmPlatformCommand 1 0 0) = true ∧ wellFormed (.pldmPlatformCommand 2 0 0) = false ∧
    wellFormed (.pldmRequestUpdate 1) = true ∧ wellFormed (.pldmRequestUpdate 2) = false ∧
    wellFormed (.pldmFirmwareUpdate 1 none true) = true ∧ wellFormed (.pldmFirmwareUpdate 2 none true) = false ∧
    wellFormed (.mgmtBusStuck 1 true true) = true ∧ wellFormed (.mgmtBusStuck 2 true true) = false ∧
    wellFormed (.residencyAllowanceExpiry 18446744073709551615) = true ∧ wellFormed (.residencyAllowanceExpiry 18446744073709551616) = false ∧
    wellFormed (.hardDeadlineExpiry 18446744073709551615) = true ∧ wellFormed (.hardDeadlineExpiry 18446744073709551616) = false ∧
    wellFormed (.softDeadlineExpiry 18446744073709551615) = true ∧ wellFormed (.softDeadlineExpiry 18446744073709551616) = false ∧
    wellFormed (.frameAllowanceExpiry 18446744073709551615 0) = true ∧ wellFormed (.frameAllowanceExpiry 18446744073709551616 0) = false ∧
    wellFormed (.demotionCommit 18446744073709551615) = true ∧ wellFormed (.demotionCommit 18446744073709551616) = false ∧
    wellFormed (.revivalPhase1End 18446744073709551615) = true ∧ wellFormed (.revivalPhase1End 18446744073709551616) = false ∧
    wellFormed (.remeltPhase2End 18446744073709551615) = true ∧ wellFormed (.remeltPhase2End 18446744073709551616) = false ∧
    wellFormed (.ingotCommit 18446744073709551615) = true ∧ wellFormed (.ingotCommit 18446744073709551616) = false := by decide +kernel

/-- Numbers stay below the bounds of their numbering, 3. -/
theorem test_wellFormed_bounds3 :
    wellFormed (.pageCast 18446744073709551615 0 0) = true ∧ wellFormed (.pageCast 18446744073709551616 0 0) = false ∧
    wellFormed (.writeDownFailed 18446744073709551615 0 0) = true ∧ wellFormed (.writeDownFailed 18446744073709551616 0 0) = false ∧
    wellFormed (.storeCopyCommit 18446744073709551615 0) = true ∧ wellFormed (.storeCopyCommit 18446744073709551616 0) = false ∧
    wellFormed (.demandFetchComplete 18446744073709551615 0 0) = true ∧ wellFormed (.demandFetchComplete 18446744073709551616 0 0) = false ∧
    wellFormed (.demandFetchLate 18446744073709551615 0 0) = true ∧ wellFormed (.demandFetchLate 18446744073709551616 0 0) = false ∧
    wellFormed (.demandFetchFailed 18446744073709551615 0 0) = true ∧ wellFormed (.demandFetchFailed 18446744073709551616 0 0) = false ∧
    wellFormed (.frozenReadLate 18446744073709551615) = true ∧ wellFormed (.frozenReadLate 18446744073709551616) = false ∧
    wellFormed (.migrationCopyDone 18446744073709551615) = true ∧ wellFormed (.migrationCopyDone 18446744073709551616) = false ∧
    wellFormed (.backgroundCopyComplete 18446744073709551615 0 0) = true ∧ wellFormed (.backgroundCopyComplete 18446744073709551616 0 0) = false ∧
    wellFormed (.clusterFault 3 7) = true ∧ wellFormed (.clusterFault 4 7) = false ∧
    wellFormed (.clusterFault 0 0) = true ∧ wellFormed (.clusterFault 3 8) = false ∧
    wellFormed (.wavelengthSpare 31 true 16 0) = true ∧ wellFormed (.wavelengthSpare 32 true 16 0) = false ∧
    wellFormed (.wavelengthSpare 0 true 0 0) = true ∧ wellFormed (.wavelengthSpare 0 true 17 0) = false ∧
    wellFormed (.laserFeedLow 31 [16] 0) = true ∧ wellFormed (.laserFeedLow 32 [16] 0) = false ∧
    wellFormed (.laserFeedLow 31 [] 0) = true ∧ wellFormed (.laserFeedLow 31 [0, 17] 0) = false ∧
    wellFormed (.runnerResendRequest 11 ⟨31, true⟩ 0) = true ∧ wellFormed (.runnerResendRequest 12 ⟨31, true⟩ 0) = false ∧
    wellFormed (.runnerResendRequest 0 ⟨0, true⟩ 0) = true ∧ wellFormed (.runnerResendRequest 0 ⟨32, true⟩ 0) = false ∧
    wellFormed (.runnerStuckWire 11 ⟨31, true⟩ 277) = true ∧ wellFormed (.runnerStuckWire 12 ⟨31, true⟩ 277) = false ∧
    wellFormed (.runnerStuckWire 0 ⟨0, true⟩ 0) = true ∧ wellFormed (.runnerStuckWire 11 ⟨32, true⟩ 277) = false ∧
    wellFormed (.runnerStuckWire 0 ⟨0, true⟩ 1) = true ∧ wellFormed (.runnerStuckWire 11 ⟨31, true⟩ 278) = false ∧
    wellFormed (.runnerSparingNotice 11 ⟨31, true⟩ 277) = true ∧ wellFormed (.runnerSparingNotice 12 ⟨31, true⟩ 277) = false ∧
    wellFormed (.runnerSparingNotice 0 ⟨0, true⟩ 0) = true ∧ wellFormed (.runnerSparingNotice 11 ⟨32, true⟩ 277) = false ∧
    wellFormed (.runnerSparingNotice 0 ⟨0, true⟩ 1) = true ∧ wellFormed (.runnerSparingNotice 11 ⟨31, true⟩ 278) = false ∧
    wellFormed (.semaphoreAcquire 3 255 9) = true ∧ wellFormed (.semaphoreAcquire 4 255 9) = false ∧
    wellFormed (.semaphoreAcquire 0 0 0) = true ∧ wellFormed (.semaphoreAcquire 3 256 9) = false := by decide +kernel

/-- Numbers stay below the bounds of their numbering, 4. -/
theorem test_wellFormed_bounds4 :
    wellFormed (.semaphoreRelease 3 255 9) = true ∧ wellFormed (.semaphoreRelease 4 255 9) = false ∧
    wellFormed (.semaphoreRelease 0 0 0) = true ∧ wellFormed (.semaphoreRelease 3 256 9) = false ∧
    wellFormed (.semaphoreRevokedClear 3 255) = true ∧ wellFormed (.semaphoreRevokedClear 4 255) = false ∧
    wellFormed (.semaphoreRevokedClear 0 0) = true ∧ wellFormed (.semaphoreRevokedClear 0 256) = false ∧
    wellFormed (.configurationRequest 1 256 true .numVFs 0) = true ∧ wellFormed (.configurationRequest 2 256 true .numVFs 0) = false ∧
    wellFormed (.configurationRequest 0 0 true .numVFs 0) = true ∧ wellFormed (.configurationRequest 1 64 true .numVFs 0) = false := by decide +kernel

/-- A fabric header in its widths (Table 13-7). -/
def wideHdr : FabricHdr := { kind := 15, cls := 7, count := 64, dest := 4095, source := 4095, window := 255, offset := 4294967295, tag := 65535, epoch := 65535, reason := 7 }

/-- Fabric headers keep the widths of Table 13-7, ports their numbers. -/
theorem test_wellFormed_fabric :
    wellFormed (.fabricNotice wideHdr) = true ∧
    wellFormed (.fabricNotice { wideHdr with kind := 16 }) = false ∧
    wellFormed (.fabricNotice { wideHdr with cls := 8 }) = false ∧
    wellFormed (.fabricNotice { wideHdr with count := 65 }) = false ∧
    wellFormed (.fabricNotice { wideHdr with dest := 4096 }) = false ∧
    wellFormed (.fabricNotice { wideHdr with source := 4096 }) = false ∧
    wellFormed (.fabricNotice { wideHdr with window := 256 }) = false ∧
    wellFormed (.fabricNotice { wideHdr with offset := 4294967296 }) = false ∧
    wellFormed (.fabricNotice { wideHdr with tag := 65536 }) = false ∧
    wellFormed (.fabricNotice { wideHdr with epoch := 65536 }) = false ∧
    wellFormed (.fabricNotice { wideHdr with reason := 8 }) = false ∧
    wellFormed (.fabricNotice { wideHdr with count := 0 }) = false ∧
    wellFormed (.fabricWriteReceived 31 wideHdr []) = true ∧ wellFormed (.fabricWriteReceived 32 wideHdr []) = false ∧ wellFormed (.fabricWriteReceived 31 { wideHdr with cls := 8 } []) = false ∧
    wellFormed (.fabricReadRequest 31 wideHdr) = true ∧ wellFormed (.fabricReadRequest 32 wideHdr) = false ∧ wellFormed (.fabricReadRequest 31 { wideHdr with cls := 8 }) = false ∧
    wellFormed (.fabricReadResponse 31 wideHdr) = true ∧ wellFormed (.fabricReadResponse 32 wideHdr) = false ∧ wellFormed (.fabricReadResponse 31 { wideHdr with cls := 8 }) = false ∧
    wellFormed (.portTrained 31 16 true { kind := 0, port := 0, unit := 0, domain := 0, role := 0, serial := 0 } true) = true ∧
    wellFormed (.portTrained 32 16 true { kind := 0, port := 0, unit := 0, domain := 0, role := 0, serial := 0 } true) = false := by decide +kernel

/-- A manager header in its widths (Table 14-2), and one beyond them. -/
def wideMgr : MgrHdr := { source := 65535, epoch := 4294967295, seq := 18446744073709551615, handle := 18446744073709551615, crcOk := true }
def badMgr : MgrHdr := { wideMgr with source := 65536 }

/-- Manager headers keep the widths of Table 14-2, tenants and groups 16 bits. -/
theorem test_wellFormed_managers :
    wellFormed (.lookup wideMgr) = true ∧
    wellFormed (.lookup { wideMgr with source := 65536 }) = false ∧
    wellFormed (.lookup { wideMgr with epoch := 4294967296 }) = false ∧
    wellFormed (.lookup { wideMgr with seq := 18446744073709551616 }) = false ∧
    wellFormed (.lookup { wideMgr with handle := 18446744073709551616 }) = false ∧
    wellFormed (.join wideMgr 0 0) = true ∧ wellFormed (.join badMgr 0 0) = false ∧
    wellFormed (.joinAnswer wideMgr 0 0) = true ∧ wellFormed (.joinAnswer badMgr 0 0) = false ∧
    wellFormed (.mapPublish wideMgr 0 []) = true ∧ wellFormed (.mapPublish badMgr 0 []) = false ∧
    wellFormed (.mapApplied wideMgr 0) = true ∧ wellFormed (.mapApplied badMgr 0) = false ∧
    wellFormed (.epochRetired wideMgr 0) = true ∧ wellFormed (.epochRetired badMgr 0) = false ∧
    wellFormed (.lookup wideMgr) = true ∧ wellFormed (.lookup badMgr) = false ∧
    wellFormed (.lookupAnswer wideMgr none) = true ∧ wellFormed (.lookupAnswer badMgr none) = false ∧
    wellFormed (.moveBegin wideMgr 0 0 0 0 0) = true ∧ wellFormed (.moveBegin badMgr 0 0 0 0 0) = false ∧
    wellFormed (.moveReady wideMgr 0) = true ∧ wellFormed (.moveReady badMgr 0) = false ∧
    wellFormed (.switchOver wideMgr { tenant := 65535, model := 0 }) = true ∧ wellFormed (.switchOver badMgr { tenant := 65535, model := 0 }) = false ∧
    wellFormed (.prepared wideMgr) = true ∧ wellFormed (.prepared badMgr) = false ∧
    wellFormed (.committed wideMgr) = true ∧ wellFormed (.committed badMgr) = false ∧
    wellFormed (.aborted wideMgr 0) = true ∧ wellFormed (.aborted badMgr 0) = false ∧
    wellFormed (.teardown wideMgr 65535) = true ∧ wellFormed (.teardown badMgr 65535) = false ∧
    wellFormed (.teardownDone wideMgr 65535) = true ∧ wellFormed (.teardownDone badMgr 65535) = false ∧
    wellFormed (.poisonedReadReport wideMgr 0 0 0 0) = true ∧ wellFormed (.poisonedReadReport badMgr 0 0 0 0) = false ∧
    wellFormed (.directoryUpdate wideMgr 0 0) = true ∧ wellFormed (.directoryUpdate badMgr 0 0) = false ∧
    wellFormed (.recallFanOut wideMgr 0 0 0 0 0 0 0 0 [] 0) = true ∧ wellFormed (.recallFanOut badMgr 0 0 0 0 0 0 0 0 [] 0) = false ∧
    wellFormed (.recallAnswer wideMgr 0 0 0 []) = true ∧ wellFormed (.recallAnswer badMgr 0 0 0 []) = false ∧
    wellFormed (.registryUpdate wideMgr 65535 0 true) = true ∧ wellFormed (.registryUpdate badMgr 65535 0 true) = false ∧
    wellFormed (.acknowledge wideMgr 0) = true ∧ wellFormed (.acknowledge badMgr 0) = false ∧
    wellFormed (.checkpointNotice wideMgr 1) = true ∧ wellFormed (.checkpointNotice badMgr 1) = false ∧
    wellFormed (.checkpointAnswer wideMgr 0 0 0 0) = true ∧ wellFormed (.checkpointAnswer badMgr 0 0 0 0) = false ∧
    wellFormed (.switchOver wideMgr { tenant := 65536, model := 0 }) = false ∧
    wellFormed (.teardown wideMgr 65536) = false ∧
    wellFormed (.teardownDone wideMgr 65536) = false ∧
    wellFormed (.registryUpdate wideMgr 65536 0 true) = false := by decide +kernel

/-- Cores are those of Table 18-1, sources 0 to 255, priorities 0 to 15, bases of 48 bits. -/
theorem test_wellFormed_cores :
    wellFormed (.watchdogWrite { cls := 0, unit := 0, pos := 0 }) = true ∧
    wellFormed (.watchdogWrite { cls := 2, unit := 1, pos := 0 }) = true ∧
    wellFormed (.watchdogWrite { cls := 3, unit := 3, pos := 8 }) = true ∧
    wellFormed (.watchdogWrite { cls := 0, unit := 2, pos := 0 }) = false ∧
    wellFormed (.watchdogWrite { cls := 2, unit := 1, pos := 1 }) = false ∧
    wellFormed (.watchdogWrite { cls := 3, unit := 4, pos := 0 }) = false ∧
    wellFormed (.watchdogWrite { cls := 3, unit := 0, pos := 9 }) = false ∧
    wellFormed (.watchdogWrite { cls := 4, unit := 0, pos := 0 }) = false ∧
    wellFormed (.coreFault { cls := 3, unit := 0, pos := 8 } .illegal) = true ∧ wellFormed (.coreFault { cls := 3, unit := 0, pos := 9 } .illegal) = false ∧
    wellFormed (.watchdogWrite { cls := 3, unit := 0, pos := 8 }) = true ∧ wellFormed (.watchdogWrite { cls := 3, unit := 0, pos := 9 }) = false ∧
    wellFormed (.watchdogHalfPeriod { cls := 3, unit := 0, pos := 8 }) = true ∧ wellFormed (.watchdogHalfPeriod { cls := 3, unit := 0, pos := 9 }) = false ∧
    wellFormed (.watchdogExpiry { cls := 3, unit := 0, pos := 8 }) = true ∧ wellFormed (.watchdogExpiry { cls := 3, unit := 0, pos := 9 }) = false ∧
    wellFormed (.coreWait { cls := 3, unit := 0, pos := 8 } true) = true ∧ wellFormed (.coreWait { cls := 3, unit := 0, pos := 9 } true) = false ∧
    wellFormed (.meterAlarm { cls := 3, unit := 0, pos := 8 }) = true ∧ wellFormed (.meterAlarm { cls := 3, unit := 0, pos := 9 }) = false ∧
    wellFormed (.eventSourceFire { cls := 3, unit := 0, pos := 8 } 255) = true ∧ wellFormed (.eventSourceFire { cls := 3, unit := 0, pos := 8 } 256) = false ∧ wellFormed (.eventSourceFire { cls := 3, unit := 0, pos := 9 } 255) = false ∧
    wellFormed (.evcEosWrite { cls := 3, unit := 0, pos := 8 } 255 true) = true ∧ wellFormed (.evcEosWrite { cls := 3, unit := 0, pos := 8 } 256 true) = false ∧ wellFormed (.evcEosWrite { cls := 3, unit := 0, pos := 9 } 255 true) = false ∧
    wellFormed (.srcCfgSet { cls := 3, unit := 0, pos := 8 } 255 15 ⟨true, true, true⟩ false) = true ∧ wellFormed (.srcCfgSet { cls := 3, unit := 0, pos := 8 } 256 15 ⟨true, true, true⟩ false) = false ∧ wellFormed (.srcCfgSet { cls := 3, unit := 0, pos := 9 } 255 15 ⟨true, true, true⟩ false) = false ∧
    wellFormed (.srcCfgSet { cls := 3, unit := 0, pos := 8 } 0 0 ⟨true, true, true⟩ false) = true ∧ wellFormed (.srcCfgSet { cls := 3, unit := 0, pos := 8 } 255 16 ⟨true, true, true⟩ false) = false ∧ wellFormed (.srcCfgSet { cls := 3, unit := 0, pos := 9 } 0 0 ⟨true, true, true⟩ false) = false ∧
    wellFormed (.srcCfgPendingClear { cls := 3, unit := 0, pos := 8 } 255 15 true true) = true ∧ wellFormed (.srcCfgPendingClear { cls := 3, unit := 0, pos := 8 } 256 15 true true) = false ∧ wellFormed (.srcCfgPendingClear { cls := 3, unit := 0, pos := 9 } 255 15 true true) = false ∧
    wellFormed (.srcCfgPendingClear { cls := 3, unit := 0, pos := 8 } 0 0 true true) = true ∧ wellFormed (.srcCfgPendingClear { cls := 3, unit := 0, pos := 8 } 255 16 true true) = false ∧ wellFormed (.srcCfgPendingClear { cls := 3, unit := 0, pos := 9 } 0 0 true true) = false ∧
    wellFormed (.evcDeliverWrite { cls := 3, unit := 0, pos := 8 } true 281474976710655 true) = true ∧ wellFormed (.evcDeliverWrite { cls := 3, unit := 0, pos := 8 } true 281474976710656 true) = false ∧ wellFormed (.evcDeliverWrite { cls := 3, unit := 0, pos := 9 } true 281474976710655 true) = false := by decide +kernel

/-- A runner line in its widths (Table 1-5a). -/
def wideLine : RunnerLine := { runner := 11, bundle := 31, crc := 65535, legal := true, seq := 255, kind := 15, data := 0#512, badGroup := none }

/-- Runner lines keep the widths of Table 1-5a. -/
theorem test_wellFormed_lines :
    wellFormed (.runnerLineReceived wideLine) = true ∧
    wellFormed (.runnerLineReceived { wideLine with runner := 12 }) = false ∧
    wellFormed (.runnerLineReceived { wideLine with bundle := 32 }) = false ∧
    wellFormed (.runnerLineReceived { wideLine with crc := 65536 }) = false ∧
    wellFormed (.runnerLineReceived { wideLine with seq := 256 }) = false ∧
    wellFormed (.runnerLineReceived { wideLine with kind := 16 }) = false := by decide +kernel

/-! ### Decoding -/

/-- No row of the table is given bits (log entry 2), so no word spells a command and none is put in front of the queue. -/
theorem test_decode_none (nbits w : Nat) (s : State) : decodeTableWord nbits w = none ∧ s.withFetchWord nbits w = s := ⟨rfl, rfl⟩

/-! ### Figures of the manual -/

/-- The check value of R88. -/
theorem test_crc32c : crc32c [0x31, 0x32, 0x33, 0x34, 0x35, 0x36, 0x37, 0x38, 0x39] = 0xE3069283 := by decide +kernel

/-- "At 100 °C and a target of 0.75 V, for example, the cap is 0.65 V" (R375); below 95 °C there is none, and none is below 0.55 V. -/
theorem test_thermal_cap :
    thermalCap 750 100 = some 650 ∧ thermalCap 750 94 = none ∧ thermalCap 750 95 = some 750 ∧ thermalCap 750 120 = some 550 := by decide

/-- The hold-up bound with defaults: 11.6 × 10^9 bytes with two chill modules, 5.8 × 10^9 with one (chapter 12, the hold-up reserve). -/
theorem test_hold_up_bound :
    holdUpFits ready 11600000000 = true ∧ holdUpFits ready 11600000001 = false ∧
    holdUpFits { ready with dev := { ready.dev with chill := [true, false] } } 5800000000 = true ∧
    holdUpFits { ready with dev := { ready.dev with chill := [true, false] } } 5800000001 = false := by decide +kernel

/-- A GENERATE of sequence 41 resent finds 41 in the window, pending (chapter 3, Duplicates). -/
theorem test_duplicate_pending :
    windowVerdict (windowEnter {} 41 4) 41 = .duplicate { seq := 41, opcode := 4 } ∧ windowVerdict (windowEnter {} 41 4) 42 = .fresh := by decide

/-- Placing a block: a block that would end below position 5,077 of a ring of 2^12 needs 981 released; positions up to 4,095 have lap bit 1 and
those from 4,096 on lap bit 0 (chapter 3, the tap). -/
theorem test_placing_a_block :
    (let wait : Fn := { id := 0, ring := some (0, 12), next := 5073, released := 980
                        backlog := [{ flask := 2, pour := 77310, recs := List.replicate 3 (.continuation 5 0 [], 0) }] }
     let s := drainBacklog 0 { bare with fns := [wait] }
     let t := drainBacklog 0 { bare with fns := [{ wait with released := 981 }] }
     (fnOf s 0).next = 5073 ∧ (fnOf s 0).backlog.length = 1 ∧ (fnOf t 0).next = 5077 ∧ (fnOf t 0).backlog = []) ∧
    lapBit 12 4095 = true ∧ lapBit 12 4096 = false := by decide +kernel

/-- The calibration of the sustained-prefill example (chapter 12): one SC die counted, its five steps up to the target. -/
def prefillLedger : State :=
  { ready with
    dies := [{ num := 0 }]
    ledger := { calib := [(0, 550, 520000, 835, 80000), (0, 600, 660000, 994, 95000), (0, 650, 780000, 1167, 110000),
                          (0, 700, 890000, 1353, 130000), (0, 750, 1000000, 1553, 150000)] } }

/-- "The ledger plans 0.70 V with an allotment of 13,696 µs" for 43,264 µs of generation and 64,000 µs of pour budget (chapter 12). -/
theorem test_plan_sustained_prefill :
    ledgerPlan prefillLedger { temps := [], window := [(936000, 1872000)], fixedMw := 600000, fetchBytes := 0, t1Bytes := 0, elapsedUs := 0 } true 43264000 64000 0 =
      { mv := 700, allot := 13696000 } := by decide +kernel

/-- The SLC limits of a namespace of 200,000 groups, in thousandths of a group (chapter 8). -/
theorem test_slc_limit :
    slcLimit 200000 190000 = 12000000 ∧ slcLimit 200000 14000 = 5000000 ∧ slcLimit 200000 5000 = 1000000 := by decide

/-- A page of 8 heads of dimension 128 is 32,768 bytes at FP8 and 17,408 in MXFP4 form (chapter 2). -/
theorem test_page_sizes :
    formBytes { prog0 with headDimCode := 1 } 0 8 = 32768 ∧ formBytes { prog0 with headDimCode := 1 } 2 8 = 17408 := by decide

/-- The test access port shifts out each part's identification (R478). -/
theorem test_idcode :
    (∃ t, exec .idcode State.reset = .next t ∧ t.pins.tapOut = some 0x18840967) ∧
    ∃ t, exec .idcode { State.reset with part := .tsn4420 } = .next t ∧ t.pins.tapOut = some 0x14420967 := ⟨⟨_, rfl, rfl⟩, _, rfl, rfl⟩

/-- Of 200 lines from T2 address 4,096 over two paths, 4 KiB to each in turn: the second path takes the first and the third 4 KiB, the first path
the second and what is left (R396). -/
theorem test_lines_go_to_paths_in_turn : pathLines 4096 200 2 0 = 64 + 8 ∧ pathLines 4096 200 2 1 = 64 + 64 := by decide +kernel

/-- Each field of a header slot at its bits (Table 13-7); a write of one line takes five slots (R398). -/
theorem test_header_slot :
    headerSlot { kind := 1, cls := 6, count := 64, dest := 5, source := 9, window := 255, offset := 7, tag := 3, epoch := 2, reason := 4 } =
      BitVec.ofNat 128 (1 * 2 ^ 124 + 6 * 2 ^ 121 + 63 * 2 ^ 115 + 5 * 2 ^ 103 + 9 * 2 ^ 91 + 255 * 2 ^ 83 + 7 * 2 ^ 51 + 3 * 2 ^ 35 + 2 * 2 ^ 19 + 4 * 2 ^ 16) ∧
    (unitSlots { port := 0, hdr := { kind := 1, cls := 0, count := 1, dest := 0, source := 0, window := 0, offset := 0, tag := 0, epoch := 0, reason := 0 }
                 lines := [0] }).length = 5 := by decide +kernel

end Sys2Proof.Tests
end

section
/-! The runners: what a line, a resend request and a sparing notice make of the bundle direction that they name, and what they leave (R35 to R38). -/

namespace Sys2Proof.Machine

/-! ### A bundle looked up -/

/-- A lookup of a bundle reads the bundles alone. -/
theorem bundleOf_congr {s t : State} (h : t.links.bundles = s.links.bundles) (r b : Nat) (d : Bool) : bundleOf t r b d = bundleOf s r b d := by
  unfold bundleOf
  rw [h]

@[simp] theorem bundleOf_healthEvent (die data r b : Nat) (d : Bool) (s : State) : bundleOf (healthEvent die data s) r b d = bundleOf s r b d := rfl

/-- `x` stands under the names of direction `d` of bundle `b` of runner `r`. -/
def StandsAt (r b : Nat) (d : Bool) (x : Bundle) : Prop := x.runner = r ∧ x.bundle = b ∧ x.dir = d

/-- What a lookup finds stands under the names that it was looked up by. -/
theorem standsAt_bundleOf (s : State) (r b : Nat) (d : Bool) : StandsAt r b d (bundleOf s r b d) := by
  unfold bundleOf
  cases e : s.links.bundles.find? fun x => x.runner == r && x.bundle == b && x.dir == d with
  | none => exact ⟨rfl, rfl, rfl⟩
  | some x =>
    obtain ⟨⟨hr, hb⟩, hd⟩ : (x.runner = r ∧ x.bundle = b) ∧ x.dir = d := by simpa using List.find?_some e
    exact ⟨hr, hb, hd⟩

/-- A bundle direction put in place is found under its names; every other is found as it was. -/
theorem bundleOf_setBundle {r b : Nat} {d : Bool} (x : Bundle) (h : StandsAt r b d x) (s : State) (r' b' : Nat) (d' : Bool) :
    bundleOf (setBundle x s) r' b' d' = if r' = r ∧ b' = b ∧ d' = d then x else bundleOf s r' b' d' := by
  obtain ⟨rfl, rfl, rfl⟩ := h
  split
  · rename_i h
    obtain ⟨rfl, rfl, rfl⟩ := h
    exact bundleOf_setBundle_self x s
  · rename_i h
    exact bundleOf_setBundle_other x s h

/-- A bundle direction put in place is found there. -/
theorem bundleOf_setBundle_at {r b : Nat} {d : Bool} (x : Bundle) (h : StandsAt r b d x) (s : State) : bundleOf (setBundle x s) r b d = x := by
  rw [bundleOf_setBundle x h, if_pos ⟨rfl, rfl, rfl⟩]

/-! ### A line received -/

/-- The state with the line's pair of engines mapped, where the line carries data (R35). -/
def withPair (l : RunnerLine) (s : State) : State := if l.kind = 0 then mapPair l s else s

theorem mapPair_frame (l : RunnerLine) (s : State) :
    mapPair l s = { s with links := { s.links with pairs := (mapPair l s).links.pairs } } := by
  unfold mapPair
  split <;> rfl

theorem withPair_frame (l : RunnerLine) (s : State) :
    withPair l s = { s with links := { s.links with pairs := (withPair l s).links.pairs } } := by
  unfold withPair
  split
  · exact mapPair_frame l s
  · rfl

@[simp] theorem bundleOf_withPair (l : RunnerLine) (r b : Nat) (d : Bool) (s : State) : bundleOf (withPair l s) r b d = bundleOf s r b d :=
  bundleOf_congr (by rw [withPair_frame]) r b d

/-- A pair of engines mapped to a line's bundle, or to none, is mapped to it once the line has come. -/
theorem pairBundle_mapPair {l : RunnerLine} {s : State} (h : pairBundle l s = l.bundle) : pairBundle l (mapPair l s) = l.bundle := by
  unfold mapPair
  split
  · exact h
  · rename_i unmapped
    unfold pairBundle
    dsimp only
    rw [List.find?_append, List.find?_eq_none.mpr (by simpa using unmapped)]
    simp

/-- After a data line that travels, its pair of engines is mapped to its bundle. -/
theorem pairBundle_withPair {l : RunnerLine} {s : State} (ht : lineTravels s l = true) (hk : l.kind = 0) : pairBundle l (withPair l s) = l.bundle := by
  simp only [lineTravels, Bool.and_eq_true, Bool.or_eq_true, bne_iff_ne, ne_eq, beq_iff_eq] at ht
  rw [withPair, if_pos hk]
  exact pairBundle_mapPair (ht.2.resolve_left fun c => c hk)

/-- The direction of a bundle after a good line (R35, R36). -/
def afterGood (l : RunnerLine) (x : Bundle) : Bundle :=
  { x with lines := x.lines + 1, sent := sentLine l x, expect := (x.expect + 1) % 256, replay := x.replay.filter (· != l.seq)
           delivered := if l.kind = 0 then x.delivered ++ [(l.src, l.dst, l.data)] else x.delivered }

/-- The failed checks of a direction whose next line fails, with the one of that line where it blames a group (R37). -/
def checksAfterBad (l : RunnerLine) (x : Bundle) : List (Nat × Nat) :=
  match l.badGroup with
  | none => x.checks
  | some g => (x.checks ++ [(g, x.lines + 1)]).filter fun c => decide (x.lines + 1 < c.2 + 1048576)

/-- The direction of a bundle after a bad line (R36, R37). -/
def afterBad (l : RunnerLine) (x : Bundle) : Bundle :=
  { x with lines := x.lines + 1, sent := sentLine l x, resends := x.resends ++ [(x.expect, !l.waiting)], checks := checksAfterBad l x }

theorem sentLine_length_le (l : RunnerLine) (x : Bundle) : (sentLine l x).length ≤ 64 := by
  unfold sentLine
  extract_lets e all
  rw [List.length_drop]
  omega

/-- The check that a bad line adds is among those kept. -/
theorem mem_checksAfterBad {l : RunnerLine} {g : Nat} (h : l.badGroup = some g) (x : Bundle) : (g, x.lines + 1) ∈ checksAfterBad l x := by
  simp only [checksAfterBad, h, List.mem_filter, List.mem_append, List.mem_singleton, or_true, true_and, decide_eq_true_eq]
  omega

theorem exec_line_good {l : RunnerLine} {s : State} (ht : lineTravels s l = true) (hg : lineGood (bundleOf s l.runner l.bundle l.dir) l = true) :
    exec (.runnerLineReceived l) s = .next (setBundle (afterGood l (bundleOf s l.runner l.bundle l.dir)) (withPair l s)) := by
  show execRunnerLineReceived l s = _
  unfold execRunnerLineReceived
  rw [if_pos ht]
  exact if_pos hg

/-- A bad line leaves its direction refused, and has the group that it blames spared after the third failed check. -/
theorem exec_line_bad {l : RunnerLine} {s : State} (ht : lineTravels s l = true) (hg : lineGood (bundleOf s l.runner l.bundle l.dir) l = false) :
    let y := afterBad l (bundleOf s l.runner l.bundle l.dir)
    let u := setBundle y (withPair l s)
    exec (.runnerLineReceived l) s =
      .next (l.badGroup.elim u fun g => if 3 ≤ recentChecks y g then noticeSpare l.runner l.bundle l.dir g u else u) := by
  have bad : ¬ lineGood (bundleOf s l.runner l.bundle l.dir) l = true := by simp [hg]
  show execRunnerLineReceived l s = _
  unfold execRunnerLineReceived
  rw [if_pos ht]
  refine (if_neg bad).trans ?_
  cases hb : l.badGroup <;> simp only [afterBad, checksAfterBad, hb] <;> rfl

/-- What a line puts in place stands at its direction; every other direction, and all but the bundles and the pairs, is as it was. -/
theorem setBundle_withPair {l : RunnerLine} {s : State} (x : Bundle) (h : StandsAt l.runner l.bundle l.dir x) :
    let t := setBundle x (withPair l s)
    bundleOf t l.runner l.bundle l.dir = x ∧
      (∀ r b d, (r, b, d) ≠ (l.runner, l.bundle, l.dir) → bundleOf t r b d = bundleOf s r b d) ∧
      t = { s with links := { s.links with bundles := t.links.bundles, pairs := t.links.pairs } } := by
  refine ⟨bundleOf_setBundle_at x h _, fun r b d other => ?_, ?_⟩
  · rw [bundleOf_setBundle x h, if_neg (by simpa using other), bundleOf_withPair]
  · dsimp only
    unfold setBundle
    rw [withPair_frame]

/-! ### Sparing and fencing -/

/-- A direction with a group shifted onto a spare (R37). -/
def withSpared (g : Nat) (x : Bundle) : Bundle := { x with spared := x.spared ++ [g], checks := x.checks.filter fun c => c.1 != g }

/-- A direction whose receiver has named a group to its sender (R37). -/
def withNotice (g : Nat) (x : Bundle) : Bundle := { x with notices := x.notices ++ [g] }

/-- A direction with the lines to send again (R36). -/
def withReplay (q : List Nat) (x : Bundle) : Bundle := { x with replay := q }

/-- A direction fenced (R38). -/
def withFence (x : Bundle) : Bundle := { x with fenced := true }

/-- What the sender of a direction sends again at a sparing notice: what the receiver has not taken, unless the bundle is fenced (R37, R38). -/
def untaken (x : Bundle) : List Nat := if x.fenced then [] else resendFrom x x.expect

/-- A group not yet spared of a direction with a spare free is shifted, with a health event (R37). -/
theorem spareGroup_shifts {r b g : Nat} {d : Bool} {s : State} {x : Bundle} (hx : bundleOf s r b d = x) (hf : x.fenced = false) (hg : g ∉ x.spared)
    (hl : x.spared.length < 8) :
    spareGroup r b d g s = healthEvent (leadDie s) (r * 65536 + b * 1024 + bit d * 512 + g) (setBundle (withSpared g x) s) := by
  unfold spareGroup
  simp [hx, hf, hg, Nat.not_le.mpr hl, withSpared]

/-- A group not yet spared of a direction with no spare free fences the bundle (R38). -/
theorem spareGroup_fences {r b g : Nat} {d : Bool} {s : State} {x : Bundle} (hx : bundleOf s r b d = x) (hf : x.fenced = false) (hg : g ∉ x.spared)
    (hl : 8 ≤ x.spared.length) : spareGroup r b d g s = fenceBundle r b s := by
  unfold spareGroup
  simp [hx, hf, hg, hl]

/-- The receiver names a group not yet spared and shifts it (R37). -/
theorem noticeSpare_names {r b g : Nat} {d : Bool} {s : State} {x : Bundle} (hx : bundleOf s r b d = x) (hf : x.fenced = false) (hg : g ∉ x.spared) :
    noticeSpare r b d g s = spareGroup r b d g (setBundle (withNotice g x) s) := by
  unfold noticeSpare
  simp [hx, hf, hg, withNotice]

/-- Both directions of a bundle marked fenced, its pairs of engines free. -/
def markFenced (r b : Nat) (s : State) : State :=
  let s0 := setBundle (withFence (bundleOf s r b true)) (setBundle (withFence (bundleOf s r b false)) s)
  { s0 with links := { s0.links with pairs := s0.links.pairs.filter fun p => !(p.runner == r && p.bundle == b) } }

theorem bundleOf_markFenced (r b r' b' : Nat) (d : Bool) (s : State) :
    bundleOf (markFenced r b s) r' b' d = if r' = r ∧ b' = b then withFence (bundleOf s r b d) else bundleOf s r' b' d := by
  have put : ∀ (e : Bool) (u : State), bundleOf (setBundle (withFence (bundleOf s r b e)) u) r' b' d =
      if r' = r ∧ b' = b ∧ d = e then withFence (bundleOf s r b e) else bundleOf u r' b' d :=
    fun e u => bundleOf_setBundle (withFence (bundleOf s r b e)) (standsAt_bundleOf s r b e) u r' b' d
  show bundleOf (setBundle (withFence (bundleOf s r b true)) (setBundle (withFence (bundleOf s r b false)) s)) r' b' d = _
  rw [put, put]
  by_cases h : r' = r ∧ b' = b <;> cases d <;> simp [h]

/-- A bundle of a runner that has another one not fenced is fenced in both directions, with a health event, and no runner is lost (R38). -/
theorem fenceBundle_marks {r b k : Nat} {s : State} (hf : (bundleOf s r b false).fenced = false) (hk : k < runnerBundles s.part r) (hb : k ≠ b)
    (ho : (bundleOf s r k false).fenced = false) : fenceBundle r b s = healthEvent (leadDie s) (r * 65536 + b) (markFenced r b s) := by
  have left : ((List.range (runnerBundles s.part r)).all fun j =>
      (bundleOf (healthEvent (leadDie s) (r * 65536 + b) (markFenced r b s)) r j false).fenced) = false := by
    rw [List.all_eq_false]
    exact ⟨k, List.mem_range.mpr hk, by simp [bundleOf_markFenced, hb, ho]⟩
  unfold fenceBundle
  rw [if_neg (by simp [hf])]
  exact if_neg (by rw [Bool.not_eq_true]; exact left)

theorem exec_stuck_wire {r b : Nat} {s : State} (hb : hasBundle s r b = true) (d : Bool) (g : Nat) :
    exec (.runnerStuckWire r ⟨b, d⟩ g) s = .next (noticeSpare r b d g s) := by
  show execRunnerStuckWire r ⟨b, d⟩ g s = _
  exact if_pos hb

theorem exec_sparing_notice {r b : Nat} {d : Bool} {s : State} (hb : hasBundle s r b = true) (hf : (bundleOf s r b d).fenced = false) (g : Nat) :
    let u := spareGroup r b d g s
    exec (.runnerSparingNotice r ⟨b, d⟩ g) s = .next (setBundle (withReplay (untaken (bundleOf u r b d)) (bundleOf u r b d)) u) := by
  show execRunnerSparingNotice r ⟨b, d⟩ g s = _
  exact if_neg (by simp [hb, hf])

theorem exec_resend_request {r b : Nat} {d : Bool} {s : State} (hb : hasBundle s r b = true) (hf : (bundleOf s r b d).fenced = false) (seq : Nat) :
    exec (.runnerResendRequest r ⟨b, d⟩ seq) s =
      .next (setBundle (withReplay (resendFrom (bundleOf s r b d) seq) (bundleOf s r b d)) s) := by
  show execRunnerResendRequest r ⟨b, d⟩ seq s = _
  exact if_neg (by simp [hb, hf])

theorem stuck_wire_shifts {r b g : Nat} {d : Bool} {s : State} {x : Bundle} (hb : hasBundle s r b = true) (hx : bundleOf s r b d = x)
    (hf : x.fenced = false) (hg : g ∉ x.spared) (hl : x.spared.length < 8) :
    ∃ t, exec (.runnerStuckWire r ⟨b, d⟩ g) s = .next t ∧ bundleOf t r b d = withSpared g (withNotice g x) ∧
      t.dev.events = s.dev.events + 1 ∧ t.sess = s.sess ∧ t.sched = s.sched := by
  have names : StandsAt r b d x := hx ▸ standsAt_bundleOf s r b d
  have named : bundleOf (setBundle (withNotice g x) s) r b d = withNotice g x :=
    bundleOf_setBundle_at (withNotice g x) names s
  refine ⟨_, exec_stuck_wire hb d g, ?_⟩
  rw [noticeSpare_names hx hf hg, spareGroup_shifts (x := withNotice g x) named hf hg hl]
  exact ⟨bundleOf_setBundle_at (withSpared g (withNotice g x)) names _, rfl, rfl, rfl⟩

theorem sparing_notice_shifts {r b g : Nat} {d : Bool} {s : State} {x : Bundle} (hb : hasBundle s r b = true) (hx : bundleOf s r b d = x)
    (hf : x.fenced = false) (hg : g ∉ x.spared) (hl : x.spared.length < 8) :
    ∃ t, exec (.runnerSparingNotice r ⟨b, d⟩ g) s = .next t ∧ bundleOf t r b d = withReplay (resendFrom x x.expect) (withSpared g x) ∧
      t.dev.events = s.dev.events + 1 ∧ t.sess = s.sess ∧ t.sched = s.sched := by
  have names : StandsAt r b d x := hx ▸ standsAt_bundleOf s r b d
  have spared : bundleOf (spareGroup r b d g s) r b d = withSpared g x := by
    rw [spareGroup_shifts hx hf hg hl]
    exact bundleOf_setBundle_at (withSpared g x) names s
  have again : untaken (withSpared g x) = resendFrom x x.expect := if_neg (by simp [withSpared, hf])
  refine ⟨_, exec_sparing_notice hb (hx ▸ hf) g, ?_⟩
  rw [spared, again, spareGroup_shifts hx hf hg hl]
  exact ⟨bundleOf_setBundle_at (withReplay _ (withSpared g x)) names _, rfl, rfl, rfl⟩

theorem ninth_spare_fences {r b g k : Nat} {d : Bool} {s : State} {x : Bundle} (hb : hasBundle s r b = true) (hx : bundleOf s r b d = x)
    (hf : x.fenced = false) (h0 : (bundleOf s r b false).fenced = false) (hg : g ∉ x.spared) (hl : 8 ≤ x.spared.length)
    (hk : k < runnerBundles s.part r) (hkb : k ≠ b) (ho : (bundleOf s r k false).fenced = false) :
    ∃ t, exec (.runnerSparingNotice r ⟨b, d⟩ g) s = .next t ∧ (∀ e, (bundleOf t r b e).fenced = true) ∧ (bundleOf t r b d).replay = [] ∧
      t.dev.events = s.dev.events + 1 ∧ t.sess = s.sess ∧ t.links.lostRunners = s.links.lostRunners := by
  have marks : spareGroup r b d g s = healthEvent (leadDie s) (r * 65536 + b) (markFenced r b s) :=
    (spareGroup_fences hx hf hg hl).trans (fenceBundle_marks h0 hk hkb ho)
  have fenced : ∀ e, bundleOf (spareGroup r b d g s) r b e = withFence (bundleOf s r b e) := fun e => by
    rw [marks, bundleOf_healthEvent, bundleOf_markFenced, if_pos ⟨rfl, rfl⟩]
  have names : StandsAt r b d (bundleOf s r b d) := standsAt_bundleOf s r b d
  refine ⟨_, exec_sparing_notice hb (hx ▸ hf) g, fun e => ?_, ?_, ?_⟩
  · rw [fenced, bundleOf_setBundle (withReplay _ (withFence (bundleOf s r b d))) names]
    split
    · rfl
    · rw [fenced]; rfl
  · rw [fenced, bundleOf_setBundle_at (withReplay _ (withFence (bundleOf s r b d))) names]
    rfl
  · rw [marks]
    exact ⟨rfl, rfl, rfl⟩

/-- Settles O49: each command's own equation (a good line, a bad one, a resend request, the sparing of a group, the fencing of a bundle), read off
field by field at the direction that it names. -/
theorem runnersCarryLines : Obligations.RunnersCarryLines := by
  unfold Obligations.RunnersCarryLines
  refine ⟨fun l s x ht hx => ⟨fun hg => ?good, fun hg => ?bad⟩, fun l s ht => ?stays, fun r b seq d s x hb hx hf => ?resend,
    fun r b g d s x hb hx hf hg hl => ⟨?stuck, ?notice⟩,
    fun r b g d s x hb hx hf h0 hg hl ⟨k, hk, hkb, ho⟩ => ninth_spare_fences hb hx hf h0 hg hl hk hkb ho⟩
  case good =>
    subst hx
    obtain ⟨here, others, frame⟩ := setBundle_withPair (s := s) (afterGood l _) (standsAt_bundleOf s l.runner l.bundle l.dir)
    refine ⟨_, _, exec_line_good ht hg, here, rfl, ?_, rfl, sentLine_length_le _ _, rfl, rfl, rfl, fun hk => pairBundle_withPair ht hk, others, frame⟩
    by_cases hk : l.kind = 0 <;> simp [afterGood, hk]
  case bad =>
    subst hx
    obtain ⟨here, others, frame⟩ := setBundle_withPair (s := s) (afterBad l _) (standsAt_bundleOf s l.runner l.bundle l.dir)
    have run := exec_line_bad ht hg
    refine ⟨_, _, here, rfl, rfl, rfl, rfl, rfl, others, frame, fun h => ⟨?_, ?_⟩, fun g h => ⟨mem_checksAfterBad h _, fun few => ?_, fun many => ?_⟩⟩
    · simp [afterBad, checksAfterBad, h]
    · rw [run, h]; rfl
    · rw [run, h]
      exact congrArg _ (if_neg (Nat.not_le.mpr few))
    · rw [run, h]
      exact congrArg _ (if_pos many)
  case stays => exact if_neg (by simp [ht])
  case resend =>
    subst hx
    have names := standsAt_bundleOf s r b d
    exact ⟨_, exec_resend_request hb hf seq, bundleOf_setBundle_at (withReplay (resendFrom _ seq) (bundleOf s r b d)) names s, rfl⟩
  case stuck =>
    obtain ⟨t, run, here, rest⟩ := stuck_wire_shifts hb hx hf hg hl
    exact ⟨t, _, run, here, rfl, rfl, hf, rfl, rest⟩
  case notice =>
    obtain ⟨t, run, here, rest⟩ := sparing_notice_shifts hb hx hf hg hl
    exact ⟨t, _, run, here, rfl, rfl, rfl, hf, rest⟩

end Sys2Proof.Machine
end

section
/-! The pour in flight through what a boundary does to sessions: which operations leave the scheduler, or the pour in flight, as it is. -/

namespace Sys2Proof.Machine

/-! ### What leaves the scheduler as it is -/

@[simp] theorem sched_ite (c : Prop) [Decidable c] (s t : State) : (if c then s else t).sched = if c then s.sched else t.sched :=
  apply_ite State.sched c s t

/-- A run over a list leaves as it is what every turn leaves as it is. -/
theorem forEach_same {α β : Type} (g : State → β) {f : α → State → State} (h : ∀ x t, g (f x t) = g t) (l : List α) (s : State) :
    g (forEach l f s) = g s := by
  unfold forEach
  induction l generalizing s with
  | nil => rfl
  | cons x l ih => exact (ih (f x s)).trans (h x s)

@[simp] theorem forEach_sched {α : Type} {f : α → State → State} (h : ∀ x t, (f x t).sched = t.sched) (l : List α) (s : State) :
    (forEach l f s).sched = s.sched := forEach_same State.sched h l s

@[simp] theorem onWindow_sched (r : WinRef) (f : Window → Window) (s : State) : (onWindow r f s).sched = s.sched := by cases r <;> rfl
@[simp] theorem settle_sched (r : WinRef) (seq : Nat) (o : OCode) (s : State) : (settle r seq o s).sched = s.sched := onWindow_sched _ _ _
@[simp] theorem emitOut_sched (b : Bool) (x : Session) (o : OutRec) (s : State) : (emitOut b x o s).sched = s.sched := rfl
@[simp] theorem emitSes_sched (b : Bool) (x : Session) (r : SesRec) (s : State) : (emitSes b x r s).sched = s.sched := rfl
@[simp] theorem arm_sched (h : Nat) (s : State) : (arm h s).sched = s.sched := rfl
@[simp] theorem stopWaiting_sched (h : Nat) (s : State) : (stopWaiting h s).sched = s.sched := rfl
@[simp] theorem dropQueries_sched (h : Nat) (s : State) : (dropQueries h s).sched = s.sched := rfl
@[simp] theorem dropAnchors_sched (h r : Nat) (s : State) : (dropAnchors h r s).sched = s.sched := rfl
@[simp] theorem holdFetches_sched (on : Bool) (p : Pour) (s : State) : (holdFetches on p s).sched = s.sched := rfl
@[simp] theorem endStream_sched (c : Carried) (s : State) : (endStream c s).sched = s.sched := rfl

@[simp] theorem anchor_sched (kind h : Nat) (s : State) : (anchor kind h s).sched = s.sched := by
  unfold anchor
  split <;> rfl

@[simp] theorem answerAsk_sched (b : Bool) (h : Nat) (a : Ask) (o : OCode) (d0 : Nat) (s : State) : (answerAsk b h a o d0 s).sched = s.sched := by
  unfold answerAsk
  split <;> simp

@[simp] theorem flushHeld_sched (b : Bool) (x : Session) (r : Request) (s : State) : (flushHeld b x r s).sched = s.sched := by
  simp [flushHeld]

@[simp] theorem answerGone_sched (x : Session) (c : Instr) (s : State) : (answerGone x c s).sched = s.sched := by
  unfold answerGone
  split <;> rfl

@[simp] theorem countFixes_sched (t n : Nat) (s : State) : (countFixes t n s).sched = s.sched := by simp [countFixes]

@[simp] theorem countPressure_sched (demotion : Bool) (partition : Nat) (s : State) : (countPressure demotion partition s).sched = s.sched := by
  simp [countPressure]

@[simp] theorem endRequest_sched (b : Bool) (h : Nat) (o : OCode) (ans : Option Ask) (deliver : Bool) (d0 d1 : Nat) (s : State) :
    (endRequest b h o ans deliver d0 d1 s).sched = s.sched := by
  unfold endRequest
  split
  · rfl
  · split
    · rfl
    · cases ans <;> simp

/-! #### The rack -/

@[simp] theorem sendMgr_sched (peer kind handle : Nat) (body : List Nat) (records : List MapRecord) (bytes : List Byte) (s : State) :
    (sendMgr peer kind handle body records bytes s).sched = s.sched := rfl

@[simp] theorem tellDirectory_sched (h holder state : Nat) (s : State) : (tellDirectory h holder state s).sched = s.sched := by
  simp [tellDirectory, putDirectory]

@[simp] theorem abortMigration_sched (h : Nat) (r : MoveEnd) (s : State) : (abortMigration h r s).sched = s.sched := by
  unfold abortMigration
  split
  · rfl
  · simp

/-! #### Places in the tiers -/

@[simp] theorem releasePlaces_sched (cs : List Place) (s : State) : (releasePlaces cs s).sched = s.sched := by simp [releasePlaces]
@[simp] theorem takeFrame_sched (x : Session) (kib : Nat) (s : State) : (takeFrame x kib s).2.sched = s.sched := rfl
@[simp] theorem takeFrame2_sched (x : Session) (frame kib : Nat) (s : State) : (takeFrame2 x frame kib s).2.sched = s.sched := rfl
@[simp] theorem takeH_sched (tenant partition link kib : Nat) (s : State) : (takeH tenant partition link kib s).2.sched = s.sched := rfl

@[simp] theorem takeLower_sched (tenant pool kib : Nat) (s : State) : (takeLower tenant pool kib s).2.sched = s.sched := by
  unfold takeLower
  dsimp only
  split <;> rfl

@[simp] theorem seatPlace_sched (x : Session) (partition : Nat) (c : Place) (s : State) : (seatPlace x partition c s).2.sched = s.sched := by
  unfold seatPlace
  cases c.frame2 <;> simp [apply_ite Prod.snd]

@[simp] theorem issueHandle_sched (h : Nat) (s : State) : (issueHandle h s).2.sched = s.sched := by
  unfold issueHandle
  split
  · rfl
  · dsimp only
    split <;> rfl

@[simp] theorem seatPage_sched (h partition row layer : Nat) (s : State) : (seatPage h partition row layer s).sched = s.sched := by
  unfold seatPage
  split
  · rfl
  · split
    · simp [onPage, apply_ite Prod.snd]
    · rfl

@[simp] theorem seatBlk_sched (h partition : Nat) (b : Blk) (s : State) : (seatBlk h partition b s).sched = s.sched := by
  unfold seatBlk
  split
  · rfl
  · simp [onBlk, apply_ite Prod.snd]

@[simp] theorem seatLeaf_sched (h partition : Nat) (l : Leaf) (s : State) : (seatLeaf h partition l s).sched = s.sched := by
  unfold seatLeaf
  split
  · rfl
  · simp [onLeaf]

@[simp] theorem seat_sched (h : Nat) (s : State) : (seat h s).sched = s.sched := by
  unfold seat
  split
  · rfl
  · split
    · rfl
    · simp

@[simp] theorem discardWork_sched (w : Work) (s : State) : (discardWork w s).sched = s.sched := by simp [discardWork]

@[simp] theorem startStream_sched (k : Stream) (s : State) : (startStream k s).sched = s.sched := by simp [startStream]

@[simp] theorem startPoolStream_sched (pool a : Nat) (c : Carried) (lines : Nat) (s : State) : (startPoolStream pool a c lines s).sched = s.sched := by
  simp [startPoolStream]

@[simp] theorem streamFrozen_sched (h : Nat) (s : State) : (streamFrozen h s).sched = s.sched := by
  unfold streamFrozen
  split <;> simp

/-! #### The store -/

@[simp] theorem onHubStore_sched (h : Nat) (f : HubStore → HubStore) (s : State) : (onHubStore h f s).sched = s.sched := rfl
@[simp] theorem flushJournal_sched (h : Nat) (s : State) : (flushJournal h s).sched = s.sched := rfl
@[simp] theorem journal_sched (h : Nat) (r : JRec) (s : State) : (journal h r s).sched = s.sched := by simp [journal]
@[simp] theorem invalidate_sched (es : List Ext) (s : State) : (invalidate es s).sched = s.sched := rfl
@[simp] theorem deleteObjs_sched (hub : Nat) (which : Obj → Bool) (s : State) : (deleteObjs hub which s).sched = s.sched := by simp [deleteObjs]
@[simp] theorem issueObject_sched (hub : Nat) (s : State) : (issueObject hub s).2.sched = s.sched := by simp [issueObject]

@[simp] theorem reserveObject_sched (x : Session) (ingot quantised : Bool) (pages : Nat) (s : State) :
    (reserveObject x ingot quantised pages s).2.sched = s.sched := by simp [reserveObject]

@[simp] theorem freeSession_sched (h : Nat) (s : State) : (freeSession h s).sched = s.sched := by
  unfold freeSession
  split <;> simp [deleteSessObjs]

@[simp] theorem closeSession_sched (h : Nat) (s : State) : (closeSession h s).sched = s.sched := by
  have released : (releaseContent .closed h s).sched = s.sched := by
    unfold releaseContent
    split <;> simp [deleteSessObjs]
  simp [closeSession, released]

@[simp] theorem freeAllSpent_sched (s : State) : (freeAllSpent s).sched = s.sched := by simp [freeAllSpent]

@[simp] theorem abandonOp_sched (b : Bool) (h : Nat) (s : State) : (abandonOp b h s).sched = s.sched := by
  unfold abandonOp
  split
  · rfl
  · split
    · next ask _ => cases ask <;> simp
    · simp
    · rfl

@[simp] theorem cancelNow_sched (b : Bool) (a : Ask) (h : Nat) (s : State) : (cancelNow b a h s).sched = s.sched := by
  unfold cancelNow
  split <;> simp

/-! ### What leaves the pour in flight as it is, or its flask -/

@[simp] theorem stampQueue_pour (h : Nat) (s : State) : (stampQueue h s).sched.pour = s.sched.pour := by
  unfold stampQueue
  split
  · rfl
  · split <;> rfl

@[simp] theorem closeInput_pour (h : Nat) (s : State) : (closeInput h s).sched.pour = s.sched.pour := by
  unfold closeInput
  split
  · rfl
  · split
    · rfl
    · dsimp only
      split <;> simp

@[simp] theorem startDemotion_pour (pressure : Bool) (h : Nat) (s : State) : (startDemotion pressure h s).sched.pour = s.sched.pour := by
  unfold startDemotion
  split
  · rfl
  · simp [apply_ite Sched.pour]

@[simp] theorem parkFallback_pour (b : Bool) (o : OCode) (ask : Option Ask) (h : Nat) (s : State) :
    (parkFallback b o ask h s).sched.pour = s.sched.pour := by
  unfold parkFallback
  split
  · rfl
  · cases ask <;> simp [onNs, apply_ite Sched.pour]

@[simp] theorem startPark_pour (b quantise : Bool) (ask : Option Ask) (h : Nat) (s : State) :
    (startPark b quantise ask h s).sched.pour = s.sched.pour := by
  unfold startPark
  dsimp only
  split
  · simp
  · split <;> simp

/-- A slot masked keeps the pour in flight, its flask with it. -/
@[simp] theorem maskSlot_flask (h : Nat) (s : State) : (maskSlot h s).sched.pour.map Pour.flask = s.sched.pour.map Pour.flask := by
  have masked : (maskSlot h s).sched.pour = s.sched.pour.map fun p =>
      if p.step ≤ 7 then { p with works := p.works.map fun w => if w.handle = h then { w with barged := true } else w } else p := by
    simp [maskSlot]
  rw [masked]
  cases s.sched.pour with
  | none => rfl
  | some p => simp [apply_ite Pour.flask]

@[simp] theorem closeNow_flask (b : Bool) (a : Ask) (h : Nat) (s : State) :
    (closeNow b a h s).sched.pour.map Pour.flask = s.sched.pour.map Pour.flask := by
  unfold closeNow
  split
  · rfl
  · split
    · simp
    · dsimp only
      split
      · simp
      · split <;> simp

@[simp] theorem parkNow_flask (b : Bool) (a : Ask) (h : Nat) (s : State) :
    (parkNow b a h s).sched.pour.map Pour.flask = s.sched.pour.map Pour.flask := by
  unfold parkNow
  split
  · rfl
  · split
    · simp
    · split
      · dsimp only
        split <;> simp
      · simp

@[simp] theorem applyAsk_flask (b : Bool) (h : Nat) (a : Ask) (s : State) :
    (applyAsk b h a s).sched.pour.map Pour.flask = s.sched.pour.map Pour.flask := by
  unfold applyAsk
  split
  · rfl
  · dsimp only
    split
    · simp
    · split
      · simp
      · split <;> simp
      · simp

@[simp] theorem applyAsks_flask (b : Bool) (k : Option Nat) (s : State) :
    (applyAsks b k s).sched.pour.map Pour.flask = s.sched.pour.map Pour.flask :=
  forEach_same (fun t => t.sched.pour.map Pour.flask) (fun (p : Nat × Ask) t => applyAsk_flask b p.1 p.2 t) (asksOf k s) s

end Sys2Proof.Machine
end

section
/-! Clusters that fail, rotate and are tested, and gate lists that take over (R25 to R28, R242, R359, R538, R539). -/

namespace Sys2Proof.Machine

/-! ### A die and a port changed -/

/-- A member changed under its key is found changed, and every other as it was. -/
theorem updKey_finds {α : Type} {key : α → Nat} {k : Nat} {l : List α} {x : α} {f : α → α} (h : findKey key k l = some x)
    (hf : ∀ x, key (f x) = key x) :
    findKey key k (updKey key k f l) = some (f x) ∧ ∀ j, j ≠ k → findKey key j (updKey key k f l) = findKey key j l := by
  have found := fun j => findKey_updKey key k j f (fun x e => (hf x).trans e) l
  refine ⟨?_, fun j hj => ?_⟩
  · rw [found, if_pos rfl, h]; rfl
  · rw [found, if_neg hj]

theorem onDie_finds {s : State} {die : Nat} {d : ScDie} (hd : findDie s die = some d) (f : ScDie → ScDie) (hf : ∀ x, (f x).num = x.num) :
    findDie (onDie die f s) die = some (f d) ∧ ∀ k, k ≠ die → findDie (onDie die f s) k = findDie s k := updKey_finds hd hf

theorem onPort_finds {s : State} {port : Nat} {p : Port} (hp : findPort s port = some p) (f : Port → Port) (hf : ∀ x, (f x).num = x.num) :
    findPort (onPort port f s) port = some (f p) ∧ ∀ k, k ≠ port → findPort (onPort port f s) k = findPort s k := updKey_finds hp hf

/-- A die whose spare has the number of a failed cluster, which stood at `pos` (R27). -/
def withSpare (cluster pos sp : Nat) (d : ScDie) : ScDie :=
  { d with logical := d.logical.set cluster (some sp), spare := none, order := d.order.filter (· != pos) }

/-- A die with a failed cluster's number left empty (R28). -/
def withGap (cluster pos : Nat) (d : ScDie) : ScDie :=
  { d with logical := d.logical.set cluster none, order := d.order.filter (· != pos) }

/-- A die whose spare has the number of the cluster at `pos`, which is under test (R538). -/
def withTest (pos sp : Nat) (d : ScDie) : ScDie :=
  { d with logical := d.logical.map fun k => if k = some pos then some sp else k, spare := none, testing := some pos }

/-- A die whose cluster under test passed: it is the spare and the one tested last (R538). -/
def withPass (pos : Nat) (d : ScDie) : ScDie := { d with spare := some pos, testing := none, order := d.order.filter (· != pos) ++ [pos] }

/-- A die whose cluster under test failed: its rotation has stopped (R538). -/
def withFail (pos : Nat) (d : ScDie) : ScDie := { d with testing := none, stopped := true, order := d.order.filter (· != pos) }

/-- A port at entry 0 of a gate list (R359). -/
def withGates (gates : List (Nat × Nat)) (p : Port) : Port := { p with gates := gates, gateDue := none, takeover := p.bytes, entry := 0, used := 0 }

/-! ### A cluster that fails -/

/-- The cluster's position leaves the die, which takes its spare in its place, with a health event where it has none (R27, R28). -/
theorem loseCluster_takes_spare {die cluster pos : Nat} {s : State} {d : ScDie} (hd : findDie s die = some d)
    (hp : d.logical[cluster]? = some (some pos)) :
    let u := loseCluster die cluster s
    findDie u die = some { d with logical := d.logical.set cluster d.spare, spare := none, order := d.order.filter (· != pos) } ∧
      (∀ k, k ≠ die → findDie u k = findDie s k) ∧ u.dev.events = s.dev.events + (if d.spare.isNone then 1 else 0) ∧
      u.sched = s.sched ∧ u.sess = s.sess ∧ u.tens = s.tens ∧ u.fns = s.fns ∧ u.ledger = s.ledger ∧ u.links = s.links := by
  have at_ : positionOf s die cluster = some pos := by simp [positionOf, hd, hp]
  cases sp : d.spare with
  | some p =>
    have lose : loseCluster die cluster s = onDie die (withSpare cluster pos p) s := by simp only [loseCluster, hd, at_, sp]; rfl
    obtain ⟨here, others⟩ := onDie_finds hd (withSpare cluster pos p) fun _ => rfl
    dsimp only
    rw [lose]
    exact ⟨here, others, rfl, rfl, rfl, rfl, rfl, rfl, rfl⟩
  | none =>
    have lose : loseCluster die cluster s = healthEvent die (die * 16 + cluster) (onDie die (withGap cluster pos) s) := by
      simp only [loseCluster, hd, at_, sp]; rfl
    obtain ⟨here, others⟩ := onDie_finds hd (withGap cluster pos) fun _ => rfl
    dsimp only
    rw [lose]
    exact ⟨here.trans (by rw [withGap, sp]), others, rfl, rfl, rfl, rfl, rfl, rfl, rfl⟩

theorem exec_cluster_fault {die cluster pos : Nat} {s : State} {d : ScDie} (hf : die < scCount s.part) (hd : findDie s die = some d)
    (hp : d.logical[cluster]? = some (some pos)) :
    exec (.clusterFault die cluster) s = .next (drainAll (dropUnserved (rerunPour (loseCluster die cluster s)))) := by
  show execClusterFault die cluster s = _
  exact if_pos (by simp [positionOf, hf, hd, hp])

/-- The pour in flight before its release points is set to run again (R27). -/
theorem rerunPour_pour {s : State} {p : Pour} (hp : s.sched.pour = some p) (hs : p.step ≤ 7) :
    (rerunPour s).sched.pour =
      some { p with rerun := true, step := 1, layer := 0, works := [], masksDone := false, waiting := false, preempt := none } := by
  unfold rerunPour
  rw [hp]
  dsimp only
  rw [if_neg (Nat.not_lt.mpr hs)]

/-- A pour of a flask that the package has and that serves no longer (R28). -/
def unserved (s : State) (p : Pour) : Bool := (findFlask s p.flask).any fun f => !flaskServes s f

theorem unserved_eq_false_iff (s : State) (p : Pour) :
    unserved s p = false ↔ ∀ f, findFlask s p.flask = some f → flaskServes s f = true := by
  unfold unserved
  cases findFlask s p.flask <;> simp

/-- The pour in flight of a flask that still serves stays in flight, or one of the same flask; one of a flask that does not is dropped (R28). -/
theorem dropUnserved_flask (s : State) :
    (dropUnserved s).sched.pour.map Pour.flask = (s.sched.pour.filter fun p => !unserved s p).map Pour.flask := by
  unfold dropUnserved
  extract_lets dead gone s1
  split
  case isTrue nothing =>
    have serves : ∀ p, s.sched.pour = some p → unserved s p = false := fun p hp =>
      eq_false_of_ne_true (List.filter_eq_nil_iff.mp (List.isEmpty_iff.mp nothing) p (by simp [hp]))
    cases hp : s.sched.pour with
    | none => rfl
    | some p => simp [Option.filter, serves p hp]
  case isFalse =>
    have same : s1.sched.pour = s.sched.pour := by simp [s1]
    rw [freeAllSpent_sched, applyAsks_flask]
    dsimp only
    rw [same]
    rfl

theorem dropUnserved_pour {s : State} {p : Pour} (hp : (dropUnserved s).sched.pour = some p) :
    ∃ q, s.sched.pour = some q ∧ q.flask = p.flask ∧ ∀ f, findFlask s q.flask = some f → flaskServes s f = true := by
  have same := dropUnserved_flask s
  rw [hp] at same
  obtain ⟨q, hq, flask⟩ := Option.map_eq_some_iff.mp same.symm
  obtain ⟨before, serves⟩ := Option.filter_eq_some_iff.mp hq
  exact ⟨q, before, flask, (unserved_eq_false_iff s q).mp (by simpa using serves)⟩

/-! ### Rotation and gate lists -/

theorem exec_rotation_start {die sp pos : Nat} {s : State} {d : ScDie} (hd : findDie s die = some d) (hsp : d.spare = some sp)
    (ho : d.order.find? (fun k => d.logical.contains (some k)) = some pos) (hc : s.dev.code = .ready) (hs : s.sched.suspended = [])
    (hb : atBoundary s = true) (hst : d.stopped = false) (ht : d.testing = none) (hf : die < scCount s.part) :
    exec (.rotationStart die) s = .next (onDie die (withTest pos sp) s) := by
  show execRotationStart die s = _
  unfold execRotationStart
  simp only [hd, hsp, ho]
  exact if_pos ⟨hc, hs, hb, hst, ht, hf⟩

theorem exec_rotation_test_end {die pos : Nat} {s : State} {d : ScDie} (hd : findDie s die = some d) (ht : d.testing = some pos) (passed : Bool) :
    exec (.rotationTestEnd die passed) s = .next (if passed then onDie die (withPass pos) s
      else healthEvent die (die * 16 + pos) (onDie die (withFail pos) s)) := by
  have testing : (findDie s die).bind ScDie.testing = some pos := by rw [hd]; exact ht
  show execRotationTestEnd die passed s = _
  unfold execRotationTestEnd
  rw [testing]
  cases passed <;> rfl

theorem exec_gate_list_takeover {port pour : Nat} {gates : List (Nat × Nat)} {s : State} {p : Port} (hp : findPort s port = some p)
    (hg : p.gateDue = some (pour, gates)) (hn : pour < s.sched.next) :
    exec (.gateListTakeover port) s = .next (onPort port (withGates gates) s) := by
  have due : (findPort s port).bind Port.gateDue = some (pour, gates) := by rw [hp]; exact hg
  show execGateListTakeover port s = _
  unfold execGateListTakeover
  rw [due]
  exact if_pos hn

/-- Settles O36: each event's equation, read off at the die or the port that it names. Of a pour dropped with its flask's last cluster, only the
flask is compared: no message that waited for the boundary changes that. -/
theorem clustersFailAndRotate : Obligations.ClustersFailAndRotate := by
  unfold Obligations.ClustersFailAndRotate
  refine ⟨fun die cluster s d pos hf hd hp => ⟨_, exec_cluster_fault hf hd hp, loseCluster_takes_spare hd hp⟩,
    fun s p hp hs => rerunPour_pour hp hs, fun s p hp => dropUnserved_pour hp, fun die cluster stack region s hf => if_pos hf,
    fun die s d sp pos hd hsp ho hc hs hb hst ht hf => ?start, fun die s d pos hd ht => ⟨?passed, ?failed⟩, fun port pour gates s p hp hg hn => ?gates⟩
  case start =>
    obtain ⟨here, others⟩ := onDie_finds hd (withTest pos sp) fun _ => rfl
    exact ⟨_, exec_rotation_start hd hsp ho hc hs hb hst ht hf, here, others, rfl⟩
  case passed =>
    obtain ⟨here, others⟩ := onDie_finds hd (withPass pos) fun _ => rfl
    exact ⟨_, exec_rotation_test_end hd ht true, here, others, rfl⟩
  case failed =>
    obtain ⟨here, others⟩ := onDie_finds hd (withFail pos) fun _ => rfl
    exact ⟨_, exec_rotation_test_end hd ht false, here, others, rfl, rfl⟩
  case gates =>
    obtain ⟨here, others⟩ := onPort_finds hp (withGates gates) fun _ => rfl
    exact ⟨_, exec_gate_list_takeover hp hg hn, here, others, rfl⟩

end Sys2Proof.Machine
end

section
/-! Session messages by the state of their session: the columns of Table 2-4 and the operations under way (R59), each read once off `inState`. -/

namespace Sys2Proof.Machine

/-! ### A session message accepted -/

theorem exec_sessionMessage {c : Instr} {m : Sprue} (hc : sprueOf c = some m) (s : State) : exec c s = .next (sessionMessage c m s) := by
  unfold sprueOf at hc
  split at hc
  case h_9 => cases hc
  all_goals
    cases hc
    rfl

/-- An accepted session message is carried out, and then what its session held back. -/
theorem exec_accepted {c : Instr} {m : Sprue} {s : State} (hc : sprueOf c = some m) (ha : Accepts m s) :
    exec c s = .next (drainHeld (msgHandle m) (applySession c (acceptMsg m s))) := by
  rw [exec_sessionMessage hc, sessionMessage, takeMessage_accepts c m _ s ha]

theorem findSess_handle {s : State} {h : Nat} {x : Session} (hx : findSess s h = some x) : x.handle = h := (findKey_some hx).1

/-! ### The columns of Table 2-4 -/

section
variable {c : Instr} {m : Sprue} {u : State} {x : Session} (hx : findSess u (msgHandle m) = some x) (soon : Bool) (closed body : State → State)
include hx

theorem inState_moving (h : x.state = .moving) : inState c m soon closed body u = hold c (msgHandle m) u := by
  simp [inState, hx, h, findSess_handle hx]

theorem inState_lost (h : x.state = .lost) : inState c m soon closed body u = answerMsg m .lost 0 0 u := by
  simp [inState, hx, h]

theorem inState_closed (h : x.state = .closed) : inState c m soon closed body u = closed u := by
  simp [inState, hx, h]

/-- In the other states an operation under way holds the message, unless it is one that acts all the same. -/
theorem inState_else (hm : x.state ≠ .moving) (hl : x.state ≠ .lost) (hc : x.state ≠ .closed) :
    inState c m soon closed body u = if x.op.isSome && !soon then hold c (msgHandle m) u else body u := by
  simp [inState, hx, hm, hl, hc, findSess_handle hx]

end

/-! ### Input messages and GENERATE -/

/-- What the body of a message of opcode `op` does in a session that no operation occupies: refused in WAITING_TOOL, refused as a second GENERATE, or
held for a revival. -/
structure FollowsState (c : Instr) (m : Sprue) (op : Nat) (x : Session) (u : State) (body : State → State) : Prop where
  calling : x.state = .waitingTool → op ≠ 5 → body u = refuse m 6 u
  asked : op = 4 → x.request.isSome = true → body u = refuse m 6 u
  asleep : x.state = .warm ∨ x.state = .parked → (op = 4 → x.request = none) → body u = revive c (msgHandle m) u

/-- A message whose fields are good comes to its session's state, and follows it there. -/
def ComesToState (c : Instr) (m : Sprue) (op : Nat) (x : Session) (u v : State) : Prop :=
  ∃ body, v = inState c m false (refuse m 6) body u ∧ FollowsState c m op x u body

theorem resident_asleep {x : Session} (h : x.state = .warm ∨ x.state = .parked) : resident x = false := by
  rcases h with h | h <;> simp [resident, h]

theorem tokensFit_iff (s : State) (x : Session) (ids : List Nat) :
    tokensFit s x ids = true ↔ (ids.any fun t => decide (vocabOf s x ≤ t)) = false := by
  simp [tokensFit]

/-- The data of an APPEND_TEXT are at hand exactly when its fields are good and its bytes could be read. -/
theorem appendData_some {m : Sprue} {buf : HostBuf} {bytes : List Byte} (h : appendData m buf = some bytes) :
    ¬(((msgAt m 17 1).testBit 1 = true ∧ (msgAt m 16 1 ≠ 0 ∨ appendCount m = 0 ∨ 1048576 < appendCount m)) ∨
        ((msgAt m 17 1).testBit 1 = false ∧ 40 < msgAt m 16 1) ∨ ((msgAt m 17 1).testBit 0 = true ∧ appendCount m % 4 ≠ 0)) ∧
      (if (msgAt m 17 1).testBit 1 then buf.map (List.take (appendCount m)) else some (inlineBytes m.w 20 (msgAt m 16 1))) = some bytes := by
  unfold appendData at h
  cases ref : (msgAt m 17 1).testBit 1 <;> simp only [ref, appendCount, if_true, if_false, Bool.false_eq_true] at h ⊢ <;> split at h
  case false.isTrue | true.isTrue => cases h
  case false.isFalse fits => exact ⟨by simpa using fits, h⟩
  case true.isFalse fits => exact ⟨by simpa [or_assoc] using fits, h⟩

theorem appendText_comes {m : Sprue} {buf : HostBuf} {u : State} {x : Session} (hx : findSess u (msgHandle m) = some x)
    (good : FieldsGood (.appendText m buf) u x) : ComesToState (.appendText m buf) m 2 x u (doAppendText m buf u) := by
  obtain ⟨bytes, data, tokens⟩ := good
  obtain ⟨fields, read⟩ := appendData_some data
  have room : ((msgAt m 17 1).testBit 0 && overLimit x (closeCost u x + appendCount m / 4)) = false :=
    Bool.and_eq_false_imp.mpr fun t => (tokens t).2
  have known : ((msgAt m 17 1).testBit 0 && ((tokensOf bytes).getD []).any fun t => decide (vocabOf u x ≤ t)) = false :=
    Bool.and_eq_false_imp.mpr fun t => (tokensFit_iff u x _).mp (tokens t).1
  unfold doAppendText
  rw [hx]
  refine ⟨?body, (if_neg fields).trans ((if_neg (ne_true_of_eq_false room)).trans ?meets), ?follows⟩
  case meets =>
    dsimp only [appendCount] at read ⊢
    rw [read]
    exact if_neg (ne_true_of_eq_false known)
  case follows => exact
    { calling := fun h _ => if_pos (by simp [h])
      asked := fun h => absurd h (by decide)
      asleep := fun h _ => by rcases h with h | h <;> simp [h, resident, findSess_handle hx] }

theorem appendFrame_comes {m : Sprue} {buf : HostBuf} {u : State} {x : Session} (hx : findSess u (msgHandle m) = some x)
    (good : FieldsGood (.appendFrame m buf) u x) : ComesToState (.appendFrame m buf) m 3 x u (doAppendFrame m buf u) := by
  obtain ⟨p, prog, encoders, size, room, data⟩ := good
  unfold doAppendFrame
  rw [hx]
  dsimp only
  rw [prog]
  refine ⟨?body, (if_neg (by simpa using encoders)).trans ((if_neg (by simpa using size)).trans ((if_neg (ne_true_of_eq_false room)).trans ?meets)), ?follows⟩
  case meets => exact if_neg fun h => data (Option.isNone_iff_eq_none.mp h)
  case follows => exact
    { calling := fun h _ => if_pos (by simp [h])
      asked := fun h => absurd h (by decide)
      asleep := fun h _ => by rcases h with h | h <;> simp [h, resident, findSess_handle hx] }

/-- The stop strings of a GENERATE are at hand exactly when its block could be read, is well laid out and holds well-formed text. -/
theorem generateStops_some {m : Sprue} {buf : HostBuf} {stops : List (List Byte)} (h : generateStops m buf = some stops) :
    ∃ bytes, (if msgAt m 34 1 = 0 then some [] else buf) = some bytes ∧ stopStrings (msgAt m 34 1) bytes = some stops ∧
      stops.all wellFormedText = true := by
  obtain ⟨read, formed⟩ := Option.filter_eq_some_iff.mp h
  split at read
  · cases read
  · next bytes hb => exact ⟨bytes, hb, read, formed⟩

theorem generate_comes {m : Sprue} {buf : HostBuf} {u : State} {x : Session} (hx : findSess u (msgHandle m) = some x)
    (good : FieldsGood (.generate m buf) u x) : ComesToState (.generate m buf) m 4 x u (doGenerate m buf u) := by
  obtain ⟨fields, mould, stops⟩ := good
  obtain ⟨start, hs⟩ := Option.ne_none_iff_exists'.mp mould
  obtain ⟨texts, ht⟩ := Option.ne_none_iff_exists'.mp stops
  obtain ⟨bytes, read, split, formed⟩ := generateStops_some ht
  have form : ¬(msgAt m 16 4 = 0 ∨ 1048576 < msgAt m 16 4 ∨ 2 < msgAt m 22 1 ∨ (msgAt m 22 1 ≠ 0 ∧ msgAt m 24 4 = 0) ∨ 16 < msgAt m 34 1) := by
    simp only [generateFields, Bool.and_eq_true, Bool.or_eq_true, decide_eq_true_eq, beq_iff_eq, bne_iff_ne] at fields
    omega
  unfold doGenerate
  rw [hx]
  refine ⟨?body, (if_neg form).trans ?meets, ?follows⟩
  case meets =>
    rw [hs]
    dsimp only
    rw [read]
    dsimp only
    rw [split]
    exact if_neg (ne_false_of_eq_true formed)
  case follows => exact
    { calling := fun h _ => if_pos (by simp [h])
      asked := fun _ h => if_pos (by simp [h])
      asleep := fun h free => by rcases h with h | h <;> simp [h, free rfl, resident, findSess_handle hx] }

theorem toolResult_comes {m : Sprue} {buf : HostBuf} {u : State} {x : Session} (hx : findSess u (msgHandle m) = some x)
    (good : FieldsGood (.toolResult m buf) u x) : ComesToState (.toolResult m buf) m 5 x u (doToolResult m buf u) := by
  obtain ⟨size, named, data, tokens⟩ := good
  have form : ¬(1048576 < msgAt m 24 4 ∨ ((msgAt m 32 1).testBit 0 = true ∧ msgAt m 24 4 % 4 ≠ 0)) := by
    rintro (h | ⟨t, h⟩)
    · omega
    · exact h (tokens t).1
  have room : ((msgAt m 32 1).testBit 0 && decide (0 < msgAt m 24 4) && overLimit x (closeCost u x + msgAt m 24 4 / 4)) = false := by
    refine Bool.and_eq_false_imp.mpr fun h => ?_
    simp only [Bool.and_eq_true, decide_eq_true_eq] at h
    exact ((tokens h.1).2 (by omega)).1
  obtain ⟨bytes, read, known⟩ : ∃ bytes, (if msgAt m 24 4 = 0 then some [] else buf.map (List.take (msgAt m 24 4))) = some bytes ∧
      ((msgAt m 32 1).testBit 0 && ((tokensOf bytes).getD []).any fun t => decide (vocabOf u x ≤ t)) = false := by
    by_cases none : msgAt m 24 4 = 0
    · exact ⟨[], if_pos none, by simp [tokensOf]⟩
    · obtain ⟨bs, hb⟩ := Option.ne_none_iff_exists'.mp (data none)
      refine ⟨bs.take (msgAt m 24 4), by rw [if_neg none, hb]; rfl, Bool.and_eq_false_imp.mpr fun t => ?_⟩
      have fit := ((tokens t).2 none).2
      rw [hb] at fit
      exact (tokensFit_iff u x _).mp fit
  unfold doToolResult
  rw [hx]
  refine ⟨?body, (if_neg form).trans ((if_neg (by simp [named])).trans ((if_neg (ne_true_of_eq_false room)).trans ?meets)), ?follows⟩
  case meets =>
    dsimp only
    rw [read]
    exact if_neg (ne_true_of_eq_false known)
  case follows => exact
    { calling := fun _ h => absurd rfl h
      asked := fun h => absurd h (by decide)
      asleep := fun h _ => by simp [resident_asleep h, findSess_handle hx] }

/-- Each of the four messages, its fields good, comes to its session's state. -/
theorem applySession_comes {c : Instr} {m : Sprue} {op : Nat} {buf : HostBuf} {s : State} {x : Session} (hx : findSess (actsIn m s) (msgHandle m) = some x)
    (good : FieldsGood c (actsIn m s) x)
    (hc : (c = .appendText m buf ∧ op = 2) ∨ (c = .appendFrame m buf ∧ op = 3) ∨ (c = .generate m buf ∧ op = 4) ∨ (c = .toolResult m buf ∧ op = 5)) :
    sprueOf c = some m ∧ ComesToState c m op x (actsIn m s) (applySession c (acceptMsg m s)) := by
  rcases hc with ⟨rfl, rfl⟩ | ⟨rfl, rfl⟩ | ⟨rfl, rfl⟩ | ⟨rfl, rfl⟩
  · exact ⟨rfl, appendText_comes hx good⟩
  · exact ⟨rfl, appendFrame_comes hx good⟩
  · exact ⟨rfl, generate_comes hx good⟩
  · exact ⟨rfl, toolResult_comes hx good⟩

/-- Settles O14: each message comes to `inState` with the body that `FollowsState` describes; the clauses are the columns of Table 2-4. -/
theorem messagesFollowTheState : Obligations.MessagesFollowTheState := by
  unfold Obligations.MessagesFollowTheState
  rintro c m op buf s x ⟨ha, -, hx⟩ good hc
  obtain ⟨names, body, come, follows⟩ := applySession_comes hx good hc
  have awake : x.op = none → x.state ≠ .moving → x.state ≠ .lost → x.state ≠ .closed → applySession c (acceptMsg m s) = body (actsIn m s) := by
    intro hop h1 h2 h3
    rw [come, inState_else hx _ _ _ h1 h2 h3, hop]
    rfl
  rw [exec_accepted names ha]
  refine ⟨fun h => ?_, fun h => ?_, fun h => ?_, fun h1 h2 h3 hop => ?_, fun hop h h5 => ?_, fun hop h1 h2 h3 h4 hr => ?_, fun hop h free => ?_⟩
  · rw [come, inState_moving hx _ _ _ h]
  · rw [come, inState_lost hx _ _ _ h]
  · rw [come, inState_closed hx _ _ _ h]
  · rw [come, inState_else hx _ _ _ h1 h2 h3, hop]
    rfl
  · rw [awake hop (by simp [h]) (by simp [h]) (by simp [h]), follows.calling h h5]
  · rw [awake hop h1 h2 h3, follows.asked h4 hr]
  · have up : x.state ≠ .moving ∧ x.state ≠ .lost ∧ x.state ≠ .closed := by rcases h with h | h <;> simp [h]
    rw [awake hop up.1 up.2.1 up.2.2, follows.asleep h free]

/-! ### CANCEL, BARGE, PARK and CLOSE -/

/-- What the body of a CANCEL, BARGE, PARK or CLOSE does in a session that is neither MOVING, LOST nor CLOSED. -/
def abortBody (c : Instr) (x : Session) (u : State) : State :=
  match c with
  | .cancel m => if x.state = .active ∧ inFlight u x = true then stampAsk (msgAsk m) (msgHandle m) u
      else freeSpent (msgHandle m) (cancelNow false (msgAsk m) (msgHandle m) u)
  | .barge m => freeSpent (msgHandle m) (bargeNow (msgAsk m) (msgAt m 16 4) (msgHandle m) u)
  | .park m => if x.state = .active ∧ inFlight u x = true then stampAsk { msgAsk m with quantise := msgAt m 16 1 } (msgHandle m) u
      else parkNow false { msgAsk m with quantise := msgAt m 16 1 } (msgHandle m) u
  | .close m => if x.state = .active ∧ inFlight u x = true then stampAsk (msgAsk m) (msgHandle m) u
      else closeNow false (msgAsk m) (msgHandle m) u
  | _ => u

/-- Whether the message of opcode `op` acts with an operation under way: all but a PARK (Table 4-6). -/
def actsSoon (op : Nat) : Bool := op != 8

/-- What a CLOSED session answers to the message of opcode `op` (Table 2-4). -/
def closedAnswer (m : Sprue) (op : Nat) (u : State) : State :=
  if op = 8 then refuse m 6 u else if op = 9 then answerMsg m .done 0 0 u else answerMsg m .nothingToCancel 0 0 u

/-- The four messages with their opcodes; a PARK's quantise field is in range. -/
def Aborts (c : Instr) (m : Sprue) (op : Nat) : Prop :=
  (c = .cancel m ∧ op = 6) ∨ (c = .barge m ∧ op = 7) ∨ (c = .park m ∧ op = 8 ∧ msgAt m 16 1 ≤ 2) ∨ (c = .close m ∧ op = 9)

/-- Each of the four comes to its session's state. -/
theorem applySession_aborts {c : Instr} {m : Sprue} {op : Nat} {s : State} {x : Session} (hx : findSess (actsIn m s) (msgHandle m) = some x)
    (hc : Aborts c m op) : sprueOf c = some m ∧ ∃ body, body (actsIn m s) = abortBody c x (actsIn m s) ∧
      applySession c (acceptMsg m s) = inState c m (actsSoon op) (closedAnswer m op) body (actsIn m s) := by
  have hh := findSess_handle hx
  rcases hc with ⟨rfl, rfl⟩ | ⟨rfl, rfl⟩ | ⟨rfl, rfl, fits⟩ | ⟨rfl, rfl⟩
  · refine ⟨rfl, _, ?_, show doCancel m (actsIn m s) = _ by unfold doCancel; rw [hx]; rfl⟩
    simp [abortBody, hh]
  · refine ⟨rfl, _, ?_, show doBarge m (actsIn m s) = _ by unfold doBarge; rw [hx]; rfl⟩
    simp [abortBody, hh]
  · refine ⟨rfl, _, ?_, show doPark m (actsIn m s) = _ by unfold doPark; rw [hx]; exact if_neg (by omega)⟩
    simp [abortBody, hh]
  · refine ⟨rfl, _, ?_, show doClose m (actsIn m s) = _ by unfold doClose; rw [hx]; rfl⟩
    simp [abortBody, hh]

/-- One of the four in a session that is neither MOVING, LOST nor CLOSED acts, or is held where it is a PARK and an operation is under way. -/
theorem exec_aborts {c : Instr} {m : Sprue} {op : Nat} {s : State} {x : Session} (hf : Finds m op s x) (hc : Aborts c m op) (hm : x.state ≠ .moving)
    (hl : x.state ≠ .lost) (hd : x.state ≠ .closed) :
    exec c s = .next (drainHeld (msgHandle m)
      (if x.op.isSome && !actsSoon op then hold c (msgHandle m) (actsIn m s) else abortBody c x (actsIn m s))) := by
  obtain ⟨ha, -, hx⟩ := hf
  obtain ⟨names, body, acts, come⟩ := applySession_aborts hx hc
  rw [exec_accepted names ha, come, inState_else hx _ _ _ hm hl hd, acts]

/-- Settles O15: each message comes to `inState` with the body `abortBody`; the clauses are the columns of Table 2-4. -/
theorem abortMessagesAct : Obligations.AbortMessagesAct := by
  unfold Obligations.AbortMessagesAct
  refine ⟨fun m s x hf hm hl hd => ?cancel, fun m s x hf hm hl hd => ?barge, fun m s x hf fits hm hl hd => ?park, fun m s x hf far => ?far,
    fun m s x hf hm hl hd => ?close, fun c m op s x hf hc => ?columns⟩
  case cancel => simpa [actsSoon, abortBody] using exec_aborts hf (.inl ⟨rfl, rfl⟩) hm hl hd
  case barge => simpa [actsSoon, abortBody] using exec_aborts hf (.inr (.inl ⟨rfl, rfl⟩)) hm hl hd
  case park => simpa [actsSoon, abortBody] using exec_aborts hf (.inr (.inr (.inl ⟨rfl, rfl, fits⟩))) hm hl hd
  case close => simpa [actsSoon, abortBody] using exec_aborts hf (.inr (.inr (.inr ⟨rfl, rfl⟩))) hm hl hd
  case far =>
    obtain ⟨ha, -, hx⟩ := hf
    have refused : doPark m (actsIn m s) = refuse m 3 (actsIn m s) := by
      unfold doPark
      rw [hx]
      exact if_pos far
    rw [exec_accepted (c := .park m) rfl ha, ← refused]
    rfl
  case columns =>
    obtain ⟨ha, -, hx⟩ := hf
    obtain ⟨names, body, -, come⟩ := applySession_aborts hx hc
    rw [exec_accepted names ha, come]
    refine ⟨fun h => ?_, fun h => ?_, fun h => ?_⟩
    · rw [inState_moving hx _ _ _ h]
    · rw [inState_lost hx _ _ _ h]
    · rw [inState_closed hx _ _ _ h]
      rfl

end Sys2Proof.Machine
end

section
/-! One session changed at a time: what an operation on the session of a handle leaves of the others and of the rest of the state, and how the
operations that lay its content in the tiers follow one another (R59, R214 to R222, R433). -/

namespace Sys2Proof.Machine

/-! ### From one state to another with one session changed -/

/-- What every turn of a run keeps or adds to, the whole run does. -/
theorem forEach_rel {α : Type} {R : State → State → Prop} (refl : ∀ s, R s s) (trans : ∀ {s t u}, R s t → R t u → R s u) {f : α → State → State}
    (h : ∀ x t, R t (f x t)) (l : List α) (s : State) : R s (forEach l f s) := by
  unfold forEach
  induction l generalizing s with
  | nil => exact refl s
  | cons x l ih => exact trans (h x s) (ih (f x s))

/-- From `s` to `t` no session but that of handle `h` is changed, and that one as `R` says. -/
structure Turns (h : Nat) (R : Session → Session → Prop) (s t : State) : Prop where
  others : ∀ k, k ≠ h → findSess t k = findSess s k
  here : ∀ x, findSess s h = some x → ∃ y, findSess t h = some y ∧ R x y

theorem findSess_congr {s t : State} (e : t.sess = s.sess) (k : Nat) : findSess t k = findSess s k := by
  unfold findSess
  rw [e]

/-- With the sessions as they were, none is changed. -/
theorem Turns.same {h : Nat} {R : Session → Session → Prop} {s t : State} (e : t.sess = s.sess) (refl : ∀ x, R x x) : Turns h R s t :=
  ⟨fun k _ => findSess_congr e k, fun x hx => ⟨x, (findSess_congr e h).trans hx, refl x⟩⟩

theorem Turns.comp {h : Nat} {R Q : Session → Session → Prop} {s t u : State} (a : Turns h R s t) (b : Turns h Q t u) :
    Turns h (Relation.Comp R Q) s u :=
  ⟨fun k hk => (b.others k hk).trans (a.others k hk), fun x hx => by
    obtain ⟨y, hy, r⟩ := a.here x hx
    obtain ⟨z, hz, q⟩ := b.here y hy
    exact ⟨z, hz, y, r, q⟩⟩

theorem Turns.mono {h : Nat} {R Q : Session → Session → Prop} {s t : State} (a : Turns h R s t) (m : ∀ x y, R x y → Q x y) : Turns h Q s t :=
  ⟨a.others, fun x hx => by
    obtain ⟨y, hy, r⟩ := a.here x hx
    exact ⟨y, hy, m x y r⟩⟩

theorem Turns.trans {h : Nat} {R : Session → Session → Prop} (tr : ∀ x y z, R x y → R y z → R x z) {s t u : State} (a : Turns h R s t)
    (b : Turns h R t u) : Turns h R s u := (a.comp b).mono fun x z ⟨y, r, q⟩ => tr x y z r q

/-- What comes after, with the sessions as they are, adds nothing; nor does what came before. -/
theorem Turns.thenSame {h : Nat} {R : Session → Session → Prop} {s t u : State} (a : Turns h R s t) (e : u.sess = t.sess) : Turns h R s u :=
  ⟨fun k hk => (findSess_congr e k).trans (a.others k hk), fun x hx => by
    obtain ⟨y, hy, r⟩ := a.here x hx
    exact ⟨y, (findSess_congr e h).trans hy, r⟩⟩

theorem Turns.afterSame {h : Nat} {R : Session → Session → Prop} {s t u : State} (a : Turns h R t u) (e : t.sess = s.sess) : Turns h R s u :=
  ⟨fun k hk => (a.others k hk).trans (findSess_congr e k), fun x hx => a.here x ((findSess_congr e h).trans hx)⟩

theorem findSess_onSess_self {s : State} {h : Nat} {x : Session} (hx : findSess s h = some x) (f : Session → Session) (hf : ∀ x, (f x).handle = x.handle) :
    findSess (onSess h f s) h = some (f x) := (updKey_finds hx hf).1

theorem onSess_turns (h : Nat) (f : Session → Session) (hf : ∀ x, (f x).handle = x.handle) (s : State) : Turns h (fun x y => y = f x) s (onSess h f s) :=
  ⟨fun k hk => by rw [findSess_onSess h k f hf, if_neg hk], fun x hx => ⟨f x, findSess_onSess_self hx f hf, rfl⟩⟩

theorem onSess_turns_as {h : Nat} {R : Session → Session → Prop} {f : Session → Session} (hR : ∀ x y, R x y → y.handle = x.handle) (hf : ∀ x, R x (f x))
    (s : State) : Turns h R s (onSess h f s) := (onSess_turns h f (fun x => hR _ _ (hf x)) s).mono fun x _ e => e ▸ hf x

/-- A session put in the place of the one of its handle. -/
theorem setSess_turns {s : State} {h : Nat} {x y : Session} (hx : findSess s h = some x) (hy : y.handle = h) :
    Turns h (fun a b => a = x ∧ b = y) s (setSess y s) := by
  subst hy
  have put := fun j => findKey_updKey Session.handle y.handle j (fun _ => y) (fun _ _ => rfl) s.sess
  refine ⟨fun k hk => (put k).trans (if_neg hk), fun a ha => ⟨y, ?_, Option.some.inj (ha.symm.trans hx), rfl⟩⟩
  refine (put y.handle).trans ?_
  rw [if_pos rfl]
  exact congrArg (Option.map _) hx

/-! ### Pages changed -/

/-- A way for a page to change that a page may also not take, and that may be taken again. -/
structure PageOrder (P : Page → Page → Prop) : Prop where
  refl : ∀ g, P g g
  trans : ∀ {a b c}, P a b → P b c → P a c

theorem forall₂_trans {P : Page → Page → Prop} (o : PageOrder P) {a b c : List Page} (hab : List.Forall₂ P a b) (hbc : List.Forall₂ P b c) :
    List.Forall₂ P a c := by
  induction hab generalizing c with
  | nil => exact hbc
  | cons r _ ih =>
    cases hbc with
    | cons q rest => exact .cons (o.trans r q) (ih rest)

/-- A session with its pages changed as `P` says, and with any blocks and leaves. -/
def Repaged (P : Page → Page → Prop) (x y : Session) : Prop :=
  y = { x with pages := y.pages, blks := y.blks, leaves := y.leaves } ∧ List.Forall₂ P x.pages y.pages

theorem Repaged.handle {P : Page → Page → Prop} {x y : Session} (a : Repaged P x y) : y.handle = x.handle := (congrArg Session.handle a.1 :)

theorem Repaged.same_pages {P : Page → Page → Prop} (o : PageOrder P) {x y : Session} (e : y = { x with blks := y.blks, leaves := y.leaves }) :
    Repaged P x y := by
  have pages : y.pages = x.pages := (congrArg Session.pages e :)
  exact ⟨by rw [pages]; exact e, pages ▸ List.forall₂_same.mpr fun g _ => o.refl g⟩

theorem Repaged.trans {P : Page → Page → Prop} (o : PageOrder P) {x y z : Session} (a : Repaged P x y) (b : Repaged P y z) : Repaged P x z := by
  obtain ⟨ea, pa⟩ := a
  obtain ⟨eb, pb⟩ := b
  exact ⟨by rw [eb, ea], forall₂_trans o pa pb⟩

/-- Every member of a list so changed comes of one that was there. -/
theorem forall₂_mem {P : Page → Page → Prop} {l l' : List Page} (a : List.Forall₂ P l l') {g : Page} (hg : g ∈ l') : ∃ g0 ∈ l, P g0 g := by
  obtain ⟨i, hi, rfl⟩ := List.mem_iff_getElem.mp hg
  have len := a.length_eq
  exact ⟨l[i], List.getElem_mem _, a.get (by omega) hi⟩

/-- Where a search finds a member, a search of the members changed finds what it was changed to. -/
theorem find?_forall₂ {P : Page → Page → Prop} {q : Page → Bool} (stays : ∀ {g g'}, P g g' → q g' = q g) {l l' : List Page} (a : List.Forall₂ P l l')
    {g : Page} (hg : l.find? q = some g) : ∃ g', l'.find? q = some g' ∧ P g g' := by
  induction a with
  | nil => cases hg
  | @cons p p' _ _ r _ ih =>
    rw [List.find?_cons] at hg ⊢
    rw [stays r]
    split at hg
    · cases hg
      exact ⟨p', rfl, r⟩
    · exact ih hg

/-- The page at a row and layer is found there again. -/
theorem Repaged.findPage {P : Page → Page → Prop} (stays : ∀ {g g'}, P g g' → g'.row = g.row ∧ g'.layer = g.layer) {x y : Session} (a : Repaged P x y)
    {row layer : Nat} {g : Page} (hg : findPage x row layer = some g) : ∃ g', findPage y row layer = some g' ∧ P g g' :=
  find?_forall₂ (fun r => by rw [(stays r).1, (stays r).2]) a.2 hg

/-! ### What laying a session's content in the tiers leaves -/

/-- `t` differs from `s` in its sessions, its tiers, its anchor log and the free values drawn alone. -/
def PlaceFrame (s t : State) : Prop :=
  t = { s with sess := t.sess, tiers := t.tiers, chk := { s.chk with anchors := t.chk.anchors }, free := t.free }

theorem PlaceFrame.trans {s t u : State} (a : PlaceFrame s t) (b : PlaceFrame t u) : PlaceFrame s u := by
  unfold PlaceFrame at *
  rw [b, a]

/-- `t` differs from `s` in its tiers alone. -/
def TiersOnly (s t : State) : Prop := t = { s with tiers := t.tiers }

theorem TiersOnly.refl (s : State) : TiersOnly s s := rfl

theorem TiersOnly.trans {s t u : State} (a : TiersOnly s t) (b : TiersOnly t u) : TiersOnly s u := by
  unfold TiersOnly at *
  rw [b, a]

theorem TiersOnly.sess {s t : State} (a : TiersOnly s t) : t.sess = s.sess := by rw [a]

theorem TiersOnly.frame {s t : State} (a : TiersOnly s t) : PlaceFrame s t := by
  unfold PlaceFrame
  rw [a]

theorem forEach_tiers {α : Type} {f : α → State → State} (h : ∀ x t, TiersOnly t (f x t)) (l : List α) (s : State) : TiersOnly s (forEach l f s) :=
  forEach_rel TiersOnly.refl TiersOnly.trans h l s

/-- From `s` to `t` the content of the session of handle `h` is laid anew, its pages changed as `P` says, and nothing else but the tiers, the
anchor log and the free values is touched. -/
structure Lays (h : Nat) (P : Page → Page → Prop) (s t : State) : Prop extends Turns h (Repaged P) s t where
  frame : PlaceFrame s t

theorem Lays.trans {h : Nat} {P : Page → Page → Prop} (o : PageOrder P) {s t u : State} (a : Lays h P s t) (b : Lays h P t u) : Lays h P s u :=
  ⟨Turns.trans (R := Repaged P) (fun _ _ _ => Repaged.trans o) a.toTurns b.toTurns, a.frame.trans b.frame⟩

theorem Lays.mono {h : Nat} {P Q : Page → Page → Prop} {s t : State} (a : Lays h P s t) (m : ∀ g g', P g g' → Q g g') : Lays h Q s t :=
  ⟨a.toTurns.mono fun _ _ ⟨e, pages⟩ => ⟨e, pages.imp m⟩, a.frame⟩

theorem Lays.same {h : Nat} {P : Page → Page → Prop} (o : PageOrder P) {s t : State} (e : t.sess = s.sess) (f : PlaceFrame s t) : Lays h P s t :=
  ⟨Turns.same e fun _ => Repaged.same_pages o rfl, f⟩

theorem Lays.refl {h : Nat} {P : Page → Page → Prop} (o : PageOrder P) (s : State) : Lays h P s s := Lays.same o rfl rfl

theorem TiersOnly.lays {h : Nat} {P : Page → Page → Prop} (o : PageOrder P) {s t : State} (a : TiersOnly s t) : Lays h P s t :=
  Lays.same o a.sess a.frame

theorem forEach_lays {α : Type} {h : Nat} {P : Page → Page → Prop} (o : PageOrder P) {f : α → State → State} (hf : ∀ x t, Lays h P t (f x t))
    (l : List α) (s : State) : Lays h P s (forEach l f s) :=
  forEach_rel (Lays.refl o) (Lays.trans o) hf l s

/-- A change of a session's pages, blocks and leaves in place. -/
theorem onSess_lays {h : Nat} {P : Page → Page → Prop} {f : Session → Session} (hf : ∀ x, Repaged P x (f x)) (s : State) : Lays h P s (onSess h f s) :=
  ⟨onSess_turns_as (fun _ _ => Repaged.handle) hf s, rfl⟩

theorem onPage_lays {h row layer : Nat} {P : Page → Page → Prop} (o : PageOrder P) {f : Page → Page}
    (hf : ∀ g, g.row = row → g.layer = layer → P g (f g)) (s : State) : Lays h P s (onPage h row layer f s) := by
  refine onSess_lays (fun x => ⟨rfl, List.forall₂_map_right_iff.mpr (List.forall₂_same.mpr fun g _ => ?_)⟩) s
  by_cases e : g.row = row ∧ g.layer = layer
  · rw [if_pos e]
    exact hf g e.1 e.2
  · rw [if_neg e]
    exact o.refl g

theorem onBlk_lays {h : Nat} {P : Page → Page → Prop} (o : PageOrder P) (b : Blk) (f : Blk → Blk) (s : State) : Lays h P s (onBlk h b f s) :=
  onSess_lays (fun _ => Repaged.same_pages o rfl) s

theorem onLeaf_lays {h : Nat} {P : Page → Page → Prop} (o : PageOrder P) (range : Nat) (f : Leaf → Leaf) (s : State) :
    Lays h P s (onLeaf h range f s) := onSess_lays (fun _ => Repaged.same_pages o rfl) s

/-! ### Taking space -/

/-- A page given a handle, a frame and addresses. -/
def SeatedPage (g g' : Page) : Prop := g' = { g with handle := g'.handle, frame := g'.frame, lower0 := g'.lower0, lower1 := g'.lower1 }

theorem seatedPage_order : PageOrder SeatedPage where
  refl _ := rfl
  trans a b := by
    unfold SeatedPage at *
    rw [b, a]

theorem takeLower_tiers (tenant pool kib : Nat) (s : State) : TiersOnly s (takeLower tenant pool kib s).2 := by
  unfold takeLower
  dsimp only
  split <;> rfl

theorem tiersOnly_snd_ite {α : Type} (c : Prop) [Decidable c] {a b : α × State} {s : State} (ha : TiersOnly s a.2) (hb : TiersOnly s b.2) :
    TiersOnly s (if c then a else b).2 := by split <;> assumption

/-- Space for an object's copies changes the tiers alone. -/
theorem seatPlace_tiers (x : Session) (partition : Nat) (c : Place) (s : State) : TiersOnly s (seatPlace x partition c s).2 := by
  unfold seatPlace
  extract_lets r1 r2 r3 r4
  have t1 : TiersOnly s r1.2 := tiersOnly_snd_ite _ rfl rfl
  have t2 : TiersOnly r1.2 r2.2 := by
    unfold r2
    split
    · exact tiersOnly_snd_ite _ rfl rfl
    · rfl
  have t3 : TiersOnly r2.2 r3.2 := tiersOnly_snd_ite _ (takeLower_tiers _ _ _ _) rfl
  have t4 : TiersOnly r3.2 r4.2 := tiersOnly_snd_ite _ (takeLower_tiers _ _ _ _) (tiersOnly_snd_ite _ rfl rfl)
  exact ((t1.trans t2).trans t3).trans t4

theorem issueHandle_lays (h : Nat) (s : State) : Lays h SeatedPage s (issueHandle h s).2 := by
  unfold issueHandle
  split
  · exact Lays.refl seatedPage_order s
  · dsimp only
    split
    · exact Lays.refl seatedPage_order s
    · exact onSess_lays (fun _ => Repaged.same_pages seatedPage_order rfl) s

/-- A handle issued where an object has none. -/
theorem handleFor_lays (h n : Nat) (c : Prop) [Decidable c] (s : State) : Lays h SeatedPage s (if c then issueHandle h s else (n, s)).2 := by
  split
  · exact issueHandle_lays h s
  · exact Lays.refl seatedPage_order s

theorem seatPage_lays (h partition row layer : Nat) (s : State) : Lays h SeatedPage s (seatPage h partition row layer s) := by
  unfold seatPage
  split
  · exact Lays.refl seatedPage_order s
  · split
    · refine ((handleFor_lays h _ _ s).trans seatedPage_order ((seatPlace_tiers _ _ _ _).lays seatedPage_order)).trans seatedPage_order
        (onPage_lays seatedPage_order ?_ _)
      exact fun _ _ _ => rfl
    · exact Lays.refl seatedPage_order s

theorem seatBlk_lays (h partition : Nat) (b : Blk) (s : State) : Lays h SeatedPage s (seatBlk h partition b s) := by
  unfold seatBlk
  split
  · exact Lays.refl seatedPage_order s
  · exact ((handleFor_lays h _ _ s).trans seatedPage_order ((seatPlace_tiers _ _ _ _).lays seatedPage_order)).trans seatedPage_order
      (onBlk_lays seatedPage_order _ _ _)

theorem seatLeaf_lays (h partition : Nat) (l : Leaf) (s : State) : Lays h SeatedPage s (seatLeaf h partition l s) := by
  unfold seatLeaf
  split
  · exact Lays.refl seatedPage_order s
  · exact ((seatPlace_tiers _ _ _ _).lays seatedPage_order).trans seatedPage_order (onLeaf_lays seatedPage_order _ _ _)

/-- A session put in the place of itself with other blocks and leaves. -/
theorem setSess_lays {h : Nat} {s : State} {x y : Session} (hx : findSess s h = some x) (e : y = { x with blks := y.blks, leaves := y.leaves }) :
    Lays h SeatedPage s (setSess y s) := by
  have seated : Repaged SeatedPage x y := Repaged.same_pages seatedPage_order e
  exact ⟨(setSess_turns hx (seated.handle.trans (findSess_handle hx))).mono fun a b ⟨ha, hb⟩ => ha ▸ hb ▸ seated, rfl⟩

/-- A session's part of the page table brought up to its content gives its pages handles, frames and addresses, and changes nothing else of them. -/
theorem seat_lays (h : Nat) (s : State) : Lays h SeatedPage s (seat h s) := by
  unfold seat
  split
  · exact Lays.refl seatedPage_order s
  · next x hx =>
    split
    · exact Lays.refl seatedPage_order s
    · next p _ =>
      extract_lets partition y s1 s2 s3
      have fitted : y = { x with blks := y.blks, leaves := y.leaves } := by
        unfold y
        split
        · rfl
        · split <;> rfl
      have put : Lays h SeatedPage s s1 := setSess_lays hx fitted
      have pages : Lays h SeatedPage s1 s2 := forEach_lays seatedPage_order (fun _ _ => seatPage_lays _ _ _ _ _) _ _
      have blks : Lays h SeatedPage s2 s3 := forEach_lays seatedPage_order (fun _ _ => seatBlk_lays _ _ _ _) _ _
      exact ((put.trans seatedPage_order pages).trans seatedPage_order blks).trans seatedPage_order
        (forEach_lays seatedPage_order (fun _ _ => seatLeaf_lays _ _ _ _) _ _)

/-- Copies of a page made anew: one free value drawn, the page changed, and its session seated. -/
theorem seat_onPage_lays {h row layer : Nat} {P : Page → Page → Prop} (o : PageOrder P) (seats : ∀ g g', SeatedPage g g' → P g g') {f : Page → Page}
    (hf : ∀ g, g.row = row → g.layer = layer → P g (f g)) (s : State) : Lays h P s (seat h (onPage h row layer f (drawFree s))) := by
  have drawn : Lays h P s (drawFree s) := Lays.same o rfl rfl
  exact (drawn.trans o (onPage_lays o hf _)).trans o ((seat_lays h _).mono seats)

/-! ### The anchor log and the streams -/

theorem anchor_frame (kind h : Nat) (s : State) : (anchor kind h s).sess = s.sess ∧ PlaceFrame s (anchor kind h s) := by
  unfold anchor
  split <;> exact ⟨rfl, rfl⟩

theorem anchorRow_frame (h row : Nat) (s : State) : (anchorRow h row s).sess = s.sess ∧ PlaceFrame s (anchorRow h row s) := by
  unfold anchorRow
  split
  · exact ⟨rfl, rfl⟩
  · dsimp only
    split <;> exact ⟨rfl, rfl⟩

theorem anchorRow_lays {P : Page → Page → Prop} (o : PageOrder P) (h row : Nat) (s : State) : Lays h P s (anchorRow h row s) :=
  Lays.same o (anchorRow_frame h row s).1 (anchorRow_frame h row s).2

theorem releasePlaces_tiers (cs : List Place) (s : State) : TiersOnly s (releasePlaces cs s) := by
  unfold releasePlaces
  split <;> rfl

theorem endStream_tiers (c : Carried) (s : State) : TiersOnly s (endStream c s) := rfl

theorem startStream_tiers (k : Stream) (s : State) : TiersOnly s (startStream k s) := by
  unfold startStream
  split <;> rfl

theorem startPoolStream_tiers (pool a : Nat) (c : Carried) (lines : Nat) (s : State) : TiersOnly s (startPoolStream pool a c lines s) :=
  forEach_tiers (fun e t => by
    split
    · rfl
    · exact startStream_tiers _ t) _ s

theorem streamFrozen_tiers (h : Nat) (s : State) : TiersOnly s (streamFrozen h s) := by
  unfold streamFrozen
  split
  · rfl
  · exact startPoolStream_tiers _ _ _ _ s

theorem stall_tiers (w : Stall) (s : State) : TiersOnly s (stall w s) := by
  unfold stall
  split <;> rfl

/-! ### Allowances and input text -/

/-- A session with its residency allowance changed. -/
def Rearmed (x y : Session) : Prop := y = { x with allowKind := y.allowKind, allowance := y.allowance, restored := y.restored }

theorem Rearmed.handle (x y : Session) (a : Rearmed x y) : y.handle = x.handle := (congrArg Session.handle a :)

theorem arm_turns (h : Nat) (s : State) : Turns h Rearmed s (arm h s) := by
  refine onSess_turns_as Rearmed.handle (fun x => ?_) s
  dsimp only
  generalize (if (dueAllowance s x).2 = 0 then 0 else (dueAllowance s x).1) = kind
  split <;> rfl

/-- `t` differs from `s` in nothing but its functions, tenants, sessions, scheduler, tiers, anchor log and the free values drawn. -/
def QuietFrame (s t : State) : Prop :=
  t = { s with fns := t.fns, tens := t.tens, sess := t.sess, sched := t.sched, tiers := t.tiers, chk := { s.chk with anchors := t.chk.anchors }, free := t.free }

theorem QuietFrame.trans {s t u : State} (a : QuietFrame s t) (b : QuietFrame t u) : QuietFrame s u := by
  unfold QuietFrame at *
  rw [b, a]

theorem PlaceFrame.quiet {s t : State} (a : PlaceFrame s t) : QuietFrame s t := by
  unfold QuietFrame
  rw [a]

theorem QuietFrame.parts {s t : State} (a : QuietFrame s t) : t.models = s.models ∧ t.store = s.store ∧ t.rcl = s.rcl ∧ t.links = s.links := by
  rw [a]
  exact ⟨rfl, rfl, rfl, rfl⟩

/-- A session with its input text closed: what was left of it is queued. -/
def InputClosed (x y : Session) : Prop := y = { x with queue := y.queue, queuedAt := y.queuedAt, text := y.text }

theorem InputClosed.handle {x y : Session} (a : InputClosed x y) : y.handle = x.handle := (congrArg Session.handle a :)

theorem InputClosed.trans (x y z : Session) (a : InputClosed x y) (b : InputClosed y z) : InputClosed x z := by
  unfold InputClosed at *
  rw [b, a]

theorem pushText_frame (toks : List Nat) (x : Session) : pushText toks x = { x with queue := (pushText toks x).queue } := by
  unfold pushText
  split
  · rfl
  · dsimp only
    split
    · split <;> rfl
    · rfl

theorem stampQueue_turns (h : Nat) (s : State) : Turns h InputClosed s (stampQueue h s) ∧ QuietFrame s (stampQueue h s) := by
  unfold stampQueue
  split
  · exact ⟨Turns.same rfl fun _ => rfl, rfl⟩
  · split
    · exact ⟨Turns.same rfl fun _ => rfl, rfl⟩
    · obtain ⟨others, here⟩ := onSess_turns h (fun y => { y with queuedAt := s.sched.orders + 1 }) (fun _ => rfl) s
      refine ⟨⟨others, fun x hx => ?_⟩, rfl⟩
      obtain ⟨y, hy, rfl⟩ := here x hx
      exact ⟨_, hy, rfl⟩

theorem countFixes_frame (t n : Nat) (s : State) : (countFixes t n s).sess = s.sess ∧ QuietFrame s (countFixes t n s) := by
  unfold countFixes
  split <;> exact ⟨rfl, rfl⟩

theorem closeInput_turns (h : Nat) (s : State) : Turns h InputClosed s (closeInput h s) ∧ QuietFrame s (closeInput h s) := by
  unfold closeInput
  split
  · exact ⟨Turns.same rfl fun _ => rfl, rfl⟩
  · next x hx =>
    split
    · exact ⟨Turns.same rfl fun _ => rfl, rfl⟩
    · next t _ =>
      extract_lets r s1
      have pushed : InputClosed x (pushText r.toks { x with text := r.text }) := by
        unfold InputClosed
        rw [pushText_frame]
      have put : Turns h InputClosed s (setSess (pushText r.toks { x with text := r.text }) s) :=
        (setSess_turns hx (pushed.handle.trans (findSess_handle hx))).mono fun a b ⟨ha, hb⟩ => ha ▸ hb ▸ pushed
      have counted := countFixes_frame x.tenant r.fixes (setSess (pushText r.toks { x with text := r.text }) s)
      have stamped := stampQueue_turns h (countFixes x.tenant r.fixes (setSess (pushText r.toks { x with text := r.text }) s))
      have done : Turns h InputClosed s s1 ∧ QuietFrame s s1 :=
        ⟨(put.thenSame counted.1).trans InputClosed.trans stamped.1,
          (counted.2.trans stamped.2 : QuietFrame (setSess (pushText r.toks { x with text := r.text }) s) s1)⟩
      split
      · exact done
      · exact ⟨done.1.thenSame rfl, done.2.trans rfl⟩

/-! ### The store and what is said to the host and the rack -/

/-- `t` differs from `s` in its store alone. -/
def StoreOnly (s t : State) : Prop := t = { s with store := t.store }

theorem StoreOnly.refl (s : State) : StoreOnly s s := rfl

theorem StoreOnly.trans {s t u : State} (a : StoreOnly s t) (b : StoreOnly t u) : StoreOnly s u := by
  unfold StoreOnly at *
  rw [b, a]

theorem StoreOnly.put (store : Store) (s : State) : StoreOnly s { s with store := store } := rfl

theorem StoreOnly.sess {s t : State} (a : StoreOnly s t) : t.sess = s.sess := by rw [a]

theorem journal_storeOnly (hub : Nat) (r : JRec) (s : State) : StoreOnly s (journal hub r s) := by
  unfold journal
  dsimp only
  split <;> rfl

theorem deleteObjs_storeOnly (hub : Nat) (which : Obj → Bool) (s : State) : StoreOnly s (deleteObjs hub which s) :=
  (StoreOnly.put _ s).trans (forEach_rel StoreOnly.refl StoreOnly.trans (fun _ t => journal_storeOnly hub _ t) _ _)

theorem issueObject_storeOnly (hub : Nat) (s : State) : StoreOnly s (issueObject hub s).2 := by
  have next : StoreOnly s (if s.store.objEnd ≤ s.store.nextObj then
      journal hub { kind := 10, subject := s.store.nextObj, value := s.store.nextObj + objectBlock }
        { s with store := { s.store with objEnd := s.store.nextObj + objectBlock } } else s) := by
    split
    · exact (StoreOnly.put _ s).trans (journal_storeOnly hub _ _)
    · rfl
  exact next.trans (StoreOnly.put _ _)

theorem reserveObject_storeOnly (x : Session) (ingot quantised : Bool) (pages : Nat) (s : State) :
    StoreOnly s (reserveObject x ingot quantised pages s).2 :=
  ((issueObject_storeOnly _ s).trans (StoreOnly.put _ _)).trans (journal_storeOnly _ _ _)

/-- `t` differs from `s` in its functions alone. -/
def FnsOnly (s t : State) : Prop := t = { s with fns := t.fns }

theorem FnsOnly.refl (s : State) : FnsOnly s s := rfl

theorem FnsOnly.trans {s t u : State} (a : FnsOnly s t) (b : FnsOnly t u) : FnsOnly s u := by
  unfold FnsOnly at *
  rw [b, a]

theorem FnsOnly.sess {s t : State} (a : FnsOnly s t) : t.sess = s.sess := by rw [a]

theorem emitOut_fnsOnly (b : Bool) (x : Session) (o : OutRec) (s : State) : FnsOnly s (emitOut b x o s) := rfl

theorem flushHeld_fnsOnly (b : Bool) (x : Session) (r : Request) (s : State) : FnsOnly s (flushHeld b x r s) := by
  unfold flushHeld
  dsimp only
  split <;> rfl

theorem tellDirectory_sess (h holder state : Nat) (s : State) : (tellDirectory h holder state s).sess = s.sess := by
  unfold tellDirectory
  split
  · dsimp only
    split
    · rfl
    · split <;> rfl
  · rfl

end Sys2Proof.Machine
end

section
/-! Allowances, deadlines and frames that run out, and the directory's sweep (R61, R62, R135, R139 to R142, Table 2-4). -/

namespace Sys2Proof.Machine

/-! ### Demotion and closing -/

theorem startDemotion_resting {h : Nat} {s : State} {x : Session} (hx : findSess s h = some x) (hr : resident x = true) (ho : x.op = none) :
    startDemotion false h s = streamFrozen h (onSess h (fun y => { y with op := some (.demotion false) }) (closeInput h s)) := by
  simp [startDemotion, hx, hr, ho]

/-- A demotion begun: the session's input text closes and the operation is under way. -/
theorem startDemotion_turns {h : Nat} {s : State} {x : Session} (hx : findSess s h = some x) (hr : resident x = true) (ho : x.op = none) :
    Turns h (fun _ y => y.op = some (.demotion false)) s (startDemotion false h s) ∧ QuietFrame s (startDemotion false h s) := by
  rw [startDemotion_resting hx hr ho]
  obtain ⟨closed, frame⟩ := closeInput_turns h s
  have begun := onSess_turns h (fun y => { y with op := some (.demotion false) }) (fun _ => rfl) (closeInput h s)
  have streamed := streamFrozen_tiers h (onSess h (fun y => { y with op := some (.demotion false) }) (closeInput h s))
  refine ⟨((closed.comp begun).thenSame streamed.sess).mono ?_, ?_⟩
  · rintro x y ⟨_, -, rfl⟩
    rfl
  · have put : QuietFrame (closeInput h s) (onSess h (fun y => { y with op := some (.demotion false) }) (closeInput h s)) := rfl
    exact (frame.trans put).trans streamed.frame.quiet

/-- What a session's call and its queue become with its recall query dropped. -/
def Stripped (x y : Session) : Prop := y = { x with call := y.call, queue := y.queue } ∧ (x.call = none → y = x)

theorem dropQueries_turns (h : Nat) (s : State) : Turns h Stripped s (dropQueries h s) := by
  unfold dropQueries
  extract_lets mine stripped
  refine Turns.afterSame (onSess_turns_as (R := Stripped) (fun x y r => by rw [r.1]) (fun x => ?_) _) rfl
  unfold stripped
  constructor
  · split <;> rfl
  · intro free
    rw [free]

/-- A session closed has its content gone and its entry, options and window left. -/
theorem closeSession_turns (h : Nat) (s : State) : Turns h (fun x y => y = emptied .closed x) s (closeSession h s) := by
  have release : Turns h (fun x y => y = emptied .closed x) s (releaseContent .closed h s) := by
    unfold releaseContent
    cases hx : findSess s h with
    | none => exact ⟨fun _ _ => rfl, fun x e => by rw [hx] at e; cases e⟩
    | some x =>
      have deleted : (deleteSessObjs x (releasePlaces (placesOf s x) s)).sess = s.sess :=
        (deleteObjs_storeOnly _ _ _).sess.trans (releasePlaces_tiers _ s).sess
      have found := (findSess_congr deleted h).trans hx
      have named : (emptied .closed x).handle = h := findSess_handle (x := x) hx
      have emptying : Turns h (fun x y => y = emptied .closed x) s _ :=
        (((setSess_turns found named).afterSame deleted).comp (dropQueries_turns h _)).mono fun a y ⟨_, ⟨ha, hb⟩, _, free⟩ => by
          rw [free (by rw [hb]; rfl), hb, ha]
      exact emptying.thenSame rfl
  exact release.thenSame ((tellDirectory_sess _ _ _ _).trans (anchor_frame 4 h _).1)

/-! ### A session's expired allowance -/

section
variable {h : Nat} {s : State} {x : Session} (hx : findSess s h = some x) (ha : x.allowance = 0)
include hx

/-- The allowance of a session that is MOVING or has an operation under way does not act. -/
theorem expire_busy (busy : x.op.isSome = true ∨ x.state = .moving) : expire h s = s := by
  unfold expire
  rw [hx]
  exact if_pos (by rcases busy with b | b <;> simp [b])

include ha

theorem expire_resting (ho : x.op = none) (hm : x.state ≠ .moving) (hk : x.allowKind = 1 ∨ x.allowKind = 2) : expire h s = startDemotion false h s := by
  rcases hk with hk | hk <;> simp [expire, hx, ha, ho, hm, hk]

theorem expire_warm (ho : x.op = none) (hm : x.state ≠ .moving) (hk : x.allowKind = 3) :
    expire h s = startPark false (parkForm s x 0) none h s := by
  simp [expire, hx, ha, ho, hm, hk]

theorem expire_parked (ho : x.op = none) (hm : x.state ≠ .moving) (hk : x.allowKind = 4) :
    Turns h (fun x y => y = emptied .closed x) s (expire h s) := by
  have closed := closeSession_turns h s
  obtain ⟨y, hy, rfl⟩ := closed.here x hx
  have act : expire h s = emitOut false (emptied .closed x) { outcome := .done, length := x.p, d0 := 4, reports := true } (closeSession h s) := by
    simp only [expire, hx, ha, ho, hk, hy]
    simp [hm, emptied]
  rw [act]
  exact closed.thenSame rfl

end

/-- A session whose residency allowance stands at zero. -/
def ranOut (x : Session) : Session := { x with allowance := 0 }

theorem exec_residency_expiry (h : Nat) (s : State) :
    exec (.residencyAllowanceExpiry h) s = .next (expire h (onSess h ranOut s)) := rfl

theorem findSess_ranOut {h : Nat} {s : State} {x : Session} (hx : findSess s h = some x) : findSess (onSess h ranOut s) h = some (ranOut x) :=
  findSess_onSess_self hx ranOut fun _ => rfl

theorem ranOut_turns (h : Nat) (s : State) : Turns h (fun x y => y = ranOut x) s (onSess h ranOut s) := onSess_turns h ranOut (fun _ => rfl) s

theorem residency_expiry_demotes {h : Nat} {s : State} {x : Session} (hx : findSess s h = some x) (ho : x.op = none) (hr : resident x = true)
    (hk : x.allowKind = 1 ∨ x.allowKind = 2) :
    ∃ t y, exec (.residencyAllowanceExpiry h) s = .next t ∧ findSess t h = some y ∧ y.op = some (.demotion false) ∧
      (∀ k, k ≠ h → findSess t k = findSess s k) ∧ t.sched.pour = s.sched.pour ∧ t.models = s.models ∧ t.store = s.store ∧ t.rcl = s.rcl ∧
      t.links = s.links := by
  have still : (ranOut x).state ≠ .moving := fun e => by
    have e' : x.state = .moving := e
    simp [resident, e'] at hr
  have run := exec_residency_expiry h s
  rw [expire_resting (findSess_ranOut hx) rfl ho still hk] at run
  obtain ⟨begun, frame⟩ := startDemotion_turns (findSess_ranOut hx) hr ho
  have all := (ranOut_turns h s).comp begun
  obtain ⟨y, hy, _, -, op⟩ := all.here x hx
  exact ⟨_, y, run, hy, op, all.others, startDemotion_pour false h _, frame.parts⟩

theorem residency_expiry_closes {h : Nat} {s : State} {x : Session} (hx : findSess s h = some x) (ho : x.op = none) (hm : x.state ≠ .moving)
    (hk : x.allowKind = 4) :
    ∃ t, exec (.residencyAllowanceExpiry h) s = .next t ∧ findSess t h = some (emptied .closed (ranOut x)) ∧ ∀ k, k ≠ h → findSess t k = findSess s k := by
  have all := (ranOut_turns h s).comp (expire_parked (findSess_ranOut hx) rfl ho hm hk)
  obtain ⟨y, hy, _, rfl, rfl⟩ := all.here x hx
  exact ⟨_, exec_residency_expiry h s, hy, all.others⟩

/-! ### The end of a request -/

/-- A session whose request has ended: its window settled, its call with what it queued gone, its allowance started anew. -/
def Ended (x y : Session) : Prop :=
  y = { x with window := y.window, queue := y.queue, request := none, call := none, toWait := false, spent := x.oneShot, allowKind := y.allowKind
               allowance := y.allowance, restored := y.restored }

theorem settle_session_turns (h seq : Nat) (o : OCode) (s : State) : Turns h (fun x y => y = { x with window := y.window }) s (settle (.session h) seq o s) :=
  (onSess_turns h (fun x => { x with window := windowSet x.window seq fun e => { e with outcome := some o } }) (fun _ => rfl) s).mono fun x y e => by rw [e]

/-- A session with its request taken off (R111). -/
def unasked (x : Session) : Session := { x with request := none, call := none, toWait := false, spent := x.oneShot }

/-- A request that ends with no message to answer: its held output, its settled entry, its record; then its session goes on without it. -/
theorem endRequest_steps {h : Nat} {s : State} {x : Session} {r : Request} (hx : findSess s h = some x) (hr : x.request = some r) (b : Bool) (o : OCode)
    (deliver : Bool) (d0 d1 : Nat) : ∃ record, endRequest b h o none deliver d0 d1 s = arm h (onSess h unasked (dropQueries h (emitOut b x record
      (settle r.win r.seq o (if deliver then flushHeld b x r s else s))))) := by
  unfold endRequest
  rw [hx]
  dsimp only
  rw [hr]
  exact ⟨_, rfl⟩

theorem endRequest_turns {h : Nat} {s : State} {x : Session} {r : Request} (hx : findSess s h = some x) (hr : x.request = some r) (hw : r.win = .session h)
    (b : Bool) (o : OCode) (deliver : Bool) (d0 d1 : Nat) : Turns h Ended s (endRequest b h o none deliver d0 d1 s) := by
  obtain ⟨record, steps⟩ := endRequest_steps hx hr b o deliver d0 d1
  rw [steps, hw]
  have said : (if deliver then flushHeld b x r s else s).sess = s.sess := by
    split
    · exact (flushHeld_fnsOnly b x r s).sess
    · rfl
  have settled := (settle_session_turns h r.seq o (if deliver then flushHeld b x r s else s)).afterSame said
  have dropped := (settled.thenSame (emitOut_fnsOnly b x record _).sess).comp (dropQueries_turns h _)
  refine ((dropped.comp (onSess_turns h unasked (fun _ => rfl) _)).comp (arm_turns h _)).mono ?_
  rintro x z ⟨_, ⟨_, ⟨_, w, q, -⟩, rfl⟩, a⟩
  unfold Ended
  rw [a, q, w]
  rfl

/-- A session that stops waiting for a result: its state and its allowance alone change. -/
theorem stopWaiting_turns (h : Nat) (s : State) :
    Turns h (fun x y => y = { x with state := y.state, toWait := y.toWait, allowKind := y.allowKind, allowance := y.allowance, restored := y.restored }) s
      (stopWaiting h s) := by
  have woken := onSess_turns h (fun x => if x.state == .waitingTool then { x with state := awake x, toWait := false } else x) (fun x => by split <;> rfl) s
  refine (woken.comp (arm_turns h _)).mono ?_
  rintro x y ⟨_, rfl, a⟩
  rw [a]
  dsimp only
  split <;> rfl

/-! ### Deadlines -/

/-- A session whose request's allowance stands at zero, where the request is of the class `c`. -/
def dueRequest (c : Nat) (x : Session) : Session :=
  { x with request := x.request.map fun r => if r.dclass = c then { r with allowance := 0 } else r }

theorem freeSpent_unspent {h : Nat} {s : State} {x : Session} (hx : findSess s h = some x) (hs : x.spent = false) : freeSpent h s = s := by
  simp [freeSpent, hx, hs]

theorem drainHeld_none {h : Nat} {s : State} {x : Session} (hx : findSess s h = some x) (hm : x.heldMsgs = []) : drainHeld h s = s := by
  simp [drainHeld, hx, hm, drainWithFuel]

/-- With no pour under way, a request of a hard deadline that stands at zero ends; another goes on. -/
theorem checkDeadline_turns {h : Nat} {s : State} {x : Session} {r : Request} (hx : findSess s h = some x) (hr : x.request = some r)
    (hw : r.win = .session h) (hp : r.paused = false) (hm : x.state ≠ .moving) (none : unreleased s = []) (ha : r.dclass = 2 → r.allowance = 0) :
    Turns h (fun x y => (r.dclass = 2 → y.request = Option.none ∧ y.spent = x.oneShot) ∧ (r.dclass ≠ 2 → y.request = x.request ∧ y.spent = x.spent) ∧
      y.heldMsgs = x.heldMsgs) s (checkDeadline false h s) := by
  by_cases hc : r.dclass = 2
  · have act : checkDeadline false h s = stopWaiting h (endRequest false h .deadline Option.none true 0 0 s) := by
      simp [checkDeadline, hx, hr, none, hc, ha hc, hp, hm]
    rw [act]
    refine ((endRequest_turns hx hr hw _ _ _ _ _).comp (stopWaiting_turns h _)).mono ?_
    rintro x y ⟨_, e, a⟩
    rw [a, e]
    exact ⟨fun _ => ⟨rfl, rfl⟩, fun c => absurd hc c, rfl⟩
  · have act : checkDeadline false h s = s := by simp [checkDeadline, hx, hr, hc]
    rw [act]
    exact Turns.same rfl fun x => ⟨fun c => absurd c hc, fun _ => ⟨rfl, rfl⟩, rfl⟩

theorem exec_hard_idle {h : Nat} {s : State} (hp : s.sched.pour = none) :
    exec (.hardDeadlineExpiry h) s = .next (drainHeld h (freeSpent h (checkDeadline false h (onSess h (dueRequest 2) s)))) := by
  show Host.Outcome.next (if s.sched.pour.isSome then onSess h (dueRequest 2) s else _) = _
  rw [hp]
  rfl

theorem exec_hard_flying {h : Nat} {s : State} (hp : s.sched.pour.isSome = true) :
    exec (.hardDeadlineExpiry h) s = .next (onSess h (dueRequest 2) s) := congrArg _ (if_pos hp)

theorem exec_soft (h : Nat) (s : State) : exec (.softDeadlineExpiry h) s = .next (onSess h (dueRequest 1) s) := rfl

/-- A hard deadline that expires with no pour under way: its request has ended, and a request of another class goes on. -/
theorem hard_expiry_ends {h : Nat} {s : State} {x : Session} {r : Request} (hx : findSess s h = some x) (hr : x.request = some r)
    (hw : r.win = .session h) (hp : r.paused = false) (hm : x.state ≠ .moving) (ho : x.oneShot = false) (hs : x.spent = false) (hh : x.heldMsgs = [])
    (hpour : s.sched.pour = none) (hsus : s.sched.suspended = []) :
    ∃ t y, exec (.hardDeadlineExpiry h) s = .next t ∧ findSess t h = some y ∧ (r.dclass = 2 → y.request = none) ∧
      (r.dclass ≠ 2 → y.request = some r) ∧ ∀ k, k ≠ h → findSess t k = findSess s k := by
  have due := findSess_onSess_self hx (dueRequest 2) fun _ => rfl
  have asked : (dueRequest 2 x).request = some (if r.dclass = 2 then { r with allowance := 0 } else r) := by simp [dueRequest, hr]
  have quiet : unreleased (onSess h (dueRequest 2) s) = [] := by simp [unreleased, hpour, hsus]
  have checked := checkDeadline_turns due asked (by split <;> exact hw) (by split <;> exact hp) hm quiet fun c => by
    split
    · rfl
    · next n => rw [if_neg n] at c; exact absurd c n
  have same : (if r.dclass = 2 then { r with allowance := 0 } else r).dclass = r.dclass := by split <;> rfl
  rw [same] at checked
  obtain ⟨y, hy, hard, soft, held⟩ := checked.here _ due
  have unspent : y.spent = false := by
    by_cases c : r.dclass = 2
    · exact (hard c).2.trans ho
    · exact (soft c).2.trans hs
  refine ⟨_, y, exec_hard_idle hpour, ?_, fun c => (hard c).1, fun c => ?_, fun k hk => ?_⟩
  · rw [freeSpent_unspent hy unspent, drainHeld_none hy (held.trans hh)]
    exact hy
  · rw [(soft c).1, asked, if_neg c]
  · rw [freeSpent_unspent hy unspent, drainHeld_none hy (held.trans hh), checked.others k hk]
    exact (onSess_turns h (dueRequest 2) (fun _ => rfl) s).others k hk

/-- A deadline that only stands at zero: nothing else is changed. -/
theorem dueRequest_stands (c h : Nat) (s : State) :
    let t := onSess h (dueRequest c) s
    t = { s with sess := t.sess } ∧ (∀ k, k ≠ h → findSess t k = findSess s k) ∧ findSess t h = (findSess s h).map (dueRequest c) := by
  refine ⟨rfl, (onSess_turns h (dueRequest c) (fun _ => rfl) s).others, ?_⟩
  rw [findSess_onSess h h (dueRequest c) fun _ => rfl, if_pos rfl]

/-! ### Frames -/

/-- A queued frame of number `n` with its allowance, where one runs, at zero (R135). -/
def dueFrame (n : Nat) (q : QItem) : QItem :=
  match q with
  | .frame k sq ps (some a) d o i => if k = n then .frame k sq ps (some 0) d o i else .frame k sq ps (some a) d o i
  | _ => q

/-- A queued frame found late marked answered (R135). -/
def answeredFrame (q : QItem) : QItem := match q with | .frame n sq ps (some 0) false o i => .frame n sq ps (some 0) true o i | _ => q

/-- A session with every queued item changed. -/
def requeued (f : QItem → QItem) (x : Session) : Session := { x with queue := x.queue.map f }

/-- The frames found late are marked, and each is answered in a record of its own. -/
theorem checkFrames_steps {h : Nat} {s : State} {x : Session} (hx : findSess s h = some x) (b : Bool) :
    FnsOnly (onSess h (requeued answeredFrame) s) (checkFrames b h s) := by
  have steps : ∃ (late : List QItem) (answer : QItem → State → State),
      checkFrames b h s = forEach late answer (onSess h (requeued answeredFrame) s) ∧ ∀ q t, FnsOnly t (answer q t) := by
    unfold checkFrames
    rw [hx]
    refine ⟨_, _, rfl, fun q t => ?_⟩
    split <;> rfl
  obtain ⟨late, answer, run, quiet⟩ := steps
  rw [run]
  exact forEach_rel FnsOnly.refl FnsOnly.trans quiet late _

/-- A frame of the number that is still queued has its allowance at zero, or none ran for it. -/
theorem dueFrame_zero {n sq ps o : Nat} {a : Option Nat} {d i : Bool} {l : List QItem} (hq : .frame n sq ps a d o i ∈ l.map (dueFrame n)) :
    a = none ∨ a = some 0 := by
  obtain ⟨q, -, e⟩ := List.mem_map.mp hq
  unfold dueFrame at e
  split at e
  · split at e <;> cases e
    · exact .inr rfl
    · contradiction
  · next running =>
    cases a with
    | none => exact .inl rfl
    | some a => exact absurd e (running n sq ps a d o i)

/-- A frame still queued of those marked has no allowance, has some of it left, or has been answered. -/
theorem answeredFrame_done {n sq ps o : Nat} {a : Option Nat} {d i : Bool} {l : List QItem} (hq : .frame n sq ps a d o i ∈ l.map answeredFrame) :
    (a = some 0 → d = true) ∧ ∃ d', .frame n sq ps a d' o i ∈ l := by
  obtain ⟨q, mem, e⟩ := List.mem_map.mp hq
  unfold answeredFrame at e
  split at e
  · cases e
    exact ⟨fun _ => rfl, _, mem⟩
  · next late =>
    subst e
    refine ⟨fun ha => ?_, d, mem⟩
    subst ha
    cases d with
    | true => rfl
    | false => exact absurd rfl (late n sq ps o i)

theorem exec_frame_expiry (h n : Nat) (s : State) :
    exec (.frameAllowanceExpiry h n) s =
      .next (if s.sched.pour.isSome then onSess h (requeued (dueFrame n)) s else checkFrames false h (onSess h (requeued (dueFrame n)) s)) := rfl

/-- A frame's allowance that runs out: it stands at zero, and with no pour in flight the frame is marked answered. -/
theorem frame_expiry_answers {h : Nat} {s : State} {x : Session} (hx : findSess s h = some x) (n : Nat) :
    ∃ t y, exec (.frameAllowanceExpiry h n) s = .next t ∧ findSess t h = some y ∧ y.queue.length = x.queue.length ∧
      (∀ sq ps a d o i, .frame n sq ps a d o i ∈ y.queue → a = none ∨ (a = some 0 ∧ (s.sched.pour = none → d = true))) ∧
      (∀ k, k ≠ h → findSess t k = findSess s k) ∧ t = { s with sess := t.sess, fns := t.fns } := by
  have due := onSess_turns h (requeued (dueFrame n)) (fun _ => rfl) s
  have found := findSess_onSess_self hx (requeued (dueFrame n)) fun _ => rfl
  rw [exec_frame_expiry]
  cases hp : s.sched.pour with
  | some p =>
    refine ⟨_, _, rfl, found, List.length_map .., fun sq ps a d o i hq => ?_, due.others, rfl⟩
    exact (dueFrame_zero hq).imp id fun ha => ⟨ha, fun c => by cases c⟩
  | none =>
    have answered := checkFrames_steps found false
    have marked := (due.comp (onSess_turns h (requeued answeredFrame) (fun _ => rfl) _)).thenSame answered.sess
    obtain ⟨y, hy, _, rfl, rfl⟩ := marked.here x hx
    refine ⟨_, _, rfl, hy, by simp [requeued], fun sq ps a d o i hq => ?_, marked.others, ?_⟩
    · obtain ⟨done, d', before⟩ := answeredFrame_done hq
      exact (dueFrame_zero before).imp id fun ha => ⟨ha, fun _ => done ha⟩
    · have frame : checkFrames false h (onSess h (requeued (dueFrame n)) s) = _ := answered
      dsimp only [Option.isSome_none, Bool.false_eq_true, if_false]
      rw [frame]
      rfl

/-! ### The sweep -/

theorem findKey_map {α : Type} {key : α → Nat} {f : α → α} (hf : ∀ x, key (f x) = key x) (k : Nat) (l : List α) :
    findKey key k (l.map f) = (findKey key k l).map f := by
  unfold findKey
  rw [List.find?_map]
  congr 2
  funext x
  simp [hf]

theorem runSession_handle (us : Nat) (x : Session) : (runSession us x).handle = x.handle := by
  unfold runSession
  dsimp only
  split <;> rfl

theorem findSess_passTime (us h : Nat) (s : State) : findSess (passTime us s) h = (findSess s h).map (runSession us) :=
  findKey_map (runSession_handle us) h s.sess

/-- Every meter moves on by the time that passes (log entry 11). -/
theorem meterNs_passTime {d : Nat} {s : State} (hd : d < s.dev.meters.length) (us : Nat) : meterNs (passTime us s) d = meterNs s d + us * 1000 := by
  show ((s.dev.meters.map fun (m : Meter) => { m with ns := m.ns + us * 1000 }).getD d {}).ns = (s.dev.meters.getD d {}).ns + us * 1000
  simp [List.getD_eq_getElem?_getD, hd]

/-- Time that passes runs a session's allowance down, unless it is MOVING (R423). -/
theorem runSession_allowance (us : Nat) (x : Session) : (runSession us x).state = x.state ∧ (runSession us x).p = x.p ∧
    (runSession us x).allowance = if x.state = .moving then x.allowance else x.allowance - us := by
  unfold runSession
  by_cases h : x.state = .moving <;> simp [h, runDown]

/-- Settles O37: each event's equation, read off at the session that it names. -/
theorem allowancesRunOut : Obligations.AllowancesRunOut := by
  unfold Obligations.AllowancesRunOut
  refine ⟨fun h s x hx ho hr hk => residency_expiry_demotes hx ho hr hk,
    fun h s u x hx hu => ⟨fun ho hm hk => ?warm, fun busy => ?busy⟩, fun h s x hx ho hm hk => ?parked,
    fun h s x r hx hr hw hp hm hos hs hh hpour hsus => hard_expiry_ends hx hr hw hp hm hos hs hh hpour hsus,
    fun h s hp => ⟨_, exec_hard_flying hp, dueRequest_stands 2 h s⟩, fun h s => ⟨_, exec_soft h s, dueRequest_stands 1 h s⟩,
    fun h n s x hx => frame_expiry_answers hx n, fun us s => ⟨_, rfl, rfl⟩, fun us s => ⟨fun d hd => meterNs_passTime hd us, fun h x hx => ?time⟩⟩
  case warm =>
    subst hu
    rw [exec_residency_expiry, expire_warm (findSess_ranOut hx) rfl ho hm hk]
    rfl
  case busy =>
    subst hu
    rw [exec_residency_expiry, expire_busy (findSess_ranOut hx) busy]
    rfl
  case parked =>
    obtain ⟨t, run, here, others⟩ := residency_expiry_closes hx ho hm hk
    exact ⟨t, _, run, here, rfl, rfl, rfl, rfl, rfl, rfl, rfl, others⟩
  case time =>
    refine ⟨runSession us x, ?_, runSession_allowance us x⟩
    rw [findSess_passTime, hx]
    rfl

end Sys2Proof.Machine
end

section
/-! Demotions, revivals, remelts and parks that reach their commit step (R60, R67, R235, R254, R256, R372, Table 2-3). -/

namespace Sys2Proof.Machine

/-! ### Demotion -/

/-- A page that its session's demotion has put in order: no longer in T1 unless molten, and not casting. -/
def Cooled (g : Page) : Prop := g.cond ≠ .casting ∧ (g.cond ≠ .molten → g.inT1 = false)

/-- A page stays put in order. -/
def StaysCooled (g g' : Page) : Prop := Cooled g → Cooled g'

theorem staysCooled_order : PageOrder StaysCooled where
  refl _ := id
  trans a b := b ∘ a

theorem SeatedPage.parts {g g' : Page} (a : SeatedPage g g') : g'.cond = g.cond ∧ g'.inT1 = g.inT1 ∧ g'.row = g.row ∧ g'.layer = g.layer := by
  rw [a]
  exact ⟨rfl, rfl, rfl, rfl⟩

/-- An object frozen where there is room leaves pages in order. -/
theorem freezeIn_lays {h : Nat} {P : Page → Page → Prop} (o : PageOrder P) (x : Session) (kib : Nat) {put : List Nat → State → State}
    (hput : ∀ ps t, Lays h P t (put ps t)) (s : State) : Lays h P s (freezeIn x kib put s) := by
  unfold freezeIn
  split
  · have drawn : Lays h P s (drawFree s) := Lays.same o rfl rfl
    exact drawn.trans o (hput _ _)
  · exact Lays.refl o s

/-- A page that was cast leaves T1 with its session's demotion. -/
def leaveT1 (g : Page) : Page := if g.cond = .cast then { g with inT1 := false, frame := noFrame } else g

/-- A session whose cast pages have left T1. -/
def castOut (x : Session) : Session := { x with pages := x.pages.map leaveT1 }

/-- With the cast pages out of T1, a demotion's freezing brings no page that is in order out of it. -/
theorem freezeAll_lays {h : Nat} {s : State} {x : Session} {p : ModelProgram} (hx : findSess s h = some x) (hp : sessProg s x = some p) :
    Lays h StaysCooled (onSess h castOut s) (freezeAll h s) := by
  have o := staysCooled_order
  have pages := forEach_lays (h := h) o (fun (g : Page) t => freezeIn_lays o x (frameKib p g)
    (fun ps u => onPage_lays (f := freezePage ps) (row := g.row) (layer := g.layer) o (fun k _ _ _ => ⟨by simp [freezePage], fun _ => rfl⟩) u) t)
    (x.pages.filter fun g => g.cond == .molten) (onSess h castOut s)
  have blks (u : State) := forEach_lays (h := h) o (fun (b : Blk) t => freezeIn_lays o x (ceilDiv b.size 1024) (fun ps u => onBlk_lays o b (freezeBlk ps) u) t)
    (x.blks.filter fun b => b.cond != .frozen) u
  have leaves (u : State) := forEach_lays (h := h) o (fun (l : Leaf) t => freezeIn_lays o x leafKib (fun ps u => onLeaf_lays o l.range (freezeLeaf ps) u) t)
    (x.leaves.filter fun l => !l.frozen) u
  unfold freezeAll
  simp only [hx, hp]
  exact (pages.trans o (blks _)).trans o (leaves _)

/-- A session of which nothing but its pages, blocks and leaves has changed. -/
def Relaid (x y : Session) : Prop := y = { x with pages := y.pages, blks := y.blks, leaves := y.leaves }

/-- After the freezing of a session with no page casting, every page is in order. -/
theorem freezeAll_cools {h : Nat} {s : State} {x : Session} {p : ModelProgram} (hx : findSess s h = some x) (hp : sessProg s x = some p)
    (calm : ∀ g ∈ x.pages, g.cond ≠ .casting ∧ (g.cond = .frozen → g.inT1 = false)) :
    ∃ y, findSess (freezeAll h s) h = some y ∧ Relaid x y ∧ ∀ g ∈ y.pages, Cooled g := by
  obtain ⟨y, hy, e, pages⟩ := (freezeAll_lays hx hp).here _ (findSess_onSess_self hx castOut fun _ => rfl)
  refine ⟨y, hy, e, fun g hg => ?_⟩
  obtain ⟨g1, hg1, stays⟩ := forall₂_mem pages hg
  obtain ⟨g0, hg0, rfl⟩ := List.mem_map.mp hg1
  obtain ⟨still, cold⟩ := calm g0 hg0
  refine stays ?_
  unfold Cooled leaveT1
  cases hc : g0.cond with
  | molten => simp [hc]
  | casting => exact absurd hc still
  | cast => simp
  | frozen => simp [hc, cold hc]

theorem freezeAll_frame {h : Nat} {s : State} {x : Session} {p : ModelProgram} (hx : findSess s h = some x) (hp : sessProg s x = some p) :
    (∀ k, k ≠ h → findSess (freezeAll h s) k = findSess s k) ∧ PlaceFrame s (freezeAll h s) := by
  have out := onSess_turns h castOut (fun _ => rfl) s
  have laid := freezeAll_lays hx hp
  have put : PlaceFrame s (onSess h castOut s) := rfl
  exact ⟨(out.comp laid.toTurns).others, put.trans laid.frame⟩

/-- A demotion that has committed: WARM, its lengths and its pending token in its header (R60, R69, R74). -/
def warmed (us : Nat) (x : Session) : Session :=
  { x with state := .warm, op := none, warmAt := us, header := some (x.p, x.w, x.pendingTok) }

/-- What a session demoted with a request in progress adds to the queue of R232, where pressure demoted it. -/
def queuedBack (pressure : Bool) (x : Session) (s : State) : State := if pressure then queueRevival x s else s

theorem queuedBack_tiers (pressure : Bool) (x : Session) (s : State) : TiersOnly s (queuedBack pressure x s) := by
  unfold queuedBack queueRevival
  split
  · split <;> rfl
  · rfl

/-- What follows the freezing of a demotion that commits. -/
def goWarm (pressure : Bool) (us h : Nat) (x : Session) (s : State) : State :=
  arm h (endStream (.frozen h) (queuedBack pressure x (anchor 2 h (seat h (onSess h (warmed us) s)))))

/-- A session just demoted: nothing of its content but where its pages lie is changed. -/
def Demoted (x y : Session) : Prop :=
  y.state = .warm ∧ y.op = none ∧ y.tokens = x.tokens ∧ y.p = x.p ∧ y.w = x.w ∧ List.Forall₂ SeatedPage x.pages y.pages

theorem goWarm_turns (pressure : Bool) (us h : Nat) (x : Session) (s : State) :
    Turns h Demoted s (goWarm pressure us h x s) ∧ QuietFrame s (goWarm pressure us h x s) := by
  have marked := onSess_turns h (warmed us) (fun _ => rfl) s
  have seated := seat_lays h (onSess h (warmed us) s)
  obtain ⟨anchored, frame⟩ := anchor_frame 2 h (seat h (onSess h (warmed us) s))
  have queue := queuedBack_tiers pressure x (anchor 2 h (seat h (onSess h (warmed us) s)))
  constructor
  · refine (((marked.comp seated.toTurns).thenSame ((queue.trans (endStream_tiers (.frozen h) _)).sess.trans anchored)).comp (arm_turns h _)).mono ?_
    rintro x y ⟨_, ⟨_, rfl, e, pages⟩, a⟩
    unfold Demoted
    rw [a, e]
    exact ⟨rfl, rfl, rfl, rfl, rfl, pages⟩
  · have put : PlaceFrame s (onSess h (warmed us) s) := rfl
    have armed : PlaceFrame (queuedBack pressure x (anchor 2 h (seat h (onSess h (warmed us) s)))) (goWarm pressure us h x s) := rfl
    exact ((((put.trans seated.frame).trans frame).trans queue.frame).trans armed).quiet

/-- A demotion whose copies all find room commits. -/
theorem commitDemotion_goes {h : Nat} {s : State} {x : Session} {pressure : Bool} (hx : findSess (closeInput h s) h = some x)
    (ho : x.op = some (.demotion pressure)) (calm : x.pages.any (fun g => g.cond == .casting) = false)
    (fits : allFrozen h (freezeAll h (closeInput h s)) = true) :
    commitDemotion h s = goWarm pressure (leadNs (closeInput h s) / 1000) h x (freezeAll h (closeInput h s)) := by
  unfold commitDemotion
  simp only [hx, ho, calm, fits]
  cases pressure <;> rfl

theorem sessProg_congr {s t : State} {x y : Session} (e : t.models = s.models) (m : y.model = x.model) : sessProg t y = sessProg s x := by
  unfold sessProg progOf findModel
  rw [e, m]

/-- Where a demotion's freezing has found room for all, no page is molten. -/
theorem allFrozen_pages {h : Nat} {s : State} {y : Session} (hy : findSess s h = some y) (frozen : allFrozen h s = true) :
    ∀ g ∈ y.pages, g.cond ≠ .molten := by
  unfold allFrozen at frozen
  rw [hy] at frozen
  simp only [Option.all_some, Bool.and_eq_true, List.all_eq_true, bne_iff_ne] at frozen
  exact frozen.1.1

/-- A demotion committed leaves the session WARM with no page in T1 and none molten, and nothing said of any other. -/
theorem commitDemotion_warm {h : Nat} {s : State} {x : Session} {p : ModelProgram} {pressure : Bool} (hx : findSess s h = some x)
    (ho : x.op = some (.demotion pressure)) (hp : sessProg s x = some p)
    (calm : ∀ g ∈ x.pages, g.cond ≠ .casting ∧ (g.cond = .frozen → g.inT1 = false)) (fits : demotionFits s x = true) :
    ∃ y, findSess (commitDemotion h s) h = some y ∧ y.state = .warm ∧ y.op = none ∧ (∀ g ∈ y.pages, g.inT1 = false ∧ g.cond ≠ .molten) ∧
      y.tokens = x.tokens ∧ y.p = x.p ∧ y.w = x.w ∧ (∀ k, k ≠ h → findSess (commitDemotion h s) k = findSess s k) ∧
      QuietFrame s (commitDemotion h s) := by
  obtain ⟨closed, quiet⟩ := closeInput_turns h s
  obtain ⟨x1, hx1, e1⟩ := closed.here x hx
  have ho1 : x1.op = some (.demotion pressure) := by rw [e1]; exact ho
  have pages1 : x1.pages = x.pages := by rw [e1]
  have hp1 : sessProg (closeInput h s) x1 = some p := (sessProg_congr quiet.parts.1 (by rw [e1])).trans hp
  have calm1 : x1.pages.any (fun g => g.cond == .casting) = false := by
    rw [pages1, List.any_eq_false]
    exact fun g hg => by simpa using (calm g hg).1
  have fits1 : allFrozen h (freezeAll h (closeInput h s)) = true := findSess_handle hx ▸ fits
  obtain ⟨y, hy, laid, cooled⟩ := freezeAll_cools hx1 hp1 (pages1 ▸ calm)
  have hot := allFrozen_pages hy fits1
  obtain ⟨others, frame⟩ := freezeAll_frame hx1 hp1
  obtain ⟨gone, rest⟩ := goWarm_turns pressure (leadNs (closeInput h s) / 1000) h x1 (freezeAll h (closeInput h s))
  obtain ⟨z, hz, state, op, tokens, hpos, hw, seated⟩ := gone.here y hy
  rw [commitDemotion_goes hx1 ho1 calm1 fits1]
  refine ⟨z, hz, state, op, fun g hg => ?_, ?_, ?_, ?_, fun k hk => ?_, (quiet.trans frame.quiet).trans rest⟩
  · obtain ⟨g0, hg0, same⟩ := forall₂_mem seated hg
    rw [same.parts.1, same.parts.2.1]
    exact ⟨(cooled g0 hg0).2 (hot g0 hg0), hot g0 hg0⟩
  · rw [tokens, laid, e1]
  · rw [hpos, laid, e1]
  · rw [hw, laid, e1]
  · rw [gone.others k hk, others k hk, closed.others k hk]

theorem exec_demotion_commit {h : Nat} {s : State} {x : Session} {pressure : Bool} (hx : findSess s h = some x) (ho : x.op = some (.demotion pressure)) :
    exec (.demotionCommit h) s = .next (if demotionFits s x then admitHeld (drainHeld h (relieve (commitDemotion h s)))
      else stall { partition := sessPart s x, handle := h, kind := 2, row := 0, layer := 0 } s) := by
  show Host.Outcome.next (finishDemotion h s) = _
  unfold finishDemotion
  rw [hx]
  dsimp only
  rw [ho]

/-! ### Revival -/

/-- A revival's first phase in a session at hand: awake, its operation over, its content as `fromIngot`, `wakePage` and `applyTrim` leave it. -/
def Woken (remelt : Bool) (x y : Session) : Prop :=
  y.handle = x.handle ∧ y.state = awake x ∧ y.op = none ∧ y.ingot = 0 ∧ y.copying = remelt ∧
    (x.trimmed = none → ∀ g ∈ y.pages, remelt = false → g.cond ≠ .frozen)

theorem applyTrim_handle (s : State) (x : Session) : (applyTrim s x).handle = x.handle := by
  unfold applyTrim
  split <;> rfl

theorem fromIngot_handle (s : State) (x : Session) : (fromIngot s x).handle = x.handle := by
  unfold fromIngot
  split <;> rfl

/-- With no rewind recorded, nothing is cut. -/
theorem applyTrim_none (s : State) {x : Session} (hx : x.trimmed = none) : applyTrim s x = x := by
  cases x
  cases hx
  rfl

theorem wakePage_thaws (lastCast : Nat) (g : Page) : (wakePage false lastCast g).cond ≠ .frozen := by
  unfold wakePage
  by_cases hg : g.cond = .frozen <;> simp [hg]

theorem commitRevival_steps {h : Nat} {s : State} {x : Session} {remelt : Bool} (hx : findSess s h = some x) (ho : x.op = some (.revival remelt)) :
    ∃ y gone, Woken remelt x y ∧ commitRevival h s =
      arm h (anchor 1 h (dropAnchors h y.w (seat h (setSess y (releasePlaces gone (drawFree (endStream (.revived h) s))))))) := by
  unfold commitRevival
  rw [hx]
  dsimp only
  rw [ho]
  refine ⟨_, _, ⟨?handle, rfl, rfl, rfl, rfl, fun whole g hg asleep => ?thawed⟩, rfl⟩
  case handle =>
    refine (applyTrim_handle s _).trans ?_
    cases remelt
    · rfl
    · exact fromIngot_handle s x
  case thawed =>
    subst asleep
    rw [applyTrim_none s (by exact whole)] at hg
    obtain ⟨g0, -, rfl⟩ := List.mem_map.mp hg
    exact wakePage_thaws _ g0

theorem commitRevival_wakes {h : Nat} {s : State} {x : Session} {remelt : Bool} (hx : findSess s h = some x) (ho : x.op = some (.revival remelt)) :
    Turns h (fun a z => a = x → z.op = none ∧ z.ingot = 0 ∧ z.copying = remelt ∧ z.state = awake x ∧
      (x.trimmed = none → ∀ g ∈ z.pages, remelt = false → g.cond ≠ .frozen)) s (commitRevival h s) ∧ PlaceFrame s (commitRevival h s) := by
  obtain ⟨y, gone, ⟨named, state, op, ingot, copying, thawed⟩, run⟩ := commitRevival_steps hx ho
  rw [run]
  have before : PlaceFrame s (releasePlaces gone (drawFree (endStream (.revived h) s))) := by
    have drawn : PlaceFrame s (drawFree (endStream (.revived h) s)) := rfl
    exact drawn.trans (releasePlaces_tiers gone _).frame
  have sess : (releasePlaces gone (drawFree (endStream (.revived h) s))).sess = s.sess := (releasePlaces_tiers gone _).sess
  generalize releasePlaces gone (drawFree (endStream (.revived h) s)) = u at *
  have put := (setSess_turns ((findSess_congr sess h).trans hx) (named.trans (findSess_handle hx))).afterSame sess
  have seated := seat_lays h (setSess y u)
  obtain ⟨anchored, frame⟩ := anchor_frame 1 h (dropAnchors h y.w (seat h (setSess y u)))
  constructor
  · refine (((put.comp seated.toTurns).thenSame anchored).comp (arm_turns h _)).mono ?_
    rintro a z ⟨_, ⟨_, ⟨rfl, rfl⟩, e, pages⟩, e'⟩ -
    rw [e', e]
    refine ⟨op, ingot, copying, state, fun whole g hg asleep => ?_⟩
    obtain ⟨g0, hg0, same⟩ := forall₂_mem pages hg
    rw [same.parts.1]
    exact thawed whole g0 hg0 asleep
  · have dropped : PlaceFrame (seat h (setSess y u)) (dropAnchors h y.w (seat h (setSess y u))) := rfl
    have set : PlaceFrame u (setSess y u) := rfl
    exact ((((before.trans set).trans seated.frame).trans dropped).trans frame).trans rfl

theorem exec_revival_end {h : Nat} {s : State} {x : Session} {remelt : Bool} (hx : findSess s h = some x) (ho : x.op = some (.revival remelt)) :
    exec (.revivalPhase1End h) s =
      if s.ledger.waiting.isEmpty && holdUpFits s (saveSize s + sectionBytes s { x with state := .opened }) then .next (drainHeld h (commitRevival h s))
      else if s.ledger.waiting.contains (.revivalPhase1End h) then .next s
      else .next { s with ledger := { s.ledger with waiting := s.ledger.waiting ++ [.revivalPhase1End h] } } := by
  show execRevivalPhase1End h s = _
  unfold execRevivalPhase1End
  rw [hx]
  dsimp only
  rw [ho]

/-! ### Remelting -/

/-- A page that the second phase of a remelt may give T2 copies and space: where it has none given, those that it had. -/
def Recopied (g g' : Page) : Prop :=
  g' = { g with handle := g'.handle, frame := g'.frame, lower0 := g'.lower0, lower1 := g'.lower1, pools := g'.pools, first := g'.first
                second := g'.second, inStore := g'.inStore } ∧
    ((g'.first = g.first ∧ g'.pools = g.pools ∧ g'.inStore = g.inStore) ∨ (g'.first = true ∧ g'.pools ≠ []))

theorem recopied_order : PageOrder Recopied where
  refl _ := ⟨rfl, .inl ⟨rfl, rfl, rfl⟩⟩
  trans := by
    rintro a b c ⟨eb, kept | given⟩ ⟨ec, kept' | given'⟩
    · exact ⟨by rw [ec, eb], .inl ⟨kept'.1.trans kept.1, kept'.2.1.trans kept.2.1, kept'.2.2.trans kept.2.2⟩⟩
    · exact ⟨by rw [ec, eb], .inr given'⟩
    · exact ⟨by rw [ec, eb], .inr ⟨kept'.1.trans given.1, kept'.2.1 ▸ given.2⟩⟩
    · exact ⟨by rw [ec, eb], .inr given'⟩

theorem SeatedPage.recopied {g g' : Page} (a : SeatedPage g g') : Recopied g g' := by
  unfold SeatedPage at a
  rw [a]
  exact ⟨rfl, .inl ⟨rfl, rfl, rfl⟩⟩

theorem secondCopy_lays (h row layer : Nat) (s : State) : Lays h Recopied s (secondCopy h row layer s) := by
  have o := recopied_order
  unfold secondCopy
  split
  · exact Lays.refl o s
  · split
    · extract_lets want
      split
      · split
        · exact (stall_tiers _ s).lays o
        · extract_lets put t
          have copied : Lays h Recopied s t :=
            seat_onPage_lays o (fun _ _ => SeatedPage.recopied) (fun g _ _ => ⟨rfl, .inr ⟨rfl, List.append_ne_nil_of_right_ne_nil _ (by simp)⟩⟩) s
          split
          · exact copied
          · exact copied.trans o (anchorRow_lays o h row t)
      · exact Lays.refl o s
    · exact Lays.refl o s

theorem remeltPage_lays (h : Nat) (g : Page) (s : State) : Lays h Recopied s (remeltPage h g s) := by
  unfold remeltPage
  split
  · exact (secondCopy_lays _ _ _ s).trans recopied_order (secondCopy_lays _ _ _ _)
  · exact Lays.refl recopied_order s

/-- A session whose remelt has ended. -/
def remelted (x : Session) : Session := { x with copying := false }

theorem exec_remelt_end {h : Nat} {s : State} {x : Session} {p : ModelProgram} (hx : findSess s h = some x) (hp : sessProg s x = some p)
    (hc : x.copying = true) : exec (.remeltPhase2End h) s = .next (forEach (ingotOrder x) (remeltPage h) (onSess h remelted s)) := by
  show execRemeltPhase2End h s = _
  unfold execRemeltPhase2End
  rw [hx]
  exact if_pos (by simp [hc, hp])

/-! ### The object of a park -/

/-- The object `n` stands committed with both copies of its head. -/
def Committed (n : Nat) (s : State) : Prop :=
  ∃ o, findObj s n = some o ∧ o.deleted = false ∧ o.committed = true ∧ o.headOk = 2 ∧ o.reserved = 0

/-- What a change of the objects in place leaves of one that it leaves committed. -/
theorem Committed.map {n : Nat} {s t : State} {f : Obj → Obj} (e : t.store.objs = s.store.objs.map f) (num : ∀ o, (f o).num = o.num)
    (keep : ∀ o, o.num = n → o.deleted = false →
      (f o).deleted = false ∧ (f o).committed = o.committed ∧ (f o).headOk = o.headOk ∧ (f o).reserved = o.reserved)
    (c : Committed n s) : Committed n t := by
  obtain ⟨o, ho, live, done, head, free⟩ := c
  obtain ⟨k1, k2, k3, k4⟩ := keep o (findKey_some ho).1 live
  refine ⟨f o, ?_, k1, k2.trans done, k3.trans head, k4.trans free⟩
  unfold findObj
  rw [e, findKey_map num]
  exact congrArg (Option.map f) ho

theorem Committed.same {n : Nat} {s t : State} (e : t.store.objs = s.store.objs) (c : Committed n s) : Committed n t := by
  unfold Committed findObj at *
  rw [e]
  exact c

/-- An object found that a sieve keeps is found among what it keeps. -/
theorem findKey_filter {α : Type} {key : α → Nat} {k : Nat} {keep : α → Bool} {l : List α} {x : α} (h : findKey key k l = some x) (hx : keep x = true) :
    findKey key k (l.filter keep) = some x := by
  unfold findKey at *
  induction l with
  | nil => cases h
  | cons y l ih =>
    rw [List.find?_cons] at h
    cases hy : key y == k with
    | true =>
      rw [hy] at h
      cases h
      rw [List.filter_cons_of_pos hx, List.find?_cons, hy]
    | false =>
      rw [hy] at h
      by_cases kept : keep y = true
      · rw [List.filter_cons_of_pos kept, List.find?_cons, hy]
        exact ih h
      · rw [List.filter_cons_of_neg kept]
        exact ih h

/-- A flushed record leaves a committed object so. -/
theorem Committed.settleRecord {n : Nat} {s t : State} (keep : Bool) (r : JRec) (e : t.store.objs = Machine.settleRecord keep r s.store.objs)
    (c : Committed n s) : Committed n t := by
  unfold Machine.settleRecord at e
  split at e
  · obtain ⟨o, ho, live, rest⟩ := c
    refine ⟨o, ?_, live, rest⟩
    unfold findObj
    rw [e]
    exact findKey_filter ho (by simp [live])
  · split at e
    · refine c.map e (fun o => by split <;> rfl) fun o _ live => ?_
      split <;> exact ⟨live, rfl, rfl, rfl⟩
    · exact c.same e

theorem Committed.flushJournal {n : Nat} {s : State} (hub : Nat) (c : Committed n s) : Committed n (flushJournal hub s) := by
  have settled : ∀ (rs : List JRec) (t : State) (keep : Bool), Committed n t →
      Committed n { t with store := { t.store with objs := rs.foldl (fun os r => Machine.settleRecord keep r os) t.store.objs } } := by
    intro rs
    induction rs with
    | nil => exact fun t _ ct => ct
    | cons r rs ih =>
      exact fun t keep ct => ih { t with store := { t.store with objs := Machine.settleRecord keep r t.store.objs } } keep (ct.settleRecord keep r rfl)
  exact (settled _ s _ c).same rfl

theorem Committed.journal {n : Nat} {s : State} (hub : Nat) (r : JRec) (c : Committed n s) : Committed n (journal hub r s) := by
  unfold Machine.journal
  dsimp only
  split
  · exact Committed.flushJournal hub (c.same rfl)
  · exact c.same rfl

/-- Other objects deleted leave a committed one so. -/
theorem Committed.deleteObjs {n : Nat} {s : State} (hub : Nat) (which : Obj → Bool) (other : ∀ o, o.num = n → which o = false) (c : Committed n s) :
    Committed n (deleteObjs hub which s) := by
  have journalled : ∀ (l : List Obj) (t : State), Committed n t →
      Committed n (forEach l (fun o t => Machine.journal hub { kind := 3, tenant := o.tenant, subject := o.num } t) t) := by
    intro l
    induction l with
    | nil => exact fun t ct => ct
    | cons o l ih => exact fun t ct => ih _ (ct.journal hub _)
  refine journalled _ _ (c.map (f := fun o => if which o then { o with deleted := true, reserved := 0 } else o) rfl
    (fun o => by split <;> rfl) fun o named live => ?_)
  rw [other o named]
  exact ⟨live, rfl, rfl, rfl⟩

/-! ### Parks -/

/-- The object of a park committed and journalled, and every other object of its session deleted. -/
def ingotMade (hub tenant h obj : Nat) (f : Obj → Obj) (s : State) : State :=
  deleteObjs hub (fun o => o.handle == h && o.num != obj) (journal hub { kind := 2, tenant := tenant, subject := obj } (onObj obj f s))

/-- A session parked in the object `obj`. -/
def parkedIn (obj : Nat) (x : Session) : Session :=
  { x with state := .parked, op := none, ingot := obj, pages := [], blocks := [], snapshots := [], copying := false, blks := [], leaves := []
           header := some (x.p, x.w, x.pendingTok) }

/-- The answer to the message that asked for an operation, where one did. -/
def answerAsked (h : Nat) (ask : Option Ask) (s : State) : State :=
  match ask with
  | some a => answerAsk false h a .done 0 s
  | none => s

/-- A session as its ingot keeps it: its pages as stored, its operation over (R254). -/
def ingotBody (s : State) (x : Session) (quantise : Bool) : Session :=
  match sessProg s x with
  | some q => { x with pages := x.pages.map (ingotPage q quantise), op := none, heldMsgs := [], blks := [], leaves := [] }
  | none => { x with op := none, heldMsgs := [] }

/-- A park's object as its commit writes it. -/
def ingotObj (s : State) (x : Session) (quantise : Bool) (obj : Nat) (o : Obj) : Obj :=
  { o with pages := o.pages + o.reserved, reserved := 0, committed := true, headOk := 2, image := some (ingotBody s x quantise)
           head := ((sessProg s x).map fun q => ingotHead s q quantise obj x).getD [] }

/-- A change of an object that leaves it committed, with both copies of its head, if it is not deleted. -/
def CommitsObj (f : Obj → Obj) : Prop :=
  ∀ o, (f o).num = o.num ∧ (f o).deleted = o.deleted ∧ (f o).committed = true ∧ (f o).headOk = 2 ∧ (f o).reserved = 0

theorem ingotObj_commits (s : State) (x : Session) (quantise : Bool) (obj : Nat) : CommitsObj (ingotObj s x quantise obj) :=
  fun _ => ⟨rfl, rfl, rfl, rfl, rfl⟩

theorem commitPark_steps {h obj : Nat} {quantise : Bool} {ask : Option Ask} {s : State} {x : Session} (hx : findSess s h = some x)
    (ho : x.op = some (.park quantise obj ask)) (calm : x.pages.any (fun g => g.cond == .casting) = false) :
    ∃ gone, commitPark h s = answerAsked h ask (arm h (anchor 3 h (dropAnchors h 0 (onSess h (parkedIn obj)
      (releasePlaces gone (ingotMade (sessHub s x) x.tenant h obj (ingotObj s x quantise obj) s)))))) := by
  unfold commitPark
  rw [hx]
  dsimp only
  rw [ho]
  dsimp only
  rw [if_neg (ne_true_of_eq_false calm)]
  refine ⟨placesOf (ingotMade (sessHub s x) x.tenant h obj (ingotObj s x quantise obj) s) x, ?_⟩
  cases ask <;> rfl

theorem ingotMade_storeOnly (hub tenant h obj : Nat) (f : Obj → Obj) (s : State) : StoreOnly s (ingotMade hub tenant h obj f s) :=
  ((StoreOnly.put _ s).trans (journal_storeOnly _ _ _)).trans (deleteObjs_storeOnly _ _ _)

theorem ingotMade_committed {hub tenant h obj : Nat} {f : Obj → Obj} {s : State} {o : Obj} (made : CommitsObj f) (ho : findObj s obj = some o)
    (live : o.deleted = false) : Committed obj (ingotMade hub tenant h obj f s) := by
  obtain ⟨num, deleted, done, head, free⟩ := made o
  have written : Committed obj (onObj obj f s) :=
    ⟨f o, (updKey_finds ho fun k => (made k).1).1, deleted.trans live, done, head, free⟩
  exact (written.journal hub _).deleteObjs hub _ fun k named => by simp [named]

/-- A session parked in the object `obj`, with its tokens and nothing else of its content. -/
def Parked (obj : Nat) (x y : Session) : Prop :=
  y.state = .parked ∧ y.op = none ∧ y.ingot = obj ∧ y.pages = [] ∧ y.blocks = [] ∧ y.snapshots = [] ∧ y.copying = false ∧ y.tokens = x.tokens

/-- `t` differs from `s` in its functions, sessions, tiers, anchor log and the free values drawn alone. -/
def AnswerFrame (s t : State) : Prop :=
  t = { s with fns := t.fns, sess := t.sess, tiers := t.tiers, chk := { s.chk with anchors := t.chk.anchors }, free := t.free }

theorem PlaceFrame.answer {s t : State} (a : PlaceFrame s t) : AnswerFrame s t := by
  unfold AnswerFrame
  rw [a]

theorem AnswerFrame.trans {s t u : State} (a : AnswerFrame s t) (b : AnswerFrame t u) : AnswerFrame s u := by
  unfold AnswerFrame at *
  rw [b, a]

/-- A session with its window changed. -/
def Rewindowed (x y : Session) : Prop := y = { x with window := y.window }

theorem Rewindowed.handle (x y : Session) (a : Rewindowed x y) : y.handle = x.handle := (congrArg Session.handle a :)

/-- An answer settled in the session's own window changes that window, and is said to its function. -/
theorem answerAsked_turns {h : Nat} {ask : Option Ask} (own : ∀ a, ask = some a → a.win = .session h) (s : State) :
    Turns h Rewindowed s (answerAsked h ask s) ∧ AnswerFrame s (answerAsked h ask s) := by
  have same : Turns h Rewindowed s s ∧ AnswerFrame s s := ⟨Turns.same rfl fun _ => rfl, rfl⟩
  cases ask with
  | none => exact same
  | some a =>
    show Turns h Rewindowed s (answerAsk false h a .done 0 s) ∧ AnswerFrame s (answerAsk false h a .done 0 s)
    unfold answerAsk
    rw [own a rfl]
    split
    · exact same
    · refine ⟨(onSess_turns_as Rewindowed.handle (f := fun x => { x with window := windowSet x.window a.seq fun e => { e with outcome := some .done } })
        (fun _ => rfl) s).thenSame rfl, rfl⟩

/-- A park commits: the session PARKED, its object committed, the content in the tiers let go. -/
theorem commitPark_parks {h obj : Nat} {quantise : Bool} {ask : Option Ask} {s : State} {x : Session} (hx : findSess s h = some x)
    (ho : x.op = some (.park quantise obj ask)) (calm : x.pages.any (fun g => g.cond == .casting) = false)
    (own : ∀ a, ask = some a → a.win = .session h) :
    ∃ m, StoreOnly s m ∧ (∀ o, findObj s obj = some o → o.deleted = false → Committed obj m) ∧
      Turns h (Parked obj) s (commitPark h s) ∧ AnswerFrame m (commitPark h s) := by
  obtain ⟨gone, run⟩ := commitPark_steps hx ho calm
  have stored := ingotMade_storeOnly (sessHub s x) x.tenant h obj (ingotObj s x quantise obj) s
  have done : ∀ o, findObj s obj = some o → o.deleted = false → Committed obj (ingotMade (sessHub s x) x.tenant h obj (ingotObj s x quantise obj) s) :=
    fun o => ingotMade_committed (ingotObj_commits s x quantise obj)
  rw [run]
  generalize ingotMade (sessHub s x) x.tenant h obj (ingotObj s x quantise obj) s = m at *
  have freed := releasePlaces_tiers gone m
  generalize releasePlaces gone m = r at *
  obtain ⟨anchored, frame⟩ := anchor_frame 3 h (dropAnchors h 0 (onSess h (parkedIn obj) r))
  obtain ⟨answered, outer⟩ := answerAsked_turns own (arm h (anchor 3 h (dropAnchors h 0 (onSess h (parkedIn obj) r))))
  have parked := (onSess_turns h (parkedIn obj) (fun _ => rfl) r).afterSame (freed.sess.trans stored.sess)
  refine ⟨m, stored, done, ?session, ?frame⟩
  case session =>
    refine (((parked.thenSame anchored).comp (arm_turns h _)).comp answered).mono ?_
    rintro a z ⟨y, ⟨_, rfl, armed⟩, last⟩
    rw [last, armed]
    exact ⟨rfl, rfl, rfl, rfl, rfl, rfl, rfl, rfl⟩
  case frame =>
    have dropped : PlaceFrame r (dropAnchors h 0 (onSess h (parkedIn obj) r)) := rfl
    have armed : PlaceFrame (anchor 3 h (dropAnchors h 0 (onSess h (parkedIn obj) r))) (arm h (anchor 3 h (dropAnchors h 0 (onSess h (parkedIn obj) r)))) := rfl
    exact (((freed.frame.trans dropped).trans frame).trans armed).answer.trans outer

/-- Settles O39: each operation's commit is one run of steps on its session, the steps' frames composed. -/
theorem residencyOperationsCommit : Obligations.ResidencyOperationsCommit := by
  unfold Obligations.ResidencyOperationsCommit
  refine ⟨?demotion, ?revival, ?remelt, ?park⟩
  case demotion =>
    intro h s x p pressure hx ho hp calm
    rw [exec_demotion_commit hx ho]
    constructor
    · intro fits
      obtain ⟨y, hy, state, op, pages, tokens, pos, width, others, quiet⟩ := commitDemotion_warm hx ho hp calm fits
      obtain ⟨models, store, rcl, links⟩ := quiet.parts
      rw [if_pos fits]
      exact ⟨_, y, rfl, hy, state, op, pages, tokens, pos, width, others, models, store, rcl, links⟩
    · intro none
      rw [if_neg (ne_true_of_eq_false none)]
  case revival =>
    intro h s x remelt hx ho
    rw [exec_revival_end hx ho]
    constructor
    · intro idle fits
      obtain ⟨⟨others, here⟩, frame⟩ := commitRevival_wakes hx ho
      obtain ⟨y, hy, wakes⟩ := here x hx
      obtain ⟨op, ingot, copying, state, thawed⟩ := wakes rfl
      rw [if_pos (by simp [idle, fits])]
      exact ⟨_, y, rfl, hy, op, ingot, copying, state, thawed, others, frame⟩
    · intro full new
      rw [if_neg (by simp [full]), if_neg (by simpa using new)]
  case remelt =>
    intro h s x p hx hp hc
    rw [exec_remelt_end hx hp hc]
    have marked := onSess_turns h remelted (fun _ => rfl) s
    have copied := forEach_lays recopied_order (remeltPage_lays h) (ingotOrder x) (onSess h remelted s)
    have frame : PlaceFrame s (onSess h remelted s) := rfl
    obtain ⟨y, hy, e, pages⟩ := copied.here _ (findSess_onSess_self hx remelted fun _ => rfl)
    refine ⟨_, y, rfl, hy, ?_, ?_, pages.length_eq.symm, fun g hg => forall₂_mem pages hg, (marked.comp copied.toTurns).others, frame.trans copied.frame⟩
    · rw [e]
      rfl
    · rw [e]
      rfl
  case park =>
    intro h obj quantise ask s x hx ho calm own
    have still : x.pages.any (fun g => g.cond == .casting) = false := by
      rw [List.any_eq_false]
      exact fun g hg => by simpa using calm g hg
    obtain ⟨m, stored, done, ⟨others, here⟩, frame⟩ := commitPark_parks hx ho still own
    obtain ⟨y, hy, state, op, ingot, pages, blocks, snapshots, copying, tokens⟩ := here x hx
    refine ⟨commitPark h s, y, rfl, hy, state, op, ingot, pages, blocks, snapshots, copying, tokens, fun o ho live => ?_, others, ?_⟩
    · obtain ⟨o', found, _, committed, head, free⟩ := (done o ho live).same (t := commitPark h s) (by rw [frame])
      exact ⟨o', found, committed, head, free⟩
    · rw [frame, stored]
      exact ⟨rfl, rfl, rfl, rfl⟩

end Sys2Proof.Machine
end

section
/-! Write-downs, store copies, demand fetches and reads of frozen copies that end (R67, R163 to R165, R225, R235 to R238, R255). -/

namespace Sys2Proof.Machine

/-! ### Casting -/

/-- A page changed in place is found at its row and layer, as it was changed to. -/
theorem findPage_onPage {h row layer : Nat} {s : State} {x : Session} {g : Page} {f : Page → Page} (hx : findSess s h = some x)
    (hg : findPage x row layer = some g) (stays : ∀ k : Page, (f k).row = k.row ∧ (f k).layer = k.layer) :
    ∃ y, findSess (onPage h row layer f s) h = some y ∧ findPage y row layer = some (f g) := by
  refine ⟨_, findSess_onSess_self hx _ fun _ => rfl, ?_⟩
  have at_page := List.find?_some hg
  simp only [Bool.and_eq_true, beq_iff_eq] at at_page
  have kept : ((fun k : Page => k.row == row && k.layer == layer) ∘ fun k => if k.row = row ∧ k.layer = layer then f k else k) =
      fun k => k.row == row && k.layer == layer := by
    funext k
    dsimp only [Function.comp_apply]
    split
    · rw [(stays k).1, (stays k).2]
    · rfl
  show List.find? _ (List.map _ _) = _
  rw [List.find?_map, kept]
  refine (congrArg (Option.map _) hg).trans ?_
  rw [Option.map_some, if_pos at_page]

theorem onPage_others (h row layer : Nat) (f : Page → Page) (s : State) : ∀ k, k ≠ h → findSess (onPage h row layer f s) k = findSess s k :=
  (onSess_turns h (fun x => { x with pages := x.pages.map fun g => if g.row = row ∧ g.layer = layer then f g else g }) (fun _ => rfl) s).others

/-- A casting page that is written down: cast, its copies in the pools `ps`. -/
def castIn (ps : List Nat) (waits : Bool) (g : Page) : Page :=
  { g with cond := .cast, first := true, second := decide (1 < ps.length), pools := ps, lower0 := noAddress, lower1 := noAddress, sums := []
           inT1 := g.inT1 && !waits }

/-- A casting page's write-down takes its copies' pools, or waits for them. -/
theorem exec_page_cast {h row layer : Nat} {s : State} {x : Session} {p : ModelProgram} {g : Page} (hx : findSess s h = some x)
    (hp : sessProg s x = some p) (hg : findPage x row layer = some g) (hc : g.cond = .casting) :
    exec (.pageCast h row layer) s = .next (match pickPools (sessPlace s x) (pageBytes p g) (castCopies x.durability) [] s with
      | none => stall { partition := sessPart s x, handle := h, kind := 1, row := row, layer := layer } s
      | some ps => anchorRow h row (seat h (onPage h row layer (castIn ps (x.state == .waitingTool))
          (drawFree (endStream (.writeDown h row layer) s))))) := by
  show Host.Outcome.next (castPage h row layer s) = _
  unfold castPage
  rw [hx]
  dsimp only
  rw [hp, hg]
  dsimp only
  rw [if_pos hc]
  rfl

/-- A page seated is the same page, but for where it lies. -/
theorem SeatedPage.content {g g' : Page} (a : SeatedPage g g') :
    g'.pools = g.pools ∧ g'.first = g.first ∧ g'.second = g.second ∧ g'.keys = g.keys ∧ g'.values = g.values ∧ g'.patterns = g.patterns := by
  rw [a]
  exact ⟨rfl, rfl, rfl, rfl, rfl, rfl⟩

/-- A page changed and its session seated: the page is found as it was changed to, but for where it lies. -/
theorem seat_onPage_finds {h row layer : Nat} {s : State} {x : Session} {g : Page} {f : Page → Page} (hx : findSess s h = some x)
    (hg : findPage x row layer = some g) (stays : ∀ k : Page, (f k).row = k.row ∧ (f k).layer = k.layer) :
    ∃ y g', findSess (seat h (onPage h row layer f s)) h = some y ∧ findPage y row layer = some g' ∧ SeatedPage (f g) g' := by
  obtain ⟨y, hy, hfg⟩ := findPage_onPage hx hg stays
  obtain ⟨z, hz, seated⟩ := (seat_lays h _).here y hy
  obtain ⟨g', hg', at_page⟩ := seated.findPage (fun a => a.parts.2.2) hfg
  exact ⟨z, g', hz, hg', at_page⟩

/-- Writing a page down touches its own session alone, and places alone. -/
theorem seat_onPage_frame (h row layer : Nat) (f : Page → Page) (s : State) :
    (∀ k, k ≠ h → findSess (seat h (onPage h row layer f s)) k = findSess s k) ∧ PlaceFrame s (seat h (onPage h row layer f s)) := by
  have seated := seat_lays h (onPage h row layer f s)
  have frame : PlaceFrame s (onPage h row layer f s) := rfl
  exact ⟨fun k hk => (seated.others k hk).trans (onPage_others h row layer f s k hk), frame.trans seated.frame⟩

/-! ### Copies in the store -/

/-- Queueing a row's copy changes the store alone. -/
theorem trickleRow_storeOnly (h : Nat) (s : State) : StoreOnly s (trickleRow h s) := by
  unfold trickleRow
  split
  · rfl
  · split
    · extract_lets pages run
      split
      · cases run
        case some => rfl
        case none => exact (reserveObject_storeOnly _ _ _ _ s).trans (StoreOnly.put _ _)
      · rfl
    · rfl

/-- A row marked stored in its pages. -/
def rowStored (row : Nat) (x : Session) : Session := { x with pages := x.pages.map fun g => if g.row = row then { g with inStore := true } else g }

/-- An object committed to past a row. -/
def committedPast (row : Nat) (o : Obj) : Obj := { o with rows := max o.rows (row + 1), committed := true }

theorem exec_store_copy_commit {h row : Nat} {s : State} {x : Session} {o : Obj} (hx : findSess s h = some x) (hd : x.durability = 2)
    (some_page : ∃ g ∈ x.pages, g.row = row) (cast : ∀ g ∈ x.pages, g.row = row → g.cond = .cast)
    (before : ∀ g ∈ x.pages, g.row < row → g.inStore = true)
    (ho : (trickleRow h s).store.objs.find? (fun k => k.handle == h && !k.ingot && !k.deleted) = some o) (queued : row < o.queued) :
    exec (.storeCopyCommit h row) s = .next (trickleRow h (onSess h (rowStored row) (onObj o.num (committedPast row) (trickleRow h s)))) := by
  show execStoreCopyCommit h row s = _
  unfold execStoreCopyCommit
  rw [hx]
  dsimp only
  rw [ho]
  refine if_pos ⟨hd, ?_, ?_, queued, ?_⟩
  · obtain ⟨g, hg, at_row⟩ := some_page
    exact List.ne_nil_of_mem (List.mem_filter.mpr ⟨hg, by simp [at_row]⟩)
  · rw [List.all_eq_true]
    intro g hg
    obtain ⟨there, at_row⟩ := List.mem_filter.mp hg
    exact beq_iff_eq.mpr (cast g there (beq_iff_eq.mp at_row))
  · simp only [List.all_eq_true, Bool.or_eq_true, decide_eq_true_eq]
    intro g hg
    by_cases early : g.row < row
    · exact .inl (before g hg early)
    · exact .inr (Nat.le_of_not_lt early)

/-! ### Demand fetches -/

/-- Whether a fetch is the one of a page. -/
def isFetch (h row layer : Nat) (f : Fetch) : Bool := f.handle == h && f.row == row && f.layer == layer

theorem isFetch_iff (h row layer : Nat) (f : Fetch) : isFetch h row layer f = true ↔ f.handle = h ∧ f.row = row ∧ f.layer = layer := by
  simp [isFetch, and_assoc]

/-- Every fetch in the queues is one that was put there, with other lines outstanding. -/
theorem mem_pumpFetches {fs : List Fetch} {k : Fetch} (hk : k ∈ pumpFetches fs) : ∃ f ∈ fs, ∃ n, k = { f with out := n } := by
  unfold pumpFetches at hk
  generalize ([] : List (Nat × Nat)) = used at hk
  induction fs generalizing used with
  | nil => cases hk
  | cons f fs ih =>
    unfold pumpBy at hk
    dsimp only at hk
    rcases List.mem_cons.mp hk with rfl | later
    · exact ⟨f, List.mem_cons_self, _, rfl⟩
    · obtain ⟨f', hf', n, e⟩ := ih _ later
      exact ⟨f', List.mem_cons_of_mem f hf', n, e⟩

/-- A fetch dropped is found no more. -/
theorem findFetch_dropFetch (h row layer : Nat) (s : State) : findFetch (dropFetch h row layer s) h row layer = none := by
  refine List.find?_eq_none.mpr fun k hk same => ?_
  obtain ⟨f, hf, n, rfl⟩ := mem_pumpFetches hk
  have other := (List.mem_filter.mp hf).2
  rw [Bool.not_eq_true'] at other
  exact absurd (same : isFetch h row layer f = true) (ne_true_of_eq_false other)

theorem findFetch_congr {s t : State} (e : t.tiers.fetches = s.tiers.fetches) (h row layer : Nat) : findFetch t h row layer = findFetch s h row layer := by
  unfold findFetch
  rw [e]

/-- A pool that has answered. -/
def poolAnswered (tier : Nat) (s : State) : State :=
  { s with tiers := { s.tiers with pools := s.tiers.pools.map fun q => if q.num = tier then { q with missed := 0 } else q } }

/-- A page entered in T1 in the frame it was read into. -/
def intoT1 (frame : Nat) (g : Page) : Page := { g with inT1 := true, frame := frame, unselected := 0 }

/-- The page of a fetch that has ended: in the frame it was read into, or with none in the T0 of its task. -/
def landed (h row layer frame : Nat) (s : State) : State :=
  if frame = noFrame then loadT0 h row layer s else onPage h row layer (intoT1 frame) s

/-- `t` differs from `s` in its sessions, its tiers, and the pour in flight and those suspended alone. -/
def FetchFrame (s t : State) : Prop :=
  t = { s with sess := t.sess, tiers := t.tiers, sched := { s.sched with pour := t.sched.pour, suspended := t.sched.suspended } }

theorem FetchFrame.trans {s t u : State} (a : FetchFrame s t) (b : FetchFrame t u) : FetchFrame s u := by
  unfold FetchFrame at *
  rw [b, a]

/-- A row noted as come leaves the sessions and the tiers. -/
theorem noteCame_frame (h row layer : Nat) (s : State) :
    (noteCame h row layer s).sess = s.sess ∧ (noteCame h row layer s).tiers = s.tiers ∧ FetchFrame s (noteCame h row layer s) := ⟨rfl, rfl, rfl⟩

/-- With the fetch dropped and its pool's answer counted, the sessions stand as they were, and so do the pages of the tasks. -/
theorem fetchOver_frame (h row layer tier : Nat) (s : State) :
    (poolAnswered tier (dropFetch h row layer s)).sess = s.sess ∧ (poolAnswered tier (dropFetch h row layer s)).tiers.t0 = s.tiers.t0 ∧
      FetchFrame s (poolAnswered tier (dropFetch h row layer s)) ∧ findFetch (poolAnswered tier (dropFetch h row layer s)) h row layer = none :=
  ⟨rfl, rfl, rfl, findFetch_dropFetch h row layer s⟩

theorem loadT0_frame (h row layer : Nat) (s : State) :
    (loadT0 h row layer s).sess = s.sess ∧ (loadT0 h row layer s).tiers.fetches = s.tiers.fetches ∧ FetchFrame s (loadT0 h row layer s) := ⟨rfl, rfl, rfl⟩

theorem mem_loadT0 {h row layer : Nat} {s : State} :
    ∀ k ∈ s.tiers.t0, k.handle = h → k.layer = layer → row ∈ k.rows → { k with loaded := k.loaded ++ [row] } ∈ (loadT0 h row layer s).tiers.t0 :=
  fun k hk hh hl hr => List.mem_map.mpr ⟨k, hk, if_pos ⟨hh, hl, List.contains_iff_mem.mpr hr⟩⟩

theorem onPage_frame (h row layer : Nat) (f : Page → Page) (s : State) :
    (onPage h row layer f s).tiers.fetches = s.tiers.fetches ∧ FetchFrame s (onPage h row layer f s) := ⟨rfl, rfl⟩

theorem exec_fetch_complete {h row layer : Nat} {s : State} {x : Session} {g : Page} {f : Fetch} (hx : findSess s h = some x)
    (hg : findPage x row layer = some g) (hf : findFetch s h row layer = some f) (live : f.held = false) (hc : g.cond = .cast) (out : g.inT1 = false)
    (stands : resident x = true) (same : g.handle = f.page) :
    exec (.demandFetchComplete h row layer) s =
      .next (noteCame h row layer (landed h row layer f.frame (poolAnswered f.tier (dropFetch h row layer s)))) := by
  show execDemandFetchComplete h row layer s = _
  unfold execDemandFetchComplete
  rw [hf, Option.filter_some, if_pos (by simp [live])]
  dsimp only
  rw [hx, Option.bind_some, hg]
  exact if_pos ⟨hc, out, stands, same⟩

/-- A slot's fault in a pour: where it has none yet. -/
def faulted (h : Nat) (o : OCode) (w : Work) : Work := if w.handle = h ∧ w.fault = none then { w with fault := some o } else w

theorem faulted_isSome (h : Nat) (o : OCode) (w : Work) (hw : (faulted h o w).handle = h) : (faulted h o w).fault.isSome = true := by
  unfold faulted at hw ⊢
  split
  · rfl
  · next none =>
    rw [if_neg none] at hw
    exact Option.isSome_iff_ne_none.mpr fun e => none ⟨hw, e⟩

theorem faulted_eq_self {h : Nat} {o : OCode} {w : Work} (hw : w.fault.isSome = true ∨ w.handle ≠ h) : faulted h o w = w := by
  refine if_neg fun ⟨named, unfaulted⟩ => ?_
  rcases hw with has | other
  · simp [unfaulted] at has
  · exact other named

/-- In a pour not yet at its release point every slot of the session has a fault, and no other slot is changed. -/
theorem faultSlot_pour {h : Nat} {o : OCode} {s : State} {p : Pour} (hp : s.sched.pour = some p) (early : p.step ≤ 7) :
    (faultSlot h o s).sched.pour = some { p with works := p.works.map (faulted h o) } := by
  show s.sched.pour.map _ = _
  rw [hp, Option.map_some, if_pos early]
  rfl

theorem faultSlot_faults {h : Nat} {o : OCode} {s : State} {p : Pour} (hp : s.sched.pour = some p) (early : p.step ≤ 7) :
    ∃ q, (faultSlot h o s).sched.pour = some q ∧ q.works.length = p.works.length ∧ (∀ w ∈ q.works, w.handle = h → w.fault.isSome = true) ∧
      ∀ w ∈ p.works, w.fault.isSome = true ∨ w.handle ≠ h → w ∈ q.works := by
  refine ⟨_, faultSlot_pour hp early, List.length_map _, fun w hw named => ?_, fun w hw kept => ?_⟩
  · obtain ⟨w0, -, rfl⟩ := List.mem_map.mp hw
    exact faulted_isSome h o w0 named
  · exact List.mem_map.mpr ⟨w, hw, faulted_eq_self kept⟩

/-- A fetch marked late. -/
def markLate (h row layer : Nat) (f : Fetch) : Fetch := if f.handle = h ∧ f.row = row ∧ f.layer = layer then { f with late := true } else f

/-- The fetches with those of a page marked late. -/
def lateFetches (h row layer : Nat) (s : State) : State :=
  { s with tiers := { s.tiers with fetches := s.tiers.fetches.map (markLate h row layer) } }

theorem exec_fetch_late {h row layer : Nat} {s : State} (live : ∀ f, findFetch s h row layer = some f → f.held = false) :
    exec (.demandFetchLate h row layer) s = .next (faultSlot h .tierLate (lateFetches h row layer s)) := by
  refine if_neg (ne_true_of_eq_false ?_)
  cases hf : findFetch s h row layer with
  | none => rfl
  | some f => exact live f hf

theorem markLate_late {h row layer : Nat} {f : Fetch} (hh : (markLate h row layer f).handle = h) (hr : (markLate h row layer f).row = row)
    (hl : (markLate h row layer f).layer = layer) : (markLate h row layer f).late = true := by
  unfold markLate at *
  split
  · rfl
  · next other =>
    rw [if_neg other] at hh hr hl
    exact absurd ⟨hh, hr, hl⟩ other

/-- A held fetch answers neither to its end nor to its threshold. -/
theorem exec_fetch_held {h row layer : Nat} {s : State} {f : Fetch} (hf : findFetch s h row layer = some f) (held : f.held = true) :
    exec (.demandFetchComplete h row layer) s = .next s ∧ exec (.demandFetchLate h row layer) s = .next s := by
  constructor
  · show execDemandFetchComplete h row layer s = _
    unfold execDemandFetchComplete
    rw [hf, Option.filter_some, if_neg (by simp [held])]
  · exact if_pos (by rw [hf]; exact held)

/-- A fetch that goes on from its next copy. -/
def nextCopy (h row layer c : Nat) (rest : List Nat) (f : Fetch) : Fetch :=
  if f.handle = h ∧ f.row = row ∧ f.layer = layer then { f with tier := c, left := rest } else f

/-- The fetches of a page gone on to their next copy. -/
def nextFetches (h row layer c : Nat) (rest : List Nat) (s : State) : State :=
  { s with tiers := { s.tiers with fetches := s.tiers.fetches.map (nextCopy h row layer c rest) } }

/-- A pool that has failed to answer once more. -/
def missed (tier : Nat) (s : State) : State :=
  { s with tiers := { s.tiers with pools := s.tiers.pools.map fun q => if q.num = tier then { q with missed := q.missed + 1 } else q } }

/-- A pool that has not missed fifteen reads in a row is not lost by one more. -/
theorem missRead_eq {tier : Nat} {s : State} (few : ∀ q ∈ s.tiers.pools, q.num = tier → q.missed < 15) : missRead tier s = missed tier s := by
  refine if_neg (ne_true_of_eq_false (List.any_eq_false.mpr fun q hq lost => ?_))
  obtain ⟨q0, hq0, rfl⟩ := List.mem_map.mp hq
  simp only [Bool.and_eq_true, beq_iff_eq, decide_eq_true_eq] at lost
  obtain ⟨named, many⟩ := lost
  split at named
  · next same =>
    have := few q0 hq0 same
    rw [if_pos same] at many
    dsimp only at many
    omega
  · next other => exact other named

theorem exec_fetch_failed {h row layer : Nat} {s : State} {f : Fetch} (hf : findFetch s h row layer = some f) :
    exec (.demandFetchFailed h row layer) s = .next (missRead f.tier (fetchFailed h row layer s)) := by
  show execDemandFetchFailed h row layer s = _
  unfold execDemandFetchFailed
  rw [hf]

theorem fetchFailed_next {h row layer c : Nat} {rest : List Nat} {s : State} {f : Fetch} (hf : findFetch s h row layer = some f) (hl : f.left = c :: rest) :
    fetchFailed h row layer s = nextFetches h row layer c rest s := by
  unfold fetchFailed
  rw [hf]
  dsimp only
  rw [hl]
  rfl

theorem fetchFailed_last {h row layer : Nat} {s : State} {f : Fetch} (hf : findFetch s h row layer = some f) (hl : f.left = []) :
    fetchFailed h row layer s = faultSlot h .tierFault (dropFetch h row layer s) := by
  unfold fetchFailed
  rw [hf]
  dsimp only
  rw [hl]

/-- The fetch of a page goes on from its next copy. -/
theorem findFetch_nextFetches {h row layer c : Nat} {rest : List Nat} {s : State} {f : Fetch} (hf : findFetch s h row layer = some f) :
    findFetch (nextFetches h row layer c rest s) h row layer = some { f with tier := c, left := rest } := by
  have here := (isFetch_iff h row layer f).mp (List.find?_some hf)
  have kept : isFetch h row layer ∘ nextCopy h row layer c rest = isFetch h row layer := by
    funext k
    unfold nextCopy
    dsimp only [Function.comp_apply]
    split <;> rfl
  refine (List.find?_map (p := isFetch h row layer)).trans ?_
  rw [kept]
  refine (congrArg (Option.map _) hf).trans ?_
  rw [Option.map_some, nextCopy, if_pos here]

/-! ### Reads of frozen copies -/

/-- A revival whose read is late. -/
def readLate (x : Session) : Session := { x with revivalLate := true }

theorem exec_frozen_read_late {h : Nat} {s : State} {x : Session} {remelt : Bool} (hx : findSess s h = some x) (ho : x.op = some (.revival remelt)) :
    exec (.frozenReadLate h) s = .next (if s.sched.pour.isNone then endLate false h (onSess h readLate s) else onSess h readLate s) := by
  show execFrozenReadLate h s = _
  unfold execFrozenReadLate
  rw [hx]
  dsimp only
  rw [ho]
  rfl

/-- Settles O40: each event is one change of a page, of an object or of a fetch in its place, in a frame that leaves the rest. -/
theorem copiesAndFetchesComplete : Obligations.CopiesAndFetchesComplete := by
  unfold Obligations.CopiesAndFetchesComplete
  refine ⟨?cast, ?downFailed, ?resume, ?resumed, ?stored, ?complete, ?held, ?late, ?failed, ?frozenNow, ?frozenHeld⟩
  case cast =>
    intro h row layer s x p g hx hp hg hc
    rw [exec_page_cast hx hp hg hc]
    constructor
    · intro ps pick
      rw [pick]
      obtain ⟨y, g', hy, hg', seated⟩ := seat_onPage_finds (s := drawFree (endStream (.writeDown h row layer) s))
        (f := castIn ps (x.state == .waitingTool)) hx hg fun _ => ⟨rfl, rfl⟩
      obtain ⟨others, laid⟩ := seat_onPage_frame h row layer (castIn ps (x.state == .waitingTool)) (drawFree (endStream (.writeDown h row layer) s))
      obtain ⟨sess, anchored⟩ := anchorRow_frame h row (seat h (onPage h row layer (castIn ps (x.state == .waitingTool))
        (drawFree (endStream (.writeDown h row layer) s))))
      have drawn : PlaceFrame s (drawFree (endStream (.writeDown h row layer) s)) := rfl
      obtain ⟨pools, first, second, keys, values, patterns⟩ := seated.content
      exact ⟨_, y, g', rfl, (findSess_congr sess h).trans hy, hg', seated.parts.1, pools, first, second, keys, values, patterns,
        fun k hk => (findSess_congr sess k).trans (others k hk), (drawn.trans laid).trans anchored⟩
    · intro none
      rw [none]
  case downFailed =>
    intro h row layer s
    exact ⟨_, rfl, rfl, by simp [note, logWith], rfl⟩
  case resume =>
    exact fun _ _ => rfl
  case resumed =>
    intro w s
    refine ⟨fun cast => ?_, fun demotion => ?_, fun cast demotion => ?_⟩
    · rw [resumeWrite, cast]
      rfl
    · rw [resumeWrite, demotion]
      rfl
    · unfold resumeWrite
      split
      · next one => exact absurd one cast
      · next two => exact absurd two demotion
      · rfl
  case stored =>
    intro h row s x o hx hd some_page cast before ho queued
    have sess := (trickleRow_storeOnly h s).sess
    have there := List.mem_of_find?_eq_some ho
    have named := List.find?_some ho
    simp only [Bool.and_eq_true, beq_iff_eq, Bool.not_eq_true'] at named
    obtain ⟨⟨own, plain⟩, -⟩ := named
    have marked := (onSess_turns h (rowStored row) (fun _ => rfl) (onObj o.num (committedPast row) (trickleRow h s))).afterSame sess
    obtain ⟨y, hy, rfl⟩ := marked.here x hx
    refine ⟨_, exec_store_copy_commit hx hd some_page cast before ho queued, hy, ?_, marked.others, rfl⟩
    refine ⟨committedPast row o, List.mem_map.mpr ⟨o, there, if_pos rfl⟩, rfl, own, plain, rfl, Nat.le_max_right _ _⟩
  case complete =>
    intro h row layer s x g f hx hg hf live hc out stands same
    rw [exec_fetch_complete hx hg hf live hc out stands same]
    obtain ⟨sess, t0, over_frame, gone⟩ := fetchOver_frame h row layer f.tier s
    generalize poolAnswered f.tier (dropFetch h row layer s) = r at *
    obtain ⟨last_sess, last_tiers, last⟩ := noteCame_frame h row layer (landed h row layer f.frame r)
    refine ⟨_, rfl, ?_⟩
    rw [findFetch_congr (congrArg Tiers.fetches last_tiers), last_tiers, last_sess, funext (findSess_congr last_sess)]
    by_cases unframed : f.frame = noFrame
    · obtain ⟨load_sess, load_fetches, load⟩ := loadT0_frame h row layer r
      have came : landed h row layer f.frame r = loadT0 h row layer r := if_pos unframed
      rw [came] at last ⊢
      exact ⟨(findFetch_congr load_fetches h row layer).trans gone, fun framed => absurd unframed framed,
        fun _ => ⟨load_sess.trans sess, t0 ▸ mem_loadT0⟩, (over_frame.trans load).trans last⟩
    · obtain ⟨put_fetches, put⟩ := onPage_frame h row layer (intoT1 f.frame) r
      obtain ⟨y, hy, hg'⟩ := findPage_onPage (f := intoT1 f.frame) ((findSess_congr sess h).trans hx) hg fun _ => ⟨rfl, rfl⟩
      have came : landed h row layer f.frame r = onPage h row layer (intoT1 f.frame) r := if_neg unframed
      rw [came] at last ⊢
      exact ⟨(findFetch_congr put_fetches h row layer).trans gone,
        fun _ => ⟨y, hy, hg', fun k hk => (onPage_others h row layer _ r k hk).trans (findSess_congr sess k)⟩,
        fun none => absurd none unframed, (over_frame.trans put).trans last⟩
  case held =>
    exact fun _ _ _ _ _ hf held => exec_fetch_held hf held
  case late =>
    intro h row layer s live
    refine ⟨_, exec_fetch_late live, fun f hf hh hr hl => ?_, fun p hp early => faultSlot_faults (s := lateFetches h row layer s) hp early, rfl⟩
    obtain ⟨f0, -, rfl⟩ := List.mem_map.mp (show f ∈ s.tiers.fetches.map (markLate h row layer) from hf)
    exact markLate_late hh hr hl
  case failed =>
    intro h row layer s f hf few
    rw [exec_fetch_failed hf]
    constructor
    · intro c rest hl
      rw [fetchFailed_next hf hl, missRead_eq (s := nextFetches h row layer c rest s) few]
      exact ⟨_, rfl, (findFetch_congr rfl h row layer).trans (findFetch_nextFetches hf), rfl, rfl⟩
    · intro hl
      rw [fetchFailed_last hf hl, missRead_eq (s := faultSlot h .tierFault (dropFetch h row layer s)) few]
      refine ⟨_, rfl, findFetch_dropFetch h row layer s, fun p hp early => ?_, rfl, rfl⟩
      obtain ⟨q, hq, -, faults, -⟩ := faultSlot_faults (h := h) (o := .tierFault) (s := dropFetch h row layer s) hp early
      exact ⟨q, hq, faults⟩
  case frozenNow =>
    intro h s x remelt hx ho idle
    rw [exec_frozen_read_late hx ho, idle]
    rfl
  case frozenHeld =>
    intro h s x remelt hx ho busy
    rw [exec_frozen_read_late hx ho, if_neg (by rw [Option.isNone_iff_eq_none, ← Option.not_isSome_iff_eq_none]; exact not_not_intro busy)]
    have marked := onSess_turns h readLate (fun _ => rfl) s
    exact ⟨_, rfl, findSess_onSess_self hx readLate fun _ => rfl, marked.others, rfl⟩

end Sys2Proof.Machine
end

section
/-! Sequence numbers in serial arithmetic (R97). -/

namespace Sys2Proof.Machine

/-- The difference that `newer` looks at, for numbers of 32 bits (R97). -/
theorem newer_iff {a b : Nat} (ha : a < 2 ^ 32) (hb : b < 2 ^ 32) :
    newer a b = true ↔ 1 ≤ ((a : Int) - b) % 2 ^ 32 ∧ ((a : Int) - b) % 2 ^ 32 ≤ 2147483647 := by
  unfold newer
  simp only [Bool.and_eq_true, decide_eq_true_eq]
  omega

/-- Settles O8: the three clauses are arithmetic on the two differences, which add up to 0 modulo 2^32. -/
theorem serialArithmetic : Obligations.SerialArithmetic := by
  unfold Obligations.SerialArithmetic
  intro a b ha hb
  refine ⟨newer_iff ha hb, ?_, fun differ half => ?_⟩
  · rw [← Bool.not_eq_true, newer_iff ha ha]
    omega
  · rw [← Bool.not_eq_true (newer b a), newer_iff ha hb, newer_iff hb ha]
    omega

end Sys2Proof.Machine
end

section
/-! The tap: what the writing of blocks changes of a function, how far a backlog drains, and the timers of the tap (R103 to R107, R114, R592). -/

namespace Sys2Proof.Machine

/-! ### Functions changed -/

/-- A function stands under its own identifier. -/
theorem fnOf_id (s : State) (fn : Nat) : (fnOf s fn).id = fn := by
  unfold fnOf
  cases h : findKey Fn.id fn s.fns with
  | none => rfl
  | some f => exact (findKey_some h).1

/-- A relation of changed functions that changes may be chained under. -/
structure FnOrder (R : Fn → Fn → Prop) : Prop where
  refl : ∀ f, R f f
  trans : ∀ f g k, R f g → R g k → R f k

/-- From `s` to `t` every function is changed as `R` says. -/
def FnsTurn (R : Fn → Fn → Prop) (s t : State) : Prop := ∀ j, R (fnOf s j) (fnOf t j)

/-- With the functions as they were, none is changed. -/
theorem FnsTurn.same {R : Fn → Fn → Prop} (o : FnOrder R) {s t : State} (e : t.fns = s.fns) : FnsTurn R s t := by
  intro j
  unfold fnOf
  rw [e]
  exact o.refl _

theorem FnsTurn.trans {R : Fn → Fn → Prop} (o : FnOrder R) {s t u : State} (a : FnsTurn R s t) (b : FnsTurn R t u) : FnsTurn R s u :=
  fun j => o.trans _ _ _ (a j) (b j)

theorem FnsTurn.mono {R Q : Fn → Fn → Prop} {s t : State} (a : FnsTurn R s t) (m : ∀ f g, R f g → Q f g) : FnsTurn Q s t :=
  fun j => m _ _ (a j)

theorem onFn_turn {R : Fn → Fn → Prop} (o : FnOrder R) {fn : Nat} {g : Fn → Fn} {s : State} (hid : (g (fnOf s fn)).id = (fnOf s fn).id)
    (hg : R (fnOf s fn) (g (fnOf s fn))) : FnsTurn R s (onFn fn g s) := by
  intro j
  rw [fnOf_onFn]
  split
  next h =>
    subst h
    have own : ({ g (fnOf s j) with id := j } : Fn) = g (fnOf s j) := by
      have named := hid.trans (fnOf_id s j)
      generalize g (fnOf s j) = f at named ⊢
      rw [← named]
    rwa [own]
  next => exact o.refl _

/-- A vector not masked is sent (R113). -/
theorem fire_unmasked {fn v : Nat} {s : State} (h : v ∉ (fnOf s fn).masked) :
    fire fn v s = { s with outs := { s.outs with signals := s.outs.signals ++ [(fn, v)] } } := if_neg (by simpa using h)

/-- A masked vector sets its pending bit (R114). -/
theorem fire_masked {fn v : Nat} {s : State} (h : v ∈ (fnOf s fn).masked) :
    fire fn v s = onFn fn (fun f => { f with pba := if f.pba.contains v then f.pba else f.pba ++ [v] }) s := if_pos (by simpa using h)

/-- What a vector that fires changes of a function: its pending bits (R114). -/
def Marked (f g : Fn) : Prop := g = { f with pba := g.pba }

theorem marked_order : FnOrder Marked where
  refl _ := rfl
  trans f g k a b := by
    unfold Marked at *
    rw [b, a]

theorem fire_turn (fn v : Nat) (s : State) : FnsTurn Marked s (fire fn v s) := by
  rcases fire_cases fn v s with e | e <;> rw [e]
  · exact FnsTurn.same marked_order rfl
  · exact onFn_turn marked_order rfl rfl

/-- What an answer changes of a function: its mailbox and its pending bits. -/
def Replied (f g : Fn) : Prop := g = { f with mb := g.mb, pba := g.pba }

theorem replied_order : FnOrder Replied where
  refl _ := rfl
  trans f g k a b := by
    unfold Replied at *
    rw [b, a]

theorem Marked.replied {f g : Fn} (a : Marked f g) : Replied f g := by
  unfold Marked Replied at *
  rw [a]

theorem answerMb_turn (q : Open) (o : OCode) (payload : List Byte) (s : State) : FnsTurn Replied s (answerMb q o payload s) := by
  unfold answerMb
  dsimp only
  split
  · refine FnsTurn.trans replied_order ?_ ((fire_turn _ _ _).mono fun _ _ => Marked.replied)
    exact onFn_turn replied_order rfl rfl
  · exact FnsTurn.same replied_order rfl

theorem mbTake_turn (r : MbReq) (op sub : Nat) (s : State) : FnsTurn Replied s (mbTake r op sub s).2 := by
  unfold mbTake
  exact onFn_turn replied_order rfl rfl

/-- What an entry of a duplicate window changes of a function: its window. -/
def WindowSet (f g : Fn) : Prop := g = { f with window := g.window }

theorem windowSet_order : FnOrder WindowSet where
  refl _ := rfl
  trans f g k a b := by
    unfold WindowSet at *
    rw [b, a]

theorem onWindow_turn (r : WinRef) (f : Window → Window) (s : State) : FnsTurn WindowSet s (onWindow r f s) := by
  cases r with
  | session h => exact FnsTurn.same windowSet_order rfl
  | function fn =>
    unfold onWindow
    exact onFn_turn windowSet_order rfl rfl

theorem fnOf_fire_other {fn v j : Nat} (h : j ≠ fn) (s : State) : fnOf (fire fn v s) j = fnOf s j := by
  rcases fire_cases fn v s with e | e <;> rw [e]
  · rfl
  · exact fnOf_onFn_other h _ s

/-- An answer changes the function of its request alone. -/
theorem fnOf_answerMb_other {q : Open} {j : Nat} (h : j ≠ q.fn) (o : OCode) (payload : List Byte) (s : State) :
    fnOf (answerMb q o payload s) j = fnOf s j := by
  unfold answerMb
  dsimp only
  split
  · rw [fnOf_fire_other h, fnOf_onFn_other h]
  · rfl

/-! ### Blocks written -/

/-- From `s` to `t` nothing but the functions, the signals and the sessions is changed. -/
def TapFrame (s t : State) : Prop := t = { s with fns := t.fns, outs := t.outs, sess := t.sess }

theorem TapFrame.trans {s t u : State} (a : TapFrame s t) (b : TapFrame t u) : TapFrame s u := by
  unfold TapFrame at *
  rw [b, a]

theorem Signals.tapFrame {s t : State} (a : Signals s t) : TapFrame s t := by
  unfold Signals TapFrame at *
  rw [a]

/-- What the writing of one part changes of a function (R103, R107, R114, R592): what it writes, its counts and pending bits, and the positions in
its window; the ring, the released position, the backlog and the records that wait stay. -/
def Posted (f g : Fn) : Prop :=
  g = { f with window := g.window, next := g.next, inRing := g.inRing, policed := g.policed, discarded := g.discarded, counts := g.counts, pba := g.pba }

theorem posted_order : FnOrder Posted where
  refl _ := rfl
  trans f g k a b := by
    unfold Posted at *
    rw [b, a]

theorem Marked.posted {f g : Fn} (a : Marked f g) : Posted f g := by
  unfold Marked Posted at *
  rw [a]

theorem WindowSet.posted {f g : Fn} (a : WindowSet f g) : Posted f g := by
  unfold WindowSet Posted at *
  rw [a]

/-- A step of the tap: the frame, with the functions changed as `R` says. -/
structure TapStep (R : Fn → Fn → Prop) (s t : State) : Prop where
  frame : TapFrame s t
  fns : FnsTurn R s t

theorem TapStep.trans {R : Fn → Fn → Prop} (o : FnOrder R) {s t u : State} (a : TapStep R s t) (b : TapStep R t u) : TapStep R s u :=
  ⟨a.frame.trans b.frame, a.fns.trans o b.fns⟩

theorem TapStep.same {R : Fn → Fn → Prop} (o : FnOrder R) (s : State) : TapStep R s s := ⟨rfl, FnsTurn.same o rfl⟩

theorem onFn_step {R : Fn → Fn → Prop} (o : FnOrder R) {fn : Nat} {g : Fn → Fn} {s : State} (hid : (g (fnOf s fn)).id = (fnOf s fn).id)
    (hg : R (fnOf s fn) (g (fnOf s fn))) : TapStep R s (onFn fn g s) := ⟨rfl, onFn_turn o hid hg⟩

theorem forEach_posts {α : Type} {f : α → State → State} (h : ∀ x t, TapStep Posted t (f x t)) (l : List α) (s : State) :
    TapStep Posted s (forEach l f s) :=
  forEach_rel (TapStep.same posted_order) (TapStep.trans posted_order) h l s

theorem onWindow_posts (r : WinRef) (f : Window → Window) (s : State) : TapStep Posted s (onWindow r f s) :=
  ⟨by cases r <;> rfl, (onWindow_turn r f s).mono fun _ _ => WindowSet.posted⟩

theorem fire_posts (fn v : Nat) (s : State) : TapStep Posted s (fire fn v s) :=
  ⟨(fire_signals fn v s).tapFrame, (fire_turn fn v s).mono fun _ _ => Marked.posted⟩

theorem countVector_posts (fn v k : Nat) (s : State) : TapStep Posted s (countVector fn v k s) := by
  unfold countVector
  dsimp only
  split
  · refine TapStep.trans posted_order ?_ (fire_posts fn v _)
    exact onFn_step posted_order rfl rfl
  · exact onFn_step posted_order rfl rfl

theorem fillPosition_posts (r : TapRec) (s : State) : TapStep Posted s (fillPosition r s) := by
  have same := TapStep.same posted_order s
  unfold fillPosition
  split
  next o _ =>
    dsimp only
    have own : TapStep Posted s (match o.win with
        | some w => onWindow w (fun win => windowSet win o.seq fun e => { e with position := r.pos }) s
        | none => s) := by
      split
      · exact onWindow_posts _ _ s
      · exact same
    split
    · exact own.trans posted_order (onWindow_posts _ _ _)
    · exact own
  next => exact same

theorem writePart_posts (fn n flask pour : Nat) (more : Bool) (part : List (TapBody × Nat)) (s : State) :
    TapStep Posted s (writePart fn n flask pour more part s) := by
  unfold writePart
  dsimp only
  refine TapStep.trans posted_order ?_ (forEach_posts (fun v t => countVector_posts fn v _ t) _ _)
  refine TapStep.trans posted_order ?_ (forEach_posts (fun r t => fillPosition_posts r t) _ _)
  exact onFn_step posted_order rfl rfl

/-! ### A backlog drained -/

/-- What the writing of blocks changes of a function: what each part changes, and the backlog. -/
def Drained (f g : Fn) : Prop := Posted { f with backlog := g.backlog } g

theorem drained_order : FnOrder Drained where
  refl _ := rfl
  trans f g k a b := by
    unfold Drained Posted at *
    rw [b, a]

theorem Posted.drained {f g : Fn} (a : Posted f g) : Drained f g := by
  unfold Drained Posted at *
  rw [a]

theorem Drained.ring {f g : Fn} (a : Drained f g) : g.ring = f.ring := (congrArg Fn.ring a :)
theorem Drained.waiting {f g : Fn} (a : Drained f g) : g.waiting = f.waiting := (congrArg Fn.waiting a :)
theorem Drained.mb {f g : Fn} (a : Drained f g) : g.mb = f.mb := (congrArg Fn.mb a :)

/-- The body records that the next part of a block takes in a ring of 2^n (R107). -/
def nextPart (n : Nat) (b : Block) : List (TapBody × Nat) := b.recs.take (min (2 ^ n) 65535 - 1)

/-- What the next part of a block leaves of it. -/
def afterPart (n : Nat) (b : Block) : List (TapBody × Nat) := b.recs.drop (min (2 ^ n) 65535 - 1)

/-- The backlog once the next part of its front is taken. -/
def backlogAfter (n : Nat) (b : Block) (bs : List Block) : List Block :=
  if (afterPart n b).isEmpty then bs else { b with recs := afterPart n b } :: bs

/-- One part of the front of a backlog written. -/
def drainOne (fn n : Nat) (b : Block) (bs : List Block) (s : State) : State :=
  writePart fn n b.flask b.pour (!(afterPart n b).isEmpty) (nextPart n b) (onFn fn (fun f => { f with backlog := backlogAfter n b bs }) s)

/-- The next part of the front of a function's backlog, where it has one, a ring and its link, does not fit. -/
def BacklogRests (fn : Nat) (s : State) : Prop :=
  ∀ base n b bs, (fnOf s fn).ring = some (base, n) → fnUp s fn = true → (fnOf s fn).backlog = b :: bs →
    2 ^ n < (fnOf s fn).next + (nextPart n b).length + 1 - (fnOf s fn).released

/-- A turn of the drain: nothing can be written, or one part is. -/
theorem drainWith_succ (fn k : Nat) (s : State) :
    (drainWith fn (k + 1) s = s ∧ BacklogRests fn s) ∨
      ∃ base n b bs, (fnOf s fn).ring = some (base, n) ∧ (fnOf s fn).backlog = b :: bs ∧
        drainWith fn (k + 1) s = drainWith fn k (drainOne fn n b bs s) := by
  cases hr : (fnOf s fn).ring with
  | none => exact .inl ⟨by simp [drainWith, hr], fun _ _ _ _ h => by rw [hr] at h; cases h⟩
  | some r =>
    obtain ⟨base, n⟩ := r
    cases hb : (fnOf s fn).backlog with
    | nil => exact .inl ⟨by simp [drainWith, hr, hb], fun _ _ _ _ _ _ h => by rw [hb] at h; cases h⟩
    | cons b bs =>
      have turn : drainWith fn (k + 1) s =
          if fnUp s fn then
            if (fnOf s fn).next + (nextPart n b).length + 1 - (fnOf s fn).released ≤ 2 ^ n then drainWith fn k (drainOne fn n b bs s) else s
          else s := by
        simp only [drainWith, hr, hb]
        rfl
      rw [turn]
      by_cases up : fnUp s fn = true
      · rw [if_pos up]
        by_cases fits : (fnOf s fn).next + (nextPart n b).length + 1 - (fnOf s fn).released ≤ 2 ^ n
        · exact .inr ⟨base, n, b, bs, rfl, rfl, if_pos fits⟩
        · refine .inl ⟨if_neg fits, fun _ _ _ _ hr' _ hb' => ?_⟩
          rw [hr] at hr'
          rw [hb] at hb'
          cases hr'
          cases hb'
          exact Nat.not_le.mp fits
      · exact .inl ⟨if_neg up, fun _ _ _ _ _ h => absurd h up⟩

theorem onBacklog_step (fn : Nat) (l : Fn → List Block) (s : State) : TapStep Drained s (onFn fn (fun f => { f with backlog := l f }) s) :=
  onFn_step drained_order rfl rfl

theorem drainOne_posts (fn n : Nat) (b : Block) (bs : List Block) (s : State) :
    TapStep Posted (onFn fn (fun f => { f with backlog := backlogAfter n b bs }) s) (drainOne fn n b bs s) := writePart_posts _ _ _ _ _ _ _

theorem drainOne_step (fn n : Nat) (b : Block) (bs : List Block) (s : State) : TapStep Drained s (drainOne fn n b bs s) := by
  have post := drainOne_posts fn n b bs s
  exact (onBacklog_step fn _ s).trans drained_order ⟨post.frame, post.fns.mono fun _ _ => Posted.drained⟩

theorem drainOne_backlog (fn n : Nat) (b : Block) (bs : List Block) (s : State) :
    (fnOf (drainOne fn n b bs s) fn).backlog = backlogAfter n b bs := by
  rw [(drainOne_posts fn n b bs s).fns fn, fnOf_onFn_self]

theorem drainWith_step (fn : Nat) : ∀ (k : Nat) (s : State), TapStep Drained s (drainWith fn k s)
  | 0, s => TapStep.same drained_order s
  | k + 1, s => by
    rcases drainWith_succ fn k s with ⟨e, -⟩ | ⟨-, n, b, bs, -, -, e⟩
    · rw [e]
      exact TapStep.same drained_order s
    · rw [e]
      exact (drainOne_step fn n b bs s).trans drained_order (drainWith_step fn k _)

theorem drainBacklog_step (fn : Nat) (s : State) : TapStep Drained s (drainBacklog fn s) := drainWith_step fn _ s

theorem writeBlock_step (fn flask pour : Nat) (recs : List Rec) (s : State) : TapStep Drained s (writeBlock fn flask pour recs s) := by
  unfold writeBlock
  split
  · exact TapStep.same drained_order s
  · exact (onBacklog_step fn _ s).trans drained_order (drainBacklog_step fn _)

/-- Records that a list of blocks holds, headers included. -/
def recordsIn (bs : List Block) : Nat := (bs.map fun b => b.recs.length + 1).sum

theorem backlogCount_eq (f : Fn) : backlogCount f = recordsIn f.backlog := rfl

/-- A ring of at least two records takes some record of the backlog with each part. -/
theorem recordsIn_backlogAfter {n : Nat} (hn : 1 ≤ n) (b : Block) (bs : List Block) : recordsIn (backlogAfter n b bs) < recordsIn (b :: bs) := by
  have two : 2 ≤ 2 ^ n := Nat.le_self_pow (by omega) 2
  unfold backlogAfter
  split
  · simp [recordsIn]
  next more =>
    have longer : min (2 ^ n) 65535 - 1 < b.recs.length := by simpa [afterPart] using more
    simp only [recordsIn, afterPart, List.map_cons, List.sum_cons, List.length_drop]
    omega

/-- With fuel for every record that waits, the drain goes on until nothing more can be written. -/
theorem drainWith_rests {fn base n : Nat} (hn : 1 ≤ n) : ∀ (k : Nat) (s : State), (fnOf s fn).ring = some (base, n) →
    recordsIn (fnOf s fn).backlog ≤ k → BacklogRests fn (drainWith fn k s)
  | 0, s, _, few => fun _ _ b bs _ _ hb => by
    have some_left : recordsIn (b :: bs) = 0 := by
      rw [← hb]
      exact Nat.le_zero.mp few
    simp [recordsIn] at some_left
  | k + 1, s, hr, few => by
    rcases drainWith_succ fn k s with ⟨e, rests⟩ | ⟨base', n', b, bs, hr', hb, e⟩
    · rw [e]
      exact rests
    · rw [hr] at hr'
      cases hr'
      rw [e]
      refine drainWith_rests hn k _ (((drainOne_step fn n b bs s).fns fn).ring.trans hr) ?_
      rw [drainOne_backlog]
      rw [hb] at few
      have fewer := recordsIn_backlogAfter hn b bs
      omega

theorem drainBacklog_rests {fn base n : Nat} {s : State} (hn : 1 ≤ n) (hr : (fnOf s fn).ring = some (base, n)) :
    BacklogRests fn (drainBacklog fn s) := drainWith_rests hn _ s hr (backlogCount_eq _).ge

/-! ### Timers of the tap -/

/-- A block of pour number 0 takes every answer that no pour in flight holds (R104). -/
theorem answerBlock_leaves (fn : Nat) (s : State) :
    TapFrame s (answerBlock fn s) ∧ (fnOf (answerBlock fn s) fn).waiting = (fnOf s fn).waiting.filter WaitRec.inPour := by
  unfold answerBlock waitingBlock
  dsimp only
  have block := fun recs t => writeBlock_step fn 0xFFFF 0 recs t
  refine ⟨(onFn_signals fn _ s).tapFrame.trans (block _ _).frame, ?_⟩
  rw [((block _ _).fns fn).waiting, fnOf_onFn_self]
  rfl

theorem fnUp_congr {s t : State} (e : t.dev = s.dev) (fn : Nat) : fnUp t fn = fnUp s fn := by
  unfold fnUp
  rw [e]

theorem countOf_setCount (l : List (Nat × Nat)) (k v : Nat) : countOf (setCount l k v) k = v := by
  have gone : (l.filter fun p => p.1 != k).find? (fun p => p.1 == k) = none := by
    simp [List.find?_eq_none]
  simp [countOf, setCount, List.find?_append, gone]

/-- A vector's count started again, the vector not yet fired. -/
def restartCount (fn v : Nat) (s : State) : State := onFn fn (fun f => { f with counts := setCount f.counts v 0 }) s

theorem exec_vector_interval {fn v : Nat} {s : State} (hi : (vecCfg (fnOf s fn) v).interval ≠ 0) (hc : 0 < countOf (fnOf s fn).counts v) :
    exec (.vectorIntervalExpiry fn v) s = .next (fire fn v (restartCount fn v s)) := if_pos ⟨hi, hc⟩

/-- Settles O38: the drain by the fuel of its records, the vector by whether it is masked. -/
theorem tapTimersAct : Obligations.TapTimersAct := by
  unfold Obligations.TapTimersAct
  refine ⟨fun fn s => ?answers, fun fn base n s hr hn up => ?drain, fun fn v s hi hc => ?vector⟩
  case answers =>
    obtain ⟨frame, waiting⟩ := answerBlock_leaves fn s
    exact ⟨_, rfl, waiting, frame⟩
  case drain =>
    have step := drainBacklog_step fn s
    refine ⟨_, rfl, step.frame, fun b rest hb => ?_⟩
    exact drainBacklog_rests (by omega) hr base n b rest ((step.fns fn).ring.trans hr)
      ((fnUp_congr (congrArg State.dev step.frame) fn).trans up) hb
  case vector =>
    have others : ∀ j, j ≠ fn → fnOf (restartCount fn v s) j = fnOf s j := fun j hj => fnOf_onFn_other hj _ s
    have own : fnOf (restartCount fn v s) fn = { fnOf s fn with id := fn, counts := setCount (fnOf s fn).counts v 0 } := fnOf_onFn_self _ _ _
    refine ⟨_, exec_vector_interval hi hc, ?_, fun sent => ?_, fun masked => ?_, fun j hj => (fnOf_fire_other hj _).trans (others j hj),
      (onFn_signals fn _ s).trans (fire_signals fn v _)⟩
    · rw [fire_turn fn v _ fn, own]
      exact countOf_setCount _ _ _
    · rw [fire_unmasked (by rwa [own])]
      exact ⟨rfl, show (fnOf (restartCount fn v s) fn).pba = _ by rw [own]⟩
    · rw [fire_masked (by rwa [own])]
      refine ⟨rfl, ?_⟩
      rw [fnOf_onFn_self]
      dsimp only
      split
      next held => simpa using held
      next => simp

end Sys2Proof.Machine
end

section
/-! Releases: the records below a position let go, and the sessions whose end they reported (R65, R109). -/

namespace Sys2Proof.Machine

/-- A session that a released record frees: CLOSED or LOST (R65). -/
def ended (x : Session) : Bool := x.state == .closed || x.state == .lost

theorem ended_iff (x : Session) : ended x = true ↔ x.state = .closed ∨ x.state = .lost := by simp [ended]

theorem freeReported_none {h : Nat} {s : State} (hx : findSess s h = none) : freeReported h s = s := by simp [freeReported, hx]

theorem freeReported_some {h : Nat} {s : State} {x : Session} (hx : findSess s h = some x) :
    freeReported h s = if ended x then dropSess h s else s := by
  simp only [freeReported, hx]
  rfl

/-- A reported session stays only where it has not ended; every other is as it was. -/
theorem findSess_freeReported (h k : Nat) (s : State) :
    findSess (freeReported h s) k = if k = h then (findSess s k).filter (fun x => !ended x) else findSess s k := by
  cases hx : findSess s h with
  | none =>
    rw [freeReported_none hx]
    split
    next e => rw [e, hx]; rfl
    next => rfl
  | some x =>
    rw [freeReported_some hx]
    by_cases gone : ended x = true
    · have dropped : findSess (dropSess h s) k = if k = h then none else findSess s k := findKey_eraseKey _ h k s.sess
      rw [if_pos gone, dropped]
      split
      next e => rw [e, hx, Option.filter_some, if_neg (by simp [gone])]
      next => rfl
    · rw [if_neg gone]
      split
      next e => rw [e, hx, Option.filter_some, if_pos (by simp [gone])]
      next => rfl

theorem findSess_freeAllReported (hs : List Nat) (k : Nat) (s : State) :
    findSess (forEach hs freeReported s) k = if k ∈ hs then (findSess s k).filter (fun x => !ended x) else findSess s k := by
  induction hs generalizing s with
  | nil => simp [forEach]
  | cons h hs ih =>
    have turn : forEach (h :: hs) freeReported s = forEach hs freeReported (freeReported h s) := rfl
    rw [turn, ih, findSess_freeReported]
    by_cases here : k = h <;> simp [here]

theorem freeReported_fns (h : Nat) (s : State) : (freeReported h s).fns = s.fns := by
  unfold freeReported
  split
  · split <;> rfl
  · rfl

/-- A record below `v` that reports a close or a loss names its session. -/
theorem mem_reportedBelow {v : Nat} {rs : List TapRec} {r : TapRec} {o : OutRec} (hr : r ∈ rs) (below : r.pos < v) (hb : r.body = .outcome o)
    (reports : o.reports = true) : o.handle ∈ reportedBelow v rs :=
  List.mem_filterMap.mpr ⟨r, hr, by simp [hb, reports, below]⟩

theorem findSess_onWindow {w : WinRef} {f : Window → Window} {s : State} {h : Nat} {x : Session} (hx : findSess s h = some x) :
    ∃ y, findSess (onWindow w f s) h = some y ∧ y.state = x.state := by
  cases w with
  | function fn => exact ⟨x, hx, rfl⟩
  | session k =>
    have found := findSess_onSess k h (fun x => { x with window := f x.window }) (fun _ => rfl) s
    rw [hx] at found
    unfold onWindow
    rw [found]
    split
    · exact ⟨_, rfl, rfl⟩
    · exact ⟨x, rfl, rfl⟩

/-- The records of a function below a position let go (R109). -/
def releaseBelow (fn v : Nat) (s : State) : State :=
  onFn fn (fun f => { f with released := v, inRing := f.inRing.filter fun r => decide (v ≤ r.pos) }) s

/-- The state of an accepted TAP_RELEASE of position `v` before the backlog goes on. -/
def releasedTo (m : Sprue) (v : Nat) (s : State) : State :=
  forEach (reportedBelow v (fnOf s m.fn).inRing) freeReported (releaseBelow m.fn v (carried m s))

theorem doTapRelease_releases {m : Sprue} {s : State} {v : Nat} (hv : msgAt m 16 8 = v) (low : (fnOf s m.fn).released ≤ v)
    (high : v ≤ (fnOf s m.fn).next) :
    doTapRelease m s = drainBacklog m.fn (releasedTo m v s) := by
  have ring : (fnOf (carried m s) m.fn).inRing = (fnOf s m.fn).inRing := (congrArg Fn.inRing (onWindow_turn _ _ s m.fn) :)
  unfold doTapRelease releasedTo
  rw [hv, ← ring]
  exact if_neg (by omega)

theorem doTapRelease_refuses {m : Sprue} {s : State} {v : Nat} (hv : msgAt m 16 8 = v) (out : v < (fnOf s m.fn).released ∨ (fnOf s m.fn).next < v) :
    doTapRelease m s = answerMsg m .malformed 10 0 s := by
  unfold doTapRelease
  rw [hv]
  exact if_pos out

theorem fnOf_releasedTo (m : Sprue) (v : Nat) (s : State) :
    (fnOf (releasedTo m v s) m.fn).released = v ∧
      (fnOf (releasedTo m v s) m.fn).inRing = (fnOf s m.fn).inRing.filter (fun r => decide (v ≤ r.pos)) := by
  have same : FnsTurn WindowSet (releaseBelow m.fn v (carried m s)) (releasedTo m v s) :=
    FnsTurn.same windowSet_order (forEach_same State.fns freeReported_fns _ _)
  rw [same m.fn, releaseBelow, fnOf_onFn_self, carried, settle, onWindow_turn _ _ s m.fn]
  exact ⟨rfl, rfl⟩

/-- A session that a record below `v` reported is found after the release exactly where it has not ended. -/
theorem findSess_releasedTo {m : Sprue} {v : Nat} {s : State} {r : TapRec} {o : OutRec} {x : Session} (hr : r ∈ (fnOf s m.fn).inRing)
    (below : r.pos < v) (hb : r.body = .outcome o) (reports : o.reports = true) (hx : findSess s o.handle = some x) :
    (findSess (releasedTo m v s) o.handle).isSome = !ended x := by
  obtain ⟨y, hy, same⟩ : ∃ y, findSess (releaseBelow m.fn v (carried m s)) o.handle = some y ∧ y.state = x.state := findSess_onWindow hx
  have as_x : ended y = ended x := by rw [ended, ended, same]
  rw [releasedTo, findSess_freeAllReported, if_pos (mem_reportedBelow hr below hb reports), hy, Option.filter_some, as_x]
  cases ended x <;> rfl

/-- Settles O45: the sessions that the released records reported are freed one after another, each where it has ended. -/
theorem tapReleaseReleases : Obligations.TapReleaseReleases := by
  unfold Obligations.TapReleaseReleases
  intro m s v taken _ hv
  have run : exec (.tapRelease m) s = .next (doTapRelease m (acceptMsg m s)) := congrArg Host.Outcome.next (takeMessage_accepts _ m _ s taken)
  rw [run]
  refine ⟨fun low high => ?_, fun out => by rw [doTapRelease_refuses hv out]⟩
  obtain ⟨position, ring⟩ := fnOf_releasedTo m v (acceptMsg m s)
  refine ⟨releasedTo m v (acceptMsg m s), by rw [doTapRelease_releases hv low high], position, ring, fun r hr o x below hb reports hx => ?_⟩
  have found := findSess_releasedTo (m := m) hr below hb reports hx
  refine ⟨fun gone => ?_, fun open_ kept => ?_⟩
  · rw [(ended_iff x).mpr gone] at found
    simpa using found
  · rw [found, Bool.not_eq_true', ← Bool.not_eq_true, ended_iff]
    exact not_or.mpr ⟨open_, kept⟩

end Sys2Proof.Machine
end

section
/-! The mailbox: requests that it cannot take, the set-up of a tap, and operations that are not listed (R107, R114 to R117, R531). -/

namespace Sys2Proof.Machine

/-! ### Requests that the mailbox cannot take -/

/-- Settles O26: every mailbox command comes to `mbRun`, whose first branch is the rejection. -/
theorem busyMailboxRejects : Obligations.BusyMailboxRejects := by
  unfold Obligations.BusyMailboxRejects
  intro c r s h hc
  have blocked : (mbEarly s || (fnOf s r.fn).mb.busy) = true := by simpa using h
  rcases hc with ⟨_, rfl⟩ | ⟨_, rfl⟩ | ⟨_, _, rfl⟩ | rfl | rfl | rfl | ⟨_, rfl⟩ | rfl | ⟨_, rfl⟩ | ⟨_, _, rfl⟩ | ⟨_, _, rfl⟩ | ⟨_, _, _, rfl⟩ |
    ⟨_, _, rfl⟩ | ⟨_, rfl⟩ | rfl | rfl | rfl | rfl | rfl | rfl | rfl | ⟨_, _, rfl⟩ | ⟨_, _, _, rfl⟩ | ⟨_, rfl⟩ | ⟨_, rfl⟩ | rfl | ⟨_, _, rfl⟩
  all_goals exact congrArg Host.Outcome.next (if_pos blocked)

/-! ### TAP_SETUP, VECTOR_SET and operations not listed -/

/-- The settings of a vector put in place are its own; every other vector keeps its settings. -/
theorem vecCfg_upsert (f : Fn) (c : VecCfg) (v : Nat) :
    vecCfg { f with vectors := upsert VecCfg.vector c f.vectors } v = if v = c.vector then c else vecCfg f v := by
  unfold vecCfg
  dsimp only
  rw [findKey_upsert]
  split <;> rfl

theorem Replied.vecCfg {f g : Fn} (a : Replied f g) (v : Nat) : Machine.vecCfg g v = Machine.vecCfg f v :=
  congrArg (fun l => (findKey VecCfg.vector v l).getD { vector := v }) (congrArg Fn.vectors a :)

theorem Replied.ring {f g : Fn} (a : Replied f g) : g.ring = f.ring := (congrArg Fn.ring a :)

/-- A ring given to a function, and its backlog written into it (R107). -/
def givenRing (fn base logSize : Nat) (s : State) : State := drainBacklog fn (onFn fn (fun f => { f with ring := some (base, logSize) }) s)

theorem givenRing_fn (fn base logSize : Nat) (s : State) :
    (fnOf (givenRing fn base logSize s) fn).ring = some (base, logSize) ∧ (fnOf (givenRing fn base logSize s) fn).mb = (fnOf s fn).mb := by
  have drained := (drainBacklog_step fn (onFn fn (fun f => { f with ring := some (base, logSize) }) s)).fns fn
  refine ⟨drained.ring.trans ?_, drained.mb.trans ?_⟩ <;> rw [fnOf_onFn_self]

theorem givenRing_frame (fn base logSize : Nat) (s : State) : TapFrame s (givenRing fn base logSize s) :=
  (onFn_signals fn _ s).tapFrame.trans (drainBacklog_step fn _).frame

theorem exec_tap_setup {r : MbReq} {base logSize : Nat} {s : State} (ready : Ready r 0x60 s) (len : r.length = 16) (free : (fnOf s r.fn).ring = none)
    (page : base % 4096 = 0) (least : 10 ≤ logSize) (most : logSize ≤ 20) :
    exec (.tapSetup r base logSize) s =
      .next (answerMb (mbTake r 0x60 0 s).1 .done [] (givenRing r.fn base logSize (mbTake r 0x60 0 s).2)) := by
  have none_yet : (fnOf (mbTake r 0x60 0 s).2 r.fn).ring = none := (mbTake_turn r 0x60 0 s r.fn).ring.trans free
  refine congrArg Host.Outcome.next ((mbSimple_ready r 0x60 0 _ _ s ready (by simp [len])).trans ?_)
  exact if_pos ⟨none_yet, page, least, most⟩

/-- The settings of a vector put in place. -/
def setVector (fn : Nat) (c : VecCfg) (s : State) : State := onFn fn (fun f => { f with vectors := upsert VecCfg.vector c f.vectors }) s

theorem exec_vector_set {r : MbReq} {vector count interval : Nat} {s : State} (ready : Ready r 0x61 s) (len : r.length = 12)
    (listed : vector = 0 ∨ (3 ≤ vector ∧ vector ≤ 2047)) (least : 1 ≤ count) (most : count ≤ 65536) (short : interval ≤ 1000000) :
    exec (.vectorSet r vector count interval) s = .next (answerMb (mbTake r 0x61 0 s).1 .done []
      (setVector r.fn { vector := vector, count := count, interval := interval } (mbTake r 0x61 0 s).2)) := by
  refine congrArg Host.Outcome.next ((mbSimple_ready r 0x61 0 _ _ s ready (by simp [len])).trans ?_)
  exact if_pos ⟨listed, least, most, short⟩

theorem fnOf_setVector (fn : Nat) (c : VecCfg) (s : State) :
    fnOf (setVector fn c s) fn = { fnOf s fn with id := fn, vectors := upsert VecCfg.vector c (fnOf s fn).vectors } := fnOf_onFn_self _ _ _

/-- A vector set by a request that is taken and answered has its settings, and no other vector of the function has new ones. -/
theorem vecCfg_answered (r : MbReq) (c : VecCfg) (s : State) (v : Nat) :
    vecCfg (fnOf (answerMb (mbTake r 0x61 0 s).1 .done [] (setVector r.fn c (mbTake r 0x61 0 s).2)) r.fn) v =
      if v = c.vector then c else vecCfg (fnOf s r.fn) v := by
  rw [(answerMb_turn _ _ _ _ r.fn).vecCfg, ← (mbTake_turn r 0x61 0 s r.fn).vecCfg v, fnOf_setVector]
  exact vecCfg_upsert _ c v

/-- An operation that Table 3-16 does not list is answered as soon as the mailbox takes it (R116). -/
theorem exec_unlisted {r : MbReq} {op : Nat} {s : State} (late : mbEarly s = false) (idle : (fnOf s r.fn).mb.busy = false) (hl : listedOp op = false)
    (sub : Nat) : exec (.unknownOperation r op sub) s = .next (answerMb (mbTake r op sub s).1 .notSupported [] (mbTake r op sub s).2) := by
  refine congrArg Host.Outcome.next ((if_neg (by simp [late, idle])).trans ?_)
  exact if_pos (.inr (.inl hl))

/-- Settles O25: each request is taken, carried out and answered, in a frame that leaves the rest. -/
theorem tapRequestsAct : Obligations.TapRequestsAct := by
  unfold Obligations.TapRequestsAct
  refine ⟨fun r base logSize s ready len free page least most => ?setup, fun r vector count interval s ready len listed least most short => ?vector,
    fun r op sub s late idle hl => ?unlisted, fun r op sub s ready => ?unnamed⟩
  case setup =>
    obtain ⟨ring, mb⟩ := givenRing_fn r.fn base logSize (mbTake r 0x60 0 s).2
    have frame := ((mbTake_signals r 0x60 0 s).tapFrame.trans (givenRing_frame r.fn base logSize _)).trans
      (answerMb_signals (mbTake r 0x60 0 s).1 .done [] _).tapFrame
    exact ⟨_, exec_tap_setup ready len free page least most, answerMb_answered r 0x60 0 .done [] s _ mb,
      (answerMb_turn _ _ _ _ r.fn).ring.trans ring, (congrArg State.dev frame :), (congrArg State.tens frame :), (congrArg State.sched frame :),
      (congrArg State.store frame :), (congrArg State.links frame :)⟩
  case vector =>
    refine ⟨_, exec_vector_set ready len listed least most short, answerMb_answered r 0x61 0 .done [] s _ ?_,
      (vecCfg_answered r _ s vector).trans (if_pos rfl), fun v hv => (vecCfg_answered r _ s v).trans (if_neg hv), fun fn hfn => ?_,
      ((mbTake_signals r 0x61 0 s).trans (onFn_signals r.fn _ _)).trans (answerMb_signals _ _ _ _)⟩
    · rw [fnOf_setVector]
    · rw [fnOf_answerMb_other hfn]
      exact (fnOf_onFn_other hfn _ _).trans (fnOf_onFn_other hfn _ _)
  case unlisted =>
    exact ⟨_, exec_unlisted late idle hl sub, answer_after r op sub .notSupported [] s _ rfl, (mbTake_signals r op sub s).trans (answerMb_signals _ _ _ _)⟩
  case unnamed =>
    exact ⟨_, congrArg Host.Outcome.next (mbSimple_ready r op sub _ _ s ready rfl), answer_after r op sub .malformed [] s _ rfl,
      (mbTake_signals r op sub s).trans (answerMb_signals _ _ _ _)⟩

end Sys2Proof.Machine
end

section
/-! Planning a pour: what of the pour in flight each part of it leaves or sets, the pours suspended that go on, and those planned again
(R27, R125 to R134, R229 to R232, R339 to R346, R372). -/

namespace Sys2Proof.Machine

/-! ### What relieving the memory leaves of the pour in flight -/

@[simp] theorem releasePages_sched (p : Option ModelProgram) (pgs : List Page) (s : State) : (releasePages p pgs s).sched = s.sched := by
  cases p with
  | none => rfl
  | some q => exact releasePlaces_sched _ s

@[simp] theorem takeBack_sched (h : Nat) (s : State) : (takeBack h s).sched = s.sched := by
  unfold takeBack
  split
  · rfl
  · split
    · rfl
    · simp

@[simp] theorem takeBacks_sched (f : Flask) (s : State) : (takeBacks f s).sched = s.sched :=
  forEach_sched (fun h t => by
    split
    · simp
    · rfl) _ s

@[simp] theorem stranded_sched (f : Flask) (s : State) : (stranded f s).sched = s.sched := rfl

@[simp] theorem setLow_sched (d : Nat) (on : Bool) (s : State) : (setLow d on s).sched = s.sched := rfl

@[simp] theorem releaseLoose_sched (d mark : Nat) (ps : List (Nat × Nat × Nat)) (s : State) : (releaseLoose d mark ps s).sched = s.sched := by
  induction ps generalizing s with
  | nil => rfl
  | cons p ps ih =>
    unfold releaseLoose
    split
    · rfl
    · exact (ih _).trans rfl

@[simp] theorem pressVictim_pour (x : Session) (s : State) : (pressVictim x s).sched.pour = s.sched.pour := by
  unfold pressVictim
  split
  · rfl
  · exact startDemotion_pour _ _ s

@[simp] theorem pressDie_pour (d : Nat) (s : State) : (pressDie d s).sched.pour = s.sched.pour := by
  unfold pressDie
  split
  · rfl
  · split
    · exact pressVictim_pour _ s
    · rfl

@[simp] theorem relieveDie_pour (d : Nat) (s : State) : (relieveDie d s).sched.pour = s.sched.pour := by
  simp [relieveDie, apply_ite Sched.pour]

@[simp] theorem streamRevived_sched (h : Nat) (s : State) : (streamRevived h s).sched = s.sched := by
  unfold streamRevived
  split
  · rfl
  · dsimp only
    split <;> simp

@[simp] theorem startRevival_sched (h : Nat) (s : State) : (startRevival h s).sched = s.sched := by
  unfold startRevival
  split
  · rfl
  · simp

@[simp] theorem reviveWaiting_sched (s : State) : (reviveWaiting s).sched = s.sched := by
  unfold reviveWaiting
  split
  · rfl
  · split
    · rfl
    · simp

@[simp] theorem relieve_pour (s : State) : (relieve s).sched.pour = s.sched.pour :=
  (congrArg Sched.pour (reviveWaiting_sched _)).trans (forEach_same (fun t => t.sched.pour) relieveDie_pour _ s)

@[simp] theorem reserveDie_pour (d kib : Nat) (s : State) : (reserveDie d kib s).sched.pour = s.sched.pour := by
  simp [reserveDie, apply_ite Sched.pour]

@[simp] theorem reserveDies_pour (ws : List Work) (s : State) : (reserveDies ws s).sched.pour = s.sched.pour :=
  forEach_same (fun t => t.sched.pour) (fun d t => reserveDie_pour d _ t) _ s

@[simp] theorem holdBound_pour (growth : Nat) (s : State) : (holdBound growth s).sched.pour = s.sched.pour := by
  have pressed : ∀ (xs : List Session) (t : State), (boundVictims growth xs t).sched.pour = t.sched.pour := by
    intro xs
    induction xs with
    | nil => exact fun _ => rfl
    | cons x xs ih =>
      intro t
      unfold boundVictims
      split
      · rfl
      · rw [ih, pressVictim_pour]
  exact pressed _ s

/-! ### What starting a pour leaves of it -/

/-- A pour with its entries changed in no slot and no chunk. -/
def Reworked (p q : Pour) : Prop := q = { p with works := q.works } ∧ ∀ w ∈ q.works, ∃ v ∈ p.works, w.slot = v.slot ∧ w.chunk = v.chunk

theorem Reworked.trans {p q r : Pour} (a : Reworked p q) (b : Reworked q r) : Reworked p r := by
  obtain ⟨ea, wa⟩ := a
  obtain ⟨eb, wb⟩ := b
  refine ⟨by rw [eb, ea], fun w hw => ?_⟩
  obtain ⟨v, hv, slot, chunk⟩ := wb w hw
  obtain ⟨u, hu, slot', chunk'⟩ := wa v hv
  exact ⟨u, hu, slot.trans slot', chunk.trans chunk'⟩

/-- Entries each changed in no slot and no chunk. -/
theorem reworked_map (p : Pour) {f : Work → Work} (hf : ∀ w, (f w).slot = w.slot ∧ (f w).chunk = w.chunk) : Reworked p { p with works := p.works.map f } := by
  refine ⟨rfl, fun w hw => ?_⟩
  obtain ⟨v, hv, rfl⟩ := List.mem_map.mp hw
  exact ⟨v, hv, hf v⟩

theorem Reworked.refl (p : Pour) : Reworked p p := ⟨rfl, fun w hw => ⟨w, hw, rfl, rfl⟩⟩

/-- From `s` to `t` the pour in flight stays in flight with its entries' slots and chunks; of the scheduler besides, the pours suspended and the count
of selections alone are changed. -/
structure Works (s t : State) : Prop where
  sched : t.sched = { s.sched with pour := t.sched.pour, suspended := t.sched.suspended, selections := t.sched.selections }
  pour : ∀ p, s.sched.pour = some p → ∃ q, t.sched.pour = some q ∧ Reworked p q

theorem Works.trans {s t u : State} (a : Works s t) (b : Works t u) : Works s u := by
  refine ⟨by rw [b.sched, a.sched], fun p hp => ?_⟩
  obtain ⟨q, hq, pq⟩ := a.pour p hp
  obtain ⟨r, hr, qr⟩ := b.pour q hq
  exact ⟨r, hr, pq.trans qr⟩

theorem Works.same {s t : State} (e : t.sched = s.sched) : Works s t :=
  ⟨by rw [e], fun p hp => ⟨p, by rw [e, hp], Reworked.refl p⟩⟩

theorem forEach_works {α : Type} {f : α → State → State} (h : ∀ x t, Works t (f x t)) (l : List α) (s : State) : Works s (forEach l f s) :=
  forEach_rel (fun _ => Works.same rfl) Works.trans h l s

theorem onWork_works (h : Nat) {f : Work → Work} (hf : ∀ w, (f w).slot = w.slot ∧ (f w).chunk = w.chunk) (s : State) : Works s (onWork h f s) := by
  refine ⟨rfl, fun p hp => ⟨_, by rw [onWork, hp]; rfl, reworked_map p fun w => ?_⟩⟩
  split
  · exact hf w
  · exact ⟨rfl, rfl⟩

theorem faultSlot_works (h : Nat) (o : OCode) (s : State) : Works s (faultSlot h o s) := by
  refine ⟨rfl, fun p hp => ?_⟩
  have after : (faultSlot h o s).sched.pour = some (if p.step ≤ 7 then { p with works := p.works.map (faulted h o) } else p) := by
    show s.sched.pour.map _ = _
    rw [hp]
    rfl
  refine ⟨_, after, ?_⟩
  split
  · refine reworked_map p fun w => ?_
    unfold faulted
    split <;> exact ⟨rfl, rfl⟩
  · exact Reworked.refl p

theorem issueFetch_works (h l row : Nat) (s : State) : Works s (issueFetch h l row s) := by
  unfold issueFetch
  split
  · exact Works.same rfl
  · split
    · split
      · exact faultSlot_works _ _ s
      · refine Works.same ?_
        dsimp only
        split <;> rfl
    · exact Works.same rfl

theorem startWork_works (p : ModelProgram) (l h : Nat) (s : State) : Works s (startWork p l h s) := by
  unfold startWork
  split
  · split
    · split
      · exact Works.same rfl
      · split
        · refine (onWork_works h ?_ s).trans (Works.same rfl)
          exact fun _ => ⟨rfl, rfl⟩
        · extract_lets img qs first sums sets rows n mark s1 sched s2
          have counted : Works s { s1 with sched := { s1.sched with selections := n } } := ⟨rfl, fun q hq => ⟨q, hq, Reworked.refl q⟩⟩
          have given : Works s s2 := by
            refine counted.trans (onWork_works h ?_ _)
            exact fun _ => ⟨rfl, rfl⟩
          refine Works.trans ?_ (forEach_works (fun row t => issueFetch_works h l row t) rows _)
          exact given.trans (Works.same rfl)
    · exact Works.same rfl
  · exact Works.same rfl

theorem startPour_works (s : State) : Works s (startPour s) := by
  unfold startPour
  split
  · exact Works.same rfl
  · next q hq =>
    split
    · exact Works.same rfl
    · next p _ =>
      extract_lets src sched s1
      have fed : Works s s1 := by
        refine ⟨rfl, fun q' hq' => ⟨_, rfl, ?_⟩⟩
        cases hq.symm.trans hq'
        refine reworked_map q fun w => ?_
        split
        · split <;> exact ⟨rfl, rfl⟩
        · exact ⟨rfl, rfl⟩
      exact fed.trans (forEach_works (fun h t => startWork_works p 0 h t) _ _)

/-- The streams of a weight window change the tiers alone (R207, R212). -/
theorem streamBlocks_tiers (s : State) : TiersOnly s (streamBlocks s) := by
  unfold streamBlocks
  split
  · rfl
  · split
    · exact forEach_tiers (fun _ t => startPoolStream_tiers _ _ _ _ t) _ s
    · rfl

theorem TiersOnly.sched {s t : State} (a : TiersOnly s t) : t.sched = s.sched := by rw [a]

@[simp] theorem writeRail_sched (n mv : Nat) (s : State) : (writeRail n mv s).sched = s.sched := by simp [writeRail]

@[simp] theorem setPlanned_sched (mv : Nat) (s : State) : (setPlanned mv s).sched = s.sched :=
  forEach_sched (fun (p : Nat × Nat) t => writeRail_sched p.1 p.2 t) _ s

/-! ### A pour planned -/

/-- In `s` the pour `p` of a flask is in flight under a number issued, at step 4 before its first layer, its model the one loaded. -/
structure Planned (f : Flask) (n : Nat) (s : State) (p : Pour) : Prop where
  pour : s.sched.pour = some p
  number : p.number = n
  flask : p.flask = f.num
  step : p.step = 4
  layer : p.layer = 0
  rerun : p.rerun = false
  issued : n < s.sched.next
  on : s.sched.clustersOn = true
  loaded : s.sched.loaded = some p.model
  works : ∀ w ∈ p.works, w.slot.isSome = true ∨ w.chunk.isSome = true

theorem Planned.after {f : Flask} {n : Nat} {s t : State} {p : Pour} (a : Planned f n s p) (w : Works s t) :
    ∃ q, Planned f n t q := by
  obtain ⟨q, hq, e, works⟩ := w.pour p a.pour
  have model : q.model = p.model := by rw [e]
  refine ⟨q, hq, by rw [e]; exact a.number, by rw [e]; exact a.flask, by rw [e]; exact a.step, by rw [e]; exact a.layer, by rw [e]; exact a.rerun,
    by rw [w.sched]; exact a.issued, by rw [w.sched]; exact a.on, by rw [w.sched, model]; exact a.loaded, fun v hv => ?_⟩
  obtain ⟨u, hu, slot, chunk⟩ := works v hv
  rw [slot, chunk]
  exact a.works u hu

/-- A plan that finds work leaves its pour in flight; one that finds none leaves the pour in flight as it was. -/
theorem planPour_cases (obs : PlanObs) (f : Flask) (n : Nat) (s : State) :
    ((planPour obs f n s).1 = true ∧ ∃ p, Planned f n (planPour obs f n s).2 p) ∨
      ((planPour obs f n s).1 = false ∧ (planPour obs f n s).2.sched.pour = s.sched.pour) := by
  unfold planPour
  extract_lets s' first pressed second ws st windowed pour s1 sched s2
  split
  · refine .inl ⟨rfl, ?_⟩
    have scheduled : s2.sched = { s1.sched with next := max s1.sched.next (n + 1), pour := some pour, clustersOn := true, loaded := some f.model } :=
      setPlanned_sched _ _
    have placed : Planned f n s2 pour := by
      refine ⟨by rw [scheduled], rfl, rfl, rfl, rfl, rfl, ?_, by rw [scheduled], by rw [scheduled], fun w hw => ?_⟩
      · rw [scheduled]
        exact Nat.le_max_right _ _
      · simpa using (List.mem_filter.mp hw).2
    exact placed.after ((startPour_works s2).trans (Works.same (streamBlocks_tiers _).sched))
  · refine .inr ⟨rfl, ?_⟩
    have relieved : s'.sched.pour = s.sched.pour := by simp [s']
    show pressed.sched.pour = _
    unfold pressed
    split
    · exact relieved
    · simp [relieved]

/-- The first flask in order whose plan finds work has its pour in flight (R125). -/
theorem planFirst_planned (obs : PlanObs) (fs : List Flask) (s : State) (found : (planFirst obs fs s).1 = true) :
    ∃ f n p, Planned f n (planFirst obs fs s).2 p := by
  induction fs generalizing s with
  | nil => cases found
  | cons f fs ih =>
    unfold planFirst at found ⊢
    have outcome := planPour_cases obs f s.sched.next s
    generalize planPour obs f s.sched.next s = r at found outcome ⊢
    obtain ⟨b, t⟩ := r
    cases b with
    | true =>
      obtain ⟨-, p, planned⟩ | ⟨no, -⟩ := outcome
      · exact ⟨f, _, p, planned⟩
      · cases no
    | false => exact ih _ found

/-- A pour planned again keeps its number and its flask, where it is not dropped (R27). -/
theorem replan_same_pour (obs : PlanObs) (p : Pour) (s : State) {q : Pour} (hq : (replan obs p s).sched.pour = some q) :
    q.number = p.number ∧ q.flask = p.flask := by
  unfold replan at hq
  extract_lets sched s1 at hq
  split at hq
  · cases hq
  · next f hf =>
    split at hq
    · dsimp only at hq
      obtain ⟨yes, p', planned⟩ | ⟨no, same⟩ := planPour_cases obs f p.number s1
      · rw [if_pos yes] at hq
        cases planned.pour.symm.trans hq
        exact ⟨planned.number, planned.flask.trans (findKey_some hf).1⟩
      · rw [if_neg (ne_true_of_eq_false no)] at hq
        cases same.symm.trans hq
    · cases hq

/-! ### A suspended pour that goes on -/

/-- A cluster context loaded again, where it was saved for a pour (R345). -/
def reloaded (p : Pour) (c : Ctx) : Ctx := if c.saved = some p.number then { c with saved := none, restart := none } else c

theorem reloaded_saved (p : Pour) (c : Ctx) : (reloaded p c).saved ≠ some p.number := by
  unfold reloaded
  split
  · exact nofun
  · assumption

/-- A suspended pour in flight again, its model and its contexts loaded (R339, R345). -/
def backInFlight (p : Pour) (rest : List Pour) (s : State) : State :=
  { s with sched := { s.sched with pour := some p, suspended := rest, loaded := some p.model }
           cores := { s.cores with ctxs := s.cores.ctxs.map (reloaded p) } }

theorem holdFetches_tiers (on : Bool) (p : Pour) (s : State) : TiersOnly s (holdFetches on p s) := rfl

theorem resumePour_none {s : State} (hp : s.sched.pour = none) (hs : s.sched.suspended = []) : resumePour s = s := by
  unfold resumePour
  rw [hp, hs]

/-- Beyond that the resumed pour's tasks, streams and fetches alone are begun again: the tiers. -/
theorem resumePour_goes_on {s : State} {p : Pour} {rest : List Pour} (hp : s.sched.pour = none) (hs : s.sched.suspended = p :: rest) :
    TiersOnly (backInFlight p rest s) (resumePour s) := by
  unfold resumePour
  rw [hp, hs]
  dsimp only
  refine ((forEach_tiers (fun w t => ?_) _ (backInFlight p rest s)).trans (holdFetches_tiers false p _)).trans (streamBlocks_tiers _)
  split
  · split <;> rfl
  · rfl

/-! ### POUR_PLAN -/

/-- What POUR_PLAN does before it plans: the time and the temperatures are taken. -/
def readPlan (obs : PlanObs) (s : State) : State := readTemps obs.temps (passTime obs.elapsedUs s)

theorem exec_pour_plan_halted {obs : PlanObs} {s : State} (may : mayPlan (readPlan obs s) = false) : exec (.pourPlan obs) s = .next (readPlan obs s) :=
  if_neg (ne_true_of_eq_false may)

theorem exec_pour_plan_flying {obs : PlanObs} {s : State} {p : Pour} (may : mayPlan (readPlan obs s) = true) (hp : (readPlan obs s).sched.pour = some p) :
    exec (.pourPlan obs) s = .next (if p.rerun then replan obs p (readPlan obs s) else requestPreempt (readPlan obs s)) := by
  show execPourPlan obs s = _
  unfold execPourPlan
  unfold readPlan at *
  dsimp only
  rw [if_pos may, hp]

theorem exec_pour_plan_idle {obs : PlanObs} {s : State} (may : mayPlan (readPlan obs s) = true) (hp : (readPlan obs s).sched.pour = none) :
    let r := planFirst obs (candidates (readPlan obs s)) (readPlan obs s)
    exec (.pourPlan obs) s = .next (if r.1 then r.2 else resumePour r.2) := by
  show execPourPlan obs s = _
  unfold execPourPlan
  unfold readPlan at *
  dsimp only
  rw [if_pos may, hp]

theorem requestPreempt_raises {s : State} {p : Pour} {f : Flask} (hp : s.sched.pour = some p) (h4 : p.step ≤ 4) (hn : p.preempt = none)
    (hf : (readyFlasks s).find? (fun f => mayPreempt s f p) = some f) :
    requestPreempt s = { s with sched := { s.sched with pour := some { p with preempt := some f.num } } } := by
  unfold requestPreempt
  rw [hp]
  dsimp only
  rw [if_pos ⟨h4, by simp [hn]⟩, hf]

theorem requestPreempt_rests {s : State} {p : Pour} (hp : s.sched.pour = some p)
    (no : 4 < p.step ∨ p.preempt.isSome = true ∨ (readyFlasks s).find? (fun f => mayPreempt s f p) = none) : requestPreempt s = s := by
  unfold requestPreempt
  rw [hp]
  dsimp only
  split
  · next early =>
    obtain ⟨h4, hn⟩ := early
    rcases no with late | raised | nobody
    · exact absurd h4 (Nat.not_le.mpr late)
    · rw [Option.isNone_iff_eq_none.mp hn] at raised
      cases raised
    · rw [nobody]
  · rfl

/-- Settles O33: the equation of POUR_PLAN in each case, with what a plan, a plan made again, a resumed pour and a pre-emption come to. -/
theorem poursArePlanned : Obligations.PoursArePlanned := by
  unfold Obligations.PoursArePlanned
  intro obs s u hu
  change u = readPlan obs s at hu
  subst hu
  refine ⟨fun may hp found => ?planned, fun may hp no => ⟨_, rfl, fun hv hs => ?nothing, fun p rest hv hs => ?resumed⟩, fun p may hp again => ?again,
    fun p may hp once => ⟨fun f h4 hn hf => ?raised, fun no => ?rests⟩, exec_pour_plan_halted⟩
  case planned =>
    obtain ⟨f, n, p, planned⟩ := planFirst_planned obs _ _ found
    exact ⟨_, p, by rw [exec_pour_plan_idle may hp, if_pos found], planned.pour, planned.step, planned.layer, planned.rerun,
      planned.number ▸ planned.issued, planned.on, planned.loaded, planned.works⟩
  case nothing => rw [exec_pour_plan_idle may hp, if_neg (ne_true_of_eq_false no), resumePour_none hv hs]
  case resumed =>
    have goes := resumePour_goes_on hv hs
    refine ⟨_, by rw [exec_pour_plan_idle may hp, if_neg (ne_true_of_eq_false no)], ?_, ?_, ?_⟩
    · rw [goes]; rfl
    · rw [goes]
      intro c hc
      obtain ⟨c0, -, rfl⟩ := List.mem_map.mp hc
      exact reloaded_saved p c0
    · rw [goes]; rfl
  case again =>
    exact ⟨_, by rw [exec_pour_plan_flying may hp, if_pos again], fun q hq => replan_same_pour obs p _ hq⟩
  case raised =>
    rw [exec_pour_plan_flying may hp, if_neg (ne_true_of_eq_false once), requestPreempt_raises hp h4 hn hf]
  case rests =>
    rw [exec_pour_plan_flying may hp, if_neg (ne_true_of_eq_false once), requestPreempt_rests hp no]

end Sys2Proof.Machine
end

section
/-! Steps 4 and 5 of a pour: its layers, the blocks of its weight window, and its masks (R128, R173, R207, R209, R299, R341, R342). -/

namespace Sys2Proof.Machine

/-! ### A layer completed -/

/-- Every entry that works in a pour's layer does it, after the time of the layer has passed. -/
def layerWorked (m : ModelProgram) (obs : LayerObs) (p : Pour) (s : State) : State :=
  forEach (p.works.filter fun w => (isWorking w || shardWorks (passTime obs.elapsedUs s) w) && !w.barged) (workLayer m p.layer obs)
    (passTime obs.elapsedUs s)

theorem exec_layer_complete {obs : LayerObs} {s : State} {p : Pour} {m : ModelProgram} (hp : s.sched.pour = some p) (h4 : p.step = 4)
    (hr : p.rerun = false) (hw : p.waiting = false) (hb : blockIn s p = true) (hm : progOf s p.model = some m) :
    exec (.layerComplete obs) s = .next ((p.group.bind (findGroup (layerWorked m obs p s))).elim (endLayer (layerWorked m obs p s))
      fun g => goOnGroup g.num (layerWorked m obs p s)) := by
  show execLayerComplete obs s = _
  unfold execLayerComplete
  rw [hp]
  dsimp only
  rw [if_neg (by simp [h4, hr, hw, hb]), hm]
  dsimp only
  unfold layerWorked
  generalize p.group.bind (findGroup _) = group
  cases group <;> rfl

/-! ### The end of a layer -/

/-- A pour with one layer more finished. -/
def nextLayer (p : Pour) : Pour := { p with layer := p.layer + 1, waiting := false }

/-- A pour past its last layer: at its choices, or at its masks where they are not ready. -/
def pastLayers (p : Pour) : Pour := { p with layer := p.layer + 1, waiting := false, step := if p.masksDone then 6 else 5, preempt := none }

/-- A pour in flight in the place of another, its last layer's tasks ended and that layer's block out of the window (R207, R215). -/
def layerLeft (p q : Pour) (s : State) : State :=
  let t := onModel p.model (fun m => { m with arrived := m.arrived.filter fun b => decide (p.layer < b)
                                              retried := m.retried.filter fun b => decide (p.layer < b) }) (clearTasks p.layer s)
  { t with sched := { t.sched with pour := some q } }

/-- With no group there is nothing to add up before a layer ends. -/
theorem endLayer_alone {s : State} {p : Pour} (hp : s.sched.pour = some p) (hg : p.group = none) :
    endLayer s = if layerTotal s p ≤ p.layer + 1 then
        layerLeft p { nextLayer p with step := if ownsRelease s p = false then 7 else if p.masksDone then 6 else 5, preempt := none } s
      else if p.preempt.isSome then suspend (streamBlocks (layerLeft p (nextLayer p) s)) else streamBlocks (layerLeft p (nextLayer p) s) := by
  have alone : ¬(s.sched.pour.bind Pour.group).isSome = true := by simp [hp, hg]
  unfold endLayer
  rw [if_neg alone]
  dsimp only
  rw [hp]
  rfl

theorem endLayer_last {s : State} {p : Pour} (hp : s.sched.pour = some p) (hg : p.group = none) (last : layerTotal s p ≤ p.layer + 1) :
    endLayer s = layerLeft p (pastLayers p) s := by
  have owns : ownsRelease s p = true := by simp [ownsRelease, hg]
  rw [endLayer_alone hp hg, if_pos last, if_neg (by simp [owns])]
  rfl

theorem endLayer_more {s : State} {p : Pour} (hp : s.sched.pour = some p) (hg : p.group = none) (more : p.layer + 1 < layerTotal s p) :
    endLayer s = if p.preempt.isSome then suspend (streamBlocks (layerLeft p (nextLayer p) s)) else streamBlocks (layerLeft p (nextLayer p) s) := by
  rw [endLayer_alone hp hg, if_neg (Nat.not_le.mpr more)]

/-- `t` differs from `s` in its scheduler, models, tiers and cores alone. -/
def LayerFrame (s t : State) : Prop := t = { s with sched := t.sched, models := t.models, tiers := t.tiers, cores := t.cores }

theorem LayerFrame.trans {s t u : State} (a : LayerFrame s t) (b : LayerFrame t u) : LayerFrame s u := by
  unfold LayerFrame at *
  rw [b, a]

theorem LayerFrame.tenants {s t : State} (a : LayerFrame s t) : t.sess = s.sess ∧ t.tens = s.tens ∧ t.fns = s.fns := by
  rw [a]
  exact ⟨rfl, rfl, rfl⟩

theorem TiersOnly.layer {s t : State} (a : TiersOnly s t) : LayerFrame s t := by
  unfold LayerFrame
  rw [a]

/-- A pour suspended goes before the others that are. -/
theorem suspend_pour {s : State} {p : Pour} (hp : s.sched.pour = some p) :
    (suspend s).sched = { s.sched with pour := none, suspended := { p with preempt := none } :: s.sched.suspended } := by
  unfold suspend
  rw [hp]
  rfl

theorem suspend_frame (s : State) : LayerFrame s (suspend s) := by
  unfold suspend
  split <;> rfl

theorem endLayer_frame {s : State} {p : Pour} (hp : s.sched.pour = some p) (hg : p.group = none) : LayerFrame s (endLayer s) := by
  rcases Nat.lt_or_ge (p.layer + 1) (layerTotal s p) with more | last
  · have streamed : LayerFrame s (streamBlocks (layerLeft p (nextLayer p) s)) :=
      LayerFrame.trans (t := layerLeft p (nextLayer p) s) rfl (streamBlocks_tiers _).layer
    rw [endLayer_more hp hg more]
    split
    · exact streamed.trans (suspend_frame _)
    · exact streamed
  · rw [endLayer_last hp hg last]
    rfl

/-! ### Models changed -/

/-- From `s` to `t` model `n` has become `m`, and every other is as it was. -/
structure ModelIs (n : Nat) (m : Model) (s t : State) : Prop where
  here : findModel t n = some m
  others : ∀ k, k ≠ n → findModel t k = findModel s k

theorem onModel_is {s : State} {n : Nat} {m : Model} (hm : findModel s n = some m) (f : Model → Model) (hf : ∀ k, (f k).num = k.num) :
    ModelIs n (f m) s (onModel n f s) := ⟨(updKey_finds hm hf).1, (updKey_finds hm hf).2⟩

/-- A model with a block read again no longer awaited (R243). -/
def gotAgain (block : Nat) (m : Model) : Model := { m with again := m.again.filter (· != block) }

/-- A model with a block in its window (R207). -/
def gotBlock (block : Nat) (m : Model) : Model := { m with arrived := m.arrived ++ [block] }

/-- A model with the first failed read of a block noted (R209). -/
def gotRetry (block : Nat) (m : Model) : Model := { m with retried := m.retried ++ [block] }

/-! ### A block that arrives -/

/-- A block that came has been read again, where it was awaited so. -/
def readAgain (model block : Nat) (m : Model) (s : State) : State :=
  if m.again.contains block then onModel model (gotAgain block) s else s

theorem readAgain_is {model block : Nat} {s : State} {m : Model} (hm : findModel s model = some m) :
    ModelIs model (gotAgain block m) s (readAgain model block m s) := by
  unfold readAgain
  split
  · exact onModel_is hm _ fun _ => rfl
  · next absent =>
    have same : gotAgain block m = m := by
      have kept : m.again.filter (· != block) = m.again := List.filter_eq_self.mpr fun b hb =>
        bne_iff_ne.mpr fun e => absent (List.contains_iff_mem.mpr (e ▸ hb))
      rw [gotAgain, kept]
    exact ⟨hm.trans (congrArg some same.symm), fun _ _ => rfl⟩

theorem readAgain_frame (model block : Nat) (m : Model) (s : State) :
    readAgain model block m s = { s with models := (readAgain model block m s).models } := by
  unfold readAgain
  split <;> rfl

/-- A block taken into the window of its pour: its pool has answered, and its stream has ended. -/
def blockTaken (model block : Nat) (m : Model) (s : State) : State :=
  endStream (.weights model block) (onModel model (gotBlock block) (answered (poolOfBlock (gotAgain block m) 0 block) (readAgain model block m s)))

theorem blockTaken_is {model block : Nat} {s : State} {m : Model} (hm : findModel s model = some m) :
    ModelIs model (gotBlock block (gotAgain block m)) s (blockTaken model block m s) := by
  have again := readAgain_is (block := block) hm
  have put := onModel_is (s := answered (poolOfBlock (gotAgain block m) 0 block) (readAgain model block m s)) again.here (gotBlock block) fun _ => rfl
  exact ⟨put.here, fun k hk => (put.others k hk).trans (again.others k hk)⟩

theorem blockTaken_frame (model block : Nat) (m : Model) (s : State) :
    let t := blockTaken model block m s
    t = { s with models := t.models, tiers := { s.tiers with pools := t.tiers.pools, streams := t.tiers.streams } } := by
  dsimp only
  unfold blockTaken
  rw [readAgain_frame]
  rfl

/-- A block that arrives is read again no more, and the one that the pour in flight awaits is taken too. -/
theorem exec_block_arrived {model block : Nat} {s : State} {m : Model} (hm : findModel s model = some m) :
    exec (.weightBlockArrived model block) s = .next (if s.sched.pour.any fun p => decide (p.model = model ∧ m.window ≠ 0 ∧ p.step ≤ 4 ∧ p.layer ≤ block ∧
      block < p.layer + m.window ∧ block < layerTotal s p ∧ m.arrived.contains block = false) then blockTaken model block m s
      else readAgain model block m s) := by
  have again := (readAgain_is (block := block) hm).here
  have pour : (readAgain model block m s).sched.pour = s.sched.pour := by rw [readAgain_frame]
  have total : ∀ p : Pour, p.model = model → layerTotal (readAgain model block m s) p = layerTotal s p := by
    rintro p rfl
    simp only [layerTotal, progOf, again, hm, Option.bind_some, gotAgain]
  show execWeightBlockArrived model block s = _
  unfold execWeightBlockArrived
  extract_lets u
  have hu : u = readAgain model block m s := by
    unfold u
    rw [hm]
    rfl
  rw [hu, again, pour]
  cases s.sched.pour with
  | none => rfl
  | some p =>
    by_cases named : p.model = model
    · simp only [total p named, Option.any_some, decide_eq_true_eq, apply_ite Host.Outcome.next]
      rfl
    · simp [named]

/-! ### A block that cannot be read -/

/-- Whether a failed read is of a block that the pour in flight awaits (R209, R243). -/
def Awaited (model block : Nat) (p : Pour) (m : Model) : Prop :=
  p.model = model ∧ p.step ≤ 4 ∧ ((m.window ≠ 0 ∧ p.layer ≤ block ∧ block < p.layer + m.window ∧ block ∉ m.arrived) ∨ block ∈ m.again)

/-- An entry that works, with no fault yet, at fault for its tier (R209). -/
def tierFaulted (w : Work) : Work := if isWorking w ∧ w.fault = none then { w with fault := some .tierFault } else w

theorem tierFaulted_isSome (w : Work) (hw : isWorking (tierFaulted w) = true) : (tierFaulted w).fault.isSome = true := by
  unfold tierFaulted at hw ⊢
  split
  · rfl
  · next kept =>
    rw [if_neg kept] at hw
    exact Option.isSome_iff_ne_none.mpr fun e => kept ⟨hw, e⟩

/-- The stream of a block given up, with the working entries of the pour that awaits it at fault. -/
def blockLost (model block : Nat) (p : Pour) (s : State) : State :=
  endStream (.weights model block) { s with sched := { s.sched with pour := some { p with works := p.works.map tierFaulted } } }

theorem exec_read_failed {model block : Nat} {s : State} {p : Pour} {m : Model} (hp : s.sched.pour = some p) (hm : findModel s model = some m)
    (due : Awaited model block p m) :
    exec (.weightReadFailed model block) s = .next (if block ∈ m.retried then missRead (poolOfBlock m (m.copies - 1) block) (blockLost model block p s)
      else missRead (poolOfBlock m 0 block) (onModel model (gotRetry block) s)) := by
  show execWeightReadFailed model block s = _
  unfold execWeightReadFailed
  rw [hp, hm]
  dsimp only
  rw [if_pos (by simpa [Awaited] using due)]
  simp only [List.contains_iff_mem, ← apply_ite Host.Outcome.next]
  rfl

/-! ### Masks -/

/-- `t` differs from `s` in its device log and the free values drawn alone. -/
def MaskFrame (s t : State) : Prop := t = { s with dev := t.dev, free := t.free }

theorem MaskFrame.trans {s t u : State} (a : MaskFrame s t) (b : MaskFrame t u) : MaskFrame s u := by
  unfold MaskFrame at *
  rw [b, a]

/-- A work's mask is added to those computed, and touches nothing but the log and the free values. -/
theorem maskWork_adds (w : Work) (acc : List Work × State) :
    (maskWork w acc).1.length = acc.1.length + 1 ∧ MaskFrame acc.2 (maskWork w acc).2 := by
  unfold maskWork
  extract_lets s found
  split
  · cases found with
    | none => exact ⟨List.length_append, rfl⟩
    | some all =>
      dsimp only
      split <;> exact ⟨List.length_append, rfl⟩
  · exact ⟨List.length_append, rfl⟩

theorem maskWorks_add (ws : List Work) (acc : List Work × State) :
    (ws.foldl (fun acc w => maskWork w acc) acc).1.length = acc.1.length + ws.length ∧ MaskFrame acc.2 (ws.foldl (fun acc w => maskWork w acc) acc).2 := by
  induction ws generalizing acc with
  | nil => exact ⟨rfl, rfl⟩
  | cons w ws ih =>
    obtain ⟨len, frame⟩ := ih (maskWork w acc)
    obtain ⟨one, first⟩ := maskWork_adds w acc
    refine ⟨?_, first.trans frame⟩
    rw [List.foldl_cons, len, one, List.length_cons]
    omega

/-- A pour with its masks, and past step 5 where that is where it was. -/
def maskedPour (p : Pour) (ws : List Work) : Pour := { p with works := ws, masksDone := true, step := if p.step = 5 then 6 else p.step }

theorem exec_masks_ready {s : State} {p : Pour} (hp : s.sched.pour = some p) (hd : p.masksDone = false) (hr : p.rerun = false) (h5 : p.step ≤ 5) :
    let r := p.works.foldl (fun acc w => maskWork w acc) ([], s)
    exec .masksReady s = .next { r.2 with sched := { r.2.sched with pour := some (maskedPour p r.1) } } := by
  show execMasksReady s = _
  unfold execMasksReady
  rw [hp]
  exact if_neg (by simp [hd, hr, h5])

theorem exec_masks_done {s : State} {p : Pour} (hp : s.sched.pour = some p) (hd : p.masksDone = true) : exec .masksReady s = .next s := by
  show execMasksReady s = _
  unfold execMasksReady
  rw [hp]
  exact if_pos (Or.inl hd)

/-- Settles O34: the equation of each event, and what the end of a layer, a block taken, a block given up and the masks change. -/
theorem layersAndMasksAdvance : Obligations.LayersAndMasksAdvance := by
  unfold Obligations.LayersAndMasksAdvance
  refine ⟨fun obs s u p m hp h4 hr hw hb hm hu => ⟨fun hg => ?alone, fun n g hg hf => ?group⟩, fun s p hp hg => ⟨fun last => ?last, fun more hn => ?more,
    fun more hn => ?preempted, (endLayer_frame hp hg).tenants⟩, fun model block s p m hp hm hpm hwin h4 low high total out => ?arrives,
    fun model block s m hm ha => ?again, fun model block s p m hp hm hpm h4 due => ⟨fun first => ?first, fun twice => ?twice⟩,
    fun s p hp hd hr h5 => ?masks⟩
  case alone =>
    rw [exec_layer_complete hp h4 hr hw hb hm, hg, hu]
    rfl
  case group =>
    have found : p.group.bind (findGroup (layerWorked m obs p s)) = some g := by
      rw [hg, ← hf, hu]
      rfl
    rw [exec_layer_complete hp h4 hr hw hb hm, found, Option.elim_some, (findKey_some hf).1, hu]
    rfl
  case last => rw [endLayer_last hp hg last]; rfl
  case more =>
    rw [endLayer_more hp hg more, if_neg (by simp [hn]), (streamBlocks_tiers _).sched]
    rfl
  case preempted =>
    have flying : (streamBlocks (layerLeft p (nextLayer p) s)).sched.pour = some (nextLayer p) := by
      rw [(streamBlocks_tiers _).sched]
      rfl
    rw [endLayer_more hp hg more, if_pos hn, suspend_pour flying, (streamBlocks_tiers _).sched]
    exact ⟨rfl, rfl⟩
  case arrives =>
    have taken := blockTaken_is (block := block) hm
    refine ⟨blockTaken model block m s, ?_, taken.here, taken.others, blockTaken_frame model block m s⟩
    rw [exec_block_arrived hm, hp, if_pos]
    simpa [hpm, hwin, h4, low, high, total] using out
  case again =>
    rw [exec_block_arrived hm]
    split
    · exact ⟨_, _, rfl, (blockTaken_is hm).here, rfl⟩
    · exact ⟨_, _, rfl, (readAgain_is hm).here, rfl⟩
  case first =>
    have noted := onModel_is hm (gotRetry block) fun _ => rfl
    exact ⟨_, by rw [exec_read_failed hp hm ⟨hpm, h4, due⟩, if_neg first], noted.here, noted.others, rfl⟩
  case twice =>
    refine ⟨blockLost model block p s, _, by rw [exec_read_failed hp hm ⟨hpm, h4, due⟩, if_pos twice], rfl, rfl, rfl, List.length_map _,
      fun w hw works => ?_, rfl⟩
    obtain ⟨v, -, rfl⟩ := List.mem_map.mp hw
    exact tierFaulted_isSome v works
  case masks =>
    obtain ⟨len, frame⟩ := maskWorks_add p.works ([], s)
    refine ⟨_, _, exec_masks_ready hp hd hr h5, rfl, rfl, rfl, rfl, len.trans (Nat.zero_add _), ?_, ?_, ?_, ?_, exec_masks_done rfl rfl⟩
    all_goals rw [frame]

end Sys2Proof.Machine
end

section
/-! Steps 6 to 9 of a pour: the choices, the release points, the boundary and its barrier (R129, R137, R500, Table 4-3, Table 18-2). -/

namespace Sys2Proof.Machine

/-! ### The release point of a work -/

theorem releasePoint_barged {w : Work} {s : State} {x : Session} (hw : isWorking w = true) (hx : findSess s w.handle = some x) (hb : w.barged = true) :
    releasePoint w s = onWork w.handle (fun v => { v with sess0 := some x }) s := by
  simp [releasePoint, hw, hx, hb]

/-- An entry that samples nothing and has no fault releases what it wrote, and nothing more. -/
theorem releasePoint_unsampled {w : Work} {s : State} {x : Session} (hw : isWorking w = true) (hx : findSess s w.handle = some x)
    (hb : w.barged = false) (hf : w.fault = none) (hs : w.samples = false) :
    releasePoint w s =
      arm w.handle (seat w.handle (onSess w.handle (releaseWritten w) (onWork w.handle (fun v => { v with sess0 := some x }) s))) := by
  simp [releasePoint, hw, hx, hb, hf, hs]

theorem releaseWritten_turns (w : Work) (x : Session) (s : State) :
    Turns w.handle (fun a b => b.request = a.request ∧ b.p = a.p + (w.chunk.map Chunk.len).getD 0 ∧ b.w = b.p) s
      (arm w.handle (seat w.handle (onSess w.handle (releaseWritten w) (onWork w.handle (fun v => { v with sess0 := some x }) s)))) := by
  have written := (onSess_turns w.handle (releaseWritten w) (fun _ => rfl) (onWork w.handle (fun v => { v with sess0 := some x }) s)).afterSame (s := s) rfl
  refine ((written.comp (seat_lays w.handle _).toTurns).comp (arm_turns w.handle _)).mono ?_
  rintro a b ⟨_, ⟨_, rfl, laid, -⟩, armed⟩
  rw [armed, laid]
  exact ⟨rfl, rfl, rfl⟩

/-! ### A token released -/

/-- A request with a token released to it: counted, its output bytes at the position, its mould context advanced (R137). -/
def withOutput (w : Work) (tok : Nat) (k : Tokeniser) (p : ModelProgram) (pos : Nat) (r : Request) : Request :=
  let out := r.out ++ [(pos, outBytes k p tok)]
  { r with count := r.count + 1, out := out, ctx := w.ctx.map fun c => { c with advance := some tok, failed := none }
           callFrom := if tok = p.toolOpen then some out.length else r.callFrom }

/-- A session with a token released: the next position is pending for it (R137). -/
def withToken (w : Work) (tok : Nat) (k : Tokeniser) (p : ModelProgram) (r : Request) (x : Session) : Session :=
  { x with p := x.p + 1, pendingTok := some tok, request := some (withOutput w tok k p x.p r) }

/-- The token's release before its record: the session has it and its tenant's budget pays for it (R131, R336). -/
def putToken (w : Work) (tok : Nat) (k : Tokeniser) (p : ModelProgram) (r : Request) (x : Session) (s : State) : State :=
  onWork w.handle (fun v => { v with consumed := true }) (consumeBudget x.tenant (setSess (withToken w tok k p r x) s))

theorem setBudget_sess (t v : Nat) (s : State) : (setBudget t v s).sess = s.sess := by
  unfold setBudget
  split
  · rfl
  · dsimp only
    split
    · rw [healthSignal_frame]; rfl
    · rfl

theorem consumeBudget_sess (t : Nat) (s : State) : (consumeBudget t s).sess = s.sess := by
  unfold consumeBudget
  split
  · rfl
  · split
    · rfl
    · exact setBudget_sess _ _ s

theorem findSess_putToken {w : Work} {s : State} {x : Session} (hx : findSess s w.handle = some x) (tok : Nat) (k : Tokeniser) (p : ModelProgram)
    (r : Request) : findSess (putToken w tok k p r x s) w.handle = some (withToken w tok k p r x) := by
  have paid : (putToken w tok k p r x s).sess = (setSess (withToken w tok k p r x) s).sess := consumeBudget_sess _ _
  obtain ⟨y, hy, -, rfl⟩ := (setSess_turns (y := withToken w tok k p r x) hx (findSess_handle hx :)).here x hx
  exact (findSess_congr paid _).trans hy

/-- A token that completes no stop string, closes no call and ends nothing has its session record as its whole effect beyond `putToken`. -/
theorem releaseToken_goes_on {w : Work} {tok : Nat} {s : State} {x : Session} {r : Request} {p : ModelProgram} {k : Tokeniser}
    (hx : findSess s w.handle = some x) (hr : x.request = some r) (hp : sessProg s x = some p) (hk : sessTok s x = some k)
    (nostop : stopMatch r.stops ((r.out.map Prod.snd) ++ [outBytes k p tok]) = none) (hc : tok ≠ p.toolClose) (h0 : tok ≠ p.endToken0)
    (h1 : tok ≠ p.endToken1) (hm : r.count + 1 ≠ r.maxTokens) (hl : x.p + 1 ≠ maxPositions) :
    ∃ flush upTo late held, releaseToken w tok s = releaseRecord w.handle tok flush upTo late held (putToken w tok k p r x s) := by
  have unstopped : stopMatch r.stops ((r.out ++ [(x.p, outBytes k p tok)]).map Prod.snd) = none := by
    rw [List.map_append]
    exact nostop
  unfold releaseToken
  simp only [hx, hr, hp, hk, unstopped, beq_eq_false_iff_ne.mpr hc, beq_eq_false_iff_ne.mpr h0, beq_eq_false_iff_ne.mpr h1,
    beq_eq_false_iff_ne.mpr hm, beq_eq_false_iff_ne.mpr hl, Bool.or_self, Bool.false_eq_true, if_false]
  split
  · exact ⟨_, _, _, _, rfl⟩
  · exact ⟨_, _, _, _, rfl⟩

/-- A session whose request has its output delivered up to a token. -/
def deliveredTo (upTo : Nat) (x : Session) : Session :=
  { x with request := x.request.map fun q => { q with delivered := max q.delivered upTo } }

/-- The record of a token changes of its session what is delivered alone. -/
theorem releaseRecord_turns {h : Nat} {s : State} {x : Session} {r : Request} (hx : findSess s h = some x) (hr : x.request = some r) (tok : Nat)
    (flush : Bool) (upTo : Nat) (late held : Bool) :
    Turns h (fun a b => b = deliveredTo upTo a) s (releaseRecord h tok flush upTo late held s) := by
  unfold releaseRecord
  rw [hx]
  dsimp only
  rw [hr]
  exact (onSess_turns h (deliveredTo upTo) (fun _ => rfl) _).afterSame rfl

/-! ### The steps in turn -/

/-- A state with the pour in flight at a step. -/
def atStepOf (n : Nat) (s : State) : State := { s with sched := { s.sched with pour := s.sched.pour.map fun q => { q with step := n } } }

/-- The choices of a pour made, its release points passed in order and its release lines out (R137, R293, R420). -/
def releasesMade (obs : List SampleObs) (p : Pour) (s : State) : State :=
  writeReleases (forEach (p.works.map fun w => (drawWork s obs w).1) releasePoint
    (forEach ((p.works.map (drawWork s obs)).filter Prod.snd) (fun d t => countNumeric d.1.tenant t)
      { s with sched := { s.sched with pour := some { p with works := p.works.map fun w => (drawWork s obs w).1, step := 7 } } }))

theorem exec_sampling_done {obs : List SampleObs} {s : State} {p : Pour} (hp : s.sched.pour = some p) (h6 : p.step = 6) (hr : p.rerun = false)
    (chosen : ∀ w ∈ p.works, draws w = true → (obsOf obs w).isSome = true) :
    exec (.samplingDone obs) s = .next (atStepOf 8 (releasesMade obs p s)) := by
  have allChosen : (p.works.any fun w => draws w && (obsOf obs w).isNone) = false := by
    refine List.any_eq_false.mpr fun w hw lacking => ?_
    obtain ⟨drawn, unchosen⟩ := (Bool.and_eq_true _ _).mp lacking
    simpa [Option.isNone_iff_eq_none.mp unchosen] using chosen w hw drawn
  have fsts : (p.works.map (drawWork s obs)).map Prod.fst = p.works.map fun w => (drawWork s obs w).1 := List.map_map
  show execSamplingDone obs s = _
  unfold execSamplingDone
  rw [hp]
  dsimp only
  rw [if_neg (by simp [h6, hr, allChosen]), fsts]
  rfl

/-- With the mirror acknowledged the pour is at step 9, its boundary's actions taken and its blocks written, before what was held goes on. -/
theorem exec_release_mirror_ack {obs : BoundaryObs} {s : State} {p : Pour} (hp : s.sched.pour = some p) (h8 : p.step = 8) :
    exec (.releaseMirrorAck obs) s = .next (drainAll (atStepOf 9 (writePourBlocks p.flask p.number
      (boundaryActions obs p (mirrorTaken (passTime obs.elapsedUs s)))))) := by
  show execReleaseMirrorAck obs s = _
  unfold execReleaseMirrorAck
  rw [hp]
  exact if_neg (not_not.mpr h8)

theorem exec_pour_barrier {us : Nat} {s : State} {p : Pour} (hp : s.sched.pour = some p) (h9 : p.step = 9) :
    exec (.pourBarrier us) s = .next (passBarrier us s) := by
  show execPourBarrier us s = _
  unfold execPourBarrier
  rw [hp]
  exact if_pos h9

theorem exec_commit_barrier_idle {s : State} (hp : s.sched.pour = none) (hs : serving s = true) :
    exec .commitBarrierIdle s = .next (passBarrier 0 s) := if_pos (by simp [hp, hs])

/-- Settles O35: the equations of the four events, and of a session what its release point and its token's release change. -/
theorem releaseAndBarrierFollow : Obligations.ReleaseAndBarrierFollow := by
  unfold Obligations.ReleaseAndBarrierFollow
  refine ⟨fun obs s v p hp h6 hr chosen hv => ?chosen, fun w s x hw hx => ⟨fun hb => ?barged, fun hb hf hs => ?unsampled⟩, fun w tok s x r p k hx hr hp hk nostop hc h0 h1 hm hl => ?token,
    fun obs s p hp h8 => ⟨_, exec_release_mirror_ack hp h8, ?nine, rfl⟩,
    fun us s p hp h9 => exec_pour_barrier hp h9, fun s hp hs => exec_commit_barrier_idle hp hs⟩
  case chosen =>
    subst hv
    exact exec_sampling_done hp h6 hr chosen
  case barged =>
    rw [releasePoint_barged hw hx hb]
    rfl
  case unsampled =>
    rw [releasePoint_unsampled hw hx hb hf hs]
    exact (releaseWritten_turns w x s).here x hx
  case token =>
    obtain ⟨flush, upTo, late, held, goes⟩ := releaseToken_goes_on (w := w) hx hr hp hk nostop hc h0 h1 hm hl
    have put := findSess_putToken hx tok k p r
    obtain ⟨y, hy, rfl⟩ := (releaseRecord_turns put rfl tok flush upTo late held).here _ put
    exact ⟨_, _, goes ▸ hy, rfl, rfl, rfl, rfl⟩
  case nine =>
    intro q hq
    obtain ⟨_, -, rfl⟩ := Option.map_eq_some_iff.mp hq
    rfl

end Sys2Proof.Machine
end

section
/-! A pool's loss: what settles the sessions, the models and the fetches that it reaches leaves the pools, but those it fails, as they are
(R238 to R240, R326, R427). -/

namespace Sys2Proof.Machine

/-! ### What leaves the pools as they are -/

@[simp] theorem pools_ite (c : Prop) [Decidable c] (s t : State) :
    (if c then s else t).tiers.pools = if c then s.tiers.pools else t.tiers.pools := apply_ite (fun u : State => u.tiers.pools) c s t

@[simp] theorem forEach_pools {α : Type} {f : α → State → State} (h : ∀ x t, (f x t).tiers.pools = t.tiers.pools) (l : List α) (s : State) :
    (forEach l f s).tiers.pools = s.tiers.pools := forEach_same (fun t => t.tiers.pools) h l s

theorem FnsOnly.pools {s t : State} (a : FnsOnly s t) : t.tiers.pools = s.tiers.pools := by rw [a]

theorem StoreOnly.pools {s t : State} (a : StoreOnly s t) : t.tiers.pools = s.tiers.pools := by rw [a]

/-! #### Answers, records and what is told to the rack -/

@[simp] theorem settle_pools (r : WinRef) (seq : Nat) (o : OCode) (s : State) : (settle r seq o s).tiers.pools = s.tiers.pools := by
  cases r <;> rfl

@[simp] theorem emitOut_pools (b : Bool) (x : Session) (o : OutRec) (s : State) : (emitOut b x o s).tiers.pools = s.tiers.pools := rfl

@[simp] theorem flushHeld_pools (b : Bool) (x : Session) (r : Request) (s : State) : (flushHeld b x r s).tiers.pools = s.tiers.pools :=
  (flushHeld_fnsOnly b x r s).pools

@[simp] theorem answerAsk_pools (b : Bool) (h : Nat) (a : Ask) (o : OCode) (d0 : Nat) (s : State) :
    (answerAsk b h a o d0 s).tiers.pools = s.tiers.pools := by
  unfold answerAsk
  split <;> simp

@[simp] theorem answerGone_pools (x : Session) (c : Instr) (s : State) : (answerGone x c s).tiers.pools = s.tiers.pools := by
  unfold answerGone
  split <;> rfl

@[simp] theorem arm_pools (h : Nat) (s : State) : (arm h s).tiers.pools = s.tiers.pools := rfl

@[simp] theorem stopWaiting_pools (h : Nat) (s : State) : (stopWaiting h s).tiers.pools = s.tiers.pools := rfl

@[simp] theorem dropQueries_pools (h : Nat) (s : State) : (dropQueries h s).tiers.pools = s.tiers.pools := rfl

@[simp] theorem sendMgr_pools (peer kind handle : Nat) (body : List Nat) (records : List MapRecord) (bytes : List Byte) (s : State) :
    (sendMgr peer kind handle body records bytes s).tiers.pools = s.tiers.pools := rfl

@[simp] theorem tellDirectory_pools (h holder state : Nat) (s : State) : (tellDirectory h holder state s).tiers.pools = s.tiers.pools := by
  simp [tellDirectory, putDirectory]

@[simp] theorem anchor_pools (kind h : Nat) (s : State) : (anchor kind h s).tiers.pools = s.tiers.pools := by
  unfold anchor
  split <;> rfl

@[simp] theorem dropAnchors_pools (h r : Nat) (s : State) : (dropAnchors h r s).tiers.pools = s.tiers.pools := rfl

@[simp] theorem journal_pools (hub : Nat) (r : JRec) (s : State) : (journal hub r s).tiers.pools = s.tiers.pools :=
  (journal_storeOnly hub r s).pools

@[simp] theorem deleteSessObjs_pools (x : Session) (s : State) : (deleteSessObjs x s).tiers.pools = s.tiers.pools :=
  (deleteObjs_storeOnly _ _ s).pools

@[simp] theorem healthSignal_pools (die data : Nat) (s : State) : (healthSignal die data s).tiers.pools = s.tiers.pools := by
  rw [healthSignal_frame]

/-! #### Content let go -/

@[simp] theorem releasePlaces_pools (cs : List Place) (s : State) : (releasePlaces cs s).tiers.pools = s.tiers.pools := by
  simp [releasePlaces]

@[simp] theorem endRequest_pools (b : Bool) (h : Nat) (o : OCode) (ans : Option Ask) (deliver : Bool) (d0 d1 : Nat) (s : State) :
    (endRequest b h o ans deliver d0 d1 s).tiers.pools = s.tiers.pools := by
  unfold endRequest
  split
  · rfl
  · split
    · rfl
    · cases ans <;> simp

@[simp] theorem freeSpent_pools (h : Nat) (s : State) : (freeSpent h s).tiers.pools = s.tiers.pools := by
  have freed : (freeSession h s).tiers.pools = s.tiers.pools := by
    unfold freeSession
    split <;> simp
  unfold freeSpent
  split <;> simp [freed]

@[simp] theorem releaseContent_pools (st : SState) (h : Nat) (s : State) : (releaseContent st h s).tiers.pools = s.tiers.pools := by
  unfold releaseContent
  split <;> simp

@[simp] theorem loseSession_pools (b : Bool) (h : Nat) (s : State) : (loseSession b h s).tiers.pools = s.tiers.pools := by
  unfold loseSession
  split
  · rfl
  · next x _ =>
    split
    · rfl
    · cases x.request <;> dsimp only <;> split <;> simp

/-! ### Space given to a session's content -/

/-- `t` differs from `s` in its sessions and in the owner tags alone. -/
def SeatFrame (s t : State) : Prop := t = { s with sess := t.sess, tiers := { s.tiers with owners := t.tiers.owners } }

theorem SeatFrame.refl (s : State) : SeatFrame s s := rfl

theorem SeatFrame.trans {s t u : State} (a : SeatFrame s t) (b : SeatFrame t u) : SeatFrame s u := by
  unfold SeatFrame at *
  rw [b, a]

theorem SeatFrame.pools {s t : State} (a : SeatFrame s t) : t.tiers.pools = s.tiers.pools := by rw [a]

theorem seatFrame_snd_ite {α : Type} (c : Prop) [Decidable c] {a b : α × State} {s : State} (ha : SeatFrame s a.2) (hb : SeatFrame s b.2) :
    SeatFrame s (if c then a else b).2 := by split <;> assumption

theorem takeLower_seatFrame (tenant pool kib : Nat) (s : State) : SeatFrame s (takeLower tenant pool kib s).2 := by
  unfold takeLower
  dsimp only
  split <;> rfl

theorem seatPlace_seatFrame (x : Session) (partition : Nat) (c : Place) (s : State) : SeatFrame s (seatPlace x partition c s).2 := by
  unfold seatPlace
  extract_lets r1 r2 r3 r4
  have f1 : SeatFrame s r1.2 := seatFrame_snd_ite _ rfl rfl
  have f2 : SeatFrame r1.2 r2.2 := by
    unfold r2
    split
    · exact seatFrame_snd_ite _ rfl rfl
    · rfl
  have f3 : SeatFrame r2.2 r3.2 := seatFrame_snd_ite _ (takeLower_seatFrame _ _ _ _) rfl
  have f4 : SeatFrame r3.2 r4.2 := seatFrame_snd_ite _ (takeLower_seatFrame _ _ _ _) (seatFrame_snd_ite _ rfl rfl)
  exact ((f1.trans f2).trans f3).trans f4

theorem handleFor_seatFrame (h n : Nat) (c : Prop) [Decidable c] (s : State) : SeatFrame s (if c then issueHandle h s else (n, s)).2 := by
  refine seatFrame_snd_ite _ ?_ rfl
  unfold issueHandle
  split
  · rfl
  · dsimp only
    split <;> rfl

theorem seatPage_seatFrame (h partition row layer : Nat) (s : State) : SeatFrame s (seatPage h partition row layer s) := by
  unfold seatPage
  split
  · rfl
  · split
    · exact ((handleFor_seatFrame h _ _ s).trans (seatPlace_seatFrame _ _ _ _)).trans rfl
    · rfl

theorem seatBlk_seatFrame (h partition : Nat) (b : Blk) (s : State) : SeatFrame s (seatBlk h partition b s) := by
  unfold seatBlk
  split
  · rfl
  · exact ((handleFor_seatFrame h _ _ s).trans (seatPlace_seatFrame _ _ _ _)).trans rfl

theorem seatLeaf_seatFrame (h partition : Nat) (l : Leaf) (s : State) : SeatFrame s (seatLeaf h partition l s) := by
  unfold seatLeaf
  split
  · rfl
  · exact (seatPlace_seatFrame _ _ _ _).trans rfl

/-- Seating a session tags owner regions, and changes nothing else of the tiers. -/
theorem seat_seatFrame (h : Nat) (s : State) : SeatFrame s (seat h s) := by
  unfold seat
  split
  · rfl
  · split
    · rfl
    · extract_lets partition y s1 s2 s3
      have put : SeatFrame s s1 := rfl
      have pages : SeatFrame s1 s2 := forEach_rel SeatFrame.refl SeatFrame.trans (fun _ _ => seatPage_seatFrame _ _ _ _ _) _ _
      have blks : SeatFrame s2 s3 := forEach_rel SeatFrame.refl SeatFrame.trans (fun _ _ => seatBlk_seatFrame _ _ _ _) _ _
      exact ((put.trans pages).trans blks).trans (forEach_rel SeatFrame.refl SeatFrame.trans (fun _ _ => seatLeaf_seatFrame _ _ _ _) _ _)

@[simp] theorem seat_pools (h : Nat) (s : State) : (seat h s).tiers.pools = s.tiers.pools := (seat_seatFrame h s).pools

/-! ### The loss of a pool -/

@[simp] theorem rewind_pools (h q : Nat) (s : State) : (rewind h q s).1.tiers.pools = s.tiers.pools := by
  unfold rewind
  split
  · rfl
  · split
    · rfl
    · extract_lets trim writing y s1 s2 obj z
      split
      · have entered : s2.tiers.pools = s.tiers.pools := by simp [s2, s1, trim, invalidate]
        split
        · exact entered
        · exact (journal_pools _ _ _).trans entered
      · simp [z, trim, invalidate, releasePages, drawFree]

@[simp] theorem truncateSession_pools (b : Bool) (h q : Nat) (s : State) : (truncateSession b h q s).tiers.pools = s.tiers.pools := by
  unfold truncateSession
  split
  · rfl
  · next x _ =>
    extract_lets before s0 y
    have rewound : y.1.tiers.pools = s.tiers.pools := by
      refine (rewind_pools h q s0).trans ?_
      unfold s0
      split <;> simp
    split
    · exact (endRequest_pools _ _ _ _ _ _ _ _).trans rewound
    · split <;> exact rewound

@[simp] theorem settleLoss_pools (b : Bool) (h : Nat) (s : State) : (settleLoss b h s).tiers.pools = s.tiers.pools := by
  unfold settleLoss
  split <;> simp

@[simp] theorem settleUnslotted_pools (s : State) : (settleUnslotted s).tiers.pools = s.tiers.pools := by
  simp [settleUnslotted]

@[simp] theorem fetchFailed_pools (h row layer : Nat) (s : State) : (fetchFailed h row layer s).tiers.pools = s.tiers.pools := by
  unfold fetchFailed
  split
  · rfl
  · split <;> rfl

@[simp] theorem failFetches_pools (tier : Nat) (s : State) : (failFetches tier s).tiers.pools = s.tiers.pools := by
  simp [failFetches]

/-- What every turn of a fold of a value beside a state keeps or adds to, the whole fold does. -/
theorem foldl_snd_rel {α β : Type} {R : State → State → Prop} (refl : ∀ s, R s s) (trans : ∀ {s t u}, R s t → R t u → R s u)
    {g : β × State → α → β × State} (h : ∀ a x, R a.2 (g a x).2) (l : List α) (a : β × State) : R a.2 (l.foldl g a).2 := by
  induction l generalizing a with
  | nil => exact refl a.2
  | cons x l ih => exact trans (h a x) (ih (g a x))

/-- `t` differs from `s` in its models and in the free values drawn alone. -/
def WeightFrame (s t : State) : Prop := t = { s with models := t.models, free := t.free }

theorem WeightFrame.refl (s : State) : WeightFrame s s := rfl

theorem WeightFrame.trans {s t u : State} (a : WeightFrame s t) (b : WeightFrame t u) : WeightFrame s u := by
  unfold WeightFrame at *
  rw [b, a]

/-- Weights written to other pools change what the models say of them alone. -/
theorem placeWeights_frame (n : Nat) (s : State) : WeightFrame s (placeWeights n s) := by
  unfold placeWeights
  split
  · rfl
  · extract_lets pl part whole
    split
    · split <;> rfl
    · split
      · have one : ∀ k a h, WeightFrame a.2 (part k a h).2 := by
          intro k a h
          unfold part
          split
          · rfl
          · dsimp only
            split <;> rfl
        have all : WeightFrame s whole := by
          refine forEach_rel WeightFrame.refl WeightFrame.trans (fun k t => ?_) _ s
          exact WeightFrame.trans (foldl_snd_rel WeightFrame.refl WeightFrame.trans (one k) _ ([], t)) rfl
        exact all.trans rfl
      · rfl

@[simp] theorem placeWeights_pools (n : Nat) (s : State) : (placeWeights n s).tiers.pools = s.tiers.pools := by
  rw [placeWeights_frame]

@[simp] theorem faultSlot_pools (h : Nat) (o : OCode) (s : State) : (faultSlot h o s).tiers.pools = s.tiers.pools := rfl

@[simp] theorem modelLoss_pools (pool : Nat) (m : Model) (s : State) : (modelLoss pool m s).tiers.pools = s.tiers.pools := by
  unfold modelLoss
  split
  · extract_lets left s1 s2 hs
    split
    · have marked : s2.tiers.pools = s.tiers.pools := rfl
      simp [marked]
    · simp [s1, onModel]
  · rfl

/-- The pools with those of a number failed. -/
def failPool (n : Nat) (q : Pool) : Pool := if q.num = n then { q with failed := true } else q

theorem failPool_num (n : Nat) (q : Pool) : (failPool n q).num = q.num := by
  unfold failPool
  split <;> rfl

theorem failPool_failed {n : Nat} {q : Pool} (hq : q.num = n) : (failPool n q).failed = true := by
  rw [failPool, if_pos hq]

/-- A pool's loss fails every pool of its number; what it settles afterwards leaves the pools. -/
theorem poolLost_pools {n : Nat} {s : State} (whole : ∃ q ∈ s.tiers.pools, q.num = n ∧ q.failed = false) :
    (poolLost n s).tiers.pools = s.tiers.pools.map (failPool n) := by
  unfold poolLost
  split
  · next none =>
    obtain ⟨q, hq, named, stands⟩ := whole
    exact absurd (by simp [named, stands]) (List.find?_eq_none.mp none q hq)
  · extract_lets tiers s1 s2 s3 s4
    have settled : s4.tiers.pools = s1.tiers.pools := by
      have struck : (strikeSlabs s3).tiers.pools = s3.tiers.pools := rfl
      simp [s4, struck, s3, s2]
    simp only [pools_ite, sendMgr_pools, ite_self]
    exact settled

/-- A pool that has failed already is left. -/
theorem poolLost_gone {n : Nat} {s : State} (gone : ∀ q ∈ s.tiers.pools, q.num = n → q.failed = true) : poolLost n s = s := by
  have none : s.tiers.pools.find? (fun q => q.num == n && !q.failed) = none := List.find?_eq_none.mpr fun q hq both => by
    simp only [Bool.and_eq_true, beq_iff_eq, Bool.not_eq_true'] at both
    simp [gone q hq both.1] at both
  unfold poolLost
  rw [none]

theorem exec_bridge_fatal (pool : Nat) (s : State) : exec (.bridgeFatalError pool) s = .next (drainAll (poolLost pool s)) := rfl

end Sys2Proof.Machine
end

section
/-! Errors in the stacks: the health record that governs after a rewrite, the retirement of an owner region, errors corrected and not, and patrol passes
(R241 to R243, R491, Table 7-11). -/

namespace Sys2Proof.Machine

/-! ### The health record -/

/-- No valid copy is newer than the governing record. -/
theorem hrGoverning_newest {n : Nor} {r : HealthRec} (hr : hrGoverning n = some r) :
    (∀ a, n.copy0 = .valid a → a.sequence ≤ r.sequence) ∧ ∀ b, n.copy1 = .valid b → b.sequence ≤ r.sequence := by
  unfold hrGoverning at hr
  split at hr
  · next copy0 copy1 =>
    rw [copy0, copy1]
    split at hr
    · next older =>
      cases hr
      exact ⟨fun _ e => by cases e; exact older.le, fun _ e => by cases e; exact le_rfl⟩
    · next newest =>
      cases hr
      exact ⟨fun _ e => by cases e; exact le_rfl, fun _ e => by cases e; exact not_lt.mp newest⟩
  all_goals simp_all

/-- A record written into copy 0 governs, unless copy 1 is newer. -/
theorem hrGoverning_copy0 {n : Nor} {r : HealthRec} (oldest : ∀ b, n.copy1 = .valid b → b.sequence ≤ r.sequence) :
    hrGoverning { n with copy0 := .valid r } = some r := by
  cases h : n.copy1 with
  | valid b => simp [hrGoverning, Nat.not_lt.mpr (oldest b h)]
  | erased => simp [hrGoverning]
  | corrupt => simp [hrGoverning]

/-- A record written into copy 1 governs where it is newer than copy 0. -/
theorem hrGoverning_copy1 {n : Nor} {r : HealthRec} (older : ∀ a, n.copy0 = .valid a → a.sequence < r.sequence) :
    hrGoverning { n with copy1 := .valid r } = some r := by
  cases h : n.copy0 with
  | valid a => simp [hrGoverning, older a h]
  | erased => simp [hrGoverning]
  | corrupt => simp [hrGoverning]

/-- A rewritten record governs: its sequence has risen. -/
theorem hrGoverning_hrRewrite {s : State} {r : HealthRec} (hr : hrGoverning s.nor = some r) (f : HealthRec → HealthRec) :
    hrGoverning (hrRewrite f s).nor = some { f r with sequence := r.sequence + 1, powered := s.dev.powered } := by
  obtain ⟨old0, old1⟩ := hrGoverning_newest hr
  unfold hrRewrite
  rw [hr]
  dsimp only
  split
  · exact hrGoverning_copy0 fun b hb => Nat.le_succ_of_le (old1 b hb)
  · exact hrGoverning_copy1 fun a ha => Nat.lt_succ_of_le (old0 a ha)

/-- A rewrite of the health record changes the NOR alone. -/
theorem hrRewrite_frame (f : HealthRec → HealthRec) (s : State) : hrRewrite f s = { s with nor := (hrRewrite f s).nor } := by
  unfold hrRewrite
  split
  · rfl
  · dsimp only
    split <;> rfl

/-! ### The retirement of a region -/

theorem Relaid.trans {x y z : Session} (a : Relaid x y) (b : Relaid y z) : Relaid x z := by
  unfold Relaid at *
  rw [b, a]

/-- From `s` to `t` sessions are laid in other frames: of each nothing but its pages, blocks and leaves is changed. -/
structure LaidAnew (s t : State) : Prop where
  sess : ∀ h x, findSess s h = some x → ∃ y, findSess t h = some y ∧ Relaid x y
  frame : SeatFrame s t

theorem LaidAnew.same {s t : State} (e : t.sess = s.sess) (frame : SeatFrame s t) : LaidAnew s t :=
  ⟨fun h x hx => ⟨x, (findSess_congr e h).trans hx, rfl⟩, frame⟩

theorem LaidAnew.refl (s : State) : LaidAnew s s := LaidAnew.same rfl rfl

theorem LaidAnew.trans {s t u : State} (a : LaidAnew s t) (b : LaidAnew t u) : LaidAnew s u :=
  ⟨fun h x hx => by
    obtain ⟨y, hy, r⟩ := a.sess h x hx
    obtain ⟨z, hz, q⟩ := b.sess h y hy
    exact ⟨z, hz, r.trans q⟩, a.frame.trans b.frame⟩

/-- A session's frames given up and taken anew move it, and no other. -/
theorem Turns.laidAnew {h : Nat} {s t : State} (a : Turns h Relaid s t) (frame : SeatFrame s t) : LaidAnew s t :=
  ⟨fun k x hx => by
    by_cases e : k = h
    · subst e
      exact a.here x hx
    · exact ⟨x, (a.others k e).trans hx, rfl⟩, frame⟩

theorem reseat_laidAnew (stack region : Nat) (p : ModelProgram) (h : Nat) (s : State) : LaidAnew s (seat h (onSess h (vacate stack region p) s)) := by
  have vacated : Turns h Relaid s (onSess h (vacate stack region p) s) := 
    onSess_turns_as (R := Relaid) (fun _ _ r => (congrArg Session.handle r :)) (f := vacate stack region p) (fun _ => rfl) s
  have seated : Turns h Relaid _ (seat h (onSess h (vacate stack region p) s)) := (seat_lays h _).toTurns.mono fun _ _ r => r.1
  have put : SeatFrame s (onSess h (vacate stack region p) s) := rfl
  exact (Turns.trans (R := Relaid) (fun _ _ _ => Relaid.trans) vacated seated).laidAnew (put.trans (seat_seatFrame h _))

/-- Frames taken elsewhere for what a region held: sessions are laid anew, and the fetches and the landing blocks are given their new frames. -/
theorem moveOut_laysAnew (stack region : Nat) (s : State) :
    ∃ m, LaidAnew s m ∧ moveOut stack region s =
      { m with tiers := { m.tiers with fetches := (moveOut stack region s).tiers.fetches }, rack := (moveOut stack region s).rack } := by
  unfold moveOut
  extract_lets held s1 fetched r landed group q
  have took : ∀ die owner kib base t, LaidAnew t (takeT1 die owner kib base t).2 := fun _ _ _ _ t => LaidAnew.same rfl rfl
  have sessions : LaidAnew s s1 := forEach_rel LaidAnew.refl LaidAnew.trans (fun x t => by
    split
    · exact reseat_laidAnew _ _ _ _ t
    · exact LaidAnew.refl t) _ s
  have fetches : LaidAnew s1 r.2 := foldl_snd_rel LaidAnew.refl LaidAnew.trans (fun a f => by
    unfold fetched
    split
    · exact took _ _ _ _ _
    · exact LaidAnew.refl _) s1.tiers.fetches ([], s1)
  have landing : ∀ a w, LaidAnew a.2 (landed a w).2 := fun a w => by
    unfold landed
    split
    · exact took _ _ _ _ _
    · exact LaidAnew.refl _
  have grouped : ∀ a g, LaidAnew a.2 (group a g).2 := fun a g => foldl_snd_rel LaidAnew.refl LaidAnew.trans landing g.lands ([], a.2)
  have groups : LaidAnew r.2 q.2 := foldl_snd_rel LaidAnew.refl LaidAnew.trans grouped r.2.rack.groups ([], r.2)
  exact ⟨q.2, (sessions.trans fetches).trans groups, rfl⟩

/-- `t` differs from `s` in its signals and log, its NOR, its sessions, its rack and the free values drawn, and in its tiers in the regions retired, the owner
tags, the fetches and the dies reported degraded alone. -/
def RetireFrame (s t : State) : Prop :=
  t = { s with dev := t.dev, nor := t.nor, outs := t.outs, fns := t.fns, sess := t.sess, rack := t.rack, free := t.free
               tiers := { s.tiers with retired := t.tiers.retired, owners := t.tiers.owners, fetches := t.tiers.fetches, degraded := t.tiers.degraded } }

theorem RetireFrame.rest {s t : State} (a : RetireFrame s t) : t.tens = s.tens ∧ t.models = s.models ∧ t.sched = s.sched ∧ t.store = s.store := by
  rw [a]
  exact ⟨rfl, rfl, rfl, rfl⟩

/-- A region counted among those retired of its die. -/
def countRegion (die : Nat) (s : State) : State :=
  { s with tiers := { s.tiers with retired := setCount s.tiers.retired die (countOf s.tiers.retired die + 1) } }

/-- A region added to the health record. -/
def withRegion (stack region : Nat) (r : HealthRec) : HealthRec := { r with regions := r.regions ++ [(stack, region)] }

/-- A die that is reported degraded. -/
def reportDegraded (die : Nat) (s : State) : State := fireState { s with tiers := { s.tiers with degraded := s.tiers.degraded ++ [die] } }

/-- A region retired: counted, recorded, moved out of and reported. -/
def regionGone (stack region : Nat) (s : State) : State :=
  healthEvent (stack / 6) (stack * 2 ^ 32 + region) (moveOut stack region (hrRewrite (withRegion stack region) (countRegion (stack / 6) s)))

theorem retireRegion_cases {stack region : Nat} {s : State} (fitted : stack / 6 < scCount s.part) :
    retireRegion stack region s = regionGone stack region s ∨
      retireRegion stack region s = reportDegraded (stack / 6) (regionGone stack region s) := by
  unfold retireRegion
  dsimp only
  rw [if_neg (Nat.not_le.mpr fitted)]
  split
  · exact .inr rfl
  · exact .inl rfl

/-- What the retirement of a region says and leaves. -/
structure Retires (stack region : Nat) (s t : State) : Prop where
  counted : t.tiers.retired = setCount s.tiers.retired (stack / 6) (countOf s.tiers.retired (stack / 6) + 1)
  events : t.dev.events = s.dev.events + 1
  nor : t.nor = (hrRewrite (withRegion stack region) (countRegion (stack / 6) s)).nor
  sess : ∀ h x, findSess s h = some x → ∃ y, findSess t h = some y ∧ Relaid x y
  frame : RetireFrame s t

theorem regionGone_retires (stack region : Nat) (s : State) : Retires stack region s (regionGone stack region s) := by
  obtain ⟨m, moved, run⟩ := moveOut_laysAnew stack region (hrRewrite (withRegion stack region) (countRegion (stack / 6) s))
  have marked := hrRewrite_frame (withRegion stack region) (countRegion (stack / 6) s)
  have found : (hrRewrite (withRegion stack region) (countRegion (stack / 6) s)).sess = s.sess := by rw [marked]; rfl
  have laid : m = _ := moved.frame
  unfold regionGone
  constructor
  case counted => rw [run]; show m.tiers.retired = _; rw [laid, marked]; rfl
  case events => rw [run]; show m.dev.events + 1 = _; rw [laid, marked]; rfl
  case nor => rw [run]; show m.nor = _; rw [laid]
  case sess =>
    intro h x hx
    obtain ⟨y, hy, r⟩ := moved.sess h x ((findSess_congr found h).trans hx)
    exact ⟨y, by rw [run]; exact hy, r⟩
  case frame =>
    rw [run, laid, marked]
    rfl

theorem retireRegion_retires {stack region : Nat} {s : State} (fitted : stack / 6 < scCount s.part) :
    Retires stack region s (retireRegion stack region s) := by
  obtain ⟨counted, events, nor, sess, frame⟩ := regionGone_retires stack region s
  rcases retireRegion_cases (region := region) fitted with run | run
  · rw [run]
    exact ⟨counted, events, nor, sess, frame⟩
  · rw [run]
    generalize regionGone stack region s = u at *
    have fired : reportDegraded (stack / 6) u = _ := fireState_signals { u with tiers := { u.tiers with degraded := u.tiers.degraded ++ [stack / 6] } }
    rw [fired]
    refine ⟨counted, events, nor, sess, ?_⟩
    unfold RetireFrame at *
    rw [frame]

/-! ### Errors and patrol passes -/

theorem exec_hbm_uncorrectable {stack region : Nat} {held : LineHeld} {s : State} (fitted : stack / 6 < scCount s.part) (line : ∀ d c, held ≠ .t0 d c) :
    exec (.hbmUncorrectable stack region held) s = .next (drainAll (lineLost held (retireRegion stack region s))) := by
  show execHbmUncorrectable stack region held s = _
  unfold execHbmUncorrectable
  split
  · next d c => exact absurd rfl (line d c)
  · exact if_pos fitted

/-- An error in a stack of a die that is not fitted. -/
theorem exec_hbm_unfitted {stack : Nat} {s : State} (unfitted : scCount s.part ≤ stack / 6) (region meterS : Nat) (held : LineHeld) :
    exec (.hbmCorrected stack region meterS) s = .next s ∧ exec (.hbmUncorrectable stack region held) s = .next s := by
  refine ⟨if_pos unfitted, ?_⟩
  show execHbmUncorrectable stack region held s = _
  unfold execHbmUncorrectable
  split <;> exact if_neg (Nat.not_lt.mpr unfitted)

/-- The corrected errors of a region in the last hour. -/
def nearErrors (stack region meterS : Nat) (s : State) : List (Nat × Nat × Nat) :=
  s.tiers.recent.filter fun p => p.1 == stack && p.2.1 == region && decide (meterS ≤ p.2.2 + 3600)

/-- The corrected errors of other regions. -/
def otherErrors (stack region : Nat) (s : State) : List (Nat × Nat × Nat) := s.tiers.recent.filter fun p => !(p.1 == stack && p.2.1 == region)

/-- A corrected error counted for its stack, with those of its region kept as `recent`. -/
def errorCounted (stack : Nat) (recent : List (Nat × Nat × Nat)) (s : State) : State :=
  { s with tiers := { s.tiers with corrected := setCount s.tiers.corrected stack (countOf s.tiers.corrected stack + 1), recent := recent } }

theorem exec_hbm_corrected {stack region meterS : Nat} {s : State} (fitted : stack / 6 < scCount s.part) :
    exec (.hbmCorrected stack region meterS) s =
      if 2 ≤ (nearErrors stack region meterS s).length then .next (retireRegion stack region (errorCounted stack (otherErrors stack region s) s))
      else .next (errorCounted stack (otherErrors stack region s ++ nearErrors stack region meterS s ++ [(stack, region, meterS)]) s) :=
  if_neg (Nat.not_le.mpr fitted)

theorem not_mem_otherErrors {stack region : Nat} {s : State} : ∀ p ∈ otherErrors stack region s, ¬(p.1 = stack ∧ p.2.1 = region) := by
  rintro p hp ⟨here, there⟩
  have kept := (List.mem_filter.mp hp).2
  simp [here, there] at kept

/-- A patrol pass counted. -/
def patrolled (die : Nat) (s : State) : State := { s with tiers := { s.tiers with patrol := s.tiers.patrol.modify die (· + 1) } }

theorem exec_patrol {die : Nat} {s : State} (fitted : die < scCount s.part) : exec (.patrolScrub die) s = .next (patrolled die s) := if_pos fitted

end Sys2Proof.Machine
end

section
/-! Copies made in the background: out of a host region that is being removed, and the spill of a WARM session (R71, R233, R234); and what pools and
lines that are lost leave. -/

namespace Sys2Proof.Machine

/-! ### Copies in the background -/

/-- `t` differs from `s` in its sessions, its tiers and the free values drawn alone. -/
def CopyFrame (s t : State) : Prop := t = { s with sess := t.sess, tiers := t.tiers, free := t.free }

theorem CopyFrame.trans {s t u : State} (a : CopyFrame s t) (b : CopyFrame t u) : CopyFrame s u := by
  unfold CopyFrame at *
  rw [b, a]

theorem SeatFrame.copy {s t : State} (a : SeatFrame s t) : CopyFrame s t := by
  unfold CopyFrame
  rw [a]

theorem TiersOnly.copy {s t : State} (a : TiersOnly s t) : CopyFrame s t := by
  unfold CopyFrame
  rw [a]

/-- From `s` to `t` the page at a row and layer of the session of handle `h` has become `g`, but for where it lies, and nothing is said of other sessions. -/
structure CopiesPage (h row layer : Nat) (g : Page) (s t : State) : Prop where
  here : ∃ y g', findSess t h = some y ∧ findPage y row layer = some g' ∧ SeatedPage g g'
  others : ∀ k, k ≠ h → findSess t k = findSess s k
  frame : CopyFrame s t

/-- A page changed and its session seated. -/
theorem seat_onPage_copies {h row layer : Nat} {s : State} {x : Session} {g : Page} {f : Page → Page} (hx : findSess s h = some x)
    (hg : findPage x row layer = some g) (stays : ∀ k : Page, (f k).row = k.row ∧ (f k).layer = k.layer) :
    CopiesPage h row layer (f g) s (seat h (onPage h row layer f s)) := by
  have changed : CopyFrame s (onPage h row layer f s) := rfl
  exact ⟨seat_onPage_finds hx hg stays, (seat_onPage_frame h row layer f s).1, changed.trans (seat_seatFrame h _).copy⟩

theorem CopiesPage.thenTiers {h row layer : Nat} {g : Page} {s t u : State} (a : CopiesPage h row layer g s t) (b : TiersOnly t u) :
    CopiesPage h row layer g s u := by
  obtain ⟨⟨y, g', hy, hg', seated⟩, others, frame⟩ := a
  exact ⟨⟨y, g', (findSess_congr b.sess h).trans hy, hg', seated⟩, fun k hk => (findSess_congr b.sess k).trans (others k hk), frame.trans b.copy⟩

theorem CopiesPage.thenSeated {h row layer : Nat} {g : Page} {s t u : State} (a : CopiesPage h row layer g s t) (b : Lays h SeatedPage t u)
    (seats : SeatFrame t u) : CopiesPage h row layer g s u := by
  obtain ⟨⟨y, g1, hy, hg1, seated⟩, others, frame⟩ := a
  obtain ⟨z, hz, laid⟩ := b.here y hy
  obtain ⟨g', hg', again⟩ := laid.findPage (fun r => r.parts.2.2) hg1
  exact ⟨⟨z, g', hz, hg', seatedPage_order.trans seated again⟩, fun k hk => (b.others k hk).trans (others k hk), frame.trans seats.copy⟩

/-- With no pool leaving, no object lies in one that is. -/
theorem none_leaving {s : State} (stay : ∀ n, isLeaving s n = false) (pools : List Nat) : pools.any (isLeaving s) = false :=
  List.any_eq_false.mpr fun n _ => ne_true_of_eq_false (stay n)

/-- A page copied out of a host region into the pool `q`. -/
def backIn (q : Nat) (g : Page) : Page :=
  { g with inH := false, pools := g.pools ++ [q], first := true, second := decide (1 ≤ g.pools.length)
           lower0 := if g.pools.isEmpty then noAddress else g.lower0, lower1 := noAddress }

theorem findPage_place {x : Session} {row layer : Nat} {g : Page} (hg : findPage x row layer = some g) : g.row = row ∧ g.layer = layer := by
  simpa using List.find?_some hg

theorem settleRemoval_tiers (s : State) : TiersOnly s (settleRemoval s) := rfl

/-- A copy out of a region being removed, to a pool with room. -/
theorem exec_copy_back {h row layer q : Nat} {s : State} {x : Session} {p : ModelProgram} {g : Page} (hx : findSess s h = some x)
    (hp : sessProg s x = some p) (hg : findPage x row layer = some g) (stay : ∀ n, isLeaving s n = false) (inH : g.inH = true)
    (removing : s.tiers.hRegions.any (fun r => r.partition == sessPart s x && r.link == g.hLink && r.removing.isSome) = true)
    (pick : pickPool s (roomyPools s (sessPlace s x) (pageBytes p g) g.pools) = some q) :
    exec (.backgroundCopyComplete h row layer) s = .next (settleRemoval (seat h (onPage h row layer (backIn q) (drawFree s)))) := by
  have back : unspill x p g s = settleRemoval (seat x.handle (onPage x.handle g.row g.layer (backIn q) (drawFree s))) := by
    unfold unspill
    rw [pick]
    rfl
  rw [findSess_handle hx, (findPage_place hg).1, (findPage_place hg).2] at back
  show execBackgroundCopyComplete h row layer s = _
  unfold execBackgroundCopyComplete
  rw [hx]
  dsimp only
  rw [hp, hg]
  dsimp only
  rw [if_neg (ne_true_of_eq_false (none_leaving stay _)), if_pos ⟨inH, removing⟩, back]

/-- A page whose last copy in T2 goes to the host region on `link`. -/
def spilled (link : Nat) (g : Page) : Page :=
  { g with inH := true, hLink := link, pools := g.pools.dropLast, first := decide (1 < g.pools.length), second := false, lower1 := noAddress }

theorem markSpill_tiers (part : Nat) (s : State) : TiersOnly s (markSpill part s) := rfl

theorem releasePages_tiers (p : Option ModelProgram) (pgs : List Page) (s : State) : TiersOnly s (releasePages p pgs s) := by
  unfold releasePages
  split
  · rfl
  · exact releasePlaces_tiers _ s

/-- A spill to a host region with room. -/
theorem exec_copy_out {h row layer : Nat} {s : State} {x : Session} {p : ModelProgram} {g : Page} {r : HRegion} (hx : findSess s h = some x)
    (hp : sessProg s x = some p) (hg : findPage x row layer = some g) (stay : ∀ n, isLeaving s n = false) (next : spillsNext s x g = true)
    (short : spills s (sessPart s x) = true)
    (copies : (if g.cond = .frozen then frozenCopies x.durability else castCopies x.durability) ≤ g.pools.length)
    (room : roomyH s (sessPart s x) (pageBytes p g) = some r) :
    ∃ gone, exec (.backgroundCopyComplete h row layer) s = .next (markSpill (sessPart s x) (spillBlks h (releasePages (some p) gone
      (seat h (onPage h row layer (spilled r.link) (markSpill (sessPart s x) s)))))) := by
  have out : ∃ gone, spillPage x p g (markSpill (sessPart s x) s) =
      releasePages (some p) gone (seat x.handle (onPage x.handle g.row g.layer (spilled r.link) (markSpill (sessPart s x) s))) := by
    have room' : roomyH (markSpill (sessPart s x) s) (sessPart (markSpill (sessPart s x) s) x) (pageBytes p g) = some r := room
    unfold spillPage
    rw [room']
    exact ⟨_, rfl⟩
  rw [findSess_handle hx, (findPage_place hg).1, (findPage_place hg).2] at out
  obtain ⟨gone, out⟩ := out
  have inT2 : g.inH = false := by
    unfold spillsNext at next
    simp only [Bool.and_eq_true, Bool.not_eq_true'] at next
    obtain ⟨⟨⟨⟨-, inT2⟩, -⟩, -⟩, -⟩ := next
    exact inT2
  refine ⟨gone, ?_⟩
  show execBackgroundCopyComplete h row layer s = _
  unfold execBackgroundCopyComplete
  rw [hx]
  dsimp only
  rw [hp, hg]
  dsimp only
  rw [if_neg (ne_true_of_eq_false (none_leaving stay _)), if_neg (by simp [inT2]), if_neg fun few => Nat.not_lt.mpr copies few.1, if_pos ⟨next, short⟩, out]

/-- The blocks that follow a session's last page leave its pages where they are, but for their space. -/
theorem spillBlks_lays (h : Nat) (s : State) : Lays h SeatedPage s (spillBlks h s) := by
  have o := seatedPage_order
  unfold spillBlks
  split
  · exact Lays.refl o s
  · split
    · exact Lays.refl o s
    · refine forEach_lays o (fun b t => ?_) _ s
      split
      · exact Lays.refl o t
      · exact (onBlk_lays o b _ t).trans o (seat_lays h _)

theorem spillBlks_seatFrame (h : Nat) (s : State) : SeatFrame s (spillBlks h s) := by
  unfold spillBlks
  split
  · rfl
  · split
    · rfl
    · refine forEach_rel SeatFrame.refl SeatFrame.trans (fun b t => ?_) _ s
      split
      · rfl
      · next r _ =>
        have put : ∀ f, SeatFrame t (onBlk h b f t) := fun _ => rfl
        exact (put _).trans (seat_seatFrame h _)

/-- Settles O41: a pool's loss leaves the pools but those it fails, a region's retirement lays its sessions anew in a frame that leaves the rest, and each
background copy is one change of a page in its place. -/
theorem poolsAndLinesAreLost : Obligations.PoolsAndLinesAreLost := by
  unfold Obligations.PoolsAndLinesAreLost
  refine ⟨fun pool s => ⟨fun whole => ?lost, fun gone => ?gone⟩, fun _ _ _ _ fitted line => exec_hbm_uncorrectable fitted line,
    fun _ _ _ _ _ => ⟨rfl, rfl⟩, fun stack region s fitted => ?retired, fun stack region meterS s n fitted hn => ?corrected,
    fun _ region meterS held _ unfitted => exec_hbm_unfitted unfitted region meterS held, fun die n s fitted hn => ?patrol, ?back, ?out⟩
  case lost =>
    obtain ⟨part, -, sec, -⟩ := poolLost_keeps pool s
    have pools := poolLost_pools whole
    refine ⟨_, exec_bridge_fatal pool s, fun q hq named => ?_, ?_, part, sec⟩
    · rw [pools] at hq
      obtain ⟨q0, -, rfl⟩ := List.mem_map.mp hq
      exact failPool_failed ((failPool_num pool q0).symm.trans named)
    · rw [pools, List.map_map]
      exact List.map_congr_left fun q _ => failPool_num pool q
  case gone =>
    rw [exec_bridge_fatal, poolLost_gone gone]
  case retired =>
    obtain ⟨counted, events, nor, sess, frame⟩ := retireRegion_retires (region := region) fitted
    obtain ⟨tens, models, sched, store⟩ := frame.rest
    refine ⟨_, rfl, ?_, events, fun r hr => ?_, tens, models, sched, store, fun h x hx => ?_⟩
    · rw [counted, countOf_setCount]
    · exact ⟨_, nor ▸ hrGoverning_hrRewrite (s := countRegion (stack / 6) s) hr _, List.mem_append_right _ (List.mem_singleton.mpr rfl)⟩
    · obtain ⟨y, hy, e⟩ := sess h x hx
      refine ⟨y, hy, ?_⟩
      rw [e]
      exact ⟨rfl, rfl, rfl, rfl, rfl, rfl⟩
  case corrected =>
    rw [exec_hbm_corrected fitted]
    subst hn
    by_cases third : 2 ≤ (nearErrors stack region meterS s).length
    · obtain ⟨counted, events, -, -, frame⟩ := retireRegion_retires (region := region) (s := errorCounted stack (otherErrors stack region s) s) fitted
      rw [if_pos third]
      refine ⟨_, rfl, ?_, ?_, fun few => absurd third (Nat.not_le.mpr few), fun _ => ⟨?_, events, ?_⟩⟩
      · rw [frame]
        exact countOf_setCount _ _ _
      · rw [frame]
        rfl
      · rw [counted]
        exact countOf_setCount _ _ _
      · rw [frame]
        exact not_mem_otherErrors
    · rw [if_neg third]
      exact ⟨_, rfl, countOf_setCount _ _ _, rfl, fun _ => ⟨List.mem_append_right _ (List.mem_singleton.mpr rfl), rfl⟩, fun many => absurd many third⟩
  case patrol =>
    refine ⟨_, exec_patrol fitted, ?_, fun k hk => ?_, rfl⟩
    · simp [patrolled, hn]
    · simp [patrolled, Ne.symm hk]
  case back =>
    intro h row layer q s x p g hx hp hg stay inH removing pick
    have put := seat_onPage_copies (s := drawFree s) (f := backIn q) hx hg fun _ => ⟨rfl, rfl⟩
    have drawn : CopyFrame s (drawFree s) := rfl
    obtain ⟨⟨y, g', hy, hg', seated⟩, others, frame⟩ := put.thenTiers (settleRemoval_tiers _)
    refine ⟨_, y, g', exec_copy_back hx hp hg stay inH removing pick, hy, hg', ?_, ?_, ?_, others, drawn.trans frame⟩ <;> rw [seated] <;> rfl
  case out =>
    intro h row layer s x p g r hx hp hg stay next short copies room
    obtain ⟨gone, run⟩ := exec_copy_out hx hp hg stay next short copies room
    have put := seat_onPage_copies (s := markSpill (sessPart s x) s) (f := spilled r.link) hx hg fun _ => ⟨rfl, rfl⟩
    have freed := put.thenTiers (releasePages_tiers (some p) gone _)
    have moved := freed.thenSeated (spillBlks_lays h _) (spillBlks_seatFrame h _)
    obtain ⟨⟨y, g', hy, hg', seated⟩, others, frame⟩ := moved.thenTiers (markSpill_tiers (sessPart s x) _)
    have marked : CopyFrame s (markSpill (sessPart s x) s) := rfl
    refine ⟨_, y, g', run, hy, hg', ?_, ?_, ?_, others, marked.trans frame⟩ <;> rw [seated] <;> rfl

end Sys2Proof.Machine
end

section
/-! The parking store's tables: what a journal record, a namespace and a group's entry leave of the others (R247, R261, R262). -/

namespace Sys2Proof.Machine

/-! ### Objects -/

/-- An object as a flushed journal leaves it: the trim that a record holds may have changed (R84). -/
def Retrimmed (o k : Obj) : Prop := k = { o with trimSafe := k.trimSafe }

theorem Retrimmed.refl (o : Obj) : Retrimmed o o := rfl

theorem Retrimmed.trans {o k l : Obj} (a : Retrimmed o k) (b : Retrimmed k l) : Retrimmed o l := by
  unfold Retrimmed at *
  rw [b, a]

theorem Retrimmed.deleted {o k : Obj} (a : Retrimmed o k) : k.deleted = o.deleted := by rw [a]

/-- From `l` to `m` every object that is not deleted stays, and is still found under its number where it was. -/
structure KeptObjs (l m : List Obj) : Prop where
  found : ∀ n o, findKey Obj.num n l = some o → o.deleted = false → ∃ k, findKey Obj.num n m = some k ∧ Retrimmed o k
  stays : ∀ o ∈ l, o.deleted = false → ∃ k ∈ m, Retrimmed o k

theorem KeptObjs.refl (l : List Obj) : KeptObjs l l := ⟨fun _ o ho _ => ⟨o, ho, .refl o⟩, fun o ho _ => ⟨o, ho, .refl o⟩⟩

theorem KeptObjs.trans {l m n : List Obj} (a : KeptObjs l m) (b : KeptObjs m n) : KeptObjs l n where
  found := fun num o ho live => by
    obtain ⟨k, hk, r⟩ := a.found num o ho live
    obtain ⟨j, hj, q⟩ := b.found num k hk (r.deleted.trans live)
    exact ⟨j, hj, r.trans q⟩
  stays := fun o ho live => by
    obtain ⟨k, hk, r⟩ := a.stays o ho live
    obtain ⟨j, hj, q⟩ := b.stays k hk (r.deleted.trans live)
    exact ⟨j, hj, r.trans q⟩

/-- A flushed record drops no object but a deleted one, and changes no more than a trim. -/
theorem settleRecord_kept (keep : Bool) (r : JRec) (l : List Obj) : KeptObjs l (settleRecord keep r l) := by
  unfold settleRecord
  split
  · exact ⟨fun n o ho live => ⟨o, findKey_filter ho (by simp [live]), .refl o⟩,
      fun o ho live => ⟨o, List.mem_filter.mpr ⟨ho, by simp [live]⟩, .refl o⟩⟩
  · split
    · have trims : ∀ o : Obj, Retrimmed o (if o.num = r.subject then { o with trimSafe := some r.value } else o) := fun o => by
        split <;> rfl
      refine ⟨fun n o ho _ => ⟨_, ?_, trims o⟩, fun o ho _ => ⟨_, List.mem_map_of_mem ho, trims o⟩⟩
      refine (findKey_map (fun o => ?_) n l).trans (congrArg _ ho)
      split <;> rfl
    · exact .refl l

theorem flushJournal_kept (hub : Nat) (s : State) : KeptObjs s.store.objs (flushJournal hub s).store.objs := by
  show KeptObjs _ ((hubStore s hub).unflushed.foldl _ s.store.objs)
  exact List.foldlRecOn (motive := KeptObjs s.store.objs) _ _ (.refl _) fun l kept r _ => kept.trans (settleRecord_kept _ r l)

theorem journal_kept (hub : Nat) (r : JRec) (s : State) : KeptObjs s.store.objs (journal hub r s).store.objs := by
  unfold journal
  dsimp only
  split
  · exact flushJournal_kept hub (onHubStore hub _ s)
  · exact .refl _

/-! ### What a record and a page of the journal leave -/

theorem flushJournal_storeOnly (hub : Nat) (s : State) : StoreOnly s (flushJournal hub s) := rfl

@[simp] theorem flushJournal_groups (hub : Nat) (s : State) : (flushJournal hub s).store.groups = s.store.groups := rfl
@[simp] theorem flushJournal_nss (hub : Nat) (s : State) : (flushJournal hub s).store.nss = s.store.nss := rfl

@[simp] theorem journal_groups (hub : Nat) (r : JRec) (s : State) : (journal hub r s).store.groups = s.store.groups := by
  unfold journal
  dsimp only
  split <;> rfl

@[simp] theorem journal_nss (hub : Nat) (r : JRec) (s : State) : (journal hub r s).store.nss = s.store.nss := by
  unfold journal
  dsimp only
  split <;> rfl

@[simp] theorem healthSignal_store (die data : Nat) (s : State) : (healthSignal die data s).store = s.store := by
  rw [healthSignal_frame]

/-! ### Namespaces -/

theorem nsOf_congr {s t : State} (e : t.store.nss = s.store.nss) (n : Nat) : nsOf t n = nsOf s n := by
  unfold nsOf
  rw [e]

/-- A namespace that the store lists is found changed. -/
theorem nsOf_onNs {n : Nat} {s : State} (listed : ∃ x ∈ s.store.nss, x.num = n) {f : Ns → Ns} (hf : ∀ x, (f x).num = x.num) :
    nsOf (onNs n f s) n = f (nsOf s n) := by
  obtain ⟨x, hx⟩ : ∃ x, findKey Ns.num n s.store.nss = some x := by
    refine Option.isSome_iff_exists.mp (List.find?_isSome.mpr ?_)
    simpa using listed
  have put : findKey Ns.num n (onNs n f s).store.nss = some (f x) := (updKey_finds hx hf).1
  simp [nsOf, put, hx]

/-! ### The one entry of a group -/

/-- `g` is the one entry of its group. -/
def Sole (g : Group) (s : State) : Prop := (s.store.groups.filter fun x => x.hub == g.hub && x.num == g.num) = [g]

theorem Sole.groupOf {g : Group} {s : State} (a : Sole g s) (ns : Nat) : groupOf s g.hub g.num ns = g := by
  unfold Machine.groupOf
  rw [← List.head?_filter, a]
  rfl

/-- An entry of a group is named after it. -/
theorem groupOf_named {s : State} {hub num ns : Nat} {g : Group} (hg : Machine.groupOf s hub num ns = g) : g.hub = hub ∧ g.num = num := by
  subst hg
  unfold Machine.groupOf
  cases found : s.store.groups.find? fun g => g.hub == hub && g.num == num with
  | none => exact ⟨rfl, rfl⟩
  | some g => simpa using List.find?_some found

theorem Sole.eq_of_mem {g k : Group} {s : State} (a : Sole g s) (hk : k ∈ s.store.groups) (hub : k.hub = g.hub) (num : k.num = g.num) : k = g := by
  have among : k ∈ s.store.groups.filter fun x => x.hub == g.hub && x.num == g.num := List.mem_filter.mpr ⟨hk, by simp [hub, num]⟩
  rw [a] at among
  exact List.mem_singleton.mp among

theorem Sole.congr {g : Group} {s t : State} (a : Sole g s) (e : t.store.groups = s.store.groups) : Sole g t := by
  unfold Sole at *
  rw [e, a]

/-- Entries changed in place leave a group its one entry, changed. -/
theorem Sole.map {g : Group} {s t : State} (a : Sole g s) {f : Group → Group} (e : t.store.groups = s.store.groups.map f)
    (named : ∀ x, (f x).hub = x.hub ∧ (f x).num = x.num) : Sole (f g) t := by
  have same : ((fun x : Group => x.hub == (f g).hub && x.num == (f g).num) ∘ f) = fun x => x.hub == g.hub && x.num == g.num := by
    funext x
    simp [named]
  unfold Sole at *
  rw [e, List.filter_map, same, a]
  rfl

theorem setGroup_sole (g : Group) (s : State) : Sole g (setGroup g s) := by
  simp [Sole, setGroup, List.filter_filter]

/-- Another group's entry leaves a group its one entry. -/
theorem Sole.setGroup {g k : Group} {s : State} (a : Sole g s) (other : ¬(k.hub = g.hub ∧ k.num = g.num)) : Sole g (setGroup k s) := by
  have out : (k.hub == g.hub && k.num == g.num) = false := by simpa using other
  have sieve : ∀ x : Group, ((x.hub == g.hub && x.num == g.num) && !(x.hub == k.hub && x.num == k.num)) = (x.hub == g.hub && x.num == g.num) := by
    intro x
    by_cases here : x.hub = g.hub ∧ x.num = g.num
    · have apart : (x.hub == k.hub && x.num == k.num) = false := by
        rw [here.1, here.2, BEq.comm, BEq.comm (a := g.num)]
        exact out
      rw [apart, Bool.not_false, Bool.and_true]
    · have gone : (x.hub == g.hub && x.num == g.num) = false := by simpa using here
      rw [gone, Bool.false_and]
  unfold Sole at *
  show List.filter _ (List.filter _ s.store.groups ++ [k]) = [g]
  rw [List.filter_append, List.filter_filter, List.filter_congr (fun x _ => sieve x), a]
  simp [out]

/-! ### Folding and reclaim -/

theorem mem_insertBy {α : Type} {m : α → Nat} {x y : α} {l : List α} (h : y ∈ insertBy m x l) : y = x ∨ y ∈ l := by
  induction l with
  | nil => exact .inl (List.mem_singleton.mp h)
  | cons z l ih =>
    unfold insertBy at h
    split at h
    · exact List.mem_cons.mp h
    · rcases List.mem_cons.mp h with rfl | h
      · exact .inr List.mem_cons_self
      · exact (ih h).imp_right (List.mem_cons_of_mem z)

theorem mem_sortBy {α : Type} {m : α → Nat} {l : List α} {y : α} (h : y ∈ sortBy m l) : y ∈ l := by
  refine List.foldlRecOn (motive := fun sorted => y ∈ sorted → y ∈ l) l _ (fun none => by cases none) (fun sorted ih x hx hy => ?_) h
  rcases mem_insertBy hy with rfl | hy
  · exact hx
  · exact ih hy

/-- `g` is a closed group of the store. -/
def ClosedGroup (s : State) (g : Group) : Prop := g ∈ s.store.groups ∧ g.state = .closed

theorem closedGroup_of_sieve {s : State} {n : Nat} {g : Group} {slc : Group → Bool}
    (h : g ∈ (nsGroups s n).filter fun g => g.state == .closed && slc g && !g.copying) : ClosedGroup s g := by
  obtain ⟨listed, closed⟩ := List.mem_filter.mp h
  simp only [Bool.and_eq_true, beq_iff_eq] at closed
  exact ⟨(List.mem_filter.mp listed).1, closed.1.1⟩

theorem oldestSlc_closed {s : State} {n : Nat} {g : Group} (h : oldestSlc s n = some g) : ClosedGroup s g :=
  closedGroup_of_sieve (mem_sortBy (List.mem_of_mem_head? h))

theorem chooseVictim_closed {s : State} {n seq : Nat} {g : Group} (h : chooseVictim s n seq = some g) : ClosedGroup s g := by
  refine closedGroup_of_sieve (n := n) (slc := fun g => !g.slc) ?_
  unfold chooseVictim at h
  extract_lets gs at h
  show g ∈ gs
  split at h
  · next flagged =>
    cases h
    exact List.mem_of_find?_eq_some flagged
  · refine List.foldlRecOn (motive := fun best : Option Group => ∀ g, best = some g → g ∈ gs) gs _ (fun g e => by cases e)
      (fun best ih x hx g e => ?_) g h
    dsimp only at e
    split at e
    · exact ih g e
    · split at e
      · cases e
        exact hx
      · split at e
        · cases e
          exact hx
        · exact ih g e

/-- The source of a copy marked, where one is chosen. -/
def startChosen (g : Option Group) (s : State) : State :=
  match g with
  | some g => startCopy g s
  | none => s

/-- What tending a namespace can do: nothing, or its entry changed and up to two closed groups marked as sources of copies. -/
theorem tend_cases (n : Nat) (s : State) :
    tend n s = s ∨ ∃ f a b, (∀ g, a = some g → ClosedGroup s g) ∧ (∀ g, b = some g → ClosedGroup (startChosen a (onNs n f s)) g) ∧
      tend n s = startChosen b (startChosen a (onNs n f s)) := by
  unfold tend
  extract_lets f s1 x gs s2 seq busy
  by_cases worn : (nsOf s n).readOnly = true
  · exact .inl (if_pos worn)
  · rw [if_neg worn]
    right
    obtain ⟨a, closed, folds⟩ : ∃ a, (∀ g, a = some g → ClosedGroup s g) ∧ s2 = startChosen a s1 := by
      unfold s2
      split
      · exact ⟨oldestSlc s1 n, fun _ h => oldestSlc_closed h, rfl⟩
      · exact ⟨none, nofun, rfl⟩
    have begun : s2 = startChosen a (onNs n _ s) := folds
    split
    · exact ⟨_, a, chooseVictim s2 n seq, closed, fun _ h => begun ▸ chooseVictim_closed h, by rw [← begun]; rfl⟩
    · exact ⟨_, a, none, closed, nofun, begun⟩

theorem startChosen_frame (g : Option Group) (s : State) : StoreOnly s (startChosen g s) ∧ (startChosen g s).store.objs = s.store.objs := by
  cases g <;> exact ⟨rfl, rfl⟩

theorem tend_frame (n : Nat) (s : State) : StoreOnly s (tend n s) ∧ (tend n s).store.objs = s.store.objs := by
  rcases tend_cases n s with still | ⟨f, a, b, -, -, tended⟩
  · rw [still]
    exact ⟨rfl, rfl⟩
  · rw [tended]
    obtain ⟨only, objs⟩ := startChosen_frame a (onNs n f s)
    obtain ⟨only', objs'⟩ := startChosen_frame b (startChosen a (onNs n f s))
    have put : StoreOnly s (onNs n f s) := rfl
    exact ⟨(put.trans only).trans only', objs'.trans objs⟩

/-- `k` is `g`, or `g` marked as the source of a copy, which it can be only closed. -/
def MaybeCopied (g k : Group) : Prop := k = g ∨ (g.state = .closed ∧ k = { g with copying := true })

theorem MaybeCopied.marked {g k : Group} (a : MaybeCopied g k) : k = { g with copying := k.copying } := by
  rcases a with rfl | ⟨-, rfl⟩ <;> rfl

theorem startChosen_sole {g : Group} {s : State} {b : Option Group} (a : Sole g s) (closed : ∀ k, b = some k → ClosedGroup s k) :
    ∃ k, MaybeCopied g k ∧ Sole k (startChosen b s) := by
  cases b with
  | none => exact ⟨g, .inl rfl, a⟩
  | some k =>
    obtain ⟨listed, shut⟩ := closed k rfl
    by_cases own : k.hub = g.hub ∧ k.num = g.num
    · obtain rfl := a.eq_of_mem listed own.1 own.2
      exact ⟨_, .inr ⟨shut, rfl⟩, setGroup_sole _ s⟩
    · exact ⟨g, .inl rfl, a.setGroup own⟩

theorem tend_sole {g : Group} {s : State} (n : Nat) (a : Sole g s) : ∃ k, MaybeCopied g k ∧ Sole k (tend n s) := by
  rcases tend_cases n s with still | ⟨f, fold, victim, folds, reclaims, tended⟩
  · exact ⟨g, .inl rfl, still.symm ▸ a⟩
  · have started : Sole g (onNs n f s) := a
    obtain ⟨k, marked, soleK⟩ := startChosen_sole started folds
    obtain ⟨j, again, soleJ⟩ := startChosen_sole soleK reclaims
    refine ⟨j, ?_, tended ▸ soleJ⟩
    rcases marked with rfl | ⟨shut, rfl⟩
    · exact again
    · rcases again with rfl | ⟨-, rfl⟩ <;> exact .inr ⟨shut, rfl⟩

/-- After tending, a group's entry is what it was but for the mark of a copy; one that is not closed is as it was. -/
theorem groupOf_tend {g : Group} {s : State} (n ns : Nat) (a : Sole g s) : MaybeCopied g (groupOf (tend n s) g.hub g.num ns) := by
  obtain ⟨k, marked, sole⟩ := tend_sole n a
  have named : k.hub = g.hub ∧ k.num = g.num := by
    rw [marked.marked]
    exact ⟨rfl, rfl⟩
  rw [← named.1, ← named.2, sole.groupOf]
  exact marked

end Sys2Proof.Machine
end

section
/-! Groups that are condemned, retired and erased, and namespaces that become read-only (R263, R266, R268, R270, R271). -/

namespace Sys2Proof.Machine

/-! ### What a retirement leaves -/

/-- `t` differs from `s` in its store, its device state, its functions, its signals and the free values drawn alone. -/
def ReportFrame (s t : State) : Prop := t = { s with dev := t.dev, fns := t.fns, outs := t.outs, free := t.free, store := t.store }

theorem ReportFrame.rest {s t : State} (a : ReportFrame s t) : t.sess = s.sess ∧ t.tens = s.tens ∧ t.sched = s.sched := by
  rw [a]
  exact ⟨rfl, rfl, rfl⟩

/-- From `s` to `t` every object that is not deleted is kept, and outside the store there is no more than a report. -/
structure Reports (s t : State) : Prop where
  frame : ReportFrame s t
  objs : KeptObjs s.store.objs t.store.objs

theorem Reports.refl (s : State) : Reports s s := ⟨rfl, .refl _⟩

theorem Reports.trans {s t u : State} (a : Reports s t) (b : Reports t u) : Reports s u := by
  refine ⟨?_, a.objs.trans b.objs⟩
  have first := a.frame
  have second := b.frame
  unfold ReportFrame at *
  rw [second, first]

theorem StoreOnly.reports {s t : State} (a : StoreOnly s t) (objs : KeptObjs s.store.objs t.store.objs) : Reports s t :=
  ⟨by unfold ReportFrame; rw [a], objs⟩

theorem flushJournal_reports (hub : Nat) (s : State) : Reports s (flushJournal hub s) :=
  (flushJournal_storeOnly hub s).reports (flushJournal_kept hub s)

theorem journal_reports (hub : Nat) (r : JRec) (s : State) : Reports s (journal hub r s) := (journal_storeOnly hub r s).reports (journal_kept hub r s)

/-- Groups and namespaces changed report nothing and leave the objects. -/
theorem setGroup_reports (g : Group) (s : State) : Reports s (setGroup g s) := ⟨rfl, .refl _⟩
theorem onNs_reports (n : Nat) (f : Ns → Ns) (s : State) : Reports s (onNs n f s) := ⟨rfl, .refl _⟩

theorem healthSignal_reports (die data : Nat) (s : State) : Reports s (healthSignal die data s) := by
  refine ⟨?_, ?_⟩
  · unfold ReportFrame
    rw [healthSignal_frame]
  · rw [healthSignal_store]
    exact .refl _

/-! ### A namespace made read-only -/

/-- A group of a namespace that is read-only: its copy stops. -/
def stopCopy (n : Nat) (g : Group) : Group := if g.ns = n then { g with copying := false } else g

theorem stopCopy_keeps (n : Nat) (g : Group) : (stopCopy n g).hub = g.hub ∧ (stopCopy n g).num = g.num ∧ (stopCopy n g).state = g.state := by
  unfold stopCopy
  split <;> exact ⟨rfl, rfl, rfl⟩

/-- The groups of a namespace with their copies stopped. -/
def stopCopies (n : Nat) (s : State) : State := { s with store := { s.store with groups := s.store.groups.map (stopCopy n) } }

/-- A namespace read-only and not reclaiming. -/
def readOnlyNs (x : Ns) : Ns := { x with readOnly := true, reclaiming := false }

theorem enterReadOnly_worn {n : Nat} {s : State} (worn : (nsOf s n).readOnly = true) (hub : Nat) : enterReadOnly hub n s = s := if_pos worn

theorem enterReadOnly_fresh {n : Nat} {s : State} (fresh : ¬(nsOf s n).readOnly = true) (hub : Nat) :
    enterReadOnly hub n s = healthSignal (6 + hub) n (journal hub { kind := 11, subject := n } (onNs n readOnlyNs (stopCopies n s))) := if_neg fresh

theorem enterReadOnly_reports (hub n : Nat) (s : State) : Reports s (enterReadOnly hub n s) := by
  by_cases worn : (nsOf s n).readOnly = true
  · rw [enterReadOnly_worn worn]
    exact .refl s
  · rw [enterReadOnly_fresh worn]
    have marked : Reports s (onNs n readOnlyNs (stopCopies n s)) := ⟨rfl, .refl _⟩
    exact (marked.trans (journal_reports _ _ _)).trans (healthSignal_reports _ _ _)

/-- A namespace that the store lists is read-only once it has been made so. -/
theorem nsOf_enterReadOnly {n : Nat} {s : State} (listed : ∃ x ∈ s.store.nss, x.num = n) (hub : Nat) :
    (nsOf (enterReadOnly hub n s) n).readOnly = true := by
  by_cases worn : (nsOf s n).readOnly = true
  · rw [enterReadOnly_worn worn]
    exact worn
  · have made : nsOf (onNs n readOnlyNs (stopCopies n s)) n = readOnlyNs (nsOf (stopCopies n s) n) := nsOf_onNs listed fun _ => rfl
    rw [enterReadOnly_fresh worn, nsOf_congr (t := healthSignal _ _ _) (s := onNs n readOnlyNs (stopCopies n s)) (by simp), made]
    rfl

theorem enterReadOnly_sole {g : Group} {s : State} (a : Sole g s) (hub n : Nat) :
    ∃ k, (k.hub = g.hub ∧ k.num = g.num ∧ k.state = g.state) ∧ Sole k (enterReadOnly hub n s) := by
  by_cases worn : (nsOf s n).readOnly = true
  · exact ⟨g, ⟨rfl, rfl, rfl⟩, (enterReadOnly_worn worn hub).symm ▸ a⟩
  · refine ⟨stopCopy n g, stopCopy_keeps n g, a.map ?_ fun x => ⟨(stopCopy_keeps n x).1, (stopCopy_keeps n x).2.1⟩⟩
    rw [enterReadOnly_fresh worn]
    simp [onNs, stopCopies]

/-! ### A group retired -/

/-- A group's entry retired. -/
def retiredGroup (g : Group) : Group := { g with state := .retired, copying := false, bad := false }

/-- The retirement of a group journalled and its entry put in place. -/
def recordRetirement (g : Group) (s : State) : State :=
  setGroup (retiredGroup g) (flushJournal g.hub (journal g.hub { kind := 7, subject := groupAddress g.num } s))

/-- A namespace that takes a spare for a group it lost. -/
def takeSpare (x : Ns) : Ns := { x with spares := x.spares - 1, total := x.total + 1 }

theorem retireGroup_cases {g : Group} (live : g.state ≠ .retired) (s : State) :
    retireGroup g s = onNs g.ns takeSpare (recordRetirement g s) ∨ retireGroup g s = enterReadOnly g.hub g.ns (recordRetirement g s) := by
  have act : retireGroup g s = if 0 < (nsOf (recordRetirement g s) g.ns).spares then onNs g.ns takeSpare (recordRetirement g s)
      else enterReadOnly g.hub g.ns (recordRetirement g s) := if_neg (by simpa using live)
  rw [act]
  split
  · exact .inl rfl
  · exact .inr rfl

theorem retireGroup_reports (g : Group) (s : State) : Reports s (retireGroup g s) := by
  by_cases gone : g.state = .retired
  · have still : retireGroup g s = s := if_pos (by simpa using gone)
    rw [still]
    exact .refl s
  · have recorded : Reports s (recordRetirement g s) :=
      ((journal_reports _ _ s).trans (flushJournal_reports _ _)).trans (setGroup_reports _ _)
    rcases retireGroup_cases gone s with spared | worn
    · rw [spared]
      exact recorded.trans (onNs_reports _ _ _)
    · rw [worn]
      exact recorded.trans (enterReadOnly_reports _ _ _)

/-- A group retired is found retired. -/
theorem groupOf_retireGroup {g : Group} (live : g.state ≠ .retired) (s : State) (ns : Nat) :
    (groupOf (retireGroup g s) g.hub g.num ns).state = .retired := by
  have recorded : Sole (retiredGroup g) (recordRetirement g s) := setGroup_sole _ _
  rcases retireGroup_cases live s with spared | worn
  · have spareTaken : Sole (retiredGroup g) (onNs g.ns takeSpare (recordRetirement g s)) := recorded
    rw [spared]
    exact congrArg Group.state (spareTaken.groupOf ns)
  · obtain ⟨k, ⟨hub, num, state⟩, sole⟩ := enterReadOnly_sole recorded g.hub g.ns
    have found := sole.groupOf ns
    rw [hub, num] at found
    rw [worn]
    exact (congrArg Group.state found).trans state

/-! ### A group condemned -/

section
variable {g : Group} {s : State}

theorem condemn_empty (empty : g.valid = 0) : condemn g s = retireGroup g s := if_pos (.inl empty)

variable (live : g.state ≠ .retired) (holds : 0 < g.valid)
include live holds

theorem condemn_spared (spares : (nsOf s g.ns).spares ≠ 0) (writable : (nsOf s g.ns).readOnly = false) :
    condemn g s = setGroup { g with state := .closed, bad := true, copying := true } s := by
  simp [condemn, live, holds.ne', spares, writable]

theorem condemn_worn (worn : (nsOf s g.ns).spares = 0 ∨ (nsOf s g.ns).readOnly = true) :
    condemn g s = enterReadOnly g.hub g.ns (setGroup g s) := by
  simp [condemn, live, holds.ne', worn]

end

theorem condemn_reports (g : Group) (s : State) : Reports s (condemn g s) := by
  unfold condemn
  split
  · exact retireGroup_reports g s
  · split
    · exact (setGroup_reports g s).trans (enterReadOnly_reports _ _ _)
    · exact setGroup_reports _ s

/-! ### A group erased -/

/-- A group's entry once it has been erased. -/
def erasedGroup (g : Group) : Group := { hub := g.hub, num := g.num, ns := g.ns, erases := g.erases + 1 }

/-- An erase of a group journalled. -/
def recordErase (g : Group) (s : State) : State :=
  journal g.hub { kind := 6, subject := groupAddress g.num, value := g.erases + 1 } (flushJournal g.hub s)

section
variable {g : Group} {s : State} (listed : s.store.groups.find? (fun x => x.hub == g.hub && x.num == g.num) = some g)
include listed

theorem exec_erase_left (left : g.state ≠ .closed ∨ 0 < g.valid ∨ (nsOf s g.ns).readOnly = true) (ok : Bool) :
    exec (.nandEraseComplete g.hub g.num ok) s = .next s := by
  show execNandEraseComplete g.hub g.num ok s = _
  unfold execNandEraseComplete
  rw [listed]
  exact if_pos left

variable (shut : g.state = .closed) (empty : g.valid = 0) (writable : (nsOf s g.ns).readOnly = false)
include shut empty writable

theorem exec_erase_failed : exec (.nandEraseComplete g.hub g.num false) s = .next (retireGroup g s) := by
  show execNandEraseComplete g.hub g.num false s = _
  simp [execNandEraseComplete, listed, shut, empty, writable]

theorem exec_erase_done : exec (.nandEraseComplete g.hub g.num true) s =
    if (board s).eraseLimit ≤ g.erases + 1 ∨ g.bad = true then .next (retireGroup (erasedGroup g) (recordErase g s))
    else .next (tend g.ns (setGroup (erasedGroup g) (recordErase g s))) := by
  show execNandEraseComplete g.hub g.num true s = _
  simp [execNandEraseComplete, listed, shut, empty, writable, erasedGroup, recordErase]

end

theorem recordErase_reports (g : Group) (s : State) : Reports s (recordErase g s) := (flushJournal_reports _ s).trans (journal_reports _ _ _)

/-- An erased group stands so after its namespace has been tended. -/
theorem groupOf_erased (g : Group) (s : State) (ns : Nat) : groupOf (tend g.ns (setGroup (erasedGroup g) s)) g.hub g.num ns = erasedGroup g := by
  rcases groupOf_tend g.ns ns (setGroup_sole (erasedGroup g) s) with same | ⟨shut, -⟩
  · exact same
  · cases shut

end Sys2Proof.Machine
end

section
/-! Programmes: a group opened for them, their pages counted for the object, and a full group closed (R261, R262, R264 to R266). -/

namespace Sys2Proof.Machine

/-! ### A group opened -/

/-- A free group opened in a mode. -/
def openedGroup (g : Group) (slc : Bool) (b : BoardDesc) : Group :=
  { g with state := .opened, slc := slc, pages := groupPages b slc, valid := 0, written := 0 }

theorem openGroup_free {g : Group} (free : g.state = .free) (slc : Bool) (s : State) :
    openGroup g slc s = (openedGroup g slc (board s),
      flushJournal g.hub (journal g.hub { kind := 4, subject := groupAddress g.num, value := g.erases } s)) := if_pos (by simpa using free)

theorem openGroup_held {g : Group} (held : g.state ≠ .free) (slc : Bool) (s : State) : openGroup g slc s = (g, s) := if_neg (by simpa using held)

theorem openGroup_named (g : Group) (slc : Bool) (s : State) : (openGroup g slc s).1.hub = g.hub ∧ (openGroup g slc s).1.num = g.num := by
  unfold openGroup
  split <;> exact ⟨rfl, rfl⟩

theorem openGroup_frame (g : Group) (slc : Bool) (s : State) :
    StoreOnly s (openGroup g slc s).2 ∧ KeptObjs s.store.objs (openGroup g slc s).2.store.objs := by
  by_cases free : g.state = .free
  · rw [openGroup_free free]
    exact ⟨(journal_storeOnly _ _ s).trans (flushJournal_storeOnly _ _), (journal_kept _ _ s).trans (flushJournal_kept _ _)⟩
  · rw [openGroup_held free]
    exact ⟨rfl, .refl _⟩

/-! ### A group written -/

/-- A group with more pages written, `valid` of them valid. -/
def wroteInto (g : Group) (valid pages : Nat) (tags : List Tag) : Group :=
  { g with valid := g.valid + valid, written := g.written + pages, tags := g.tags ++ tags }

/-- A group that closes when it is full. -/
def closedIfFull (seq : Nat) (g : Group) : Group := if g.pages ≤ g.written then { g with state := .closed, closeSeq := seq } else g

theorem closedIfFull_frame (seq : Nat) (g : Group) :
    closedIfFull seq g = { g with state := if g.pages ≤ g.written then .closed else g.state, closeSeq := (closedIfFull seq g).closeSeq } := by
  unfold closedIfFull
  split <;> rfl

/-- A written group's entry put in place, its closing journalled. -/
def putWritten (hub group seq : Nat) (g : Group) (s : State) : State :=
  if g.pages ≤ g.written then
    journal hub { kind := 5, subject := groupAddress group, value := seq } (setGroup { g with state := .closed, closeSeq := seq } s)
  else setGroup g s

theorem putWritten_frame (hub group seq : Nat) (g : Group) (s : State) :
    StoreOnly s (putWritten hub group seq g s) ∧ KeptObjs s.store.objs (putWritten hub group seq g s).store.objs := by
  unfold putWritten
  split
  · have put : StoreOnly s (setGroup { g with state := .closed, closeSeq := seq } s) := rfl
    exact ⟨put.trans (journal_storeOnly _ _ _), journal_kept hub _ (setGroup _ s)⟩
  · exact ⟨rfl, .refl _⟩

theorem putWritten_sole (hub group seq : Nat) (g : Group) (s : State) : Sole (closedIfFull seq g) (putWritten hub group seq g s) := by
  unfold putWritten closedIfFull
  split
  · exact (setGroup_sole _ s).congr (journal_groups _ _ _)
  · exact setGroup_sole g s

/-! ### The command -/

/-- Pages counted in a hub's write sequence. -/
def countWritten (hub pages : Nat) (s : State) : State := onHubStore hub (fun x => { x with seq := x.seq + pages }) s

/-- A journal page counts in the hub's write sequence alone. -/
theorem exec_programme_journal (hub group object pages : Nat) (ok : Bool) (s : State) :
    exec (.nandProgramComplete hub group object pages .journal ok) s = .next (countWritten hub pages s) := rfl

theorem exec_programme_failed (hub group object pages row : Nat) (s : State) :
    exec (.nandProgramComplete hub group object pages (.row row) false) s =
      .next (condemn (groupOf s hub group (((findObj s object).map Obj.ns).getD 0)) s) := rfl

section
variable {object : Nat} {s : State} {o : Obj} (ho : findObj s object = some o)
include ho

/-- New pages for a free group wait with the other new writes of the namespace. -/
theorem exec_programme_waits {hub group pages : Nat} (room : pages ≤ o.reserved) (free : (groupOf s hub group o.ns).state = .free)
    (waits : writesWait s o.ns = true) (row : Nat) : exec (.nandProgramComplete hub group object pages (.row row) true) s = .next s := by
  show execNandProgramComplete hub group object pages (.row row) true s = _
  unfold execNandProgramComplete
  rw [ho]
  simp [room, free, waits]

/-- A programme that does not wait: its group opened and put in place, the pages counted for the object and in the write sequence, the group written, and
the namespace tended. A group that new pages open is in SLC mode. -/
theorem exec_programme_done {hub group pages : Nat}
    (goes : o.reserved < pages ∨ (groupOf s hub group o.ns).state ≠ .free ∨ writesWait s o.ns = false) (row : Nat) {r : Group × State}
    (hr : openGroup (groupOf s hub group o.ns) (!decide (o.reserved < pages)) s = r) :
    ∃ e, e.pages = pages ∧ ∀ c, countPages e object (.row row) (setGroup r.1 r.2) = c → ∃ seq tags,
      exec (.nandProgramComplete hub group object pages (.row row) true) s =
        .next (tend o.ns (putWritten hub group seq (wroteInto r.1 c.1 pages tags) (countWritten hub pages c.2))) := by
  have go : ¬(decide (o.reserved < pages) = false ∧ (groupOf s hub group o.ns).state = .free ∧ writesWait s o.ns = true) := by
    rintro ⟨new, free, waits⟩
    rcases goes with copied | held | ready
    · exact of_decide_eq_false new copied
    · exact held free
    · exact absurd waits (ne_true_of_eq_false ready)
  refine ⟨{ index := 0, kind := 1, hub := hub, group := group, page := r.1.written / max 1 (board s).planes, pages := pages }, rfl, fun c hc => ?_⟩
  let seq := (hubStore (countWritten hub pages c.2) hub).seq
  refine ⟨seq, tagsOf (some o) 1 (nextLogical s o 1) (seq - pages) pages r.1.slc, ?_⟩
  subst hc hr
  show execNandProgramComplete hub group object pages (.row row) true s = _
  unfold execNandProgramComplete
  rw [ho, if_neg nofun]
  extract_lets o' ns copy g0
  have copied : copy = decide (o.reserved < pages) := Bool.and_true _
  clear_value copy
  subst copied
  rw [if_neg nofun]
  exact if_neg go

end

/-! ### Pages of an object -/

theorem findObj_onObj {n : Nat} {s : State} {o : Obj} (ho : findObj s n = some o) {f : Obj → Obj} (hf : ∀ x, (f x).num = x.num) :
    findObj (onObj n f s) n = some (f o) := (updKey_finds ho hf).1

/-- An object with new pages programmed out of its reservation: those of the extent `e`. -/
def programmedNew (e : Ext) (o : Obj) : Obj :=
  { o with pages := o.pages + e.pages, reserved := o.reserved - e.pages
           exts := o.exts ++ [{ e with index := (o.exts.filter fun k => k.kind != 2 && k.kind != 3).length }] }

/-- An object with its extents moved. -/
def withExts (f : Ext → Ext) (o : Obj) : Obj := { o with exts := o.exts.map f }

/-- An object whose pages have been copied to other places. -/
def Relocated (o k : Obj) : Prop := k = { o with exts := k.exts, trimSafe := k.trimSafe }

theorem Retrimmed.relocated {o k : Obj} (a : Retrimmed o k) : Relocated o k := by
  unfold Relocated
  rw [a]

theorem Relocated.trans {o k l : Obj} (a : Relocated o k) (b : Relocated k l) : Relocated o l := by
  unfold Relocated at *
  rw [b, a]

theorem Relocated.deleted {o k : Obj} (a : Relocated o k) : k.deleted = o.deleted := by rw [a]

section
variable {obj : Nat} {s : State} {o : Obj} (ho : findObj s obj = some o) (live : o.deleted = false)
include ho live

/-- New pages of an object whose tenant has its key are valid and leave the reservation. -/
theorem countPages_new {e : Ext} (keyed : (findTen s o.tenant).any (fun t => t.key.isNone) = false) (room : e.pages ≤ o.reserved) (row : Nat) :
    countPages e obj (.row row) s = (e.pages, onObj obj (programmedNew e) s) := by
  unfold countPages
  rw [ho]
  dsimp only
  rw [if_neg (by simp [live, keyed]), if_pos (.inr room)]
  rfl

/-- An extent moved changes where the object lies, and what it left may be retired. -/
theorem moveExtent_moves (e : Ext) : ReportFrame s (moveExtent e obj s) ∧ ∃ k, findObj (moveExtent e obj s) obj = some k ∧ Relocated o k := by
  have still : ReportFrame s s ∧ ∃ k, findObj s obj = some k ∧ Relocated o k := ⟨rfl, o, ho, rfl⟩
  unfold moveExtent
  extract_lets lies
  split
  · exact still
  · next g k _ =>
    extract_lets put s1 g1
    have moved : findObj (onObj obj (withExts put) s) obj = some (withExts put o) := findObj_onObj ho fun _ => rfl
    have placed : Relocated o (withExts put o) := rfl
    have after : ∀ t, Reports s1 t → ReportFrame s t ∧ ∃ k, findObj t obj = some k ∧ Relocated o k := fun t rest => by
      obtain ⟨frame, objs⟩ := (journal_reports _ _ _).trans rest
      obtain ⟨k, hk, trimmed⟩ := objs.found obj _ moved live
      exact ⟨frame, k, hk, placed.trans trimmed.relocated⟩
    split
    · exact after _ (retireGroup_reports _ _)
    · exact after _ (setGroup_reports _ _)

/-- Copied pages (log entry 43) change where the object lies, and not its count. -/
theorem countPages_copied {e : Ext} (more : o.reserved < e.pages) (row : Nat) :
    ReportFrame s (countPages e obj (.row row) s).2 ∧ ∃ k, findObj (countPages e obj (.row row) s).2 obj = some k ∧ Relocated o k := by
  unfold countPages
  rw [ho]
  dsimp only
  split
  · exact ⟨rfl, o, ho, rfl⟩
  · rw [if_neg (by simp [more])]
    exact moveExtent_moves ho live e

end

/-! ### What a programme leaves -/

theorem StoreOnly.rest {s t : State} (a : StoreOnly s t) : t.sess = s.sess ∧ t.tens = s.tens ∧ t.sched = s.sched := by
  rw [a]
  exact ⟨rfl, rfl, rfl⟩

/-- A group opened and put in place: an object found before is found after. -/
theorem opened_frame {object : Nat} {s : State} {o : Obj} (ho : findObj s object = some o) (live : o.deleted = false) (g : Group) (slc : Bool) :
    StoreOnly s (setGroup (openGroup g slc s).1 (openGroup g slc s).2) ∧
      ∃ k, findObj (setGroup (openGroup g slc s).1 (openGroup g slc s).2) object = some k ∧ Retrimmed o k := by
  obtain ⟨only, objs⟩ := openGroup_frame g slc s
  have put : StoreOnly (openGroup g slc s).2 (setGroup (openGroup g slc s).1 (openGroup g slc s).2) := rfl
  exact ⟨only.trans put, objs.found object o ho live⟩

/-- An object found once its pages are counted is found when the programme ends. -/
theorem findObj_written {object : Nat} {s : State} {o : Obj} (ho : findObj s object = some o) (live : o.deleted = false) (ns hub group pages seq : Nat)
    (g : Group) : ∃ k, findObj (tend ns (putWritten hub group seq g (countWritten hub pages s))) object = some k ∧ Retrimmed o k := by
  obtain ⟨k, hk, trimmed⟩ := (putWritten_frame hub group seq g (countWritten hub pages s)).2.found object o ho live
  refine ⟨k, ?_, trimmed⟩
  unfold findObj
  rw [(tend_frame ns _).2]
  exact hk

theorem written_storeOnly (ns hub group pages seq : Nat) (g : Group) (s : State) :
    StoreOnly s (tend ns (putWritten hub group seq g (countWritten hub pages s))) := by
  have counted : StoreOnly s (countWritten hub pages s) := rfl
  exact (counted.trans (putWritten_frame hub group seq g _).1).trans (tend_frame ns _).1

/-- The entry of a group written, when the programme ends. -/
theorem groupOf_written {hub num : Nat} {g : Group} (named : g.hub = hub ∧ g.num = num) (n ns group seq : Nat) (s : State) :
    MaybeCopied (closedIfFull seq g) (groupOf (tend n (putWritten hub group seq g s)) hub num ns) := by
  obtain ⟨rfl, rfl⟩ := named
  have found := groupOf_tend n ns (putWritten_sole g.hub group seq g s)
  rw [closedIfFull_frame] at found ⊢
  exact found

/-- New pages programmed: the object's own, out of its reservation, in the group they were written into. -/
theorem exec_programme_new {hub group object pages row : Nat} {s : State} {o : Obj} (ho : findObj s object = some o) (live : o.deleted = false)
    (room : pages ≤ o.reserved) (keyed : (findTen s o.tenant).any (fun t => t.key.isNone) = false)
    (goes : (groupOf s hub group o.ns).state ≠ .free ∨ writesWait s o.ns = false) :
    ∃ t o' seq tags, exec (.nandProgramComplete hub group object pages (.row row) true) s = .next t ∧ findObj t object = some o' ∧
      o'.pages = o.pages + pages ∧ o'.reserved = o.reserved - pages ∧ StoreOnly s t ∧
      MaybeCopied (closedIfFull seq (wroteInto (openGroup (groupOf s hub group o.ns) true s).1 pages pages tags)) (groupOf t hub group o.ns) := by
  have new : (!decide (o.reserved < pages)) = true := by simpa using room
  obtain ⟨e, rfl, run⟩ := exec_programme_done (pages := pages) ho (.inr goes) row rfl
  rw [new] at run
  obtain ⟨opened, k, hk, trimmed⟩ := opened_frame ho live (groupOf s hub group o.ns) true
  have same : k.tenant = o.tenant ∧ k.pages = o.pages ∧ k.reserved = o.reserved := by
    rw [trimmed]
    exact ⟨rfl, rfl, rfl⟩
  obtain ⟨tenant, pages, reserved⟩ := same
  have named := openGroup_named (groupOf s hub group o.ns) true s
  have entry := groupOf_named (s := s) (hub := hub) (num := group) (ns := o.ns) rfl
  generalize openGroup (groupOf s hub group o.ns) true s = r at *
  obtain ⟨-, tens, -⟩ := opened.rest
  have keyed' : (findTen (setGroup r.1 r.2) k.tenant).any (fun t => t.key.isNone) = false := by
    unfold findTen at *
    rw [tens, tenant]
    exact keyed
  have counted := countPages_new hk (trimmed.deleted.trans live) keyed' (reserved ▸ room) row
  obtain ⟨seq, tags, run⟩ := run _ counted
  have put : findObj (onObj object (programmedNew e) (setGroup r.1 r.2)) object = some (programmedNew e k) :=
    findObj_onObj hk fun _ => rfl
  obtain ⟨o', ho', final⟩ := findObj_written put (trimmed.deleted.trans live) o.ns hub group e.pages seq (wroteInto r.1 e.pages e.pages tags)
  have own : (wroteInto r.1 e.pages e.pages tags).hub = hub ∧ (wroteInto r.1 e.pages e.pages tags).num = group :=
    ⟨named.1.trans entry.1, named.2.trans entry.2⟩
  refine ⟨_, o', seq, tags, run, ho', ?_, ?_, ?_, groupOf_written own _ _ _ _ _⟩
  · rw [final, ← pages]
    rfl
  · rw [final, ← reserved]
    rfl
  · have placed : StoreOnly (setGroup r.1 r.2) (onObj object (programmedNew e) (setGroup r.1 r.2)) := rfl
    exact (opened.trans placed).trans (written_storeOnly _ _ _ _ _ _ _)

/-- Pages programmed of an object that has fewer reserved are copies (log entry 43): its count and reservation are as they were. -/
theorem exec_programme_copied {hub group object pages row : Nat} {s : State} {o : Obj} (ho : findObj s object = some o) (live : o.deleted = false)
    (copied : o.reserved < pages) :
    ∃ t o', exec (.nandProgramComplete hub group object pages (.row row) true) s = .next t ∧ findObj t object = some o' ∧
      Relocated o o' ∧ t.sess = s.sess ∧ t.sched = s.sched := by
  obtain ⟨e, rfl, run⟩ := exec_programme_done (hub := hub) (group := group) ho (.inl copied) row rfl
  obtain ⟨opened, k, hk, trimmed⟩ := opened_frame ho live (groupOf s hub group o.ns) (!decide (o.reserved < e.pages))
  generalize openGroup (groupOf s hub group o.ns) (!decide (o.reserved < e.pages)) s = r at *
  have reserved : k.reserved = o.reserved := by rw [trimmed]
  obtain ⟨frame, j, hj, moved⟩ := countPages_copied hk (trimmed.deleted.trans live) (reserved ▸ copied) row
  obtain ⟨seq, tags, run⟩ := run _ rfl
  have deleted := moved.deleted.trans (trimmed.deleted.trans live)
  obtain ⟨o', ho', final⟩ := findObj_written hj deleted o.ns hub group e.pages seq (wroteInto r.1 _ e.pages tags)
  refine ⟨_, o', run, ho', (trimmed.relocated.trans moved).trans final.relocated, ?_⟩
  obtain ⟨sess, -, sched⟩ := opened.rest
  obtain ⟨sess', -, sched'⟩ := frame.rest
  obtain ⟨sess'', -, sched''⟩ := (written_storeOnly o.ns hub group e.pages seq (wroteInto r.1 _ e.pages tags) _).rest
  exact ⟨sess''.trans (sess'.trans sess), sched''.trans (sched'.trans sched)⟩

end Sys2Proof.Machine
end

section
/-! Reads of the store and ingots lost with a page, the journal timer and channels that are fenced (R244, R245, R262, R265 to R267). -/

namespace Sys2Proof.Machine

/-! ### Reads -/

/-- A group's entry after a read that found `found`. -/
def readGroup (b : BoardDesc) (found : NandRead) (g : Group) : Group :=
  { g with reads := g.reads + 1, refresh := g.refresh || found == .weak || decide (b.readLimit < g.reads + 1) }

/-- A read counted for its group of the namespace `ns`. -/
def countRead (hub group ns : Nat) (found : NandRead) (s : State) : State := setGroup (readGroup (board s) found (groupOf s hub group ns)) s

section
variable {hub group object ns : Nat} {s : State} (hn : ((findObj s object).map Obj.ns).getD 0 = ns) (page : NandPage)
include hn

theorem exec_read_decoded {found : NandRead} (good : found = .decoded ∨ found = .weak) :
    exec (.nandReadComplete hub group object page found) s = .next (tend ns (countRead hub group ns found s)) := by
  subst hn
  rcases good with rfl | rfl <;> rfl

theorem exec_read_rebuilt : exec (.nandReadComplete hub group object page .rebuilt) s =
    .next (condemn (readGroup (board s) .rebuilt (groupOf s hub group ns)) (countRead hub group ns .rebuilt s)) := by
  subst hn
  rfl

theorem exec_read_lost : exec (.nandReadComplete hub group object page .lost) s =
    .next (drainAll (pageLost object page (condemn (readGroup (board s) .lost (groupOf s hub group ns)) (countRead hub group ns .lost s)))) := by
  subst hn
  rfl

end

/-- A decoded read counts for its group; a weak one, or one past the limit, flags it. -/
theorem decoded_read_counts {hub group ns : Nat} {s : State} {g : Group} (hg : groupOf s hub group ns = g) (found : NandRead) :
    ∃ copying, groupOf (tend ns (countRead hub group ns found s)) hub group ns = { readGroup (board s) found g with copying := copying } := by
  obtain ⟨rfl, rfl⟩ := groupOf_named hg
  have put : Sole (readGroup (board s) found g) (countRead g.hub g.num ns found s) := by
    unfold countRead
    rw [hg]
    exact setGroup_sole _ s
  exact ⟨_, (groupOf_tend ns ns put).marked⟩

/-! ### A session lost with its ingot -/

/-- A session whose content is released has its entry, options and window left, and no other is touched. -/
theorem releaseContent_turns (st : SState) (h : Nat) (s : State) : Turns h (fun x y => y = emptied st x) s (releaseContent st h s) := by
  unfold releaseContent
  cases hx : findSess s h with
  | none => exact ⟨fun _ _ => rfl, fun x e => by rw [hx] at e; cases e⟩
  | some x =>
    have deleted : (deleteSessObjs x (releasePlaces (placesOf s x) s)).sess = s.sess :=
      (deleteObjs_storeOnly _ _ _).sess.trans (releasePlaces_tiers _ s).sess
    have put := setSess_turns (y := emptied st x) ((findSess_congr deleted h).trans hx) (findSess_handle hx :)
    have emptying := ((put.afterSame deleted).comp (dropQueries_turns h _)).mono (Q := fun x y => y = emptied st x)
      fun a y ⟨_, ⟨ha, hb⟩, _, free⟩ => by rw [free (by rw [hb]; rfl), hb, ha]
    exact emptying.thenSame rfl

/-- A session with no request. -/
def withNoRequest (x : Session) : Session := { x with request := none }

/-- A PARKED session at rest that is lost has its content gone. -/
theorem loseSession_parked {h : Nat} {s : State} {x : Session} (hx : findSess s h = some x) (parked : x.state = .parked) (quiet : x.request = none)
    (idle : x.op = none) (b : Bool) : Turns h (fun x y => y = emptied .lost (withNoRequest x)) s (loseSession b h s) := by
  have act : loseSession b h s = tellDirectory h s.rack.num 8 (anchor 5 h (releaseContent .lost h (onSess h withNoRequest
      (emitOut b x { outcome := .lost, length := x.p, reports := true } s)))) := by
    simp [loseSession, hx, parked, quiet, idle]
    rfl
  have emitted := (emitOut_fnsOnly b x { outcome := .lost, length := x.p, reports := true } s).sess
  have ended := ((onSess_turns h withNoRequest (fun _ => rfl) _).afterSame emitted).comp (releaseContent_turns .lost h _)
  rw [act]
  refine (ended.mono fun x y ⟨_, hz, hy⟩ => ?_).thenSame ((tellDirectory_sess _ _ _ _).trans (anchor_frame 5 h _).1)
  rw [hy, hz]

/-- A lost head of an ingot costs the session parked in it its content. -/
theorem pageLost_head {object : Nat} {s : State} {o : Obj} {x : Session} (ho : findObj s object = some o) (live : o.deleted = false)
    (hx : findSess s o.handle = some x) (parked : x.state = .parked) : pageLost object .head s = loseSession false o.handle s := by
  have needed : (needsIngot x && !o.deleted) = true := by simp [needsIngot, parked, live]
  unfold pageLost
  rw [ho]
  dsimp only
  rw [hx]
  exact (if_pos needed).trans (by rw [findSess_handle hx])

/-! ### The journal timer -/

theorem exec_journal_timer (hub : Nat) (s : State) : exec (.journalFlushTimer hub) s = .next (flushJournal hub s) := rfl

/-- A flush changes the journal of its hub alone. -/
theorem flushJournal_others {hub k : Nat} (other : k ≠ hub) (s : State) : (flushJournal hub s).store.hubs[k]? = s.store.hubs[k]? := by
  show (s.store.hubs.modify hub _)[k]? = _
  exact List.getElem?_modify_ne _ _ other.symm

/-- A hub's journal with every record made so far durable, in one page where there is one. -/
def flushedHub (x : HubStore) : HubStore :=
  if x.unflushed.isEmpty then x
  else
    let n := x.flushedPages + 1
    { x with flushed := x.flushed ++ x.unflushed, unflushed := [], flushedPages := n, page := x.unflushed.flatMap recordBytes
             seq := x.seq + 1, base := if n % basePages = 0 then n else x.base }

theorem flushJournal_here {hub : Nat} {s : State} {x : HubStore} (hx : s.store.hubs[hub]? = some x) :
    (flushJournal hub s).store.hubs[hub]? = some (flushedHub x) := by
  show (s.store.hubs.modify hub _)[hub]? = _
  rw [List.getElem?_modify_eq, hx]
  rfl

theorem flushedHub_durable (x : HubStore) : (flushedHub x).unflushed = [] ∧ (flushedHub x).flushed = x.flushed ++ x.unflushed ∧
    (flushedHub x).flushedPages = x.flushedPages + (if x.unflushed = [] then 0 else 1) ∧
    (flushedHub x).seq = x.seq + (if x.unflushed = [] then 0 else 1) := by
  by_cases empty : x.unflushed = [] <;> simp [flushedHub, empty]

/-! ### Channels -/

/-- A bit taken out of a mask in which it is set. -/
theorem testBit_sub_two_pow {n i : Nat} (held : n.testBit i = true) (k : Nat) : (n - 2 ^ i).testBit k = (n.testBit k && decide (k ≠ i)) := by
  obtain ⟨m, rfl⟩ := Nat.exists_eq_add_of_le (Nat.ge_two_pow_of_testBit held)
  have clear : m.testBit i = false := by simpa [Nat.testBit_two_pow_add_eq] using held
  rw [Nat.add_sub_cancel_left]
  rcases Nat.lt_trichotomy k i with low | rfl | high
  · simp [Nat.testBit_two_pow_add_gt low, low.ne]
  · simp [clear]
  · obtain ⟨j, rfl⟩ := Nat.exists_eq_add_of_lt high
    have even : m / 2 ^ i % 2 = 0 := by simpa [Nat.testBit_eq_decide_div_mod_eq] using clear
    have above : (2 ^ i + m) / 2 ^ (i + 1) = m / 2 ^ (i + 1) := by
      rw [pow_succ, ← Nat.div_div_eq_div_mul, ← Nat.div_div_eq_div_mul, Nat.add_div_left _ (Nat.two_pow_pos i)]
      omega
    have shifted : ∀ a : Nat, a.testBit (i + j + 1) = (a / 2 ^ (i + 1)).testBit j := fun a => by
      rw [Nat.testBit_div_two_pow, add_comm j, add_right_comm]
    rw [shifted, shifted, above, decide_eq_true (by omega), Bool.and_true]

/-- A namespace with the share of one usable channel in `c` less. -/
def lessChannel (c : Nat) (n : Ns) : Ns :=
  { n with capacity := n.capacity * (c - 1) / c, groups := n.groups * (c - 1) / c, total := n.total * (c - 1) / c, spares := n.spares * (c - 1) / c }

/-- A channel fenced, with the capacity less in proportion. -/
def fenceChannel (channel : Nat) (s : State) : State :=
  { s with store := { s.store with channels := s.store.channels - 2 ^ channel, nss := s.store.nss.map (lessChannel (usableChannels s).length) } }

theorem exec_channel_passed (channel : Nat) (s : State) : exec (.channelRetrainTimer channel true) s = .next s := rfl

theorem exec_channel_failed {channel : Nat} {s : State} (usable : s.store.channels.testBit channel = true) :
    exec (.channelRetrainTimer channel false) s = .next (healthSignal (6 + channel / 32) channel (fenceChannel channel s)) := by
  show execChannelRetrainTimer channel false s = _
  exact if_neg (by simp [bitAt, usable])

/-- Settles O42: each NAND event is a change of its group's one entry and of its object, which the journal and the tending of the namespace leave as they
are but for a trim and the mark of a copy. -/
theorem nandEventsKeepTheStore : Obligations.NandEventsKeepTheStore := by
  unfold Obligations.NandEventsKeepTheStore
  refine ⟨exec_programme_journal, ?new, fun _ _ _ _ row _ _ ho room free waits => exec_programme_waits ho room free waits row, ?copied, ?failed,
    fun g s live => ⟨fun empty => ?emptied, fun holds spares writable => ?spared, fun holds worn listed => ?worn, ?kept⟩,
    ?erase, fun hub group object ns page s g hn hg => ⟨fun found good => ?decoded, ?rebuilt, ?lost⟩, fun hub s x hx => ?journal,
    fun channel s => ⟨exec_channel_passed channel s, fun usable => ?channel⟩⟩
  case new =>
    intro hub group object pages row s o g ho live room keyed hg goes
    have starts : (groupOf s hub group o.ns).state ≠ .free ∨ writesWait s o.ns = false := by
      rw [hg]
      exact goes.imp (fun opened => by rw [opened]; decide) fun free => free.2
    obtain ⟨t, o', seq, tags, run, ho', counted, reserved, only, entry⟩ := exec_programme_new (row := row) ho live room keyed starts
    rw [hg, closedIfFull_frame] at entry
    refine ⟨t, o', _, run, ho', counted, reserved, rfl, fun opened => ?_, fun free => ?_, only⟩
    · rw [openGroup_held (by rw [opened]; decide)] at entry
      rw [entry.marked, ← opened]
      exact ⟨rfl, rfl, rfl⟩
    · rw [openGroup_free free] at entry
      rw [entry.marked]
      exact ⟨Nat.zero_add pages, Nat.zero_add pages, rfl⟩
  case copied =>
    intro hub group object pages row s o ho live copied
    obtain ⟨t, o', run, ho', moved, sess, sched⟩ := exec_programme_copied (hub := hub) (group := group) (row := row) ho live copied
    refine ⟨t, o', run, ho', ?_, ?_, sess, sched⟩ <;> rw [moved]
  case failed =>
    rintro hub group object pages row ns s rfl
    exact exec_programme_failed hub group object pages row s
  case emptied =>
    rw [condemn_empty empty]
    exact groupOf_retireGroup live s g.ns
  case spared =>
    rw [condemn_spared live holds spares writable]
    exact (setGroup_sole { g with state := .closed, bad := true, copying := true } s).groupOf g.ns
  case worn =>
    rw [condemn_worn live holds worn]
    exact nsOf_enterReadOnly (s := setGroup g s) listed g.hub
  case kept =>
    obtain ⟨frame, objs⟩ := condemn_reports g s
    obtain ⟨sess, -, sched⟩ := frame.rest
    exact ⟨sess, sched, objs.stays⟩
  case erase =>
    intro hub group ok s g listed
    obtain ⟨rfl, rfl⟩ : g.hub = hub ∧ g.num = group := by simpa using List.find?_some listed
    refine ⟨fun left => exec_erase_left listed left ok, fun shut empty writable => ?_⟩
    have live : g.state ≠ .retired := by rw [shut]; decide
    cases ok with
    | false =>
      exact ⟨_, exec_erase_failed listed shut empty writable, nofun, fun _ =>
        ⟨groupOf_retireGroup live s g.ns, (retireGroup_reports g s).frame.rest.1⟩⟩
    | true =>
      rw [exec_erase_done listed shut empty writable]
      split
      · next worn =>
        refine ⟨_, rfl, fun _ fresh sound => ?_, fun _ => ⟨groupOf_retireGroup (g := erasedGroup g) nofun _ g.ns, ?_⟩⟩
        · exact absurd worn (by simp [fresh, sound])
        · exact ((recordErase_reports g s).trans (retireGroup_reports _ _)).frame.rest.1
      · next sound =>
        refine ⟨_, rfl, fun _ _ _ => ⟨groupOf_erased g _ g.ns, ?_⟩, fun worn => absurd (worn.resolve_left nofun) sound⟩
        have recorded : StoreOnly s (recordErase g s) := (flushJournal_storeOnly _ s).trans (journal_storeOnly _ _ _)
        have put : StoreOnly (recordErase g s) (setGroup (erasedGroup g) (recordErase g s)) := rfl
        exact (recorded.trans put).trans (tend_frame _ _).1
  case decoded =>
    obtain ⟨copying, counted⟩ := decoded_read_counts hg found
    refine ⟨_, exec_read_decoded hn page good, ?_⟩
    rw [counted]
    refine ⟨rfl, rfl, fun flagged => ?_, ?_⟩
    · rcases flagged with rfl | much
      · simp [readGroup]
      · simp [readGroup, much]
    · have put : StoreOnly s (countRead hub group ns found s) := rfl
      exact put.trans (tend_frame _ _).1
  case rebuilt =>
    subst hg
    exact ⟨_, exec_read_rebuilt hn page, rfl⟩
  case lost =>
    rintro o x ho live hx parked quiet idle rfl
    have read : Reports s (countRead hub group ns .lost s) := setGroup_reports _ s
    obtain ⟨frame, objs⟩ := read.trans (condemn_reports (readGroup (board s) .lost (groupOf s hub group ns)) _)
    obtain ⟨sess, -, -⟩ := frame.rest
    obtain ⟨k, hk, trimmed⟩ := objs.found object o ho live
    have handle : k.handle = o.handle := by rw [trimmed]
    have hx' := (findSess_congr sess o.handle).trans hx
    obtain ⟨others, here⟩ := loseSession_parked hx' parked quiet idle false
    obtain ⟨y, hy, rfl⟩ := here x hx'
    refine ⟨_, emptied .lost (withNoRequest x), exec_read_lost hn .head, ?_⟩
    rw [pageLost_head hk (trimmed.deleted.trans live) (handle ▸ hx') parked, handle]
    exact ⟨hy, rfl, rfl, rfl, rfl, fun j hj => (others j hj).trans (findSess_congr sess j)⟩
  case journal =>
    obtain ⟨empty, flushed, pages, seq⟩ := flushedHub_durable x
    exact ⟨_, flushedHub x, exec_journal_timer hub s, flushJournal_here hx, empty, flushed, pages, seq, (flushJournal_kept hub s).stays,
      fun k hk => flushJournal_others hk s, rfl⟩
  case channel =>
    refine ⟨_, exec_channel_failed usable, ?_⟩
    rw [healthSignal_store]
    obtain ⟨sess, tens, -⟩ := (healthSignal_reports (6 + channel / 32) channel (fenceChannel channel s)).frame.rest
    refine ⟨?_, fun k hk => ?_, ?_, sess, tens, rfl, rfl⟩
    · exact (testBit_sub_two_pow usable channel).trans (by simp)
    · exact (testBit_sub_two_pow usable k).trans (by simp [hk])
    · rw [healthSignal_frame]
      rfl

end Sys2Proof.Machine
end

section
/-! What passes a filter and which edges a search follows (R308, R315). -/

namespace Sys2Proof.Machine

/-- A mask holds every bit of another exactly when their common bits are that other. -/
theorem land_eq_right_iff {a b : Nat} : a &&& b = b ↔ ∀ i, b.testBit i = true → a.testBit i = true := by
  rw [Nat.eq_iff_testBit_eq]
  refine forall_congr' fun i => ?_
  rw [Nat.testBit_and]
  cases a.testBit i <;> simp

/-- Two masks have no common bit exactly when every bit of the one is clear in the other. -/
theorem land_eq_zero_iff {a b : Nat} : a &&& b = 0 ↔ ∀ i, b.testBit i = true → a.testBit i = false := by
  rw [Nat.eq_iff_testBit_eq]
  refine forall_congr' fun i => ?_
  rw [Nat.testBit_and, Nat.zero_testBit]
  cases a.testBit i <;> simp

theorem passes_iff (tags require exclude : Nat) : passes tags require exclude = true ↔
    (∀ i, require.testBit i = true → tags.testBit i = true) ∧ ∀ i, exclude.testBit i = true → tags.testBit i = false := by
  unfold passes
  rw [Bool.and_eq_true, beq_iff_eq, beq_iff_eq, land_eq_right_iff, land_eq_zero_iff]

theorem follow?_iff (sh : Shard) (e : Nat × Nat) (n : Node) : follow? sh e = some n ↔
    nodeOf sh e.1 = some n ∧ (n.state = .linking ∨ n.state = .live ∨ n.state = .tombstone) ∧ n.gen = e.2 := by
  unfold follow?
  cases nodeOf sh e.1 with
  | none => simp
  | some x =>
    simp only [Option.ite_none_right_eq_some, Bool.and_eq_true, Bool.or_eq_true, beq_iff_eq, or_assoc, Option.some.injEq]
    constructor
    · rintro ⟨followed, rfl⟩
      exact ⟨rfl, followed⟩
    · rintro ⟨rfl, followed⟩
      exact ⟨followed, rfl⟩

/-- Settles O44: both tests are read off their definitions, the masks bit by bit. -/
theorem filtersAndEdgesOfASearch : Obligations.FiltersAndEdgesOfASearch := by
  unfold Obligations.FiltersAndEdgesOfASearch
  exact ⟨passes_iff, fun tags => (passes_iff tags 0 0).mpr (by simp), follow?_iff⟩

end Sys2Proof.Machine
end

section
/-! How a host's search ends: what it found is written and answered, or its late or failed read is (R318, R319, R325 to R328). -/

namespace Sys2Proof.Machine

/-! ### Queries found -/

theorem findQuery_num {s : State} {n : Nat} {q : Query} (hq : findQuery s n = some q) : q.num = n := (findKey_some hq).1

/-- A query put in the place of the one of its number is found there. -/
theorem findQuery_onQuery {s : State} {n : Nat} {q r : Query} (hq : findQuery s n = some q) (hr : r.num = n) :
    findQuery (onQuery n (fun _ => r) s) n = some r := by
  have put := findKey_updKey Query.num n n (fun _ => r) (fun _ _ => hr) s.rcl.queries
  rw [if_pos rfl] at put
  exact put.trans (congrArg (Option.map _) hq)

/-- A freed context brings no query that was not there. -/
theorem findQuery_promote_none {s : State} {n : Nat} (gone : findQuery s n = none) (hub : Nat) : findQuery (promote hub s) n = none := by
  unfold promote
  split
  · split
    · exact gone
    · next q _ =>
      refine (findKey_map (fun x => ?_) n s.rcl.queries).trans (congrArg (Option.map _) gone)
      split <;> rfl
  · exact gone

/-- A query dropped is found no more. -/
theorem findQuery_dropQuery (q : Query) (s : State) : findQuery (dropQuery q s) q.num = none := by
  have erased : findKey Query.num q.num (eraseKey Query.num q.num s.rcl.queries) = none := (findKey_eraseKey ..).trans (if_pos rfl)
  exact findQuery_promote_none (s := { s with rcl := { s.rcl with queries := _, shards := _ } }) erased q.hub

/-- `t` differs from `s` in its recall engines alone, and the results written are the same. -/
def EnginesOnly (s t : State) : Prop := t = { s with rcl := { t.rcl with results := s.rcl.results } }

theorem promote_enginesOnly (hub : Nat) (s : State) : EnginesOnly s (promote hub s) := by
  unfold promote
  split
  · split <;> rfl
  · rfl

theorem dropQuery_enginesOnly (q : Query) (s : State) : EnginesOnly s (dropQuery q s) := by
  have dropped := promote_enginesOnly q.hub { s with rcl := { s.rcl with
    queries := s.rcl.queries.filter fun x => x.num != q.num
    shards := s.rcl.shards.map (releaseSlabs (s.rcl.queries.filter fun x => x.num != q.num)) } }
  exact dropped

theorem EnginesOnly.fnOf {s t : State} (a : EnginesOnly s t) (fn : Nat) : Machine.fnOf t fn = Machine.fnOf s fn := by rw [a]; rfl

theorem EnginesOnly.results {s t : State} (a : EnginesOnly s t) : t.rcl.results = s.rcl.results := by rw [a]

/-! ### Host messages answered -/

/-- From `s` to `t` one record with outcome `o` is put for the function that sent the message of `a`. -/
def Answers (a : Ask) (o : OCode) (s t : State) : Prop :=
  ∃ w r, (fnOf t a.fn).waiting = (fnOf s a.fn).waiting ++ [w] ∧ w.body = .out r 0 ∧ r.opcode = a.opcode ∧ r.seq = a.seq ∧ r.outcome = o

/-- `t` differs from `s` in its recall engines, its functions and its sessions alone. -/
def RecallFrame (s t : State) : Prop := t = { s with rcl := t.rcl, fns := t.fns, sess := t.sess }

theorem RecallFrame.trans {s t u : State} (a : RecallFrame s t) (b : RecallFrame t u) : RecallFrame s u := by
  unfold RecallFrame at *
  rw [b, a]

theorem EnginesOnly.frame {s t : State} (a : EnginesOnly s t) : RecallFrame s t := by
  unfold RecallFrame
  rw [a]

theorem settle_recallFrame (w : WinRef) (seq : Nat) (o : OCode) (s : State) : RecallFrame s (settle w seq o s) := by cases w <;> rfl

theorem settle_rcl (w : WinRef) (seq : Nat) (o : OCode) (s : State) : (settle w seq o s).rcl = s.rcl := by cases w <;> rfl

/-- What settles a message in its window leaves the records that wait. -/
theorem settle_waiting (w : WinRef) (seq : Nat) (o : OCode) (s : State) (fn : Nat) : (fnOf (settle w seq o s) fn).waiting = (fnOf s fn).waiting := by
  have turned : WindowSet (fnOf s fn) (fnOf (settle w seq o s) fn) := onWindow_turn w _ s fn
  rw [turned]

theorem answerFn_waiting (fn : Nat) (r : OutRec) (s : State) :
    (fnOf (answerFn fn r s) fn).waiting = (fnOf s fn).waiting ++ [{ body := .out r 0 }] := by
  unfold answerFn answerAt
  rw [fnOf_onFn_self]

/-! ### Queries ended -/

/-- The outcome of a search that ended well: PARTIAL when it found fewer than asked for. -/
def searchOutcome (q : Query) : OCode := if (ranked q).length < q.k then .partialRes else .done

/-- A query's results as they are written from `address` on. -/
def resultLines (q : Query) (address : Nat) : List ResultLine := (ranked q).mapIdx fun i r =>
  { query := q.num, address := address + 24 * i, key := r.2.1, tags := r.2.2.1, distance := r.1, shard := r.2.2.2 }

/-- How a host's query ends: its context free, `lines` written, and outcome `o` answered. -/
structure QueryEnded (q : Query) (a : Ask) (o : OCode) (lines : List ResultLine) (s t : State) : Prop where
  gone : findQuery t q.num = none
  written : t.rcl.results = s.rcl.results ++ lines
  answered : Answers a o s t
  frame : RecallFrame s t

/-- A query dropped, with its results written. -/
def dropWriting (q : Query) (lines : List ResultLine) (s : State) : State :=
  { dropQuery q s with rcl := { (dropQuery q s).rcl with results := (dropQuery q s).rcl.results ++ lines } }

theorem dropWriting_nil (q : Query) (s : State) : dropWriting q [] s = dropQuery q s := by
  unfold dropWriting
  rw [List.append_nil]

/-- The record that answers a host's query. -/
def queryAnswer (a : Ask) (tenant tag : Nat) (o : OCode) (d0 d1 : Nat) : OutRec :=
  { tenant := tenant, seq := a.seq, outcome := o, opcode := a.opcode, d0 := d0, d1 := d1, clientTag := tag, answers := true, win := some a.win }

/-- A query ends once it is dropped, its results are written and its message is settled and answered. -/
theorem queryEnded_answerFn (q : Query) (a : Ask) (tenant tag : Nat) (o : OCode) (d0 d1 : Nat) (lines : List ResultLine) (s : State) :
    QueryEnded q a o lines s (answerFn a.fn (queryAnswer a tenant tag o d0 d1) (settle a.win a.seq o (dropWriting q lines s))) := by
  have dropped := dropQuery_enginesOnly q s
  have engines := settle_rcl a.win a.seq o (dropWriting q lines s)
  refine ⟨?_, ?_, ⟨{ body := .out (queryAnswer a tenant tag o d0 d1) 0 }, _, ?_, rfl, rfl, rfl, rfl⟩, ?_⟩
  · unfold findQuery
    rw [show (answerFn a.fn _ _).rcl = _ from engines]
    exact findQuery_dropQuery q s
  · rw [show (answerFn a.fn _ _).rcl = _ from engines, ← dropped.results]
    rfl
  · rw [answerFn_waiting, settle_waiting]
    exact congrArg (Fn.waiting · ++ _) (dropped.fnOf a.fn)
  · have written : RecallFrame (dropQuery q s) (dropWriting q lines s) := rfl
    have answered : RecallFrame (settle a.win a.seq o (dropWriting q lines s))
        (answerFn a.fn (queryAnswer a tenant tag o d0 d1) (settle a.win a.seq o (dropWriting q lines s))) := rfl
    exact ((dropped.frame.trans written).trans (settle_recallFrame ..)).trans answered

section
variable {q : Query} {a : Ask} {tenant tag address : Nat} (asked : q.asker = .message a tenant tag address) (search : q.op = 0x0A)
include asked search

/-- A host's search that ended well answers with what it found. -/
theorem finishQuery_found (s : State) : QueryEnded q a (searchOutcome q) (resultLines q address) s (finishQuery q .done 0 s) := by
  unfold finishQuery searchOutcome
  rw [asked, search]
  by_cases few : (ranked q).length < q.k <;>
  · simp only [few]
    exact queryEnded_answerFn q a tenant tag _ _ _ _ s

/-- A host's search that did not end well answers its outcome, and no result is written. -/
theorem finishQuery_unread {o : OCode} (unread : o ≠ .done) (s : State) : QueryEnded q a o [] s (finishQuery q o 0 s) := by
  unfold finishQuery
  rw [asked, search]
  have bad : (o == .done) = false := by simpa using unread
  simp only [bad, Bool.false_and, Bool.false_eq_true, if_false]
  rw [← dropWriting_nil q s]
  exact queryEnded_answerFn q a tenant tag o _ _ [] s

end

/-! ### Searches that were read, or were not -/

theorem QueryEnded.afterOnQuery {q : Query} {a : Ask} {o : OCode} {lines : List ResultLine} {n : Nat} {f : Query → Query} {s t : State}
    (ended : QueryEnded q a o lines (onQuery n f s) t) : QueryEnded q a o lines s t where
  gone := ended.gone
  written := ended.written
  answered := ended.answered
  frame := RecallFrame.trans (t := onQuery n f s) rfl ended.frame

/-- The outcome of a search that every shard has answered: a failed shard before a late one (R328). -/
def heardOutcome (q : Query) : OCode := if q.failed then .tierFault else if q.late then .tierLate else .done

/-- A search with what its shards of this package found. -/
def heardHere (s : State) (q : Query) : Query := { localDone s q with found := q.found ++ localFound s q }

/-- A search with a read of this package's shards late, or failed. -/
def unreadHere (s : State) (late : Bool) (q : Query) : Query :=
  if late then { localDone s q with late := true } else { localDone s q with failed := true }

/-- A search whose shards are all of this package waits for none once they are done. -/
theorem localDone_left {s : State} {q : Query} (here : ∀ n ∈ q.left, (findShard s q.index n).isSome = true) : (localDone s q).left = [] := by
  refine List.filter_eq_nil_iff.mpr fun n hn => ?_
  simpa [Option.isSome_iff_ne_none] using here n hn

section
variable {s : State} {n : Nat} {q : Query} (hq : findQuery s n = some q)
include hq

/-- A search that waits for no shard is ended. -/
theorem concludeQuery_ends {r : Query} (number : r.num = n) (heard : r.left = []) : concludeQuery n (onQuery n (fun _ => r) s) =
    finishQuery r (heardOutcome r) 0 (onQuery n (fun _ => r) s) := by
  unfold concludeQuery
  rw [findQuery_onQuery hq number]
  exact if_pos (by simp [heard])

/-- A search that waits for a shard goes on waiting. -/
theorem concludeQuery_waits {r : Query} (number : r.num = n) (waits : r.left ≠ []) :
    concludeQuery n (onQuery n (fun _ => r) s) = onQuery n (fun _ => r) s := by
  unfold concludeQuery
  rw [findQuery_onQuery hq number]
  exact if_neg (by simp [waits])

theorem exec_query_complete (search : q.op = 0x0A) (placed : q.queued = false) (whole : q.failed = false) (timely : q.late = false) :
    exec (.recallQueryComplete n) s = .next (concludeQuery n (onQuery n (fun _ => heardHere s q) s)) := by
  show execRecallQueryComplete n s = _
  unfold execRecallQueryComplete
  rw [hq]
  exact if_neg (by simp [search, placed, whole, timely])

theorem readEnded_search (search : q.op = 0x0A) (late : Bool) :
    readEnded n late s = concludeQuery n (onQuery n (fun _ => unreadHere s late q) s) := by
  unfold readEnded
  rw [hq]
  exact if_neg (by simp [search])

/-- A search with shards elsewhere keeps what was found here and waits for the others (R328). -/
theorem exec_query_complete_waits (search : q.op = 0x0A) (placed : q.queued = false) (whole : q.failed = false) (timely : q.late = false)
    (away : ∃ k ∈ q.left, findShard s q.index k = none) :
    exec (.recallQueryComplete n) s = .next (onQuery n (fun _ => heardHere s q) s) := by
  have waits : (heardHere s q).left ≠ [] := by
    obtain ⟨k, hk, lacking⟩ := away
    exact List.ne_nil_of_mem (List.mem_filter.mpr ⟨hk, by simp [lacking]⟩)
  rw [exec_query_complete hq search placed whole timely, concludeQuery_waits hq (r := heardHere s q) (findQuery_num hq :) waits]

section
variable {a : Ask} {tenant tag address : Nat} (search : q.op = 0x0A) (whole : q.failed = false)
  (asked : q.asker = .message a tenant tag address) (here : ∀ k ∈ q.left, (findShard s q.index k).isSome = true)
include search whole asked here

/-- A host's search of this package's shards answers with what they found (R318, R319). -/
theorem exec_query_complete_ends (placed : q.queued = false) (timely : q.late = false) : ∃ t, exec (.recallQueryComplete n) s = .next t ∧
    QueryEnded q a (searchOutcome (heardHere s q)) (resultLines (heardHere s q) address) s t := by
  refine ⟨_, exec_query_complete hq search placed whole timely, ?_⟩
  have good : heardOutcome (heardHere s q) = .done := by simp [heardOutcome, heardHere, localDone, whole, timely]
  rw [concludeQuery_ends hq (r := heardHere s q) (findQuery_num hq :) (localDone_left here), good]
  have ended := finishQuery_found (q := heardHere s q) asked search (onQuery n (fun _ => heardHere s q) s)
  exact { ended.afterOnQuery with }

/-- A host's search of this package's shards whose read was late or failed answers so, with no result (R325). -/
theorem readEnded_ends (late : Bool) : QueryEnded q a (if late then .tierLate else .tierFault) [] s (readEnded n late s) := by
  have heard : (unreadHere s late q).left = [] := by cases late <;> exact localDone_left here
  have same : (unreadHere s late q).num = q.num ∧ (unreadHere s late q).asker = q.asker ∧ (unreadHere s late q).op = q.op := by
    cases late <;> exact ⟨rfl, rfl, rfl⟩
  obtain ⟨number, asker, op⟩ := same
  have bad : heardOutcome (unreadHere s late q) = if late then .tierLate else .tierFault := by
    cases late
    · rfl
    · simp [heardOutcome, unreadHere, localDone, whole]
  have unread : (if late then OCode.tierLate else .tierFault) ≠ .done := by cases late <;> decide
  rw [readEnded_search hq search, concludeQuery_ends hq (number.trans (findQuery_num hq)) heard, bad]
  have ended := (finishQuery_unread (asker.trans asked) (op.trans search) unread (onQuery n (fun _ => unreadHere s late q) s)).afterOnQuery
  exact ⟨number ▸ ended.gone, ended.written, ended.answered, ended.frame⟩

end

end

end Sys2Proof.Machine
end

section
/-! What the slabs, blocks and nodes of a shard become when an insertion goes live, a repair pass ends or the shard is deleted (R311, R314, R317,
R322, R324). -/

namespace Sys2Proof.Machine

/-! ### Shards found -/

/-- A shard changed under its names is found changed. -/
theorem findShard_onShard {index shard : Nat} {s : State} {sh : Shard} (hs : findShard s index shard = some sh) {f : Shard → Shard}
    (hf : ∀ h, (f h).item = h.item) : findShard (onShard index shard f s) index shard = some (f sh) := by
  have named : sh.item.index = index ∧ sh.item.shardNumber = shard := by simpa using List.find?_some hs
  have same : (fun h : Shard => h.item.index == index && h.item.shardNumber == shard) ∘
      (fun h => if h.item.index = index ∧ h.item.shardNumber = shard then f h else h) =
        fun h => h.item.index == index && h.item.shardNumber == shard := by
    funext h
    dsimp only [Function.comp_apply]
    split
    · rw [hf]
    · rfl
  refine (List.find?_map ..).trans ?_
  rw [same]
  refine (congrArg (Option.map _) hs).trans ?_
  exact congrArg some (if_pos named)

/-- A shard without its slabs: what a seat given to a slab leaves. -/
def unslabbed (h : Shard) : Shard := { h with slabs := [] }

/-- Where the shards are the same but for their slabs, so is the one found. -/
theorem findShard_unslabbed {s t : State} (same : t.rcl.shards.map unslabbed = s.rcl.shards.map unslabbed) (index shard : Nat) :
    (findShard t index shard).map unslabbed = (findShard s index shard).map unslabbed := by
  have found := congrArg (List.find? fun h : Shard => h.item.index == index && h.item.shardNumber == shard) same
  rwa [List.find?_map, List.find?_map] at found

/-! ### Slabs seated -/

/-- `t` differs from `s` in its tiers and the free values drawn alone. -/
def SpaceOnly (s t : State) : Prop := t = { s with tiers := t.tiers, free := t.free }

theorem SpaceOnly.refl (s : State) : SpaceOnly s s := rfl

theorem SpaceOnly.trans {s t u : State} (a : SpaceOnly s t) (b : SpaceOnly t u) : SpaceOnly s u := by
  unfold SpaceOnly at *
  rw [b, a]

theorem TiersOnly.space {s t : State} (a : TiersOnly s t) : SpaceOnly s t := by
  unfold SpaceOnly
  rw [a]

/-- Space given to a slab is taken from the tiers. -/
theorem seatSlab_space (h : Shard) (b : Slab) (s : State) : SpaceOnly s (seatSlab h b s).2 := by
  unfold seatSlab
  split
  · rfl
  · split
    · rfl
    · next ps _ =>
      refine List.foldlRecOn (motive := fun r : List Nat × State => SpaceOnly s r.2) ps _ rfl fun r taken q _ => ?_
      exact taken.trans (takeLower_tiers ..).space

/-- The slabs of a shard seated. -/
def seatAll (h : Shard) (s : State) : List Slab × State :=
  h.slabs.foldl (fun (a : List Slab × State) b => let k := seatSlab h b a.2; (a.1 ++ [k.1], k.2)) (([] : List Slab), s)

theorem seatAll_space (h : Shard) (s : State) : SpaceOnly s (seatAll h s).2 :=
  List.foldlRecOn (motive := fun r : List Slab × State => SpaceOnly s r.2) h.slabs _ rfl fun _ seated b _ => seated.trans (seatSlab_space h b _)

/-- One shard of `all` seated, after those before it. -/
def seatShard (all : List Shard) (acc : List Shard × State) (h : Shard) : List Shard × State :=
  if (placementOf acc.2 3 h.item.partition h.item.tenant h.item.index).residentT1 then (acc.1 ++ [h], acc.2)
  else
    let r := seatAll h acc.2
    (acc.1 ++ [{ h with slabs := r.1 }],
      { r.2 with rcl := { r.2.rcl with shards := acc.1 ++ { h with slabs := r.1 } :: all.drop (acc.1.length + 1) } })

theorem seatSlabs_eq (s : State) : seatSlabs s = (s.rcl.shards.foldl (seatShard s.rcl.shards) ([], s)).2 := rfl

/-- `t` differs from `s` in its shards, its tiers and the free values drawn alone. -/
def ShardFrame (s t : State) : Prop := t = { s with rcl := { s.rcl with shards := t.rcl.shards }, tiers := t.tiers, free := t.free }

theorem ShardFrame.trans {s t u : State} (a : ShardFrame s t) (b : ShardFrame t u) : ShardFrame s u := by
  unfold ShardFrame at *
  rw [b, a]

theorem SpaceOnly.shards {s t : State} (a : SpaceOnly s t) : ShardFrame s t := by
  unfold ShardFrame
  rw [a]

/-- The shards `before` are seated, as `r` tells, and those of the state are the same as at first but for their slabs. -/
structure SeatedSoFar (s : State) (before : List Shard) (r : List Shard × State) : Prop where
  seated : r.1.map unslabbed = before.map unslabbed
  shards : r.2.rcl.shards.map unslabbed = s.rcl.shards.map unslabbed
  frame : ShardFrame s r.2

theorem seatShard_seated {s : State} {before after : List Shard} {h : Shard} {r : List Shard × State} (all : s.rcl.shards = before ++ h :: after)
    (done : SeatedSoFar s before r) : SeatedSoFar s (before ++ [h]) (seatShard s.rcl.shards r h) := by
  obtain ⟨seated, shards, frame⟩ := done
  unfold seatShard
  split
  · exact ⟨by simp [seated], shards, frame⟩
  · extract_lets k
    have length : r.1.length = before.length := by simpa using congrArg List.length seated
    refine ⟨by simp [seated, unslabbed], ?_, ?_⟩
    · have rest : s.rcl.shards.drop (r.1.length + 1) = after := by simp [all, length, List.drop_append]
      show (r.1 ++ { h with slabs := k.1 } :: s.rcl.shards.drop (r.1.length + 1)).map unslabbed = _
      rw [rest, all]
      simp [seated, unslabbed]
    · have space : ShardFrame s k.2 := frame.trans (seatAll_space h r.2).shards
      exact space.trans rfl

/-- Every shard seated in turn. -/
theorem foldl_seatShard {s : State} : ∀ (after before : List Shard) (r : List Shard × State), s.rcl.shards = before ++ after →
    SeatedSoFar s before r → SeatedSoFar s s.rcl.shards (after.foldl (seatShard s.rcl.shards) r)
  | [], before, r, all, done => by
    rw [List.append_nil] at all
    rwa [all]
  | h :: after, before, r, all, done =>
    foldl_seatShard after (before ++ [h]) _ (all.trans (by simp)) (seatShard_seated all done)

/-- Slabs seated: the shards are the same but for their slabs, and nothing else but the tiers and the free values is touched. -/
theorem seatSlabs_seated (s : State) : (seatSlabs s).rcl.shards.map unslabbed = s.rcl.shards.map unslabbed ∧ ShardFrame s (seatSlabs s) := by
  have done := foldl_seatShard (s := s) s.rcl.shards [] ([], s) rfl ⟨rfl, rfl, rfl⟩
  rw [seatSlabs_eq]
  exact ⟨done.shards, done.frame⟩

/-- A shard changed under its names, its slabs then seated, is found so changed but for its slabs. -/
theorem onShard_seated {index shard : Nat} {s : State} {sh : Shard} (hs : findShard s index shard = some sh) {f : Shard → Shard}
    (hf : ∀ h, (f h).item = h.item) : ShardFrame s (seatSlabs (onShard index shard f s)) ∧
      ∃ sh', findShard (seatSlabs (onShard index shard f s)) index shard = some sh' ∧ unslabbed sh' = unslabbed (f sh) := by
  obtain ⟨shards, frame⟩ := seatSlabs_seated (onShard index shard f s)
  have found := findShard_unslabbed shards index shard
  rw [findShard_onShard hs hf] at found
  exact ⟨ShardFrame.trans (t := onShard index shard f s) rfl frame, Option.map_eq_some_iff.mp found⟩

/-! ### Blocks written -/

/-- A node's table entry and what it holds beside its edges: what a block written anew leaves. -/
def nodeContent (x : Node) : Node := { x with edges := [], slab := 0, block := 0 }

/-- A block appended: its node is put in place, and the slabs alone are changed beside. -/
theorem appendBlock_eq (nextQ : Nat) (x : Node) (sh : Shard) : ∃ slab block slabs next,
    appendBlock nextQ x sh = { putNode { x with slab := slab, block := block } sh with slabs := slabs, nextSlab := next } := by
  unfold appendBlock
  dsimp only
  split
  · split <;> exact ⟨_, _, _, _, rfl⟩
  · exact ⟨_, _, _, _, rfl⟩

@[simp] theorem appendBlock_item (nextQ : Nat) (x : Node) (sh : Shard) : (appendBlock nextQ x sh).item = sh.item := by
  obtain ⟨slab, block, slabs, next, e⟩ := appendBlock_eq nextQ x sh
  rw [e]
  rfl

/-- A block appended is its node's, whose content is the one written; every other node is as it was. -/
theorem nodeOf_appendBlock (nextQ : Nat) (x : Node) (sh : Shard) (n : Nat) : (nodeOf (appendBlock nextQ x sh) n).map nodeContent =
    if n = x.num then some (nodeContent x) else (nodeOf sh n).map nodeContent := by
  obtain ⟨slab, block, slabs, next, e⟩ := appendBlock_eq nextQ x sh
  rw [e]
  refine (congrArg (Option.map nodeContent) (findKey_upsert Node.num _ n sh.nodes)).trans ?_
  split <;> rfl

/-- A neighbour's new block leaves the content of every node. -/
theorem nodeOf_linkBack (nextQ : Nat) (x : Node) (sh : Shard) (y : Node) (n : Nat) :
    (nodeOf (linkBack nextQ x sh y) n).map nodeContent = (nodeOf sh n).map nodeContent := by
  unfold linkBack
  split
  · rfl
  · next z hz =>
    rw [nodeOf_appendBlock]
    split
    · next own =>
      have number : z.num = y.num := (findKey_some hz).1
      rw [own, show nodeOf sh z.num = some z from number ▸ hz]
      rfl
    · rfl

@[simp] theorem linkBack_item (nextQ : Nat) (x : Node) (sh : Shard) (y : Node) : (linkBack nextQ x sh y).item = sh.item := by
  unfold linkBack
  split <;> simp

/-- Steps that each leave a shard's item leave it together. -/
theorem foldl_item {α : Type} {f : Shard → α → Shard} (h : ∀ sh x, (f sh x).item = sh.item) (l : List α) (sh : Shard) :
    (l.foldl f sh).item = sh.item :=
  List.foldlRecOn (motive := fun t : Shard => t.item = sh.item) l f rfl fun t same x _ => (h t x).trans same

/-! ### An insertion that goes live -/

@[simp] theorem insertNode_item (nextQ num : Nat) (sh : Shard) : (insertNode nextQ num sh).item = sh.item := by
  unfold insertNode
  split
  · rfl
  · exact (foldl_item (linkBack_item nextQ _) _ _).trans (appendBlock_item ..)

/-- The node of an insertion is live, with the content that it entered with (R322). -/
theorem nodeOf_insertNode {num : Nat} {sh : Shard} {x : Node} (hx : nodeOf sh num = some x) (nextQ : Nat) :
    (nodeOf (insertNode nextQ num sh) num).map nodeContent = some (nodeContent { x with state := .live }) := by
  have number : num = x.num := (findKey_some hx).1.symm
  unfold insertNode
  rw [hx]
  dsimp only
  refine List.foldlRecOn (motive := fun t : Shard => (nodeOf t num).map nodeContent = some (nodeContent { x with state := .live })) _ _ ?_
    fun t live y _ => (nodeOf_linkBack nextQ _ t y num).trans live
  rw [nodeOf_appendBlock]
  exact if_pos number

/-! ### A repair pass that ends -/

theorem mem_upsert {α : Type} {key : α → Nat} {x y : α} {l : List α} (h : y ∈ upsert key x l) : y = x ∨ y ∈ l := by
  unfold upsert updKey at h
  split at h
  · obtain ⟨z, hz, rfl⟩ := List.mem_map.mp h
    split
    · exact .inl rfl
    · exact .inr hz
  · simpa [or_comm] using h

/-- Every node of `dead` is free or retired. -/
def Reclaimed (dead : List Nat) (sh : Shard) : Prop := ∀ n ∈ sh.nodes, n.num ∈ dead → n.state = .free ∨ n.state = .retired

/-- A block of a node that is not of `dead` makes none of these nodes anything else. -/
theorem Reclaimed.appendBlock {dead : List Nat} {sh : Shard} (done : Reclaimed dead sh) {x : Node} (other : x.num ∉ dead) (nextQ : Nat) :
    Reclaimed dead (appendBlock nextQ x sh) := by
  obtain ⟨slab, block, slabs, next, e⟩ := appendBlock_eq nextQ x sh
  rw [e]
  intro n hn gone
  rcases mem_upsert hn with rfl | old
  · exact absurd gone other
  · exact done n old gone

/-- The tombstones that a pass began with are free, or retired past the last generation (R324). -/
theorem reclaimed_of_nodes {dead : List Nat} {l : List Node} {sh : Shard} (nodes : sh.nodes = l.map (reclaimNode dead)) : Reclaimed dead sh := by
  intro n hn gone
  rw [nodes] at hn
  obtain ⟨x, -, rfl⟩ := List.mem_map.mp hn
  unfold reclaimNode at *
  by_cases listed : dead.contains x.num
  · rw [if_pos listed]
    split
    · exact .inr rfl
    · exact .inl rfl
  · rw [if_neg listed] at gone
    exact absurd gone (by simpa using listed)

/-- Slabs compacted write blocks of live nodes and tombstones alone (R314). -/
theorem Reclaimed.compact {dead : List Nat} {sh : Shard} (done : Reclaimed dead sh) (nextQ : Nat) : Reclaimed dead (compact nextQ sh) := by
  refine List.foldlRecOn (motive := Reclaimed dead) _ _ done fun t kept x hx => kept.appendBlock (fun gone => ?_) nextQ
  obtain ⟨listed, rewritten⟩ := List.mem_filter.mp hx
  rcases done x listed gone with free | retired
  · simp [free] at rewritten
  · simp [retired] at rewritten

theorem startRepair_frame (sh : Shard) : startRepair sh = { sh with repair := (startRepair sh).repair } := by
  unfold startRepair
  dsimp only
  split <;> rfl

@[simp] theorem repairBlock_item (nextQ : Nat) (dead : List Nat) (sh : Shard) (x : Node) : (repairBlock nextQ dead sh x).item = sh.item := by
  unfold repairBlock
  split <;> simp

theorem compact_item (nextQ : Nat) (sh : Shard) : (compact nextQ sh).item = sh.item := foldl_item (fun t x => appendBlock_item nextQ x t) _ sh

theorem endRepair_item (nextQ : Nat) (qs : List Query) (sh : Shard) : (endRepair nextQ qs sh).item = sh.item := by
  unfold endRepair
  split
  · rfl
  · next dead _ =>
    rw [startRepair_frame]
    exact (compact_item nextQ _).trans (foldl_item (repairBlock_item nextQ dead) sh.nodes sh)

theorem endRepair_reclaimed {sh : Shard} {dead : List Nat} (pass : sh.repair = some dead) (nextQ : Nat) (qs : List Query) :
    Reclaimed dead (endRepair nextQ qs sh) := by
  unfold endRepair
  split
  · next idle => cases idle.symm.trans pass
  · next d running =>
    obtain rfl : d = dead := Option.some.inj (running.symm.trans pass)
    extract_lets sh1 es sh2
    have compacted : Reclaimed d sh2 := (reclaimed_of_nodes rfl).compact nextQ
    rw [startRepair_frame]
    exact compacted

/-! ### A shard deleted -/

/-- The state without a shard. -/
def withoutShard (index shard : Nat) (s : State) : State :=
  { s with rcl := { s.rcl with shards := s.rcl.shards.filter fun h => !(h.item.index == index && h.item.shardNumber == shard) } }

/-- A shard deleted is found no more, and every other as before. -/
theorem findShard_withoutShard (index shard i k : Nat) (s : State) :
    findShard (withoutShard index shard s) i k = if i = index ∧ k = shard then none else findShard s i k := by
  unfold findShard withoutShard
  dsimp only
  rw [List.find?_filter]
  split
  · next own =>
    obtain ⟨rfl, rfl⟩ := own
    refine List.find?_eq_none.mpr fun h _ both => ?_
    obtain ⟨kept, named⟩ := of_decide_eq_true both
    rw [named] at kept
    cases kept
  · next other =>
    refine congrArg (List.find? · _) (funext fun h => ?_)
    cases named : h.item.index == i && h.item.shardNumber == k with
    | false => simp
    | true =>
      obtain ⟨rfl, rfl⟩ : h.item.index = i ∧ h.item.shardNumber = k := by simpa using named
      simpa [imp_iff_not_or] using other

/-- A shard under deletion stays while a query waits for it, and is gone otherwise (R311). -/
theorem exec_delete {index shard : Nat} {s : State} {sh : Shard} (hs : findShard s index shard = some sh) (deleting : sh.deleting = true) :
    exec (.indexDeleteEffect index shard) s =
      .next (if s.rcl.queries.any (fun q => q.index == index && q.left.contains shard) then s else withoutShard index shard s) := by
  show execIndexDeleteEffect index shard s = _
  unfold execIndexDeleteEffect
  rw [hs]
  cases waits : s.rcl.queries.any fun q => q.index == index && q.left.contains shard with
  | false => exact if_pos (by simp [deleting])
  | true => exact if_neg (by simp)

/-! ### An insertion's own event -/

/-- A shard whose insertion of the node `num` went live (R322, step 5). -/
def insertedShard (s : State) (num : Nat) (h : Shard) : Shard :=
  { releaseSlabs s.rcl.queries (insertNode s.rcl.nextQ num h) with inserting := none }

theorem exec_memorize_live {index key n : Nat} {s : State} {sh : Shard} {q : Query} {x : Node}
    (first : s.rcl.shards.find? (fun h => h.item.index == index && h.inserting.isSome && (keyNode h key).isSome) = some sh)
    (inserting : sh.inserting = some n) (hq : findQuery s n = some q) (own : q.key = key) (hx : keyNode sh key = some x) (links : x.state = .linking) :
    exec (.memorizeLive index key) s = .next (stepShard index sh.item.shardNumber (finishQuery q .done 0
      (seatSlabs (onShard index sh.item.shardNumber (insertedShard s x.num) s)))) := by
  show execMemorizeLive index key s = _
  unfold execMemorizeLive
  rw [first]
  dsimp only
  rw [inserting, hx, Option.bind_some, hq]
  exact if_pos ⟨links, own⟩

/-- Settles O43: a search ends or waits by the shards that it still hears from; an insertion, a repair pass and a deletion are changes of one shard,
of which the seats given to slabs touch the slabs alone. -/
theorem recallOperationsEnd : Obligations.RecallOperationsEnd := by
  unfold Obligations.RecallOperationsEnd
  refine ⟨?found, ?waits, ?unread, ?live, ?repaired, fun index shard s sh hs deleting => ⟨fun idle => ?deleted, fun waits => ?kept⟩⟩
  case found =>
    rintro query s q a tenant tag address hq search placed whole timely asked here _ rfl
    obtain rfl := findQuery_num hq
    obtain ⟨t, run, ended⟩ := exec_query_complete_ends hq search whole asked here placed timely
    obtain ⟨w, o, waiting, body, opcode, seq, outcome⟩ := ended.answered
    exact ⟨t, w, o, run, ended.gone, ended.written, waiting, body, opcode, seq, outcome, ended.frame⟩
  case waits =>
    intro query s q hq search placed whole timely away
    exact ⟨_, exec_query_complete_waits hq search placed whole timely away, findQuery_onQuery hq (findQuery_num hq :), rfl⟩
  case unread =>
    intro c query s q a tenant tag address event hq search whole _ asked here
    obtain rfl := findQuery_num hq
    obtain ⟨late, run, named⟩ : ∃ late, exec c s = .next (readEnded q.num late s) ∧
        (if c = .recallReadLate q.num then OCode.tierLate else .tierFault) = if late then .tierLate else .tierFault := by
      rcases event with rfl | rfl
      · exact ⟨true, rfl, if_pos rfl⟩
      · exact ⟨false, rfl, if_neg nofun⟩
    have ended := readEnded_ends hq search whole asked here late
    obtain ⟨w, o, waiting, body, opcode, seq, outcome⟩ := ended.answered
    exact ⟨_, w, o, run, ended.gone, ended.written.trans (List.append_nil _), waiting, body, opcode, seq, outcome.trans named.symm, ended.frame⟩
  case live =>
    intro index key n s sh q x first hs inserting hq own hkey hx links
    have kept : ∀ h, (insertedShard s x.num h).item = h.item := insertNode_item s.rcl.nextQ x.num
    obtain ⟨frame, sh', found, same⟩ := onShard_seated hs kept
    have idle : sh'.inserting = none := (congrArg Shard.inserting same :)
    have nodes : sh'.nodes = (insertNode s.rcl.nextQ x.num sh).nodes := (congrArg Shard.nodes same :)
    have content := nodeOf_insertNode hx s.rcl.nextQ
    obtain ⟨y, hy, alike⟩ := Option.map_eq_some_iff.mp content
    have held : x.key = key := by
      obtain ⟨named, -⟩ : x.key = key ∧ (x.state = .linking ∨ x.state = .live) := by simpa using List.find?_some hkey
      exact named
    refine ⟨_, sh', y, exec_memorize_live first inserting hq own hkey links, found, idle, ?_, (congrArg Node.state alike :),
      (congrArg Node.key alike).trans held, (congrArg Node.tags alike :), (congrArg Node.code alike :), (congrArg Node.gen alike :), frame⟩
    unfold nodeOf
    rw [nodes]
    exact hy
  case repaired =>
    intro index shard s sh dead hs pass
    obtain ⟨frame, sh', found, same⟩ := onShard_seated hs (endRepair_item s.rcl.nextQ s.rcl.queries)
    have nodes : sh'.nodes = (endRepair s.rcl.nextQ s.rcl.queries sh).nodes := (congrArg Shard.nodes same :)
    exact ⟨_, sh', rfl, found, nodes ▸ endRepair_reclaimed pass s.rcl.nextQ s.rcl.queries, frame⟩
  case deleted =>
    have unheard : (s.rcl.queries.any fun q => q.index == index && q.left.contains shard) = false := by simpa using idle
    refine ⟨withoutShard index shard s, ?_, ?_, rfl, fun i k other => ?_⟩
    · rw [exec_delete hs deleting, unheard]
      rfl
    · rw [findShard_withoutShard, if_pos ⟨rfl, rfl⟩]
    · rw [findShard_withoutShard, if_neg other]
  case kept =>
    rw [exec_delete hs deleting, if_pos (by simpa using waits)]

end Sys2Proof.Machine
end

section
/-! The semaphores of an SC die and the contexts that hold them: grants, revocation and release (R347 to R349; the order of grants, and what a
context that may not ask gets, are log entry 24). -/

namespace Sys2Proof.Machine

/-! ### Semaphores and contexts looked up -/

/-- A semaphore found, or fresh, bears the names that it was looked up by. -/
theorem semOf_names (s : State) (die n : Nat) : (semOf s die n).die = die ∧ (semOf s die n).num = n := by
  unfold semOf
  cases found : s.cores.sems.find? fun x => x.die == die && x.num == n with
  | none => exact ⟨rfl, rfl⟩
  | some x => simpa using List.find?_some found

@[simp] theorem semOf_die (s : State) (die n : Nat) : (semOf s die n).die = die := (semOf_names s die n).1

@[simp] theorem semOf_num (s : State) (die n : Nat) : (semOf s die n).num = n := (semOf_names s die n).2

/-- A context found, or fresh, bears the names that it was looked up by. -/
theorem ctxOf_names (s : State) (die n : Nat) : (ctxOf s die n).die = die ∧ (ctxOf s die n).num = n := by
  unfold ctxOf
  cases found : s.cores.ctxs.find? fun x => x.die == die && x.num == n with
  | none => exact ⟨rfl, rfl⟩
  | some x => simpa using List.find?_some found

@[simp] theorem ctxOf_die (s : State) (die n : Nat) : (ctxOf s die n).die = die := (ctxOf_names s die n).1

@[simp] theorem ctxOf_num (s : State) (die n : Nat) : (ctxOf s die n).num = n := (ctxOf_names s die n).2

@[simp] theorem ctxOf_setSem (x : Sem) (s : State) (die n : Nat) : ctxOf (setSem x s) die n = ctxOf s die n := rfl

@[simp] theorem semOf_setCtx (c : Ctx) (s : State) (die n : Nat) : semOf (setCtx c s) die n = semOf s die n := rfl

/-- A semaphore put in place is found under its number; the die's others are as they were. -/
@[simp] theorem semOf_setSem {die : Nat} {x : Sem} (at_die : x.die = die) (s : State) (k : Nat) :
    semOf (setSem x s) die k = if k = x.num then x else semOf s die k := by
  subst at_die
  split
  · next same => exact same ▸ semOf_setSem_self x s
  · next other => exact semOf_setSem_other x s fun same => other same.2

/-- A context put in place is found under its number; the die's others are as they were. -/
@[simp] theorem ctxOf_setCtx {die : Nat} {c : Ctx} (at_die : c.die = die) (s : State) (k : Nat) :
    ctxOf (setCtx c s) die k = if k = c.num then c else ctxOf s die k := by
  subst at_die
  split
  · next same => exact same ▸ ctxOf_setCtx_self c s
  · next other => exact ctxOf_setCtx_other c s fun same => other same.2

/-! ### Grants, freed semaphores and revocation -/

@[simp] theorem semOf_grantSem (die n ctx : Nat) (s : State) (k : Nat) :
    semOf (grantSem die n ctx s) die k = if k = n then { semOf s die n with owner := some ctx } else semOf s die k := by
  simp [grantSem]

@[simp] theorem ctxOf_grantSem (die n ctx : Nat) (s : State) (k : Nat) :
    ctxOf (grantSem die n ctx s) die k =
      if k = ctx then { ctxOf s die ctx with grants := (ctxOf s die ctx).grants ++ [n], asleep := false } else ctxOf s die k := by
  simp [grantSem]

theorem freeSem_unwaited {die n : Nat} {s : State} (unwaited : (semOf s die n).waiters = []) :
    freeSem die n s = setSem { semOf s die n with owner := none } s := by
  simp [freeSem, unwaited]

theorem freeSem_waited {die n w : Nat} {ws : List Nat} {s : State} (waited : (semOf s die n).waiters = w :: ws) :
    freeSem die n s = grantSem die n w (setSem { semOf s die n with owner := none, waiters := ws } s) := by
  simp [freeSem, waited]

/-- A context revoked: its shadow is gone, and it restarts from its earliest held grant (R349). -/
def revokedCtx (c : Ctx) : Ctx :=
  { c with shadow := 0, grants := [], restart := match c.restart with | some r => some r | none => c.grants.head? }

theorem revokedCtx_restarts {c : Ctx} {n : Nat} (only : c.grants = [n]) : (revokedCtx c).restart.isSome = true := by
  unfold revokedCtx
  cases c.restart with
  | none => simp [only]
  | some r => rfl

/-- The revocation of a context that holds one semaphore frees that one, marked as revoked. -/
theorem revokeCtx_only {die holder n : Nat} {s : State} (only : (ctxOf s die holder).grants = [n]) :
    revokeCtx die holder s =
      freeSem die n (setSem { semOf s die n with revoked := true } (setCtx (revokedCtx (ctxOf s die holder)) s)) := by
  unfold revokeCtx
  extract_lets c s1
  rw [show c.grants = [n] from only]
  rfl

/-- `t` differs from `s` in its semaphores and contexts alone. -/
def SemsAndCtxs (s t : State) : Prop := t = { s with cores := { s.cores with sems := t.cores.sems, ctxs := t.cores.ctxs } }

theorem SemsAndCtxs.grantSem {s u : State} (frame : SemsAndCtxs s u) (die n ctx : Nat) : SemsAndCtxs s (grantSem die n ctx u) := by
  unfold SemsAndCtxs at *
  rw [frame]
  rfl

/-! ### The writes of a semaphore register -/

section
variable {die n ctx : Nat} {s : State}

theorem exec_acquire_free (free : (semOf s die n).owner = none) (few : (ctxOf s die ctx).grants.length < 4) :
    exec (.semaphoreAcquire die n ctx) s = .next (grantSem die n ctx s) := by
  show execSemaphoreAcquire die n ctx s = _
  simp [execSemaphoreAcquire, free, few]

/-- A context that holds the semaphore, or holds four, gets nothing by asking (log entry 24). -/
theorem exec_acquire_nothing (denied : (semOf s die n).owner = some ctx ∨ 4 ≤ (ctxOf s die ctx).grants.length) :
    exec (.semaphoreAcquire die n ctx) s = .next s := by
  show execSemaphoreAcquire die n ctx s = _
  cases held : (semOf s die n).owner with
  | none =>
    have full : 4 ≤ (ctxOf s die ctx).grants.length := by simpa [held] using denied
    simp only [execSemaphoreAcquire, held, if_pos full]
  | some o =>
    have own : o = ctx ∨ 4 ≤ (ctxOf s die ctx).grants.length := by simpa [held] using denied
    have refused : o = ctx ∨ 4 ≤ (ctxOf s die ctx).grants.length ∨ ctx ∈ (semOf s die n).waiters := own.imp_right .inl
    simp only [execSemaphoreAcquire, held, if_pos refused]

theorem exec_acquire_held {o : Nat} (held : (semOf s die n).owner = some o) (other : o ≠ ctx) (few : (ctxOf s die ctx).grants.length < 4)
    (new : ctx ∉ (semOf s die n).waiters) :
    exec (.semaphoreAcquire die n ctx) s = .next
      (if (ctxOf s die o).saved.isSome then revokeCtx die o (setSem { semOf s die n with waiters := ctx :: (semOf s die n).waiters } s)
       else setCtx { ctxOf s die ctx with asleep := true } (setSem { semOf s die n with waiters := (semOf s die n).waiters ++ [ctx] } s)) := by
  have asks : ¬(o = ctx ∨ 4 ≤ (ctxOf s die ctx).grants.length ∨ ctx ∈ (semOf s die n).waiters) := by simp [other, few, new]
  show execSemaphoreAcquire die n ctx s = _
  simp only [execSemaphoreAcquire, held, if_neg asks]
  split <;> rfl

/-- A saved context that holds the semaphore alone is revoked before the asker's grant (R349). -/
theorem exec_acquire_revokes {o : Nat} (held : (semOf s die n).owner = some o) (other : o ≠ ctx) (few : (ctxOf s die ctx).grants.length < 4)
    (new : ctx ∉ (semOf s die n).waiters) (saved : (ctxOf s die o).saved.isSome = true) (only : (ctxOf s die o).grants = [n]) :
    ∃ u, exec (.semaphoreAcquire die n ctx) s = .next (grantSem die n ctx u) ∧
      semOf u die n = { semOf s die n with owner := none, revoked := true } ∧
      (∀ k, ctxOf u die k = if k = o then revokedCtx (ctxOf s die o) else ctxOf s die k) ∧ SemsAndCtxs s u := by
  rw [exec_acquire_held held other few new, if_pos saved, revokeCtx_only (by simpa using only),
    freeSem_waited (w := ctx) (ws := (semOf s die n).waiters) (by simp)]
  refine ⟨_, rfl, ?sem, fun k => ?ctx, rfl⟩
  case sem => simp
  case ctx => simp [revokedCtx]

/-- The owner commits its shadow and holds the semaphore no more (R348). -/
def releasedCtx (n : Nat) (c : Ctx) : Ctx := { c with shadow := 0, grants := c.grants.filter (· != n) }

theorem exec_release_owned (own : (semOf s die n).owner = some ctx) :
    exec (.semaphoreRelease die n ctx) s = .next (freeSem die n (setCtx (releasedCtx n (ctxOf s die ctx)) s)) := if_pos own

theorem exec_release_other (other : (semOf s die n).owner ≠ some ctx) : exec (.semaphoreRelease die n ctx) s = .next s := if_neg other

end

/-- Settles O51: each write's equation, read off at the semaphore and at the contexts that it names. -/
theorem semaphoresAreGranted : Obligations.SemaphoresAreGranted := by
  unfold Obligations.SemaphoresAreGranted
  refine ⟨?acquire, ?release, fun die n s => ⟨_, rfl, by simp, fun k other => by simp [other], rfl⟩⟩
  case acquire =>
    rintro die n ctx s _ _ rfl rfl
    refine ⟨fun free few => ?granted, fun o held other few new => ⟨fun unsaved => ?waits, fun saved only => ?revoked⟩, exec_acquire_nothing⟩
    case granted =>
      exact ⟨_, exec_acquire_free free few, by simp, by simp, fun k other => by simp [other], fun k other => by simp [other], rfl⟩
    case waits =>
      have run := exec_acquire_held held other few new
      rw [if_neg (by simp [unsaved])] at run
      exact ⟨_, run, by simp, by simp, fun k other => by simp [other], rfl⟩
    case revoked =>
      obtain ⟨u, run, sem, ctxs, frame⟩ := exec_acquire_revokes held other few new saved only
      have holder : ctxOf (grantSem die n ctx u) die o = revokedCtx (ctxOf s die o) := by simp [other, ctxs]
      refine ⟨_, run, by simp [sem], by simp [ctxs, other.symm], ?_, ?_, ?_, frame.grantSem die n ctx⟩
      · rw [holder]; rfl
      · rw [holder]; rfl
      · rw [holder]; exact revokedCtx_restarts only
  case release =>
    rintro die n ctx s _ rfl
    refine ⟨exec_release_other, fun own unwaited => ?freed, fun w ws own waited other => ?passed⟩
    case freed =>
      have run := exec_release_owned own
      rw [freeSem_unwaited (by simpa using unwaited)] at run
      exact ⟨_, run, by simp, by simp [releasedCtx], fun k other => by simp [other], fun k other => by simp [releasedCtx, other], rfl⟩
    case passed =>
      have run := exec_release_owned own
      rw [freeSem_waited (by simpa using waited)] at run
      exact ⟨_, run, by simp, by simp [releasedCtx, other], by simp [releasedCtx, other.symm], rfl⟩

end Sys2Proof.Machine
end

section
/-! Heat and power: core rails set die by die, temperatures read, writes that no regulator acknowledged, chill modules, and PLLs that lose and
regain lock (R45, R363 to R365, R370, R374 to R378, R565, R572). -/

namespace Sys2Proof.Machine

/-! ### Core rails -/

/-- From `s` to `t` no more than the voltages of the rails that there are is changed, and voltage writes sent. -/
structure RailsSet (s t : State) : Prop where
  frame : t = { s with ledger := { s.ledger with rails := t.ledger.rails }, outs := { s.outs with volts := t.outs.volts } }
  length : t.ledger.rails.length = s.ledger.rails.length

theorem RailsSet.refl (s : State) : RailsSet s s := ⟨rfl, rfl⟩

theorem RailsSet.trans {s t u : State} (a : RailsSet s t) (b : RailsSet t u) : RailsSet s u := by
  refine ⟨?_, b.length.trans a.length⟩
  rw [b.frame, a.frame]

theorem RailsSet.part {s t : State} (a : RailsSet s t) : t.part = s.part := by rw [a.frame]

theorem RailsSet.overruns {s t : State} (a : RailsSet s t) : t.ledger.overruns = s.ledger.overruns := by rw [a.frame]

theorem RailsSet.halted {s t : State} (a : RailsSet s t) : t.ledger.halted = s.ledger.halted := by rw [a.frame]

theorem RailsSet.rest {s t : State} (a : RailsSet s t) : t.dev = s.dev ∧ t.sess = s.sess ∧ t.sched = s.sched ∧ t.links = s.links := by
  rw [a.frame]
  exact ⟨rfl, rfl, rfl, rfl⟩

theorem writeRail_sets (n mv : Nat) (s : State) : RailsSet s (writeRail n mv s) := by
  unfold writeRail
  split
  · exact ⟨rfl, List.length_modify ..⟩
  · exact .refl s

/-- A voltage written to a fitted die's rail stands there; the other rails are as they were (R363, R364). -/
theorem railOf_writeRail {n : Nat} {s : State} (fitted : n ∈ diesFitted s.part) (listed : n < s.ledger.rails.length) (mv k : Nat) :
    railOf (writeRail n mv s) k = if k = n then { mv := mv } else railOf s k := by
  rw [writeRail, if_pos (by simpa using fitted)]
  unfold railOf
  rw [List.getD_eq_getElem?_getD, List.getD_eq_getElem?_getD, List.getElem?_modify]
  by_cases here : k = n
  · subst here
    simp [listed]
  · simp [here, Ne.symm here]

theorem lt_of_mem_diesFitted {d : Nat} {p : Part} (fitted : d ∈ diesFitted p) : d < 8 := by
  cases p <;> simp [diesFitted] at fitted <;> omega

theorem mem_diesFitted_of_live {d : Nat} {s : State} (live : d ∈ liveScs s) : d ∈ diesFitted s.part := by
  obtain ⟨x, hx, rfl⟩ := List.mem_map.mp live
  have number : x.num < scCount s.part := by
    have kept := (List.mem_filter.mp hx).2
    simp only [Bool.and_eq_true, decide_eq_true_eq] at kept
    exact kept.1
  cases hp : s.part <;> simp only [hp, scCount, diesFitted] at number ⊢ <;> simp <;> omega

/-- In any state that differs from `s` in its rails alone, the turn `f d` of a die `d` of the run `l` sets that die's rail by `step d`. -/
def RailTurns (s : State) (l : List Nat) (f : Nat → State → State) (step : Nat → RailV → RailV) : Prop :=
  ∀ d ∈ l, ∀ t, RailsSet s t → RailsSet t (f d t) ∧ ∀ k, railOf (f d t) k = if k = d then step d (railOf t d) else railOf t k

section

variable {s : State} {l : List Nat} {f : Nat → State → State} {step : Nat → RailV → RailV}

/-- A run over dies sets each die's rail as often as the die stands in the list. -/
theorem RailTurns.run (turns : RailTurns s l f step) :
    RailsSet s (forEach l f s) ∧ ∀ k, railOf (forEach l f s) k = (step k)^[l.count k] (railOf s k) := by
  induction l generalizing s with
  | nil => exact ⟨.refl s, fun _ => rfl⟩
  | cons d l ih =>
    obtain ⟨turn, rails⟩ := turns d (List.mem_cons_self ..) s (.refl s)
    obtain ⟨rest, later⟩ := ih fun x hx t set => turns x (List.mem_cons_of_mem d hx) t (turn.trans set)
    refine ⟨turn.trans rest, fun k => (later k).trans ?_⟩
    rw [rails]
    by_cases here : k = d
    · subst here
      rw [if_pos rfl, List.count_cons_self, Function.iterate_succ_apply]
    · rw [if_neg here, List.count_cons_of_ne (Ne.symm here)]

/-- The rail of a die that the run comes to is set by the last of its turns. -/
theorem RailTurns.last (turns : RailTurns s l f step) {d : Nat} (hd : d ∈ l) :
    ∃ n, railOf (forEach l f s) d = step d ((step d)^[n] (railOf s d)) := by
  obtain ⟨n, hn⟩ := Nat.exists_eq_succ_of_ne_zero (List.count_pos_iff.mpr hd).ne'
  exact ⟨n, by rw [turns.run.2, hn, Function.iterate_succ_apply']⟩

end

/-- Voltages written to fitted dies one after another. -/
theorem writeRail_turns {s : State} {l : List Nat} (fitted : ∀ d ∈ l, d ∈ diesFitted s.part) (rails : 8 ≤ s.ledger.rails.length)
    (mv : Nat → RailV → Nat) : RailTurns s l (fun d t => writeRail d (mv d (railOf t d)) t) (fun d r => { mv := mv d r }) := by
  intro d hd t set
  have here : d ∈ diesFitted t.part := set.part ▸ fitted d hd
  have := lt_of_mem_diesFitted here
  exact ⟨writeRail_sets .., railOf_writeRail here (by rw [set.length]; omega) _⟩

/-! ### An overrun of the envelope -/

/-- A rail 50 mV down, to no less than 550 mV (R370). -/
def stepDown (r : RailV) : RailV := { mv := max 550 (r.mv - 50) }

theorem stepDown_iterate_le (n : Nat) (r : RailV) : (stepDown^[n + 1] r).mv ≤ max 550 (r.mv - 50) := by
  induction n with
  | zero => exact le_rfl
  | succ n ih =>
    rw [Function.iterate_succ_apply']
    show max 550 ((stepDown^[n + 1] r).mv - 50) ≤ _
    omega

/-- Every live SC die's rail stepped down. -/
def steppedDown (s : State) : State := forEach (liveScs s) (fun d t => writeRail d (max 550 ((railOf t d).mv - 50)) t) s

theorem steppedDown_turns {s : State} (rails : 8 ≤ s.ledger.rails.length) :
    RailTurns s (liveScs s) (fun d t => writeRail d (max 550 ((railOf t d).mv - 50)) t) fun _ => stepDown :=
  writeRail_turns (fun _ => mem_diesFitted_of_live) rails fun _ r => max 550 (r.mv - 50)

theorem steppedDown_sets {s : State} (rails : 8 ≤ s.ledger.rails.length) : RailsSet s (steppedDown s) := (steppedDown_turns rails).run.1

/-- The rails after an overrun: a live die's is stepped down, once where the die is listed once; another's is as it was. -/
theorem railOf_steppedDown {s : State} (rails : 8 ≤ s.ledger.rails.length) :
    (∀ d, d ∉ liveScs s → railOf (steppedDown s) d = railOf s d) ∧
      ∀ d ∈ liveScs s, 550 ≤ (railOf (steppedDown s) d).mv ∧ (railOf (steppedDown s) d).mv ≤ max 550 ((railOf s d).mv - 50) ∧
        ((liveScs s).Nodup → (railOf (steppedDown s) d).mv = max 550 ((railOf s d).mv - 50)) := by
  have turns := steppedDown_turns rails
  have run := turns.run.2
  refine ⟨fun d gone => ?_, fun d live => ?_⟩
  · exact (run d).trans (by rw [List.count_eq_zero_of_not_mem gone]; rfl)
  · obtain ⟨n, last⟩ := turns.last live
    have set : railOf (steppedDown s) d = stepDown (stepDown^[n] (railOf s d)) := last
    refine ⟨?_, ?_, fun single => ?_⟩
    · rw [set]
      exact Nat.le_max_left ..
    · rw [set, ← Function.iterate_succ_apply' stepDown]
      exact stepDown_iterate_le n _
    · have once : railOf (steppedDown s) d = stepDown^[1] (railOf s d) := (run d).trans (by rw [List.count_eq_one_of_mem single live])
      rw [once]
      rfl

/-- An overrun corrected is counted (R370). -/
def countOverrun (s : State) : State := { s with ledger := { s.ledger with overruns := s.ledger.overruns + 1 } }

theorem exec_overrun_pouring {s : State} (pouring : s.sched.pour.isSome = true) : exec .envelopeOverrun s = .next (countOverrun (steppedDown s)) :=
  if_pos pouring

/-! ### Temperatures read -/

/-- The temperatures of the eight dies as read, an open or shorted diode as 105 degrees (R375). -/
def withTemps (temps : List (Option Nat)) (s : State) : State :=
  { s with ledger := { s.ledger with temps := (List.range 8).map fun i => (temps.getD i (some 0)).getD 105 } }

/-- A die's rail written down to the die's thermal cap, where it stands above it. -/
def lowerToCap (d : Nat) (t : State) : State :=
  match thermalCap (targetMv t) (tempOf t d) with
  | some c => if c < (railOf t d).mv then writeRail d c t else t
  | none => t

/-- The temperatures taken and every fitted die's rail held to its cap. -/
def heldToCaps (temps : List (Option Nat)) (s : State) : State := forEach (diesFitted s.part) lowerToCap (withTemps temps s)

/-- The temperatures taken and every fitted die's rail at 0.55 V. -/
def atLowest (temps : List (Option Nat)) (s : State) : State := forEach (diesFitted s.part) (fun d t => writeRail d 550 t) (heldToCaps temps s)

/-- Planning halted, or not (R376). -/
def withHalt (halted : Bool) (s : State) : State := { s with ledger := { s.ledger with halted := halted } }

/-- Whether every fitted die reads below 100 degrees, so that a halt ends (R376). -/
def allCool (temps : List (Option Nat)) (s : State) : Bool := (diesFitted s.part).all fun d => decide (tempOf (withTemps temps s) d < 100)

section

variable {d c : Nat} {temps : List (Option Nat)} {s t : State}

theorem tempOf_withTemps (fitted : d ∈ diesFitted s.part) :
    tempOf (withTemps temps s) d = (temps.getD d (some 0)).getD 105 := by
  have listed : d < 8 := lt_of_mem_diesFitted fitted
  simp [tempOf, withTemps, listed]

theorem tempOf_read (fitted : d ∈ diesFitted s.part) (read : temps.getD d (some 0) = some c) : tempOf (withTemps temps s) d = c := by
  rw [tempOf_withTemps fitted, read]
  rfl

/-- What a cap makes of a rail. -/
def underCap (cap : Option Nat) (r : RailV) : RailV :=
  match cap with
  | some c => if c < r.mv then { mv := c } else r
  | none => r

theorem underCap_le (c : Nat) (r : RailV) : (underCap (some c) r).mv ≤ c := by
  show (if c < r.mv then ({ mv := c } : RailV) else r).mv ≤ c
  split
  · exact le_rfl
  · omega

theorem railOf_lowerToCap (fitted : d ∈ diesFitted t.part) (listed : d < t.ledger.rails.length) :
    RailsSet t (lowerToCap d t) ∧ ∀ k, railOf (lowerToCap d t) k =
      if k = d then underCap (thermalCap (targetMv t) (tempOf t d)) (railOf t d) else railOf t k := by
  have still : ∀ k, railOf t k = if k = d then railOf t d else railOf t k := fun k => by
    split
    case isTrue here => rw [here]
    case isFalse => rfl
  unfold lowerToCap
  cases thermalCap (targetMv t) (tempOf t d) with
  | none => exact ⟨.refl t, still⟩
  | some c =>
    unfold underCap
    dsimp only
    by_cases above : c < (railOf t d).mv
    · rw [if_pos above, if_pos above]
      exact ⟨writeRail_sets .., railOf_writeRail fitted listed c⟩
    · rw [if_neg above, if_neg above]
      exact ⟨.refl t, still⟩

theorem lowerToCap_turns (rails : 8 ≤ s.ledger.rails.length) :
    RailTurns s (diesFitted s.part) lowerToCap fun d => underCap (thermalCap (targetMv s) (tempOf s d)) := by
  intro d hd t set
  have listed : d < t.ledger.rails.length := by
    have := lt_of_mem_diesFitted hd
    rw [set.length]
    omega
  have same : thermalCap (targetMv s) (tempOf s d) = thermalCap (targetMv t) (tempOf t d) := by rw [set.frame]; rfl
  show RailsSet t (lowerToCap d t) ∧ ∀ k, _ = if k = d then underCap (thermalCap (targetMv s) (tempOf s d)) (railOf t d) else _
  rw [same]
  exact railOf_lowerToCap (set.part ▸ hd) listed

/-- Below 95 degrees a die's rail has no cap. -/
theorem lowerToCap_below (below : tempOf s d < 95) : lowerToCap d s = s := by
  unfold lowerToCap thermalCap
  rw [if_pos below]

theorem forEach_fixed {α : Type} {f : α → State → State} {l : List α} (fixed : ∀ x ∈ l, f x s = s) : forEach l f s = s := by
  induction l with
  | nil => rfl
  | cons x l ih =>
    show forEach l f (f x s) = s
    rw [fixed x (List.mem_cons_self ..)]
    exact ih fun y hy => fixed y (List.mem_cons_of_mem x hy)

theorem heldToCaps_turns (rails : 8 ≤ s.ledger.rails.length) : RailTurns (withTemps temps s) (diesFitted s.part) lowerToCap
    fun d => underCap (thermalCap (targetMv s) (tempOf (withTemps temps s) d)) := lowerToCap_turns (s := withTemps temps s) rails

theorem heldToCaps_sets (temps : List (Option Nat)) (rails : 8 ≤ s.ledger.rails.length) : RailsSet (withTemps temps s) (heldToCaps temps s) :=
  (heldToCaps_turns rails).run.1

/-- A die read at 95 degrees or more is no higher than its cap (R375). -/
theorem railOf_heldToCaps_le (rails : 8 ≤ s.ledger.rails.length) (fitted : d ∈ diesFitted s.part) (read : temps.getD d (some 0) = some c)
    (warm : 95 ≤ c) : (railOf (heldToCaps temps s) d).mv ≤ max 550 (targetMv s - 20 * (c - 95)) := by
  obtain ⟨n, last⟩ := (heldToCaps_turns (temps := temps) rails).last fitted
  have cap : thermalCap (targetMv s) (tempOf (withTemps temps s) d) = some (max 550 (targetMv s - 20 * (c - 95))) := by
    rw [tempOf_read fitted read, thermalCap, if_neg (by omega)]
  rw [cap] at last
  exact (congrArg RailV.mv last).trans_le (underCap_le _ _)

theorem atLowest_sets (temps : List (Option Nat)) (rails : 8 ≤ s.ledger.rails.length) :
    RailsSet (withTemps temps s) (atLowest temps s) ∧ ∀ d ∈ diesFitted s.part, (railOf (atLowest temps s) d).mv = 550 := by
  have held := heldToCaps_sets temps rails
  have turns : RailTurns (heldToCaps temps s) (diesFitted s.part) _ _ :=
    writeRail_turns (fun d fitted => held.part ▸ fitted) (held.length ▸ rails) fun _ _ => 550
  refine ⟨held.trans turns.run.1, fun d fitted => ?_⟩
  obtain ⟨n, last⟩ := turns.last fitted
  exact congrArg RailV.mv last

/-- With no fitted die at 105 degrees the rails are held to their caps, and a halt ends where all are cool (R375, R376). -/
theorem readTemps_unhalted (cooler : ∀ d ∈ diesFitted s.part, tempOf (withTemps temps s) d < 105) :
    readTemps temps s = withHalt (!allCool temps s && (heldToCaps temps s).ledger.halted) (heldToCaps temps s) := by
  have mild : ((diesFitted s.part).any fun d => decide (105 ≤ tempOf (withTemps temps s) d)) = false := by
    simpa using cooler
  show (if ((diesFitted s.part).any fun d => decide (105 ≤ tempOf (withTemps temps s) d)) = true then _
    else if allCool temps s = true then withHalt false (heldToCaps temps s) else heldToCaps temps s) = _
  rw [mild, if_neg Bool.false_ne_true]
  cases allCool temps s <;> rfl

/-- With a fitted die at 105 degrees every rail goes to its lowest, and planning is halted, with a health event where it was not (R376). -/
theorem readTemps_halts (fitted : d ∈ diesFitted s.part) (hot : 105 ≤ tempOf (withTemps temps s) d) :
    readTemps temps s = if (atLowest temps s).ledger.halted then atLowest temps s else
      healthSignal (leadDie (atLowest temps s)) 376 (withHalt true (atLowest temps s)) :=
  if_pos (List.any_eq_true.mpr ⟨d, fitted, decide_eq_true hot⟩)

end

/-! ### Health events -/

theorem railOf_healthSignal (die data k : Nat) (s : State) : railOf (healthSignal die data s) k = railOf s k := by
  unfold railOf
  rw [healthSignal_frame]

/-- The last entry of the log after a health event is the event's. -/
theorem healthEvent_logged (die data : Nat) (s : State) : (healthEvent die data s).dev.log.getLast?.map LogEntry.data = some data := by
  simp [healthEvent, note, logWith]

/-- What stands in a list with one member changed. -/
theorem modify_finds {α : Type} {l : List α} {n : Nat} {x : α} (hx : l[n]? = some x) (f : α → α) :
    (l.modify n f)[n]? = some (f x) ∧ ∀ k, k ≠ n → (l.modify n f)[k]? = l[k]? :=
  ⟨by rw [List.getElem?_modify_eq, hx]; rfl, fun _ other => List.getElem?_modify_ne _ _ other.symm⟩

/-- A write that no regulator acknowledged: the voltage asked for stands beside the voltage written (R365). -/
def withAsked (rail mv : Nat) (s : State) : State :=
  { s with ledger := { s.ledger with rails := s.ledger.rails.modify rail fun r => { r with asked := some mv } } }

theorem exec_write_unacked (rail mv : Nat) (s : State) :
    exec (.avsbusWriteUnacked rail mv) s = .next (healthSignal (leadDie s) (rail * 65536 + mv) (withAsked rail mv s)) := rfl

/-! ### PLLs -/

/-- A die's meter marked as locked to its PLL or not (R45). -/
def withLock (die : Nat) (locked : Bool) (s : State) : State :=
  { s with dev := { s.dev with meters := s.dev.meters.modify die fun m => { m with locked := locked } } }

theorem exec_lock_lost {die : Nat} {s : State} (fitted : die ∈ diesFitted s.part) :
    exec (.pllLossOfLock die) s = .next (healthEvent die die (withLock die false s)) := if_pos (by simpa using fitted)

theorem exec_pll_unfitted {die : Nat} {s : State} (unfitted : die ∉ diesFitted s.part) :
    exec (.pllLossOfLock die) s = .next s ∧ exec (.pllLockRegained die) s = .next s :=
  ⟨if_neg (by simpa using unfitted), if_pos (by simpa using unfitted)⟩

/-- From `s` to `t` no more than ports are changed, and vectors sent. -/
def PortsMoved (s t : State) : Prop := t = { s with links := { s.links with ports := t.links.ports }, fns := t.fns, outs := t.outs }

theorem PortsMoved.refl (s : State) : PortsMoved s s := rfl

theorem PortsMoved.trans {s t u : State} (a : PortsMoved s t) (b : PortsMoved t u) : PortsMoved s u := by
  unfold PortsMoved at *
  rw [b, a]

theorem PortsMoved.rest {s t : State} (a : PortsMoved s t) : t.dev = s.dev ∧ t.sess = s.sess ∧ t.sched = s.sched ∧ t.tiers = s.tiers := by
  rw [a]
  exact ⟨rfl, rfl, rfl, rfl⟩

theorem Signals.portsMoved {s t : State} (a : Signals s t) : PortsMoved s t := by
  unfold PortsMoved
  rw [a]

theorem portGo_moves (n : Nat) (st : PortState) (s : State) : PortsMoved s (portGo n st s) := by
  unfold portGo
  split
  · exact .refl s
  · split
    · exact .refl s
    · dsimp only
      split
      · exact PortsMoved.trans (t := onPort n _ s) rfl (fireState_signals _).portsMoved
      · rfl

theorem findPort_fireState (n : Nat) (s : State) : findPort (fireState s) n = findPort s n := by
  unfold findPort
  rw [fireState_signals s]

/-- A port that goes to training (R391). -/
def toTraining (p : Port) : Port := { p with state := .training, width := 0, trainings := p.trainings + 1 }

/-- A port brought to training, or left in it. -/
def trained (p : Port) : Port := if p.state = .training then p else toTraining p

theorem trained_state (p : Port) : (trained p).state = .training := by
  unfold trained
  split
  · assumption
  · rfl

theorem findPort_portGo_training (n k : Nat) (s : State) :
    findPort (portGo n .training s) k = if k = n then (findPort s k).map trained else findPort s k := by
  unfold portGo
  cases found : findPort s n with
  | none =>
    by_cases here : k = n
    · rw [if_pos here, here, found]; rfl
    · rw [if_neg here]
  | some p =>
    dsimp only
    by_cases training : p.state = .training
    · rw [if_pos training]
      by_cases here : k = n
      · rw [if_pos here, here, found, Option.map_some, trained, if_pos training]
      · rw [if_neg here]
    · rw [if_neg training]
      obtain ⟨here, others⟩ := onPort_finds found toTraining fun _ => rfl
      have placed : findPort (onPort n toTraining s) k = if k = n then (findPort s k).map trained else findPort s k := by
        by_cases named : k = n
        · rw [if_pos named, named, here, found, Option.map_some, trained, if_neg training]
        · rw [if_neg named, others k named]
      refine Eq.trans ?_ placed
      split
      · exact findPort_fireState ..
      · rfl

/-- The ports that go to training one after another, and the others. -/
theorem findPort_forEach_training (ns : List Nat) (k : Nat) (s : State) :
    findPort (forEach ns (portGo · .training) s) k = if k ∈ ns then (findPort s k).map trained else findPort s k := by
  induction ns generalizing s with
  | nil => rfl
  | cons n ns ih =>
    refine (ih (portGo n .training s)).trans ?_
    rw [findPort_portGo_training]
    have again : trained ∘ trained = trained := funext fun p => if_pos (trained_state p)
    by_cases here : k = n <;> by_cases later : k ∈ ns <;> simp [here, later, again]

/-- A port of a rim whose PLL is back: in training, with its paths lost where it was UP. -/
def retrainRim (n : Nat) (t : State) : State :=
  match (findPort t n).map Port.state with
  | some .up => leaveUp n 0 (portGo n .training) t
  | some .training => t
  | _ => portGo n .training t

/-- A rim of which no port is UP retrains with no path lost. -/
theorem forEach_retrainRim {ns : List Nat} : ∀ {s : State}, (∀ n ∈ ns, ∀ p, findPort s n = some p → p.state ≠ .up) →
    forEach ns retrainRim s = forEach ns (portGo · .training) s := by
  induction ns with
  | nil => exact fun _ => rfl
  | cons n ns ih =>
    intro s down
    have first : retrainRim n s = portGo n .training s := by
      unfold retrainRim portGo
      cases found : findPort s n with
      | none => rfl
      | some p =>
        have := down n (List.mem_cons_self ..) p found
        cases state : p.state <;> simp_all
    show forEach ns retrainRim (retrainRim n s) = _
    rw [first]
    refine ih fun k hk q hq => ?_
    rw [findPort_portGo_training] at hq
    split at hq
    · obtain ⟨p, -, rfl⟩ := Option.map_eq_some_iff.mp hq
      rw [trained_state]
      decide
    · exact down k (List.mem_cons_of_mem n hk) q hq

/-- The ports that a die's PLL drives, but those that are OFF or DARK (R565). -/
def rimPorts (die : Nat) (s : State) : List Nat :=
  (s.links.ports.filter fun p => decide (p.num / 16 + 4 = die) && p.state != .off && p.state != .dark).map Port.num

theorem mem_rimPorts {die n : Nat} {s : State} {p : Port} (found : findPort s n = some p) (rim : n / 16 + 4 = die) (on : p.state ≠ .off)
    (lit : p.state ≠ .dark) : n ∈ rimPorts die s := by
  obtain ⟨rfl, listed⟩ := findKey_some found
  exact List.mem_map.mpr ⟨p, List.mem_filter.mpr ⟨listed, by simp [rim, on, lit]⟩, rfl⟩

theorem rim_of_mem_rimPorts {die n : Nat} {s : State} (rim : n ∈ rimPorts die s) : n / 16 + 4 = die := by
  obtain ⟨p, hp, rfl⟩ := List.mem_map.mp rim
  have kept := (List.mem_filter.mp hp).2
  simp only [Bool.and_eq_true, decide_eq_true_eq] at kept
  exact kept.1.1

/-- A die's meter marked as locked again, with the health event of it (R45). -/
def relocked (die : Nat) (s : State) : State := healthEvent die (256 + die) (withLock die true s)

/-- With no port of its rim UP, a die that regains lock has the rim's ports go to training one after another (R565). -/
theorem exec_lock_regained {die : Nat} {s : State} (fitted : die ∈ diesFitted s.part)
    (down : ∀ p ∈ s.links.ports, p.num / 16 + 4 = die → p.state ≠ .up) :
    exec (.pllLockRegained die) s = .next (forEach (rimPorts die s) (portGo · .training) (relocked die s)) := by
  have run : exec (.pllLockRegained die) s = .next (forEach (rimPorts die s) retrainRim (relocked die s)) := if_neg (by simpa using fitted)
  rw [run, forEach_retrainRim]
  intro n rim p found
  obtain ⟨rfl, listed⟩ := findKey_some found
  exact down p listed (rim_of_mem_rimPorts rim)

/-- Settles O46: each event's equation, with what its run over dies sets of the rails or its run over a rim's ports makes of them. -/
theorem heatAndPowerEventsAct : Obligations.HeatAndPowerEventsAct := by
  unfold Obligations.HeatAndPowerEventsAct
  refine ⟨fun s => ⟨fun pouring rails => ?overrun, fun idle => ?no_pour⟩, fun rail mv s r hr => ?unacked,
    fun temps s => ⟨fun below => ?below, fun cooler rails => ?capped, fun hot rails => ?hot⟩,
    fun hub s fitted => ?chill, fun s => ⟨fun idle => ?off, fun pouring => ?on⟩, fun die s => rfl, fun die s => exec_pll_unfitted,
    fun die s m fitted hm => ?lost, fun die s m fitted hm down => ?regained⟩
  case overrun =>
    obtain ⟨others, live⟩ := railOf_steppedDown rails
    have set := steppedDown_sets rails
    exact ⟨_, exec_overrun_pouring pouring, congrArg (· + 1) set.overruns, others, live, by rw [set.frame]; rfl⟩
  case no_pour => exact if_neg (by simp [idle])
  case unacked =>
    obtain ⟨here, others⟩ := modify_finds hr fun r => { r with asked := some mv }
    refine ⟨_, exec_write_unacked rail mv s, ?_⟩
    rw [healthSignal_frame]
    exact ⟨here, others, rfl, rfl, rfl, rfl, rfl, rfl⟩
  case below =>
    have temp : ∀ d ∈ diesFitted s.part, tempOf (withTemps temps s) d < 95 := fun d fitted => by
      obtain ⟨c, read, cool⟩ := below d fitted
      exact (tempOf_read fitted read).trans_lt cool
    have held : heldToCaps temps s = withTemps temps s := forEach_fixed fun d fitted => lowerToCap_below (temp d fitted)
    have cool : allCool temps s = true := List.all_eq_true.mpr fun d fitted => decide_eq_true ((temp d fitted).trans (by decide))
    have read := readTemps_unhalted fun d fitted => (temp d fitted).trans (by decide)
    rw [cool, held] at read
    refine ⟨_, congrArg Host.Outcome.next read, rfl, fun d fitted => ?_, rfl⟩
    obtain ⟨c, said, -⟩ := below d fitted
    exact (congrArg some (tempOf_read fitted said)).trans said.symm
  case capped =>
    have set := heldToCaps_sets temps rails
    have read := readTemps_unhalted (temps := temps) (s := s) fun d fitted => by
      obtain ⟨c, said, mild⟩ := cooler d fitted
      exact (tempOf_read fitted said).trans_lt mild
    refine ⟨_, congrArg Host.Outcome.next read, fun going => ?halted, fun d fitted c => railOf_heldToCaps_le rails fitted, ?frame⟩
    case halted =>
      show (_ && (heldToCaps temps s).ledger.halted) = false
      rw [set.halted.trans going, Bool.and_false]
    case frame => rw [set.frame]; rfl
  case hot =>
    obtain ⟨set, lowest⟩ := atLowest_sets temps rails
    obtain ⟨d, fitted, high⟩ := hot
    have temp : 105 ≤ tempOf (withTemps temps s) d := by
      rcases high with unread | ⟨c, said, high⟩
      · rw [tempOf_withTemps fitted, unread]
        exact le_rfl
      · rwa [tempOf_read fitted said]
    have read := readTemps_halts fitted temp
    have before : (atLowest temps s).ledger.halted = s.ledger.halted := set.halted
    obtain ⟨dev, sess, sched, links⟩ := set.rest
    cases halted : s.ledger.halted with
    | true =>
      rw [if_pos (before.trans halted)] at read
      exact ⟨_, congrArg Host.Outcome.next read, before.trans halted, lowest, congrArg Dev.events dev, sess, sched, links⟩
    | false =>
      rw [if_neg (by simp [before, halted])] at read
      refine ⟨_, congrArg Host.Outcome.next read, ?_, fun d fitted => ?_, ?_⟩
      · rw [healthSignal_frame]; rfl
      · rw [railOf_healthSignal]
        exact lowest d fitted
      · rw [healthSignal_frame]
        exact ⟨congrArg (·.events + 1) dev, sess, sched, links⟩
  case chill =>
    obtain ⟨here, others⟩ := modify_finds (List.getElem?_eq_getElem fitted) fun _ => false
    exact ⟨_, rfl, here, others, rfl⟩
  case off => exact if_pos (by simp [idle])
  case on => exact if_neg (by simpa using Option.isSome_iff_ne_none.mp pouring)
  case lost =>
    obtain ⟨here, others⟩ := modify_finds hm fun m => { m with locked := false }
    exact ⟨_, exec_lock_lost fitted, here, others, rfl, healthEvent_logged .., rfl, rfl, rfl, rfl⟩
  case regained =>
    have here := (modify_finds hm fun m => { m with locked := true }).1
    have ports := fun n => findPort_forEach_training (rimPorts die s) n (relocked die s)
    obtain ⟨dev, sess, sched, tiers⟩ :=
      (forEach_rel .refl .trans (fun n t => portGo_moves n .training t) (rimPorts die s) (relocked die s)).rest
    refine ⟨_, exec_lock_regained fitted down, by rw [dev]; exact here, congrArg Dev.events dev,
      fun n p found rim on lit => ⟨trained p, ?_, trained_state p⟩,
      fun n other => (ports n).trans (if_neg fun rim => other (rim_of_mem_rimPorts rim)), sess, sched, tiers⟩
    exact (ports n).trans ((if_pos (mem_rimPorts found rim on lit)).trans (congrArg (Option.map trained) found))

end Sys2Proof.Machine
end

section
/-! The Kofatus ports: training, wavelengths lost, light and laser feeds, fatal errors, retries and drained roles (R384, R386, R387, R389 to R394). -/

namespace Sys2Proof.Machine

/-! ### One port changed -/

/-- From `s` to `t` the port `n` becomes `q`, no other port changes, and vectors may be sent. -/
structure PortSet (n : Nat) (q : Port) (s t : State) : Prop where
  here : findPort t n = some q
  others : ∀ k, k ≠ n → findPort t k = findPort s k
  moved : PortsMoved s t

theorem PortSet.trans {n : Nat} {p q : Port} {s t u : State} (a : PortSet n p s t) (b : PortSet n q t u) : PortSet n q s u :=
  ⟨b.here, fun k other => (b.others k other).trans (a.others k other), a.moved.trans b.moved⟩

theorem findPort_onPort {n : Nat} {f : Port → Port} (hf : ∀ x, x.num = n → (f x).num = n) (s : State) (k : Nat) :
    findPort (onPort n f s) k = if k = n then (findPort s k).map f else findPort s k := findKey_updKey Port.num n k f hf _

theorem onPort_sets {n : Nat} {s : State} {p : Port} (found : findPort s n = some p) {f : Port → Port} (hf : ∀ x, x.num = n → (f x).num = n) :
    PortSet n (f p) s (onPort n f s) := by
  refine ⟨?_, fun k other => ?_, rfl⟩
  · rw [findPort_onPort hf, if_pos rfl, found]; rfl
  · rw [findPort_onPort hf, if_neg other]

/-! ### A port goes to a state -/

/-- A port in a state that it was not in (R391). -/
def entered (st : PortState) (p : Port) : Port :=
  { p with state := st, width := if st = .up then p.width else 0, trainings := p.trainings + if st = .training then 1 else 0 }

/-- A port brought to a state, or left in it. -/
def gone (st : PortState) (p : Port) : Port := if p.state = st then p else entered st p

theorem gone_of_ne {st : PortState} {p : Port} (ne : p.state ≠ st) : gone st p = entered st p := if_neg ne

theorem gone_state (st : PortState) (p : Port) : (gone st p).state = st := by
  unfold gone
  split
  · assumption
  · rfl

theorem gone_asked (st : PortState) (p : Port) :
    (gone st p).leaving = p.leaving ∧ (gone st p).want = p.want ∧ (gone st p).role = p.role ∧ (gone st p).reason = p.reason := by
  unfold gone
  split <;> exact ⟨rfl, rfl, rfl, rfl⟩

theorem portGo_sets {n : Nat} {s : State} {p : Port} (found : findPort s n = some p) (st : PortState) : PortSet n (gone st p) s (portGo n st s) := by
  by_cases there : p.state = st
  · have still : portGo n st s = s := by
      unfold portGo
      rw [found]
      exact if_pos there
    rw [still, gone, if_pos there]
    exact ⟨found, fun _ _ => rfl, .refl s⟩
  · have enters := onPort_sets found (f := entered st) fun _ => id
    have goes : portGo n st s = if troubled p.state || troubled st then fireState (onPort n (entered st) s) else onPort n (entered st) s := by
      unfold portGo
      rw [found]
      exact if_neg there
    rw [goes, gone_of_ne there]
    split
    · exact ⟨(findPort_fireState ..).trans enters.here, fun k other => (findPort_fireState ..).trans (enters.others k other),
        enters.moved.trans (fireState_signals _).portsMoved⟩
    · exact enters

theorem portFail_sets {n : Nat} {s : State} {p : Port} (found : findPort s n = some p) (st : PortState) (reason : Nat) :
    PortSet n (gone st { p with reason := reason }) s (portFail n st reason s) := by
  have noted := onPort_sets found (f := fun x => { x with reason := reason }) fun _ => id
  exact noted.trans (portGo_sets noted.here st)

/-- A port that fails with a reason (R391). -/
def failed (st : PortState) (reason : Nat) (p : Port) : Port := { p with state := st, reason := reason, width := 0 }

/-- A port that goes to DOWN, DARK or MISWIRED, and was not there, keeps all but its state, its reason and its width. -/
theorem portFail_fails {n : Nat} {s : State} {p : Port} (found : findPort s n = some p) {st : PortState} (ne : p.state ≠ st)
    (trouble : troubled st = true) (reason : Nat) : PortSet n (failed st reason p) s (portFail n st reason s) := by
  have fails : gone st { p with reason := reason } = failed st reason p := by
    rw [gone, if_neg ne]
    cases st with
    | off | up | training => exact absurd trouble (by decide)
    | down | dark | miswired => rfl
  exact fails ▸ portFail_sets found st reason

theorem portGo_training_sets {n : Nat} {s : State} {p : Port} (found : findPort s n = some p) (ne : p.state ≠ .training) :
    PortSet n (toTraining p) s (portGo n .training s) := by
  have goes := portGo_sets found .training
  rwa [gone_of_ne ne] at goes

/-! ### Training -/

/-- A port that has heard its peer (R390). -/
def heard (swap : Bool) (peer : Identity) (p : Port) : Port := { p with swap := swap, peer := some peer }

/-- A port's width on its way UP (R389). -/
def widened (width : Nat) (p : Port) : Port := { p with width := if width = 8 then 8 else 16 }

/-- What training makes of a port whose peer answers (R387, R390, R391). -/
def trainingEnds (s : State) (width : Nat) (swap linkUp : Bool) (peer : Identity) (p : Port) : Port :=
  if peer.kind = 0 then failed .miswired 6 (heard swap peer p)
  else if peerFits s p peer = false then failed .miswired 3 (heard swap peer p)
  else if linkUp = false then failed .down 5 (heard swap peer p)
  else { heard swap peer p with state := .up, width := if width = 8 then 8 else 16 }

theorem exec_port_trained {n : Nat} {s : State} {p : Port} (found : findPort s n = some p) (training : p.state = .training) (width : Nat)
    (swap linkUp : Bool) (peer : Identity) :
    exec (.portTrained n width swap peer linkUp) s =
      if peer.kind = 0 then .next (portFail n .miswired 6 (onPort n (heard swap peer) s))
      else if peerFits s p peer = false then .next (portFail n .miswired 3 (onPort n (heard swap peer) s))
      else if linkUp = false then .next (portFail n .down 5 (onPort n (heard swap peer) s))
      else .next (onPort n (widened width) (portGo n .up (onPort n (heard swap peer) s))) := by
  show execPortTrained n width swap peer linkUp s = _
  unfold execPortTrained
  rw [found]
  exact if_neg (not_not.mpr training)

theorem portTrained_sets {n : Nat} {s : State} {p : Port} (found : findPort s n = some p) (training : p.state = .training) (width : Nat)
    (swap linkUp : Bool) (peer : Identity) :
    ∃ t, exec (.portTrained n width swap peer linkUp) s = .next t ∧ PortSet n (trainingEnds s width swap linkUp peer p) s t := by
  have hears := onPort_sets found (f := heard swap peer) fun _ => id
  have ne {st : PortState} (h : st ≠ .training) : (heard swap peer p).state ≠ st := fun e => h (e.symm.trans training)
  rw [exec_port_trained found training, trainingEnds]
  split
  case isTrue => exact ⟨_, rfl, hears.trans (portFail_fails hears.here (ne (by decide)) rfl 6)⟩
  split
  case isTrue => exact ⟨_, rfl, hears.trans (portFail_fails hears.here (ne (by decide)) rfl 3)⟩
  split
  case isTrue => exact ⟨_, rfl, hears.trans (portFail_fails hears.here (ne (by decide)) rfl 5)⟩
  have rises := hears.trans (portGo_sets hears.here .up)
  rw [gone_of_ne (ne (by decide))] at rises
  exact ⟨_, rfl, rises.trans (onPort_sets rises.here (f := widened width) fun _ => id)⟩

theorem exec_training_timeout {n : Nat} {s : State} {p : Port} (found : findPort s n = some p) (training : p.state = .training) (step : Nat) :
    exec (.portTrainingTimeout n step) s = .next (portFail n .down (stepReason step) s) := by
  show execPortTrainingTimeout n step s = _
  unfold execPortTrainingTimeout
  rw [found]
  exact if_pos training

/-- What step 1 of training makes of a port with so many lines at its laser input (R387). -/
def retrained (lines : Nat) (p : Port) : Port :=
  if 8 ≤ lines then toTraining { p with peer := none, lostIn := [], spareIn := none } else gone .dark { p with reason := 4 }

theorem retrain_sets {n : Nat} {s : State} {p : Port} (found : findPort s n = some p) (lines : Nat) :
    PortSet n (retrained lines p) s (retrain n lines s) := by
  unfold retrain retrained
  split
  case isTrue =>
    have cleared := onPort_sets found (f := fun x => { x with
      peer := none, lostIn := [], spareIn := none, state := if x.state = .training then .off else x.state }) fun _ => id
    refine cleared.trans (portGo_training_sets (p := { p with
      peer := none, lostIn := [], spareIn := none, state := if p.state = .training then .off else p.state }) cleared.here ?_)
    dsimp only
    split
    · decide
    · assumption
  case isFalse => exact portFail_sets found .dark 4

theorem retrained_asked (lines : Nat) (p : Port) :
    (retrained lines p).leaving = p.leaving ∧ (retrained lines p).want = p.want ∧ (retrained lines p).role = p.role := by
  unfold retrained
  split
  · exact ⟨rfl, rfl, rfl⟩
  · obtain ⟨leaving, want, role, -⟩ := gone_asked .dark { p with reason := 4 }
    exact ⟨leaving, want, role⟩

theorem exec_retry {n : Nat} {s : State} {p : Port} (found : findPort s n = some p) (trouble : p.state = .dark ∨ p.state = .miswired ∨ p.state = .down)
    (lines : Nat) : exec (.portRetryInterval n lines) s = .next (retrain n lines s) := by
  show execPortRetryInterval n lines s = _
  unfold execPortRetryInterval
  rw [found, Option.map_some]
  rcases trouble with e | e | e <;> rw [e]

/-! ### Light, laser feeds and fatal errors -/

theorem exec_feed_restored {n : Nat} {s : State} {p : Port} (found : findPort s n = some p) (dark : p.state = .dark) :
    exec (.laserFeedRestored n) s = .next (portGo n .training s) := by
  show execLaserFeedRestored n s = _
  unfold execLaserFeedRestored
  rw [found, Option.map_some, dark]

theorem exec_light_lost {n : Nat} {s : State} {p : Port} (found : findPort s n = some p) (trying : p.state = .training ∨ p.state = .miswired)
    (noLight : Bool) (unacked : Nat) : exec (.portLightLost n noLight unacked) s = .next (portFail n .down (if noLight then 1 else 2) s) := by
  show execPortLightLost n noLight unacked s = _
  unfold execPortLightLost
  rw [found, Option.map_some]
  rcases trying with e | e <;> rw [e]

theorem exec_light_lost_up {n : Nat} {s : State} {p : Port} (found : findPort s n = some p) (up : p.state = .up) (noLight : Bool) (unacked : Nat) :
    exec (.portLightLost n noLight unacked) s = .next (leaveUp n unacked (portFail n .down (if noLight then 1 else 2)) s) := by
  show execPortLightLost n noLight unacked s = _
  unfold execPortLightLost
  rw [found, Option.map_some, up]

theorem exec_feed_low {n : Nat} {s : State} {p : Port} (found : findPort s n = some p)
    (on : p.state = .training ∨ p.state = .miswired ∨ p.state = .down) {lost : List Nat} (few : 17 - lost.length < 8) (unacked : Nat) :
    exec (.laserFeedLow n lost unacked) s = .next (portFail n .dark 4 s) := by
  show execLaserFeedLow n lost unacked s = _
  unfold execLaserFeedLow
  rw [if_pos few, found, Option.map_some]
  rcases on with e | e | e <;> rw [e]

theorem exec_feed_low_up {n : Nat} {s : State} {p : Port} (found : findPort s n = some p) (up : p.state = .up) {lost : List Nat}
    (few : 17 - lost.length < 8) (unacked : Nat) :
    exec (.laserFeedLow n lost unacked) s = .next (leaveUp n unacked (portFail n .dark 4) s) := by
  show execLaserFeedLow n lost unacked s = _
  unfold execLaserFeedLow
  rw [if_pos few, found, Option.map_some, up]

theorem exec_fatal {n : Nat} {s : State} {p : Port} (found : findPort s n = some p) (training : p.state = .training) (unacked : Nat) :
    exec (.linkLayerFatal n unacked) s = .next (portFail n .down 5 s) := by
  show execLinkLayerFatal n unacked s = _
  unfold execLinkLayerFatal
  rw [found, Option.map_some, training]

theorem exec_fatal_up {n : Nat} {s : State} {p : Port} (found : findPort s n = some p) (up : p.state = .up) (unacked : Nat) :
    exec (.linkLayerFatal n unacked) s = .next (leaveUp n unacked (portFail n .down 5) s) := by
  show execLinkLayerFatal n unacked s = _
  unfold execLinkLayerFatal
  rw [found, Option.map_some, up]

/-! ### Wavelengths -/

theorem loseWave_first_out {w : Nat} {p : Port} (works : w ∉ p.lostOut) (free : p.spareOut = none) :
    loseWave true w p = { p with spareOut := some w } := by
  simp [loseWave, lostOf, works, free]

theorem loseWave_first_in {w : Nat} {p : Port} (works : w ∉ p.lostIn) (free : p.spareIn = none) :
    loseWave false w p = { p with spareIn := some w } := by
  simp [loseWave, lostOf, works, free]

theorem loseWave_second_out {w v : Nat} {p : Port} (works : w ∉ p.lostOut) (used : p.spareOut = some v) (other : w ≠ v) :
    loseWave true w p = { p with lostOut := p.lostOut ++ [w] } := by
  simp [loseWave, lostOf, works, used, other]

theorem loseWave_second_in {w v : Nat} {p : Port} (works : w ∉ p.lostIn) (used : p.spareIn = some v) (other : w ≠ v) :
    loseWave false w p = { p with lostIn := p.lostIn ++ [w] } := by
  simp [loseWave, lostOf, works, used, other]

theorem loseWave_num (out : Bool) (w : Nat) (p : Port) : (loseWave out w p).num = p.num := by
  unfold loseWave
  split
  · rfl
  · split <;> split <;> rfl

/-- The port of a wavelength lost, before what follows from it. -/
theorem loseWave_sets {n : Nat} {s : State} {p : Port} (found : findPort s n = some p) (out : Bool) (w : Nat) :
    PortSet n (loseWave out w p) s (onPort n (fun _ => loseWave out w p) s) :=
  onPort_sets found fun _ _ => (loseWave_num out w p).trans (findKey_some found).1

/-- A wavelength lost in training is named in the health log (R384). -/
theorem spareWave_training {n : Nat} {s : State} {p : Port} (found : findPort s n = some p) (training : p.state = .training) (out : Bool)
    (w unacked : Nat) :
    spareWave n out w unacked s = healthEvent (4 + n / 16) (n * 256 + w) (onPort n (fun _ => loseWave out w p) s) := by
  unfold spareWave
  rw [found]
  exact (if_neg fun idle => idle.2 training).trans (if_pos training)

theorem spareWave_up {n : Nat} {s : State} {p : Port} (found : findPort s n = some p) (up : p.state = .up) (out : Bool) (w unacked : Nat) :
    spareWave n out w unacked s =
      if (loseWave out w p).lostOut = p.lostOut ∧ (loseWave out w p).lostIn = p.lostIn then onPort n (fun _ => loseWave out w p) s
      else if 9 < (lostOf (loseWave out w p) true).length ∨ 9 < (lostOf (loseWave out w p) false).length then
        leaveUp n unacked (portFail n .down 2) (onPort n (fun _ => loseWave out w p) s)
      else leaveUp n unacked (portGo n .training) (onPort n (fun _ => loseWave out w p) s) := by
  have awake : ¬(p.state ≠ .up ∧ p.state ≠ .training) := fun off => off.1 up
  have idle : ¬ p.state = .training := by rw [up]; decide
  unfold spareWave
  rw [found]
  exact (if_neg awake).trans (if_neg idle)

/-- A first wavelength lost of an UP port goes onto the spare and does nothing else (R384). -/
theorem spareWave_first {n : Nat} {s : State} {p q : Port} (found : findPort s n = some p) (up : p.state = .up) {out : Bool} {w : Nat}
    (lose : loseWave out w p = q) (spared : q.lostOut = p.lostOut ∧ q.lostIn = p.lostIn) (unacked : Nat) :
    PortSet n q s (spareWave n out w unacked s) := by
  subst lose
  rw [spareWave_up found up, if_pos spared]
  exact loseWave_sets found out w

/-- A wavelength lost beyond the spare retrains the port, or takes it DOWN where too few of a direction work, with its paths lost after (R389,
R403). -/
theorem spareWave_second {n : Nat} {s : State} {p q r : Port} (found : findPort s n = some p) (up : p.state = .up) {out : Bool} {w : Nat}
    (lose : loseWave out w p = q) (beyond : ¬(q.lostOut = p.lostOut ∧ q.lostIn = p.lostIn)) (still : q.state = .up) {tooFew : Prop}
    [Decidable tooFew] (few : 9 < (lostOf q true).length ∨ 9 < (lostOf q false).length ↔ tooFew)
    (becomes : if tooFew then r = failed .down 2 q else r = toTraining q) (unacked : Nat) :
    ∃ u, spareWave n out w unacked s = drainAll (pathLoss n unacked u) ∧ PortSet n r s u := by
  subst lose
  have lost := loseWave_sets found out w
  rw [spareWave_up found up, if_neg beyond]
  by_cases down : tooFew
  · rw [if_pos down] at becomes
    rw [if_pos (few.mpr down), becomes]
    exact ⟨_, rfl, lost.trans (portFail_fails lost.here (by rw [still]; decide) rfl 2)⟩
  · rw [if_neg down] at becomes
    rw [if_neg (mt few.mp down), becomes]
    exact ⟨_, rfl, lost.trans (portGo_training_sets lost.here (by rw [still]; decide))⟩

/-! ### Roles drained -/

/-- A port that has left its role for another (R394). -/
def withRole (d : PortDesc) (p : Port) : Port := { p with leaving := none, want := d, role := d.role }

/-- A port drained of its role: OFF, before it trains in the new one. -/
def vacated (d : PortDesc) (p : Port) : Port := gone .off { withRole d p with reason := 7 }

/-- The drained port OFF, and its module's lasers as the roles have them (R386). -/
def drainRole (n : Nat) (d : PortDesc) (s : State) : State := lightModules (portFail n .off 7 (onPort n (withRole d) s))

theorem exec_role_drained {n : Nat} {s : State} {p : Port} {d : PortDesc} (found : findPort s n = some p) (leaving : p.leaving = some d) (lines : Nat) :
    exec (.portRoleDrained n lines) s = .next (if d.role = 0 then drainRole n d s else retrain n lines (drainRole n d s)) := by
  show execPortRoleDrained n lines s = _
  unfold execPortRoleDrained
  rw [found]
  dsimp only
  rw [leaving]
  exact (apply_ite Host.Outcome.next ..).symm

/-- From `s` to `t` no more than ports and lasers are changed, and vectors sent. -/
def PortsLit (s t : State) : Prop :=
  t = { s with links := { s.links with ports := t.links.ports, lasers := t.links.lasers }, fns := t.fns, outs := t.outs }

theorem PortsLit.thenMoved {s t u : State} (a : PortsLit s t) (b : PortsMoved t u) : PortsLit s u := by
  unfold PortsLit PortsMoved at *
  rw [b, a]

theorem PortsMoved.thenLit {s t : State} (a : PortsMoved s t) : PortsLit s (lightModules t) := by
  unfold PortsLit PortsMoved at *
  rw [a]
  rfl

theorem vacated_asked (d : PortDesc) (p : Port) :
    (vacated d p).leaving = none ∧ (vacated d p).want = d ∧ (vacated d p).role = d.role ∧ (vacated d p).reason = 7 := gone_asked ..

theorem drainRole_sets {n : Nat} {s : State} {p : Port} (found : findPort s n = some p) (d : PortDesc) :
    findPort (drainRole n d s) n = some (vacated d p) ∧ (∀ k, k ≠ n → findPort (drainRole n d s) k = findPort s k) ∧
      PortsLit s (drainRole n d s) := by
  have asked := onPort_sets found (f := withRole d) fun _ => id
  obtain ⟨here, others, moved⟩ := asked.trans (portFail_sets asked.here .off 7)
  exact ⟨here, others, moved.thenLit⟩

/-! ### The events of a port -/

theorem PortSet.after {n : Nat} {q : Port} {s t : State} {c : Instr} (sets : PortSet n q s t) (run : exec c s = .next t) :
    ∃ t, exec c s = .next t ∧ findPort t n = some q ∧ (∀ k, k ≠ n → findPort t k = findPort s k) ∧ PortsMoved s t :=
  ⟨t, run, sets.here, sets.others, sets.moved⟩

/-- The port has left UP as `q`, before its paths are lost. -/
theorem PortSet.beforeLoss {n k : Nat} {q : Port} {s u : State} {c : Instr} (sets : PortSet n q s u)
    (run : exec c s = .next (drainAll (pathLoss n k u))) :
    ∃ u, exec c s = .next (drainAll (pathLoss n k u)) ∧ findPort u n = some q ∧ (∀ j, j ≠ n → findPort u j = findPort s j) ∧ PortsMoved s u :=
  ⟨u, run, sets.here, sets.others, sets.moved⟩

/-- Settles O47: each event is one of a few changes of its port, `portFail`, `portGo`, `retrain` or `loseWave`, and each of these names the port
that it leaves (`PortSet`). -/
theorem portsTrainAndFail : Obligations.PortsTrainAndFail := by
  unfold Obligations.PortsTrainAndFail
  refine ⟨fun n width swap linkUp peer s p found training => ?trained, fun n c s p q found event => ?plain,
    fun n w k out s p found training => ?named, fun w p => ⟨loseWave_first_out, loseWave_first_in⟩, fun n k c s p q found up event => ?left,
    fun n k lost s enough => if_neg (Nat.not_lt.mpr enough), fun _ _ _ _ _ => rfl, fun n lines s p d found leaving => ?drained⟩
  case trained =>
    obtain ⟨t, run, sets⟩ := portTrained_sets found training width swap linkUp peer
    exact sets.after run
  case plain =>
    have not_yet {a b : PortState} (is : p.state = a) (ne : a ≠ b) : p.state ≠ b := is ▸ ne
    rcases event with ⟨step, rfl, training, rfl⟩ | ⟨rfl, dark, rfl⟩ | ⟨lines, rfl, trouble, enough, rfl⟩ | ⟨lines, rfl, trouble, few, rfl⟩ |
      ⟨lines, rfl, dark, few, rfl⟩ | ⟨noLight, k, rfl, trying, rfl⟩ | ⟨lost, k, rfl, few, on, rfl⟩ | ⟨k, rfl, training, rfl⟩ |
      ⟨w, k, rfl, up, works, free, rfl⟩ | ⟨w, k, rfl, up, works, free, rfl⟩
    · exact (portFail_fails found (not_yet training (by decide)) rfl _).after (exec_training_timeout found training step)
    · exact (portGo_training_sets found (not_yet dark (by decide))).after (exec_feed_restored found dark)
    · have sets := retrain_sets found lines
      rw [retrained, if_pos enough] at sets
      exact sets.after (exec_retry found trouble lines)
    · have sets := retrain_sets found lines
      have lit : p.state ≠ .dark := by rcases trouble with e | e <;> exact not_yet e (by decide)
      rw [retrained, if_neg (Nat.not_le.mpr few), gone, if_neg lit] at sets
      exact sets.after (exec_retry found (.inr trouble) lines)
    · have sets := retrain_sets found lines
      rw [retrained, if_neg (Nat.not_le.mpr few), gone, if_pos dark] at sets
      exact sets.after (exec_retry found (.inl dark) lines)
    · have ne : p.state ≠ .down := by rcases trying with e | e <;> exact not_yet e (by decide)
      exact (portFail_fails found ne rfl _).after (exec_light_lost found trying noLight k)
    · have lit : p.state ≠ .dark := by rcases on with e | e | e <;> exact not_yet e (by decide)
      exact (portFail_fails found lit rfl 4).after (exec_feed_low found on few k)
    · exact (portFail_fails found (not_yet training (by decide)) rfl 5).after (exec_fatal found training k)
    · exact (spareWave_first found up (loseWave_first_out works free) ⟨rfl, rfl⟩ k).after rfl
    · exact (spareWave_first found up (loseWave_first_in works free) ⟨rfl, rfl⟩ k).after rfl
  case named =>
    have lost := loseWave_sets found out w
    exact ⟨_, congrArg Host.Outcome.next (spareWave_training found training out w k), lost.here, lost.others, rfl, healthEvent_logged .., rfl, rfl⟩
  case left =>
    have away {st : PortState} (ne : .up ≠ st) : p.state ≠ st := up ▸ ne
    rcases event with ⟨noLight, rfl, rfl⟩ | ⟨lost, rfl, few, rfl⟩ | ⟨rfl, rfl⟩ | ⟨w, v, rfl, used, works, other, becomes⟩ |
      ⟨w, v, rfl, used, works, other, becomes⟩
    · exact (portFail_fails found (away (by decide)) rfl _).beforeLoss (exec_light_lost_up found up noLight k)
    · exact (portFail_fails found (away (by decide)) rfl 4).beforeLoss (exec_feed_low_up found up few k)
    · exact (portFail_fails found (away (by decide)) rfl 5).beforeLoss (exec_fatal_up found up k)
    · obtain ⟨u, run, sets⟩ := spareWave_second found up (loseWave_second_out works used other) (by simp) up (by simp [lostOf, used]) becomes k
      exact sets.beforeLoss (congrArg Host.Outcome.next run)
    · obtain ⟨u, run, sets⟩ := spareWave_second found up (loseWave_second_in works used other) (by simp) up (by simp [lostOf, used]) becomes k
      exact sets.beforeLoss (congrArg Host.Outcome.next run)
  case drained =>
    obtain ⟨here, others, lit⟩ := drainRole_sets found d
    obtain ⟨left, want, role, reason⟩ := vacated_asked d p
    rw [exec_role_drained found leaving]
    by_cases unused : d.role = 0
    · rw [if_pos unused]
      exact ⟨_, _, rfl, here, left, want, role, fun _ => ⟨gone_state .., reason⟩, absurd unused, absurd unused, others, lit⟩
    · rw [if_neg unused]
      have sets := retrain_sets here lines
      obtain ⟨l, w, r⟩ := retrained_asked lines (vacated d p)
      refine ⟨_, _, rfl, sets.here, l.trans left, w.trans want, r.trans role, fun zero => absurd zero unused, fun _ enough => ?_, fun _ few => ?_,
        fun j other => (sets.others j other).trans (others j other), lit.thenMoved sets.moved⟩
      · rw [retrained, if_pos enough]
        rfl
      · rw [retrained, if_neg (Nat.not_le.mpr few)]
        exact ⟨gone_state .., (gone_asked ..).2.2.2⟩

end Sys2Proof.Machine
end

section
/-! Fabric traffic: writes and reads under the check of their epoch and their window, responses by their tag, and notices (R399 to R401, R404, R405,
R415; the reason of a timeout is the model's, log entry 50). -/

namespace Sys2Proof.Machine

/-! ### Windows -/

/-- The window of a number changed. -/
def onWin (n : Nat) (f : Win → Win) (s : State) : State :=
  { s with links := { s.links with windows := s.links.windows.map fun w => if w.num = n then f w else w } }

/-- From `s` to `t` no more than windows are changed. -/
def WindowsOnly (s t : State) : Prop := t = { s with links := { s.links with windows := t.links.windows } }

theorem WindowsOnly.refl (s : State) : WindowsOnly s s := rfl

theorem WindowsOnly.trans {s t u : State} (a : WindowsOnly s t) (b : WindowsOnly t u) : WindowsOnly s u := by
  unfold WindowsOnly at *
  rw [b, a]

theorem findWin_num {s : State} {k : Nat} {w : Win} (found : findWin s k = some w) : w.num = k := by
  have is : (w.num == k && w.kind != 0) = true := List.find?_some (p := fun w : Win => w.num == k && w.kind != 0) found
  simpa using (Bool.and_eq_true_iff.mp is).1

/-- A window that keeps its number and its kind is found changed, and every other as it was. -/
theorem findWin_onWin {n : Nat} {f : Win → Win} (hf : ∀ w, (f w).num = w.num ∧ (f w).kind = w.kind) (s : State) (k : Nat) :
    findWin (onWin n f s) k = if k = n then (findWin s k).map f else findWin s k := by
  have named : ∀ w : Win, ((if w.num = n then f w else w).num == k && (if w.num = n then f w else w).kind != 0) = (w.num == k && w.kind != 0) := by
    intro w
    split
    · rw [(hf w).1, (hf w).2]
    · rfl
  have found : findWin (onWin n f s) k = (findWin s k).map fun w => if w.num = n then f w else w := by
    unfold findWin onWin
    rw [List.find?_map]
    exact congrArg (Option.map _) (List.find?_congr fun w _ => named w)
  rw [found]
  cases hw : findWin s k with
  | none => simp
  | some w =>
    simp only [Option.map_some, findWin_num hw]
    split <;> rfl

theorem winAllows_found {s : State} {h : FabricHdr} {write : Bool} {w : Win} (allows : winAllows s h write = some w) :
    findWin s h.window = some w ∧ w.num = h.window := by
  have found : findWin s h.window = some w := by
    unfold winAllows at allows
    cases hx : findWin s h.window with
    | none =>
      rw [hx] at allows
      cases allows
    | some x =>
      rw [hx] at allows
      exact (ite_eq_iff.mp allows).elim And.right fun shut => nomatch shut.2
  exact ⟨found, findWin_num found⟩

/-! ### Lines stored -/

/-- A window with a line stored. -/
def lineStored (offset : Nat) (l : Line) (w : Win) : Win := { w with data := (w.data.filter fun d => d.1 != offset) ++ [(offset, l)] }

/-- A window with lines stored one after another, each at its place after an offset. -/
def linesStored (offset : Nat) (es : List (Nat × Line)) (w : Win) : Win := es.foldl (fun w e => lineStored (offset + e.1) e.2 w) w

/-- Lines stored in a window of a number, one after another. -/
def storeLines (n offset : Nat) (es : List (Nat × Line)) (s : State) : State := forEach es (fun e t => storeLine n (offset + e.1) e.2 t) s

theorem storeLine_windowsOnly (n offset : Nat) (l : Line) (s : State) : WindowsOnly s (storeLine n offset l s) := rfl

theorem storeLines_windowsOnly (n offset : Nat) (es : List (Nat × Line)) (s : State) : WindowsOnly s (storeLines n offset es s) :=
  forEach_rel WindowsOnly.refl WindowsOnly.trans (fun (e : Nat × Line) t => storeLine_windowsOnly n (offset + e.1) e.2 t) es s

theorem findWin_storeLines (n offset : Nat) (es : List (Nat × Line)) (s : State) (k : Nat) :
    findWin (storeLines n offset es s) k = if k = n then (findWin s k).map (linesStored offset es) else findWin s k := by
  induction es generalizing s with
  | nil =>
    show findWin s k = if k = n then (findWin s k).map id else findWin s k
    simp
  | cons e es ih =>
    have first : findWin (storeLine n (offset + e.1) e.2 s) k = _ := findWin_onWin (f := lineStored (offset + e.1) e.2) (fun _ => ⟨rfl, rfl⟩) s k
    refine (ih _).trans ?_
    rw [first]
    split
    · exact Option.map_map ..
    · rfl

theorem linesStored_keeps {offset : Nat} {es : List (Nat × Line)} {w : Win} {d : Nat × Line} (stood : d ∈ w.data)
    (apart : ∀ e ∈ es, offset + e.1 ≠ d.1) : d ∈ (linesStored offset es w).data := by
  induction es generalizing w with
  | nil => exact stood
  | cons e es ih =>
    obtain ⟨first, rest⟩ := List.forall_mem_cons.mp apart
    exact ih (List.mem_append_left _ (List.mem_filter.mpr ⟨stood, by simpa using first.symm⟩)) rest

theorem linesStored_stores {offset : Nat} {es : List (Nat × Line)} {w : Win} (places : (es.map Prod.fst).Nodup) {e : Nat × Line} (he : e ∈ es) :
    (offset + e.1, e.2) ∈ (linesStored offset es w).data := by
  induction es generalizing w with
  | nil => cases he
  | cons x es ih =>
    obtain ⟨new, places⟩ := List.nodup_cons.mp places
    rcases List.mem_cons.mp he with rfl | he
    · have last : (offset + e.1, e.2) ∈ (lineStored (offset + e.1) e.2 w).data := List.mem_append_right _ (List.mem_singleton.mpr rfl)
      refine linesStored_keeps (es := es) last fun y hy same => new ?_
      exact List.mem_map.mpr ⟨y, hy, Nat.add_left_cancel same⟩
    · exact ih places he

/-- The lines of a write with their places. -/
def placed (ls : List Line) : List (Nat × Line) := (List.range ls.length).zip ls

theorem placed_places (ls : List Line) : (placed ls).map Prod.fst = List.range ls.length := List.map_fst_zip (by simp)

theorem mem_placed {ls : List Line} {i : Nat} {l : Line} (at_ : ls[i]? = some l) : (i, l) ∈ placed ls := by
  have bound : i < ls.length := (List.getElem?_eq_some_iff.mp at_).1
  exact List.mem_of_getElem? (List.getElem?_zip_eq_some.mpr ⟨List.getElem?_range bound, at_⟩)

theorem place_of_mem_placed {ls : List Line} {e : Nat × Line} (he : e ∈ placed ls) : e.1 < ls.length := List.mem_range.mp (List.of_mem_zip he).1

/-- A window neither for landing nor for results stores what is written to it (R399). -/
theorem landWrite_stores {w : Win} (landing : w.kind ≠ 1) (results : w.kind ≠ 4) (offset : Nat) (ls : List Line) (s : State) :
    landWrite w offset ls s = storeLines w.num offset (placed ls) s := by
  unfold landWrite
  exact (if_neg landing).trans (if_neg fun release => results release.1)

/-! ### Writes -/

theorem exec_write_held {s : State} {h : FabricHdr} (future : epochSays s h.epoch = .future) (port : Nat) (lines : List Line) :
    exec (.fabricWriteReceived port h lines) s =
      .next { s with links := { s.links with held := s.links.held ++ [.fabricWriteReceived port h lines] } } := by
  show execFabricWriteReceived port h lines s = _
  unfold execFabricWriteReceived
  rw [future]

theorem exec_write_refused {s : State} {h : FabricHdr} (out : epochSays s h.epoch = .other ∨ (epochSays s h.epoch = .live ∧ winAllows s h true = none))
    (port : Nat) (lines : List Line) : exec (.fabricWriteReceived port h lines) s = .next (refuseWrite h.window s) := by
  show execFabricWriteReceived port h lines s = _
  unfold execFabricWriteReceived
  rcases out with other | ⟨live, shut⟩
  · rw [other]
  · rw [live, shut]

theorem exec_write_taken {s : State} {h : FabricHdr} {w : Win} (live : epochSays s h.epoch = .live) (allows : winAllows s h true = some w) (port : Nat)
    (lines : List Line) :
    exec (.fabricWriteReceived port h lines) s = .next (drainAll (landWrite w h.offset (lines.take h.count) s)) := by
  show execFabricWriteReceived port h lines s = _
  unfold execFabricWriteReceived
  rw [live, allows]

/-- A window with one more write refused (R399). -/
def refusal (w : Win) : Win := { w with refused := w.refused + 1 }

theorem findWin_refuseWrite (n : Nat) (s : State) (k : Nat) :
    findWin (refuseWrite n s) k = if k = n then (findWin s k).map refusal else findWin s k := findWin_onWin (f := refusal) (fun _ => ⟨rfl, rfl⟩) s k

/-! ### Headers sent -/

theorem raiseCredits_num (n : Nat) (but : Option Nat) (p : Port) : (raiseCredits n but p).num = p.num := by
  unfold raiseCredits
  refine List.foldlRecOn _ _ (motive := fun q : Port => q.num = p.num) rfl fun q same c _ => ?_
  split
  · exact same
  · exact same

theorem moveGate_num (k n : Nat) (p : Port) : (moveGate k n p).num = p.num := by
  induction k generalizing n p with
  | zero => rfl
  | succ k ih =>
    unfold moveGate
    split
    · rfl
    · split
      · rfl
      · exact ih ..

theorem sendUnit_num (c : Nat) (u : FOut) (p : Port) : (sendUnit c u p).num = p.num := by
  refine (moveGate_num ..).trans ?_
  dsimp only
  split
  · exact raiseCredits_num ..
  · exact raiseCredits_num ..

theorem pumpPort_num (k : Nat) (p : Port) : (pumpPort k p).1.num = p.num := by
  induction k generalizing p with
  | zero => rfl
  | succ k ih =>
    unfold pumpPort
    split
    · rfl
    · split
      · rfl
      · exact (ih _).trans (sendUnit_num ..)

theorem offerUnit_num (u : FOut) (p : Port) : (offerUnit u p).1.num = p.num := pumpPort_num ..

/-- A unit given to a port, with what the port sends at once among what went out (R358). -/
def offered (n : Nat) (p : Port) (u : FOut) (s : State) : State :=
  onPort n (fun _ => (offerUnit u p).1) { s with links := { s.links with out := s.links.out ++ (offerUnit u p).2 } }

theorem findPort_offered {n : Nat} {p : Port} {s : State} (found : findPort s n = some p) (u : FOut) :
    findPort (offered n p u s) n = some (offerUnit u p).1 ∧ ∀ k, k ≠ n → findPort (offered n p u s) k = findPort s k := by
  have num : (offerUnit u p).1.num = n := (offerUnit_num u p).trans (findKey_some found).1
  have sets := findPort_onPort (n := n) (f := fun _ => (offerUnit u p).1) (fun _ _ => num) s
  refine ⟨(sets n).trans ?_, fun k other => (sets k).trans (if_neg other)⟩
  rw [if_pos rfl, found]
  rfl

theorem sendHdr_offers {engine e d c p : Nat} {h : FabricHdr} {lines : List Line} {s : State} {q : Port}
    (flow : s.links.flows.find? (fun (f : Nat × Nat × Nat × Nat) => f.1 == engine && f.2.1 == h.dest && f.2.2.1 == h.cls) = some (e, d, c, p))
    (found : findPort s p = some q) : sendHdr engine h lines s = offered p q { port := p, hdr := h, lines := lines } s := by
  have num : q.num = p := (findKey_some found).1
  have own : flowPort engine h.dest h.cls s = (some p, s) := by
    unfold flowPort
    rw [flow]
  unfold sendHdr
  rw [own]
  dsimp only
  rw [Option.bind_some, found]
  dsimp only
  rw [num]
  rfl

/-! ### Read requests -/

theorem exec_read_held {s : State} {h : FabricHdr} (future : epochSays s h.epoch = .future) (port : Nat) :
    exec (.fabricReadRequest port h) s = .next { s with links := { s.links with held := s.links.held ++ [.fabricReadRequest port h] } } := by
  show execFabricReadRequest port h s = _
  unfold execFabricReadRequest
  rw [future]

theorem exec_read_answered {s : State} {h : FabricHdr} (known : epochSays s h.epoch ≠ .future) (port : Nat) :
    exec (.fabricReadRequest port h) s = .next (answerRead h s) := by
  show execFabricReadRequest port h s = _
  unfold execFabricReadRequest
  cases standing : epochSays s h.epoch with
  | future => exact absurd standing known
  | live => rfl
  | other => rfl

/-- What answers a read: its kind and reason, its lines, and the state that sends it, which may have drawn a value for lines never written. -/
structure Reply where
  kind : Nat
  reason : Nat
  lines : List Line
  sender : State

/-- The reply to a read request by its epoch and its window (R399, R405, Table 14-4). -/
def replyTo (h : FabricHdr) (s : State) : Reply :=
  if epochSays s h.epoch = .other then ⟨4, 5, [], s⟩
  else match winAllows s h false with
    | none => ⟨4, 3, [], s⟩
    | some w => ⟨3, 0, winLines s w h.offset h.count, drawFree s⟩

/-- The header of a reply to a read request. -/
def replyHdr (h : FabricHdr) (r : Reply) : FabricHdr := newHdr r.sender r.kind h.cls h.count h.source h.window h.offset h.tag r.reason

/-- The unit that a read request is answered with, at the port of its flow. -/
def replyUnit (port : Nat) (h : FabricHdr) (s : State) : FOut := { port := port, hdr := replyHdr h (replyTo h s), lines := (replyTo h s).lines }

theorem answerRead_replies {h : FabricHdr} {s : State} :
    answerRead h s = sendHdr 0 (replyHdr h (replyTo h s)) (replyTo h s).lines (replyTo h s).sender := by
  unfold answerRead replyTo
  cases epochSays s h.epoch with
  | other => rfl
  | live | future =>
    dsimp only
    rw [if_neg (by decide)]
    cases winAllows s h false <;> rfl

theorem replyTo_sender (h : FabricHdr) (s : State) : (replyTo h s).sender = { s with free := (replyTo h s).sender.free } := by
  unfold replyTo
  split
  · rfl
  · split <;> rfl

theorem replyTo_other {h : FabricHdr} {s : State} (other : epochSays s h.epoch = .other) : replyTo h s = ⟨4, 5, [], s⟩ := if_pos other

theorem replyTo_refused {h : FabricHdr} {s : State} (live : epochSays s h.epoch = .live) (shut : winAllows s h false = none) :
    replyTo h s = ⟨4, 3, [], s⟩ := by
  rw [replyTo, live, if_neg (by decide), shut]

theorem replyTo_allowed {h : FabricHdr} {s : State} {w : Win} (live : epochSays s h.epoch = .live) (allows : winAllows s h false = some w) :
    replyTo h s = ⟨3, 0, winLines s w h.offset h.count, drawFree s⟩ := by
  rw [replyTo, live, if_neg (by decide), allows]

/-- A read request that is not held is answered by one unit offered to the port of its flow. -/
theorem exec_read_offers {e d c p : Nat} {h : FabricHdr} {s : State} {q : Port} (known : epochSays s h.epoch ≠ .future) (found : findPort s p = some q)
    (flow : s.links.flows.find? (fun (f : Nat × Nat × Nat × Nat) => f.1 == 0 && f.2.1 == h.source && f.2.2.1 == h.cls) = some (e, d, c, p))
    (port : Nat) :
    exec (.fabricReadRequest port h) s = .next (offered p q (replyUnit p h s) { s with free := (replyTo h s).sender.free }) := by
  have sender := replyTo_sender h s
  have links : (replyTo h s).sender.links = s.links := by rw [sender]
  have offers := sendHdr_offers (engine := 0) (h := replyHdr h (replyTo h s)) (lines := (replyTo h s).lines) (s := (replyTo h s).sender)
    (by rw [links]; exact flow) (by rw [findPort, links]; exact found)
  rw [exec_read_answered known, answerRead_replies, offers, ← sender]
  rfl

theorem winLines_length (s : State) (w : Win) (offset count : Nat) : (winLines s w offset count).length = count := by simp [winLines]

/-! ### Responses and timeouts -/

/-- The reads in use but the one of a tag. -/
def retireTag (tag : Nat) (s : State) : State := { s with links := { s.links with reads := s.links.reads.filter fun k => k.tag != tag } }

theorem exec_response_unused {h : FabricHdr} {s : State} (unused : ∀ r ∈ s.links.reads, r.tag ≠ h.tag) (port : Nat) :
    exec (.fabricReadResponse port h) s = .next s ∧ exec (.fabricReadTimeout h.tag) s = .next s := by
  have absent : s.links.reads.find? (fun (r : FRead) => r.tag == h.tag) = none := List.find?_eq_none.mpr fun r hr => by simpa using unused r hr
  constructor
  · show execFabricReadResponse port h s = _
    unfold execFabricReadResponse
    rw [absent]
  · show execFabricReadTimeout h.tag s = _
    unfold execFabricReadTimeout
    rw [absent]

theorem exec_response {h : FabricHdr} {s : State} {r : FRead} (used : s.links.reads.find? (fun (r : FRead) => r.tag == h.tag) = some r) (port : Nat) :
    exec (.fabricReadResponse port h) s =
      if h.kind = 4 then .next (tryRetire (drainAll (poison r h.reason s))) else .next (tryRetire (retireTag h.tag s)) := by
  have tag : r.tag = h.tag := by simpa using List.find?_some used
  show execFabricReadResponse port h s = _
  unfold execFabricReadResponse
  rw [used, ← tag]
  rfl

theorem exec_timeout {tag : Nat} {s : State} {r : FRead} (used : s.links.reads.find? (fun (r : FRead) => r.tag == tag) = some r) :
    exec (.fabricReadTimeout tag) s = .next (tryRetire (drainAll (poison r timeoutReason s))) := by
  show execFabricReadTimeout tag s = _
  unfold execFabricReadTimeout
  rw [used]

/-- A port with one more read poisoned (R405). -/
def withPoisoned (p : Port) : Port := { p with poisoned := p.poisoned + 1 }

/-- A report to the fabric manager stays in the rack's own state. -/
theorem reportFabric_rack (dest window reason : Nat) (s : State) :
    reportFabric dest window reason s = { s with rack := (reportFabric dest window reason s).rack } := by
  unfold reportFabric
  split <;> rfl

theorem poison_manager {r : FRead} (own : r.issuer = .manager) (reason : Nat) (s : State) :
    poison r reason s = reportFabric r.dest r.window reason (onPort r.port withPoisoned (retireTag r.tag s)) := by
  unfold poison
  rw [own]
  rfl

/-- A manager's read poisoned: its tag retired, and counted at its port. -/
theorem poison_manager_counts {r : FRead} (own : r.issuer = .manager) (reason : Nat) (s : State) :
    let u := poison r reason s
    u.links.reads = s.links.reads.filter (fun k => k.tag != r.tag) ∧
      (∀ k, findPort u k = if k = r.port then (findPort s k).map withPoisoned else findPort s k) ∧
      u.sess = s.sess ∧ u.rcl = s.rcl ∧ u.sched = s.sched := by
  have counted := findPort_onPort (n := r.port) (f := withPoisoned) (fun _ => id) (retireTag r.tag s)
  dsimp only
  rw [poison_manager own, reportFabric_rack]
  exact ⟨rfl, counted, rfl, rfl, rfl⟩

/-! ### Notices -/

/-- The packages that cannot be reached, with one of them marked so or no longer (R404). -/
def withUnreachable (ps : List Nat) (s : State) : State := { s with links := { s.links with unreachable := ps } }

theorem exec_notice_lost {h : FabricHdr} {s : State} (lost : h.reason = 1) (unread : ∀ r ∈ s.links.reads, r.dest ≠ h.dest) :
    exec (.fabricNotice h) s = .next (drainAll (withUnreachable (s.links.unreachable.filter (· != h.dest) ++ [h.dest]) s)) := by
  have absent : (s.links.reads.filter fun (r : FRead) => r.dest == h.dest) = [] := List.filter_eq_nil_iff.mpr fun r hr => by simpa using unread r hr
  show execFabricNotice h s = _
  unfold execFabricNotice
  dsimp only
  rw [if_pos lost, absent]
  rfl

theorem exec_notice_back {h : FabricHdr} {s : State} (back : h.reason = 0) :
    exec (.fabricNotice h) s = .next (withUnreachable (s.links.unreachable.filter (· != h.dest)) s) := by
  show execFabricNotice h s = _
  unfold execFabricNotice
  dsimp only
  rw [if_neg (by rw [back]; decide), if_pos back]
  rfl

/-- Settles O48: the check of a header picks the equation, a write's lines are found in its window's data as their places differ, and a reply
is one unit offered to its flow's port. -/
theorem fabricTrafficIsChecked : Obligations.FabricTrafficIsChecked := by
  unfold Obligations.FabricTrafficIsChecked
  refine ⟨fun port h lines s => ⟨fun future => ⟨exec_write_held future port lines, exec_read_held future port⟩, fun out => ?refused,
    fun w live allows landing results => ?stored, fun w live allows => exec_write_taken live allows port lines⟩,
    fun port p e d c h s q known found flow => ?answered, fun port h s => ⟨fun unused => exec_response_unused unused port, fun r used =>
      ⟨fun good => (exec_response used port).trans (if_neg good), ?timeout, fun poisoned own => ?poisoned⟩⟩,
    fun h s => ⟨fun lost unread => ?lost, fun back => ?back⟩⟩
  case refused =>
    refine ⟨_, exec_write_refused out port lines, fun w hw => ?_, fun k other => ?_, rfl⟩
    · rw [findWin_refuseWrite, if_pos rfl, hw]
      rfl
    · rw [findWin_refuseWrite, if_neg other]
  case stored =>
    obtain ⟨found, num⟩ := winAllows_found allows
    have run := exec_write_taken live allows port lines
    rw [landWrite_stores landing results, num] at run
    refine ⟨_, linesStored h.offset (placed (lines.take h.count)) w, run, ?_, fun i l at_ => ?_, fun d stood apart => ?_, fun k other => ?_,
      storeLines_windowsOnly ..⟩
    · rw [findWin_storeLines, if_pos rfl, found]
      rfl
    · exact linesStored_stores (by rw [placed_places]; exact List.nodup_range) (mem_placed at_)
    · refine linesStored_keeps stood fun x hx same => ?_
      have := place_of_mem_placed hx
      omega
    · rw [findWin_storeLines, if_neg other]
  case answered =>
    obtain ⟨here, others⟩ := findPort_offered found (replyUnit p h s)
    refine ⟨_, replyUnit p h s, exec_read_offers known found flow port, rfl, here, others, fun idle gates shares low => ?_, rfl, rfl, rfl, rfl, rfl,
      rfl, rfl, fun other => ?_, fun live shut => ?_, fun w live allows => ?_, rfl⟩
    · obtain ⟨sent, empty⟩ := offerUnit_idle (replyUnit p h s) q idle gates shares low
      exact ⟨congrArg (s.links.out ++ ·) sent, empty⟩
    · rw [replyUnit, replyTo_other other]
      exact ⟨rfl, rfl, rfl⟩
    · rw [replyUnit, replyTo_refused live shut]
      exact ⟨rfl, rfl, rfl⟩
    · rw [replyUnit, replyTo_allowed live allows]
      exact ⟨rfl, rfl, rfl, winLines_length ..⟩
  case timeout =>
    exact (exec_timeout used).trans (exec_response (h := { h with kind := 4, reason := timeoutReason }) used port).symm
  case poisoned =>
    have tag : r.tag = h.tag := by simpa using List.find?_some used
    obtain ⟨reads, ports, sess, rcl, sched⟩ := poison_manager_counts own h.reason s
    refine ⟨_, (exec_response used port).trans (if_pos poisoned), tag ▸ reads, fun q hq => ?_, fun k other => (ports k).trans (if_neg other), sess, rcl,
      sched⟩
    rw [ports, if_pos rfl, hq]
    rfl
  case lost =>
    refine ⟨_, exec_notice_lost lost unread, List.mem_append_right _ (List.mem_singleton.mpr rfl), fun k hk => ?_, rfl⟩
    by_cases named : k = h.dest
    · exact List.mem_append_right _ (List.mem_singleton.mpr named)
    · exact List.mem_append_left _ (List.mem_filter.mpr ⟨hk, by simpa using named⟩)
  case back =>
    exact ⟨_, exec_notice_back back, fun listed => by simpa using (List.mem_filter.mp listed).2,
      fun k hk other => List.mem_filter.mpr ⟨hk, by simpa using other⟩, rfl⟩

end Sys2Proof.Machine
end

section
/-! Manager messages: each is an entry taken once, under any epoch or under a live one, and what a message sent makes of the rack's rings (R411, R412,
R415, Table 14-4). -/

namespace Sys2Proof.Machine

/-! ### A message sent -/

/-- The message that this package would send a peer now (R411, R412). -/
def mgrMsg (peer kind handle : Nat) (body : List Nat) (records : List MapRecord) (bytes : List Byte) (s : State) : MgrMsg :=
  { peer := peer, seq := countOf s.rack.nextSeq peer + 1, kind := kind, epoch := newestEpoch s, handle := handle, body := body
    records := records, bytes := bytes }

/-- From `s` to `t` nothing but messages sent is added: numbered, put into their peers' rings and kept until they are acknowledged. -/
def SentOnly (s t : State) : Prop :=
  t = { s with rack := { s.rack with nextSeq := t.rack.nextSeq, unacked := t.rack.unacked, outbox := t.rack.outbox } }

theorem SentOnly.refl (s : State) : SentOnly s s := rfl

theorem SentOnly.trans {s t u : State} (a : SentOnly s t) (b : SentOnly t u) : SentOnly s u := by
  unfold SentOnly at *
  rw [b, a]

theorem SentOnly.rackOnly {s t : State} (a : SentOnly s t) : t = { s with rack := t.rack } := by
  rw [a]

theorem SentOnly.sess {s t : State} (a : SentOnly s t) : t.sess = s.sess := (congrArg State.sess a :)
theorem SentOnly.links {s t : State} (a : SentOnly s t) : t.links = s.links := (congrArg State.links a :)
theorem SentOnly.migrations {s t : State} (a : SentOnly s t) : t.rack.migrations = s.rack.migrations := (congrArg (fun t => t.rack.migrations) a :)
theorem SentOnly.aborted {s t : State} (a : SentOnly s t) : t.rack.aborted = s.rack.aborted := (congrArg (fun t => t.rack.aborted) a :)

section
variable (peer kind handle : Nat) (body : List Nat) (records : List MapRecord) (bytes : List Byte) (s : State)

theorem sendMgr_sentOnly : SentOnly s (sendMgr peer kind handle body records bytes s) := rfl

/-- What was sent stays in the rings. -/
theorem mem_outbox_sendMgr {k : MgrMsg} (sent : k ∈ s.rack.outbox) : k ∈ (sendMgr peer kind handle body records bytes s).rack.outbox :=
  List.mem_append_left _ sent

theorem mgrMsg_mem_outbox : mgrMsg peer kind handle body records bytes s ∈ (sendMgr peer kind handle body records bytes s).rack.outbox :=
  List.mem_append_right _ (List.mem_singleton.mpr rfl)
end

/-! ### An entry taken -/

/-- The state with one entry more consumed (R411). -/
def consumedOne (s : State) : State := { s with rack := { s.rack with consumed := s.rack.consumed + 1 } }

section
variable {h : MgrHdr} {s : State} {body : State → State}

theorem takeOnce_offRack (off : onRack s = false) : takeOnce h body s = s := if_pos off

theorem takeOnce_badCrc (on : onRack s = true) (bad : h.crcOk = false) : takeOnce h body s = consumedOne s := by
  unfold takeOnce
  rw [if_neg (by simp [on])]
  exact if_pos bad

theorem takeOnce_again (on : onRack s = true) (good : h.crcOk = true) (seen : (h.source, h.seq) ∈ s.rack.seen) :
    takeOnce h body s = ackDone h (consumedOne s) := by
  unfold takeOnce
  rw [if_neg (by simp [on])]
  exact (if_neg (by simp [good])).trans (if_pos (by simpa using seen))

theorem takeOnce_fresh (fresh : FreshEntry h s) : takeOnce h body s = acked h (body (entryTaken h s)) := by
  obtain ⟨on, good, unseen⟩ := fresh
  unfold takeOnce
  rw [if_neg (by simp [on])]
  exact (if_neg (by simp [good])).trans (if_neg (by rw [unseen]; simp))

/-- A command that takes an entry once carries out what `u` says of a fresh one, and acknowledges it. -/
theorem runs_once {u : State} (fresh : FreshEntry h s) (acts : body (entryTaken h s) = u) :
    (Host.Outcome.next (takeOnce h body s) : Host.Outcome State Fault Refusal) = .next (acked h u) :=
  congrArg _ ((takeOnce_fresh fresh).trans (congrArg _ acts))

/-! ### An entry under an epoch -/

variable {c : Instr} {holds : State → Bool}

theorem takeUnder_offRack (off : onRack s = false) : takeUnder c h holds body s = s := by
  unfold takeUnder
  rw [if_neg (by simp [off]), takeOnce_offRack off]

theorem takeUnder_badCrc (on : onRack s = true) (bad : h.crcOk = false) : takeUnder c h holds body s = consumedOne s := by
  unfold takeUnder
  rw [if_neg (by simp [bad]), takeOnce_badCrc on bad]

section
variable (on : onRack s = true) (good : h.crcOk = true)
include on good

theorem takeUnder_live (live : mgrEpoch s h.epoch = .live) : takeUnder c h holds body s =
    if holds s || s.rack.seen.contains (h.source, h.seq) then takeOnce h body s else staleMgr h s := by
  unfold takeUnder
  rw [if_pos (by simp [on, good]), live]

theorem takeUnder_again (live : mgrEpoch s h.epoch = .live) (seen : (h.source, h.seq) ∈ s.rack.seen) :
    takeUnder c h holds body s = ackDone h (consumedOne s) := by
  rw [takeUnder_live on good live, if_pos (by simp [seen]), takeOnce_again on good seen]

theorem takeUnder_future (future : mgrEpoch s h.epoch = .future) : takeUnder c h holds body s =
    if s.rack.heldMgr.contains c then s else { s with rack := { s.rack with heldMgr := s.rack.heldMgr ++ [c] } } := by
  unfold takeUnder
  rw [if_pos (by simp [on, good]), future]

theorem takeUnder_other (other : mgrEpoch s h.epoch = .other) : takeUnder c h holds body s = staleMgr h s := by
  unfold takeUnder
  rw [if_pos (by simp [on, good]), other]
end

section
variable (fresh : FreshEntry h s) (live : mgrEpoch s h.epoch = .live)
include fresh live

/-- A fresh entry under a live epoch, of a package that holds its target, is carried out (Table 14-4). -/
theorem takeUnder_fresh (target : holds s = true) : takeUnder c h holds body s = acked h (body (entryTaken h s)) := by
  have ⟨on, good, _⟩ := fresh
  rw [takeUnder_live on good live, if_pos (by simp [target]), takeOnce_fresh fresh]

/-- A command that takes an entry under its epoch does so, where the package holds its target. -/
theorem runs_under {u : State} (target : holds s = true) (acts : body (entryTaken h s) = u) :
    (Host.Outcome.next (takeUnder c h holds body s) : Host.Outcome State Fault Refusal) = .next (acked h u) :=
  congrArg _ ((takeUnder_fresh fresh live target).trans (congrArg _ acts))

/-- One of a package that does not hold its target is answered STALE_EPOCH. -/
theorem takeUnder_stale (away : holds s = false) : takeUnder c h holds body s = staleMgr h s := by
  obtain ⟨on, good, unseen⟩ := fresh
  rw [takeUnder_live on good live, if_neg (by rw [away, unseen]; simp)]
end
end

/-! ### Every manager message is such an entry -/

/-- A message that crosses packages under an epoch is an entry taken under one. -/
theorem exec_under {c : Instr} {h : MgrHdr} (names : epochHdr c = some h) :
    ∃ holds body, ∀ s, exec c s = .next (takeUnder c h holds body s) := by
  cases c <;> cases names <;> exact ⟨_, _, fun _ => rfl⟩

/-- Every other is an entry taken once. -/
theorem exec_once {c : Instr} {h : MgrHdr} (names : anyHdr c = some h) : ∃ body, ∀ s, exec c s = .next (takeOnce h body s) := by
  cases c <;> cases names <;> exact ⟨_, fun _ => rfl⟩

/-- A message held for its epoch stands among those held, once. -/
theorem mem_heldMgr {c : Instr} (s : State) :
    c ∈ (if s.rack.heldMgr.contains c then s else { s with rack := { s.rack with heldMgr := s.rack.heldMgr ++ [c] } }).rack.heldMgr := by
  split
  · next held => simpa using held
  · exact List.mem_append_right _ (List.mem_singleton.mpr rfl)

/-- Settles O53: a message is an entry taken once, under an epoch or under any, and each clause is one way for it to be taken. -/
theorem managerEntriesAreTakenOnce : Obligations.ManagerEntriesAreTakenOnce := by
  unfold Obligations.ManagerEntriesAreTakenOnce
  intro c h s names
  have under := fun n : epochHdr c = some h => exec_under n
  have once := fun n : anyHdr c = some h => exec_once n
  refine ⟨fun off => ?off, fun on bad => ?bad, fun on good seen live => ?again, fun n on good => ⟨fun future => ?held, fun other => ?stale⟩⟩
  case off =>
    rcases names with n | n
    · obtain ⟨_, _, run⟩ := under n
      rw [run, takeUnder_offRack off]
    · obtain ⟨_, run⟩ := once n
      rw [run, takeOnce_offRack off]
  case bad =>
    rcases names with n | n
    · obtain ⟨_, _, run⟩ := under n
      rw [run, takeUnder_badCrc on bad]
      rfl
    · obtain ⟨_, run⟩ := once n
      rw [run, takeOnce_badCrc on bad]
      rfl
  case again =>
    have run : exec c s = .next (ackDone h (consumedOne s)) := by
      rcases names with n | n
      · obtain ⟨_, _, run⟩ := under n
        rw [run, takeUnder_again on good (live n) seen]
      · obtain ⟨_, run⟩ := once n
        rw [run, takeOnce_again on good seen]
    exact ⟨_, _, run, rfl, rfl, rfl, rfl, rfl, rfl⟩
  case held =>
    obtain ⟨_, _, run⟩ := under n
    refine ⟨_, (run s).trans (congrArg _ (takeUnder_future on good future)), mem_heldMgr s, fun k hk => ?_, ?_⟩
    · split
      · exact hk
      · exact List.mem_append_left _ hk
    · split <;> rfl
  case stale =>
    obtain ⟨_, _, run⟩ := under n
    exact ⟨_, _, (run s).trans (congrArg _ (takeUnder_other on good other)), rfl, rfl, rfl, rfl, rfl, rfl⟩

end Sys2Proof.Machine
end

section
/-! The rack through what sessions do: messages, allowances, boundaries and held messages change of it no more than the directory, the migrations
and the messages sent (R59, R412, R418, R422). -/

namespace Sys2Proof.Machine

/-! ### What stands of the rack -/

/-- The rack without its directory, its migrations and the messages that this package sends. -/
def Rack.standing (r : Rack) : Rack :=
  { r with directory := [], migrations := [], aborted := [], nextSeq := [], unacked := [], outbox := [] }

/-- Migrations begun, ended or aborted are no part of it. -/
@[simp] theorem standing_migrations (r : Rack) (moves : List Migration) (ended : List (Nat × Nat)) :
    Rack.standing { r with migrations := moves, aborted := ended } = r.standing := rfl

@[simp] theorem rack_ite (c : Prop) [Decidable c] (s t : State) : (if c then s else t).rack = if c then s.rack else t.rack :=
  apply_ite State.rack c s t

@[simp] theorem standing_ite (c : Prop) [Decidable c] (r q : Rack) :
    (if c then r else q).standing = if c then r.standing else q.standing := apply_ite Rack.standing c r q

theorem standing_groups {r q : Rack} (same : r.standing = q.standing) : r.groups = q.groups := (congrArg Rack.groups same :)
theorem standing_lostPeers {r q : Rack} (same : r.standing = q.standing) : r.lostPeers = q.lostPeers := (congrArg Rack.lostPeers same :)

theorem PlaceFrame.rack {s t : State} (a : PlaceFrame s t) : t.rack = s.rack := (congrArg State.rack a :)
theorem QuietFrame.rack {s t : State} (a : QuietFrame s t) : t.rack = s.rack := (congrArg State.rack a :)
theorem TiersOnly.rack {s t : State} (a : TiersOnly s t) : t.rack = s.rack := (congrArg State.rack a :)
theorem StoreOnly.rack {s t : State} (a : StoreOnly s t) : t.rack = s.rack := (congrArg State.rack a :)
theorem FnsOnly.rack {s t : State} (a : FnsOnly s t) : t.rack = s.rack := (congrArg State.rack a :)

@[simp] theorem forEach_rack {α : Type} {f : α → State → State} (h : ∀ x t, (f x t).rack = t.rack) (l : List α) (s : State) :
    (forEach l f s).rack = s.rack := forEach_same State.rack h l s

@[simp] theorem forEach_standing {α : Type} {f : α → State → State} (h : ∀ x t, (f x t).rack.standing = t.rack.standing) (l : List α) (s : State) :
    (forEach l f s).rack.standing = s.rack.standing := forEach_same (fun t => t.rack.standing) h l s

/-! ### Records, messages and the store -/

@[simp] theorem onWindow_rack (r : WinRef) (f : Window → Window) (s : State) : (onWindow r f s).rack = s.rack := by cases r <;> rfl
@[simp] theorem settle_rack (r : WinRef) (seq : Nat) (o : OCode) (s : State) : (settle r seq o s).rack = s.rack := onWindow_rack _ _ _
@[simp] theorem emitOut_rack (b : Bool) (x : Session) (o : OutRec) (s : State) : (emitOut b x o s).rack = s.rack := rfl
@[simp] theorem answerFn_rack (fn : Nat) (o : OutRec) (s : State) : (answerFn fn o s).rack = s.rack := rfl
@[simp] theorem carried_rack (m : Sprue) (s : State) : (carried m s).rack = s.rack := settle_rack _ _ _ _
@[simp] theorem flushHeld_rack (b : Bool) (x : Session) (r : Request) (s : State) : (flushHeld b x r s).rack = s.rack :=
  (flushHeld_fnsOnly b x r s).rack
@[simp] theorem deleteObjs_rack (hub : Nat) (which : Obj → Bool) (s : State) : (deleteObjs hub which s).rack = s.rack :=
  (deleteObjs_storeOnly hub which s).rack
@[simp] theorem deleteSessObjs_rack (x : Session) (s : State) : (deleteSessObjs x s).rack = s.rack := deleteObjs_rack _ _ _
@[simp] theorem reserveObject_rack (x : Session) (ingot quantised : Bool) (pages : Nat) (s : State) :
    (reserveObject x ingot quantised pages s).2.rack = s.rack := (reserveObject_storeOnly x ingot quantised pages s).rack
@[simp] theorem journal_rack (hub : Nat) (r : JRec) (s : State) : (journal hub r s).rack = s.rack := (journal_storeOnly hub r s).rack

@[simp] theorem answerMsg_rack (m : Sprue) (o : OCode) (d0 d1 : Nat) (s : State) : (answerMsg m o d0 d1 s).rack = s.rack := by
  unfold answerMsg
  dsimp only
  split <;> simp

@[simp] theorem refuse_rack (m : Sprue) (reason : Nat) (s : State) : (refuse m reason s).rack = s.rack := answerMsg_rack _ _ _ _ _

@[simp] theorem answerGone_rack (x : Session) (c : Instr) (s : State) : (answerGone x c s).rack = s.rack := by
  unfold answerGone
  split <;> rfl

@[simp] theorem answerAsk_rack (b : Bool) (h : Nat) (a : Ask) (o : OCode) (d0 : Nat) (s : State) : (answerAsk b h a o d0 s).rack = s.rack := by
  unfold answerAsk
  split <;> simp

/-! ### Sessions and their places -/

@[simp] theorem arm_rack (h : Nat) (s : State) : (arm h s).rack = s.rack := rfl
@[simp] theorem hold_rack (c : Instr) (h : Nat) (s : State) : (hold c h s).rack = s.rack := rfl
@[simp] theorem stampAsk_rack (a : Ask) (h : Nat) (s : State) : (stampAsk a h s).rack = s.rack := rfl
@[simp] theorem stopWaiting_rack (h : Nat) (s : State) : (stopWaiting h s).rack = s.rack := rfl
@[simp] theorem dropQueries_rack (h : Nat) (s : State) : (dropQueries h s).rack = s.rack := rfl
@[simp] theorem dropAnchors_rack (h r : Nat) (s : State) : (dropAnchors h r s).rack = s.rack := rfl
@[simp] theorem endStream_rack (c : Carried) (s : State) : (endStream c s).rack = s.rack := rfl
@[simp] theorem anchor_rack (kind h : Nat) (s : State) : (anchor kind h s).rack = s.rack := (anchor_frame kind h s).2.rack
@[simp] theorem seat_rack (h : Nat) (s : State) : (seat h s).rack = s.rack := (seat_lays h s).frame.rack
@[simp] theorem releasePlaces_rack (cs : List Place) (s : State) : (releasePlaces cs s).rack = s.rack := (releasePlaces_tiers cs s).rack
@[simp] theorem releasePages_rack (p : Option ModelProgram) (pgs : List Page) (s : State) : (releasePages p pgs s).rack = s.rack :=
  (releasePages_tiers p pgs s).rack
@[simp] theorem streamFrozen_rack (h : Nat) (s : State) : (streamFrozen h s).rack = s.rack := (streamFrozen_tiers h s).rack
@[simp] theorem startStream_rack (k : Stream) (s : State) : (startStream k s).rack = s.rack := (startStream_tiers k s).rack
@[simp] theorem startPoolStream_rack (pool a : Nat) (c : Carried) (lines : Nat) (s : State) : (startPoolStream pool a c lines s).rack = s.rack :=
  (startPoolStream_tiers pool a c lines s).rack
@[simp] theorem countFixes_rack (t n : Nat) (s : State) : (countFixes t n s).rack = s.rack := (countFixes_frame t n s).2.rack
@[simp] theorem stampQueue_rack (h : Nat) (s : State) : (stampQueue h s).rack = s.rack := (stampQueue_turns h s).2.rack
@[simp] theorem closeInput_rack (h : Nat) (s : State) : (closeInput h s).rack = s.rack := (closeInput_turns h s).2.rack
@[simp] theorem countPressure_rack (demotion : Bool) (partition : Nat) (s : State) : (countPressure demotion partition s).rack = s.rack := by
  simp [countPressure]

@[simp] theorem streamRevived_rack (h : Nat) (s : State) : (streamRevived h s).rack = s.rack := by
  unfold streamRevived
  split
  · rfl
  · dsimp only
    split <;> simp

@[simp] theorem endRequest_rack (b : Bool) (h : Nat) (o : OCode) (ans : Option Ask) (deliver : Bool) (d0 d1 : Nat) (s : State) :
    (endRequest b h o ans deliver d0 d1 s).rack = s.rack := by
  unfold endRequest
  split
  · rfl
  · split
    · rfl
    · cases ans <;> simp

@[simp] theorem releaseContent_rack (st : SState) (h : Nat) (s : State) : (releaseContent st h s).rack = s.rack := by
  unfold releaseContent
  split <;> simp

@[simp] theorem discardWork_rack (w : Work) (s : State) : (discardWork w s).rack = s.rack := by simp [discardWork]
@[simp] theorem maskSlot_rack (h : Nat) (s : State) : (maskSlot h s).rack = s.rack := by simp [maskSlot]

@[simp] theorem rewind_rack (h q : Nat) (s : State) : (rewind h q s).1.rack = s.rack := by
  unfold rewind
  split
  · rfl
  · split
    · rfl
    · simp [invalidate, apply_ite Prod.fst]

@[simp] theorem takeBack_rack (h : Nat) (s : State) : (takeBack h s).rack = s.rack := by
  unfold takeBack
  split
  · rfl
  · split
    · rfl
    · simp

/-! ### Demotions, revivals and parks -/

@[simp] theorem startDemotion_rack (pressure : Bool) (h : Nat) (s : State) : (startDemotion pressure h s).rack = s.rack := by
  unfold startDemotion
  split <;> simp

@[simp] theorem startRevival_rack (h : Nat) (s : State) : (startRevival h s).rack = s.rack := by
  unfold startRevival
  split <;> simp

@[simp] theorem revive_rack (c : Instr) (h : Nat) (s : State) : (revive c h s).rack = s.rack := startRevival_rack _ _

@[simp] theorem parkFallback_rack (b : Bool) (o : OCode) (ask : Option Ask) (h : Nat) (s : State) :
    (parkFallback b o ask h s).rack = s.rack := by
  unfold parkFallback
  split
  · rfl
  · cases ask <;> simp [onNs]

@[simp] theorem startPark_rack (b quantise : Bool) (ask : Option Ask) (h : Nat) (s : State) : (startPark b quantise ask h s).rack = s.rack := by
  unfold startPark
  dsimp only
  split
  · simp
  · split <;> simp

@[simp] theorem abandonOp_rack (b : Bool) (h : Nat) (s : State) : (abandonOp b h s).rack = s.rack := by
  unfold abandonOp
  split
  · rfl
  · split
    · next ask _ => cases ask <;> simp
    · simp
    · rfl

@[simp] theorem cancelNow_rack (b : Bool) (a : Ask) (h : Nat) (s : State) : (cancelNow b a h s).rack = s.rack := by
  unfold cancelNow
  split <;> simp

@[simp] theorem bargeNow_rack (a : Ask) (heard h : Nat) (s : State) : (bargeNow a heard h s).rack = s.rack := by
  unfold bargeNow
  split <;> simp [dropUnwritten]

/-! ### What is told to the rack -/

@[simp] theorem sendMgr_standing (peer kind handle : Nat) (body : List Nat) (records : List MapRecord) (bytes : List Byte) (s : State) :
    (sendMgr peer kind handle body records bytes s).rack.standing = s.rack.standing := rfl

@[simp] theorem putDirectory_standing (h holder state : Nat) (s : State) : (putDirectory h holder state s).rack.standing = s.rack.standing := rfl

@[simp] theorem tellDirectory_standing (h holder state : Nat) (s : State) : (tellDirectory h holder state s).rack.standing = s.rack.standing := by
  simp [tellDirectory]

@[simp] theorem abortMigration_standing (h : Nat) (r : MoveEnd) (s : State) : (abortMigration h r s).rack.standing = s.rack.standing := by
  unfold abortMigration
  split
  · rfl
  · simp

@[simp] theorem freeSession_standing (h : Nat) (s : State) : (freeSession h s).rack.standing = s.rack.standing := by
  unfold freeSession
  split <;> simp

@[simp] theorem freeSpent_standing (h : Nat) (s : State) : (freeSpent h s).rack.standing = s.rack.standing := by
  unfold freeSpent
  split <;> simp

@[simp] theorem closeSession_standing (h : Nat) (s : State) : (closeSession h s).rack.standing = s.rack.standing := by simp [closeSession]

@[simp] theorem closeNow_standing (b : Bool) (a : Ask) (h : Nat) (s : State) : (closeNow b a h s).rack.standing = s.rack.standing := by
  unfold closeNow
  split
  · rfl
  · split
    · simp
    · dsimp only
      split
      · simp
      · split <;> simp

@[simp] theorem parkNow_standing (b : Bool) (a : Ask) (h : Nat) (s : State) : (parkNow b a h s).rack.standing = s.rack.standing := by
  unfold parkNow
  split
  · rfl
  · simp

@[simp] theorem expire_standing (h : Nat) (s : State) : (expire h s).rack.standing = s.rack.standing := by
  unfold expire
  split
  · rfl
  · split
    · rfl
    · split
      · simp
      · simp
      · simp
      · dsimp only
        split <;> simp
      · rfl

/-! ### Session messages -/

/-- Either way out of a check leaves what stands of the rack. -/
theorem standing_either {c : Prop} [Decidable c] {s t : State} {q : Rack} (hs : s.rack.standing = q) (ht : t.rack.standing = q) :
    (if c then s else t).rack.standing = q := by
  split
  · exact hs
  · exact ht

theorem inState_standing {c : Instr} {m : Sprue} {soon : Bool} {closed body : State → State} {s : State}
    (hc : (closed s).rack.standing = s.rack.standing) (hb : (body s).rack.standing = s.rack.standing) :
    (inState c m soon closed body s).rack.standing = s.rack.standing := by
  unfold inState
  split <;> simp [hc, hb]

@[simp] theorem invalidText_standing (m : Sprue) (off : Nat) (s : State) : (invalidText m off s).rack.standing = s.rack.standing := by
  unfold invalidText
  split <;> simp

@[simp] theorem queued_rack (m : Sprue) (s : State) : (queued m s).rack = s.rack := by simp [queued]

@[simp] theorem toolResultNow_rack (m : Sprue) (toks : List Nat) (s : State) : (toolResultNow m toks s).rack = s.rack := by simp [toolResultNow]

@[simp] theorem queueText_standing (m : Sprue) (bytes : List Byte) (s : State) : (queueText m bytes s).rack.standing = s.rack.standing := by
  unfold queueText
  split
  · rfl
  · split
    · simp
    · dsimp only
      split <;> simp

@[simp] theorem queueTokens_rack (m : Sprue) (toks : List Nat) (s : State) : (queueTokens m toks s).rack = s.rack := by
  unfold queueTokens
  split <;> simp

@[simp] theorem queueFrame_rack (m : Sprue) (positions : Nat) (data : List Byte) (s : State) : (queueFrame m positions data s).rack = s.rack := by
  unfold queueFrame
  split <;> simp

@[simp] theorem toolText_standing (m : Sprue) (bytes : List Byte) (s : State) : (toolText m bytes s).rack.standing = s.rack.standing := by
  unfold toolText
  split
  · rfl
  · split
    · simp
    · dsimp only
      split
      · simp
      · split
        · simp
        · split <;> simp

@[simp] theorem startRequest_rack (m : Sprue) (stops : List (List Byte)) (start : Option Nat) (s : State) :
    (startRequest m stops start s).rack = s.rack := by
  unfold startRequest
  split <;> simp

theorem doAppendText_standing (m : Sprue) (buf : HostBuf) (s : State) : (doAppendText m buf s).rack.standing = s.rack.standing := by
  unfold doAppendText
  split
  · rfl
  · refine standing_either (by simp) (standing_either (by simp) ?_)
    split
    · simp
    · exact standing_either (by simp) (inState_standing (by simp) (by simp))

theorem doAppendFrame_standing (m : Sprue) (buf : HostBuf) (s : State) : (doAppendFrame m buf s).rack.standing = s.rack.standing := by
  unfold doAppendFrame
  split
  · rfl
  · split
    · simp
    · exact standing_either (by simp) (standing_either (by simp) (standing_either (by simp) (standing_either (by simp)
        (inState_standing (by simp) (by simp)))))

theorem doGenerate_standing (m : Sprue) (buf : HostBuf) (s : State) : (doGenerate m buf s).rack.standing = s.rack.standing := by
  unfold doGenerate
  split
  · rfl
  · refine standing_either (by simp) ?_
    split
    · simp
    · split
      · simp
      · split
        · simp
        · exact standing_either (by simp) (inState_standing (by simp) (by simp))

theorem doToolResult_standing (m : Sprue) (buf : HostBuf) (s : State) : (doToolResult m buf s).rack.standing = s.rack.standing := by
  unfold doToolResult
  split
  · rfl
  · refine standing_either (by simp) (standing_either (by simp) (standing_either (by simp) ?_))
    split
    · simp
    · exact standing_either (by simp) (inState_standing (by simp) (by simp))

theorem doCancel_standing (m : Sprue) (s : State) : (doCancel m s).rack.standing = s.rack.standing := by
  unfold doCancel
  split
  · rfl
  · exact inState_standing (by simp) (by simp)

theorem doBarge_standing (m : Sprue) (s : State) : (doBarge m s).rack.standing = s.rack.standing := by
  unfold doBarge
  split
  · rfl
  · exact inState_standing (by simp) (by simp)

theorem doPark_standing (m : Sprue) (s : State) : (doPark m s).rack.standing = s.rack.standing := by
  unfold doPark
  split
  · rfl
  · exact standing_either (by simp) (inState_standing (by simp) (by simp))

theorem doClose_standing (m : Sprue) (s : State) : (doClose m s).rack.standing = s.rack.standing := by
  unfold doClose
  split
  · rfl
  · exact inState_standing (by simp) (by simp)

@[simp] theorem applySession_standing (c : Instr) (s : State) : (applySession c s).rack.standing = s.rack.standing := by
  unfold applySession
  split
  case h_1 => rw [doAppendText_standing, expire_standing]
  case h_2 => rw [doAppendFrame_standing, expire_standing]
  case h_3 => rw [doGenerate_standing, expire_standing]
  case h_4 => rw [doToolResult_standing, expire_standing]
  case h_5 => rw [doCancel_standing, expire_standing]
  case h_6 => rw [doBarge_standing, expire_standing]
  case h_7 => rw [doPark_standing, expire_standing]
  case h_8 => rw [doClose_standing, expire_standing]
  case h_9 => rfl

/-! ### Messages held, and those that waited for a boundary -/

theorem drainWithFuel_standing (h n : Nat) (s : State) : (drainWithFuel h n s).rack.standing = s.rack.standing := by
  induction n generalizing s with
  | zero => rfl
  | succ n ih =>
    unfold drainWithFuel
    split
    · rfl
    · split
      · rfl
      · split
        · rfl
        · dsimp only
          split
          · simp
          · rw [ih]
            simp

@[simp] theorem drainHeld_standing (h : Nat) (s : State) : (drainHeld h s).rack.standing = s.rack.standing := by
  unfold drainHeld
  split
  · rfl
  · exact drainWithFuel_standing _ _ _

@[simp] theorem drainAll_standing (s : State) : (drainAll s).rack.standing = s.rack.standing := forEach_standing drainHeld_standing _ s

@[simp] theorem applyAsk_standing (b : Bool) (h : Nat) (a : Ask) (s : State) : (applyAsk b h a s).rack.standing = s.rack.standing := by
  unfold applyAsk
  split
  · rfl
  · dsimp only
    split
    · simp
    · split <;> simp

@[simp] theorem applyAsks_standing (b : Bool) (k : Option Nat) (s : State) : (applyAsks b k s).rack.standing = s.rack.standing :=
  forEach_standing (fun (p : Nat × Ask) t => applyAsk_standing b p.1 p.2 t) _ s

end Sys2Proof.Machine
end

section
/-! Managers: joining, the map and its epochs, the registry, acknowledgement, and a peer found lost (R51, R409 to R416, R428, R429; the form of a refused
join is the model's, log entry 82). -/

namespace Sys2Proof.Machine

/-! ### What is sent to every member, and what the directory is told -/

theorem sendMap_sentOnly (e : Epoch) (s : State) : SentOnly s (sendMap e s) :=
  forEach_rel SentOnly.refl SentOnly.trans (fun _ t => sendMgr_sentOnly _ _ _ _ _ _ t) _ s

/-- From `s` to `t` no more is changed than the directory and the messages sent. -/
def ToldOnly (s t : State) : Prop :=
  t = { s with rack := { s.rack with directory := t.rack.directory, nextSeq := t.rack.nextSeq, unacked := t.rack.unacked, outbox := t.rack.outbox } }

theorem ToldOnly.refl (s : State) : ToldOnly s s := rfl

theorem ToldOnly.trans {s t u : State} (a : ToldOnly s t) (b : ToldOnly t u) : ToldOnly s u := by
  unfold ToldOnly at *
  rw [b, a]

theorem tellDirectory_toldOnly (h holder state : Nat) (s : State) : ToldOnly s (tellDirectory h holder state s) := by
  unfold tellDirectory
  split
  · dsimp only
    split
    · rfl
    · split <;> rfl
  · rfl

theorem reportHandles_toldOnly (s : State) : ToldOnly s (reportHandles s) :=
  forEach_rel ToldOnly.refl ToldOnly.trans (fun _ t => tellDirectory_toldOnly _ _ _ t) _ s

/-- From `s` to `t` a composition is published or kept waiting, and messages are sent; nothing else is changed. -/
def Composed (s t : State) : Prop :=
  t = { s with rack := { s.rack with published := t.rack.published, nextEpoch := t.rack.nextEpoch, waiting := t.rack.waiting
                                     nextSeq := t.rack.nextSeq, unacked := t.rack.unacked, outbox := t.rack.outbox } }

theorem SentOnly.composed {s t u : State} (a : Composed s t) (b : SentOnly t u) : Composed s u := by
  unfold SentOnly Composed at *
  rw [b, a]

/-- A composition that nobody asked for is answered to nobody. -/
theorem composeNow_composed (add remove : List MapRecord) (s : State) : Composed s (composeNow add remove s) := by
  unfold composeNow publishOrWait
  dsimp only
  split
  · refine SentOnly.composed ?_ (sendMap_sentOnly _ _)
    rfl
  · rfl

theorem declareFailed_composed (n : Nat) (s : State) : Composed (onMember n (fun m => { m with failed := true }) s) (declareFailed n s) := by
  unfold declareFailed
  dsimp only
  split
  · exact composeNow_composed _ _ _
  · rfl

/-! ### Joining -/

/-- The record of a package that joins under a number (R409). -/
def joiner (serial serialEnd n : Nat) (s : State) : Member := { serial := serial, num := n, serialEnd := max serialEnd (blockEnd s n) }

/-- The members with a package listed under its number. -/
def listed (serial serialEnd n : Nat) (s : State) : State :=
  drawFree { s with rack := { s.rack with members := (s.rack.members.filter fun k => k.serial != serial) ++ [joiner serial serialEnd n s] } }

/-- The newest map sent to a package that joined, where there is one (R414). -/
def withNewestMap (n : Nat) (s : State) : State :=
  match s.rack.epochs.getLast? with
  | some e => sendMgr n 3 0 [e.num] e.records [] s
  | none => s

theorem withNewestMap_sentOnly (n : Nat) (s : State) : SentOnly s (withNewestMap n s) ∧ ∀ k ∈ s.rack.outbox, k ∈ (withNewestMap n s).rack.outbox := by
  unfold withNewestMap
  split
  · exact ⟨sendMgr_sentOnly _ _ _ _ _ _ _, fun k => mem_outbox_sendMgr _ _ _ _ _ _ _⟩
  · exact ⟨SentOnly.refl _, fun k => id⟩

/-- Live workers of a manager (R410). -/
def liveWorkers (s : State) : Nat := (s.rack.members.filter fun m => m.num != s.rack.num && !m.failed).length

/-- Whether the manager has the number for a package that joins: the known one, or a fresh one with room for a worker more. -/
def GetsNumber (s : State) (serial n : Nat) : Prop :=
  numberOf s serial = some n ∨ (numberOf s serial = none ∧ freshNumber s = some n ∧ liveWorkers s < 63)

theorem freshNumber_unused {s : State} {n : Nat} (fresh : freshNumber s = some n) : n ∉ numbersUsed s ∧ n < 4096 := by
  obtain ⟨range, unused⟩ := List.mem_filter.mp (List.mem_of_getElem? fresh)
  exact ⟨by simpa using unused, List.mem_range.mp range⟩

section
variable {source serial serialEnd : Nat} {s : State}

theorem takeJoin_worker (worker : isManager s = false) : takeJoin source serial serialEnd s = s := if_pos worker

section
variable (manager : isManager s = true)
include manager

/-- The joining package listed and given its number; the newest map may follow. -/
theorem takeJoin_gives {n : Nat} (gets : GetsNumber s serial n) :
    let given := sendMgr n 2 0 [n, blockEnd s n] [] [] (listed serial serialEnd n s)
    SentOnly given (takeJoin source serial serialEnd s) ∧
      ∀ k ∈ given.rack.outbox, k ∈ (takeJoin source serial serialEnd s).rack.outbox := by
  have room : ¬(!(numberOf s serial).isSome && decide (63 ≤ liveWorkers s)) = true := by
    rcases gets with known | ⟨-, -, few⟩
    · simp [known]
    · simp [few]
  unfold takeJoin
  dsimp only
  rw [if_neg (by simp [manager])]
  unfold liveWorkers at room
  rw [if_neg room]
  rcases gets with known | ⟨unknown, fresh, -⟩
  · rw [known]
    exact withNewestMap_sentOnly n _
  · rw [unknown, fresh]
    exact withNewestMap_sentOnly n _

theorem takeJoin_refuses (unknown : numberOf s serial = none) (full : 63 ≤ liveWorkers s ∨ freshNumber s = none) :
    takeJoin source serial serialEnd s = sendMgr source 2 0 [joinRefusal, 0] [] [] s := by
  unfold takeJoin
  dsimp only
  rw [if_neg (by simp [manager]), unknown]
  rcases full with many | used
  · exact if_pos (by simpa [liveWorkers] using many)
  · rw [used]
    exact ite_self _
end

theorem exec_join {h : MgrHdr} (on : onRack s = true) (good : h.crcOk = true) :
    exec (.join h serial serialEnd) s = .next (takeJoin h.source serial serialEnd (consumedOne s)) := if_pos (by simp [on, good])
end

/-- A worker under the number that it is given, its serials above the end given with it (R51). -/
def numbered (number serialEnd : Nat) (s : State) : State :=
  let next := max s.dev.nextSerial (serialEnd + 1)
  { s with rack := { s.rack with num := number, numValid := true, joinRefused := false, managerLost := false }
           dev := { s.dev with nextSerial := next, serialEnd := if s.dev.serialEnd ≤ serialEnd then next - 1 else s.dev.serialEnd } }

/-- A worker given a number reports its handles under it (R51, R418). -/
theorem takeJoinAnswer_toldOnly {number : Nat} (given : number ≠ joinRefusal) (serialEnd : Nat) (s : State) :
    ToldOnly (numbered number serialEnd s) (takeJoinAnswer number serialEnd s) := by
  unfold takeJoinAnswer
  rw [if_neg given]
  exact reportHandles_toldOnly _

/-! ### The map -/

theorem takeMap_older {epoch : Nat} {s : State} (older : epoch ≤ newestEpoch s) (records : List MapRecord) : takeMap epoch records s = s := if_pos older

/-- A map published and not yet applied. -/
def withPublished (epoch : Nat) (records : List MapRecord) (s : State) : State :=
  { s with rack := { s.rack with published := some { num := epoch, records := records } } }

theorem takeMap_newer {epoch : Nat} {s : State} (newer : newestEpoch s < epoch) (records : List MapRecord) :
    SentOnly (withPublished epoch records s) (takeMap epoch records s) := by
  unfold takeMap
  rw [if_neg (by omega)]
  dsimp only
  split
  · exact sendMap_sentOnly _ _
  · exact SentOnly.refl _

/-- With a pour in flight a published epoch waits for the boundary (R414). -/
theorem settleEpoch_pouring {s : State} (pouring : s.sched.pour.isSome = true) : settleEpoch s = s :=
  if_neg (by simpa [Option.isSome_iff_ne_none] using pouring)

/-! ### Acknowledgement and loss -/

section
variable {h : MgrHdr} {seq : Nat} {s : State} (on : onRack s = true) (good : h.crcOk = true)
include on good

theorem exec_acknowledge_kept {m : MgrMsg} (kept : s.rack.unacked.find? (fun m => m.peer == h.source && m.seq == seq) = some m) :
    exec (.acknowledge h seq) s = .next (settleEpoch (tryRetire (if m.kind = 11 then commitMove m.handle
      { s with rack := { s.rack with unacked := s.rack.unacked.filter fun m => !(m.peer == h.source && m.seq == seq), consumed := s.rack.consumed + 1 } }
      else { s with rack := { s.rack with unacked := s.rack.unacked.filter fun m => !(m.peer == h.source && m.seq == seq)
                                          consumed := s.rack.consumed + 1 } }))) := by
  show execAcknowledge h seq s = _
  unfold execAcknowledge
  rw [if_pos (by simp [on, good])]
  dsimp only
  rw [kept]

theorem exec_acknowledge_unknown (unknown : ∀ m ∈ s.rack.unacked, ¬(m.peer = h.source ∧ m.seq = seq)) :
    exec (.acknowledge h seq) s = .next (consumedOne s) := by
  have miss : s.rack.unacked.find? (fun m => m.peer == h.source && m.seq == seq) = none :=
    List.find?_eq_none.mpr fun m hm => by simpa using unknown m hm
  have all : s.rack.unacked.filter (fun m => !(m.peer == h.source && m.seq == seq)) = s.rack.unacked :=
    List.filter_eq_self.mpr fun m hm => by simpa [imp_iff_not_or] using unknown m hm
  show execAcknowledge h seq s = _
  unfold execAcknowledge
  rw [if_pos (by simp [on, good])]
  dsimp only
  rw [miss, all]
  rfl
end

/-! #### What losing a peer leaves -/

@[simp] theorem promote_rack (hub : Nat) (s : State) : (promote hub s).rack = s.rack := by
  unfold promote
  split
  · split <;> rfl
  · rfl

@[simp] theorem dropQuery_rack (q : Query) (s : State) : (dropQuery q s).rack = s.rack := promote_rack _ _

@[simp] theorem queueResult_rack (h : Nat) (text : List Byte) (s : State) : (queueResult h text s).rack = s.rack := by
  unfold queueResult
  dsimp only
  split
  · rfl
  · split <;> simp

@[simp] theorem finishQuery_standing (q : Query) (o : OCode) (reason : Nat) (s : State) :
    (finishQuery q o reason s).rack.standing = s.rack.standing := by
  unfold finishQuery
  dsimp only
  split
  · simp
  · split
    · simp
    · split <;> simp
  · simp

@[simp] theorem concludeQuery_standing (n : Nat) (s : State) : (concludeQuery n s).rack.standing = s.rack.standing := by
  unfold concludeQuery
  split
  · rfl
  · split <;> simp

@[simp] theorem answerLookup_rack (holder : Option Nat) (c : Instr) (s : State) : (answerLookup holder c s).rack = s.rack := by
  unfold answerLookup
  split <;> rfl

theorem loseManager_lostPeers (s : State) : (loseManager s).rack.lostPeers = s.rack.lostPeers := by
  have kept : (loseManager s).rack.standing = Rack.standing { s.rack with lookups := [], managerLost := true } := by simp [loseManager]
  exact (standing_lostPeers kept).trans rfl

theorem declareFailed_lostPeers (n : Nat) (s : State) : (declareFailed n s).rack.lostPeers = s.rack.lostPeers := by
  rw [declareFailed_composed n s]
  rfl

theorem losePeer_lists (peer : Nat) (s : State) : peer ∈ (losePeer peer s).rack.lostPeers := by
  unfold losePeer
  dsimp only
  split
  · rw [loseManager_lostPeers]
    simp
  · split
    · rw [declareFailed_lostPeers]
      simp
    · rw [standing_lostPeers (sendMgr_standing ..)]
      split <;> simp

/-! #### Resending -/

section
variable {peer seq : Nat} {s : State}

theorem exec_resend_unknown (unknown : ∀ m ∈ s.rack.unacked, ¬(m.peer = peer ∧ m.seq = seq)) : exec (.managerResendTimeout peer seq) s = .next s := by
  have miss : s.rack.unacked.find? (fun m => m.peer == peer && m.seq == seq) = none :=
    List.find?_eq_none.mpr fun m hm => by simpa using unknown m hm
  show execManagerResendTimeout peer seq s = _
  unfold execManagerResendTimeout
  rw [miss]

variable {m : MgrMsg} (kept : s.rack.unacked.find? (fun m => m.peer == peer && m.seq == seq) = some m)
include kept

theorem exec_resend_again (few : m.sends < 8) (reached : peer ∉ s.links.unreachable) : exec (.managerResendTimeout peer seq) s =
    .next { s with rack := { s.rack with unacked := s.rack.unacked.map fun k => if k = m then { m with sends := m.sends + 1 } else k
                                         outbox := s.rack.outbox ++ [{ m with sends := m.sends + 1 }] } } := by
  show execManagerResendTimeout peer seq s = _
  unfold execManagerResendTimeout
  rw [kept]
  exact if_neg (by simp [reached, few])

theorem exec_resend_lost (lost : 8 ≤ m.sends ∨ peer ∈ s.links.unreachable) :
    exec (.managerResendTimeout peer seq) s = .next (losePeer peer s) := by
  show execManagerResendTimeout peer seq s = _
  unfold execManagerResendTimeout
  rw [kept]
  exact if_pos (by simpa using lost)
end

/-! ### The registry -/

/-- The registry of the top manager with a tenant's partition entered or taken out (R413). -/
def registered (tenant part : Nat) (present : Bool) (s : State) : List (Nat × Nat) :=
  if present then (s.rack.registry.filter fun e => e.1 != tenant) ++ [(tenant, part)] else s.rack.registry.filter fun e => e.1 != tenant

theorem mem_registered (tenant part : Nat) (present : Bool) (s : State) :
    ((tenant, part) ∈ registered tenant part present s ↔ present = true) ∧
      ∀ e : Nat × Nat, e.1 ≠ tenant → (e ∈ registered tenant part present s ↔ e ∈ s.rack.registry) := by
  unfold registered
  cases present with
  | false => exact ⟨by simp, fun e other => by simp [other]⟩
  | true => exact ⟨by simp, fun e other => by simp [other, Prod.ext_iff]⟩

theorem exec_registry {h : MgrHdr} {s : State} (fresh : FreshEntry h s) (top : topManager s = s.rack.num) (tenant part : Nat) (present : Bool) :
    exec (.registryUpdate h tenant part present) s =
      .next (acked h { entryTaken h s with rack := { (entryTaken h s).rack with registry := registered tenant part present s } }) := by
  have here : topManager (entryTaken h s) = (entryTaken h s).rack.num := top
  exact runs_once fresh (if_pos here)

/-- Settles O54: each message is an entry taken once, and its own lemma says what it makes of the members, the map, the rings or the lists. -/
theorem managersKeepTheMap : Obligations.ManagersKeepTheMap := by
  unfold Obligations.ManagersKeepTheMap
  refine ⟨fun h serial serialEnd n s on good => ⟨fun worker => ?_, fun manager gets => ?joins, fun manager unknown full => ?refused⟩,
    fun h number serialEnd s fresh role => ⟨fun given => ?given, fun none => ?denied⟩,
    fun h epoch records s fresh pouring => ⟨fun newer => ?newer, fun older => ?older⟩,
    fun h epoch s fresh => ⟨⟨_, runs_once fresh rfl, rfl, rfl⟩, _, runs_once fresh rfl, rfl, rfl⟩,
    fun h tenant part present s fresh top => ⟨_, exec_registry fresh top tenant part present, (mem_registered ..).1, (mem_registered ..).2, rfl⟩,
    fun h seq s on good => ⟨fun m kept => ⟨_, exec_acknowledge_kept on good kept, fun k hk => ?_, fun k hk other => ?_, rfl⟩, exec_acknowledge_unknown on good⟩,
    fun peer seq s => ⟨exec_resend_unknown, fun m kept => ⟨fun few reached => ?again, fun lost => ⟨_, exec_resend_lost kept lost, losePeer_lists peer s⟩⟩⟩,
    fun h s fresh => ⟨runs_once fresh rfl, runs_once fresh rfl, fun number slot length outcome =>
      ⟨_, runs_once fresh rfl, rfl, rfl⟩⟩⟩
  case joins =>
    have gets : GetsNumber (consumedOne s) serial n := gets
    obtain ⟨sent, rings⟩ := takeJoin_gives (source := h.source) (serialEnd := serialEnd) (s := consumedOne s) manager gets
    refine ⟨_, joiner serial serialEnd n s, mgrMsg n 2 0 [n, blockEnd s n] [] [] (listed serial serialEnd n (consumedOne s)), exec_join on good, ?_,
      rfl, rfl, rfl, rings _ (mgrMsg_mem_outbox _ _ _ _ _ _ _), rfl, rfl, rfl, fun unknown => ?_, ?_⟩
    · rw [sent]
      exact List.mem_append_right _ (List.mem_singleton.mpr rfl)
    · rcases gets with known | ⟨-, chosen, -⟩
      · cases unknown.symm.trans known
      · exact freshNumber_unused chosen
    · rw [sent]
      rfl
  case refused =>
    have run : takeJoin h.source serial serialEnd (consumedOne s) = _ := takeJoin_refuses manager unknown full
    exact ⟨_, _, (exec_join on good).trans (congrArg _ run), rfl, rfl, rfl, rfl, rfl, rfl⟩
  case given =>
    have told := takeJoinAnswer_toldOnly given serialEnd (entryTaken h s)
    refine ⟨takeJoinAnswer number serialEnd (entryTaken h s), runs_once fresh (if_pos role), (congrArg (fun t => t.rack.num) told :),
      (congrArg (fun t => t.rack.numValid) told :), (congrArg (fun t => t.rack.managerLost) told :), (congrArg (fun t => t.dev.nextSerial) told :),
      (congrArg State.sess told :), (congrArg State.sched told :)⟩
  case denied =>
    exact ⟨_, runs_once fresh ((if_pos role).trans (if_pos none)), rfl, rfl⟩
  case newer =>
    have sent := takeMap_newer (s := entryTaken h s) newer records
    refine ⟨takeMap epoch records (entryTaken h s), runs_once fresh (settleEpoch_pouring ?_), (congrArg (fun t => t.rack.published) sent :),
      (congrArg (fun t => t.rack.epochs) sent :), sent.rackOnly⟩
    rw [sent]
    exact pouring
  case older =>
    refine runs_once fresh ?_
    rw [takeMap_older (s := entryTaken h s) older, settleEpoch_pouring (s := entryTaken h s) pouring]
  case again =>
    refine ⟨_, exec_resend_again kept few reached, rfl, ?_, List.length_map _, rfl⟩
    exact List.mem_map.mpr ⟨m, List.mem_of_find?_eq_some kept, if_pos rfl⟩
  · exact (exec_join on good).trans (congrArg _ (takeJoin_worker worker))
  · simpa [imp_iff_not_or] using (List.mem_filter.mp hk).2
  · exact List.mem_filter.mpr ⟨hk, by simpa [imp_iff_not_or] using other⟩

end Sys2Proof.Machine
end

section
/-! The rack's work: lookups and the directory, reports of what is lost, recall fanned out to shards, and model groups torn down (R328, R405, R412, R418,
R419, R425; a lost package by its window, log entry 84, a contested update, log entry 132, and reports passed up, log entry 133). -/

namespace Sys2Proof.Machine

/-! ### Lookups -/

/-- The package that the directory lists for a handle, 0xFFFF where it lists none (R418). -/
def holderOf (s : State) (handle : Nat) : Nat := ((s.rack.directory.find? fun e => e.handle == handle).map DirEntry.holder).getD 0xFFFF

theorem takeLookup_answers (h : MgrHdr) (s : State) : takeLookup h s = sendMgr h.source 7 h.handle [holderOf s h.handle] [] [] s := by
  unfold takeLookup holderOf
  cases s.rack.directory.find? fun e => e.handle == h.handle <;> rfl

theorem answerLookup_fnsOnly (holder : Option Nat) (c : Instr) (s : State) : FnsOnly s (answerLookup holder c s) := by
  unfold answerLookup
  split <;> rfl

/-- A message that waited for the holder is answered STALE_EPOCH with it, or MALFORMED, reason 6, with none (R419). -/
theorem answerLookup_waiting {c : Instr} {m : Sprue} (names : sprueOf c = some m) (holder : Option Nat) (s : State) :
    ∃ w o, (fnOf (answerLookup holder c s) m.fn).waiting = (fnOf s m.fn).waiting ++ [w] ∧ w.body = .out o 0 ∧ o.seq = msgSeq m ∧
      o.opcode = msgOpcode m ∧ (∀ k, holder = some k → o.outcome = .staleEpoch ∧ o.d1 = k) ∧
      (holder = none → o.outcome = .malformed ∧ o.d0 = 6) := by
  unfold answerLookup
  rw [names]
  cases holder with
  | none => exact ⟨_, _, answerFn_waiting _ _ _, rfl, rfl, rfl, fun k h => (nomatch h), fun _ => ⟨rfl, rfl⟩⟩
  | some j => exact ⟨_, _, answerFn_waiting _ _ _, rfl, rfl, rfl, fun k h => ⟨rfl, Option.some.inj h⟩, fun h => (nomatch h)⟩

/-- The lookups of a handle ended, and what waited for them answered. -/
def lookedUp (handle : Nat) (holder : Option Nat) (s : State) : State :=
  forEach (s.rack.lookups.filter fun p => p.1 == handle) (fun p t => answerLookup holder p.2 t)
    { s with rack := { s.rack with lookups := s.rack.lookups.filter fun p => p.1 != handle } }

theorem lookedUp_fnsOnly (handle : Nat) (holder : Option Nat) (s : State) :
    FnsOnly { s with rack := { s.rack with lookups := s.rack.lookups.filter fun p => p.1 != handle } } (lookedUp handle holder s) :=
  forEach_rel FnsOnly.refl FnsOnly.trans (fun _ t => answerLookup_fnsOnly _ _ t) _ _

theorem lookedUp_sess (handle : Nat) (holder : Option Nat) (s : State) : (lookedUp handle holder s).sess = s.sess := (lookedUp_fnsOnly ..).sess

/-! #### A session's entry let go -/

/-- A session's entry freed, with its pages and its objects in the store (R422, R424). -/
def letGo (p : Option ModelProgram) (x : Session) (h : Nat) (s : State) : State :=
  dropSess h (anchor 4 h (deleteSessObjs x (releasePages p x.pages s)))

section
variable (p : Option ModelProgram) (x : Session) (h : Nat) (s : State)

theorem letGo_rack : (letGo p x h s).rack = s.rack := by simp [letGo]

theorem anchored_sess : (anchor 4 h (deleteSessObjs x (releasePages p x.pages s))).sess = s.sess :=
  (anchor_frame ..).1.trans ((deleteObjs_storeOnly ..).sess.trans (releasePages_tiers ..).sess)

theorem findSess_letGo (k : Nat) : findSess (letGo p x h s) k = if k = h then none else findSess s k := by
  unfold findSess letGo
  rw [dropSess_sess, anchored_sess]
  exact findKey_eraseKey ..

theorem letGo_fns : (letGo p x h s).fns = s.fns := by
  have anchored := (anchor_frame 4 h (deleteSessObjs x (releasePages p x.pages s))).2
  have deleted := deleteObjs_storeOnly (sessHub (releasePages p x.pages s) x) (fun o => o.handle == x.handle) (releasePages p x.pages s)
  have released := releasePages_tiers p x.pages s
  exact (congrArg State.fns anchored :).trans ((congrArg State.fns deleted :).trans (congrArg State.fns released :))
end

/-! #### A lookup's answer -/

/-- A restored copy of a session that another package holds is let go. -/
theorem takeLookupAnswer_drops {s : State} {handle k : Nat} {x : Session} (hx : findSess s handle = some x) (away : k ≠ s.rack.num)
    (restored : x.restored = true) :
    takeLookupAnswer handle (some k) s = letGo (sessProg (lookedUp handle (some k) s) x) x handle (lookedUp handle (some k) s) := by
  have answered := lookedUp_fnsOnly handle (some k) s
  have held : findSess (lookedUp handle (some k) s) handle = some x := (findSess_congr (lookedUp_sess ..) handle).trans hx
  have here : (lookedUp handle (some k) s).rack.num = s.rack.num := (congrArg (fun t => t.rack.num) answered :)
  unfold takeLookupAnswer
  unfold lookedUp at held here ⊢
  dsimp only
  rw [held]
  exact if_pos ⟨fun e => away (e.trans here), restored⟩

theorem takeLookupAnswer_cases (handle : Nat) (holder : Option Nat) (s : State) : takeLookupAnswer handle holder s = lookedUp handle holder s ∨
    holder ≠ none ∧ ∃ p x, takeLookupAnswer handle holder s = letGo p x handle (lookedUp handle holder s) := by
  unfold takeLookupAnswer
  dsimp only
  split
  · split
    · exact .inr ⟨by simp, _, _, rfl⟩
    · exact .inl rfl
  · exact .inl rfl

/-- Whether or not a copy is dropped, the waits are over and nothing else than the session of the handle is touched. -/
theorem takeLookupAnswer_frame (handle : Nat) (holder : Option Nat) (s : State) :
    let u := takeLookupAnswer handle holder s
    u.rack = (lookedUp handle holder s).rack ∧ u.fns = (lookedUp handle holder s).fns ∧ (holder = none → u.sess = s.sess) ∧
      ∀ k, k ≠ handle → findSess u k = findSess s k := by
  dsimp only
  rcases takeLookupAnswer_cases handle holder s with e | ⟨some_, p, x, e⟩
  all_goals rw [e]
  · exact ⟨rfl, rfl, fun _ => lookedUp_sess .., fun k _ => findSess_congr (lookedUp_sess ..) k⟩
  · exact ⟨letGo_rack .., letGo_fns .., fun none_ => absurd none_ some_, fun k other =>
      ((findSess_letGo ..).trans (if_neg other)).trans (findSess_congr (lookedUp_sess ..) k)⟩

/-! ### The directory -/

section
variable {s : State} {source handle holder state : Nat} (stays : movesTo s handle holder = false)
include stays

/-- An update that no other package's claim contests is written (R418). -/
theorem takeUpdate_writes (agreed : ∀ e ∈ s.rack.directory, e.handle = handle → e.holder = holder) :
    takeUpdate source handle holder state s = putDirectory handle holder state s := by
  have free : s.rack.directory.find? (fun e => e.handle == handle && e.holder != holder && !packageFailed s e.holder) = none :=
    List.find?_eq_none.mpr fun e he => by
      have := agreed e he
      simpa using fun own other => absurd (this own) other
  unfold takeUpdate
  dsimp only
  rw [free]
  exact if_neg (ne_true_of_eq_false stays)

/-- A package whose claim another one contests is told of that one (log entry 132). -/
theorem takeUpdate_tells {e : DirEntry} (live : state < 7)
    (other : s.rack.directory.find? (fun e => e.handle == handle && e.holder != holder && !packageFailed s e.holder) = some e) :
    takeUpdate source handle holder state s = sendMgr source 7 handle [e.holder] [] [] s := by
  unfold takeUpdate
  dsimp only
  rw [other]
  exact (if_neg (ne_true_of_eq_false stays)).trans (if_pos live)
end

theorem putDirectory_lists (h holder state : Nat) (s : State) :
    let u := putDirectory h holder state s
    (state < 7 → ∃ e ∈ u.rack.directory, e.handle = h ∧ e.holder = holder ∧ e.state = state) ∧
      (7 ≤ state → ∀ e ∈ u.rack.directory, e.handle ≠ h) ∧ ∀ e ∈ s.rack.directory, e.handle ≠ h → e ∈ u.rack.directory := by
  have others : ∀ e ∈ s.rack.directory, e.handle ≠ h → e ∈ s.rack.directory.filter fun e => e.handle != h :=
    fun e he other => List.mem_filter.mpr ⟨he, by simpa using other⟩
  unfold putDirectory
  dsimp only
  by_cases dead : 7 ≤ state
  · rw [if_pos dead]
    exact ⟨fun live => absurd live (by omega), fun _ e he => by simpa using (List.mem_filter.mp he).2, others⟩
  · rw [if_neg dead]
    exact ⟨fun _ => ⟨_, List.mem_append_right _ (List.mem_singleton.mpr rfl), rfl, rfl, rfl⟩, fun dead' => absurd dead' dead,
      fun e he other => List.mem_append_left _ (others e he other)⟩

/-! ### Reports -/

/-- A report below the top manager goes up (log entry 133). -/
theorem takeReport_passes {s : State} {source dest window reason : Nat} (below : topManager s ≠ s.rack.num) (work : window ≠ lostWindow) :
    takeReport source dest window reason s = sendMgr (topManager s) 16 0 [source, dest, window, reason] [] [] s :=
  (if_neg work).trans (if_pos below)

theorem takeReport_lost {s : State} (top : topManager s = s.rack.num) (source dest reason : Nat) :
    takeReport source dest lostWindow reason s = declareFailed dest s := (if_pos rfl).trans (if_pos top)

/-- A package declared failed is so among the members, and no session or tier is touched. -/
theorem declareFailed_marks (n : Nat) (s : State) :
    let u := declareFailed n s
    (∀ m ∈ u.rack.members, m.num = n → m.failed = true) ∧ u.rack.members.map Member.num = s.rack.members.map Member.num ∧
      u.sess = s.sess ∧ u.tiers = s.tiers := by
  have members : (declareFailed n s).rack.members = s.rack.members.map fun m => if m.num = n then { m with failed := true } else m :=
    (congrArg (fun t => t.rack.members) (declareFailed_composed n s) :)
  dsimp only
  rw [members]
  refine ⟨fun m hm named => ?_, ?_, (congrArg State.sess (declareFailed_composed n s) :), (congrArg State.tiers (declareFailed_composed n s) :)⟩
  · obtain ⟨k, -, rfl⟩ := List.mem_map.mp hm
    by_cases is : k.num = n
    · simp [is]
    · simp [is] at named
  · rw [List.map_map]
    refine List.map_congr_left fun m _ => ?_
    simp only [Function.comp]
    split <;> rfl

/-! ### Recall -/

/-- The query that a shard's fan-out begins (R328). -/
def fannedOut (peer op index shard k require exclude key tags : Nat) (code : List Byte) (query : Nat) (s : State) : Query :=
  { num := 0, asker := .peer peer query, op := op, index := index, hub := indexHub s index, k := k, require := require, exclude := exclude, key := key
    tags := tags, code := code, left := [shard], shard := shard }

/-- The query of another package's message joins the end of the engine's (R321). -/
theorem addQuery_peer {q : Query} {p n : Nat} (asked : q.asker = .peer p n) (s : State) : ∃ queued, addQuery q s =
    { s with rcl := { s.rcl with queries := s.rcl.queries ++ [{ q with num := s.rcl.nextQ, queued := queued }], nextQ := s.rcl.nextQ + 1 } } := by
  refine ⟨q.op == 0x0A && decide (4096 ≤ contextsUsed s q.hub), ?_⟩
  unfold addQuery
  dsimp only
  rw [if_neg (by simp [asked])]

section
variable {s : State} {index shard : Nat} {sh : Shard} (named : shard ≠ 0xFFFF) (held : findShard s index shard = some sh)
include named held

theorem takeFanOut_damaged (damaged : sh.damaged = true) (peer op k require exclude key tags : Nat) (code : List Byte) (query : Nat) :
    takeFanOut peer op index shard k require exclude key tags code query s = sendMgr peer 19 0 [query, shard, ocode .tierFault] [] [] s := by
  unfold takeFanOut
  rw [if_neg named, held]
  exact if_pos damaged

theorem takeFanOut_searches (whole : sh.damaged = false) (peer k require exclude key tags : Nat) (code : List Byte) (query : Nat) :
    takeFanOut peer 0x0A index shard k require exclude key tags code query s =
      addQuery (fannedOut peer 0x0A index shard k require exclude key tags code query s) s := by
  unfold takeFanOut
  rw [if_neg named, held]
  exact (if_neg (ne_true_of_eq_false whole)).trans (if_pos rfl)
end

/-- A query with a shard's results merged (R328). -/
def merged (shard : Nat) (rs : List (Nat × Nat × Nat)) (q : Query) : Query :=
  { q with left := q.left.filter (· != shard), found := q.found ++ rs.map fun r => (r.2.2, r.1, r.2.1, shard) }

section
variable {s : State} {query shard : Nat} (outcome : Nat) (rs : List (Nat × Nat × Nat))

/-- An answer of no query, or of a shard no longer awaited, is left. -/
theorem takeRecallAnswer_stale (stale : findQuery s query = none ∨ ∃ q, findQuery s query = some q ∧ shard ∉ q.left) :
    takeRecallAnswer query shard outcome rs s = s := by
  unfold takeRecallAnswer
  rcases stale with gone | ⟨q, hq, heard⟩
  · rw [gone]
  · rw [hq]
    exact if_pos (by simpa using heard)

theorem takeRecallAnswer_merges {q : Query} (hq : findQuery s query = some q) (search : q.op = 0x0A) (awaited : shard ∈ q.left)
    (more : ∃ n ∈ q.left, n ≠ shard) :
    takeRecallAnswer query shard (ocode .done) rs s = onQuery query (fun _ => merged shard rs q) s := by
  have waits : (merged shard rs q).left ≠ [] := by
    obtain ⟨n, hn, other⟩ := more
    exact List.ne_nil_of_mem (List.mem_filter.mpr ⟨hn, by simpa using other⟩)
  unfold takeRecallAnswer
  rw [hq]
  dsimp only
  rw [if_neg (by simpa using awaited), if_neg (by simp [search]), if_pos (.inl rfl)]
  exact concludeQuery_waits hq (r := merged shard rs q) (findQuery_num hq :) waits
end

/-! ### Model groups -/

theorem findGroup_onGroup {f : MGroup → MGroup} (names : ∀ g, (f g).num = g.num) (n k : Nat) (s : State) :
    findGroup (onGroup n f s) k = if k = n then (findGroup s k).map f else findGroup s k :=
  findKey_updKey _ _ _ _ (fun g e => (names g).trans e) _

theorem findGroup_congr {s t : State} (same : t.rack.groups = s.rack.groups) (k : Nat) : findGroup t k = findGroup s k := by
  unfold findGroup
  rw [same]

@[simp] theorem dropPours_rack (model : Nat) (s : State) : (dropPours model s).rack = s.rack := by simp [dropPours]

@[simp] theorem tearSession_standing (counterpart : Bool) (h : Nat) (s : State) : (tearSession counterpart h s).rack.standing = s.rack.standing := by
  unfold tearSession
  split
  · rfl
  · next x _ =>
    split
    · rfl
    · cases x.request <;> cases counterpart <;> simp
      split <;> simp

/-- A group torn down stays listed, torn, whatever its sessions' messages do then (R425). -/
theorem findGroup_tearGroup {s : State} {n : Nat} {g : MGroup} (hg : findGroup s n = some g) (whole : g.torn = false) :
    findGroup (tearGroup n s) n = some { g with torn := true, round := 1, lands := [], release := [] } := by
  unfold tearGroup
  rw [hg]
  dsimp only
  rw [if_neg (ne_true_of_eq_false whole)]
  rw [findGroup_congr (standing_groups ((drainAll_standing _).trans (applyAsks_standing _ _ _)))]
  have torn := findGroup_onGroup (f := fun y => { y with torn := true, round := 1, lands := [], release := [] }) (fun _ => rfl) n n
    (forEach (((dropPours g.model s).sess.filter fun y => y.model == g.model).map Session.handle) (tearSession (isCounterpart s g)) (dropPours g.model s))
  rw [if_pos rfl, findGroup_congr (standing_groups (forEach_standing (tearSession_standing _) _ _)), findGroup_congr (congrArg Rack.groups (dropPours_rack ..)),
    hg] at torn
  exact torn

/-- Settles O55: each message is an entry taken once, and its own lemma says what it makes of the directory, the queries or the groups. -/
theorem rackWorkActs : Obligations.RackWorkActs := by
  unfold Obligations.RackWorkActs
  refine ⟨fun h s fresh live => ?lookup, fun h holder s fresh => ?answer, fun h holder state s fresh live => ⟨fun worker => ?worker,
    fun manager stays agreed => ?written, fun e manager stays alive other => ?contested⟩, fun h source dest window reason s fresh =>
    ⟨fun worker => runs_once fresh (if_neg (ne_true_of_eq_false worker)), fun manager => runs_once fresh (if_pos manager),
      fun manager below work => ?passed, fun manager top lost => ?lost⟩,
    fun h op index shard k require exclude key tags query code s fresh live named => ⟨fun away => ?stale, fun sh held damaged => ?damaged,
      fun sh held whole search => ?searches⟩,
    fun h query shard outcome rs s fresh => ⟨fun stale => ?heard, fun q hq search awaited more done => ?merges⟩,
    fun h group s g fresh live hg => ⟨fun whole => ?torn, ?done⟩⟩
  case lookup =>
    exact ⟨_, _, runs_under fresh live rfl (takeLookup_answers h _), rfl, rfl, rfl, rfl, rfl, rfl, rfl⟩
  case answer =>
    obtain ⟨rack, fns, unheld, others⟩ := takeLookupAnswer_frame h.handle holder (entryTaken h s)
    refine ⟨takeLookupAnswer h.handle holder (entryTaken h s), runs_once fresh rfl, ?_, unheld, fun x k names away hx restored => ?_, others,
      fun c m one names => ?_⟩
    · rw [rack]
      exact (congrArg (fun t => t.rack.lookups) (lookedUp_fnsOnly h.handle holder (entryTaken h s)) :)
    · subst names
      rw [takeLookupAnswer_drops (s := entryTaken h s) hx away restored, findSess_letGo, if_pos rfl]
    · obtain ⟨w, o, put, rest⟩ := answerLookup_waiting names holder
        { entryTaken h s with rack := { (entryTaken h s).rack with lookups := s.rack.lookups.filter fun p => p.1 != h.handle } }
      have once : lookedUp h.handle holder (entryTaken h s) = answerLookup holder c
          { entryTaken h s with rack := { (entryTaken h s).rack with lookups := s.rack.lookups.filter fun p => p.1 != h.handle } } := by
        unfold lookedUp
        rw [show (entryTaken h s).rack.lookups.filter (fun p => p.1 == h.handle) = [(h.handle, c)] from one]
        rfl
      refine ⟨w, o, ?_, rest⟩
      unfold fnOf at put ⊢
      rw [fns, once, put]
      rfl
  case worker =>
    exact runs_under fresh live rfl (if_neg (ne_true_of_eq_false worker))
  case written =>
    have acts := takeUpdate_writes (s := entryTaken h s) (source := h.source) (state := state) stays agreed
    obtain ⟨entered, removed, others⟩ := putDirectory_lists h.handle holder state (entryTaken h s)
    exact ⟨_, runs_under fresh live rfl ((if_pos manager).trans acts), entered, removed, others, rfl⟩
  case contested =>
    have acts := takeUpdate_tells (s := entryTaken h s) (source := h.source) stays alive other
    exact ⟨_, _, runs_under fresh live rfl ((if_pos manager).trans acts), rfl, rfl, rfl, rfl, rfl, rfl, rfl⟩
  case passed =>
    have acts := takeReport_passes (s := entryTaken h s) (source := source) (dest := dest) (reason := reason) below work
    exact ⟨_, _, runs_once fresh ((if_pos manager).trans (congrArg drainAll acts)), rfl, rfl, rfl, rfl, rfl, rfl⟩
  case lost =>
    subst lost
    have acts := takeReport_lost (s := entryTaken h s) top source dest reason
    exact ⟨_, runs_once fresh ((if_pos manager).trans (congrArg drainAll acts)), declareFailed_marks dest (entryTaken h s)⟩
  case stale =>
    exact congrArg _ (takeUnder_stale fresh live (by simp [named, away]))
  case damaged =>
    have acts := takeFanOut_damaged (s := entryTaken h s) named held damaged h.source op k require exclude key tags code query
    exact ⟨_, _, runs_under fresh live (by simp [held]) acts, rfl, rfl, rfl, rfl, rfl⟩
  case searches =>
    subst search
    obtain ⟨queued, added⟩ := addQuery_peer (q := fannedOut h.source 0x0A index shard k require exclude key tags code query (entryTaken h s)) rfl (entryTaken h s)
    have acts := takeFanOut_searches (s := entryTaken h s) named held whole h.source k require exclude key tags code query
    exact ⟨_, _, runs_under fresh live (by simp [held]) (acts.trans added), List.mem_append_right _ (List.mem_singleton.mpr rfl), rfl, rfl, rfl, rfl,
      rfl, rfl, rfl, rfl, rfl, List.length_append, rfl⟩
  case heard =>
    exact runs_once fresh (congrArg drainAll (takeRecallAnswer_stale (s := entryTaken h s) outcome rs stale))
  case merges =>
    subst done
    have acts := takeRecallAnswer_merges (s := entryTaken h s) rs hq search awaited more
    exact ⟨_, runs_once fresh (congrArg drainAll acts), findQuery_onQuery hq (findQuery_num hq :), rfl⟩
  case torn =>
    have torn := findGroup_tearGroup (s := entryTaken h s) hg whole
    exact ⟨_, _, _, runs_under fresh live rfl rfl, torn, rfl, mgrMsg_mem_outbox _ _ _ _ _ _ _, rfl, rfl, rfl⟩
  case done =>
    have heard := findGroup_onGroup (f := fun g => { g with tearing := g.tearing.filter (· != h.source) }) (fun _ => rfl) group
    refine ⟨_, _, runs_under fresh live rfl rfl, ?_, rfl, fun k other => (heard k (entryTaken h s)).trans (if_neg other), rfl⟩
    exact ((heard group (entryTaken h s)).trans (if_pos rfl)).trans (congrArg (Option.map _) hg)

end Sys2Proof.Machine
end

section
/-! Migrations, step by step: begun at both sides, copied, switched over, prepared, committed and aborted (R421 to R424, Table 14-5; the copy window's number
is the model's, log entry 83, as is the reason of a refusal, log entry 50). -/

namespace Sys2Proof.Machine

/-- What is sent from a state changes its rack alone. -/
theorem SentOnly.sessRack {s t u : State} (sent : SentOnly t u) (only : t = { s with sess := t.sess, rack := t.rack }) :
    u = { s with sess := u.sess, rack := u.rack } := by
  rw [sent.rackOnly, only]

/-! ### A migration's record -/

theorem findMigration_handle {s : State} {h : Nat} {m : Migration} (hm : findMigration s h = some m) : m.handle = h := (findKey_some hm).1

theorem findMigration_congr {s t : State} (same : t.rack.migrations = s.rack.migrations) (h : Nat) : findMigration t h = findMigration s h := by
  unfold findMigration
  rw [same]

theorem findMigration_onMigration {f : Migration → Migration} (names : ∀ m, (f m).handle = m.handle) {h : Nat} {s : State} {m : Migration}
    (hm : findMigration s h = some m) : findMigration (onMigration h f s) h = some (f m) := by
  have put := findKey_updKey Migration.handle h h f (fun m e => (names m).trans e) s.rack.migrations
  rw [if_pos rfl] at put
  exact put.trans (congrArg (Option.map f) hm)

/-- A migration's record removed. -/
def withoutMove (h : Nat) (s : State) : State :=
  { s with rack := { s.rack with migrations := s.rack.migrations.filter fun k => k.handle != h } }

theorem findMigration_withoutMove (h : Nat) (s : State) : findMigration (withoutMove h s) h = none :=
  (findKey_eraseKey Migration.handle h h s.rack.migrations).trans (if_pos rfl)

/-- A migration's record added. -/
def withMove (m : Migration) (s : State) : State := { s with rack := { s.rack with migrations := s.rack.migrations ++ [m] } }

theorem findMigration_withMove {s : State} {m : Migration} (none_ : findMigration s m.handle = none) :
    findMigration (withMove m s) m.handle = some m := by
  have put := findKey_append Migration.handle m.handle s.rack.migrations m
  rw [if_pos rfl, show findKey Migration.handle m.handle s.rack.migrations = none from none_] at put
  exact put

/-! ### A migration begun (steps 1 and 2) -/

/-- A migration as "move begin" tells of it, its partition that of the map's move record (R421). -/
def begunMove (handle origin dest home alt vec : Nat) (s : State) : Migration :=
  { handle := handle, origin := origin, destination := dest, home := home, alternate := alt, vector := vec
    partition := ((mapRecords s).findSome? fun r => match r with | .move h _ _ _ _ _ p => if h = handle then some p else none | _ => none).getD 0
    atOrigin := origin == s.rack.num }

/-- The copy window of a migration (Table 13-8; log entry 83). -/
def copyWin (origin n : Nat) : Win :=
  { num := n, kind := 2, writes := true, base := Config.windowBase n, length := copyWindow, peer := some origin }

/-- The destination with a copy window and the migration at step 2. -/
def reserved (m : Migration) (n : Nat) (s : State) : State :=
  let t := withMove { m with step := 2 } s
  { t with links := { t.links with windows := t.links.windows ++ [copyWin m.origin n] } }

theorem reserved_sess (m : Migration) (n : Nat) (s : State) : (reserved m n s).sess = s.sess := rfl

theorem reserveMove_reserves {s : State} (room : entriesUsed s < directoryLimit s.part) {n : Nat} (free : freeWindow s = some n) (m : Migration) :
    reserveMove m s = sendMgr m.origin 9 m.handle [n] [] [] (reserved m n s) := by
  unfold reserveMove
  rw [if_neg (by omega), free]
  rfl

theorem reserveMove_refuses {s : State} (full : freeWindow s = none ∨ directoryLimit s.part ≤ entriesUsed s) (m : Migration) :
    reserveMove m s = sendMgr m.origin 13 m.handle [moveReason .refused] [] [] s := by
  have nowhere : (if directoryLimit s.part ≤ entriesUsed s then none else freeWindow s) = none := by
    rcases full with used | full
    · rw [used, ite_self]
    · exact if_pos full
  unfold reserveMove
  rw [nowhere]

section
variable {handle origin dest home alt vec : Nat} {s : State} (apart : origin ≠ dest)
include apart

theorem takeMoveBegin_destination (here : dest = s.rack.num) (fresh : findMigration s handle = none) :
    takeMoveBegin handle origin dest home alt vec s = reserveMove (begunMove handle origin dest home alt vec s) s := by
  have other : origin ≠ s.rack.num := here ▸ apart
  unfold takeMoveBegin
  rw [if_neg other]
  exact (if_neg (by simp [fresh, apart])).trans (if_pos here)

/-- At its origin, the allowance acted on first, a session that can move begins to; one that cannot is refused to both sides. -/
theorem takeMoveBegin_origin {e : State} (here : origin = s.rack.num) (acted : expire handle s = e) (same : e.rack.num = s.rack.num)
    (fresh : findMigration e handle = none) : takeMoveBegin handle origin dest home alt vec s =
      if movable e handle then withMove (begunMove handle origin dest home alt vec e) e
      else sendMgr dest 13 handle [moveReason .refused] [] [] (sendMgr (managerOf e e.rack.num) 13 handle [moveReason .refused] [] [] e) := by
  unfold takeMoveBegin
  rw [if_pos here, acted]
  exact (if_neg (by simp [fresh, apart])).trans ((if_neg fun away => apart (here.trans (same.symm.trans away.symm))).trans
    (if_pos (here.trans same.symm)))
end

/-! #### The message -/

section
variable {h : MgrHdr} {origin dest home alt vec : Nat} {s : State} (fresh : FreshEntry h s) (live : mgrEpoch s h.epoch = .live) (apart : origin ≠ dest)
include fresh live apart

section
variable (here : dest = s.rack.num) (unknown : findMigration s h.handle = none)
include here unknown

theorem exec_moveBegin_reserves (room : entriesUsed s < directoryLimit s.part) {n : Nat} (free : freeWindow s = some n) :
    exec (.moveBegin h origin dest home alt vec) s = .next (acked h (sendMgr origin 9 h.handle [n] [] []
      (reserved (begunMove h.handle origin dest home alt vec (entryTaken h s)) n (entryTaken h s)))) :=
  runs_under fresh live (by simp [show origin ≠ s.rack.num from here ▸ apart])
    ((takeMoveBegin_destination (s := entryTaken h s) apart here unknown).trans (reserveMove_reserves (s := entryTaken h s) room free _))

theorem exec_moveBegin_full (full : freeWindow s = none ∨ directoryLimit s.part ≤ entriesUsed s) :
    exec (.moveBegin h origin dest home alt vec) s = .next (acked h (sendMgr origin 13 h.handle [moveReason .refused] [] [] (entryTaken h s))) :=
  runs_under fresh live (by simp [show origin ≠ s.rack.num from here ▸ apart])
    ((takeMoveBegin_destination (s := entryTaken h s) apart here unknown).trans (reserveMove_refuses (s := entryTaken h s) full _))
end

theorem exec_moveBegin_origin {e : State} (here : origin = s.rack.num) (held : (findSess s h.handle).isSome = true)
    (acted : expire h.handle (entryTaken h s) = e) (same : e.rack.num = s.rack.num) (unknown : findMigration e h.handle = none) :
    exec (.moveBegin h origin dest home alt vec) s = .next (acked h (if movable e h.handle then
      withMove (begunMove h.handle origin dest home alt vec e) e
      else sendMgr dest 13 h.handle [moveReason .refused] [] [] (sendMgr (managerOf e e.rack.num) 13 h.handle [moveReason .refused] [] [] e))) :=
  runs_under fresh live (by simp [held]) (takeMoveBegin_origin (s := entryTaken h s) apart here acted same unknown)
end

/-! ### The copy and the switch-over (steps 3 and 4) -/

/-- An allowance that has not run out, or none, does not act. -/
theorem expire_running {h : Nat} {s : State} {x : Session} (hx : findSess s h = some x) (runs : x.allowance ≠ 0 ∨ x.allowKind = 0) :
    expire h s = s := by
  unfold expire
  rw [hx]
  by_cases some_ : x.allowance = 0
  · have kind := runs.resolve_left (not_not.mpr some_)
    simp [kind]
  · simp [some_]

/-- A migration of the origin with its copy list empty. -/
def copiedMove (x : Session) (m : Migration) : Migration := if m.atOrigin && m.step == 3 then { m with copied := true, copies := castList x } else m

theorem copiedMove_handle (x : Session) (m : Migration) : (copiedMove x m).handle = m.handle := by
  unfold copiedMove
  split <;> rfl

theorem copiedMove_origin (x : Session) {m : Migration} (origin : m.atOrigin = true) (step : m.step = 3) :
    copiedMove x m = { m with copied := true, copies := castList x } := if_pos (by simp [origin, step])

/-- A session that is being moved: its slot idles (R422). -/
def movingNow (x : Session) : Session := { x with state := .moving, before := some x.state, restored := false }

/-- The origin switched over: everything copied, the session MOVING, the migration at step 4. -/
def switchedOver (x : Session) (handle : Nat) (s : State) : State :=
  onMigration handle (fun k => { k with step := 4, before := x.state }) (setSess (movingNow x) (onMigration handle (copiedMove x) s))

theorem switchedOver_only (x : Session) (handle : Nat) (s : State) :
    switchedOver x handle s = { s with sess := (switchedOver x handle s).sess, rack := (switchedOver x handle s).rack } := rfl

/-- No other session is touched. -/
theorem findSess_switchedOver {s : State} {handle : Nat} {x : Session} (hx : findSess s handle = some x) :
    findSess (switchedOver x handle s) handle = some (movingNow x) ∧
    ∀ k, k ≠ handle → findSess (switchedOver x handle s) k = findSess s k := by
  obtain ⟨others, here⟩ := setSess_turns (s := onMigration handle (copiedMove x) s) (y := movingNow x) hx (findSess_handle hx :)
  obtain ⟨_, found, -, rfl⟩ := here x hx
  exact ⟨found, others⟩

theorem findMigration_switchedOver {s : State} {handle : Nat} {m : Migration} (hm : findMigration s handle = some m) (origin : m.atOrigin = true)
    (step : m.step = 3) (x : Session) : findMigration (switchedOver x handle s) handle =
    some { m with copied := true, copies := castList x, step := 4, before := x.state } := by
  have noted := findMigration_onMigration (f := fun k => { k with step := 4, before := x.state }) (s := setSess (movingNow x)
    (onMigration handle (copiedMove x) s)) (fun _ => rfl) (findMigration_onMigration (copiedMove_handle x) hm :)
  rwa [copiedMove_origin x origin step] at noted

/-- The state that a switch-over sends (step 4). -/
def switchBody (x : Session) : List Nat :=
  [x.tenant, x.model, x.durability, x.p, x.w, x.pendingTok.getD 0xFFFFFFFF, ((x.request.map Request.allowance).getD 0)]

section
variable {handle : Nat} {s : State} {x : Session} {m : Migration} (hx : findSess s handle = some x) (hm : findMigration s handle = some m)
  (origin : m.atOrigin = true)
include hx hm origin

/-- With everything copied, no operation and no pour of its flask in flight, a session of the origin switches over. -/
theorem trySwitch_switches (step : m.step = 3) (done : m.copied = true) (all : m.copies = castList x) (idle : x.op = none)
    (landed : inFlight s x = false) (runs : x.allowance ≠ 0 ∨ x.allowKind = 0) :
    trySwitch handle s = sendMgr m.destination 10 handle (switchBody x) [] (entryBytes s x)
      (onMigration handle (fun k => { k with step := 4, before := x.state }) (setSess (movingNow x) s)) := by
  have acted : (if (s.rack.migrations.any fun m => m.handle == handle && m.atOrigin && m.step == 3) = true then expire handle s else s) = s := by
    rw [expire_running hx runs, ite_self]
  unfold trySwitch
  dsimp only
  rw [acted, hm, hx]
  exact if_pos (by simp [origin, step, done, all, idle, landed])

theorem exec_copy_done (step : m.step = 3) (idle : x.op = none) (landed : inFlight s x = false) (runs : x.allowance ≠ 0 ∨ x.allowKind = 0) :
    exec (.migrationCopyDone handle) s = .next (sendMgr m.destination 10 handle (switchBody x) [] (entryBytes (onMigration handle (copiedMove x) s) x)
      (switchedOver x handle s)) := by
  have noted := copiedMove_origin x origin step ▸ findMigration_onMigration (copiedMove_handle x) hm
  have switched := trySwitch_switches (s := onMigration handle (copiedMove x) s) hx noted origin step rfl rfl idle landed runs
  show execMigrationCopyDone handle s = _
  unfold execMigrationCopyDone
  rw [hx]
  exact congrArg _ switched
end

/-! ### The destination prepared (step 5) -/

theorem onSess_same (h : Nat) {f : Session → Session} (same : ∀ x, f x = x) (s : State) : onSess h f s = s := by
  unfold onSess updKey
  simp [same]

/-- A migration refused or lost at its destination: its record and its window go, and no session is touched. -/
theorem abortMigration_arriving {s : State} {h : Nat} {m : Migration} (hm : findMigration s h = some m) (arrives : m.atOrigin = false) (r : MoveEnd) :
    SentOnly (closeCopyWindow m.origin (withoutMove h { s with rack := { s.rack with aborted := s.rack.aborted ++ [(h, moveReason r)] } }))
      (abortMigration h r s) := by
  unfold abortMigration
  rw [hm]
  simp only [arrives, Bool.false_and, Bool.false_eq_true, if_false]
  rw [onSess_same h (fun _ => rfl)]
  split
  · exact sendMgr_sentOnly ..
  · exact (sendMgr_sentOnly ..).trans (sendMgr_sentOnly ..)

/-- A migration at its destination with the state of the session that comes (step 5). -/
def preparedMove (m : Migration) (v : Moved) (s : State) : Migration := { m with step := 5, incoming := some (movedSession m v s) }

/-- The destination with that state. -/
def preparedFor (m : Migration) (v : Moved) (s : State) : State :=
  onMigration m.handle (fun k => { k with step := 5, incoming := some (movedSession m v s) }) s

theorem findMigration_preparedFor {s : State} {h : Nat} {m : Migration} (hm : findMigration s h = some m) (v : Moved) :
    findMigration (preparedFor m v s) h = some (preparedMove m v s) := by
  unfold preparedFor
  rw [findMigration_handle hm]
  exact findMigration_onMigration (f := fun k => { k with step := 5, incoming := some (movedSession m v s) }) (fun _ => rfl) hm

section
variable {h : MgrHdr} {v : Moved} {s : State} {m : Migration} (hm : findMigration s h.handle = some m) (arrives : m.atOrigin = false) (step : m.step = 2)
include hm arrives step

theorem takeSwitch_prepares (tenant : (findTen s v.tenant).isSome = true) (model : modelOk s v.tenant v.model = true) :
    takeSwitch h v s = sendMgr m.origin 11 h.handle [] [] [] (preparedFor m v s) := by
  unfold takeSwitch preparedFor
  rw [hm, findMigration_handle hm]
  exact (if_neg (by simp [arrives, step])).trans (if_neg (by simp [Option.isSome_iff_ne_none.mp tenant, model]))

theorem takeSwitch_refuses (strange : (findTen s v.tenant).isNone = true ∨ modelOk s v.tenant v.model = false) :
    takeSwitch h v s = abortMigration h.handle .refused s := by
  unfold takeSwitch
  rw [hm]
  refine (if_neg (by simp [arrives, step])).trans (if_pos ?_)
  rcases strange with t | f <;> simp [*]
end

/-! ### A migration committed (step 7) or aborted -/

/-- From `s` to `t` no more is changed than the commits that wait for their moves, and the mailboxes answered. -/
def SettledOnly (s t : State) : Prop := t = { s with rack := { s.rack with asking := t.rack.asking }, fns := t.fns, outs := t.outs }

theorem SettledOnly.trans {s t u : State} (a : SettledOnly s t) (b : SettledOnly t u) : SettledOnly s u := by
  unfold SettledOnly at *
  rw [b, a]

theorem SettledOnly.sess {s t : State} (a : SettledOnly s t) : t.sess = s.sess := (congrArg State.sess a :)
theorem SettledOnly.migrations {s t : State} (a : SettledOnly s t) : t.rack.migrations = s.rack.migrations := (congrArg (fun t => t.rack.migrations) a :)
theorem SettledOnly.forwards {s t : State} (a : SettledOnly s t) : t.rack.forwards = s.rack.forwards := (congrArg (fun t => t.rack.forwards) a :)
theorem SettledOnly.aborted {s t : State} (a : SettledOnly s t) : t.rack.aborted = s.rack.aborted := (congrArg (fun t => t.rack.aborted) a :)

theorem answerMb_settledOnly (q : Open) (o : OCode) (payload : List Byte) (s : State) : SettledOnly s (answerMb q o payload s) := by
  unfold answerMb
  dsimp only
  split
  · rcases fire_cases q.fn 1 (onFn q.fn (fun f => { f with mb := { f.mb with
      busy := false, done := true, response := some { outcome := o, op := q.op, tag := q.tag, payload := payload } } }) s) with e | e
    all_goals
      rw [e]
      rfl
  · rfl

theorem moveSettled_settledOnly (h : Nat) (s : State) : SettledOnly s (moveSettled h s) := by
  have answered : ∀ (q : Open × Nat × Nat × List Nat) (t : State), SettledOnly t (answerMb q.1 .done (commitAnswer q.2.1 q.2.2.1) t) :=
    fun q t => answerMb_settledOnly ..
  unfold moveSettled
  exact SettledOnly.trans (t := { s with rack := { s.rack with asking := _ } }) rfl (forEach_rel (R := SettledOnly) (fun _ => rfl) SettledOnly.trans answered _ _)

/-- A session's held messages sent on to its destination (step 7). -/
def sentOn (m : Migration) (handle : Nat) (x : Session) (s : State) : State :=
  forEach (x.heldMsgs.filterMap sprueOf) (fun w t => sendMgr m.destination 10 handle [w.fn] [] (leBytes 64 w.w.toNat) t) s

theorem sentOn_sentOnly (m : Migration) (handle : Nat) (x : Session) (s : State) : SentOnly s (sentOn m handle x s) :=
  forEach_rel SentOnly.refl SentOnly.trans (fun _ _ => sendMgr_sentOnly ..) _ s

/-- The newest forwarding entry is kept while fewer than R424's number stand. -/
theorem mem_leaveForward {s : State} (room : s.rack.forwards.length < forwardLimit) (handle dest : Nat) :
    (handle, dest, newestEpoch s) ∈ (leaveForward handle dest s).rack.forwards := by
  have fits : ((s.rack.forwards.filter fun f => f.1 != handle) ++ [(handle, dest, newestEpoch s)]).length - forwardLimit = 0 := by
    have := List.length_filter_le (fun f : Nat × Nat × Nat => f.1 != handle) s.rack.forwards
    rw [List.length_append, List.length_singleton]
    omega
  unfold leaveForward
  dsimp only
  rw [fits]
  simp

/-- The origin with a session's entry freed, its held messages sent on and its migration ended. -/
def movedAway (m : Migration) (handle : Nat) (x : Session) (s : State) : State :=
  withoutMove handle (letGo (sessProg (sentOn m handle x s) x) x handle (dropQueries handle (sentOn m handle x s)))

theorem takeCommitted_frees {s : State} {handle : Nat} {x : Session} {m : Migration} (hx : findSess s handle = some x)
    (hm : findMigration s handle = some m) (origin : m.atOrigin = true) :
    takeCommitted handle s = moveSettled handle (leaveForward handle m.destination (movedAway m handle x s)) := by
  unfold takeCommitted
  rw [hm, hx]
  exact if_pos origin

theorem movedAway_rack (m : Migration) (handle : Nat) (x : Session) (s : State) :
    (movedAway m handle x s).rack.forwards = s.rack.forwards ∧ newestEpoch (movedAway m handle x s) = newestEpoch s := by
  have sent := sentOn_sentOnly m handle x s
  have left := letGo_rack (sessProg (sentOn m handle x s) x) x handle (dropQueries handle (sentOn m handle x s))
  have forwards : (movedAway m handle x s).rack.forwards = s.rack.forwards :=
    (congrArg Rack.forwards left :).trans (congrArg (fun t => t.rack.forwards) sent :)
  have epochs : (movedAway m handle x s).rack.epochs = s.rack.epochs :=
    (congrArg Rack.epochs left :).trans (congrArg (fun t => t.rack.epochs) sent :)
  unfold newestEpoch
  exact ⟨forwards, by rw [epochs]⟩

theorem findSess_movedAway (m : Migration) (handle : Nat) (x : Session) (s : State) (k : Nat) :
    findSess (movedAway m handle x s) k = if k = handle then none else findSess s k := by
  have sent : (sentOn m handle x s).sess = s.sess := (congrArg State.sess (sentOn_sentOnly m handle x s) :)
  refine (findSess_letGo ..).trans ?_
  split
  · rfl
  · next other => exact ((dropQueries_turns handle _).others k other).trans (findSess_congr sent k)

/-- A forwarding entry left touches the forwarding table alone. -/
theorem leaveForward_only (handle dest : Nat) (s : State) : ∃ l, leaveForward handle dest s = { s with rack := { s.rack with forwards := l } } := by
  unfold leaveForward
  exact ⟨_, rfl⟩

theorem leaveForward_sess (handle dest : Nat) (s : State) : (leaveForward handle dest s).sess = s.sess := by
  obtain ⟨l, e⟩ := leaveForward_only handle dest s
  rw [e]

theorem leaveForward_migrations (handle dest : Nat) (s : State) : (leaveForward handle dest s).rack.migrations = s.rack.migrations := by
  obtain ⟨l, e⟩ := leaveForward_only handle dest s
  rw [e]

theorem findMigration_movedAway (m : Migration) (handle : Nat) (x : Session) (s : State) : findMigration (movedAway m handle x s) handle = none :=
  findMigration_withoutMove ..

section
variable {s : State} {handle : Nat} {x : Session} {m : Migration} (hx : findSess s handle = some x) (hm : findMigration s handle = some m)
  (origin : m.atOrigin = true)
include hx hm origin

theorem findSess_takeCommitted (k : Nat) : findSess (takeCommitted handle s) k = if k = handle then none else findSess s k := by
  rw [takeCommitted_frees hx hm origin]
  have settled := moveSettled_settledOnly handle (leaveForward handle m.destination (movedAway m handle x s))
  exact (findSess_congr (settled.sess.trans (leaveForward_sess ..)) k).trans (findSess_movedAway m handle x s k)

theorem findMigration_takeCommitted : findMigration (takeCommitted handle s) handle = none := by
  rw [takeCommitted_frees hx hm origin]
  have settled := moveSettled_settledOnly handle (leaveForward handle m.destination (movedAway m handle x s))
  exact (findMigration_congr (settled.migrations.trans (leaveForward_migrations ..)) handle).trans (findMigration_movedAway ..)

theorem mem_takeCommitted_forwards (room : s.rack.forwards.length < forwardLimit) :
    (handle, m.destination, newestEpoch s) ∈ (takeCommitted handle s).rack.forwards := by
  obtain ⟨forwards, epoch⟩ := movedAway_rack m handle x s
  rw [takeCommitted_frees hx hm origin, (moveSettled_settledOnly ..).forwards, ← epoch]
  exact mem_leaveForward (by rwa [forwards]) handle m.destination
end

/-! #### Aborted -/

/-- A session of the origin back in the state that it was moved in. -/
def backHere (x : Session) : Session := if x.state == .moving then { x with state := x.before.getD .opened, before := none } else x

theorem backHere_handle (x : Session) : (backHere x).handle = x.handle := by
  unfold backHere
  split <;> rfl

/-- The origin with a migration ended and its session back. -/
def moveAborted (handle reason : Nat) (s : State) : State :=
  onSess handle backHere (withoutMove handle { s with rack := { s.rack with aborted := s.rack.aborted ++ [(handle, reason)] } })

theorem takeAborted_resumes {s : State} {handle : Nat} {x : Session} {m : Migration} (hx : findSess s handle = some x)
    (hm : findMigration s handle = some m) (origin : m.atOrigin = true) (unheld : x.heldMsgs = []) (reason : Nat) :
    SettledOnly (moveAborted handle reason s) (takeAborted handle reason s) := by
  have back : findSess (moveAborted handle reason s) handle = some (backHere x) := findSess_onSess_self (f := backHere) hx backHere_handle
  have quiet : drainHeld handle (moveAborted handle reason s) = moveAborted handle reason s := by
    refine drainHeld_none back ?_
    unfold backHere
    split <;> exact unheld
  have acts : takeAborted handle reason s = if topManager (drainHeld handle (moveAborted handle reason s)) =
      (drainHeld handle (moveAborted handle reason s)).rack.num then moveSettled handle (drainHeld handle (moveAborted handle reason s))
      else drainHeld handle (moveAborted handle reason s) := by
    unfold takeAborted
    dsimp only
    rw [hm]
    simp only [origin, if_true]
    refine if_congr Iff.rfl rfl (if_neg (by simp))
  rw [acts, quiet]
  split
  · exact moveSettled_settledOnly ..
  · rfl

theorem findMigration_moveAborted (handle reason : Nat) (s : State) : findMigration (moveAborted handle reason s) handle = none :=
  findMigration_withoutMove ..

theorem moveAborted_aborted (handle reason : Nat) (s : State) : (moveAborted handle reason s).rack.aborted = s.rack.aborted ++ [(handle, reason)] := rfl

theorem moveAborted_sess (handle reason : Nat) (s : State) : (moveAborted handle reason s).sess = (onSess handle backHere s).sess := rfl

/-- Of the sessions, an abort puts back the one alone that was being moved. -/
theorem findSess_takeAborted {s : State} {handle : Nat} {x : Session} {m : Migration} (hx : findSess s handle = some x)
    (hm : findMigration s handle = some m) (origin : m.atOrigin = true) (unheld : x.heldMsgs = []) (reason : Nat) :
    findSess (takeAborted handle reason s) handle = some (backHere x) ∧
    ∀ k, k ≠ handle → findSess (takeAborted handle reason s) k = findSess s k := by
  have settled := takeAborted_resumes hx hm origin unheld reason
  have same := findSess_congr (settled.sess.trans (moveAborted_sess handle reason s))
  obtain ⟨others, here⟩ := onSess_turns handle backHere backHere_handle s
  obtain ⟨_, found, rfl⟩ := here x hx
  exact ⟨(same handle).trans found, fun k other => (same k).trans (others k other)⟩

/-! ### Each as an entry under its epoch -/

section
variable {h : MgrHdr} {s : State} (fresh : FreshEntry h s) (live : mgrEpoch s h.epoch = .live)
include fresh live

theorem exec_switchOver {v : Moved} {u : State} (acts : takeSwitch h v (entryTaken h s) = u) : exec (.switchOver h v) s = .next (acked h u) :=
  runs_under fresh live rfl acts

theorem exec_committed {u : State} (acts : takeCommitted h.handle (entryTaken h s) = u) : exec (.committed h) s = .next (acked h u) :=
  runs_under fresh live rfl acts

theorem exec_aborted (reason : Nat) : exec (.aborted h reason) s = .next (acked h (takeAborted h.handle reason (entryTaken h s))) :=
  runs_under fresh live rfl rfl
end

/-- Settles O56: each message is an entry taken once, and its own lemma says what its step of the migration makes of the record, the session and the
windows. -/
theorem migrationsGoByTheirSteps : Obligations.MigrationsGoByTheirSteps := by
  unfold Obligations.MigrationsGoByTheirSteps
  refine ⟨fun h origin dest home alt vec s fresh live unknown apart => ⟨fun here room free => ?reserves, fun here full => ?full,
      fun here away => congrArg _ (takeUnder_stale fresh live (by simp [here, away])), fun e here held acted same none_ =>
        ⟨fun moves => ?begins, fun rests => ?refused⟩⟩,
    fun h window s m fresh live hm => ⟨_, runs_under fresh live rfl rfl, findMigration_onMigration (fun k => ?_) hm, rfl⟩,
    fun handle s none_ => ?gone, fun handle s x m hx hm atOrigin step idle landed runs => ?switches,
    fun h v s m fresh live hm arrives step => ⟨fun tenant model => ?prepares, fun strange => ?strange⟩,
    fun h s m fresh live hm => ⟨_, runs_under fresh live rfl rfl, findMigration_onMigration (fun k => ?_) hm, rfl⟩,
    fun h s m x fresh live hm hx atOrigin => ?committed, fun h reason s m x fresh live hm atOrigin hx moved unheld => ?aborted⟩
  case reserves =>
    obtain ⟨n, number⟩ := Option.isSome_iff_exists.mp free
    have noted := findMigration_withMove (s := entryTaken h s) (m := { begunMove h.handle origin dest home alt vec (entryTaken h s) with step := 2 }) unknown
    have other : (origin == s.rack.num) = false := beq_eq_false_iff_ne.mpr (here ▸ apart)
    exact ⟨_, _, copyWin origin n, exec_moveBegin_reserves fresh live apart here unknown room number, number, noted, rfl, rfl, rfl, rfl, rfl, rfl, other,
      List.mem_append_right _ (List.mem_singleton.mpr rfl), rfl, rfl, rfl, ⟨_, mgrMsg_mem_outbox .., rfl, rfl, rfl, rfl⟩,
      reserved_sess (begunMove h.handle origin dest home alt vec (entryTaken h s)) n (entryTaken h s)⟩
  case full =>
    have sent : SentOnly (entryTaken h s) _ := sendMgr_sentOnly origin 13 h.handle [moveReason .refused] [] [] (entryTaken h s)
    exact ⟨_, exec_moveBegin_full fresh live apart here unknown full, sent.links, (findMigration_congr sent.migrations _).trans unknown, sent.sess, _,
      mgrMsg_mem_outbox .., rfl, rfl, rfl⟩
  case begins =>
    have run := exec_moveBegin_origin (home := home) (alt := alt) (vec := vec) fresh live apart here held acted same none_
    rw [if_pos moves] at run
    exact ⟨_, _, run, findMigration_withMove none_, rfl, beq_iff_eq.mpr (here.trans same.symm), rfl, rfl⟩
  case refused =>
    have run := exec_moveBegin_origin (home := home) (alt := alt) (vec := vec) fresh live apart here held acted same none_
    rw [if_neg (ne_true_of_eq_false rests)] at run
    have sent : SentOnly e _ := (sendMgr_sentOnly (managerOf e e.rack.num) 13 h.handle [moveReason .refused] [] [] e).trans
      (sendMgr_sentOnly dest 13 h.handle [moveReason .refused] [] [] _)
    exact ⟨_, run, (findMigration_congr sent.migrations _).trans none_, sent.sess, _, mgrMsg_mem_outbox .., rfl, rfl, rfl⟩
  case gone =>
    show execMigrationCopyDone handle s = _
    unfold execMigrationCopyDone
    rw [none_]
  case switches =>
    have sent : SentOnly (switchedOver x handle s) _ := sendMgr_sentOnly m.destination 10 handle (switchBody x) []
      (entryBytes (onMigration handle (copiedMove x) s) x) (switchedOver x handle s)
    obtain ⟨found, others⟩ := findSess_switchedOver hx
    exact ⟨_, _, exec_copy_done hx hm atOrigin step idle landed runs, (findSess_congr sent.sess _).trans found,
      (findMigration_congr sent.migrations _).trans (findMigration_switchedOver hm atOrigin step x), mgrMsg_mem_outbox .., rfl, rfl, rfl,
      fun j other => (findSess_congr sent.sess j).trans (others j other), sent.sessRack (switchedOver_only ..)⟩
  case prepares =>
    have run := exec_switchOver fresh live (takeSwitch_prepares (s := entryTaken h s) hm arrives step tenant model)
    have sent : SentOnly (preparedFor m v (entryTaken h s)) _ := sendMgr_sentOnly m.origin 11 h.handle [] [] [] (preparedFor m v (entryTaken h s))
    exact ⟨_, preparedMove m v (entryTaken h s), movedSession m v (entryTaken h s), _, run,
      (findMigration_congr sent.migrations _).trans (findMigration_preparedFor hm v), rfl, rfl, findMigration_handle hm, rfl, rfl, rfl, rfl, rfl,
      mgrMsg_mem_outbox .., rfl, rfl, sent.sess⟩
  case strange =>
    have run := exec_switchOver fresh live (takeSwitch_refuses (s := entryTaken h s) hm arrives step strange)
    have sent := abortMigration_arriving (s := entryTaken h s) hm arrives .refused
    refine ⟨_, run,
      (findMigration_congr sent.migrations _).trans (findMigration_withoutMove ..), ?_, findSess_congr sent.sess⟩
    rw [sent.aborted]
    exact List.mem_append_right _ (List.mem_singleton.mpr rfl)
  case committed =>
    have left := findSess_takeCommitted (s := entryTaken h s) hx hm atOrigin
    exact ⟨_, exec_committed fresh live rfl, (left _).trans (if_pos rfl), findMigration_takeCommitted (s := entryTaken h s) hx hm atOrigin,
      mem_takeCommitted_forwards (s := entryTaken h s) hx hm atOrigin, fun j other => (left j).trans (if_neg other)⟩
  case aborted =>
    have settled := takeAborted_resumes (s := entryTaken h s) hx hm atOrigin unheld reason
    obtain ⟨found, others⟩ := findSess_takeAborted (s := entryTaken h s) hx hm atOrigin unheld reason
    have back : backHere x = { x with state := x.before.getD .opened, before := none } := if_pos (by simp [moved])
    refine ⟨_, exec_aborted fresh live reason, (findMigration_congr settled.migrations _).trans (findMigration_moveAborted ..),
      found.trans (congrArg some back), ?_, others⟩
    rw [settled.aborted, moveAborted_aborted]
    exact List.mem_append_right _ (List.mem_singleton.mpr rfl)
  all_goals split <;> rfl

end Sys2Proof.Machine
end

section
/-! What every step keeps (log entry 1, R479, R480, Tables 19-1 and 19-2): each command's own law, gathered over the commands. -/

namespace Sys2Proof.Machine

/-- A command carried out keeps the part and the queue, lowers neither the fuses nor the unlock count, keeps `Consistent`, and ends SAFE_TALK and STOPPED
in STARTING alone. -/
theorem exec_ends (c : Instr) (s : State) : OEnds s (exec c s) := by
  cases c with
  | openSession m => exact (execOpenSession_keeps m s).ends
  | appendText m buf => exact (execAppendText_keeps m buf s).ends
  | appendFrame m buf => exact (execAppendFrame_keeps m buf s).ends
  | generate m stops => exact (execGenerate_keeps m stops s).ends
  | toolResult m buf => exact (execToolResult_keeps m buf s).ends
  | cancel m => exact (execCancel_keeps m s).ends
  | barge m => exact (execBarge_keeps m s).ends
  | park m => exact (execPark_keeps m s).ends
  | close m => exact (execClose_keeps m s).ends
  | recallQuery m query => exact (execRecall_keeps m query s).ends
  | memorize m code => exact (execMemorize_keeps m code s).ends
  | forget m => exact (execForget_keeps m s).ends
  | tapRelease m => exact (execTapRelease_keeps m s).ends
  | budget m => exact (execBudget_keeps m s).ends
  | clockForward m => exact (execClockForward_keeps m s).ends
  | unknownOpcode m => exact (execUnknownOpcode_keeps m s).ends
  | sprueWriteDiscarded fn cause => exact (execSprueWriteDiscarded_keeps fn cause s).ends
  | identify r => exact (execIdentify_keeps r s).ends
  | stage r items => exact (execStage_keeps r items s).ends
  | check r cursor => exact (execCheck_keeps r cursor s).ends
  | commit r token pour => exact (execCommit_keeps r token pour s).ends
  | discardSet r => exact (execDiscardSet_keeps r s).ends
  | discardCommit r => exact (execDiscardCommit_keeps r s).ends
  | persistState r => exact (execPersistState_keeps r s).ends
  | persistImage r img => exact (execPersistImage_keeps r img s).ends
  | attestChain r cursor => exact (execAttestChain_keeps r cursor s).ends
  | attestNative r cursor nonce => exact (execAttestNative_keeps r cursor nonce s).ends
  | attestSnirdaob r cursor nonce => exact (execAttestSnirdaob_keeps r cursor nonce s).ends
  | accountRead r tenant peek cursor => exact (execAccountRead_keeps r tenant peek cursor s).ends
  | healthRead r sect cursor => exact (execHealthRead_keeps r sect cursor s).ends
  | logRead r start => exact (execLogRead_keeps r start s).ends
  | shutdownSelfTest r => exact shutdownSelfTest_ends r s
  | shutdownOrderly r => exact shutdownOrderly_ends r s
  | hubRoll r => exact (execHubRoll_keeps r s).ends
  | shutdownServingReset r => exact shutdownServingReset_ends r s
  | shutdownPackageReset r => exact shutdownPackageReset_ends r s
  | preemptStop r => exact preemptStop_ends r s
  | preemptLive r => exact (execPreemptLive_keeps r s).ends
  | tapSetup r base logSize => exact (execTapSetup_keeps r base logSize s).ends
  | vectorSet r vector count interval => exact (execVectorSet_keeps r vector count interval s).ends
  | recoverImage r img => exact (execRecoverImage_keeps r img s).ends
  | recoverFormat r ns => exact (execRecoverFormat_keeps r ns s).ends
  | recoverHealthRecord r => exact (execRecoverHealthRecord_keeps r s).ends
  | unknownOperation r op sub => exact (execUnknownOperation_keeps r op sub s).ends
  | mbCtrlClear fn done rejected => exact (execMbCtrlClear_keeps fn done rejected s).ends
  | registerWrite fn bar offset value => exact (execRegisterWrite_keeps fn bar offset value s).ends
  | functionLevelReset fn => exact (execFunctionLevelReset_keeps fn s).ends
  | hostLinkDown link perst => exact (hostLinkDown_moves link perst s).ends
  | hostLinkUp link perst => exact (hostLinkUp_moves link perst s).ends
  | preemptNAssert lowNs => exact preemptNAssert_ends lowNs s
  | preemptNArmed => exact (execPreemptNArmed_keeps s).ends
  | servingReset lowNs => exact execServingReset_ends lowNs s
  | packageReset lowNs => exact execPackageReset_ends lowNs s
  | powerGood obs => exact powerGood_ends obs s
  | norTakeoverHubB obs => exact norTakeoverHubB_ends obs s
  | selfTestEnd findings obs => exact selfTestEnd_ends findings obs s
  | railOutOfRange rail mv => exact railOutOfRange_ends rail mv s
  | vauxWarning mv lowNs => exact vauxWarning_ends mv lowNs s
  | thermtrip die => exact (execThermtrip_keeps die s).ends
  | pllLossOfLock die => exact (execPllLossOfLock_keeps die s).ends
  | pllLockRegained die => exact (execPllLockRegained_keeps die s).ends
  | pourPlan obs => exact (execPourPlan_keeps obs s).ends
  | layerComplete obs => exact (execLayerComplete_keeps obs s).ends
  | weightBlockArrived model block => exact (execWeightBlockArrived_keeps model block s).ends
  | weightReadFailed model block => exact (execWeightReadFailed_keeps model block s).ends
  | masksReady => exact (execMasksReady_keeps s).ends
  | samplingDone obs => exact (execSamplingDone_keeps obs s).ends
  | releaseMirrorAck obs => exact (execReleaseMirrorAck_keeps obs s).ends
  | pourBarrier elapsedUs => exact (execPourBarrier_keeps elapsedUs s).ends
  | commitBarrierIdle => exact (execCommitBarrierIdle_keeps s).ends
  | gateListTakeover port => exact (execGateListTakeover_keeps port s).ends
  | clusterFault die cluster => exact (execClusterFault_keeps die cluster s).ends
  | rotationStart die => exact (execRotationStart_keeps die s).ends
  | rotationTestEnd die passed => exact (execRotationTestEnd_keeps die passed s).ends
  | residencyAllowanceExpiry handle => exact (execResidencyAllowanceExpiry_keeps handle s).ends
  | directorySweep elapsedUs => exact (execDirectorySweep_keeps elapsedUs s).ends
  | hardDeadlineExpiry handle => exact (execHardDeadlineExpiry_keeps handle s).ends
  | softDeadlineExpiry handle => exact (execSoftDeadlineExpiry_keeps handle s).ends
  | frameAllowanceExpiry handle frame => exact (execFrameAllowanceExpiry_keeps handle frame s).ends
  | answerBlockTimeout fn => exact (execAnswerBlockTimeout_keeps fn s).ends
  | backlogDrain fn => exact (execBacklogDrain_keeps fn s).ends
  | vectorIntervalExpiry fn vector => exact (execVectorIntervalExpiry_keeps fn vector s).ends
  | demotionCommit handle => exact (execDemotionCommit_keeps handle s).ends
  | revivalPhase1End handle => exact (execRevivalPhase1End_keeps handle s).ends
  | remeltPhase2End handle => exact (execRemeltPhase2End_keeps handle s).ends
  | ingotCommit handle => exact (execIngotCommit_keeps handle s).ends
  | pageCast handle row layer => exact (execPageCast_keeps handle row layer s).ends
  | writeDownFailed handle row layer => exact (execWriteDownFailed_keeps handle row layer s).ends
  | stalledWriteResume partition => exact (execStalledWriteResume_keeps partition s).ends
  | storeCopyCommit handle row => exact (execStoreCopyCommit_keeps handle row s).ends
  | demandFetchComplete handle row layer => exact (execDemandFetchComplete_keeps handle row layer s).ends
  | demandFetchLate handle row layer => exact (execDemandFetchLate_keeps handle row layer s).ends
  | demandFetchFailed handle row layer => exact (execDemandFetchFailed_keeps handle row layer s).ends
  | frozenReadLate handle => exact (execFrozenReadLate_keeps handle s).ends
  | bridgeFatalError pool => exact (execBridgeFatalError_keeps pool s).ends
  | hbmUncorrectable stack region held => exact (execHbmUncorrectable_keeps stack region held s).ends
  | hbmCorrected stack region meterS => exact (execHbmCorrected_keeps stack region meterS s).ends
  | patrolScrub die => exact (execPatrolScrub_keeps die s).ends
  | nandReadComplete hub group object page found => exact (execNandReadComplete_keeps hub group object page found s).ends
  | nandProgramComplete hub group object pages page ok => exact (execNandProgramComplete_keeps hub group object pages page ok s).ends
  | nandEraseComplete hub group ok => exact (execNandEraseComplete_keeps hub group ok s).ends
  | journalFlushTimer hub => exact (execJournalFlushTimer_keeps hub s).ends
  | channelRetrainTimer channel passed => exact (execChannelRetrainTimer_keeps channel passed s).ends
  | recallQueryComplete query => exact (execRecallQueryComplete_keeps query s).ends
  | recallReadLate query => exact (execRecallReadLate_keeps query s).ends
  | recallReadFailed query => exact (execRecallReadFailed_keeps query s).ends
  | memorizeLive index key => exact (execMemorizeLive_keeps index key s).ends
  | repairPassEnd index shard => exact (execRepairPassEnd_keeps index shard s).ends
  | indexDeleteEffect index shard => exact (execIndexDeleteEffect_keeps index shard s).ends
  | envelopeOverrun => exact (execEnvelopeOverrun_keeps s).ends
  | avsbusWriteUnacked rail requestedMv => exact (execAvsbusWriteUnacked_keeps rail requestedMv s).ends
  | thermalRead temps => exact (execThermalRead_keeps temps s).ends
  | chillModuleLost hub => exact (execChillModuleLost_keeps hub s).ends
  | portTrained port width swap peer linkUp => exact (execPortTrained_keeps port width swap peer linkUp s).ends
  | portTrainingTimeout port step => exact (execPortTrainingTimeout_keeps port step s).ends
  | wavelengthSpare port out wavelength unacked => exact (execWavelengthSpare_keeps port out wavelength unacked s).ends
  | portLightLost port noLight unacked => exact (execPortLightLost_keeps port noLight unacked s).ends
  | laserFeedLow port lost unacked => exact (execLaserFeedLow_keeps port lost unacked s).ends
  | laserFeedRestored port => exact (execLaserFeedRestored_keeps port s).ends
  | linkLayerFatal port unacked => exact (execLinkLayerFatal_keeps port unacked s).ends
  | portRetryInterval port lines => exact (execPortRetryInterval_keeps port lines s).ends
  | portRoleDrained port lines => exact (execPortRoleDrained_keeps port lines s).ends
  | fabricWriteReceived port h lines => exact (execFabricWriteReceived_keeps port h lines s).ends
  | fabricReadRequest port h => exact (execFabricReadRequest_keeps port h s).ends
  | fabricReadResponse port h => exact (execFabricReadResponse_keeps port h s).ends
  | fabricReadTimeout tag => exact (execFabricReadTimeout_keeps tag s).ends
  | fabricNotice h => exact (execFabricNotice_keeps h s).ends
  | runnerLineReceived l => exact runnerLineReceived_ends l s
  | runnerResendRequest runner side seq => exact (execRunnerResendRequest_keeps runner side seq s).ends
  | runnerStuckWire runner side group => exact runnerStuckWire_ends runner side group s
  | runnerSparingNotice runner side group => exact runnerSparingNotice_ends runner side group s
  | coreFault core cause => exact (coreFault_moves core cause s).ends
  | watchdogWrite core => exact (execWatchdogWrite_keeps core s).ends
  | watchdogHalfPeriod core => exact (execWatchdogHalfPeriod_keeps core s).ends
  | watchdogExpiry core => exact (coreFault_moves core .watchdog s).ends
  | heartbeat => exact (execHeartbeat_keeps s).ends
  | heartbeatMissed => exact heartbeatMissed_ends s
  | hubCoresRejoin hub => exact (execHubCoresRejoin_keeps hub s).ends
  | configurationMirrorAck => exact (execConfigurationMirrorAck_keeps s).ends
  | hubRollHubReady ok => exact hubRollHubReady_ends ok s
  | eventSourceFire core source => exact (execEventSourceFire_keeps core source s).ends
  | evcEosWrite core source ie => exact (execEvcEosWrite_keeps core source ie s).ends
  | srcCfgSet core source priority bits ie => exact (execSrcCfgSet_keeps core source priority bits ie s).ends
  | srcCfgPendingClear core source priority enable ie => exact (execSrcCfgPendingClear_keeps core source priority enable ie s).ends
  | evcDeliverWrite core value base ie => exact (execEvcDeliverWrite_keeps core value base ie s).ends
  | coreWait core ie => exact (execCoreWait_keeps core ie s).ends
  | meterAlarm core => exact (execMeterAlarm_keeps core s).ends
  | semaphoreAcquire die sem ctx => exact (execSemaphoreAcquire_keeps die sem ctx s).ends
  | semaphoreRelease die sem ctx => exact (execSemaphoreRelease_keeps die sem ctx s).ends
  | semaphoreRevokedClear die sem => exact (execSemaphoreRevokedClear_keeps die sem s).ends
  | join h serial serialEnd => exact (execJoin_keeps h serial serialEnd s).ends
  | joinAnswer h number serialEnd => exact (execJoinAnswer_keeps h number serialEnd s).ends
  | mapPublish h epoch records => exact (execMapPublish_keeps h epoch records s).ends
  | mapApplied h epoch => exact (execMapApplied_keeps h epoch s).ends
  | epochRetired h epoch => exact (execEpochRetired_keeps h epoch s).ends
  | lookup h => exact (execLookup_keeps h s).ends
  | lookupAnswer h holder => exact (execLookupAnswer_keeps h holder s).ends
  | moveBegin h origin destination home alternate vector => exact (execMoveBegin_keeps h origin destination home alternate vector s).ends
  | moveReady h window => exact (execMoveReady_keeps h window s).ends
  | migrationCopyDone handle => exact (execMigrationCopyDone_keeps handle s).ends
  | switchOver h m => exact (execSwitchOver_keeps h m s).ends
  | prepared h => exact (execPrepared_keeps h s).ends
  | committed h => exact (execCommitted_keeps h s).ends
  | aborted h reason => exact (execAborted_keeps h reason s).ends
  | teardown h group => exact (execTeardown_keeps h group s).ends
  | teardownDone h group => exact (execTeardownDone_keeps h group s).ends
  | poisonedReadReport h source destination window reason => exact (execPoisonedReadReport_keeps h source destination window reason s).ends
  | directoryUpdate h holder state => exact (execDirectoryUpdate_keeps h holder state s).ends
  | recallFanOut h op index shard k require exclude key tags code query => exact (execRecallFanOut_keeps h op index shard k require exclude key tags code query s).ends
  | recallAnswer h query shard outcome results => exact (execRecallAnswer_keeps h query shard outcome results s).ends
  | registryUpdate h tenant partition present => exact (execRegistryUpdate_keeps h tenant partition present s).ends
  | acknowledge h seq => exact (execAcknowledge_keeps h seq s).ends
  | managerResendTimeout peer seq => exact (execManagerResendTimeout_keeps peer seq s).ends
  | checkpointNotice h kind => exact checkpointNotice_ends h kind s
  | checkpointAnswer h number slot length outcome => exact (execCheckpointAnswer_keeps h number slot length outcome s).ends
  | checkpointCut => exact checkpointCut_ends s
  | checkpointCommit => exact checkpointCommit_ends s
  | checkpointFailed modulesLeft => exact checkpointFailed_ends modulesLeft s
  | orphanAllowanceExpiry => exact orphanAllowanceExpiry_ends s
  | linkOrphanExpiry link => exact (execLinkOrphanExpiry_keeps link s).ends
  | tenantKeyDestroyed tenant => exact (execTenantKeyDestroyed_keeps tenant s).ends
  | tenantDrainComplete tenant => exact (execTenantDrainComplete_keeps tenant s).ends
  | tenantRemovalComplete tenant => exact (execTenantRemovalComplete_keeps tenant s).ends
  | bindStreamComplete model bytes readOk writeOk hash => exact (execBindStreamComplete_keeps model bytes readOk writeOk hash s).ends
  | noiseSourceFailure hub => exact (execNoiseSourceFailure_keeps hub s).ends
  | bypass => exact (execBypass_keeps s).ends
  | samplePreload => exact (execSamplePreload_keeps s).ends
  | extest => exact (execExtest_keeps s).ends
  | idcode => exact (execIdcode_keeps s).ends
  | debugChallenge => exact debugChallenge_ends s
  | debugUnlock sigOk => exact debugUnlock_ends sigOk s
  | mctpMessage hub msgType length => exact (execMctpMessage_keeps hub msgType length s).ends
  | pldmBaseCommand hub command => exact (execPldmBaseCommand_keeps hub command s).ends
  | pldmPlatformCommand hub command sensor => exact (execPldmPlatformCommand_keeps hub command sensor s).ends
  | pldmRequestUpdate hub => exact (execPldmRequestUpdate_keeps hub s).ends
  | pldmFirmwareUpdate hub img activate => exact (execPldmFirmwareUpdate_keeps hub img activate s).ends
  | mgmtBusStuck hub mga stillHeld => exact (execMgmtBusStuck_keeps hub mga stillHeld s).ends
  | backgroundCopyComplete handle row layer => exact (execBackgroundCopyComplete_keeps handle row layer s).ends
  | clusterIdlePowerOff => exact (execClusterIdlePowerOff_keeps s).ends
  | handshakeRateMeasurement rates => exact (execHandshakeRateMeasurement_keeps rates s).ends
  | configurationRequest link fn write reg value => exact (execConfigurationRequest_keeps link fn write reg value s).ends

/-- A step idles, or carries out its front command on the state with the rest of the queue. -/
theorem step_ends {s t : State} (h : step s = .next t) : (s.pending = [] ∧ t = s) ∨ Ends { s with pending := s.pending.tail } t := by
  unfold step at h
  split at h
  · next empty =>
    cases h
    exact Or.inl ⟨empty, rfl⟩
  · next c rest front =>
    have ends := exec_ends c { s with pending := rest }
    rw [h] at ends
    rw [front]
    exact Or.inr ends

/-- Settles O3: each command keeps `Consistent`, which says nothing of the queue. -/
theorem stepKeepsConsistent : Obligations.StepKeepsConsistent := by
  unfold Obligations.StepKeepsConsistent
  intro s t consistent h
  rcases step_ends h with ⟨-, rfl⟩ | ends
  · exact consistent
  · exact ends.inv consistent

/-- Settles O4: each command keeps the queue that it finds, which is the rest, and the part, and lowers neither count. -/
theorem stepTakesOneCommand : Obligations.StepTakesOneCommand := by
  unfold Obligations.StepTakesOneCommand
  intro s t h
  rcases step_ends h with ⟨empty, rfl⟩ | ends
  · exact ⟨by rw [empty]; rfl, rfl, le_rfl, le_rfl⟩
  · exact ⟨ends.pending, ends.part, ends.fuses, ends.unlocks⟩

/-- Settles O5: no command but a package reset ends a halt, and that one ends in STARTING. -/
theorem onlyAPackageResetEndsAHalt : Obligations.OnlyAPackageResetEndsAHalt := by
  unfold Obligations.OnlyAPackageResetEndsAHalt
  intro s t consistent halted h
  rcases step_ends h with ⟨-, rfl⟩ | ends
  · exact Or.inl rfl
  · exact ends.halted consistent halted

/-- Settles O1: by the definition of a step. -/
theorem stepRunsTheFrontCommand : Obligations.StepRunsTheFrontCommand := by
  unfold Obligations.StepRunsTheFrontCommand
  refine ⟨fun c rest s => rfl, fun s empty => ?_⟩
  unfold step
  rw [empty]

/-- Settles O2: every field of the reset state is written out; each meter that a part may have stands at 0. -/
theorem resetIsConsistent : Obligations.ResetIsConsistent := by
  unfold Obligations.ResetIsConsistent
  refine ⟨⟨rfl, rfl, Nat.zero_le 15, fun opened => nomatch opened⟩, rfl, rfl, rfl, rfl, rfl, rfl, rfl, ?_, rfl⟩
  decide

end Sys2Proof.Machine
end

section
/-! Bytes, duplicate windows and event controllers: little-endian fields (R12), the last 64 numbers (R98, Table 3-9), and the winner (R522). -/

namespace Sys2Proof.Machine

/-! ### Little-endian bytes -/

theorem leBytes_length (n v : Nat) : (leBytes n v).length = n := by simp [leBytes]

/-- The lowest byte first, then those of the rest of the number. -/
theorem leBytes_succ (n v : Nat) : leBytes (n + 1) v = BitVec.ofNat 8 v :: leBytes n (v / 256) := by
  simp only [leBytes, List.range_succ_eq_map, List.map_cons, List.map_map, Nat.mul_zero, Nat.shiftRight_zero]
  congr 1
  apply List.map_congr_left
  intro i _
  show BitVec.ofNat 8 (v >>> (8 * (i + 1))) = BitVec.ofNat 8 ((v / 256) >>> (8 * i))
  rw [show 8 * (i + 1) = 8 + 8 * i by omega, Nat.shiftRight_add, Nat.shiftRight_eq_div_pow v 8]

theorem leNat_leBytes (n v : Nat) : leNat (leBytes n v) = v % 256 ^ n := by
  induction n generalizing v with
  | zero => simp [leBytes, leNat, Nat.mod_one]
  | succ n ih =>
    rw [leBytes_succ, leNat, ih, pow_succ', Nat.mod_mul, BitVec.toNat_ofNat]

theorem leBytes_leNat (bs : List Byte) : leBytes bs.length (leNat bs) = bs := by
  induction bs with
  | nil => rfl
  | cons b bs ih =>
    have low := b.isLt
    rw [List.length_cons, leBytes_succ, leNat, show (b.toNat + 256 * leNat bs) / 256 = leNat bs by omega, ih]
    congr 1
    apply BitVec.eq_of_toNat_eq
    rw [BitVec.toNat_ofNat]
    omega

/-- Settles O9: by induction on the number of bytes, and on the bytes. -/
theorem littleEndianRoundTrip : Obligations.LittleEndianRoundTrip := by
  unfold Obligations.LittleEndianRoundTrip
  refine ⟨fun n v => ⟨leBytes_length n v, leNat_leBytes n v⟩, fun n v pos => ?_, leBytes_leNat⟩
  obtain ⟨k, rfl⟩ := Nat.exists_eq_succ_of_ne_zero pos.ne'
  rw [leBytes_succ]
  rfl

/-! ### Duplicate windows -/

/-- The window once a number has been entered in place of the oldest. -/
theorem windowEnter_fit {w : Window} (fit : WindowFit w) (n op : Nat) : WindowFit (windowEnter w n op) := by
  obtain ⟨len, next, start, -⟩ := fit
  unfold windowEnter
  dsimp only
  have high : (match w.highest with | none => some n | some h => if newer n h = true then some n else some h) ≠ none := by
    split
    · simp
    · split <;> simp
  split
  · exact ⟨by simp; omega, by simp, by simp, fun e => absurd e high⟩
  · next full =>
    exact ⟨by simpa using len, Nat.mod_lt _ (by decide), by simp only [List.length_set]; omega, fun e => absurd e high⟩

/-- The oldest of 64 members overwritten, and the list turned to begin with the next. -/
theorem set_turned {l : List WinEntry} {k : Nat} (in_ : k < l.length) (all : l.length = 64) (e : WinEntry) :
    (l.set k e).drop ((k + 1) % 64) ++ (l.set k e).take ((k + 1) % 64) = (l.drop k ++ l.take k ++ [e]).drop (64 + 1 - 64) := by
  obtain ⟨a, x, b, rfl, rfl⟩ : ∃ a x b, l = a ++ x :: b ∧ a.length = k :=
    ⟨l.take k, l[k], l.drop (k + 1), by simp, by simp; omega⟩
  have parts : a.length + 1 + b.length = 64 := by rw [← all]; simp; omega
  have turned : (a ++ x :: b).set a.length e = a ++ [e] ++ b := by simp
  have rest : (a ++ x :: b).drop a.length ++ (a ++ x :: b).take a.length ++ [e] = x :: (b ++ a ++ [e]) := by simp
  rw [turned, rest]
  by_cases last : b = []
  · subst last
    have : a.length + 1 = 64 := by simpa using parts
    simp [this]
  · have pos := List.length_pos_iff.mpr last
    rw [Nat.mod_eq_of_lt (by omega), List.drop_left' (by simp), List.take_left' (by simp)]
    simp

/-- The numbers of a window once one has been entered, the oldest first. -/
theorem recentEntries_windowEnter {w : Window} (fit : WindowFit w) (n op : Nat) :
    recentEntries (windowEnter w n op) = (recentEntries w ++ [({ seq := n, opcode := op } : WinEntry)]).drop (w.entries.length + 1 - 64) := by
  obtain ⟨len, next, start, -⟩ := fit
  unfold windowEnter recentEntries
  dsimp only
  split
  · next room =>
    rw [start room, show w.entries.length + 1 - 64 = 0 by omega]
    simp
  · next full =>
    have all : w.entries.length = 64 := by omega
    rw [all]
    have in_ : w.next < w.entries.length := by omega
    exact set_turned in_ all _

theorem find?_set {α : Type} {q : α → Bool} {l : List α} {k : Nat} {e : α} (none_ : l.find? q = none) (in_ : k < l.length) (he : q e = true) :
    (l.set k e).find? q = some e := by
  induction l generalizing k with
  | nil => cases in_
  | cons x l ih =>
    obtain ⟨miss, rest⟩ : q x = false ∧ l.find? q = none := by simpa using none_
    cases k with
    | zero => simp [he]
    | succ k => simpa [miss] using ih rest (by simpa using in_)

/-- A number that is new to a window stands in it once entered. -/
theorem windowEnter_finds {w : Window} (fit : WindowFit w) {n : Nat} (op : Nat) (new : w.entries.find? (fun e => e.seq == n) = none) :
    (windowEnter w n op).entries.find? (fun e => e.seq == n) = some { seq := n, opcode := op } := by
  obtain ⟨len, next, -, -⟩ := fit
  unfold windowEnter
  dsimp only
  split
  · rw [List.find?_append, new]
    simp
  · exact find?_set new (by omega) (by simp)

/-- Settles O7: a number entered while the window has room goes to the end, and then in place of the oldest. -/
theorem duplicateWindowRemembers64 : Obligations.DuplicateWindowRemembers64 := by
  unfold Obligations.DuplicateWindowRemembers64
  refine ⟨⟨by decide, by decide, fun _ => rfl, fun _ => rfl⟩, fun w n op fit => ⟨windowEnter_fit fit n op, recentEntries_windowEnter fit n op, fun fresh => ?_⟩⟩
  have new : w.entries.find? (fun e => e.seq == n) = none := by
    unfold windowVerdict at fresh
    split at fresh
    · next noHigh => rw [fit.2.2.2 noHigh]; rfl
    · split at fresh
      · cases fresh
      · next absent => exact absent
  unfold windowVerdict
  split
  · next noHigh =>
    have empty := (windowEnter_fit fit n op).2.2.2 noHigh
    have found := windowEnter_finds fit op new
    rw [empty] at found
    cases found
  · rw [windowEnter_finds fit op new]

/-! ### The winner of an event controller -/

/-- The order of the winner is total: what does not come before one stands at or after it. -/
theorem srcBefore_eq_false_iff (x y : EvSrc) :
    srcBefore x y = false ↔ y.priority < x.priority ∨ (y.priority = x.priority ∧ y.num ≤ x.num) := by
  simp only [srcBefore, Bool.or_eq_false_iff, Bool.and_eq_false_iff, decide_eq_false_iff_not, beq_eq_false_iff_ne]
  omega

/-- The better of the source chosen so far and the next one. -/
def betterSrc (acc : Option EvSrc) (x : EvSrc) : Option EvSrc :=
  match acc with
  | none => some x
  | some y => if srcBefore x y then some x else some y

/-- The better of two sources, which neither comes before. -/
theorem betterSrc_some (a b : EvSrc) :
    ∃ x, betterSrc (some a) b = some x ∧ (x = a ∨ x = b) ∧ srcBefore a x = false ∧ srcBefore b x = false := by
  by_cases h : srcBefore b a = true
  · refine ⟨b, if_pos h, Or.inr rfl, ?_, ?_⟩
    · rw [srcBefore_eq_false_iff]
      have := mt (srcBefore_eq_false_iff b a).mpr (by simp [h])
      omega
    · rw [srcBefore_eq_false_iff]; omega
  · exact ⟨a, if_neg h, Or.inl rfl, by rw [srcBefore_eq_false_iff]; omega, by simpa using h⟩

/-- From a source chosen so far the choice ends with one that nothing comes before. -/
theorem foldl_betterSrc (l : List EvSrc) (a : EvSrc) :
    ∃ x, l.foldl betterSrc (some a) = some x ∧ x ∈ a :: l ∧ ∀ y ∈ a :: l, srcBefore y x = false := by
  induction l generalizing a with
  | nil => exact ⟨a, rfl, by simp, by simp [srcBefore_eq_false_iff]⟩
  | cons b l ih =>
    obtain ⟨z, step, from_, za, zb⟩ := betterSrc_some a b
    obtain ⟨x, e, mem, least⟩ := ih z
    refine ⟨x, by rw [List.foldl_cons, step, e], ?_, fun y hy => ?_⟩
    · rcases List.mem_cons.mp mem with rfl | mem
      · rcases from_ with rfl | rfl <;> simp
      · simp [mem]
    · have zx := least z List.mem_cons_self
      rw [srcBefore_eq_false_iff] at za zb zx ⊢
      rcases List.mem_cons.mp hy with rfl | hy
      · omega
      rcases List.mem_cons.mp hy with rfl | hy
      · omega
      · exact (srcBefore_eq_false_iff y x).mp (least y (List.mem_cons_of_mem _ hy))

/-- The winner is chosen from the ready sources, one by one. -/
theorem winner_cases (c : Core) :
    (c.srcs.filter srcReady = [] ∧ winner c = none) ∨
      ∃ x, winner c = some x ∧ x ∈ c.srcs.filter srcReady ∧ ∀ y ∈ c.srcs.filter srcReady, srcBefore y x = false := by
  have chosen : winner c = (c.srcs.filter srcReady).foldl betterSrc none := rfl
  cases ready : c.srcs.filter srcReady with
  | nil => exact Or.inl ⟨rfl, by rw [chosen, ready]; rfl⟩
  | cons a l =>
    obtain ⟨x, e, best⟩ := foldl_betterSrc l a
    exact Or.inr ⟨x, by rw [chosen, ready]; exact e, best⟩

/-- Settles O10: of two sources the better is kept, and the order is total. -/
theorem eventWinnerIsLeast : Obligations.EventWinnerIsLeast := by
  unfold Obligations.EventWinnerIsLeast
  refine ⟨fun c x won => ?_, fun c => ?_⟩
  · rcases winner_cases c with ⟨-, lost⟩ | ⟨z, won', mem, least⟩
    · rw [lost] at won; cases won
    · obtain rfl : z = x := by rw [won] at won'; exact (Option.some.inj won').symm
      obtain ⟨listed, ready⟩ := List.mem_filter.mp mem
      exact ⟨listed, ready, fun y hy hr => (srcBefore_eq_false_iff y z).mp (least y (List.mem_filter.mpr ⟨hy, hr⟩))⟩
  · rcases winner_cases c with ⟨noReady, lost⟩ | ⟨z, won, mem, -⟩
    · exact ⟨fun _ y hy => by simpa using List.filter_eq_nil_iff.mp noReady y hy, fun _ => lost⟩
    · obtain ⟨listed, ready⟩ := List.mem_filter.mp mem
      exact ⟨fun lost => (nomatch won.symm.trans lost), fun idle => (nomatch ready.symm.trans (idle z listed))⟩

end Sys2Proof.Machine
end

section
/-! Every command is carried out, but for a rail beyond its absolute maximum (R574). -/

namespace Sys2Proof.Machine

/-- A rail within its absolute maximum, or that the part has not, stops nothing. -/
theorem railOutOfRange_completes {rail : Rail} {mv : Int} {s : State} (rated : railFitted s.part rail = false ∨ withinRating rail mv = true) :
    Completes (.railOutOfRange rail mv) s := by
  show ∃ t, execRailOutOfRange rail mv s = .next t
  unfold execRailOutOfRange
  split
  · exact ⟨_, rfl⟩
  · next fitted =>
    rw [if_neg (by simp [rated.resolve_left fitted])]
    split <;> exact ⟨_, rfl⟩

/-- Every other command answers a next state: most at once, the others in each branch of their conditions. -/
theorem exec_completes (c : Instr) (s : State)
    (rated : ∀ rail mv, c = .railOutOfRange rail mv → railFitted s.part rail = false ∨ withinRating rail mv = true) : Completes c s := by
  cases c with
  | railOutOfRange rail mv => exact railOutOfRange_completes (rated rail mv rfl)
  | registerWrite | hostLinkDown | hostLinkUp | preemptNAssert | servingReset | packageReset | powerGood | norTakeoverHubB |
  selfTestEnd | vauxWarning | pllLossOfLock | pllLockRegained | pourPlan | layerComplete | weightBlockArrived | weightReadFailed |
  masksReady | samplingDone | releaseMirrorAck | pourBarrier | commitBarrierIdle | gateListTakeover | clusterFault | rotationStart
  | rotationTestEnd | directorySweep | hardDeadlineExpiry | frameAllowanceExpiry | vectorIntervalExpiry | revivalPhase1End |
  remeltPhase2End | stalledWriteResume | storeCopyCommit | demandFetchComplete | demandFetchLate | demandFetchFailed |
  frozenReadLate | hbmUncorrectable | hbmCorrected | patrolScrub | nandReadComplete | nandProgramComplete | nandEraseComplete |
  channelRetrainTimer | recallQueryComplete | memorizeLive | indexDeleteEffect | envelopeOverrun | portTrained |
  portTrainingTimeout | portLightLost | laserFeedLow | laserFeedRestored | linkLayerFatal | portRetryInterval | portRoleDrained |
  fabricWriteReceived | fabricReadRequest | fabricReadResponse | fabricReadTimeout | fabricNotice | runnerLineReceived |
  runnerResendRequest | runnerStuckWire | runnerSparingNotice | heartbeatMissed | hubCoresRejoin | configurationMirrorAck |
  hubRollHubReady | evcEosWrite | srcCfgSet | srcCfgPendingClear | semaphoreAcquire | semaphoreRelease | join | migrationCopyDone
  | acknowledge | managerResendTimeout | checkpointCut | checkpointCommit | checkpointFailed | orphanAllowanceExpiry |
  linkOrphanExpiry | tenantKeyDestroyed | tenantDrainComplete | tenantRemovalComplete | bindStreamComplete | noiseSourceFailure |
  debugChallenge | debugUnlock | mctpMessage | pldmBaseCommand | pldmPlatformCommand | pldmRequestUpdate | pldmFirmwareUpdate |
  mgmtBusStuck | backgroundCopyComplete | clusterIdlePowerOff | handshakeRateMeasurement | configurationRequest =>
    simp only [Completes, exec,
      execRegisterWrite, execHostLinkDown, execHostLinkUp, execPreemptNAssert, execServingReset, execPackageReset, execPowerGood,
      execNorTakeoverHubB, execSelfTestEnd, execVauxWarning, execPllLossOfLock, execPllLockRegained, execPourPlan,
      execLayerComplete, execWeightBlockArrived, execWeightReadFailed, execMasksReady, execSamplingDone, execReleaseMirrorAck,
      execPourBarrier, execCommitBarrierIdle, execGateListTakeover, execClusterFault, execRotationStart, execRotationTestEnd,
      execDirectorySweep, execHardDeadlineExpiry, execFrameAllowanceExpiry, execVectorIntervalExpiry, execRevivalPhase1End,
      execRemeltPhase2End, execStalledWriteResume, execStoreCopyCommit, execDemandFetchComplete, execDemandFetchLate,
      execDemandFetchFailed, execFrozenReadLate, execHbmUncorrectable, execHbmCorrected, execPatrolScrub, execNandReadComplete,
      execNandProgramComplete, execNandEraseComplete, execChannelRetrainTimer, execRecallQueryComplete, execMemorizeLive,
      execIndexDeleteEffect, execEnvelopeOverrun, execPortTrained, execPortTrainingTimeout, execPortLightLost, execLaserFeedLow,
      execLaserFeedRestored, execLinkLayerFatal, execPortRetryInterval, execPortRoleDrained, execFabricWriteReceived,
      execFabricReadRequest, execFabricReadResponse, execFabricReadTimeout, execFabricNotice, execRunnerLineReceived,
      execRunnerResendRequest, execRunnerStuckWire, execRunnerSparingNotice, execHeartbeatMissed, execHubCoresRejoin,
      execConfigurationMirrorAck, execHubRollHubReady, execEvcEosWrite, execSrcCfgSet, execSrcCfgPendingClear,
      execSemaphoreAcquire, execSemaphoreRelease, execJoin, execMigrationCopyDone, execAcknowledge, execManagerResendTimeout,
      execCheckpointCut, execCheckpointCommit, execCheckpointFailed, execOrphanAllowanceExpiry, execLinkOrphanExpiry,
      execTenantKeyDestroyed, execTenantDrainComplete, execTenantRemovalComplete, execBindStreamComplete, execNoiseSourceFailure,
      execDebugChallenge, execDebugUnlock, execMctpMessage, execPldmBaseCommand, execPldmPlatformCommand, execPldmRequestUpdate,
      execPldmFirmwareUpdate, execMgmtBusStuck, execBackgroundCopyComplete, execClusterIdlePowerOff, execHandshakeRateMeasurement,
      execConfigurationRequest]
    repeat' split
    all_goals exact ⟨_, rfl⟩
  | _ => exact ⟨_, rfl⟩

/-- Settles O6: the breach of a rating is the one fault. -/
theorem everyCommandButARatingBreachCompletes : Obligations.EveryCommandButARatingBreachCompletes := by
  unfold Obligations.EveryCommandButARatingBreachCompletes
  refine ⟨exec_completes, fun rail mv s fitted breach => ?_⟩
  show execRailOutOfRange rail mv s = .fault .ratingExceeded
  unfold execRailOutOfRange
  rw [if_neg (by simp [fitted]), if_pos breach]

end Sys2Proof.Machine
end

section
/-! The test access port, the debug port and configuration requests (R478 to R480, R532, R570, R576). -/

namespace Sys2Proof.Machine

/-! ### The debug port -/

theorem mayUnlock_iff (s : State) :
    mayUnlock s = true ↔ (s.dev.code = .safeTalk ∨ (s.dev.code = .starting ∧ s.dev.step = 2)) ∧ s.sec.unlocks < 15 := by
  simp [mayUnlock]

/-- The challenge that a state would draw: serial, unlock count and 32 bytes of the DRBG (R479). -/
def drawnChallenge (s : State) : Nat := Config.factorySerial + s.sec.unlocks * 2 ^ 64 + (Config.drbgChallenge s.free % 2 ^ 256) * 2 ^ 72

theorem exec_debug_challenge {s : State} (may : mayUnlock s = true) : exec .debugChallenge s =
    .next (drawFree { s with sec := { s.sec with challenge := some (drawnChallenge s) }
                             pins := { s.pins with tapInstr := 5, tapOut := some (drawnChallenge s) } }) := if_pos may

theorem exec_debug_challenge_closed {s : State} (closed : ¬ mayUnlock s = true) : exec .debugChallenge s = .next s := if_neg closed

theorem exec_debug_unlock {s : State} (may : mayUnlock s = true) (drawn : s.sec.challenge.isSome = true) :
    exec (.debugUnlock true) s = .next (unlock s) := if_pos (by simp [may, drawn])

theorem exec_debug_unlock_refused {ok : Bool} {s : State} (refused : ¬ mayUnlock s = true ∨ s.sec.challenge = none ∨ ok = false) :
    exec (.debugUnlock ok) s = .next s := by
  refine if_neg fun taken => ?_
  simp only [Bool.and_eq_true] at taken
  obtain ⟨⟨may, drawn⟩, good⟩ := taken
  rcases refused with closed | none_ | bad
  · exact closed may
  · rw [none_] at drawn; cases drawn
  · rw [bad] at good; cases good

/-- The governing record after an unlock holds no tenant key (R480). -/
theorem hrGoverning_unlock {s : State} {r : HealthRec} (hr : hrGoverning s.nor = some r) :
    ∃ r', hrGoverning (unlock s).nor = some r' ∧ r'.keys = [] := ⟨_, hrGoverning_hrRewrite hr _, rfl⟩

/-- What an unlock leaves of the device, its tenants and its security state (R480). -/
theorem unlock_eq (s : State) : unlock s =
    { s with nor := (hrRewrite (fun r => { r with keys := [] }) s).nor, tens := s.tens.map (fun t => { t with key := none }), sess := []
             dev := { s.dev with log := [], logOldest := s.dev.logNext }
             sec := { unlocks := s.sec.unlocks + 1, open_ := true, destroyed := s.sec.destroyed, serveNot := true, challenge := none } } := by
  unfold unlock
  rw [hrRewrite_frame]

/-! ### Configuration requests -/

section
variable {link fn : Nat} {reg : CfgReg} {value : Nat} {s : State}

theorem exec_configuration_read : exec (.configurationRequest link fn false reg value) s = .next s := if_pos (by simp)

theorem exec_configuration_reset (reset : flagAt s.pins.perst link = true) : exec (.configurationRequest link fn true reg value) s = .next s :=
  if_pos (by simp [reset])

/-- What a write of a register of a function does, once PERST_N of its link is released (R532). -/
def configWrite (link fn : Nat) (reg : CfgReg) (value : Nat) (s : State) : State :=
  match reg with
  | .numVFs => if isPhys fn ∧ value ≤ 63 then { s with dev := { s.dev with numVFs := s.dev.numVFs.set link value } } else s
  | .bar n =>
    if barSize fn n = 0 ∨ fnPresent s fn = false then s
    else onFn fn (fun f => { f with bars := setCount f.bars n (value / barSize fn n * barSize fn n) }) s
  | .msixEnable => s
  | .other => s

theorem exec_configuration_write (fitted : link < linkCount s.part) (released : flagAt s.pins.perst link = false) (own : linkOf fn = link) :
    exec (.configurationRequest link fn true reg value) s = .next (configWrite link fn reg value s) := by
  show execConfigurationRequest link fn true reg value s = _
  unfold execConfigurationRequest configWrite
  rw [if_neg (by simp [fitted, released, own])]
  cases reg <;> dsimp only <;> split <;> rfl

/-- The base address of a window that a function has, aligned on its size (R576). -/
theorem exec_configuration_bar {n size : Nat} (fitted : link < linkCount s.part) (released : flagAt s.pins.perst link = false) (own : linkOf fn = link)
    (present : fnPresent s fn = true) (has : barSize fn n = size) (pos : size ≠ 0) :
    ∃ t, exec (.configurationRequest link fn true (.bar n) value) s = .next t ∧ countOf (fnOf t fn).bars n = value / size * size ∧
      (∀ k, k ≠ fn → fnOf t k = fnOf s k) ∧ t = { s with fns := t.fns } := by
  refine ⟨onFn fn (fun f => { f with bars := setCount f.bars n (value / size * size) }) s, ?_, ?_, fun k other => fnOf_onFn_other other _ _, rfl⟩
  · rw [exec_configuration_write fitted released own, configWrite, if_neg (by simp [has, pos, present]), has]
  · rw [fnOf_onFn_self]
    exact countOf_setCount _ n _
end

/-- Settles O59: the test access port takes its instructions at once; a challenge and an unlock by whether an unlock may be taken; a configuration write
by its register. -/
theorem testAndDebugPortsAnswer : Obligations.TestAndDebugPortsAnswer := by
  unfold Obligations.TestAndDebugPortsAnswer
  refine ⟨fun s => ⟨rfl, rfl, rfl, ?_⟩, fun s => ⟨fun may => ?_, fun closed => ?_, fun may drawn => ?_, fun none_ ok => ?_, ?_⟩,
    fun link fn value reg s => ⟨exec_configuration_read, exec_configuration_reset, fun fitted released own => ⟨fun phys few => ?_, fun not => ?_,
      fun n size present window => ?_, ?_, ?_⟩⟩⟩
  · show Host.Outcome.next _ = _
    cases h : s.part <;> simp [tapInstruction, idcodeOf, h]
  · exact ⟨_, drawnChallenge s, exec_debug_challenge ((mayUnlock_iff s).mpr may), rfl, rfl, rfl, rfl⟩
  · have closed' := mt (mayUnlock_iff s).mp closed
    exact ⟨exec_debug_challenge_closed closed', fun ok => exec_debug_unlock_refused (Or.inl closed')⟩
  · refine ⟨unlock s, exec_debug_unlock ((mayUnlock_iff s).mpr may) drawn, ?_⟩
    refine ⟨rfl, ?_, ?_, rfl, rfl, rfl, ?_, rfl, fun r hr => hrGoverning_unlock hr, (hrRewrite_keeps _ _).fuses, ?_⟩
    all_goals rw [unlock_eq]
    · simp
    · simp [Function.comp_def]
  · exact exec_debug_unlock_refused (Or.inr (Or.inl none_))
  · exact exec_debug_unlock_refused (Or.inr (Or.inr rfl))
  · rw [exec_configuration_write fitted released own, configWrite, if_pos ⟨phys, few⟩]
  · rw [exec_configuration_write fitted released own, configWrite, if_neg]
    rintro ⟨phys, few⟩
    rcases not with virtual | many
    · rw [phys] at virtual; cases virtual
    · omega
  · rcases window with ⟨rfl, rfl⟩ | ⟨rfl, rfl⟩ | ⟨rfl, rfl, phys⟩
    · exact exec_configuration_bar fitted released own present rfl (by decide)
    · exact exec_configuration_bar fitted released own present rfl (by decide)
    · exact exec_configuration_bar fitted released own present (by simp [barSize, phys]) (by decide)
  · exact exec_configuration_write fitted released own
  · exact exec_configuration_write fitted released own

end Sys2Proof.Machine
end

section
/-! The management bus, its segments and the ageing history (R553 to R557, R573, Table 20-7). -/

namespace Sys2Proof.Machine

/-! ### A hub changed -/

theorem onHub_finds {h : Nat} {s : State} {x : Hub} (found : s.dev.hubs[h]? = some x) (f : Hub → Hub) : (onHub h f s).dev.hubs[h]? = some (f x) := by
  simp [onHub, found]

theorem hubOf_eq {h : Nat} {s : State} {x : Hub} (found : s.dev.hubs[h]? = some x) : hubOf s h = x := by
  simp [hubOf, found]

/-! ### Messages answered -/

/-- A message with an answer of its own on a hub's bus: the answer and the free value drawn are all that comes of it. -/
def AnswersAlone (hub : Nat) (s t : State) : Prop :=
  ∃ bs, t.outs.mgmt = s.outs.mgmt ++ [(hub, bs)] ∧ t = { s with outs := { s.outs with mgmt := t.outs.mgmt }, free := s.free + 1 }

theorem mgmtAnswer_alone (hub : Nat) (bs : List Byte) (s : State) : AnswersAlone hub s (mgmtAnswer hub bs s) := ⟨bs, rfl, rfl⟩

section
variable {hub : Nat} {s : State}

theorem exec_mctp_served {n : Nat} (served : mctpServed s hub = true) (fits : n ≤ 64) :
    exec (.mctpMessage hub 0 n) s = .next (mgmtAnswer hub (Config.mctpBody 0 s.free) s) := if_pos (by simp [served, fits])

theorem exec_mctp_unserved {ty n : Nat} (unserved : mctpServed s hub = false ∨ ty ≠ 0 ∨ 64 < n) : exec (.mctpMessage hub ty n) s = .next s := by
  refine if_neg fun taken => ?_
  simp only [Bool.and_eq_true, beq_iff_eq, decide_eq_true_eq] at taken
  obtain ⟨⟨served, control⟩, fits⟩ := taken
  rcases unserved with dark | other | long
  · rw [dark] at served; cases served
  · exact other control
  · omega

theorem exec_pldm_request_held (served : mctpServed s hub = true) (held : norHeld s = true) :
    exec (.pldmRequestUpdate hub) s = .next (mgmtAnswer hub (updateAnswer false s.free) s) := by
  show execPldmRequestUpdate hub s = _
  unfold execPldmRequestUpdate
  rw [if_pos served, if_pos held]

theorem exec_pldm_request_free (served : mctpServed s hub = true) (free_ : norHeld s = false) :
    exec (.pldmRequestUpdate hub) s =
      .next (mgmtAnswer hub (updateAnswer true s.free) (onHub hub (fun h => { h with updating := true }) s)) := by
  show execPldmRequestUpdate hub s = _
  unfold execPldmRequestUpdate
  rw [if_pos served, if_neg (by simp [free_])]

/-! ### The end of an update -/

/-- A hub out of its update mode (R556). -/
def updateEnded (hub : Nat) (s : State) : State := onHub hub (fun h => { h with updating := false }) s

theorem exec_firmware_bad {img : Option Image} {activate : Bool} (served : mctpServed s hub = true) (updating : (hubOf s hub).updating = true)
    (bad : ∀ im, img = some im → verifies s im = false) :
    exec (.pldmFirmwareUpdate hub img activate) s = .next (mgmtAnswer hub (Config.pldmBody 5 0x18 [0, s.free]) (updateEnded hub s)) := by
  have none_ : img.filter (verifies s) = none := by
    cases img with
    | none => rfl
    | some im => simp [Option.filter, bad im rfl]
  show execPldmFirmwareUpdate hub img activate s = _
  unfold execPldmFirmwareUpdate
  rw [if_pos (by simp [served, updating]), none_]
  rfl

theorem exec_firmware_good {im : Image} {activate : Bool} (served : mctpServed s hub = true) (updating : (hubOf s hub).updating = true)
    (good : verifies s im = true) :
    exec (.pldmFirmwareUpdate hub (some im) activate) s =
      .next (mgmtAnswer hub (Config.pldmBody 5 0x18 [1, s.free]) (writeUpdate activate im (updateEnded hub s))) := by
  show execPldmFirmwareUpdate hub (some im) activate s = _
  unfold execPldmFirmwareUpdate
  rw [if_pos (by simp [served, updating]), Option.filter_some_pos good]
  rfl
end

/-! ### Slots and the record that names the next one -/

theorem slotImage_writeSlot (slot : Nat) (im : Image) (s : State) : slotImage (writeSlot slot im s) slot = some im := by
  unfold slotImage writeSlot
  split <;> rfl

/-- A slot written leaves the other one. -/
theorem slotImage_writeSlot_other {slot other : Nat} (apart : ¬(slot = 0 ↔ other = 0)) (im : Image) (s : State) :
    slotImage (writeSlot slot im s) other = slotImage s other := by
  unfold slotImage writeSlot
  by_cases h : slot = 0
  · rw [if_pos h, if_neg (fun e => apart (by simp [h, e])), if_neg (fun e => apart (by simp [h, e]))]
  · have e : other = 0 := by by_contra e; exact apart (by simp [h, e])
    rw [if_neg h, if_pos e, if_pos e]

/-- A slot written changes the NOR alone, and neither the record nor the fuses. -/
theorem writeSlot_frame (slot : Nat) (im : Image) (s : State) :
    writeSlot slot im s = { s with nor := (writeSlot slot im s).nor } ∧ hrGoverning (writeSlot slot im s).nor = hrGoverning s.nor ∧
      (writeSlot slot im s).nor.fuses = s.nor.fuses := by
  unfold writeSlot
  split <;> exact ⟨rfl, rfl, rfl⟩

theorem hrRewrite_slots (f : HealthRec → HealthRec) (s : State) :
    (hrRewrite f s).nor.slotA = s.nor.slotA ∧ (hrRewrite f s).nor.slotB = s.nor.slotB := by
  unfold hrRewrite
  split
  · exact ⟨rfl, rfl⟩
  · dsimp only
    split <;> exact ⟨rfl, rfl⟩

theorem slotImage_hrRewrite (f : HealthRec → HealthRec) (s : State) (slot : Nat) : slotImage (hrRewrite f s) slot = slotImage s slot := by
  unfold slotImage
  rw [(hrRewrite_slots f s).1, (hrRewrite_slots f s).2]

/-- A record that names the slot to run next, on trial (R504, R556). -/
def triesSlot (slot : Nat) (h : HealthRec) : HealthRec := { h with nextSlot := slot, trial := true, tried := false }

theorem writeUpdate_eq (activate : Bool) (im : Image) (s : State) :
    writeUpdate activate im s =
      if activate then hrRewrite (triesSlot (recoverSlot s)) (writeSlot (recoverSlot s) im s) else writeSlot (recoverSlot s) im s := rfl

theorem writeUpdate_slot (activate : Bool) (im : Image) (s : State) : slotImage (writeUpdate activate im s) (recoverSlot s) = some im := by
  rw [writeUpdate_eq]
  split
  · rw [slotImage_hrRewrite, slotImage_writeSlot]
  · exact slotImage_writeSlot ..

/-- An update written changes the NOR alone, and not the fuses. -/
theorem writeUpdate_frame (activate : Bool) (im : Image) (s : State) :
    writeUpdate activate im s = { s with nor := (writeUpdate activate im s).nor } ∧ (writeUpdate activate im s).nor.fuses = s.nor.fuses := by
  obtain ⟨frame, -, fuses⟩ := writeSlot_frame (recoverSlot s) im s
  rw [writeUpdate_eq]
  split
  · refine ⟨?_, (hrRewrite_keeps _ _).fuses.trans fuses⟩
    rw [hrRewrite_frame, frame]
  · exact ⟨frame, fuses⟩

/-! ### Segments held -/

/-- A port whose lasers cannot be reached (R386). -/
def darkened (p : Port) : Port := if p.state = .off then p else gone .dark { p with reason := 4 }

theorem darkened_off {p : Port} (off : p.state = .off) : darkened p = p := if_pos off

theorem darkened_state {p : Port} (on : p.state ≠ .off) : (darkened p).state = .dark ∧ (darkened p).reason = 4 := by
  rw [darkened, if_neg on]
  exact ⟨gone_state .dark _, (gone_asked .dark { p with reason := 4 }).2.2.2⟩

/-- One port darkened, with its paths lost where it was UP (R386, R403). -/
def darkenPort (n : Nat) (t : State) : State :=
  match (findPort t n).map Port.state with
  | some .up => leaveUp n 0 (portFail n .dark 4) t
  | some .off => t
  | none => t
  | some _ => portFail n .dark 4 t

theorem darken_eq (px : Nat) (s : State) : darken px s = forEach ((List.range 16).map (16 * px + ·)) darkenPort s := rfl

section
variable {n : Nat} {s : State} {p : Port}

theorem darkenPort_none (absent : findPort s n = none) : darkenPort n s = s := by
  unfold darkenPort
  rw [absent, Option.map_none]

theorem darkenPort_off (found : findPort s n = some p) (off : p.state = .off) : darkenPort n s = s := by
  unfold darkenPort
  rw [found, Option.map_some, off]

theorem darkenPort_on (found : findPort s n = some p) (low : p.state ≠ .up) (on : p.state ≠ .off) : darkenPort n s = portFail n .dark 4 s := by
  unfold darkenPort
  rw [found, Option.map_some]
  split
  · next up => exact absurd (Option.some.inj up) low
  · next off => exact absurd (Option.some.inj off) on
  · next absent => cases absent
  · rfl
end

/-- A port that is not UP goes dark alone. -/
theorem darkenPort_sets {n : Nat} {s : State} (low : ∀ p, findPort s n = some p → p.state ≠ .up) :
    PortsMoved s (darkenPort n s) ∧ ∀ k, findPort (darkenPort n s) k = if k = n then (findPort s k).map darkened else findPort s k := by
  have unchanged : darkenPort n s = s → (findPort s n).map darkened = findPort s n →
      PortsMoved s (darkenPort n s) ∧ ∀ k, findPort (darkenPort n s) k = if k = n then (findPort s k).map darkened else findPort s k := by
    intro same still
    rw [same]
    refine ⟨.refl s, fun k => ?_⟩
    split
    · next here => rw [here, still]
    · rfl
  cases found : findPort s n with
  | none => exact unchanged (darkenPort_none found) (by rw [found]; rfl)
  | some p =>
    by_cases off : p.state = .off
    · exact unchanged (darkenPort_off found off) (by rw [found, Option.map_some, darkened_off off])
    · have sets := portFail_sets found .dark 4
      rw [darkenPort_on found (low p found) off]
      refine ⟨sets.moved, fun k => ?_⟩
      split
      · next here => rw [here, found, Option.map_some, darkened, if_neg off, sets.here]
      · next other => exact sets.others k other

theorem darkened_idem (p : Port) : darkened (darkened p) = darkened p := by
  by_cases off : p.state = .off
  · rw [darkened_off off, darkened_off off]
  · obtain ⟨dark, reason⟩ := darkened_state off
    have same : ({ darkened p with reason := 4 } : Port) = darkened p := by
      generalize darkened p = q at reason
      cases q
      cases reason
      rfl
    rw [darkened, if_neg (by rw [dark]; decide), same, gone, if_pos dark]

theorem darkened_low {p : Port} (low : p.state ≠ .up) : (darkened p).state ≠ .up := by
  by_cases off : p.state = .off
  · rwa [darkened_off off]
  · rw [(darkened_state off).1]; decide

/-- The ports of a die darkened one after another, none of them UP, and the others. -/
theorem forEach_darkenPort {ns : List Nat} {s : State} (low : ∀ n ∈ ns, ∀ p, findPort s n = some p → p.state ≠ .up) :
    PortsMoved s (forEach ns darkenPort s) ∧ ∀ k, findPort (forEach ns darkenPort s) k = if k ∈ ns then (findPort s k).map darkened else findPort s k := by
  induction ns generalizing s with
  | nil => exact ⟨.refl s, fun k => rfl⟩
  | cons n ns ih =>
    obtain ⟨moved, ports⟩ := darkenPort_sets (low n List.mem_cons_self)
    have still : ∀ m ∈ ns, ∀ p, findPort (darkenPort n s) m = some p → p.state ≠ .up := by
      intro m hm p found
      have was := low m (List.mem_cons_of_mem _ hm)
      rw [ports] at found
      split at found
      · obtain ⟨q, there, rfl⟩ := Option.map_eq_some_iff.mp found
        exact darkened_low (was q there)
      · exact was p found
    obtain ⟨moved', ports'⟩ := ih still
    refine ⟨moved.trans moved', fun k => ?_⟩
    show findPort (forEach ns darkenPort (darkenPort n s)) k = _
    rw [ports', ports]
    have again : darkened ∘ darkened = darkened := funext darkened_idem
    by_cases here : k = n <;> by_cases later : k ∈ ns <;> simp [here, later, again]

theorem mem_portsOf (hub n : Nat) : n ∈ (List.range 16).map (16 * hub + ·) ↔ n / 16 = hub := by
  simp only [List.mem_map, List.mem_range]
  constructor
  · rintro ⟨i, low, rfl⟩; omega
  · exact fun h => ⟨n % 16, by omega, by omega⟩

/-- A die's lasers that cannot be reached, with none of its ports UP (R386, Table 20-7). -/
theorem darken_ports {hub : Nat} {s : State} (low : ∀ p ∈ s.links.ports, p.num / 16 = hub → p.state ≠ .up) :
    PortsMoved s (darken hub s) ∧ ∀ k, findPort (darken hub s) k = if k / 16 = hub then (findPort s k).map darkened else findPort s k := by
  have found_low : ∀ n ∈ (List.range 16).map (16 * hub + ·), ∀ p, findPort s n = some p → p.state ≠ .up := by
    intro n hn p found
    obtain ⟨num, mem⟩ := findKey_some found
    exact low p mem (by rw [num]; exact (mem_portsOf hub n).mp hn)
  obtain ⟨moved, ports⟩ := forEach_darkenPort found_low
  rw [darken_eq]
  exact ⟨moved, fun k => by rw [ports]; simp only [mem_portsOf]⟩

section
variable {hub : Nat} {s : State}

theorem exec_bus_freed (mga : Bool) (fitted : hub < hubCount s.part) (good : s.pins.powerGood = true) :
    exec (.mgmtBusStuck hub mga false) s = .next (note (6 + hub) (bit mga) s) := if_neg (by simp [fitted, good])

theorem exec_mga_held (fitted : hub < hubCount s.part) (good : s.pins.powerGood = true) :
    exec (.mgmtBusStuck hub true true) s = .next (onHub hub (fun h => { h with mgaFenced := true }) (note (6 + hub) (bit true) s)) :=
  if_neg (by simp [fitted, good])

theorem exec_mgb_held (fitted : hub < hubCount s.part) (good : s.pins.powerGood = true) :
    exec (.mgmtBusStuck hub false true) s = .next (darken hub (onHub hub (fun h => { h with mgbFenced := true }) (note (6 + hub) (bit false) s))) :=
  if_neg (by simp [fitted, good])
end

/-! ### Ageing -/

/-- The state an hour of powered time later (R553). -/
def anHourOn (s : State) : State := { s with dev := { s.dev with powered := s.dev.powered + 3600 } }

/-- An hour later, with the samples of the package's indicators after the record (R553). -/
def aged (rates : List Nat) (s : State) : State :=
  hrAppend (fun r => { r with ageing := r.ageing ++ ageSamples rates (anHourOn s), powered := s.dev.powered + 3600 }) (anHourOn s)

theorem hrAppend_frame (f : HealthRec → HealthRec) (s : State) : hrAppend f s = { s with nor := (hrAppend f s).nor } := by
  unfold hrAppend
  split
  · split <;> rfl
  all_goals rfl

/-- A measurement ages the package, and reports a prediction that falls below a year (R553, R554). -/
theorem exec_rate_measurement (rates : List Nat) (s : State) :
    ∃ low t, exec (.handshakeRateMeasurement rates) s = .next t ∧
      t = { aged rates s with dev := { (aged rates s).dev with lowLife := low }, fns := t.fns, outs := t.outs } := by
  show ∃ low t, execHandshakeRateMeasurement rates s = .next t ∧ _
  by_cases low : decide ((unitMonths (aged rates s)).1 < 12) && !(aged rates s).dev.lowLife
  · exact ⟨true, _, if_pos low, fireState_signals _⟩
  · exact ⟨(aged rates s).dev.lowLife, _, if_neg low, rfl⟩

theorem length_ageSamples (rates : List Nat) (s : State) : (diesFitted s.part).length ≤ (ageSamples rates s).length := by
  simp [ageSamples]

/-- Settles O60: each bus command by whether its endpoint is served; the end of an update by its image; a stuck bus by whether it stays held. -/
theorem managementBusAnswers : Obligations.ManagementBusAnswers := by
  unfold Obligations.ManagementBusAnswers
  refine ⟨fun hub c s cmd => ⟨fun served => ?_, fun dark => ?_⟩, fun hub ty n s other => exec_mctp_unserved (Or.inr other),
    fun hub s x served found => ⟨fun free_ => ?_, fun updating img activate => ⟨fun bad => ?_, fun im is good => ?_⟩⟩,
    fun hub mga held s x fitted good found => ⟨?_, ?_, ?_⟩, fun rates s => ?_⟩
  · rcases cmd with ⟨n, rfl, fits⟩ | ⟨k, rfl⟩ | ⟨k, j, rfl⟩ | ⟨rfl, held⟩
    · obtain ⟨bs, answer⟩ := mgmtAnswer_alone hub (Config.mctpBody 0 s.free) s
      exact ⟨_, bs, exec_mctp_served served fits, answer⟩
    · exact ⟨_, _, if_pos served, rfl, rfl⟩
    · exact ⟨_, _, if_pos served, rfl, rfl⟩
    · obtain ⟨bs, answer⟩ := mgmtAnswer_alone hub (updateAnswer false s.free) s
      exact ⟨_, bs, exec_pldm_request_held served held, answer⟩
  · have off : ¬ mctpServed s hub = true := by simp [dark]
    rcases cmd with ⟨n, rfl, -⟩ | ⟨k, rfl⟩ | ⟨k, j, rfl⟩ | ⟨rfl, -⟩
    · exact exec_mctp_unserved (Or.inl dark)
    · exact if_neg off
    · exact if_neg off
    · exact if_neg off
  · exact ⟨_, _, exec_pldm_request_free served free_, onHub_finds found _, rfl, rfl⟩
  · have updating' : (hubOf s hub).updating = true := by rw [hubOf_eq found]; exact updating
    exact ⟨_, _, exec_firmware_bad served updating' bad, onHub_finds found _, rfl, rfl, rfl⟩
  · have updating' : (hubOf s hub).updating = true := by rw [hubOf_eq found]; exact updating
    obtain ⟨frame, fuses⟩ := writeUpdate_frame activate im (updateEnded hub s)
    rw [is]
    refine ⟨_, Config.pldmBody 5 0x18 [1, s.free], exec_firmware_good served updating' good, ?_, writeUpdate_slot activate im (updateEnded hub s), ?_, fuses, ?_, fun r act hr => ?_, fun keep => ?_⟩
    · show (writeUpdate activate im (updateEnded hub s)).dev.hubs[hub]? = _
      rw [frame]
      exact onHub_finds found _
    · show (writeUpdate activate im (updateEnded hub s)).outs.mgmt ++ _ = _
      rw [frame]
      rfl
    · show (writeUpdate activate im (updateEnded hub s)).sess = _
      rw [frame]
      rfl
    · subst act
      have governs : hrGoverning (writeSlot (recoverSlot s) im (updateEnded hub s)).nor = some r :=
        (writeSlot_frame (recoverSlot s) im (updateEnded hub s)).2.1.trans hr
      exact ⟨_, hrGoverning_hrRewrite governs (triesSlot (recoverSlot s)), rfl, rfl⟩
    · subst keep
      exact (writeSlot_frame (recoverSlot s) im (updateEnded hub s)).2.1
  · rintro rfl
    exact ⟨_, exec_bus_freed mga fitted good, rfl, rfl, rfl, rfl⟩
  · rintro rfl rfl
    exact ⟨_, exec_mga_held fitted good, onHub_finds (s := note (6 + hub) (bit true) s) found _, rfl, rfl⟩
  · rintro rfl rfl low
    have fenced := onHub_finds (s := note (6 + hub) (bit false) s) found fun h => { h with mgbFenced := true }
    obtain ⟨moved, ports⟩ := darken_ports (s := onHub hub (fun h => { h with mgbFenced := true }) (note (6 + hub) (bit false) s)) low
    obtain ⟨dev, sess, -, -⟩ := moved.rest
    refine ⟨_, exec_mgb_held fitted good, by rw [dev]; exact fenced, fun n p there here on => ?_, fun n elsewhere => ?_, sess⟩
    · refine ⟨darkened p, ?_, darkened_state on⟩
      rw [ports, if_pos here]
      exact congrArg (Option.map darkened) there
    · rw [ports, if_neg elsewhere]
      rfl
  · obtain ⟨low, t, done, frame⟩ := exec_rate_measurement rates s
    refine ⟨t, done, ?_, fun a copy0 copy1 => ?_, ?_, ?_, ?_⟩
    · rw [frame]
      show (aged rates s).dev.powered = _
      unfold aged
      rw [hrAppend_frame]
      rfl
    · have nor : t.nor = (aged rates s).nor := by rw [frame]
      have governs : hrGoverning t.nor = some { a with ageing := a.ageing ++ ageSamples rates (anHourOn s)
                                                       powered := s.dev.powered + 3600 } := by
        rw [nor]
        simp [aged, anHourOn, hrAppend, hrGoverning, copy0, copy1]
      exact ⟨_, governs, rfl, _, rfl, length_ageSamples rates (anHourOn s)⟩
    all_goals
      rw [frame]
      unfold aged
      rw [hrAppend_frame]
      rfl

end Sys2Proof.Machine
end

section
/-! Register writes and the function-level reset: the mailbox bits, the vector table and the discarded writes (R91, R114, R118, R579, R582, R585). -/

namespace Sys2Proof.Machine

/-! ### The mailbox register -/

theorem fnOf_clearMb (fn : Nat) (done rejected : Bool) (s : State) :
    fnOf (clearMb fn done rejected s) fn = { fnOf s fn with
      id := fn, mb := { (fnOf s fn).mb with done := (fnOf s fn).mb.done && !done, rejected := (fnOf s fn).mb.rejected && !rejected } } :=
  fnOf_onFn_self _ _ _

/-- The request of zeros that a write of MB_CTRL with GO submits (log entry 180). -/
def zeroRequest (fn : Nat) : MbReq := { fn := fn, minor := 0, tag := 0, length := 0, partition := 0 }

theorem exec_control_clear {fn value : Nat} (s : State) (go : value.testBit 0 = false) :
    exec (.registerWrite fn 0 0x220 value) s = .next (clearMb fn (value.testBit 2) (value.testBit 3) s) :=
  congrArg Host.Outcome.next (if_neg (by simp [go]))

theorem exec_control_go {fn value : Nat} (s : State) (go : value.testBit 0 = true) :
    exec (.registerWrite fn 0 0x220 value) s =
      .next (mbSimple (zeroRequest fn) 0 0 (fun _ => true) (fun _ t => t) (clearMb fn (value.testBit 2) (value.testBit 3) s)) :=
  congrArg Host.Outcome.next (if_pos go)

/-- A request of zeros that the mailbox takes is answered at once, its operation not being listed (R116). -/
theorem zeroRequest_answered {fn : Nat} {s : State} (late : mbEarly s = false) (idle : (fnOf s fn).mb.busy = false) (body : Open → State → State) :
    mbSimple (zeroRequest fn) 0 0 (fun _ => true) body s =
      answerMb (mbTake (zeroRequest fn) 0 0 s).1 .notSupported [] (mbTake (zeroRequest fn) 0 0 s).2 :=
  (if_neg (by simp [late, zeroRequest, idle])).trans (if_pos (.inr (.inl rfl)))

theorem busy_clearMb (fn : Nat) (done rejected : Bool) (s : State) :
    (fnOf (clearMb fn done rejected s) fn).mb.busy = (fnOf s fn).mb.busy := by
  rw [fnOf_clearMb]

/-! ### The vector table -/

/-- A word of a function's vector table written (R579). -/
def wordSet (fn off value : Nat) (s : State) : State :=
  onFn fn (fun f => { f with msixTable := setCount f.msixTable (off - 0x8000) value }) s

/-- A vector masked (R114). -/
def maskVector (fn v : Nat) (s : State) : State :=
  onFn fn (fun f => { f with masked := if f.masked.contains v then f.masked else f.masked ++ [v] }) s

/-- A vector no longer masked. -/
def unmaskVector (fn v : Nat) (s : State) : State := onFn fn (fun f => { f with masked := f.masked.filter (· != v) }) s

/-- A vector's pending bit cleared. -/
def clearPending (fn v : Nat) (s : State) : State := onFn fn (fun f => { f with pba := f.pba.filter (· != v) }) s

/-- A vector unmasked, and fired where its pending bit was set (R114, R579). -/
def unmaskFires (fn v : Nat) (s : State) : State :=
  if (fnOf (unmaskVector fn v s) fn).pba.contains v then fire fn v (clearPending fn v (unmaskVector fn v s)) else unmaskVector fn v s

theorem exec_vector_table {fn off : Nat} (value : Nat) (s : State) (low : 0x8000 ≤ off) (high : off < 0x10000) :
    exec (.registerWrite fn 0 off value) s = .next (msixWrite fn off value s) :=
  (if_neg (by omega)).trans (if_pos ⟨low, high⟩)

theorem exec_control_word {fn v : Nat} (value : Nat) (s : State) (hv : v < 2048) :
    exec (.registerWrite fn 0 (0x8000 + 16 * v + 8) value) s =
      .next (if value.testBit 32 then maskVector fn v (wordSet fn (0x8000 + 16 * v + 8) value s)
        else unmaskFires fn v (wordSet fn (0x8000 + 16 * v + 8) value s)) := by
  rw [exec_vector_table value s (by omega) (by omega)]
  unfold msixWrite
  rw [show (0x8000 + 16 * v + 8 - 0x8000) / 16 = v by omega]
  exact congrArg Host.Outcome.next (if_pos (by omega))

theorem mem_masked_maskVector (fn v : Nat) (s : State) : v ∈ (fnOf (maskVector fn v s) fn).masked := by
  rw [maskVector, fnOf_onFn_self]
  show v ∈ if (fnOf s fn).masked.contains v then (fnOf s fn).masked else (fnOf s fn).masked ++ [v]
  split
  next h => simpa using h
  next => simp

theorem fnOf_unmaskVector (fn v : Nat) (s : State) :
    fnOf (unmaskVector fn v s) fn = { fnOf s fn with id := fn, masked := (fnOf s fn).masked.filter (· != v) } := fnOf_onFn_self _ _ _

theorem fnOf_clearPending (fn v : Nat) (s : State) :
    fnOf (clearPending fn v s) fn = { fnOf s fn with id := fn, pba := (fnOf s fn).pba.filter (· != v) } := fnOf_onFn_self _ _ _

theorem unmasked (fn v : Nat) (s : State) : v ∉ (fnOf (unmaskVector fn v s) fn).masked := by
  simp [fnOf_unmaskVector]

theorem unmaskFires_pending {fn v : Nat} {s : State} (h : v ∈ (fnOf s fn).pba) :
    unmaskFires fn v s = { clearPending fn v (unmaskVector fn v s) with outs := { s.outs with signals := s.outs.signals ++ [(fn, v)] } } := by
  have was : (fnOf (unmaskVector fn v s) fn).pba.contains v = true := by simpa [fnOf_unmaskVector] using h
  have open_ : v ∉ (fnOf (clearPending fn v (unmaskVector fn v s)) fn).masked := by
    rw [fnOf_clearPending]
    exact unmasked fn v s
  rw [unmaskFires, if_pos was, fire_unmasked open_]
  rfl

theorem unmaskFires_silent {fn v : Nat} {s : State} (h : v ∉ (fnOf s fn).pba) : unmaskFires fn v s = unmaskVector fn v s :=
  if_neg (by simpa [fnOf_unmaskVector] using h)

/-- A vector unmasked is neither masked nor pending, and has been sent where it was pending. -/
theorem unmaskFires_acts (fn v : Nat) (s : State) :
    v ∉ (fnOf (unmaskFires fn v s) fn).masked ∧ v ∉ (fnOf (unmaskFires fn v s) fn).pba ∧
      (unmaskFires fn v s).outs.signals = s.outs.signals ++ (if v ∈ (fnOf s fn).pba then [(fn, v)] else []) := by
  by_cases h : v ∈ (fnOf s fn).pba
  · rw [unmaskFires_pending h, if_pos h]
    have cleared := fnOf_clearPending fn v (unmaskVector fn v s)
    refine ⟨?_, ?_, rfl⟩
    · show v ∉ (fnOf (clearPending fn v (unmaskVector fn v s)) fn).masked
      rw [cleared]
      exact unmasked fn v s
    · show v ∉ (fnOf (clearPending fn v (unmaskVector fn v s)) fn).pba
      simp [cleared]
  · rw [unmaskFires_silent h, if_neg h]
    refine ⟨unmasked fn v s, ?_, (List.append_nil _).symm⟩
    rw [fnOf_unmaskVector]
    exact h

theorem fnOf_unmaskFires_other {fn j : Nat} (h : j ≠ fn) (v : Nat) (s : State) : fnOf (unmaskFires fn v s) j = fnOf s j := by
  have kept : fnOf (unmaskVector fn v s) j = fnOf s j := fnOf_onFn_other h _ s
  unfold unmaskFires
  split
  · rw [fnOf_fire_other h, clearPending, fnOf_onFn_other h, kept]
  · exact kept

theorem unmaskFires_signals (fn v : Nat) (s : State) : Signals s (unmaskFires fn v s) := by
  have kept : Signals s (unmaskVector fn v s) := onFn_signals _ _ s
  unfold unmaskFires
  split
  · exact kept.trans ((onFn_signals _ _ _).trans (fire_signals _ _ _))
  · exact kept

theorem fnOf_wordSet (fn off value : Nat) (s : State) :
    fnOf (wordSet fn off value s) fn = { fnOf s fn with id := fn, msixTable := setCount (fnOf s fn).msixTable (off - 0x8000) value } :=
  fnOf_onFn_self _ _ _

/-! ### Every other register -/

/-- A register write that names neither MB_CTRL, nor the vector table, nor the sprue window changes nothing (R578). -/
theorem exec_other_register {fn bar offset : Nat} (value : Nat) (s : State) (window : bar ≠ 2)
    (other : bar = 0 → offset ≠ 0x220 ∧ (offset < 0x8000 ∨ 0x10000 ≤ offset)) : exec (.registerWrite fn bar offset value) s = .next s := by
  rcases bar with _ | _ | _ | n
  · obtain ⟨control, table⟩ := other rfl
    exact (if_neg control).trans (if_neg (by omega))
  · rfl
  · exact absurd rfl window
  · rfl

/-- Settles O27: each write comes to one change of its own function, a request of zeros, or a vector that fires. -/
theorem registerWritesAct : Obligations.RegisterWritesAct := by
  unfold Obligations.RegisterWritesAct
  refine ⟨fun fn done rejected s => ⟨_, rfl, rfl, fun j hj => fnOf_onFn_other hj _ s, fnOf_clearMb fn done rejected s⟩,
    fun fn value s go => exec_control_clear s go, fun fn value s u go cleared => ?control, fun fn v value s hv mask => ?mask,
    fun fn v value s hv mask => ?unmask, fun fn offset value s low high word => ?word, fun _ _ _ _ => rfl,
    fun fn bar offset value s window other => exec_other_register value s window other,
    fun fn s => ⟨_, rfl, rfl, fun j hj => fnOf_onFn_other hj _ s, fnOf_onFn_self fn _ s⟩⟩
  case control =>
    obtain rfl : clearMb fn (value.testBit 2) (value.testBit 3) s = u := Host.Outcome.next.inj cleared
    have busy := busy_clearMb fn (value.testBit 2) (value.testBit 3) s
    rw [exec_control_go s go]
    generalize hu : clearMb fn (value.testBit 2) (value.testBit 3) s = u at busy
    have early : mbEarly u = mbEarly s := by rw [← hu]; rfl
    have cleared : Signals s u := hu ▸ onFn_signals _ _ s
    refine ⟨fun refused => ?_, fun late idle => ?_⟩
    · have blocked : (mbEarly u || (fnOf u fn).mb.busy) = true := by simpa [early, busy] using refused
      exact congrArg Host.Outcome.next (if_pos blocked)
    · rw [zeroRequest_answered (early.trans late) (busy.trans idle)]
      obtain ⟨free, done, response⟩ := answerMb_answered (zeroRequest fn) 0 0 .notSupported [] u _ rfl
      exact ⟨_, rfl, free, done, response, cleared.trans ((mbTake_signals (zeroRequest fn) 0 0 u).trans (answerMb_signals _ _ _ _))⟩
  case mask =>
    refine ⟨_, (exec_control_word value s hv).trans (congrArg _ (if_pos mask)), mem_masked_maskVector fn v _, ?_, fun j hj => ?_, rfl⟩
    · rw [maskVector, fnOf_onFn_self, fnOf_wordSet]
    · rw [maskVector, fnOf_onFn_other hj, wordSet, fnOf_onFn_other hj]
  case unmask =>
    have word := fnOf_wordSet fn (0x8000 + 16 * v + 8) value s
    obtain ⟨masked, pending, sent⟩ := unmaskFires_acts fn v (wordSet fn (0x8000 + 16 * v + 8) value s)
    rw [word] at sent
    refine ⟨_, (exec_control_word value s hv).trans (congrArg _ (if_neg (by simp [mask]))), masked, pending, sent, fun j hj => ?_,
      (onFn_signals fn _ s).trans (unmaskFires_signals fn v _)⟩
    rw [fnOf_unmaskFires_other hj, wordSet, fnOf_onFn_other hj]
  case word =>
    exact ⟨wordSet fn offset value s, (exec_vector_table value s low high).trans (congrArg _ (if_neg word)), rfl,
      fun j hj => fnOf_onFn_other hj _ s, fnOf_wordSet fn offset value s⟩

end Sys2Proof.Machine
end

section
/-! Host links that fall and return (R544, R546; Table 19-2). -/

namespace Sys2Proof.Machine

/-! ### The device state entered -/

/-- A device state entered changes the code, SAFE_N, the functions and the signals alone (Table 19-2, R528). -/
def Entered (d : DState) (s t : State) : Prop :=
  t = { s with dev := { s.dev with code := d }, pins := { s.pins with safeLow := t.pins.safeLow }, fns := t.fns, outs := t.outs }

theorem enterState_entered (d : DState) (s : State) : Entered d s (enterState d s) := by
  unfold Entered enterState
  split
  next h => subst h; rfl
  next =>
    have fired := fireState_signals { s with dev := { s.dev with code := d }, pins := { s.pins with safeLow := d == .safeTalk } }
    unfold Signals at fired
    rw [fired]

theorem Entered.dev {d : DState} {s t : State} (a : Entered d s t) : t.dev = { s.dev with code := d } := (congrArg State.dev a :)

/-! ### A link that falls -/

/-- The state with a link down and its PERST_N as read, before anything comes of it. -/
def linkFallen (link : Nat) (perst : Bool) (s : State) : State :=
  { s with dev := { s.dev with linkUp := s.dev.linkUp.set link false }, pins := { s.pins with perst := s.pins.perst.set link (perst || flagAt s.pins.perst link) } }

/-- The state with a link down, its functions reset where PERST_N is asserted (R544). -/
def linkReset (link : Nat) (perst : Bool) (s : State) : State :=
  if perst then resetLink link (linkFallen link perst s) else linkFallen link perst s

theorem resetLink_signals (link : Nat) (s : State) : Signals s (resetLink link s) :=
  forEach_signals _ _ _ fun fn t => onFn_signals fn _ t

theorem linkReset_signals (link : Nat) (perst : Bool) (s : State) : Signals (linkFallen link perst s) (linkReset link perst s) := by
  unfold linkReset
  split
  · exact resetLink_signals link _
  · exact Signals.refl _

theorem exec_link_down {link : Nat} (perst : Bool) {s : State} (listed : link < linkCount s.part) :
    exec (.hostLinkDown link perst) s = .next (
      if (hostRegionsLost link (linkReset link perst s)).dev.code = .ready ∧ !((hostRegionsLost link (linkReset link perst s)).dev.linkUp.any id)
      then enterOrphan (hostRegionsLost link (linkReset link perst s)) else hostRegionsLost link (linkReset link perst s)) :=
  if_neg (by omega)

/-- A link's fall leaves the device as it was while another link is up. -/
theorem linkLost_keeps (link : Nat) (perst : Bool) (s : State) : Keeps (linkFallen link perst s) (hostRegionsLost link (linkReset link perst s)) := by
  refine Keeps.trans ?_ (hostRegionsLost_keeps link _)
  unfold linkReset
  split
  · exact resetLink_keeps link _
  · exact Keeps.refl _

/-- With no region of host memory behind the link in use, none is lost. -/
theorem hostRegionsLost_unused {link : Nat} {s : State}
    (unused : s.tiers.hRegions.any (fun r => r.link == link && !r.failed && decide (0 < r.length)) = false) : hostRegionsLost link s = s :=
  if_neg (by simp [unused])

/-- With an orphan allowance the package waits in ORPHAN (R546). -/
theorem enterOrphan_waits {s : State} (allowance : ∀ im, s.dev.image = some im → im.board.orphanUs ≠ 0) :
    enterOrphan s = enterState .orphan s := by
  have same : (enterState .orphan s).dev.image = s.dev.image := (congrArg Dev.image (enterState_entered .orphan s).dev :)
  refine if_neg ?_
  rw [same]
  cases h : s.dev.image with
  | none => simp
  | some im => simp [allowance im h]

/-! ### A link that comes up -/

/-- The state with a link up and PERST_N released. -/
def linkRisen (link : Nat) (s : State) : State :=
  { s with dev := { s.dev with linkUp := s.dev.linkUp.set link true }, pins := { s.pins with perst := s.pins.perst.set link false } }

/-- The records that wait for the functions of a link written as far as they fit. -/
def linkDrained (link : Nat) (s : State) : State := forEach ((s.fns.filter fun f => linkOf f.id == link).map Fn.id) drainBacklog s

theorem forEach_tapFrame {α : Type} (l : List α) (f : α → State → State) (s : State) (h : ∀ x t, TapFrame t (f x t)) : TapFrame s (forEach l f s) := by
  unfold forEach
  induction l generalizing s with
  | nil => exact rfl
  | cons a l ih => exact (h a s).trans (ih (f a s))

theorem linkDrained_frame (link : Nat) (s : State) : TapFrame s (linkDrained link s) :=
  forEach_tapFrame _ _ _ fun fn t => (drainBacklog_step fn t).frame

theorem exec_link_up {link : Nat} {s : State} (listed : link < linkCount s.part) (powered : s.pins.powerGood = true) :
    exec (.hostLinkUp link false) s = .next (
      if (linkDrained link (linkRisen link s)).dev.code = .orphan then enterState .ready (linkDrained link (linkRisen link s))
      else linkDrained link (linkRisen link s)) :=
  if_neg (by simp only [powered, Bool.true_eq_false, or_false]; omega)

/-- Settles O28: what a link's fall or return changes of the device, by the condition under which its state changes. -/
theorem hostLinksFallAndReturn : Obligations.HostLinksFallAndReturn := by
  unfold Obligations.HostLinksFallAndReturn
  refine ⟨fun link perst s listed _ another => ?falls, fun link perst s listed ready unused allowance last => ?orphan,
    fun link s listed powered => ?rises⟩
  case falls =>
    have kept := linkLost_keeps link perst s
    rw [exec_link_down perst listed, if_neg (by rw [kept.linkUp]; simpa [linkFallen] using fun _ => another)]
    exact ⟨_, rfl, kept.code, kept.safeLow, kept.sec, kept.part, kept.fuses⟩
  case orphan =>
    have reset := linkReset_signals link perst s
    have dev : (linkReset link perst s).dev = { s.dev with linkUp := s.dev.linkUp.set link false } := (congrArg State.dev reset :)
    have tiers : (linkReset link perst s).tiers = s.tiers := (congrArg State.tiers reset :)
    have entered := enterState_entered .orphan (linkReset link perst s)
    rw [exec_link_down perst listed, hostRegionsLost_unused (tiers ▸ unused), if_pos (by rw [dev]; simp [ready, last]),
      enterOrphan_waits (by rw [dev]; exact allowance)]
    refine ⟨_, rfl, by rw [entered.dev, dev], ?_⟩
    unfold Entered at entered
    rw [entered, reset]
    rfl
  case rises =>
    have drained := linkDrained_frame link (linkRisen link s)
    have dev : (linkDrained link (linkRisen link s)).dev = { s.dev with linkUp := s.dev.linkUp.set link true } := (congrArg State.dev drained :)
    have pins : (linkDrained link (linkRisen link s)).pins.perst = s.pins.perst.set link false := (congrArg (fun t => t.pins.perst) drained :)
    rw [exec_link_up listed powered]
    unfold TapFrame at drained
    split
    next orphan =>
      have entered := enterState_entered .ready (linkDrained link (linkRisen link s))
      rw [dev] at orphan
      refine ⟨_, rfl, by rw [entered.dev, dev, if_pos orphan], ?_, ?_⟩
      · exact (congrArg (fun t => t.pins.perst) entered).trans pins
      · unfold Entered at entered
        rw [entered, drained]
        rfl
    next other =>
      rw [dev] at other
      refine ⟨_, rfl, by rw [dev, if_neg other], pins, ?_⟩
      rw [drained]
      rfl

end Sys2Proof.Machine
end

section
/-! Stops begun: what entering STOPPING leaves, the checkpoint that a stop begins, and the notices and requests that begin one
(R429 to R431, R453, R503, R517, R540, R541, R564, R571; Table 19-2). -/

namespace Sys2Proof.Machine

/-! ### STOPPING entered -/

theorem refuseComposition_signals (c : Commit) (s : State) : Signals s (refuseComposition c s) := by
  unfold refuseComposition
  split
  · exact answerMb_signals _ _ _ _
  · exact Signals.refl s

/-- The commits not applied dropped: nothing else changes but functions and signals (R503). -/
theorem dropCommits_frame (s : State) : Signals { s with stg := { s.stg with commits := [] } } (dropCommits s) :=
  forEach_signals _ _ _ refuseComposition_signals

/-- What entering STOPPING for the stop `k` comes to (Table 19-2). -/
def Stopped (k : Stop) (s t : State) : Prop :=
  t = { s with dev := { s.dev with code := .stopping, stop := some k, lastStop := none }, pins := { s.pins with safeLow := t.pins.safeLow }
               dies := t.dies, stg := { s.stg with commits := [] }, store := { s.store with clean := false }, fns := t.fns, outs := t.outs }

theorem enterStopping_stopped (k : Stop) (s : State) : Stopped k s (enterStopping k s) := by
  have dropped := dropCommits_frame s
  unfold Signals at dropped
  unfold Stopped enterStopping
  dsimp only
  have entered := enterState_entered .stopping { abandonTests (dropCommits s) with
    dev := { (abandonTests (dropCommits s)).dev with stop := some k, lastStop := none }
    store := { (abandonTests (dropCommits s)).store with clean := false } }
  unfold Entered at entered
  rw [entered, abandonTests, dropped]

theorem Stopped.dev {k : Stop} {s t : State} (a : Stopped k s t) : t.dev = { s.dev with code := .stopping, stop := some k, lastStop := none } :=
  (congrArg State.dev a :)

theorem Stopped.chk {k : Stop} {s t : State} (a : Stopped k s t) : t.chk = s.chk := (congrArg State.chk a :)

theorem Stopped.commits {k : Stop} {s t : State} (a : Stopped k s t) : t.stg.commits = [] := (congrArg (fun u => u.stg.commits) a :)

/-! ### The checkpoint of a stop -/

/-- A checkpoint can be made and none is in progress (R374, R431). -/
def CanCheckpoint (s : State) : Prop := s.chk.now = none ∧ unprotected s = false

theorem serving_cases {s : State} (h : serving s = true) : s.dev.code = .ready ∨ s.dev.code = .orphan := by simpa [serving] using h

/-- The state in which a stop has begun its checkpoint. -/
def stopBegun (k : Stop) (a : Asker) (s : State) : State := beginCkpt (nextCkSlot (enterStopping k s)) true [a] (enterStopping k s)

theorem stopCkpt_enterStopping {k : Stop} {s : State} (can : CanCheckpoint s) (a : Asker) : stopCkpt a (enterStopping k s) = stopBegun k a s := by
  obtain ⟨free, protected_⟩ := can
  have entered := enterStopping_stopped k s
  have none_yet : (enterStopping k s).chk.now = none := (congrArg Chk.now entered.chk).trans free
  have still : unprotected (enterStopping k s) = false := by
    unfold unprotected at protected_ ⊢
    rw [entered.dev]
    exact protected_
  unfold stopCkpt stopBegun
  rw [none_yet]
  exact if_neg (by simp [still])

/-- What a stop begun comes to: STOPPING for `k`, no commit left, and a stop checkpoint of the next number that is not yet cut. -/
structure StopBegun (k : Stop) (a : Asker) (s t : State) : Prop where
  code : t.dev.code = .stopping
  commits : t.stg.commits = []
  stop : t.dev.stop = some k
  chk : t.chk = { s.chk with nextNumber := s.chk.nextNumber + 1, now := t.chk.now }
  now : ∃ slot, t.chk.now = some { number := s.chk.nextNumber, slot := slot, stop := true, askers := [a] }

theorem stopBegun_begun (k : Stop) (a : Asker) (s : State) : StopBegun k a s (stopBegun k a s) := by
  have entered := enterStopping_stopped k s
  have chk := entered.chk
  refine ⟨congrArg Dev.code entered.dev, entered.commits, congrArg Dev.stop entered.dev, ?_, nextCkSlot (enterStopping k s), ?_⟩
  · unfold stopBegun beginCkpt
    dsimp only
    rw [chk]
  · exact congrArg (fun n => some ({ number := n, slot := nextCkSlot (enterStopping k s), stop := true, askers := [a] } : Ckpt))
      (congrArg Chk.nextNumber chk)

/-- A stop notice to a package that serves begins a stop (R430). -/
theorem noticeStop_begins {s : State} (live : serving s = true) (can : CanCheckpoint s) (a : Asker) : noticeStop a s = stopBegun {} a s := by
  rw [← stopCkpt_enterStopping can a]
  unfold noticeStop
  rcases serving_cases live with h | h <;> rw [h]

/-- A SHUTDOWN of a package that serves begins an orderly stop (R541). -/
theorem shutdown_begins {s : State} (live : serving s = true) (can : CanCheckpoint s) (selfTest thenReset : Bool) (q : Open) :
    shutdown selfTest thenReset q s = stopBegun { answers := [q], selfTest := selfTest, thenReset := thenReset, orderly := true } .device s := by
  rw [← stopCkpt_enterStopping can .device]
  unfold shutdown
  rcases serving_cases live with h | h <;> rw [h]

/-- A live notice to a package that serves begins a live checkpoint (R431). -/
theorem noticeLive_begins {s : State} (live : serving s = true) (can : CanCheckpoint s) (a : Asker) :
    noticeLive a s = beginCkpt (nextCkSlot s) false [a] s := by
  obtain ⟨free, protected_⟩ := can
  unfold noticeLive
  rcases serving_cases live with h | h <;> rw [h] <;> simp [free, protected_]

/-! ### Notices of the board -/

theorem exec_preempt_low {n : Nat} {s : State} (powered : s.pins.powerGood = true) (long : 1000 ≤ n) :
    exec (.preemptNAssert n) s = .next (if s.pins.armed then noticeStop .device s else note (leadDie s) n s) := by
  refine (if_neg (by simp only [powered, Bool.true_eq_false, false_or]; omega)).trans ?_
  cases s.pins.armed <;> rfl

theorem exec_supply_warning {mv n : Nat} {s : State} {im : Image} (powered : s.pins.powerGood = true) (low : mv < 1760) (long : 1000 ≤ n)
    (image : s.dev.image = some im) (monitor : im.board.supplyMonitor = true) : exec (.vauxWarning mv n) s = .next (noticeStop .device s) :=
  if_pos (by simp [powered, low, long, image, monitor])

/-- The last entry of the log after a note holds its data. -/
theorem note_logged (die data : Nat) (s : State) : (note die data s).dev.log.getLast?.map LogEntry.data = some data := healthEvent_logged die data s

/-- Settles O29: each of the two conditions is a stop notice, which begins a stop; otherwise it is an entry of the log, or nothing. -/
theorem boardNoticesStop : Obligations.BoardNoticesStop := by
  unfold Obligations.BoardNoticesStop
  refine ⟨fun s powered => congrArg _ (if_pos powered), fun c s powered live free protected_ notice => ?_, fun n s powered long idle => ?_,
    fun mv n s high => ?_⟩
  · have run : exec c s = .next (stopBegun {} .device s) := by
      rw [← noticeStop_begins live ⟨free, protected_⟩]
      rcases notice with ⟨n, rfl, long, armed⟩ | ⟨mv, n, im, rfl, low, long, image, monitor⟩
      · rw [exec_preempt_low powered long, if_pos armed]
      · exact exec_supply_warning powered low long image monitor
    obtain ⟨code, commits, _, chk, slot, now⟩ := stopBegun_begun {} .device s
    have entered := enterStopping_stopped {} s
    exact ⟨_, _, run, code, commits, now, rfl, rfl, rfl, rfl, (congrArg Chk.nextNumber chk :), (congrArg (fun u => u.nor.fuses) entered :),
      (congrArg State.sec entered :)⟩
  · refine ⟨_, (exec_preempt_low powered long).trans (congrArg _ (if_neg (by simp [idle]))), rfl, note_logged _ _ s, note_frame _ _ s⟩
  · exact if_neg (by simp only [Bool.and_eq_true, decide_eq_true_eq]; omega)

/-! ### SHUTDOWN and PREEMPT -/

theorem exec_shutdown {r : MbReq} {s : State} (ready : Ready r 0x50 s) (len : r.length = 16) :
    exec (.shutdownSelfTest r) s = .next (shutdown true false (mbTake r 0x50 0 s).1 (mbTake r 0x50 0 s).2) ∧
      exec (.shutdownOrderly r) s = .next (shutdown false false (mbTake r 0x50 1 s).1 (mbTake r 0x50 1 s).2) ∧
      exec (.shutdownPackageReset r) s = .next (shutdown false true (mbTake r 0x50 4 s).1 (mbTake r 0x50 4 s).2) :=
  have fits : (r.length == 16) = true := by simp [len]
  ⟨congrArg Host.Outcome.next (mbRun_ready r 0x50 0 _ _ _ s ready fits), congrArg Host.Outcome.next (mbRun_ready r 0x50 1 _ _ _ s ready fits),
    congrArg Host.Outcome.next (mbRun_ready r 0x50 4 _ _ _ s ready fits)⟩

/-- What a SHUTDOWN that begins a stop leaves: its request alone to be answered, and its checkpoint begun. -/
theorem shutdown_stops (r : MbReq) (sub : Nat) {s : State} (live : serving s = true) (can : CanCheckpoint s) (selfTest thenReset : Bool) :
    let t := shutdown selfTest thenReset (mbTake r 0x50 sub s).1 (mbTake r 0x50 sub s).2
    t.dev.code = .stopping ∧ t.stg.commits = [] ∧
      (∃ k, t.dev.stop = some k ∧ k.orderly = true ∧ k.selfTest = selfTest ∧ k.thenReset = thenReset ∧ k.answers.map Open.fn = [r.fn]) ∧
      ∃ c, t.chk.now = some c ∧ c.number = s.chk.nextNumber ∧ c.stop = true ∧ c.cut = false := by
  intro t
  have begins : t = stopBegun { answers := [(mbTake r 0x50 sub s).1], selfTest := selfTest, thenReset := thenReset, orderly := true } .device
      (mbTake r 0x50 sub s).2 := shutdown_begins (s := (mbTake r 0x50 sub s).2) live can selfTest thenReset _
  rw [begins]
  obtain ⟨code, commits, stop, _, slot, now⟩ := stopBegun_begun
    { answers := [(mbTake r 0x50 sub s).1], selfTest := selfTest, thenReset := thenReset, orderly := true } .device (mbTake r 0x50 sub s).2
  exact ⟨code, commits, ⟨_, stop, rfl, rfl, rfl, rfl⟩, _, now, rfl, rfl, rfl⟩

/-- A request held until step 10 where the device state holds it (R531). -/
theorem mbRun_holds {r : MbReq} {op : Nat} {s : State} (late : mbEarly s = false) (idle : (fnOf s r.fn).mb.busy = false) (minor : r.minor ≤ 2)
    (listed : listedOp op = true) (phys : isPhys r.fn = true) (held : mbGate s op = .hold) {lens : Nat → Bool} (fits : lens r.length = true) (sub : Nat)
    (hold body : Open → State → State) : mbRun r op sub lens hold body s = hold (mbTake r op sub s).1 (mbTake r op sub s).2 := by
  unfold mbRun
  rw [if_neg (by simp [late, idle])]
  dsimp only
  rw [if_neg (by simp [listed, phys]; omega), held]
  exact if_pos fits

theorem mbGate_hold {s : State} (starts : s.dev.code = .starting ∨ s.dev.code = .selfTest) : mbGate s 0x50 = .hold := by
  unfold mbGate
  rcases starts with h | h <;> rw [h] <;> rfl

/-- A SHUTDOWN joins a stop in progress (R453, R541). -/
def joinShutdown (selfTest thenReset : Bool) (q : Open) (k : Stop) : Stop :=
  { k with answers := k.answers ++ [q], selfTest := k.selfTest || selfTest, thenReset := k.thenReset || thenReset, orderly := true }

theorem shutdown_joins {s : State} {k : Stop} (stopping : s.dev.code = .stopping) (stop : s.dev.stop = some k) (selfTest thenReset : Bool) (q : Open) :
    shutdown selfTest thenReset q s = { s with dev := { s.dev with stop := some (joinShutdown selfTest thenReset q k) } } := by
  unfold shutdown
  rw [stopping]
  dsimp only
  rw [stop]
  rfl

theorem shutdown_stopped {s : State} (stopped : s.dev.code = .stopped) (selfTest : Bool) (q : Open) :
    shutdown selfTest false q s = answerMb q .done (leBytes 8 (lastStopNumber s) ++ leBytes 1 0) s := by
  unfold shutdown
  rw [stopped]
  rfl

/-- A hub roll that R517 refuses. -/
theorem hubRoll_refuses {s : State} (h : rollSlot s = none ∨ s.part ≠ .tsn8840 ∨ serving s = false ∨ hasFollower s = false ∨ s.dev.roll ≠ none) (q : Open) :
    hubRoll q s = answerMb q .malformed (leBytes 8 3) s := by
  unfold hubRoll
  cases slot : rollSlot s with
  | none => rfl
  | some n =>
    refine if_neg fun ⟨part, live, follows, idle⟩ => ?_
    rcases h with h | h | h | h | h
    · rw [slot] at h
      cases h
    · exact h part
    · rw [h] at live
      cases live
    · rw [h] at follows
      cases follows
    · exact h idle

/-- The state in which a hub roll has begun: the following hub's cores restart from the slot (R517). -/
def rollBegun (q : Open) (n : Nat) (s : State) : State :=
  onHub (otherHub s.dev.leading) (fun h => { h with restarting := true, image := n })
    { s with dev := { s.dev with roll := some { step := 1, req := q, hub := otherHub s.dev.leading } } }

theorem hubRoll_begins {s : State} {n : Nat} (part : s.part = .tsn8840) (live : serving s = true) (follows : hasFollower s = true)
    (idle : s.dev.roll = none) (slot : rollSlot s = some n) (q : Open) : hubRoll q s = rollBegun q n s := by
  unfold hubRoll
  rw [slot]
  exact if_pos ⟨part, live, follows, idle⟩

theorem hubOf_rollBegun (q : Open) (n : Nat) {s : State} (fitted : otherHub s.dev.leading < s.dev.hubs.length) :
    (hubOf (rollBegun q n s) (otherHub s.dev.leading)).restarting = true ∧ (hubOf (rollBegun q n s) (otherHub s.dev.leading)).image = n := by
  have found := onHub_finds (s := { s with dev := { s.dev with roll := some { step := 1, req := q, hub := otherHub s.dev.leading } } })
    (List.getElem?_eq_getElem fitted) (fun h => { h with restarting := true, image := n })
  rw [rollBegun, hubOf_eq found]
  exact ⟨rfl, rfl⟩

/-- Settles O24: the mailbox hands each request to `shutdown`, `hubRoll` or a notice, and the device state says what that does. -/
theorem shutdownRequestsAct : Obligations.ShutdownRequestsAct := by
  unfold Obligations.ShutdownRequestsAct
  refine ⟨fun r s ready len live free protected_ => ?begins, fun r s k c selfTest thenReset ready len stopping stop action => ?joins,
    fun r s c ready len stopped action => ?answered, fun r s c late idle minor phys len starts action => ?held,
    fun r s ready len live free protected_ => ?preempts, fun r s ready len => congrArg _ (mbRun_ready r 0x50 3 _ _ _ s ready (by simp [len])),
    fun r s ready len refused => ?refuses, fun r n s ready len part live follows idle slot => ?rolls⟩
  case begins =>
    obtain ⟨tested, orderly, reset⟩ := exec_shutdown ready len
    have can := And.intro free protected_
    exact ⟨⟨_, tested, shutdown_stops r 0 live can true false⟩, ⟨_, orderly, shutdown_stops r 1 live can false false⟩,
      ⟨_, reset, shutdown_stops r 4 live can false true⟩⟩
  case joins =>
    obtain ⟨tested, orderly, reset⟩ := exec_shutdown ready len
    have joined : ∃ sub, exec c s = .next (shutdown selfTest thenReset (mbTake r 0x50 sub s).1 (mbTake r 0x50 sub s).2) := by
      rcases action with ⟨rfl, rfl, rfl⟩ | ⟨rfl, rfl, rfl⟩ | ⟨rfl, rfl, rfl⟩
      · exact ⟨0, tested⟩
      · exact ⟨1, orderly⟩
      · exact ⟨4, reset⟩
    obtain ⟨sub, run⟩ := joined
    rw [shutdown_joins (s := (mbTake r 0x50 sub s).2) stopping stop] at run
    exact ⟨_, _, run, rfl, List.map_append, rfl, rfl, rfl, rfl⟩
  case answered =>
    obtain ⟨tested, orderly, _⟩ := exec_shutdown ready len
    have run : ∃ sub selfTest, exec c s = .next (shutdown selfTest false (mbTake r 0x50 sub s).1 (mbTake r 0x50 sub s).2) := by
      rcases action with rfl | rfl
      · exact ⟨0, true, tested⟩
      · exact ⟨1, false, orderly⟩
    obtain ⟨sub, selfTest, run⟩ := run
    rw [shutdown_stopped (s := (mbTake r 0x50 sub s).2) stopped] at run
    exact ⟨_, run, answer_after r 0x50 sub .done _ s _ rfl, (mbTake_signals r 0x50 sub s).trans (answerMb_signals _ _ _ _)⟩
  case held =>
    have holds := fun sub => mbRun_holds late idle minor (op := 0x50) rfl phys (mbGate_hold starts) (lens := (· == 16)) (by simp [len]) sub holdShut
    have run : ∃ sub, exec c s = .next (holdShut (mbTake r 0x50 sub s).1 (mbTake r 0x50 sub s).2) := by
      rcases action with rfl | rfl | rfl | rfl | rfl
      · exact ⟨0, congrArg _ (holds 0 _)⟩
      · exact ⟨1, congrArg _ (holds 1 _)⟩
      · exact ⟨4, congrArg _ (holds 4 _)⟩
      · exact ⟨3, congrArg _ (holds 3 _)⟩
      · exact ⟨2, congrArg _ (holds 2 _)⟩
    obtain ⟨sub, run⟩ := run
    have busy := congrArg Mailbox.busy (mbTake_mb r 0x50 sub s)
    exact ⟨_, _, run, rfl, rfl, busy, rfl⟩
  case preempts =>
    have taken := fun sub body => mbSimple_ready r 0x51 sub (· == 16) body s ready (by simp [len])
    constructor
    · obtain ⟨code, commits, _, _, slot, now⟩ := stopBegun_begun {} (.mailbox (mbTake r 0x51 1 s).1) (mbTake r 0x51 1 s).2
      have run : exec (.preemptStop r) s = .next (stopBegun {} (.mailbox (mbTake r 0x51 1 s).1) (mbTake r 0x51 1 s).2) :=
        congrArg Host.Outcome.next ((taken 1 _).trans (noticeStop_begins (s := (mbTake r 0x51 1 s).2) live ⟨free, protected_⟩ _))
      exact ⟨_, run, code, commits, _, now, rfl, rfl, rfl, rfl⟩
    · have run : exec (.preemptLive r) s = .next (beginCkpt (nextCkSlot (mbTake r 0x51 2 s).2) false [.mailbox (mbTake r 0x51 2 s).1] (mbTake r 0x51 2 s).2) :=
        congrArg Host.Outcome.next ((taken 2 _).trans (noticeLive_begins (s := (mbTake r 0x51 2 s).2) live ⟨free, protected_⟩ _))
      exact ⟨_, run, rfl, rfl, _, rfl, rfl, rfl, rfl⟩
  case refuses =>
    have run : exec (.hubRoll r) s = _ := congrArg Host.Outcome.next ((mbRun_ready r 0x50 2 (· == 16) holdShut hubRoll s ready (by simp [len])).trans (hubRoll_refuses (s := (mbTake r 0x50 2 s).2) refused _))
    exact ⟨_, run, answer_after r 0x50 2 .malformed _ s _ rfl, (mbTake_signals r 0x50 2 s).trans (answerMb_signals _ _ _ _)⟩
  case rolls =>
    have run : exec (.hubRoll r) s = _ := congrArg Host.Outcome.next ((mbRun_ready r 0x50 2 (· == 16) holdShut hubRoll s ready (by simp [len])).trans
      (hubRoll_begins (s := (mbTake r 0x50 2 s).2) part live follows idle slot _))
    exact ⟨_, _, run, rfl, rfl, rfl, rfl, hubOf_rollBegun (s := (mbTake r 0x50 2 s).2) _ n, rfl, rfl, rfl⟩

end Sys2Proof.Machine
end

section
/-! What the work on a session leaves alone: the device, the staged sets, the functions' reset state and the tenants
(R52 to R65, R143, R254 to R258, R545). -/

namespace Sys2Proof.Machine

/-- `t` differs from `s` in its functions, sessions, scheduler, tiers, store, recall engines, rack, checkpoints and the free values drawn alone. -/
def WorkFrame (s t : State) : Prop :=
  t = { s with fns := t.fns, sess := t.sess, sched := t.sched, tiers := t.tiers, store := t.store, rcl := t.rcl, rack := t.rack, chk := t.chk, free := t.free }

theorem WorkFrame.refl (s : State) : WorkFrame s s := rfl

theorem WorkFrame.trans {s t u : State} (a : WorkFrame s t) (b : WorkFrame t u) : WorkFrame s u := by
  unfold WorkFrame at *
  rw [b, a]

theorem PlaceFrame.work {s t : State} (a : PlaceFrame s t) : WorkFrame s t := by
  unfold WorkFrame
  rw [a]

theorem TiersOnly.work {s t : State} (a : TiersOnly s t) : WorkFrame s t := a.frame.work

theorem StoreOnly.work {s t : State} (a : StoreOnly s t) : WorkFrame s t := by
  unfold WorkFrame
  rw [a]

theorem FnsOnly.work {s t : State} (a : FnsOnly s t) : WorkFrame s t := by
  unfold WorkFrame
  rw [a]

theorem forEach_work {α : Type} {f : α → State → State} (h : ∀ x t, WorkFrame t (f x t)) (l : List α) (s : State) : WorkFrame s (forEach l f s) :=
  forEach_rel WorkFrame.refl WorkFrame.trans h l s

theorem onSess_work (h : Nat) (f : Session → Session) (s : State) : WorkFrame s (onSess h f s) := rfl

theorem arm_work (h : Nat) (s : State) : WorkFrame s (arm h s) := onSess_work h _ s

theorem settle_work (r : WinRef) (seq : Nat) (o : OCode) (s : State) : WorkFrame s (settle r seq o s) := by
  unfold settle onWindow
  split <;> rfl

theorem answerAsk_work (b : Bool) (h : Nat) (a : Ask) (o : OCode) (d0 : Nat) (s : State) : WorkFrame s (answerAsk b h a o d0 s) := by
  unfold answerAsk
  split
  · exact WorkFrame.refl s
  · exact (settle_work _ _ _ s).trans (emitOut_fnsOnly _ _ _ _).work

theorem dropQueries_work (h : Nat) (s : State) : WorkFrame s (dropQueries h s) := rfl

theorem tellDirectory_work (h holder state : Nat) (s : State) : WorkFrame s (tellDirectory h holder state s) := by
  unfold tellDirectory
  split
  · dsimp only
    split
    · rfl
    · split <;> rfl
  · rfl

theorem discardWork_work (w : Work) (s : State) : WorkFrame s (discardWork w s) := by
  unfold discardWork
  refine WorkFrame.trans ?_ (seat_lays w.handle _).frame.work
  rfl

theorem maskSlot_work (h : Nat) (s : State) : WorkFrame s (maskSlot h s) :=
  (forEach_work discardWork_work _ s).trans rfl

theorem deleteSessObjs_work (x : Session) (s : State) : WorkFrame s (deleteSessObjs x s) := (deleteObjs_storeOnly _ _ s).work

theorem answerGone_work (x : Session) (c : Instr) (s : State) : WorkFrame s (answerGone x c s) := by
  unfold answerGone
  split
  · exact WorkFrame.refl s
  · exact (emitOut_fnsOnly _ _ _ _).work

/-- A session's content released from the tiers and the store. -/
theorem contentReleased_work (x : Session) (s : State) : WorkFrame s (deleteSessObjs x (releasePlaces (placesOf s x) s)) :=
  (releasePlaces_tiers _ s).work.trans (deleteSessObjs_work x _)

theorem freeSession_work (h : Nat) (s : State) : WorkFrame s (freeSession h s) := by
  unfold freeSession
  split
  · exact WorkFrame.refl s
  · next x _ =>
    refine WorkFrame.trans ?_ (forEach_work (fun c t => answerGone_work x c t) _ _)
    refine WorkFrame.trans ?_ (tellDirectory_work _ _ _ _)
    exact (contentReleased_work x s).trans ((anchor_frame 4 h _).2.work.trans rfl)

theorem freeSpent_work (h : Nat) (s : State) : WorkFrame s (freeSpent h s) := by
  unfold freeSpent
  split
  · exact WorkFrame.refl s
  · split
    · exact freeSession_work h s
    · exact WorkFrame.refl s

theorem endRequest_work (b : Bool) (h : Nat) (o : OCode) (deliver : Bool) (d0 d1 : Nat) (s : State) :
    WorkFrame s (endRequest b h o none deliver d0 d1 s) := by
  cases hx : findSess s h with
  | none => simp only [endRequest, hx]; exact WorkFrame.refl s
  | some x =>
    cases hr : x.request with
    | none => simp only [endRequest, hx, hr]; exact WorkFrame.refl s
    | some r =>
      obtain ⟨record, steps⟩ := endRequest_steps hx hr b o deliver d0 d1
      have said : WorkFrame s (if deliver then flushHeld b x r s else s) := by
        split
        · exact (flushHeld_fnsOnly b x r s).work
        · exact WorkFrame.refl s
      rw [steps]
      have told := (said.trans (settle_work r.win r.seq o _)).trans (emitOut_fnsOnly b x record _).work
      exact told.trans ((dropQueries_work h _).trans ((onSess_work h unasked _).trans (arm_work h _)))

theorem releaseContent_work (st : SState) (h : Nat) (s : State) : WorkFrame s (releaseContent st h s) := by
  unfold releaseContent
  split
  · exact WorkFrame.refl s
  · next x _ => exact (contentReleased_work x s).trans rfl

theorem closeSession_work (h : Nat) (s : State) : WorkFrame s (closeSession h s) :=
  (releaseContent_work .closed h s).trans ((anchor_frame 4 h _).2.work.trans (tellDirectory_work _ _ _ _))

theorem abandonOp_work (b : Bool) (h : Nat) (s : State) : WorkFrame s (abandonOp b h s) := by
  unfold abandonOp
  split
  · exact WorkFrame.refl s
  · split
    · next quant obj ask _ =>
      extract_lets y s1
      have done : WorkFrame s s1 := (deleteObjs_storeOnly _ _ s).work.trans (onSess_work h _ _)
      split
      · exact done.trans (answerAsk_work _ _ _ _ _ _)
      · exact done
    · exact ((endStream_tiers _ s).work.trans (endStream_tiers _ _).work).trans (onSess_work h _ _)
    · exact WorkFrame.refl s

/-! ### Beside the device and the staged sets -/

/-- `t` has the device and the staged sets of `s`. -/
structure Beside (s t : State) : Prop where
  dev : t.dev = s.dev
  stg : t.stg = s.stg

theorem Beside.refl (s : State) : Beside s s := ⟨rfl, rfl⟩

theorem Beside.trans {s t u : State} (a : Beside s t) (b : Beside t u) : Beside s u := ⟨b.dev.trans a.dev, b.stg.trans a.stg⟩

theorem WorkFrame.beside {s t : State} (a : WorkFrame s t) : Beside s t := ⟨(congrArg State.dev a :), (congrArg State.stg a :)⟩

theorem QuietFrame.beside {s t : State} (a : QuietFrame s t) : Beside s t := ⟨(congrArg State.dev a :), (congrArg State.stg a :)⟩

theorem startDemotion_beside (h : Nat) (s : State) : Beside s (startDemotion false h s) := by
  unfold startDemotion
  split
  · exact Beside.refl s
  · split
    · exact ((closeInput_turns h s).2.beside.trans (onSess_work h _ _).beside).trans (streamFrozen_tiers h _).work.beside
    · exact Beside.refl s

theorem startPark_beside (quantise : Bool) (h : Nat) (s : State) : Beside s (startPark false quantise none h s) := by
  have closed := (closeInput_turns h s).2.beside
  refine closed.trans ?_
  unfold startPark
  dsimp only
  split
  · exact Beside.refl _
  · split
    · unfold parkFallback
      split
      · exact Beside.refl _
      · exact ⟨rfl, rfl⟩
    · exact (reserveObject_storeOnly _ _ _ _ _).work.beside.trans (onSess_work h _ _).beside

/-- A session that an orphan's stop or expiry parks leaves the device and the staged sets (R545, R546). -/
theorem orphanPark_beside (h : Nat) (s : State) : Beside s (orphanPark h s) := by
  unfold orphanPark
  split
  · exact Beside.refl s
  · split
    · exact Beside.refl s
    · extract_lets s1
      have ended : Beside s s1 := (((maskSlot_work h s).trans (endRequest_work _ _ _ _ _ _ _)).trans (freeSpent_work h _)).beside
      split
      · exact ended
      · extract_lets quant pages
        split
        · exact ended.trans (startDemotion_beside h s1)
        · exact (ended.trans (onSess_work h _ s1).beside).trans (startPark_beside _ h _)

end Sys2Proof.Machine
end

section
/-! Checkpoints cut, committed and given up, and orphaned sessions parked (R430, R431, R439, R442, R444 to R446, R545, R546). -/

namespace Sys2Proof.Machine

/-! ### The answers of a checkpoint -/

/-- `t` differs from `s` in its functions, its signals and its rack alone. -/
def ToldFrame (s t : State) : Prop := t = { s with fns := t.fns, outs := t.outs, rack := t.rack }

theorem ToldFrame.trans {s t u : State} (a : ToldFrame s t) (b : ToldFrame t u) : ToldFrame s u := by
  unfold ToldFrame at *
  rw [b, a]

theorem Signals.told {s t : State} (a : Signals s t) : ToldFrame s t := by
  unfold ToldFrame
  rw [a]

theorem answerAsker_told (o : OCode) (number slot length : Nat) (a : Asker) (s : State) : ToldFrame s (answerAsker o number slot length a s) := by
  unfold answerAsker
  split
  · exact (answerMb_signals _ _ _ _).told
  · rfl
  · rfl

theorem answerAskers_told (o : OCode) (number slot length : Nat) (l : List Asker) (s : State) :
    ToldFrame s (answerAskers o number slot length l s) :=
  forEach_rel (R := ToldFrame) (fun _ => rfl) ToldFrame.trans (fun a t => answerAsker_told o number slot length a t) l s

/-! ### The cut -/

/-- Parks that have ended change the stop alone. -/
theorem parksEnd_eq (s : State) : ∃ k, parksEnd s = { s with dev := { s.dev with stop := k } } ∧ ∀ st, s.dev.stop = some st → st.parks = false →
    k.any Stop.parks = false := by
  unfold parksEnd
  split
  · exact ⟨s.dev.stop, rfl, fun st stop parks => by simp [stop, parks]⟩
  · exact ⟨_, rfl, fun st stop _ => by simp [stop]⟩

/-- The slot of checkpoint `n`. -/
def slotOf (n : Nat) (s : State) : Option CkSlot := if n = 0 then s.chk.slot0 else s.chk.slot1

theorem spoilSlot_spoils (n : Nat) (s : State) : ∀ x, slotOf n (spoilSlot n s) = some x → x.valid = false := by
  intro x hx
  unfold slotOf spoilSlot at hx
  split at hx
  · obtain ⟨k, _, rfl⟩ := Option.map_eq_some_iff.mp hx
    rfl
  · obtain ⟨k, _, rfl⟩ := Option.map_eq_some_iff.mp hx
    rfl

theorem spoilSlot_frame (n : Nat) (s : State) :
    spoilSlot n s = { s with chk := { s.chk with slot0 := (spoilSlot n s).chk.slot0, slot1 := (spoilSlot n s).chk.slot1 } } := by
  unfold spoilSlot
  split <;> rfl

/-- A checkpoint as its cut notes it. -/
def cutOf (c : Ckpt) (s : State) : Ckpt :=
  { c with cut := true, cutPour := lastPourNumber s, modules := chillCount s, saved := sectionsNow (!c.stop) s }

theorem takeCut_eq (c : Ckpt) (s : State) :
    takeCut c s = { s with chk := { s.chk with
      slot0 := (spoilSlot c.slot s).chk.slot0, slot1 := (spoilSlot c.slot s).chk.slot1, now := some (cutOf c s) } } := by
  have frame := spoilSlot_frame c.slot s
  unfold takeCut
  dsimp only
  generalize spoilSlot c.slot s = t at frame
  rw [frame]
  have count : chillCount ({ s with chk := { s.chk with slot0 := t.chk.slot0, slot1 := t.chk.slot1 } } : State) = chillCount s := rfl
  rfl

theorem takeCut_spoils (c : Ckpt) (s : State) : ∀ x, slotOf c.slot (takeCut c s) = some x → x.valid = false := by
  rw [takeCut_eq]
  exact spoilSlot_spoils c.slot s

theorem exec_cut_live {s : State} {c : Ckpt} (now : s.chk.now = some c) (uncut : c.cut = false) (live : c.stop = false) (can : unprotected s = false)
    (serves : serving s = true) (idle : s.sched.pour = none) : exec .checkpointCut s = .next (takeCut c (parksEnd s)) := by
  obtain ⟨k, ended, _⟩ := parksEnd_eq s
  show execCheckpointCut s = _
  unfold execCheckpointCut
  dsimp only
  rw [ended]
  generalize hu : ({ s with dev := { s.dev with stop := k } } : State) = u
  have now' : u.chk.now = some c := by rw [← hu]; exact now
  have serves' : serving u = true := by rw [← hu]; exact serves
  have idle' : u.sched.pour = none := by rw [← hu]; exact idle
  have can' : unprotected u = false := by rw [← hu]; exact can
  simp [now', uncut, live, serves', idle', can']

theorem exec_cut_stop {s : State} {c : Ckpt} {st : Stop} {p : Pour} (now : s.chk.now = some c) (uncut : c.cut = false) (stops : c.stop = true)
    (can : unprotected s = false) (stop : s.dev.stop = some st) (parked : st.parks = false) (pour : s.sched.pour = some p) (early : p.step ≤ 4) :
    exec .checkpointCut s = .next (takeCut c (suspend (parksEnd s))) := by
  obtain ⟨k, ended, none_left⟩ := parksEnd_eq s
  have parks := none_left st stop parked
  show execCheckpointCut s = _
  unfold execCheckpointCut
  dsimp only
  rw [ended]
  generalize hu : ({ s with dev := { s.dev with stop := k } } : State) = u
  have now' : u.chk.now = some c := by rw [← hu]; exact now
  have pour' : u.sched.pour = some p := by rw [← hu]; exact pour
  have can' : unprotected u = false := by rw [← hu]; exact can
  have parks' : u.dev.stop.any Stop.parks = false := by rw [← hu]; exact parks
  simp [now', uncut, stops, pour', can', parks', early]

/-! ### The commit -/

/-- The record that a checkpoint leaves in its slot. -/
def recordOf (c : Ckpt) (s : State) : CkSlot :=
  { number := c.number, kind := if c.stop then 1 else 2, length := savedBytes c.saved, bodies := layBodies c.modules c.saved.hdrs, modules := c.modules,
    valid := true, cut := c.cutPour, part := s.part, scDies := scCount s.part, clusters := clusterMask s, package := s.rack.num
    serial := Config.factorySerial, saved := c.saved }

theorem writeRecord_eq (c : Ckpt) (s : State) :
    writeRecord c s = { s with chk := { s.chk with
      slot0 := if c.slot = 0 then some (recordOf c s) else s.chk.slot0, slot1 := if c.slot = 0 then s.chk.slot1 else some (recordOf c s), now := none } } := by
  unfold writeRecord
  dsimp only
  split <;> rfl

theorem exportCkpt_frame (slot : Nat) (s : State) : exportCkpt slot s = { s with chk := { s.chk with exports := (exportCkpt slot s).chk.exports } } := by
  unfold exportCkpt
  split
  · rfl
  · dsimp only
    split
    · split <;> rfl
    · rfl

/-- The state in which a checkpoint is committed and answered, its health event given (R442). -/
def commitSaid (c : Ckpt) (s : State) : State :=
  let s1 := exportCkpt c.slot (releaseOld (writeRecord c s))
  healthSignal (leadDie s) c.number (answerAskers .done c.number c.slot (savedBytes c.saved) c.askers s1)

/-- What of the state a committed checkpoint's record and answers leave. -/
structure CommitLeaves (c : Ckpt) (s t : State) : Prop where
  now : t.chk.now = none
  slot : slotOf c.slot t = some (recordOf c s)
  other : if c.slot = 0 then t.chk.slot1 = s.chk.slot1 else t.chk.slot0 = s.chk.slot0
  dev : t.dev = { s.dev with log := t.dev.log, logNext := s.dev.logNext + 1, logOldest := t.dev.logOldest, events := s.dev.events + 1 }
  sess : t.sess = s.sess
  sched : t.sched = s.sched

theorem commitSaid_committed (c : Ckpt) (s : State) : CommitLeaves c s (commitSaid c s) := by
  have exported := exportCkpt_frame c.slot (releaseOld (writeRecord c s))
  unfold commitSaid
  dsimp only
  generalize exportCkpt c.slot (releaseOld (writeRecord c s)) = u at exported ⊢
  have told := answerAskers_told .done c.number c.slot (savedBytes c.saved) c.askers u
  generalize answerAskers .done c.number c.slot (savedBytes c.saved) c.askers u = v at told ⊢
  have event := healthSignal_frame (leadDie s) c.number v
  generalize healthSignal (leadDie s) c.number v = t at event ⊢
  have released : releaseOld (writeRecord c s) =
      { writeRecord c s with tiers := (releaseOld (writeRecord c s)).tiers, store := (releaseOld (writeRecord c s)).store } := rfl
  have chk : t.chk = { (writeRecord c s).chk with exports := u.chk.exports } :=
    ((congrArg State.chk event).trans (congrArg State.chk told :)).trans (congrArg State.chk exported :)
  have written := writeRecord_eq c s
  have before : (releaseOld (writeRecord c s)).dev = s.dev ∧ (releaseOld (writeRecord c s)).sess = s.sess ∧
      (releaseOld (writeRecord c s)).sched = s.sched := by
    rw [released, written]
    exact ⟨rfl, rfl, rfl⟩
  obtain ⟨dev, sess, sched⟩ := before
  have dev' : v.dev = s.dev := ((congrArg State.dev told :) : v.dev = u.dev).trans ((congrArg State.dev exported :) |>.trans dev)
  have sess' : v.sess = s.sess := ((congrArg State.sess told :) : v.sess = u.sess).trans ((congrArg State.sess exported :) |>.trans sess)
  have sched' : v.sched = s.sched := ((congrArg State.sched told :) : v.sched = u.sched).trans ((congrArg State.sched exported :) |>.trans sched)
  have chk' := chk.trans (by rw [written])
  refine ⟨congrArg Chk.now chk', ?_, ?_, ?_, (congrArg State.sess event :).trans sess', (congrArg State.sched event :).trans sched'⟩
  · unfold slotOf
    rw [chk']
    split <;> rfl
  · rw [chk']
    split <;> rfl
  · rw [← dev']
    exact (congrArg State.dev event :)

/-- The device with a stop checkpoint noted as its last. -/
def noteStop (c : Ckpt) (s : State) : State := { s with dev := { s.dev with lastStop := some (c.number, c.slot, savedBytes c.saved) } }

theorem commitCkpt_live {c : Ckpt} (live : c.stop = false) (s : State) : commitCkpt c s = commitSaid c s := if_neg (by simp [live])

theorem commitCkpt_stop {c : Ckpt} (stops : c.stop = true) (s : State) : commitCkpt c s = stopOutcome true c.number (noteStop c (commitSaid c s)) :=
  if_pos stops

/-! ### The end of a stop -/

/-- A stop with its checkpoint ended, well or not, under the number. -/
def ckptEnded (ok : Bool) (number : Nat) (k : Stop) : Stop := { k with ckptDone := true, ckptOk := ok, number := number }

/-- The state with its stop's checkpoint ended. -/
def stopNoted (ok : Bool) (number : Nat) (s : State) : State := { s with dev := { s.dev with stop := s.dev.stop.map (ckptEnded ok number) } }

/-- A stop whose parks still run goes on after them. -/
theorem stopOutcome_parks {s : State} {k : Stop} (stop : s.dev.stop = some k) (parks : k.parks = true) (ok : Bool) (number : Nat) :
    stopOutcome ok number s = stopNoted ok number s := by
  have noted : (stopNoted ok number s).dev.stop = some (ckptEnded ok number k) := by simp [stopNoted, stop]
  show proceedStop (stopNoted ok number s) = stopNoted ok number s
  unfold proceedStop
  rw [noted]
  exact if_neg (by simp [ckptEnded, parks])

/-- A stop with no parks that is no orderly shutdown closes (Table 19-8). -/
theorem stopOutcome_closes {s : State} {k : Stop} (stop : s.dev.stop = some k) (parks : k.parks = false) (plain : k.orderly = false) (ok : Bool)
    (number : Nat) : stopOutcome ok number s = closeStop 0 [] (ckptEnded ok number k) (stopNoted ok number s) := by
  have noted : (stopNoted ok number s).dev.stop = some (ckptEnded ok number k) := by simp [stopNoted, stop]
  show proceedStop (stopNoted ok number s) = _
  unfold proceedStop
  rw [noted]
  have ended : ((ckptEnded ok number k).ckptDone && !(ckptEnded ok number k).parks) = true := by simp [ckptEnded, parks]
  have still : (ckptEnded ok number k).orderly = false := plain
  dsimp only
  rw [if_pos ended, still]
  rfl

/-- A stop closed that neither is an orderly shutdown nor asks for a reset leaves the package STOPPED, with its checkpoints as they are. -/
theorem closeStop_stopped {k : Stop} (plain : k.orderly = false) (stays : k.thenReset = false) (result : Nat) (findings : List Finding) (s : State) :
    (closeStop result findings k s).dev = { s.dev with code := .stopped, stop := none } ∧ (closeStop result findings k s).chk = s.chk := by
  have told := forEach_signals k.answers (fun q u => answerMb q .done (leBytes 8 k.number ++ leBytes 1 result) u) s
    fun q u => answerMb_signals q .done _ u
  unfold closeStop
  dsimp only
  rw [plain, stays]
  rw [if_neg Bool.false_ne_true, if_neg Bool.false_ne_true]
  generalize forEach k.answers (fun q u => answerMb q .done (leBytes 8 k.number ++ leBytes 1 result) u) s = t at told ⊢
  have entered := enterState_entered .stopped { t with dev := { t.dev with stop := none } }
  have dev : t.dev = s.dev := (congrArg State.dev told :)
  exact ⟨entered.dev.trans (by rw [dev]), (congrArg State.chk entered).trans (congrArg State.chk told :)⟩

/-! ### The failure -/

/-- A live checkpoint given up: its askers answered, the slots left as they are (R444). -/
theorem failCkpt_live {s : State} {c : Ckpt} (now : s.chk.now = some c) (live : c.stop = false) :
    failCkpt s = answerAskers .checkFailed c.number c.slot 0 c.askers { s with chk := { s.chk with now := none } } := by
  unfold failCkpt
  rw [now]
  exact if_neg (by simp [live])

/-- What a live checkpoint that fails, with its health event, leaves. -/
structure GivenUp (s t : State) : Prop where
  chk : t.chk = { s.chk with now := none }
  dev : t.dev = { s.dev with log := t.dev.log, logNext := s.dev.logNext + 1, logOldest := t.dev.logOldest, events := s.dev.events + 1 }
  sess : t.sess = s.sess
  sched : t.sched = s.sched

theorem failCkpt_givenUp {s : State} {c : Ckpt} (now : s.chk.now = some c) (live : c.stop = false) (die : Nat) :
    GivenUp s (healthSignal die c.number (failCkpt s)) := by
  rw [failCkpt_live now live]
  have told := answerAskers_told .checkFailed c.number c.slot 0 c.askers { s with chk := { s.chk with now := none } }
  generalize answerAskers .checkFailed c.number c.slot 0 c.askers { s with chk := { s.chk with now := none } } = u at told ⊢
  have event := healthSignal_frame die c.number u
  generalize healthSignal die c.number u = t at event ⊢
  have dev : u.dev = s.dev := (congrArg State.dev told :)
  exact ⟨(congrArg State.chk event).trans (congrArg State.chk told :),
    (congrArg State.dev event).trans (by rw [dev]),
    (congrArg State.sess event).trans (congrArg State.sess told :), (congrArg State.sched event).trans (congrArg State.sched told :)⟩

theorem exec_commit_given_up {s : State} {c : Ckpt} (now : s.chk.now = some c) (cut : c.cut = true) (missing : chillCount s ≠ c.modules) :
    exec .checkpointCommit s = .next (healthSignal (leadDie s) c.number (failCkpt s)) := by
  show execCheckpointCommit s = _
  unfold execCheckpointCommit
  rw [now]
  dsimp only
  rw [if_neg (by simp [cut]), if_neg missing]

theorem exec_commit {s : State} {c : Ckpt} (now : s.chk.now = some c) (cut : c.cut = true) (present : chillCount s = c.modules) :
    exec .checkpointCommit s = .next (commitCkpt c s) := by
  show execCheckpointCommit s = _
  unfold execCheckpointCommit
  rw [now]
  dsimp only
  rw [if_neg (by simp [cut]), if_pos present]

/-! ### Modules missing -/

/-- The first `n` modules that are present kept present. -/
def keepFirst (n : Nat) (l : List Bool) : List Bool := l.mapIdx fun i b => b && decide ((l.take i).countP id < n)

/-- With `before` modules counted already, those kept are the ones up to `n`. -/
theorem countP_keepFrom (n before : Nat) (l : List Bool) :
    (l.mapIdx fun i b => b && decide (before + (l.take i).countP id < n)).countP id = min (n - before) (l.countP id) := by
  induction l generalizing before with
  | nil => simp
  | cons b l ih =>
    have rest : (l.mapIdx fun i c => c && decide (before + ((b :: l).take (i + 1)).countP id < n)) =
        l.mapIdx fun i c => c && decide (before + b.toNat + (l.take i).countP id < n) := by
      refine congrArg (fun f => l.mapIdx f) (funext fun i => funext fun c => ?_)
      refine congrArg (c && ·) (decide_eq_decide.mpr ?_)
      rw [List.take_succ_cons, List.countP_cons]
      cases b
      · simp
      · simp [Nat.add_assoc, Nat.add_comm 1]
    rw [List.mapIdx_cons, rest, List.countP_cons, ih, List.countP_cons]
    cases b
    · simp
    · by_cases more : before < n
      · simp [more]
        omega
      · simp [more]
        omega

theorem countP_keepFirst (n : Nat) (l : List Bool) : (keepFirst n l).countP id = min n (l.countP id) := by
  have counted := countP_keepFrom n 0 l
  simpa [keepFirst] using counted

/-- The state with so many of its modules left. -/
def modulesLeft (left : Nat) (s : State) : State :=
  if left < chillCount s then { s with dev := { s.dev with chill := keepFirst left s.dev.chill } } else s

theorem modulesLeft_eq (left : Nat) (s : State) : ∃ l, modulesLeft left s = { s with dev := { s.dev with chill := l } } ∧
    l.countP id = min left (chillCount s) := by
  unfold modulesLeft chillCount
  split
  · exact ⟨_, rfl, countP_keepFirst left _⟩
  · next enough => exact ⟨s.dev.chill, rfl, (Nat.min_eq_right (by omega)).symm⟩

theorem exec_failed {s : State} {c : Ckpt} (now : s.chk.now = some c) (left : Nat) :
    exec (.checkpointFailed left) s =
      .next (holdBound 0 (healthSignal (leadDie (modulesLeft left s)) c.number (failCkpt (modulesLeft left s)))) := by
  show execCheckpointFailed left s = _
  unfold execCheckpointFailed
  rw [now]
  rfl

/-! ### Orphaned sessions -/

/-- The stop that an expired orphan allowance begins (R546). -/
def orphanEnd : Stop := { orderly := true, parks := true }

/-- A stop checkpoint of a stop whose parks run leaves the device state and the sets, and of the stop whether it is orderly and parks. -/
theorem stopCkpt_parks {s : State} {k : Stop} (stop : s.dev.stop = some k) (parks : k.parks = true) (a : Asker) :
    (stopCkpt a s).dev.code = s.dev.code ∧ (stopCkpt a s).stg = s.stg ∧
      ∃ j, (stopCkpt a s).dev.stop = some j ∧ j.orderly = k.orderly ∧ j.parks = true := by
  unfold stopCkpt
  split
  · exact ⟨rfl, rfl, k, stop, rfl, parks⟩
  · split
    · have told := answerAsker_told .checkFailed 0 0 0 a s
      have dev : (answerAsker .checkFailed 0 0 0 a s).dev = s.dev := (congrArg State.dev told :)
      rw [stopOutcome_parks (by rw [dev]; exact stop) parks]
      refine ⟨(congrArg Dev.code dev :), (congrArg State.stg told :), ckptEnded false 0 k, ?_, rfl, parks⟩
      simp [stopNoted, dev, stop]
    · exact ⟨rfl, rfl, k, stop, rfl, parks⟩

/-- An orphan's stop: the package is STOPPING with no commit left, and its parks are under way. -/
theorem orphanStop_parks (s : State) : (orphanStop s).dev.code = .stopping ∧ (orphanStop s).stg.commits = [] ∧
    ∃ j, (orphanStop s).dev.stop = some j ∧ j.orderly = true ∧ j.parks = true := by
  have entered := enterStopping_stopped orphanEnd s
  unfold orphanStop
  dsimp only
  have parked := forEach_rel Beside.refl Beside.trans orphanPark_beside
    (((enterStopping orphanEnd s).sess.filter resident).map Session.handle) (enterStopping orphanEnd s)
  have stop : (forEach (((enterStopping orphanEnd s).sess.filter resident).map Session.handle) orphanPark (enterStopping orphanEnd s)).dev.stop =
      some orphanEnd := by rw [parked.dev, entered.dev]
  obtain ⟨code, stg, j, stops, orderly, parks⟩ := stopCkpt_parks stop rfl .device
  refine ⟨code.trans ?_, ?_, j, stops, orderly, parks⟩
  · rw [parked.dev, entered.dev]
  · exact (congrArg (fun g => g.commits) (stg.trans parked.stg)).trans entered.commits

/-- A session with an operation under way, or with nothing in T1 or T2 to park, is left (R545). -/
theorem orphanPark_leaves {h : Nat} {s : State} {x : Session} (found : findSess s h = some x)
    (rests : x.op.isSome = true ∨ (resident x = false ∧ x.state ≠ .warm)) : orphanPark h s = s := by
  unfold orphanPark
  rw [found]
  refine if_pos (rests.imp_right fun ⟨out, cold⟩ => ?_)
  simp [out, cold]

/-- Settles O57: the cut spoils its slot, the commit writes it, a failure leaves it; an orphan's stop keeps its parks. -/
theorem checkpointsAreCutAndCommitted : Obligations.CheckpointsAreCutAndCommitted := by
  unfold Obligations.CheckpointsAreCutAndCommitted
  refine ⟨fun s c now uncut can => ⟨fun live serves idle => ?cutLive, fun st p stops stop parked pour early => ?cutStop⟩,
    fun s c now cut => ⟨fun present => ⟨fun live => ?commitLive, fun st stops stop plain parked stays => ?commitStop⟩, fun missing live => ?givenUp⟩,
    fun left s => ⟨fun idle => ?noCkpt, fun c now live => ?failed⟩, fun s => ⟨fun other => ?notOrphan, fun orphan => ?orphanEnds⟩,
    fun link s => ⟨fun up => ?linkUp, fun down serves => ?linkDown, fun h x found rests => orphanPark_leaves found rests⟩⟩
  case cutLive =>
    obtain ⟨k, ended, _⟩ := parksEnd_eq s
    refine ⟨_, cutOf c (parksEnd s), exec_cut_live now uncut live can serves idle, ?_, rfl, rfl, rfl, rfl, ?_, ?_, takeCut_spoils c _, ?_⟩
    · rw [takeCut_eq]
    · rw [ended]
      rfl
    · rw [ended]
      rfl
    · rw [takeCut_eq, ended]
  case cutStop =>
    obtain ⟨k, ended, _⟩ := parksEnd_eq s
    have pour' : (parksEnd s).sched.pour = some p := by rw [ended]; exact pour
    have sched := suspend_pour pour'
    have frame := suspend_frame (parksEnd s)
    have suspended : (suspend (parksEnd s)).sched.suspended = { p with preempt := none } :: s.sched.suspended := by
      rw [sched, ended]
    refine ⟨_, cutOf c (suspend (parksEnd s)), exec_cut_stop now uncut stops can stop parked pour early, ?_, rfl, rfl, ?_, ?_, ?_, ?_,
      takeCut_spoils c _⟩
    · rw [takeCut_eq]
    · rw [takeCut_eq, sched]
    · rw [takeCut_eq]
      exact suspended
    · rw [takeCut_eq]
      simp [cutOf, sectionsNow, contentsNow, stops]
    · rw [takeCut_eq]
      exact frame.tenants.1.trans (by rw [ended])
  case commitLive =>
    have run := (exec_commit now cut present).trans (congrArg _ (commitCkpt_live live s))
    obtain ⟨none_now, slot, other, dev, sess, sched⟩ := commitSaid_committed c s
    exact ⟨_, recordOf c s, run, none_now, slot, rfl, rfl, by simp [recordOf, live], rfl, rfl, other, (congrArg Dev.events dev :), sess, sched,
      (congrArg Dev.code dev :)⟩
  case commitStop =>
    obtain ⟨none_now, slot, _, dev, _, _⟩ := commitSaid_committed c s
    have still : (noteStop c (commitSaid c s)).dev.stop = some st := (congrArg Dev.stop dev :).trans stop
    have run := (exec_commit now cut present).trans (congrArg _ ((commitCkpt_stop stops s).trans (stopOutcome_closes still parked plain true c.number)))
    obtain ⟨closed, chk⟩ := closeStop_stopped (k := ckptEnded true c.number st) plain stays 0 [] (stopNoted true c.number (noteStop c (commitSaid c s)))
    refine ⟨_, recordOf c s, run, congrArg Dev.code closed, congrArg Dev.stop closed, by rw [chk]; exact none_now, by rw [chk]; exact slot, rfl, rfl,
      by simp [recordOf, stops], ?_⟩
    rw [closed]
    rfl
  case givenUp =>
    obtain ⟨chk, dev, sess, sched⟩ := failCkpt_givenUp now live (leadDie s)
    exact ⟨_, exec_commit_given_up now cut missing, (congrArg Chk.now chk :), (congrArg Chk.slot0 chk :), (congrArg Chk.slot1 chk :), (congrArg Dev.events dev :),
      sess, sched⟩
  case noCkpt =>
    show execCheckpointFailed left s = _
    unfold execCheckpointFailed
    rw [idle]
  case failed =>
    obtain ⟨l, fewer, count⟩ := modulesLeft_eq left s
    have now' : (modulesLeft left s).chk.now = some c := by rw [fewer]; exact now
    obtain ⟨chk, dev, sess, sched⟩ := failCkpt_givenUp now' live (leadDie (modulesLeft left s))
    refine ⟨_, exec_failed now left, congrArg Chk.now chk, ?_, ?_, ?_, ?_, ?_, ?_⟩
    · rw [congrArg Chk.slot0 chk, fewer]
    · rw [congrArg Chk.slot1 chk, fewer]
    · unfold chillCount at count ⊢
      rw [(congrArg Dev.chill dev :), fewer]
      exact count
    · rw [(congrArg Dev.events dev :), fewer]
    · rw [sess, fewer]
    · rw [sched, fewer]
  case notOrphan => exact if_neg other
  case orphanEnds =>
    obtain ⟨code, commits, j, stop, orderly, parks⟩ := orphanStop_parks s
    exact ⟨_, j, if_pos orphan, code, commits, stop, orderly, parks⟩
  case linkUp => exact if_pos (by rcases up with h | h <;> simp [h])
  case linkDown => exact if_neg (by simp [down, serves])

end Sys2Proof.Machine
end

section
/-! The removal of a tenant, step by step; the stream that binds a model; a noise source that fails (R192 to R195, R295, R467 to R471, R494). -/

namespace Sys2Proof.Machine

/-! ### The key destroyed -/

/-- A tenant whose key is destroyed (R467). -/
def keyless (x : Tenant) : Tenant := { x with key := none, removal := 2 }

/-- The mark that a destroyed key leaves in the health record. -/
def retiredMark (n : Nat) (x : Tenant) : KeyEntry := { tenant := n, retired := true, check := 0, label := x.label }

theorem self_mem_upsert {α : Type} (key : α → Nat) (x : α) (l : List α) : x ∈ upsert key x l :=
  List.mem_of_find?_eq_some ((findKey_upsert key x (key x) l).trans (if_pos rfl))

theorem exec_key_destroyed {n : Nat} {s : State} {x : Tenant} (found : findTen s n = some x) (retiring : x.retiring = true) (marked : x.removal = 1) :
    exec (.tenantKeyDestroyed n) s =
      .next (hrRewrite (fun r => { r with keys := upsert KeyEntry.tenant (retiredMark n x) r.keys }) (onTen n keyless s)) := by
  show execTenantKeyDestroyed n s = _
  unfold execTenantKeyDestroyed
  rw [found]
  exact if_pos ⟨retiring, marked⟩

/-! ### Objects that a journal leaves -/

/-- Every object of `m` is one of `l`, its trim aside. -/
def ComeObjs (l m : List Obj) : Prop := ∀ k ∈ m, ∃ o ∈ l, Retrimmed o k

theorem ComeObjs.refl (l : List Obj) : ComeObjs l l := fun o ho => ⟨o, ho, .refl o⟩

theorem ComeObjs.trans {l m n : List Obj} (a : ComeObjs l m) (b : ComeObjs m n) : ComeObjs l n := fun k hk => by
  obtain ⟨o, ho, r⟩ := b k hk
  obtain ⟨p, hp, q⟩ := a o ho
  exact ⟨p, hp, q.trans r⟩

theorem settleRecord_comes (keep : Bool) (r : JRec) (l : List Obj) : ComeObjs l (settleRecord keep r l) := by
  unfold settleRecord
  split
  · exact fun o ho => ⟨o, (List.mem_filter.mp ho).1, .refl o⟩
  · split
    · intro k hk
      obtain ⟨o, ho, rfl⟩ := List.mem_map.mp hk
      refine ⟨o, ho, ?_⟩
      split <;> rfl
    · exact .refl l

theorem flushJournal_comes (hub : Nat) (s : State) : ComeObjs s.store.objs (flushJournal hub s).store.objs := by
  show ComeObjs _ ((hubStore s hub).unflushed.foldl _ s.store.objs)
  exact List.foldlRecOn (motive := ComeObjs s.store.objs) _ _ (.refl _) fun l come r _ => come.trans (settleRecord_comes _ r l)

theorem journal_comes (hub : Nat) (r : JRec) (s : State) : ComeObjs s.store.objs (journal hub r s).store.objs := by
  unfold journal
  dsimp only
  split
  · exact flushJournal_comes hub (onHubStore hub _ s)
  · exact .refl _

/-- Objects deleted stand as deleted; every other is one that was there. -/
theorem deleteObjs_comes (hub : Nat) (which : Obj → Bool) (s : State) :
    ComeObjs (s.store.objs.map fun o => if which o then { o with deleted := true, reserved := 0 } else o) (deleteObjs hub which s).store.objs := by
  have told := forEach_rel (R := fun a b : State => ComeObjs a.store.objs b.store.objs) (fun _ => .refl _) (fun a b => ComeObjs.trans a b)
    (fun (o : Obj) t => journal_comes hub { kind := 3, tenant := o.tenant, subject := o.num } t)
  unfold deleteObjs
  exact told _ _

/-- The objects of a tenant deleted. -/
theorem deleteObjs_tenant (hub n : Nat) (s : State) : ∀ o ∈ (deleteObjs hub (fun o => o.tenant == n) s).store.objs, o.tenant = n → o.deleted = true := by
  intro o ho named
  obtain ⟨p, hp, same⟩ := deleteObjs_comes hub _ s o ho
  obtain ⟨q, _, rfl⟩ := List.mem_map.mp hp
  have tenant : o.tenant = q.tenant := ((congrArg Obj.tenant same :) : o.tenant = _).trans (by split <;> rfl)
  rw [same.deleted, if_pos (by simp [← tenant, named])]

/-! ### The tenant cleared -/

/-- The sessions of a tenant that its removal makes CLOSED. -/
def closedBy (n : Nat) (s : State) : List Nat := (s.sess.filter fun x => x.tenant == n && closable x).map Session.handle

/-- The state with the sessions of a tenant closed and its objects deleted. -/
def tenantDrained (n : Nat) (s : State) : State :=
  deleteObjs 0 (fun o => o.tenant == n) (forEach (closedBy n s) (fun h u => closeSession h (abandonOp false h (maskSlot h u))) s)

theorem tenantDrained_work (n : Nat) (s : State) : WorkFrame s (tenantDrained n s) :=
  (forEach_work (fun h t => ((maskSlot_work h t).trans (abandonOp_work false h _)).trans (closeSession_work h _)) (closedBy n s) s).trans
    (deleteObjs_storeOnly _ _ _).work

/-- A tenant that has been cleared (R470). -/
def clearedTenant (closed : Nat) (x : Tenant) : Tenant := { x with counters := {}, removal := 4, madeClosed := closed }

theorem clearTenant_finds {n : Nat} {s : State} {x : Tenant} (found : findTen s n = some x) :
    findTen (clearTenant n s) n = some (clearedTenant (closedBy n s).length x) := by
  have tens : (tenantDrained n s).tens = s.tens := (congrArg State.tens (tenantDrained_work n s) :)
  have found' : findTen (tenantDrained n s) n = some x := by
    unfold findTen
    rw [tens]
    exact found
  unfold clearTenant
  dsimp only
  rw [findTen_onTen n n (fun x => { x with counters := {}, removal := 4, madeClosed := _ }) (fun _ => rfl), if_pos rfl]
  exact congrArg (Option.map (clearedTenant (closedBy n s).length)) found'

theorem clearTenant_clears (n : Nat) (s : State) :
    (∀ o ∈ (clearTenant n s).store.objs, o.tenant = n → o.deleted = true) ∧ (∀ h ∈ (clearTenant n s).rcl.shards, h.item.tenant ≠ n) ∧
      ∀ o ∈ (clearTenant n s).tiers.owners, o.owner = n → n = 0 := by
  refine ⟨deleteObjs_tenant 0 n _, fun h hh => ?_, fun o ho named => ?_⟩
  · have kept : h ∈ (tenantDrained n s).rcl.shards.filter fun h => h.item.tenant != n := hh
    simpa using (List.mem_filter.mp kept).2
  · have mapped : o ∈ (tenantDrained n s).tiers.owners.map fun o => if o.owner = n then { o with owner := 0 } else o := ho
    obtain ⟨p, _, rfl⟩ := List.mem_map.mp mapped
    by_cases own : p.owner = n
    · rw [if_pos own] at named
      exact named.symm
    · rw [if_neg own] at named
      exact absurd named own

/-! ### The removal's end -/

/-- One record of each listed function, none named twice, goes behind those that wait for it. -/
theorem answerAll_waiting (o : OutRec) (l : List Nat) (once : l.Nodup) (s : State) (fn : Nat) :
    (fnOf (forEach l (fun fn u => answerFn fn o u) s) fn).waiting = (fnOf s fn).waiting ++ if fn ∈ l then [{ body := .out o 0 }] else [] := by
  induction l generalizing s with
  | nil => simp [forEach]
  | cons a l ih =>
    obtain ⟨absent, rest⟩ := List.nodup_cons.mp once
    show (fnOf (forEach l (fun fn u => answerFn fn o u) (answerFn a o s)) fn).waiting = _
    rw [ih rest]
    by_cases here : fn = a
    · subst here
      rw [if_neg absent, if_pos (List.mem_cons_self ..), answerFn, answerAt, fnOf_onFn_self, List.append_nil]
    · rw [answerFn, answerAt, fnOf_onFn_other here]
      simp [here]

theorem physFns_nodup (p : Part) : (physFns p).Nodup :=
  List.Nodup.map (fun a b h => Nat.eq_of_mul_eq_mul_right (by decide : 0 < 256) h) List.nodup_range

theorem answerAll_fnsOnly (o : OutRec) (l : List Nat) (s : State) : FnsOnly s (forEach l (fun fn u => answerFn fn o u) s) :=
  forEach_rel (R := FnsOnly) FnsOnly.refl FnsOnly.trans (fun fn u => (rfl : FnsOnly u (answerFn fn o u))) l s

/-- `t` differs from `s` in its rack alone. -/
theorem tellRegistry_frame (n partition : Nat) (present : Bool) (s : State) :
    tellRegistry n partition present s = { s with rack := (tellRegistry n partition present s).rack } := by
  unfold tellRegistry
  split
  · dsimp only
    split <;> rfl
  · rfl

/-- The record of a removal (R470). -/
def removalRecord (x : Tenant) : OutRec := { outcome := .done, tenant := x.id, d0 := x.madeClosed, d1 := x.commitPour }

/-- A tenant's entries gone from the directory and the placements. -/
def entriesGone (n : Nat) (s : State) : State :=
  { s with sess := s.sess.filter fun x => x.tenant != n
           tiers := { s.tiers with placements := s.tiers.placements.filter fun p => !(p.kind != 1 && p.owner == n) } }

/-- The state in which the records of a removal wait. -/
def removalTold (n : Nat) (x : Tenant) (s : State) : State := removalRecords x (tellRegistry n x.partition false (entriesGone n s))

/-- The state without the tenant. -/
def withoutTenant (n : Nat) (s : State) : State := { s with tens := eraseKey Tenant.id n s.tens }

theorem exec_removal_complete {n : Nat} {s : State} {x : Tenant} (found : findTen s n = some x) (retiring : x.retiring = true) (cleared : x.removal = 4) :
    exec (.tenantRemovalComplete n) s =
      .next (healthSignal (leadDie (removalTold n x s)) n (withoutTenant n (removalTold n x s))) := by
  show execTenantRemovalComplete n s = _
  unfold execTenantRemovalComplete
  rw [found]
  exact if_pos ⟨retiring, cleared⟩

/-- Of what the removal's end leaves: the directory without the tenant's entries, its records, and the rest as it was. -/
theorem removalTold_frame (n : Nat) (x : Tenant) (s : State) :
    removalTold n x s = { entriesGone n s with rack := (removalTold n x s).rack, fns := (removalTold n x s).fns } := by
  have told := tellRegistry_frame n x.partition false (entriesGone n s)
  unfold removalTold removalRecords
  generalize tellRegistry n x.partition false (entriesGone n s) = t at told ⊢
  have answered := answerAll_fnsOnly { outcome := .done, tenant := x.id, d0 := x.madeClosed, d1 := x.commitPour } (physFns t.part) t
  unfold FnsOnly at answered
  rw [answered, told]

theorem waiting_healthSignal (die data fn : Nat) (s : State) : (fnOf (healthSignal die data s) fn).waiting = (fnOf s fn).waiting := by
  have marked : FnsTurn Marked (healthEvent die data s) (healthSignal die data s) :=
    forEach_rel (R := FnsTurn Marked) (fun _ => FnsTurn.same marked_order rfl) (FnsTurn.trans marked_order)
      (fun fn t => fire_turn fn 2 t) _ _
  exact (congrArg Fn.waiting (marked fn) :)

theorem removalTold_waiting (n : Nat) (x : Tenant) (s : State) {fn : Nat} (phys : fn ∈ physFns s.part) :
    (fnOf (removalTold n x s) fn).waiting = (fnOf s fn).waiting ++ [{ body := .out (removalRecord x) 0 }] := by
  have told := tellRegistry_frame n x.partition false (entriesGone n s)
  unfold removalTold removalRecords
  generalize tellRegistry n x.partition false (entriesGone n s) = t at told ⊢
  have part : t.part = s.part := (congrArg State.part told :)
  have fns : fnOf t fn = fnOf s fn := by
    rw [told]
    rfl
  rw [answerAll_waiting _ _ (physFns_nodup t.part), if_pos (part ▸ phys), fns]
  rfl

/-! ### The stream of a binding, and noise sources -/

/-- A model as its binding stream ends it (R205). -/
def streamed (bytes : Nat) (ok : Bool) (hash : List Byte) (m : Model) : Model :=
  if ok then { m with state := 2, bytes := bytes, digest := hash } else { m with state := 3, bytes := bytes, pools := [] }

/-- Whether the stream was read and written well and its hash is the program's. -/
def streamGood (readOk writeOk : Bool) (hash : List Byte) (m : Model) : Bool := readOk && writeOk && m.program.any fun p => p.digest == hash

theorem exec_stream_complete {n : Nat} {s : State} {m : Model} (found : findModel s n = some m) (streams : m.state = 1) (bytes : Nat)
    (readOk writeOk : Bool) (hash : List Byte) : exec (.bindStreamComplete n bytes readOk writeOk hash) s =
      .next (fireState (onModel n (streamed bytes (streamGood readOk writeOk hash m) hash) s)) := by
  show execBindStreamComplete n bytes readOk writeOk hash s = _
  unfold execBindStreamComplete
  rw [found]
  refine (if_pos streams).trans (congrArg (fun f => Host.Outcome.next (fireState (onModel n f s))) (funext fun k => ?_))
  show (if streamGood readOk writeOk hash m then _ else _ : Model → Model) k = _
  unfold streamed
  split <;> rfl

theorem streamed_num (bytes : Nat) (ok : Bool) (hash : List Byte) (m : Model) : (streamed bytes ok hash m).num = m.num := by
  unfold streamed
  split <;> rfl

/-- Settles O58: each step of a removal acts in its turn alone; a stream's end and a noise source's failure set one model, one hub. -/
theorem tenantsAreRemovedInOrder : Obligations.TenantsAreRemovedInOrder := by
  unfold Obligations.TenantsAreRemovedInOrder
  refine ⟨fun n s x found => ⟨fun retiring marked => ?destroyed, fun other => ?early, fun retiring drained => ?clears, fun other => ?undrained,
    fun retiring cleared => ?removed, fun other => ?uncleared⟩, fun n bytes readOk writeOk hash s m found => ⟨fun streams => ?streams, fun other => ?bound⟩,
    fun hub s x => ⟨fun out => if_pos out, fun fitted here => ?noise⟩⟩
  case destroyed =>
    have frame := hrRewrite_frame (fun r => { r with keys := upsert KeyEntry.tenant (retiredMark n x) r.keys }) (onTen n keyless s)
    have named : ∀ k, findTen (hrRewrite (fun r => { r with keys := upsert KeyEntry.tenant (retiredMark n x) r.keys }) (onTen n keyless s)) k =
        if k = n then (findTen s n).map keyless else findTen s k := fun k => by
      rw [frame]
      have turned := findTen_onTen n k keyless (fun _ => rfl) s
      split at turned
      next h => subst h; rw [if_pos rfl]; exact turned
      next h => rw [if_neg h]; exact turned
    refine ⟨_, exec_key_destroyed found retiring marked, (named n).trans (by rw [if_pos rfl, found]; rfl), fun k hk => (named k).trans (if_neg hk),
      fun r hr => ?_, (hrRewrite_keeps _ _).fuses, ?_⟩
    · have governs := hrGoverning_hrRewrite (s := onTen n keyless s) hr (fun r => { r with keys := upsert KeyEntry.tenant (retiredMark n x) r.keys })
      exact ⟨_, retiredMark n x, governs, self_mem_upsert _ _ _, rfl, rfl, rfl⟩
    · rw [frame]
      rfl
  case early =>
    show execTenantKeyDestroyed n s = _
    unfold execTenantKeyDestroyed
    rw [found]
    exact if_neg fun ⟨retiring, marked⟩ => other.elim (fun h => by rw [h] at retiring; cases retiring) (fun h => h marked)
  case clears =>
    have run : exec (.tenantDrainComplete n) s = .next (clearTenant n s) := by
      show execTenantDrainComplete n s = _
      unfold execTenantDrainComplete
      rw [found]
      exact if_pos ⟨retiring, drained⟩
    obtain ⟨objs, shards, owners⟩ := clearTenant_clears n s
    exact ⟨_, _, run, clearTenant_finds found, rfl, rfl, retiring, objs, shards, owners⟩
  case undrained =>
    show execTenantDrainComplete n s = _
    unfold execTenantDrainComplete
    rw [found]
    exact if_neg fun ⟨retiring, drained⟩ => other.elim (fun h => by rw [h] at retiring; cases retiring) (fun h => h drained)
  case removed =>
    have frame := removalTold_frame n x s
    have event := healthSignal_frame (leadDie (removalTold n x s)) n (withoutTenant n (removalTold n x s))
    have waiting := fun fn => waiting_healthSignal (leadDie (removalTold n x s)) n fn (withoutTenant n (removalTold n x s))
    have erased := fun k => findKey_eraseKey Tenant.id n k s.tens
    have run := exec_removal_complete found retiring cleared
    generalize healthSignal (leadDie (removalTold n x s)) n (withoutTenant n (removalTold n x s)) = t at event waiting run
    have told := fun {fn : Nat} => removalTold_waiting n x s (fn := fn)
    generalize removalTold n x s = u at frame event waiting told
    have tens : t.tens = eraseKey Tenant.id n s.tens := (congrArg State.tens event).trans (by rw [frame]; rfl)
    have sess : t.sess = s.sess.filter fun x => x.tenant != n := (congrArg State.sess event).trans (by rw [frame]; rfl)
    have finds : ∀ k, findTen t k = findKey Tenant.id k (eraseKey Tenant.id n s.tens) := fun k => by rw [findTen, tens]
    refine ⟨t, run, ?_, fun k hk => ?_, fun y hy => ?_, fun y hy other => ?_, fun fn phys => ?_, ?_, ?_, ?_⟩
    · rw [finds, erased, if_pos rfl]
    · rw [finds, erased, if_neg hk]
      rfl
    · rw [sess] at hy
      simpa using (List.mem_filter.mp hy).2
    · rw [sess]
      exact List.mem_filter.mpr ⟨hy, by simpa using other⟩
    · refine ⟨{ body := .out (removalRecord x) 0 }, removalRecord x, (waiting fn).trans (told phys), rfl, rfl, findTen_id found, rfl, rfl⟩
    · rw [(congrArg Dev.events (congrArg State.dev event) :), frame]
      rfl
    · exact (congrArg State.sched event).trans (by rw [frame]; rfl)
    · exact (congrArg State.models event).trans (by rw [frame]; rfl)
  case uncleared =>
    show execTenantRemovalComplete n s = _
    unfold execTenantRemovalComplete
    rw [found]
    exact if_neg fun ⟨retiring, cleared⟩ => other.elim (fun h => by rw [h] at retiring; cases retiring) (fun h => h cleared)
  case streams =>
    have turned := onModel_is found (streamed bytes (streamGood readOk writeOk hash m) hash) (streamed_num _ _ _)
    have fired := fireState_signals (onModel n (streamed bytes (streamGood readOk writeOk hash m) hash) s)
    have run := exec_stream_complete found streams bytes readOk writeOk hash
    generalize fireState (onModel n (streamed bytes (streamGood readOk writeOk hash m) hash) s) = t at fired run
    have models : t.models = _ := (congrArg State.models fired :)
    have finds : ∀ k, findModel t k = findModel (onModel n (streamed bytes (streamGood readOk writeOk hash m) hash) s) k := fun k => by
      rw [findModel, models]
      rfl
    exact ⟨t, run, (finds n).trans turned.here, fun k hk => (finds k).trans (turned.others k hk), by
      unfold Signals at fired
      rw [fired]
      rfl⟩
  case bound =>
    show execBindStreamComplete n bytes readOk writeOk hash s = _
    unfold execBindStreamComplete
    rw [found]
    exact if_neg other
  case noise =>
    have run : exec (.noiseSourceFailure hub) s = .next (healthSignal (6 + hub) hub (onHub hub (fun h => { h with drbgOk := false }) s)) :=
      if_neg (by omega)
    have event := healthSignal_frame (6 + hub) hub (onHub hub (fun h => { h with drbgOk := false }) s)
    have set := onHub_finds here (fun h => { h with drbgOk := false })
    generalize healthSignal (6 + hub) hub (onHub hub (fun h => { h with drbgOk := false }) s) = t at event run
    exact ⟨t, run, (congrArg (fun d : Dev => d.hubs[hub]?) (congrArg State.dev event) :).trans set, (congrArg Dev.events (congrArg State.dev event) :),
      (congrArg State.sess event :), (congrArg State.sched event :), (congrArg State.models event :)⟩

end Sys2Proof.Machine
end

section
/-! PERSIST and RECOVER: an image written into a slot and named by the health record, a namespace formatted, a fresh record
(R504, R543). -/

namespace Sys2Proof.Machine

/-! ### An image written and named -/

/-- An image written into a slot, with the health record rewritten by `f`. -/
def imageNamed (slot : Nat) (f : HealthRec → HealthRec) (im : Image) (s : State) : State := hrRewrite f (writeSlot slot im s)

/-- What an image written and named leaves: a NOR that holds it, with the other slot and the fuses as they were, and the record rewritten. -/
structure ImageNamed (slot : Nat) (f : HealthRec → HealthRec) (im : Image) (s t : State) : Prop where
  here : slotImage t slot = some im
  other : ∀ k, ¬(slot = 0 ↔ k = 0) → slotImage t k = slotImage s k
  governs : ∀ h, hrGoverning s.nor = some h → hrGoverning t.nor = some { f h with sequence := h.sequence + 1, powered := s.dev.powered }
  fuses : t.nor.fuses = s.nor.fuses

theorem imageNamed_named (slot : Nat) (f : HealthRec → HealthRec) (im : Image) (s : State) :
    ImageNamed slot f im s (imageNamed slot f im s) ∧ imageNamed slot f im s = { s with nor := (imageNamed slot f im s).nor } := by
  obtain ⟨frame, record, fuses⟩ := writeSlot_frame slot im s
  refine ⟨⟨?_, fun k apart => ?_, fun h hh => ?_, (hrRewrite_keeps f _).fuses.trans fuses⟩, ?_⟩
  · rw [imageNamed, slotImage_hrRewrite, slotImage_writeSlot]
  · rw [imageNamed, slotImage_hrRewrite, slotImage_writeSlot_other apart]
  · rw [imageNamed, hrGoverning_hrRewrite (record.trans hh), frame]
  · rw [imageNamed, hrRewrite_frame, frame]

/-- What is said of the NOR alone holds of every state with that NOR. -/
theorem ImageNamed.congr {slot : Nat} {f : HealthRec → HealthRec} {im : Image} {s t u : State} (a : ImageNamed slot f im s t) (e : u.nor = t.nor) :
    ImageNamed slot f im s u := by
  have image : ∀ k, slotImage u k = slotImage t k := fun k => by rw [slotImage, e, slotImage]
  exact ⟨(image slot).trans a.here, fun k apart => (image k).trans (a.other k apart), fun h hh => by rw [e]; exact a.governs h hh, by rw [e]; exact a.fuses⟩

theorem otherSlot_apart (k : Nat) : ¬(otherSlot k = 0 ↔ k = 0) := by
  unfold otherSlot
  split <;> simp [*]

theorem apart_otherSlot (k : Nat) : ¬(k = 0 ↔ otherSlot k = 0) := fun h => otherSlot_apart k h.symm

/-- A request that only writes the NOR and is answered DONE. -/
theorem answered_nor (r : MbReq) (op sub : Nat) (s u : State) (only : u = { (mbTake r op sub s).2 with nor := u.nor }) :
    let t := answerMb (mbTake r op sub s).1 .done [] u
    Answered r op .done [] t ∧ t.nor = u.nor ∧ t = { s with fns := t.fns, outs := t.outs, nor := t.nor } := by
  have told := answerMb_signals (mbTake r op sub s).1 .done [] u
  refine ⟨answer_after r op sub .done [] s u (by rw [only]), (congrArg State.nor told :), ?_⟩
  unfold Signals at told
  generalize answerMb (mbTake r op sub s).1 .done [] u = t at told
  rw [told, only]
  rfl

/-- What a request that writes and names an image, and is answered DONE, comes to. -/
theorem image_answered (r : MbReq) (op sub slot : Nat) (f : HealthRec → HealthRec) (im : Image) (s : State) :
    let t := answerMb (mbTake r op sub s).1 .done [] (imageNamed slot f im (mbTake r op sub s).2)
    Answered r op .done [] t ∧ ImageNamed slot f im s t ∧ t = { s with fns := t.fns, outs := t.outs, nor := t.nor } := by
  obtain ⟨named, only⟩ := imageNamed_named slot f im (mbTake r op sub s).2
  obtain ⟨answered, nor, frame⟩ := answered_nor r op sub s _ only
  have same := named.congr nor
  exact ⟨answered, ⟨same.here, same.other, same.governs, same.fuses⟩, frame⟩

/-! ### PERSIST -/

/-- The section of staged state that a snapshot writes (R504). -/
def snapshotOf (im : Image) (s : State) : Image := { im with staged := some { cmacOk := true, commit := s.stg.lastDone, items := s.stg.committed } }

/-- A record that names the slot to run next. -/
def namesSlot (slot : Nat) (h : HealthRec) : HealthRec := { h with nextSlot := slot }

/-- A record that names the slot to run next, on trial, as PERSIST mode 1 leaves it. -/
def persistsSlot (slot : Nat) (h : HealthRec) : HealthRec := { h with nextSlot := slot, trial := true }

theorem writeState_eq {s : State} {im : Image} (image : s.dev.image = some im) :
    writeState s = imageNamed (otherSlot s.dev.slot) (namesSlot (otherSlot s.dev.slot)) (snapshotOf im s) s := by
  unfold writeState
  rw [image]
  rfl

/-- No update holds the NOR and no snapshot waits (R504, R557). -/
theorem nor_idle {s : State} (free : norHeld s = false) (none_waits : s.stg.persists = []) : ¬(norHeld s || !s.stg.persists.isEmpty) = true := by
  simp [free, none_waits]

section
variable {r : MbReq} {s : State} (ready : Ready r 0x14 s) (len : r.length = 24) (free : norHeld s = false) (none_waits : s.stg.persists = [])
include ready len free none_waits

theorem exec_persist_state : exec (.persistState r) s =
    .next (if boundaryAhead s then
        { (mbTake r 0x14 0 s).2 with stg := { s.stg with persists := [(mbTake r 0x14 0 s).1] } }
      else answerMb (mbTake r 0x14 0 s).1 .done [] (writeState (mbTake r 0x14 0 s).2)) := by
  refine congrArg Host.Outcome.next ((mbSimple_ready r 0x14 0 _ _ s ready (by simp [len])).trans ((if_neg (nor_idle free none_waits)).trans ?_))
  have empty : ({ s.stg with persists := [] } : Staging) = s.stg := by rw [← none_waits]
  have held : norHeld (mbTake r 0x14 0 s).2 = false := free
  show (if boundaryAhead s = true then _ else _) = _
  split
  · rfl
  · show (if norHeld (mbTake r 0x14 0 s).2 = true then _ else answerMb (mbTake r 0x14 0 s).1 .done []
      (writeState { (mbTake r 0x14 0 s).2 with stg := { s.stg with persists := [] } })) = _
    rw [empty]
    exact if_neg (by simp [held])

theorem exec_persist_bad {img : Option Image} (bad : img.filter (verifies s) = none) :
    exec (.persistImage r img) s = .next (answerMb (mbTake r 0x14 1 s).1 .checkFailed [] (mbTake r 0x14 1 s).2) := by
  refine congrArg Host.Outcome.next ((mbSimple_ready r 0x14 1 _ _ s ready (by simp [len])).trans ((if_neg (nor_idle free none_waits)).trans ?_))
  rw [show img.filter (verifies (mbTake r 0x14 1 s).2) = none from bad]

theorem exec_persist_good {img : Option Image} {im : Image} (good : img.filter (verifies s) = some im) :
    exec (.persistImage r img) s = .next (answerMb (mbTake r 0x14 1 s).1 .done []
      (imageNamed (otherSlot s.dev.slot) (persistsSlot (otherSlot s.dev.slot)) im (mbTake r 0x14 1 s).2)) := by
  refine congrArg Host.Outcome.next ((mbSimple_ready r 0x14 1 _ _ s ready (by simp [len])).trans ((if_neg (nor_idle free none_waits)).trans ?_))
  rw [show img.filter (verifies (mbTake r 0x14 1 s).2) = some im from good]
  rfl

end

/-! ### RECOVER of an image -/

section
variable {r : MbReq} {s : State} (ready : Ready r 0x70 s) (len : r.length = 24) (free : norHeld s = false) (none_waits : s.stg.persists = [])
include ready len free none_waits

theorem exec_recover_bad {img : Option Image} (bad : img.filter (verifies s) = none) :
    exec (.recoverImage r img) s = .next (answerMb (mbTake r 0x70 1 s).1 .checkFailed [] (mbTake r 0x70 1 s).2) := by
  refine congrArg Host.Outcome.next ((mbSimple_ready r 0x70 1 _ _ s ready (by simp [len])).trans ((if_neg (nor_idle free none_waits)).trans ?_))
  rw [show img.filter (verifies (mbTake r 0x70 1 s).2) = none from bad]

theorem exec_recover_good {img : Option Image} {im : Image} (good : img.filter (verifies s) = some im) :
    exec (.recoverImage r img) s = .next (answerMb (mbTake r 0x70 1 s).1 .done []
      (imageNamed (recoverSlot s) (triesSlot (recoverSlot s)) im (mbTake r 0x70 1 s).2)) := by
  refine congrArg Host.Outcome.next ((mbSimple_ready r 0x70 1 _ _ s ready (by simp [len])).trans ((if_neg (nor_idle free none_waits)).trans ?_))
  rw [show img.filter (verifies (mbTake r 0x70 1 s).2) = some im from good]
  rfl

end

/-- The slot to recover verifies only where both do; it is then the inactive one (R543). -/
theorem recoverSlot_inactive {s : State} (good : slotOk s (slotImage s (recoverSlot s)) = true) : recoverSlot s = otherSlot s.dev.slot := by
  by_cases a : slotOk s s.nor.slotA = true
  · by_cases b : slotOk s s.nor.slotB = true
    · simp [recoverSlot, a, b]
    · simp [recoverSlot, slotImage, a, b] at good
  · simp [recoverSlot, slotImage, a] at good

/-- With no image that verifies, none is taken. -/
theorem filter_verifies_none {s : State} {img : Option Image} (bad : ∀ im, img = some im → verifies s im = false) : img.filter (verifies s) = none := by
  cases img with
  | none => rfl
  | some im => simp [bad im rfl]

theorem filter_verifies_some {s : State} {im : Image} (good : verifies s im = true) : (some im).filter (verifies s) = some im := by
  simp [good]

/-! ### RECOVER of a namespace -/

/-- A journal base written on a hub: its page flushed, and counted as the base (R262). -/
def baseHub (h : Nat) (s : State) : State := onHubStore h (fun x => { x with base := x.flushedPages, flushed := [] }) (flushJournal h s)

/-- Hub `k`'s journal stands at its base. -/
def Based (k : Nat) (s : State) : Prop := ∀ x, s.store.hubs[k]? = some x → x.unflushed = [] ∧ x.flushed = [] ∧ x.base = x.flushedPages

theorem flushJournal_hubs (h : Nat) (s : State) : ∃ f : HubStore → HubStore, (∀ x, (f x).unflushed = []) ∧
    (flushJournal h s).store.hubs = s.store.hubs.modify h f := by
  refine ⟨_, fun x => ?_, rfl⟩
  dsimp only
  split
  next empty => exact List.isEmpty_iff.mp empty
  next => rfl

theorem baseHub_hubs (h : Nat) (s : State) : ∃ f : HubStore → HubStore, (∀ x, (f x).unflushed = [] ∧ (f x).flushed = [] ∧ (f x).base = (f x).flushedPages) ∧
    (baseHub h s).store.hubs = s.store.hubs.modify h f := by
  obtain ⟨f, empty, hubs⟩ := flushJournal_hubs h s
  refine ⟨fun x => { f x with base := (f x).flushedPages, flushed := [] }, fun x => ⟨empty x, rfl, rfl⟩, ?_⟩
  show (flushJournal h s).store.hubs.modify h _ = _
  rw [hubs]
  exact (List.modify_modify_eq f _ h _)

theorem baseHub_based (h k : Nat) (s : State) (before : k = h ∨ Based k s) : Based k (baseHub h s) := by
  obtain ⟨f, based, hubs⟩ := baseHub_hubs h s
  intro x hx
  rw [hubs, List.getElem?_modify] at hx
  obtain ⟨y, hy, rfl⟩ := Option.map_eq_some_iff.mp hx
  by_cases here : h = k
  · simpa [here] using based y
  · simpa [here] using (before.resolve_left (fun e => here e.symm)) y hy

theorem forEach_based (l : List Nat) (s : State) (k : Nat) (h : k ∈ l ∨ Based k s) : Based k (forEach l baseHub s) := by
  induction l generalizing s with
  | nil => simpa [forEach] using h
  | cons a l ih =>
    refine ih (baseHub a s) ?_
    by_cases here : k ∈ l
    · exact .inl here
    · exact .inr (baseHub_based a k s (h.imp_left fun m => (List.mem_cons.mp m).resolve_right here))

/-- What the bases leave: the store alone is changed, with its objects (their trims aside), groups and namespaces. -/
structure OnlyBased (s t : State) : Prop where
  only : StoreOnly s t
  kept : KeptObjs s.store.objs t.store.objs
  comes : ComeObjs s.store.objs t.store.objs
  groups : t.store.groups = s.store.groups
  nss : t.store.nss = s.store.nss

theorem forEach_onlyBased (l : List Nat) (s : State) : OnlyBased s (forEach l baseHub s) :=
  forEach_rel (R := OnlyBased) (fun s => ⟨.refl s, .refl _, .refl _, rfl, rfl⟩)
    (fun a b => ⟨a.only.trans b.only, a.kept.trans b.kept, a.comes.trans b.comes, b.groups.trans a.groups, b.nss.trans a.nss⟩)
    (fun h t => ⟨(rfl : StoreOnly t (baseHub h t)), flushJournal_kept h t, flushJournal_comes h t, rfl, rfl⟩) l s

/-- A group of a formatted namespace erased (R543). -/
def wiped (ns : Nat) (g : Group) : Group :=
  if g.ns = ns ∧ g.state ≠ .retired then ({ hub := g.hub, num := g.num, ns := g.ns, erases := g.erases + 1 } : Group) else g

/-- The store with a namespace formatted, before its bases. -/
def formatted (ns : Nat) (s : State) : State :=
  onNs ns (fun x => { x with readOnly := false })
    { s with store := { s.store with objs := s.store.objs.filter (fun o => o.ns != ns), groups := s.store.groups.map (wiped ns) } }

theorem exec_recover_format {r : MbReq} {ns : Nat} {s : State} (ready : Ready r 0x70 s) (len : r.length = 24) (free : norHeld s = false)
    (none_waits : s.stg.persists = []) (listed : ns < 4) (may : mayFormat ns s = true) :
    exec (.recoverFormat r ns) s = .next (answerMb (mbTake r 0x70 2 s).1 .done []
      (forEach (List.range (hubCount s.part)) baseHub (formatted ns (mbTake r 0x70 2 s).2))) := by
  have allowed : ¬(4 ≤ ns ∨ mayFormat ns (mbTake r 0x70 2 s).2 = false) := by
    have may' : mayFormat ns (mbTake r 0x70 2 s).2 = true := may
    simp only [may', Bool.true_eq_false, or_false]
    omega
  refine congrArg Host.Outcome.next ((mbSimple_ready r 0x70 2 _ _ s ready (by simp [len])).trans ((if_neg (nor_idle free none_waits)).trans ?_))
  exact if_neg allowed

/-! ### RECOVER of the health record -/

/-- A record of a first start (R491). -/
def freshRecord (s : State) : HealthRec := { powered := s.dev.powered, serialEnd := (hrGoverning s.nor).elim s.dev.serialEnd HealthRec.serialEnd }

theorem exec_recover_record {r : MbReq} {s : State} (ready : Ready r 0x70 s) (len : r.length = 24) (free : norHeld s = false)
    (halted : s.dev.code = .safeTalk) : exec (.recoverHealthRecord r) s = .next (answerMb (mbTake r 0x70 3 s).1 .done []
      { (mbTake r 0x70 3 s).2 with nor := { s.nor with copy0 := .valid (freshRecord s), copy1 := .erased } }) := by
  refine congrArg Host.Outcome.next ((mbSimple_ready r 0x70 3 _ _ s ready (by simp [len])).trans ((if_neg (fun h => h halted)).trans ?_))
  have held : norHeld (mbTake r 0x70 3 s).2 = false := free
  exact if_neg (by simp [held])

/-- Settles O23: each request writes one slot and names it, formats one namespace, or writes one record, and is answered. -/
theorem persistAndRecoverWriteTheNor : Obligations.PersistAndRecoverWriteTheNor := by
  unfold Obligations.PersistAndRecoverWriteTheNor
  refine ⟨fun r s ready len free none_waits => ⟨fun ahead => ?waits, fun im now image => ?snapshot⟩,
    fun r s ready len free none_waits => ⟨fun im good => ?persists, fun img bad => ?persistsNot⟩,
    fun r s ready len free none_waits => ⟨fun im good => ?recovers, fun img bad => ?recoversNot⟩,
    fun r ns s ready len free none_waits listed may => ?formats, fun r s ready len free halted => ?record⟩
  case waits =>
    refine ⟨_, (exec_persist_state ready len free none_waits).trans (congrArg _ (if_pos ahead)), rfl, rfl, ?_, rfl⟩
    exact congrArg Mailbox.busy (mbTake_mb r 0x14 0 s)
  case snapshot =>
    have run := (exec_persist_state ready len free none_waits).trans (congrArg _ (if_neg (by simp [now])))
    rw [writeState_eq (s := (mbTake r 0x14 0 s).2) image] at run
    obtain ⟨answered, named, frame⟩ := image_answered r 0x14 0 (otherSlot s.dev.slot) (namesSlot (otherSlot s.dev.slot)) (snapshotOf im s) s
    exact ⟨_, run, answered, named.here, named.other _ (otherSlot_apart _), fun h hh => ⟨_, named.governs h hh, rfl, rfl, rfl, rfl, rfl⟩, named.fuses,
      frame⟩
  case persists =>
    obtain ⟨answered, named, frame⟩ := image_answered r 0x14 1 (otherSlot s.dev.slot) (persistsSlot (otherSlot s.dev.slot)) im s
    exact ⟨_, exec_persist_good ready len free none_waits (filter_verifies_some good), answered, named.here, named.other _ (otherSlot_apart _),
      fun h hh => ⟨_, named.governs h hh, rfl, rfl, rfl⟩, frame⟩
  case persistsNot =>
    exact ⟨_, exec_persist_bad ready len free none_waits (filter_verifies_none bad), answer_after r 0x14 1 .checkFailed [] s _ rfl,
      (mbTake_signals r 0x14 1 s).trans (answerMb_signals _ _ _ _)⟩
  case recovers =>
    obtain ⟨answered, named, frame⟩ := image_answered r 0x70 1 (recoverSlot s) (triesSlot (recoverSlot s)) im s
    exact ⟨_, exec_recover_good ready len free none_waits (filter_verifies_some good), answered, named.here, named.other _ (apart_otherSlot _),
      recoverSlot_inactive, fun h hh => ⟨_, named.governs h hh, rfl, rfl, rfl⟩, frame⟩
  case recoversNot =>
    exact ⟨_, exec_recover_bad ready len free none_waits (filter_verifies_none bad), answer_after r 0x70 1 .checkFailed [] s _ rfl,
      (mbTake_signals r 0x70 1 s).trans (answerMb_signals _ _ _ _)⟩
  case formats =>
    have run := exec_recover_format ready len free none_waits listed may
    have based := forEach_onlyBased (List.range (hubCount s.part)) (formatted ns (mbTake r 0x70 2 s).2)
    have hubs := fun k (hk : k < hubCount s.part) => forEach_based (List.range (hubCount s.part)) (formatted ns (mbTake r 0x70 2 s).2) k
      (.inl (List.mem_range.mpr hk))
    generalize forEach (List.range (hubCount s.part)) baseHub (formatted ns (mbTake r 0x70 2 s).2) = u at run based hubs
    obtain ⟨only, kept, comes, groups, nss⟩ := based
    have fns : u.fns = (mbTake r 0x70 2 s).2.fns := (congrArg State.fns only :)
    have answered := answer_after r 0x70 2 .done [] s u fns
    have told := answerMb_signals (mbTake r 0x70 2 s).1 .done [] u
    generalize answerMb (mbTake r 0x70 2 s).1 .done [] u = t at run answered told
    have store : t.store = u.store := (congrArg State.store told :)
    refine ⟨t, run, answered, fun o ho => ?_, fun o ho other live => ?_, ?_, fun x hx named => ?_, fun k x hk hx => ?_, ?_⟩
    · obtain ⟨p, hp, same⟩ := comes o (store ▸ ho)
      have apart : p.ns ≠ ns := by simpa using (List.mem_filter.mp hp).2
      have ns_same : o.ns = p.ns := (congrArg Obj.ns same :)
      exact ns_same ▸ apart
    · rw [store]
      exact kept.stays o (List.mem_filter.mpr ⟨ho, by simpa using other⟩) live
    · rw [store, groups]
      rfl
    · rw [store, nss] at hx
      obtain ⟨y, _, rfl⟩ := List.mem_map.mp hx
      by_cases own : y.num = ns
      · rw [if_pos own]
      · rw [if_neg own] at named
        exact absurd named own
    · exact hubs k hk x (by rw [← store]; exact hx)
    · unfold Signals StoreOnly at *
      rw [told, only]
      rfl
  case record =>
    obtain ⟨answered, nor, frame⟩ := answered_nor r 0x70 3 s
      { (mbTake r 0x70 3 s).2 with nor := { s.nor with copy0 := .valid (freshRecord s), copy1 := .erased } } rfl
    exact ⟨_, freshRecord s, exec_recover_record ready len free halted, answered, nor, rfl, rfl, rfl, rfl, frame⟩

end Sys2Proof.Machine
end

section
/-! The package reset, the serving reset and the loss of power (R46, R480, R547; Table 19-10). -/

namespace Sys2Proof.Machine

/-! ### The package reset -/

/-- An object as the loss of T1 leaves it: the trim that a flushed record holds stands, and a deletion not flushed is undone (R84, R263). -/
def Rolled (o k : Obj) : Prop := k = { o with deleted := k.deleted, trimmed := o.trimSafe } ∧ (o.deleted = false → k.deleted = false)

/-- What a package reset of `s` comes to: a start with nothing served, over the NOR, the store, the checkpoints and the unlock count of `s`. -/
structure Restarted (s t : State) : Prop where
  code : t.dev.code = .starting
  step : t.dev.step = 1
  stop : t.dev.stop = none
  powerGood : t.pins.powerGood = false
  safeLow : t.pins.safeLow = false
  sess : t.sess = []
  tens : t.tens = []
  models : t.models = []
  sched : t.sched = {}
  meters : ∀ m ∈ t.dev.meters, m.ns = 0
  nor : t.nor = s.nor
  objs : ∀ o ∈ s.store.objs, ∃ k ∈ t.store.objs, Rolled o k
  groups : t.store.groups = s.store.groups
  slot0 : t.chk.slot0 = s.chk.slot0
  slot1 : t.chk.slot1 = s.chk.slot1
  anchors : t.chk.anchors = s.chk.anchors
  unlocks : t.sec.unlocks = s.sec.unlocks
  shut : t.sec.open_ = false
  part : t.part = s.part

theorem loseUnflushed_objs (s : State) : ∀ o ∈ s.store.objs, ∃ k ∈ (loseUnflushed s).store.objs, Rolled o k := by
  intro o ho
  refine ⟨_, List.mem_map_of_mem ho, ?_⟩
  dsimp only
  split
  · exact ⟨rfl, fun _ => rfl⟩
  · exact ⟨rfl, fun live => live⟩

theorem Restarted.signals {s t u : State} (a : Restarted s t) (b : Signals t u) : Restarted s u := by
  unfold Signals at b
  rw [b]
  exact ⟨a.code, a.step, a.stop, a.powerGood, a.safeLow, a.sess, a.tens, a.models, a.sched, a.meters, a.nor, a.objs, a.groups, a.slot0, a.slot1,
    a.anchors, a.unlocks, a.shut, a.part⟩

/-- After a reset every meter stands at zero (R46). -/
theorem reset_meters : ∀ m ∈ ({} : Dev).meters, m.ns = 0 := by decide

theorem packageReset_restarted (s : State) : Restarted s (packageReset s) := by
  have signalled : ∀ t, Restarted s t → Restarted s (if s.dev.code = .starting then t else fireState t) := fun t restarted => by
    split
    · exact restarted
    · exact restarted.signals (fireState_signals t)
  exact signalled _ ⟨rfl, rfl, rfl, rfl, rfl, rfl, rfl, rfl, rfl, reset_meters, rfl, loseUnflushed_objs s, rfl, rfl, rfl, rfl, rfl, rfl, rfl⟩

/-- A rail that is lost resets the package (R377, R563). -/
theorem losePower_restarted (r : Rail) (s : State) : Restarted s (losePower r s) := by
  have a := packageReset_restarted s
  unfold losePower
  dsimp only
  split
  · exact ⟨a.code, a.step, a.stop, a.powerGood, a.safeLow, a.sess, a.tens, a.models, a.sched, a.meters, a.nor, a.objs, a.groups, a.slot0, a.slot1,
      a.anchors, a.unlocks, a.shut, a.part⟩
  · exact a

/-! ### What lasts through a serving reset -/

/-- `t` has the part, the security state, the fuses and the host links of `s`. -/
structure Lasts (s t : State) : Prop where
  part : t.part = s.part
  sec : t.sec = s.sec
  fuses : t.nor.fuses = s.nor.fuses
  linkUp : t.dev.linkUp = s.dev.linkUp

theorem Lasts.trans {s t u : State} (a : Lasts s t) (b : Lasts t u) : Lasts s u :=
  ⟨b.part.trans a.part, b.sec.trans a.sec, b.fuses.trans a.fuses, b.linkUp.trans a.linkUp⟩

theorem Keeps.lasts {s t : State} (a : Keeps s t) : Lasts s t := ⟨a.part, a.sec, a.fuses, a.linkUp⟩

theorem Entered.lasts {d : DState} {s t : State} (a : Entered d s t) : Lasts s t :=
  ⟨(congrArg State.part a :), (congrArg State.sec a :), (congrArg (fun u => u.nor.fuses) a :), (congrArg (fun u => u.dev.linkUp) a :)⟩

theorem Stopped.lasts {k : Stop} {s t : State} (a : Stopped k s t) : Lasts s t :=
  ⟨(congrArg State.part a :), (congrArg State.sec a :), (congrArg (fun u => u.nor.fuses) a :), (congrArg (fun u => u.dev.linkUp) a :)⟩

theorem dropRequests_lasts (s : State) : Lasts s (dropRequests s) := ⟨rfl, rfl, rfl, rfl⟩

/-- A checkpoint given up with no stop in progress moves nothing on. -/
theorem failCkpt_keeps {s : State} (free : s.dev.stop = none) : Keeps s (failCkpt s) := by
  unfold failCkpt
  split
  · exact Keeps.refl s
  · next c _ =>
    extract_lets src s1
    have told : Keeps s s1 := Keeps.trans (t := { s with chk := { s.chk with now := none } }) ⟨rfl, rfl, rfl, rfl, rfl, rfl, rfl, rfl⟩
      (answerAskers_keeps _ _ _ _ _ _)
    have none_yet : s1.dev.stop = none := by
      have same := told.stop
      rw [free] at same
      simpa using same
    split
    · rw [stopOutcome, proceedStop_none _ (by simp [none_yet])]
      exact told.trans ⟨rfl, rfl, rfl, rfl, rfl, rfl, by simp [none_yet], rfl⟩
    · exact told

theorem dropServing_lasts (s : State) : Lasts s (dropServing s) := by
  unfold dropServing
  extract_lets s1 s2 s3
  have dropped : Lasts s s1 := (enterState_entered .starting s).lasts.trans (dropRequests_lasts _)
  have rolled : Keeps s1 s2 := ((settlePour_keeps _).trans (rerunSuspended_keeps _)).trans (rollBackOps_keeps _)
  have none_left : s1.dev.stop = none := rfl
  clear_value s1 s2
  have unbound : Keeps s1 (dropBinding { s2 with dev := { s2.dev with step := 5 } }) := by
    with_reducible apply Keeps.trans ?_ (dropBinding_keeps _)
    exact rolled.trans ⟨rfl, rfl, rfl, rfl, rfl, rfl, rfl, rfl⟩
  have still : (dropBinding { s2 with dev := { s2.dev with step := 5 } }).dev.stop = none := by
    have same := unbound.stop
    rw [none_left] at same
    simpa using same
  exact dropped.trans ((unbound.trans (failCkpt_keeps still)).trans (abandonTests_keeps _)).lasts

theorem orphanStop_lasts (s : State) : Lasts s (orphanStop s) := by
  have entered := enterStopping_stopped orphanEnd s
  unfold orphanStop
  extract_lets s1 hs
  have parked : Keeps s1 (forEach hs orphanPark s1) := forEach_keeps _ _ _ orphanPark_keeps
  have beside := forEach_rel Beside.refl Beside.trans orphanPark_beside hs s1
  have stop : (forEach hs orphanPark s1).dev.stop = some orphanEnd := (congrArg Dev.stop (beside.dev.trans entered.dev) :)
  have before : Lasts s (forEach hs orphanPark s1) := entered.lasts.trans parked.lasts
  generalize forEach hs orphanPark s1 = u at stop before
  refine before.trans ?_
  unfold stopCkpt
  split
  · exact ⟨rfl, rfl, rfl, rfl⟩
  · split
    · have told := answerAsker_keeps .checkFailed 0 0 0 .device u
      have still : (answerAsker .checkFailed 0 0 0 .device u).dev.stop = some orphanEnd := stop
      rw [stopOutcome_parks still rfl]
      exact ⟨told.part, told.sec, told.fuses, told.linkUp⟩
    · exact ⟨rfl, rfl, rfl, rfl⟩

/-- READY with a host link up; ORPHAN, or its end, without. -/
theorem enterServing_serves (s : State) : Lasts s (enterServing s) ∧ (s.dev.linkUp.any id = true → (enterServing s).dev.code = .ready) ∧
    (s.dev.linkUp.any id = false → (enterServing s).dev.code = .orphan ∨ (enterServing s).dev.code = .stopping) := by
  unfold enterServing
  split
  next up =>
    have entered := enterState_entered .ready s
    exact ⟨entered.lasts, fun _ => congrArg Dev.code entered.dev, fun down => by rw [up] at down; cases down⟩
  next down =>
    have entered := enterState_entered .orphan s
    refine ⟨?_, fun up => absurd up down, fun _ => ?_⟩
    · unfold enterOrphan
      dsimp only
      split
      · exact entered.lasts.trans (orphanStop_lasts _)
      · exact entered.lasts
    · unfold enterOrphan
      dsimp only
      split
      · exact .inr (orphanStop_parks _).1
      · exact .inl (congrArg Dev.code entered.dev)

theorem serveAgain_serves (s : State) : Lasts s (serveAgain s) ∧ (s.dev.linkUp.any id = true → (serveAgain s).dev.code = .ready) ∧
    (s.dev.linkUp.any id = false → (serveAgain s).dev.code = .orphan ∨ (serveAgain s).dev.code = .stopping) := by
  obtain ⟨lasts, ready, orphan⟩ := enterServing_serves { s with dev := { s.dev with step := 10 }, store := { s.store with clean := false } }
  have again : Keeps (enterServing { s with dev := { s.dev with step := 10 }, store := { s.store with clean := false } }) (serveAgain s) :=
    (resumeOps_keeps _).trans (takeUnconsumed_keeps _)
  rw [again.code]
  exact ⟨Lasts.trans ⟨lasts.part, lasts.sec, lasts.fuses, lasts.linkUp⟩ again.lasts, ready, orphan⟩

/-! ### The serving reset -/

theorem exec_serving_reset {n : Nat} {s : State} (long : 1000 ≤ n) (short : n < 10000000) (powered : s.pins.powerGood = true) :
    exec (.servingReset n) s = .next (servingReset s) := if_pos ⟨long, short, powered⟩

theorem servingReset_serves {s : State} (serves : s.dev.code = .ready ∨ s.dev.code = .orphan ∨ s.dev.code = .stopping) :
    servingReset s = serveAgain (dropServing s) := by
  unfold servingReset
  rcases serves with h | h | h <;> rw [h]

theorem servingReset_starting {s : State} (starts : s.dev.code = .starting) :
    servingReset s = if 5 ≤ s.dev.step then dropRequests (atStep 5 s) else s := by
  unfold servingReset
  rw [starts]

theorem servingReset_selfTest {s : State} (tests : s.dev.code = .selfTest) : servingReset s = dropRequests s := by
  unfold servingReset
  rw [tests]

theorem servingReset_halted {s : State} (halted : s.dev.code = .safeTalk ∨ s.dev.code = .stopped) : servingReset s = s := by
  unfold servingReset
  rcases halted with h | h <;> rw [h]

theorem dropRequests_fns (s : State) : ∀ f ∈ (dropRequests s).fns, f.mb.busy = false ∧ f.attest = none := by
  intro f hf
  obtain ⟨g, _, rfl⟩ := List.mem_map.mp hf
  refine ⟨?_, rfl⟩
  show (resetMb g.mb).busy = false
  unfold resetMb
  split
  · rfl
  · next idle => simpa using idle

/-- Settles O30: a package reset builds its state anew over what lasts; a serving reset acts by the device state. -/
theorem packageResetKeepsTheDurable : Obligations.PackageResetKeepsTheDurable := by
  unfold Obligations.PackageResetKeepsTheDurable
  refine ⟨fun c s powered cause => ?package, fun n s long short powered serves => ?serving, fun n s long short powered starts late => ?starting,
    fun n s long short powered tests => ?testing, fun n s still => ?still⟩
  case package =>
    have run : ∃ t, exec c s = .next t ∧ Restarted s t := by
      rcases cause with ⟨n, rfl, long⟩ | ⟨rail, mv, rfl, fitted, within_, out⟩
      · exact ⟨_, if_pos ⟨long, powered⟩, packageReset_restarted s⟩
      · exact ⟨_, (if_neg (by simp [fitted])).trans ((if_neg (by simp [within_])).trans (if_pos (by simp [powered, out]))), losePower_restarted rail s⟩
    obtain ⟨t, run, a⟩ := run
    exact ⟨t, run, a.code, a.step, a.powerGood, a.safeLow, a.sess, a.tens, a.models, a.sched, a.meters, a.nor, a.objs, a.groups, a.slot0, a.slot1,
      a.anchors, a.unlocks, a.shut, a.part⟩
  case serving =>
    have dropped := dropServing_lasts s
    obtain ⟨again, ready, orphan⟩ := serveAgain_serves (dropServing s)
    rw [dropped.linkUp] at ready orphan
    have lasts := dropped.trans again
    exact ⟨_, (exec_serving_reset long short powered).trans (congrArg _ (servingReset_serves serves)), ready, orphan, lasts.sec, lasts.fuses, lasts.part⟩
  case starting =>
    exact ⟨_, (exec_serving_reset long short powered).trans (congrArg _ ((servingReset_starting starts).trans (if_pos late))), rfl, rfl, rfl,
      dropRequests_fns _, rfl⟩
  case testing =>
    exact ⟨_, (exec_serving_reset long short powered).trans (congrArg _ (servingReset_selfTest tests)), rfl, rfl, rfl, dropRequests_fns s, rfl⟩
  case still =>
    have stays : servingReset s = s := by
      rcases still with h | h | ⟨starts, early⟩
      · exact servingReset_halted (.inl h)
      · exact servingReset_halted (.inr h)
      · exact (servingReset_starting starts).trans (if_neg (by omega))
    show (if _ then Host.Outcome.next (servingReset s) else _) = _
    rw [stays, ite_self]

end Sys2Proof.Machine
end

section
/-! The end of a self-test: of a start, which goes on, and of an orderly shutdown, which it closes (R486, R530, R536, R541). -/

namespace Sys2Proof.Machine

/-! ### SAFE_TALK and READY entered -/

theorem enterState_low {d : DState} {s : State} (new : s.dev.code ≠ d) : (enterState d s).pins.safeLow = (d == .safeTalk) := by
  unfold enterState
  rw [if_neg new]
  exact (fireState_keeps _).safeLow

/-- SAFE_TALK entered from another state (R542): SAFE_N is low, and of the rest the functions, the signals and the hubs' seeds alone may change. -/
theorem enterSafeTalk_frame {s : State} (new : s.dev.code ≠ .safeTalk) :
    let t := enterSafeTalk s
    t = { s with dev := { s.dev with code := .safeTalk, hubs := t.dev.hubs }, pins := { s.pins with safeLow := true }, fns := t.fns, outs := t.outs } := by
  have entered := enterState_entered .safeTalk s
  rw [Entered, enterState_low new] at entered
  unfold enterSafeTalk
  dsimp only
  split
  · rw [entered]
    rfl
  · rw [entered]
    rfl

/-- The record of a start confirmed, with its fuses raised (R486). -/
theorem confirmStart_frame (s : State) : confirmStart s = { s with nor := (confirmStart s).nor } ∧
    (confirmStart s).nor.fuses = max s.nor.fuses ((s.dev.image.map Image.securityVersion).getD 0) := by
  unfold confirmStart
  dsimp only
  refine ⟨?_, (hrRewrite_keeps _ _).fuses⟩
  rw [hrRewrite_frame]

/-- The state in which step 10 enters service. -/
def confirmed (s : State) : State :=
  { confirmStart (atStep 10 s) with store := { (confirmStart (atStep 10 s)).store with clean := false } }

theorem confirmed_eq (s : State) : ∃ n, confirmed s = { s with dev := { s.dev with step := 10 }, nor := n, store := { s.store with clean := false } } ∧
    n.fuses = max s.nor.fuses ((s.dev.image.map Image.securityVersion).getD 0) := by
  obtain ⟨frame, fuses⟩ := confirmStart_frame (atStep 10 s)
  refine ⟨_, ?_, fuses⟩
  unfold confirmed
  rw [frame]
  rfl

/-- With nothing held and a link up, step 10 enters READY and is done. -/
theorem finishStart_quiet {s : State} (shuts : s.dev.heldShut = []) (stops : s.dev.heldStop = []) (up : s.dev.linkUp.any id = true) :
    Keeps (enterState .ready (confirmed s)) (finishStart s) := by
  obtain ⟨n, eq, _⟩ := confirmed_eq s
  have entered := enterState_entered .ready (confirmed s)
  have serves : enterServing (confirmed s) = enterState .ready (confirmed s) := if_pos (by rw [eq]; exact up)
  have no_shuts : (enterState .ready (confirmed s)).dev.heldShut = [] := (congrArg Dev.heldShut entered.dev).trans (by rw [eq]; exact shuts)
  have no_stops : (enterState .ready (confirmed s)).dev.heldStop = [] := (congrArg Dev.heldStop entered.dev).trans (by rw [eq]; exact stops)
  have run : finishStart s = applyAsks false none (drainAll (enterServing (confirmed s) |> fun s2 =>
      forEach s2.dev.heldStop noticeStop (forEach s2.dev.heldShut actHeld { s2 with dev := { s2.dev with heldShut := [], heldStop := [] } }))) := rfl
  rw [run, serves]
  dsimp only
  rw [no_shuts, no_stops]
  refine Keeps.trans ?_ ((drainAll_keeps _).trans (applyAsks_keeps _ _ _))
  exact ⟨rfl, rfl, rfl, rfl, rfl, rfl, rfl, rfl⟩

/-! ### The answers of a stop -/

/-- The answer of a SHUTDOWN at the end of its stop (R541). -/
def stopAnswer (k : Stop) (result : Nat) : List Byte := leBytes 8 k.number ++ leBytes 1 result

/-- A mailbox that waits for the answer to `q`. -/
def Awaits (q : Open) (s : State) : Prop := (fnOf s q.fn).mb.busy = true ∧ (fnOf s q.fn).mb.gen = q.gen

/-- A mailbox that holds the DONE answer to `q`. -/
def HasDone (q : Open) (payload : List Byte) (s : State) : Prop :=
  (fnOf s q.fn).mb.busy = false ∧ (fnOf s q.fn).mb.done = true ∧
    (fnOf s q.fn).mb.response = some { outcome := .done, op := q.op, tag := q.tag, payload := payload }

theorem answerMb_hasDone {q : Open} {s : State} (waits : Awaits q s) (payload : List Byte) : HasDone q payload (answerMb q .done payload s) := by
  have answered := answerMb_mb q .done payload s waits.1 waits.2
  unfold HasDone
  rw [answered]
  exact ⟨rfl, rfl, rfl⟩

/-- Requests of different functions are answered without touching one another's. -/
theorem answerAll_others {l : List Open} {fn : Nat} (apart : fn ∉ l.map Open.fn) (payload : List Byte) (s : State) :
    fnOf (forEach l (fun q u => answerMb q .done payload u) s) fn = fnOf s fn := by
  induction l generalizing s with
  | nil => rfl
  | cons a l ih =>
    rw [List.map_cons, List.mem_cons, not_or] at apart
    exact (ih apart.2 _).trans (fnOf_answerMb_other apart.1 _ _ s)

theorem answerAll_hasDone {l : List Open} (once : (l.map Open.fn).Nodup) (payload : List Byte) {q : Open} (listed : q ∈ l) {s : State}
    (waits : Awaits q s) : HasDone q payload (forEach l (fun q u => answerMb q .done payload u) s) := by
  induction l generalizing s with
  | nil => cases listed
  | cons a l ih =>
    obtain ⟨absent, rest⟩ := List.nodup_cons.mp once
    rcases List.mem_cons.mp listed with rfl | later
    · have answered := answerMb_hasDone waits payload
      unfold HasDone at answered ⊢
      show (fnOf (forEach l (fun q u => answerMb q .done payload u) (answerMb q .done payload s)) q.fn).mb.busy = false ∧ _
      rw [show fnOf (forEach (q :: l) (fun q u => answerMb q .done payload u) s) q.fn = _ from answerAll_others absent payload (answerMb q .done payload s),
        answerAll_others absent]
      exact answered
    · have apart : q.fn ≠ a.fn := fun e => absent (e ▸ List.mem_map_of_mem later)
      have still : Awaits q (answerMb a .done payload s) := by
        unfold Awaits
        rw [fnOf_answerMb_other apart]
        exact waits
      exact ih rest later still

/-! ### The stop closed -/

/-- The record of an orderly shutdown at its end (R491). -/
def stopRecord (k : Stop) (result : Nat) (findings : List Finding) (r : HealthRec) : HealthRec :=
  { r with clean := k.ckptOk, selfPassed := result == 1, findings := findings }

/-- The state in which an orderly shutdown's requests have been answered. -/
def stopAnswered (result : Nat) (findings : List Finding) (k : Stop) (s : State) : State :=
  forEach k.answers (fun q u => answerMb q .done (stopAnswer k result) u) (hrRewrite (stopRecord k result findings) s)

/-- The state in which an orderly shutdown has stopped. -/
def stopEntered (result : Nat) (findings : List Finding) (k : Stop) (s : State) : State :=
  enterState .stopped { stopAnswered result findings k s with dev := { (stopAnswered result findings k s).dev with stop := none } }

theorem closeStop_orderly {k : Stop} (orderly : k.orderly = true) (result : Nat) (findings : List Finding) (s : State) :
    closeStop result findings k s =
      if k.thenReset then packageReset (stopEntered result findings k s) else stopEntered result findings k s := by
  unfold closeStop
  dsimp only
  rw [orderly]
  rfl

theorem stopEntered_frame (result : Nat) (findings : List Finding) (k : Stop) (s : State) :
    (stopEntered result findings k s).dev = { s.dev with code := .stopped, stop := none } ∧
      (stopEntered result findings k s).nor = (hrRewrite (stopRecord k result findings) s).nor := by
  have told := forEach_signals k.answers (fun q u => answerMb q .done (stopAnswer k result) u) (hrRewrite (stopRecord k result findings) s)
    fun q u => answerMb_signals q .done _ u
  have entered := enterState_entered .stopped
    { stopAnswered result findings k s with dev := { (stopAnswered result findings k s).dev with stop := none } }
  have dev : (stopAnswered result findings k s).dev = s.dev := ((congrArg State.dev told :) : _ = _).trans (by rw [hrRewrite_frame])
  exact ⟨entered.dev.trans (by rw [dev]), ((congrArg State.nor entered :) : _ = _).trans (congrArg State.nor told :)⟩

theorem fnOf_enterState_mb (d : DState) (fn : Nat) (s : State) : (fnOf (enterState d s) fn).mb = (fnOf s fn).mb := by
  unfold enterState
  split
  · rfl
  · exact fnOf_fireState_mb fn _

theorem stopEntered_answers {k : Stop} (once : (k.answers.map Open.fn).Nodup) (result : Nat) (findings : List Finding) {s : State} {q : Open}
    (listed : q ∈ k.answers) (waits : Awaits q s) : HasDone q (stopAnswer k result) (stopEntered result findings k s) := by
  have waits' : Awaits q (hrRewrite (stopRecord k result findings) s) := by
    unfold Awaits
    rw [hrRewrite_frame]
    exact waits
  have answered := answerAll_hasDone once (stopAnswer k result) listed waits'
  unfold HasDone at answered ⊢
  rw [stopEntered, fnOf_enterState_mb]
  exact answered

/-! ### The self-test's end -/

/-- Findings noted in the log (R541). -/
def findingsNoted (findings : List Finding) (s : State) : State := forEach findings (fun f u => note (leadDie u) (findingData f) u) s

theorem findingsNoted_frame (findings : List Finding) (s : State) :
    let t := findingsNoted findings s
    t.nor = s.nor ∧ t.dev.stop = s.dev.stop ∧ t.dev.code = s.dev.code ∧ t.fns = s.fns := by
  exact forEach_rel (R := fun a b : State => b.nor = a.nor ∧ b.dev.stop = a.dev.stop ∧ b.dev.code = a.dev.code ∧ b.fns = a.fns)
    (fun _ => ⟨rfl, rfl, rfl, rfl⟩) (fun ⟨n, p, c, f⟩ ⟨n', p', c', f'⟩ => ⟨n'.trans n, p'.trans p, c'.trans c, f'.trans f⟩)
    (f := fun f u => note (leadDie u) (findingData f) u) (fun _ _ => ⟨rfl, rfl, rfl, rfl⟩) findings s

/-- The findings of a start's self-test acted on, after those that the last shutdown recorded. -/
def findingsApplied (findings : List Finding) (s : State) : State :=
  applyFindings ((((hrGoverning s.nor).map HealthRec.findings).getD []) ++ findings) (hrRewrite (fun h => { h with findings := [] }) s)

theorem exec_start_test {findings : List Finding} {obs : StartObs} {s : State} (tests : s.dev.code = .selfTest) :
    exec (.selfTestEnd findings obs) s = .next (if fatalNow (findingsApplied findings s) then enterSafeTalk (findingsApplied findings s)
      else completeStart obs (settleLead (findingsApplied findings s))) := by
  have kept : (hrGoverning s.nor).elim [] HealthRec.findings = ((hrGoverning s.nor).map HealthRec.findings).getD [] := by
    cases hrGoverning s.nor <;> rfl
  show execSelfTestEnd findings obs s = _
  unfold execSelfTestEnd
  rw [tests]
  dsimp only
  rw [kept]
  exact (apply_ite Host.Outcome.next _ _ _).symm

theorem findingsApplied_code {findings : List Finding} {s : State} (tests : s.dev.code = .selfTest) :
    (findingsApplied findings s).dev.code = .selfTest :=
  ((applyFindings_steady _ _).2 (by rw [(hrRewrite_keeps _ s).code, tests]; decide)).trans ((hrRewrite_keeps _ s).code.trans tests)

theorem exec_stop_test {findings : List Finding} {obs : StartObs} {s : State} {k : Stop} (stopping : s.dev.code = .stopping) (stop : s.dev.stop = some k)
    (tests : k.selfTest = true) (done : k.ckptDone = true) (parked : k.parks = false) :
    exec (.selfTestEnd findings obs) s = .next (closeStop (if findings.isEmpty then 1 else 2) findings k (findingsNoted findings s)) := by
  show execSelfTestEnd findings obs s = _
  unfold execSelfTestEnd
  rw [stopping]
  dsimp only
  rw [stop]
  exact if_pos (by simp [tests, done, parked])

/-- Settles O32: a start goes on by `completeStart`, and an orderly shutdown closes by `closeStop`, whose parts each lemma says. -/
theorem selfTestEndGoesOn : Obligations.SelfTestEndGoesOn := by
  unfold Obligations.SelfTestEndGoesOn
  refine ⟨fun findings obs s u tests applied => ?start, fun u shuts stops up => ?ready,
    fun findings obs s k stopping stop tests done parked orderly once => ?closes⟩
  case start =>
    obtain rfl : u = findingsApplied findings s := applied
    have run := exec_start_test (findings := findings) (obs := obs) tests
    refine ⟨fun fatal => ?_, fun whole => run.trans (by simp [whole])⟩
    have frame := enterSafeTalk_frame (s := findingsApplied findings s) (by rw [findingsApplied_code tests]; decide)
    exact ⟨_, run.trans (congrArg _ (if_pos fatal)), (congrArg (fun t => t.dev.code) frame :), (congrArg (fun t => t.pins.safeLow) frame :)⟩
  case ready =>
    have kept := finishStart_quiet shuts stops up
    obtain ⟨n, eq, fuses⟩ := confirmed_eq u
    have entered := enterState_entered .ready (confirmed u)
    refine ⟨kept.code.trans (congrArg Dev.code entered.dev), kept.safeLow.trans ?_, kept.fuses.trans ?_⟩
    · have code : (confirmed u).dev.code = u.dev.code := by rw [eq]
      by_cases already : u.dev.code = .ready
      · rw [if_pos already, enterState, if_pos (code.trans already), eq]
      · rw [if_neg already, enterState_low (by rw [code]; exact already)]
        rfl
    · rw [(congrArg (fun t => t.nor.fuses) entered :), eq]
      exact fuses
  case closes =>
    obtain ⟨nor, stop', code', fns⟩ := findingsNoted_frame findings s
    have result : (if findings.isEmpty then 1 else 2) = if findings = [] then 1 else 2 := by simp
    have run := (exec_stop_test (findings := findings) (obs := obs) stopping stop tests done parked).trans
      (congrArg _ (closeStop_orderly orderly _ findings _))
    rw [result] at run
    obtain ⟨dev, record⟩ := stopEntered_frame (if findings = [] then 1 else 2) findings k (findingsNoted findings s)
    have answers := fun q (listed : q ∈ k.answers) => stopEntered_answers once (if findings = [] then 1 else 2) findings
      (s := findingsNoted findings s) listed
    have governs : (hrGoverning s.nor).isSome = true → ∃ h, hrGoverning (stopEntered (if findings = [] then 1 else 2) findings k
        (findingsNoted findings s)).nor = some h ∧ h.findings = findings ∧ h.clean = k.ckptOk ∧ h.selfPassed = decide (findings = []) := fun some_ => by
      obtain ⟨r, hr⟩ := Option.isSome_iff_exists.mp some_
      refine ⟨_, by rw [record]; exact hrGoverning_hrRewrite (by rw [nor]; exact hr) _, rfl, rfl, ?_⟩
      show ((if findings = [] then 1 else 2) == 1) = _
      split <;> simp_all
    generalize stopEntered (if findings = [] then 1 else 2) findings k (findingsNoted findings s) = t at run dev answers governs
    cases again : k.thenReset with
    | true =>
      obtain restarted := packageReset_restarted t
      rw [again, if_pos rfl] at run
      refine ⟨_, run, restarted.code, restarted.stop, fun no => (by cases no), fun some_ => ?_⟩
      rw [show (packageReset t).nor = t.nor from restarted.nor]
      exact governs some_
    | false =>
      rw [again] at run
      refine ⟨t, run, congrArg Dev.code dev, congrArg Dev.stop dev, fun _ q listed busy gen => answers q listed ?_, governs⟩
      have same : fnOf (findingsNoted findings s) q.fn = fnOf s q.fn := by rw [fnOf, fns, fnOf]
      exact ⟨by rw [same]; exact busy, by rw [same]; exact gen⟩

end Sys2Proof.Machine
end

section
/-! Power good: the start from the slot that the health record names, SAFE_TALK where there is none, and hub B's takeover of the NOR
(R31, R50, R487, R491, R492, R530, R533, R568, R593). -/

namespace Sys2Proof.Machine

/-! ### Firmware loaded -/

theorem forall_modify {α : Type} {P : α → Prop} {l : List α} {f : α → α} (all : ∀ x ∈ l, P x) (turns : ∀ x, P x → P (f x)) (n : Nat) :
    ∀ x ∈ l.modify n f, P x := by
  intro x hx
  obtain ⟨i, hi⟩ := List.mem_iff_getElem?.mp hx
  rw [List.getElem?_modify] at hi
  obtain ⟨y, hy, rfl⟩ := Option.map_eq_some_iff.mp hi
  have here := all y (List.mem_of_getElem? hy)
  split
  · exact turns y here
  · exact here

/-- Hubs that run the firmware of a slot. -/
def HubsRun (slot : Nat) (s : State) : Prop := ∀ h ∈ s.dev.hubs, h.image = slot

theorem deriveAlias_runs {slot : Nat} {s : State} (runs : HubsRun slot s) (hub : Nat) : HubsRun slot (deriveAlias hub s) :=
  forall_modify (P := fun h : Hub => h.image = slot) (f := fun h => { h with seed := aliasSeed s }) runs (fun _ here => here) hub

theorem loadFirmware_runs (slot : Nat) (im : Image) (s : State) : HubsRun slot (loadFirmware slot im s) := by
  refine deriveAlias_runs (deriveAlias_runs (fun h hh => ?_) 0) 1
  obtain ⟨x, _, rfl⟩ := List.mem_map.mp hh
  rfl

theorem loadFirmware_frame (slot : Nat) (im : Image) (s : State) :
    let t := loadFirmware slot im s
    t = { s with dev := { s.dev with image := some im, slot := slot, step := 5, hubs := t.dev.hubs }, pins := { s.pins with aliveLow := t.pins.aliveLow } } := rfl

/-! ### The record rewritten -/

theorem rewriteRecord_frame (slot : Nat) (im : Image) (r : HealthRec) (s : State) :
    let t := rewriteRecord slot im r s
    t = { s with nor := t.nor, dev := { s.dev with nextSerial := r.serialEnd + 1, serialEnd := r.serialEnd + 16777216 } } ∧ t.nor.fuses = s.nor.fuses := by
  unfold rewriteRecord
  dsimp only
  refine ⟨?_, (hrRewrite_keeps _ _).fuses⟩
  rw [hrRewrite_frame]
  rfl

theorem rewriteRecord_governs {s : State} {r : HealthRec} (hr : hrGoverning s.nor = some r) (slot : Nat) (im : Image) :
    ∃ h, hrGoverning (rewriteRecord slot im r s).nor = some h ∧ h.serialEnd = r.serialEnd + 16777216 ∧ h.clean = false ∧ h.selfPassed = false ∧
      h.sequence = r.sequence + 1 :=
  ⟨_, hrGoverning_hrRewrite hr _, rfl, rfl, rfl, rfl⟩

/-! ### Steps 2 to 5 -/

/-- The state after step 3, in which a slot fallen back to, or a failed trial, has been logged. -/
def slotLogged (slot : Nat) (fell : Bool) (r : HealthRec) (s : State) : State :=
  let s1 : State := { s with dev := { s.dev with powered := max s.dev.powered r.powered, quick := r.clean && r.selfPassed } }
  if fell || trialFailed r then note (leadDie s1) slot s1 else s1

/-- The state after step 5 (R530). -/
def booted (slot : Nat) (fell : Bool) (im : Image) (r : HealthRec) (s : State) : State :=
  let s3 := loadFirmware slot im (rewriteRecord slot im r (slotLogged slot fell r s))
  { s3 with links := { s3.links with ports := boardPorts s3.part im.board } }

theorem bootStart_boots {s : State} {r : HealthRec} {slot : Nat} {fell : Bool} {im : Image} (hr : hrGoverning s.nor = some r)
    (chosen : chooseSlot s r = some (slot, fell)) (image : slotImage s slot = some im) (obs : StartObs) :
    bootStart obs s = if r.clean && r.selfPassed then completeStart obs (booted slot fell im r s)
      else enterState .selfTest (atStep 6 (booted slot fell im r s)) := by
  unfold bootStart
  rw [hr]
  dsimp only
  rw [chosen]
  dsimp only
  rw [image]
  rfl

/-- What step 5 has reached from `s`. -/
structure Booted (slot : Nat) (im : Image) (r : HealthRec) (s t : State) : Prop where
  dev : ∃ d : Dev, t.dev = { d with image := some im, slot := slot, step := 5, nextSerial := r.serialEnd + 1, serialEnd := r.serialEnd + 16777216 } ∧
    d.leading = s.dev.leading ∧ d.code = s.dev.code
  powerGood : t.pins.powerGood = s.pins.powerGood
  runs : HubsRun slot t
  sess : t.sess = s.sess
  fuses : t.nor.fuses = s.nor.fuses
  governs : ∃ h, hrGoverning t.nor = some h ∧ h.serialEnd = r.serialEnd + 16777216 ∧ h.clean = false ∧ h.selfPassed = false ∧
    h.sequence = r.sequence + 1

theorem slotLogged_frame (slot : Nat) (fell : Bool) (r : HealthRec) (s : State) :
    let t := slotLogged slot fell r s
    t.dev.leading = s.dev.leading ∧ t.dev.code = s.dev.code ∧ t.pins = s.pins ∧ t.sess = s.sess ∧ t.nor = s.nor := by
  unfold slotLogged
  dsimp only
  split <;> exact ⟨rfl, rfl, rfl, rfl, rfl⟩

theorem booted_booted {s : State} {r : HealthRec} (hr : hrGoverning s.nor = some r) (slot : Nat) (fell : Bool) (im : Image) :
    Booted slot im r s (booted slot fell im r s) := by
  obtain ⟨leading, code, pins, sess, nor⟩ := slotLogged_frame slot fell r s
  have runs := loadFirmware_runs slot im (rewriteRecord slot im r (slotLogged slot fell r s))
  obtain ⟨frame, fuses⟩ := rewriteRecord_frame slot im r (slotLogged slot fell r s)
  have governs := rewriteRecord_governs (s := slotLogged slot fell r s) (by rw [nor]; exact hr) slot im
  unfold booted
  generalize slotLogged slot fell r s = v at *
  generalize rewriteRecord slot im r v = u at *
  have loaded := loadFirmware_frame slot im u
  generalize loadFirmware slot im u = t at *
  have dev : t.dev = { u.dev with image := some im, slot := slot, step := 5, hubs := t.dev.hubs } := (congrArg State.dev loaded :)
  have nor' : t.nor = u.nor := (congrArg State.nor loaded :)
  have udev : u.dev = { v.dev with nextSerial := r.serialEnd + 1, serialEnd := r.serialEnd + 16777216 } := (congrArg State.dev frame :)
  refine ⟨⟨{ v.dev with hubs := t.dev.hubs }, ?_, leading, code⟩, ?_, runs, ?_, ?_, ?_⟩
  · show t.dev = _
    rw [dev, udev]
  · show t.pins.powerGood = _
    rw [(congrArg (fun w => w.pins.powerGood) loaded : t.pins.powerGood = u.pins.powerGood),
      (congrArg (fun w => w.pins.powerGood) frame : u.pins.powerGood = v.pins.powerGood), pins]
  · exact ((congrArg State.sess loaded).trans (congrArg State.sess frame :)).trans sess
  · show t.nor.fuses = _
    rw [nor', fuses, nor]
  · show ∃ h, hrGoverning t.nor = some h ∧ _
    rw [nor']
    exact governs

/-! ### The slot chosen -/

/-- The slot that a start tries first (R492). -/
def firstSlot (r : HealthRec) : Nat := if r.trial && r.tried then r.goodSlot else r.nextSlot

theorem chooseSlot_finds {s : State} {r : HealthRec} {slot : Nat} (good : slotOk s (slotImage s slot) = true)
    (named : slot = firstSlot r ∨ (slot = otherSlot (firstSlot r) ∧ slotOk s (slotImage s (firstSlot r)) = false)) :
    ∃ fell, chooseSlot s r = some (slot, fell) := by
  unfold chooseSlot
  show ∃ fell, (if slotOk s (slotImage s (firstSlot r)) = true then some (firstSlot r, false) else _) = _
  rcases named with rfl | ⟨rfl, bad⟩
  · exact ⟨false, if_pos good⟩
  · exact ⟨true, (if_neg (by simp [bad])).trans (if_pos good)⟩

theorem slotImage_cases (s : State) (slot : Nat) : slotImage s slot = s.nor.slotA ∨ slotImage s slot = s.nor.slotB := by
  unfold slotImage
  split
  · exact .inl rfl
  · exact .inr rfl

theorem chooseSlot_none {s : State} (badA : slotOk s s.nor.slotA = false) (badB : slotOk s s.nor.slotB = false) (r : HealthRec) :
    chooseSlot s r = none := by
  have bad : ∀ slot, slotOk s (slotImage s slot) = false := fun slot => by
    rcases slotImage_cases s slot with h | h <;> rw [h] <;> assumption
  unfold chooseSlot
  dsimp only
  rw [if_neg (by simp [bad]), if_neg (by simp [bad])]

/-- With no valid record or slot a start ends in SAFE_TALK, at the step it has reached. -/
theorem bootStart_fails {s : State} (none_found : hrGoverning s.nor = none ∨
      ∃ r, hrGoverning s.nor = some r ∧ slotOk s s.nor.slotA = false ∧ slotOk s s.nor.slotB = false) (obs : StartObs) :
    ∃ n, bootStart obs s = enterSafeTalk (atStep n s) := by
  unfold bootStart
  rcases none_found with hr | ⟨r, hr, badA, badB⟩
  · rw [hr]
    exact ⟨2, rfl⟩
  · rw [hr]
    dsimp only
    rw [chooseSlot_none badA badB]
    exact ⟨3, rfl⟩

/-! ### Power good -/

/-- The state at step 2, power good having been read. -/
def powered (s : State) : State := atStep 2 { s with pins := { s.pins with powerGood := true } }

theorem exec_power_good {s : State} (starts : s.dev.code = .starting) (cold : s.pins.powerGood = false) (obs : StartObs) :
    exec (.powerGood obs) s = .next (if obs.norReadable then bootStart obs (powered s) else if s.part = .tsn8840 then powered s else enterSafeTalk (powered s)) := by
  refine (if_neg (by simp [starts, cold])).trans ?_
  show (if obs.norReadable = true then Host.Outcome.next (bootStart obs (powered s)) else if s.part = .tsn8840 then .next (powered s)
    else .next (enterSafeTalk (powered s))) = _
  split
  · rfl
  · split <;> rfl

/-- The state in which hub B leads the start. -/
def ledByB (s : State) : State := { s with dev := { s.dev with leading := 1 } }

theorem exec_nor_takeover {s : State} (starts : s.dev.code = .starting) (warm : s.pins.powerGood = true) (waits : s.dev.step = 2)
    (part : s.part = .tsn8840) (serves : s.sec.serveNot = false) (obs : StartObs) :
    exec (.norTakeoverHubB obs) s = .next (if obs.norReadable then bootStart obs (ledByB s) else enterSafeTalk (ledByB s)) := by
  refine (if_pos ⟨part, warm, starts, waits, serves⟩).trans ?_
  exact (apply_ite Host.Outcome.next _ _ _).symm

/-- The self-test entered at step 6. -/
theorem selfTest_entered {slot : Nat} {im : Image} {r : HealthRec} {s t : State} (b : Booted slot im r s t) :
    let u := enterState .selfTest (atStep 6 t)
    u.dev.code = .selfTest ∧ u.dev.step = 6 ∧ u.pins.powerGood = s.pins.powerGood ∧ u.dev.image = some im ∧ u.dev.slot = slot ∧
      u.dev.nextSerial = r.serialEnd + 1 ∧ u.dev.serialEnd = r.serialEnd + 16777216 ∧ u.dev.leading = s.dev.leading ∧ u.nor = t.nor ∧
      HubsRun slot u ∧ u.sess = s.sess := by
  have entered := enterState_entered .selfTest (atStep 6 t)
  obtain ⟨d, dev, leading, _⟩ := b.dev
  have udev : (enterState .selfTest (atStep 6 t)).dev = { t.dev with step := 6, code := .selfTest } := entered.dev
  refine ⟨congrArg Dev.code udev, congrArg Dev.step udev, ?_, ?_, ?_, ?_, ?_, ?_, (congrArg State.nor entered :), ?_, ?_⟩
  · exact ((congrArg (fun w => w.pins.powerGood) entered :) : _ = t.pins.powerGood).trans b.powerGood
  · rw [udev, dev]
  · rw [udev, dev]
  · rw [udev, dev]
  · rw [udev, dev]
  · rw [udev, dev]
    exact leading
  · unfold HubsRun
    rw [udev]
    exact b.runs
  · exact ((congrArg State.sess entered :) : _ = t.sess).trans b.sess

/-- Settles O31: the record and the slots decide between the start of one slot and SAFE_TALK, by hub A or by hub B. -/
theorem powerGoodStartsThePackage : Obligations.PowerGoodStartsThePackage := by
  unfold Obligations.PowerGoodStartsThePackage
  refine ⟨fun obs s r im slot first starts readable hr hfirst image good named => ?found, fun obs s starts cold readable none_found => ?failed,
    fun obs s starts cold unreadable => ?unread, fun obs s starts warm waits part serves unreadable => ?unreadB⟩
  case found =>
    obtain rfl : first = firstSlot r := hfirst
    rw [← image] at good
    refine ⟨fun cold quick => ?_, fun cold slow => ?_, fun warm slow part waits serves => ?_⟩
    · obtain ⟨fell, chosen⟩ := chooseSlot_finds (s := powered s) good named
      have b := booted_booted (s := powered s) hr slot fell im
      obtain ⟨d, dev, _⟩ := b.dev
      obtain ⟨h, governs, serial, clean, passed, _⟩ := b.governs
      refine ⟨_, ?_, ?_, b.powerGood, ?_, ?_, ?_, b.fuses, b.runs, b.sess, h, governs, serial, clean, passed⟩
      · rw [exec_power_good starts cold, if_pos readable, bootStart_boots (s := powered s) hr chosen image, if_pos quick]
      all_goals rw [dev]
    · obtain ⟨fell, chosen⟩ := chooseSlot_finds (s := powered s) good named
      have b := booted_booted (s := powered s) hr slot fell im
      obtain ⟨code, step, power, image', slot', next, serial, _, nor, runs, sess⟩ := selfTest_entered b
      refine ⟨_, ?_, code, step, power, image', slot', next, serial, by rw [nor]; exact b.governs, by rw [nor]; exact b.fuses, runs, sess⟩
      rw [exec_power_good starts cold, if_pos readable, bootStart_boots (s := powered s) hr chosen image, if_neg (by simp [slow])]
    · obtain ⟨fell, chosen⟩ := chooseSlot_finds (s := ledByB s) good named
      have b := booted_booted (s := ledByB s) hr slot fell im
      obtain ⟨code, step, _, image', slot', next, _, leading, nor, _, _⟩ := selfTest_entered b
      refine ⟨_, ?_, code, step, leading, image', slot', next, by rw [nor]; exact b.fuses⟩
      rw [exec_nor_takeover starts warm waits part serves, if_pos readable, bootStart_boots (s := ledByB s) hr chosen image, if_neg (by simp [slow])]
  case failed =>
    obtain ⟨n, fails⟩ := bootStart_fails (s := powered s) none_found obs
    have frame := enterSafeTalk_frame (s := atStep n (powered s)) (by rw [show (atStep n (powered s)).dev.code = .starting from starts]; decide)
    refine ⟨_, (exec_power_good starts cold obs).trans (congrArg _ ((if_pos readable).trans fails)), (congrArg (fun t => t.dev.code) frame :),
      (congrArg (fun t => t.pins.safeLow) frame :), (congrArg State.nor frame :)⟩
  case unread =>
    have run := (exec_power_good starts cold obs).trans (congrArg _ (if_neg (by simp [unreadable])))
    by_cases part : s.part = .tsn8840
    · rw [if_pos part] at run
      exact ⟨_, run, rfl, rfl, by rw [if_pos part]; exact starts⟩
    · have frame := enterSafeTalk_frame (s := powered s) (by rw [show (powered s).dev.code = .starting from starts]; decide)
      rw [if_neg part] at run
      exact ⟨_, run, (congrArg (fun t => t.pins.powerGood) frame :), (congrArg (fun t => t.dev.step) frame :),
        by rw [if_neg part]; exact (congrArg (fun t => t.dev.code) frame :)⟩
  case unreadB =>
    have frame := enterSafeTalk_frame (s := ledByB s) (by rw [show (ledByB s).dev.code = .starting from starts]; decide)
    exact ⟨_, (exec_nor_takeover starts warm waits part serves obs).trans (congrArg _ (if_neg (by simp [unreadable]))),
      (congrArg (fun t => t.dev.code) frame :), (congrArg (fun t => t.dev.leading) frame :)⟩

end Sys2Proof.Machine
end

section
/-! Event controllers: what a change of a source, of deliver or of a core's wait comes to (R509, R522 to R527). -/

namespace Sys2Proof.Machine

/-! ### Sources put in place -/

theorem srcOf_num (c : Core) (n : Nat) : (srcOf c n).num = n := by
  unfold srcOf
  cases h : findKey EvSrc.num n c.srcs with
  | none => rfl
  | some x => exact (findKey_some h).1

theorem srcOf_setSrc (x : EvSrc) (c : Core) (k : Nat) : srcOf (setSrc x c) k = if k = x.num then x else srcOf c k := by
  unfold srcOf setSrc
  dsimp only
  rw [findKey_upsert]
  split <;> rfl

theorem mem_setSrc {x y : EvSrc} {c : Core} : y ∈ (setSrc x c).srcs ↔ y = x ∨ (y ∈ c.srcs ∧ y.num ≠ x.num) := by
  unfold setSrc upsert updKey
  dsimp only
  split
  next any =>
    rw [List.mem_map]
    constructor
    · rintro ⟨z, hz, rfl⟩
      split
      · exact .inl rfl
      · next other => exact .inr ⟨hz, other⟩
    · rintro (rfl | ⟨hy, other⟩)
      · obtain ⟨z, hz, same⟩ := List.any_eq_true.mp any
        exact ⟨z, hz, if_pos (by simpa using same)⟩
      · exact ⟨y, hy, if_neg other⟩
  next none =>
    have absent : ∀ z ∈ c.srcs, z.num ≠ x.num := by simpa using none
    rw [List.mem_append, List.mem_singleton]
    exact ⟨fun h => h.elim (fun hy => .inr ⟨hy, absent y hy⟩) .inl, fun h => h.elim .inr fun hy => .inl hy.1⟩

/-- The source of a number stands alone under it. -/
def SoleSrc (n : Nat) (c : Core) : Prop := ∀ y ∈ c.srcs, y.num = n → y = srcOf c n

theorem setSrc_soleSrc {x : EvSrc} {n : Nat} (named : x.num = n) (c : Core) : SoleSrc n (setSrc x c) := by
  subst named
  intro y hy named
  rw [srcOf_setSrc, if_pos rfl]
  exact (mem_setSrc.mp hy).resolve_right fun h => h.2 named

/-! ### The controller's choice -/

/-- No source is ready. -/
def NoneReady (c : Core) : Prop := ∀ y ∈ c.srcs, srcReady y = false

theorem settleCore_idle {c : Core} (idle : NoneReady c) : settleCore c = c := by
  unfold settleCore
  rcases winner_cases c with ⟨_, lost⟩ | ⟨x, _, mem, _⟩
  · rw [lost]
  · obtain ⟨listed, ready⟩ := List.mem_filter.mp mem
    exact absurd ready (by simp [idle x listed])

/-- With a source ready, the core wakes, and takes one of them where it can. -/
theorem settleCore_ready {c : Core} {y : EvSrc} (listed : y ∈ c.srcs) (ready : srcReady y = true) : ∃ x ∈ c.srcs, srcReady x = true ∧
    settleCore c = if deliverable c x then deliverSrc x { c with asleep := false } else { c with asleep := false } := by
  rcases winner_cases c with ⟨noReady, _⟩ | ⟨x, won, mem, _⟩
  · exact absurd ready (by simpa using List.filter_eq_nil_iff.mp noReady y listed)
  · obtain ⟨listed', ready'⟩ := List.mem_filter.mp mem
    refine ⟨x, listed', ready', ?_⟩
    unfold settleCore
    rw [won]
    rfl

/-- What the choice of a controller comes to: as it was, awake, or with a ready source taken. -/
theorem settleCore_cases (c : Core) : settleCore c = c ∨ settleCore c = { c with asleep := false } ∨
    ∃ x ∈ c.srcs, srcReady x = true ∧ deliverable c x = true ∧ settleCore c = deliverSrc x { c with asleep := false } := by
  by_cases some_ : ∃ y ∈ c.srcs, srcReady y = true
  · obtain ⟨y, listed, ready⟩ := some_
    obtain ⟨x, listed', ready', e⟩ := settleCore_ready listed ready
    by_cases can : deliverable c x = true
    · exact .inr (.inr ⟨x, listed', ready', can, e.trans (if_pos can)⟩)
    · exact .inr (.inl (e.trans (if_neg can)))
  · exact .inl (settleCore_idle fun y hy => by simpa using fun h => some_ ⟨y, hy, h⟩)

/-- What every choice leaves: the core's identity, its half-period mark, deliver and base. -/
theorem settleCore_rest (c : Core) : (settleCore c).id = c.id ∧ (settleCore c).halfSeen = c.halfSeen ∧ (settleCore c).deliver = c.deliver ∧
    (settleCore c).base = c.base := by
  rcases settleCore_cases c with e | e | ⟨x, _, _, _, e⟩ <;> rw [e] <;> exact ⟨rfl, rfl, rfl, rfl⟩

/-- With the flag clear nothing is delivered (R522). -/
theorem settleCore_masked {c : Core} (masked : c.ie = false) : settleCore c = c ∨ settleCore c = { c with asleep := false } := by
  rcases settleCore_cases c with e | e | ⟨x, _, _, can, _⟩
  · exact .inl e
  · exact .inr e
  · simp [deliverable, masked] at can

theorem settleCore_masked_srcs {c : Core} (masked : c.ie = false) : (settleCore c).srcs = c.srcs ∧ (settleCore c).vector = c.vector := by
  rcases settleCore_masked masked with e | e <;> rw [e] <;> exact ⟨rfl, rfl⟩

theorem settleCore_wakes {c : Core} {y : EvSrc} (listed : y ∈ c.srcs) (ready : srcReady y = true) : (settleCore c).asleep = false := by
  obtain ⟨x, _, _, e⟩ := settleCore_ready listed ready
  rw [e]
  split <;> rfl

/-- A source that has been taken (R522). -/
def taken (x : EvSrc) : EvSrc := { x with pending := false, active := true }

theorem srcOf_deliverSrc (x : EvSrc) (c : Core) (k : Nat) : srcOf (deliverSrc x c) k = if k = x.num then taken x else srcOf c k :=
  srcOf_setSrc (taken x) c k

/-- A source that stands alone under its number is as it was, or was ready and has been taken. -/
theorem srcOf_settleCore {n : Nat} {c : Core} (sole : SoleSrc n c) :
    srcOf (settleCore c) n = srcOf c n ∨ (srcReady (srcOf c n) = true ∧ srcOf (settleCore c) n = taken (srcOf c n)) := by
  rcases settleCore_cases c with e | e | ⟨x, listed, ready, _, e⟩
  · exact .inl (by rw [e])
  · exact .inl (by rw [e]; rfl)
  · rw [e, srcOf_deliverSrc]
    by_cases here : n = x.num
    · rw [if_pos here, ← sole x listed here.symm]
      exact .inr ⟨ready, rfl⟩
    · rw [if_neg here]
      exact .inl rfl

/-! ### One core changed -/

theorem coreOf_id (s : State) (id : CoreId) : (coreOf s id).id = id := by
  unfold coreOf
  cases h : s.cores.cores.find? fun c => c.id == id with
  | none => rfl
  | some c => simpa using List.find?_some h

theorem coreOf_setCore_self {c : Core} {id : CoreId} (named : c.id = id) (s : State) : coreOf (setCore c s) id = c := by
  rw [coreOf_setCore, if_pos named.symm]

theorem coreOf_setCore_other {c : Core} {id : CoreId} (named : c.id = id) (s : State) : ∀ j, j ≠ id → coreOf (setCore c s) j = coreOf s j := by
  intro j hj
  rw [coreOf_setCore, if_neg (by rw [named]; exact hj)]

/-- A core after the controller's choice stands under its identity. -/
theorem settled_id {c : Core} {id : CoreId} (named : c.id = id) : (settleCore c).id = id := (settleCore_rest c).1.trans named

/-! ### A source fires -/

/-- A source pending. -/
def pended (x : EvSrc) : EvSrc := { x with pending := true }

theorem pend_eq (n : Nat) (c : Core) : pend n c = settleCore (setSrc (pended (srcOf c n)) c) := rfl

theorem pended_num (n : Nat) (c : Core) : (pended (srcOf c n)).num = n := srcOf_num c n

theorem exec_source_listed {id : CoreId} {n : Nat} {s : State} (listed : sourceListed s.part id n = true) :
    exec (.eventSourceFire id n) s = .next (setCore (pend n (coreOf s id)) s) := congrArg Host.Outcome.next (if_pos listed)

theorem pend_id (n : Nat) (c : Core) : (pend n c).id = c.id := (settleCore_rest _).1

/-- A source that fires is pending, or taken at once. -/
theorem pend_pends (n : Nat) (c : Core) : (srcOf (pend n c) n).pending = true ∨ (srcOf (pend n c) n).active = true := by
  have here : srcOf (setSrc (pended (srcOf c n)) c) n = pended (srcOf c n) := by rw [srcOf_setSrc, if_pos (pended_num n c).symm]
  have sole : SoleSrc n (setSrc (pended (srcOf c n)) c) := setSrc_soleSrc (pended_num n c) c
  rcases srcOf_settleCore sole with e | ⟨_, e⟩
  · left
    rw [pend_eq, e, here]
    rfl
  · right
    rw [pend_eq, e]
    rfl

theorem pend_masked {n : Nat} {c : Core} (masked : c.ie = false) :
    srcOf (pend n c) n = pended (srcOf c n) ∧ (pend n c).vector = c.vector ∧ ∀ k, k ≠ n → srcOf (pend n c) k = srcOf c k := by
  obtain ⟨srcs, vector⟩ := settleCore_masked_srcs (c := setSrc (pended (srcOf c n)) c) masked
  have all : ∀ k, srcOf (pend n c) k = if k = n then pended (srcOf c n) else srcOf c k := fun k => by
    rw [pend_eq, srcOf, srcs]
    have set := srcOf_setSrc (pended (srcOf c n)) c k
    rw [pended_num] at set
    exact set
  exact ⟨(all n).trans (if_pos rfl), vector, fun k hk => (all k).trans (if_neg hk)⟩

theorem pend_wakes {n : Nat} {c : Core} (enable : (srcOf c n).enable = true) (idle : (srcOf c n).active = false) : (pend n c).asleep = false :=
  settleCore_wakes (mem_setSrc.mpr (.inl rfl)) (by simp [srcReady, enable, idle])

/-- The only ready source of a core that takes it is delivered. -/
theorem pend_delivers {n : Nat} {c : Core} (only : ∀ y ∈ c.srcs, y.num ≠ n → srcReady y = false) (enable : (srcOf c n).enable = true)
    (idle : (srcOf c n).active = false) (deliver : c.deliver = true) (ie : c.ie = true) (above : (srcOf c n).priority < c.running)
    (whole : c.faulted = false) (free : c.fenced = false) :
    pend n c = deliverSrc (pended (srcOf c n)) { setSrc (pended (srcOf c n)) c with asleep := false } := by
  have ready : srcReady (pended (srcOf c n)) = true := by simp [srcReady, pended, enable, idle]
  obtain ⟨x, listed, ready', e⟩ := settleCore_ready (c := setSrc (pended (srcOf c n)) c) (mem_setSrc.mpr (.inl rfl)) ready
  obtain rfl : x = pended (srcOf c n) := by
    refine (mem_setSrc.mp listed).resolve_right fun ⟨hx, other⟩ => ?_
    rw [pended_num] at other
    rw [only x hx other] at ready'
    cases ready'
  rw [pend_eq, e]
  exact if_pos (by simp [deliverable, setSrc, pended, deliver, ie, above, whole, free])

/-! ### The end of a service -/

theorem foldl_min_le (l : List EvSrc) (a : Nat) : l.foldl (fun acc x => min acc x.priority) a ≤ a ∧
    ∀ y ∈ l, l.foldl (fun acc x => min acc x.priority) a ≤ y.priority := by
  induction l generalizing a with
  | nil => exact ⟨le_rfl, fun _ h => by cases h⟩
  | cons b l ih =>
    obtain ⟨low, all⟩ := ih (min a b.priority)
    refine ⟨low.trans (Nat.min_le_left ..), fun y hy => ?_⟩
    rcases List.mem_cons.mp hy with rfl | hy
    · exact low.trans (Nat.min_le_right ..)
    · exact all y hy

theorem runningOf_le (c : Core) {y : EvSrc} (listed : y ∈ c.srcs) (active : y.active = true) : runningOf c ≤ y.priority :=
  (foldl_min_le _ 16).2 y (List.mem_filter.mpr ⟨listed, active⟩)

/-- A core with a service ended, before its choice (R523). -/
def eosCore (n : Nat) (c : Core) : Core :=
  let c1 := setSrc { srcOf c n with active := false } c
  { c1 with depth := c.depth - 1, running := runningOf c1 }

theorem exec_eos_active {id : CoreId} {n : Nat} {ie : Bool} {s : State} (active : (srcOf (coreOf s id) n).active = true) :
    exec (.evcEosWrite id n ie) s = .next (setCore (settleCore (eosCore n (withFlag s id ie))) s) := if_pos active

theorem exec_eos_idle {id : CoreId} {n : Nat} {ie : Bool} {s : State} (idle : (srcOf (coreOf s id) n).active = false) :
    exec (.evcEosWrite id n ie) s =
      .next (noteError (coreDie id) (coreCode id) n (setCore (settleCore (withFlag s id ie)) s)) := if_neg (by
  intro active
  have active' : (srcOf (coreOf s id) n).active = true := active
  rw [idle] at active'
  cases active')

theorem srcOf_pending_of_none {c : Core} (none_pends : ∀ y ∈ c.srcs, y.pending = false) (n : Nat) : (srcOf c n).pending = false := by
  unfold srcOf
  cases h : findKey EvSrc.num n c.srcs with
  | none => rfl
  | some x => exact none_pends x (findKey_some h).2

theorem none_ready_of_none_pending {c : Core} (none_pends : ∀ y ∈ c.srcs, y.pending = false) : NoneReady c := fun y hy => by
  simp [srcReady, none_pends y hy]

theorem eosCore_idle {n : Nat} {c : Core} (none_pends : ∀ y ∈ c.srcs, y.pending = false) : NoneReady (eosCore n c) := by
  refine none_ready_of_none_pending fun y hy => ?_
  rcases mem_setSrc.mp hy with rfl | ⟨hy, _⟩
  · exact srcOf_pending_of_none none_pends n
  · exact none_pends y hy

/-- What an error entry of firmware leaves: the log grows by one entry with the data, and the sessions, the scheduler and the cores stay. -/
theorem noteError_frame (die core data : Nat) (s : State) :
    let t := noteError die core data s
    t.dev.logNext = s.dev.logNext + 1 ∧ t.dev.log.getLast?.map LogEntry.data = some data ∧ t.cores = s.cores ∧ t.sess = s.sess ∧ t.sched = s.sched := by
  have frame := logWith_frame die core (some 2) data s
  refine ⟨(congrArg (fun t => t.dev.logNext) frame :), ?_, (congrArg State.cores frame :), (congrArg State.sess frame :), (congrArg State.sched frame :)⟩
  unfold noteError logWith
  dsimp only
  rw [if_pos le_rfl, hrAppend_frame]
  exact List.getLast?_concat.symm ▸ rfl

/-! ### A source configured -/

/-- A source as a write of its configuration leaves it, before the controller's choice. -/
def cfgSet (priority : Nat) (enable set clear : Bool) (x : EvSrc) : EvSrc :=
  { x with priority := priority % 16, enable := enable, pending := (x.pending && !clear) || set }

theorem exec_cfg_set (id : CoreId) (n priority : Nat) (enable set clear ie : Bool) (s : State) :
    exec (.srcCfgSet id n priority ⟨enable, set, clear⟩ ie) s =
      .next (setCore (settleCore (setSrc (cfgSet priority enable set clear (srcOf (coreOf s id) n)) (withFlag s id ie))) s) := rfl

theorem exec_cfg_clear (id : CoreId) (n priority : Nat) (enable ie : Bool) (s : State) :
    exec (.srcCfgPendingClear id n priority enable ie) s =
      .next (setCore (settleCore (setSrc (cfgSet priority enable false true (srcOf (coreOf s id) n)) (withFlag s id ie))) s) := by
  show Host.Outcome.next (setCore (settleCore (setSrc { configured priority enable (srcOf (coreOf s id) n) with pending := false } (withFlag s id ie))) s) = _
  unfold cfgSet configured
  simp

/-- A source written into a core: as it was written, or, having been ready, taken; with the flag clear it and the others are as written. -/
theorem settle_setSrc {x : EvSrc} {c : Core} {n : Nat} (named : x.num = n) :
    (srcOf (settleCore (setSrc x c)) n = x ∨ (srcReady x = true ∧ srcOf (settleCore (setSrc x c)) n = taken x)) ∧
      (c.ie = false → srcOf (settleCore (setSrc x c)) n = x ∧ ∀ k, k ≠ n → srcOf (settleCore (setSrc x c)) k = srcOf c k) := by
  have here : srcOf (setSrc x c) n = x := by rw [srcOf_setSrc, if_pos named.symm]
  have sole : SoleSrc n (setSrc x c) := setSrc_soleSrc named c
  refine ⟨by simpa [here] using srcOf_settleCore sole, fun masked => ?_⟩
  obtain ⟨srcs, _⟩ := settleCore_masked_srcs (c := setSrc x c) masked
  have all : ∀ k, srcOf (settleCore (setSrc x c)) k = srcOf (setSrc x c) k := fun k => by rw [srcOf, srcs, srcOf]
  exact ⟨(all n).trans here, fun k hk => (all k).trans (by rw [srcOf_setSrc, if_neg (by rw [named]; exact hk)])⟩

/-- Settles O50: each write changes one core and lets its controller choose, and the choice takes a ready source or leaves the sources. -/
theorem eventControllersDeliver : Obligations.EventControllersDeliver := by
  unfold Obligations.EventControllersDeliver
  refine ⟨fun id n s c x hc hx => ⟨fun unlisted => congrArg _ (if_neg (by simp [unlisted])), fun listed => ⟨fun masked => ?masked,
      fun only enable idle deliver ie above whole free => ?delivers⟩⟩,
    fun id n ie s c x hc hx none_pends => ⟨fun active => ?ends, fun idle => ?ignored⟩,
    fun id n priority enable set clear ie s x hx => ⟨?sets, ?clears⟩, fun id value ie base s => ?deliver, fun id ie s => ?waits,
    fun id s => ⟨(exec_source_listed (by rfl)).symm, ?written, ?half⟩⟩
  case masked =>
    subst hc hx
    have named : (pend n (coreOf s id)).id = id := (pend_id n _).trans (coreOf_id s id)
    obtain ⟨here, vector, others⟩ := pend_masked (n := n) masked
    refine ⟨_, exec_source_listed listed, ?_⟩
    rw [coreOf_setCore_self named]
    exact ⟨here, pend_wakes, vector, others, coreOf_setCore_other named s, rfl⟩
  case delivers =>
    subst hc hx
    have named : (pend n (coreOf s id)).id = id := (pend_id n _).trans (coreOf_id s id)
    have run := pend_delivers only enable idle deliver ie above whole free
    refine ⟨_, exec_source_listed listed, ?_⟩
    rw [coreOf_setCore_self named, run, srcOf_deliverSrc, if_pos (pended_num n _).symm]
    refine ⟨rfl, ?_, rfl, rfl, rfl, rfl, ?_, rfl⟩
    · show some ((coreOf s id).base + 8 * (pended (srcOf (coreOf s id) n)).num) = _
      rw [pended_num]
    · rw [← run]
      exact coreOf_setCore_other named s
  case ends =>
    subst hc hx
    have stays : settleCore (eosCore n (withFlag s id ie)) = eosCore n (withFlag s id ie) := settleCore_idle (eosCore_idle none_pends)
    have named : (eosCore n (withFlag s id ie)).id = id := coreOf_id s id
    refine ⟨_, exec_eos_active active, ?_⟩
    rw [stays, coreOf_setCore_self named]
    refine ⟨?_, rfl, fun y hy active' other => ?_, rfl, coreOf_setCore_other named s, rfl⟩
    · refine (srcOf_setSrc { srcOf (withFlag s id ie) n with active := false } _ n).trans (if_pos ?_)
      exact (srcOf_num _ n).symm
    · refine runningOf_le _ (mem_setSrc.mpr (.inr ⟨hy, ?_⟩)) active'
      exact fun same => other (same.trans (srcOf_num _ n))
  case ignored =>
    subst hc hx
    have stays : settleCore (withFlag s id ie) = withFlag s id ie := settleCore_idle (none_ready_of_none_pending none_pends)
    have named : (withFlag s id ie).id = id := coreOf_id s id
    have run := exec_eos_idle (ie := ie) idle
    rw [stays] at run
    obtain ⟨next, last, cores, sess, sched⟩ := noteError_frame (coreDie id) (coreCode id) n (setCore (withFlag s id ie) s)
    have same : ∀ j, coreOf (noteError (coreDie id) (coreCode id) n (setCore (withFlag s id ie) s)) j = coreOf (setCore (withFlag s id ie) s) j :=
      fun j => by rw [coreOf, cores, coreOf]
    exact ⟨_, run, (same id).trans (coreOf_setCore_self named s), next, last, fun j hj => (same j).trans (coreOf_setCore_other named s j hj), sess, sched⟩
  case sets =>
    subst hx
    have named : (settleCore (setSrc (cfgSet priority enable set clear (srcOf (coreOf s id) n)) (withFlag s id ie))).id = id :=
      settled_id (coreOf_id s id)
    obtain ⟨either, masked⟩ := settle_setSrc (x := cfgSet priority enable set clear (srcOf (coreOf s id) n)) (c := withFlag s id ie) (srcOf_num _ n)
    refine ⟨_, srcOf (settleCore (setSrc (cfgSet priority enable set clear (srcOf (coreOf s id) n)) (withFlag s id ie))) n,
      exec_cfg_set id n priority enable set clear ie s, ?_⟩
    rw [coreOf_setCore_self named]
    refine ⟨rfl, ?_, ?_, ?_, masked, coreOf_setCore_other named s, rfl⟩
    · rcases either with e | ⟨_, e⟩ <;> rw [e] <;> rfl
    · rcases either with e | ⟨_, e⟩ <;> rw [e] <;> rfl
    · rcases either with e | ⟨ready, e⟩
      · rw [e]
        simp [cfgSet, or_left_comm, or_comm]
      · have pending : (cfgSet priority enable set clear (srcOf (coreOf s id) n)).pending = true := by
          simp only [srcReady, Bool.and_eq_true] at ready
          exact ready.1.2
        rw [e]
        simp only [cfgSet, Bool.or_eq_true, Bool.and_eq_true, Bool.not_eq_true'] at pending
        simp only [taken, Bool.false_eq_true, false_or, true_iff]
        exact pending.elim (fun h => .inr (.inl h)) .inl
  case clears =>
    subst hx
    have named : (settleCore (setSrc (cfgSet priority enable false true (srcOf (coreOf s id) n)) (withFlag s id ie))).id = id :=
      settled_id (coreOf_id s id)
    obtain ⟨either, masked⟩ := settle_setSrc (x := cfgSet priority enable false true (srcOf (coreOf s id) n)) (c := withFlag s id ie) (srcOf_num _ n)
    have cleared : cfgSet priority enable false true (srcOf (coreOf s id) n) =
        { srcOf (coreOf s id) n with priority := priority % 16, enable := enable, pending := false } := by simp [cfgSet]
    refine ⟨_, srcOf (settleCore (setSrc (cfgSet priority enable false true (srcOf (coreOf s id) n)) (withFlag s id ie))) n,
      exec_cfg_clear id n priority enable ie s, ?_⟩
    rw [coreOf_setCore_self named]
    refine ⟨rfl, ?_, fun off => (masked off).2, coreOf_setCore_other named s, rfl⟩
    rcases either with e | ⟨ready, _⟩
    · exact e.trans cleared
    · simp [srcReady, cfgSet] at ready
  case deliver =>
    have named : (settleCore { withFlag s id ie with deliver := value, base := base % 2 ^ 48 / 2048 * 2048 }).id = id := settled_id (coreOf_id s id)
    obtain ⟨_, _, deliver, base'⟩ := settleCore_rest { withFlag s id ie with deliver := value, base := base % 2 ^ 48 / 2048 * 2048 }
    refine ⟨_, rfl, ?_⟩
    rw [coreOf_setCore_self named]
    exact ⟨deliver, base', fun off => (settleCore_masked_srcs off).1, coreOf_setCore_other named s, rfl⟩
  case waits =>
    have named : (settleCore { withFlag s id ie with asleep := true }).id = id := settled_id (coreOf_id s id)
    refine ⟨_, rfl, ?_⟩
    rw [coreOf_setCore_self named]
    exact ⟨fun idle => settleCore_idle idle, fun ⟨y, listed, ready⟩ => settleCore_wakes listed ready, coreOf_setCore_other named s, rfl⟩
  case written =>
    have named : ({ coreOf s id with halfSeen := false } : Core).id = id := coreOf_id s id
    exact ⟨_, rfl, coreOf_setCore_self named s, coreOf_setCore_other named s, rfl⟩
  case half =>
    have named : (pend 1 { coreOf s id with halfSeen := true }).id = id := (pend_id 1 _).trans (coreOf_id s id)
    refine ⟨_, rfl, ?_⟩
    rw [coreOf_setCore_self named]
    exact ⟨(settleCore_rest _).2.1, pend_pends 1 _, coreOf_setCore_other named s, rfl⟩

end Sys2Proof.Machine
end

section
/-! Messages that bring input or ask for output, and those of the recall engine: what each comes to once its fields are good (Tables 3-5 to 3-8, R93,
R94). -/

namespace Sys2Proof.Machine

/-! ### The checks before the session's state -/

section
variable {m : Sprue} {u : State} {x : Session} {buf : HostBuf} (hx : findSess u (msgHandle m) = some x)
include hx

/-- An APPEND_TEXT whose data is at hand and whose tokens the model knows comes to the limit of positions, and then to its session's state. -/
theorem doAppendText_read {bytes : List Byte} (data : appendData m buf = some bytes)
    (known : (msgAt m 17 1).testBit 0 = true → tokensFit u x ((tokensOf bytes).getD []) = true) :
    doAppendText m buf u =
      if (msgAt m 17 1).testBit 0 && overLimit x (closeCost u x + appendCount m / 4) then refuse m 7 u
      else inState (.appendText m buf) m false (refuse m 6) (fun v =>
        if x.state == .waitingTool then refuse m 6 v
        else if resident x then (if (msgAt m 17 1).testBit 0 then queueTokens m ((tokensOf bytes).getD []) v else queueText m bytes v)
        else revive (.appendText m buf) x.handle v) u := by
  obtain ⟨fields, read⟩ := appendData_some data
  have known' : ((msgAt m 17 1).testBit 0 && ((tokensOf bytes).getD []).any fun t => decide (vocabOf u x ≤ t)) = false :=
    Bool.and_eq_false_imp.mpr fun t => (tokensFit_iff u x _).mp (known t)
  unfold doAppendText
  rw [hx]
  refine (if_neg fields).trans (if_congr Iff.rfl rfl ?_)
  dsimp only [appendCount] at read ⊢
  rw [read]
  exact if_neg (ne_true_of_eq_false known')

/-- An APPEND_FRAME of the model's size comes to the limit of positions. -/
theorem doAppendFrame_sized {p : ModelProgram} (prog : sessProg u x = some p) (encoders : p.encoders ≠ []) (size : msgAt m 24 4 = p.frameBytes) :
    doAppendFrame m buf u =
      if overLimit x (closeCost u x + p.framePositions) then refuse m 7 u
      else if buf.isNone then refuse m 8 u
      else inState (.appendFrame m buf) m false (refuse m 6) (fun v =>
        if x.state == .waitingTool then refuse m 6 v
        else if resident x then queueFrame m p.framePositions (buf.getD []) v
        else revive (.appendFrame m buf) x.handle v) u := by
  unfold doAppendFrame
  rw [hx]
  dsimp only
  rw [prog]
  exact (if_neg (by simpa using encoders)).trans (if_neg (by simpa using size))

end

/-! ### The session's state -/

section
variable {c : Instr} {m : Sprue} {u : State} {x : Session} (hx : findSess u (msgHandle m) = some x) (idle : x.op = none)
  (closed body : State → State)
include hx idle

theorem inState_awake (awake : x.state = .opened ∨ x.state = .active ∨ x.state = .waitingTool) : inState c m false closed body u = body u := by
  rw [inState_else hx]
  · simp [idle]
  all_goals rcases awake with h | h | h <;> simp [h]

theorem inState_asleep (asleep : x.state = .warm ∨ x.state = .parked) : inState c m false closed body u = body u := by
  rw [inState_else hx]
  · simp [idle]
  all_goals rcases asleep with h | h <;> simp [h]

end

theorem resident_awake {x : Session} (h : x.state = .opened ∨ x.state = .active) : resident x = true ∧ (x.state == .waitingTool) = false := by
  rcases h with h | h <;> simp [resident, h]

theorem asleep_calls {x : Session} (h : x.state = .warm ∨ x.state = .parked) : (x.state == .waitingTool) = false := by
  rcases h with h | h <;> simp [h]

/-- Settles O12: each message comes to the limit of positions, and below it to its session's state. -/
theorem inputIsQueued : Obligations.InputIsQueued := by
  unfold Obligations.InputIsQueued
  refine ⟨fun m buf s x bytes ⟨ha, _, hx, idle⟩ data known => ⟨fun room => ?text, fun tokens past => ?textOver⟩,
    fun m buf s x p ⟨ha, _, hx, idle⟩ prog encoders size => ⟨fun room data hb => ?frame, fun past => ?frameOver⟩⟩
  case text =>
    have comes := doAppendText_read hx data known
    rw [if_neg (by simpa using room)] at comes
    rw [exec_accepted (c := .appendText m buf) rfl ha]
    show (_ → Host.Outcome.next (drainHeld _ (doAppendText m buf (actsIn m s))) = _) ∧ (_ → Host.Outcome.next (drainHeld _ (doAppendText m buf (actsIn m s))) = _)
    rw [comes]
    refine ⟨fun awake => ?_, fun asleep => ?_⟩
    · rw [inState_awake hx idle _ _ (awake.imp_right .inl), (resident_awake awake).1, (resident_awake awake).2]
      rfl
    · rw [inState_asleep hx idle _ _ asleep, resident_asleep asleep, asleep_calls asleep, findSess_handle hx]
      rfl
  case textOver =>
    rw [exec_accepted (c := .appendText m buf) rfl ha]
    exact congrArg (fun t => Host.Outcome.next (drainHeld _ t)) ((doAppendText_read hx data known).trans (if_pos (by simp [tokens, past])))
  case frame =>
    subst hb
    have comes := doAppendFrame_sized (buf := some data) hx prog encoders size
    rw [if_neg (by simp [room]), if_neg (by simp)] at comes
    rw [exec_accepted (c := .appendFrame m (some data)) rfl ha]
    show (_ → Host.Outcome.next (drainHeld _ (doAppendFrame m (some data) (actsIn m s))) = _) ∧
      (_ → Host.Outcome.next (drainHeld _ (doAppendFrame m (some data) (actsIn m s))) = _)
    rw [comes]
    refine ⟨fun awake => ?_, fun asleep => ?_⟩
    · rw [inState_awake hx idle _ _ (awake.imp_right .inl), (resident_awake awake).1, (resident_awake awake).2]
      rfl
    · rw [inState_asleep hx idle _ _ asleep, resident_asleep asleep, asleep_calls asleep, findSess_handle hx]
      rfl
  case frameOver =>
    rw [exec_accepted (c := .appendFrame m buf) rfl ha]
    exact congrArg (fun t => Host.Outcome.next (drainHeld _ t)) ((doAppendFrame_sized hx prog encoders size).trans (if_pos past))

/-! ### Output asked for, and the results of calls -/

section
variable {m : Sprue} {u : State} {x : Session} {buf : HostBuf} (hx : findSess u (msgHandle m) = some x) (idle : x.op = none)
include hx idle

/-- A GENERATE with good fields starts its request in a session that is OPEN or ACTIVE and has none. -/
theorem doGenerate_starts {start : Option Nat} {stops : List (List Byte)} (fields : generateFields m = true)
    (mould : mouldStart u x (msgAt m 20 2) = some start) (texts : generateStops m buf = some stops) (awake : x.state = .opened ∨ x.state = .active)
    (free : x.request = none) : doGenerate m buf u = startRequest m stops start u := by
  obtain ⟨bytes, read, split, formed⟩ := generateStops_some texts
  have form : ¬(msgAt m 16 4 = 0 ∨ 1048576 < msgAt m 16 4 ∨ 2 < msgAt m 22 1 ∨ (msgAt m 22 1 ≠ 0 ∧ msgAt m 24 4 = 0) ∨ 16 < msgAt m 34 1) := by
    simp only [generateFields, Bool.and_eq_true, Bool.or_eq_true, decide_eq_true_eq, beq_iff_eq, bne_iff_ne] at fields
    omega
  unfold doGenerate
  rw [hx]
  refine (if_neg form).trans ?_
  rw [mould]
  dsimp only
  rw [read]
  dsimp only
  rw [split]
  refine (if_neg (ne_false_of_eq_true formed)).trans ((inState_awake hx idle _ _ (awake.imp_right .inl)).trans ?_)
  rw [(resident_awake awake).1, (resident_awake awake).2, free]
  rfl

/-- A TOOL_RESULT whose data is at hand, for the call that its session waits for. -/
theorem doToolResult_calls {bytes : List Byte} (calling : x.state = .waitingTool) (call : x.call = some (.host (msgAt m 28 4)))
    (small : msgAt m 24 4 ≤ 1048576) (read : (if msgAt m 24 4 = 0 then some [] else buf.map (List.take (msgAt m 24 4))) = some bytes)
    (tokens : (msgAt m 32 1).testBit 0 = true → msgAt m 24 4 % 4 = 0 ∧
      (msgAt m 24 4 ≠ 0 → overLimit x (closeCost u x + msgAt m 24 4 / 4) = false) ∧ tokensFit u x ((tokensOf bytes).getD []) = true) :
    doToolResult m buf u =
      if (msgAt m 32 1).testBit 0 || msgAt m 24 4 == 0 then
        if overLimit x (closeCost u x + ((tokensOf bytes).getD []).length) && decide (0 < closeCost u x + ((tokensOf bytes).getD []).length) then refuse m 7 u
        else toolResultNow m ((tokensOf bytes).getD []) (closeInput (msgHandle m) u)
      else toolText m bytes u := by
  have form : ¬(1048576 < msgAt m 24 4 ∨ ((msgAt m 32 1).testBit 0 = true ∧ msgAt m 24 4 % 4 ≠ 0)) := by
    rintro (h | ⟨t, h⟩)
    · omega
    · exact h (tokens t).1
  have named : callNamed x (msgAt m 28 4) = true := by simp [callNamed, call]
  have room : ((msgAt m 32 1).testBit 0 && decide (0 < msgAt m 24 4) && overLimit x (closeCost u x + msgAt m 24 4 / 4)) = false := by
    refine Bool.and_eq_false_imp.mpr fun h => ?_
    simp only [Bool.and_eq_true, decide_eq_true_eq] at h
    exact (tokens h.1).2.1 (by omega)
  have known : ((msgAt m 32 1).testBit 0 && ((tokensOf bytes).getD []).any fun t => decide (vocabOf u x ≤ t)) = false :=
    Bool.and_eq_false_imp.mpr fun t => (tokensFit_iff u x _).mp (tokens t).2.2
  unfold doToolResult
  rw [hx]
  refine (if_neg form).trans ((if_neg (by simp [named])).trans ((if_neg (ne_true_of_eq_false room)).trans ?_))
  dsimp only
  rw [read]
  refine (if_neg (ne_true_of_eq_false known)).trans ((inState_awake hx idle _ _ (.inr (.inr calling))).trans ?_)
  rw [findSess_handle hx]
  exact if_neg (by simp [resident, calling])

end

/-- Settles O13: the fields pass, and the message comes to a session in the state it asks for. -/
theorem generateStartsRequest : Obligations.GenerateStartsRequest := by
  unfold Obligations.GenerateStartsRequest
  refine ⟨fun m buf s x start stops ⟨ha, _, hx, idle⟩ fields mould texts awake free => ?generates, fun m stops n => rfl,
    fun m buf s x ⟨ha, _, hx, idle⟩ calling call small => ⟨fun empty room => ?empty, fun bytes some_ hb => ⟨fun text => ?text, fun tokens whole known room fits => ?tokens⟩⟩⟩
  case generates =>
    rw [exec_accepted (c := .generate m buf) rfl ha]
    exact congrArg (fun t => Host.Outcome.next (drainHeld _ t)) (doGenerate_starts hx idle fields mould texts awake free)
  case empty =>
    have comes := doToolResult_calls (buf := buf) hx idle calling call small (if_pos empty)
      fun _ => ⟨by omega, fun h => absurd empty h, by simp [tokensFit, tokensOf]⟩
    rw [if_pos (by simp [empty]), if_neg (by simpa [tokensOf] using fun h => absurd room (by simp [h]))] at comes
    rw [exec_accepted (c := .toolResult m buf) rfl ha]
    exact congrArg (fun t => Host.Outcome.next (drainHeld _ t)) comes
  case text =>
    subst hb
    have comes := doToolResult_calls (buf := some bytes) hx idle calling call small (if_neg some_) fun t => absurd t (by simp [text])
    rw [if_neg (by simp [text, some_])] at comes
    rw [exec_accepted (c := .toolResult m (some bytes)) rfl ha]
    exact congrArg (fun t => Host.Outcome.next (drainHeld _ t)) comes
  case tokens =>
    subst hb
    have comes := doToolResult_calls (buf := some bytes) hx idle calling call small (if_neg some_) fun _ => ⟨whole, fun _ => room, known⟩
    rw [if_pos (by simp [tokens]), if_neg (by simp [fits])] at comes
    rw [exec_accepted (c := .toolResult m (some bytes)) rfl ha]
    exact congrArg (fun t => Host.Outcome.next (drainHeld _ t)) comes

/-! ### Searches, insertions and deletions -/

/-- Settles O16: past the checks of its fields, of the index and of the engine's room, each message begins its query. -/
theorem recallMessagesBeginQueries : Obligations.RecallMessagesBeginQueries := by
  unfold Obligations.RecallMessagesBeginQueries
  refine ⟨fun m s bytes ha _ some_ few width index room => ?search, fun m s bytes ha _ width index room => ?memorize, fun m s ha _ index room => ?forget⟩
  case search =>
    show Host.Outcome.next (takeMessage _ m (doRecall m (some bytes)) s) = _
    rw [takeMessage_accepts _ _ _ _ ha]
    unfold doRecall
    exact congrArg Host.Outcome.next ((if_neg (by simp [index]; omega)).trans (if_neg (by simp [room])))
  case memorize =>
    show Host.Outcome.next (takeMessage _ m (doMemorize m (some bytes)) s) = _
    rw [takeMessage_accepts _ _ _ _ ha]
    unfold doMemorize
    exact congrArg Host.Outcome.next ((if_neg (by simp [index]; omega)).trans (if_neg (by simp [room])))
  case forget =>
    show Host.Outcome.next (takeMessage _ m (doForget m) s) = _
    rw [takeMessage_accepts _ _ _ _ ha]
    unfold doForget
    exact congrArg Host.Outcome.next ((if_neg (by simp [index])).trans (if_neg (by simp [room])))

end Sys2Proof.Machine
end

section
/-! Messages that no session takes: an OPEN, the plain messages, and those that a check of Table 3-2 stops (R49, R50, R92 to R101, R119). -/

namespace Sys2Proof.Machine

/-! ### A message without a handle accepted -/

/-- Only the opcodes of Table 3-3 that require one come with a handle. -/
theorem accepts_no_handle {m : Sprue} {s : State} (ha : Accepts m s) (bare : opHandle (msgOpcode m) = false) : msgHandle m = 0 := by
  have form : passesForm m = true := ha.2.1
  unfold passesForm at form
  rw [bare] at form
  simpa using (Bool.and_eq_true_iff.mp form).2

theorem msgWin_bare {m : Sprue} (bare : msgHandle m = 0) : msgWin m = .function m.fn := if_pos bare

/-- The state of an accepted message differs in its functions, tenants and cores alone where no session is named. -/
def TakenBare (s t : State) : Prop := t = { s with fns := t.fns, tens := t.tens, cores := t.cores }

theorem keepImage_cores (h : Nat) (s : State) : keepImage h s = { s with cores := (keepImage h s).cores } := by
  unfold keepImage
  split
  · rfl
  · split <;> rfl

theorem consumeMsg_takenBare (m : Sprue) (s : State) : TakenBare s (consumeMsg m s) := by
  unfold consumeMsg
  dsimp only
  split <;> rfl

theorem acceptMsg_takenBare {m : Sprue} (bare : msgHandle m = 0) (s : State) : TakenBare s (acceptMsg m s) := by
  have consumed := consumeMsg_takenBare m s
  have kept := keepImage_cores (msgHandle m) (consumeMsg m s)
  unfold acceptMsg TakenBare at *
  rw [msgWin_bare bare, kept, consumed]
  rfl

theorem acceptMsg_tens_free {m : Sprue} (free : opPoliced (msgOpcode m) = false) (s : State) : (acceptMsg m s).tens = s.tens := by
  unfold acceptMsg
  rw [onWindow_tens, keepImage_tens, consumeMsg, if_neg (by simp [free])]
  rfl

theorem carried_bare {m : Sprue} (bare : msgHandle m = 0) (s : State) : FnsOnly s (carried m s) := by
  unfold carried settle
  rw [msgWin_bare bare]
  exact rfl

theorem answerMsg_bare {m : Sprue} (bare : msgHandle m = 0) (o : OCode) (d0 d1 : Nat) (s : State) : FnsOnly s (answerMsg m o d0 d1 s) := by
  unfold answerMsg settle
  rw [msgWin_bare bare]
  dsimp only
  split <;> exact rfl

/-! ### OPEN -/

/-- How a session that has been opened stands otherwise than it was entered: its content laid out and its allowance armed. -/
def LaidOut (x y : Session) : Prop :=
  y = { x with pages := y.pages, blks := y.blks, leaves := y.leaves, allowKind := y.allowKind, allowance := y.allowance, restored := y.restored }

theorem LaidOut.refl (x : Session) : LaidOut x x := rfl

theorem LaidOut.trans {x y z : Session} (a : LaidOut x y) (b : LaidOut y z) : LaidOut x z := by
  unfold LaidOut at *
  rw [b, a]

theorem Repaged.laidOut {P : Page → Page → Prop} {x y : Session} (a : Repaged P x y) : LaidOut x y := by
  unfold LaidOut
  rw [a.1]

theorem Rearmed.laidOut {x y : Session} (a : Rearmed x y) : LaidOut x y := by
  unfold LaidOut
  rw [a]

theorem arm_laidOut (h : Nat) (s : State) : Turns h LaidOut s (arm h s) := (arm_turns h s).mono fun _ _ a => a.laidOut

/-- The record that answers an OPEN with its handle. -/
def openedRec (m : Sprue) (h : Nat) : OutRec :=
  { outcome := .done, seq := msgSeq m, opcode := 1, d0 := h, clientTag := msgTag m, answers := true, win := some (msgWin m) }

/-- A session entered, laid out, answered, noted and armed. -/
def openEntered (m : Sprue) (x : Session) (s : State) : State :=
  tellDirectory x.handle s.rack.num 1 (arm x.handle (anchor 1 x.handle
    (emitOut false x (openedRec m x.handle) (settle (msgWin m) (msgSeq m) .done (seat x.handle (addSess x s))))))

theorem findSess_addSess (x : Session) (s : State) (h : Nat) :
    findSess (addSess x s) h = (findSess s h).or (if x.handle = h then some x else none) := findKey_append Session.handle h s.sess x

theorem openEntered_turns {m : Sprue} (bare : msgHandle m = 0) (x : Session) (s : State) : Turns x.handle LaidOut (addSess x s) (openEntered m x s) := by
  have seated := (seat_lays x.handle (addSess x s)).toTurns.mono fun _ _ a => a.laidOut
  unfold openEntered
  rw [msgWin_bare bare]
  have answered := (emitOut_fnsOnly false x (openedRec m x.handle) (settle (.function m.fn) (msgSeq m) .done (seat x.handle (addSess x s)))).sess
  have noted := seated.thenSame ((anchor_frame 1 x.handle _).1.trans answered)
  exact (Turns.trans (R := LaidOut) (fun _ _ _ => LaidOut.trans) noted (arm_laidOut x.handle _)).thenSame (tellDirectory_sess _ _ _ _)

/-- What stands of the state when a session is entered: all but the sessions, the functions, the tiers, the rack, the anchors and the free values. -/
def EnteredFrame (s t : State) : Prop :=
  t = { s with sess := t.sess, fns := t.fns, tiers := t.tiers, rack := t.rack, chk := t.chk, free := t.free }

theorem EnteredFrame.trans {s t u : State} (a : EnteredFrame s t) (b : EnteredFrame t u) : EnteredFrame s u := by
  unfold EnteredFrame at *
  rw [b, a]

theorem PlaceFrame.entered {s t : State} (a : PlaceFrame s t) : EnteredFrame s t := by
  unfold EnteredFrame
  rw [a]

theorem ToldOnly.entered {s t : State} (a : ToldOnly s t) : EnteredFrame s t := by
  unfold EnteredFrame
  rw [a]

theorem openEntered_frame {m : Sprue} (bare : msgHandle m = 0) (x : Session) (s : State) : EnteredFrame s (openEntered m x s) := by
  unfold openEntered
  rw [msgWin_bare bare]
  have seated : EnteredFrame s (seat x.handle (addSess x s)) :=
    EnteredFrame.trans (t := addSess x s) rfl (seat_lays x.handle (addSess x s)).frame.entered
  have answered := EnteredFrame.trans seated (u := emitOut false x (openedRec m x.handle) (settle (.function m.fn) (msgSeq m) .done (seat x.handle (addSess x s)))) rfl
  have noted := answered.trans (anchor_frame 1 x.handle _).2.entered
  exact (noted.trans (u := arm x.handle _) rfl).trans (tellDirectory_toldOnly _ _ _ _).entered

theorem hrRewrite_nor (f : HealthRec → HealthRec) (s : State) :
    hrRewrite f s = { s with nor := { s.nor with copy0 := (hrRewrite f s).nor.copy0, copy1 := (hrRewrite f s).nor.copy1 } } := by
  unfold hrRewrite
  split
  · rfl
  · dsimp only
    split <;> rfl

/-- A serial issued is used up; a fresh block, where one is begun, is recorded in the health record (R50). -/
theorem issueSerial_frame (s : State) : (issueSerial s).2 = { s with dev := (issueSerial s).2.dev, nor := (issueSerial s).2.nor } := by
  unfold issueSerial
  dsimp only
  split
  · generalize hr : hrRewrite _ _ = t
    have nor := (hrRewrite_nor _ _).symm.trans hr
    rw [← nor]
  · rfl

theorem issueSerial_num (s : State) : (issueSerial s).1 = s.dev.nextSerial := rfl

theorem issueSerial_next (s : State) : (issueSerial s).2.dev.nextSerial = s.dev.nextSerial + 1 := rfl

theorem openNow_eq {m : Sprue} {s : State} {t : Tenant} {md : Model} (ht : findTen s (msgTenant m) = some t) (hm : findModel s (msgAt m 16 2) = some md) :
    openNow m s = openEntered m (newSession (issueSerial s).2 m (handleOf s.rack.num (issueSerial s).1) t md) (issueSerial s).2 := by
  have rack : (issueSerial s).2.rack = s.rack := (congrArg State.rack (issueSerial_frame s) :)
  unfold openNow openEntered openedRec
  rw [ht, hm, rack]
  rfl

/-- An OPEN that may name its model names a tenant and a model of the package. -/
theorem openFields_names {m : Sprue} {s : State} (good : openFields m s = true) :
    ∃ t md, findTen s (msgTenant m) = some t ∧ findModel s (msgAt m 16 2) = some md := by
  have bound : modelOk s (msgTenant m) (msgAt m 16 2) = true := by
    simp only [openFields, Bool.and_eq_true] at good
    exact good.1.1.1.1.1.1
  unfold modelOk at bound
  split at bound
  next t md ht hm => exact ⟨t, md, ht, hm⟩
  next => cases bound

/-- Settles O11: the session that OPEN enters stays as it is entered but for where its content lies and its allowance. -/
theorem openCreatesSession : Obligations.OpenCreatesSession := by
  unfold Obligations.OpenCreatesSession
  intro m s ha op good room free fits fresh
  have bare : msgHandle m = 0 := accepts_no_handle ha (by rw [op]; rfl)
  have taken := acceptMsg_takenBare bare s
  obtain ⟨t, md, ht, hm⟩ := openFields_names good
  have run : exec (.openSession m) s = .next (openNow m (acceptMsg m s)) := by
    have used : entriesUsed (acceptMsg m s) = entriesUsed s := (congrArg entriesUsed taken :)
    have limit : directoryLimit (acceptMsg m s).part = directoryLimit s.part := (congrArg (fun t : State => directoryLimit t.part) taken :)
    have waits : (acceptMsg m s).ledger.waiting = s.ledger.waiting := (congrArg (fun t : State => t.ledger.waiting) taken :)
    refine congrArg Host.Outcome.next ((takeMessage_accepts _ m _ s ha).trans ?_)
    unfold doOpen
    rw [if_neg (by simp [good]), if_neg (by rw [used, limit]; omega), if_pos (by simp [waits, free, fits])]
  have issued := issueSerial_frame (acceptMsg m s)
  have serial : (acceptMsg m s).dev.nextSerial = s.dev.nextSerial := (congrArg (fun t : State => t.dev.nextSerial) taken :)
  have package : (acceptMsg m s).rack.num = s.rack.num := (congrArg (fun t : State => t.rack.num) taken :)
  have sess : (issueSerial (acceptMsg m s)).2.sess = s.sess := (congrArg State.sess issued :).trans (congrArg State.sess taken :)
  rw [openNow_eq ht hm, issueSerial_num, serial, package] at run
  generalize made : newSession (issueSerial (acceptMsg m s)).2 m (handleOf s.rack.num s.dev.nextSerial) t md = x at run
  have handle : x.handle = handleOf s.rack.num s.dev.nextSerial := by rw [← made]; rfl
  have added := fun h => (findSess_addSess x (issueSerial (acceptMsg m s)).2 h).trans (by rw [findSess_congr sess h])
  have turns := openEntered_turns bare x (issueSerial (acceptMsg m s)).2
  have frame := openEntered_frame bare x (issueSerial (acceptMsg m s)).2
  obtain ⟨y, found, laid⟩ := turns.here x (by rw [added, handle, fresh, if_pos rfl]; rfl)
  have tenant : t.id = msgTenant m := findTen_id ht
  have model : md.num = msgAt m 16 2 := (findKey_some hm).1
  rw [handle] at found
  refine ⟨_, run, ⟨y, found, ?_⟩, fun h other => ?_, ?_, ?_, ?_, ?_, ?_, ?_, ?_⟩
  · unfold LaidOut at laid
    rw [laid, ← made]
    exact ⟨tenant, model, rfl, rfl, rfl, rfl, rfl, rfl, rfl, rfl, rfl, rfl, rfl, rfl⟩
  · rw [turns.others h (by rw [handle]; exact other), added, if_neg (by rw [handle]; exact Ne.symm other), Option.or_none]
  · exact (congrArg (fun t : State => t.dev.nextSerial) frame :).trans ((issueSerial_next _).trans (congrArg (· + 1) serial))
  · exact (congrArg State.part frame :).trans ((congrArg State.part issued :).trans (congrArg State.part taken :))
  · exact (congrArg (fun t : State => t.nor.fuses) frame :).trans ((issueSerial_keeps _).fuses.trans (congrArg (fun t : State => t.nor.fuses) taken :))
  · exact (congrArg State.pins frame :).trans ((congrArg State.pins issued :).trans (congrArg State.pins taken :))
  · exact (congrArg State.models frame :).trans ((congrArg State.models issued :).trans (congrArg State.models taken :))
  · exact (congrArg State.store frame :).trans ((congrArg State.store issued :).trans (congrArg State.store taken :))
  · exact (congrArg State.rcl frame :).trans ((congrArg State.rcl issued :).trans (congrArg State.rcl taken :))

/-! ### TAP_RELEASE, BUDGET and CLOCK_FORWARD -/

/-- A tenant with another budget. -/
def withBudget (v : Nat) (t : Tenant) : Tenant := { t with budget := v }

/-- What a budget set leaves: all but the tenants, the device's log, the functions, the signals and the free values. -/
def BudgetFrame (s t : State) : Prop := t = { s with tens := t.tens, dev := t.dev, fns := t.fns, outs := t.outs, free := t.free }

theorem setBudget_frame {t : Nat} {s : State} {x : Tenant} (ht : findTen s t = some x) (v : Nat) :
    BudgetFrame s (setBudget t v s) ∧ (setBudget t v s).tens = (onTen t (withBudget v) s).tens := by
  unfold setBudget
  rw [ht]
  dsimp only
  split
  · have frame := healthSignal_frame (leadDie s) (budgetData t v) (onTen t (withBudget v) s)
    change BudgetFrame s (healthSignal (leadDie s) (budgetData t v) (onTen t (withBudget v) s)) ∧
      (healthSignal (leadDie s) (budgetData t v) (onTen t (withBudget v) s)).tens = _
    generalize healthSignal (leadDie s) (budgetData t v) (onTen t (withBudget v) s) = u at frame
    refine ⟨?_, (congrArg State.tens frame :)⟩
    unfold BudgetFrame
    rw [frame]
    rfl
  · exact ⟨rfl, rfl⟩

theorem exec_budget {m : Sprue} {s : State} {x : Tenant} (ha : Accepts m s) (ht : findTen (acceptMsg m s) (msgTenant m) = some x) (mode : msgAt m 24 1 ≤ 1) :
    exec (.budget m) s = .next (answerMsg m .done (if msgAt m 24 1 = 0 then min max64 (x.budget + msgAt m 16 8) else msgAt m 16 8) 0
      (setBudget (msgTenant m) (if msgAt m 24 1 = 0 then min max64 (x.budget + msgAt m 16 8) else msgAt m 16 8) (acceptMsg m s))) := by
  refine congrArg Host.Outcome.next ((takeMessage_accepts _ m _ s ha).trans ?_)
  unfold doBudget
  rw [ht]
  exact (if_neg (by omega)).trans (by rw [findTen_id ht])

/-- A restored entry's allowance aged (R63). -/
theorem exec_clock_forward {m : Sprue} {s : State} (ha : Accepts m s) (root : msgTenant m = 0) (first : (acceptMsg m s).dev.clocked = false) :
    exec (.clockForward m) s = .next (carried m { acceptMsg m s with
      dev := { (acceptMsg m s).dev with clocked := true }
      sess := (acceptMsg m s).sess.map fun x =>
        if x.restored && x.allowKind != 0 then { x with allowance := x.allowance - msgAt m 16 8 } else x }) := by
  refine congrArg Host.Outcome.next ((takeMessage_accepts _ m _ s ha).trans ?_)
  unfold doClockForward
  exact (if_neg (by simp [root])).trans (if_neg (by simp [first]))

/-- Settles O17: each message's own meaning in the state it acts in, of which only its sender, its tenant and the cores differ. -/
theorem plainMessagesAct : Obligations.PlainMessagesAct := by
  unfold Obligations.PlainMessagesAct
  refine ⟨fun m s ha _ low high => ?release, fun m s x ha op ht mode => ?budget, fun m s ha op root first => ?clock,
    fun m s serves crc minor unlisted => ?unknown, fun fn cause s => rfl⟩
  case release =>
    refine congrArg Host.Outcome.next ((takeMessage_accepts _ m _ s ha).trans ?_)
    exact if_neg (by omega)
  case budget =>
    have bare : msgHandle m = 0 := accepts_no_handle ha (by rw [op]; rfl)
    have taken := acceptMsg_takenBare bare s
    have tens : (acceptMsg m s).tens = s.tens := acceptMsg_tens_free (by rw [op]; rfl) s
    have ht' : findTen (acceptMsg m s) (msgTenant m) = some x := by rw [findTen, tens]; exact ht
    rw [exec_budget ha ht' mode]
    generalize hv : (if msgAt m 24 1 = 0 then min max64 (x.budget + msgAt m 16 8) else msgAt m 16 8) = v
    obtain ⟨frame, budgets⟩ := setBudget_frame ht' v
    have answered := answerMsg_bare bare .done v 0 (setBudget (msgTenant m) v (acceptMsg m s))
    have found : ∀ k, findTen (answerMsg m .done v 0 (setBudget (msgTenant m) v (acceptMsg m s))) k =
        if k = msgTenant m then (findTen s k).map (withBudget v) else findTen s k := fun k => by
      have same : (answerMsg m .done v 0 (setBudget (msgTenant m) v (acceptMsg m s))).tens = (onTen (msgTenant m) (withBudget v) s).tens :=
        (congrArg State.tens answered :).trans (budgets.trans (by unfold onTen; rw [tens]))
      rw [← findTen_onTen (msgTenant m) k (withBudget v) (fun _ => rfl) s, findTen, findTen, same]
    refine ⟨_, rfl, ?_, fun k other => by rw [found, if_neg other], ?_⟩
    · rw [found, if_pos rfl, ht, ← hv]
      rfl
    · unfold FnsOnly at answered
      unfold BudgetFrame at frame
      unfold TakenBare at taken
      rw [answered, frame, taken]
      exact ⟨rfl, rfl, rfl, rfl, rfl, rfl, rfl, rfl, rfl, rfl⟩
  case clock =>
    have bare : msgHandle m = 0 := accepts_no_handle ha (by rw [op]; rfl)
    have taken := acceptMsg_takenBare bare s
    have tens : (acceptMsg m s).tens = s.tens := acceptMsg_tens_free (by rw [op]; rfl) s
    have dev : (acceptMsg m s).dev = s.dev := (congrArg State.dev taken :)
    have sess : (acceptMsg m s).sess = s.sess := (congrArg State.sess taken :)
    rw [exec_clock_forward ha root (by rw [dev]; exact first), dev, sess]
    generalize hu : ({ acceptMsg m s with dev := _, sess := _ } : State) = u
    have done := carried_bare bare u
    unfold FnsOnly at done
    refine ⟨_, rfl, ?_⟩
    rw [done, ← hu]
    unfold TakenBare at taken
    refine ⟨rfl, List.map_congr_left fun x _ => by simp, tens, ?_⟩
    rw [taken]
    exact ⟨rfl, rfl, rfl, rfl, rfl, rfl⟩
  case unknown =>
    refine congrArg Host.Outcome.next ((if_pos serves).trans ?_)
    exact (if_neg (by simp [crc])).trans ((if_neg (by omega)).trans (if_pos (.inl unlisted)))

/-! ### Messages that a check stops -/

/-- A policed message without a token is counted, at its function and its tenant (R101). -/
theorem checkPolice_stops {m : Sprue} {s : State} {t : Tenant} (policed : opPoliced (msgOpcode m) = true) (ht : findTen s (msgTenant m) = some t)
    (empty : t.bucket < 1000000) (body : State → State) :
    checkPolice m body s = onFn m.fn (fun f => { f with policed := f.policed + 1 })
      (onTen t.id (fun x => { x with counters := { x.counters with policed := min max64 (x.counters.policed + 1) } }) s) := by
  unfold checkPolice
  rw [if_pos policed, ht]
  exact if_pos empty

/-- Settles O18: the checks of Table 3-2 read in their order, each at the message that it stops. -/
theorem badMessagesAreRefused : Obligations.BadMessagesAreRefused := by
  unfold Obligations.BadMessagesAreRefused
  refine ⟨fun c m body s idle => ⟨fun stops free => ?waits, fun full => ?discarded⟩, fun c m body s serves crc => ?crc,
    fun c m body s serves crc minor => ?minor, fun m body s t policed ht empty => ⟨_, checkPolice_stops policed ht empty body, ?_, rfl, ?_⟩,
    fun m body s e seen => ?duplicate⟩
  case waits =>
    refine (if_neg (by simp [idle])).trans (if_pos ?_)
    have other : ((fnOf s m.fn).slots.any fun p => p.1 == m.slot) = false := List.any_eq_false.mpr fun p hp => by simpa using free p hp
    simpa [other] using stops
  case discarded =>
    refine (if_neg (by simp [idle])).trans (if_neg ?_)
    rcases full with other | ⟨p, listed, same⟩
    · simpa using fun h => absurd h other
    · have held : ((fnOf s m.fn).slots.any fun p => p.1 == m.slot) = true := List.any_eq_true.mpr ⟨p, listed, by simpa using same⟩
      simp [held]
  case crc => exact (if_pos serves).trans (if_pos crc)
  case minor => exact (if_pos serves).trans ((if_neg (by simp [crc])).trans (if_pos minor))
  case duplicate =>
    unfold checkWindow
    rw [seen]
  · rw [fnOf_onFn_self]
    rfl
  · rw [fnOf_onFn_self]
    rfl

end Sys2Proof.Machine
end

section
/-! Reports and accounts, staged sets and commits: what each request is answered with and what it changes (R354, R474, R495 to R499, R540, R550,
R552). -/

namespace Sys2Proof.Machine

/-! ### Reports -/

/-- A request whose answer comes with what changes the functions and the signals alone. -/
theorem taken_answered_signals (r : MbReq) (op sub : Nat) (o : OCode) (payload : List Byte) (s : State) :
    Signals s (answerMb (mbTake r op sub s).1 o payload (mbTake r op sub s).2) := (mbTake_signals r op sub s).trans (answerMb_signals _ _ _ _)

theorem exec_health_read {r : MbReq} {sect cursor : Nat} {s : State} (ready : Ready r 0x40 s) (len : r.length = 8) (least : 1 ≤ sect) (most : sect ≤ 10) :
    exec (.healthRead r sect cursor) s = .next (answerMb (mbTake r 0x40 sect s).1 .done
      (leBytes 2 sect ++ zeros 2 ++ leBytes 4 (healthSection (mbTake r 0x40 sect s).2 sect).length ++
        leBytes 4 (pageFrom (healthSection (mbTake r 0x40 sect s).2 sect) cursor 4064).2 ++ zeros 4 ++
        (pageFrom (healthSection (mbTake r 0x40 sect s).2 sect) cursor 4064).1) (drawFree (mbTake r 0x40 sect s).2)) := by
  refine congrArg Host.Outcome.next ((mbSimple_ready r 0x40 sect _ _ s ready (by simp [len])).trans (if_pos ?_))
  simp [subListed, least, most]

/-- The function of a request with a report held for it. -/
def holding (r : MbReq) (mode : Nat) (bs : List Byte) (s : State) : State :=
  drawFree (onFn r.fn (fun f => { f with attest := some { mode := mode, bytes := bs } }) s)

/-- An ATTEST with cursor 0 holds its report and answers with its first page (R474). -/
theorem attest_first {r : MbReq} {s : State} (ready : Ready r 0x20 s) (len : r.length = 72) (mode : Nat) (build : State → List Byte) :
    attest r mode 0 build s = answerMb (mbTake r 0x20 mode s).1 .done (attestAnswer (build (mbTake r 0x20 mode s).2))
      (holding r mode (build (mbTake r 0x20 mode s).2) (mbTake r 0x20 mode s).2) :=
  (mbSimple_ready r 0x20 mode _ _ s ready (by simp [len])).trans (if_pos rfl)

theorem fnOf_holding (r : MbReq) (mode : Nat) (bs : List Byte) (s : State) :
    fnOf (holding r mode bs s) r.fn = { fnOf s r.fn with id := r.fn, attest := some { mode := mode, bytes := bs } } := by
  exact fnOf_onFn_self r.fn (fun f => { f with attest := some { mode := mode, bytes := bs } }) s

/-- The first page of a report answered: the report is held, and one free value is drawn. -/
theorem attest_first_answered (r : MbReq) (mode : Nat) (bs : List Byte) (s : State) :
    let t := answerMb (mbTake r 0x20 mode s).1 .done (attestAnswer bs) (holding r mode bs (mbTake r 0x20 mode s).2)
    Answered r 0x20 .done (attestAnswer bs) t ∧ (fnOf t r.fn).attest = some { mode := mode, bytes := bs } ∧
      t = { s with fns := t.fns, outs := t.outs, free := s.free + 1 } := by
  have held := fnOf_holding r mode bs (mbTake r 0x20 mode s).2
  refine ⟨answerMb_answered r 0x20 mode .done _ s _ (by rw [held]), ?_, ?_⟩
  · exact (congrArg Fn.attest (answerMb_turn _ _ _ _ r.fn) :).trans (by rw [held])
  · exact answerMb_signals (mbTake r 0x20 mode s).1 .done (attestAnswer bs) (holding r mode bs (mbTake r 0x20 mode s).2)

/-- Settles O19: each report is the page of its rule on the state as the request was taken. -/
theorem reportRequestsAnswer : Obligations.ReportRequestsAnswer := by
  unfold Obligations.ReportRequestsAnswer
  refine ⟨fun r s ready len => ⟨_, congrArg Host.Outcome.next (mbSimple_ready r 0x01 0 _ _ s ready (by simp [len])), answer_after r 0x01 0 .done _ s _ rfl,
      taken_answered_signals r 0x01 0 .done _ s⟩,
    fun r sect cursor s ready len least most => ⟨_, exec_health_read ready len least most, answer_after r 0x40 sect .done _ s _ rfl, answerMb_signals _ _ _ _⟩,
    fun r start s ready len => ⟨_, congrArg Host.Outcome.next (mbSimple_ready r 0x41 0 _ _ s ready (by simp [len])), answer_after r 0x41 0 .done _ s _ rfl,
      taken_answered_signals r 0x41 0 .done _ s⟩,
    fun r s ready len => ⟨_, congrArg Host.Outcome.next (attest_first ready len 0 certificateChain), attest_first_answered r 0 _ s⟩,
    fun r nonce s ready len => ⟨_, congrArg Host.Outcome.next (attest_first ready len 1 fun t => nativeReport t r nonce), attest_first_answered r 1 _ s⟩,
    fun r nonce s ready len => ⟨_, congrArg Host.Outcome.next (attest_first ready len 2 fun t => snirdaobReport t r nonce), attest_first_answered r 2 _ s⟩⟩

/-! ### Accounts -/

/-- Tenants after their accounts have been read: those of the page at zero, unless it was a peek (R354). -/
def clearedTens (peek : Bool) (page l : List Tenant) : List Tenant :=
  l.map fun t => if peek || !(page.any fun x => x.id == t.id) then t else { t with counters := {} }

theorem clearedTens_peek (page l : List Tenant) : clearedTens true page l = l := by simp [clearedTens]

theorem clearedTens_clears (page l : List Tenant) :
    clearedTens false page l = l.map fun x => if page.any (fun y => y.id == x.id) then { x with counters := {} } else x := by
  refine List.map_congr_left fun x _ => ?_
  cases h : page.any fun y => y.id == x.id <;> rfl

/-- What an account request of `named` tenants is answered with, from `cursor` on (Table 11-6). -/
def accountsAnswer (named page : List Tenant) (cursor : Nat) : List Byte :=
  leBytes 2 page.length ++ zeros 2 ++ leBytes 4 (if named.length ≤ cursor + 15 then 0 else cursor + 15) ++ zeros 8 ++ (page.map accountBytes).flatten

theorem readAccounts_reads {fn tenant cursor : Nat} {named page : List Tenant} {s : State}
    (hn : named = sortBy Tenant.id (s.tens.filter fun x => mayRead fn x && (tenant == 0xFFFF || x.id == tenant)))
    (hp : page = (named.drop cursor).take 15) (some_ : tenant = 0xFFFF ∨ named ≠ []) (peek : Bool) (q : Open) :
    readAccounts fn tenant peek cursor q s = answerMb q .done (accountsAnswer named page cursor) { s with tens := clearedTens peek page s.tens } := by
  unfold readAccounts
  dsimp only
  rw [← hn, ← hp, if_neg]
  · rfl
  · rintro ⟨one, none_⟩
    exact some_.elim one fun h => h (List.isEmpty_iff.mp none_)

/-- An answer given with other tenants leaves them. -/
theorem answerMb_tens (q : Open) (o : OCode) (payload : List Byte) (l : List Tenant) (s : State) :
    let t := answerMb q o payload { s with tens := l }
    t = { s with fns := t.fns, outs := t.outs, tens := t.tens } ∧ t.tens = l := by
  have said := answerMb_signals q o payload { s with tens := l }
  generalize answerMb q o payload { s with tens := l } = t at said
  unfold Signals at said
  exact ⟨by rw [said], by rw [said]⟩

/-- Settles O20: the accounts read are those of the state as the request was taken. -/
theorem accountReadClears : Obligations.AccountReadClears := by
  unfold Obligations.AccountReadClears
  intro r tenant cursor peek named page s ready len hn hp some_
  have run : exec (.accountRead r tenant peek cursor) s = .next (readAccounts r.fn tenant peek cursor (mbTake r 0x30 0 s).1 (mbTake r 0x30 0 s).2) :=
    congrArg Host.Outcome.next (mbSimple_ready r 0x30 0 _ _ s ready (by simp [len]))
  rw [run, readAccounts_reads (s := (mbTake r 0x30 0 s).2) hn hp some_]
  obtain ⟨frame, tens⟩ := answerMb_tens (mbTake r 0x30 0 s).1 .done (accountsAnswer named page cursor) (clearedTens peek page s.tens) (mbTake r 0x30 0 s).2
  refine ⟨_, rfl, answer_after r 0x30 0 .done _ s _ rfl, fun peeks => ?_, fun reads => ?_, frame⟩
  · subst peeks
    exact tens.trans (clearedTens_peek page s.tens)
  · subst reads
    exact tens.trans (clearedTens_clears page s.tens)

/-! ### Sets -/

theorem findSet_congr {s t : State} (same : t.stg.sets = s.stg.sets) (p : Nat) : findSet t p = findSet s p := by rw [findSet, same, findSet]

theorem find?_filter_other {l : List OpenSet} {p k : Nat} : (l.filter fun x => x.partition != k).find? (fun o => o.partition == p) =
    if p = k then none else l.find? fun o => o.partition == p := by
  rw [List.find?_filter]
  split
  next here =>
    subst here
    exact List.find?_eq_none.mpr fun o _ => by simp
  next other =>
    congr 1
    funext o
    by_cases h : o.partition = p
    · simp [h, other]
    · simp [h]

theorem findSet_dropSet (k : Nat) (s : State) (p : Nat) : findSet (dropSet k s) p = if p = k then none else findSet s p := find?_filter_other

theorem findSet_putSet (o : OpenSet) (s : State) (p : Nat) : findSet (putSet o s) p = if p = o.partition then some o else findSet s p := by
  have behind : findSet (putSet o s) p = (findSet (dropSet o.partition s) p).or (if o.partition = p then some o else none) := by
    unfold findSet putSet dropSet
    dsimp only
    rw [List.find?_append, List.find?_singleton]
    simp
  rw [behind, findSet_dropSet]
  by_cases here : p = o.partition
  · simp [here]
  · simp [here, Ne.symm here]

theorem findSet_partition {s : State} {p : Nat} {o : OpenSet} (found : findSet s p = some o) : o.partition = p := by
  simpa using List.find?_some found

/-! ### A change answered, at once or by its acknowledgement -/

/-- The answer that waits for the follower's acknowledgement (R511). -/
def mirrorOf (old : Staging) (q : Open) (o : OCode) (payload : List Byte) : MirrorWait :=
  { q := q, outcome := o, payload := payload, sets0 := old.sets, commits0 := old.commits, next0 := (old.nextSet, old.nextCommit) }

theorem mirrored_lone {s : State} (lone : hasFollower s = false) (old : Staging) (q : Open) (o : OCode) (payload : List Byte) :
    mirrored old q o payload s = answerMb q o payload s := if_neg (by simp [lone])

theorem mirrored_waits {s : State} (follows : hasFollower s = true) (old : Staging) (q : Open) (o : OCode) (payload : List Byte) :
    mirrored old q o payload s = { s with stg := { s.stg with mirrors := s.stg.mirrors ++ [mirrorOf old q o payload] } } := if_pos follows

/-- Either way the functions, the signals and the answers that wait change, and nothing else does. -/
theorem mirrored_frame (old : Staging) (q : Open) (o : OCode) (payload : List Byte) (s : State) :
    mirrored old q o payload s = { s with fns := (mirrored old q o payload s).fns, outs := (mirrored old q o payload s).outs
                                          stg := { s.stg with mirrors := (mirrored old q o payload s).stg.mirrors } } := by
  cases follows : hasFollower s with
  | true => rw [mirrored_waits follows]
  | false =>
    rw [mirrored_lone follows]
    have said := answerMb_signals q o payload s
    generalize answerMb q o payload s = t at said
    unfold Signals at said
    rw [said]

theorem mirrored_sets (old : Staging) (q : Open) (o : OCode) (payload : List Byte) (s : State) : (mirrored old q o payload s).stg.sets = s.stg.sets :=
  (congrArg (fun t : State => t.stg.sets) (mirrored_frame old q o payload s) :)

theorem mirrored_commits (old : Staging) (q : Open) (o : OCode) (payload : List Byte) (s : State) :
    (mirrored old q o payload s).stg.commits = s.stg.commits := (congrArg (fun t : State => t.stg.commits) (mirrored_frame old q o payload s) :)

/-- `t` differs from `s` in its functions, its signals and its staged sets alone. -/
def StagedFrame (s t : State) : Prop := t = { s with fns := t.fns, outs := t.outs, stg := t.stg }

theorem StagedFrame.trans {s t u : State} (a : StagedFrame s t) (b : StagedFrame t u) : StagedFrame s u := by
  unfold StagedFrame at *
  rw [b, a]

theorem Signals.staged {s t : State} (a : Signals s t) : StagedFrame s t := by
  unfold Signals at a
  unfold StagedFrame
  rw [a]

theorem mirrored_staged (old : Staging) (q : Open) (o : OCode) (payload : List Byte) (s : State) : StagedFrame s (mirrored old q o payload s) := by
  have frame := mirrored_frame old q o payload s
  generalize mirrored old q o payload s = t at frame
  unfold StagedFrame
  rw [frame]

theorem putSet_staged (o : OpenSet) (s : State) : StagedFrame s (putSet o s) := rfl

theorem dropSet_staged (p : Nat) (s : State) : StagedFrame s (dropSet p s) := rfl

/-- Items staged into a partition's set. -/
def stagedInto (p : Nat) (items : List Item) (s : State) : OpenSet :=
  match findSet s p with
  | some x => { x with items := x.items ++ items }
  | none => { partition := p, number := s.stg.nextSet, items := items }

/-- The state with items staged, before it is answered. -/
def withStaged (p : Nat) (items : List Item) (s : State) : State :=
  let t := putSet (stagedInto p items s) s
  if (findSet s p).isSome then t else { t with stg := { t.stg with nextSet := t.stg.nextSet + 1 } }

theorem stagedInto_holds (p : Nat) (items : List Item) (s : State) : (stagedInto p items s).partition = p ∧
    (stagedInto p items s).items = ((findSet s p).map OpenSet.items).getD [] ++ items ∧
    (stagedInto p items s).number = ((findSet s p).map OpenSet.number).getD s.stg.nextSet := by
  unfold stagedInto
  cases found : findSet s p with
  | none => exact ⟨rfl, rfl, rfl⟩
  | some x =>
    have named : x.partition = p := findSet_partition found
    exact ⟨named, rfl, rfl⟩

theorem withStaged_frame (p : Nat) (items : List Item) (s : State) : withStaged p items s =
    { s with stg := { s.stg with sets := (putSet (stagedInto p items s) s).stg.sets
                                 nextSet := if (findSet s p).isSome then s.stg.nextSet else s.stg.nextSet + 1 } } := by
  unfold withStaged
  split <;> rfl

theorem findSet_withStaged (p : Nat) (items : List Item) (s : State) (k : Nat) :
    findSet (withStaged p items s) k = if k = p then some (stagedInto p items s) else findSet s k := by
  have put := findSet_putSet (stagedInto p items s) s k
  rw [(stagedInto_holds p items s).1] at put
  rw [← put]
  exact findSet_congr (congrArg (fun t : State => t.stg.sets) (withStaged_frame p items s) :) k

theorem stageItems_stages {items : List Item} {q : Open} {s : State} (part : q.partition < 4) (some_ : items ≠ [])
    (good : items.any isInconsistent = false) (few : (((findSet s q.partition).map OpenSet.items).getD [] ++ items).length ≤ 65536)
    (short : ((((findSet s q.partition).map OpenSet.items).getD [] ++ items).map Item.bytes).sum ≤ 16777216) :
    stageItems items q s = mirrored s.stg q .done (leBytes 4 (((findSet s q.partition).map OpenSet.items).getD [] ++ items).length)
      (withStaged q.partition items s) := by
  have fits : ¬(4 ≤ q.partition ∨ items.isEmpty = true ∨ items.any isInconsistent = true ∨
      65536 < (((findSet s q.partition).map OpenSet.items).getD [] ++ items).length ∨
      16777216 < ((((findSet s q.partition).map OpenSet.items).getD [] ++ items).map Item.bytes).sum) := by
    rw [good]
    rintro (h | h | h | h | h)
    · omega
    · exact some_ (List.isEmpty_iff.mp h)
    · cases h
    · omega
    · omega
  unfold stageItems
  refine (if_neg fits).trans ?_
  unfold withStaged stagedInto
  cases findSet s q.partition <;> rfl

theorem withStaged_staged (p : Nat) (items : List Item) (s : State) : StagedFrame s (withStaged p items s) := by
  have frame := withStaged_frame p items s
  generalize withStaged p items s = t at frame
  unfold StagedFrame
  rw [frame]

/-- A CHECK with cursor 0 of an open set checks it whole (R497). -/
theorem checkOpen_checks {q : Open} {s : State} {o : OpenSet} (part : q.partition < 4) (found : findSet s q.partition = some o) :
    let v := checkSet false (some q.partition) o.items (afterAccepted s)
    checkOpen 0 q s = answerMb q (if v.isEmpty then .done else .checkFailed) (checkPayload { o with violations := v } 0)
      (putSet { o with violations := v } s) := by
  unfold checkOpen
  rw [if_neg (by omega), found]
  rfl

/-- Settles O21: what a STAGE adds and a CHECK finds, on the state as the request was taken. -/
theorem stageAndCheckSets : Obligations.StageAndCheckSets := by
  unfold Obligations.StageAndCheckSets
  refine ⟨fun r items s ready part some_ good few short => ?stage, fun r s o ready len part found => ?check⟩
  case stage =>
    have run : exec (.stage r items) s = .next (stageItems items (mbTake r 0x10 0 s).1 (mbTake r 0x10 0 s).2) :=
      congrArg Host.Outcome.next (mbSimple_ready r 0x10 0 _ _ s ready rfl)
    rw [run, stageItems_stages (q := (mbTake r 0x10 0 s).1) (s := (mbTake r 0x10 0 s).2) part some_ good few short]
    have staged := withStaged_frame r.partition items (mbTake r 0x10 0 s).2
    obtain ⟨_, items', number⟩ := stagedInto_holds r.partition items (mbTake r 0x10 0 s).2
    have sets := findSet_withStaged r.partition items (mbTake r 0x10 0 s).2
    have fns : (withStaged r.partition items (mbTake r 0x10 0 s).2).fns = (mbTake r 0x10 0 s).2.fns := (congrArg State.fns staged :)
    have follower : hasFollower (withStaged r.partition items (mbTake r 0x10 0 s).2) = hasFollower s := (congrArg hasFollower staged :)
    have frame := mirrored_frame (mbTake r 0x10 0 s).2.stg (mbTake r 0x10 0 s).1 .done
      (leBytes 4 (((findSet s r.partition).map OpenSet.items).getD [] ++ items).length) (withStaged r.partition items (mbTake r 0x10 0 s).2)
    have kept : ∀ k, findSet (mirrored (mbTake r 0x10 0 s).2.stg (mbTake r 0x10 0 s).1 .done
        (leBytes 4 (((findSet s r.partition).map OpenSet.items).getD [] ++ items).length) (withStaged r.partition items (mbTake r 0x10 0 s).2)) k =
          findSet (withStaged r.partition items (mbTake r 0x10 0 s).2) k := findSet_congr (congrArg (fun t : State => t.stg.sets) frame :)
    refine ⟨_, rfl, ⟨_, (kept r.partition).trans ((sets r.partition).trans (if_pos rfl)), items', number⟩,
      fun p other => (kept p).trans ((sets p).trans (if_neg other)), ?_, ?_, fun lone => ?_, fun follows => ?_, ?_⟩
    · exact (congrArg (fun t : State => t.stg.commits) frame :).trans (congrArg (fun t : State => t.stg.commits) staged :)
    · exact (congrArg (fun t : State => t.stg.nextSet) frame :).trans (congrArg (fun t : State => t.stg.nextSet) staged :)
    · show Answered r 0x10 .done _ (mirrored (mbTake r 0x10 0 s).2.stg (mbTake r 0x10 0 s).1 .done _ (withStaged r.partition items (mbTake r 0x10 0 s).2))
      rw [mirrored_lone (follower.trans lone)]
      exact answer_after r 0x10 0 .done _ s _ fns
    · show (fnOf (mirrored (mbTake r 0x10 0 s).2.stg (mbTake r 0x10 0 s).1 .done _ (withStaged r.partition items (mbTake r 0x10 0 s).2)) r.fn).mb.busy = true ∧
        ∃ w, (mirrored (mbTake r 0x10 0 s).2.stg (mbTake r 0x10 0 s).1 .done _ (withStaged r.partition items (mbTake r 0x10 0 s).2)).stg.mirrors = _ ∧ _
      rw [mirrored_waits (follower.trans follows)]
      refine ⟨?_, _, congrArg (· ++ _) (congrArg (fun t : State => t.stg.mirrors) staged :), rfl, rfl, rfl⟩
      have same : fnOf (withStaged r.partition items (mbTake r 0x10 0 s).2) r.fn = fnOf (mbTake r 0x10 0 s).2 r.fn := by rw [fnOf, fns, fnOf]
      exact (congrArg (fun f : Fn => f.mb.busy) same).trans (congrArg Mailbox.busy (mbTake_mb r 0x10 0 s))
    · have kept := (mbTake_signals r 0x10 0 s).staged.trans (withStaged_staged r.partition items (mbTake r 0x10 0 s).2)
      exact kept.trans (mirrored_staged _ _ _ _ _)
  case check =>
    have checked := checkOpen_checks (q := (mbTake r 0x11 0 s).1) (s := (mbTake r 0x11 0 s).2) part found
    have run : exec (.check r 0) s = .next (checkOpen 0 (mbTake r 0x11 0 s).1 (mbTake r 0x11 0 s).2) :=
      congrArg Host.Outcome.next (mbSimple_ready r 0x11 0 _ _ s ready (by simp [len]))
    rw [run, checked]
    generalize hv : checkSet false (some (mbTake r 0x11 0 s).1.partition) o.items (afterAccepted (mbTake r 0x11 0 s).2) = v
    have said := answerMb_signals (mbTake r 0x11 0 s).1 (if v.isEmpty then .done else .checkFailed) (checkPayload { o with violations := v } 0)
      (putSet { o with violations := v } (mbTake r 0x11 0 s).2)
    have sets := fun p => (findSet_congr (congrArg (fun t : State => t.stg.sets) said :) p).trans (findSet_putSet { o with violations := v } _ p)
    have named : o.partition = r.partition := findSet_partition found
    refine ⟨_, v, rfl, hv.symm, answer_after r 0x11 0 _ _ s _ rfl, (sets _).trans (if_pos named.symm),
      fun p other => (sets p).trans (if_neg (by rw [named]; exact other)), ?_⟩
    exact ((mbTake_signals r 0x11 0 s).staged.trans (putSet_staged { o with violations := v } _)).trans said.staged

/-! ### Commits -/

/-- The commit that a COMMIT of the set `o` makes. -/
def commitOf (o : OpenSet) (pour : Nat) (q : Open) (s : State) : Commit :=
  { number := s.stg.nextCommit, partition := q.partition, fn := q.fn, pour := max pour s.sched.next, items := o.items
    req := if isComposition o.items then some q else none }

/-- The state with a commit accepted, before it is answered. -/
def withCommit (c : Commit) (s : State) : State :=
  let t := dropSet c.partition s
  { t with stg := { t.stg with commits := t.stg.commits ++ [c], nextCommit := t.stg.nextCommit + 1 } }

theorem withCommit_staged (c : Commit) (s : State) : StagedFrame s (withCommit c s) := rfl

theorem findSet_withCommit (c : Commit) (s : State) (p : Nat) : findSet (withCommit c s) p = if p = c.partition then none else findSet s p :=
  findSet_dropSet c.partition s p

theorem acceptCommit_accepts {pour : Nat} {q : Open} {s : State} {o : OpenSet} (part : q.partition < 4) (found : findSet s q.partition = some o)
    (free : findCommit s q.partition = none) (clean : checkSet false (some q.partition) o.items (afterAccepted s) = []) :
    acceptCommit (tokenOfSet o) pour q s =
      if isComposition o.items then withCommit (commitOf o pour q s) s
      else mirrored s.stg q .done (commitAnswer s.stg.nextCommit (max pour s.sched.next)) (withCommit (commitOf o pour q s) s) := by
  unfold acceptCommit
  refine (if_neg (by omega)).trans ?_
  rw [found]
  refine (if_neg (by simp [free])).trans ?_
  rw [clean]
  rfl

theorem acceptCommit_conflicts {token pour : Nat} {q : Open} {s : State} {o : OpenSet} (part : q.partition < 4) (found : findSet s q.partition = some o)
    (other : token ≠ tokenOfSet o) : acceptCommit token pour q s = answerMb q .commitConflict [] s := by
  unfold acceptCommit
  refine (if_neg (by omega)).trans ?_
  rw [found]
  exact if_pos (.inl other)

/-- A commit accepted, answered at once or later or not before its publication, stands last with the next number, and its set is open no more. -/
structure CommitStands (c : Commit) (s t : State) : Prop where
  commits : t.stg.commits = s.stg.commits ++ [c]
  next : t.stg.nextCommit = s.stg.nextCommit + 1
  sets : ∀ p, findSet t p = if p = c.partition then none else findSet s p
  frame : StagedFrame s t

theorem withCommit_stands (c : Commit) (s : State) : CommitStands c s (withCommit c s) := ⟨rfl, rfl, findSet_withCommit c s, withCommit_staged c s⟩

theorem CommitStands.answered {c : Commit} {s t : State} (a : CommitStands c s t) (old : Staging) (q : Open) (o : OCode) (payload : List Byte) :
    CommitStands c s (mirrored old q o payload t) := by
  have frame := mirrored_frame old q o payload t
  exact ⟨(mirrored_commits old q o payload t).trans a.commits, (congrArg (fun t : State => t.stg.nextCommit) frame :).trans a.next,
    fun p => (findSet_congr (mirrored_sets old q o payload t) p).trans (a.sets p), a.frame.trans (mirrored_staged old q o payload t)⟩

theorem acceptCommit_stands {pour : Nat} {q : Open} {s : State} {o : OpenSet} (part : q.partition < 4) (found : findSet s q.partition = some o)
    (free : findCommit s q.partition = none) (clean : checkSet false (some q.partition) o.items (afterAccepted s) = []) :
    CommitStands (commitOf o pour q s) s (acceptCommit (tokenOfSet o) pour q s) := by
  rw [acceptCommit_accepts part found free clean]
  split
  · exact withCommit_stands _ s
  · exact (withCommit_stands _ s).answered _ _ _ _

/-! ### Sets and commits discarded -/

/-- The state with an accepted commit gone. -/
def withoutCommit (c : Commit) (s : State) : State := { s with stg := { s.stg with commits := s.stg.commits.filter fun k => k.number != c.number } }

theorem exec_discard_commit {r : MbReq} {s : State} {c : Commit} (ready : Ready r 0x13 s) (len : 1 ≤ r.length) (part : r.partition < 4)
    (found : findCommit s r.partition = some c) : exec (.discardCommit r) s = .next (mirrored (mbTake r 0x13 1 s).2.stg (mbTake r 0x13 1 s).1 .done []
      (refuseComposition c (withoutCommit c (mbTake r 0x13 1 s).2))) := by
  refine congrArg Host.Outcome.next ((mbSimple_ready r 0x13 1 _ _ s ready (by simp [len])).trans ?_)
  have found' : findCommit (mbTake r 0x13 1 s).2 (mbTake r 0x13 1 s).1.partition = some c := found
  refine (if_neg (show ¬4 ≤ r.partition by omega)).trans ?_
  rw [found']
  rfl

theorem exec_discard_set {r : MbReq} {s : State} {o : OpenSet} (ready : Ready r 0x13 s) (len : 1 ≤ r.length) (part : r.partition < 4)
    (found : findSet s r.partition = some o) : exec (.discardSet r) s = .next (mirrored (mbTake r 0x13 0 s).2.stg (mbTake r 0x13 0 s).1 .done []
      (dropSet r.partition (mbTake r 0x13 0 s).2)) := by
  refine congrArg Host.Outcome.next ((mbSimple_ready r 0x13 0 _ _ s ready (by simp [len])).trans ?_)
  have found' : findSet (mbTake r 0x13 0 s).2 (mbTake r 0x13 0 s).1.partition = some o := found
  exact if_pos ⟨part, by rw [found']; rfl⟩

theorem refuseComposition_plain {c : Commit} (plain : c.req = none) (s : State) : refuseComposition c s = s := by
  unfold refuseComposition
  rw [plain]

/-- Settles O22: what each request makes of the sets and the commits, on the state as it was taken. -/
theorem commitAndDiscardSets : Obligations.CommitAndDiscardSets := by
  unfold Obligations.CommitAndDiscardSets
  refine ⟨fun r pour s o ready len part found free clean => ?commit, fun r token pour s o ready len part found other => ?conflict,
    fun r s o ready len part found => ?set, fun r s c ready len part found => ?discard⟩
  case commit =>
    have run : exec (.commit r (tokenOfSet o) pour) s = .next (acceptCommit (tokenOfSet o) pour (mbTake r 0x12 0 s).1 (mbTake r 0x12 0 s).2) :=
      congrArg Host.Outcome.next (mbSimple_ready r 0x12 0 _ _ s ready (by simp [len]))
    have stands := acceptCommit_stands (pour := pour) (q := (mbTake r 0x12 0 s).1) (s := (mbTake r 0x12 0 s).2) part found free clean
    refine ⟨_, _, run, stands.commits, rfl, rfl, rfl, rfl, rfl, stands.next, (stands.sets r.partition).trans (if_pos rfl),
      fun p other => (stands.sets p).trans (if_neg other), fun plain lone => ?_, (mbTake_signals r 0x12 0 s).staged.trans stands.frame⟩
    rw [acceptCommit_accepts (q := (mbTake r 0x12 0 s).1) (s := (mbTake r 0x12 0 s).2) part found free clean, if_neg (by simp [plain])]
    have lone' : hasFollower (withCommit (commitOf o pour (mbTake r 0x12 0 s).1 (mbTake r 0x12 0 s).2) (mbTake r 0x12 0 s).2) = false := lone
    rw [mirrored_lone lone']
    exact answer_after r 0x12 0 .done _ s _ rfl
  case conflict =>
    have run : exec (.commit r token pour) s = .next (acceptCommit token pour (mbTake r 0x12 0 s).1 (mbTake r 0x12 0 s).2) :=
      congrArg Host.Outcome.next (mbSimple_ready r 0x12 0 _ _ s ready (by simp [len]))
    rw [run, acceptCommit_conflicts (q := (mbTake r 0x12 0 s).1) (s := (mbTake r 0x12 0 s).2) part found other]
    exact ⟨_, rfl, answer_after r 0x12 0 .commitConflict [] s _ rfl, taken_answered_signals r 0x12 0 .commitConflict [] s⟩
  case set =>
    have sets := fun p => (findSet_congr (mirrored_sets (mbTake r 0x13 0 s).2.stg (mbTake r 0x13 0 s).1 .done [] (dropSet r.partition (mbTake r 0x13 0 s).2)) p).trans
      (findSet_dropSet r.partition (mbTake r 0x13 0 s).2 p)
    refine ⟨_, exec_discard_set ready len part found, (sets _).trans (if_pos rfl), fun p other => (sets p).trans (if_neg other),
      mirrored_commits _ _ _ _ _, fun lone => ?_, ?_⟩
    · have lone' : hasFollower (dropSet r.partition (mbTake r 0x13 0 s).2) = false := lone
      rw [mirrored_lone lone']
      exact answer_after r 0x13 0 .done [] s _ rfl
    · exact ((mbTake_signals r 0x13 0 s).staged.trans (dropSet_staged r.partition _)).trans (mirrored_staged _ _ _ _ _)
  case discard =>
    have refused := refuseComposition_signals c (withoutCommit c (mbTake r 0x13 1 s).2)
    have stg : (refuseComposition c (withoutCommit c (mbTake r 0x13 1 s).2)).stg = (withoutCommit c (mbTake r 0x13 1 s).2).stg := (congrArg State.stg refused :)
    refine ⟨_, exec_discard_commit ready len part found, ?_, ?_, fun plain lone => ?_, ?_⟩
    · rw [mirrored_commits, stg]
      rfl
    · rw [mirrored_sets, stg]
      rfl
    · have lone' : hasFollower (withoutCommit c (mbTake r 0x13 1 s).2) = false := lone
      rw [refuseComposition_plain plain, mirrored_lone lone']
      exact answer_after r 0x13 1 .done [] s _ rfl
    · have gone : StagedFrame (mbTake r 0x13 1 s).2 (withoutCommit c (mbTake r 0x13 1 s).2) := rfl
      exact (((mbTake_signals r 0x13 1 s).staged.trans gone).trans refused.staged).trans (mirrored_staged _ _ _ _ _)

end Sys2Proof.Machine
end
